-- ==== Sys2Proof/Word.lean ====
section
/-! DEFINITION. The plain types every file uses: bytes, words, and sparse tables in canonical form. -/

namespace Sys2Proof

/-- One byte of a packet or of memory. -/
abbrev Byte := BitVec 8

/-- One 32-bit word: a header word, a word of an argument block, or a word of a record (R32, R353). -/
abbrev Word := BitVec 32

/-- A sparse table: (key, value) pairs with strictly rising keys and no entry equal to the value an
unlisted key reads as. `Sys2Proof.Machine.Tab` files hold its operations. -/
abbrev Tab (α : Type) := List (Nat × α)

end Sys2Proof
end

