-- ==== Sys2Proof/Syntax.lean ====
section
/-! DEFINITION. The commands of the block, one constructor for each row of the operation table, and the plain
data their operands are made of. -/

namespace Sys2Proof

/-- How the argument block of a command entry is given when ARG_INDIRECT = 1 (R352, R353): ARG_LEN, ARG_PTR and
whether some word of M8 to M15 is not 0. -/
structure Indirect where
  argLen : Word
  argPtr : BitVec 64
  restSet : Bool
  deriving DecidableEq, Repr

/-- The header of one command entry as the Hearth fetched it (R352): the ring it was fetched from, TAG, VECTOR,
IF_VER, DL_MODE and the three deadline words, whether a reserved field of M0 to M4 is set, and the indirect form. -/
structure CmdHdr where
  ring : Fin 4
  tag : BitVec 16
  vector : BitVec 6
  ifVer : Byte
  dlMode : BitVec 2
  m2 : Word
  m3 : Word
  m4 : Word
  reservedSet : Bool
  indirect : Option Indirect
  deriving DecidableEq, Repr

/-- A packet header, W0 to W7 (R32). -/
structure Header where
  w0 : Word
  w1 : Word
  w2 : Word
  w3 : Word
  w4 : Word
  w5 : Word
  w6 : Word
  w7 : Word
  deriving DecidableEq, Repr

/-- A whole packet: header, payload and the CRC-64 its trailer carries (R31). -/
structure Packet where
  hdr : Header
  payload : List Byte
  crc : BitVec 64
  deriving DecidableEq, Repr

/-- The PCIe resets of R365. -/
inductive PcieReset where
  | fundamental
  | hot
  | functionLevel
  deriving DecidableEq, Repr

/-- KIND of a withdrawal request (R263). -/
inductive WdKind where
  | cal
  | swap
  | force
  deriving DecidableEq, Repr

/-- Why a training failed (R267, R268). -/
inductive TrainFailCause where
  | time
  | noCommon
  | portMismatch
  deriving DecidableEq, Repr

/-- What the training of a lane learned of its far end (R260, R261, R266, R273): its capability word, the identity
its markers carry, the measured round trip in units of 10 ns, whether step 4 failed at 200 Gbit/s (R268), and
how many full markers each end has received of the other (R234). -/
structure FarEnd where
  cap : BitVec 64
  deviceTag : Word
  lane : BitVec 10
  tag : BitVec 4
  endpointId : BitVec 24
  rtt : Nat
  fellTo100 : Bool
  markersIn : Nat
  markersOut : Nat
  deriving DecidableEq, Repr

/-- How a short retraining, or the lock and the retraining that end other work, came out (R233 to R235, R269): the lane
trained, with the full markers that each end has received of the other; the identity check failed; or a ring, the receive
ring or the transmit ring, did not lock or the lane did not train. -/
inductive RetrainEnd where
  | trained (markersIn markersOut : Nat)
  | wrongIdentity
  | failed (rxRing : Bool)
  deriving DecidableEq, Repr

/-- How the slot of a received flit and the read that it calls for came out (R247, R252, R377): the FEC has corrected so many
symbols of the slot, none in a clean one; a codeword of it is uncorrectable; or the flit asks for a replay, and the retry buffer's oldest packet that has not
been acknowledged reads with an uncorrectable error. -/
inductive FlitEnd where
  | clean (corrected : Nat)
  | uncorrectable
  | retryUe
  deriving DecidableEq, Repr

/-- The tables whose entries carry parity (R84, R375). -/
inductive TableKind where
  | endpoint
  | explicitA
  | explicitB
  | podA
  | podB
  | bundle
  | tree
  | window
  | partition
  | allow
  | hint
  | kindling
  deriving DecidableEq, Repr

/-- What befalls an entry's copy in one half (R84): its parity begins to fail; or the entry is repaired after a read has found
the copy, where the other half's copy may fail too. -/
inductive ParityStep where
  | fails
  | repair (otherFails : Bool)
  deriving DecidableEq, Repr

/-- Where an error correction acts (R375, R376): at a read of the patrol or an ordinary read of a device address, in a cell of a
barn's Loft, in a lane's retry buffer, or in the Hearth's SRAM. -/
inductive EccSite where
  | patrol (addr : Nat)
  | read (addr : Nat)
  | loft (barn : Fin 16)
  | retryBuf (lane : Fin 1024)
  | sram
  deriving DecidableEq, Repr

/-- An access to the Hearth's registers (R343, R348, R420): a write of 32 bits, a write of 64 bits whose upper word is given, a
write of another width; reads of the same kinds; and a transfer on the auxiliary interface that writes bytes or reads so many of
them. -/
inductive RegAccess where
  | write32 (offset : BitVec 16)
  | write64 (offset : BitVec 16) (high : Word)
  | writeOther (offset : BitVec 16)
  | read32 (offset : BitVec 16)
  | read64 (offset : BitVec 16)
  | readOther (offset : BitVec 16)
  | auxWrite (addr : BitVec 24) (bytes : List Byte)
  | auxRead (addr : BitVec 24) (count : Nat)
  deriving DecidableEq, Repr

/-- How the comparison of a winnowed result came out (R176). -/
inductive WinnowVerdict where
  | equal
  | witnessRight
  | primaryRight
  | unresolved
  deriving DecidableEq, Repr

/-- The work in which a residue fault arose (R172, R173, R183): an index's reduction, its addition into the accumulation region,
its output conversion, a comparison, a chunk of a harvest, a norm pass. -/
inductive ResidueWork where
  | index (ctx : Fin 4096) (index : Nat)
  | addition (ctx : Fin 4096) (index : Nat)
  | conversion (ctx : Fin 4096) (index : Nat)
  | winnow (ctx : Fin 4096) (index : Nat)
  | chunk (harvest : BitVec 16) (group : Fin 1024) (chunk : Nat)
  | norm (pass : Fin 4)
  deriving DecidableEq, Repr

/-- What the owner of a channel was doing when the channel's watchdog fired (R211): a threshing unit's work, the transfer of a
spilled packet of a barn, a move, a remote access, a witness's read, the Hearth's work for a detached command at an address, a read
through BAR2, or something else. -/
inductive WatchWork where
  | unit (work : ResidueWork)
  | spill (barn : Fin 16) (pid : Nat)
  | move (move : Fin 16)
  | remote (pkt : Packet)
  | witness (ctx : Fin 4096) (index : Nat)
  | command (serial addr : Nat)
  | bar2
  | other
  deriving DecidableEq, Repr

/-- A SHEAF as it is terminated, and whether the open index's accumulator in the Loft or a staged contribution reads with an
uncorrectable error (R139, R377): the member whose contribution it is, or none for the accumulator. -/
structure SheafRx where
  pkt : Packet
  ue : Option (Option (Fin 1024)) := none
  deriving DecidableEq, Repr

/-- A barn whose staged contributions move to the staging store, and the context, index and member of one that reads with an
uncorrectable error (R198, R377). -/
structure StagingRead where
  barn : Fin 16
  ue : Option (Fin 4096 × Nat × Fin 1024) := none
  deriving DecidableEq, Repr

/-- How the computation of a harvest chunk ended (R183, R377). -/
inductive ChunkEvent where
  | written
  | outvoted (primary : Bool)
  | unresolved
  | uncorrectable (addr : Nat)
  deriving DecidableEq, Repr

/-- The results of the tests of one slice (R240, R241). -/
structure SliceTest where
  loopback : Bool
  heater : Bool
  dark : Bool
  barnRef : Bool
  spareFails : List (Fin 16)
  deriving DecidableEq, Repr

/-- The entry header of a command that reads retained results again, with those whose copies fail as they are read (R151,
R440). -/
structure RereadHdr extends CmdHdr where
  bad : List Nat
  deriving DecidableEq, Repr

/-- A received header, with the table entries whose copies fail their parity as they are read for it (R84). -/
structure HeaderRead where
  hdr : Header
  bad : List (TableKind × Nat)
  deriving DecidableEq, Repr

/-- What a REHOME_ACK carries: the MTAG of the request that it answers and the last SEQ accepted (R265). -/
structure RehomeAnswer where
  mtag : BitVec 16
  lastSeq : BitVec 12
  deriving DecidableEq, Repr

/-- How a short retraining came out, and whether the far end has signalled DONE (R230, R264). -/
structure Retrained where
  result : RetrainEnd
  done : Bool
  deriving DecidableEq, Repr

/-- The port of a selection, and whether the queue entry or a cell descriptor of the packet fails its parity (R377). -/
structure Selection where
  port : Fin 1024
  parityFails : Bool
  deriving DecidableEq, Repr

/-- What a channel's watchdog meets: the owner's work, and whether its second attempt fails too (R211). -/
structure Watched where
  work : WatchWork
  retryFails : Bool
  deriving DecidableEq, Repr

/-- A lane that loses lock, in its receive ring or its transmit ring (R234, R235). -/
structure LostLock where
  lane : Fin 1024
  rxRing : Bool
  deriving DecidableEq, Repr

/-- A core of the Hearth that has stopped, and whether an uncorrectable error of its SRAM has halted it (R366, R377). -/
structure HaltedCore where
  core : Fin 4
  sramUe : Bool
  deriving DecidableEq, Repr

/-- What a start of the AUX domain finds: the recovery pin, which copies of the vendor key digest and of the UID fail their
CRC, and which of the firmware slots' copies do: bit 2j for the first copy of slot j, bit 2j + 1 for its second
(R375, R389, R390, R421). -/
structure AuxStart where
  recoveryLow : Bool
  badCopies : BitVec 4
  badSlots : BitVec 4 := 0
  deriving DecidableEq, Repr

/-- The measurements of one Flue tuning (R281, R282, R289): which rings lock, whether light is present on FR A and
FR B, the incoming powers in 0.1 dBm and the mesh losses in 0.01 dB. -/
structure FlueMeas where
  lockA : Bool
  lockB : Bool
  lightA : Bool
  lightB : Bool
  pinA : Int
  pinB : Int
  ilAB : Nat
  ilBA : Nat
  deriving DecidableEq, Repr

/-- What the power-up optics measure (R242): the two master references, the lasers' readings against their
baselines in 0.01 dB, and the lanes that fail their slice tests; and the copies of calibration records that fail their CRC-32
(R394): a user record by KIND and index with the copy, 0 or 1, and a factory record by what it serves with the copy. -/
structure OpticsUp where
  ref0Ok : Bool
  ref1Ok : Bool
  lasers : List Int
  lanesFail : List (Fin 1024)
  userBad : List (Fin 5 × Nat × Fin 2) := []
  lanesBad : List (Fin 1024 × Fin 2) := []
  lasersBad : List (Fin 80 × Fin 2) := []
  deriving DecidableEq, Repr

/-- The commands of the block: one constructor per row of spec/opcode_table.json. A mailbox command carries
its entry header and its argument block, an event carries what its environment decides. -/
inductive Instr where
  /-- ROUTE_WRITE (R85). Writes explicit entries or pod descriptors of the non-active route version from host images. -/
  | routeWrite (h : CmdHdr) (args : List Word)
  /-- ROUTE_READ (R85). Copies explicit entries or pod descriptors of either route version to the host. -/
  | routeRead (h : CmdHdr) (args : List Word)
  /-- ROUTE_SEAL (R72). Moves the non-active version from OPEN to SEALED and returns its CRC-32. -/
  | routeSeal (h : CmdHdr) (args : List Word)
  /-- ROUTE_UNSEAL (R68). Returns a SEALED non-active version to OPEN. -/
  | routeUnseal (h : CmdHdr) (args : List Word)
  /-- ROUTE_COMMIT (R71). Flips the active route version at once and reports t_f. -/
  | routeCommit (h : CmdHdr) (args : List Word)
  /-- ROUTE_CONFIG (R70). Sets the drain parameter D, AGE_S and the eviction mode. -/
  | routeConfig (h : CmdHdr) (args : List Word)
  /-- ENDPOINT_WRITE (R63). Writes or invalidates static endpoint entries in both halves as a whole. -/
  | endpointWrite (h : CmdHdr) (args : List Word)
  /-- ENDPOINT_FLUSH (R82). Invalidates learned endpoint entries in both halves. -/
  | endpointFlush (h : CmdHdr) (args : List Word)
  /-- ENDPOINT_READ (R85). Copies one half's endpoint entries to the host. -/
  | endpointRead (h : CmdHdr) (args : List Word)
  /-- BUNDLE_WRITE (R66). Replaces a whole bundle record. -/
  | bundleWrite (h : CmdHdr) (args : List Word)
  /-- TREE_WRITE (R67). Replaces a multicast tree record as one entry. -/
  | treeWrite (h : CmdHdr) (args : List Word)
  /-- CORE_BUF (R90). Sets a barn's buffer accounts and egress hold thresholds. -/
  | coreBuf (h : CmdHdr) (args : List Word)
  /-- CORE_CREDIT (R105). Sets the credit allowance of a port and class. -/
  | coreCredit (h : CmdHdr) (args : List Word)
  /-- CORE_SPILL (R112). Sets the spill region size and spill class mask. -/
  | coreSpill (h : CmdHdr) (args : List Word)
  /-- FLOOR_CONFIG (R99). Sets WAIT_LIMIT for every Floor plane. -/
  | floorConfig (h : CmdHdr) (args : List Word)
  /-- FLOOR_PLANE_RESTORE (R102). Tests a fenced Floor plane by loop-back and returns it to service if it passes. -/
  | floorPlaneRestore (h : CmdHdr) (args : List Word)
  /-- CORE_QUEUE_READ (R115). Copies queue entries and cell descriptors of a barn to the host. -/
  | coreQueueRead (h : CmdHdr) (args : List Word)
  /-- SHAPER_WRITE (R122). Writes shaper profiles of a port for a bank, applied at a refill instant. -/
  | shaperWrite (h : CmdHdr) (args : List Word)
  /-- SHAPER_BANK_SET (R122). Sets the active shaper bank from the next refill instant. -/
  | shaperBankSet (h : CmdHdr) (args : List Word)
  /-- POLICER_WRITE (R124). Writes the policers of a port for the classes named. -/
  | policerWrite (h : CmdHdr) (args : List Word)
  /-- PORT_SCHED_READ (R130). Copies port scheduling status words and bucket TOKENS to the host. -/
  | portSchedRead (h : CmdHdr) (args : List Word)
  /-- CTX_CREATE (R134). Creates a collective context from a descriptor and makes it ACTIVE. -/
  | ctxCreate (h : CmdHdr) (args : List Word)
  /-- CTX_ABORT (R159). Aborts an ACTIVE context with reason COMMAND. -/
  | ctxAbort (h : CmdHdr) (args : List Word)
  /-- CTX_REARM (R159). Re-arms a context with a new epoch, clearing window, retention and pending substitution. -/
  | ctxRearm (h : CmdHdr) (args : List Word)
  /-- CTX_SUBSTITUTE (R152). Replaces a member's endpoint from a future epoch and sends SUBSTITUTE. -/
  | ctxSubstitute (h : CmdHdr) (args : List Word)
  /-- CTX_DESTROY (R159). Frees an ABORTED context and its staging and retention. -/
  | ctxDestroy (h : CmdHdr) (args : List Word)
  /-- CTX_STATUS_READ (R158). Copies context status records to the host. -/
  | ctxStatusRead (h : CmdHdr) (args : List Word)
  /-- CTX_READ (R159). Copies a context descriptor to the host. -/
  | ctxRead (h : CmdHdr) (args : List Word)
  /-- CTX_BRANCH_READ (R439). Returns the AND of delivered masks of retained sheaves in a range. -/
  | ctxBranchRead (h : CmdHdr) (args : List Word)
  /-- CTX_RESEND_BRANCH (R440). Sends chosen retained results again on a port mask. -/
  | ctxResendBranch (h : RereadHdr) (args : List Word)
  /-- TU_STATUS_READ (R186). Copies threshing unit status records to the host. -/
  | tuStatusRead (h : CmdHdr) (args : List Word)
  /-- TU_FENCE (R187). Fences a threshing unit with cause 3. -/
  | tuFence (h : CmdHdr) (args : List Word)
  /-- TU_UNFENCE (R187). Self-tests a fenced unit and returns it to service if the test passes. -/
  | tuUnfence (h : CmdHdr) (args : List Word)
  /-- HARVEST_GROUP_WRITE (R179). Writes parameter group records. -/
  | harvestGroupWrite (h : CmdHdr) (args : List Word)
  /-- HARVEST_GROUP_READ (R187). Copies parameter group records to the host. -/
  | harvestGroupRead (h : CmdHdr) (args : List Word)
  /-- HARVEST_RUN (R180). Starts a harvest step over a range of parameter groups. -/
  | harvestRun (h : CmdHdr) (args : List Word)
  /-- HARVEST_ABORT (R187). Stops a running harvest after the chunks in progress. -/
  | harvestAbort (h : CmdHdr) (args : List Word)
  /-- NORM_PASS (R185). Starts a sum-of-squares pass over the gradients of a range of groups. -/
  | normPass (h : CmdHdr) (args : List Word)
  /-- MEM_WINDOW_WRITE (R195). Writes a Granary window entry. -/
  | memWindowWrite (h : CmdHdr) (args : List Word)
  /-- MEM_WINDOW_READ (R223). Copies window entries to the host. -/
  | memWindowRead (h : CmdHdr) (args : List Word)
  /-- MEM_POOL (R196). Sets the size of the device pool. -/
  | memPool (h : CmdHdr) (args : List Word)
  /-- MEM_LOFT (R200). Sets a barn's staging cells. -/
  | memLoft (h : CmdHdr) (args : List Word)
  /-- MEM_SCRATCH (R204). Sets a barn's scratchpad cells. -/
  | memScratch (h : CmdHdr) (args : List Word)
  /-- MEM_HINT_WRITE (R203). Writes a region hint table entry. -/
  | memHintWrite (h : CmdHdr) (args : List Word)
  /-- MEM_BAR2_MAP (R205). Sets the BAR2 target. -/
  | memBar2Map (h : CmdHdr) (args : List Word)
  /-- MEM_MOVE (R206). Starts a copy between memory tiers. -/
  | memMove (h : CmdHdr) (args : List Word)
  /-- MEM_ARB_CONFIG (R223). Sets BURST_LIMIT, WAIT_LIMIT and WD_US of every channel arbiter. -/
  | memArbConfig (h : CmdHdr) (args : List Word)
  /-- MEM_THERMAL (R213). Sets the Granary thermal mode and THR. -/
  | memThermal (h : CmdHdr) (args : List Word)
  /-- MEM_HOLD (R220). Takes a memory tier out of service. -/
  | memHold (h : CmdHdr) (args : List Word)
  /-- MEM_RELEASE (R220). Retrains a held tier and returns it to service. -/
  | memRelease (h : CmdHdr) (args : List Word)
  /-- MEM_MARGIN (R220). Margins the channels of a held tier and writes margin records. -/
  | memMargin (h : CmdHdr) (args : List Word)
  /-- MEM_SILO_DETACH (R218). Prepares a Silo port for device removal. -/
  | memSiloDetach (h : CmdHdr) (args : List Word)
  /-- MEM_STATUS_READ (R222). Copies memory status words to the host. -/
  | memStatusRead (h : CmdHdr) (args : List Word)
  /-- LANE_STATUS_READ (R243). Copies lane status words to the host. -/
  | laneStatusRead (h : CmdHdr) (args : List Word)
  /-- KILN_STATUS_READ (R244). Copies the 80 laser status words to the host. -/
  | kilnStatusRead (h : CmdHdr) (args : List Word)
  /-- CAL_CONFIG (R228). Sets the calibration sweep period and enable. -/
  | calConfig (h : CmdHdr) (args : List Word)
  /-- CAL_LANE (R245). Runs a calibration slice on one lane at once. -/
  | calLane (h : CmdHdr) (args : List Word) (test : SliceTest)
  /-- LANE_BANK (R245). Withdraws a lane and banks it with cause COMMAND. -/
  | laneBank (h : CmdHdr) (args : List Word)
  /-- LANE_UNBANK (R235). Runs the wrong-lock recovery afresh on a banked lane. -/
  | laneUnbank (h : CmdHdr) (args : List Word)
  /-- KILN_SWAP (R245). Swaps a working laser to a spare at any fade. -/
  | kilnSwap (h : CmdHdr) (args : List Word)
  /-- PORT_CONFIG (R274). Configures, enables or disables a port and its capability words. -/
  | portConfig (h : CmdHdr) (args : List Word)
  /-- LINK_STATUS_READ (R273). Copies port link status words to the host. -/
  | linkStatusRead (h : CmdHdr) (args : List Word)
  /-- FLUE_OPEN (R281). Sets up a Flue circuit to READY or refuses it. -/
  | flueOpen (h : CmdHdr) (args : List Word) (meas : FlueMeas)
  /-- FLUE_SWITCH (R285). Switches a READY circuit over to LIVE at once. -/
  | flueSwitch (h : CmdHdr) (args : List Word)
  /-- FLUE_CLOSE (R291). Closes a circuit at once and returns its lanes. -/
  | flueClose (h : CmdHdr) (args : List Word)
  /-- FLUE_STATUS_READ (R293). Copies circuit status words to the host. -/
  | flueStatusRead (h : CmdHdr) (args : List Word)
  /-- TIME_CONFIG (R322). Sets the servo, PTP and PPS parameters. -/
  | timeConfig (h : CmdHdr) (args : List Word)
  /-- TIME_PORT_CONFIG (R302). Sets a port's time role and intervals. -/
  | timePortConfig (h : CmdHdr) (args : List Word)
  /-- TIME_SOURCE (R304). Selects the servo's time source. -/
  | timeSource (h : CmdHdr) (args : List Word)
  /-- TIME_SET (R308). Steps device time to a value at once or at the next PPS edge. -/
  | timeSet (h : CmdHdr) (args : List Word)
  /-- TIME_STEP_ACCEPT (R307). Applies the pending refused offset or a given step and leaves STEP_HELD. -/
  | timeStepAccept (h : CmdHdr) (args : List Word)
  /-- TIME_STEP_DISMISS (R307). Clears a refused offset without a step and leaves STEP_HELD. -/
  | timeStepDismiss (h : CmdHdr) (args : List Word)
  /-- TIME_STATUS_READ (R321). Copies the time status record to the host. -/
  | timeStatusRead (h : CmdHdr) (args : List Word)
  /-- CAPTURE_CONFIG (R310). Sets the capture enable mask and input edges. -/
  | captureConfig (h : CmdHdr) (args : List Word)
  /-- KINDLE_ARM (R314). Writes and arms a Kindling table entry. -/
  | kindleArm (h : CmdHdr) (args : List Word)
  /-- KINDLE_DISARM (R319). Returns an armed Kindling entry to IDLE and reports EXECUTED. -/
  | kindleDisarm (h : CmdHdr) (args : List Word)
  /-- KINDLE_READ (R321). Copies Kindling entry images and status words to the host. -/
  | kindleRead (h : CmdHdr) (args : List Word)
  /-- PART_CREATE (R323). Makes a FREE partition ACTIVE with its quotas. -/
  | partCreate (h : CmdHdr) (args : List Word)
  /-- PART_QUOTA (R324). Changes the quotas of an ACTIVE partition. -/
  | partQuota (h : CmdHdr) (args : List Word)
  /-- PART_RETIRE (R328). Retires a partition, aborting its contexts and invalidating its resources. -/
  | partRetire (h : CmdHdr) (args : List Word)
  /-- PART_STATUS_READ (R340). Copies partition records and charges to the host. -/
  | partStatusRead (h : CmdHdr) (args : List Word)
  /-- PART_PORT_SET (R325). Writes a port's partition entry. -/
  | partPortSet (h : CmdHdr) (args : List Word)
  /-- PART_ALLOW_WRITE (R326). Writes an allow entry. -/
  | partAllowWrite (h : CmdHdr) (args : List Word)
  /-- SEED_DEFINE (R331). Defines a seed image and makes it READY. -/
  | seedDefine (h : CmdHdr) (args : List Word)
  /-- SEED_FREE (R340). Returns a READY seed to FREE. -/
  | seedFree (h : CmdHdr) (args : List Word)
  /-- SEED_READ (R340). Copies seed records to the host. -/
  | seedRead (h : CmdHdr) (args : List Word)
  /-- DEVICE_RESET (R333). Starts a commanded device reset after its notice window. -/
  | deviceReset (h : CmdHdr) (args : List Word)
  /-- HALF_RESET (R333). Starts a commanded half reset after its notice window. -/
  | halfReset (h : CmdHdr) (args : List Word)
  /-- BARN_RESET (R333). Resets one barn. -/
  | barnReset (h : CmdHdr) (args : List Word)
  /-- LANE_RESET (R336). Resets one lane's PHY, FEC, flit and retry state. -/
  | laneReset (h : CmdHdr) (args : List Word)
  /-- HEARTH_RESET (R337). Resets the Hearth while every hardware function continues. -/
  | hearthReset (h : CmdHdr) (args : List Word)
  /-- PART_SCRUB_CONFIG (R330). Sets SCRUB_RATE. -/
  | partScrubConfig (h : CmdHdr) (args : List Word)
  /-- MBX_NOP (R373). Completes OK with no effect. -/
  | mbxNop (h : CmdHdr) (args : List Word)
  /-- DEVICE_CONFIG (R371). Sets HOP_LIMIT of originated packets. -/
  | deviceConfig (h : CmdHdr) (args : List Word)
  /-- ENDPOINT_ID_SET (R372). Sets the device's endpoint ID and returns the previous one. -/
  | endpointIdSet (h : CmdHdr) (args : List Word)
  /-- FW_LOAD (R367). Copies and verifies a firmware image into the inactive slot. -/
  | fwLoad (h : CmdHdr) (args : List Word)
  /-- FW_ACTIVATE (R368). Switches the Hearth to the verified inactive image with all rings paused. -/
  | fwActivate (h : CmdHdr) (args : List Word) (starts : Bool)
  /-- FW_COMMIT (R370). Makes the running image the boot image and advances anti-rollback fuses. -/
  | fwCommit (h : CmdHdr) (args : List Word)
  /-- FW_STATUS_READ (R373). Returns firmware versions, slot state and security versions. -/
  | fwStatusRead (h : CmdHdr) (args : List Word)
  /-- ATTEST_REPORT (R391). Writes a signed attestation report for a nonce. -/
  | attestReport (h : CmdHdr) (args : List Word)
  /-- TAG_WRITE (R393). Writes bytes of the tag area atomically. -/
  | tagWrite (h : CmdHdr) (args : List Word)
  /-- TAG_READ (R393). Copies a range of the tag area to the host. -/
  | tagRead (h : CmdHdr) (args : List Word)
  /-- LIFECYCLE_ADVANCE (R382). Advances the life-cycle state or enrols an owner key under a signed block. -/
  | lifecycleAdvance (h : CmdHdr) (args : List Word)
  /-- RETURN_AUTHORISE (R385). Moves the device from FIELD to RETURN under two signed blocks. -/
  | returnAuthorise (h : CmdHdr) (args : List Word)
  /-- DEBUG_UNLOCK (R386). Opens the diagnostic views for a signed number of minutes. -/
  | debugUnlock (h : CmdHdr) (args : List Word)
  /-- CAL_USER_WRITE (R395). Writes a user calibration record. -/
  | calUserWrite (h : CmdHdr) (args : List Word)
  /-- CAL_USER_READ (R396). Copies user calibration values to the host. -/
  | calUserRead (h : CmdHdr) (args : List Word)
  /-- FAULT_LOG_READ (R380). Copies the volatile or persistent fault log to the host. -/
  | faultLogRead (h : CmdHdr) (args : List Word)
  /-- TALLY_CONFIG (R409). Configures the Tally period, kinds and ring target. -/
  | tallyConfig (h : CmdHdr) (args : List Word)
  /-- TALLY_LATCH (R402). Latches the counters at once and returns SEQ and LATCH_START. -/
  | tallyLatch (h : CmdHdr) (args : List Word)
  /-- COUNTER_READ (R409). Copies present values of named counters to the host. -/
  | counterRead (h : CmdHdr) (args : List Word)
  /-- TRACE_CONFIG (R409). Configures sampled tracing and its ring. -/
  | traceConfig (h : CmdHdr) (args : List Word)
  /-- POWER_STATUS_READ (R434). Writes the power status record to the host. -/
  | powerStatusRead (h : CmdHdr) (args : List Word)
  /-- CMD_TAIL_WRITE (R351). Host doorbell write that makes command entries visible or is refused. -/
  | cmdTailWrite (ring : Fin 4) (value : Word)
  /-- CPL_HEAD_WRITE (R347). Host write consuming completions and freeing room in a ring. -/
  | cplHeadWrite (ring : Fin 4) (value : Word)
  /-- RING_ENABLE (R347). Setting EN of a mailbox ring resets its counts and starts fetching. -/
  | ringEnable (ring : Fin 4) (value : Word)
  /-- RING_DISABLE (R347). Clearing EN of a mailbox ring stops fetching. -/
  | ringDisable (ring : Fin 4) (value : Word)
  /-- EVENT_RING_ENABLE (R361). Setting or clearing EN of the event ring. -/
  | eventRingEnable (value : Word)
  /-- EV_HEAD_WRITE (R362). Host write consuming event entries and freeing packet slots. -/
  | evHeadWrite (value : Word)
  /-- EV_LOST_READ (R361). Read of the event LOST count, which clears it. -/
  | evLostRead
  /-- HEARTH_LOAD_READ (R344). Read of HEARTH_LOAD, which clears URGENT_MAX_US. -/
  | hearthLoadRead
  /-- IF_REQUEST_WRITE (R349). Driver write of offered versions that negotiates IF_ACTIVE or is ignored. -/
  | ifRequestWrite (value : Word)
  /-- LATCH (R345). Write of TIME_LATCH_CTRL bit 0 copying device time into the latch registers. -/
  | latch (value : Word)
  /-- REGISTER_WRITE (R343). Write to a BAR0 register that has no row of its own, such as INT_STATUS or INT_MASK. -/
  | registerWrite (access : RegAccess) (value : Word)
  /-- BAR2_WRITE (R205). Host write through BAR2 to the Granary or a scratchpad. -/
  | bar2Write (offset : Fin 268435456) (bytes : List Byte)
  /-- BAR2_READ (R205). Host read through BAR2 from the Granary or a scratchpad. -/
  | bar2Read (offset : Fin 268435456) (len : Nat) (ue : Bool)
  /-- RCV_START (R421). Write of START in recovery that verifies and installs the buffered image. -/
  | rcvStart (value : Word)
  /-- PCIE_RESET (R365). PCIe Fundamental, Hot or Function Level Reset clearing the mailbox interface only. -/
  | pcieReset (kind : PcieReset)
  /-- PACKET_HEADER_RX (R436). A received packet header is judged by the drop checks and looked up. -/
  | packetHeaderRx (lane : Fin 1024) (hdr : HeaderRead)
  /-- PACKET_TRAILER_RX (R22). The trailer of a packet is received and its CRC-64 checked. -/
  | packetTrailerRx (lane : Fin 1024) (rest : List Byte)
  /-- TERM_WRITE (R57). A terminated WRITE is checked, committed and acknowledged if requested. -/
  | termWrite (port : Fin 1024) (pkt : Packet)
  /-- TERM_READ (R56). A terminated READ of the Granary or context space is answered with READ_DATA. -/
  | termRead (port : Fin 1024) (pkt : Packet) (ue : Bool)
  /-- SHEAF_ARRIVAL (R139). A contribution is discarded, aborts its context, or is reduced into its index. -/
  | sheafArrival (port : Fin 1024) (sheaf : SheafRx)
  /-- RESULT_ACK (R144). A member's WRITE_DONE with RESULT 1 and OK marks the result acknowledged. -/
  | resultAck (port : Fin 1024) (pkt : Packet)
  /-- RESULT_NAK (R145). A member's NAK is answered with a unicast resend of the retained result. -/
  | resultNak (port : Fin 1024) (pkt : Packet) (copyFails : Bool)
  /-- RELAY_RESULT_RX (R156). A relay receives the upstream result, acknowledges it and releases it to its members. -/
  | relayResultRx (port : Fin 1024) (pkt : Packet)
  /-- UPSTREAM_NOTICE_RX (R157). A relay receives an ABORT, RECALL or RESEND from its upstream context. -/
  | upstreamNoticeRx (port : Fin 1024) (pkt : Packet)
  /-- CONTROL_PKT (R49). A terminated CONTROL packet is posted to the host. -/
  | controlPkt (port : Fin 1024) (pkt : Packet)
  /-- TERM_UNEXPECTED (R438). A terminated packet that answers nothing is discarded and counted. -/
  | termUnexpected (port : Fin 1024) (pkt : Packet)
  /-- TIME_PACKET_RX (R300). A received TIME packet is stamped and its PTP message processed. -/
  | timePacketRx (lane : Fin 1024) (pkt : Packet)
  /-- FLIT_RX (R252). A received flit is checked and acted on for sequence, acknowledgement, credit and packet bytes. -/
  | flitRx (lane : Fin 1024) (bytes : List Byte) (outcome : FlitEnd)
  /-- NAK_RESEND_TIMER (R257). NAK is set again when the awaited SEQ has not arrived within 2 µs. -/
  | nakResendTimer (lane : Fin 1024)
  /-- REPLAY_TIMEOUT (R257). Replay from the oldest unacknowledged flit after 10 µs without progress. -/
  | replayTimeout (lane : Fin 1024)
  /-- LINK_RETRY_EXHAUSTED (R259). A lane leaves service after the same SEQ is replayed 8 times. -/
  | linkRetryExhausted (lane : Fin 1024)
  /-- FEC_EXIT (R259). A lane leaves service after more than 16 uncorrectable pairs in 1 ms. -/
  | fecExit (lane : Fin 1024)
  /-- FRAME_LOSS (R249). A lane loses frame lock after four missed alignment patterns. -/
  | frameLoss (lane : Fin 1024)
  /-- LOSS_OF_SIGNAL (R259). A lane whose receiver sees no modulated light for 200 ns leaves service. -/
  | lossOfSignal (lane : Fin 1024)
  /-- MARKER_SEND (R261). A MARKER flit is sent after every 1,024 flit slots. -/
  | markerSend (lane : Fin 1024)
  /-- ALIGNMENT_SLOT_RX (R262). An alignment slot is received with its fibre status block. -/
  | alignmentSlotRx (lane : Fin 1024) (bytes : List Byte)
  /-- TX_FAULT (R262). TX_FAULT is set after 5 µs of light without frame lock on one lane of a framed fibre. -/
  | txFault (lane : Fin 1024)
  /-- WD_REQ (R264). A received withdrawal request is granted or refused. -/
  | wdReq (lane : Fin 1024) (kind : WdKind) (mtag : BitVec 16)
  /-- WD_GRANT (R264). A received grant lets the lane leave the spray set and drain. -/
  | wdGrant (lane : Fin 1024) (mtag : BitVec 16)
  /-- WD_REFUSE (R229). A received refusal skips the calibration slice. -/
  | wdRefuse (lane : Fin 1024) (mtag : BitVec 16) (reason : Byte)
  /-- REHOME_REQ (R265). A received rehome request stops acceptance on the lane and answers LAST_SEQ. -/
  | rehomeReq (lane : Fin 1024) (mtag : BitVec 16)
  /-- REHOME_ACK (R265). A received rehome answer resends packets after LAST_SEQ on other lanes. -/
  | rehomeAck (lane : Fin 1024) (answer : RehomeAnswer)
  /-- TRAINING_START (R267). Full training of a lane begins when its receive ring has light. -/
  | trainingStart (lane : Fin 1024)
  /-- TRAIN_FAIL (R267). A training step exceeds its time or finds no common choice. -/
  | trainFail (lane : Fin 1024) (cause : TrainFailCause)
  /-- TRAINING_RESTART (R267). Training starts again 1 s after a failure. -/
  | trainingRestart (lane : Fin 1024)
  /-- TRAINING_COMPLETE (R267). Identity check passes and the lane enters IN_SERVICE, bringing the link up. -/
  | trainingComplete (lane : Fin 1024) (far : FarEnd)
  /-- SHORT_RETRAIN (R269). A short retraining ends a calibration, swap, recovery or abrupt exit. -/
  | shortRetrain (lane : Fin 1024) (result : Retrained) (resonance : Nat)
  /-- EGRESS_UNDERRUN_ABORT (R255). A packet whose next bytes are missing for 10 µs is aborted. -/
  | egressUnderrunAbort (lane : Fin 1024)
  /-- FLOOR_SLOT (R99). A Floor plane matches ingress to destination barns for a slot. -/
  | floorSlot
  /-- CELL_BUNDLE_ARRIVAL (R102). A destination barn checks and acknowledges a cell bundle and links its packets. -/
  | cellBundleArrival (plane : Fin 4) (src dst : Fin 16) (ok : Bool)
  /-- BUNDLE_ACK_TIMEOUT (R102). A bundle unacknowledged within 20 ns or failing its check is resent. -/
  | bundleAckTimeout (plane : Fin 4) (src dst : Fin 16)
  /-- SPILL_REFILL (R111). A spilled packet is read back into the Loft when the ingress account has room. -/
  | spillRefill (barn : Fin 16)
  /-- EGRESS_SELECT (R118). A port's scheduler selects its next packet when its lane is free. -/
  | egressSelect (sel : Selection)
  /-- REFILL_INSTANT (R119). Every enabled shaper and policer gains RATE tokens, capped at BURST. -/
  | refillInstant
  /-- GLEANER_AUDIT (R113). A barn's Gleaner audits every handle at each 50 ms instant. -/
  | gleanerAudit (barn : Fin 16)
  /-- LEARN_UPDATE (R79). A queued learning update inserts, moves or restamps a learned entry. -/
  | learnUpdate (half : Fin 2)
  /-- AGEING_VISIT (R80). Learned entries older than AGE_S are invalidated. -/
  | ageingVisit (half : Fin 2)
  /-- TABLE_PARITY_REPAIR (R84). An entry with failed parity is rewritten from the other half or invalidated. -/
  | tableParityRepair (half : Fin 2) (table : TableKind) (index : Nat) (step : ParityStep)
  /-- DRAIN_WINDOW_END (R70). The formerly active version becomes OPEN at t_f + D. -/
  | drainWindowEnd
  /-- BRIDGE_CHANNEL_FAIL (R20). A failing bridge channel is retired and replaced by a spare or degrades. -/
  | bridgeChannelFail (sender : Fin 2) (channel : Fin 512) (timeout : Bool)
  /-- RESULT_FORMED (R142). The result of a completed index is formed and released by OUT_MODE. -/
  | resultFormed (ctx : Fin 4096) (index : Nat)
  /-- WINNOW_COMPARE (R176). Witness or referee result is compared with the primary and the outcome settled. -/
  | winnowCompare (ctx : Fin 4096) (index : Nat) (verdict : WinnowVerdict)
  /-- RESIDUE_FAULT (R173). A residue fault discards the work and redoes it on the witness. -/
  | residueFault (unit : Fin 64) (work : ResidueWork) (redoFaults : Bool)
  /-- RETAIN_STALL_RESUME (R143). A result waiting for a retention slot proceeds when one frees. -/
  | retainStallResume (ctx : Fin 4096)
  /-- STALL_TIMER (R141). An incomplete index after STALL_US sends RESEND STALLED and posts a stall event. -/
  | stallTimer (ctx : Fin 4096) (index : Nat)
  /-- RETAIN_EXPIRED (R144). A retention slot is freed after RETAIN_US. -/
  | retainExpired (ctx : Fin 4096) (index : Nat)
  /-- RETENTION_SCRUB (R151). The scrub verifies each retained result at least every 100 ms. -/
  | retentionScrub (ctx : Fin 4096) (index : Nat) (fails : Bool)
  /-- STAGING_MOVE (R198). The oldest open index's contributions move to the staging store when cells run short. -/
  | stagingMove (read : StagingRead)
  /-- HARVEST_CHUNK (R183). A unit computes a harvest chunk and writes it after its checks. -/
  | harvestChunk (harvest : BitVec 16) (group : Fin 1024) (chunk : Nat) (event : ChunkEvent)
  /-- NORM_PASS_DONE (R185). A norm pass ends and returns SUMSQ and counts. -/
  | normPassDone (pass : Fin 4) (ue : Option Nat)
  /-- MEM_MOVE_DONE (R206). A move completes when every byte is visible. -/
  | memMoveDone (move : Fin 16) (ue : Option Nat)
  /-- BURST_BOUNDARY (R208). A channel arbiter grants the next requester at a burst boundary. -/
  | burstBoundary (chan : Fin 282) (requests : BitVec 11)
  /-- CHAN_WATCHDOG (R211). A grant held for WD_US resets the owner's port. -/
  | chanWatchdog (chan : Fin 282) (work : Watched)
  /-- STACK_THERMAL_READ (R213). A stack temperature reading changes its thermal level. -/
  | stackThermalRead (source : Fin 32) (temp : Nat)
  /-- PATROL_SCRUB (R376). The patrol reads and corrects Granary and Barn store locations daily. -/
  | patrolScrub (site : EccSite) (corrected : Bool)
  /-- SCRUB_GRANULE (R330). A granule of a retired partition's ranges is zeroed. -/
  | scrubGranule
  /-- GRANARY_IN_SERVICE (R219). Granary or Barn store training and zeroing completes after reset. -/
  | granaryInService (barnStore : Bool) (failed : Option (Fin 8 × Fin 32))
  /-- SILO_LINK_FAIL (R218). A Silo link failing without detach fails its accesses and reports. -/
  | siloLinkFail (port : Fin 2)
  /-- CAL_SLICE_START (R228). A barn's calibration slice begins on its lane. -/
  | calSliceStart (barn : Fin 16) (slice : Fin 64) (test : SliceTest)
  /-- LOCK_LOST (R226). A ring loop losing lock banks its lane for recovery. -/
  | lockLost (lost : LostLock)
  /-- LASER_READING (R236). Each laser's monitor is read and its fade acted on. -/
  | laserReading (laser : Fin 80) (reading : Int)
  /-- KILN_SWAP_START (R237). A pending laser swap begins once slices and other swaps end. -/
  | kilnSwapStart (half : Fin 2)
  /-- FLUE_READY_RETUNE (R287). A circuit READY for 600 s re-tunes. -/
  | flueReadyRetune (circuit : Fin 128) (meas : FlueMeas)
  /-- FLUE_RETUNE_NOTICE (R288). FLUE_RETUNE notice is sent LEAD_MS before a retune. -/
  | flueRetuneNotice (circuit : Fin 128)
  /-- FLUE_RETUNE (R288). A live circuit is darkened, its rings relocked and light restored. -/
  | flueRetune (circuit : Fin 128) (meas : FlueMeas)
  /-- FLUE_LOS (R289). Loss of incoming light on a live circuit is counted and captured. -/
  | flueLos (circuit : Fin 128) (sideB : Bool)
  /-- PTP_SYNC_SEND (R302). A MASTER port sends Sync at its interval. -/
  | ptpSyncSend (port : Fin 1024)
  /-- PTP_DELAY_REQ_SEND (R302). A port sends Delay_Req or Pdelay_Req at its interval. -/
  | ptpDelayReqSend (port : Fin 1024)
  /-- PTP_ANNOUNCE_SEND (R302). A MASTER port sends Announce at its interval. -/
  | ptpAnnounceSend (port : Fin 1024)
  /-- HOLDOVER_TIMEOUT (R304). No offset for HOLDOVER_MS enters HOLDOVER. -/
  | holdoverTimeout
  /-- PPS_IN_EDGE (R303). A PPS in edge is stamped as an offset or completes a TIME_SET. -/
  | ppsInEdge
  /-- PPS_OUT_EDGE (R303). PPS out rises at each whole second reached by running. -/
  | ppsOutEdge
  /-- PPS_OUT_FALL (R303). PPS out falls after PPS_WIDTH_MS. -/
  | ppsOutFall
  /-- CAP_IN_EDGE (R310). An external capture input edge is stamped. -/
  | capInEdge (input : Fin 8) (rising : Bool)
  /-- KINDLE_ROUTE_COMMIT (R71). A kindling route-epoch commit flips the route version or is refused. -/
  | kindleRouteCommit (entry : Fin 256)
  /-- KINDLE_FLUE_SWITCH (R286). A kindling Flue action connects or closes a circuit. -/
  | kindleFlueSwitch (entry : Fin 256)
  /-- COLL_RELEASE (R146). A kindling collective release advances RELEASED_EPOCH and sends waiting results. -/
  | collRelease (entry : Fin 256)
  /-- MC_RELEASE (R182). A kindling multicast release sends a held harvest output. -/
  | mcRelease (entry : Fin 256)
  /-- MC_RELEASE_SEED (R332). A kindling multicast release starts sending a seed image. -/
  | mcReleaseSeed (entry : Fin 256)
  /-- SHAPER_BANK (R122). A kindling action switches the shaper bank at the next refill instant. -/
  | shaperBank (entry : Fin 256)
  /-- COUNTER_DUMP (R402). A kindling action opens a Tally latch window. -/
  | counterDump (entry : Fin 256)
  /-- TIMED_NOTICE (R320). A kindling action sends NOTICE TIMED. -/
  | timedNotice (entry : Fin 256)
  /-- SEED_PACKET_SEND (R332). The next seed image packet is read and multicast as holds permit. -/
  | seedPacketSend (seed : Fin 64) (ue : Bool)
  /-- TALLY_PERIODIC_LATCH (R402). A periodic Tally latch starts at each multiple of PERIOD_US. -/
  | tallyPeriodicLatch
  /-- EVENT_WRITE (R362). A waiting event or capture record is written to the event ring when there is room. -/
  | eventWrite
  /-- FAULT_REPORT_FOLD_END (R378). The 100 ms fold window of a fault report ends and the folded report is sent. -/
  | faultReportFoldEnd (code : BitVec 16) (half : BitVec 2) (block : Byte) (item : BitVec 16)
  /-- HEARTH_WATCHDOG (R342). A Hearth core watchdog expiry causes a Hearth reset. -/
  | hearthWatchdog (halt : HaltedCore)
  /-- HEARTH_RETURN (R366). The Hearth returns from reset, completes interrupted commands and posts HEARTH_START. -/
  | hearthReturn
  /-- DEBUG_VIEWS_EXPIRE (R386). The diagnostic views close when their time ends. -/
  | debugViewsExpire
  /-- RESET_BEGIN (R333). A commanded device or half reset begins when its notices have left or 50 µs pass. -/
  | resetBegin
  /-- HALF_READY (R333). A reset half copies tables back and reports ready. -/
  | halfReady (half : Fin 2)
  /-- BARN_READY (R333). A reset barn is ready and its lanes begin full training. -/
  | barnReady (barn : Fin 16)
  /-- VIN36_LOST (R412). Loss of the 36 V input causes an uncommanded device reset. -/
  | vin36Lost
  /-- VIN36_QUALIFIED (R412). VIN36 within range for 10 ms becomes qualified. -/
  | vin36Qualified
  /-- VIN36_MARGIN (R412). VIN36 outside the operating range for 1 ms is reported. -/
  | vin36Margin (mv : Nat)
  /-- VAUX33_LOW (R413). VAUX33 below 3.0 V switches the half domains off. -/
  | vaux33Low
  /-- VAUX33_POWER_UP (R414). The auxiliary rail rises and the cold-reset bring-up of AUX and boot ROM runs. -/
  | vaux33PowerUp (start : AuxStart)
  /-- HALF_POWER_ON (R414). Once an image is accepted and VIN36 qualified, the half domains are powered and released. -/
  | halfPowerOn (optics : OpticsUp)
  /-- COLD_RESET (R416). COLD_RST_N held low for 10 µs causes a cold reset. -/
  | coldReset (lowNs : Nat) (recoveryLow : Bool)
  /-- CONVERTER_FAULT (R415). A converter fault switches off its half as an uncommanded half reset. -/
  | converterFault (half : Fin 2) (both : Bool)
  /-- CONVERTER_REPOWER (R415). A half is powered again 100 ms after a converter fault. -/
  | converterRepower (half : Fin 2) (optics : OpticsUp)
  /-- REFCLK_FAIL (R418). A failed reference moves its half to the other half's reference. -/
  | refclkFail (half : Fin 2)
  /-- REFCLK_RETURN (R418). A reference within limits for 1 s takes its half back. -/
  | refclkReturn (half : Fin 2)
  /-- THERMAL_SENSOR_READ (R430). Junction and Kiln sensors are read and warnings or trips raised. -/
  | thermalSensorRead (readings : List Nat) (persists : Bool)
  /-- THERM_RESTART (R430). After sensors stay cool for 10 s the halves are powered again. -/
  | thermRestart (optics : OpticsUp)
  /-- WD_ANSWER_TIMEOUT (R229). A calibration withdrawal request that the far end has not answered within 10 µs skips the slice and counts CAL_SKIP. -/
  | wdAnswerTimeout (lane : Fin 1024)
  /-- TIME_SET_PPS_EXPIRED (R308). A TIME_SET waiting for the next PPS in edge completes with EXPIRED when no edge is seen within 2 s. -/
  | timeSetPpsExpired
  /-- SILO_LINK_UP (R218). A Silo port's CXL link trains and its Type 3 device is enumerated, so that the port's range accepts accesses again. -/
  | siloLinkUp (port : Fin 2) (capacity : Nat)
  /-- UNIT_SELFTEST_DONE (R187). A unit's self-test under TU_UNFENCE ends, returning it to IN_SERVICE or leaving it FENCED with cause 4, and the command completes. -/
  | unitSelftestDone (unit : Fin 64) (pass : Bool)
  /-- PLANE_LOOPBACK_TEST_DONE (R102). The loop-back test of a fenced Floor plane ends, returning the plane to service or completing with TEST_FAILED. -/
  | planeLoopbackTestDone (plane : Fin 4) (pass : Bool)
  /-- MEM_MARGIN_DONE (R220). Margining of the named channels ends, the margin records are written and MEM_MARGIN completes, with TEST_FAILED if any lane is below its limit. -/
  | memMarginDone (records : List Word)
  /-- MEM_RELEASE_DONE (R220). A held tier finishes retraining at nominal settings and returns to service, clearing HELD. -/
  | memReleaseDone (tier : Fin 3)
  /-- FW_LOAD_DONE (R367). The copy and verification of a firmware image into the inactive slot ends, marking it VERIFIED or completing with a refusal status. -/
  | fwLoadDone
  /-- RCV_VERIFY_DONE (R421). Recovery verification of the buffered image ends within 100 ms, installing it into both slots with RCV_STATE WRITTEN, or setting REFUSED. -/
  | rcvVerifyDone
  /-- ROUTE_WRITE_DONE (R74). All shadow writes of a ROUTE_WRITE hold in both halves and the detached command completes. -/
  | routeWriteDone
  /-- ENDPOINT_WRITE_DONE (R63). The static entries of an ENDPOINT_WRITE hold in both halves and the detached command completes. -/
  | endpointWriteDone
  /-- SPILL_REGION_PLACED (R112). The spill region of a CORE_SPILL has been placed in the pool and the detached command completes. -/
  | spillRegionPlaced
  /-- DEVICE_RESET_RELEASE (R333). The half domains come out of a device reset that had no power loss, and the device then runs the power-up optics and Granary bring-up. -/
  | deviceResetRelease (optics : OpticsUp)
  deriving DecidableEq, Repr

end Sys2Proof
end

