-- ==== Sys2Proof/Decode.lean ====
section
/-! DEFINITION. The command that a word spells by the operation table's bits. -/

namespace Sys2Proof

/-- No row of the operation table gives bits: the block takes commands, not instruction words. (DESIGN CHOICE, log entry 7.) -/
def decodeTableWord (_nbits _w : Nat) : Option Instr := none

end Sys2Proof
end

