-- ==== Sys2Proof/Config.lean ====
section
/-! DEFINITION. What an implementation fixes and the manual leaves open, and the free values. -/

namespace Sys2Proof

/-- The free values: the n-th value that the manual leaves open. Nothing is known of it. (DESIGN CHOICE, log entry 3.) -/
opaque Config.freeValue (n : Nat) : Nat

/-- The factory store: the value that it holds of a kind for a lane or a laser, a trim, a baseline or a tuning table's entry. It is
written only in MANUFACTURE, and no command writes it (R394). (DESIGN CHOICE, log entry 163.) -/
opaque Config.factoryCal (kind index : Nat) : Int

end Sys2Proof
end

