-- ==== Sys2Proof/Machine/Bits.lean ====
section
/-! DEFINITION. Bit fields, byte orders and the CRCs of the manual. -/

namespace Sys2Proof.Machine

/-- Bits hi to lo of a word. -/
def fld (w : Word) (hi lo : Nat) : Nat := w.toNat / 2 ^ lo % 2 ^ (hi + 1 - lo)

/-- One bit of a word. -/
def bitAt (w : Word) (i : Nat) : Bool := w.toNat / 2 ^ i % 2 = 1

/-- Bits hi to lo of a number. -/
def nfld (n hi lo : Nat) : Nat := n / 2 ^ lo % 2 ^ (hi + 1 - lo)

/-- A Bool as a bit. -/
def bit (b : Bool) : Nat := if b then 1 else 0

/-- A number made of fields: (lowest bit, value) pairs. -/
def packN (l : List (Nat × Nat)) : Nat :=
  match l with
  | [] => 0
  | (lo, v) :: r => v * 2 ^ lo + packN r

/-- A word made of fields: (lowest bit, value) pairs. -/
def pack (l : List (Nat × Nat)) : Word := BitVec.ofNat 32 (packN l)

/-- A number as a word. -/
def w32 (n : Nat) : Word := BitVec.ofNat 32 n

/-- A signed number as a two's complement word. -/
def w32i (z : Int) : Word := BitVec.ofInt 32 z

/-- Low and high word of a 64-bit number. -/
def w64 (n : Nat) : List Word := [w32 n, w32 (n / 2 ^ 32)]

/-- Saturation at a bound. -/
def sat (bound n : Nat) : Nat := if n ≤ bound then n else bound

/-- Clamp of a signed number. -/
def clampI (lo hi z : Int) : Int := if z < lo then lo else if hi < z then hi else z

/-- `n` bytes of a number, least significant first. -/
def leBytes (n v : Nat) : List Byte :=
  match n with
  | 0 => []
  | n + 1 => BitVec.ofNat 8 v :: leBytes n (v / 256)

/-- The number bytes spell, least significant first. -/
def ofLe (l : List Byte) : Nat :=
  match l with
  | [] => 0
  | b :: r => b.toNat + 256 * ofLe r

/-- `n` bytes of a number, most significant first. -/
def beBytes (n v : Nat) : List Byte := (leBytes n v).reverse

/-- The number bytes spell, most significant first. -/
def ofBe (l : List Byte) : Nat := ofLe l.reverse

/-- The little-endian image of words in memory (R10). -/
def wordsLe (l : List Word) : List Byte :=
  match l with
  | [] => []
  | w :: r => leBytes 4 w.toNat ++ wordsLe r

/-- The words of a little-endian image; a last part of fewer than four bytes is padded with zeros. -/
def wordsOfN (n : Nat) (l : List Byte) : List Word :=
  match n with
  | 0 => []
  | n + 1 => w32 (ofLe (l.take 4)) :: wordsOfN n (l.drop 4)

/-- The words of a little-endian image. -/
def wordsOf (l : List Byte) : List Word := wordsOfN ((l.length + 3) / 4) l

/-- The wire image of words, most significant byte first (R10). -/
def wordsBe (l : List Word) : List Byte :=
  match l with
  | [] => []
  | w :: r => beBytes 4 w.toNat ++ wordsBe r

/-- A list cut or padded with zeros to `n` elements. -/
def padTo {α : Type} (z : α) (n : Nat) (l : List α) : List α := l.take n ++ List.replicate (n - l.length) z

/-! ### CRCs -/

/-- One bit of a CRC that shifts left. -/
def crcShl (width poly c : Nat) : Nat :=
  if c / 2 ^ (width - 1) % 2 = 1 then Nat.xor (c * 2 % 2 ^ width) poly else c * 2 % 2 ^ width

/-- One byte of a CRC that shifts left. -/
def crcByteL (width poly c : Nat) (b : Byte) : Nat :=
  let c := Nat.xor c (b.toNat * 2 ^ (width - 8))
  let s := crcShl width poly
  s (s (s (s (s (s (s (s c)))))))

/-- One bit of a CRC that shifts right. -/
def crcShr (poly c : Nat) : Nat := if c % 2 = 1 then Nat.xor (c / 2) poly else c / 2

/-- One byte of a CRC that shifts right. -/
def crcByteR (poly c : Nat) (b : Byte) : Nat :=
  let c := Nat.xor c b.toNat
  let s := crcShr poly
  s (s (s (s (s (s (s (s c)))))))

/-- CELL_CHECK (R88): polynomial 0x1021, initial value 0xFFFF, over the cell's 256 bytes. -/
def crc16 (l : List Byte) : Nat := l.foldl (crcByteL 16 0x1021) 0xFFFF

/-- The CRC-32 of R72. -/
def crc32 (l : List Byte) : Nat := Nat.xor (l.foldl (crcByteR 0xEDB88320) 0xFFFFFFFF) 0xFFFFFFFF

/-- The CRC-64/WE of R51. -/
def crc64 (l : List Byte) : BitVec 64 :=
  BitVec.ofNat 64 (Nat.xor (l.foldl (crcByteL 64 0x42F0E1EBA9EA3693) 0xFFFFFFFFFFFFFFFF) 0xFFFFFFFFFFFFFFFF)

end Sys2Proof.Machine
end

