-- ==== Sys2Proof/Machine/State.lean ====
section
/-! DEFINITION. The state of the block as plain data: every register, table, queue and mode the manual names, grouped
by the part of the device that keeps it, and the queue of the commands that are waiting.

Instants are counted in units of 1/256 ns of device time (the unit of FRAC, R295). -/

namespace Sys2Proof.Machine

/-! ### Routing (R62 to R84) -/

/-- Explicit route entry (R64). -/
structure Explicit where
  valid : Bool := false
  discard : Bool := false
  plen : Nat := 0
  pfx : Nat := 0
  bundle : Nat := 0
  deriving DecidableEq, Repr

/-- Pod descriptor (R65). -/
structure Pod where
  valid : Bool := false
  leafCount : Nat := 0
  base : Nat := 0
  deriving DecidableEq, Repr

/-- Endpoint entry (R62). -/
structure EpEntry where
  valid : Bool := false
  static : Bool := false
  id : Nat := 0
  bundle : Nat := 0
  stamp : Nat := 0
  deriving DecidableEq, Repr

/-- Member slot of a bundle (R66). -/
structure Slot where
  en : Bool := false
  port : Nat := 0
  deriving DecidableEq, Repr

/-- Bundle record (R66). -/
structure Bundle where
  valid : Bool := false
  learn : Bool := false
  count : Nat := 0
  slots : Tab Slot := []
  deriving DecidableEq, Repr

/-- Multicast tree record (R67): bit p of the mask names port p. -/
structure Tree where
  valid : Bool := false
  partition : Nat := 0
  mask : BitVec 1024 := 0
  deriving DecidableEq, Repr

/-- The two route versions (R68). -/
inductive Version where
  | a
  | b
  deriving DecidableEq, Repr

/-- State of the non-active version (R68). -/
inductive NonActive where
  | opened
  | sealedV
  | draining
  deriving DecidableEq, Repr

/-- One entry whose copy in one half fails its parity (R84); `noted` once a lookup has read it, `dead` for an entry that
neither half can repair. -/
structure ParityMark where
  half : Nat
  table : TableKind
  index : Nat
  noted : Bool
  dead : Bool
  deriving DecidableEq, Repr

/-- A pending learning update: source ID, bundle, and the instant of the verification that asks for it (R78, R312). -/
structure LearnUpd where
  id : Nat
  bundle : Nat
  at_ : Nat
  deriving DecidableEq, Repr

/-- Route tables, endpoint tables, bundles, trees, route versions and spraying counters (R62 to R84). Both halves hold
the same tables (R16); `moves` holds, by 2^24 · half + endpoint ID, the instants of a learned entry's moves within one
second (R79); `parity` lists the copies that fail their parity. -/
structure Routing where
  explA : Tab Explicit
  explB : Tab Explicit
  podA : Tab Pod
  podB : Tab Pod
  ep0 : Tab EpEntry
  ep1 : Tab EpEntry
  bundles : Tab Bundle
  trees : Tab Tree
  active : Version
  nonActive : NonActive
  drainEnd : Nat
  drainUs : Nat
  ageS : Nat
  evictRandom : Bool
  defs : Tab Nat
  lastSlot : Tab Nat
  laneDefs : Tab Nat
  lastLane : Tab Nat
  learnQ0 : List LearnUpd
  learnQ1 : List LearnUpd
  moves : Tab (List Nat)
  parity : List ParityMark
  deriving DecidableEq, Repr

/-! ### Switch core (R86 to R115) -/

/-- Cell descriptor (R87), with the port whose credit the cell is charged to (R106). -/
structure CellRec where
  next : Nat := 65535
  inuse : Bool := false
  start : Bool := false
  last : Bool := false
  fill : Nat := 0
  refs : Nat := 0
  tc : Nat := 0
  mc : Bool := false
  check : Nat := 0
  charge : Option Nat := none
  deriving DecidableEq, Repr

/-- Which result a SHEAF_RESULT in flight carries: context and index; `void` when an abort has withheld it (R150). -/
structure ResultRef where
  ctx : Nat
  index : Nat
  void : Bool
  deriving DecidableEq, Repr

/-- A cell that sampled tracing follows (R406, R407): its index, the instants of its stages so far (write, grant,
arrival), its plane, and whether it was spilled. -/
structure Tag where
  cell : Nat
  write : Nat
  grant : Option Nat
  arrive : Option Nat
  plane : Nat
  spilled : Bool
  deriving DecidableEq, Repr

/-- A packet in the core: the model's own name of it (`pid`), its header as it leaves, the wire bytes received so far,
the ingress port (or none for an originated packet), the instants of its first bit, of its lookup and of its trailer's
verification (R312), the result it carries, and its tagged cells. -/
structure PktInfo where
  pid : Nat
  hdr : Header
  bytes : List Byte
  inPort : Option Nat
  tIn : Nat
  parse : Nat
  verAt : Nat := 0
  result : Option ResultRef
  tagged : List Tag
  deriving DecidableEq, Repr

/-- A packet in an ingress account (R90, R93, R103): the handles of its cells written so far, whether it is still
arriving, whether it is spilled (R110), whether it was spilled and has been refilled (R111), its lowest destination
barn, and whether its queue held no other packet at its first cell (R126). -/
structure InPkt where
  info : PktInfo
  handles : List Nat
  arriving : Bool
  spilled : Bool
  refilled : Bool
  firstDst : Nat
  alone : Bool
  deriving DecidableEq, Repr

/-- A virtual output queue entry (R91, R92): the packet or copy, its sink, destination port or local mask, how many of
its cells have been put into bundles, the cells to be offered again, and the cells acknowledged (R102). -/
structure QEntry where
  pid : Nat
  sink : Nat
  dstPort : Nat
  localMask : BitVec 64
  taken : Nat
  resend : List Nat
  acked : List Nat
  deriving DecidableEq, Repr

/-- A packet at its egress barn (R94, R97, R104): the handles of its cells by their index in it, how many cells have
arrived, whether its first cell has and it is linked into its queues, its packet word (sink, destination port, local mask),
the ports still holding it (bit n names port 64·barn + n), whether nothing holds it any more, whether it was spilled
(R111), the port whose copy tracing follows, and whether its queues held no other packet at its first cell (R126). -/
structure Stored where
  info : PktInfo
  srcBarn : Nat
  first : Nat
  handles : Tab Nat
  arrived : Nat
  linked : Bool
  sink : Nat
  dstPort : Nat
  localMask : BitVec 64
  mask : BitVec 64
  dead : Bool
  refilled : Bool
  tracePort : Nat
  alone : Bool
  deriving DecidableEq, Repr

/-- Part of a cell bundle: cells of one packet, by their indices in it (R97). -/
structure BundlePart where
  pid : Nat
  cells : List Nat
  deriving DecidableEq, Repr

/-- A cell bundle sent on a plane and not yet acknowledged (R97, R102). -/
structure CellBundle where
  plane : Nat
  src : Nat
  dst : Nat
  tc : Nat
  parts : List BundlePart
  deriving DecidableEq, Repr

/-- A line of a barn's cache (R201): device address div 256, and whether it is kept. The list of lines is ordered
from the most recently used one. -/
structure CacheLine where
  line : Nat
  kept : Bool
  deriving DecidableEq, Repr

/-- One barn: its Loft division (R90, R200, R204), cells (R87), queues (R91, R94), egress account holds (R108), bundles
in flight (R102), spill (R110), Gleaner candidates (R114) and cache (R201). A handle not in use lies on the free list,
unless it is listed in `lostFree`; a handle listed in `doubleFree` is on the free list though it is in use; `spillLost`
and `spillDouble` say the same of spill handles; `leftEg` are the egress cells that a parity failure has left to the
Gleaner (R377). The egress
hold of classes 0 to 6 by their common level is `egHoldGroup`, the other holds are in `egHold` (R108). VOQs are keyed by
8 · destination barn + class, port queues by 8 · lane + class, sink queues by 8 · sink + class. -/
structure Barn where
  bufCells : Nat := 32768
  egCells : Nat := 12288
  egC7Reserve : Nat := 1024
  egClassMax : List Nat := [11264, 11264, 11264, 11264, 11264, 11264, 11264]
  stageCells : Nat := 16384
  scratchCells : Nat := 0
  cells : Tab CellRec := []
  lostFree : List Nat := []
  doubleFree : List Nat := []
  leftEg : List Nat := []
  inPkts : List InPkt := []
  voqs : Tab (List QEntry) := []
  egq : Tab (List Nat) := []
  sinkq : Tab (List Nat) := []
  stored : List Stored := []
  wait : Tab Nat := []
  planeRot : Tab Nat := []
  unacked : List CellBundle := []
  egHoldGroup : Bool := false
  egHold : BitVec 8 := 0
  withheld : Bool := false
  spill : Tab CellRec := []
  spillLost : List Nat := []
  spillDouble : List Nat := []
  cand : List Nat := []
  spillCand : List Nat := []
  cache : List CacheLine := []
  inReset : Bool := false
  deriving DecidableEq, Repr

/-- A Floor plane (R99, R102): service, grant and accept pointers, and the instants of its bundle failures. -/
structure Plane where
  fenced : Bool := false
  testing : Bool := false
  gp : Tab Nat := []
  ap : Tab Nat := []
  failures : List Nat := []
  deriving DecidableEq, Repr

/-- The switch core (R86 to R115) and the bridge channels (R19, R20). `allow` and `charged` are keyed by
port · 8 + class; `retired` holds 512 · sender half + channel; `lost` counts the cell channels a plane has lost for
good, keyed by 4 · sender half + plane, and `crossLeft`, by the same key, the part of a crossing's capacity that the last
slot left over, in 1/125 of a cell bundle. -/
structure Core where
  barns : Tab Barn
  planes : Tab Plane
  waitLimit : Nat
  allow : Tab Nat
  charged : Tab Nat
  spillGib : Nat
  spillMask : BitVec 8
  nextPid : Nat
  retired : List Nat
  sparesUsed : Tab Nat
  lost : Tab Nat
  crossLeft : Tab Nat
  deriving DecidableEq, Repr

/-! ### Scheduling (R116 to R130) -/

/-- Shaper profile or policer entry (R120). -/
structure Profile where
  en : Bool := false
  rate : Nat := 0
  burst : Nat := 0
  deriving DecidableEq, Repr

/-- A token bucket: the entry in force and TOKENS (R120). -/
structure Bucket where
  prof : Profile := {}
  tokens : Int := 0
  deriving DecidableEq, Repr

/-- LAT_SUSPENDED of a port: the causes present, in the order they began, and the last change (R128, R129). -/
structure LatWord where
  causes : List Nat := []
  sinceS : Nat := 0
  sinceNs : Nat := 0
  deriving DecidableEq, Repr

/-- Shapers, policers and latency flags (R118 to R130). Shapers and policers are keyed by port · 8 + class, profiles by
8192 · bank + port · 8 + class. `refilled` is the last refill instant that has been carried out (R119). -/
structure Sched where
  shapers : Tab Bucket
  profiles : Tab Profile
  shaperPend : List Nat
  policers : Tab Bucket
  policerPend : List (Nat × Profile)
  bank : Nat
  bankPend : Option Nat
  refilled : Option Nat
  lat : Tab LatWord
  deriving DecidableEq, Repr

/-! ### Collectives (R131 to R159, R439, R440) -/

/-- Context states (R131). -/
inductive CtxState where
  | free
  | active
  | aborted
  | retiring
  deriving DecidableEq, Repr

/-- An accepted contribution of an open index (R139, R174); `inStore` when it lies in the staging store (R198). -/
structure Contrib where
  member : Nat
  payload : List Byte
  inStore : Bool
  deriving DecidableEq, Repr

/-- How far an open index has come (R142, R143, R146, R156, R176). -/
inductive Phase where
  | reducing
  | winnowing
  | gated
  | waitSlot
  | waitUpstream
  | held
  | leaving
  deriving DecidableEq, Repr

/-- A formed result: payload, CRC-64 and TALLY (R142). -/
structure Formed where
  payload : List Byte
  crc : BitVec 64
  tally : Word
  deriving DecidableEq, Repr

/-- An open index (R137, R139): its contributions in recorded order, the unit it was placed on, the units that faulted on
it (R173), the instants of its first contribution and of its last stall notice, its phase and its result. -/
structure OpenIdx where
  contribs : List Contrib
  unit : Nat
  faulty : List Nat
  firstAt : Nat
  stallAt : Nat
  phase : Phase
  formed : Option Formed
  deriving DecidableEq, Repr

/-- A retention slot (R144, R153, R199). `waiting` results have not been released yet (R146); `upPartial` marks a relay's
partial (R156); `slot` is its number in the context's retention space (R199). -/
structure Retained where
  index : Nat
  epoch : Nat
  sheaf : Nat
  payload : List Byte
  crc : BitVec 64
  tally : Word
  acked : List Nat
  naks : Tab Nat
  releasedAt : Nat
  delivered : BitVec 1024
  unit : Nat
  waiting : Bool
  upPartial : Bool
  left : Bool
  slot : Nat
  deriving DecidableEq, Repr

/-- A released result that a fence of its unit would recall (R151): its index, its unit, and the members that have
acknowledged it. -/
structure Made where
  index : Nat
  unit : Nat
  acked : List Nat
  deriving DecidableEq, Repr

/-- A pending substitution (R152). -/
structure Subst where
  member : Nat
  newId : Nat
  epoch : Nat
  deriving DecidableEq, Repr

/-- A substitution that has taken effect (R152): the member, its endpoint before, and the first epoch of the new one,
counted from 0 at the context's first epoch. (DESIGN CHOICE, log entry 63.) -/
structure PastSub where
  member : Nat
  oldId : Nat
  first : Nat
  deriving DecidableEq, Repr

/-- A collective context (R131, R132, R137, R158). `desc` is D0 to D23, `front` the index F, `past` the substitutions in
effect, oldest first, `given` the member table as created or re-armed (R159), and `abortMask` the open indices of the window
at the abort (R150). `storeRow` and `retRow` are the first rows of the device pool that its staging store and its retention
space lie in, on the stacks of the placement (R198, R199). -/
structure Ctx where
  state : CtxState := .free
  desc : List Word := []
  members : List Nat := []
  given : List Nat := []
  abortReason : Nat := 0
  abortMask : Nat := 0
  storeRow : Option Nat := none
  retRow : Option Nat := none
  firstEpoch : Nat := 0
  front : Nat := 0
  released : Nat := 0
  sub : Option Subst := none
  past : List PastSub := []
  opens : List (Nat × OpenIdx) := []
  doneAbove : List Nat := []
  retained : List Retained := []
  made : List Made := []
  deriving DecidableEq, Repr

/-! ### Threshing units and harvest (R160 to R187) -/

/-- A threshing unit (R186) and the instants of its residue faults (R173). STATE is 0 IN_SERVICE, 1 FENCED,
2 TESTING; `waitOn` is the context and index that a fence of cause `cause` waits for (R175). -/
structure Unit where
  state : Nat := 0
  cause : Nat := 0
  residue : Nat := 0
  outvoted : Nat := 0
  fenceS : Nat := 0
  faultAt : List Nat := []
  waitOn : Option (Nat × Nat) := none
  deriving DecidableEq, Repr

/-- The command a detached piece of work belongs to: the model's own number of it, what its completion entry repeats
(R354), its DL_MODE and its deadline, in 1/256 ns of device time (DL_MODE 1) or in ps of the Hearth's own time base
(DL_MODE 2). -/
structure CmdRef where
  serial : Nat
  opcode : Nat
  ring : Nat
  tag : Nat
  vector : Nat
  count : Nat
  dlMode : Nat
  deadline : Nat
  deriving DecidableEq, Repr

/-- A harvest (R180 to R183): run descriptor A0 to A11, the group records it started from, the chunks written, and what
it reports. `b1b2` holds B1 and B2 of each group, `recs` the group records of the run (R182), and `redo` the unit
whose residue fault has a chunk computed again (R183). -/
structure Harvest where
  id : Nat
  desc : List Word
  b1b2 : List (Nat × (Word × Word))
  recs : List (Nat × List Word)
  redo : List ((Nat × Nat) × Nat)
  written : List (Nat × Nat)
  witnessed : Nat
  nonfinite : Nat
  cmd : CmdRef
  deriving DecidableEq, Repr

/-- A norm pass in progress (R185). -/
structure Norm where
  partition : Nat
  first : Nat
  count : Nat
  cmd : CmdRef
  deriving DecidableEq, Repr

/-- Threshing units, parameter groups (P0 to P19 by group), running harvests and norm passes, and the harvests whose
output is held (R182). -/
structure Thresh where
  units : Tab Unit
  groups : Tab (List Word)
  harvests : List Harvest
  heldOut : List Harvest
  norms : List Norm
  deriving DecidableEq, Repr

/-! ### Memory (R188 to R223) -/

/-- Granary window entry (R194). -/
structure Window where
  valid : Bool := false
  rd : Bool := false
  wr : Bool := false
  partition : Nat := 0
  base : Nat := 0
  size : Nat := 0
  deriving DecidableEq, Repr

/-- Region hint entry (R203). -/
structure HintEntry where
  valid : Bool := false
  hint : Nat := 0
  base : Nat := 0
  size : Nat := 0
  deriving DecidableEq, Repr

/-- A channel arbiter (R208): its owner (0 to 7 the units, 8 SPILL, 9 FILL, 10 HEARTH), the instant of its grant (R211), PTR
and the WAIT counts. -/
structure Arb where
  owner : Option Nat := none
  since : Nat := 0
  ptr : Nat := 9
  wait : Tab Nat := []
  deriving DecidableEq, Repr

/-- Service of a tier (R219, R220). -/
inductive TierState where
  | training
  | inService
  | held
  | releasing
  | failed
  deriving DecidableEq, Repr

/-- Thermal and watchdog state of a stack, Barn store channel or Silo port (R213, R222). -/
structure MemSrc where
  temp : Nat := 0
  level : Nat := 0
  wdFires : Nat := 0
  deriving DecidableEq, Repr

/-- A Silo port (R217, R218): detached by MEM_SILO_DETACH until a device is attached and trained again. -/
structure Silo where
  up : Bool := false
  detached : Bool := false
  capacity : Nat := 0
  deriving DecidableEq, Repr

/-- A move in progress (R206). -/
structure Move where
  partition : Nat
  src : Nat
  dst : Nat
  len : Nat
  rdHint : Nat
  wrHint : Nat
  cmd : CmdRef
  deriving DecidableEq, Repr

/-- The memory tiers (R188 to R223). `bytes` holds the Granary, the Barn store, the Silo and the scratchpads by device
address (R189). `bsGib` is P, the GiB of each Barn store channel, 0 where none is populated (R191). `bar2` is the Granary
offset of the BAR2 target, or none for the Loft (R205). -/
structure Mem where
  bytes : List Host.Cell
  windows : Tab Window
  hints : Tab HintEntry
  poolGib : Nat
  arbs : Tab Arb
  burstLimit : Nat
  waitLimit : Nat
  wdUs : Nat
  forerunner : Bool
  thr : Nat
  srcs : Tab MemSrc
  granary : TierState
  barnStore : TierState
  silos : Tab Silo
  bsGib : Nat
  moves : List Move
  bar2 : Option Nat
  marginCmd : Option CmdRef
  marginAddr : Nat
  marginFirst : Nat
  marginCount : Nat
  releaseCmds : List (Nat × CmdRef)
  ceCounts : Tab (List Nat)
  deriving DecidableEq, Repr

/-! ### Optics (R224 to R245) -/

/-- Lane states (R227). -/
inductive LaneState where
  | down
  | training
  | inService
  | withdrawn
  | banked
  | flue
  deriving DecidableEq, Repr

/-- Optical state of a lane (R227, R235, R243). `spare` is one more than the laser that feeds the lane when a spare does,
0 when the laser of R8 does. `lastCal` is LAST_CAL_S, `calAt` the instant of the last calibration or training and
`overdueSweep` one more than the sweep in which CAL_OVERDUE was reported last (R229). `excluded` are the resonances that
the recovery in progress (`recovering`) has tried, `unbankCmd` the LANE_UNBANK it belongs to (R235); `rxRing`: the ring at fault is
the receive ring (R233, R235). `draining`: the lane was given to a circuit at `drainAt` and still sends what was assigned to it (R281). `bankCmd` and `resetCmd` are
the LANE_BANK and LANE_RESET that withdraw the lane (R245, R336). `swing` is the user offset of TX_SWING in force (R395). -/
structure LaneOpt where
  state : LaneState := .down
  wdCause : Nat := 0
  bankCause : Nat := 0
  lockFails : Nat := 0
  spare : Nat := 0
  lastCal : Nat := 0
  calAt : Nat := 0
  swing : Int := 0
  overdueSweep : Nat := 0
  rxPower : Int := 0
  heater : Nat := 0
  excluded : List Nat := []
  recovering : Bool := false
  rxRing : Bool := false
  draining : Bool := false
  drainAt : Nat := 0
  unbankCmd : Option CmdRef := none
  bankCmd : Option CmdRef := none
  resetCmd : Option CmdRef := none
  deriving DecidableEq, Repr

/-- A laser (R236, R244). STATE: 0 OFF, 1 WORKING, 2 WARN, 3 SWAPPING, 4 RETIRED, 5 SPARE_FREE, 6 FAILED.
`dark`: its fade at or below −3.0 dB has been acted on. -/
structure Laser where
  state : Nat := 0
  replacedBy : Nat := 127
  channel : Nat := 0
  group : Nat := 0
  fade : Int := 0
  sinceS : Nat := 0
  readings : List Int := []
  dark : Bool := false
  deriving DecidableEq, Repr

/-- A laser as it stands once it is switched on (R8, R244): K0 to K63 WORKING, KS0 to KS15 free spares. -/
def Laser.lit (i : Nat) : Laser :=
  if i < 64 then { state := 1, channel := i % 8, group := i / 8 }
  else { state := 5, group := if i < 72 then 0 else 4 }

/-- A calibration slice of a barn (R228, R229): it waits for a laser swap, or its withdrawal is asked for or granted.
`cmds` are the commands that asked for it. -/
structure Slice where
  lane : Nat
  waits : Bool
  test : Option SliceTest
  cmds : List CmdRef
  deriving DecidableEq, Repr

/-- A laser swap of a half, pending or in progress (R237), by a spare; 127 for no spare, where the lanes are banked once
idle (R236). `failure`: the laser has failed (R239); `cmds` are the commands that asked for it. -/
structure Swap where
  laser : Nat
  spare : Nat
  started : Bool
  failure : Bool
  lanesLeft : List Nat
  cmds : List CmdRef
  deriving DecidableEq, Repr

/-- Lanes, lasers, calibration and the Kiln (R224 to R245). `slices` are keyed by barn and `swaps` by half. `refFails`
counts a barn's reference failures in successive slices, and holds at 16 + barn one more than the sweep of its last one
(R241). `sweepPend` is a new SWEEP_S and the start of the sweep it applies from (R228). `lastSlice` holds, by 64 · barn +
slice, one more than the number of the sweep in which that slice was last begun (R228). -/
structure Optics where
  lanes : Tab LaneOpt
  lasers : Tab Laser
  slices : List (Nat × Slice)
  swaps : List (Nat × Swap)
  sweepS : Nat
  sweepPend : Option (Nat × Nat)
  calEnable : Bool
  lastSlice : Tab Nat
  refFails : Tab Nat
  onMaster : List Nat
  masterFault : List Nat
  deriving DecidableEq, Repr

/-! ### Link layer (R246 to R274) -/

/-- A port (R6, R273, R274). RATE: 0 100, 1 200, 2 400 Gbit/s. -/
structure Port where
  configured : Bool := false
  width : Nat := 0
  enabled : Bool := false
  verMask : Nat := 0
  maxRate : Nat := 0
  up : Bool := false
  v0 : Bool := false
  rate : Nat := 0
  farId : Nat := 0
  rtt : Nat := 0
  deriving DecidableEq, Repr

/-- What becomes of a packet that is being received (R436). -/
inductive Disp where
  | unknown
  | dropped
  | forwarded
  | terminated
  deriving DecidableEq, Repr

/-- A packet being received on a lane: its header once judged, its bytes so far, whether its last byte has been
received, its disposition, whether its egress barn has dropped it already (R436), its name in the core, the copies to be queued once its first cell is written (R93),
with their destination barns, and the instants of its first bit and of its lookup (R407). -/
structure RxPkt where
  hdr : Option Header
  bytes : List Byte
  ended : Bool
  disp : Disp
  counted : Bool
  pid : Nat
  copies : List (Nat × QEntry)
  tIn : Nat
  parse : Nat
  deriving DecidableEq, Repr

/-- What an entry of a retry buffer carries (R257): a packet that is still being sent, a packet that has been sent whole, a
packet that ended with ABORT, or control messages. -/
inductive RetryKind where
  | partly
  | sentWhole
  | aborted
  | control
  deriving DecidableEq, Repr

/-- An entry of a lane's retry buffer (R257): the first and last SEQ of its flits, its port, the packet, the flits as they
were sent, and what they carry. -/
structure RetryPkt where
  firstSeq : Nat
  lastSeq : Nat
  port : Nat
  info : Option PktInfo
  flits : List (List Byte)
  kind : RetryKind
  deriving DecidableEq, Repr

/-- A packet that a lane is sending (R95, R253, R254): its name, its port, its flits sent so far, whether it is to end
with ABORT, whether it goes under the second case of R95, the instant of its selection, and that of its first bit. -/
structure Tx where
  pid : Nat
  port : Nat
  sent : Nat
  abort : Bool
  cut : Bool
  selAt : Nat
  outAt : Nat
  deriving DecidableEq, Repr

/-- A control message: MSG, K, KIND, MTAG and the word C1 (R263). -/
structure CtlMsg where
  msg : Nat
  k : Nat
  kind : Nat
  mtag : Nat
  arg : Nat
  deriving DecidableEq, Repr

/-- What becomes of the transmit stamp of a TIME packet (R301): nothing, the instant of a request, or the Follow_Up of a
Sync or of a peer delay response whose own message is given. -/
inductive StampUse where
  | none
  | request
  | syncFollow
  | pdelayFollow (req : List Byte)
  deriving DecidableEq, Repr

/-- A TIME packet queued for a port (R118, R256): its PTP message and the use of its stamp. -/
structure TimeOut where
  msg : List Byte
  use : StampUse
  deriving DecidableEq, Repr

/-- The link state of a lane (R251 to R269). `tx` is the packet that is being sent and `next` the one assigned to wait
behind it, with the instant of its selection (R118); `ctlQ` holds the control messages about the lane that wait; `crRot` is the class whose limit
the next flit carries (R270) and `slots` counts the flits sent since the last marker (R261). `nak`: the next flit sets NAK.
`trainedAt` is the instant of the last training, from which FRAME_COUNT runs (R262). `stopped`: the lane has left service
abruptly and the rehoming of its packets has not ended; `orphans` are those packets and `rehomeTag` the MTAG of its
REHOME_REQ (R265). `rxDone` and `txDone`: the far end, and this end, state that their work on the lane is done (R264).
`trainVer` and `trainRate` are the capability settings that the running full training began with (R274). `rxPos` counts the
slots received since training and `lastPair` is one more than the last codeword pair counted uncorrectable (R259). `trainStep`: 0 no training runs, 1
full training, 2 a full training has failed and waits for its restart, 3 short retraining (R267, R269); `trainCause` is
the last recorded cause of TRAIN_FAIL (R268). `seenTag` is the LANE_TAG last received (R262); `asked` is the
withdrawal this end has asked for and not been answered, with its MTAG, `answered` the far end's withdrawal that this end has granted (R264). -/
structure LaneLink where
  txSeq : Nat := 0
  txAcked : Nat := 4095
  retry : List RetryPkt := []
  replaySeq : Nat := 4096
  replays : Nat := 0
  rxSeq : Nat := 4095
  nak : Bool := false
  discarding : Bool := false
  farTag : Option Nat := none
  seenTag : Nat := 0
  farDevice : Nat := 0
  farLane : Nat := 0
  markerCount : Nat := 0
  uncorrAt : List Nat := []
  rx : List RxPkt := []
  tx : Option Tx := none
  next : Option (Nat × Nat) := none
  ctlQ : List CtlMsg := []
  crRot : Nat := 0
  slots : Nat := 0
  trainedAt : Nat := 0
  orphans : List RetryPkt := []
  rehomeTag : Nat := 0
  rxDone : Bool := true
  txDone : Bool := true
  trainVer : Nat := 0
  trainRate : Nat := 0
  rxPos : Nat := 0
  lastPair : Nat := 0
  txFault : Bool := false
  farStatus : List Word := []
  shortFails : Nat := 0
  trainStep : Nat := 0
  trainCause : Option TrainFailCause := none
  asked : Option WdKind := none
  askTag : Nat := 0
  answered : Option WdKind := none
  stopped : Bool := false
  deriving DecidableEq, Repr

/-- Ports, lane links and credit (R270, R271): CR_LIMIT last received, cells sent, the own cumulative limit and the cells
received are keyed by port · 8 + class. `resend` holds by port the packets that are to be sent again, ahead of all others
(R265), and `timeQ` the TIME packets that wait (R118). -/
structure Link where
  ports : Tab Port
  lanes : Tab LaneLink
  crLimit : Tab Nat
  cellsSent : Tab Nat
  ownLimit : Tab Nat
  cellsIn : Tab Nat
  resend : Tab (List PktInfo)
  timeQ : Tab (List TimeOut)
  deviceTag : Word
  deriving DecidableEq, Repr

/-! ### Flue (R275 to R294) -/

/-- A Flue circuit (R279, R284, R288, R293). STATE: 0 FREE, 1 TUNING, 2 READY, 3 LIVE, 4 RETUNING, 5 FAILED. While its setup
runs (R281), `cmd` is the FLUE_OPEN it belongs to and `meas` what its tuning will measure. -/
structure Circuit where
  state : Nat := 0
  fibreA : Nat := 0
  fibreB : Nat := 0
  k : Nat := 0
  takenA : Bool := false
  takenB : Bool := false
  ilMax : Nat := 0
  marginMin : Int := 0
  endA : Nat := 0
  endB : Nat := 0
  partition : Nat := 0
  outLossA : Nat := 0
  outLossB : Nat := 0
  rxSens : Int := 0
  leadMs : Nat := 0
  since : Nat := 0
  nextAt : Nat := 0
  retunes : Nat := 0
  connectPend : Bool := false
  noticeAt : Option Nat := none
  darkA : Bool := false
  darkB : Bool := false
  cmd : Option CmdRef := none
  meas : Option FlueMeas := none
  deriving DecidableEq, Repr

/-! ### Device time and kindling (R295 to R322) -/

/-- Port time configuration (R302) and the exchanges in progress on the port (R301): the next sequence numbers; the
two-step Sync awaiting its Follow_Up, its receive stamp and its correction; the last Sync's origin and receive times, whether
there is one, and whether its offset has still to be formed; the transmit stamp of the last request; of a peer delay
response awaiting its Follow_Up, its sequence number, its receive stamp, the turnaround's start and its correction; the
mean delay, once known; the grandmaster of the last Announce (R299). Stamps and corrections count 1/256 ns. -/
structure PortTime where
  role : Nat := 0
  mech : Nat := 0
  logSync : Int := -7
  logDelay : Int := -7
  logAnnounce : Nat := 1
  asym : Int := 0
  syncSeq : Nat := 0
  delaySeq : Nat := 0
  announceSeq : Nat := 0
  awaitSeq : Option Nat := none
  rxStamp : Rat := 0
  rxCorr : Rat := 0
  t1 : Rat := 0
  t2 : Rat := 0
  haveSync : Bool := false
  fresh : Bool := false
  t3 : Rat := 0
  awaitPd : Option Nat := none
  t4 : Rat := 0
  pt2 : Rat := 0
  pcorr : Rat := 0
  meanDelay : Rat := 0
  haveDelay : Bool := false
  gm : List Byte := []
  deriving DecidableEq, Repr

/-- A capture record (R311). -/
structure CaptureRec where
  source : Nat
  lost : Bool
  detail : Nat
  stamp : Nat
  deriving DecidableEq, Repr

/-- A TIME_SET that waits for the next PPS in edge (R308). -/
structure PpsSet where
  value : Nat
  since : Nat
  cmd : CmdRef
  deriving DecidableEq, Repr

/-- Device time, the servo, the pins and the captures (R295 to R311). `now` is device time and `sub` the part below
1/256 ns; `hearthPs` is the Hearth's own time base in ps (R417). STATE: 0 UNSET, 1 LOCKING, 2 LOCKED, 3 HOLDOVER,
4 STEP_HELD. `stepped` is the first instant that device time has reached by running since the last step (R309). `rate` and `integ` are fractions, `lastOffset`, `pending`, `pathDelay` and `ppsDelay` count 1/256 ns.
`lastAt` is the last accepted offset of the source, `holdFrom` the instant that HOLDOVER_MS runs from, `ppsRise` the last
edge of PPS out, `ppsSet` the TIME_SETs that wait for an edge. -/
structure TimeSt where
  now : Nat
  sub : Rat
  stepped : Nat
  hearthPs : Nat
  state : Nat
  srcKind : Nat
  srcPort : Nat
  stepRefused : Bool
  refSwitched : Bool
  lastOffset : Int
  pending : Int
  rate : Rat
  integ : Rat
  pathDelay : Int
  offsets : Nat
  stepCount : Nat
  refusedCount : Nat
  goodRun : Nat
  badRun : Nat
  lastAt : Option Nat
  holdFrom : Nat
  slewPpm : Nat
  stepNs : Nat
  pshift : Nat
  ishift : Nat
  holdoverMs : Nat
  domain : Nat
  clockId : BitVec 64
  ppsDelay : Int
  ppsWidthMs : Nat
  ports : Tab PortTime
  refOk0 : Bool
  refOk1 : Bool
  ppsOut : Bool
  ppsRise : Nat
  ppsSet : List PpsSet
  pinAt : Tab Nat
  captureMask : BitVec 64
  edges : BitVec 8
  store : List CaptureRec
  lostSrc : List Nat
  deriving DecidableEq, Repr

/-- A Kindling entry (R313, R317 to R321): image E0 to E7, whether it is armed, its next launch time, its last outcome,
the executions since arming, whether an action was performed, the last execution and the launches counted. -/
structure KEntry where
  image : List Word := []
  armed : Bool := false
  next : Nat := 0
  outcome : Nat := 0
  count : Nat := 0
  performed : Bool := false
  lastExec : Nat := 0
  launches : Nat := 0
  deriving DecidableEq, Repr

/-! ### Partitions, seeds (R323 to R332) -/

/-- Partition record (R323). STATE: 0 FREE, 1 ACTIVE, 2 RETIRING. -/
structure Part where
  state : Nat := 0
  maxContexts : Nat := 0
  maxTrees : Nat := 0
  maxKindle : Nat := 0
  maxGranMib : Nat := 0
  deriving DecidableEq, Repr

/-- Port partition entry (R325). MODE: 0 FABRIC_ONLY, 1 OWNED, 2 TRUNK. -/
structure PortPart where
  mode : Nat := 0
  partition : Nat := 0
  deriving DecidableEq, Repr

/-- Allow entry (R326). -/
structure AllowEntry where
  valid : Bool := false
  guest : Nat := 0
  host : Nat := 0
  deriving DecidableEq, Repr

/-- A range to be zeroed for a retiring partition (R330): a former window, or the retention space of a context, the stacks
it lies on, and the granules of it zeroed so far on the stacks of H0 and of H1. -/
structure ScrubRange where
  base : Nat
  size : Nat
  onStacks : List Nat
  ctx : Option Nat
  done0 : Nat
  done1 : Nat
  deriving DecidableEq, Repr

/-- A retiring partition, in the order in which retirements began (R328, R330): the packets of its ABORTs, the PART_RETIRE that waits
until they have left and step 4 is taken, and the ranges to be zeroed from then on. -/
structure Retire where
  partition : Nat
  pids : List Nat
  cmd : Option CmdRef
  ranges : List ScrubRange
  deriving DecidableEq, Repr

/-- A seed (R331, R332). STATE: 0 FREE, 1 READY, 2 SENDING; `sent` counts the image bytes handed over, `lastPid` names the
last packet handed over. -/
structure Seed where
  state : Nat := 0
  seedId : Nat := 0
  tc : Nat := 0
  partition : Nat := 0
  treeId : Nat := 0
  offset : Nat := 0
  length : Nat := 0
  remote : Nat := 0
  sent : Nat := 0
  lastPid : Option Nat := none
  deriving DecidableEq, Repr

/-- Partitions, port entries, allow entries, retirements and seeds (R323 to R332). -/
structure Jobs where
  parts : Tab Part
  portPart : Tab PortPart
  allow : Tab AllowEntry
  retiring : List Retire
  scrubRate : Nat
  seeds : Tab Seed
  deriving DecidableEq, Repr

/-! ### Hearth (R341 to R373) -/

/-- Registers of a mailbox ring (R347), the doorbells accepted with the instant each was accepted on the Hearth's
own time base (R356), and the interface version that was active when the ring was enabled (R367). -/
structure Ring where
  cmdBase : BitVec 64 := 0
  cplBase : BitVec 64 := 0
  en : Bool := false
  perVec : Bool := false
  isLocal : Bool := false
  vector : Nat := 0
  cmdTail : Nat := 0
  cmdHead : Nat := 0
  cplTail : Nat := 0
  cplHead : Nat := 0
  full : Bool := false
  dbError : Bool := false
  doorbells : List (Nat × Nat) := []
  ver : Nat := 0
  deriving DecidableEq, Repr

/-- An event that waits in Hearth SRAM (R362): type, stamp, body words EV4 to EV15 and the bytes that go into a packet
slot, with the word of the body that names the slot. -/
structure Event where
  type : Nat
  stamp : Nat
  body : List Word
  slot : Option (List Byte)
  deriving DecidableEq, Repr

/-- The event ring (R361, R362, R364). `held` pairs each packet slot in use with the event that names it. -/
structure EventRing where
  evBase : BitVec 64
  pktBase : BitVec 64
  en : Bool
  sizeLog2 : Nat
  vector : Nat
  evTail : Nat
  evHead : Nat
  lost : Nat
  lostPend : Bool
  nextSlot : Nat
  held : List (Nat × Nat)
  queue : List Event
  deriving DecidableEq, Repr

/-- A slot of the firmware store (R367, R373): 0 EMPTY, 1 VERIFIED, 2 INVALID, and the image. -/
structure FwSlot where
  state : Nat := 0
  image : List Byte := []
  version : Word := 0
  secVer : Nat := 0
  ifMin : Nat := 0
  ifMax : Nat := 0
  deriving DecidableEq, Repr

/-- Work that a detached command waits for and that no other part of the state describes (R355). -/
inductive DetWork where
  | none
  | fwLoad (addr len : Nat)
  | spill (gib : Nat) (mask : BitVec 8)
  | plane (p : Nat)
  | unit (u : Nat)
  | lane (l : Nat)
  deriving DecidableEq, Repr

/-- A detached command that has not completed; `muted` when its completion is not to be written (R347, R365). -/
structure Detached where
  cmd : CmdRef
  work : DetWork
  muted : Bool
  deriving DecidableEq, Repr

/-- The Hearth: BAR0 registers (R343 to R348), rings, events, host memory as the device has written or read it, firmware
slots and settings (R367 to R372). `taken` numbers the entries taken up; `owed` are the commands that a Hearth reset has
interrupted and that the Hearth answers when it returns (R366). -/
structure Hearth where
  fwVersion : Word
  ifMin : Nat
  ifMax : Nat
  ifRequest : Word
  ifActive : Nat
  ifValid : Bool
  reqIgnored : Bool
  selftest : Word
  resetCause : Word
  urgentMax : Nat
  urgentPrev : Nat
  urgentBusy : Nat
  coreBusy : Nat
  latch : List Word
  latchUnset : Bool
  intStatus : BitVec 7
  intMask : BitVec 7
  msix : Tab Word
  pba : BitVec 64
  rings : Tab Ring
  ev : EventRing
  hostMem : List Host.Cell
  localMem : List Host.Cell
  detached : List Detached
  owed : List CmdRef
  taken : Nat
  pendingReset : Option CmdRef
  ready : Bool
  inReset : Bool
  resetWhy : Nat
  switching : Bool
  bootSlot : Nat
  committed : Nat
  commitPending : Bool
  slots : Tab FwSlot
  hopLimit : Nat
  endpointId : Option Nat
  deriving DecidableEq, Repr

/-! ### Integrity and security (R375 to R396) -/

/-- A fault report (R378) without its PERSISTED bit and COUNT. -/
structure FaultRep where
  code : Nat
  severity : Nat
  half : Nat
  block : Nat
  item : Nat
  partition : Nat
  ctx : Option Nat
  address : Nat
  detail : List Word
  deriving DecidableEq, Repr

/-- An open fold window of fault reports of one code and location (R378). -/
structure Fold where
  rep : FaultRep
  since : Nat
  count : Nat
  deriving DecidableEq, Repr

/-- An entry of a fault log (R380). -/
structure LogEntry where
  stamp : Nat
  rep : FaultRep
  persisted : Bool
  count : Nat
  deriving DecidableEq, Repr

/-- Life cycle, keys, logs, tag area and calibration stores (R380 to R396). Key digests are byte strings, `identity` is the private
identity key. `fuseA` and `fuseB`
are the twins of the 64 anti-rollback fuses, a bit set where one reads as blown; of `copiesBad` bits 0 and 1 say which copies
of the vendor key digest failed their CRC, bits 2 and 3 which of the UID (R389). -/
structure Sec where
  life : Nat
  authSeq : Nat
  uid : BitVec 128
  vendorDigest : List Byte
  owners : List (List Byte)
  cosign : Bool
  factoryDone : Bool
  identity : Option Nat
  debugUntil : Option Nat
  tag : Tab Byte
  userCal : Tab Int
  fuseA : BitVec 64
  fuseB : BitVec 64
  copiesBad : BitVec 4
  volLog : List LogEntry
  persLog : List LogEntry
  folds : List Fold
  deriving DecidableEq, Repr

/-! ### Counters, Tally and tracing (R397 to R409) -/

/-- Where a dump or trace ring lies (R405). -/
inductive RingTarget where
  | off
  | host (addr : Nat)
  | granary (partition offset : Nat)
  deriving DecidableEq, Repr

/-- The last latch: its start and window, the triggers merged into it, its tag and where the tag came from (the kindling
entry, 256 for a command, 257 for a periodic latch alone), its SEQ and whether it was written, the FLAGS and LOST of its
record, the counter words that it sampled and the stamp of its capture (R402 to R404). -/
structure Latch where
  start : Nat
  windowNs : Nat
  trigger : BitVec 3
  tag : Nat
  tagFrom : Nat
  seq : Nat
  written : Bool
  flags : Nat
  lost : Nat
  body : List Byte
  capStamp : Nat
  deriving DecidableEq, Repr

/-- The Tally's configuration and progress (R402 to R405). `lastPer` is the last instant of a periodic latch, and `waiting` holds the
ends of the latch windows of the sets that may still be waiting to be written. -/
structure Tally where
  enabled : Bool
  periodUs : Nat
  kindMask : Word
  policeMask : Byte
  target : RingTarget
  slots : Nat
  seq : Nat
  lost : Nat
  flags : BitVec 3
  last : Option Latch
  lastPer : Option Nat
  waiting : List Nat
  deriving DecidableEq, Repr

/-- Sampled tracing (R406 to R408). `recent` holds the barns and instants of the records that may still be pending. -/
structure Trace where
  enabled : Bool
  logN : Nat
  classMask : Byte
  barnMask : BitVec 16
  seed : Word
  target : RingTarget
  slots : Nat
  seq : Nat
  recent : List (Nat × Nat)
  deriving DecidableEq, Repr

/-- The counters by COUNTER_ID (R398, R399), the Tally and the tracer. -/
structure Count where
  counters : Tab (BitVec 64)
  tally : Tally
  trace : Trace
  deriving DecidableEq, Repr

/-! ### Power (R410 to R434) -/

/-- A reset that waits for its notices (R333): none, the device, or a half. -/
inductive PendReset where
  | none
  | device
  | half (h : Nat)
  deriving DecidableEq, Repr

/-- Rails, domains, references, temperatures and recovery (R410 to R421, R430, R434). The domain masks are in the order
of PS5. `ready0` and `ready1` are Hx_READY; `inReset` while a device reset has not been released. `convAt0`, `convAt1`
(converter faults) and `coolSince` are instants of the Hearth's own time base, in ps. `readyAt0` and `readyAt1`
are the instants of that time base at which the halves became ready (R424). `pendAt` is the instant at which a
pending reset was commanded (R333) and `pendPids` are the packets of its notices that may still have to leave. RCV_STATE: 0 IDLE, 1 VERIFYING,
2 WRITTEN, 3 REFUSED. -/
structure Power where
  vin36Mv : Nat
  vauxMv : Nat
  pin : Nat
  paux : Nat
  pH0 : Nat
  pH1 : Nat
  pOptics : Nat
  pGran : Nat
  aux : Bool
  qualified : Bool
  on0 : Byte
  on1 : Byte
  ready0 : Bool
  ready1 : Bool
  readyAt0 : Nat
  readyAt1 : Nat
  resetHeld : Bool
  inReset : Bool
  conv0 : Nat
  conv1 : Nat
  convAt0 : List Nat
  convAt1 : List Nat
  stayOff0 : Bool
  stayOff1 : Bool
  tempMax : Nat
  tempSensor : Nat
  kilnMax : Nat
  warned : List Nat
  trip : Bool
  coolSince : Option Nat
  recovery : Bool
  rcvState : Nat
  rcvDetail : Nat
  rcvLen : Nat
  rcvUse : Nat
  rcvBuf : List Host.Cell
  pending : PendReset
  pendAt : Nat
  pendPids : List Nat
  deriving DecidableEq, Repr

/-! ### Outputs -/

/-- What the block puts out: flits and alignment slots on lanes, and what they carry (packets, aborts, replays, NAKs,
control messages, markers, TIME packets), MSI-X messages, answers to reads, pin edges and Flue light.
(DESIGN CHOICE, log entry 141.) -/
inductive Output where
  | packet (port lane : Nat) (hdr : Header) (payload : List Byte) (crc : BitVec 64)
  | abort (lane : Nat)
  | replay (lane firstSeq : Nat)
  | nak (lane ack : Nat)
  | control (lane msg k kind mtag arg : Nat)
  | marker (lane : Nat) (words : List Word)
  | capability (lane : Nat) (cap : BitVec 64)
  | flit (lane : Nat) (bytes : List Byte)
  | alignment (lane : Nat) (bytes : List Byte)
  | timePacket (port lane : Nat) (hdr : Header) (payload : List Byte) (crc : BitVec 64)
  | msix (vector : Nat) (addr : BitVec 64) (data : Word)
  | readData (bytes : List Byte)
  | unsupported
  | completerAbort
  | ppsOut (high : Bool)
  | light (circuit : Nat) (on : Bool)
  | thermTrip (low : Bool)
  deriving DecidableEq, Repr

/-! ### The whole state -/

/-- The state of the block. `out` is what it has put out, newest first; `free` counts the free values taken so far
(the model's own fields, as `pending` is). -/
structure State where
  routing : Routing
  core : Core
  sched : Sched
  coll : Tab Ctx
  thresh : Thresh
  mem : Mem
  optics : Optics
  link : Link
  flue : Tab Circuit
  time : TimeSt
  kindle : Tab KEntry
  jobs : Jobs
  hearth : Hearth
  sec : Sec
  count : Count
  power : Power
  out : List Output
  free : Nat
  pending : List Instr
  deriving DecidableEq, Repr

/-- Reasons for which the machine stops with a fault. No rule of the manual ends the machine, so no command raises one;
the constructor stands for the type's sake. Safe: nothing is proved from it. -/
inductive Fault where
  /-- Raised by no command. Safe. -/
  | none
  deriving DecidableEq, Repr

/-- Reasons for which a command is refused by the model. -/
inductive Refusal where
  /-- An arm of `exec` that has no meaning yet. Safe: the model stops where the device goes on. -/
  | notModelled (mnemonic : String)
  /-- Raised by every command whose operands are not well formed (`Sys2Proof.Instr.wf`): no such command exists.
  Safe: the model stops. -/
  | illFormed
  deriving DecidableEq, Repr

/-! ### Reset -/

/-- Routing after a device reset (R73): A active, B OPEN, all tables empty, the defaults of R70, R80 and R81.
(DESIGN CHOICE, log entry 9.) -/
def Routing.reset : Routing :=
  { explA := [], explB := [], podA := [], podB := [], ep0 := [], ep1 := [], bundles := [], trees := [],
    active := .a, nonActive := .opened, drainEnd := 0, drainUs := 100, ageS := 300, evictRandom := false,
    defs := [], lastSlot := [], laneDefs := [], lastLane := [], learnQ0 := [], learnQ1 := [], moves := [],
    parity := [] }

/-- The switch core after a device reset (R90, R99, R105, R108, R109). (DESIGN CHOICE, log entry 9.) -/
def Core.reset : Core :=
  { barns := [], planes := [], waitLimit := 16, allow := [], charged := [], spillGib := 0, spillMask := 0x3F,
    nextPid := 0, retired := [], sparesUsed := [], lost := [], crossLeft := [] }

/-- Scheduling after a device reset (R120, R121, R129). (DESIGN CHOICE, log entry 9.) -/
def Sched.reset : Sched :=
  { shapers := [], profiles := [], shaperPend := [], policers := [], policerPend := [], bank := 0,
    bankPend := none, refilled := none, lat := [] }

/-- Units and groups after a device reset (R179, R186). -/
def Thresh.reset : Thresh :=
  { units := [], groups := [], harvests := [], heldOut := [], norms := [] }

/-- Memory after a device reset, before the tiers are trained (R196, R205, R208, R211, R213, R219).
(DESIGN CHOICE, log entries 8, 9, 13.) -/
def Mem.reset : Mem :=
  { bytes := [], windows := [], hints := [], poolGib := 32, arbs := [], burstLimit := 32, waitLimit := 64,
    wdUs := 20, forerunner := false, thr := 90, srcs := [], granary := .training, barnStore := .training,
    silos := [], bsGib := 64, moves := [], bar2 := some 0, marginCmd := none, marginAddr := 0, marginFirst := 0,
    marginCount := 0, releaseCmds := [],
    ceCounts := [] }

/-- Optics at a cold reset (R228, R242, R243, R244): lanes DOWN, every laser dark. (DESIGN CHOICE, log entry 8.) -/
def Optics.reset : Optics :=
  { lanes := [], lasers := [], slices := [], swaps := [], sweepS := 900, sweepPend := none,
    calEnable := true, lastSlice := [], refFails := [], onMaster := [], masterFault := [] }

/-- Links after a device reset (R273, R274): no port configured. DEVICE_TAG is a free value chosen at the reset.
(DESIGN CHOICE, log entry 12.) -/
def Link.reset : Link :=
  { ports := [], lanes := [], crLimit := [], cellsSent := [], ownLimit := [], cellsIn := [], resend := [], timeQ := [], deviceTag := 1 }

/-- Device time after a device reset (R304, R305, R310, R321). (DESIGN CHOICE, log entry 9.) -/
def TimeSt.reset : TimeSt :=
  { now := 0, sub := 0, stepped := 0, hearthPs := 0, state := 0, srcKind := 0, srcPort := 0, stepRefused := false,
    refSwitched := false, lastOffset := 0, pending := 0, rate := 0, integ := 0, pathDelay := 0, offsets := 0,
    stepCount := 0, refusedCount := 0, goodRun := 0, badRun := 0, lastAt := none, holdFrom := 0, slewPpm := 50, stepNs := 1000,
    pshift := 2, ishift := 6, holdoverMs := 3000, domain := 0, clockId := 0, ppsDelay := 0, ppsWidthMs := 100,
    ports := [], refOk0 := true, refOk1 := true, ppsOut := false, ppsRise := 0, ppsSet := [], pinAt := [],
    captureMask := BitVec.allOnes 64, edges := 0, store := [], lostSrc := [] }

/-- Partitions after a device reset (R323, R325, R326, R330, R331). -/
def Jobs.reset : Jobs :=
  { parts := [], portPart := [], allow := [], retiring := [], scrubRate := 25, seeds := [] }

/-- The event ring after a device reset (R361). -/
def EventRing.reset : EventRing :=
  { evBase := 0, pktBase := 0, en := false, sizeLog2 := 8, vector := 0, evTail := 0, evHead := 0, lost := 0,
    lostPend := false, nextSlot := 0, held := [], queue := [] }

/-- The Hearth as its reset is released, before the boot ROM has started the firmware shipped with stepping B0 (R344, R346, R347,
R370, R371). (DESIGN CHOICE, log entries 8, 11, 88.) -/
def Hearth.reset : Hearth :=
  { fwVersion := 0x01000001, ifMin := 0x10, ifMax := 0x10, ifRequest := 0, ifActive := 0, ifValid := false,
    reqIgnored := false, selftest := 0xFF000000, resetCause := 0, urgentMax := 0, urgentPrev := 0, urgentBusy := 0, coreBusy := 0,
    latch := [0, 0, 0], latchUnset := false, intStatus := 0, intMask := 0x7F, msix := [], pba := 0, rings := [],
    ev := EventRing.reset, hostMem := [], localMem := [], detached := [], owed := [], taken := 0, pendingReset := none, ready := false,
    inReset := true, resetWhy := 0, switching := false, bootSlot := 0, committed := 0, commitPending := false,
    slots := [(0, { state := 1, image := [], version := 0x01000001, secVer := 0, ifMin := 0x10, ifMax := 0x10 })],
    hopLimit := 8, endpointId := none }

/-- Fuses and stores (R381 to R395): what no reset gives a value to. (DESIGN CHOICE, log entry 10.) -/
def Sec.reset : Sec :=
  { life := 2, authSeq := 0, uid := 0, vendorDigest := List.replicate 32 0, owners := [List.replicate 32 0], cosign := false,
    factoryDone := true, identity := some 1, debugUntil := none, tag := [],
    userCal := [], fuseA := 0, fuseB := 0, copiesBad := 0, volLog := [], persLog := [], folds := [] }

/-- Counters, Tally and tracing after a device reset (R397, R400, R402). (DESIGN CHOICE, log entry 9.) -/
def Count.reset : Count :=
  { counters := [],
    tally := { enabled := false, periodUs := 1000000, kindMask := 0, policeMask := 0xFF, target := .off, slots := 2,
               seq := 0, lost := 0, flags := 0, last := none, lastPer := none, waiting := [] },
    trace := { enabled := false, logN := 8, classMask := 0, barnMask := 0, seed := 0, target := .off, slots := 1024,
               seq := 0, recent := [] } }

/-- Power at the release of the AUX reset: neither half powered nor ready (R344, R414, R434).
(DESIGN CHOICE, log entries 8, 9, 14, 145.) -/
def Power.reset : Power :=
  { vin36Mv := 0, vauxMv := 0, pin := 0, paux := 0, pH0 := 0, pH1 := 0, pOptics := 0, pGran := 0, aux := true,
    qualified := false, on0 := 0, on1 := 0, ready0 := false, ready1 := false, readyAt0 := 0, readyAt1 := 0,
    resetHeld := false, inReset := true, conv0 := 0,
    conv1 := 0, convAt0 := [], convAt1 := [], stayOff0 := false, stayOff1 := false, tempMax := 0, tempSensor := 0,
    kilnMax := 0, warned := [], trip := false, coolSince := none, recovery := false, rcvState := 0, rcvDetail := 0,
    rcvLen := 0, rcvUse := 0, rcvBuf := [], pending := .none, pendAt := 0, pendPids := [] }

/-- The machine right after reset: the release of a cold reset, before the boot ROM has started firmware (R333, R344, R414), no
command waiting. (DESIGN CHOICE, log entries 2, 4, 7, 8, 9, 141, 142.) -/
def State.reset : State :=
  { routing := Routing.reset, core := Core.reset, sched := Sched.reset, coll := [], thresh := Thresh.reset,
    mem := Mem.reset, optics := Optics.reset, link := Link.reset, flue := [], time := TimeSt.reset, kindle := [],
    jobs := Jobs.reset, hearth := Hearth.reset, sec := Sec.reset, count := Count.reset, power := Power.reset,
    out := [], free := 0, pending := [] }

end Sys2Proof.Machine
end

