-- ==== Sys2Proof/Machine/Fields.lean ====
section
/-! DEFINITION. Changing one part of the state. -/

namespace Sys2Proof.Machine

/-- Changes `routing` by `f`. -/
def State.modRouting (f : Routing → Routing) (s : State) : State := { s with routing := f s.routing }

/-- Changes `core` by `f`. -/
def State.modCore (f : Core → Core) (s : State) : State := { s with core := f s.core }

/-- Changes `sched` by `f`. -/
def State.modSched (f : Sched → Sched) (s : State) : State := { s with sched := f s.sched }

/-- Changes `coll` by `f`. -/
def State.modColl (f : Tab Ctx → Tab Ctx) (s : State) : State := { s with coll := f s.coll }

/-- Changes `thresh` by `f`. -/
def State.modThresh (f : Thresh → Thresh) (s : State) : State := { s with thresh := f s.thresh }

/-- Changes `mem` by `f`. -/
def State.modMem (f : Mem → Mem) (s : State) : State := { s with mem := f s.mem }

/-- Changes `optics` by `f`. -/
def State.modOptics (f : Optics → Optics) (s : State) : State := { s with optics := f s.optics }

/-- Changes `link` by `f`. -/
def State.modLink (f : Link → Link) (s : State) : State := { s with link := f s.link }

/-- Changes `flue` by `f`. -/
def State.modFlue (f : Tab Circuit → Tab Circuit) (s : State) : State := { s with flue := f s.flue }

/-- Changes `time` by `f`. -/
def State.modTime (f : TimeSt → TimeSt) (s : State) : State := { s with time := f s.time }

/-- Changes `kindle` by `f`. -/
def State.modKindle (f : Tab KEntry → Tab KEntry) (s : State) : State := { s with kindle := f s.kindle }

/-- Changes `jobs` by `f`. -/
def State.modJobs (f : Jobs → Jobs) (s : State) : State := { s with jobs := f s.jobs }

/-- Changes `hearth` by `f`. -/
def State.modHearth (f : Hearth → Hearth) (s : State) : State := { s with hearth := f s.hearth }

/-- Changes `sec` by `f`. -/
def State.modSec (f : Sec → Sec) (s : State) : State := { s with sec := f s.sec }

/-- Changes `count` by `f`. -/
def State.modCount (f : Count → Count) (s : State) : State := { s with count := f s.count }

/-- Changes `power` by `f`. -/
def State.modPower (f : Power → Power) (s : State) : State := { s with power := f s.power }

end Sys2Proof.Machine
end

