-- ==== Sys2Proof/Machine/Tab.lean ====
section
/-! DEFINITION. Sparse tables and byte memories in canonical form: rising keys, no entry equal to what an unlisted key
reads as. -/

namespace Sys2Proof.Machine

/-- The value of key `k`, or `d` where it is not listed. -/
def tget {α : Type} (t : Tab α) (d : α) (k : Nat) : α :=
  match t with
  | [] => d
  | (j, v) :: r => if j = k then v else tget r d k

/-- Lists `v` at key `k`, in order of keys. -/
def tput {α : Type} (t : Tab α) (k : Nat) (v : α) : Tab α :=
  match t with
  | [] => [(k, v)]
  | (j, u) :: r =>
    if j = k then (k, v) :: r
    else if k < j then (k, v) :: (j, u) :: r
    else (j, u) :: tput r k v

/-- The table without key `k`. -/
def tdel {α : Type} (t : Tab α) (k : Nat) : Tab α :=
  t.filter fun p => p.1 != k

/-- Sets key `k` to `v`; a value equal to the default `d` is not listed. -/
def tset {α : Type} [DecidableEq α] (t : Tab α) (d : α) (k : Nat) (v : α) : Tab α :=
  if v = d then tdel t k else tput t k v

/-- Changes key `k` by `f`. -/
def tmod {α : Type} [DecidableEq α] (t : Tab α) (d : α) (k : Nat) (f : α → α) : Tab α :=
  tset t d k (f (tget t d k))

/-- Keys rise strictly. -/
def sortedKeys {α : Type} (t : Tab α) : Bool :=
  match t with
  | [] => true
  | (j, _) :: r => r.all (fun p => decide (j < p.1)) && sortedKeys r

/-- The canonical form of a table with default `d`. -/
def tabWf {α : Type} [DecidableEq α] (d : α) (t : Tab α) : Bool :=
  sortedKeys t && t.all (fun p => decide (p.2 ≠ d))

/-- The canonical form of a byte memory whose unlisted bytes read 0. (DESIGN CHOICE, log entry 15.) -/
def Memory.wf (m : List Host.Cell) : Bool :=
  tabWf (0 : Byte) m

/-- `n` bytes of a memory from address `a` upward; an unlisted byte reads 0. (DESIGN CHOICE, log entry 15.) -/
def memRead (m : List Host.Cell) (a : Nat) (n : Nat) : List Byte :=
  (List.range n).map fun i => tget m (0 : Byte) (a + i)

/-- Writes bytes from address `a` upward. -/
def memWrite (m : List Host.Cell) (a : Nat) (bytes : List Byte) : List Host.Cell :=
  match bytes with
  | [] => m
  | b :: r => memWrite (tset m (0 : Byte) a b) (a + 1) r

/-- Zeroes every byte from `a` to `a + n − 1`. -/
def memZero (m : List Host.Cell) (a : Nat) (n : Nat) : List Host.Cell :=
  m.filter fun p => decide (p.1 < a ∨ a + n ≤ p.1)

end Sys2Proof.Machine
end

