-- ==== Sys2Proof/Machine/Ops.lean ====
section
/-! DEFINITION. The named operations every family of commands uses: numbering, free values, counters, captures,
events, fault reports, host memory, interrupts. -/

namespace Sys2Proof.Machine

/-! ### Numbering (R4 to R8, R17, R18) -/

/-- The barn of a lane or port (R5). -/
def barnOf (lane : Nat) : Nat := lane / 64

/-- The half of a barn (R5). -/
def halfOfBarn (b : Nat) : Nat := b / 8

/-- The half of a lane (R5). -/
def halfOf (lane : Nat) : Nat := lane / 512

/-- The barn that feeds a threshing unit (R17). -/
def barnOfUnit (u : Nat) : Nat := u / 4

/-- The stack of a threshing unit (R7). -/
def stackOfUnit (u : Nat) : Nat := u / 8

/-- A barn of the device. -/
def theBarn (s : State) (b : Nat) : Barn := tget s.core.barns {} b

/-- Changes one barn. -/
def modBarn (b : Nat) (f : Barn → Barn) (s : State) : State :=
  s.modCore fun c => { c with barns := tmod c.barns {} b f }

/-- A lane's optical state. -/
def laneOpt (s : State) (l : Nat) : LaneOpt := tget s.optics.lanes {} l

/-- Changes a lane's optical state. -/
def modLaneOpt (l : Nat) (f : LaneOpt → LaneOpt) (s : State) : State :=
  s.modOptics fun o => { o with lanes := tmod o.lanes {} l f }

/-- A lane's link state. -/
def laneLink (s : State) (l : Nat) : LaneLink := tget s.link.lanes {} l

/-- Changes a lane's link state. -/
def modLaneLink (l : Nat) (f : LaneLink → LaneLink) (s : State) : State :=
  s.modLink fun k => { k with lanes := tmod k.lanes {} l f }

/-- A port. -/
def thePort (s : State) (p : Nat) : Port := tget s.link.ports {} p

/-- Changes a port. -/
def modPort (p : Nat) (f : Port → Port) (s : State) : State :=
  s.modLink fun k => { k with ports := tmod k.ports {} p f }

/-- The lanes of a port (R6). -/
def portLanes (s : State) (p : Nat) : List Nat := (List.range (thePort s p).width).map (p + ·)

/-- The configured port that a lane belongs to, or none. -/
def portOfLane (s : State) (l : Nat) : Option Nat :=
  (s.link.ports.find? fun e => e.2.configured && decide (e.1 ≤ l) && decide (l < e.1 + e.2.width)).map Prod.fst

/-! ### Time values (R295, R296) -/

/-- One nanosecond in the unit of instants. -/
def nsU (n : Nat) : Nat := n * 256

/-- One microsecond in the unit of instants. -/
def usU (n : Nat) : Nat := n * 256000

/-- One second in the unit of instants. -/
def secU (n : Nat) : Nat := n * 256000000000

/-- SEC of an instant. -/
def secOf (t : Nat) : Nat := t / 256000000000

/-- NS of an instant. -/
def nsOf (t : Nat) : Nat := t / 256 % 1000000000

/-- The three words of a time value (R296). -/
def timeWords (t : Nat) : List Word :=
  [w32 (secOf t), pack [(24, t % 256), (0, secOf t / 2 ^ 32 % 65536)], w32 (nsOf t)]

/-- Whether three words hold a time value: NS below 1,000,000,000 (R296). -/
def timeOk (v2 : Word) : Bool := decide (fld v2 29 0 < 1000000000)

/-- The instant that three words hold (R296). -/
def timeOf (v0 v1 v2 : Word) : Nat :=
  (v0.toNat + 2 ^ 32 * fld v1 15 0) * 256000000000 + fld v2 29 0 * 256 + fld v1 31 24

/-- The time state UNSET (R304). -/
def timeUnset (s : State) : Bool := s.time.state == 0

/-! ### Free values and outputs -/

/-- The next free value below `m`. (DESIGN CHOICE, log entry 3.) -/
def freeBelow (s : State) (m : Nat) : Nat := Config.freeValue s.free % m

/-- The longest reference cycle, in 1/256 ns, rounded up: 6.4 ns lengthened by the servo's correction of at most 200 ppm is 1,638.7
of these units (R298, R305). (DESIGN CHOICE, log entry 6.) -/
def cycleMax : Nat := 1639

/-- The TIME domain of a half is powered: its time engine and its pins work (R419). -/
def timeOn (s : State) (h : Nat) : Bool := if h = 0 then s.power.on0.getLsbD 6 else s.power.on1.getLsbD 6

/-- Device time has reached an instant by running, in this reference cycle: not by a step that skipped it (R309).
(DESIGN CHOICE, log entry 6.) -/
def reached (s : State) (t : Nat) : Bool :=
  decide (s.time.stepped ≤ t) && decide (t ≤ s.time.now) && decide (s.time.now < t + cycleMax)

/-- One more free value is taken. (DESIGN CHOICE, log entry 3.) -/
def State.tookFree (s : State) : State := { s with free := s.free + 1 }

/-- So many free values are taken. -/
def State.tookMany (n : Nat) (s : State) : State := { s with free := s.free + n }

/-- Puts out one thing. (DESIGN CHOICE, log entries 141, 147.) -/
def emit (o : Output) (s : State) : State := { s with out := o :: s.out }

/-! ### Counters (R397 to R400) -/

/-- COUNTER_ID (R398). -/
def ctr (kind inst index : Nat) : Nat := kind * 2 ^ 24 + inst * 2 ^ 16 + index

/-- Counts `n` at a counter, modulo 2^64. (DESIGN CHOICE, log entry 139.) -/
def bumpBy (id n : Nat) (s : State) : State :=
  s.modCount fun c => { c with counters := tmod c.counters (0 : BitVec 64) id fun v => v + BitVec.ofNat 64 n }

/-- Counts one event. (DESIGN CHOICE, log entry 139.) -/
def bump (id : Nat) (s : State) : State := bumpBy id 1 s

/-- The value of a counter. -/
def counter (s : State) (id : Nat) : BitVec 64 := tget s.count.counters (0 : BitVec 64) id

/-! ### Host memory and the local ring area -/

/-- Bytes of host memory. (DESIGN CHOICE, log entries 15, 16.) -/
def hostRead (s : State) (a n : Nat) : List Byte := memRead s.hearth.hostMem a n

/-- Writes host memory. (DESIGN CHOICE, log entry 16.) -/
def hostWrite (a : Nat) (bytes : List Byte) (s : State) : State :=
  s.modHearth fun h => { h with hostMem := memWrite h.hostMem a bytes }

/-- Writes the local ring area (R348), whose offsets wrap at 64 KiB. (DESIGN CHOICE, log entry 16.) -/
def localWrite (a : Nat) (bytes : List Byte) (s : State) : State :=
  s.modHearth fun h => { h with localMem := memWrite h.localMem (a % 65536) bytes }

/-! ### Interrupts (R346) -/

/-- A word of the MSI-X table; a vector is masked until it is written. (PRESUMED, log entry 29.) -/
def msixWord (h : Hearth) (i : Nat) : Word := tget h.msix (if i % 4 = 3 then 1 else 0) i

/-- Sends the message of a vector, or notes it as pending while the vector is masked. (PRESUMED, log entry 29.) -/
def sendMsix (vec : Nat) (s : State) : State :=
  if bitAt (msixWord s.hearth (4 * vec + 3)) 0 then
    s.modHearth fun h => { h with pba := h.pba ||| (1#64 <<< vec) }
  else
    emit (.msix vec (BitVec.ofNat 64 ((msixWord s.hearth (4 * vec)).toNat + 2 ^ 32 * (msixWord s.hearth (4 * vec + 1)).toNat))
      (msixWord s.hearth (4 * vec + 2))) s

/-- Sets a cause bit of INT_STATUS; a rising unmasked cause sends a message (R346). -/
def raiseInt (b vec : Nat) (s : State) : State :=
  if s.hearth.intStatus.getLsbD b then s
  else
    let t := s.modHearth fun h => { h with intStatus := h.intStatus ||| (1#7 <<< b) }
    if s.hearth.intMask.getLsbD b then t else sendMsix vec t

/-! ### Fuses (R389) -/

/-- The fused security version: the pairs of anti-rollback fuses of which a twin reads as blown (R389).
(DESIGN CHOICE, log entry 10.) -/
def Sec.fusedVer (c : Sec) : Nat := (List.range 64).countP fun i => (c.fuseA ||| c.fuseB).getLsbD i

/-- Both copies of the vendor key digest, or both of the UID, have failed (R389). -/
def idsLost (s : State) : Bool :=
  (s.sec.copiesBad.getLsbD 0 && s.sec.copiesBad.getLsbD 1) || (s.sec.copiesBad.getLsbD 2 && s.sec.copiesBad.getLsbD 3)

/-! ### Events (R361 to R364) -/

/-- Queues an event for the event ring; a full queue discards it (R362). -/
def post (type : Nat) (body : List Word) (slot : Option (List Byte)) (s : State) : State :=
  if s.hearth.ev.queue.length < 1024 then
    s.modHearth fun h =>
      { h with ev := { h.ev with queue := h.ev.queue ++ [{ type := type, stamp := s.time.now, body := body, slot := slot }] } }
  else
    bump (ctr 0x14 0 1) (s.modHearth fun h => { h with ev := { h.ev with lost := sat 65535 (h.ev.lost + 1), lostPend := true } })

/-! ### Captures (R310, R311) -/

/-- Stores a capture record with its stamp; a full store discards it. (DESIGN CHOICE, log entry 48.) -/
def captureAt (source detail stamp : Nat) (s : State) : State :=
  if s.time.captureMask.getLsbD source then
    if s.time.store.length < 4096 then
      s.modTime fun t =>
        { t with
          store := t.store ++ [{ source := source, lost := t.lostSrc.contains source, detail := detail, stamp := stamp }],
          lostSrc := t.lostSrc.filter (· != source) }
    else
      bump (ctr 0x13 0 source)
        (s.modTime fun t => { t with lostSrc := if t.lostSrc.contains source then t.lostSrc else source :: t.lostSrc })
  else s

/-- Captures an internal event: its stamp lies within 20 ns of the instant (R310), where is a free value. -/
def capture (source detail : Nat) (s : State) : State :=
  captureAt source detail (s.time.now + freeBelow s 5121) s.tookFree

/-! ### Fault reports (R378 to R380) -/

/-- The location of a fault: code, half, block and item. (DESIGN CHOICE, log entry 140.) -/
def FaultRep.loc (r : FaultRep) : Nat × Nat × Nat × Nat := (r.code, r.half, r.block, r.item)

/-- Whether the report goes to the persistent log (R380). (DESIGN CHOICE, log entry 140.) -/
def FaultRep.persists (r : FaultRep) : Bool := decide (2 ≤ r.severity)

/-- The twelve words of a report (R378). (DESIGN CHOICE, log entry 140.) -/
def faultWords (r : FaultRep) (count : Nat) : List Word :=
  [pack [(16, r.code), (14, r.severity), (13, bit r.persists)],
   pack [(30, r.half), (16, r.block), (0, r.item)],
   pack [(20, r.partition), (8, r.ctx.getD 0), (7, bit r.ctx.isSome)]] ++ w64 r.address ++
  [w32 (sat (2 ^ 32 - 1) count)] ++ padTo 0 6 r.detail

/-- Keeps the newest `n` entries of a log. (DESIGN CHOICE, log entry 140.) -/
def lastN {α : Type} (n : Nat) (l : List α) : List α := l.drop (l.length - n)

/-- Sends one report: FAULT event, logs and capture (R363, R378, R380, R310). (DESIGN CHOICE, log entry 140.) -/
def sendFault (r : FaultRep) (count : Nat) (s : State) : State :=
  let e : LogEntry := { stamp := s.time.now, rep := r, persisted := r.persists, count := count }
  let s := s.modSec fun c =>
    { c with volLog := lastN 1024 (c.volLog ++ [e]),
             persLog := if r.persists then lastN 256 (c.persLog ++ [e]) else c.persLog }
  capture 21 r.code (post 0x02 (faultWords r count) none s)

/-- Reports a fault. The first of a location is sent at once and opens a window of 100 ms; later ones inside the
window are added to one report, which is sent when the window ends (R378). (DESIGN CHOICE, log entry 140.) -/
def report (r : FaultRep) (s : State) : State :=
  match s.sec.folds.find? (fun f => f.rep.loc == r.loc) with
  | some f =>
    if s.time.now < f.since + usU 100000 then
      s.modSec fun c =>
        { c with folds := c.folds.map fun g => if g.rep.loc == r.loc then { g with count := g.count + 1 } else g }
    else
      let s := if f.count = 0 then s else sendFault f.rep f.count s
      sendFault r 1 (s.modSec fun c =>
        { c with folds := { rep := r, since := s.time.now, count := 0 } :: c.folds.filter fun g => g.rep.loc != r.loc })
  | none =>
    sendFault r 1 (s.modSec fun c => { c with folds := { rep := r, since := s.time.now, count := 0 } :: c.folds })

/-- A fault report with the fields most faults set. -/
def faultAt (code severity half block item : Nat) : FaultRep :=
  { code := code, severity := severity, half := half, block := block, item := item, partition := 0, ctx := none,
    address := 0, detail := [] }

/-! ### Readiness and DEV_STATUS (R344) -/

/-- A half has power: a half in reset keeps TIME, GRAN and FLUE on (R28, R435). (DEDUCED, log entry 21.) -/
def halfPowered (s : State) (h : Nat) : Bool := if h = 0 then s.power.on0 != 0 else s.power.on1 != 0

/-- A half is out of reset and ready. (DEDUCED, log entry 21.) -/
def halfReady (s : State) (h : Nat) : Bool := if h = 0 then s.power.ready0 else s.power.ready1

/-- AUX_ONLY: the 36 V input is absent or neither half is powered. -/
def auxOnly (s : State) : Bool := !s.power.qualified || (!halfPowered s 0 && !halfPowered s 1)

/-- A barn in reset, or in a half that is not ready. (DESIGN CHOICE, log entry 119.) -/
def barnUp (s : State) (b : Nat) : Bool := halfReady s (halfOfBarn b) && !(theBarn s b).inReset

/-- The half that acts for the device: H0, or H1 while H0 is in reset. (DESIGN CHOICE, log entry 68.) -/
def liveHalf (s : State) : Nat := if s.power.ready0 then 0 else 1

/-- DEV_STATUS (R344). (DESIGN CHOICE, log entry 136.) -/
def devStatus (s : State) : Word :=
  pack [(31, bit (auxOnly s)), (30, bit (halfPowered s 0)), (29, bit (halfPowered s 1)), (28, bit s.power.ready0),
    (27, bit s.power.ready1), (26, bit s.hearth.ready), (25, bit s.hearth.switching), (24, s.hearth.bootSlot % 2),
    (23, bit s.hearth.commitPending), (22, bit s.power.resetHeld)]

/-- Raises STATUS when DEV_STATUS, SELFTEST or RESET_CAUSE has changed (R346). (DESIGN CHOICE, log entry 88.) -/
def noteStatus (old new : State) : State :=
  if devStatus old = devStatus new ∧ old.hearth.selftest = new.hearth.selftest ∧
      old.hearth.resetCause = new.hearth.resetCause then new
  else raiseInt 5 0 new

/-- Writes RESET_CAUSE (R344). -/
def setResetCause (level cause : Nat) (h0 h1 : Bool) (s : State) : State :=
  s.modHearth fun h =>
    { h with resetCause := pack [(28, level), (24, cause), (23, bit h1), (22, bit h0),
        (0, if s.time.state = 0 then 0 else secOf s.time.now % 65536)] }

end Sys2Proof.Machine
end

