-- ==== Sys2Proof/Machine/Packets.lean ====
section
/-! DEFINITION. Packet headers, lengths and trailers (R31 to R53), and partition admission on ports (R325). -/

namespace Sys2Proof

open Sys2Proof.Machine

/-! ### Header fields (R33, R41, R44) -/

def Header.ver (h : Header) : Nat := fld h.w0 31 30
def Header.kind (h : Header) : Nat := fld h.w0 29 26
def Header.tc (h : Header) : Nat := fld h.w0 25 23
def Header.epoch (h : Header) : Bool := bitAt h.w0 22
def Header.epochSet (h : Header) : Bool := bitAt h.w0 21
def Header.mc (h : Header) : Bool := bitAt h.w0 20
def Header.partition (h : Header) : Nat := fld h.w0 19 8
def Header.hopLimit (h : Header) : Nat := fld h.w0 7 0
def Header.dstId (h : Header) : Nat := fld h.w1 31 8
def Header.srcId (h : Header) : Nat := fld h.w2 31 8
def Header.len (h : Header) : Nat := fld h.w3 31 23
def Header.treeId (h : Header) : Nat := fld h.w3 22 9
def Header.hint (h : Header) : Nat := fld h.w3 8 7
def Header.remoteAddr (h : Header) : Nat := h.w4.toNat * 2 ^ 32 + h.w5.toNat
def Header.returnAddr (h : Header) : Nat := h.w6.toNat * 2 ^ 32 + h.w7.toNat
def Header.tag (h : Header) : Nat := fld h.w6 31 16
def Header.status (h : Header) : Nat := fld h.w6 15 8
def Header.ackReq (h : Header) : Bool := bitAt h.w6 0
def Header.ctxId (h : Header) : Nat := fld h.w4 31 20
def Header.member (h : Header) : Nat := fld h.w4 19 10
def Header.code (h : Header) : Nat := fld h.w4 15 8
def Header.reason (h : Header) : Nat := fld h.w4 7 0
def Header.sheafNo (h : Header) : Nat := h.w5.toNat
def Header.collEpoch (h : Header) : Nat := fld h.w7 31 16

/-- Kinds (R37). -/
def Kind.write : Nat := 0
def Kind.writeDone : Nat := 1
def Kind.read : Nat := 2
def Kind.readData : Nat := 3
def Kind.sheaf : Nat := 4
def Kind.sheafResult : Nat := 5
def Kind.control : Nat := 6
def Kind.time : Nat := 7
def Kind.notice : Nat := 8

/-- The eight words of a header. -/
def Header.words (h : Header) : List Word := [h.w0, h.w1, h.w2, h.w3, h.w4, h.w5, h.w6, h.w7]

/-- A header of eight words. -/
def headerOf (l : List Word) : Header :=
  { w0 := l.getD 0 0, w1 := l.getD 1 0, w2 := l.getD 2 0, w3 := l.getD 3 0, w4 := l.getD 4 0, w5 := l.getD 5 0,
    w6 := l.getD 6 0, w7 := l.getD 7 0 }

/-- The 32 header bytes in wire order (R32). -/
def Header.bytes (h : Header) : List Byte := wordsBe h.words

/-- The header that 32 wire bytes spell. -/
def headerOfBytes (l : List Byte) : Header :=
  headerOf ((List.range 8).map fun i => w32 (ofBe ((l.drop (4 * i)).take 4)))

/-- A READ carries no payload (R31); in a packet of a later generation KIND is not judged (R58). -/
def Header.isRead (h : Header) : Bool := h.kind == Kind.read && decide (h.ver < 2)

/-- The payload length in bytes (R31). -/
def Header.payloadLen (h : Header) : Nat := if h.isRead then 0 else 16 * h.len

/-- The packet's bytes: 40 + 16·LEN, or 40 for a READ (R86). -/
def Header.pktBytes (h : Header) : Nat := 40 + h.payloadLen

/-- The cells of a packet (R86). -/
def Header.cells (h : Header) : Nat := (h.pktBytes + 255) / 256

/-- GEN_EXT of an endpoint ID (R38). -/
def genExt (id : Nat) : Nat := id / 2 ^ 20 % 16

/-- POD and LEAF of an endpoint ID (R38). -/
def podOf (id : Nat) : Nat := id / 2 ^ 12 % 256
def leafOf (id : Nat) : Nat := id / 2 ^ 6 % 64

/-- Multicast is allowed for the kind (R37). -/
def mcAllowed (kind : Nat) : Bool := kind == 0 || kind == 5 || kind == 6 || kind == 8

/-- The header with EPOCH and EPOCH_SET set (R35). -/
def Header.withEpoch (h : Header) (e : Bool) : Header :=
  { h with w0 := (h.w0 &&& 0xFF9FFFFF#32) ||| pack [(22, bit e), (21, 1)] }

/-- The header with HOP_LIMIT decremented (R36). -/
def Header.decHop (h : Header) : Header :=
  { h with w0 := (h.w0 &&& 0xFFFFFF00#32) ||| w32 (h.hopLimit - 1) }

/-- The CRC-64 of a packet, with EPOCH, EPOCH_SET and HOP_LIMIT taken as 0 (R52). -/
def packetCrc (h : Header) (payload : List Byte) : BitVec 64 :=
  crc64 (Header.bytes { h with w0 := h.w0 &&& 0xFF9FFF00#32 } ++ payload)

/-- The packet's CRC-64 check passes. -/
def crcOk (p : Packet) : Bool := packetCrc p.hdr p.payload == p.crc

/-- The wire bytes of a packet (R31). -/
def Packet.wire (p : Packet) : List Byte := p.hdr.bytes ++ p.payload ++ beBytes 8 p.crc.toNat

/-- A packet read back from its wire bytes. -/
def packetOf (h : Header) (bytes : List Byte) : Packet :=
  { hdr := h, payload := (bytes.drop 32).take (bytes.length - 40),
    crc := BitVec.ofNat 64 (ofBe (bytes.drop (bytes.length - 8))) }

/-- The payload on the wire has the length its header says. -/
def payloadFits (p : Packet) : Bool := p.payload.length == p.hdr.payloadLen

end Sys2Proof

namespace Sys2Proof.Machine

/-- The active route version as an EPOCH bit (R33). -/
def activeEpoch (s : State) : Bool := s.routing.active == .b

/-- The device's own endpoint ID, 0 while unset (R39, R50). -/
def ownId (s : State) : Nat := s.hearth.endpointId.getD 0

/-- W0 of a packet that the device originates, before its epoch mark (R35, R36, R40). VER is 1 in every packet but TIME, in
an answer to a packet of VER 0 too. (DESIGN CHOICE, log entry 148.) -/
def originW0 (s : State) (kind tc : Nat) (mc : Bool) (partition : Nat) : Word :=
  pack [(30, 1), (26, kind), (23, tc), (20, bit mc), (8, partition), (0, s.hearth.hopLimit % 256)]

/-! ### Partitions and admission (R323, R325, R326) -/

/-- A partition record. -/
def thePart (s : State) (p : Nat) : Part := tget s.jobs.parts {} p

/-- An entry of a table whose copy in a half fails its parity is treated as absent (R84). (DESIGN CHOICE, log entry 41.) -/
def parityBad (s : State) (half : Nat) (t : TableKind) (i : Nat) : Bool :=
  s.routing.parity.any fun m => m.half == half && m.table == t && m.index == i

/-- A partition is ACTIVE as a half's copy of its record says; 0x000 is always in force (R323), and a copy whose parity fails is
absent (R84). -/
def partActiveIn (s : State) (half p : Nat) : Bool :=
  p == 0 || ((thePart s p).state == 1 && !parityBad s half .partition p)

/-- A partition is ACTIVE (R323). -/
def partActive (s : State) (p : Nat) : Bool := partActiveIn s (liveHalf s) p

/-- A port's partition entry. -/
def portPartition (s : State) (p : Nat) : PortPart := tget s.jobs.portPart {} p

/-- An allow entry that names a guest and a host (R326). -/
def AllowEntry.names (e : AllowEntry) (guest host : Nat) : Bool := e.valid && e.guest == guest && e.host == host

/-- An allow entry of a half names a guest and a host (R84, R326). -/
def allowed (s : State) (half guest host : Nat) : Bool :=
  s.jobs.allow.any fun e => e.2.names guest host && !parityBad s half .allow e.1

/-- A port admits a packet of partition `x`, where `live` says which partitions count as ACTIVE (R325). -/
def admitsWith (live : Nat → Bool) (s : State) (port x : Nat) : Bool :=
  let e := portPartition s port
  x == 0 ||
  (e.mode == 1 && e.partition == x && live x) ||
  (e.mode == 1 && allowed s (halfOf port) x e.partition && live x && live e.partition) ||
  (e.mode == 2 && live x)

/-- A port admits a packet of partition `x`, by the tables of its half (R16, R325). -/
def admits (s : State) (port x : Nat) : Bool := admitsWith (partActiveIn s (halfOf port)) s port x

/-- The partition and allow entries that the admission of a packet of partition `x` on a port reads, whose copies in the port's
half fail their parity (R84, R325). (DESIGN CHOICE, log entry 41.) -/
def admitBads (s : State) (port x : Nat) : List (TableKind × Nat) :=
  let e := portPartition s port
  let half := halfOf port
  let guest := e.mode == 1 && e.partition != x
  let parts := [x] ++ if guest then [e.partition] else []
  if x = 0 ∨ e.mode = 0 then []
  else ((parts.filter fun p => p != 0 && parityBad s half .partition p).map fun p => (TableKind.partition, p)) ++
    (s.jobs.allow.filter fun a => guest && a.2.names x e.partition && parityBad s half .allow a.1).map fun a => (TableKind.allow, a.1)

/-- An ABORT with reason PARTITION_RETIRED that the device sends for a retiring partition (R154, R328).
(DESIGN CHOICE, log entry 114.) -/
def retireAbort (s : State) (own : Bool) (h : Header) : Bool :=
  own && (thePart s h.partition).state == 2 && h.kind == Kind.notice && h.code == 1 && h.reason == 8

/-- Admission at egress: an ABORT of a retirement leaves where its partition was admitted before (R154, R327, R328).
(DESIGN CHOICE, log entry 114.) -/
def admitsOut (s : State) (port : Nat) (own : Bool) (h : Header) : Bool :=
  admits s port h.partition ||
    (retireAbort s own h && admitsWith (fun x => partActiveIn s (halfOf port) x || x == h.partition) s port h.partition)

end Sys2Proof.Machine
end

