-- ==== Sys2Proof/Machine/Routing.lean ====
section
/-! DEFINITION. The lookup, spraying, learning and multicast trees (R60 to R84). -/

namespace Sys2Proof.Machine

/-! ### Spray sets and weights -/

/-- The spray set of a port: its lanes in service (R75). (DEDUCED, log entry 37.) -/
def spraySet (s : State) (p : Nat) : List Nat := (portLanes s p).filter fun l => (laneOpt s l).state == .inService

/-- The rate weight of a lane of a port: 4, 2 or 1 (R75). -/
def rateWeight (rate : Nat) : Nat := if rate = 0 then 1 else if rate = 1 then 2 else 4

/-- The weight W of a member port (R75). -/
def weight (s : State) (p : Nat) : Nat := (spraySet s p).length * rateWeight (thePort s p).rate

/-- A port that can take packets: configured, link up and a non-empty spray set. -/
def portLive (s : State) (p : Nat) : Bool := (thePort s p).configured && (thePort s p).up && decide (0 < weight s p)

/-! ### Bundles (R66, R75, R76) -/

/-- A bundle record. -/
def theBundle (s : State) (b : Nat) : Bundle := tget s.routing.bundles {} b

/-- The set E of a bundle: enabled slots in use whose port has link up and W > 0. -/
def eligible (s : State) (b : Nat) : List Nat :=
  let r := theBundle s b
  if r.valid then
    (List.range (Nat.min r.count 64)).filter fun i =>
      (tget r.slots {} i).en && (thePort s (tget r.slots {} i).port).up && decide (0 < weight s (tget r.slots {} i).port)
  else []

/-- Key of a deficit counter (R75). -/
def defKey (barn b slot : Nat) : Nat := barn * 65536 + b * 64 + slot

/-- DEF of a slot. -/
def defOf (s : State) (barn b slot : Nat) : Nat := tget s.routing.defs 0 (defKey barn b slot)

/-- The element of a list with the least value of `f`, the first of equals. -/
def argMin (f : Nat → Nat) (l : List Nat) : Option Nat :=
  match l with
  | [] => none
  | a :: r => match argMin f r with
    | none => some a
    | some b => if f b < f a then some b else some a

/-- The least of the values of `f` over a list; 0 of none. -/
def leastOf (f : Nat → Nat) (l : List Nat) : Nat :=
  match argMin f l with
  | some a => f a
  | none => 0

/-- The least counter wins; ties go to the first after the last one chosen, cyclically (R75, R77). `last1` is one more
than the last one chosen, 0 before any choice. -/
def pickLeast (f : Nat → Nat) (size last1 : Nat) (l : List Nat) : Option Nat :=
  let m := leastOf f l
  argMin (fun i => (i + size - last1) % size) (l.filter fun i => f i == m)

/-- choose_member of R75: the port, and the state with its deficit counters. -/
def chooseMember (barn b bytes : Nat) (s : State) : Option Nat × State :=
  let e := eligible s b
  match pickLeast (defOf s barn b) 64 (tget s.routing.lastSlot 0 (barn * 1024 + b)) e with
  | none => (none, s)
  | some m =>
    let port := (tget (theBundle s b).slots {} m).port
    let s := s.modRouting fun r =>
      { r with defs := tmod r.defs 0 (defKey barn b m) (· + bytes * 32 / weight s port),
               lastSlot := tset r.lastSlot 0 (barn * 1024 + b) (m + 1) }
    let least := leastOf (defOf s barn b) e
    let s := if 2 ^ 30 < least then
        s.modRouting fun r => { r with defs := e.foldl (fun d i => tmod d 0 (defKey barn b i) (· - least)) r.defs }
      else s
    (some port, s)

/-- The bundle that a port is a member of, or none (R66). -/
def bundleOfPort (s : State) (p : Nat) : Option Nat :=
  (s.routing.bundles.find? fun e => e.2.valid &&
    (List.range (Nat.min e.2.count 64)).any fun i => (tget e.2.slots {} i).port == p).map Prod.fst

/-- R76: every slot of a bundle that is in E now and was not before takes, in each barn, the least DEF of the others,
or 0 if E was empty. (DEDUCED, log entry 37; DESIGN CHOICE, log entry 38.) -/
def joinSlots (before : List Nat) (b : Nat) (s : State) : State :=
  let now := eligible s b
  let joined := now.filter fun i => !before.contains i
  let old := now.filter fun i => before.contains i
  s.modRouting fun r =>
    { r with defs := (List.range 16).foldl (fun d barn =>
        joined.foldl (fun d i => tset d 0 (defKey barn b i) (leastOf (fun j => tget r.defs 0 (defKey barn b j)) old)) d) r.defs }

/-- R77: a lane that joins the spray set of its port takes the least counter of the others. -/
def joinLane (lane port : Nat) (s : State) : State :=
  let others := (spraySet s port).filter (· != lane)
  s.modRouting fun r => { r with laneDefs := tset r.laneDefs 0 lane (leastOf (fun j => tget r.laneDefs 0 j) others) }

/-- The lane choice of R77: the lane, and the state with its counters. -/
def chooseLane (port bytes : Nat) (s : State) : Option Nat × State :=
  let e := spraySet s port
  match pickLeast (fun l => tget s.routing.laneDefs 0 l) 1024 (tget s.routing.lastLane 0 port) e with
  | none => (none, s)
  | some l =>
    let s := s.modRouting fun r =>
      { r with laneDefs := tmod r.laneDefs 0 l (· + bytes), lastLane := tset r.lastLane 0 port (l + 1) }
    let least := leastOf (fun j => tget s.routing.laneDefs 0 j) e
    let s := if 2 ^ 30 < least then
        s.modRouting fun r => { r with laneDefs := e.foldl (fun d i => tmod d 0 i (· - least)) r.laneDefs }
      else s
    (some l, s)

/-- The lane that R77 would choose next. -/
def nextLane (port : Nat) (s : State) : Option Nat :=
  pickLeast (fun l => tget s.routing.laneDefs 0 l) 1024 (tget s.routing.lastLane 0 port) (spraySet s port)

/-! ### Route versions (R68) -/

/-- The other version. -/
def Version.other (v : Version) : Version := if v = .a then .b else .a

/-- The version an EPOCH bit names. -/
def versionOf (e : Bool) : Version := if e then .b else .a

/-- The state of the non-active version at this instant: DRAINING ends at t_f + D (R70). -/
def nonActiveNow (s : State) : NonActive :=
  if s.routing.nonActive = .draining ∧ s.routing.drainEnd ≤ s.time.now then .opened else s.routing.nonActive

/-- The explicit entries of a version. -/
def explOf (s : State) (v : Version) : Tab Explicit := if v = .a then s.routing.explA else s.routing.explB

/-- The pod descriptors of a version. -/
def podsOf (s : State) (v : Version) : Tab Pod := if v = .a then s.routing.podA else s.routing.podB

/-- The table kinds of a version's entries. -/
def explKind (v : Version) : TableKind := if v = .a then .explicitA else .explicitB
def podKind (v : Version) : TableKind := if v = .a then .podA else .podB

/-! ### Endpoint table (R62, R63) -/

/-- The set of an endpoint ID (R63). -/
def setOf (id : Nat) : Nat :=
  let x := id % 2 ^ 15
  let y := id / 2 ^ 15 % 32
  Nat.xor (Nat.xor (Nat.xor x (y * 2 ^ 10)) (y * 2 ^ 5)) y

/-- The endpoint table of a half. -/
def epOf (s : State) (half : Nat) : Tab EpEntry := if half = 0 then s.routing.ep0 else s.routing.ep1

/-- What a learned entry's moves are kept under (R79). -/
def moveKey (half id : Nat) : Nat := half * 2 ^ 24 + id

/-- Changes the endpoint table of a half. -/
def modEp (half : Nat) (f : Tab EpEntry → Tab EpEntry) (s : State) : State :=
  s.modRouting fun r => if half = 0 then { r with ep0 := f r.ep0 } else { r with ep1 := f r.ep1 }

/-- The eight indices of an ID's set. -/
def waysOf (id : Nat) : List Nat := (List.range 8).map fun w => setOf id * 8 + w

/-- The index of an ID's entry in a table, static or learned as asked. -/
def epFind (t : Tab EpEntry) (id : Nat) (static : Bool) : Option Nat :=
  (waysOf id).find? fun i => (tget t {} i).valid && (tget t {} i).static == static && (tget t {} i).id == id

/-! ### Parity (R84) -/

/-- The report of an entry whose parity fails (R379, R84). (DESIGN CHOICE, log entry 41.) -/
def parityFault (half : Nat) (i : Nat) (unrepaired : Bool) : FaultRep :=
  { faultAt (if unrepaired then 0x0302 else 0x0301) (if unrepaired then 2 else 0) half 0 (i % 65536) with address := i }

/-- A read has met entries of a table whose parity fails: each is counted and reported, and awaits its repair (R84).
(DESIGN CHOICE, log entry 41.) -/
def noteParity (half : Nat) (t : TableKind) (l : List Nat) (s : State) : State :=
  l.foldl (fun s i => report (parityFault half i false) (bump (ctr 0x0B half 7) (s.modRouting fun r =>
    { r with parity := r.parity.map fun m =>
        if m.half == half && m.table == t && m.index == i then { m with noted := true } else m }))) s

/-- Entries of a half whose copies fail their parity at the reads of one packet; an entry that is marked already keeps its
mark (R84). (DESIGN CHOICE, log entry 41.) -/
def markParity (half : Nat) (bad : List (TableKind × Nat)) (s : State) : State :=
  bad.foldl (fun s e => if parityBad s half e.1 e.2 then s
    else s.modRouting fun r =>
      { r with parity := { half := half, table := e.1, index := e.2, noted := false, dead := false } :: r.parity }) s

/-- Of the entries that a packet brought as failing, those that it has not read are not known to fail: their marks go (R84).
(DESIGN CHOICE, log entry 41.) -/
def dropUnread (half : Nat) (bad : List (TableKind × Nat)) (s : State) : State :=
  s.modRouting fun r => { r with parity := r.parity.filter fun m => m.noted || m.dead || !(m.half == half && bad.contains (m.table, m.index)) }

/-- The admission of a packet of partition `x` on a port has met the entries that `admitBads` names (R84).
(DESIGN CHOICE, log entry 41.) -/
def noteAdmit (port x : Nat) (s : State) : State :=
  (admitBads s port x).foldl (fun s e => noteParity (halfOf port) e.1 [e.2] s) s

/-- The mark of one entry goes: it has been written again (R84). -/
def unmark (half : Nat) (t : TableKind) (i : Nat) (s : State) : State :=
  s.modRouting fun r => { r with parity := r.parity.filter fun m => !(m.half == half && m.table == t && m.index == i) }

/-- An entry of a half's endpoint table is written (R84). -/
def putEp (half i : Nat) (e : EpEntry) (s : State) : State := unmark half .endpoint i (modEp half (fun t => tset t {} i e) s)

/-! ### The lookup (R60) -/

/-- Whether an explicit entry matches an ID (R64). -/
def explMatches (e : Explicit) (id : Nat) : Bool :=
  e.valid && id % 2 ^ 20 / 2 ^ (20 - e.plen) == e.pfx / 2 ^ (20 - e.plen)

/-- The longest match of a list of (index, entry) pairs; the lowest index of equals (R64). -/
def longest (l : List (Nat × Explicit)) : Option Explicit :=
  match l with
  | [] => none
  | (_, e) :: r => match longest r with
    | none => some e
    | some f => if e.plen < f.plen then some f else some e

/-- What the lookup finds for an ID before a member is chosen: a bundle, or the counter of a drop. -/
inductive Found where
  | bundle (b : Nat)
  | drop (index : Nat)
  deriving DecidableEq, Repr

/-- The route of an ID in a half and version (R60), with the entries read whose parity fails. -/
def route (s : State) (half : Nat) (v : Version) (id : Nat) : Found × List (TableKind × Nat) :=
  let ep := epOf s half
  let live (i : Option Nat) : Option Nat := i.filter fun k => !parityBad s half .endpoint k
  let bad (i : Option Nat) : List (TableKind × Nat) :=
    ((i.filter fun k => parityBad s half .endpoint k).map fun k => (TableKind.endpoint, k)).toList
  let st := if genExt id = 0 then epFind ep id true else none
  let le := if genExt id = 0 then epFind ep id false else none
  match live st with
  | some i => (.bundle (tget ep {} i).bundle, [])
  | none =>
    match live le with
    | some i => (.bundle (tget ep {} i).bundle, bad st)
    | none =>
      let ms := (explOf s v).filter fun e => explMatches e.2 id
      let badX := (ms.filter fun e => parityBad s half (explKind v) e.1).map fun e => (explKind v, e.1)
      let bads := bad st ++ bad le ++ badX
      match longest (ms.filter fun e => !parityBad s half (explKind v) e.1) with
      | some e => if e.discard then (.drop 10, bads) else (.bundle e.bundle, bads)
      | none =>
        let pod := podOf id
        let d := tget (podsOf s v) {} pod
        if d.valid && parityBad s half (podKind v) pod then (.drop 11, bads ++ [(podKind v, pod)])
        else if d.valid && decide (leafOf id < d.leafCount) && pod != 255 then (.bundle (d.base + leafOf id), bads)
        else (.drop 11, bads)

/-- Where a looked-up packet goes: nowhere, to a port, or to the ports of its tree. -/
inductive Look where
  | drop
  | uni (port : Nat)
  | multi (ports : List Nat)
  deriving DecidableEq, Repr

/-- Counts a drop or an event of BARN_IN (R399). -/
def bumpIn (barn index : Nat) (s : State) : State := bump (ctr 1 barn index) s

/-- Counts an event of BARN_EG (R399). -/
def bumpEg (barn index : Nat) (s : State) : State := bump (ctr 2 barn index) s

/-- The ports that the mask of a tree names. -/
def maskPorts (m : BitVec 1024) : List Nat := (List.range 1024).filter fun p => m.getLsbD p

/-- The copies of a multicast packet and the TREE_SKIP counts (R83). -/
def treeCopies (barn : Nat) (h : Header) (s : State) : Look × State :=
  let half := halfOfBarn barn
  let t := tget s.routing.trees {} h.treeId
  if t.valid && parityBad s half .tree h.treeId then
    (.drop, bumpIn barn 13 (noteParity half .tree [h.treeId] s))
  else if !t.valid then (.drop, bumpIn barn 13 s)
  else if t.partition != h.partition then (.drop, bumpIn barn 14 s)
  else
    let all := maskPorts t.mask
    let live := all.filter fun p => portLive s p
    (.multi live, bumpBy (ctr 1 barn 15) (all.length - live.length) s)

/-- The lookup of R60 on a header already marked with its epoch (R35). -/
def lookup (barn : Nat) (h : Header) (s : State) : Look × State :=
  let half := halfOfBarn barn
  let v := versionOf h.epoch
  let go (s : State) : Look × State :=
    if h.mc then treeCopies barn h s
    else
      let (f, bads) := route s half v h.dstId
      let s := bads.foldl (fun s e => noteParity half e.1 [e.2] s) s
      match f with
      | .drop i => (.drop, bumpIn barn i s)
      | .bundle b =>
        if (theBundle s b).valid && parityBad s half .bundle b then
          (.drop, bumpIn barn 12 (noteParity half .bundle [b] s))
        else
          match chooseMember barn b h.pktBytes s with
          | (none, s) => (.drop, bumpIn barn 12 s)
          | (some p, s) => (.uni p, s)
  if v = s.routing.active then go s
  else match nonActiveNow s with
    | .draining => go s
    | .sealedV => go (bumpIn barn 9 s)
    | .opened => (.drop, bumpIn barn 8 s)

/-- The header marked with the active version where it arrives unmarked (R35). -/
def markEpoch (s : State) (h : Header) : Header := if h.epochSet then h else h.withEpoch (activeEpoch s)

/-! ### Learning (R78, R79, R81) -/

/-- The learned way of a full set that an insertion evicts (R81). (DESIGN CHOICE, log entry 44.) -/
def evictWay (s : State) (t : Tab EpEntry) (learned : List Nat) : Option Nat :=
  if s.routing.evictRandom then learned[freeBelow s learned.length]?
  else argMin (fun i => 65535 - (secOf s.time.now % 65536 + 65536 - (tget t {} i).stamp) % 65536) learned

/-- The report of an entry that moves too often names its ID, its last bundle and the new one, with the index of its way.
(DESIGN CHOICE, log entry 42.) -/
def unstable (half i id old new : Nat) : FaultRep :=
  { faultAt 0x0303 1 half 0 (i % 65536) with address := i, detail := [w32 id, w32 old, w32 new] }

/-- A way that an insertion may take without an eviction: not in use, or a learned entry whose parity fails (R84).
(DESIGN CHOICE, log entry 41.) -/
def wayFree (s : State) (half i : Nat) : Bool :=
  !(tget (epOf s half) {} i).valid || (!(tget (epOf s half) {} i).static && parityBad s half .endpoint i)

/-- An update's learned entry: its moves begin to be counted (R79). -/
def insertEp (half i : Nat) (e : EpEntry) (s : State) : State :=
  putEp half i e (s.modRouting fun r => { r with moves := tset r.moves [] (moveKey half e.id) [] })

/-- One learning update applied to a half's table (R79, R81); an entry whose parity fails is absent (R84). An insertion takes
the lowest free way of its set. (DESIGN CHOICE, log entries 42, 149.) -/
def learn (half : Nat) (u : LearnUpd) (s : State) : State :=
  let t := epOf s half
  let now16 := secOf s.time.now % 65536
  let s := bump (ctr 0x0B half 5) s
  let live (i : Option Nat) : Option Nat := i.filter fun k => !parityBad s half .endpoint k
  match live (epFind t u.id true) with
  | some i => if (tget t {} i).bundle = u.bundle then s else bump (ctr 0x0B half 0) s
  | none =>
    match live (epFind t u.id false) with
    | some i =>
      let e := tget t {} i
      if e.bundle = u.bundle then putEp half i { e with stamp := now16 } s
      else
        let s := bump (ctr 0x0B half 1) (putEp half i { e with bundle := u.bundle, stamp := now16 } s)
        let key := moveKey half u.id
        let recent := u.at_ :: (tget s.routing.moves [] key).filter fun t => decide (u.at_ < t + secU 1)
        let s := s.modRouting fun r => { r with moves := tset r.moves [] key recent }
        if 16 < recent.length then report (unstable half i u.id e.bundle u.bundle) s else s
    | none =>
      let ways := waysOf u.id
      let new : EpEntry := { valid := true, static := false, id := u.id, bundle := u.bundle, stamp := now16 }
      match ways.find? (wayFree s half) with
      | some i => insertEp half i new s
      | none =>
        let learned := ways.filter fun i => !(tget t {} i).static
        match evictWay s t learned with
        | some i =>
          let s := if s.routing.evictRandom then s.tookFree else s
          bump (ctr 0x0B half 3) (insertEp half i new s)
        | none => bump (ctr 0x0B half 4) s

/-- The queue of a half's learning updates. -/
def learnQ (s : State) (half : Nat) : List LearnUpd := if half = 0 then s.routing.learnQ0 else s.routing.learnQ1

/-- Changes the queue of a half's learning updates. -/
def setLearnQ (half : Nat) (q : List LearnUpd) (s : State) : State :=
  s.modRouting fun r => if half = 0 then { r with learnQ0 := q } else { r with learnQ1 := q }

/-- A packet received on a port teaches its half, if its port, its partition and its source allow it (R78).
(DESIGN CHOICE, log entry 43.) -/
def teach (port : Nat) (h : Header) (s : State) : State :=
  match bundleOfPort s port with
  | none => s
  | some b =>
    if (theBundle s b).learn && !parityBad s (halfOf port) .bundle b && !(h.kind == Kind.time && decide (h.ver < 2)) && genExt h.srcId == 0 && decide (podOf h.srcId < 255) &&
        s.hearth.endpointId != some h.srcId then
      let half := halfOf port
      if (learnQ s half).length < 4096 then setLearnQ half (learnQ s half ++ [{ id := h.srcId, bundle := b, at_ := s.time.now }]) s
      else bump (ctr 0x0B half 2) s
    else s

end Sys2Proof.Machine
end

