-- ==== Sys2Proof/Machine/Flits.lean ====
section
/-! DEFINITION. What a lane sends: flits, their order and window, the retry buffer, control messages, markers and
alignment slots (R251 to R257, R261 to R263). -/

namespace Sys2Proof.Machine

/-! ### The window (R257) -/

/-- Flits that a packet of so many bytes takes when it starts at offset 0 (R253). (DESIGN CHOICE, log entry 98.) -/
def flitsOf (bytes : Nat) : Nat := (bytes + 239) / 240

/-- Flits of a lane that are sent and not acknowledged (R257). (DESIGN CHOICE, log entry 98.) -/
def outstanding (k : LaneLink) : Nat := (k.txSeq + 4096 - (k.txAcked + 1) % 4096) % 4096

/-- Sequenced flits that the window lets a lane send: at most 256 are unacknowledged (R257). -/
def windowRoom (k : LaneLink) : Nat := 256 - outstanding k

/-- Code of a lane state (R227). -/
def laneCode (x : LaneState) : Nat :=
  match x with
  | .down => 0
  | .training => 1
  | .inService => 2
  | .withdrawn => 3
  | .banked => 4
  | .flue => 5

/-- The state of a lane. -/
def laneState (s : State) (l : Nat) : LaneState := (laneOpt s l).state

/-- A lane in service or withdrawn, or one given to a circuit that still drains, frames and carries flits (R227, R281). -/
def laneFrames (s : State) (l : Nat) : Bool :=
  laneState s l == .inService || laneState s l == .withdrawn || (laneState s l == .flue && (laneOpt s l).draining)

/-- A lane sends sequenced flits. -/
def sends (s : State) (l : Nat) : Bool := laneFrames s l && !(laneLink s l).stopped

/-! ### Flits (R251, R252, R260) -/

/-- The LANE_TAG that a lane sends: its wavelength and its fibre's index modulo 2 (R251). -/
def ownTag (l : Nat) : Nat := 2 * (l % 8) + l / 8 % 2

/-- A flit of a lane: FW0 to FW2, the payload with zeros behind it, and the CRC-32 (R251, R252). FW2 carries the limit of the
class whose turn it is (R270). -/
def makeFlit (s : State) (l ftype seq : Nat) (fw1 : Word) (payload : List Byte) : List Byte :=
  let k := laneLink s l
  let lim := match portOfLane s l with
    | some p => tget s.link.ownLimit 0 (p * 8 + k.crRot)
    | none => 0
  let body := wordsBe [pack [(29, ftype), (17, seq), (5, k.rxSeq), (4, bit k.nak), (0, ownTag l)], fw1,
    pack [(24, k.crRot), (0, lim % 2 ^ 24)]] ++ padTo 0 240 payload
  body ++ beBytes 4 (crc32 body)

/-- A lane puts out a flit: NAK has been sent, and the next flit carries the next class's limit (R257, R270). -/
def putRaw (l : Nat) (f : List Byte) (s : State) : State :=
  emit (.flit l f) (modLaneLink l (fun k => { k with nak := false, crRot := (k.crRot + 1) % 8, slots := k.slots + 1 }) s)

/-- The words of a lane's marker (R261). (DESIGN CHOICE, log entry 99.) -/
def markerWords (s : State) (l p : Nat) : List Word :=
  [s.link.deviceTag, pack [(8, ownId s)],
   pack [(22, l), (12, p), (8, (thePort s p).width), (6, bit (!(thePort s p).v0))], w32 (laneLink s l).markerCount]

/-- A lane sends a marker (R261). -/
def putMarker (l : Nat) (s : State) : State :=
  match portOfLane s l with
  | some p =>
    let ws := markerWords s l p
    modLaneLink l (fun k => { k with markerCount := (k.markerCount + 1) % 2 ^ 32, slots := 0 })
      (emit (.marker l ws) (putRaw l (makeFlit s l 3 0 0 (wordsBe ws)) s))
  | none => s

/-- A marker that is due goes first: one follows every 1,024 flits of other types (R261). -/
def markerDue (l : Nat) (s : State) : State := if 1024 ≤ (laneLink s l).slots then putMarker l s else s

/-- A lane sends an IDLE flit, which carries its acknowledgement, its NAK and a limit (R251, R257). -/
def putIdle (l : Nat) (s : State) : State :=
  let s := markerDue l s
  putRaw l (makeFlit s l 0 0 0 []) s

/-! ### The retry buffer (R257) -/

/-- Changes the last entry of a lane's retry buffer. -/
def modLastRetry (l : Nat) (f : RetryPkt → RetryPkt) (s : State) : State :=
  modLaneLink l (fun k => { k with retry := match k.retry.getLast? with
    | some r => k.retry.dropLast ++ [f r]
    | none => [] }) s

/-- A new entry of a lane's retry buffer, which holds no flit yet. -/
def openEntry (l port : Nat) (info : Option PktInfo) (kind : RetryKind) (s : State) : State :=
  modLaneLink l (fun k => { k with retry := k.retry ++
    [{ firstSeq := k.txSeq, lastSeq := k.txSeq, port := port, info := info, flits := [], kind := kind }] }) s

/-- A lane sends a sequenced flit, which joins the last entry of the retry buffer (R257). (DESIGN CHOICE, log entry 98.) -/
def putSeq (l ftype : Nat) (fw1 : Word) (payload : List Byte) (s : State) : State :=
  let s := markerDue l s
  let seq := (laneLink s l).txSeq
  let f := makeFlit s l ftype seq fw1 payload
  modLaneLink l (fun k => { k with txSeq := (seq + 1) % 4096 })
    (modLastRetry l (fun r => { r with lastSeq := seq, flits := r.flits ++ [f] }) (putRaw l f s))

/-- DATA flit number `i` of the `n` flits of a packet, which starts at offset 0 of its first one (R253).
(DESIGN CHOICE, log entry 98.) -/
def putData (l : Nat) (bytes : List Byte) (n i : Nat) (s : State) : State :=
  let part := (bytes.drop (240 * i)).take 240
  let ends := i + 1 == n
  putSeq l 1 (pack [(31, bit (i == 0)), (25, bit ends), (20, if ends then part.length / 8 else 0)]) part s

/-- The DATA flits `i` to `i + m − 1` of a packet. -/
def putDatas (l : Nat) (bytes : List Byte) (n i m : Nat) (s : State) : State :=
  match m with
  | 0 => s
  | m + 1 => putDatas l bytes n (i + 1) m (putData l bytes n i s)

/-- The flits of a lane's retry buffer that are sent and not acknowledged, as they were sent. -/
def flitsFrom (k : LaneLink) : List (List Byte) :=
  (k.retry.flatMap fun r => r.flits).drop ((k.retry.flatMap fun r => r.flits).length - outstanding k)

/-- A flit as it is sent again: the same type, SEQ and contents, with the acknowledgement, the NAK and the limit of this instant, which
every flit carries (R257, R270). (DESIGN CHOICE, log entry 98.) -/
def remakeFlit (s : State) (l : Nat) (f : List Byte) : List Byte :=
  let w (j : Nat) : Word := w32 (ofBe ((f.drop (4 * j)).take 4))
  makeFlit s l (fld (w 0) 31 29) (fld (w 0) 28 17) (w 1) ((f.drop 12).take 240)

/-- A lane ends the packet that it is sending with ABORT: in the next DATA flit, as soon as the window lets it
(R254, R257). A packet of which nothing has been sent is taken back. (DESIGN CHOICE, log entry 98.) -/
def abortTx (l : Nat) (s : State) : State :=
  match (laneLink s l).tx with
  | none => s
  | some t =>
    if t.sent = 0 then modLaneLink l (fun k => { k with tx := none, retry := k.retry.dropLast }) s
    else if windowRoom (laneLink s l) = 0 then modLaneLink l (fun k => { k with tx := some { t with abort := true } }) s
    else
      let s := putSeq l 1 (pack [(25, 1), (20, 1), (19, 1)]) (List.replicate 8 0) s
      emit (.abort l) (modLaneLink l (fun k => { k with tx := none })
        (modLastRetry l (fun r => { r with kind := .aborted, info := none }) s))

/-! ### Control messages (R263) -/

/-- The lane that carries a message about a lane: itself while in service, otherwise one in service of its port; where none is, itself
while it is withdrawn and still sends, so that a grant that had to wait for the end of a packet leaves (R263, R264).
(DESIGN CHOICE, log entry 97.) -/
def carrierOf (s : State) (l : Nat) : Option Nat :=
  if laneState s l = .inService then some l
  else match portOfLane s l with
    | some p => match (spraySet s p).head? with
      | some m => some m
      | none => if laneState s l = .withdrawn ∧ sends s l then some l else none
    | none => none

/-- The four words of a control message (R263). -/
def ctlWords (m : CtlMsg) : List Word := [pack [(24, m.msg), (21, m.k), (19, m.kind), (0, m.mtag)], w32 m.arg, 0, 0]

/-- The control messages of a CONTROL flit; those with MSG 0 are empty (R263). -/
def ctlOf (flit : List Byte) : List CtlMsg :=
  ((List.range 15).map fun i =>
    let w (j : Nat) : Word := w32 (ofBe ((flit.drop (12 + 16 * i + 4 * j)).take 4))
    { msg := fld (w 0) 31 24, k := fld (w 0) 23 21, kind := fld (w 0) 20 19, mtag := fld (w 0) 15 0,
      arg := (w 1).toNat : CtlMsg }).filter fun m => m.msg != 0

/-- The messages about a lane that wait leave in CONTROL flits of up to 15 each, when no packet is being sent on the lane
that carries them and its window has room (R255, R257, R263). -/
def flushCtl (l : Nat) (s : State) : State :=
  match carrierOf s l with
  | none => s
  | some m =>
    let ms := (laneLink s l).ctlQ.take 15
    if ms = [] ∨ (laneLink s m).tx.isSome ∨ windowRoom (laneLink s m) = 0 then s
    else
      let s := modLaneLink l (fun k => { k with ctlQ := k.ctlQ.drop 15 }) s
      let s := ms.foldl (fun s c => emit (.control m c.msg c.k c.kind c.mtag c.arg) s) s
      putSeq m 2 0 (ms.flatMap fun c => wordsBe (ctlWords c)) (openEntry m ((portOfLane s m).getD 0) none .control s)

/-- A control message about a lane waits to be sent, while its port's link is up. -/
def queueControl (l msg kind mtag arg : Nat) (s : State) : State :=
  if (portOfLane s l).any fun p => (thePort s p).up then
    modLaneLink l (fun k => { k with ctlQ := k.ctlQ ++ [{ msg := msg, k := l % 8, kind := kind, mtag := mtag, arg := arg }] }) s
  else s

/-- Sends a control message about a lane; a CONTROL flit takes a SEQ (R257, R263). (DESIGN CHOICE, log entry 98.) -/
def sendControl (l msg kind mtag arg : Nat) (s : State) : State := flushCtl l (queueControl l msg kind mtag arg s)

/-- The messages about the lanes of a port that wait. -/
def flushPort (p : Nat) (s : State) : State := (portLanes s p).foldl (fun s l => flushCtl l s) s

/-! ### Capability words (R266) -/

/-- RATE_MASK of a port (R266, R274). -/
def rateMask (x : Port) : Nat := 2 ^ (x.maxRate + 1) - 1

/-- The capability word of a lane, by the settings that its last full training began with (R266, R274). -/
def ownCap (s : State) (l : Nat) (short : Bool) : BitVec 64 :=
  match portOfLane s l with
  | some p =>
    let k := laneLink s l
    let x := { thePort s p with verMask := k.trainVer, maxRate := k.trainRate }
    BitVec.ofNat 64 (packN [(60, x.verMask), (57, rateMask x), (54, l % 8), (50, x.width), (47, p % 8),
      (46, bit k.txDone), (45, bit short)])
  | none => 0

/-- A lane's training frames carry its capability word (R266). (DESIGN CHOICE, log entry 99.) -/
def sayCap (l : Nat) (short : Bool) (s : State) : State := emit (.capability l (ownCap s l short)) s

/-! ### Alignment slots (R248, R262) -/

/-- The lanes of a lane's fibre (R5). -/
def fibreLanes (l : Nat) : List Nat := (List.range 8).map (l / 8 * 8 + ·)

/-- The length of an FEC frame at a port's rate, in 1/2,560 ns: 7.3728 µs at v1, twice and four times that at v0 (R248).
(DEDUCED, log entry 151.) -/
def frameLen (rate : Nat) : Nat := if rate = 0 then 75497472 else if rate = 1 then 37748736 else 18874368

/-- FRAME_COUNT of a lane: the frames sent since its training, modulo 2^32 (R262). (DEDUCED, log entry 151.) -/
def frameCount (s : State) (l : Nat) : Nat :=
  let rate := match portOfLane s l with
    | some p => (thePort s p).rate
    | none => 2
  (s.time.now - (laneLink s l).trainedAt) * 10 / frameLen rate % 2 ^ 32

/-- RX_STATE of a lane: framed, light without frame lock, or dark (R262). (DEDUCED, log entry 151.) -/
def rxState (s : State) (l : Nat) : Nat :=
  if laneFrames s l then 2
  else if laneState s l = .training ∧ (laneLink s l).trainStep ≠ 0 then 1
  else 0

/-- The fibre status entry of a lane (R262). -/
def fibreStatus (s : State) (l : Nat) : Word :=
  pack [(30, rxState s l), (26, (laneLink s l).seenTag), (25, bit (laneLink s l).txFault), (22, laneCode (laneState s l))]

/-- The alignment slot that a lane sends (R262). -/
def alignmentOf (s : State) (l : Nat) : List Byte :=
  let pattern : List Byte := [0x3C, 0x5A, 0xC3, 0xA5]
  let body := padTo 0 252 (pattern ++ pattern ++ pattern ++ pattern ++
    wordsBe (w32 (frameCount s l) :: (fibreLanes l).map fun m => fibreStatus s m))
  body ++ beBytes 4 (crc32 body)

/-- The framed lanes of a fibre pair report its status to the far end in their next alignment slots (R262).
(DEDUCED, log entry 151.) -/
def reportFibre (l : Nat) (s : State) : State :=
  ((fibreLanes l).filter fun m => laneFrames s m).foldl (fun s m => emit (.alignment m (alignmentOf s m)) s) s

end Sys2Proof.Machine
end

