-- ==== Sys2Proof/Machine/MemOps.lean ====
section
/-! DEFINITION. Device addresses, homes of granules, windows, the pool and plain accesses to the tiers (R189 to R205). -/

namespace Sys2Proof.Machine

/-- The Granary's size (R189). -/
def granarySize : Nat := 0x9000000000

/-- One GiB and one MiB. -/
def gib : Nat := 2 ^ 30
def mib : Nat := 2 ^ 20

/-- The stack of a Granary offset (R190). -/
def stackOf (o : Nat) : Nat := o / 4096 % 8

/-- The channel of a Granary offset within its stack (R190). -/
def chanOf (o : Nat) : Nat := o / 32768 % 32

/-- The address of a Granary offset within its channel (R190). -/
def granAddr (o : Nat) : Nat := o / 32768 / 32 * 4096 + o % 4096

/-- The home barn of a Granary offset (R193). -/
def granHome (o : Nat) : Nat := 2 * stackOf o + chanOf o % 2

/-- Bases of the other ranges of the device address map (R189). -/
def bsBase : Nat := 0x100000000000
def siloBase (c : Nat) : Nat := 0x200000000000 + c * 0x10000000000
def loftBase : Nat := 0x300000000000

/-- A barn's part of the Loft range (R189). -/
def loftOf (b : Nat) : Nat := loftBase + b * 0x1000000

/-- The populated size of one Barn store channel in bytes, 0 where there is none (R191). -/
def bsChan (s : State) : Nat := s.mem.bsGib * gib

/-- The address of an offset in a half's range of the Barn store within its channel (R191). -/
def bsAddr (a : Nat) : Nat := a / 4096 / 12 * 4096 + a % 4096

/-- The tier of a device address: 0 Granary, 1 Barn store, 2 Silo, 3 Loft (R189). -/
def tierOf (da : Nat) : Option Nat :=
  if da < granarySize then some 0
  else if bsBase ≤ da ∧ da < bsBase + 0x018000000000 then some 1
  else if siloBase 0 ≤ da ∧ da < siloBase 2 then some 2
  else if loftBase ≤ da ∧ da < loftBase + 0x10000000 then some 3
  else none

/-- The Silo port of a device address in the Silo range. -/
def siloOf (da : Nat) : Nat := (da - siloBase 0) / 0x10000000000

/-- A Silo port. (DESIGN CHOICE, log entry 13.) -/
def theSilo (s : State) (c : Nat) : Silo := tget s.mem.silos {} c

/-- The end of the populated range that a device address lies in: of a tier, a Silo port, or a barn's scratchpad; 0 where the
address is not populated (R189, R204). (DESIGN CHOICE, log entry 13.) -/
def populatedEnd (s : State) (da : Nat) : Nat :=
  let e := match tierOf da with
    | some 0 => granarySize
    | some 1 => bsBase + 24 * bsChan s
    | some 2 => if (theSilo s (siloOf da)).up then siloBase (siloOf da) + (theSilo s (siloOf da)).capacity else 0
    | some 3 => loftOf ((da - loftBase) / 0x1000000) + (theBarn s ((da - loftBase) / 0x1000000)).scratchCells * 256
    | _ => 0
  if da < e then e else 0

/-- Populated ranges cover the addresses from `a` to below `b`, at most `n` of them. -/
def coveredTo (s : State) (n a b : Nat) : Bool :=
  match n with
  | 0 => decide (b ≤ a)
  | n + 1 => decide (b ≤ a) || (populatedEnd s a != 0 && coveredTo s n (populatedEnd s a) b)

/-- A range of device addresses that is populated throughout: it may run on from one Silo port, or one barn's scratchpad, to
the next (R189, R204). (DESIGN CHOICE, log entry 13.) -/
def populated (s : State) (da n : Nat) : Bool := populatedEnd s da != 0 && coveredTo s 17 da (da + n)

/-- The home barn of a device address of the Granary, the Barn store or the Silo (R193). (DESIGN CHOICE, log entry 13.) -/
def homeBarn (s : State) (da : Nat) : Nat :=
  match tierOf da with
  | some 0 => granHome da
  | some 1 =>
    let h := (da - bsBase) / (12 * bsChan s)
    let g := (da - bsBase - h * (12 * bsChan s)) / 4096
    2 * ((12 * h + g % 12) / 3) + g / 12 % 2
  | some 2 => 8 * siloOf da + (da - siloBase (siloOf da)) / 4096 % 8
  | _ => (da - loftBase) / 0x1000000

/-- Bytes of the memory tiers. (DESIGN CHOICE, log entry 15.) -/
def daRead (s : State) (da n : Nat) : List Byte := memRead s.mem.bytes da n

/-- Writes bytes of the memory tiers. -/
def daWrite (da : Nat) (bytes : List Byte) (s : State) : State :=
  s.modMem fun m => { m with bytes := memWrite m.bytes da bytes }

/-- Zeroes a range of the memory tiers. -/
def daZero (da n : Nat) (s : State) : State := s.modMem fun m => { m with bytes := memZero m.bytes da n }

/-! ### Windows (R194) -/

/-- A window entry. -/
def theWindow (s : State) (i : Nat) : Window := tget s.mem.windows {} i

/-- The valid window that holds an offset; an entry whose parity fails is absent (R84, R194). -/
def windowAt (s : State) (o : Nat) : Option (Nat × Window) :=
  s.mem.windows.find? fun e => e.2.valid && decide (e.2.base ≤ o) && decide (o < e.2.base + e.2.size) &&
    !parityBad s (liveHalf s) .window e.1

/-- A window of a partition that holds a whole range and admits the access. -/
def windowFor (s : State) (partition o n : Nat) (rd wr : Bool) : Option Nat :=
  match windowAt s o with
  | some (i, w) =>
    if w.partition = partition ∧ o + n ≤ w.base + w.size ∧ (rd → w.rd) ∧ (wr → w.wr) then some i else none
  | none => none

/-! ### The device pool (R196) -/

/-- The first offset of the device pool. -/
def poolBase (s : State) : Nat := granarySize - s.mem.poolGib * gib

/-- Cells of the Loft that are left for a barn's cache (R200). -/
def cacheCells (b : Barn) : Nat := 65536 - b.bufCells - b.stageCells - b.scratchCells

/-! ### The cache (R201, R202, R203) -/

/-- The hint that governs an access: 0 NORMAL, 1 STREAM, 2 KEEP, 3 DISCARD (R203). -/
def effectiveHint (s : State) (access da : Nat) : Nat :=
  if access ≠ 0 then access
  else match s.mem.hints.find? (fun e => e.2.valid && decide (e.2.base ≤ da) && decide (da < e.2.base + e.2.size) &&
      !parityBad s (liveHalf s) .hint e.1) with
    | some e => e.2.hint
    | none => 0

/-- The sets of a barn's 16-way cache. (PRESUMED, log entry 87.) -/
def cacheSets (b : Barn) : Nat := cacheCells b / 16

/-- Makes a line the most recently used one. (PRESUMED, log entry 87.) -/
def touchLine (l : Nat) (kept : Bool) (c : List CacheLine) : List CacheLine :=
  { line := l, kept := kept } :: c.filter fun x => x.line != l

/-- Whether a line lies in the same set as another. (PRESUMED, log entry 87.) -/
def sameSet (sets a b : Nat) : Bool := a % sets == b % sets

/-- Allocates a line: a full set evicts its least recently used line that is not kept, or its least recently used
line where all are kept; a keep beyond three quarters of the cache is made as a normal one (R201). (PRESUMED, log entry 87.) -/
def allocLine (b : Barn) (l : Nat) (kept : Bool) : List CacheLine :=
  let sets := cacheSets b
  if sets = 0 then b.cache
  else
    let kept := kept && decide (4 * ((b.cache.filter fun x => x.kept).length + 1) ≤ 3 * (16 * sets))
    let mine := b.cache.filter fun x => sameSet sets x.line l
    if mine.length < 16 then touchLine l kept b.cache
    else
      match (mine.filter fun x => !x.kept).getLast? with
      | some v => touchLine l kept (b.cache.filter fun x => x.line != v.line)
      | none =>
        match mine.getLast? with
        | some v => touchLine l kept (b.cache.filter fun x => x.line != v.line)
        | none => touchLine l kept b.cache

/-- What one access to a line does to a barn's cache (R202). (PRESUMED, log entry 87.) -/
def cacheAccess (hint : Nat) (write : Bool) (l : Nat) (b : Barn) : Barn :=
  match b.cache.find? fun x => x.line == l with
  | some x =>
    if hint = 3 then { b with cache := b.cache.filter fun y => y.line != l }
    else if write then b
    else if hint = 2 then
      let room := x.kept || decide (4 * ((b.cache.filter fun y => y.kept).length + 1) ≤ 3 * (16 * cacheSets b))
      { b with cache := touchLine l room b.cache }
    else if hint = 0 then { b with cache := touchLine l x.kept b.cache }
    else b
  | none =>
    if hint = 2 then { b with cache := allocLine b l true }
    else if hint = 0 ∧ !write then { b with cache := allocLine b l false }
    else b

/-- A granule of which lines are cached: it is of the Granary outside the pool, of the Barn store or of the Silo
(R201, R203). -/
def cached (s : State) (a : Nat) : Bool :=
  match tierOf a with
  | some 0 => decide (a < poolBase s)
  | some 1 => true
  | some 2 => true
  | _ => false

/-- A cached access to a range: each line at its home barn (R193, R201, R203). (PRESUMED, log entry 87.) -/
def cacheRange (access da n : Nat) (write : Bool) (s : State) : State :=
  if n = 0 then s
  else
    (List.range ((da + n - 1) / 256 - da / 256 + 1)).foldl (fun s k =>
      let a := (da / 256 + k) * 256
      if cached s a then modBarn (homeBarn s a) (cacheAccess (effectiveHint s access a) write (a / 256)) s else s) s

/-! ### Uncorrectable errors (R377, R399) -/

/-- A half-open place of the memory as a fault report names it: half, block (stack, Barn store channel, Silo port or
barn) and item (the channel of a stack). (PRESUMED, log entry 87.) -/
def memPlace (s : State) (da : Nat) : Nat × Nat × Nat :=
  match tierOf da with
  | some 0 => (stackOf da / 4, stackOf da, chanOf da)
  | some 1 =>
    let h := (da - bsBase) / (12 * bsChan s)
    (h, 12 * h + (da - bsBase) / 4096 % 12, 0)
  | some 2 => (siloOf da, siloOf da, 0)
  | _ => (halfOfBarn ((da - loftBase) / 0x1000000 % 16), (da - loftBase) / 0x1000000 % 16, 0)

/-- An uncorrectable error at a device address is counted and reported, with the context where there is one (R377); whether the
Silo returned its data with poison is a free value. (DESIGN CHOICE, log entry 89.) -/
def memUE (da partition : Nat) (ctx : Option Nat) (s : State) : State :=
  let (h, b, i) := memPlace s da
  let s := match tierOf da with
    | some 0 => bump (ctr 0x0D b 1) s
    | some 1 => bump (ctr 0x0E h 1) s
    | some 2 => bumpBy (ctr 0x0E h 6) (freeBelow s 2) (bump (ctr 0x0E h 5) s.tookFree)
    | _ => bump (ctr 1 b 22) s
  report { faultAt 0x0F01 1 h b i with partition := partition, ctx := ctx, address := da } s

/-- DETAIL of MEM_FAULT: DA bits 47 to 16 (R360). (DESIGN CHOICE, log entry 89.) -/
def memDetail (da : Nat) : Nat := da / 65536 % 2 ^ 32

end Sys2Proof.Machine
end

