-- ==== Sys2Proof/Machine/Spill.lean ====
section
/-! DEFINITION. The spill region in the Granary: where its cells and descriptors lie and what they hold (R109, R110,
R190, R193, R197). -/

namespace Sys2Proof.Machine

/-- SPILL_CELLS of a barn (R109). -/
def spillCells (s : State) : Nat := s.core.spillGib * 2 ^ 30 / 4096

/-- The first byte of the spill area's cells, at the top of the pool (R197). -/
def spillBase (s : State) : Nat := granarySize - s.core.spillGib * 2 ^ 30

/-- The first byte of its descriptors, directly below (R197). -/
def spillDescBase (s : State) : Nat := spillBase s - s.core.spillGib * 2 ^ 25

/-- Granule `k` of a barn in an area, in offset order: the granules of stack b div 2 and channel parity b mod 2
(R190, R197). -/
def barnGranule (base b k : Nat) : Nat := base / 4096 + 16 * k + b / 2 + 8 * (b % 2)

/-- The address of a spilled cell: granule k holds handles 16k to 16k + 15 (R197). -/
def spillCellAddr (s : State) (b h : Nat) : Nat := 4096 * barnGranule (spillBase s) b (h / 16) + 256 * (h % 16)

/-- The address of a spilled cell's descriptor: 8 bytes for each handle, in the barn's granules of the descriptor area
(R197). (DEDUCED, log entry 153.) -/
def spillDescAddr (s : State) (b h : Nat) : Nat := 4096 * barnGranule (spillDescBase s) b (h / 512) + 8 * (h % 512)

/-- The image of a cell descriptor (R87). (PRESUMED, log entry 52.) -/
def cellImg (c : CellRec) : Nat :=
  packN [(48, c.next), (47, bit c.inuse), (46, bit c.start), (45, bit c.last), (39, c.fill), (32, c.refs), (29, c.tc),
    (28, bit c.mc), (0, c.check)]

/-- The image of a spilled cell's descriptor: NEXT has 24 bits, in [63:48] and [27:20] (R110). -/
def spillImg (c : CellRec) : Nat := cellImg { c with next := c.next % 65536 } + c.next / 65536 % 256 * 2 ^ 20

/-- The descriptor of a spilled cell is stored beside the cell (R110, R197). -/
def storeDesc (b h : Nat) (s : State) : State :=
  daWrite (spillDescAddr s b h) (leBytes 8 (spillImg (tget (theBarn s b).spill {} h))) s

/-- A cell is written to the spill region with its descriptor (R110, R197). -/
def storeSpillCell (b h : Nat) (bytes : List Byte) (s : State) : State :=
  storeDesc b h (daWrite (spillCellAddr s b h) (padTo 0 256 bytes) s)

/-- The descriptor of a chain's cell before the new one has been linked to it (R110). -/
def storeSpill (b : Nat) (before : Option Nat) (s : State) : State :=
  match before with
  | some h => storeDesc b h s
  | none => s

end Sys2Proof.Machine
end

