-- ==== Sys2Proof/Machine/Tracing.lean ====
section
/-! DEFINITION. The rings of the Tally and of sampled tracing, and the trace records (R405 to R408). -/

namespace Sys2Proof.Machine

/-- Writes into a ring in host memory or in the Granary (R405). (DESIGN CHOICE, log entry 129.) -/
def ringPut (t : RingTarget) (off : Nat) (bytes : List Byte) (s : State) : State :=
  match t with
  | .off => s
  | .host a => hostWrite (a + off) bytes s
  | .granary _ o => daWrite (o + off) bytes s

/-- The records of a barn that may still be pending: each is written within 10 µs (R408). (DESIGN CHOICE, log entry 130.) -/
def pendingRecords (s : State) : List (Nat × Nat) := s.count.trace.recent.filter fun x => decide (s.time.now < x.2 + usU 10)

/-- A barn's 256 pending records are full: with so many that may be pending, whether they are is a free value (R408).
(DESIGN CHOICE, log entry 130.) -/
def recordsFull (s : State) (b : Nat) : Bool :=
  decide (256 ≤ ((pendingRecords s).filter fun x => x.1 == b).length) && freeBelow s 2 == 1

/-- Writes one trace record of a barn into its ring, or discards it where the barn's pending records are full (R407, R408).
(DESIGN CHOICE, log entry 130.) -/
def putTrace (b : Nat) (words : List Word) (s : State) : State :=
  let t := s.count.trace
  if !t.enabled then s
  else if recordsFull s b then bump (ctr 0x14 0 12) s.tookFree
  else
    let w := words ++ [w32 t.seq, 0]
    let bytes := wordsLe w
    bump (ctr 0x14 0 10) ((ringPut t.target (t.seq % t.slots * 64) (bytes ++ leBytes 4 (crc32 bytes)) s.tookFree).modCount fun c =>
      { c with trace := { c.trace with seq := (t.seq + 1) % 2 ^ 32, recent := pendingRecords s ++ [(b, s.time.now)] } })

/-- A delta of a trace record: from T_IN, in units of 1/16 ns, saturating; all ones for a stage never reached (R407).
(DESIGN CHOICE, log entries 48, 130.) -/
def traceDelta (tIn : Nat) (t : Option Nat) (lag : Nat) : Word :=
  match t with
  | none => 0xFFFFFFFF
  | some t => w32 (sat (2 ^ 32 - 1) ((t + lag - tIn) / 16))

/-- How a packet with tagged cells came to its end (R407): OUTCOME, where it went, whether under R95's second case, and the
instants of its selection and of its first bit. -/
structure TraceEnd where
  outcome : Nat
  sink : Nat := 0
  outPort : Nat := 0
  barn : Nat
  cut : Bool := false
  selected : Option Nat := none
  out : Option Nat := none
  deriving DecidableEq, Repr

/-- The trace record of one tagged cell (R407). Where in its 20 ns each stage is stamped is a free value.
(DESIGN CHOICE, log entry 130.) -/
def traceCell (i : PktInfo) (e : TraceEnd) (t : Tag) (s : State) : State :=
  let h := i.hdr
  let lag := freeBelow s 5121
  let d (x : Option Nat) : Word := traceDelta i.tIn x lag
  let s := s.tookFree
  putTrace (match i.inPort with
    | some p => barnOf p
    | none => e.barn) ([pack [(30, e.outcome), (28, e.sink), (25, h.tc), (24, bit h.mc), (23, bit t.spilled), (22, bit e.cut), (17, t.cell), (13, h.kind)],
    pack [(22, i.inPort.getD 0), (12, e.outPort), (8, e.barn), (6, t.plane)],
    pack [(20, h.partition), (11, h.len)], pack [(8, h.dstId)]] ++ timeWords i.tIn ++
    [d (some i.parse), d (some t.write), d t.grant, d t.arrive, d e.selected, d e.out]) s

/-- The trace records of a packet's tagged cells (R407). (DESIGN CHOICE, log entry 130.) -/
def traceInfo (i : PktInfo) (e : TraceEnd) (s : State) : State := i.tagged.foldl (fun s t => traceCell i e t s) s

/-- The trace records of the tagged cells of a stored packet whose copy at a port comes to its end there: a multicast packet is
followed in the copy to its lowest-numbered port (R406, R407). (DESIGN CHOICE, log entry 130.) -/
def traceStored (x : Stored) (e : TraceEnd) (s : State) : State :=
  if x.sink ≠ 0 ∨ x.tracePort = e.outPort then traceInfo x.info { e with sink := x.sink } s else s

end Sys2Proof.Machine
end

