-- ==== Sys2Proof/Machine/Forward.lean ====
section
/-! DEFINITION. Cells, accounts, credit and queues: how a packet enters the core, crosses into its egress barn, and is
dropped (R86 to R97, R103 to R110, R270, R406). -/

namespace Sys2Proof.Machine

/-! ### Cells (R86 to R88) -/

/-- The bytes of cell `i` of a packet. -/
def cellSlice (bytes : List Byte) (i : Nat) : List Byte := (bytes.drop (256 * i)).take 256

/-- CELL_CHECK of a cell: unfilled bytes are taken as 0 (R88). -/
def cellCheck (bytes : List Byte) : Nat := crc16 (padTo 0 256 bytes)

/-- The descriptor of cell `i` of a packet (R87). -/
def cellRecOf (h : Header) (bytes : List Byte) (i refs : Nat) : CellRec :=
  { next := 65535, inuse := true, start := i == 0, last := i + 1 == h.cells,
    fill := ((cellSlice bytes i).length + 7) / 8, refs := refs, tc := h.tc, mc := h.mc,
    check := cellCheck (cellSlice bytes i) }

/-- The first number not in use from `r` on, cyclically below `size`, where at most `count` are in use.
(DESIGN CHOICE, log entry 46.) -/
def firstFree (used : Nat → Bool) (size r count : Nat) : Nat :=
  (((List.range (count + 1)).map fun i => (r + i) % size).find? fun k => !used k).getD 65535

/-- A handle is on a free list, by its descriptor and the handles whose place in the list is wrong (R87, R114). -/
def onFreeList (t : Tab CellRec) (lost double : List Nat) (k : Nat) : Bool :=
  (!(tget t {} k).inuse && !lost.contains k) || double.contains k

/-- A handle of the free list: which one is a free value. (DESIGN CHOICE, log entry 46.) -/
def freeHandle (s : State) (b : Nat) : Nat :=
  let brn := theBarn s b
  firstFree (fun k => !onFreeList brn.cells brn.lostFree brn.doubleFree k) brn.bufCells (freeBelow s brn.bufCells)
    (brn.cells.length + brn.lostFree.length)

/-- A free spill handle: which one is a free value. (DESIGN CHOICE, log entry 46.) -/
def freeSpill (s : State) (b : Nat) : Nat :=
  let brn := theBarn s b
  firstFree (fun k => !onFreeList brn.spill brn.spillLost brn.spillDouble k) (spillCells s) (freeBelow s (spillCells s))
    (brn.spill.length + brn.spillLost.length)

/-- IN_CELLS of a barn (R90). -/
def inCells (brn : Barn) : Nat := brn.bufCells - brn.egCells

/-! ### Classes and spill (R105 to R110) -/

/-- A class is spill-eligible (R107, R109). -/
def spillEligible (s : State) (c : Nat) : Bool := decide (0 < s.core.spillGib) && s.core.spillMask.getLsbD c

/-- ALLOW of a port and class. -/
def allowOf (s : State) (p c : Nat) : Nat := tget s.core.allow 0 (p * 8 + c)

/-- The sum of the allowances of a barn's ports over the classes that pass a test. -/
def sumAllow (s : State) (b : Nat) (test : Nat → Bool) : Nat :=
  ((s.core.allow.filter fun e => barnOf (e.1 / 8) == b && test (e.1 % 8)).map Prod.snd).sum

/-- A VOQ entry of a barn still holds cell `i` of a packet. -/
def holdsCell (brn : Barn) (pid i : Nat) : Bool :=
  brn.voqs.any fun q => q.2.any fun e => e.pid == pid && !e.acked.contains i

/-- The cells of a packet that its ingress account still holds. -/
def heldCells (brn : Barn) (p : InPkt) : Nat :=
  ((List.range p.handles.length).filter fun i => holdsCell brn p.info.pid i).length

/-- The ingress account's cells of spill-eligible classes. -/
def eligibleCells (s : State) (b : Nat) : Nat :=
  let brn := theBarn s b
  ((brn.inPkts.filter fun p => !p.spilled && spillEligible s p.info.hdr.tc).map fun p => heldCells brn p).sum

/-- The room of spill-eligible classes in the ingress account (R107). -/
def eligibleLimit (s : State) (b : Nat) : Nat := inCells (theBarn s b) - sumAllow s b fun c => !spillEligible s c

/-! ### Credit (R105, R106, R270) -/

/-- The receiver's cumulative limit rises to what arrived and the allowance admit, unless the barn withholds credit. While the
link is down there is no limit: it starts at 0 when the link comes up (R270, R272). (DEDUCED, log entry 50.) -/
def giveCredit (p c : Nat) (s : State) : State :=
  if (theBarn s (barnOf p)).withheld ∨ !(thePort s p).up then s
  else
    let k := p * 8 + c
    let lim := tget s.link.cellsIn 0 k + (allowOf s p c - tget s.core.charged 0 k)
    s.modLink fun l => { l with ownLimit := tmod l.ownLimit 0 k fun v => Nat.max v lim }

/-- Free ingress queue entries of a barn (R91). -/
def freeEntries (brn : Barn) : Nat := 65536 - ((brn.voqs.map fun q => q.2.length).sum)

/-- R106: a barn withholds all new credit below 1,024 free entries and resumes at 2,048. (DEDUCED, log entry 50.) -/
def updateWithheld (b : Nat) (s : State) : State :=
  let brn := theBarn s b
  let f := freeEntries brn
  if !brn.withheld && decide (f < 1024) then modBarn b (fun x => { x with withheld := true }) s
  else if brn.withheld && decide (2048 ≤ f) then
    ((s.link.ports.filter fun e => barnOf e.1 == b).map Prod.fst).foldl
      (fun s p => (List.range 8).foldl (fun s c => giveCredit p c s) s) (modBarn b (fun x => { x with withheld := false }) s)
  else s

/-- Cells leave the ingress account: their credit returns to port and class. (DEDUCED, log entry 50.) -/
def returnCredit (port : Option Nat) (c n : Nat) (s : State) : State :=
  match port with
  | none => s
  | some p => giveCredit p c (s.modCore fun k => { k with charged := tmod k.charged 0 (p * 8 + c) (· - n) })

/-- Cells of a port and class have arrived and are charged (R106). -/
def chargeCells (port : Option Nat) (c n : Nat) (s : State) : State :=
  match port with
  | none => s
  | some p =>
    (s.modCore fun k => { k with charged := tmod k.charged 0 (p * 8 + c) (· + n) }).modLink fun l =>
      { l with cellsIn := tmod l.cellsIn 0 (p * 8 + c) (· + n) }

/-- Cells of a dropped packet arrive: nothing is charged and their credit returns at once (R124, R327). -/
def passCells (port : Nat) (c n : Nat) (s : State) : State :=
  giveCredit port c (s.modLink fun l => { l with cellsIn := tmod l.cellsIn 0 (port * 8 + c) (· + n) })

/-! ### Sampled tracing (R406) -/

/-- The tagged cells that a barn follows. (DESIGN CHOICE, log entry 130.) -/
def followed (s : State) (b : Nat) : Nat :=
  ((theBarn s b).inPkts.map fun p => p.info.tagged.length).sum +
  (s.core.barns.map fun e => ((e.2.stored.filter fun x => x.srcBarn == b).map fun x => x.info.tagged.length).sum).sum

/-- The draw for one cell: tagged with probability 2^-n, which cells is a free value (R406). (DESIGN CHOICE, log entry 130.) -/
def drawTag (b : Nat) (h : Header) (i : Nat) (spilled : Bool) (s : State) : Option Tag × State :=
  let t := s.count.trace
  if t.enabled && t.classMask.getLsbD h.tc && t.barnMask.getLsbD b then
    if freeBelow s (2 ^ t.logN) = 0 then
      if followed s b < 64 then
        (some { cell := i, write := s.time.now, grant := none, arrive := none, plane := 0, spilled := spilled }, s.tookFree)
      else (none, bump (ctr 0x14 0 11) s.tookFree)
    else (none, s.tookFree)
  else (none, s)

/-! ### Entering the core (R91, R93, R103, R110) -/

/-- A packet of an ingress account. -/
def inPkt (s : State) (b pid : Nat) : Option InPkt := (theBarn s b).inPkts.find? fun p => p.info.pid == pid

/-- Changes a packet of an ingress account. -/
def modInPkt (b pid : Nat) (f : InPkt → InPkt) (s : State) : State :=
  modBarn b (fun x => { x with inPkts := x.inPkts.map fun p => if p.info.pid == pid then f p else p }) s

/-- Links NEXT of a packet's last cell to a new one (R87). -/
def linkCells (t : Tab CellRec) (handles : List Nat) (h : Nat) : Tab CellRec :=
  match handles.getLast? with
  | some l => tmod t {} l fun c => { c with next := h }
  | none => t

/-- Writes the next cell of a packet into the ingress account, or into spill, where NEXT of a chain's last cell is 0
(R88, R110, R197). -/
def writeCell (b pid refs : Nat) (s : State) : State :=
  match inPkt s b pid with
  | none => s
  | some p =>
    let i := p.handles.length
    let rec0 := { cellRecOf p.info.hdr p.info.bytes i refs with charge := p.info.inPort }
    let h := if p.spilled then freeSpill s b else freeHandle s b
    let s := s.tookFree
    let (tag, s) := drawTag b p.info.hdr i p.spilled s
    let s := modBarn b (fun x =>
      if p.spilled then
        { x with spill := linkCells (tset x.spill {} h { rec0 with next := 0 }) p.handles h,
                 spillDouble := x.spillDouble.filter (· != h) }
      else
        { x with cells := linkCells (tset x.cells {} h rec0) p.handles h, doubleFree := x.doubleFree.filter (· != h) }) s
    let s := if p.spilled then
        storeSpill b p.handles.getLast? (storeSpillCell b h (cellSlice p.info.bytes i) s)
      else s
    let s := modInPkt b pid (fun q => { q with handles := q.handles ++ [h],
                                               info := { q.info with tagged := q.info.tagged ++ tag.toList } }) s
    let s := if p.spilled then bump (ctr 0x0D (b / 2) 7) s else s
    chargeCells p.info.inPort p.info.hdr.tc 1 s

/-- Writes the cells that the bytes received so far fill; the last cell once the packet has ended. -/
def writeCells (b pid refs n : Nat) (s : State) : State :=
  match n with
  | 0 => s
  | n + 1 => writeCells b pid refs n (writeCell b pid refs s)

/-- The cells complete of a packet with so many bytes. -/
def cellsReady (len : Nat) (ended : Bool) : Nat := if ended then (len + 255) / 256 else len / 256

/-- Puts the copies of a packet into their VOQs (R91, R93). -/
def enterVoqs (b tc : Nat) (copies : List (Nat × QEntry)) (s : State) : State :=
  updateWithheld b (modBarn b (fun x =>
    { x with voqs := copies.foldl (fun q c => tmod q [] (8 * c.1 + tc) (· ++ [c.2])) x.voqs }) s)

/-- A packet begins to occupy the ingress account: into the Loft, or into spill where its class group is at its limit
at its first cell (R110). -/
def admitPkt (b : Nat) (info : PktInfo) (copies : List (Nat × QEntry)) (ended : Bool) (s : State) : State :=
  let sp := info.inPort.isSome && spillEligible s info.hdr.tc && decide (eligibleLimit s b ≤ eligibleCells s b)
  let new : InPkt :=
    { info := info, handles := [], arriving := !ended, spilled := sp, refilled := false,
      firstDst := leastOf id (copies.map Prod.fst),
      alone := copies.all fun c => tget (theBarn s b).voqs [] (8 * c.1 + info.hdr.tc) == [] }
  let s := modBarn b (fun x => { x with inPkts := x.inPkts ++ [new] }) s
  let s := if sp then bumpIn b 20 s else s
  enterVoqs b info.hdr.tc copies (writeCells b info.pid copies.length (cellsReady info.bytes.length ended) s)

/-- More bytes of a packet in the ingress account have arrived. -/
def growPkt (b pid : Nat) (bytes : List Byte) (ended : Bool) (s : State) : State :=
  match inPkt s b pid with
  | none => s
  | some p =>
    let s := modInPkt b pid (fun q => { q with info := { q.info with bytes := q.info.bytes ++ bytes }, arriving := !ended }) s
    let copies := ((theBarn s b).voqs.map fun q => (q.2.filter fun e => e.pid == pid).length).sum
    writeCells b pid copies (cellsReady (p.info.bytes.length + bytes.length) ended - p.handles.length) s

/-- The copies of a packet for a list of ports: one for each destination barn (R103). -/
def copiesFor (pid : Nat) (ports : List Nat) : List (Nat × QEntry) :=
  ((List.range 16).filter fun d => ports.any fun p => barnOf p == d).map fun d =>
    (d, { pid := pid, sink := 0, dstPort := 0,
          localMask := (ports.filter fun p => barnOf p == d).foldl (fun m p => m ||| (1#64 <<< (p % 64))) 0,
          taken := 0, resend := [], acked := [] })

/-- The copy of a unicast packet for a port. -/
def copyTo (pid port : Nat) : Nat × QEntry :=
  (barnOf port, { pid := pid, sink := 0, dstPort := port, localMask := 0, taken := 0, resend := [], acked := [] })

/-- The copy of a terminated packet for a sink of a barn (R92). -/
def copyToSink (pid barn sink : Nat) : Nat × QEntry :=
  (barn, { pid := pid, sink := sink, dstPort := 0, localMask := 0, taken := 0, resend := [], acked := [] })

/-- A new name for a packet in the core. (DESIGN CHOICE, log entry 142.) -/
def newPid (s : State) : State := s.modCore fun c => { c with nextPid := c.nextPid + 1 }

/-- Originates a packet toward given ports at a barn: CRC-64, whole cells, queue entries (R52, R92, R103). -/
def originateTo (b : Nat) (h : Header) (payload : List Byte) (result : Option ResultRef) (copies : Nat → List (Nat × QEntry))
    (s : State) : State :=
  let pid := s.core.nextPid
  let pkt : Packet := { hdr := h, payload := payload, crc := packetCrc h payload }
  match copies pid with
  | [] => s
  | cs => admitPkt b { pid := pid, hdr := h, bytes := pkt.wire, inPort := none, tIn := s.time.now,
                          parse := s.time.now, result := result, tagged := [] } cs true (newPid s)

/-- Originates a packet: it is marked with the active version, looked up and queued (R35, R60). -/
def originate (b : Nat) (h : Header) (payload : List Byte) (result : Option ResultRef) (s : State) : State :=
  let h := h.withEpoch (activeEpoch s)
  match lookup b h s with
  | (.drop, s) => s
  | (.uni p, s) => originateTo b h payload result (fun pid => [copyTo pid p]) s
  | (.multi ports, s) => originateTo b h payload result (fun pid => copiesFor pid ports) s

/-! ### Leaving the ingress account -/

/-- Frees cell `i` of a packet once no copy holds it: its handle, its charge and its credit (R103, R106). -/
def releaseCell (b : Nat) (p : InPkt) (i : Nat) (s : State) : State :=
  let brn := theBarn s b
  match p.handles[i]? with
  | none => s
  | some h =>
    if holdsCell brn p.info.pid i then
      let fall (t : Tab CellRec) : Tab CellRec := tmod t {} h fun c => { c with refs := c.refs - 1 }
      modBarn b (fun x => if p.spilled then { x with spill := fall x.spill } else { x with cells := fall x.cells }) s
    else
      returnCredit p.info.inPort p.info.hdr.tc 1 (modBarn b (fun x =>
        if p.spilled then { x with spill := tset x.spill {} h {} } else { x with cells := tset x.cells {} h {} }) s)

/-- Removes queue entries whose cells have all crossed, and the packet once no entry is left. -/
def settleIn (b pid : Nat) (s : State) : State :=
  match inPkt s b pid with
  | none => s
  | some p =>
    if p.arriving then s
    else
      let s := modBarn b (fun x =>
        { x with voqs := (x.voqs.map fun q => (q.1, q.2.filter fun e => !(e.pid == pid && decide (p.handles.length ≤ e.acked.length)))).filter
                   fun q => q.2 != [] }) s
      let s := if (theBarn s b).voqs.any fun q => q.2.any fun e => e.pid == pid then s
        else modBarn b (fun x => { x with inPkts := x.inPkts.filter fun q => q.info.pid != pid }) s
      updateWithheld b s

/-- Cells of a copy have crossed and are acknowledged (R102, R103). -/
def ackCells (b dst tc pid : Nat) (cells : List Nat) (s : State) : State :=
  match inPkt s b pid with
  | none => s
  | some p =>
    let s := modBarn b (fun x =>
      { x with voqs := tmod x.voqs [] (8 * dst + tc) fun q =>
          q.map fun e => if e.pid == pid then { e with acked := e.acked ++ cells.filter fun i => !e.acked.contains i } else e }) s
    settleIn b pid (cells.foldl (fun s i => releaseCell b p i s) s)

/-! ### Egress accounts and holds (R90, R104, R108) -/

/-- The cells of a class in a barn's egress account: those of its stored packets, and those left to the Gleaner (R108, R377). -/
def egClassCells (brn : Barn) (c : Nat) : Nat :=
  ((brn.stored.filter fun x => x.info.hdr.tc == c).map fun x => x.handles.length).sum +
  (brn.leftEg.filter fun h => (tget brn.cells {} h).tc == c).length

/-- The cells of classes 0 to 6 in a barn's egress account. -/
def egLowCells (brn : Barn) : Nat := ((List.range 7).map fun c => egClassCells brn c).sum

/-- One hold with its release 256 cells below its level (R108). -/
def holdNow (held : Bool) (level occ : Nat) : Bool := decide (level ≤ occ) || (held && decide (level < occ + 256))

/-- The hold of class `c` is raised against a barn. -/
def egHeld (brn : Barn) (c : Nat) : Bool := (brn.egHoldGroup && decide (c < 7)) || brn.egHold.getLsbD c

/-- A barn whose whole Loft is scratchpad: it forwards nothing (R204). (DESIGN CHOICE, log entry 86.) -/
def wholeScratch (s : State) (b : Nat) : Bool := (theBarn s b).scratchCells == 65536

/-- The holds of a barn after a change of its egress account; each class whose hold rises is counted (R108). A hold that is
raised while CORE_BUF changes its level is released by the new level. (DESIGN CHOICE, log entry 152.) -/
def updateHolds (b : Nat) (s : State) : State :=
  let o := theBarn s b
  let low := egLowCells o
  let group := holdNow o.egHoldGroup (o.egCells - o.egC7Reserve) low
  let own := (List.range 8).foldl (fun (m : BitVec 8) c =>
    let h := if c = 7 then holdNow (o.egHold.getLsbD 7) (o.egCells - 128) (low + egClassCells o 7)
      else holdNow (o.egHold.getLsbD c) (o.egClassMax.getD c 0) (egClassCells o c)
    if h then m ||| (1#8 <<< c) else m) 0
  let s := modBarn b (fun x => { x with egHoldGroup := group, egHold := own }) s
  let n := theBarn s b
  (List.range 8).foldl (fun s c => if egHeld n c && !egHeld o c then bumpEg b (24 + c) s else s) s

/-- A packet stored at an egress barn. -/
def storedPkt (s : State) (b pid : Nat) : Option Stored := (theBarn s b).stored.find? fun x => x.info.pid == pid

/-- Changes a packet stored at an egress barn. -/
def modStored (b pid : Nat) (f : Stored → Stored) (s : State) : State :=
  modBarn b (fun x => { x with stored := x.stored.map fun y => if y.info.pid == pid then f y else y }) s

/-- The ports that a stored packet's mask names. -/
def storedPorts (b : Nat) (m : BitVec 64) : List Nat := ((List.range 64).filter fun n => m.getLsbD n).map (64 * b + ·)

/-- Frees a stored packet's cells and removes it from its barn and its queues. -/
def freeStored (b pid : Nat) (s : State) : State :=
  match storedPkt s b pid with
  | none => s
  | some x =>
    updateHolds b (modBarn b (fun y =>
      { y with cells := x.handles.foldl (fun t h => tset t {} h.2 {}) y.cells,
               stored := y.stored.filter fun z => z.info.pid != pid,
               egq := (y.egq.map fun q => (q.1, q.2.filter (· != pid))).filter fun q => q.2 != [],
               sinkq := (y.sinkq.map fun q => (q.1, q.2.filter (· != pid))).filter fun q => q.2 != [] }) s)

/-- The cells of a stored packet that nothing holds any more are freed at once; the cells that are still to come find it
dead (R104). -/
def killStored (b pid : Nat) (s : State) : State :=
  match storedPkt s b pid with
  | none => s
  | some x =>
    if x.arrived = x.info.hdr.cells then freeStored b pid s
    else updateHolds b (modBarn b (fun y => { y with cells := x.handles.foldl (fun t h => tset t {} h.2 {}) y.cells })
      (modStored b pid (fun y => { y with mask := 0, dead := true, handles := [] }) s))

/-- A port has sent or dropped a stored packet: REFS of its cells falls by 1; the cells are freed at 0 (R104). -/
def dropRef (b pid port : Nat) (s : State) : State :=
  match storedPkt s b pid with
  | none => s
  | some x =>
    let m := x.mask &&& ~~~(1#64 <<< (port % 64))
    let s := modBarn b (fun y =>
      { y with egq := (y.egq.map fun q => (q.1, if q.1 / 8 = port % 64 then q.2.filter (· != pid) else q.2)).filter
                 fun q => q.2 != [] }) s
    if m = 0 then killStored b pid s
    else modBarn b (fun y =>
        { y with cells := x.handles.foldl (fun t h => tmod t {} h.2 fun c => { c with refs := c.refs - 1 }) y.cells })
      (modStored b pid (fun y => { y with mask := m }) s)

/-- The drop that a port's checks at linking call for, by its BARN_EG index (R96, R58, R327, R436).
(DESIGN CHOICE, log entry 49.) -/
def egressDrop (s : State) (p : Nat) (own : Bool) (h : Header) : Option Nat :=
  if !(thePort s p).up then some 2
  else if (thePort s p).v0 && h.ver != 0 then some 6
  else if !admitsOut s p own h then some 5
  else none

/-- The reassembly of a packet at its destination barn begins, by the source barn and its first handle (R97). -/
def openStored (src dst : Nat) (p : InPkt) (e : QEntry) (s : State) : State :=
  let ports := if e.localMask = 0 then [e.dstPort] else storedPorts dst e.localMask
  let info := { p.info with tagged := [] }
  let new : Stored :=
    { info := info, srcBarn := src, first := p.handles.headD 65535, handles := [], arrived := 0, linked := false, sink := e.sink,
      dstPort := e.dstPort, localMask := e.localMask, mask := 0, dead := false, refilled := p.refilled,
      tracePort := if e.sink = 0 then ports.headD 0 else 0, alone := p.alone }
  modBarn dst (fun x => { x with stored := x.stored ++ [new] }) s

/-- The lane that still receives a packet notes that it has been dropped and counted (R436). -/
def noteCounted (pid : Nat) (s : State) : State :=
  s.modLink fun k => { k with lanes := k.lanes.map fun e =>
    (e.1, { e.2 with rx := e.2.rx.map fun r => if r.pid == pid && r.disp == .forwarded then { r with counted := true } else r }) }

/-- Some copy of a packet is still to leave: stored at its egress barn, or on its way there (R103, R104). -/
def copyLeft (s : State) (pid : Nat) : Bool :=
  s.core.barns.any fun e =>
    (e.2.stored.any fun x => x.info.pid == pid && !x.dead) ||
    e.2.voqs.any fun q => q.2.any fun v => v.pid == pid && (storedPkt s (q.1 / 8) pid).isNone

/-- A copy of a packet has been dropped: once none is left, the packet has been counted where it was dropped, and no later check
judges it (R436). -/
def noteDropped (pid : Nat) (s : State) : State := if copyLeft s pid then s else noteCounted pid s

/-- A lane of a port sends a TIME packet, or one waits, or a packet of a class is queued for the port (R126). -/
def portBusy (s : State) (p c : Nat) : Bool :=
  tget s.link.timeQ [] p != [] || tget (theBarn s (barnOf p)).egq [] (p % 64 * 8 + c) != []

/-- A packet whose first cell arrives is linked into the queues of its ports, or into its sink's queue (R94). The queues
have no bound of their own. (DESIGN CHOICE, log entry 152.) -/
def linkStored (dst pid : Nat) (s : State) : State :=
  match storedPkt s dst pid with
  | none => s
  | some x =>
    let h := x.info.hdr
    if x.sink ≠ 0 then
      modStored dst pid (fun y => { y with linked := true })
        (modBarn dst (fun y => { y with sinkq := tmod y.sinkq [] (8 * x.sink + h.tc) (· ++ [pid]) }) s)
    else
      let own := x.info.inPort.isNone
      let ports := if x.localMask = 0 then [x.dstPort] else storedPorts dst x.localMask
      let kept := ports.filter fun q => (egressDrop s q own h).isNone
      let s := ports.foldl (fun s q =>
        let s := if (thePort s q).up && !((thePort s q).v0 && h.ver != 0) then noteAdmit q h.partition s else s
        match egressDrop s q own h with
        | some i => bumpEg dst i s
        | none => s) s
      let mask := kept.foldl (fun (m : BitVec 64) q => m ||| (1#64 <<< (q % 64))) 0
      let alone := x.alone && kept.all fun q => !portBusy s q h.tc
      let s := modStored dst pid (fun y => { y with linked := true, mask := mask, alone := alone })
        (modBarn dst (fun y =>
          { y with egq := kept.foldl (fun q port => tmod q [] (port % 64 * 8 + h.tc) (· ++ [pid])) y.egq,
                   cells := x.handles.foldl (fun t k => tmod t {} k.2 fun c => { c with refs := kept.length }) y.cells }) s)
      let s := if kept.contains x.tracePort then s else traceStored x { outcome := 1, outPort := x.tracePort, barn := dst } s
      let s := if kept.contains x.tracePort then s
        else modStored dst pid (fun y => { y with info := { y.info with tagged := [] } }) s
      if kept = [] then noteDropped pid (killStored dst pid s) else s

/-- Cell `i` of a chain of stored cells is linked to its neighbours that have arrived (R87, R97). -/
def linkAt (t : Tab CellRec) (handles : Tab Nat) (i h : Nat) : Tab CellRec :=
  let t := match handles.find? fun k => k.1 == i + 1 with
    | some k => tmod t {} h fun c => { c with next := k.2 }
    | none => t
  match handles.find? fun k => k.1 + 1 == i with
  | some k => tmod t {} k.2 fun c => { c with next := h }
  | none => t

/-- Stores one arrived cell of a packet in the egress account (R97, R104). While its packet is not linked, the reassembly in
progress holds the cell (R113). -/
def storeCell (dst pid i : Nat) (s : State) : State :=
  match storedPkt s dst pid with
  | none => s
  | some x =>
    if x.dead then
      if x.arrived + 1 = x.info.hdr.cells then freeStored dst pid s
      else modStored dst pid (fun y => { y with arrived := y.arrived + 1 }) s
    else
      let refs := if x.sink ≠ 0 ∨ !x.linked then 1 else (storedPorts dst x.mask).length
      let h := freeHandle s dst
      modStored dst pid (fun y => { y with arrived := y.arrived + 1, handles := tput y.handles i h })
        (modBarn dst (fun y =>
          { y with cells := linkAt (tset y.cells {} h (cellRecOf x.info.hdr x.info.bytes i refs)) x.handles i h,
                   doubleFree := y.doubleFree.filter (· != h) }) s.tookFree)

/-! ### Discarding (R22, R88, R254) -/

/-- Lanes that are sending a packet cut-through. -/
def lanesSending (s : State) (pid : Nat) : List Nat :=
  (s.link.lanes.filter fun e => e.2.tx.any fun t => t.pid == pid).map Prod.fst

/-- No lane waits to send a packet any more (R118). -/
def unassign (pid : Nat) (s : State) : State :=
  s.modLink fun k => { k with lanes := k.lanes.map fun e => (e.1, if e.2.next.any fun n => n.1 == pid then { e.2 with next := none } else e.2) }

/-- Removes a packet from one barn: queue entries, bundles in flight, cells, credit. -/
def purgeBarn (pid b : Nat) (s : State) : State :=
  let s := freeStored b pid s
  match inPkt s b pid with
  | none => s
  | some p =>
    let held := (List.range p.handles.length).filter fun i => holdsCell (theBarn s b) pid i
    let s := modBarn b (fun x =>
      { x with inPkts := x.inPkts.filter fun q => q.info.pid != pid,
               voqs := (x.voqs.map fun q => (q.1, q.2.filter fun e => e.pid != pid)).filter fun q => q.2 != [],
               unacked := (x.unacked.map fun u => { u with parts := u.parts.filter fun t => t.pid != pid }).filter fun u => u.parts != [],
               cells := if p.spilled then x.cells else held.foldl (fun t i => tset t {} (p.handles.getD i 65535) {}) x.cells,
               spill := if p.spilled then held.foldl (fun t i => tset t {} (p.handles.getD i 65535) {}) x.spill else x.spill }) s
    updateWithheld b (returnCredit p.info.inPort p.info.hdr.tc held.length s)

/-- The records of the tagged cells of a packet that is discarded: aborted where a lane is sending the copy that is followed,
dropped otherwise (R407). (DESIGN CHOICE, log entry 130.) -/
def traceDiscard (pid : Nat) (s : State) : State :=
  let sent (x : Stored) : Option Tx := s.link.lanes.findSome? fun e => e.2.tx.filter fun t => t.pid == pid && t.port == x.tracePort
  let ends (b : Nat) (x : Stored) : TraceEnd :=
    match sent x with
    | some t => { outcome := 3, outPort := t.port, barn := b, cut := t.cut, selected := some t.selAt,
                  out := if t.sent = 0 then none else some t.outAt }
    | none => { outcome := 1, outPort := x.tracePort, barn := b }
  let s := s.core.barns.foldl (fun s e => match e.2.stored.find? fun x => x.info.pid == pid with
    | some x => traceStored x (ends e.1 x) s
    | none => s) s
  s.core.barns.foldl (fun s e => match e.2.inPkts.find? fun p => p.info.pid == pid with
    | some p => traceInfo p.info { outcome := 1, barn := p.firstDst } s
    | none => s) s

/-- Discards a packet: none of it is sent where nothing has left, otherwise each lane that is sending it ends it with
the packet abort (R22, R254). -/
def discardPkt (pid : Nat) (s : State) : State :=
  let s := (lanesSending s pid).foldl (fun s l => abortTx l s) (unassign pid (traceDiscard pid s))
  (List.range 16).foldl (fun s b => purgeBarn pid b s) s

end Sys2Proof.Machine
end

