-- ==== Sys2Proof/WellFormed.lean ====
section
/-! DEFINITION. Which terms of `Instr` are commands of the block. -/

namespace Sys2Proof

/-- The argument block of an entry: at most eleven words in the entry itself, or as many words as a valid ARG_LEN
says (R352). -/
def CmdHdr.argsOk (h : CmdHdr) (args : List Word) : Bool :=
  match h.indirect with
  | none => decide (args.length ≤ 11)
  | some i =>
    if 4 ≤ i.argLen.toNat ∧ i.argLen.toNat ≤ 4096 ∧ i.argLen.toNat % 4 = 0 then
      decide (args.length * 4 = i.argLen.toNat)
    else true

/-- The bytes of BAR2 (R205). -/
def bar2Size : Nat := 268435456

/-- A term is a command: an entry's block is one (R352), a flit and an alignment slot have 256 bytes (R251, R262), an
access to BAR2 lies in it (R205), the thermal sensors are 26 (R430). -/
def Instr.wf (i : Instr) : Bool :=
  match i with
  | .routeWrite h args => h.argsOk args
  | .routeRead h args => h.argsOk args
  | .routeSeal h args => h.argsOk args
  | .routeUnseal h args => h.argsOk args
  | .routeCommit h args => h.argsOk args
  | .routeConfig h args => h.argsOk args
  | .endpointWrite h args => h.argsOk args
  | .endpointFlush h args => h.argsOk args
  | .endpointRead h args => h.argsOk args
  | .bundleWrite h args => h.argsOk args
  | .treeWrite h args => h.argsOk args
  | .coreBuf h args => h.argsOk args
  | .coreCredit h args => h.argsOk args
  | .coreSpill h args => h.argsOk args
  | .floorConfig h args => h.argsOk args
  | .floorPlaneRestore h args => h.argsOk args
  | .coreQueueRead h args => h.argsOk args
  | .shaperWrite h args => h.argsOk args
  | .shaperBankSet h args => h.argsOk args
  | .policerWrite h args => h.argsOk args
  | .portSchedRead h args => h.argsOk args
  | .ctxCreate h args => h.argsOk args
  | .ctxAbort h args => h.argsOk args
  | .ctxRearm h args => h.argsOk args
  | .ctxSubstitute h args => h.argsOk args
  | .ctxDestroy h args => h.argsOk args
  | .ctxStatusRead h args => h.argsOk args
  | .ctxRead h args => h.argsOk args
  | .ctxBranchRead h args => h.argsOk args
  | .ctxResendBranch h args => h.toCmdHdr.argsOk args
  | .tuStatusRead h args => h.argsOk args
  | .tuFence h args => h.argsOk args
  | .tuUnfence h args => h.argsOk args
  | .harvestGroupWrite h args => h.argsOk args
  | .harvestGroupRead h args => h.argsOk args
  | .harvestRun h args => h.argsOk args
  | .harvestAbort h args => h.argsOk args
  | .normPass h args => h.argsOk args
  | .memWindowWrite h args => h.argsOk args
  | .memWindowRead h args => h.argsOk args
  | .memPool h args => h.argsOk args
  | .memLoft h args => h.argsOk args
  | .memScratch h args => h.argsOk args
  | .memHintWrite h args => h.argsOk args
  | .memBar2Map h args => h.argsOk args
  | .memMove h args => h.argsOk args
  | .memArbConfig h args => h.argsOk args
  | .memThermal h args => h.argsOk args
  | .memHold h args => h.argsOk args
  | .memRelease h args => h.argsOk args
  | .memMargin h args => h.argsOk args
  | .memSiloDetach h args => h.argsOk args
  | .memStatusRead h args => h.argsOk args
  | .laneStatusRead h args => h.argsOk args
  | .kilnStatusRead h args => h.argsOk args
  | .calConfig h args => h.argsOk args
  | .calLane h args _ => h.argsOk args
  | .laneBank h args => h.argsOk args
  | .laneUnbank h args => h.argsOk args
  | .kilnSwap h args => h.argsOk args
  | .portConfig h args => h.argsOk args
  | .linkStatusRead h args => h.argsOk args
  | .flueOpen h args _ => h.argsOk args
  | .flueSwitch h args => h.argsOk args
  | .flueClose h args => h.argsOk args
  | .flueStatusRead h args => h.argsOk args
  | .timeConfig h args => h.argsOk args
  | .timePortConfig h args => h.argsOk args
  | .timeSource h args => h.argsOk args
  | .timeSet h args => h.argsOk args
  | .timeStepAccept h args => h.argsOk args
  | .timeStepDismiss h args => h.argsOk args
  | .timeStatusRead h args => h.argsOk args
  | .captureConfig h args => h.argsOk args
  | .kindleArm h args => h.argsOk args
  | .kindleDisarm h args => h.argsOk args
  | .kindleRead h args => h.argsOk args
  | .partCreate h args => h.argsOk args
  | .partQuota h args => h.argsOk args
  | .partRetire h args => h.argsOk args
  | .partStatusRead h args => h.argsOk args
  | .partPortSet h args => h.argsOk args
  | .partAllowWrite h args => h.argsOk args
  | .seedDefine h args => h.argsOk args
  | .seedFree h args => h.argsOk args
  | .seedRead h args => h.argsOk args
  | .deviceReset h args => h.argsOk args
  | .halfReset h args => h.argsOk args
  | .barnReset h args => h.argsOk args
  | .laneReset h args => h.argsOk args
  | .hearthReset h args => h.argsOk args
  | .partScrubConfig h args => h.argsOk args
  | .mbxNop h args => h.argsOk args
  | .deviceConfig h args => h.argsOk args
  | .endpointIdSet h args => h.argsOk args
  | .fwLoad h args => h.argsOk args
  | .fwActivate h args _ => h.argsOk args
  | .fwCommit h args => h.argsOk args
  | .fwStatusRead h args => h.argsOk args
  | .attestReport h args => h.argsOk args
  | .tagWrite h args => h.argsOk args
  | .tagRead h args => h.argsOk args
  | .lifecycleAdvance h args => h.argsOk args
  | .returnAuthorise h args => h.argsOk args
  | .debugUnlock h args => h.argsOk args
  | .calUserWrite h args => h.argsOk args
  | .calUserRead h args => h.argsOk args
  | .faultLogRead h args => h.argsOk args
  | .tallyConfig h args => h.argsOk args
  | .tallyLatch h args => h.argsOk args
  | .counterRead h args => h.argsOk args
  | .traceConfig h args => h.argsOk args
  | .powerStatusRead h args => h.argsOk args
  | .cmdTailWrite _ _ => true
  | .cplHeadWrite _ _ => true
  | .ringEnable _ _ => true
  | .ringDisable _ _ => true
  | .eventRingEnable _ => true
  | .evHeadWrite _ => true
  | .evLostRead => true
  | .hearthLoadRead => true
  | .ifRequestWrite _ => true
  | .latch _ => true
  | .registerWrite _ _ => true
  | .bar2Write offset bytes => decide (offset.val + bytes.length ≤ bar2Size)
  | .bar2Read offset len _ => decide (offset.val + len ≤ bar2Size)
  | .rcvStart _ => true
  | .pcieReset _ => true
  | .packetHeaderRx _ _ => true
  | .packetTrailerRx _ _ => true
  | .termWrite _ _ => true
  | .termRead _ _ _ => true
  | .sheafArrival _ _ => true
  | .resultAck _ _ => true
  | .resultNak _ _ _ => true
  | .relayResultRx _ _ => true
  | .upstreamNoticeRx _ _ => true
  | .controlPkt _ _ => true
  | .termUnexpected _ _ => true
  | .timePacketRx _ _ => true
  | .flitRx _ bytes _ => decide (bytes.length = 256)
  | .nakResendTimer _ => true
  | .replayTimeout _ => true
  | .linkRetryExhausted _ => true
  | .fecExit _ => true
  | .frameLoss _ => true
  | .lossOfSignal _ => true
  | .markerSend _ => true
  | .alignmentSlotRx _ bytes => decide (bytes.length = 256)
  | .txFault _ => true
  | .wdReq _ _ _ => true
  | .wdGrant _ _ => true
  | .wdRefuse _ _ _ => true
  | .rehomeReq _ _ => true
  | .rehomeAck _ _ => true
  | .trainingStart _ => true
  | .trainFail _ _ => true
  | .trainingRestart _ => true
  | .trainingComplete _ _ => true
  | .shortRetrain _ _ _ => true
  | .egressUnderrunAbort _ => true
  | .floorSlot => true
  | .cellBundleArrival _ _ _ _ => true
  | .bundleAckTimeout _ _ _ => true
  | .spillRefill _ => true
  | .egressSelect _ => true
  | .refillInstant => true
  | .gleanerAudit _ => true
  | .learnUpdate _ => true
  | .ageingVisit _ => true
  | .tableParityRepair _ _ _ _ => true
  | .drainWindowEnd => true
  | .bridgeChannelFail _ _ _ => true
  | .resultFormed _ _ => true
  | .winnowCompare _ _ _ => true
  | .residueFault _ _ _ => true
  | .retainStallResume _ => true
  | .stallTimer _ _ => true
  | .retainExpired _ _ => true
  | .retentionScrub _ _ _ => true
  | .stagingMove _ => true
  | .harvestChunk _ _ _ _ => true
  | .normPassDone _ _ => true
  | .memMoveDone _ _ => true
  | .burstBoundary _ _ => true
  | .chanWatchdog _ _ => true
  | .stackThermalRead _ _ => true
  | .patrolScrub _ _ => true
  | .scrubGranule => true
  | .granaryInService _ _ => true
  | .siloLinkFail _ => true
  | .calSliceStart _ _ _ => true
  | .lockLost _ => true
  | .laserReading _ _ => true
  | .kilnSwapStart _ => true
  | .flueReadyRetune _ _ => true
  | .flueRetuneNotice _ => true
  | .flueRetune _ _ => true
  | .flueLos _ _ => true
  | .ptpSyncSend _ => true
  | .ptpDelayReqSend _ => true
  | .ptpAnnounceSend _ => true
  | .holdoverTimeout => true
  | .ppsInEdge => true
  | .ppsOutEdge => true
  | .ppsOutFall => true
  | .capInEdge _ _ => true
  | .kindleRouteCommit _ => true
  | .kindleFlueSwitch _ => true
  | .collRelease _ => true
  | .mcRelease _ => true
  | .mcReleaseSeed _ => true
  | .shaperBank _ => true
  | .counterDump _ => true
  | .timedNotice _ => true
  | .seedPacketSend _ _ => true
  | .tallyPeriodicLatch => true
  | .eventWrite => true
  | .faultReportFoldEnd _ _ _ _ => true
  | .hearthWatchdog _ => true
  | .hearthReturn => true
  | .debugViewsExpire => true
  | .resetBegin => true
  | .halfReady _ => true
  | .barnReady _ => true
  | .vin36Lost => true
  | .vin36Qualified => true
  | .vin36Margin _ => true
  | .vaux33Low => true
  | .vaux33PowerUp _ => true
  | .halfPowerOn _ => true
  | .coldReset _ _ => true
  | .converterFault _ _ => true
  | .converterRepower _ _ => true
  | .refclkFail _ => true
  | .refclkReturn _ => true
  | .thermalSensorRead readings _ => decide (readings.length = 26)
  | .thermRestart _ => true
  | .wdAnswerTimeout _ => true
  | .timeSetPpsExpired => true
  | .siloLinkUp _ _ => true
  | .unitSelftestDone _ _ => true
  | .planeLoopbackTestDone _ _ => true
  | .memMarginDone _ => true
  | .memReleaseDone _ => true
  | .fwLoadDone => true
  | .rcvVerifyDone => true
  | .routeWriteDone => true
  | .endpointWriteDone => true
  | .spillRegionPlaced => true
  | .deviceResetRelease _ => true

end Sys2Proof
end

