-- ==== Sys2Proof/Machine/Mailbox.lean ====
section
/-! DEFINITION. How the Hearth takes up a command entry: the checks at its start, its argument block, its completion
(R350 to R360). -/

namespace Sys2Proof.Machine

/-! ### Status codes (R360) -/

def St.ok : Nat := 0x00
def St.badArgument : Nat := 0x01
def St.busy : Nat := 0x02
def St.expired : Nat := 0x03
def St.unknownOpcode : Nat := 0x04
def St.wrongRing : Nat := 0x05
def St.versionMismatch : Nat := 0x06
def St.halfUnpowered : Nat := 0x07
def St.hearthRestarted : Nat := 0x08
def St.memFault : Nat := 0x09
def St.testFailed : Nat := 0x0A
def St.refusedPermission : Nat := 0x0B
def St.quotaExceeded : Nat := 0x0C
def St.partitionRetiring : Nat := 0x0D
def St.tableFull : Nat := 0x0E
def St.tableSealed : Nat := 0x0F
def St.tableDraining : Nat := 0x10
def St.tableNotSealed : Nat := 0x11
def St.ctxInUse : Nat := 0x12
def St.ctxNotFound : Nat := 0x13
def St.stagingFull : Nat := 0x14
def St.epochStarted : Nat := 0x15
def St.arithFault : Nat := 0x16
def St.aborted : Nat := 0x17
def St.noSpare : Nat := 0x18
def St.noWavelength : Nat := 0x19
def St.meshFault : Nat := 0x1A
def St.budgetFail : Nat := 0x1B
def St.timeUnset : Nat := 0x1C
def St.lateRefused : Nat := 0x1D
def St.noStepPending : Nat := 0x1E
def St.imageInvalid : Nat := 0x1F
def St.rollbackRefused : Nat := 0x20
def St.fwReverted : Nat := 0x21
def St.lifecycleRefused : Nat := 0x22

/-- How a command ends: STATUS, DETAIL and RESULT words (R354). -/
structure Reply where
  status : Nat
  detail : Word
  result : List Word
  deriving DecidableEq, Repr

/-- The state a command leaves and its end, or none where it has detached (R355). -/
abbrev Res := State × Option Reply

/-- The command completes OK. -/
def cmdOk (s : State) : Res := (s, some { status := St.ok, detail := 0, result := [] })

/-- The command completes OK with result words. -/
def cmdOkWith (result : List Word) (s : State) : Res := (s, some { status := St.ok, detail := 0, result := result })

/-- The command is refused and has no effect (R360). (DEDUCED, log entry 19.) -/
def cmdRefuse (status : Nat) (detail : Nat) (s : State) : Res :=
  (s, some { status := status, detail := w32 detail, result := [] })

/-- A word of the argument block, counted from 1 as DETAIL counts it (R360). -/
def arg (args : List Word) (i : Nat) : Word := args.getD (i - 1) 0

/-- A number in one word of the block. (DESIGN CHOICE, log entry 17.) -/
def argN (args : List Word) (i : Nat) : Nat := (arg args i).toNat

/-- A number in two words of the block, low word first (R353). -/
def arg64 (args : List Word) (i : Nat) : Nat := argN args i + 2 ^ 32 * argN args (i + 1)

/-- A signed number in two words of the block. -/
def argI64 (args : List Word) (i : Nat) : Int := (BitVec.ofNat 64 (arg64 args i)).toInt

/-- `n` words of the block from word `i`. (DESIGN CHOICE, log entry 17.) -/
def argWords (args : List Word) (i n : Nat) : List Word := (List.range n).map fun k => arg args (i + k)

/-- A mailbox ring. -/
def theRing (s : State) (r : Nat) : Ring := tget s.hearth.rings {} r

/-- Changes a mailbox ring. -/
def modRing (r : Nat) (f : Ring → Ring) (s : State) : State :=
  s.modHearth fun h => { h with rings := tmod h.rings {} r f }

/-- IN_FLIGHT: CMD_TAIL − CPL_HEAD (R347). -/
def inFlight (r : Ring) : Nat := (r.cmdTail + 65536 - r.cplHead) % 65536

/-- PAUSED: fetching is paused by a firmware activation, or by AUX_ONLY on the Control and Bulk rings (R348, R368).
(DESIGN CHOICE, log entry 23.) -/
def ringPaused (s : State) (r : Nat) : Bool := s.hearth.switching || (auxOnly s && (r == 1 || r == 2))

/-- The opcodes of commands that do not detach though their effect takes until a later event: LANE_BANK, KILN_SWAP, FLUE_OPEN
and LANE_RESET (R355). -/
def holdsRing (op : Nat) : Bool := op == 0x0905 || op == 0x0907 || op == 0x0B01 || op == 0x0D0D

/-- Packets that the device has originated, of which a copy has not left it. -/
def pidsLeft (s : State) (pids : List Nat) : Bool :=
  s.core.barns.any fun e => (e.2.inPkts.any fun p => pids.contains p.info.pid) || e.2.stored.any fun x => pids.contains x.info.pid

/-- A PART_RETIRE detaches when its last ABORT copy has left (R355). (DESIGN CHOICE, log entry 114.) -/
def retireHolds (s : State) (c : CmdRef) : Bool := s.jobs.retiring.any fun x => x.cmd == some c && pidsLeft s x.pids

/-- The Hearth takes up the next entry of a ring: firmware serves, the ring is enabled and not paused, an entry is
visible, and no command of the ring is still at work without having detached (R355). (DESIGN CHOICE, log entry 6.) -/
def serves (s : State) (r : Nat) : Bool :=
  s.hearth.ready && !s.hearth.inReset && (theRing s r).en && !ringPaused s r &&
    (theRing s r).cmdHead != (theRing s r).cmdTail &&
    (match s.hearth.pendingReset with
     | some c => c.ring != r
     | none => true) &&
    !s.hearth.detached.any (fun d => d.cmd.ring == r && (holdsRing d.cmd.opcode || retireHolds s d.cmd) && !d.muted)

/-- The instant of the doorbell that made command `c` of a ring visible (R356). -/
def doorbellAt (g : Ring) (c : Nat) : Nat :=
  match g.doorbells.find? (fun d => decide ((d.1 + 65536 - c - 1) % 65536 < 256)) with
  | some d => d.2
  | none => 0

/-- One opcode of the index: OPCODE, the ring it is assigned to (4 for every ring) and whether it needs both halves
(R357, R358, R374). -/
structure CmdSpec where
  op : Nat
  ring : Nat
  halves : Bool
  deriving DecidableEq, Repr

/-- A deadline field that R352 allows: words that must be 0 are 0, a relative one is not 0, an absolute one is a time
value (R296). (DEDUCED, log entry 20.) -/
def deadlineFieldOk (h : CmdHdr) : Bool :=
  match h.dlMode.toNat with
  | 0 => h.m2 == 0 && h.m3 == 0 && h.m4 == 0
  | 1 => timeOk h.m4 && fld h.m3 23 16 == 0 && fld h.m4 31 30 == 0
  | 2 => h.m2 != 0 && h.m3 == 0 && h.m4 == 0
  | _ => false

/-- What the completion of the entry being taken up will repeat. (DESIGN CHOICE, log entry 142.) -/
def cmdRefOf (sp : CmdSpec) (h : CmdHdr) (s : State) : CmdRef :=
  let g := theRing s h.ring
  let ok := deadlineFieldOk h
  { serial := s.hearth.taken, opcode := sp.op, ring := h.ring, tag := h.tag.toNat, vector := h.vector.toNat, count := g.cmdHead,
    dlMode := if ok then h.dlMode.toNat else 0,
    deadline :=
      if !ok then 0
      else if h.dlMode = 1 then timeOf h.m2 h.m3 h.m4
      else if h.dlMode = 2 then doorbellAt g g.cmdHead + h.m2.toNat * 1000000
      else 0 }

/-- The deadline has passed (R356). -/
def deadlinePassed (c : CmdRef) (s : State) : Bool :=
  (c.dlMode == 1 && decide (c.deadline ≤ s.time.now)) || (c.dlMode == 2 && decide (c.deadline ≤ s.time.hearthPs))

/-- The interface version a ring's entries must carry: IF_ACTIVE, or the version in force on a LOCAL ring.
(DESIGN CHOICE, log entry 25.) -/
def activeVer (s : State) (g : Ring) : Option Nat :=
  if g.isLocal then some g.ver else if s.hearth.ifValid then some s.hearth.ifActive else none

/-- The checks at start, in the order of R357: the first status that applies, with its DETAIL.
(DEDUCED, log entries 20, 21; DESIGN CHOICE, log entry 139.) -/
def startCheck (sp : CmdSpec) (h : CmdHdr) (c : CmdRef) (s : State) : Option (Nat × Nat) :=
  if activeVer s (theRing s h.ring) ≠ some h.ifVer.toNat then some (St.versionMismatch, h.ifVer.toNat)
  else if sp.ring ≠ 4 ∧ sp.ring ≠ h.ring.val then some (St.wrongRing, sp.ring)
  else if h.reservedSet || !deadlineFieldOk h ||
      (match h.indirect with
       | none => false
       | some i => decide (i.argLen.toNat < 4 ∨ 4096 < i.argLen.toNat ∨ i.argLen.toNat % 4 ≠ 0 ∨ i.argPtr.toNat % 4 ≠ 0))
    then some (St.badArgument, 0)
  else if h.dlMode = 1 ∧ timeUnset s then some (St.timeUnset, 0)
  else if deadlinePassed c s then some (St.expired, 0)
  else if sp.halves && (!halfPowered s 0 || !halfPowered s 1) then
    some (St.halfUnpowered, bit (!halfPowered s 0) + 2 * bit (!halfPowered s 1))
  else if sp.halves && (!s.power.ready0 || !s.power.ready1) then
    some (St.busy, bit (!s.power.ready0) + 2 * bit (!s.power.ready1))
  else none

/-- The first word after the first `n` words of a direct block that is not 0, counted from 1. -/
def firstExtra (args : List Word) (n : Nat) : Option Nat :=
  ((List.range (args.length - n)).find? fun k => arg args (n + k + 1) != 0).map fun k => n + k + 1

/-- The length and padding checks of an argument block whose length by the rules of R353 is `n` words.
(DESIGN CHOICE, log entries 16, 17; DEDUCED, log entries 19, 20.) -/
def blockCheck (h : CmdHdr) (args : List Word) (n : Nat) : Option (Nat × Nat) :=
  match h.indirect with
  | none =>
    if 11 < n then some (St.badArgument, 0)
    else (firstExtra args n).map fun d => (St.badArgument, d)
  | some i => if args.length ≠ n ∨ i.restSet then some (St.badArgument, 0) else none

/-- Writes a completion entry (R354) and announces it (R346, R347). Nothing is written to a disabled ring. -/
def writeCompletion (c : CmdRef) (r : Reply) (s : State) : State :=
  let g := theRing s c.ring
  if g.en then
    let entry := wordsLe ([pack [(16, c.tag), (8, r.status), (7, bit (g.cplTail / 256 % 2 == 0)), (6, bit (deadlinePassed c s))],
      pack [(16, c.opcode), (0, c.count % 65536)], r.detail] ++ padTo 0 5 r.result)
    let addr := g.cplBase.toNat + 32 * (g.cplTail % 256)
    let s := if g.isLocal then localWrite addr entry s else hostWrite addr entry s
    let s := if r.status = St.expired then bump (ctr 0x14 0 4) s else s
    let s := if c.ring = 0 then s.modHearth fun h => { h with urgentPrev := s.time.hearthPs } else s
    raiseInt c.ring (if g.perVec then c.vector else g.vector)
      (modRing c.ring (fun g => { g with cplTail := (g.cplTail + 1) % 65536 }) s)
  else if r.status = St.expired then bump (ctr 0x14 0 4) s else s

/-- A command detaches: its completion is written when its work ends (R355). -/
def addDetached (c : CmdRef) (w : DetWork) (s : State) : State :=
  s.modHearth fun h => { h with detached := h.detached ++ [{ cmd := c, work := w, muted := false }],
                                urgentPrev := if c.ring = 0 then s.time.hearthPs else h.urgentPrev }

/-- The command detaches. (DESIGN CHOICE, log entry 22.) -/
def cmdDetach (c : CmdRef) (s : State) : Res := (addDetached c .none s, none)

/-- Ends a detached command. Nothing is written for a command that a Hearth reset has already answered.
(DESIGN CHOICE, log entry 22.) -/
def endDetached (c : CmdRef) (r : Reply) (s : State) : State :=
  match s.hearth.detached.find? (fun d => d.cmd == c) with
  | some d =>
    let s := s.modHearth fun h => { h with detached := h.detached.filter fun d => d.cmd != c }
    if d.muted then s else writeCompletion c r s
  | none => s

/-- Ends a detached command with a status. -/
def endWith (c : CmdRef) (status detail : Nat) (s : State) : State :=
  endDetached c { status := status, detail := w32 detail, result := [] } s

/-- The Hearth fetches the next entry of a ring: CMD_HEAD advances and used-up doorbells are dropped (R351).
(DESIGN CHOICE, log entry 16.) -/
def fetchEntry (r : Nat) (s : State) : State :=
  let g := theRing s r
  let head := (g.cmdHead + 1) % 65536
  let delay := (s.time.hearthPs - Nat.max (doorbellAt g g.cmdHead) s.hearth.urgentPrev) / 1000000
  let s := (modRing r (fun g => { g with cmdHead := head, doorbells := g.doorbells.filter fun d => d.1 != head }) s).modHearth
    fun h => { h with taken := h.taken + 1 }
  if r = 0 then s.modHearth fun h => { h with urgentMax := sat 255 (Nat.max h.urgentMax delay) } else s

/-- The Hearth takes up one command entry: fetch, checks at start, block checks, the command's own work, completion.
Where the ring is not being served the entry is not taken up. `len` gives the length of the block in words. -/
def mailbox (sp : CmdSpec) (len : List Word → Nat) (body : CmdRef → State → Res) (h : CmdHdr) (args : List Word)
    (s : State) : State :=
  if serves s h.ring then
    let c := cmdRefOf sp h s
    let s := fetchEntry h.ring s
    match startCheck sp h c s with
    | some (st, d) => writeCompletion c { status := st, detail := w32 d, result := [] } s
    | none =>
      match blockCheck h args (len args) with
      | some (st, d) => writeCompletion c { status := st, detail := w32 d, result := [] } s
      | none =>
        match body c s with
        | (t, some r) => writeCompletion c r t
        | (t, none) => t
  else s

/-- A command entry whose block is no block of any entry is no command. (DESIGN CHOICE, log entries 5, 6.) -/
def runMailbox (sp : CmdSpec) (len : List Word → Nat) (body : CmdRef → State → Res) (h : CmdHdr) (args : List Word)
    (s : State) : Host.Outcome State Fault Refusal :=
  if h.argsOk args then .next (mailbox sp len body h args s) else .refused .illFormed

end Sys2Proof.Machine
end

