-- ==== Sys2Proof/Machine/Counters.lean ====
section
/-! DEFINITION. Counters, the Tally and sampled tracing (R397 to R409). -/

namespace Sys2Proof.Machine

/-- The counter blocks: kind, instances, counters each (R399). -/
def blocks : List (Nat × Nat × Nat) :=
  [(0x01, 16, 64), (0x02, 16, 64), (0x03, 16, 64), (0x04, 16, 64), (0x05, 16, 64), (0x06, 16, 64), (0x07, 16, 64),
   (0x08, 16, 32), (0x09, 4, 32), (0x0A, 2, 32), (0x0B, 2, 32), (0x0C, 8, 64), (0x0D, 8, 32), (0x0E, 2, 32),
   (0x0F, 2, 32), (0x10, 2, 32), (0x11, 1, 32), (0x12, 1, 32), (0x13, 1, 64), (0x14, 1, 32)]

/-- The counter words of a kind's blocks, in order of instance and index (R404). -/
def blockBody (s : State) (b : Nat × Nat × Nat) : List Byte :=
  (List.range b.2.1).flatMap fun i => (List.range b.2.2).flatMap fun k => leBytes 8 (counter s (ctr b.1 i k)).toNat

/-- The blocks that a KIND_MASK selects. -/
def chosenBlocks (mask : Word) : List (Nat × Nat × Nat) := blocks.filter fun b => bitAt mask b.1

/-- COUNT of a dump record (R404). -/
def bodyCount (mask : Word) : Nat := ((chosenBlocks mask).map fun b => b.2.1 * b.2.2).sum

/-- The length of a dump record and of its slot (R404, R405). -/
def recordLen (mask : Word) : Nat := 72 + 8 * bodyCount mask
def slotLen (mask : Word) : Nat := (recordLen mask + 4095) / 4096 * 4096

/-- The body of a dump record: the counter words of the chosen kinds as they stand (R404). -/
def dumpBody (mask : Word) (s : State) : List Byte := (chosenBlocks mask).flatMap fun b => blockBody s b

/-- The dump record of a latch (R404). (DESIGN CHOICE, log entry 129.) -/
def dumpRecord (l : Latch) (mask : Word) : List Byte :=
  let head := wordsLe ([pack [(16, 1), (0, l.tag)], w32 l.seq] ++ timeWords l.start ++
    [pack [(29, l.trigger.toNat), (21, l.windowNs), (17, l.flags)], mask, w32 (bodyCount mask), w32 l.lost] ++
    List.replicate 7 0)
  let body := head ++ l.body
  body ++ leBytes 4 l.seq ++ leBytes 4 (crc32 body)

/-- A latch that is starting merges with one whose window is still open (R403). (DESIGN CHOICE, log entry 129.) -/
def merges (s : State) : Option Latch :=
  s.count.tally.last.filter fun l => decide (l.start ≤ s.time.now) && decide (s.time.now < l.start + nsU l.windowNs)

/-- Writes the record of a latch into its slot. (DESIGN CHOICE, log entry 129.) -/
def putDump (l : Latch) (s : State) : State :=
  let t := s.count.tally
  ringPut t.target (l.seq % t.slots * slotLen t.kindMask) (dumpRecord l t.kindMask) s

/-- The latched sets that still wait to be written: of those whose writing may not have ended, which have been written is a free
value; a record for the host is written within 20 µs of the end of its window (R403, R405). (DESIGN CHOICE, log entry 129.) -/
def waitingSets (s : State) : List Nat :=
  let open_ := s.count.tally.waiting.filter fun e =>
    match s.count.tally.target with
    | .host _ => decide (s.time.now < e + usU 20)
    | _ => true
  (open_.zipIdx.filter fun x => Config.freeValue (s.free + x.2) % 2 == 1).map Prod.fst

/-- Changes the Tally. (DESIGN CHOICE, log entry 129.) -/
def modTally (f : Tally → Tally) (s : State) : State := s.modCount fun c => { c with tally := f c.tally }

/-- The capture of a latch shows the TAG in force while its record has not been delivered (R402, R403).
(DESIGN CHOICE, log entry 129.) -/
def retag (l : Latch) (s : State) : State :=
  s.modTime fun t =>
    { t with store := t.store.map fun c => if c.source = 22 ∧ c.stamp = l.capStamp then { c with detail := l.tag } else c }

/-- A trigger falls within the window of a latch: the record shows it and keeps the samples of its latch (R403).
(DESIGN CHOICE, log entry 129.) -/
def mergeInto (l : Latch) (trigger : BitVec 3) (tag tagFrom : Nat) (s : State) : State :=
  let better := decide (tagFrom < l.tagFrom)
  let l' := { l with trigger := l.trigger ||| trigger, tag := if better then tag else l.tag,
                     tagFrom := if better then tagFrom else l.tagFrom }
  let s := retag l' (modTally (fun t => { t with last := some l' }) s)
  if l.written then putDump l' s else s

/-- A trigger that finds both sets waiting to be written starts no latch (R403). (DESIGN CHOICE, log entry 129.) -/
def latchLost (w : List Nat) (s : State) : State :=
  bump (ctr 0x14 0 9) (modTally (fun t => { t with waiting := w, last := none, lost := sat (2 ^ 32 - 1) (t.lost + 1) }) s)

/-- A latch starts: it samples the counters and is captured; the set of a disabled Tally is discarded and counted (R402 to R404).
(DESIGN CHOICE, log entry 129.) -/
def latchNew (start : Nat) (trigger : BitVec 3) (tag tagFrom : Nat) (w : List Nat) (s : State) : State :=
  let t := s.count.tally
  let l : Latch :=
    { start := start, windowNs := 1 + freeBelow s 200, trigger := trigger, tag := tag, tagFrom := tagFrom, seq := t.seq,
      written := t.enabled, flags := t.flags.toNat + 8 * bit (timeUnset s), lost := t.lost,
      body := if t.enabled then dumpBody t.kindMask s else [], capStamp := start + freeBelow s.tookFree 5121 }
  let s := captureAt 22 tag l.capStamp s.tookFree.tookFree
  if t.enabled then
    bump (ctr 0x14 0 8) (modTally (fun t =>
      { t with seq := (t.seq + 1) % 2 ^ 32, lost := 0, flags := 0, last := some l,
               waiting := w ++ [start + nsU l.windowNs] }) (putDump l s))
  else
    bump (ctr 0x14 0 9) (modTally (fun t =>
      { t with last := some l, waiting := w, lost := sat (2 ^ 32 - 1) (t.lost + 1) }) s)

/-- A trigger of the Tally: bit 0 periodic, 1 command, 2 kindling. It merges into an open window, finds both sets waiting, or starts
a latch (R402, R403, R405). (DESIGN CHOICE, log entry 129.) -/
def latchAt (start : Nat) (trigger : BitVec 3) (tag tagFrom : Nat) (s : State) : State :=
  match merges s with
  | some l => mergeInto l trigger tag tagFrom s
  | none =>
    let w := waitingSets s
    if 2 ≤ w.length then latchLost w (s.tookMany 2) else latchNew start trigger tag tagFrom w (s.tookMany 2)

/-- A trigger at the present instant. (DESIGN CHOICE, log entries 48, 129.) -/
def latch (trigger : BitVec 3) (tag tagFrom : Nat) (s : State) : State := latchAt s.time.now trigger tag tagFrom s

/-- Notes an event that the next dump's FLAGS shows: bit 0 H0 reset, 1 H1 reset, 2 time step (R404). -/
def tallyFlag (i : Nat) (s : State) : State :=
  s.modCount fun c => { c with tally := { c.tally with flags := c.tally.flags ||| (1#3 <<< i) } }

/-- The Granary ring of the Tally or of tracing lies in a window. -/
def ringIn (s : State) (t : RingTarget) (i : Nat) : Bool :=
  match t with
  | .granary p o => (windowAt s o).any fun w => w.1 == i && w.2.partition == p
  | _ => false

/-- Retirement of a partition stops writing to a ring in one of its windows (R405, R408). -/
def stopRings (p : Nat) (s : State) : State :=
  let own (t : RingTarget) : Bool := match t with
    | .granary q _ => q == p
    | _ => false
  let s := if own s.count.tally.target then
      s.modCount fun c => { c with tally := { c.tally with enabled := false, target := .off } } else s
  if own s.count.trace.target then
    s.modCount fun c => { c with trace := { c.trace with enabled := false, target := .off } } else s

/-- Zeroes every counter that passes a test on kind and instance. -/
def clearCounters (test : Nat → Nat → Bool) (s : State) : State :=
  s.modCount fun c =>
    { c with counters := c.counters.filter fun e => !test (e.1 / 2 ^ 24) (e.1 / 2 ^ 16 % 256) }

/-- The counters that a half reset zeroes (R401). -/
def halfCounters (h kind inst : Nat) : Bool :=
  (decide (1 ≤ kind ∧ kind ≤ 8) && inst / 8 == h) || ((kind == 0x0C || kind == 0x0D) && inst / 4 == h) ||
  ((kind == 0x0A || kind == 0x0B || kind == 0x0E || kind == 0x0F || kind == 0x10) && inst == h)

/-! ### Commands (R409) -/

/-- The length in words of a target's form, whose selector is word `i`: host address, or partition and offset. -/
def targetLen (args : List Word) (i : Nat) : Nat := if argN args i = 0 then 2 else 3

/-- A ring target: its form and whether it is in range; a Granary ring of `n` bytes lies in one window that admits
writes (R405), of a partition that is not retiring (R329). Answers the target, or the status and the word at fault. -/
def ringTarget (s : State) (args : List Word) (i n : Nat) : Except (Nat × Nat) RingTarget :=
  match argN args i with
  | 0 => if arg64 args (i + 1) % 4096 = 0 then .ok (.host (arg64 args (i + 1))) else .error (St.badArgument, i + 1)
  | 1 =>
    let p := argN args (i + 1)
    let o := arg64 args (i + 2)
    if 4095 < p ∨ p = 0 then .error (St.badArgument, i + 1)
    else if o % 4096 ≠ 0 then .error (St.badArgument, i + 2)
    else if (thePart s p).state = 2 then .error (St.partitionRetiring, 0)
    else if (windowFor s p o n false true).isSome then .ok (.granary p o) else .error (St.refusedPermission, 0)
  | _ => .error (St.badArgument, i)

/-- TALLY_CONFIG (R402, R405, R409). -/
def tallyConfig (args : List Word) (s : State) : Res :=
  let slots := argN args (6 + targetLen args 5)
  if 1 < argN args 1 then cmdRefuse St.badArgument 1 s
  else if argN args 2 < 10 ∨ 10000000 < argN args 2 then cmdRefuse St.badArgument 2 s
  else if (arg args 3) &&& 0xFFE00001#32 ≠ 0 then cmdRefuse St.badArgument 3 s
  else if 255 < argN args 4 then cmdRefuse St.badArgument 4 s
  else if slots < 2 ∨ 65536 < slots then cmdRefuse St.badArgument (6 + targetLen args 5) s
  else match ringTarget s args 5 (slots * slotLen (arg args 3)) with
    | .error (st, d) => cmdRefuse st d s
    | .ok target =>
      cmdOk (s.modCount fun c =>
        let t := c.tally
        let again := !t.enabled || t.target != target || t.kindMask != arg args 3
        { c with tally :=
            { t with enabled := argN args 1 == 1, periodUs := argN args 2, kindMask := arg args 3,
                     policeMask := BitVec.ofNat 8 (argN args 4), target := target, slots := slots,
                     seq := if again then 0 else t.seq, last := none } })

/-- TALLY_LATCH: latches at once; SEQ and LATCH_START of the latch that served it, free values where its trigger was lost (R402,
R403, R409). TAG is the low half of its word. (DESIGN CHOICE, log entry 129.) -/
def tallyLatch (args : List Word) (s : State) : Res :=
  let s := latch 2 (argN args 1 % 65536) 256 s
  match s.count.tally.last with
  | some l => cmdOkWith (w32 l.seq :: timeWords l.start) s
  | none => cmdOkWith ((List.range 4).map fun i => w32 (Config.freeValue (s.free + i))) (s.tookMany 4)

/-- The block of a COUNTER_ID and its number of counters. -/
def blockOf (id : Nat) : Option (Nat × Nat × Nat) :=
  blocks.find? fun b => b.1 == id / 2 ^ 24 && decide (id / 2 ^ 16 % 256 < b.2.1)

/-- A COUNTER_ID names a counter (R398, R399). -/
def idOk (id : Nat) : Bool :=
  match blockOf id with
  | some b => decide (id % 64 < b.2.2)
  | none => false

/-- A range of counters stays within the first counter's block (R409). -/
def rangeOk (id n : Nat) : Bool :=
  match blockOf id with
  | some b => decide (1 ≤ n ∧ n ≤ 64 ∧ id % 64 + n ≤ b.2.2)
  | none => false

/-- COUNTER_READ (R409): a list of 1 to 510 ranges, then the host address. (DESIGN CHOICE, log entry 139.) -/
def counterRead (args : List Word) (s : State) : Res :=
  let n := argN args 1
  if n < 1 ∨ 510 < n then cmdRefuse St.badArgument 1 s
  else match (List.range n).find? fun i => !rangeOk (argN args (2 + 2 * i)) (argN args (3 + 2 * i)) with
    | some i => cmdRefuse St.badArgument (if idOk (argN args (2 + 2 * i)) then 3 + 2 * i else 2 + 2 * i) s
    | none =>
      let bytes := (List.range n).flatMap fun i =>
        let id := argN args (2 + 2 * i)
        (List.range (argN args (3 + 2 * i))).flatMap fun k =>
          leBytes 8 (counter s (ctr (id / 2 ^ 24) (id / 2 ^ 16 % 256) (id % 64 + k))).toNat
      cmdOk (hostWrite (arg64 args (2 + 2 * n)) bytes s)

/-- TRACE_CONFIG (R406, R408, R409). -/
def traceConfig (args : List Word) (s : State) : Res :=
  let slots := argN args (7 + targetLen args 6)
  if 1 < argN args 1 then cmdRefuse St.badArgument 1 s
  else if argN args 2 < 8 ∨ 24 < argN args 2 then cmdRefuse St.badArgument 2 s
  else if 255 < argN args 3 then cmdRefuse St.badArgument 3 s
  else if 65535 < argN args 4 then cmdRefuse St.badArgument 4 s
  else if slots < 1024 ∨ 16777216 < slots then cmdRefuse St.badArgument (7 + targetLen args 6) s
  else match ringTarget s args 6 (slots * 64) with
    | .error (st, d) => cmdRefuse st d s
    | .ok target =>
      cmdOk (s.modCount fun c =>
        let t := c.trace
        { c with trace :=
            { enabled := argN args 1 == 1, logN := argN args 2, classMask := BitVec.ofNat 8 (argN args 3),
              barnMask := BitVec.ofNat 16 (argN args 4), seed := arg args 5, target := target, slots := slots, recent := t.recent,
              seq := if t.enabled && t.target == target then t.seq else 0 } })

/-- TALLY_CONFIG. -/
def execTallyConfig (h : CmdHdr) (args : List Word) (s : State) : Host.Outcome State Fault Refusal :=
  runMailbox ⟨0x1001, 1, true⟩ (fun a => 6 + targetLen a 5) (fun _ s => tallyConfig args s) h args s

/-- TALLY_LATCH. -/
def execTallyLatch (h : CmdHdr) (args : List Word) (s : State) : Host.Outcome State Fault Refusal :=
  runMailbox ⟨0x1002, 1, true⟩ (fun _ => 1) (fun _ s => tallyLatch args s) h args s

/-- COUNTER_READ. -/
def execCounterRead (h : CmdHdr) (args : List Word) (s : State) : Host.Outcome State Fault Refusal :=
  runMailbox ⟨0x1003, 3, true⟩ (fun a => 1 + 2 * argN a 1 + 2) (fun _ s => counterRead args s) h args s

/-- TRACE_CONFIG. -/
def execTraceConfig (h : CmdHdr) (args : List Word) (s : State) : Host.Outcome State Fault Refusal :=
  runMailbox ⟨0x1004, 1, true⟩ (fun a => 7 + targetLen a 6) (fun _ s => traceConfig args s) h args s

/-- The instant of a periodic latch that device time has reached within its last reference cycle, a multiple of PERIOD_US, and
that has not had its latch (R402). A skipped instant is never reached so (R309). (DESIGN CHOICE, log entry 129.) -/
def periodDue (s : State) : Option Nat :=
  let p := usU s.count.tally.periodUs
  let m := s.time.now / p * p
  if timeUnset s ∨ reached s m = false ∨ s.count.tally.lastPer = some m then none else some m

/-- A periodic latch of the Tally; none runs while the time state is UNSET (R402). (DESIGN CHOICE, log entry 129.) -/
def periodicLatch (s : State) : State :=
  match periodDue s with
  | none => s
  | some m => latchAt m 1 0 257 (s.modCount fun c => { c with tally := { c.tally with lastPer := some m } })

/-- TALLY_PERIODIC_LATCH. -/
def execTallyPeriodicLatch (s : State) : Host.Outcome State Fault Refusal := .next (periodicLatch s)

end Sys2Proof.Machine
end

