-- ==== Sys2Proof/Machine/CtxBase.lean ====
section
/-! DEFINITION. The fields of a collective context and of a Kindling entry, and what a partition is charged (R132, R137,
R199, R313, R324). -/

namespace Sys2Proof.Machine

/-! ### Context fields (R132) -/

/-- A collective context. -/
def theCtx (s : State) (c : Nat) : Ctx := tget s.coll {} c

/-- Changes a collective context. -/
def modCtx (c : Nat) (f : Ctx → Ctx) (s : State) : State := s.modColl fun t => tmod t {} c f

/-- A word of a context's descriptor. -/
def dw (x : Ctx) (i : Nat) : Word := x.desc.getD i 0

def ctxPartition (x : Ctx) : Nat := fld (dw x 0) 19 8
def ctxTc (x : Ctx) : Nat := fld (dw x 0) 7 5
def ctxGated (x : Ctx) : Bool := bitAt (dw x 0) 4
/-- OUT_MODE: 0 MULTICAST, 1 ACCUMULATE, 2 RELAY, 3 RETURN. -/
def ctxOut (x : Ctx) : Nat := fld (dw x 0) 3 2
/-- S in bytes. -/
def ctxS (x : Ctx) : Nat := 1024 * 2 ^ fld (dw x 0) 1 0
def ctxOp (x : Ctx) : Nat := fld (dw x 1) 31 28
def ctxInType (x : Ctx) : Nat := fld (dw x 1) 27 24
def ctxOutType (x : Ctx) : Nat := fld (dw x 1) 23 20
def ctxStochastic (x : Ctx) : Bool := bitAt (dw x 1) 19
def ctxWinnow (x : Ctx) : Nat := fld (dw x 1) 18 16
def ctxStageDepth (x : Ctx) : Nat := fld (dw x 1) 15 9
def ctxCount (x : Ctx) : Nat := fld (dw x 2) 10 0
/-- N, the sheaves of one epoch. -/
def ctxN (x : Ctx) : Nat := (dw x 3).toNat + 1
def ctxTree (x : Ctx) : Nat := fld (dw x 4) 31 18
def ctxScale (x : Ctx) : Word := dw x 5
def ctxSeed (x : Ctx) : Nat := (dw x 6).toNat + 2 ^ 32 * (dw x 7).toNat
def ctxRetainUs (x : Ctx) : Nat := (dw x 8).toNat
def ctxRetSlots (x : Ctx) : Nat := fld (dw x 9) 31 12
def ctxTuFirst (x : Ctx) : Nat := fld (dw x 9) 11 6
/-- The units of the placement, 2^TU_SPAN. -/
def ctxSpan (x : Ctx) : Nat := 2 ^ fld (dw x 9) 5 3
def ctxAccAddr (x : Ctx) : Nat := (dw x 10).toNat + 2 ^ 32 * (dw x 11).toNat
def ctxStallUs (x : Ctx) : Nat := (dw x 12).toNat
def ctxUpDst (x : Ctx) : Nat := fld (dw x 16) 31 8
def ctxUpCtx (x : Ctx) : Nat := fld (dw x 17) 31 20
def ctxUpMember (x : Ctx) : Nat := fld (dw x 17) 19 10
/-- D = min(STAGE_DEPTH, N) (R137). -/
def ctxDepth (x : Ctx) : Nat := Nat.min (ctxStageDepth x) (ctxN x)
/-- The retention space in bytes; ACCUMULATE keeps no results (R144, R199). -/
def ctxRetSpace (x : Ctx) : Nat := if ctxOut x = 1 then 0 else ctxRetSlots x * (ctxS x + 768)
/-- The staging store in bytes (R198). -/
def ctxStageStore (x : Ctx) : Nat := ctxDepth x * ctxCount x * ctxS x
/-- The context is not FREE. -/
def ctxUsed (x : Ctx) : Bool := x.state != .free

/-- Bytes of the pool that a spill area and its descriptors take (R197). -/
def spillBytes (g : Nat) : Nat := g * gib + g * gib / 32

/-! ### Places in the device pool (R196 to R199)

The pool is laid out in rows of eight granules, one on each stack (R190). An allocation takes granules of whole rows on the
stacks of its placement only. -/

/-- The stacks beside which the units of a placement sit, in their order (R198, R199). -/
def ctxStacks (x : Ctx) : List Nat := ((List.range (ctxSpan x)).map fun i => (ctxTuFirst x + i) % 64 / 8).dedup

/-- An area of the pool: its stacks, its first row, and its rows. -/
structure PoolArea where
  onStacks : List Nat
  row : Nat
  rows : Nat
  deriving DecidableEq, Repr

/-- The rows that a number of bytes takes on some stacks. -/
def rowsFor (st : List Nat) (n : Nat) : Nat := (n + 4096 * st.length - 1) / (4096 * st.length)

/-- The spill settings of the CORE_SPILLs that have not completed (R112). -/
def pendingSpills (s : State) : List (Nat × BitVec 8) :=
  s.hearth.detached.filterMap fun d => match d.work with
    | .spill g m => some (g, m)
    | _ => none

/-- GiB of spill that the pool must hold: in force, or asked for. -/
def spillWanted (s : State) : Nat := (pendingSpills s).foldl (fun n e => Nat.max n e.1) s.core.spillGib

/-- The rows of the pool below a spill area of `g` GiB with its descriptors (R197). -/
def poolRows (s : State) (g : Nat) : Nat := (s.mem.poolGib * gib - spillBytes g) / 32768

/-- The areas of a context: its staging store and its retention space. -/
def ctxAreas (x : Ctx) : List PoolArea :=
  (x.storeRow.toList.map fun r => ⟨ctxStacks x, r, rowsFor (ctxStacks x) (ctxStageStore x)⟩) ++
    x.retRow.toList.map fun r => ⟨ctxStacks x, r, rowsFor (ctxStacks x) (ctxRetSpace x)⟩

/-- Every area of the pool that a context holds. -/
def poolAreas (s : State) : List PoolArea := (s.coll.filter fun e => ctxUsed e.2).flatMap fun e => ctxAreas e.2

/-- Two areas share a granule. -/
def PoolArea.clashes (a b : PoolArea) : Bool :=
  a.onStacks.any (fun t => b.onStacks.contains t) && decide (a.row < b.row + b.rows ∧ b.row < a.row + a.rows)

/-- The lowest row where an area fits beside others below a row (R198, R199). (DESIGN CHOICE, log entry 158.) -/
def placeRow (held : List PoolArea) (limit : Nat) (st : List Nat) (rows : Nat) : Option Nat :=
  ((0 :: held.map fun a => a.row + a.rows).filter fun r =>
    decide (r + rows ≤ limit) && held.all fun a => !a.clashes ⟨st, r, rows⟩).min?

/-- The address of a byte of an area: granules go in rows over its stacks (R190, R199). -/
def areaAddr (s : State) (a : PoolArea) (k : Nat) : Nat :=
  let g := k / 4096
  poolBase s + 32768 * (a.row + g / a.onStacks.length) + 4096 * a.onStacks.getD (g % a.onStacks.length) 0 + k % 4096

/-- A spill area of `g` GiB fits: its place at the top of the pool holds no allocation (R197).
(DESIGN CHOICE, log entry 158.) -/
def spillFits (s : State) (g : Nat) : Bool :=
  decide (spillBytes g ≤ s.mem.poolGib * gib) && (poolAreas s).all fun a => decide (a.row + a.rows ≤ poolRows s g)

/-- The record of a retained result, 768 bytes: CRC-64, TALLY, sheaf number, epoch and release stamp in 32 bytes, the
acknowledgement bitmap, two bits of NAK count for each member, the delivered mask, and reserved bytes (R199).
(DESIGN CHOICE, log entry 158.) -/
def retRecord (r : Retained) : List Byte :=
  leBytes 8 r.crc.toNat ++ leBytes 4 r.tally.toNat ++ leBytes 4 r.sheaf ++ leBytes 4 r.epoch ++ leBytes 12 r.releasedAt ++
  leBytes 128 (r.acked.foldl (fun n m => n ||| 2 ^ m) 0) ++
  leBytes 256 (r.naks.foldl (fun n e => n + Nat.min 3 e.2 * 4 ^ e.1) 0) ++
  leBytes 128 r.delivered.toNat ++ List.replicate 224 0

/-- Where a retention slot begins: its result, then its record (R199). -/
def retSlotAddr (s : State) (x : Ctx) (slot : Nat) : Option Nat :=
  x.retRow.map fun r => areaAddr s ⟨ctxStacks x, r, rowsFor (ctxStacks x) (ctxRetSpace x)⟩ (slot * (ctxS x + 768))

/-- Splits a range of bytes where it meets a multiple of 4,096. (DESIGN CHOICE, log entry 76.) -/
def pieces (n a : Nat) (bytes : List Byte) : List (Nat × List Byte) :=
  match n with
  | 0 => []
  | n + 1 =>
    if bytes = [] then []
    else
      let k := 4096 - a % 4096
      (a, bytes.take k) :: pieces n (a + k) (bytes.drop k)

/-- Bytes of an area are written from byte `k` on, granule by granule (R190, R199). -/
def areaWrite (a : PoolArea) (k : Nat) (bytes : List Byte) (s : State) : State :=
  (pieces (bytes.length / 4096 + 2) k bytes).foldl (fun s p => daWrite (areaAddr s a p.1) p.2 s) s

/-- A retained result of a context is laid into its slot of the retention space, with its record (R199).
(DESIGN CHOICE, log entry 158.) -/
def storeRet (c g : Nat) (s : State) : State :=
  let x := theCtx s c
  match x.retained.find? fun r => r.index == g, x.retRow with
  | some r, some row =>
    areaWrite ⟨ctxStacks x, row, rowsFor (ctxStacks x) (ctxRetSpace x)⟩ (r.slot * (ctxS x + 768))
      (padTo 0 (ctxS x) r.payload ++ retRecord r) s
  | _, _ => s

/-- The retention slot that a result takes: the lowest that holds none (R199). (DESIGN CHOICE, log entry 158.) -/
def freeRetSlot (x : Ctx) : Nat :=
  ((List.range (x.retained.length + 1)).find? fun i => !x.retained.any fun r => r.slot == i).getD x.retained.length

/-! ### Kindling entry fields (R313) -/

/-- A Kindling entry. -/
def theK (s : State) (e : Nat) : KEntry := tget s.kindle {} e

/-- Changes a Kindling entry. -/
def modK (e : Nat) (f : KEntry → KEntry) (s : State) : State := s.modKindle fun t => tmod t {} e f

/-- A word of an entry's image. -/
def kw (k : KEntry) (i : Nat) : Word := k.image.getD i 0

def kAction (k : KEntry) : Nat := fld (kw k 0) 31 28
def kRefuseLate (k : KEntry) : Bool := bitAt (kw k 0) 27
def kPartition (k : KEntry) : Nat := fld (kw k 0) 11 0
/-- T; FRAC is ignored. -/
def kLaunch (k : KEntry) : Nat := timeOf (kw k 1) (kw k 2) (kw k 3) / 256 * 256
/-- PERIOD in ns; 0 is one-shot. -/
def kPeriod (k : KEntry) : Nat := (kw k 4).toNat + 2 ^ 32 * fld (kw k 5) 7 0
def kRepeat (k : KEntry) : Nat := fld (kw k 5) 31 16
def kArg (k : KEntry) : Word := kw k 6
def kArg2 (k : KEntry) : Word := kw k 7

/-! ### Charges (R324) -/

/-- The retirement of a partition, if it is retiring. -/
def retiringOf (s : State) (p : Nat) : Option Retire := s.jobs.retiring.find? fun r => r.partition == p

/-- MiB that cover a number of bytes. (DEDUCED, log entry 116.) -/
def mibs (n : Nat) : Nat := (n + mib - 1) / mib

/-- Contexts charged to a partition. -/
def chargedContexts (s : State) (p : Nat) : Nat :=
  (s.coll.filter fun e => ctxUsed e.2 && ctxPartition e.2 == p).length

/-- Trees charged to a partition. -/
def chargedTrees (s : State) (p : Nat) : Nat :=
  (s.routing.trees.filter fun e => e.2.valid && e.2.partition == p).length

/-- Kindling entries charged to a partition. -/
def chargedKindle (s : State) (p : Nat) : Nat :=
  (s.kindle.filter fun e => e.2.armed && kPartition e.2 == p).length

/-- A context whose retention space a scrub already accounts for. -/
def scrubbing (s : State) (p ctx : Nat) : Bool :=
  (retiringOf s p).any fun r => r.ranges.any fun x => x.ctx == some ctx

/-- The stacks of a range in a half. -/
def ScrubRange.stacksIn (x : ScrubRange) (half : Nat) : List Nat := x.onStacks.filter fun t => t / 4 == half

/-- The granules of a range that lie on the stacks of a half (R190). (DESIGN CHOICE, log entry 115.) -/
def granulesIn (x : ScrubRange) (half : Nat) : Nat :=
  let g := (x.size + 4095) / 4096
  g / x.onStacks.length * (x.stacksIn half).length +
    ((x.onStacks.take (g % x.onStacks.length)).filter fun t => t / 4 == half).length

/-- A scrub has zeroed the whole range (R330). (DESIGN CHOICE, log entry 115.) -/
def scrubbed (x : ScrubRange) : Bool := x.done0 == granulesIn x 0 && x.done1 == granulesIn x 1

/-- MiB of a partition's ranges that its scrub has not zeroed whole: what is charged for them.
(DESIGN CHOICE, log entry 115.) -/
def scrubMib (s : State) (p : Nat) : Nat :=
  match retiringOf s p with
  | some r => ((r.ranges.filter fun x => !scrubbed x).map fun x => mibs x.size).sum
  | none => 0

/-- The Granary charge of a partition in MiB: valid windows, retention spaces, and ranges still to be zeroed. -/
def chargedGran (s : State) (p : Nat) : Nat :=
  ((s.mem.windows.filter fun e => e.2.valid && e.2.partition == p).map fun e => mibs e.2.size).sum +
  ((s.coll.filter fun e => ctxUsed e.2 && ctxPartition e.2 == p && !scrubbing s p e.1).map fun e => mibs (ctxRetSpace e.2)).sum +
  scrubMib s p

/-- A charge and its limit: 0 contexts, 1 trees, 2 kindling, 3 Granary. -/
def chargeOf (s : State) (p res : Nat) : Nat :=
  match res with
  | 0 => chargedContexts s p
  | 1 => chargedTrees s p
  | 2 => chargedKindle s p
  | _ => chargedGran s p

/-- The limit of a resource. -/
def limitOf (q : Part) (res : Nat) : Nat :=
  match res with
  | 0 => q.maxContexts
  | 1 => q.maxTrees
  | 2 => q.maxKindle
  | _ => q.maxGranMib

/-- The quota status of an allocation of `n` more of a resource, if it is refused: the status and its DETAIL (R324). -/
def quotaRefusal (s : State) (p res n : Nat) : Option (Nat × Nat) :=
  if p = 0 then none
  else if (thePart s p).state = 2 then some (0x0D, res)
  else if (thePart s p).state ≠ 1 ∨ limitOf (thePart s p) res < chargeOf s p res + n then some (0x0C, res)
  else none

end Sys2Proof.Machine
end

