-- ==== Sys2Proof/Machine/Float.lean ====
section
/-! DEFINITION. The number formats and the exact arithmetic of the threshing units: each operation is computed exactly
and rounded once (R160 to R171). -/

namespace Sys2Proof.Machine

/-! ### Formats (R160) -/

/-- A floating-point format: element bits, fraction bits, the exponent of the least subnormal, the magnitude of the
largest finite value as an encoding, that of infinity if it has one, and the least magnitude that encodes a NaN. -/
structure Fmt where
  bits : Nat
  frac : Nat
  lsb : Int
  maxMag : Nat
  inf : Option Nat
  nanFrom : Nat
  nan : Nat
  deriving DecidableEq, Repr

def fmt32 : Fmt :=
  { bits := 32, frac := 23, lsb := -149, maxMag := 0x7F7FFFFF, inf := some 0x7F800000, nanFrom := 0x7F800001, nan := 0x7FC00000 }
def fmt64 : Fmt :=
  { bits := 64, frac := 52, lsb := -1074, maxMag := 0x7FEFFFFFFFFFFFFF, inf := some 0x7FF0000000000000,
    nanFrom := 0x7FF0000000000001, nan := 0x7FF8000000000000 }

/-- The format of a type code of R133; the integer codes have none and read as FP32 here. -/
def fmtOf (code : Nat) : Fmt :=
  match code with
  | 1 => { bits := 16, frac := 7, lsb := -133, maxMag := 0x7F7F, inf := some 0x7F80, nanFrom := 0x7F81, nan := 0x7FC0 }
  | 2 => { bits := 16, frac := 10, lsb := -24, maxMag := 0x7BFF, inf := some 0x7C00, nanFrom := 0x7C01, nan := 0x7E00 }
  | 3 => { bits := 8, frac := 3, lsb := -9, maxMag := 0x7E, inf := none, nanFrom := 0x7F, nan := 0x7F }
  | 4 => { bits := 8, frac := 2, lsb := -16, maxMag := 0x7B, inf := some 0x7C, nanFrom := 0x7D, nan := 0x7E }
  | 5 => { bits := 8, frac := 3, lsb := -9, maxMag := 0x7E, inf := none, nanFrom := 0x7F, nan := 0x7F }
  | 6 => { bits := 8, frac := 2, lsb := -16, maxMag := 0x7B, inf := none, nanFrom := 0x7C, nan := 0x7E }
  | 7 => { bits := 6, frac := 3, lsb := -3, maxMag := 0x1F, inf := none, nanFrom := 0x20, nan := 0 }
  | 8 => { bits := 6, frac := 2, lsb := -4, maxMag := 0x1F, inf := none, nanFrom := 0x20, nan := 0 }
  | 9 => { bits := 4, frac := 1, lsb := -1, maxMag := 0x7, inf := none, nanFrom := 0x8, nan := 0 }
  | _ => fmt32

/-- EMAX of a block element type (R160). -/
def emaxOf (code : Nat) : Int :=
  match code with
  | 5 => 8
  | 6 => 15
  | 7 => 2
  | 8 => 4
  | 9 => 2
  | _ => 127

/-- Block types carry one scale for 32 elements. -/
def isBlock (code : Nat) : Bool := decide (5 ≤ code) && decide (code ≤ 9)

/-- Integer types. -/
def isInt (code : Nat) : Bool := code == 10 || code == 11

/-- Bits of an element of a type. -/
def elemBits (code : Nat) : Nat := if code = 10 then 32 else if code = 11 then 8 else (fmtOf code).bits

/-! ### Values -/

/-- A decoded value: a finite one is ±m·2^e. -/
inductive Fp where
  | nan
  | inf (neg : Bool)
  | fin (neg : Bool) (m : Nat) (e : Int)
  deriving DecidableEq, Repr

/-- Decodes an element of a format. -/
def decodeFp (f : Fmt) (w : Nat) : Fp :=
  let neg := w / 2 ^ (f.bits - 1) % 2 == 1
  let mag := w % 2 ^ (f.bits - 1)
  if f.nanFrom ≤ mag then .nan
  else if f.inf = some mag then .inf neg
  else if mag < 2 ^ f.frac then .fin neg mag f.lsb
  else .fin neg (mag % 2 ^ f.frac + 2 ^ f.frac) (f.lsb + (mag / 2 ^ f.frac : Nat) - 1)

/-- The whole part and the remainder of n/d·2^e in units of the last place of a format at that size: the exponent of the
unit, the quotient, the remainder and the divisor. -/
def inUlps (f : Fmt) (n d : Nat) (e : Int) : Int × Nat × Nat × Nat :=
  let k : Int := (Nat.log2 n : Int) - (Nat.log2 d : Int)
  let less := if 0 ≤ k then decide (n < d * 2 ^ k.toNat) else decide (n * 2 ^ (-k).toNat < d)
  let top := (if less then k - 1 else k) + e
  let u := max (top - f.frac) f.lsb
  let num := if u ≤ e then n * 2 ^ (e - u).toNat else n
  let den := if u ≤ e then d else d * 2 ^ (u - e).toNat
  (u, num / den, num % den, den)

/-- The encoding of q units of size 2^u; it runs on beyond the largest finite value. -/
def magOf (f : Fmt) (u : Int) (q : Nat) : Nat := (u - f.lsb).toNat * 2 ^ f.frac + q

/-- The magnitude of n/d·2^e rounded to nearest even. (DESIGN CHOICE, log entry 60.) -/
def roundMag (f : Fmt) (n d : Nat) (e : Int) : Nat :=
  if n = 0 then 0
  else
    let (u, q, r, den) := inUlps f n d e
    magOf f u (if den < 2 * r ∨ (2 * r = den ∧ q % 2 = 1) then q + 1 else q)

/-- The magnitude of n·2^e rounded by the 24-bit draw `u24` of R171. (DESIGN CHOICE, log entry 60.) -/
def stochMag (f : Fmt) (n : Nat) (e : Int) (u24 : Nat) : Nat :=
  if n = 0 then 0
  else
    let (u, q, r, den) := inUlps f n 1 e
    magOf f u (if r ≠ 0 ∧ 2 ^ 24 ≤ r * 2 ^ 24 / den + u24 then q + 1 else q)

/-- A sign bit above a magnitude. -/
def signed (f : Fmt) (neg : Bool) (mag : Nat) : Nat := bit neg * 2 ^ (f.bits - 1) + mag

/-- Rounds n/d·2^e to a format that has infinities. (DESIGN CHOICE, log entry 60.) -/
def roundFp (f : Fmt) (neg : Bool) (n d : Nat) (e : Int) : Nat :=
  let mag := roundMag f n d e
  signed f neg (if f.maxMag < mag then f.inf.getD f.maxMag else mag)

/-! ### Operations (R166, R181) -/

/-- Addition. (DESIGN CHOICE, log entry 60.) -/
def fpAdd (f : Fmt) (a b : Nat) : Nat :=
  match decodeFp f a, decodeFp f b with
  | .nan, _ => f.nan
  | _, .nan => f.nan
  | .inf x, .inf y => if x = y then signed f x (f.inf.getD 0) else f.nan
  | .inf x, _ => signed f x (f.inf.getD 0)
  | _, .inf y => signed f y (f.inf.getD 0)
  | .fin x m e, .fin y n g =>
    let l := min e g
    let u : Int := (m * 2 ^ (e - l).toNat : Nat)
    let v : Int := (n * 2 ^ (g - l).toNat : Nat)
    let z := (if x then -u else u) + (if y then -v else v)
    if z = 0 then signed f (x && y) 0 else roundFp f (decide (z < 0)) z.natAbs 1 l

/-- The same value with the other sign. -/
def fpNeg (f : Fmt) (a : Nat) : Nat :=
  if a / 2 ^ (f.bits - 1) % 2 = 1 then a % 2 ^ (f.bits - 1) else a + 2 ^ (f.bits - 1)

/-- Subtraction. -/
def fpSub (f : Fmt) (a b : Nat) : Nat :=
  match decodeFp f b with
  | .nan => f.nan
  | _ => fpAdd f a (fpNeg f b)

/-- Multiplication. (DESIGN CHOICE, log entry 60.) -/
def fpMul (f : Fmt) (a b : Nat) : Nat :=
  match decodeFp f a, decodeFp f b with
  | .nan, _ => f.nan
  | _, .nan => f.nan
  | .inf x, .inf y => signed f (x != y) (f.inf.getD 0)
  | .inf x, .fin y n _ => if n = 0 then f.nan else signed f (x != y) (f.inf.getD 0)
  | .fin x m _, .inf y => if m = 0 then f.nan else signed f (x != y) (f.inf.getD 0)
  | .fin x m e, .fin y n g => roundFp f (x != y) (m * n) 1 (e + g)

/-- Division. (DESIGN CHOICE, log entry 60.) -/
def fpDiv (f : Fmt) (a b : Nat) : Nat :=
  match decodeFp f a, decodeFp f b with
  | .nan, _ => f.nan
  | _, .nan => f.nan
  | .inf _, .inf _ => f.nan
  | .inf x, .fin y _ _ => signed f (x != y) (f.inf.getD 0)
  | .fin x _ _, .inf y => signed f (x != y) 0
  | .fin x m e, .fin y n g =>
    if n = 0 then (if m = 0 then f.nan else signed f (x != y) (f.inf.getD 0))
    else roundFp f (x != y) m n (e - g)

/-- The whole square root of `m`, from bit `n` down. -/
def isqrtFrom (n m r : Nat) : Nat :=
  match n with
  | 0 => r
  | n + 1 =>
    let t := r + 2 ^ n
    isqrtFrom n m (if t * t ≤ m then t else r)

/-- Square root: computed to 64 bits with a sticky bit, then rounded. (DESIGN CHOICE, log entry 60.) -/
def fpSqrt (f : Fmt) (a : Nat) : Nat :=
  match decodeFp f a with
  | .nan => f.nan
  | .inf x => if x then f.nan else signed f false (f.inf.getD 0)
  | .fin x m e =>
    if m = 0 then signed f x 0
    else if x then f.nan
    else
      let sh : Nat := 128 - Nat.log2 m + (if (e - (128 - Nat.log2 m : Nat)) % 2 = 0 then 0 else 1)
      let big := m * 2 ^ sh
      let r := isqrtFrom 70 big 0
      roundFp f false (2 * r + (if r * r = big then 0 else 1)) 2 ((e - (sh : Int)) / 2)

/-- The order of R166 on FP32 encodings: −0 lies below +0. -/
def orderKey (w : Nat) : Int := if w / 2 ^ 31 % 2 = 1 then -(w % 2 ^ 31 : Nat) - 1 else (w : Int)

/-- The larger of two FP32 values. -/
def fpMax (a b : Nat) : Nat :=
  if decodeFp fmt32 a = .nan ∨ decodeFp fmt32 b = .nan then fmt32.nan else if orderKey a < orderKey b then b else a

/-- The smaller of two FP32 values. -/
def fpMin (a b : Nat) : Nat :=
  if decodeFp fmt32 a = .nan ∨ decodeFp fmt32 b = .nan then fmt32.nan else if orderKey b < orderKey a then b else a

/-- A finite FP32 value. -/
def finite32 (w : Nat) : Bool :=
  match decodeFp fmt32 w with
  | .fin _ _ _ => true
  | _ => false

/-! ### Sheaf layout (R161 to R163) -/

/-- B, the blocks of a contribution of S bytes (R162). -/
def blocksIn (code size : Nat) : Nat :=
  ((List.range 257).filter fun b => decide (16 * ((b + 15) / 16) + 4 * elemBits code * b ≤ size)).getLastD 0

/-- E, the elements of a contribution of S bytes. -/
def elemsIn (code size : Nat) : Nat := if isBlock code then 32 * blocksIn code size else 8 * size / elemBits code

/-- The elements of a number packed from the lowest bits up. -/
def unpackElems (bits n count : Nat) : List Nat := (List.range count).map fun i => n / 2 ^ (bits * i) % 2 ^ bits

/-- Elements packed from the lowest bits up. -/
def packElems (bits : Nat) (l : List Nat) : Nat :=
  match l with
  | [] => 0
  | x :: r => x + 2 ^ bits * packElems bits r

/-- A decoded element as FP32: scaled by 2^k and rounded once; the flag says that a finite product overflowed (R165). -/
def toFp32 (v : Fp) (k : Int) : Nat × Bool :=
  match v with
  | .nan => (fmt32.nan, false)
  | .inf x => (signed fmt32 x 0x7F800000, false)
  | .fin x m e =>
    let mag := roundMag fmt32 m 1 (e + k)
    (roundFp fmt32 x m 1 (e + k), decide (fmt32.maxMag < mag))

/-- The elements of block j of a payload, as FP32, and whether one overflowed. -/
def blockIn (code b : Nat) (p : List Byte) (j : Nat) : List Nat × Bool :=
  let x := (p.getD j 0).toNat
  let n := 4 * elemBits code
  let body := ofLe ((p.drop (16 * ((b + 15) / 16) + n * j)).take n)
  let es := unpackElems (elemBits code) body 32
  if x = 255 then (es.map fun _ => fmt32.nan, false)
  else
    let vs := es.map fun w => toFp32 (decodeFp (fmtOf code) w) ((x : Int) - 127)
    (vs.map Prod.fst, vs.any Prod.snd)

/-- The elements of a contribution: FP32 encodings, or signed integers, and whether one overflowed (R165, R167). -/
def elemsOf (code size : Nat) (p : List Byte) : List Int × Bool :=
  if isBlock code then
    let b := blocksIn code size
    let bs := (List.range b).map fun j => blockIn code b p j
    (bs.flatMap fun x => x.1.map fun (w : Nat) => (w : Int), bs.any Prod.snd)
  else
    let w := elemBits code / 8
    let raw := (List.range (elemsIn code size)).map fun i => ofLe ((p.drop (w * i)).take w)
    if isInt code then (raw.map fun (v : Nat) => if v < 2 ^ (8 * w - 1) then (v : Int) else (v : Int) - (2 ^ (8 * w) : Nat), false)
    else (raw.map fun (v : Nat) => (((toFp32 (decodeFp (fmtOf code) v) 0).1 : Nat) : Int), false)

/-! ### Reduction (R165 to R168) -/

/-- One combination of two elements by an operation of R133. (DESIGN CHOICE, log entry 60.) -/
def combine (op : Nat) (ints : Bool) (a b : Int) : Int :=
  if ints then
    match op with
    | 2 => max a b
    | 3 => min a b
    | 4 => (BitVec.ofInt 48 a &&& BitVec.ofInt 48 b).toInt
    | 5 => (BitVec.ofInt 48 a ||| BitVec.ofInt 48 b).toInt
    | _ => a + b
  else
    match op with
    | 2 => (fpMax a.toNat b.toNat : Nat)
    | 3 => (fpMin a.toNat b.toNat : Nat)
    | _ => (fpAdd fmt32 a.toNat b.toNat : Nat)

/-- The contributions of an index combined in their recorded order: the first one is the accumulator (R165). -/
def reduceAll (op : Nat) (ints : Bool) (l : List (List Int)) : List Int :=
  match l with
  | [] => []
  | a :: r => r.foldl (fun acc c => List.zipWith (combine op ints) acc c) a

/-! ### Output conversion (R169 to R171) -/

/-- What a conversion of one sheaf met: finite overflow, and a finite value turned into NaN. -/
structure ConvFlags where
  sat : Bool := false
  nan : Bool := false
  deriving DecidableEq, Repr

/-- The 24-bit draw of R171. (DESIGN CHOICE, log entry 60.) -/
def draw24 (x : Nat) : Nat :=
  let m := 2 ^ 64
  let z := (x + 0x9E3779B97F4A7C15) % m
  let z := Nat.xor z (z / 2 ^ 30) * 0xBF58476D1CE5E9B9 % m
  let z := Nat.xor z (z / 2 ^ 27) * 0x94D049BB133111EB % m
  let z := Nat.xor z (z / 2 ^ 31)
  z / 2 ^ 40

/-- One FP32 element times 2^−k converted to a format, with a draw for stochastic rounding; the flag is finite overflow.
FP8 and block elements saturate, the wider formats go to infinity (R169). (DESIGN CHOICE, log entry 60.) -/
def convertElem (f : Fmt) (satur : Bool) (u24 : Option Nat) (k : Int) (v : Nat) : Nat × Bool :=
  match decodeFp fmt32 v with
  | .nan => (f.nan, false)
  | .inf x =>
    match f.inf with
    | some i => (signed f x i, false)
    | none => (f.nan, false)
  | .fin x m e =>
    let mag := match u24 with
      | some u => stochMag f m (e - k) u
      | none => roundMag f m 1 (e - k)
    if f.maxMag < mag then (signed f x (if satur then f.maxMag else f.inf.getD f.maxMag), true) else (signed f x mag, false)

/-- The scale byte of a block (R170). -/
def blockScale (code : Nat) (vs : List Nat) : Nat :=
  if vs.any fun v => !finite32 v then 255
  else
    let amax := (vs.map fun v => v % 2 ^ 31).foldl Nat.max 0
    if amax = 0 then 0
    else
      match decodeFp fmt32 amax with
      | .fin _ m e => (clampI (-127) 127 ((Nat.log2 m : Int) + e - emaxOf code) + 127).toNat
      | _ => 255

/-- One converted block: its scale, its packed bytes, and what the conversion met. `i0` is its first element. -/
def convertBlock (code : Nat) (draw : Nat → Option Nat) (i0 : Nat) (vs : List Nat) : Nat × List Byte × ConvFlags :=
  let x := blockScale code vs
  let n := 4 * elemBits code
  if x = 255 then (255, List.replicate n 0, { sat := false, nan := vs.any finite32 })
  else
    let cs := (List.range vs.length).map fun i => convertElem (fmtOf code) true (draw (i0 + i)) ((x : Int) - 127) (vs.getD i 0)
    (x, leBytes n (packElems (elemBits code) (cs.map Prod.fst)), { sat := cs.any Prod.snd, nan := false })

/-- Pads with zeros to a multiple of 16 bytes. -/
def pad16 (l : List Byte) : List Byte := l ++ List.replicate ((16 - l.length % 16) % 16) 0

/-- The payload of a result in a type, and what the conversion met (R163, R169, R170). -/
def convertAll (code : Nat) (draw : Nat → Option Nat) (acc : List Int) : List Byte × ConvFlags :=
  if isInt code then
    let b := elemBits code
    let lim : Int := (2 ^ (b - 1) : Nat)
    let cs := acc.map fun z => clampI (-lim) (lim - 1) z
    (pad16 (cs.flatMap fun z => leBytes (b / 8) (BitVec.ofInt 32 z).toNat), { sat := cs != acc, nan := false })
  else
    let vs := acc.map Int.toNat
    if isBlock code then
      let n := vs.length / 32
      let bs := (List.range n).map fun j => convertBlock code draw (32 * j) ((vs.drop (32 * j)).take 32)
      (pad16 (padTo 0 (16 * ((n + 15) / 16)) (bs.map fun b => BitVec.ofNat 8 b.1) ++ bs.flatMap fun b => b.2.1),
       { sat := bs.any fun b => b.2.2.sat, nan := bs.any fun b => b.2.2.nan })
    else
      let cs := (List.range vs.length).map fun i =>
        convertElem (fmtOf code) (code == 3 || code == 4) (draw i) 0 (vs.getD i 0)
      (pad16 (cs.flatMap fun c => leBytes (elemBits code / 8) c.1),
       { sat := cs.any Prod.snd,
         nan := (List.range vs.length).any fun i => finite32 (vs.getD i 0) && decide ((fmtOf code).nanFrom ≤ (cs.getD i (0, false)).1 % 2 ^ (elemBits code - 1)) })

/-- r, the length of a result of E elements in a type (R163). -/
def resultLen (code e : Nat) : Nat :=
  let n := if isBlock code then 16 * ((e / 32 + 15) / 16) + 4 * elemBits code * (e / 32) else e * elemBits code / 8
  (n + 15) / 16 * 16

end Sys2Proof.Machine
end

