-- ==== Sys2Proof/Machine/SwitchCore.lean ====
section
/-! DEFINITION. The Floor, the egress side, spill refill and the Gleaner (R93 to R114). -/

namespace Sys2Proof.Machine

/-- A Floor plane. -/
def thePlane (s : State) (p : Nat) : Plane := tget s.core.planes {} p

/-- Changes a Floor plane. -/
def modPlane (p : Nat) (f : Plane → Plane) (s : State) : State :=
  s.modCore fun c => { c with planes := tmod c.planes {} p f }

/-! ### Offerable cells (R93, R98, R111) -/

/-- The cells of an entry that are written and not committed to a bundle. -/
def entryOffers (p : InPkt) (e : QEntry) : List Nat :=
  e.resend ++ ((List.range p.handles.length).filter fun i => decide (e.taken ≤ i))

/-- The offerable cells of a VOQ in its order. `first` until an entry with cells to come has been met: the head packet
may still be arriving, a later one stops the list at its missing cells, and a spilled packet stops it at once. -/
def offersFrom (brn : Barn) (first : Bool) (q : List QEntry) : List (Nat × Nat) :=
  match q with
  | [] => []
  | e :: r =>
    match brn.inPkts.find? fun p => p.info.pid == e.pid with
    | none => offersFrom brn first r
    | some p =>
      let open_ := p.arriving || decide (p.handles.length < p.info.hdr.cells)
      let cells := (entryOffers p e).map fun i => (e.pid, i)
      if p.spilled then []
      else if open_ && !first then cells
      else cells ++ offersFrom brn (first && cells.isEmpty && !open_) r

/-- The offerable cells of a barn's VOQ. -/
def offers (brn : Barn) (key : Nat) : List (Nat × Nat) := offersFrom brn true (tget brn.voqs [] key)

/-- N of R98: the offerable cells that a barn's VOQ holds, those behind a gap included; a spilled packet at its head blocks
it (R111). -/
def offerable (brn : Barn) (key : Nat) : Nat :=
  let q := (tget brn.voqs [] key).filterMap fun e => (brn.inPkts.find? fun p => p.info.pid == e.pid).map fun p => (p, e)
  if (q.head?).any fun x => x.1.spilled then 0
  else ((q.filter fun x => !x.1.spilled).map fun x => (entryOffers x.1 x.2).length).sum

/-- A request of a VOQ on a plane: plane, ingress barn, destination barn, class, WAIT, whether it is old (R98, R99), and
whether an egress hold keeps it from being granted (R108). -/
structure Request where
  plane : Nat
  src : Nat
  dst : Nat
  tc : Nat
  wait : Nat
  old : Bool
  held : Bool
  deriving DecidableEq, Repr

/-- The planes that a VOQ requests on: min(4, ⌈N/16⌉) planes in rotation after the plane it matched last, not yet requested
for its destination by a higher class (R98). The rotation passes over fenced planes. (DESIGN CHOICE, log entry 154.) -/
def planesFor (s : State) (brn : Barn) (key n : Nat) (used : List Nat) : List Nat :=
  let start := tget brn.planeRot 0 key
  let order := (List.range 4).map fun k => (start + k) % 4
  (order.filter fun p => !(thePlane s p).fenced && !used.contains p).take (Nat.min 4 ((n + 15) / 16))

/-- The requests of one barn toward one destination, from the highest class down (R98, R108). A class under hold requests,
and is not granted; a lower class may request on the same planes (R99). -/
def requestsTo (s : State) (src dst : Nat) (c : Nat) (used : List Nat) : List Request :=
  match c with
  | 0 => []
  | c + 1 =>
    let brn := theBarn s src
    let key := 8 * dst + c
    let n := offerable brn key
    let held := egHeld (theBarn s dst) c || wholeScratch s dst || wholeScratch s src
    let ps := if n = 0 then [] else planesFor s brn key n used
    (ps.map fun p => { plane := p, src := src, dst := dst, tc := c, wait := tget brn.wait 0 key,
                       old := decide (s.core.waitLimit ≤ tget brn.wait 0 key), held := held }) ++
      requestsTo s src dst c (if held then used else used ++ ps)

/-- All requests of a slot: between barns that are out of reset (R99, R335). -/
def requests (s : State) : List Request :=
  (List.range 16).flatMap fun i =>
    if barnUp s i ∧ (theBarn s i).voqs ≠ [] then
      (List.range 16).flatMap fun j => if barnUp s j then requestsTo s i j 8 [] else []
    else []

/-- The requests of the highest class. -/
def topClass (l : List Request) : List Request :=
  let c := (l.map fun r => r.tc).foldl Nat.max 0
  l.filter fun r => r.tc == c

/-- The one picked by R99: of the highest class, old ones first, then the first after a pointer. -/
def pick (ptr : Nat) (pos : Request → Nat) (l : List Request) : Option Request :=
  let t := topClass l
  let o := t.filter fun r => r.old
  let t := if o = [] then t else o
  (argMin (fun k => match t[k]? with
    | some r => (pos r + 15 - ptr) % 16
    | none => 16) (List.range t.length)).bind fun k => t[k]?

/-- A request's cells cross the bridge from a half. -/
def crosses (half : Nat) (r : Request) : Bool := halfOfBarn r.src == half && halfOfBarn r.dst != half

/-- The capacity that the cell channels of a sender's half give a plane in a slot, in 1/125 of a cell bundle: 125 channels
carry 8 bundles (R19), each channel lost 512 Gbit/s less (R20), and what the last slot left over of a bundle is added.
(DESIGN CHOICE, log entry 54.) -/
def crossBudget (s : State) (half p : Nat) : Nat :=
  (125 - tget s.core.lost 0 (4 * half + p)) * 8 + tget s.core.crossLeft 0 (4 * half + p)

/-- The order in which crossings are granted where the remaining channels do not carry all of them: by class, then by WAIT,
then by destination barn. (DESIGN CHOICE, log entry 54.) -/
def crossRank (r : Request) : Nat := (7 - r.tc) * 2 ^ 40 + (2 ^ 32 - 1 - sat (2 ^ 32 - 1) r.wait) * 16 + r.dst

/-- The first `n` crossings of a list in that order. -/
def firstCross (n : Nat) (l : List Request) : List Request :=
  match n with
  | 0 => []
  | n + 1 =>
    match (argMin (fun k => (l[k]?).elim 0 crossRank) (List.range l.length)).bind fun k => l[k]? with
    | some r => r :: firstCross n (l.erase r)
    | none => []

/-- The grants of the free destinations: each picks one request, and a crossing that the remaining channels do not carry is
not granted, so that its destination picks among the requests of its own half (R20, R99). `room` is the number of crossings
that each sender's half may still be granted. -/
def grantsOf (pl : Plane) (room : Nat → Nat) (free : List Request) : List Request :=
  let pickAt (j : Nat) (l : List Request) : Option Request := pick (tget pl.gp 0 j) (fun r => r.src) (l.filter fun r => r.dst == j)
  let want := (List.range 16).filterMap fun j => pickAt j free
  let cross := firstCross (room 0) (want.filter (crosses 0)) ++ firstCross (room 1) (want.filter (crosses 1))
  (List.range 16).filterMap fun j =>
    match want.find? fun r => r.dst == j with
    | some r =>
      if (crosses 0 r || crosses 1 r) && !cross.contains r then pickAt j (free.filter fun q => !crosses 0 q && !crosses 1 q)
      else some r
    | none => none

/-- One round of a plane: grants by the free destinations, accepts by the free sources (R99). -/
def round (pl : Plane) (room : Nat → Nat) (reqs : List Request) (done : List Request) : List Request :=
  let free := reqs.filter fun r => !(done.any fun d => d.src == r.src || d.dst == r.dst)
  let left (h : Nat) : Nat := room h - (done.filter (crosses h)).length
  let grants := grantsOf pl left free
  (List.range 16).filterMap fun i => pick (tget pl.ap 0 i) (fun r => r.dst) (grants.filter fun r => r.src == i)

/-- The matches of a plane and its pointers: they move on round 1 acceptances only (R99). (DESIGN CHOICE, log entry 54.) -/
def matchPlane (s : State) (p : Nat) (reqs : List Request) : List Request × Plane :=
  let pl := thePlane s p
  let mine := reqs.filter fun r => r.plane == p && !r.held
  let room (h : Nat) : Nat := crossBudget s h p / 125
  let r1 := round pl room mine []
  let r2 := round pl room mine r1
  let r3 := round pl room mine (r1 ++ r2)
  (r1 ++ r2 ++ r3,
   r1.foldl (fun pl r => { pl with gp := tset pl.gp 0 r.dst r.src, ap := tset pl.ap 0 r.src r.dst }) pl)

/-- What a slot leaves over of a plane's crossing capacity: less than one bundle (R20). (DESIGN CHOICE, log entry 54.) -/
def leaveCross (p : Nat) (done : List Request) (s : State) : State :=
  (List.range 2).foldl (fun s h =>
    let left := crossBudget s h p - 125 * (done.filter (crosses h)).length
    s.modCore fun c => { c with crossLeft := tset c.crossLeft 0 (4 * h + p) (Nat.min 124 left) }) s

/-- Marks cells of an entry as committed. -/
def takeCells (e : QEntry) (cells : List Nat) : QEntry :=
  { e with resend := e.resend.filter fun i => !cells.contains i,
           taken := cells.foldl (fun t i => if e.resend.contains i then t else Nat.max t (i + 1)) e.taken }

/-- Groups cells by packet. -/
def groupCells (l : List (Nat × Nat)) : List BundlePart :=
  (l.map Prod.fst).dedup.map fun pid => { pid := pid, cells := (l.filter fun c => c.1 == pid).map Prod.snd }

/-- The report and the discard of a cell whose check fails (R88). -/
def cellFail (b handle pid : Nat) (s : State) : State :=
  discardPkt pid (report (faultAt 0x0401 1 (halfOfBarn b) b handle) (bumpIn b 18 s))

/-- The stored check of a cell differs from the CRC of its bytes (R88). -/
def cellBad (t : Tab CellRec) (bytes : List Byte) (i handle : Nat) : Bool :=
  (tget t {} handle).check != cellCheck (cellSlice bytes i)

/-- Reads the cells of a bundle; a packet with a bad cell is discarded and its cells are left out (R88). -/
def readChecked (b : Nat) (l : List (Nat × Nat)) (s : State) : List (Nat × Nat) × State :=
  let bad := l.filterMap fun c => match inPkt s b c.1 with
    | some p => if cellBad (theBarn s b).cells p.info.bytes c.2 (p.handles.getD c.2 65535) then some (c.1, p.handles.getD c.2 65535) else none
    | none => none
  (l.filter fun c => !bad.any fun x => x.1 == c.1, bad.foldl (fun s x => cellFail b x.2 x.1 s) s)

/-- One match sends the next 16 offerable cells of its VOQ, or nothing and counts FLOOR_EMPTY_MATCH (R97, R98). The rotation
of the VOQ's requests goes on from the matched plane; WAIT is 0 once a bundle has been sent (R98, R99).
(DESIGN CHOICE, log entry 54.) -/
def transfer (r : Request) (s : State) : State :=
  let key := 8 * r.dst + r.tc
  let s := modBarn r.src (fun x => { x with planeRot := tset x.planeRot 0 key ((r.plane + 1) % 4) }) s
  let next := (offers (theBarn s r.src) key).take 16
  if next = [] then bump (ctr 9 r.plane 2) s
  else
    let (cells, s) := readChecked r.src next s
    if cells = [] then s
    else
      let parts := groupCells cells
      let s := modBarn r.src (fun x =>
        { x with voqs := tmod x.voqs [] key fun q => q.map fun e =>
                   takeCells e ((cells.filter fun c => c.1 == e.pid).map Prod.snd),
                 unacked := x.unacked ++ [{ plane := r.plane, src := r.src, dst := r.dst, tc := r.tc, parts := parts }],
                 wait := tset x.wait 0 key 0,
                 inPkts := x.inPkts.map fun p => if p.firstDst ≠ r.dst then p else { p with info := { p.info with
                   tagged := p.info.tagged.map fun t =>
                     if cells.contains (p.info.pid, t.cell) then { t with grant := some s.time.now, plane := r.plane } else t } } }) s
      bumpBy (ctr 9 r.plane 1) cells.length (bump (ctr 9 r.plane 0) s)

/-- One more for WAIT of every VOQ that requests on some plane; a bundle that it receives in the slot makes it 0 (R99). -/
def updateWait (reqs : List Request) (s : State) : State :=
  (reqs.map fun r => (r.src, 8 * r.dst + r.tc)).dedup.foldl (fun s k =>
    modBarn k.1 (fun x => { x with wait := tmod x.wait 0 k.2 (· + 1) }) s) s

/-- One Floor slot on every plane in service (R99). (DESIGN CHOICE, log entry 54.) -/
def floorSlot (s : State) : State :=
  let reqs := requests s
  let planes := (List.range 4).filter fun p => !(thePlane s p).fenced
  let ms := planes.map fun p => (p, matchPlane s p reqs)
  let done := ms.flatMap fun m => m.2.1
  let s := ms.foldl (fun s m => leaveCross m.1 m.2.1 (modPlane m.1 (fun _ => m.2.2) s)) s
  done.foldl (fun s r => transfer r s) (updateWait reqs s)

/-- FLOOR_SLOT. -/
def execFloorSlot (s : State) : Host.Outcome State Fault Refusal := .next (floorSlot s)

/-! ### Failures of bundles and planes (R102) -/

/-- The cells of a bundle are offered again, in the order of the packet (R93, R102). (DESIGN CHOICE, log entry 55.) -/
def requeue (u : CellBundle) (s : State) : State :=
  modBarn u.src (fun x =>
    { x with unacked := x.unacked.erase u,
             voqs := tmod x.voqs [] (8 * u.dst + u.tc) fun q => q.map fun e =>
               match u.parts.find? fun t => t.pid == e.pid with
               | some t => { e with resend := (List.range 32).filter fun i => t.cells.contains i || e.resend.contains i }
               | none => e }) s

/-- Fences a plane for every barn and resends what is unacknowledged on it (R102). (DESIGN CHOICE, log entry 55.) -/
def fencePlane (p : Nat) (s : State) : State :=
  let us := s.core.barns.flatMap fun e => e.2.unacked.filter fun u => u.plane == p
  us.foldl (fun s u => requeue u s)
    (report (faultAt 0x0402 2 3 p 0) (bump (ctr 9 p 4) (modPlane p (fun x => { x with fenced := true, failures := [] }) s)))

/-- A bundle has failed: it is offered again; a second failure on its plane within 1 ms fences the plane (R102).
(DESIGN CHOICE, log entry 55.) -/
def bundleFail (u : CellBundle) (s : State) : State :=
  let s := bump (ctr 9 u.plane 3) (requeue u s)
  let recent := (thePlane s u.plane).failures.filter fun t => decide (s.time.now < t + usU 1000)
  if recent = [] then modPlane u.plane (fun x => { x with failures := [s.time.now] }) s
  else fencePlane u.plane s

/-- All four planes are fenced. -/
def allFenced (s : State) : Bool := (List.range 4).all fun p => (thePlane s p).fenced

/-! ### The egress side (R94 to R96, R104, R118) -/

/-- Whether a stored packet has arrived whole. -/
def whole (x : Stored) : Bool := x.arrived == x.info.hdr.cells && x.info.bytes.length == x.info.hdr.pktBytes

/-- The cells of a stored packet that have arrived without a gap, from its first one. -/
def prefixCells (x : Stored) : Nat :=
  ((List.range x.info.hdr.cells).find? fun i => !x.handles.any fun k => k.1 == i).getD x.info.hdr.cells

/-- The flits of a stored packet whose bytes have arrived: all of them once it is whole (R95, R253). -/
def flitsReady (x : Stored) : Nat :=
  if whole x then flitsOf x.info.hdr.pktBytes
  else Nat.min (256 * prefixCells x / 240) (flitsOf x.info.hdr.pktBytes - 1)

/-- A stored packet with a cell whose check fails: its handle (R88). (DESIGN CHOICE, log entries 49, 62.) -/
def badStored (s : State) (b : Nat) (x : Stored) : Option Nat :=
  (x.handles.find? fun k => cellBad (theBarn s b).cells x.info.bytes k.1 k.2).map Prod.snd

/-- A packet has been sent whole: it is complete in the retry buffer, and counted, and its port lets it go (R104, R257,
R400). -/
def completeTx (lane : Nat) (t : Tx) (x : Stored) (s : State) : State :=
  let h := x.info.hdr
  let b := barnOf lane
  let p := packetOf h x.info.bytes
  let s := modLastRetry lane (fun r => { r with info := some { x.info with tagged := [] }, kind := .sentWhole })
    (modLaneLink lane (fun k => { k with tx := none }) s)
  let s := emit (.packet t.port lane h p.payload p.crc) s
  let s := bumpBy (ctr 5 b (t.port % 64)) h.pktBytes (bumpEg b (16 + h.tc) (bumpBy (ctr 2 b 1) h.pktBytes (bumpEg b 0 s)))
  let s := traceStored x { outcome := 0, outPort := t.port, barn := b, cut := t.cut, selected := some t.selAt,
                           out := some (if t.sent = 0 then s.time.now else t.outAt) } s
  dropRef b t.pid t.port s

/-- The packet that a lane is sending goes on: its flits whose bytes have arrived leave, as far as the window lets them
(R95, R253, R257); a packet with a cell whose check fails is aborted (R22, R88). -/
def feedTx (lane : Nat) (s : State) : State :=
  match (laneLink s lane).tx with
  | none => s
  | some t =>
    if t.abort then abortTx lane s
    else
      match storedPkt s (barnOf lane) t.pid with
      | none => abortTx lane s
      | some x =>
        match badStored s (barnOf lane) x with
        | some h => cellFail (barnOf lane) h t.pid s
        | none =>
          let n := flitsOf x.info.hdr.pktBytes
          let m := Nat.min (flitsReady x - t.sent) (windowRoom (laneLink s lane))
          let s := putDatas lane x.info.bytes n t.sent m s
          if t.sent + m = n then completeTx lane t x s
          else modLaneLink lane (fun k => { k with tx := some { t with sent := t.sent + m, outAt := if t.sent = 0 then s.time.now else t.outAt } }) s

/-- Cells of a packet have arrived: the lanes of its barn that are sending it go on, and a packet that nothing holds is
freed (R95, R104). -/
def finishArrivals (b pid : Nat) (s : State) : State :=
  match storedPkt s b pid with
  | none => s
  | some x =>
    if x.dead then (if whole x then freeStored b pid s else s)
    else (lanesSending s pid).foldl (fun s l => if barnOf l = b then feedTx l s else s) s

/-- Tagged cells of a packet have arrived at the barn where it is followed; those of a copy that is dropped there end (R406,
R407). (DESIGN CHOICE, log entry 130.) -/
def moveTags (src dst : Nat) (t : BundlePart) (s : State) : State :=
  match inPkt s src t.pid, storedPkt s dst t.pid with
  | some p, some x =>
    let here := (p.info.tagged.filter fun g => t.cells.contains g.cell).map fun g => { g with arrive := some s.time.now }
    let s := modInPkt src t.pid (fun q => { q with info := { q.info with tagged := q.info.tagged.filter fun g => !t.cells.contains g.cell } }) s
    if x.dead ∨ (x.sink = 0 ∧ x.linked ∧ !x.mask.getLsbD (x.tracePort % 64)) then
      traceInfo { p.info with tagged := here } { outcome := 1, outPort := x.tracePort, barn := dst } s
    else modStored dst t.pid (fun y => { y with info := { y.info with tagged := y.info.tagged ++ here } }) s
  | _, _ => s

/-- A bundle passes its check: a packet whose first cell it brings is linked, its cells are stored and acknowledged (R94,
R102). (DESIGN CHOICE, log entry 55.) -/
def bundleOk (u : CellBundle) (s : State) : State :=
  let s := modBarn u.src (fun x => { x with unacked := x.unacked.erase u }) s
  u.parts.foldl (fun s t =>
    match inPkt s u.src t.pid with
    | none => s
    | some p =>
      match (tget (theBarn s u.src).voqs [] (8 * u.dst + u.tc)).find? fun e => e.pid == t.pid with
      | none => s
      | some e =>
        let s := if (storedPkt s u.dst t.pid).isSome then s else openStored u.src u.dst p e s
        let s := modStored u.dst t.pid (fun x => { x with info := { x.info with bytes := p.info.bytes } }) s
        let s := if p.firstDst = u.dst then moveTags u.src u.dst t s else s
        let s := if t.cells.contains 0 then linkStored u.dst t.pid s else s
        let s := t.cells.foldl (fun s i => storeCell u.dst t.pid i s) s
        finishArrivals u.dst t.pid (updateHolds u.dst (ackCells u.src u.dst u.tc t.pid t.cells s))) s

/-- CELL_BUNDLE_ARRIVAL for the oldest bundle in flight from one barn to another on a plane: it passes its check or
fails it; toward a barn in reset nothing happens (R102, R335). (DESIGN CHOICE, log entry 55.) -/
def bundleArrival (plane src dst : Nat) (ok : Bool) (s : State) : State :=
  match (theBarn s src).unacked.find? fun u => u.plane == plane && u.dst == dst with
  | none => s
  | some u => if !barnUp s dst then s else if ok then bundleOk u s else bundleFail u s

/-- BUNDLE_ACK_TIMEOUT for the oldest bundle in flight (R102). (DESIGN CHOICE, log entry 55.) -/
def bundleTimeout (plane src dst : Nat) (s : State) : State :=
  match (theBarn s src).unacked.find? fun u => u.plane == plane && u.dst == dst with
  | none => s
  | some u => if !barnUp s dst then s else bundleFail u s

/-! ### Link down (R96, R272) -/

/-- Drops every packet queued for a port; each is counted EGRESS_LINK_DOWN (R96). -/
def dropQueued (p : Nat) (s : State) : State :=
  let b := barnOf p
  (List.range 8).foldl (fun s c =>
    (tget (theBarn s b).egq [] (p % 64 * 8 + c)).foldl (fun s pid =>
      match storedPkt s b pid with
      | some x =>
        let s := bumpEg b 2 s
        let s := traceStored x { outcome := 1, outPort := p, barn := b } s
        dropRef b pid p s
      | none => s) s) s

/-! ### Spill refill (R111) -/

/-- The place of a packet nearest the head of any VOQ. -/
def placeOf (brn : Barn) (pid : Nat) : Nat :=
  leastOf (fun n => n) ((brn.voqs.filterMap fun q => q.2.findIdx? fun e => e.pid == pid))

/-- The spilled packet to be refilled next: nearest the head of any VOQ, then the oldest (R111). One that is still arriving
is passed over. (DESIGN CHOICE, log entry 155.) -/
def refillNext (brn : Barn) : Option InPkt :=
  let l := brn.inPkts.filter fun p => p.spilled && !p.arriving
  (argMin (fun pid => placeOf brn pid * 2 ^ 32 + pid) (l.map fun p => p.info.pid)).bind fun pid =>
    l.find? fun p => p.info.pid == pid

/-- Moves one cell of a spilled packet into the Loft. -/
def refillCell (b : Nat) (p : InPkt) (i : Nat) (s : State) : State :=
  let old := p.handles.getD i 65535
  let h := freeHandle s b
  let cell := { tget (theBarn s b).spill {} old with next := 65535 }
  let s := s.tookFree
  match inPkt s b p.info.pid with
  | none => s
  | some q =>
    bump (ctr 0x0D (b / 2) 8) (modInPkt b p.info.pid (fun q => { q with handles := q.handles ++ [h] })
      (modBarn b (fun x => { x with spill := tset x.spill {} old {}, cells := linkCells (tset x.cells {} h cell) q.handles h,
                                    doubleFree := x.doubleFree.filter (· != h) }) s))

/-- SPILL_REFILL: the next spilled packet is read back when the ingress account has room under R107 (R111).
(DESIGN CHOICE, log entry 89.) -/
def spillRefill (b : Nat) (s : State) : State :=
  match refillNext (theBarn s b) with
  | none => s
  | some p =>
    if eligibleLimit s b < eligibleCells s b + p.handles.length then s
    else
      match (List.range p.handles.length).find? fun i => cellBad (theBarn s b).spill p.info.bytes i (p.handles.getD i 65535) with
      | some i => cellFail b (p.handles.getD i 65535 % 65536) p.info.pid s
      | none =>
        (List.range p.handles.length).foldl (fun s i => refillCell b p i s)
          (modInPkt b p.info.pid (fun q => { q with handles := [], spilled := false, refilled := true }) s)

/-- SPILL_REFILL. -/
def execSpillRefill (barn : Fin 16) (s : State) : Host.Outcome State Fault Refusal := .next (spillRefill barn s)

/-! ### The Gleaner (R113, R114) -/

/-- The holders of a Loft handle: copies that still hold the cell at ingress; at egress the port queues or a sink's hand-over,
or the reassembly of a packet whose first cell has not arrived (R113). (DESIGN CHOICE, log entry 57.) -/
def holders (brn : Barn) (h : Nat) : Nat :=
  ((brn.inPkts.filter fun p => !p.spilled).map fun p =>
    ((List.range p.handles.length).map fun i => if p.handles[i]? = some h then
      ((brn.voqs.map fun q => (q.2.filter fun e => e.pid == p.info.pid && !e.acked.contains i).length).sum) else 0).sum).sum +
  ((brn.stored.filter fun x => x.handles.any fun k => k.2 == h).map fun x =>
    if x.sink ≠ 0 ∨ !x.linked then 1 else ((List.range 64).filter fun n => x.mask.getLsbD n).length).sum

/-- The holders of a spill handle. (DESIGN CHOICE, log entry 57.) -/
def spillHolders (brn : Barn) (h : Nat) : Nat :=
  ((brn.inPkts.filter fun p => p.spilled).map fun p =>
    ((List.range p.handles.length).map fun i => if p.handles[i]? = some h then
      ((brn.voqs.map fun q => (q.2.filter fun e => e.pid == p.info.pid && !e.acked.contains i).length).sum) else 0).sum).sum

/-- One counted event of the Gleaner and its report (R114): ITEM has 16 bits, and ADDRESS names the handle whole.
(DESIGN CHOICE, log entry 57.) -/
def gleanEvent (b h i : Nat) (s : State) : State :=
  report { faultAt (0x0404 + i) 0 (halfOfBarn b) b (h % 65536) with address := h } (bumpEg b (8 + i) s)

/-- A reclaimed cell's credit is returned if it was charged (R114). (DESIGN CHOICE, log entry 57.) -/
def reclaim (c : CellRec) (s : State) : State := returnCredit c.charge c.tc 1 s

/-- Audits one Loft handle (R114). A case that the table does not list has no action: a handle in use on the free list
without holders, and one not in use off the free list with holders. (DESIGN CHOICE, log entry 57.) -/
def auditHandle (b h : Nat) (s : State) : State :=
  let brn := theBarn s b
  let c := tget brn.cells {} h
  let n := holders brn h
  let onFree := onFreeList brn.cells brn.lostFree brn.doubleFree h
  let clear (s : State) : State := modBarn b (fun x => { x with cand := x.cand.filter (· != h) }) s
  if onFree ∧ 1 ≤ n then
    gleanEvent b h 2 (clear (modBarn b (fun x =>
      { x with doubleFree := x.doubleFree.filter (· != h), cells := tmod x.cells {} h fun c => { c with inuse := true } }) s))
  else if c.inuse ∧ !onFree ∧ 1 ≤ n then
    if n = c.refs then clear s
    else gleanEvent b h 0 (clear (modBarn b (fun x => { x with cells := tmod x.cells {} h fun c => { c with refs := n } }) s))
  else if c.inuse ∧ !onFree then
    if brn.cand.contains h then
      gleanEvent b h 1 (reclaim c (clear (updateHolds b (modBarn b (fun x =>
        { x with cells := tset x.cells {} h {}, leftEg := x.leftEg.filter (· != h) }) s))))
    else modBarn b (fun x => { x with cand := h :: x.cand }) s
  else if !c.inuse ∧ !onFree ∧ n = 0 then
    gleanEvent b h 3 (clear (modBarn b (fun x => { x with lostFree := x.lostFree.filter (· != h) }) s))
  else clear s

/-- Audits one spill handle, as a Loft handle (R114). (DESIGN CHOICE, log entry 57.) -/
def auditSpill (b h : Nat) (s : State) : State :=
  let brn := theBarn s b
  let c := tget brn.spill {} h
  let n := spillHolders brn h
  let onFree := onFreeList brn.spill brn.spillLost brn.spillDouble h
  let clear (s : State) : State := modBarn b (fun x => { x with spillCand := x.spillCand.filter (· != h) }) s
  if onFree ∧ 1 ≤ n then
    gleanEvent b h 2 (clear (modBarn b (fun x =>
      { x with spillDouble := x.spillDouble.filter (· != h), spill := tmod x.spill {} h fun c => { c with inuse := true } }) s))
  else if c.inuse ∧ !onFree ∧ 1 ≤ n then
    if n = c.refs then clear s
    else gleanEvent b h 0 (clear (modBarn b (fun x => { x with spill := tmod x.spill {} h fun c => { c with refs := n } }) s))
  else if c.inuse ∧ !onFree then
    if brn.spillCand.contains h then
      gleanEvent b h 1 (reclaim c (clear (modBarn b (fun x => { x with spill := tset x.spill {} h {} }) s)))
    else modBarn b (fun x => { x with spillCand := h :: x.spillCand }) s
  else if !c.inuse ∧ !onFree ∧ n = 0 then
    gleanEvent b h 3 (clear (modBarn b (fun x => { x with spillLost := x.spillLost.filter (· != h) }) s))
  else clear s

/-- GLEANER_AUDIT: every handle of the packet buffer and every spill handle of the barn (R113). A handle that nothing
lists is free, on the free list and without holder, so the audit has nothing to do there. (DESIGN CHOICE, log entry 57.) -/
def gleanerAudit (b : Nat) (s : State) : State :=
  let brn := theBarn s b
  let hs := (brn.cells.map Prod.fst ++ brn.lostFree ++ brn.doubleFree ++ brn.cand ++
    (brn.inPkts.filter fun p => !p.spilled).flatMap (fun p => p.handles) ++
    brn.stored.flatMap fun x => x.handles.map Prod.snd).dedup
  let sp := (brn.spill.map Prod.fst ++ brn.spillLost ++ brn.spillDouble ++ brn.spillCand ++ (brn.inPkts.filter fun p => p.spilled).flatMap fun p => p.handles).dedup
  sp.foldl (fun s h => auditSpill b h s) (hs.foldl (fun s h => auditHandle b h s) s)

/-- GLEANER_AUDIT. -/
def execGleanerAudit (barn : Fin 16) (s : State) : Host.Outcome State Fault Refusal :=
  .next (if barnUp s barn then gleanerAudit barn s else s)

end Sys2Proof.Machine
end

