-- ==== Sys2Proof/Machine/Collectives.lean ====
section
/-! DEFINITION. Threshing units, the stream of a context, its notices, aborts, fences, recalls and results (R131 to R159,
R173 to R177). -/

namespace Sys2Proof.Machine

/-! ### Threshing units (R136, R175) -/

/-- A threshing unit. -/
def theUnit (s : State) (u : Nat) : Unit := tget s.thresh.units {} u

/-- Changes a threshing unit. -/
def modUnit (u : Nat) (f : Unit → Unit) (s : State) : State :=
  s.modThresh fun t => { t with units := tmod t.units {} u f }

/-- A unit that takes work: IN_SERVICE and out of reset. -/
def unitUp (s : State) (u : Nat) : Bool := (theUnit s u).state == 0 && barnUp s (barnOfUnit u)

/-- `size` numbers from `base`, in cyclic order from `start`. -/
def cyc (base size start : Nat) : List Nat := (List.range size).map fun i => base + (start + i) % size

/-- The unit that reduces a sheaf placed on `u`: `u` itself, else the next in service of its barn, else of its stack
(R136). -/
def substitute (s : State) (u : Nat) : Option Nat :=
  (u :: (cyc (4 * (u / 4)) 4 (u % 4) ++ cyc (8 * (u / 8)) 8 (u % 8))).find? fun v => unitUp s v

/-- The next unit of a stack in service, in cyclic order from `n`, that is not listed in `down`. -/
def stackUnit (s : State) (t n : Nat) (down : List Nat) : Option Nat :=
  (cyc (8 * t) 8 n).find? fun v => unitUp s v && !down.contains v

/-- The unit of a role that lies with stack `t`: of that stack, else of the first stack after it that is not excluded and
has one (R175). (DESIGN CHOICE, log entry 67.) -/
def roleUnit (s : State) (t n : Nat) (excl down : List Nat) : Option Nat :=
  ((cyc 0 8 t).filter fun x => !excl.contains x).findSome? fun x => stackUnit s x n down

/-- Primary, witness and referee of a unit (R175); without a witness there is no referee. -/
def firstRoles (s : State) (u : Nat) : List Nat :=
  let t := u / 8
  match roleUnit s (Nat.xor t 1) (u % 8) [t, Nat.xor t 2] [] with
  | none => [u]
  | some w => u :: w :: (roleUnit s (Nat.xor t 2) (u % 8) [t, w / 8] []).toList

/-- The roles after a unit in one of them has faulted: the later ones move up and the referee's passes on (R173, R176).
(DESIGN CHOICE, log entry 67.) -/
def passRole (s : State) (u : Nat) (faulty : List Nat) (roles : List Nat) (f : Nat) : List Nat :=
  if roles.contains f then
    let r := roles.erase f
    r ++ (roleUnit s (Nat.xor (u / 8) 2) (u % 8) (u / 8 :: r.map fun v => v / 8) faulty).toList
  else roles

/-- The roles for work placed on `u` after the faults of the listed units. They follow the units in service at each instant, so
that work goes back to a unit that TU_UNFENCE has returned. (DESIGN CHOICE, log entry 67.) -/
def rolesOf (s : State) (u : Nat) (faulty : List Nat) : List Nat :=
  faulty.foldl (passRole s u faulty) (firstRoles s u)

/-- A counter of a unit: TU block of its stack (R399). -/
def bumpUnit (u i : Nat) (s : State) : State := bump (ctr 0x0C (stackOfUnit u) (8 * (u % 8) + i)) s

/-! ### The stream of a context (R135, R137, R138) -/

/-- The epoch of an index. -/
def epochOf (x : Ctx) (g : Nat) : Nat := (x.firstEpoch + g / ctxN x) % 65536

/-- E_F, the epoch of the front. -/
def frontEpoch (x : Ctx) : Nat := epochOf x x.front

/-- The sheaf number of an index. -/
def sheafOf (x : Ctx) (g : Nat) : Nat := g % ctxN x

/-- Epoch `e` is epoch `from_` or a later one. -/
def epochFrom (from_ e : Nat) : Bool := decide ((e + 65536 - from_) % 65536 < 32768)

/-- An epoch counted from 0 at the context's first one, by its distance from the front's. -/
def epochNo (x : Ctx) (e : Nat) : Nat :=
  let d := (e + 65536 - frontEpoch x) % 65536
  if d < 32768 then x.front / ctxN x + d else x.front / ctxN x - (65536 - d)

/-- The endpoint of a member at an epoch (R135, R152). (DESIGN CHOICE, log entry 63.) -/
def memberAt (x : Ctx) (m e : Nat) : Nat :=
  match x.past.find? fun p => p.member == m && decide (epochNo x e < p.first) with
  | some p => p.oldId
  | none =>
    match x.sub with
    | some b => if b.member = m ∧ epochFrom b.epoch e then b.newId else x.members.getD m 0
    | none => x.members.getD m 0

/-- The member table in force at an epoch. (DESIGN CHOICE, log entry 63.) -/
def membersAt (x : Ctx) (e : Nat) : List Nat := (List.range (ctxCount x)).map fun m => memberAt x m e

/-- DIGEST over the words G0 to G7 (R135). -/
def digestOf (g0 g1 g2 g3 g5 : Word) (e : Nat) : Nat :=
  crc32 (wordsLe [g0, g1, g2, g3, pack [(16, e)], g5, 0, 0])

/-- DIGEST of a context for an epoch (R135). (DESIGN CHOICE, log entry 63.) -/
def digestAt (x : Ctx) (e : Nat) : Nat :=
  digestOf (dw x 1) (dw x 0 &&& 0xFFFFFF0F#32) (w32 (ctxCount x)) (dw x 3)
    (w32 (crc32 (wordsLe ((membersAt x e).map w32)))) e

/-- DIGEST of a relay's upstream context for an epoch (R156). -/
def upDigest (x : Ctx) (e : Nat) : Nat := digestOf (dw x 18) (dw x 19) (dw x 20) (dw x 21) (dw x 22) e

/-- The unit that the placement names for a sheaf (R136). -/
def placedUnit (x : Ctx) (n : Nat) : Nat := ctxTuFirst x + n % ctxSpan x

/-- The barn that feeds the unit of a sheaf, substitutes included. (DESIGN CHOICE, log entry 68.) -/
def feedingBarn (s : State) (x : Ctx) (n : Nat) : Nat :=
  barnOfUnit ((substitute s (placedUnit x n)).getD (placedUnit x n))

/-- An index is complete. -/
def isComplete (x : Ctx) (g : Nat) : Bool := decide (g < x.front) || x.doneAbove.contains g

/-- An open index. -/
def openOf (x : Ctx) (g : Nat) : Option OpenIdx := (x.opens.find? fun o => o.1 == g).map Prod.snd

/-- Changes an open index. -/
def modOpen (c g : Nat) (f : OpenIdx → OpenIdx) (s : State) : State :=
  modCtx c (fun x => { x with opens := x.opens.map fun o => if o.1 == g then (g, f o.2) else o }) s

/-- The unit that works on an open index. -/
def primaryOf (s : State) (o : OpenIdx) : Option Nat := (rolesOf s o.unit o.faulty).head?

/-- A counter of the COLL block (R399), in the half of the barn that feeds a sheaf of the context. -/
def bumpColl (i : Nat) (s : State) (x : Ctx) (n : Nat) : State :=
  bump (ctr 0x0F (halfOfBarn (feedingBarn s x n)) i) s

/-! ### Sending (R92, R142, R147) -/

/-- The barn and the sink of a packet that the device terminates (R92). (DESIGN CHOICE, log entry 68.) -/
def sinkFor (s : State) (h : Header) : Nat × Nat :=
  let hearth := (8 * liveHalf s, 3)
  if h.kind = Kind.sheaf then (feedingBarn s (theCtx s h.ctxId) h.sheafNo, 1)
  else if h.kind = Kind.write ∨ h.kind = Kind.read then
    if h.remoteAddr < granarySize then (granHome h.remoteAddr, 2)
    else if h.remoteAddr / 2 ^ 56 = 1 then (feedingBarn s (theCtx s (h.remoteAddr / 2 ^ 44 % 4096)) 0, 2)
    else (granHome (h.remoteAddr % granarySize), 2)
  else if h.kind = Kind.writeDone ∧ h.ackReq then (feedingBarn s (theCtx s h.ctxId) h.sheafNo, 2)
  else hearth

/-- Originates a packet; one for the device's own ID is terminated (R39). -/
def send (b : Nat) (h : Header) (payload : List Byte) (result : Option ResultRef) (s : State) : State :=
  if !h.mc && s.hearth.endpointId == some h.dstId then
    originateTo b (h.withEpoch (activeEpoch s)) payload result
      (fun pid => [copyToSink pid (sinkFor s h).1 (sinkFor s h).2]) s
  else originate b h payload result s

/-- A header of the device's own: its W1 to W3 and the kind's words. -/
def ownHeader (s : State) (kind tc : Nat) (mc : Bool) (partition dst len tree : Nat) (w4 w5 w6 w7 : Word) : Header :=
  { w0 := originW0 s kind tc mc partition, w1 := pack [(8, dst)], w2 := pack [(8, ownId s)],
    w3 := pack [(23, len), (9, tree)], w4 := w4, w5 := w5, w6 := w6, w7 := w7 }

/-- The barn at which a notice of a context originates (R147). (DESIGN CHOICE, log entry 68.) -/
def noticeBarn (s : State) (x : Ctx) (n : Nat) : Nat :=
  let b := feedingBarn s x n
  if barnUp s b then b else Nat.xor b 8

/-- A notice header (R44, R147, R148). -/
def noticeHeader (s : State) (c : Nat) (x : Ctx) (dst : Option Nat) (code reason sheaf : Nat) (detail : Word)
    (epoch len : Nat) : Header :=
  ownHeader s Kind.notice 7 dst.isNone (ctxPartition x) (dst.getD 0) (len / 16) (if dst.isNone then ctxTree x else 0)
    (pack [(20, c), (8, code), (0, reason)]) (w32 sheaf) detail (pack [(16, epoch)])

/-- The body of a COLL_NOTICE or CONTROL_PKT event: the header in wire order, a place for the slot, the length (R363). -/
def packetBody (h : Header) (len : Nat) : List Word := wordsOf h.bytes ++ [0, w32 len]

/-- Sends a notice to the whole context: on its tree, or in RETURN mode one unicast copy to each member; an ABORT or a
RECALL is also posted to the host (R147). (DESIGN CHOICE, log entry 71.) -/
def sendNotice (c : Nat) (x : Ctx) (code reason sheaf : Nat) (detail : Word) (epoch : Nat) (payload : List Byte)
    (s : State) : State :=
  let b := noticeBarn s x sheaf
  let len := payload.length
  let hs := if ctxOut x = 3 then
      (membersAt x (frontEpoch x)).map fun m => noticeHeader s c x (some m) code reason sheaf detail epoch len
    else [noticeHeader s c x none code reason sheaf detail epoch len]
  let first := (hs.headD (headerOf [])).withEpoch (activeEpoch s)
  let s := hs.foldl (fun s h => send b h payload none s) s
  if code = 1 ∨ code = 3 then
    post 0x04 (packetBody first first.pktBytes)
      (some (Packet.wire { hdr := first, payload := payload, crc := packetCrc first payload })) s
  else s

/-- The member layout of DETAIL (R148). -/
def memberDetail (m : Option Nat) : Word :=
  match m with
  | some m => pack [(31, 1), (10, m)]
  | none => 0

/-- Sends RESEND to one member (R140, R141). -/
def sendResend (c : Nat) (x : Ctx) (reason member n e : Nat) (s : State) : State :=
  let h := noticeHeader s c x (some (memberAt x member e)) 2 reason n (memberDetail (some member)) e 0
  bumpColl 13 (send (noticeBarn s x n) h [] none s) x n

/-! ### Completion of an index (R137, R142) -/

/-- The front moves over complete indices. (DEDUCED, log entry 61.) -/
def advance (n : Nat) (x : Ctx) : Ctx :=
  match n with
  | 0 => x
  | n + 1 =>
    if x.doneAbove.contains x.front then
      advance n { x with front := x.front + 1, doneAbove := x.doneAbove.filter (· != x.front) }
    else x

/-- A substitution whose epoch the front has reached becomes part of the member table. (DESIGN CHOICE, log entry 63.) -/
def settleSub (x : Ctx) : Ctx :=
  match x.sub with
  | some b =>
    if epochFrom b.epoch (frontEpoch x) then
      { x with sub := none, members := x.members.set b.member b.newId,
               past := x.past ++ [{ member := b.member, oldId := x.members.getD b.member 0, first := epochNo x b.epoch }] }
    else x
  | none => x

/-- Recallable results older than the epoch before E_F are dropped (R151). (DESIGN CHOICE, log entry 66.) -/
def pruneMade (x : Ctx) : Ctx :=
  { x with made := x.made.filter fun m => decide (x.front / ctxN x ≤ m.index / ctxN x + 1) }

/-- An index is complete; the last index of an epoch is captured (R137, R310). (DEDUCED, log entry 61.) -/
def completeIndex (c g : Nat) (s : State) : State :=
  let k := (theCtx s c).front / ctxN (theCtx s c)
  let s := modCtx c (fun x =>
    pruneMade (settleSub (advance (x.doneAbove.length + 1)
      { x with opens := x.opens.filter fun o => o.1 != g, doneAbove := g :: x.doneAbove }))) s
  if (theCtx s c).front / ctxN (theCtx s c) = k then s else capture 11 c s

/-! ### Aborts (R150) -/

/-- What an ABORT says of the offending contribution (R148). -/
structure Offence where
  sheaf : Nat
  epoch : Nat
  member : Option Nat
  rx : Nat
  expected : Nat
  id : Nat
  len : Nat
  deriving DecidableEq, Repr

/-- The abort record of a cause that no contribution gives: it names the front's sheaf and E_F, also where the cause arose in
another open index (R148). (DESIGN CHOICE, log entry 160.) -/
def plainOffence (s : State) (x : Ctx) : Offence :=
  { sheaf := sheafOf x x.front, epoch := frontEpoch x, member := none, rx := 0, expected := 0, id := ownId s, len := 0 }

/-- Changes the descriptions of every packet in the core. -/
def mapQueued (f : PktInfo → PktInfo) (s : State) : State :=
  s.modCore fun k => { k with barns := k.barns.map fun e =>
    (e.1, { e.2 with inPkts := e.2.inPkts.map fun p => { p with info := f p.info },
                     stored := e.2.stored.map fun x => { x with info := f x.info } }) }

/-- Changes the descriptions of every packet in the core and in the retry buffers. -/
def mapInfos (f : PktInfo → PktInfo) (s : State) : State :=
  (mapQueued f s).modLink fun l =>
    { l with lanes := l.lanes.map fun e => (e.1, { e.2 with retry := e.2.retry.map fun r => { r with info := r.info.map f },
                                                            orphans := e.2.orphans.map fun r => { r with info := r.info.map f } }),
             resend := l.resend.map fun e => (e.1, e.2.map f) }

/-- A RESEND of a context that has not been sent. -/
def isResend (c : Nat) (i : PktInfo) : Bool :=
  i.inPort.isNone && i.hdr.kind == Kind.notice && i.hdr.code == 2 && i.hdr.ctxId == c

/-- Withholds the copies of a context's results that have not begun to leave, and its RESENDs (R150).
(DESIGN CHOICE, log entry 62.) -/
def voidResults (c : Nat) (x : Ctx) (s : State) : State :=
  mapQueued (fun i => match i.result with
    | some r => if r.ctx = c ∧ !isComplete x r.index then { i with result := some { r with void := true } } else i
    | none => if isResend c i then { i with result := some { ctx := c, index := 0, void := true } } else i) s

/-- The open indices of the window, bit i for index F + i (R158). -/
def openBits (x : Ctx) : Nat := packN (((List.range (ctxDepth x)).filter fun i => (openOf x (x.front + i)).isSome).map fun i => (i, 1))

/-- Copies in flight no longer belong to any result of a context that starts afresh. (DESIGN CHOICE, log entry 62.) -/
def stripResults (c : Nat) (s : State) : State :=
  mapInfos (fun i => match i.result with
    | some r => if r.ctx = c ∧ !r.void then { i with result := none } else i
    | none => i) s

/-- An abort takes effect (R150, R157). -/
def abortCore (c reason : Nat) (o : Offence) (s : State) : State :=
  let x := theCtx s c
  if x.state = .active then
    let s := voidResults c x s
    let s := modCtx c (fun x => { x with state := .aborted, abortReason := reason, abortMask := openBits x, opens := [], sub := none,
                                         retained := x.retained.filter fun r => r.left }) s
    let rec_ := wordsBe [w32 o.rx, w32 o.expected, pack [(8, o.id)], pack [(23, o.len)]]
    let s := sendNotice c x 1 reason o.sheaf (memberDetail o.member) o.epoch rec_ s
    let s := bumpColl 11 (capture 12 (reason * 4096 + c) s) x o.sheaf
    if ctxOut x = 2 then
      let h := ownHeader s Kind.notice 7 false (ctxPartition x) (ctxUpDst x) 1 0
        (pack [(20, ctxUpCtx x), (8, 1), (0, 0x0B)]) (w32 o.sheaf) (memberDetail (some (ctxUpMember x))) (pack [(16, o.epoch)])
      send (noticeBarn s x o.sheaf) h (wordsBe [0, 0, pack [(8, ownId s)], 0]) none s
    else s
  else s

/-- An abort without an offending contribution. (DESIGN CHOICE, log entry 160.) -/
def abortPlain (c reason : Nat) (s : State) : State := abortCore c reason (plainOffence s (theCtx s c)) s

/-! ### Recall (R151) -/

/-- A run of recalled sheaves: first index, stride as a power of two, count. -/
structure Run where
  first : Nat
  log : Nat
  count : Nat
  deriving DecidableEq, Repr

/-- Inserts a number into a rising list. -/
def insertNat (a : Nat) (l : List Nat) : List Nat :=
  match l with
  | [] => [a]
  | b :: r => if a ≤ b then a :: b :: r else b :: insertNat a r

/-- A list in rising order. -/
def sortNat (l : List Nat) : List Nat := l.foldr insertNat []

/-- Groups rising indices of one residue into runs of one epoch and one stride. -/
def runsIn (stride n : Nat) (l : List Nat) : List Run :=
  match l with
  | [] => []
  | a :: r =>
    match runsIn stride n r with
    | [] => [{ first := a, log := Nat.log2 stride, count := 1 }]
    | u :: us =>
      if u.first = a + stride ∧ u.first / n = a / n then { u with first := a, count := u.count + 1 } :: us
      else { first := a, log := Nat.log2 stride, count := 1 } :: u :: us

/-- Groups rising indices into runs of one epoch and one stride: a unit that reduces for another one releases indices of several
residues of the stride, each with runs of its own (R136, R151). (DESIGN CHOICE, log entry 66.) -/
def runsOf (stride n : Nat) (l : List Nat) : List Run :=
  ((l.map fun g => (g / n, g % n % stride)).dedup).flatMap fun k =>
    runsIn stride n (l.filter fun g => decide ((g / n, g % n % stride) = k))

/-- The acknowledgement bitmap of R148. -/
def memberBits (l : List Nat) : List Byte :=
  leBytes 128 (l.foldl (fun (n : Nat) m => if n / 2 ^ m % 2 = 1 then n else n + 2 ^ m) 0)

/-- The acknowledgements known of a released result. -/
def ackedOf (x : Ctx) (g : Nat) : List Nat :=
  match x.retained.find? fun r => r.index == g with
  | some r => r.acked
  | none =>
    match x.made.find? fun m => m.index == g with
    | some m => m.acked
    | none => []

/-- Sends one RECALL of the sheaves n + i·2^log of an epoch, and frees the slots of their indices `gs`, of which the first is given
for its acknowledgements. (DESIGN CHOICE, log entry 66.) -/
def recallNamed (c reason n e log count : Nat) (gs : List Nat) (s : State) : State :=
  let x := theCtx s c
  let payload := if count = 1 then memberBits ((gs.head?).elim [] (ackedOf x)) else []
  let s := modCtx c (fun x => { x with retained := x.retained.filter fun r => !gs.contains r.index,
                                       made := x.made.filter fun m => !gs.contains m.index }) s
  let s := sendNotice c x 3 reason n (pack [(25, log), (0, count)]) e payload s
  bumpColl 12 (capture 13 (reason * 4096 + c) s) x n

/-- Sends one RECALL and frees the slots of its sheaves. (DESIGN CHOICE, log entry 66.) -/
def recallRun (c reason : Nat) (u : Run) (s : State) : State :=
  let x := theCtx s c
  recallNamed c reason (sheafOf x u.first) (epochOf x u.first) u.log u.count
    ((List.range u.count).map fun i => u.first + i * 2 ^ u.log) s

/-- Recalls the unwitnessed results that a fenced unit released in a context (R151). (DESIGN CHOICE, log entry 66.) -/
def recallUnit (c u : Nat) (s : State) : State :=
  let x := theCtx s c
  if x.state = .free ∨ x.state = .retiring then s else
  let gs := sortNat ((x.made.filter fun m => m.unit == u).map fun m => m.index)
  (runsOf (ctxSpan x) (ctxN x) gs).foldl (fun s r => recallRun c 2 r s) s

/-! ### Fences (R175) -/

/-- The contexts that hold an open index on a unit. -/
def ctxsOnUnit (s : State) (u : Nat) : List Nat :=
  (s.coll.filter fun e => e.2.state == .active && e.2.opens.any fun o => primaryOf s o.2 == some u).map Prod.fst

/-- The active contexts placed on a stack. -/
def ctxsOnStack (s : State) (t : Nat) : List Nat :=
  (s.coll.filter fun e => e.2.state == .active &&
    (List.range (ctxSpan e.2)).any fun i => (ctxTuFirst e.2 + i) / 8 == t).map Prod.fst

/-- A unit is fenced: aborts, recalls, capture and report (R136, R151, R175). A fence is kept until TU_UNFENCE succeeds,
so a fenced unit is not fenced again. (DESIGN CHOICE, log entry 66.) -/
def fenceUnit (u cause : Nat) (s : State) : State :=
  if (theUnit s u).state = 1 then modUnit u (fun x => { x with waitOn := none }) s else
  let hit := ctxsOnUnit s u
  let s := modUnit u (fun x => { x with state := 1, cause := cause, fenceS := secOf s.time.now % 65536, faultAt := [], waitOn := none }) s
  let s := report { faultAt 0x0701 2 (halfOfBarn (barnOfUnit u)) u 0 with detail := [w32 cause] } (capture 15 u s)
  let s := hit.foldl (fun s c => abortPlain c 6 s) s
  let s := if (cyc (8 * (u / 8)) 8 0).any fun v => unitUp s v then s
    else (ctxsOnStack s (u / 8)).foldl (fun s c => abortPlain c 6 s) s
  (s.coll.map Prod.fst).foldl (fun s c => recallUnit c u s) s

/-- The index a fence waits for has been resolved. (DESIGN CHOICE, log entry 66.) -/
def resolved (s : State) (w : Nat × Nat) : Bool :=
  let x := theCtx s w.1
  !(x.state == .active && (openOf x w.2).isSome)

/-- Fences that waited for an index take effect once it is resolved (R175). (DESIGN CHOICE, log entry 66.) -/
def settleFences (n : Nat) (s : State) : State :=
  match n with
  | 0 => s
  | n + 1 =>
    match s.thresh.units.find? fun e => e.2.waitOn.any fun w => resolved s w with
    | some e => settleFences n (fenceUnit e.1 e.2.cause s)
    | none => s

/-- A fence of a unit, at once or when the index it was computing is resolved; one that waits already is not put off (R175).
(DESIGN CHOICE, log entry 66.) -/
def fenceAfter (u cause c g : Nat) (s : State) : State :=
  settleFences 64 (modUnit u (fun x => if x.waitOn.isSome then x else { x with cause := cause, waitOn := some (c, g) }) s)

/-- An abort, with the fences that waited for it. (DEDUCED, log entry 65; DESIGN CHOICE, log entry 71.) -/
def abortCtx (c reason : Nat) (o : Offence) (s : State) : State := settleFences 64 (abortCore c reason o s)

/-- A unit counts a residue fault; the second within 60 s fences it (R173). -/
def residueCount (u : Nat) (s : State) : Bool × State :=
  let x := theUnit s u
  let recent := x.faultAt.filter fun t => decide (s.time.now < t + secU 60)
  let s := modUnit u (fun x => { x with residue := sat (2 ^ 32 - 1) (x.residue + 1), faultAt := s.time.now :: recent }) s
  (recent != [], bumpUnit u 1 s)

/-! ### Results (R142 to R146) -/

/-- A retained result. -/
def retOf (x : Ctx) (g : Nat) : Option Retained := x.retained.find? fun r => r.index == g

/-- Changes a retained result, and its record in the retention space (R199). -/
def modRet (c g : Nat) (f : Retained → Retained) (s : State) : State :=
  storeRet c g (modCtx c (fun x => { x with retained := x.retained.map fun r => if r.index == g then f r else r }) s)

/-- TALLY (R46). -/
def tallyWord (witnessed : Bool) (count epoch : Nat) : Word := pack [(31, bit witnessed), (16, count), (0, epoch)]

/-- The first bit of a result leaves: the index is complete and its retention interval begins (R142, R144).
(DEDUCED, log entry 61.) -/
def resultLeaves (r : ResultRef) (s : State) : State :=
  let x := theCtx s r.ctx
  match openOf x r.index with
  | some o =>
    if x.state = .active ∧ o.phase = .leaving then
      let u := (primaryOf s o).getD o.unit
      let witnessed := bitAt (o.formed.elim 0 fun f => f.tally) 31
      let s := modRet r.ctx r.index (fun t => { t with left := true, waiting := false, releasedAt := s.time.now }) s
      let s := if witnessed then s
        else modCtx r.ctx (fun x => { x with made := x.made ++ [{ index := r.index, unit := u, acked := [] }] }) s
      settleFences 64 (completeIndex r.ctx r.index (bumpColl 10 s x (sheafOf x r.index)))
    else s
  | none => s

/-- The header of a SHEAF_RESULT (R44, R142). -/
def resultHeader (s : State) (c : Nat) (x : Ctx) (dst : Option Nat) (n len : Nat) (tally : Word) : Header :=
  ownHeader s Kind.sheafResult (ctxTc x) dst.isNone (ctxPartition x) (dst.getD 0) (len / 16)
    (if dst.isNone then ctxTree x else 0) (pack [(20, c)]) (w32 n) tally 0

/-- Sends a result on the tree, or to every member in RETURN mode (R142, R157). Where no copy is queued the index is
complete at once. (DEDUCED, log entry 61.) -/
def sendResult (c g : Nat) (payload : List Byte) (tally : Word) (s : State) : State :=
  let x := theCtx s c
  let n := sheafOf x g
  let ref : ResultRef := { ctx := c, index := g, void := false }
  let b := match openOf x g with
    | some o => barnOfUnit ((primaryOf s o).getD o.unit)
    | none => feedingBarn s x n
  let before := s.core.nextPid
  let s := modOpen c g (fun o => { o with phase := .leaving, formed := o.formed.map fun f => { f with tally := tally } }) s
  let s := if ctxOut x = 3 then
      (membersAt x (epochOf x g)).foldl (fun s m => send b (resultHeader s c x (some m) n payload.length tally) payload (some ref) s) s
    else send b (resultHeader s c x none n payload.length tally) payload (some ref) s
  if s.core.nextPid = before then resultLeaves ref s else s

/-- The results of an epoch wait for their release (R146). (DESIGN CHOICE, log entry 62.) -/
def gatedNow (x : Ctx) (e : Nat) : Bool := ctxGated x && decide (32768 ≤ (x.released + 65536 - e) % 65536)

/-- The elements of an index, reduced in the recorded order and scaled for MEAN (R165, R168). -/
def reduceIndex (x : Ctx) (o : OpenIdx) : List Int :=
  let ints := isInt (ctxInType x)
  let acc := reduceAll (ctxOp x) ints (o.contribs.map fun k => (elemsOf (ctxInType x) (ctxS x) k.payload).1)
  if ctxOp x = 1 then acc.map fun z => ((fpMul fmt32 z.toNat (ctxScale x).toNat : Nat) : Int) else acc

/-- The element stored in an accumulation region combined with a result's (R168); the flag is a saturation. -/
def accElem (x : Ctx) (old : Nat) (z : Int) : Nat × Bool :=
  if isInt (ctxOutType x) then
    let v := (BitVec.ofNat 32 old).toInt
    if ctxOp x = 4 ∨ ctxOp x = 5 then ((BitVec.ofInt 32 (combine (ctxOp x) true v z)).toNat, false)
    else
      let t := v + z
      let k := clampI (-2147483648) 2147483647 t
      ((BitVec.ofInt 32 k).toNat, k != t)
  else (fpAdd fmt32 old z.toNat, false)

/-- Bytes of the accumulation region. -/
def accSize (x : Ctx) : Nat := 4 * elemsIn (ctxInType x) (ctxS x) * ctxN x

/-- Adds a result into the accumulation region, through the caches of its granules (R168, R193, R203).
(DESIGN CHOICE, log entries 62, 78.) -/
def accumulate (u : Nat) (x : Ctx) (o : OpenIdx) (g : Nat) (s : State) : State :=
  let acc := reduceIndex x o
  let a := ctxAccAddr x + 4 * elemsIn (ctxInType x) (ctxS x) * sheafOf x g
  let cs := (List.range acc.length).map fun i => accElem x (ofLe (daRead s (a + 4 * i) 4)) (acc.getD i 0)
  let n := 4 * acc.length
  let s := cacheRange 0 a n true (daWrite a (cs.flatMap fun c => leBytes 4 c.1) (cacheRange 0 a n false s))
  if cs.any Prod.snd then bumpUnit u 6 s else s

/-- Two ranges overlap. (DESIGN CHOICE, log entry 78.) -/
def overlaps (a n b m : Nat) : Bool := decide (a < b + m) && decide (b < a + n)

/-- A word of a parameter group record (R179). -/
def groupWord (s : State) (k i : Nat) : Word := (tget s.thresh.groups [] k).getD i 0

/-- Two words of a parameter group record as one number. -/
def groupNum (s : State) (k i : Nat) : Nat := (groupWord s k i).toNat + 2 ^ 32 * (groupWord s k (i + 1)).toNat

/-- The groups of a run. -/
def runGroups (desc : List Word) : List Nat :=
  (List.range (fld (desc.getD 2 0) 21 11)).map fun i => fld (desc.getD 2 0) 31 22 + i

/-- A running harvest of the context's partition works on a gradient in its accumulation region (R184).
(DESIGN CHOICE, log entry 78.) -/
def harvestConflict (s : State) (x : Ctx) : Bool :=
  s.thresh.harvests.any fun h => fld (h.desc.getD 0 0) 31 20 == ctxPartition x &&
    (runGroups h.desc).any fun k => overlaps (ctxAccAddr x) (accSize x) (groupNum s k 12) (4 * groupNum s k 8)

/-- A relay's partial goes up; one that cannot be delivered aborts the relay (R149, R156). -/
def sendPartial (c g : Nat) (payload : List Byte) (s : State) : State :=
  let x := theCtx s c
  let e := epochOf x g
  let h := ownHeader s Kind.sheaf (ctxTc x) false (ctxPartition x) (ctxUpDst x) (payload.length / 16) 0
    (pack [(20, ctxUpCtx x), (10, ctxUpMember x)]) (w32 (sheafOf x g)) (w32 (upDigest x e)) (pack [(16, e)])
  let t := send (feedingBarn s x (sheafOf x g)) h payload none s
  if t.core.nextPid = s.core.nextPid then abortCtx c 0x0B (plainOffence t (theCtx t c)) t else t

/-- A checked result goes on by OUT_MODE (R142 to R146, R156, R184). (DEDUCED, log entry 61.) -/
def proceed (c g : Nat) (s : State) : State :=
  let x := theCtx s c
  let e := epochOf x g
  let n := sheafOf x g
  match openOf x g with
  | none => s
  | some o =>
    match o.formed with
    | none => s
    | some f =>
      let u := (primaryOf s o).getD o.unit
      let slot (waiting upPartial : Bool) : Retained :=
        { index := g, epoch := e, sheaf := n, payload := f.payload, crc := f.crc, tally := f.tally, acked := [],
          naks := [], releasedAt := 0, delivered := 0, unit := u, waiting := waiting, upPartial := upPartial, left := false,
          slot := freeRetSlot x }
      let set (p : Phase) (s : State) : State := modOpen c g (fun o => { o with phase := p }) s
      let keep (r : Retained) (s : State) : State :=
        storeRet c g (modCtx c (fun x => { x with retained := x.retained ++ [r] }) s)
      if ctxOut x = 1 then
        if gatedNow x e then set .gated s
        else if harvestConflict s x then
          if o.phase = .held then s else bumpColl 14 (set .held s) x n
        else sendResult c g [] f.tally (accumulate u x o g s)
      else if ctxRetSlots x ≤ x.retained.length then
        if o.phase = .waitSlot then s else bumpColl 6 (set .waitSlot s) x n
      else if ctxOut x = 2 then sendPartial c g f.payload (set .waitUpstream (keep (slot false true) s))
      else if gatedNow x e then set .gated (keep (slot true false) s)
      else sendResult c g f.payload f.tally (keep (slot false false) s)

/-- An index is winnowed (R176). -/
def winnowed (w n e : Nat) : Bool :=
  match w with
  | 1 => n % 64 == e % 64
  | 2 => n % 16 == e % 16
  | 3 => n % 4 == e % 4
  | 4 => true
  | _ => false

/-- The draw of R171 for element `i` of an index, or none for round to nearest even. -/
def roundingDraw (x : Ctx) (g i : Nat) : Option Nat :=
  if ctxStochastic x then
    some (draw24 (Nat.xor (Nat.xor (Nat.xor (ctxSeed x) (epochOf x g * 2 ^ 48)) (sheafOf x g * 2 ^ 16)) i % 2 ^ 64))
  else none

/-- The result of an index whose last contribution has been reduced is formed (R142, R169, R176).
(DESIGN CHOICE, log entry 67.) -/
def formResult (c g : Nat) (s : State) : State :=
  let x := theCtx s c
  let e := epochOf x g
  let n := sheafOf x g
  match openOf x g with
  | none => s
  | some o =>
    if x.state = .active ∧ o.phase = .reducing ∧ o.contribs.length = ctxCount x then
      match primaryOf s o with
      | none => abortCtx c 5 (plainOffence s x) s
      | some u =>
        let out := if ctxOut x = 1 then ([], ({} : ConvFlags)) else convertAll (ctxOutType x) (roundingDraw x g) (reduceIndex x o)
        let tally := tallyWord false (ctxCount x) e
        let crc := packetCrc (resultHeader s c x none n out.1.length tally) out.1
        let s := bumpUnit u 0 s
        let s := if out.2.sat then bumpUnit u 6 s else s
        let s := if out.2.nan then bumpUnit u 7 s else s
        let s := modOpen c g (fun o => { o with formed := some { payload := out.1, crc := crc, tally := tally } }) s
        if winnowed (ctxWinnow x) n e then
          if (rolesOf s o.unit o.faulty).length < 2 then proceed c g (bumpColl 17 s x n)
          else modOpen c g (fun o => { o with phase := .winnowing }) s
        else proceed c g s
    else s

/-- The result of an index is witnessed: WITNESSED is set in TALLY, and the CRC-64 follows (R46, R176).
(DESIGN CHOICE, log entry 66.) -/
def setWitnessed (c g : Nat) (s : State) : State :=
  let x := theCtx s c
  let tally := tallyWord true (ctxCount x) (epochOf x g)
  modOpen c g (fun o => { o with formed := o.formed.map fun f =>
    { f with tally := tally,
             crc := packetCrc (resultHeader s c x none (sheafOf x g) f.payload.length tally) f.payload } }) s

/-- A comparison that a unit agreed in: its earlier results of the context are no longer recallable (R151).
(DESIGN CHOICE, log entry 67.) -/
def agreed (c u : Nat) (s : State) : State := modCtx c (fun x => { x with made := x.made.filter fun m => m.unit != u }) s

/-- A unit was outvoted: it is counted and fenced once the index is resolved (R176, R186). (DESIGN CHOICE, log entry 67.) -/
def outvote (u c g : Nat) (s : State) : State :=
  fenceAfter u 2 c g (modUnit u (fun x => { x with outvoted := sat (2 ^ 32 - 1) (x.outvoted + 1) }) s)

/-- All three units of an unresolved comparison are reported and the context is aborted (R176).
(DESIGN CHOICE, log entry 67.) -/
def unresolved (c g u : Nat) (roles : List Nat) (s : State) : State :=
  let x := theCtx s c
  let s := bumpUnit u 4 s
  let s := roles.foldl (fun s v => report { faultAt 0x0702 1 (halfOfBarn (barnOfUnit v)) v 0 with
    partition := ctxPartition x, ctx := some c, detail := [w32 (sheafOf x g)] } s) s
  abortCtx c 5 (plainOffence s x) s

/-- WINNOW_COMPARE: the outcome of a comparison (R176); the TU block that counts it is the primary's.
(DESIGN CHOICE, log entry 67.) -/
def winnowCompare (c g : Nat) (v : WinnowVerdict) (s : State) : State :=
  let x := theCtx s c
  match openOf x g with
  | none => s
  | some o =>
    if x.state = .active ∧ o.phase = .winnowing then
      let roles := rolesOf s o.unit o.faulty
      match roles with
      | p :: w :: rest =>
        match v with
        | .equal => proceed c g (agreed c w (agreed c p (setWitnessed c g (bumpUnit p 2 s))))
        | .witnessRight =>
          if rest = [] then unresolved c g p roles s
          else
            let s := outvote p c g (bumpUnit p 3 (setWitnessed c g s))
            proceed c g (agreed c w (modOpen c g (fun o => { o with faulty := o.faulty ++ [p] }) s))
        | .primaryRight =>
          if rest = [] then unresolved c g p roles s
          else proceed c g (agreed c p (outvote w c g (bumpUnit p 3 (setWitnessed c g s))))
        | .unresolved => unresolved c g p roles s
      | _ => proceed c g (bumpColl 17 s x (sheafOf x g))
    else s

/-- The winnowed indices that no unit is left to compare. -/
def alone (s : State) : List (Nat × Nat) :=
  s.coll.flatMap fun e => if e.2.state = .active then
    (e.2.opens.filter fun o => o.2.phase == .winnowing && decide ((rolesOf s o.2.unit o.2.faulty).length < 2)).map fun o => (e.1, o.1)
  else []

/-- A winnowed index whose last possible witness has been fenced is released without comparison (R176). -/
def settleWinnow (s : State) : State :=
  (alone s).foldl (fun s k => proceed k.1 k.2 (bumpColl 17 s (theCtx s k.1) (sheafOf (theCtx s k.1) k.2))) s

end Sys2Proof.Machine
end

