-- ==== Sys2Proof/Machine/CollEvents.lean ====
section
/-! DEFINITION. Packets that reach a context and the timers of the collectives (R139 to R145, R151, R156, R157, R173,
R198). -/

namespace Sys2Proof.Machine

/-! ### Terminated packets (R53, R92) -/

/-- Two headers that differ at most in what changes in flight (R34). (DESIGN CHOICE, log entry 137.) -/
def sameHeader (a b : Header) : Bool :=
  Header.words { a with w0 := a.w0 &&& 0xFF9FFF00#32 } == Header.words { b with w0 := b.w0 &&& 0xFF9FFF00#32 }

/-- A stored packet of a sink is the packet of a command. (DESIGN CHOICE, log entry 137.) -/
def isSunk (x : Stored) (p : Packet) : Bool :=
  x.sink != 0 && sameHeader x.info.hdr p.hdr && x.info.bytes.drop 32 == p.payload ++ beBytes 8 p.crc.toNat

/-- The stored packet of a sink that a command names, with its barn. (DESIGN CHOICE, log entry 137.) -/
def sunkAt (p : Packet) (s : State) : Option (Nat × Stored) :=
  (List.range 16).findSome? fun b => ((theBarn s b).stored.find? fun x => isSunk x p).map fun x => (b, x)

/-- A packet of a sink has arrived whole and is the next of its sink's queue: the head of its class, with no eligible packet in
a higher one (R95, R118). -/
def nextOfSink (s : State) (b : Nat) (x : Stored) : Bool :=
  let head (c : Nat) : Option Nat := (tget (theBarn s b).sinkq [] (8 * x.sink + c)).head?
  let ready (c : Nat) : Bool := match (head c).bind fun i => storedPkt s b i with
    | some y => whole y
    | none => false
  whole x && head x.info.hdr.tc == some x.info.pid && (List.range 8).all fun c => decide (c ≤ x.info.hdr.tc) || !ready c

/-- The sink takes the packet of a command now: its turn has come, and its cells pass their check (R88, R118). A packet that no
sink queue holds is taken at once. (DESIGN CHOICE, log entry 137.) -/
def sinkTurn (p : Packet) (s : State) : Bool :=
  match sunkAt p s with
  | some (b, x) => nextOfSink s b x && (badStored s b x).isNone
  | none => true

/-- A sink takes the packet over: its tagged cells are traced, and its cells are freed where it waits in a sink queue
(R104, R407). A copy of a result for the device's own ID leaves so (R39, R142). (DESIGN CHOICE, log entries 130, 137.) -/
def releaseSink (p : Packet) (s : State) : State :=
  match sunkAt p s with
  | some (b, x) =>
    let s := freeStored b x.info.pid (traceStored x { outcome := 2, barn := b, selected := some s.time.now } s)
    match x.info.result with
    | some r => resultLeaves r s
    | none => s
  | none => s

/-- The packet of a command is a copy of a result that an abort has withheld (R150). -/
def sunkVoid (p : Packet) (s : State) : Bool :=
  match sunkAt p s with
  | some (_, x) => x.info.result.any fun r => r.void
  | none => false

/-- A withheld copy is dropped as its sink would take it (R150). (DESIGN CHOICE, log entry 62.) -/
def dropSunk (p : Packet) (s : State) : State :=
  match sunkAt p s with
  | some (b, x) => freeStored b x.info.pid (traceStored x { outcome := 1, barn := b } s)
  | none => s

/-- The instant that decides what windows a terminated packet lies in: that of its trailer's verification, or the present one for a
packet that has no trailer on a lane (R312). (DESIGN CHOICE, log entry 69.) -/
def sunkTime (p : Packet) (s : State) : Nat :=
  match sunkAt p s with
  | some (_, x) => if x.info.inPort.isSome then x.info.verAt else s.time.now
  | none => s.time.now

/-- What the state is while a sink does not take the packet: unchanged until its turn; a packet with a cell whose check fails is
discarded as it is read (R88). -/
def notTaken (p : Packet) (s : State) : State :=
  match sunkAt p s with
  | some (b, x) =>
    if nextOfSink s b x then
      match badStored s b x with
      | some h => cellFail b h x.info.pid s
      | none => s
    else s
  | none => s

/-- What a sink does with a packet once it takes it over. -/
def atSink (p : Packet) (act : State → State) (s : State) : State :=
  if sinkTurn p s then (if sunkVoid p s then dropSunk p s else act (releaseSink p s)) else notTaken p s

/-- The report of a terminated packet whose CRC-64 fails, with the context that a contribution, an acknowledgement or a NAK
names (R53, R377, R379). (DESIGN CHOICE, log entry 137.) -/
def termCrcFail (port : Nat) (p : Packet) (s : State) : State :=
  let named := p.hdr.kind == Kind.sheaf || (p.hdr.kind == Kind.writeDone && p.hdr.ackReq)
  report { faultAt 0x0201 1 (halfOf port) (barnOf port) port with
    partition := p.hdr.partition, ctx := if named then some p.hdr.ctxId else none } s

/-! ### Contributions (R138 to R141, R165) -/

/-- The index that a contribution names, where its epoch is the front's or the next. -/
def indexOf (x : Ctx) (d n : Nat) : Nat := (x.front / ctxN x + d) * ctxN x + n

/-- The epoch distance d of R138. -/
def epochDist (x : Ctx) (e : Nat) : Nat := (e + 65536 - frontEpoch x) % 65536

/-- An index lacks a member's contribution. -/
def lacks (x : Ctx) (g m : Nat) : Bool :=
  match openOf x g with
  | some o => !o.contribs.any fun k => k.member == m
  | none => true

/-- A bad contribution: RESEND where R140 allows it; reason 1 CRC, 2 POLICED. -/
def badContribution (reason : Nat) (h : Header) (s : State) : State :=
  let x := theCtx s h.ctxId
  let d := epochDist x h.collEpoch
  let g := indexOf x d h.sheafNo
  if x.state = .active ∧ ctxPartition x = h.partition ∧ h.member < ctxCount x ∧
      memberAt x h.member h.collEpoch = h.srcId ∧ d < 2 ∧ h.sheafNo < ctxN x ∧ x.front ≤ g ∧ g < x.front + ctxDepth x ∧
      !isComplete x g ∧ lacks x g h.member then
    sendResend h.ctxId x reason h.member h.sheafNo h.collEpoch s
  else s

/-- A contribution is reduced into its index (R139 row 12, R165). -/
def accept (c g : Nat) (h : Header) (payload : List Byte) (s : State) : State :=
  let x := theCtx s c
  let k : Contrib := { member := h.member, payload := payload, inStore := false }
  let ovf := (elemsOf (ctxInType x) (ctxS x) payload).2
  match openOf x g with
  | some o =>
    let s := modOpen c g (fun o => { o with contribs := o.contribs ++ [k] }) s
    if ovf then bumpUnit ((primaryOf s o).getD o.unit) 5 s else s
  | none =>
    match substitute s (placedUnit x h.sheafNo) with
    | none => abortCtx c 6 (plainOffence s x) s
    | some u =>
      let o : OpenIdx := { contribs := [k], unit := u, faulty := [], firstAt := s.time.now, stallAt := s.time.now,
                           phase := .reducing, formed := none }
      let s := modCtx c (fun x => { x with opens := x.opens ++ [(g, o)] }) s
      if ovf then bumpUnit u 5 s else s

/-- A unit has a residue fault while it works on an open index: it is counted, and the second within 60 s fences it when
the index is resolved (R173, R175). (DESIGN CHOICE, log entry 84.) -/
def faultOn (u c g : Nat) (s : State) : State :=
  let (second, s) := residueCount u s
  if second then fenceAfter u 1 c g s else s

/-- An index whose unit has faulted is done again on the witness; a fault of the witness as it does so, the want of one, or a fault
after an earlier redo, be it in the output conversion alone, aborts the context (R173). (DESIGN CHOICE, log entry 67.) -/
def redoIndex (u c g : Nat) (o : OpenIdx) (redoFaults : Bool) (s : State) : State :=
  let x := theCtx s c
  match if o.faulty = [] then (rolesOf s o.unit o.faulty)[1]? else none with
  | none => abortCtx c 5 (plainOffence s x) (faultOn u c g s)
  | some w =>
    let s := faultOn u c g s
    if redoFaults then abortCtx c 5 (plainOffence s x) (faultOn w c g s)
    else modOpen c g (fun o => { o with faulty := o.faulty ++ [u] }) s

/-- A fault of the unit that reduces or converts an index (R173). (DESIGN CHOICE, log entry 67.) -/
def residueIndex (u c g : Nat) (redoFaults : Bool) (s : State) : State :=
  let x := theCtx s c
  match openOf x g with
  | none => s
  | some o =>
    if x.state = .active ∧ o.phase = .reducing ∧ primaryOf s o = some u then redoIndex u c g o redoFaults s else s

/-! ### Uncorrectable errors of staging (R377) -/

/-- An uncorrectable error in a barn's Loft is counted and reported with its context (R377). (DESIGN CHOICE, log entry 89.) -/
def loftUE (b c : Nat) (x : Ctx) (s : State) : State :=
  report { faultAt 0x0F01 1 (halfOfBarn b) b 0 with partition := ctxPartition x, ctx := some c } (bumpIn b 22 s)

/-- The accumulator of an open index reads with an uncorrectable error: a residue fault of its unit (R173, R377).
(DESIGN CHOICE, log entry 89.) -/
def accumulatorUE (c g : Nat) (s : State) : State :=
  let x := theCtx s c
  match (openOf x g).bind fun o => (primaryOf s o).map fun u => (o, u) with
  | some (o, u) =>
    if x.state = .active ∧ o.phase = .reducing then
      residueIndex u c g false (loftUE (feedingBarn s x (sheafOf x g)) c x s)
    else s
  | none => s

/-- A staged contribution of an open index reads with an uncorrectable error: it is removed, the index is reduced again, and its
member is sent RESEND where R140 allows it (R377). (DESIGN CHOICE, log entry 89.) -/
def stagedUE (c g m : Nat) (s : State) : State :=
  let x := theCtx s c
  match openOf x g with
  | none => s
  | some o =>
    if x.state = .active ∧ (o.phase = .reducing ∨ o.phase = .winnowing) ∧ !lacks x g m then
      let s := modOpen c g (fun o => { o with contribs := o.contribs.filter (fun k => k.member != m), phase := .reducing, formed := none })
        (loftUE (feedingBarn s x (sheafOf x g)) c x s)
      if x.front ≤ g ∧ g < x.front + ctxDepth x then sendResend c x 1 m (sheafOf x g) (epochOf x g) s else s
    else s

/-- What an ABORT says of a contribution (R148). -/
def offenceOf (x : Ctx) (h : Header) : Offence :=
  { sheaf := h.sheafNo, epoch := h.collEpoch, member := some h.member, rx := h.w6.toNat,
    expected := digestAt x h.collEpoch, id := h.srcId, len := h.len }

/-- The arrival table of R139. -/
def arrive (p : Packet) (s : State) : State :=
  let h := p.hdr
  let c := h.ctxId
  let x := theCtx s c
  let n := h.sheafNo
  let d := epochDist x h.collEpoch
  let g := indexOf x d n
  if x.state ≠ .active then bumpColl 0 s x n
  else if h.partition ≠ ctxPartition x then bumpColl 1 s x n
  else if ctxCount x ≤ h.member ∨ memberAt x h.member h.collEpoch ≠ h.srcId then bumpColl 2 s x n
  else if 32768 ≤ d ∨ (d = 0 ∧ g < x.front) then bumpColl 3 s x n
  else if 2 ≤ d then abortCtx c 4 (offenceOf x h) s
  else if h.w6.toNat ≠ digestAt x h.collEpoch then abortCtx c 1 (offenceOf x h) s
  else if h.len ≠ ctxS x / 16 then abortCtx c 2 (offenceOf x h) s
  else if ctxN x ≤ n then abortCtx c 3 (offenceOf x h) s
  else if x.front + ctxDepth x ≤ g then sendResend c x 4 h.member n h.collEpoch s
  else if isComplete x g then bumpColl 3 s x n
  else if !lacks x g h.member then bumpColl 4 s x n
  else accept c g h p.payload s

/-- What the reads that a contribution calls for meet: the accumulator of its index, or a staged contribution, with an
uncorrectable error (R377). (DESIGN CHOICE, log entry 89.) -/
def stagingReads (h : Header) (ue : Option (Option (Fin 1024))) (s : State) : State :=
  let g := indexOf (theCtx s h.ctxId) (epochDist (theCtx s h.ctxId) h.collEpoch) h.sheafNo
  match ue with
  | none => s
  | some none => accumulatorUE h.ctxId g s
  | some (some m) => stagedUE h.ctxId g m s

/-- SHEAF_ARRIVAL: a contribution at the staging sink (R139, R140, R377). (DESIGN CHOICE, log entry 137.) -/
def sheafArrival (port : Nat) (p : Packet) (ue : Option (Option (Fin 1024))) (s : State) : State :=
  if p.hdr.ver < 2 ∧ p.hdr.kind = Kind.sheaf ∧ payloadFits p then
    atSink p (fun s =>
      if crcOk p then stagingReads p.hdr ue (arrive p s)
      else
        let x := theCtx s p.hdr.ctxId
        badContribution 1 p.hdr (termCrcFail port p (bumpColl 5 s x p.hdr.sheafNo))) s
  else s

/-! ### Acknowledgements and NAKs (R144, R145) -/

/-- The member that an endpoint is at an epoch. -/
def memberOf (x : Ctx) (id e : Nat) : Option Nat := (List.range (ctxCount x)).find? fun m => memberAt x m e == id

/-- A released result within its half-open retention interval at an instant (R144). (DESIGN CHOICE, log entry 69.) -/
def withinRetention (t : Nat) (x : Ctx) (r : Retained) : Bool :=
  r.left && (ctxRetainUs x == 0 || decide (t < r.releasedAt + usU (ctxRetainUs x)))

/-- The released result that an acknowledgement names, within its retention interval as its trailer is verified (R144, R312).
(DESIGN CHOICE, log entry 69.) -/
def retNamed (t : Nat) (x : Ctx) (h : Header) : Option Retained :=
  x.retained.find? fun r => withinRetention t x r && !r.upPartial && r.sheaf == h.sheafNo && r.epoch == h.collEpoch

/-- The context can answer acknowledgements and NAKs. -/
def answers (x : Ctx) : Bool := x.state == .active || x.state == .aborted

/-- Frees the retention slot of an index. -/
def freeSlot (c g : Nat) (s : State) : State :=
  modCtx c (fun x => { x with retained := x.retained.filter fun r => r.index != g }) s

/-- A member acknowledges a result; the slot is freed once all have (R144). -/
def ackTaken (port : Nat) (p : Packet) (t : Nat) (s : State) : State :=
  let h := p.hdr
  let x := theCtx s h.ctxId
  if !crcOk p then termCrcFail port p s
    else match retNamed t x h, memberOf x h.srcId h.collEpoch with
      | some r, some m =>
        if answers x then
          let acked := if r.acked.contains m then r.acked else r.acked ++ [m]
          let s := modRet h.ctxId r.index (fun r => { r with acked := acked }) s
          let s := modCtx h.ctxId (fun x => { x with made := x.made.map fun k =>
            if k.index == r.index then { k with acked := acked } else k }) s
          if ctxCount x ≤ acked.length then freeSlot h.ctxId r.index s else s
        else bumpColl 8 s x h.sheafNo
      | _, _ => bumpColl 8 s x h.sheafNo

/-- RESULT_ACK: an acknowledgement at the memory sink (R92, R144). -/
def resultAck (port : Nat) (p : Packet) (s : State) : State :=
  let h := p.hdr
  if h.ver < 2 ∧ h.kind = Kind.writeDone ∧ h.ackReq ∧ h.status = 0 ∧ payloadFits p then atSink p (ackTaken port p (sunkTime p s)) s else s

/-- A member's NAK: the retained copy is verified and sent again, at most three times (R145, R151). -/
def nakTaken (port : Nat) (p : Packet) (copyFails : Bool) (t : Nat) (s : State) : State :=
  let h := p.hdr
  let x := theCtx s h.ctxId
  if !crcOk p then termCrcFail port p s
    else match retNamed t x h, memberOf x h.srcId h.collEpoch with
      | some r, some m =>
        if !answers x then bumpColl 8 s x h.sheafNo
        else if 3 ≤ tget r.naks 0 m then bumpColl 9 s x h.sheafNo
        else if copyFails then recallRun h.ctxId 1 { first := r.index, log := 0, count := 1 } s
        else
          let s := modRet h.ctxId r.index (fun r => { r with naks := tmod r.naks 0 m (· + 1) }) s
          send (feedingBarn s x r.sheaf) (resultHeader s h.ctxId x (some h.srcId) r.sheaf r.payload.length r.tally) r.payload
            (some { ctx := h.ctxId, index := r.index, void := false }) s
      | _, _ => bumpColl 8 s x h.sheafNo

/-- RESULT_NAK: a NAK at the memory sink (R92, R145). -/
def resultNak (port : Nat) (p : Packet) (copyFails : Bool) (s : State) : State :=
  let h := p.hdr
  if h.ver < 2 ∧ h.kind = Kind.writeDone ∧ h.ackReq ∧ h.status ≠ 0 ∧ payloadFits p then
    atSink p (nakTaken port p copyFails (sunkTime p s)) s
  else s

/-! ### Relays (R156, R157) -/

/-- The relay contexts, whatever their state, whose upstream context is the one an endpoint runs (R438). -/
def relaysOf (s : State) (src up : Nat) : List Nat :=
  (s.coll.filter fun e => ctxUsed e.2 && ctxOut e.2 == 2 && ctxUpDst e.2 == src && ctxUpCtx e.2 == up).map Prod.fst

/-- The active ones of them, which take results (R156). -/
def takersOf (s : State) (src up : Nat) : List Nat := (relaysOf s src up).filter fun c => (theCtx s c).state == .active

/-- The open index of an epoch and a sheaf that waits for its upstream result. -/
def waitingUp (x : Ctx) (e n : Nat) : Option (Nat × OpenIdx) :=
  x.opens.find? fun o => o.2.phase == .waitUpstream && epochOf x o.1 == e && sheafOf x o.1 == n

/-- A relay takes an upstream result: acknowledgement, replacement of the partial, release (R156). (DEDUCED, log entry 65.) -/
def relayTakes (c : Nat) (p : Packet) (s : State) : State :=
  let h := p.hdr
  let x := theCtx s c
  let n := h.sheafNo
  let e := fld h.w6 15 0
  let ack := ownHeader s Kind.writeDone (ctxTc x) false (ctxPartition x) (ctxUpDst x) 0 0 (pack [(20, ctxUpCtx x)]) (w32 n)
    (pack [(0, 1)]) (pack [(16, e)])
  let s := send (feedingBarn s x n) ack [] none s
  match waitingUp x e n with
  | none => s
  | some (g, o) =>
    if ctxS x < p.payload.length then abortCtx c 0x0B (plainOffence s x) s
    else
      let wit := bitAt h.w6 31 && bitAt (o.formed.elim 0 fun f => f.tally) 31
      let tally := tallyWord wit (ctxCount x) e
      let crc := packetCrc (resultHeader s c x none n p.payload.length tally) p.payload
      let gated := gatedNow x e
      let s := modOpen c g (fun o => { o with formed := some { payload := p.payload, crc := crc, tally := tally } }) s
      let s := modRet c g (fun r => { r with payload := p.payload, crc := crc, tally := tally, upPartial := false, waiting := gated }) s
      if gated then modOpen c g (fun o => { o with phase := .gated }) s else sendResult c g p.payload tally s

/-- RELAY_RESULT_RX: a SHEAF_RESULT for the device's own ID (R156). -/
def relayResult (port : Nat) (p : Packet) (s : State) : State :=
  if p.hdr.ver < 2 ∧ p.hdr.kind = Kind.sheafResult ∧ !p.hdr.mc ∧ payloadFits p then
    atSink p (fun s =>
      if !crcOk p then termCrcFail port p s
      else match takersOf s p.hdr.srcId p.hdr.ctxId with
        | [] => bumpColl 8 s (theCtx s p.hdr.ctxId) p.hdr.sheafNo
        | cs => cs.foldl (fun s c => relayTakes c p s) s) s
  else s

/-- The partial of a sheaf has not gone up yet: its local reduction has not ended (R156). (DEDUCED, log entry 65.) -/
def notYetUp (x : Ctx) (h : Header) : Bool :=
  let g := epochNo x h.collEpoch * ctxN x + h.sheafNo
  !isComplete x g && (openOf x g).all fun o => o.phase == .reducing || o.phase == .winnowing || o.phase == .waitSlot

/-- A relay's answer to a RESEND of its upstream context; one for a partial that is still to be sent has no effect
(R156). (DEDUCED, log entry 65.) -/
def relayResend (c : Nat) (h : Header) (s : State) : State :=
  let x := theCtx s c
  match x.retained.find? fun r => r.upPartial && r.sheaf == h.sheafNo && r.epoch == h.collEpoch with
  | some r => sendPartial c r.index r.payload s
  | none => if notYetUp x h then s else abortCtx c 0x0B (plainOffence s x) s

/-- An epoch is not earlier than a context's first one. -/
def sinceFirst (x : Ctx) (e : Nat) : Bool :=
  let d := (e + 65536 - frontEpoch x) % 65536
  decide (d < 32768) || decide (65536 - d ≤ x.front / ctxN x)

/-- The sheaves of a received RECALL, recalled again on the relay's tree, also by an ABORTED relay, whose results stay retained
(R150, R157). -/
def relayRecall (c : Nat) (h : Header) (s : State) : State :=
  let x := theCtx s c
  let log := fld h.w6 27 25
  let count := fld h.w6 24 0
  let first := epochNo x h.collEpoch * ctxN x + h.sheafNo
  let gs := if sinceFirst x h.collEpoch then (List.range count).map fun i => first + i * 2 ^ log else []
  if answers x then recallNamed c 3 h.sheafNo h.collEpoch log count gs s else s

/-- One notice applied to one relay context. (DEDUCED, log entry 65.) -/
def relayNotice (c : Nat) (h : Header) (s : State) : State :=
  match h.code with
  | 1 => abortCtx c 0x0C (plainOffence s (theCtx s c)) s
  | 2 => relayResend c h s
  | _ => relayRecall c h s

/-- An ABORT of a relay that names a member of a RETURN context of this device (R157). (DEDUCED, log entry 65.) -/
def fromRelay (s : State) (h : Header) : Bool :=
  let x := theCtx s h.ctxId
  h.code == 1 && h.reason == 0x0B && x.state == .active && ctxOut x == 3 && bitAt h.w6 31 &&
    memberAt x (fld h.w6 19 10) h.collEpoch == h.srcId

/-- UPSTREAM_NOTICE_RX: ABORT, RESEND and RECALL of the upstream context, and a relay's ABORT at its upstream context
(R157, R438). (DEDUCED, log entry 65.) -/
def upstreamNotice (port : Nat) (p : Packet) (s : State) : State :=
  let h := p.hdr
  if h.ver < 2 ∧ h.kind = Kind.notice ∧ payloadFits p then
    atSink p (fun s =>
      if !crcOk p then termCrcFail port p s
      else if fromRelay s h then abortCtx h.ctxId 0x0B (plainOffence s (theCtx s h.ctxId)) s
      else if 1 ≤ h.code ∧ h.code ≤ 3 ∧ relaysOf s h.srcId h.ctxId ≠ [] then
        let cs := (relaysOf s h.srcId h.ctxId).filter fun c =>
          h.code != 2 || !bitAt h.w6 31 || fld h.w6 19 10 == ctxUpMember (theCtx s c)
        cs.foldl (fun s c => relayNotice c h s) s
      else bumpIn (barnOf port) 32 s) s
  else s

/-! ### Timers (R141, R143, R144, R151) -/

/-- The members that have not contributed to an open index. -/
def missing (x : Ctx) (o : OpenIdx) : List Nat :=
  (List.range (ctxCount x)).filter fun m => !o.contribs.any fun k => k.member == m

/-- STALL_TIMER (R141). (DESIGN CHOICE, log entry 6.) -/
def stallTimer (c g : Nat) (s : State) : State :=
  let x := theCtx s c
  match openOf x g with
  | none => s
  | some o =>
    let ms := missing x o
    if x.state = .active ∧ ctxStallUs x ≠ 0 ∧ ms ≠ [] ∧ o.stallAt + usU (ctxStallUs x) ≤ s.time.now then
      let n := sheafOf x g
      let e := epochOf x g
      let s := ms.foldl (fun s m => sendResend c x 3 m n e s) s
      let s := post 0x05 [pack [(20, c)], w32 n, pack [(16, e)], w32 ms.length, 0, 0, 0, 0, 0] (some (memberBits ms)) s
      modOpen c g (fun o => { o with stallAt := o.stallAt + usU (ctxStallUs x) }) (capture 14 c s)
    else s

/-- RETAIN_STALL_RESUME: the lowest index that waits for a slot proceeds when one is free (R143). -/
def retainResume (c : Nat) (s : State) : State :=
  let x := theCtx s c
  match sortNat ((x.opens.filter fun o => o.2.phase == .waitSlot).map Prod.fst) with
  | g :: _ => if x.retained.length < ctxRetSlots x then proceed c g s else s
  | [] => s

/-- A sink still holds an acknowledgement, a NAK or a READ whose trailer was verified before an instant: its window is that of the
verification (R312). (DESIGN CHOICE, log entry 69.) -/
def sunkBefore (s : State) (t : Nat) : Bool :=
  s.core.barns.any fun e => e.2.stored.any fun x =>
    x.sink != 0 && x.info.inPort.isSome && (x.info.hdr.kind == Kind.writeDone || x.info.hdr.kind == Kind.read) && whole x &&
      decide (x.info.verAt < t)

/-- RETAIN_EXPIRED, once the sinks hold no packet that came within the interval (R144, R312). (DESIGN CHOICE, log entry 6.) -/
def retainExpired (c g : Nat) (s : State) : State :=
  let x := theCtx s c
  match retOf x g with
  | some r =>
    if r.left ∧ answers x ∧ ctxRetainUs x ≠ 0 ∧ r.releasedAt + usU (ctxRetainUs x) ≤ s.time.now ∧
        !sunkBefore s (r.releasedAt + usU (ctxRetainUs x)) then
      bumpColl 7 (freeSlot c g s) x r.sheaf
    else s
  | none => s

/-- RETENTION_SCRUB: a retained result is verified; one that fails is recalled (R151). (DESIGN CHOICE, log entry 89.) -/
def retentionScrub (c g : Nat) (fails : Bool) (s : State) : State :=
  let x := theCtx s c
  match retOf x g with
  | some r => if r.left ∧ answers x ∧ fails then recallRun c 1 { first := g, log := 0, count := 1 } s else s
  | none => s

/-! ### Staging (R198) -/

/-- Cells of one accumulator of a context (R198). -/
def accCells (x : Ctx) : Nat :=
  ((if isInt (ctxInType x) then 8 else 4) * elemsIn (ctxInType x) (ctxS x) + 255) / 256

/-- Cells of a barn's staging that a context reserves for accumulators (R198). -/
def reservedFor (x : Ctx) (b : Nat) : Nat :=
  ((List.range (ctxSpan x)).filter fun i => barnOfUnit (ctxTuFirst x + i) == b).length *
    (((ctxDepth x + ctxSpan x - 1) / ctxSpan x) * accCells x)

/-- Accumulator cells reserved in a barn. (DESIGN CHOICE, log entry 72.) -/
def reservedIn (s : State) (b : Nat) : Nat := ((s.coll.filter fun e => ctxUsed e.2).map fun e => reservedFor e.2 b).sum

/-- Cells of a barn's staging that contributions of an index hold. (DESIGN CHOICE, log entry 72.) -/
def stagedCells (s : State) (b : Nat) (x : Ctx) (o : Nat × OpenIdx) : Nat :=
  if feedingBarn s x (sheafOf x o.1) = b then
    (o.2.contribs.filter fun k => !k.inStore).length * (ctxS x / 256)
  else 0

/-- Free staging cells of a barn. (DESIGN CHOICE, log entry 72.) -/
def stagingFree (s : State) (b : Nat) : Nat :=
  (theBarn s b).stageCells - (reservedIn s b + (s.coll.map fun e => (e.2.opens.map fun o => stagedCells s b e.2 o).sum).sum)

/-- STAGING_MOVE: with fewer than 1,024 free cells the contributions of the oldest open index go to the store (R198).
One that reads with an uncorrectable error is removed (R377). (DESIGN CHOICE, log entry 72.) -/
def stagingMove (b : Nat) (ue : Option (Fin 4096 × Nat × Fin 1024)) (s : State) : State :=
  if 1024 ≤ stagingFree s b then s
  else
    let cands := s.coll.flatMap fun e => (e.2.opens.filter fun o => decide (0 < stagedCells s b e.2 o)).map fun o => (e.1, o)
    match argMin (fun i => (cands[i]?).elim 0 fun k => k.2.2.firstAt) (List.range cands.length) with
    | some i =>
      match cands[i]? with
      | some k =>
        let s := modOpen k.1 k.2.1 (fun o => { o with contribs := o.contribs.map fun q => { q with inStore := true } }) s
        match ue with
        | some (c, g, m) => if c.val = k.1 ∧ g = k.2.1 then stagedUE c g m s else s
        | none => s
      | none => s
    | none => s

/-! ### Meanings -/

/-- SHEAF_ARRIVAL. -/
def execSheafArrival (port : Fin 1024) (sheaf : SheafRx) (s : State) : Host.Outcome State Fault Refusal :=
  .next (sheafArrival port sheaf.pkt sheaf.ue s)
/-- RESULT_ACK. -/
def execResultAck (port : Fin 1024) (pkt : Packet) (s : State) : Host.Outcome State Fault Refusal :=
  .next (resultAck port pkt s)
/-- RESULT_NAK. -/
def execResultNak (port : Fin 1024) (pkt : Packet) (copyFails : Bool) (s : State) : Host.Outcome State Fault Refusal :=
  .next (resultNak port pkt copyFails s)
/-- RELAY_RESULT_RX. -/
def execRelayResultRx (port : Fin 1024) (pkt : Packet) (s : State) : Host.Outcome State Fault Refusal :=
  .next (relayResult port pkt s)
/-- UPSTREAM_NOTICE_RX. -/
def execUpstreamNoticeRx (port : Fin 1024) (pkt : Packet) (s : State) : Host.Outcome State Fault Refusal :=
  .next (upstreamNotice port pkt s)
/-- RESULT_FORMED. -/
def execResultFormed (ctx : Fin 4096) (index : Nat) (s : State) : Host.Outcome State Fault Refusal :=
  .next (formResult ctx index s)
/-- WINNOW_COMPARE. -/
def execWinnowCompare (ctx : Fin 4096) (index : Nat) (verdict : WinnowVerdict) (s : State) :
    Host.Outcome State Fault Refusal := .next (settleWinnow (winnowCompare ctx index verdict s))
/-- RETAIN_STALL_RESUME. -/
def execRetainStallResume (ctx : Fin 4096) (s : State) : Host.Outcome State Fault Refusal := .next (retainResume ctx s)
/-- STALL_TIMER. -/
def execStallTimer (ctx : Fin 4096) (index : Nat) (s : State) : Host.Outcome State Fault Refusal :=
  .next (stallTimer ctx index s)
/-- RETAIN_EXPIRED. -/
def execRetainExpired (ctx : Fin 4096) (index : Nat) (s : State) : Host.Outcome State Fault Refusal :=
  .next (retainExpired ctx index s)
/-- RETENTION_SCRUB. -/
def execRetentionScrub (ctx : Fin 4096) (index : Nat) (fails : Bool) (s : State) : Host.Outcome State Fault Refusal :=
  .next (retentionScrub ctx index fails s)
/-- STAGING_MOVE. -/
def execStagingMove (read : StagingRead) (s : State) : Host.Outcome State Fault Refusal :=
  .next (stagingMove read.barn read.ue s)

end Sys2Proof.Machine
end

