-- ==== Sys2Proof/Machine/Sched.lean ====
section
/-! DEFINITION. Classes, shaping and policing (R116 to R130). -/

namespace Sys2Proof.Machine

/-! ### Profiles (R120) -/

/-- A profile from its 64-bit image. -/
def profileOf (n : Nat) : Profile := { en := nfld n 63 63 == 1, rate := nfld n 41 24, burst := nfld n 23 0 }

/-- A profile within the ranges of R120. -/
def profileOk (p : Profile) : Bool :=
  !p.en || (decide (1 ≤ p.rate ∧ p.rate ≤ 204800) && decide (4136 ≤ p.burst) && decide (p.rate ≤ p.burst))

/-- Key of a shaper or policer. -/
def clsKey (port c : Nat) : Nat := port * 8 + c

/-- A port base of a configured port (R6, R130). -/
def portBase (s : State) (p : Nat) : Bool := decide (p < 1024) && (thePort s p).configured

/-- A bucket takes a new entry: TOKENS becomes BURST where EN rises, 0 where EN is 0 (R122, R124). (DEDUCED, log entry 58.) -/
def rebucket (p : Profile) (b : Bucket) : Bucket :=
  { prof := p, tokens := if p.en then (if b.prof.en then b.tokens else (p.burst : Int)) else 0 }

/-- The refill of one bucket: RATE added, capped at BURST (R119). (DEDUCED, log entry 58.) -/
def refill (b : Bucket) : Bucket :=
  if b.prof.en then { b with tokens := min (b.tokens + b.prof.rate) b.prof.burst } else b

/-- Applies a function to every listed bucket. -/
def mapBuckets (f : Bucket → Bucket) (t : Tab Bucket) : Tab Bucket :=
  (t.map fun e => (e.1, f e.2)).filter fun e => e.2 != {}

/-- The profile in force of every shaper becomes the one of a bank (R122). (DEDUCED, log entry 58.) -/
def applyBank (bank : Nat) (d : Sched) : Sched :=
  let keys := (d.shapers.map Prod.fst ++ (d.profiles.map Prod.fst).filterMap fun k => if k / 8192 = bank then some (k % 8192) else none).dedup
  { d with bank := bank,
           shapers := keys.foldl (fun t k => tmod t {} k fun b => rebucket (tget d.profiles {} (8192 * bank + k)) b) d.shapers }

/-- A refill instant: bank change, then profile and policer writes, then the refill (R119, R122, R123, R124).
(DESIGN CHOICE, log entry 6; DEDUCED, log entry 58.) -/
def refillInstant (d : Sched) : Sched :=
  let d := match d.bankPend with
    | some b => { applyBank b d with bankPend := none }
    | none => d
  let d := { d with shapers := d.shaperPend.foldl (fun t k => tmod t {} k fun b => rebucket (tget d.profiles {} (8192 * d.bank + k)) b) d.shapers,
                    shaperPend := [],
                    policers := d.policerPend.foldl (fun t (e : Nat × Profile) => tmod t {} e.1 fun b => rebucket e.2 b) d.policers,
                    policerPend := [] }
  { d with shapers := mapBuckets refill d.shapers, policers := mapBuckets refill d.policers }

/-- A refill instant: the nanosecond field is a multiple of 512 and the fraction is 0 (R119). -/
def onGrid (t : Nat) : Bool := t % 131072 == 0

/-- The refill instant of the present device time, once (R119). (DESIGN CHOICE, log entry 6.) -/
def refillNow (s : State) : State :=
  if onGrid s.time.now && s.sched.refilled != some s.time.now then
    s.modSched fun d => { refillInstant d with refilled := some s.time.now }
  else s

/-- REFILL_INSTANT: device time has reached a multiple of 512 ns (R119). -/
def execRefillInstant (s : State) : Host.Outcome State Fault Refusal := .next (refillNow s)

/-! ### Policing (R124) -/

/-- The policer of a port and class admits a packet, or drops it. -/
def police (port : Nat) (h : Header) (s : State) : Bool × State :=
  let k := clsKey port h.tc
  let b := tget s.sched.policers {} k
  if b.prof.en then
    if (h.pktBytes : Int) ≤ b.tokens then
      (true, s.modSched fun d => { d with policers := tset d.policers {} k { b with tokens := b.tokens - h.pktBytes } })
    else
      let s := bumpBy (ctr 1 (barnOf port) (24 + h.tc)) h.pktBytes s
      (false, if s.count.tally.policeMask.getLsbD h.tc then bump (ctr 6 (barnOf port) (port % 64)) s else s)
  else (true, s)

/-! ### LAT_SUSPENDED (R128, R129) -/

/-- A capture of the port-state source (R310). -/
def capturePort (kind port : Nat) (s : State) : State := capture 8 (kind * 1024 + port) s

/-- A cause of suspension begins: 1 CALIBRATION, 2 KILN_SWAP, 3 V0_RATE. (DESIGN CHOICE, log entry 59.) -/
def latBegin (port cause : Nat) (s : State) : State :=
  let w := tget s.sched.lat {} port
  if w.causes.contains cause then s
  else
    let w' := { w with causes := w.causes ++ [cause] }
    if w.causes = [] then
      let w' := { w' with sinceS := secOf s.time.now % 65536, sinceNs := nsOf s.time.now }
      bump (ctr 7 (barnOf port) (port % 64))
        (capturePort 2 port (s.modSched fun d => { d with lat := tset d.lat {} port w' }))
    else s.modSched fun d => { d with lat := tset d.lat {} port w' }

/-- A cause of suspension ends; the flag is cleared when every cause has ended. (DESIGN CHOICE, log entry 59.) -/
def latEnd (port cause : Nat) (s : State) : State :=
  let w := tget s.sched.lat {} port
  if w.causes.contains cause then
    let cs := w.causes.filter (· != cause)
    if cs = [] then
      capturePort 3 port (s.modSched fun d =>
        { d with lat := tset d.lat {} port { causes := [], sinceS := secOf s.time.now % 65536, sinceNs := nsOf s.time.now } })
    else s.modSched fun d => { d with lat := tset d.lat {} port { w with causes := cs } }
  else s

/-- The scheduling status word of a port (R129). (DESIGN CHOICE, log entry 59.) -/
def latWord (s : State) (p : Nat) : Nat :=
  if portBase s p then
    let w := tget s.sched.lat {} p
    packN [(63, bit (w.causes != [])), (60, w.causes.headD 0), (44, w.sinceS), (14, w.sinceNs), (0, p)]
  else p

/-! ### The scheduler of a port (R95, R118, R271) -/

/-- A lane of a port sends a packet, or holds it to be sent next. -/
def assigned (s : State) (p pid : Nat) : Bool :=
  (portLanes s p).any fun l => ((laneLink s l).tx.any fun t => t.pid == pid) || (laneLink s l).next.any fun n => n.1 == pid

/-- The packets of a port's class queue that no lane has been chosen for. -/
def waitingIn (s : State) (p c : Nat) : List Nat :=
  (tget (theBarn s (barnOf p)).egq [] (p % 64 * 8 + c)).filter fun pid => !assigned s p pid

/-- The cells of a class that lanes of a port are to begin. -/
def promised (s : State) (p c : Nat) : Nat :=
  ((portLanes s p).map fun l => match (laneLink s l).next.bind fun n => storedPkt s (barnOf p) n.1 with
    | some x => if x.info.hdr.tc = c then x.info.hdr.cells else 0
    | none => 0).sum

/-- A class has the credit to begin a packet, after those that wait to be begun (R271). -/
def hasCredit (s : State) (p : Nat) (h : Header) : Bool :=
  let k := clsKey p h.tc
  decide (h.cells + promised s p h.tc ≤ (tget s.link.crLimit 0 k + 2 ^ 24 - tget s.link.cellsSent 0 k % 2 ^ 24) % 2 ^ 24)

/-- A lane of the port is sending a packet. -/
def transmitting (s : State) (p : Nat) : Bool :=
  (portLanes s p).any fun l => (laneLink s l).tx.isSome || (laneLink s l).next.isSome

/-- The head of a class queue is eligible: whole, or cut-through under the second case of R95, and with credit. A packet that
was spilled is never sent cut-through (R111). -/
def headEligible (s : State) (p c : Nat) (x : Stored) : Bool :=
  !x.dead && hasCredit s p x.info.hdr &&
  (whole x || (x.linked && decide (0 < prefixCells x) && !x.refilled && decide ((waitingIn s p c).length = 1) && !transmitting s p))

/-- The shaper of a port and class lets a packet pass (R121). -/
def shaperPasses (s : State) (p c : Nat) : Bool :=
  let b := tget s.sched.shapers {} (clsKey p c)
  !b.prof.en || decide (0 ≤ b.tokens)

/-- The head of a port's class queue. -/
def egHead (s : State) (p c : Nat) : Option Stored :=
  match waitingIn s p c with
  | [] => none
  | pid :: _ => storedPkt s (barnOf p) pid

/-- The packet that a port's scheduler selects among classes below `n` (R118). -/
def selectFrom (s : State) (p n : Nat) : Option Stored :=
  match n with
  | 0 => none
  | c + 1 =>
    match egHead s p c with
    | some x => if headEligible s p c x && shaperPasses s p c then some x else selectFrom s p c
    | none => selectFrom s p c

/-- The shaper's debit of a selected packet (R121). (DESIGN CHOICE, log entry 49.) -/
def debit (p : Nat) (h : Header) (s : State) : State :=
  s.modSched fun d =>
    { d with shapers := tmod d.shapers {} (clsKey p h.tc) fun b => if b.prof.en then { b with tokens := b.tokens - h.pktBytes } else b }

/-- The packet is forwarded within the bound of R126, so that it does not underrun (R95): the queues as they were at its first
cell, and what a selection can see of the other conditions. (DEDUCED, log entry 156.) -/
def inBound (s : State) (p : Nat) (x : Stored) : Bool :=
  let b := barnOf p
  x.info.hdr.tc == 7 && !(thePort s p).v0 && !egHeld (theBarn s b) 7 &&
  (List.range 4).all (fun i => !(thePlane s i).fenced) && x.alone &&
  decide ((tget s.sched.lat {} p).causes = []) &&
  (match x.info.inPort with
   | some q => (thePort s q).up && !(thePort s q).v0 && decide ((tget s.sched.lat {} q).causes = [])
   | none => false)

/-! ### The lanes of a port (R77, R118, R255 to R257, R265) -/

/-- The first flit of a result's copy is about to leave. -/
def resultGoes (l : Nat) (s : State) : State :=
  match (laneLink s l).tx with
  | some t =>
    match storedPkt s (barnOf l) t.pid with
    | some x =>
      if t.sent = 0 ∧ !t.abort ∧ 0 < windowRoom (laneLink s l) ∧ 0 < flitsReady x ∧ (badStored s (barnOf l) x).isNone then
        match x.info.result with
        | some r => resultLeaves r s
        | none => s
      else s
    | none => s
  | none => s

/-- A packet of which nothing has left and that has been withheld by an abort is not sent (R150). -/
def withheldOn (s : State) (l pid : Nat) : Bool :=
  (storedPkt s (barnOf l) pid).any fun x => x.info.result.any fun r => r.void

/-- A packet that a lane has taken and of which nothing has left is taken back and dropped where an abort has withheld it: the
credit that it was to use is free again (R150). (DESIGN CHOICE, log entry 62.) -/
def dropWithheld (l : Nat) (s : State) : State :=
  match (laneLink s l).tx with
  | some t =>
    if t.sent = 0 ∧ withheldOn s l t.pid then
      match storedPkt s (barnOf l) t.pid with
      | some x =>
        let s := (abortTx l s).modLink fun k =>
          { k with cellsSent := tmod k.cellsSent 0 (clsKey t.port x.info.hdr.tc) (· - x.info.hdr.cells) }
        dropRef (barnOf l) t.pid t.port (traceStored x { outcome := 1, outPort := t.port, barn := barnOf l } s)
      | none => s
    else s
  | none => s

/-- A lane goes on with the packet that it sends. -/
def driveTx (l : Nat) (s : State) : State := feedTx l (resultGoes l (dropWithheld l s))

/-- A lane begins the packet that waits for it: the cells it takes of the credit, its place in the retry buffer (R257, R271);
where its cells are still to come, the lane may have to send idle flits (R95). (DESIGN CHOICE, log entries 49, 56.) -/
def startTx (l : Nat) (s : State) : State :=
  match (laneLink s l).next, portOfLane s l with
  | some (pid, at_), some p =>
    let s := modLaneLink l (fun k => { k with next := none }) s
    match storedPkt s (barnOf l) pid with
    | none => s
    | some x =>
      if withheldOn s l pid then dropRef (barnOf l) pid p (traceStored x { outcome := 1, outPort := p, barn := barnOf l } s)
      else
        let h := x.info.hdr
        let s := s.modLink fun k => { k with cellsSent := tmod k.cellsSent 0 (clsKey p h.tc) (· + h.cells) }
        let s := if whole x ∨ inBound s p x then s else bumpBy (ctr 2 (barnOf p) 3) (freeBelow s 2) s.tookFree
        let t : Tx := { pid := pid, port := p, sent := 0, abort := false, cut := !whole x, selAt := at_, outAt := s.time.now }
        driveTx l (modLaneLink l (fun k => { k with tx := some t }) (openEntry l p none .partly s))
  | _, _ => s

/-- A packet that a rehomed lane had sent is sent again whole: its flits, and its place in the retry buffer (R265). -/
def sendAgain (l p : Nat) (i : PktInfo) (s : State) : State :=
  let pk := packetOf i.hdr i.bytes
  let n := flitsOf i.hdr.pktBytes
  let s := putDatas l i.bytes n 0 n (openEntry l p (some i) .sentWhole s)
  emit (.packet p l i.hdr pk.payload pk.crc) s

/-- The packets of a port that are to be sent again go first, in their order, on lanes that R77 chooses, where nothing is
being sent and the window has room for them (R77, R255, R257, R265). (DESIGN CHOICE, log entry 97.) -/
def sendsAgain (n p : Nat) (s : State) : State :=
  match n with
  | 0 => s
  | n + 1 =>
    match tget s.link.resend [] p with
    | [] => s
    | i :: rest =>
      match nextLane p s with
      | none => s
      | some l =>
        let k := laneLink s l
        if k.tx.isSome ∨ k.stopped ∨ windowRoom k < flitsOf i.hdr.pktBytes then s
        else
          let s := (chooseLane p i.hdr.pktBytes s).2
          sendsAgain n p (sendAgain l p i (s.modLink fun k => { k with resend := tset k.resend [] p rest }))

/-- A TIME packet of a port waits for a lane: it goes before the packet that waits there (R256, R301). -/
def timeWaits (s : State) (p l : Nat) : Bool := tget s.link.timeQ [] p != [] && (spraySet s p).head? == some l

/-- A lane of a port begins the packet that waits for it, unless it sends one (R118, R255). (DESIGN CHOICE, log entry 97.) -/
def startNext (p l : Nat) (s : State) : State :=
  if sends s l ∧ (laneLink s l).tx.isNone ∧ !timeWaits s p l then flushPort p (startTx l s) else s

/-- The packets of a port that wait for its lanes begin, once none is left to be sent again: those go first (R265).
(DESIGN CHOICE, log entry 97.) -/
def startWaiting (p l : Nat) (again : Bool) (s : State) : State :=
  if tget s.link.resend [] p ≠ [] then s
  else if again then (portLanes s p).foldl (fun s m => startNext p m s) s
  else startNext p l s

/-- What a lane of a port can send now: the rest of its packet; then control messages, packets to be sent again, and the
packet that waits (R118, R255, R263, R265). -/
def pump (l : Nat) (s : State) : State :=
  let s := if sends s l then driveTx l s else s
  match portOfLane s l with
  | none => s
  | some p =>
    let again := tget s.link.resend [] p
    startWaiting p l (again != []) (sendsAgain again.length p (flushPort p s))

/-- Every lane that sends or holds something, and every port that has packets to send again, goes on with what it can send
now. -/
def pumpAll (s : State) : State :=
  ((s.link.lanes.filter fun e => e.2.tx.isSome || e.2.next.isSome || e.2.ctlQ != []).map Prod.fst ++ s.link.resend.map Prod.fst).foldl
    (fun s l => pump l s) s

/-- A selected packet goes to its lane, and waits behind what the lane is sending (R77, R118). (DESIGN CHOICE, log entry 49.) -/
def dispatch (p : Nat) (x : Stored) (s : State) : State :=
  match chooseLane p x.info.hdr.pktBytes s with
  | (none, s) => s
  | (some l, s) => pump l (modLaneLink l (fun k => { k with next := some (x.info.pid, s.time.now) }) s)

/-- The lane that R77 would choose holds no packet that waits behind the one it is sending, and none of the port is to be sent again,
which goes ahead of what its scheduler selects (R118, R265). (DESIGN CHOICE, log entry 97.) -/
def laneFree (s : State) (p : Nat) : Bool :=
  tget s.link.resend [] p == [] && match nextLane p s with
  | some l => (laneLink s l).next.isNone && !(laneLink s l).stopped
  | none => false

/-- The parity of a packet's queue entry or of a cell descriptor fails: it is counted and reported, the packet is discarded or
aborted, and its stored cells are left to the Gleaner (R377). (DESIGN CHOICE, log entries 49, 140.) -/
def parityDrop (b : Nat) (x : Stored) (s : State) : State :=
  let rep := { faultAt 0x0F01 1 (halfOfBarn b) b (x.handles.headD (0, 65535)).2 with
    partition := x.info.hdr.partition, ctx := x.info.result.map fun r => r.ctx }
  discardPkt x.info.pid (modBarn b (fun y => { y with leftEg := y.leftEg ++ x.handles.map Prod.snd })
    (modStored b x.info.pid (fun y => { y with handles := [] }) (report rep (bumpIn b 23 s))))

/-- One selection of a port's scheduler (R118): debit, admission again at selection (R327), the cell check of the read
(R88), the lane choice; `parityFails` where the parity of the queue entry or of a cell descriptor fails (R377).
(DESIGN CHOICE, log entry 49.) -/
def egressSelect (p : Nat) (parityFails : Bool) (s : State) : State :=
  let b := barnOf p
  if (thePort s p).up && barnUp s b && laneFree s p then
    match selectFrom s p 8 with
    | none => s
    | some x =>
      if parityFails then parityDrop b x s
      else
      let s := noteAdmit p x.info.hdr.partition (debit p x.info.hdr s)
      if x.info.result.any fun r => r.void then dropRef b x.info.pid p (traceStored x { outcome := 1, outPort := p, barn := b } s)
      else if !admitsOut s p x.info.inPort.isNone x.info.hdr then
        let s := bumpEg b 5 s
        let s := traceStored x { outcome := 1, outPort := p, barn := b } s
        noteDropped x.info.pid (dropRef b x.info.pid p s)
      else match badStored s b x with
        | some h => cellFail b h x.info.pid s
        | none => dispatch p x s
  else s

/-- A packet waits in some queue: a copy not yet at its egress barn, or one that no lane of its port sends (R118). -/
def awaitsSelection (s : State) (pid : Nat) : Bool :=
  s.core.barns.any fun e =>
    e.2.voqs.any (fun q => q.2.any fun x => x.pid == pid) ||
    e.2.stored.any fun x => x.info.pid == pid &&
      (!x.dead && (!x.linked || (storedPorts e.1 x.mask).any fun p => !assigned s p pid))

/-- Seeds whose last packet has been selected at every port are READY again, and the end is posted (R332, R363).
(DESIGN CHOICE, log entry 113.) -/
def settleSeeds (s : State) : State :=
  (s.jobs.seeds.filter fun e => e.2.state == 2 && e.2.sent == e.2.length && !e.2.lastPid.any fun p => awaitsSelection s p).foldl
    (fun s (e : Nat × Seed) =>
      post 0x08 [pack [(16, e.2.seedId), (0, e.1)]] none
        (s.modJobs fun j => { j with seeds := tmod j.seeds {} e.1 fun x => { x with state := 1, sent := 0, lastPid := none } })) s

/-! ### Commands (R130) -/

/-- The classes of a mask. -/
def maskClasses (m : Nat) : List Nat := (List.range 8).filter fun c => m / 2 ^ c % 2 == 1

/-- SHAPER_WRITE (R122). (DEDUCED, log entry 58.) -/
def shaperWrite (args : List Word) (s : State) : Res :=
  let port := argN args 1
  let pr := profileOf (arg64 args 4)
  if !portBase s port then cmdRefuse St.badArgument 1 s
  else if 255 < argN args 2 then cmdRefuse St.badArgument 2 s
  else if 3 < argN args 3 then cmdRefuse St.badArgument 3 s
  else if !profileOk pr then cmdRefuse St.badArgument 4 s
  else
    let ks := (maskClasses (argN args 2)).map fun c => clsKey port c
    cmdOk (s.modSched fun d =>
      { d with profiles := ks.foldl (fun t k => tset t {} (8192 * argN args 3 + k) pr) d.profiles,
               shaperPend := if argN args 3 = d.bank then d.shaperPend ++ ks.filter (fun k => !d.shaperPend.contains k)
                             else d.shaperPend })

/-- SHAPER_BANK_SET (R122). (DEDUCED, log entry 58.) -/
def shaperBankSet (args : List Word) (s : State) : Res :=
  if 3 < argN args 1 then cmdRefuse St.badArgument 1 s
  else cmdOk (s.modSched fun d => { d with bankPend := some (argN args 1) })

/-- POLICER_WRITE (R124). -/
def policerWrite (args : List Word) (s : State) : Res :=
  let port := argN args 1
  let pr := profileOf (arg64 args 3)
  if !portBase s port then cmdRefuse St.badArgument 1 s
  else if 255 < argN args 2 then cmdRefuse St.badArgument 2 s
  else if !profileOk pr then cmdRefuse St.badArgument 3 s
  else cmdOk (s.modSched fun d =>
    { d with policerPend := d.policerPend ++ (maskClasses (argN args 2)).map fun c => (clsKey port c, pr) })

/-- A range of numbers below a bound, with at least one. -/
def rangeIn (first n bound : Nat) : Bool := decide (1 ≤ n) && decide (first + n ≤ bound)

/-- The 72 bytes of one port in PORT_SCHED_READ (R130). -/
def schedImage (s : State) (p : Nat) : List Byte :=
  let tokens (t : Tab Bucket) : List Byte :=
    (List.range 8).flatMap fun c => leBytes 4 (w32i (tget t {} (clsKey p c)).tokens).toNat
  leBytes 8 (latWord s p) ++
    (if portBase s p then tokens s.sched.shapers ++ tokens s.sched.policers else List.replicate 64 0)

/-- PORT_SCHED_READ (R129, R130). -/
def portSchedRead (args : List Word) (s : State) : Res :=
  if !rangeIn (argN args 1) (argN args 2) 1024 then cmdRefuse St.badArgument (if argN args 1 < 1024 then 2 else 1) s
  else cmdOk (hostWrite (arg64 args 3) ((List.range (argN args 2)).flatMap fun i => schedImage s (argN args 1 + i)) s)

/-- SHAPER_WRITE. -/
def execShaperWrite (h : CmdHdr) (args : List Word) (s : State) : Host.Outcome State Fault Refusal :=
  runMailbox ⟨0x0501, 1, true⟩ (fun _ => 5) (fun _ s => shaperWrite args s) h args s

/-- SHAPER_BANK_SET. -/
def execShaperBankSet (h : CmdHdr) (args : List Word) (s : State) : Host.Outcome State Fault Refusal :=
  runMailbox ⟨0x0502, 1, true⟩ (fun _ => 1) (fun _ s => shaperBankSet args s) h args s

/-- POLICER_WRITE. -/
def execPolicerWrite (h : CmdHdr) (args : List Word) (s : State) : Host.Outcome State Fault Refusal :=
  runMailbox ⟨0x0503, 1, true⟩ (fun _ => 4) (fun _ s => policerWrite args s) h args s

/-- PORT_SCHED_READ. -/
def execPortSchedRead (h : CmdHdr) (args : List Word) (s : State) : Host.Outcome State Fault Refusal :=
  runMailbox ⟨0x0504, 3, true⟩ (fun _ => 4) (fun _ s => portSchedRead args s) h args s

end Sys2Proof.Machine
end

