-- ==== Sys2Proof/Machine/Ingress.lean ====
section
/-! DEFINITION. Packets received on a lane: drop checks, lookup, cells, trailer (R22, R35, R36, R39, R78, R93, R400,
R436). -/

namespace Sys2Proof.Machine

/-- The packet is addressed to the device's own ID (R33, R39). -/
def toSelf (s : State) (h : Header) : Bool := !h.mc && s.hearth.endpointId == some h.dstId

/-- A TIME packet, which R300 alone judges; KIND is not judged in a packet of a later generation (R50, R58).
(DESIGN CHOICE, log entry 138.) -/
def isTime (h : Header) : Bool := decide (h.ver < 2) && h.kind == Kind.time

/-- The BARN_IN index of the first condition of R59 that a header meets (R436 check 1). -/
def headerDrop (s : State) (h : Header) : Option Nat :=
  let old := decide (h.ver < 2)
  if old && (decide (9 ≤ h.kind) || (h.ver == 0 && (h.kind == Kind.sheaf || h.kind == Kind.sheafResult || h.kind == Kind.notice)))
    then some 2
  else if 256 < h.len then some 3
  else if old && (genExt h.dstId != 0 || genExt h.srcId != 0) then some 4
  else if old && h.mc && !mcAllowed h.kind then some 5
  else if !old && toSelf s h then some 7
  else none

/-- What becomes of a packet whose header is judged: its disposition, whether its source may be learned (it passed
admission and its policer), and its copies, with the header it leaves with. -/
structure Judged where
  disp : Disp
  teaches : Bool
  hdr : Header
  copies : List (Nat × QEntry)
  deriving DecidableEq, Repr

/-- The drop checks of R436 up to the lookup, and the lookup of R60. (DESIGN CHOICE, log entries 43, 138.) -/
def judge (port : Nat) (h : Header) (pid : Nat) (s : State) : Judged × State :=
  let b := barnOf port
  let drop (teaches : Bool) : Judged := { disp := .dropped, teaches := teaches, hdr := h, copies := [] }
  match headerDrop s h with
  | some i => (drop false, bumpIn b i s)
  | none =>
    let s := noteAdmit port h.partition s
    if !admits s port h.partition then (drop false, bumpIn b 16 s)
    else
      let (ok, s) := police port h s
      if !ok then
        (drop false, if toSelf s h && h.kind == Kind.sheaf then badContribution 2 h s else s)
      else
        let h := markEpoch s h
        if toSelf s h then
          ({ disp := .terminated, teaches := true, hdr := h, copies := [copyToSink pid (sinkFor s h).1 (sinkFor s h).2] }, s)
        else if h.hopLimit = 0 then (drop true, bumpIn b 6 s)
        else
          let h := h.decHop
          match lookup b h s with
          | (.drop, s) => (drop true, s)
          | (.uni p, s) => ({ disp := .forwarded, teaches := true, hdr := h, copies := [copyTo pid p] }, s)
          | (.multi [], s) => (drop true, s)
          | (.multi ports, s) => ({ disp := .forwarded, teaches := true, hdr := h, copies := copiesFor pid ports }, s)

/-- Changes the first record of a lane. -/
def modRx (lane : Nat) (f : RxPkt → RxPkt) (s : State) : State :=
  modLaneLink lane (fun k => { k with rx := match k.rx with
    | [] => []
    | r :: rs => f r :: rs }) s

/-- The bytes of a record that are cells of the core: the last eight wait for the trailer's check (R22).
(DESIGN CHOICE, log entry 47.) -/
def held (r : RxPkt) (ended : Bool) : Nat := if ended then r.bytes.length else r.bytes.length - 8

/-- The first record of a lane has grown from `old` bytes: cells are written, or the credit of a dropped packet's cells
returns (R93, R124, R327). (DESIGN CHOICE, log entry 47.) -/
def feed (lane port old : Nat) (ended : Bool) (s : State) : State :=
  let b := barnOf port
  match (laneLink s lane).rx with
  | [] => s
  | r :: _ =>
    let n := held r ended
    let h := headerOfBytes (r.bytes.take 32)
    let more := cellsReady n ended - cellsReady old false
    match r.disp, r.hdr with
    | .unknown, _ => s
    | .dropped, _ => if 0 < more then passCells port h.tc more s else s
    | _, none => s
    | _, some hd =>
      if r.copies ≠ [] then
        if 0 < cellsReady n ended then
          admitPkt b { pid := r.pid, hdr := hd, bytes := hd.bytes ++ (r.bytes.take n).drop 32, inPort := some port, tIn := r.tIn,
                       parse := r.parse, result := none, tagged := [] } r.copies ended
            (modRx lane (fun r => { r with copies := [] }) s)
        else s
      else match inPkt s b r.pid with
        | some p => growPkt b r.pid ((r.bytes.take n).drop p.info.bytes.length) ended s
        | none => if 0 < more then passCells port h.tc more s else s

/-- The record whose header a command judges: the first of its lane, its header not judged, or a new one.
(DESIGN CHOICE, log entry 47.) -/
def openRecord (s : State) (lane : Nat) (h : Header) : Option RxPkt :=
  match (laneLink s lane).rx with
  | [] => some { hdr := none, bytes := h.bytes, ended := false, disp := .unknown, counted := false,
                   pid := 0, copies := [], tIn := s.time.now, parse := 0 }
  | r :: _ =>
    if r.disp = .unknown ∧ 32 ≤ r.bytes.length ∧ headerOfBytes (r.bytes.take 32) = h then some r else none

/-- A lane receives packets for its port: the port's link is up, its barn works, and the lane is not lent to a circuit,
or still drains (R277, R281). -/
def takesPackets (s : State) (lane port : Nat) : Bool :=
  (thePort s port).up && barnUp s (barnOf port) && (laneState s lane != .flue || (laneOpt s lane).draining)

/-- PACKET_HEADER_RX: the header of a packet that a lane receives is judged and looked up (R436); `bad` are the table entries
whose copies in the half fail their parity as they are read (R84). (DESIGN CHOICE, log entries 41, 47.) -/
def headerRx (lane : Nat) (h : Header) (bad : List (TableKind × Nat)) (s : State) : State :=
  match portOfLane s lane, openRecord s lane h with
  | some port, some r =>
    if takesPackets s lane port && !isTime h then
      let pid := s.core.nextPid
      let (j, s) := judge port h pid (newPid (markParity (halfOf port) bad s))
      let s := dropUnread (halfOf port) bad s
      let r' := { r with hdr := if j.teaches then some j.hdr else none, disp := j.disp, pid := pid, copies := j.copies,
                           parse := s.time.now }
      feed lane port 0 false (modLaneLink lane (fun k => { k with rx := r' :: k.rx.drop 1 }) s)
    else s
  | _, _ => s

/-- A transit packet whose CRC-64 or length fails is discarded or aborted (R22). -/
def failTransit (port : Nat) (r : RxPkt) (s : State) : State :=
  discardPkt r.pid (report { faultAt 0x0202 1 (halfOf port) (barnOf port) port with
    partition := (headerOfBytes (r.bytes.take 32)).partition } s)

/-- The instant at which a packet's trailer has been verified decides what windows it lies in (R312).
(DESIGN CHOICE, log entry 69.) -/
def verified (b pid : Nat) (s : State) : State :=
  let t := s.time.now
  let s := modInPkt b pid (fun q => { q with info := { q.info with verAt := t } }) s
  (List.range 16).foldl (fun s d => modStored d pid (fun y => { y with info := { y.info with verAt := t } }) s) s

/-- The trailer of the first packet of a lane: counts, length, CRC-64, learning (R22, R78, R400, R436).
(DESIGN CHOICE, log entries 43, 47.) -/
def trailerRx (lane : Nat) (rest : List Byte) (s : State) : State :=
  match portOfLane s lane, (laneLink s lane).rx with
  | some port, r :: _ =>
    if r.disp = .unknown ∨ (r.ended ∧ rest ≠ []) ∨ (!r.ended ∧ laneState s lane = .flue ∧ !(laneOpt s lane).draining) then s
    else
      let b := barnOf port
      let old := held r false
      let r' := { r with bytes := r.bytes ++ rest, ended := true }
      let h := headerOfBytes (r'.bytes.take 32)
      let p := packetOf h r'.bytes
      let n := h.pktBytes
      let s := modLaneLink lane (fun k => { k with rx := r' :: k.rx.drop 1 }) s
      let s := bumpBy (ctr 4 b (port % 64)) n (bump (ctr 3 b (port % 64)) (bumpBy (ctr 1 b 1) n (bumpIn b 0 s)))
      let done (s : State) : State := modLaneLink lane (fun k => { k with rx := k.rx.drop 1 }) s
      let learn (s : State) : State := if r.hdr.isSome && crcOk p then teach port h s else s
      match r.disp with
      | .dropped => done (learn (feed lane port old true s))
      | .unknown => s
      | d =>
        if r'.bytes.length ≠ n then
          done (feed lane port old true (discardPkt r.pid (modRx lane (fun r => { r with disp := .dropped })
            (if r.counted then s else bumpIn b 3 s))))
        else if d = .forwarded ∧ !crcOk p then
          done (feed lane port old true (failTransit port r' (modRx lane (fun r => { r with disp := .dropped }) s)))
        else done (learn (verified b r.pid (feed lane port old true s)))
  | _, _ => s

/-- Drops what a lane has received of packets that did not end: nothing of them is sent on (R22, R254). -/
def dropRx (lane : Nat) (s : State) : State :=
  let rs := (laneLink s lane).rx.filter fun r => !r.ended
  rs.foldl (fun s r => if r.disp = .unknown ∨ r.disp = .dropped then s else discardPkt r.pid s)
    (modLaneLink lane (fun k => { k with rx := k.rx.filter fun r => r.ended }) s)

/-- Drops all that a lane of a port whose link goes down has received and not handed on (R272).
(DESIGN CHOICE, log entry 97.) -/
def dropAllRx (lane : Nat) (s : State) : State :=
  dropRx lane (modLaneLink lane (fun k => { k with rx := k.rx.map fun r => { r with ended := false } }) s)

/-- PACKET_HEADER_RX. -/
def execPacketHeaderRx (lane : Fin 1024) (hdr : HeaderRead) (s : State) : Host.Outcome State Fault Refusal :=
  .next (headerRx lane hdr.hdr hdr.bad s)
/-- PACKET_TRAILER_RX. -/
def execPacketTrailerRx (lane : Fin 1024) (rest : List Byte) (s : State) : Host.Outcome State Fault Refusal :=
  .next (trailerRx lane rest s)

end Sys2Proof.Machine
end

