-- ==== Sys2Proof/Machine/Tables.lean ====
section
/-! DEFINITION. The routing tables' commands and events (R62 to R85). -/

namespace Sys2Proof.Machine

/-! ### Images -/

/-- Numbers of `k` bytes each, little-endian, read from host memory. (DEDUCED, log entries 19, 39.) -/
def hostNums (s : State) (k a n : Nat) : List Nat := (List.range n).map fun i => ofLe (hostRead s (a + k * i) k)

/-- An explicit entry from its image (R64). -/
def explicitOf (n : Nat) : Explicit :=
  { valid := nfld n 63 63 == 1, discard := nfld n 62 62 == 1, plen := nfld n 61 57, pfx := nfld n 51 32,
    bundle := nfld n 9 0 }

/-- The image of an explicit entry. (DESIGN CHOICE, log entry 36.) -/
def explicitImg (e : Explicit) : Nat :=
  packN [(63, bit e.valid), (62, bit e.discard), (57, e.plen), (32, e.pfx), (0, e.bundle)]

/-- An explicit entry that R64 admits. -/
def explicitOk (e : Explicit) : Bool := decide (e.plen ≤ 20) && decide (e.pfx % 2 ^ (20 - e.plen) = 0)

/-- A pod descriptor from its image (R65). -/
def podOfImg (n : Nat) : Pod := { valid := nfld n 31 31 == 1, leafCount := nfld n 30 24, base := nfld n 9 0 }

/-- The image of a pod descriptor. (DESIGN CHOICE, log entry 36.) -/
def podImg (d : Pod) : Nat := packN [(31, bit d.valid), (24, d.leafCount), (0, d.base)]

/-- A pod descriptor that R65 admits. -/
def podOk (d : Pod) : Bool := decide (d.leafCount ≤ 64) && decide (d.base + d.leafCount ≤ 1024)

/-- An endpoint entry from its image (R62). -/
def epOfImg (n : Nat) : EpEntry :=
  { valid := nfld n 63 63 == 1, static := nfld n 62 62 == 1, id := nfld n 57 34, bundle := nfld n 33 24, stamp := nfld n 15 0 }

/-- The image of an endpoint entry. (DESIGN CHOICE, log entry 36.) -/
def epImg (e : EpEntry) : Nat :=
  packN [(63, bit e.valid), (62, bit e.static), (34, e.id), (24, e.bundle), (0, if e.static then 0 else e.stamp)]

/-! ### Parity marks (R84) -/

/-- Software has rewritten entries: their marks go, in every half. (DESIGN CHOICE, log entry 41.) -/
def clearParity (t : TableKind) (hit : Nat → Bool) (s : State) : State :=
  s.modRouting fun r => { r with parity := r.parity.filter fun m => !(m.table == t && hit m.index) }

/-- An index within a range. -/
def inRange (first n i : Nat) : Bool := decide (first ≤ i) && decide (i < first + n)

/-! ### Route versions (R68 to R74) -/

/-- The version that is not active. -/
def idleVersion (s : State) : Version := s.routing.active.other

/-- Changes the explicit entries of a version. -/
def modExpl (v : Version) (f : Tab Explicit → Tab Explicit) (s : State) : State :=
  s.modRouting fun r => if v = .a then { r with explA := f r.explA } else { r with explB := f r.explB }

/-- Changes the pod descriptors of a version. -/
def modPods (v : Version) (f : Tab Pod → Tab Pod) (s : State) : State :=
  s.modRouting fun r => if v = .a then { r with podA := f r.podA } else { r with podB := f r.podB }

/-- An entry that neither half can repair stays invalid until software writes it again (R84). (DESIGN CHOICE, log entry 41.) -/
def isDead (s : State) (half : Nat) (t : TableKind) (i : Nat) : Bool :=
  s.routing.parity.any fun m => m.half == half && m.table == t && m.index == i && m.dead

/-- Writes consecutive entries of a table. -/
def putAll {α : Type} [DecidableEq α] (d : α) (first : Nat) (l : List α) (t : Tab α) : Tab α :=
  match l with
  | [] => t
  | v :: r => putAll d (first + 1) r (tset t d first v)

/-- ROUTE_WRITE (R64, R65, R68, R85): the state of the version is asked before the arguments.
(DEDUCED, log entries 19, 39; DESIGN CHOICE, log entry 150.) -/
def routeWrite (c : CmdRef) (args : List Word) (s : State) : Res :=
  let first := argN args 2
  let n := argN args 3
  let v := idleVersion s
  match nonActiveNow s with
  | .sealedV => cmdRefuse St.tableSealed 0 s
  | .draining => cmdRefuse St.tableDraining 0 s
  | .opened =>
    if 1 < argN args 1 then cmdRefuse St.badArgument 1 s
    else
      let size := if argN args 1 = 0 then 65536 else 256
      if size ≤ first then cmdRefuse St.badArgument 2 s
      else if n < 1 ∨ size < first + n then cmdRefuse St.badArgument 3 s
      else if argN args 1 = 0 then
        let es := (hostNums s 8 (arg64 args 4) n).map explicitOf
        if es.all explicitOk then
          cmdDetach c (clearParity (explKind v) (inRange first n) (modExpl v (putAll {} first es) s))
        else cmdRefuse St.badArgument 4 s
      else
        let ds := (hostNums s 4 (arg64 args 4) n).map podOfImg
        if ds.all podOk then
          cmdDetach c (clearParity (podKind v) (inRange first n) (modPods v (putAll {} first ds) s))
        else cmdRefuse St.badArgument 4 s

/-- Entries as software reads them: one that neither half can repair is invalid (R84). -/
def explShown (s : State) (v : Version) (i : Nat) : Explicit :=
  let e := tget (explOf s v) {} i
  { e with valid := e.valid && !isDead s 0 (explKind v) i }
def podShown (s : State) (v : Version) (i : Nat) : Pod :=
  let d := tget (podsOf s v) {} i
  { d with valid := d.valid && !isDead s 0 (podKind v) i }
def epShown (s : State) (half i : Nat) : EpEntry :=
  let e := tget (epOf s half) {} i
  { e with valid := e.valid && !isDead s half .endpoint i }

/-- ROUTE_READ (R85). -/
def routeRead (args : List Word) (s : State) : Res :=
  let first := argN args 3
  let n := argN args 4
  let v := versionOf (argN args 1 == 1)
  if 1 < argN args 1 then cmdRefuse St.badArgument 1 s
  else if 1 < argN args 2 then cmdRefuse St.badArgument 2 s
  else
    let size := if argN args 2 = 0 then 65536 else 256
    if size ≤ first then cmdRefuse St.badArgument 3 s
    else if n < 1 ∨ size < first + n then cmdRefuse St.badArgument 4 s
    else if argN args 2 = 0 then
      cmdOk (hostWrite (arg64 args 5)
        ((List.range n).flatMap fun i => leBytes 8 (explicitImg (explShown s v (first + i)))) s)
    else
      cmdOk (hostWrite (arg64 args 5)
        ((List.range n).flatMap fun i => leBytes 4 (podImg (podShown s v (first + i)))) s)

/-- The CRC-32 of a version (R72). -/
def versionCrc (s : State) (v : Version) : Nat :=
  crc32 (((List.range 65536).flatMap fun i => leBytes 8 (explicitImg (tget (explOf s v) {} i))) ++
    (List.range 256).flatMap fun i => leBytes 4 (podImg (tget (podsOf s v) {} i)))

/-- Ends every detached command of an opcode. (DESIGN CHOICE, log entry 22.) -/
def endAll (op : Nat) (s : State) : State :=
  (s.hearth.detached.filter fun d => d.cmd.opcode == op).foldl (fun s d => endWith d.cmd St.ok 0 s) s

/-- ROUTE_SEAL: every shadow write accepted before it holds first (R68, R72). (DESIGN CHOICE, log entry 22.) -/
def routeSeal (s : State) : Res :=
  match nonActiveNow s with
  | .draining => cmdRefuse St.tableDraining 0 s
  | .sealedV => cmdRefuse St.tableSealed 0 s
  | .opened =>
    let crc := versionCrc s (idleVersion s)
    cmdOkWith [w32 crc] ((endAll 0x0301 s).modRouting fun r => { r with nonActive := .sealedV })

/-- A commit entry is armed (R71). -/
def commitArmed (s : State) : Bool := s.kindle.any fun e => e.2.armed && kAction e.2 == 1

/-- ROUTE_UNSEAL (R68, R71). -/
def routeUnseal (s : State) : Res :=
  if commitArmed s then cmdRefuse St.busy 0 s
  else if nonActiveNow s = .sealedV then cmdOk (s.modRouting fun r => { r with nonActive := .opened })
  else cmdRefuse St.tableNotSealed 0 s

/-- A flip at an instant: the SEALED version is active, the former one drains until t_f + D, the capture stamps t_f itself
(R68 to R70). (DEDUCED, log entry 45.) -/
def flip (tf : Nat) (s : State) : State :=
  let v := idleVersion s
  let s := s.modRouting fun r => { r with active := v, nonActive := .draining, drainEnd := tf + usU r.drainUs }
  let s := bump (ctr 0x0B 1 9) (bump (ctr 0x0B 0 9) s)
  captureAt 20 (bit (v == .b)) tf s

/-- ROUTE_COMMIT: flips at once and returns t_f (R69, R71). (DEDUCED, log entry 45.) -/
def routeCommit (s : State) : Res :=
  if commitArmed s then cmdRefuse St.busy 0 s
  else if nonActiveNow s = .sealedV then cmdOkWith (timeWords s.time.now) (flip s.time.now s)
  else cmdRefuse St.tableNotSealed 0 s

/-- ROUTE_CONFIG (R70, R80, R81). -/
def routeConfig (args : List Word) (s : State) : Res :=
  if argN args 1 < 1 ∨ 10000 < argN args 1 then cmdRefuse St.badArgument 1 s
  else if 32767 < argN args 2 then cmdRefuse St.badArgument 2 s
  else if 1 < argN args 3 then cmdRefuse St.badArgument 3 s
  else cmdOk (s.modRouting fun r =>
    { r with drainUs := argN args 1, ageS := argN args 2, evictRandom := argN args 3 == 1 })

/-- The drain window has ended (R70). -/
def drainWindowEnd (s : State) : State :=
  if nonActiveNow s = .opened then s.modRouting fun r => { r with nonActive := .opened } else s

/-! ### Endpoint table commands (R63, R82, R85) -/

/-- The learned way of a full set with the oldest STAMP; ties go to the lowest way (R63, R81). (DEDUCED, log entry 40.) -/
def oldestWay (now16 : Nat) (t : Tab EpEntry) (ways : List Nat) : Option Nat :=
  argMin (fun i => 65535 - (now16 + 65536 - (tget t {} i).stamp) % 65536) (ways.filter fun i => !(tget t {} i).static)

/-- The way that a valid static image takes in a half's table, or none where its set is full of other static entries (R63):
the way of the ID's own static or learned entry, else the lowest free way of the half, else that of the learned entry with
the oldest STAMP. An ID that has its static entry is rewritten in place also where all 8 ways of the set are static.
(DESIGN CHOICE, log entry 149.) -/
def staticWay (now16 : Nat) (t : Tab EpEntry) (id : Nat) : Option Nat :=
  match epFind t id true with
  | some i => some i
  | none =>
    match epFind t id false with
    | some i => some i
    | none =>
      match (waysOf id).find? fun i => !(tget t {} i).valid with
      | some i => some i
      | none => oldestWay now16 t (waysOf id)

/-- One static image applied to a half's table and to the list of the indices written, or none where its set is full of
static entries (R63). -/
def putStatic (now16 : Nat) (e : EpEntry) (w : Tab EpEntry × List Nat) : Option (Tab EpEntry × List Nat) :=
  if e.valid then
    (staticWay now16 w.1 e.id).map fun i =>
      (tset w.1 {} i { valid := true, static := true, id := e.id, bundle := e.bundle, stamp := 0 }, i :: w.2)
  else
    match epFind w.1 e.id true with
    | some i => some (tset w.1 {} i {}, i :: w.2)
    | none => some w

/-- All images of a write applied in order, or none where one does not fit. (DEDUCED, log entry 40.) -/
def putStatics (now16 : Nat) (l : List EpEntry) (w : Tab EpEntry × List Nat) : Option (Tab EpEntry × List Nat) :=
  match l with
  | [] => some w
  | e :: r => (putStatic now16 e w).bind (putStatics now16 r)

/-- The static entries of a table. (DEDUCED, log entry 40.) -/
def staticCount (t : Tab EpEntry) : Nat := (t.filter fun e => e.2.valid && e.2.static).length

/-- The marks of the endpoint entries that a write has written go (R84). (DESIGN CHOICE, log entry 41.) -/
def clearEpParity (half : Nat) (written : List Nat) (s : State) : State :=
  written.foldl (fun s i => unmark half .endpoint i s) s

/-- ENDPOINT_WRITE (R63). (DEDUCED, log entries 19, 40.) -/
def endpointWrite (c : CmdRef) (args : List Word) (s : State) : Res :=
  let n := argN args 1
  if n < 1 ∨ 32768 < n then cmdRefuse St.badArgument 1 s
  else
    let es := (hostNums s 8 (arg64 args 2) n).map epOfImg
    let now16 := secOf s.time.now % 65536
    if es.any fun e => !e.static || genExt e.id != 0 then cmdRefuse St.badArgument 2 s
    else match putStatics now16 es (s.routing.ep0, []), putStatics now16 es (s.routing.ep1, []) with
      | some t0, some t1 =>
        if 32768 < staticCount t0.1 then cmdRefuse St.tableFull 0 s
        else cmdDetach c ((clearEpParity 1 t1.2 (clearEpParity 0 t0.2 s)).modRouting fun r =>
          { r with ep0 := t0.1, ep1 := t1.1 })
      | _, _ => cmdRefuse St.tableFull 0 s

/-- Removes the learned entries that pass a test from both halves. -/
def flushLearned (test : EpEntry → Bool) (s : State) : State :=
  s.modRouting fun r =>
    { r with ep0 := r.ep0.filter fun e => e.2.static || !test e.2, ep1 := r.ep1.filter fun e => e.2.static || !test e.2 }

/-- ENDPOINT_FLUSH (R82). -/
def endpointFlush (args : List Word) (s : State) : Res :=
  match argN args 1 with
  | 0 =>
    if 2 ^ 24 ≤ argN args 2 then cmdRefuse St.badArgument 2 s else cmdOk (flushLearned (fun e => e.id == argN args 2) s)
  | 1 =>
    if 1024 ≤ argN args 2 then cmdRefuse St.badArgument 2 s else cmdOk (flushLearned (fun e => e.bundle == argN args 2) s)
  | 2 => cmdOk (flushLearned (fun _ => true) s)
  | _ => cmdRefuse St.badArgument 1 s

/-- ENDPOINT_READ (R85). -/
def endpointRead (args : List Word) (s : State) : Res :=
  let first := argN args 2
  let n := argN args 3
  if 1 < argN args 1 then cmdRefuse St.badArgument 1 s
  else if 32768 ≤ first then cmdRefuse St.badArgument 2 s
  else if n < 1 ∨ 32768 < first + n then cmdRefuse St.badArgument 3 s
  else cmdOk (hostWrite (arg64 args 4)
    ((List.range (8 * n)).flatMap fun i => leBytes 8 (epImg (epShown s (argN args 1) (8 * first + i)))) s)

/-! ### Bundles and trees (R66, R67, R76) -/

/-- The 64 member slots of a bundle image: two to a word, from word 3 of the block. -/
def slotOf (args : List Word) (i : Nat) : Slot :=
  let n := fld (arg args (3 + i / 2)) (16 * (i % 2) + 15) (16 * (i % 2))
  { en := nfld n 15 15 == 1, port := nfld n 9 0 }

/-- A slot in use breaks a rule of R66: an enabled port that is not configured, or a port of another bundle.
(DEDUCED, log entry 37.) -/
def slotBad (s : State) (b : Nat) (x : Slot) : Bool :=
  (x.en && !(thePort s x.port).configured) ||
  s.routing.bundles.any fun e => e.1 != b && (List.range e.2.count).any fun i => (tget e.2.slots {} i).port == x.port

/-- BUNDLE_WRITE: the whole record is replaced (R66, R76). (DEDUCED, log entries 19, 37; DESIGN CHOICE, log entry 38.) -/
def bundleWrite (args : List Word) (s : State) : Res :=
  let b := argN args 1
  let count := fld (arg args 2) 6 0
  if 1024 ≤ b then cmdRefuse St.badArgument 1 s
  else if 64 < count then cmdRefuse St.badArgument 2 s
  else match (List.range count).find? fun i => slotBad s b (slotOf args i) with
    | some i => cmdRefuse St.badArgument (3 + i / 2) s
    | none =>
      let slots := (List.range 64).foldl (fun t i => tset t {} i (slotOf args i)) []
      let new : Bundle := { valid := bitAt (arg args 2) 15, learn := bitAt (arg args 2) 14, count := count, slots := slots }
      let before := (eligible s b).filter fun i => (tget (theBundle s b).slots {} i).port == (tget slots {} i).port
      cmdOk (joinSlots before b (clearParity .bundle (· == b) (s.modRouting fun r => { r with bundles := tset r.bundles {} b new })))

/-- A port mask of 32 words from word `i` of the block (R353). -/
def maskOf (args : List Word) (i : Nat) : BitVec 1024 := BitVec.ofNat 1024 (ofLe (wordsLe (argWords args i 32)))

/-- TREE_WRITE (R67, R324, R329). (DEDUCED, log entry 19.) -/
def treeWrite (args : List Word) (s : State) : Res :=
  let t := argN args 1
  let new : Tree := { valid := bitAt (arg args 2) 31, partition := fld (arg args 2) 11 0, mask := maskOf args 3 }
  let old := tget s.routing.trees {} t
  let extra := bit new.valid - bit (old.valid && old.partition == new.partition)
  if 16384 ≤ t then cmdRefuse St.badArgument 1 s
  else
    match if new.partition ≠ 0 ∧ ((thePart s new.partition).state = 2 ∨ 0 < extra) then quotaRefusal s new.partition 1 extra else none with
    | some (st, d) => cmdRefuse st d s
    | none => cmdOk (clearParity .tree (· == t) (s.modRouting fun r => { r with trees := tset r.trees {} t new }))

/-! ### Background work (R79, R80, R84) -/

/-- A half's next queued learning update is applied (R78, R79). -/
def learnUpdate (half : Nat) (s : State) : State :=
  match learnQ s half with
  | [] => s
  | u :: r => learn half u (setLearnQ half r s)

/-- An entry that ageing removes (R80). -/
def aged (s : State) (e : EpEntry) : Bool :=
  e.valid && !e.static && decide (s.routing.ageS ≤ (secOf s.time.now % 65536 + 65536 - e.stamp) % 65536)

/-- An ageing visit of a half (R80). -/
def ageingVisit (half : Nat) (s : State) : State :=
  if s.routing.ageS = 0 then s
  else
    let n := ((epOf s half).filter fun e => aged s e.2).length
    bumpBy (ctr 0x0B half 6) n (modEp half (fun t => t.filter fun e => !aged s e.2) s)

/-- An entry of a half and its copy in the other one, as (half, index): a static entry may lie in another way of its set
there. -/
def copiesOf (s : State) (half : Nat) (t : TableKind) (i : Nat) : List (Nat × Nat) :=
  (half, i) :: (if t = .endpoint then
      (epFind (epOf s (1 - half)) (tget (epOf s half) {} i).id true).toList.map fun k => (1 - half, k)
    else [(1 - half, i)])

/-- An entry of a versioned table, a static entry, a bundle or a tree that neither half can repair is invalid (R84).
(DESIGN CHOICE, log entry 41.) -/
def invalidate (half : Nat) (t : TableKind) (i : Nat) (s : State) : State :=
  match t with
  | .endpoint => modEp half (fun t => tset t {} i {}) s
  | .explicitA => modExpl .a (fun t => tset t {} i {}) s
  | .explicitB => modExpl .b (fun t => tset t {} i {}) s
  | .podA => modPods .a (fun t => tset t {} i {}) s
  | .podB => modPods .b (fun t => tset t {} i {}) s
  | .bundle => s.modRouting fun r => { r with bundles := tset r.bundles {} i {} }
  | .tree => s.modRouting fun r => { r with trees := tset r.trees {} i {} }
  | .window => s
  | .partition => s
  | .allow => s
  | .hint => s
  | .kindling => s

/-- A read has found an entry whose parity fails, and it is repaired (R84): the other half's copy is written back, a
learned entry is invalidated, and where the other copy fails too the entry stays invalid until software rewrites it.
(DESIGN CHOICE, log entry 41.) -/
def parityRepair (half : Nat) (t : TableKind) (i : Nat) (otherFails : Bool) (s : State) : State :=
  let s := if parityBad s half t i then s
    else report (parityFault half i false) (bump (ctr 0x0B half 7) s)
  let learned := t == .endpoint && (tget (epOf s half) {} i).valid && !(tget (epOf s half) {} i).static
  if learned then putEp half i {} s
  else if otherFails then
    let s := (copiesOf s half t i).foldl (fun s k => (invalidate k.1 t k.2 (unmark k.1 t k.2 s)).modRouting fun r =>
      { r with parity := { half := k.1, table := t, index := k.2, noted := true, dead := true } :: r.parity }) s
    report (parityFault half i true) (bump (ctr 0x0B half 8) s)
  else if isDead s half t i then s
  else unmark half t i s

/-- TABLE_PARITY_REPAIR: an entry's copy in a half begins to fail, which the next read of it finds, or an entry found so is
repaired (R84). (DESIGN CHOICE, log entry 41.) -/
def parityStep (half : Nat) (t : TableKind) (i : Nat) (x : ParityStep) (s : State) : State :=
  match x with
  | .fails => markParity half [(t, i)] s
  | .repair otherFails => parityRepair half t i otherFails s

/-- Ends the oldest detached command of an opcode with a status. (DESIGN CHOICE, log entry 22.) -/
def endOldest (op status detail : Nat) (s : State) : State :=
  match s.hearth.detached.find? fun d => d.cmd.opcode == op with
  | some d => endWith d.cmd status detail s
  | none => s

/-! ### Meanings -/

/-- ROUTE_WRITE. -/
def execRouteWrite (h : CmdHdr) (args : List Word) (s : State) : Host.Outcome State Fault Refusal :=
  runMailbox ⟨0x0301, 2, true⟩ (fun _ => 5) (fun c s => routeWrite c args s) h args s
/-- ROUTE_READ. -/
def execRouteRead (h : CmdHdr) (args : List Word) (s : State) : Host.Outcome State Fault Refusal :=
  runMailbox ⟨0x0302, 2, true⟩ (fun _ => 6) (fun _ s => routeRead args s) h args s
/-- ROUTE_SEAL. -/
def execRouteSeal (h : CmdHdr) (args : List Word) (s : State) : Host.Outcome State Fault Refusal :=
  runMailbox ⟨0x0303, 1, true⟩ (fun _ => 0) (fun _ s => routeSeal s) h args s
/-- ROUTE_UNSEAL. -/
def execRouteUnseal (h : CmdHdr) (args : List Word) (s : State) : Host.Outcome State Fault Refusal :=
  runMailbox ⟨0x0304, 1, true⟩ (fun _ => 0) (fun _ s => routeUnseal s) h args s
/-- ROUTE_COMMIT. -/
def execRouteCommit (h : CmdHdr) (args : List Word) (s : State) : Host.Outcome State Fault Refusal :=
  runMailbox ⟨0x0305, 1, true⟩ (fun _ => 0) (fun _ s => routeCommit s) h args s
/-- ROUTE_CONFIG. -/
def execRouteConfig (h : CmdHdr) (args : List Word) (s : State) : Host.Outcome State Fault Refusal :=
  runMailbox ⟨0x0306, 1, true⟩ (fun _ => 3) (fun _ s => routeConfig args s) h args s
/-- ENDPOINT_WRITE. -/
def execEndpointWrite (h : CmdHdr) (args : List Word) (s : State) : Host.Outcome State Fault Refusal :=
  runMailbox ⟨0x0307, 2, true⟩ (fun _ => 3) (fun c s => endpointWrite c args s) h args s
/-- ENDPOINT_FLUSH. -/
def execEndpointFlush (h : CmdHdr) (args : List Word) (s : State) : Host.Outcome State Fault Refusal :=
  runMailbox ⟨0x0308, 1, true⟩ (fun a => if argN a 1 = 2 then 1 else 2) (fun _ s => endpointFlush args s) h args s
/-- ENDPOINT_READ. -/
def execEndpointRead (h : CmdHdr) (args : List Word) (s : State) : Host.Outcome State Fault Refusal :=
  runMailbox ⟨0x0309, 2, true⟩ (fun _ => 5) (fun _ s => endpointRead args s) h args s
/-- BUNDLE_WRITE. -/
def execBundleWrite (h : CmdHdr) (args : List Word) (s : State) : Host.Outcome State Fault Refusal :=
  runMailbox ⟨0x030A, 1, true⟩ (fun _ => 34) (fun _ s => bundleWrite args s) h args s
/-- TREE_WRITE. -/
def execTreeWrite (h : CmdHdr) (args : List Word) (s : State) : Host.Outcome State Fault Refusal :=
  runMailbox ⟨0x030B, 1, true⟩ (fun _ => 34) (fun _ s => treeWrite args s) h args s
/-- LEARN_UPDATE. -/
def execLearnUpdate (half : Fin 2) (s : State) : Host.Outcome State Fault Refusal := .next (learnUpdate half s)
/-- AGEING_VISIT. -/
def execAgeingVisit (half : Fin 2) (s : State) : Host.Outcome State Fault Refusal := .next (ageingVisit half s)
/-- TABLE_PARITY_REPAIR. -/
def execTableParityRepair (half : Fin 2) (table : TableKind) (index : Nat) (step : ParityStep) (s : State) :
    Host.Outcome State Fault Refusal := .next (parityStep half table index step s)
/-- DRAIN_WINDOW_END. -/
def execDrainWindowEnd (s : State) : Host.Outcome State Fault Refusal := .next (drainWindowEnd s)
/-- ROUTE_WRITE_DONE: the oldest ROUTE_WRITE completes (R74, R355). -/
def execRouteWriteDone (s : State) : Host.Outcome State Fault Refusal := .next (endOldest 0x0301 St.ok 0 s)
/-- ENDPOINT_WRITE_DONE: the oldest ENDPOINT_WRITE completes (R63, R355). -/
def execEndpointWriteDone (s : State) : Host.Outcome State Fault Refusal := .next (endOldest 0x0307 St.ok 0 s)

end Sys2Proof.Machine
end

