-- ==== Sys2Proof/Machine/CoreCmds.lean ====
section
/-! DEFINITION. The switch core's commands (R90, R99, R102, R105, R109, R112, R115). -/

namespace Sys2Proof.Machine

/-- A port of a barn is enabled. -/
def barnPortEnabled (s : State) (b : Nat) : Bool :=
  s.link.ports.any fun e => barnOf e.1 == b && e.2.configured && e.2.enabled

/-- The allowances of a barn meet both limits of R105. -/
def creditFits (s : State) (b : Nat) : Bool :=
  decide (sumAllow s b (fun c => !spillEligible s c) ≤ inCells (theBarn s b)) &&
  decide (sumAllow s b (fun _ => true) ≤ inCells (theBarn s b) + s.core.spillGib * 2 ^ 30 / 4096)

/-- A spill size and class mask come into force. -/
def withSpill (g : Nat) (m : BitVec 8) (s : State) : State := s.modCore fun k => { k with spillGib := g, spillMask := m }

/-- The allowances of a barn meet both limits under the settings in force and those of every CORE_SPILL that has not
completed (R105, R112). (DEDUCED, log entry 53.) -/
def creditOk (s : State) (b : Nat) : Bool :=
  creditFits s b && (pendingSpills s).all fun e => creditFits (withSpill e.1 e.2 s) b

/-- CORE_BUF (R90, R108, R115, R200). (DESIGN CHOICE, log entry 51.) -/
def coreBuf (args : List Word) (s : State) : Res :=
  let b := argN args 1
  let buf := argN args 2
  let eg := argN args 3
  let c7 := argN args 4
  let brn := theBarn s b
  let moved := buf != brn.bufCells || eg != brn.egCells
  if 16 ≤ b then cmdRefuse St.badArgument 1 s
  else if buf < 16384 ∨ 49152 < buf ∨ buf % 4096 ≠ 0 then cmdRefuse St.badArgument 2 s
  else if eg < 4096 ∨ buf < eg + 8192 ∨ eg % 1024 ≠ 0 then cmdRefuse St.badArgument 3 s
  else if c7 < 512 ∨ 4096 < c7 then cmdRefuse St.badArgument 4 s
  else match (List.range 7).find? fun i => decide (argN args (5 + i) < 1024 ∨ eg < argN args (5 + i)) with
    | some i => cmdRefuse St.badArgument (5 + i) s
    | none =>
      if 65536 < buf + brn.stageCells + brn.scratchCells + 4096 then cmdRefuse St.badArgument 2 s
      else
        let t := modBarn b (fun x => { x with bufCells := buf, egCells := eg, egC7Reserve := c7,
                                              egClassMax := (List.range 7).map fun i => argN args (5 + i),
                                              cache := if moved then [] else x.cache }) s
        if !creditOk t b then cmdRefuse St.badArgument 2 s
        else if moved && barnPortEnabled s b then cmdRefuse St.busy 0 s
        else cmdOk (updateHolds b t)

/-- A lane number that falls inside a wider port names no port (R6). (DESIGN CHOICE, log entry 51.) -/
def insidePort (s : State) (p : Nat) : Bool :=
  match portOfLane s p with
  | some q => q != p
  | none => false

/-- CORE_CREDIT (R105, R115, R270). (DESIGN CHOICE, log entry 51.) -/
def coreCredit (args : List Word) (s : State) : Res :=
  let p := argN args 1
  let c := argN args 2
  if 1024 ≤ p ∨ insidePort s p then cmdRefuse St.badArgument 1 s
  else if 8 ≤ c then cmdRefuse St.badArgument 2 s
  else if 8388607 < argN args 3 then cmdRefuse St.badArgument 3 s
  else
    let t := s.modCore fun k => { k with allow := tset k.allow 0 (p * 8 + c) (argN args 3) }
    if creditOk t (barnOf p) then cmdOk (giveCredit p c t) else cmdRefuse St.badArgument 3 s

/-- A barn holds a spilled cell (R112). -/
def holdsSpill (s : State) : Bool := s.core.barns.any fun e => e.2.spill != []

/-- CORE_SPILL; a spill area needs the Granary in service (R219; R109, R112, R197). (DEDUCED, log entry 53.) -/
def coreSpill (c : CmdRef) (args : List Word) (s : State) : Res :=
  let g := argN args 1
  let m := argN args 2
  if 64 < g ∨ g % 8 ≠ 0 then cmdRefuse St.badArgument 1 s
  else if 127 < m then cmdRefuse St.badArgument 2 s
  else if !spillFits s g then cmdRefuse St.badArgument 1 s
  else if (List.range 16).any fun b => !creditFits (withSpill g (BitVec.ofNat 8 m) s) b then cmdRefuse St.badArgument 1 s
  else if g ≠ 0 ∧ s.mem.granary ≠ .inService then cmdRefuse St.busy 0 s
  else if g ≠ s.core.spillGib ∧ holdsSpill s then cmdRefuse St.busy 0 s
  else (addDetached c (.spill g (BitVec.ofNat 8 m)) s, none)

/-- SPILL_REGION_PLACED: the oldest CORE_SPILL completes and its settings come into force; a spill area of another size is
not placed while a cell is spilled (R109, R112, R355). (DEDUCED, log entry 53.) -/
def spillPlaced (s : State) : State :=
  match s.hearth.detached.findSome? fun d => match d.work with
    | .spill g m => some (d.cmd, g, m)
    | _ => none with
  | some (c, g, m) => if g ≠ s.core.spillGib ∧ holdsSpill s then s else endWith c St.ok 0 (withSpill g m s)
  | none => s

/-- FLOOR_CONFIG (R99, R115). -/
def floorConfig (args : List Word) (s : State) : Res :=
  if argN args 1 < 1 ∨ 255 < argN args 1 then cmdRefuse St.badArgument 1 s
  else cmdOk (s.modCore fun k => { k with waitLimit := argN args 1 })

/-- FLOOR_PLANE_RESTORE: the loop-back test begins; where one is running already the answer is BUSY (R102, R115).
(DESIGN CHOICE, log entry 159.) -/
def floorPlaneRestore (c : CmdRef) (args : List Word) (s : State) : Res :=
  let p := argN args 1
  if 4 ≤ p ∨ !(thePlane s p).fenced then cmdRefuse St.badArgument 1 s
  else if (thePlane s p).testing then cmdRefuse St.busy 0 s
  else (addDetached c (.plane p) (modPlane p (fun x => { x with testing := true }) s), none)

/-- The loop-back test of a plane ends (R102). -/
def planeTestDone (p : Nat) (pass : Bool) (s : State) : State :=
  if (thePlane s p).testing then
    let s := modPlane p (fun x => { x with testing := false, fenced := x.fenced && !pass }) s
    match s.hearth.detached.find? fun d => d.work == .plane p with
    | some d => endWith d.cmd (if pass then St.ok else St.testFailed) 0 s
    | none => s
  else s

/-! ### Queues and descriptors (R87, R91, R97, R115) -/

/-- The packet word of a queue entry (R97). (PRESUMED, log entry 52.) -/
def packetWord (sink : Nat) (h : Header) (dstPort : Nat) (mask : BitVec 64) : Nat :=
  packN [(126, sink), (125, bit (sink == 0 && mask != 0)), (115, dstPort), (110, h.cells), (0, mask.toNat)]

/-- One queue entry as CORE_QUEUE_READ copies it: the packet word, then the first handle and the cell count.
(PRESUMED, log entry 52.) -/
def entryBytes (word first cells : Nat) : List Byte := leBytes 16 word ++ leBytes 2 first ++ leBytes 2 cells ++ leBytes 4 0

/-- The entries of a queue: 0 to 127 the VOQs, 128 to 639 the egress queues, 640 to 642 the sinks 1 to 3.
(PRESUMED, log entry 52.) -/
def queueBytes (s : State) (b q : Nat) : List Byte :=
  let brn := theBarn s b
  if q < 128 then
    (tget brn.voqs [] q).flatMap fun e =>
      match brn.inPkts.find? fun p => p.info.pid == e.pid with
      | some p => entryBytes (packetWord e.sink p.info.hdr e.dstPort e.localMask) (p.handles.headD 65535) p.info.hdr.cells
      | none => []
  else
    (if q < 640 then tget brn.egq [] (q - 128)
      else (List.range 8).flatMap fun i => tget brn.sinkq [] (8 * (q - 639) + 7 - i)).flatMap fun pid =>
      match brn.stored.find? fun x => x.info.pid == pid with
      | some x =>
        entryBytes (packetWord x.sink x.info.hdr x.dstPort x.localMask) (tget x.handles 65535 0) x.info.hdr.cells
      | none => []

/-- CORE_QUEUE_READ (R115). (PRESUMED, log entry 52.) -/
def coreQueueRead (args : List Word) (s : State) : Res :=
  let b := argN args 1
  if 16 ≤ b then cmdRefuse St.badArgument 1 s
  else match argN args 2 with
    | 0 =>
      if 643 ≤ argN args 3 then cmdRefuse St.badArgument 3 s
      else cmdOk (hostWrite (arg64 args 4) (queueBytes s b (argN args 3)) s)
    | 1 =>
      let first := argN args 3
      let n := argN args 4
      if (theBarn s b).bufCells ≤ first then cmdRefuse St.badArgument 3 s
      else if n < 1 ∨ (theBarn s b).bufCells < first + n then cmdRefuse St.badArgument 4 s
      else cmdOk (hostWrite (arg64 args 5)
        ((List.range n).flatMap fun i => leBytes 8 (cellImg (tget (theBarn s b).cells {} (first + i)))) s)
    | _ => cmdRefuse St.badArgument 2 s

/-! ### Meanings -/

/-- CORE_BUF. -/
def execCoreBuf (h : CmdHdr) (args : List Word) (s : State) : Host.Outcome State Fault Refusal :=
  runMailbox ⟨0x0401, 1, true⟩ (fun _ => 11) (fun _ s => coreBuf args s) h args s
/-- CORE_CREDIT. -/
def execCoreCredit (h : CmdHdr) (args : List Word) (s : State) : Host.Outcome State Fault Refusal :=
  runMailbox ⟨0x0402, 1, true⟩ (fun _ => 3) (fun _ s => coreCredit args s) h args s
/-- CORE_SPILL. -/
def execCoreSpill (h : CmdHdr) (args : List Word) (s : State) : Host.Outcome State Fault Refusal :=
  runMailbox ⟨0x0403, 1, true⟩ (fun _ => 2) (fun c s => coreSpill c args s) h args s
/-- FLOOR_CONFIG. -/
def execFloorConfig (h : CmdHdr) (args : List Word) (s : State) : Host.Outcome State Fault Refusal :=
  runMailbox ⟨0x0404, 1, true⟩ (fun _ => 1) (fun _ s => floorConfig args s) h args s
/-- FLOOR_PLANE_RESTORE. -/
def execFloorPlaneRestore (h : CmdHdr) (args : List Word) (s : State) : Host.Outcome State Fault Refusal :=
  runMailbox ⟨0x0405, 1, true⟩ (fun _ => 1) (fun c s => floorPlaneRestore c args s) h args s
/-- CORE_QUEUE_READ. -/
def execCoreQueueRead (h : CmdHdr) (args : List Word) (s : State) : Host.Outcome State Fault Refusal :=
  runMailbox ⟨0x0406, 3, true⟩ (fun a => if argN a 2 = 0 then 5 else 6) (fun _ s => coreQueueRead args s) h args s
/-- PLANE_LOOPBACK_TEST_DONE. -/
def execPlaneLoopbackTestDone (plane : Fin 4) (pass : Bool) (s : State) : Host.Outcome State Fault Refusal :=
  .next (planeTestDone plane pass s)
/-- SPILL_REGION_PLACED. -/
def execSpillRegionPlaced (s : State) : Host.Outcome State Fault Refusal := .next (spillPlaced s)

end Sys2Proof.Machine
end

