-- ==== Sys2Proof/Machine/Threshing.lean ====
section
/-! DEFINITION. Residue faults, the units' commands, the harvest step and the norm pass (R172 to R187). -/

namespace Sys2Proof.Machine

/-! ### Residue faults (R173, R183) -/

/-- A unit has a residue fault in harvest or norm work: the second within 60 s fences it. (DESIGN CHOICE, log entry 84.) -/
def faultFree (u : Nat) (s : State) : State :=
  let (second, s) := residueCount u s
  if second then fenceUnit u 1 s else s

/-- A fault of the unit that adds a result into an accumulation region: the addition has no place among the phases of an index,
and can be made in each of those that come before the tally-only result leaves (R172, R173). (DESIGN CHOICE, log entry 67.) -/
def residueAdd (u c g : Nat) (redoFaults : Bool) (s : State) : State :=
  let x := theCtx s c
  match openOf x g with
  | none => s
  | some o =>
    if x.state = .active ∧ ctxOut x = 1 ∧ o.phase ≠ .leaving ∧ primaryOf s o = some u then redoIndex u c g o redoFaults s else s

/-- A fault of the witness or the referee of a winnowed index: the roles pass on; without a witness the result goes on
uncompared (R176). -/
def residueWinnow (u c g : Nat) (s : State) : State :=
  let x := theCtx s c
  match openOf x g with
  | none => s
  | some o =>
    if x.state = .active ∧ o.phase = .winnowing ∧ ((rolesOf s o.unit o.faulty).drop 1).contains u then
      let s := modOpen c g (fun o => { o with faulty := o.faulty ++ [u] }) (faultOn u c g s)
      if (rolesOf s o.unit (o.faulty ++ [u])).length < 2 then proceed c g (bumpColl 17 s x (sheafOf x g)) else s
    else s

/-! ### Units (R186, R187) -/

/-- The status record of a unit (R186). -/
def unitStatus (u : Nat) (x : Unit) : List Word :=
  [pack [(30, x.state), (24, u), (16, if x.state = 0 then 0 else x.cause)], w32 x.residue, w32 x.outvoted, pack [(16, x.fenceS)]]

/-- TU_STATUS_READ (R186). -/
def tuStatusRead (args : List Word) (s : State) : Res :=
  let first := argN args 1
  let n := argN args 2
  if 64 ≤ first then cmdRefuse St.badArgument 1 s
  else if n < 1 ∨ 64 < first + n then cmdRefuse St.badArgument 2 s
  else cmdOk (hostWrite (arg64 args 3) ((List.range n).flatMap fun i => wordsLe (unitStatus (first + i) (theUnit s (first + i)))) s)

/-- TU_FENCE (R175, R187). (DESIGN CHOICE, log entry 73.) -/
def tuFence (args : List Word) (s : State) : Res :=
  if 64 ≤ argN args 1 then cmdRefuse St.badArgument 1 s
  else cmdOk (settleWinnow (settleFences 64 (fenceUnit (argN args 1) 3 s)))

/-- TU_UNFENCE: the self-test begins (R187). -/
def tuUnfence (c : CmdRef) (args : List Word) (s : State) : Res :=
  let u := argN args 1
  if 64 ≤ u then cmdRefuse St.badArgument 1 s
  else if (theUnit s u).state = 2 then cmdRefuse St.busy 0 s
  else if (theUnit s u).state = 0 then cmdOk s
  else (addDetached c (.unit u) (modUnit u (fun x => { x with state := 2 }) s), none)

/-- UNIT_SELFTEST_DONE (R187). A unit that was fenced during its test stays fenced, and its command ends TEST_FAILED.
(DESIGN CHOICE, log entry 73.) -/
def selftestDone (u : Nat) (pass : Bool) (s : State) : State :=
  match s.hearth.detached.find? fun d => d.work == .unit u with
  | none => s
  | some d =>
    if (theUnit s u).state = 2 then
      if pass then endWith d.cmd St.ok 0 (modUnit u (fun x => { x with state := 0, cause := 0 }) s)
      else endWith d.cmd St.testFailed 0 (modUnit u (fun x => { x with state := 1, cause := 4 }) s)
    else endWith d.cmd St.testFailed 0 s

/-! ### Parameter groups (R179) -/

def grpRule (s : State) (k : Nat) : Nat := fld (groupWord s k 0) 31 30
def grpOut (s : State) (k : Nat) : Nat := fld (groupWord s k 0) 29 26
def grpRound (s : State) (k : Nat) : Bool := bitAt (groupWord s k 0) 25
def grpAuto (s : State) (k : Nat) : Bool := bitAt (groupWord s k 0) 24
def grpValid (s : State) (k : Nat) : Bool := bitAt (groupWord s k 0) 23
/-- PARAM_COUNT. -/
def grpLen (s : State) (k : Nat) : Nat := groupNum s k 8
def grpW (s : State) (k : Nat) : Nat := groupNum s k 10
def grpG (s : State) (k : Nat) : Nat := groupNum s k 12
def grpM (s : State) (k : Nat) : Nat := groupNum s k 14
def grpV (s : State) (k : Nat) : Nat := groupNum s k 16
def grpOff (s : State) (k : Nat) : Nat := groupNum s k 18
/-- Bytes of one output element (R182). -/
def outBytes (s : State) (k : Nat) : Nat := if grpOut s k = 1 then 2 else 1
/-- Chunks of a group (R181). -/
def chunksOf (s : State) (k : Nat) : Nat := (grpLen s k + 1023) / 1024

/-- A group record of twenty words that R179 admits. (DESIGN CHOICE, log entry 77.) -/
def recordOk (r : List Word) : Bool :=
  let w (i : Nat) : Word := r.getD i 0
  let n (i : Nat) : Nat := (w i).toNat + 2 ^ 32 * (w (i + 1)).toNat
  fld (w 0) 31 30 != 3 && (fld (w 0) 29 26 == 1 || fld (w 0) 29 26 == 3 || fld (w 0) 29 26 == 4) &&
  decide (16 ≤ n 8 ∧ n 8 ≤ 2 ^ 36 ∧ n 8 % 16 = 0) &&
  [10, 12, 14, 16, 18].all (fun i => decide (n i % 16 = 0)) &&
  [10, 12, 14].all (fun i => decide (n i + 4 * n 8 ≤ granarySize)) &&
  (fld (w 0) 31 30 != 1 || decide (n 16 + 4 * n 8 ≤ granarySize))

/-- A record as it is kept: reserved bits 0. (DESIGN CHOICE, log entry 36.) -/
def keepRecord (r : List Word) : List Word := r.set 0 (r.getD 0 0 &&& 0xFF800000#32)

/-- A running harvest uses a group. -/
def groupBusy (s : State) (k : Nat) : Bool := s.thresh.harvests.any fun h => (runGroups h.desc).contains k

/-- HARVEST_GROUP_WRITE (R179, R187). -/
def groupWrite (args : List Word) (s : State) : Res :=
  let first := argN args 1
  let n := argN args 2
  if 1024 ≤ first then cmdRefuse St.badArgument 1 s
  else if n < 1 ∨ 1024 < first + n then cmdRefuse St.badArgument 2 s
  else
    let rs := (List.range n).map fun i => (hostNums s 4 (arg64 args 3 + 80 * i) 20).map w32
    if rs.any fun r => !recordOk r then cmdRefuse St.badArgument 3 s
    else if (List.range n).any fun i => groupBusy s (first + i) then cmdRefuse St.busy 0 s
    else cmdOk (s.modThresh fun t => { t with groups := putAll [] first (rs.map keepRecord) t.groups })

/-- HARVEST_GROUP_READ (R187). (DESIGN CHOICE, log entry 36.) -/
def groupRead (args : List Word) (s : State) : Res :=
  let first := argN args 1
  let n := argN args 2
  if 1024 ≤ first then cmdRefuse St.badArgument 1 s
  else if n < 1 ∨ 1024 < first + n then cmdRefuse St.badArgument 2 s
  else cmdOk (hostWrite (arg64 args 3)
    ((List.range n).flatMap fun i => wordsLe (padTo 0 20 (tget s.thresh.groups [] (first + i)))) s)

/-! ### The run descriptor (R180) -/

def runPartition (d : List Word) : Nat := fld (d.getD 0 0) 31 20
def runTc (d : List Word) : Nat := fld (d.getD 0 0) 19 17
def runCopy (d : List Word) : Bool := bitAt (d.getD 0 0) 16
def runHold (d : List Word) : Bool := bitAt (d.getD 0 0) 15
def runClear (d : List Word) : Bool := bitAt (d.getD 0 0) 14
def runSkip (d : List Word) : Bool := bitAt (d.getD 0 0) 13
def runWinnow (d : List Word) : Nat := fld (d.getD 0 0) 12 10
def runTree (d : List Word) : Nat := fld (d.getD 1 0) 31 18
def runClip (d : List Word) : Nat := (d.getD 3 0).toNat
def runWindow (d : List Word) : Nat := (d.getD 4 0).toNat + 2 ^ 32 * (d.getD 5 0).toNat
def runRemote (d : List Word) : Nat := (d.getD 6 0).toNat + 2 ^ 32 * (d.getD 7 0).toNat
def runSeed (d : List Word) : Nat := (d.getD 8 0).toNat + 2 ^ 32 * (d.getD 9 0).toNat
def runId (d : List Word) : Nat := fld (d.getD 10 0) 31 16

/-- The arrays of a group, as ranges of the Granary. -/
def groupArrays (s : State) (k : Nat) : List (Nat × Nat) :=
  [grpW s k, grpG s k, grpM s k].map (fun a => (a, 4 * grpLen s k)) ++
    (if grpRule s k = 1 then [(grpV s k, 4 * grpLen s k)] else [])

/-- Ranges that all lie in windows of a partition that admit reads and writes. -/
def inWindows (s : State) (p : Nat) (l : List (Nat × Nat)) : Bool :=
  l.all fun r => (windowFor s p r.1 r.2 true true).isSome

/-- A run's fields are in range and its groups valid (R180). (DESIGN CHOICE, log entry 77.) -/
def runOk (s : State) (d : List Word) : Bool :=
  let n := fld (d.getD 2 0) 21 11
  decide (1 ≤ n ∧ n ≤ 1024 ∧ fld (d.getD 2 0) 31 22 + n ≤ 1024) && (!runHold d || runCopy d) && decide (runWinnow d ≤ 4) &&
  decide (0 < runClip d ∧ runClip d ≤ 0x3F800000) && (runGroups d).all (grpValid s)

/-- The output window's part for a group. -/
def outRange (s : State) (d : List Word) (k : Nat) : Nat × Nat := (runWindow d + grpOff s k, outBytes s k * grpLen s k)

/-- An ACTIVE ACCUMULATE context of a partition with an open index adds into a gradient of the groups (R184).
(DESIGN CHOICE, log entry 78.) -/
def gradConflict (s : State) (p : Nat) (groups : List Nat) : Bool :=
  s.coll.any fun e => e.2.state == .active && ctxOut e.2 == 1 && ctxPartition e.2 == p && e.2.opens != [] &&
    groups.any fun k => overlaps (ctxAccAddr e.2) (accSize e.2) (grpG s k) (4 * grpLen s k)

/-- B1 and B2 of a group at the start of a run (R181). -/
def startPowers (s : State) (k : Nat) : Word × Word :=
  let step (p b : Word) : Word := if grpAuto s k && grpRule s k == 1 then w32 (fpMul fmt32 p.toNat b.toNat) else p
  (step (groupWord s k 6) (groupWord s k 2), step (groupWord s k 7) (groupWord s k 3))

/-- HARVEST_RUN (R180, R184, R329). (DESIGN CHOICE, log entry 18.) -/
def harvestRun (c : CmdRef) (args : List Word) (s : State) : Res :=
  let d := (hostNums s 4 (arg64 args 1) 12).map w32
  let p := runPartition d
  let ks := runGroups d
  let t := tget s.routing.trees {} (runTree d)
  if (thePart s p).state = 2 then cmdRefuse St.partitionRetiring 0 s
  else if !runOk s d then cmdRefuse St.badArgument 1 s
  else if !inWindows s p (ks.flatMap (groupArrays s)) ∨ (runCopy d ∧ !inWindows s p (ks.map (outRange s d))) then
    cmdRefuse St.refusedPermission 0 s
  else if !(t.valid && t.partition == p) then cmdRefuse St.badArgument 1 s
  else if 4 ≤ s.thresh.harvests.length ∨ gradConflict s p ks then cmdRefuse St.busy 0 s
  else
    let h : Harvest := { id := runId d, desc := d, b1b2 := ks.map fun k => (k, startPowers s k),
                         recs := ks.map fun k => (k, tget s.thresh.groups [] k), redo := [], written := [], witnessed := 0, nonfinite := 0, cmd := c }
    cmdDetach c (s.modThresh fun t => { t with harvests := t.harvests ++ [h] })

/-! ### One parameter (R181) -/

/-- What an update makes of one parameter: weight, moments, gradient, and whether it was counted NONFINITE. -/
structure Param where
  w : Nat
  m : Nat
  v : Nat
  g : Nat
  nonfinite : Bool
  deriving DecidableEq, Repr

/-- The hyperparameters of a run for one group. -/
structure Hyper where
  rule : Nat
  lr : Nat
  beta1 : Nat
  beta2 : Nat
  eps : Nat
  wd : Nat
  b1 : Nat
  b2 : Nat
  clip : Nat
  clear : Bool
  skip : Bool
  deriving DecidableEq, Repr

/-- 1.0 in FP32. -/
def one32 : Nat := 0x3F800000

/-- The sign of R181: +1.0, −1.0 or 0.0. -/
def signOf (c : Nat) : Nat :=
  match decodeFp fmt32 c with
  | .nan => 0
  | .inf x => if x then 0xBF800000 else one32
  | .fin x m _ => if m = 0 then 0 else if x then 0xBF800000 else one32

/-- The update of one parameter (R181). -/
def updateParam (h : Hyper) (w g m v : Nat) : Param :=
  let add := fpAdd fmt32
  let sub := fpSub fmt32
  let mul := fpMul fmt32
  let div := fpDiv fmt32
  let bad := !finite32 g
  if bad && h.skip then { w := w, m := m, v := v, g := g, nonfinite := true }
  else
    let g0 := g
    let g := if h.clip = one32 then g else mul g h.clip
    let left := if h.clear then 0 else g0
    match h.rule with
    | 0 =>
      let g := add g (mul h.wd w)
      let m := add (mul h.beta1 m) g
      { w := sub w (mul h.lr m), m := m, v := v, g := left, nonfinite := false }
    | 1 =>
      let m := add (mul h.beta1 m) (mul (sub one32 h.beta1) g)
      let v := add (mul h.beta2 v) (mul (sub one32 h.beta2) (mul g g))
      let u := div (div m (sub one32 h.b1)) (add (fpSqrt fmt32 (div v (sub one32 h.b2))) h.eps)
      { w := sub w (mul h.lr (add u (mul h.wd w))), m := m, v := v, g := left, nonfinite := false }
    | _ =>
      let u := signOf (add (mul h.beta1 m) (mul (sub one32 h.beta1) g))
      let w' := sub w (mul h.lr (add u (mul h.wd w)))
      { w := w', m := add (mul h.beta2 m) (mul (sub one32 h.beta2) g), v := v, g := left, nonfinite := false }

/-- The hyperparameters of a harvest for a group. -/
def hyperOf (s : State) (h : Harvest) (k : Nat) : Hyper :=
  let n (i : Nat) : Nat := (groupWord s k i).toNat
  let b := ((h.b1b2.find? fun e => e.1 == k).map Prod.snd).getD (0, 0)
  { rule := grpRule s k, lr := n 1, beta1 := n 2, beta2 := n 3, eps := n 4, wd := n 5, b1 := b.1.toNat, b2 := b.2.toNat,
    clip := runClip h.desc, clear := runClear h.desc, skip := runSkip h.desc }

/-- An FP32 element of the Granary. -/
def elemAt (s : State) (a i : Nat) : Nat := ofLe (daRead s (a + 4 * i) 4)

/-- The draw of parameter i of group k (R181), or none for round to nearest even. -/
def harvestDraw (s : State) (h : Harvest) (k i : Nat) : Option Nat :=
  if grpRound s k then
    some (draw24 (Nat.xor (Nat.xor (Nat.xor (runSeed h.desc) (runId h.desc * 2 ^ 48 % 2 ^ 64)) (k * 2 ^ 36)) i % 2 ^ 64))
  else none

/-- The parameters of a chunk. -/
def chunkRange (s : State) (k j : Nat) : List Nat :=
  (List.range (Nat.min 1024 (grpLen s k - 1024 * j))).map (1024 * j + ·)

/-- The output bytes of a converted weight (R169, R181). (DESIGN CHOICE, log entry 76.) -/
def outElem (s : State) (h : Harvest) (k i w : Nat) : List Byte :=
  leBytes (outBytes s k) (convertElem (fmtOf (grpOut s k)) (grpOut s k != 1) (harvestDraw s h k i) 0 w).1

/-! ### Output packets (R182) -/

/-- Sends output bytes that start at an offset as multicast WRITE packets. (DESIGN CHOICE, log entry 76.) -/
def sendOutput (b : Nat) (d : List Word) (off : Nat) (bytes : List Byte) (s : State) : State :=
  (pieces (bytes.length / 4096 + 2) off bytes).foldl (fun s p =>
    let a := (runRemote d + p.1) % 2 ^ 64
    let h := ownHeader s Kind.write (runTc d) true (runPartition d) 0 (p.2.length / 16) (runTree d)
      (w32 (a / 2 ^ 32)) (w32 a) 0 0
    originate b h p.2 none s) s

/-- OUT_OFFSET and the output bytes of a group record (R179, R182). -/
def recOut (r : List Word) : Nat × Nat :=
  let n (i : Nat) : Nat := (r.getD i 0).toNat + 2 ^ 32 * (r.getD (i + 1) 0).toNat
  (n 18, (if fld (r.getD 0 0) 29 26 = 1 then 2 else 1) * n 8)

/-- A held output is sent from its window, by the group records of its run (R182). (DESIGN CHOICE, log entry 76.) -/
def sendHeld (h : Harvest) (s : State) : State :=
  h.recs.foldl (fun s e =>
    let (off, n) := recOut e.2
    let a := runWindow h.desc + off
    sendOutput (granHome a) h.desc off (daRead s a n) (cacheRange 0 a n false s)) s

/-! ### Running and ending (R183, R184, R187) -/

/-- The first chunk not written. (DESIGN CHOICE, log entry 74.) -/
def firstLeft (s : State) (h : Harvest) : Option (Nat × Nat) :=
  (runGroups h.desc).findSome? fun k =>
    ((List.range (Nat.min (chunksOf s k) (h.written.length + 1))).find? fun j => !h.written.contains (k, j)).map fun j => (k, j)

/-- ACCUMULATE results that waited for a harvest go on (R184). (DESIGN CHOICE, log entry 76.) -/
def releaseHeld (s : State) : State :=
  s.coll.foldl (fun s e =>
    (sortNat ((e.2.opens.filter fun o => o.2.phase == .held).map Prod.fst)).foldl (fun s g => proceed e.1 g s) s) s

/-- A harvest ends: its report, and the results that waited for it. Where every chunk is written, what is reported as the
first chunk not written is a free value. The end is captured (R310).
(DESIGN CHOICE, log entries 74, 77, 78; PRESUMED, log entry 75.) -/
def endHarvest (h : Harvest) (status detail : Nat) (s : State) : State :=
  let (first, s) : (Word × Word) × State := match firstLeft s h with
    | some (k, j) => ((w32 k, w32 j), s)
    | none => ((w32 (freeBelow s (2 ^ 32)), w32 (freeBelow s.tookFree (2 ^ 32))), s.tookFree.tookFree)
  let s := capture 19 h.id (s.modThresh fun t => { t with harvests := t.harvests.filter fun x => x.cmd != h.cmd })
  let s := endDetached h.cmd { status := status, detail := w32 detail, result :=
    [first.1, first.2, w32 h.written.length, w32 h.witnessed, w32 (sat (2 ^ 32 - 1) h.nonfinite)] } s
  releaseHeld s

/-- HARVEST_ABORT (R187). (DESIGN CHOICE, log entry 77.) -/
def harvestAbort (args : List Word) (s : State) : Res :=
  match s.thresh.harvests.find? fun h => decide (h.id = argN args 1) with
  | none => cmdRefuse St.badArgument 1 s
  | some h => cmdOk (endHarvest h St.aborted 1 s)

/-- B1 and B2 are stored once every chunk of a group with AUTO_STEP is written (R181). -/
def storePowers (h : Harvest) (k : Nat) (s : State) : State :=
  if grpAuto s k ∧ (h.written.filter fun c => c.1 == k).length = chunksOf s k then
    match h.b1b2.find? fun e => e.1 == k with
    | some e => s.modThresh fun t => { t with groups := tmod t.groups [] k fun r => (r.set 6 e.2.1).set 7 e.2.2 }
    | none => s
  else s

/-- The lines of a chunk's ranges are read or written, under the region hints (R193, R203). -/
def cacheAll (write : Bool) (l : List (Nat × Nat)) (s : State) : State :=
  l.foldl (fun s r => cacheRange 0 r.1 r.2 write s) s

/-- Writes a chunk that has passed its checks: arrays, output, counts; the last one ends the harvest (R181 to R183).
(DESIGN CHOICE, log entry 74.) -/
def writeChunk (u : Nat) (wit : Bool) (h : Harvest) (k j : Nat) (s : State) : State :=
  let is := chunkRange s k j
  let i0 := 1024 * j
  let hy := hyperOf s h k
  let ps := is.map fun i => updateParam hy (elemAt s (grpW s k) i) (elemAt s (grpG s k) i) (elemAt s (grpM s k) i)
    (if grpRule s k = 1 then elemAt s (grpV s k) i else 0)
  let out := (List.range is.length).flatMap fun q => outElem s h k (i0 + q) ((ps[q]?).elim 0 fun p => p.w)
  let off := grpOff s k + i0 * outBytes s k
  let le (f : Param → Nat) : List Byte := ps.flatMap fun p => leBytes 4 (f p)
  let bad := (ps.filter fun p => p.nonfinite).length
  let half := halfOfBarn (barnOfUnit u)
  let n := 4 * is.length
  let vs : List (Nat × Nat) := if grpRule s k = 1 then [(grpV s k + 4 * i0, n)] else []
  let gs : List (Nat × Nat) := [(grpG s k + 4 * i0, n)]
  let wm : List (Nat × Nat) := [(grpW s k + 4 * i0, n), (grpM s k + 4 * i0, n)]
  let os : List (Nat × Nat) := if runCopy h.desc then [(runWindow h.desc + off, out.length)] else []
  let s := cacheAll true (wm ++ vs ++ (if runClear h.desc then gs else []) ++ os) (cacheAll false (wm ++ gs ++ vs) s)
  let t := daWrite (grpW s k + 4 * i0) (le fun p => p.w) (daWrite (grpM s k + 4 * i0) (le fun p => p.m) s)
  let t := if grpRule s k = 1 then daWrite (grpV s k + 4 * i0) (le fun p => p.v) t else t
  let t := if runClear h.desc then daWrite (grpG s k + 4 * i0) (le fun p => p.g) t else t
  let t := if runCopy h.desc then daWrite (runWindow h.desc + off) out t else t
  let t := bumpBy (ctr 0x0F half 16) bad (bump (ctr 0x0F half 15) t)
  let h' := { h with written := h.written ++ [(k, j)], redo := h.redo.filter fun e => e.1 != (k, j), witnessed := h.witnessed + bit wit, nonfinite := h.nonfinite + bad }
  let t := storePowers h' k (t.modThresh fun x => { x with harvests := x.harvests.map fun y => if y.cmd == h.cmd then h' else y })
  let t := if runHold h.desc then t else sendOutput (barnOfUnit u) h.desc off out t
  if (firstLeft t h').isNone then
    endHarvest h' St.ok 0 (if runHold h.desc then t.modThresh fun x => { x with heldOut := x.heldOut ++ [h'] } else t)
  else t

/-- A device address of an array that a chunk reads. -/
def inChunk (s : State) (k j a : Nat) : Bool :=
  (groupArrays s k).any fun r => decide (r.1 + 4096 * j ≤ a) && decide (a < r.1 + Nat.min r.2 (4096 * (j + 1)))

/-- The chunk of a running harvest that has not been written. -/
def openChunk (s : State) (id k j : Nat) : Option Harvest :=
  (s.thresh.harvests.find? fun h => h.id == id).filter fun h =>
    (runGroups h.desc).contains k && decide (j < chunksOf s k) && !h.written.contains (k, j)

/-- The unit that computes a chunk: after a residue fault the fault unit's witness, as the roles are settled now; otherwise, and
where no unit can be the witness, a unit in service, which one is a free value (R175, R183). (DESIGN CHOICE, log entry 74.) -/
def chunkUnit (h : Harvest) (k j : Nat) (s : State) : Option Nat :=
  let ups := (List.range 64).filter (unitUp s)
  match (h.redo.find? fun e => e.1 == (k, j)).bind fun e => (firstRoles s e.2)[1]? with
  | some w => some w
  | none => ups[freeBelow s ups.length]?

/-- HARVEST_CHUNK: a unit ends a chunk (R183, R377). The witness and the referee of a witnessed chunk are those of the unit that
computes it, so that a unit that has faulted on it may witness its redo. (DESIGN CHOICE, log entries 74, 89.) -/
def harvestChunk (id k j : Nat) (ev : ChunkEvent) (s : State) : State :=
  match (openChunk s id k j).bind fun h => (chunkUnit h k j s).map fun u => (h, u) with
  | some (h, u) =>
    let s := s.tookFree
    let roles := firstRoles s u
    let pick := winnowed (runWinnow h.desc) j id
    match ev with
    | .written =>
      let wit := pick && decide (2 ≤ roles.length)
      writeChunk u wit h k j (if wit then bumpUnit u 2 s else s)
    | .outvoted primary =>
      match roles with
      | _ :: w :: _ :: _ =>
        if pick then
          let loser := if primary then u else w
          let s := writeChunk u true h k j (bumpUnit u 3 s)
          settleWinnow (settleFences 64 (fenceUnit loser 2 (modUnit loser (fun x => { x with outvoted := sat (2 ^ 32 - 1) (x.outvoted + 1) }) s)))
        else s
      | _ => s
    | .unresolved =>
      if pick && decide (2 ≤ roles.length) then
        endHarvest h St.arithFault 0 (roles.foldl (fun s v => report { faultAt 0x0702 1 (halfOfBarn (barnOfUnit v)) v 0 with
          partition := runPartition h.desc } s) (bumpUnit u 4 s))
      else s
    | .uncorrectable a =>
      if inChunk s k j a then endHarvest h St.memFault (memDetail a) (memUE a (runPartition h.desc) none s) else s
  | none => s

/-- A residue fault in harvest or norm work on a unit, and, where the witness faults as well, in that work on it; the unit that
faulted last is answered: its witness does the work next (R173, R175, R183). (DESIGN CHOICE, log entry 76.) -/
def faultWork (u : Nat) (redoFaults : Bool) (s : State) : Nat × State :=
  match if redoFaults then (firstRoles s u)[1]? else none with
  | none => (u, settleFences 64 (faultFree u s))
  | some w => (w, settleFences 64 (faultFree w (faultFree u s)))

/-- A residue fault in a chunk: its values are discarded, and the unit's witness computes it again (R183).
(DESIGN CHOICE, log entry 76.) -/
def residueChunk (u id k j : Nat) (redoFaults : Bool) (s : State) : State :=
  match (openChunk s id k j).filter fun _ => unitUp s u with
  | none => s
  | some h =>
    let (last, s) := faultWork u redoFaults s
    let redo := (h.redo.filter fun e => e.1 != (k, j)) ++ [((k, j), last)]
    s.modThresh fun x => { x with harvests := x.harvests.map fun y => if y.cmd == h.cmd then { y with redo := redo } else y }

/-- A residue fault in a norm pass, whose sums are FP64 operations: they are done again (R172, R185).
(DESIGN CHOICE, log entry 76.) -/
def residueNorm (u i : Nat) (redoFaults : Bool) (s : State) : State :=
  if s.thresh.norms[i]?.isSome && unitUp s u then (faultWork u redoFaults s).2 else s

/-- RESIDUE_FAULT (R172, R173, R176, R183, R185). -/
def residueFault (u : Nat) (w : ResidueWork) (redoFaults : Bool) (s : State) : State :=
  settleWinnow (match w with
    | .index c g => residueIndex u c g redoFaults s
    | .addition c g => residueAdd u c g redoFaults s
    | .conversion c g => residueIndex u c g redoFaults s
    | .winnow c g => residueWinnow u c g s
    | .chunk h k j => residueChunk u h.toNat k j redoFaults s
    | .norm i => residueNorm u i redoFaults s)

/-! ### The norm pass (R185) -/

/-- NORM_PASS (R184, R185, R187, R329). -/
def normPass (c : CmdRef) (args : List Word) (s : State) : Res :=
  let p := argN args 1
  let first := argN args 2
  let n := argN args 3
  let ks := (List.range n).map (first + ·)
  if 4096 ≤ p then cmdRefuse St.badArgument 1 s
  else if 1024 ≤ first then cmdRefuse St.badArgument 2 s
  else if n < 1 ∨ 1024 < first + n then cmdRefuse St.badArgument 3 s
  else if (thePart s p).state = 2 then cmdRefuse St.partitionRetiring 0 s
  else if ks.any fun k => !grpValid s k then cmdRefuse St.badArgument 2 s
  else if !inWindows s p (ks.map fun k => (grpG s k, 4 * grpLen s k)) then cmdRefuse St.refusedPermission 0 s
  else if 4 ≤ s.thresh.norms.length ∨ gradConflict s p ks then cmdRefuse St.busy 0 s
  else
    let m : Norm := { partition := p, first := first, count := n, cmd := c }
    cmdDetach c (s.modThresh fun t => { t with norms := t.norms ++ [m] })

/-- An FP32 value as FP64, exactly. -/
def to64 (w : Nat) : Nat :=
  match decodeFp fmt32 w with
  | .nan => fmt64.nan
  | .inf x => signed fmt64 x 0x7FF0000000000000
  | .fin x m e => roundFp fmt64 x m 1 e

/-- The sum of squares of one chunk. -/
def chunkSum (s : State) (k j : Nat) : Nat :=
  (chunkRange s k j).foldl (fun t i => let v := to64 (elemAt s (grpG s k) i); fpAdd fmt64 t (fpMul fmt64 v v)) 0

/-- SUMSQ over groups, chunk by chunk. -/
def sumSq (s : State) (ks : List Nat) : Nat :=
  (ks.flatMap fun k => (List.range (chunksOf s k)).map fun j => chunkSum s k j).foldl (fpAdd fmt64) 0

/-- The non-finite gradients of a group. -/
def badGrads (s : State) (k : Nat) : Nat := ((List.range (grpLen s k)).filter fun i => !finite32 (elemAt s (grpG s k) i)).length

/-- A norm pass leaves with its answer. (PRESUMED, log entry 75.) -/
def endNorm (m : Norm) (r : Reply) (s : State) : State :=
  endDetached m.cmd r (s.modThresh fun t => { t with norms := t.norms.filter fun x => x.cmd != m.cmd })

/-- NORM_PASS_DONE: the pass ends, or stops at an uncorrectable error (R185, R377). It reads the group records as they stand at
this row, also where one has been rewritten since the command. (PRESUMED, log entry 75; DESIGN CHOICE, log entry 161.) -/
def normDone (i : Nat) (ue : Option Nat) (s : State) : State :=
  match s.thresh.norms[i]? with
  | none => s
  | some m =>
    let ks := (List.range m.count).map (m.first + ·)
    match ue with
    | some a => endNorm m { status := St.memFault, detail := w32 (memDetail a), result := [] } (memUE a m.partition none s)
    | none =>
      let s := cacheAll false (ks.map fun k => (grpG s k, 4 * grpLen s k)) s
      endNorm m { status := St.ok, detail := 0, result := w64 (sumSq s ks) ++
        [w32 (sat (2 ^ 32 - 1) ((ks.map (badGrads s)).sum))] ++ w64 ((ks.map (grpLen s)).sum) } s

/-! ### Meanings -/

/-- RESIDUE_FAULT. -/
def execResidueFault (unit : Fin 64) (work : ResidueWork) (redoFaults : Bool) (s : State) :
    Host.Outcome State Fault Refusal := .next (residueFault unit work redoFaults s)
/-- TU_STATUS_READ. -/
def execTuStatusRead (h : CmdHdr) (args : List Word) (s : State) : Host.Outcome State Fault Refusal :=
  runMailbox ⟨0x0701, 3, true⟩ (fun _ => 4) (fun _ s => tuStatusRead args s) h args s
/-- TU_FENCE. -/
def execTuFence (h : CmdHdr) (args : List Word) (s : State) : Host.Outcome State Fault Refusal :=
  runMailbox ⟨0x0702, 1, true⟩ (fun _ => 1) (fun _ s => tuFence args s) h args s
/-- TU_UNFENCE. -/
def execTuUnfence (h : CmdHdr) (args : List Word) (s : State) : Host.Outcome State Fault Refusal :=
  runMailbox ⟨0x0703, 1, true⟩ (fun _ => 1) (fun c s => tuUnfence c args s) h args s
/-- UNIT_SELFTEST_DONE. -/
def execUnitSelftestDone (unit : Fin 64) (pass : Bool) (s : State) : Host.Outcome State Fault Refusal :=
  .next (selftestDone unit pass s)
/-- HARVEST_GROUP_WRITE. -/
def execHarvestGroupWrite (h : CmdHdr) (args : List Word) (s : State) : Host.Outcome State Fault Refusal :=
  runMailbox ⟨0x0704, 1, true⟩ (fun _ => 4) (fun _ s => groupWrite args s) h args s
/-- HARVEST_GROUP_READ. -/
def execHarvestGroupRead (h : CmdHdr) (args : List Word) (s : State) : Host.Outcome State Fault Refusal :=
  runMailbox ⟨0x0705, 1, true⟩ (fun _ => 4) (fun _ s => groupRead args s) h args s
/-- HARVEST_RUN. -/
def execHarvestRun (h : CmdHdr) (args : List Word) (s : State) : Host.Outcome State Fault Refusal :=
  runMailbox ⟨0x0706, 1, true⟩ (fun _ => 2) (fun c s => harvestRun c args s) h args s
/-- HARVEST_ABORT. -/
def execHarvestAbort (h : CmdHdr) (args : List Word) (s : State) : Host.Outcome State Fault Refusal :=
  runMailbox ⟨0x0707, 0, true⟩ (fun _ => 1) (fun _ s => harvestAbort args s) h args s
/-- NORM_PASS. -/
def execNormPass (h : CmdHdr) (args : List Word) (s : State) : Host.Outcome State Fault Refusal :=
  runMailbox ⟨0x0708, 1, true⟩ (fun _ => 3) (fun c s => normPass c args s) h args s
/-- HARVEST_CHUNK. -/
def execHarvestChunk (harvest : BitVec 16) (group : Fin 1024) (chunk : Nat) (event : ChunkEvent) (s : State) :
    Host.Outcome State Fault Refusal := .next (harvestChunk harvest.toNat group chunk event s)
/-- NORM_PASS_DONE. -/
def execNormPassDone (pass : Fin 4) (ue : Option Nat) (s : State) : Host.Outcome State Fault Refusal :=
  .next (normDone pass ue s)

end Sys2Proof.Machine
end

