-- ==== Sys2Proof/Machine/MemCmds.lean ====
section
/-! DEFINITION. The memory tiers: windows, pool, Loft division, hints, BAR2, moves, arbiters, heat, service
(R194 to R223, R376). -/

namespace Sys2Proof.Machine

/-! ### Granary windows (R194, R195) -/

/-- A window entry from its four words. -/
def windowOfWords (args : List Word) (i : Nat) : Window :=
  let a := arg64 args i
  let b := arg64 args (i + 2)
  { valid := nfld a 63 63 == 1, rd := nfld a 62 62 == 1, wr := nfld a 61 61 == 1, partition := nfld a 51 40, base := nfld a 39 0,
    size := nfld b 39 0 }

/-- The image of a window entry. (DESIGN CHOICE, log entry 36.) -/
def windowImg (w : Window) : List Byte :=
  leBytes 8 (packN [(63, bit w.valid), (62, bit w.rd), (61, bit w.wr), (40, w.partition), (0, w.base)]) ++ leBytes 8 w.size

/-- The ranges of the Granary that running work holds inside windows: accumulation regions of ACTIVE contexts, arrays and
outputs of running harvests and norm passes, running moves, and the Granary rings (R195). -/
def heldRanges (s : State) : List (Nat × Nat) :=
  ((s.coll.filter fun e => e.2.state == .active && ctxOut e.2 == 1).map fun e => (ctxAccAddr e.2, accSize e.2)) ++
  (s.thresh.harvests.flatMap fun h => (runGroups h.desc).flatMap fun k =>
    groupArrays s k ++ (if runCopy h.desc then [outRange s h.desc k] else [])) ++
  (s.thresh.norms.flatMap fun m => (List.range m.count).map fun i => (grpG s (m.first + i), 4 * grpLen s (m.first + i))) ++
  (s.mem.moves.flatMap fun m => [(m.src, m.len), (m.dst, m.len)]) ++
  ((match s.count.tally.enabled, s.count.tally.target with
    | true, .granary _ o => [(o, s.count.tally.slots * slotLen s.count.tally.kindMask)]
    | _, _ => []) ++
   (match s.count.trace.enabled, s.count.trace.target with
    | true, .granary _ o => [(o, s.count.trace.slots * 64)]
    | _, _ => []))

/-- A window holds some range of running work. -/
def windowInUse (s : State) (w : Window) : Bool := (heldRanges s).any fun r => overlaps w.base w.size r.1 r.2

/-- A write that takes something from a valid window: invalidates, moves, shrinks, re-owns or clears a permission. -/
def takesFrom (old new : Window) : Bool :=
  !new.valid || old.base != new.base || decide (new.size < old.size) || old.partition != new.partition ||
    (old.rd && !new.rd) || (old.wr && !new.wr)

/-- A range that a scrub has still to zero overlaps (R195, R330). -/
def overlapsScrub (s : State) (base size : Nat) : Bool :=
  s.jobs.retiring.any fun r => r.ranges.any fun x => x.ctx.isNone && !scrubbed x && overlaps base size x.base x.size

/-- The refusal of a window whose range breaks the placement rules (R195). -/
def windowPlace (s : State) (i : Nat) (w : Window) : Option (Nat × Nat) :=
  if w.partition = 0 ∨ w.base % mib ≠ 0 then some (St.badArgument, 2)
  else if w.size % mib ≠ 0 ∨ w.size < mib then some (St.badArgument, 4)
  else if poolBase s < w.base + w.size then some (St.badArgument, 2)
  else if s.mem.granary ≠ .inService then some (St.busy, 0)
  else
    let over_ := s.mem.windows.filter fun e => e.1 != i && e.2.valid && overlaps w.base w.size e.2.base e.2.size
    if over_.any fun e => (thePart s e.2.partition).state != 2 then some (St.badArgument, 2)
    else if over_ ≠ [] ∨ overlapsScrub s w.base w.size then some (St.busy, 0)
    else none

/-- MEM_WINDOW_WRITE (R195, R324). -/
def windowWrite (args : List Word) (s : State) : Res :=
  let i := argN args 1
  let new := windowOfWords args 2
  let old := theWindow s i
  let p := new.partition
  let extra := mibs new.size - (if old.valid ∧ old.partition = p then mibs old.size else 0)
  if 1024 ≤ i then cmdRefuse St.badArgument 1 s
  else match if new.valid then windowPlace s i new else none with
    | some (st, d) => cmdRefuse st d s
    | none =>
      if old.valid ∧ ((thePart s old.partition).state = 2 ∨ (takesFrom old new ∧ windowInUse s old)) then cmdRefuse St.busy 0 s
      else match if new.valid ∧ ((thePart s p).state ≠ 1 ∨ 0 < extra) then quotaRefusal s p 3 extra else none with
        | some (st, d) => cmdRefuse st d s
        | none => cmdOk (clearParity .window (· == i) (s.modMem fun m => { m with windows := tset m.windows {} i new }))

/-- MEM_WINDOW_READ (R223). -/
def windowRead (args : List Word) (s : State) : Res :=
  let first := argN args 1
  let n := argN args 2
  if 1024 ≤ first then cmdRefuse St.badArgument 1 s
  else if n < 1 ∨ 1024 < first + n then cmdRefuse St.badArgument 2 s
  else cmdOk (hostWrite (arg64 args 3) ((List.range n).flatMap fun i => windowImg (theWindow s (first + i))) s)

/-! ### Pool and Loft (R196, R200, R204) -/

/-- MEM_POOL (R196). -/
def memPool (args : List Word) (s : State) : Res :=
  let g := argN args 1
  let base := granarySize - g * gib
  if g < 8 ∨ 256 < g ∨ g % 8 ≠ 0 then cmdRefuse St.badArgument 1 s
  else if s.mem.windows.any fun e => e.2.valid && decide (base < e.2.base + e.2.size) then cmdRefuse St.badArgument 1 s
  else if spillWanted s ≠ 0 ∨ s.coll.any fun e => ctxUsed e.2 then cmdRefuse St.busy 0 s
  else cmdOk (s.modMem fun m => { m with poolGib := g })

/-- A context holds accumulators in a barn. -/
def accIn (s : State) (b : Nat) : Bool := s.coll.any fun e => ctxUsed e.2 && reservedFor e.2 b != 0

/-- MEM_LOFT (R200). -/
def memLoft (args : List Word) (s : State) : Res :=
  let b := argN args 1
  let n := argN args 2
  let x := theBarn s b
  if 16 ≤ b then cmdRefuse St.badArgument 1 s
  else if n < 4096 ∨ n % 1024 ≠ 0 ∨ 65536 < n + x.bufCells + x.scratchCells + 4096 then cmdRefuse St.badArgument 2 s
  else if accIn s b then cmdRefuse St.busy 0 s
  else cmdOk (modBarn b (fun x => { x with stageCells := n, cache := if n = x.stageCells then x.cache else [] }) s)

/-- A context has staged contributions in a barn's cells. -/
def stagedIn (s : State) (b : Nat) : Bool :=
  s.coll.any fun e => e.2.opens.any fun o => decide (0 < stagedCells s b e.2 o)

/-- The lines of a barn's cache that the sets of its present size hold, the most recently used first: the others lay in cells
that another part of the Loft has taken (R204). (DESIGN CHOICE, log entry 86.) -/
def fitLines (b : Barn) : List CacheLine :=
  let sets := cacheSets b
  if sets = 0 then []
  else b.cache.foldl (fun c x => if (c.filter fun y => sameSet sets y.line x.line).length < 16 then c ++ [x] else c) []

/-- MEM_SCRATCH (R204). (DESIGN CHOICE, log entry 86.) -/
def memScratch (args : List Word) (s : State) : Res :=
  let b := argN args 1
  let n := argN args 2
  let x := theBarn s b
  if 16 ≤ b then cmdRefuse St.badArgument 1 s
  else if n ≠ 0 ∧ n ≠ 65536 ∧ 65536 < n + x.bufCells + x.stageCells + 4096 then cmdRefuse St.badArgument 2 s
  else if n = 65536 ∧ (barnPortEnabled s b ∨ accIn s b ∨ stagedIn s b ∨ x.cells ≠ []) then cmdRefuse St.busy 0 s
  else
    let s := if n < x.scratchCells then daZero (loftOf b + n * 256) ((x.scratchCells - n) * 256) s else s
    cmdOk (modBarn b (fun x => { x with scratchCells := n, cache := if x.scratchCells < n then fitLines { x with scratchCells := n } else x.cache }) s)

/-! ### Hints (R203) -/

/-- A range within one of the tiers Granary, Barn store and Silo. -/
def inOneTier (a n : Nat) : Bool :=
  match tierOf a with
  | some 0 => decide (a + n ≤ granarySize)
  | some 1 => decide (a + n ≤ bsBase + 0x018000000000)
  | some 2 => decide (a + n ≤ siloBase 2)
  | _ => false

/-- MEM_HINT_WRITE (R203). -/
def hintWrite (args : List Word) (s : State) : Res :=
  let i := argN args 1
  let a := arg64 args 2
  let new : HintEntry := { valid := nfld a 63 63 == 1, hint := nfld a 62 61, base := nfld a 47 0, size := nfld (arg64 args 4) 47 0 }
  if 256 ≤ i then cmdRefuse St.badArgument 1 s
  else if new.valid ∧ (new.base % mib ≠ 0 ∨ !inOneTier new.base 0) then cmdRefuse St.badArgument 2 s
  else if new.valid ∧ (new.size % mib ≠ 0 ∨ !inOneTier new.base new.size) then cmdRefuse St.badArgument 4 s
  else cmdOk (clearParity .hint (· == i) (s.modMem fun m => { m with hints := tset m.hints {} i new }))

/-! ### BAR2 (R205) -/

/-- MEM_BAR2_MAP (R205). -/
def bar2Map (args : List Word) (s : State) : Res :=
  match argN args 1 with
  | 0 =>
    let o := arg64 args 2
    if o % bar2Size ≠ 0 ∨ poolBase s < o + bar2Size then cmdRefuse St.badArgument 2 s
    else cmdOk (s.modMem fun m => { m with bar2 := some o })
  | 1 => cmdOk (s.modMem fun m => { m with bar2 := none })
  | _ => cmdRefuse St.badArgument 1 s

/-- A byte of the Loft range lies in a scratchpad of a barn that is out of reset. -/
def inScratch (s : State) (off : Nat) : Bool :=
  let b := off / 0x1000000
  decide (off % 0x1000000 < (theBarn s b).scratchCells * 256) && barnUp s b

/-- The Granary can be reached through BAR2. -/
def bar2Ready (s : State) : Bool := halfPowered s 0 && halfPowered s 1 && s.mem.granary == .inService

/-- BAR2_WRITE: bytes that no target takes are discarded, and the write is counted (R205).
(DESIGN CHOICE, log entries 86, 146.) -/
def bar2Write (off : Nat) (bytes : List Byte) (s : State) : State :=
  match s.mem.bar2 with
  | some o => if bar2Ready s then daWrite (o + off) bytes s else bump (ctr 0x14 0 7) s
  | none =>
    let is := List.range bytes.length
    let s' := (is.filter fun i => inScratch s (off + i)).foldl (fun s i => daWrite (loftBase + off + i) [bytes.getD i 0] s) s
    if is.any fun i => !inScratch s (off + i) then bump (ctr 0x14 0 7) s' else s'

/-- BAR2_READ (R205, R377). (DESIGN CHOICE, log entry 146.) -/
def bar2Read (off n : Nat) (ue : Bool) (s : State) : State :=
  let a := match s.mem.bar2 with
    | some o => o + off
    | none => loftBase + off
  let ok := match s.mem.bar2 with
    | some _ => bar2Ready s
    | none => (List.range n).all fun i => inScratch s (off + i)
  if !ok then emit .unsupported s
  else if ue then emit .completerAbort (memUE a 0 none s)
  else emit (.readData (daRead s a n)) s

/-! ### Moves (R206) -/

/-- The state of the tier that an address lies in; the Loft is always reachable. -/
def tierReady (s : State) (da : Nat) : Bool :=
  match tierOf da with
  | some 0 => s.mem.granary == .inService
  | some 1 => s.mem.barnStore == .inService
  | _ => true

/-- A range of the Granary that windows of a partition cover, each admitting the access. (DESIGN CHOICE, log entry 79.) -/
def covered (s : State) (p : Nat) (wr : Bool) (fuel a b : Nat) : Bool :=
  match fuel with
  | 0 => false
  | fuel + 1 =>
    decide (b ≤ a) ||
    (match windowAt s a with
     | some (_, w) => w.partition == p && (if wr then w.wr else w.rd) && covered s p wr fuel (w.base + w.size) b
     | none => false)

/-- A side of a move may be accessed: outside the Granary by any move. (DESIGN CHOICE, log entry 79.) -/
def sideOk (s : State) (p : Nat) (wr : Bool) (a n : Nat) : Bool := tierOf a != some 0 || covered s p wr 1025 a (a + n)

/-- MEM_MOVE (R206, R220, R329). (DESIGN CHOICE, log entries 18, 79.) -/
def memMove (c : CmdRef) (args : List Word) (s : State) : Res :=
  let m : Move := { partition := argN args 1, src := arg64 args 2, dst := arg64 args 4, len := arg64 args 6,
                    rdHint := argN args 8, wrHint := argN args 9, cmd := c }
  if 4096 ≤ m.partition then cmdRefuse St.badArgument 1 s
  else if m.src % 16 ≠ 0 ∨ !populated s m.src m.len then cmdRefuse St.badArgument 2 s
  else if m.dst % 16 ≠ 0 ∨ !populated s m.dst m.len then cmdRefuse St.badArgument 4 s
  else if m.len % 16 ≠ 0 then cmdRefuse St.badArgument 6 s
  else if 3 < m.rdHint then cmdRefuse St.badArgument 8 s
  else if 3 < m.wrHint then cmdRefuse St.badArgument 9 s
  else if (thePart s m.partition).state = 2 then cmdRefuse St.partitionRetiring 0 s
  else if !sideOk s m.partition false m.src m.len ∨ !sideOk s m.partition true m.dst m.len then
    cmdRefuse St.refusedPermission 0 s
  else if 16 ≤ s.mem.moves.length ∨ !tierReady s m.src ∨ !tierReady s m.dst then cmdRefuse St.busy 0 s
  else cmdDetach c (s.modMem fun x => { x with moves := x.moves ++ [m] })

/-- A move ends. (DESIGN CHOICE, log entry 80.) -/
def endMove (m : Move) (status detail : Nat) (s : State) : State :=
  endWith m.cmd status detail (s.modMem fun x => { x with moves := x.moves.filter fun y => y.cmd != m.cmd })

/-- The bytes of a move arrive at its destination. (DESIGN CHOICE, log entry 79.) -/
def copyMove (m : Move) (s : State) : State :=
  let data := daRead s m.src m.len
  cacheRange m.wrHint m.dst m.len true (daWrite m.dst data (cacheRange m.rdHint m.src m.len false s))

/-- What has arrived of a move that stops early: every unit of 16 bytes has arrived or not, which is a free value, but
for the unit that holds an address at fault. (DESIGN CHOICE, log entry 80.) -/
def partMove (m : Move) (bad : Option Nat) (s : State) : State :=
  let src := s
  (List.range (m.len / 16)).foldl (fun s i =>
    if bad.any fun a => decide (m.src + 16 * i ≤ a) && decide (a < m.src + 16 * i + 16) then s
    else if freeBelow s 2 = 0 then s.tookFree
    else (daWrite (m.dst + 16 * i) (daRead src (m.src + 16 * i) 16) s).tookFree) s

/-- What has arrived of a move that stops after the granule in progress: every granule of its destination has arrived whole or
not at all, which is a free value (R189, R328). (DESIGN CHOICE, log entry 80.) -/
def partGranules (m : Move) (s : State) : State :=
  let src := s
  (List.range ((m.dst + m.len + 4095) / 4096 - m.dst / 4096)).foldl (fun s i =>
    let a := Nat.max m.dst ((m.dst / 4096 + i) * 4096)
    let z := Nat.min (m.dst + m.len) ((m.dst / 4096 + i + 1) * 4096)
    if freeBelow s 2 = 0 then s.tookFree
    else (daWrite a (daRead src (m.src + (a - m.dst)) (z - a)) s).tookFree) s

/-- A move that fails at an uncorrectable unit. (DESIGN CHOICE, log entry 80.) -/
def failMove (m : Move) (a : Nat) (s : State) : State :=
  let s := partMove m (some a) s
  endMove m St.memFault (memDetail a) (memUE a m.partition none s)

/-- MEM_MOVE_DONE (R206, R377). (DESIGN CHOICE, log entry 79.) -/
def moveDone (i : Nat) (ue : Option Nat) (s : State) : State :=
  match s.mem.moves[i]? with
  | none => s
  | some m =>
    match ue with
    | none => endMove m St.ok 0 (copyMove m s)
    | some a => if m.src ≤ a ∧ a < m.src + m.len then failMove m a s else s

/-! ### Channel arbiters (R207 to R211) -/

/-- A channel arbiter: 0 to 255 are channel 32·s + c of the Granary stacks, 256 to 279 the Barn store channels, 280 and
281 the Silo ports. (PRESUMED, log entry 81.) -/
def theArb (s : State) (ch : Nat) : Arb := tget s.mem.arbs {} ch

/-- Changes a channel arbiter. -/
def modArb (ch : Nat) (f : Arb → Arb) (s : State) : State := s.modMem fun m => { m with arbs := tmod m.arbs {} ch f }

/-- The grant at a burst boundary (R208): requesters 0 to 7 TU, 8 SPILL, 9 FILL, 10 HEARTH. -/
def grantNext (limit : Nat) (reqs : List Nat) (hearth : Bool) (a : Arb) : Arb :=
  if reqs = [] then { a with owner := if hearth then some 10 else none }
  else
    let forced := reqs.filter fun r => decide (limit ≤ tget a.wait 0 r)
    let from_ := if forced = [] then reqs else forced
    match argMin (fun r => (r + 9 - a.ptr) % 10) from_ with
    | none => a
    | some p =>
      { owner := some p, since := a.since, ptr := p,
        wait := tset ((reqs.filter (· != p)).foldl (fun t r => tmod t 0 r (· + 1)) a.wait) 0 p 0 }

/-- BURST_BOUNDARY (R208, R212). -/
def burstBoundary (ch : Nat) (requests : BitVec 11) (s : State) : State :=
  let reqs := (List.range 10).filter fun r => requests.getLsbD r && (decide (ch < 256) || decide (8 ≤ r))
  modArb ch (fun a => { grantNext s.mem.waitLimit reqs (requests.getLsbD 10) a with since := s.time.now }) s

/-- A memory source of R213 and R222: 0 to 7 the stacks, 8 to 31 the Barn store channels, 32 and 33 the Silo ports. -/
def theSrc (s : State) (i : Nat) : MemSrc := tget s.mem.srcs {} i

/-- Changes a memory source. -/
def modSrc (i : Nat) (f : MemSrc → MemSrc) (s : State) : State := s.modMem fun m => { m with srcs := tmod m.srcs {} i f }

/-- The memory source of a channel arbiter. (PRESUMED, log entry 81.) -/
def srcOfChan (ch : Nat) : Nat := if ch < 256 then ch / 32 else ch - 248

/-- A reference to a spilled packet is lost: its cells stay held until the Gleaner reclaims them (R114, R211). -/
def loseSpilled (b pid : Nat) (s : State) : State :=
  if (theBarn s b).inPkts.any fun p => p.info.pid == pid && p.spilled && !p.arriving then
    modBarn b (fun x => { x with inPkts := x.inPkts.filter fun p => p.info.pid != pid,
                                 voqs := x.voqs.map fun e => (e.1, e.2.filter fun q => q.pid != pid) }) s
  else s

/-- The address of a move on the tier of a channel. -/
def chanSide (ch : Nat) (m : Move) : Nat :=
  if tierOf m.src = some (if ch < 256 then 0 else if ch < 280 then 1 else 2) then m.src else m.dst

/-- Work of a detached command that the Hearth itself does in the memory. (DESIGN CHOICE, log entries 33, 84.) -/
def hearthWork (w : DetWork) : Bool :=
  match w with
  | .fwLoad _ _ => true
  | .spill _ _ => true
  | _ => false

/-- The counter of a channel's watchdog (R399). (DESIGN CHOICE, log entry 84.) -/
def wdCounter (ch : Nat) : Nat :=
  if ch < 256 then ctr 0x0D (ch / 32) 3
  else if ch < 280 then ctr 0x0E ((ch - 256) / 12) 2 else ctr 0x0E (ch - 280) 8

/-- The Hearth's work for a detached command ends with MEM_FAULT and the address of the access (R211, R360): margining, or work
that `hearthWork` names. (DESIGN CHOICE, log entry 84.) -/
def watchdogCmd (n addr : Nat) (s : State) : State :=
  match s.mem.marginCmd.filter fun c => c.serial == n with
  | some c => endWith c St.memFault (memDetail addr) (s.modMem fun m => { m with marginCmd := none })
  | none =>
    match s.hearth.detached.find? fun d => d.cmd.serial == n && hearthWork d.work with
    | some d => endWith d.cmd St.memFault (memDetail addr) s
    | none => s

/-- What a watchdog reset does to the requester's work (R211). A remote access that is discarded is counted once more at the
watchdog's counter. (DESIGN CHOICE, log entry 84.) -/
def watchdogWork (ch r : Nat) (work : WatchWork) (retryFails : Bool) (s : State) : State :=
  if r < 8 then
    let u := 8 * (ch / 32) + r
    match work with
    | .unit w => residueFault u w retryFails s
    | _ => settleWinnow (settleFences 64 (faultFree u s))
  else if r = 8 then
    match work with
    | .spill b pid => if retryFails then loseSpilled b pid s else s
    | _ => s
  else if r = 9 then
    if retryFails then
      match work with
      | .move i => match s.mem.moves[i.val]? with
        | some m => endMove m St.memFault (memDetail (chanSide ch m)) (partMove m none s)
        | none => s
      | .remote p => atSink p (bump (wdCounter ch)) s
      | .witness c g => match ((openOf (theCtx s c) g).bind fun o => (rolesOf s o.unit o.faulty)[1]?) with
        | some w => settleWinnow (residueWinnow w c g s)
        | none => s
      | _ => s
    else s
  else
    match work with
    | .command n a => watchdogCmd n a s
    | .bar2 => emit .completerAbort s
    | _ => s

/-- CHAN_WATCHDOG (R211): the grant has been held for WD_US. (DESIGN CHOICE, log entry 84.) -/
def chanWatchdog (ch : Nat) (work : WatchWork) (retryFails : Bool) (s : State) : State :=
  match (theArb s ch).owner.filter fun _ => decide ((theArb s ch).since + usU s.mem.wdUs ≤ s.time.now) with
  | none => s
  | some r =>
    let i := srcOfChan ch
    let place := if ch < 256 then ch / 32 else if ch < 280 then ch - 256 else ch - 280
    let half := if ch < 256 then ch / 128 else if ch < 280 then (ch - 256) / 12 else ch - 280
    let s := modArb ch (fun a => { a with owner := none }) s
    let s := modSrc i (fun x => { x with wdFires := sat 65535 (x.wdFires + 1) }) s
    let s := bump (wdCounter ch) s
    let s := capture 16 (place * 256 + r) s
    let s := report { faultAt 0x0801 1 half place r with detail := [w32 (if ch < 256 then ch % 32 else 0)] } s
    watchdogWork ch r work retryFails s

/-- MEM_ARB_CONFIG (R208, R211, R223). -/
def arbConfig (args : List Word) (s : State) : Res :=
  if argN args 1 < 1 ∨ 256 < argN args 1 then cmdRefuse St.badArgument 1 s
  else if argN args 2 < 1 ∨ 255 < argN args 2 then cmdRefuse St.badArgument 2 s
  else if argN args 3 < 2 ∨ 1000 < argN args 3 then cmdRefuse St.badArgument 3 s
  else cmdOk (s.modMem fun m => { m with burstLimit := argN args 1, waitLimit := argN args 2, wdUs := argN args 3 })

/-! ### Heat (R213 to R215) -/

/-- MEM_THERMAL (R213). -/
def memThermal (args : List Word) (s : State) : Res :=
  if 1 < argN args 1 then cmdRefuse St.badArgument 1 s
  else if argN args 2 < 75 ∨ 95 < argN args 2 then cmdRefuse St.badArgument 2 s
  else cmdOk (s.modMem fun m => { m with forerunner := argN args 1 == 1, thr := argN args 2 })

/-- The temperatures above which a source enters levels 1, 2 and 3 (R213, R214). (DEDUCED, log entry 83.) -/
def thermalLimits (s : State) (i : Nat) : List Nat :=
  if i < 8 then (if s.mem.forerunner then [85, 95, 100] else [s.mem.thr, s.mem.thr + 5, 100]) else [95, 100]

/-- The level at a temperature: a level once entered is left 2 °C below its limit (R214). (DEDUCED, log entry 83.) -/
def levelAt (limits : List Nat) (cur temp : Nat) : Nat :=
  ((List.range limits.length).filter fun k =>
    decide (limits.getD k 0 < temp) || (decide (k < cur) && decide (limits.getD k 0 < temp + 2))).length

/-- A stack above 95 °C ends the cool time that a restart after a trip needs (R430). (DESIGN CHOICE, log entry 134.) -/
def coolEnds (i temp : Nat) (s : State) : State :=
  if i < 8 ∧ 95 < temp then s.modPower fun p => { p with coolSince := none } else s

/-- STACK_THERMAL_READ (R213 to R215, R430). (DEDUCED, log entry 83.) -/
def thermalRead (i temp : Nat) (s : State) : State :=
  let cur := (theSrc s i).level
  let new := levelAt (thermalLimits s i) cur temp
  let s := coolEnds i temp (modSrc i (fun x => { x with temp := sat 255 temp, level := new }) s)
  if new = cur then s
  else
    let kind := if i < 8 then 0 else 1
    let idx := if i < 8 then i else i - 8
    let s := capture 17 (packN [(16, kind), (8, idx), (0, new)]) s
    if new = 0 then s
    else bump (if i < 8 then ctr 0x0D i (3 + new) else ctr 0x0E (idx / 12) (2 + new)) s

/-- GRAN_THERMAL_CRIT: a stack is at level 3 (R213). (DEDUCED, log entry 83.) -/
def granThermalCrit (s : State) : Bool := (List.range 8).any fun i => (theSrc s i).level == 3

/-! ### Service (R217 to R220) -/

/-- A move touches a tier. -/
def moveTouches (s : State) (tier : Nat) : Bool :=
  s.mem.moves.any fun m => tierOf m.src == some tier || tierOf m.dst == some tier

/-- MEM_HOLD (R220): a spill region that a CORE_SPILL has asked for is an allocation of the pool, too.
(DESIGN CHOICE, log entry 82.) -/
def memHold (args : List Word) (s : State) : Res :=
  match argN args 1 with
  | 0 =>
    if s.mem.granary = .held then cmdOk s
    else if s.mem.granary ≠ .inService ∨ (s.link.ports.any fun e => e.2.configured && e.2.enabled) ∨
        (s.mem.windows.any fun e => e.2.valid) ∨ spillWanted s ≠ 0 ∨ (s.coll.any fun e => ctxUsed e.2) then
      cmdRefuse St.busy 0 s
    else cmdOk (s.modMem fun m => { m with granary := .held })
  | 1 =>
    if s.mem.barnStore = .held then cmdOk s
    else if s.mem.barnStore ≠ .inService ∨ moveTouches s 1 then cmdRefuse St.busy 0 s
    else cmdOk (s.modMem fun m => { m with barnStore := .held })
  | 2 => cmdRefuse St.busy 0 s
  | _ => cmdRefuse St.badArgument 1 s

/-- The state of a tier that can be held. -/
def tierState (s : State) (t : Nat) : TierState := if t = 0 then s.mem.granary else s.mem.barnStore

/-- Sets the state of a tier that can be held. -/
def setTier (t : Nat) (x : TierState) (s : State) : State :=
  s.modMem fun m => if t = 0 then { m with granary := x } else { m with barnStore := x }

/-- MEM_RELEASE: a held tier begins to retrain (R220). (DESIGN CHOICE, log entry 82.) -/
def memRelease (c : CmdRef) (args : List Word) (s : State) : Res :=
  let t := argN args 1
  if 2 ≤ t then cmdRefuse St.badArgument 1 s
  else if tierState s t = .releasing ∨ s.mem.marginCmd.isSome then cmdRefuse St.busy 0 s
  else if tierState s t ≠ .held then cmdRefuse St.badArgument 1 s
  else cmdDetach c ((setTier t .releasing s).modMem fun m => { m with releaseCmds := m.releaseCmds ++ [(t, c)] })

/-- MEM_RELEASE_DONE (R220). -/
def releaseDone (t : Nat) (s : State) : State :=
  match s.mem.releaseCmds.find? fun e => e.1 == t with
  | some e =>
    endWith e.2 St.ok 0 ((setTier t .inService s).modMem fun m => { m with releaseCmds := m.releaseCmds.filter fun x => x.1 != t })
  | none => s

/-- MEM_MARGIN: margining of channels of held tiers begins (R220). -/
def memMargin (c : CmdRef) (args : List Word) (s : State) : Res :=
  let first := argN args 1
  let n := argN args 2
  if 280 ≤ first then cmdRefuse St.badArgument 1 s
  else if n < 1 ∨ 280 < first + n then cmdRefuse St.badArgument 2 s
  else if (first < 256 ∧ s.mem.granary ≠ .held) ∨ (256 < first + n ∧ s.mem.barnStore ≠ .held) ∨ s.mem.marginCmd.isSome then
    cmdRefuse St.busy 0 s
  else cmdDetach c (s.modMem fun m =>
    { m with marginCmd := some c, marginAddr := arg64 args 3, marginFirst := first, marginCount := n })

/-- A byte lane passes (R221). -/
def lanePasses (w : Word) : Bool := decide (12 ≤ fld w 31 24 + fld w 23 16) && decide (8 ≤ fld w 15 8 + fld w 7 0)

/-- The margin records of a range of channels: one for each byte lane, and every channel has 64 bits (R188, R216, R221). -/
def marginRecords (n : Nat) : Nat := 8 * n

/-- MEM_MARGIN_DONE: the records of every byte lane of the range are there (R220, R221). (PRESUMED, log entry 81.) -/
def marginDone (records : List Word) (s : State) : State :=
  match s.mem.marginCmd.filter fun _ => decide (records.length = marginRecords s.mem.marginCount) with
  | some c =>
    let s := hostWrite s.mem.marginAddr (wordsLe records) (s.modMem fun m => { m with marginCmd := none })
    endWith c (if records.all lanePasses then St.ok else St.testFailed) 0 s
  | none => s

/-- A range touches a Silo port. -/
def inSilo (c a n : Nat) : Bool := decide (0 < n) && decide (a < siloBase (c + 1)) && decide (siloBase c < a + n)

/-- Where a move touches a Silo port. -/
def siloSide (c : Nat) (m : Move) : Nat := Nat.max (siloBase c) (if inSilo c m.src m.len then m.src else m.dst)

/-- Changes a Silo port. -/
def modSilo (c : Nat) (f : Silo → Silo) (s : State) : State := s.modMem fun m => { m with silos := tmod m.silos {} c f }

/-- MEM_SILO_DETACH (R218). -/
def siloDetach (args : List Word) (s : State) : Res :=
  let c := argN args 1
  if 2 ≤ c then cmdRefuse St.badArgument 1 s
  else if s.mem.moves.any fun m => inSilo c m.src m.len || inSilo c m.dst m.len then cmdRefuse St.busy 0 s
  else cmdOk (modSilo c (fun x => { x with up := false, detached := true }) s)

/-- A Silo link goes down: its moves fail as at an uncorrectable error (R218, R219). -/
def siloDown (c : Nat) (s : State) : State :=
  let ms := s.mem.moves.filter fun m => inSilo c m.src m.len || inSilo c m.dst m.len
  ms.foldl (fun s m => failMove m (siloSide c m) s) (modSilo c (fun x => { x with up := false }) s)

/-- SILO_LINK_FAIL (R218). -/
def siloFail (c : Nat) (s : State) : State :=
  if (theSilo s c).up then report (faultAt 0x0802 2 c c 0) (bump (ctr 0x0E c 7) (siloDown c s)) else s

/-- The reset of a Silo port has been held for 100 ms since the port's half became ready, on the Hearth's own time base (R424).
(DESIGN CHOICE, log entry 162.) -/
def perstOver (s : State) (c : Nat) : Bool :=
  halfReady s c && decide ((if c = 0 then s.power.readyAt0 else s.power.readyAt1) + 100000000000 ≤ s.time.hearthPs)

/-- CXn_PERST_N of a port is low: until 100 ms after its half is ready, and while it is detached (R218, R424).
(DESIGN CHOICE, log entry 162.) -/
def perstLow (s : State) (c : Nat) : Bool := !perstOver s c || (theSilo s c).detached

/-- SILO_LINK_UP: a device is attached and trained, which can be once the port's reset has been released (R217, R218, R424).
(DESIGN CHOICE, log entry 162.) -/
def siloUp (c capacity : Nat) (s : State) : State :=
  if perstOver s c ∧ capacity ≤ 1024 * gib then
    modSilo c (fun x => { x with up := true, detached := false, capacity := capacity }) s
  else s

/-- The status word of a memory source (R222). (PRESUMED, log entry 81.) -/
def memWord (s : State) (i : Nat) : Nat :=
  let x := theSrc s i
  let kind := if i < 8 then 0 else if i < 32 then 1 else 2
  let heldNow := if i < 8 then s.mem.granary != .inService else if i < 32 then s.mem.barnStore != .inService else !(theSilo s (i - 32)).up
  packN [(56, x.temp), (55, bit (decide (i < 8) && s.mem.forerunner)), (53, x.level), (52, bit heldNow), (48, kind),
    (40, if i < 8 then i else if i < 32 then i - 8 else i - 32), (16, x.wdFires)]

/-- MEM_STATUS_READ (R222). (PRESUMED, log entry 81.) -/
def memStatusRead (args : List Word) (s : State) : Res :=
  cmdOk (hostWrite (arg64 args 1) ((List.range 34).flatMap fun i => leBytes 8 (memWord s i)) s)

/-! ### Bring-up and patrol (R219, R376) -/

/-- GRANARY_IN_SERVICE: training and zeroing of the Granary or the Barn store ends (R219). (DESIGN CHOICE, log entry 88.) -/
def tierUp (bs : Bool) (failed : Option (Nat × Nat)) (s : State) : State :=
  let old := s
  if !halfReady s 0 ∨ !halfReady s 1 then s
  else if bs then
    if s.mem.barnStore = .training then
      setTier 1 (if failed.isSome then .failed else .inService) (daZero bsBase 0x018000000000 s)
    else s
  else if s.mem.granary = .training then
    match failed with
    | some (st, c) =>
      noteStatus old ((setTier 0 .failed s).modHearth fun h =>
        { h with selftest := pack [(24, 2), (22 + st / 4, 1), (8, st), (0, c)] })
    | none =>
      noteStatus old ((setTier 0 .inService (daZero 0 granarySize s)).modHearth fun h =>
        { h with selftest := if fld h.selftest 31 24 = 255 then 0 else h.selftest })
  else s

/-- A correction at a location is counted; more than 16 within one hour are reported (R376). (DESIGN CHOICE, log entry 85.) -/
def corrected (da : Nat) (s : State) : State :=
  let (h, b, i) := memPlace s da
  let key := da / 64
  let recent := (tget s.mem.ceCounts [] key).filter fun t => decide (s.time.now < t + secU 3600)
  let s := s.modMem fun m => { m with ceCounts := tset m.ceCounts [] key (s.time.now :: recent) }
  if 16 < recent.length + 1 then
    let s := if tierOf da = some 0 then bump (ctr 0x0D b 2) s else s
    report { faultAt 0x0F02 0 h b i with address := da } s
  else s

/-- A read of the Granary or the Barn store has corrected a location: it is counted for the stack or the half, and for the patrol
where that read it (R376). (DESIGN CHOICE, log entry 85.) -/
def memCorrected (patrol : Bool) (da : Nat) (s : State) : State :=
  let (h, b, _) := memPlace s da
  if tierReady s da then
    match tierOf da with
    | some 0 =>
      let t := bump (ctr 0x0D b 0) s
      corrected da (if patrol then bump (ctr 0x0D b 9) t else t)
    | some 1 => corrected da (bump (ctr 0x0E h 0) s)
    | _ => s
  else s

/-- PATROL_SCRUB: a read of the patrol, or an ordinary read of a store, corrects what it finds; the store and block count it, and it
has no other effect (R376). (DESIGN CHOICE, log entry 85.) -/
def patrolScrub (site : EccSite) (fixed : Bool) (s : State) : State :=
  if !fixed then s
  else
    match site with
    | .patrol da => memCorrected true da s
    | .read da => memCorrected false da s
    | .loft b => bump (ctr 0x01 b.val 21) s
    | .retryBuf l => bump (ctr 0x08 (barnOf l.val) 11) s
    | .sram => bump (ctr 0x14 0 5) s

/-! ### Meanings -/

/-- MEM_WINDOW_WRITE. -/
def execMemWindowWrite (h : CmdHdr) (args : List Word) (s : State) : Host.Outcome State Fault Refusal :=
  runMailbox ⟨0x0801, 1, true⟩ (fun _ => 5) (fun _ s => windowWrite args s) h args s
/-- MEM_WINDOW_READ. -/
def execMemWindowRead (h : CmdHdr) (args : List Word) (s : State) : Host.Outcome State Fault Refusal :=
  runMailbox ⟨0x0802, 3, true⟩ (fun _ => 4) (fun _ s => windowRead args s) h args s
/-- MEM_POOL. -/
def execMemPool (h : CmdHdr) (args : List Word) (s : State) : Host.Outcome State Fault Refusal :=
  runMailbox ⟨0x0803, 1, true⟩ (fun _ => 1) (fun _ s => memPool args s) h args s
/-- MEM_LOFT. -/
def execMemLoft (h : CmdHdr) (args : List Word) (s : State) : Host.Outcome State Fault Refusal :=
  runMailbox ⟨0x0804, 1, true⟩ (fun _ => 2) (fun _ s => memLoft args s) h args s
/-- MEM_SCRATCH. -/
def execMemScratch (h : CmdHdr) (args : List Word) (s : State) : Host.Outcome State Fault Refusal :=
  runMailbox ⟨0x0805, 1, true⟩ (fun _ => 2) (fun _ s => memScratch args s) h args s
/-- MEM_HINT_WRITE. -/
def execMemHintWrite (h : CmdHdr) (args : List Word) (s : State) : Host.Outcome State Fault Refusal :=
  runMailbox ⟨0x0806, 1, true⟩ (fun _ => 5) (fun _ s => hintWrite args s) h args s
/-- MEM_BAR2_MAP. -/
def execMemBar2Map (h : CmdHdr) (args : List Word) (s : State) : Host.Outcome State Fault Refusal :=
  runMailbox ⟨0x0807, 1, true⟩ (fun a => if argN a 1 = 0 then 3 else 1) (fun _ s => bar2Map args s) h args s
/-- MEM_MOVE. -/
def execMemMove (h : CmdHdr) (args : List Word) (s : State) : Host.Outcome State Fault Refusal :=
  runMailbox ⟨0x0808, 2, true⟩ (fun _ => 9) (fun c s => memMove c args s) h args s
/-- MEM_ARB_CONFIG. -/
def execMemArbConfig (h : CmdHdr) (args : List Word) (s : State) : Host.Outcome State Fault Refusal :=
  runMailbox ⟨0x0809, 1, true⟩ (fun _ => 3) (fun _ s => arbConfig args s) h args s
/-- MEM_THERMAL. -/
def execMemThermal (h : CmdHdr) (args : List Word) (s : State) : Host.Outcome State Fault Refusal :=
  runMailbox ⟨0x080A, 1, true⟩ (fun _ => 2) (fun _ s => memThermal args s) h args s
/-- MEM_HOLD. -/
def execMemHold (h : CmdHdr) (args : List Word) (s : State) : Host.Outcome State Fault Refusal :=
  runMailbox ⟨0x080B, 1, true⟩ (fun _ => 1) (fun _ s => memHold args s) h args s
/-- MEM_RELEASE. -/
def execMemRelease (h : CmdHdr) (args : List Word) (s : State) : Host.Outcome State Fault Refusal :=
  runMailbox ⟨0x080C, 1, true⟩ (fun _ => 1) (fun c s => memRelease c args s) h args s
/-- MEM_MARGIN. -/
def execMemMargin (h : CmdHdr) (args : List Word) (s : State) : Host.Outcome State Fault Refusal :=
  runMailbox ⟨0x080D, 3, true⟩ (fun _ => 4) (fun c s => memMargin c args s) h args s
/-- MEM_SILO_DETACH. -/
def execMemSiloDetach (h : CmdHdr) (args : List Word) (s : State) : Host.Outcome State Fault Refusal :=
  runMailbox ⟨0x080E, 1, true⟩ (fun _ => 1) (fun _ s => siloDetach args s) h args s
/-- MEM_STATUS_READ. -/
def execMemStatusRead (h : CmdHdr) (args : List Word) (s : State) : Host.Outcome State Fault Refusal :=
  runMailbox ⟨0x080F, 3, true⟩ (fun _ => 2) (fun _ s => memStatusRead args s) h args s
/-- BAR2_WRITE; an access that leaves the BAR is no command. -/
def execBar2Write (offset : Fin 268435456) (bytes : List Byte) (s : State) : Host.Outcome State Fault Refusal :=
  if offset.val + bytes.length ≤ bar2Size then .next (bar2Write offset bytes s) else .refused .illFormed
/-- BAR2_READ; an access that leaves the BAR is no command. -/
def execBar2Read (offset : Fin 268435456) (len : Nat) (ue : Bool) (s : State) : Host.Outcome State Fault Refusal :=
  if offset.val + len ≤ bar2Size then .next (bar2Read offset len ue s) else .refused .illFormed
/-- MEM_MOVE_DONE. -/
def execMemMoveDone (move : Fin 16) (ue : Option Nat) (s : State) : Host.Outcome State Fault Refusal :=
  .next (moveDone move ue s)
/-- BURST_BOUNDARY. -/
def execBurstBoundary (chan : Fin 282) (requests : BitVec 11) (s : State) : Host.Outcome State Fault Refusal :=
  .next (burstBoundary chan requests s)
/-- CHAN_WATCHDOG. -/
def execChanWatchdog (chan : Fin 282) (work : Watched) (s : State) : Host.Outcome State Fault Refusal :=
  .next (chanWatchdog chan work.work work.retryFails s)
/-- STACK_THERMAL_READ. -/
def execStackThermalRead (source : Fin 32) (temp : Nat) (s : State) : Host.Outcome State Fault Refusal :=
  .next (thermalRead source temp s)
/-- PATROL_SCRUB. -/
def execPatrolScrub (site : EccSite) (corrected : Bool) (s : State) : Host.Outcome State Fault Refusal :=
  .next (patrolScrub site corrected s)
/-- GRANARY_IN_SERVICE. -/
def execGranaryInService (barnStore : Bool) (failed : Option (Fin 8 × Fin 32)) (s : State) :
    Host.Outcome State Fault Refusal := .next (tierUp barnStore (failed.map fun e => (e.1.val, e.2.val)) s)
/-- SILO_LINK_FAIL. -/
def execSiloLinkFail (port : Fin 2) (s : State) : Host.Outcome State Fault Refusal := .next (siloFail port s)
/-- SILO_LINK_UP. -/
def execSiloLinkUp (port : Fin 2) (capacity : Nat) (s : State) : Host.Outcome State Fault Refusal :=
  .next (siloUp port capacity s)
/-- MEM_MARGIN_DONE. -/
def execMemMarginDone (records : List Word) (s : State) : Host.Outcome State Fault Refusal := .next (marginDone records s)
/-- MEM_RELEASE_DONE. -/
def execMemReleaseDone (tier : Fin 3) (s : State) : Host.Outcome State Fault Refusal := .next (releaseDone tier s)

end Sys2Proof.Machine
end

