-- ==== Sys2Proof/Machine/LaneBase.lean ====
section
/-! DEFINITION. Lanes, their lasers, slices and records: states, commands that end, what is read of them
(R8, R227 to R245). -/

namespace Sys2Proof.Machine

/-! ### Lane states (R227, R243) -/

/-- Sets the state of a lane; a change is captured, and the framed lanes of its fibre tell the far end (R262, R310). WD_CAUSE and
BANK_CAUSE are 0 outside their states. (DEDUCED, log entry 151.) -/
def setLane (l : Nat) (x : LaneState) (s : State) : State :=
  if laneState s l = x then s
  else reportFibre l (capture 9 (laneCode x * 1024 + l) (modLaneOpt l (fun o =>
    { o with state := x, wdCause := if x = .withdrawn then o.wdCause else 0, bankCause := if x = .banked then o.bankCause else 0 }) s))

/-- A lane in service of a port. -/
def servingLanes (s : State) (p : Nat) : List Nat := spraySet s p

/-- A port has a lane IN_SERVICE or WITHDRAWN, which keeps its link up (R227). -/
def carried (s : State) (p : Nat) : Bool :=
  (portLanes s p).any fun l => laneState s l == .inService || laneState s l == .withdrawn

/-- A port of two or more lanes whose traffic is held (R232). -/
def wideHold (s : State) (p : Nat) : Bool :=
  (thePort s p).up && decide (2 ≤ (thePort s p).width) && decide (servingLanes s p = []) && carried s p

/-- The laser that feeds a lane: the working laser of R8, or a spare in its place (R238). -/
def laserOf (s : State) (l : Nat) : Nat :=
  if (laneOpt s l).spare = 0 then 8 * (l / 128) + l % 8 else (laneOpt s l).spare - 1

/-- Nothing is being sent or waits to be sent on a lane, a control message that it carries among them, and every flit sent on it is
acknowledged (R264). -/
def laneIdle (s : State) (l : Nat) : Bool :=
  (laneLink s l).retry == [] && (laneLink s l).tx.isNone && (laneLink s l).next.isNone && decide (outstanding (laneLink s l) = 0) &&
    ((laneLink s l).ctlQ == [] || carrierOf s l != some l)

/-- A counter of the LINK block (R399). -/
def bumpLink (l i : Nat) (s : State) : State := bump (ctr 8 (barnOf l) i) s

/-- Asks the far end to withdraw a lane; its MTAG is a free value. A v0 partner knows no SWAP (R264).
(DESIGN CHOICE, log entry 92.) -/
def askWithdraw (l : Nat) (kind : WdKind) (s : State) : State :=
  let v0 := match portOfLane s l with
    | some p => (thePort s p).v0
    | none => false
  let code := match kind with
    | .cal => 1
    | .swap => if v0 then 3 else 2
    | .force => 3
  let tag := freeBelow s 65536
  sendControl l 1 code tag 0 (modLaneLink l (fun k => { k with asked := some kind, askTag := tag }) s.tookFree)

/-! ### What ends with a lane's work -/

/-- The slice in progress on a lane, with its barn. -/
def sliceOn (s : State) (l : Nat) : Option (Nat × Slice) := s.optics.slices.find? fun e => e.2.lane == l && !e.2.waits

/-- The slice of a lane is over: 0 restored, 1 banked, 2 skipped; a CAL_LANE reports which (R245).
(DESIGN CHOICE, log entry 93.) -/
def dropSlice (l outcome : Nat) (s : State) : State :=
  match s.optics.slices.find? fun e => e.2.lane == l with
  | none => s
  | some (_, x) =>
    let s := s.modOptics fun o => { o with slices := o.slices.filter fun e => e.2.lane != l }
    x.cmds.foldl (fun s c => endDetached c { status := St.ok, detail := 0, result := [w32 outcome] } s) s

/-- A command that withdrew a lane ends OK. (DESIGN CHOICE, log entry 23.) -/
def endCmd (c : Option CmdRef) (s : State) : State :=
  match c with
  | some c => endWith c St.ok 0 s
  | none => s

/-- Commands end together with a status and DETAIL. -/
def endCmds (cs : List CmdRef) (status detail : Nat) (s : State) : State := cs.foldl (fun s c => endWith c status detail s) s

/-- LANE_BANK and LANE_RESET of a lane end. (DESIGN CHOICE, log entry 23.) -/
def endLaneCmds (l : Nat) (s : State) : State :=
  let o := laneOpt s l
  endCmd o.bankCmd (endCmd o.resetCmd (modLaneOpt l (fun o => { o with bankCmd := none, resetCmd := none }) s))

/-- A laser. -/
def theLaser (s : State) (i : Nat) : Laser := tget s.optics.lasers {} i

/-- Changes a laser. -/
def modLaser (i : Nat) (f : Laser → Laser) (s : State) : State :=
  s.modOptics fun o => { o with lasers := tmod o.lasers {} i f }

/-- Sets the state of a laser; a change is captured and stamped (R236, R244). -/
def setLaser (i st : Nat) (s : State) : State :=
  if (theLaser s i).state = st then s
  else capture 10 (st * 128 + i) (modLaser i (fun x => { x with state := st, sinceS := secOf s.time.now % 65536 }) s)

/-- Group and channel of a laser: of a working laser by its number, of a spare as it is tuned (R8, R244). -/
def laserGroup (s : State) (i : Nat) : Nat := if i < 64 then i / 8 else (theLaser s i).group
def laserChannel (s : State) (i : Nat) : Nat := if i < 64 then i % 8 else (theLaser s i).channel

/-- The half of a laser. -/
def laserHalf (i : Nat) : Nat := if i < 64 then i / 32 else (i - 64) / 8

/-- The sixteen lanes that a laser feeds (R8). -/
def laserLanes (s : State) (i : Nat) : List Nat :=
  (List.range 16).map fun f => 8 * (16 * laserGroup s i + f) + laserChannel s i

/-- Key of a user calibration record (R395): KIND and index. -/
def calKey (kind index : Nat) : Nat := kind * 4096 + index

/-- The value of a user calibration record; SPARE_MAP is kept less 127, its value while no laser is replaced. -/
def calGet (s : State) (kind index : Nat) : Int :=
  tget s.sec.userCal 0 (calKey kind index) + (if kind = 0 then 127 else 0)

/-- Writes a user calibration record. -/
def calSet (kind index : Nat) (v : Int) (s : State) : State :=
  s.modSec fun c => { c with userCal := tset c.userCal 0 (calKey kind index) (v - (if kind = 0 then 127 else 0)) }

/-- The transmit swing of a lane in units of 0.5 %: the factory value and the user offset in force (R395).
(DESIGN CHOICE, log entry 163.) -/
def txSwing (s : State) (l : Nat) : Int := Config.factoryCal 2 l + (laneOpt s l).swing

/-- A lane is trained or calibrated: the user offset of its swing comes into force (R395). (DESIGN CHOICE, log entry 163.) -/
def setSwing (l : Nat) (s : State) : State := modLaneOpt l (fun o => { o with swing := calGet s 2 l }) s

/-! ### A fresh start -/

/-- What a lane's link forgets when it starts afresh (R257, R261, R272): sequence numbers, retry buffer, what it was sending,
the marker cadence. -/
def freshLink (k : LaneLink) : LaneLink :=
  { k with txSeq := 0, txAcked := 4095, retry := [], replaySeq := 4096, replays := 0, rxSeq := 4095, nak := false,
           discarding := false, markerCount := 0, uncorrAt := [], tx := none, next := none, crRot := 0, slots := 0, rxPos := 0,
           lastPair := 0, shortFails := 0, asked := none, answered := none, rxDone := true, txDone := true, stopped := false }

end Sys2Proof.Machine
end

