-- ==== Sys2Proof/Machine/Circuits.lean ====
section
/-! DEFINITION. Flue circuits as every command meets them: states, notices, the budget, the end of a setup, switch-over
(R278 to R290). -/

namespace Sys2Proof.Machine

/-- A circuit. -/
def theCirc (s : State) (c : Nat) : Circuit := tget s.flue {} c

/-- Changes a circuit. -/
def modCirc (c : Nat) (f : Circuit → Circuit) (s : State) : State := s.modFlue fun t => tmod t {} c f

/-- The two lanes of a circuit (R278). -/
def circLaneA (x : Circuit) : Nat := 8 * x.fibreA + x.k
def circLaneB (x : Circuit) : Nat := 8 * x.fibreB + x.k

/-- 600 s, the retune interval (R287, R288). -/
def retuneGap : Nat := secU 600

/-- The halves that hold rings of a circuit are ready, so that a retune may run (R292). (DESIGN CHOICE, log entry 102.) -/
def circReady (s : State) (x : Circuit) : Bool :=
  halfReady s (halfOf (circLaneA x)) && halfReady s (halfOf (circLaneB x))

/-- The state of a circuit at this instant: a re-tune runs from 600 s after READY, a retune from its instant T_n, each
until its row reports the outcome (R284, R287, R288). (DESIGN CHOICE, log entry 102.) -/
def circState (s : State) (c : Nat) : Nat :=
  let x := theCirc s c
  if x.state = 2 ∧ x.since + retuneGap ≤ s.time.now ∧ circReady s x then 1
  else if x.state = 3 ∧ x.nextAt ≤ s.time.now ∧ circReady s x then 4
  else x.state

/-- Sets the state of a circuit; a change is captured (R310). -/
def circTo (c st : Nat) (s : State) : State :=
  if (theCirc s c).state = st then s else capture 18 (128 + c) (modCirc c (fun x => { x with state := st }) s)

/-- A counter of the FLUE block (R399). -/
def bumpFlue (i : Nat) (s : State) : State := bump (ctr 0x11 0 i) s

/-! ### Notices (R290) -/

/-- The header of a Flue notice to one end. -/
def flueHeader (s : State) (c reason fibre dst : Nat) : Header :=
  let x := theCirc s c
  ownHeader s Kind.notice 7 false x.partition dst 1 0 (pack [(8, 0x11), (0, reason)]) (w32 c)
    (pack [(29, x.k), (22, fibre), (0, if reason = 1 then 1000 else 0)]) 0

/-- The payload of a Flue notice about an instant. -/
def fluePayload (x : Circuit) (t : Nat) : List Byte :=
  wordsBe [w32 (secOf t / 65536), pack [(16, secOf t % 65536)], pack [(2, nsOf t)], w32 x.retunes]

/-- The barn where a notice of a fibre originates: the fibre's own, or its twin while that is in reset.
(DESIGN CHOICE, log entry 104.) -/
def flueBarn (s : State) (fibre : Nat) : Nat :=
  if barnUp s (barnOf (8 * fibre)) then barnOf (8 * fibre) else Nat.xor (barnOf (8 * fibre)) 8

/-- NOTICE FLUE_RETUNE to both ends: 1 RETUNE, 2 FAILED, 3 CLOSED (R290). (DESIGN CHOICE, log entry 104.) -/
def flueNotice (c reason t : Nat) (s : State) : State :=
  let x := theCirc s c
  let s := send (flueBarn s x.fibreA) (flueHeader s c reason x.fibreA x.endA) (fluePayload x t) none s
  send (flueBarn s x.fibreB) (flueHeader s c reason x.fibreB x.endB) (fluePayload x t) none s

/-! ### Reservations and returned lanes (R278, R280, R281) -/

/-- The circuit in setup that has reserved a lane (R281). -/
def reservedBy (s : State) (l : Nat) : Option Nat :=
  (s.flue.find? fun e => e.2.state == 1 && e.2.cmd.isSome && (circLaneA e.2 == l || circLaneB e.2 == l)).map Prod.fst

/-- Every lane of a circuit is FLUE and drained (R281). -/
def circDrained (s : State) (x : Circuit) : Bool :=
  [circLaneA x, circLaneB x].all fun l => laneState s l == .flue && !(laneOpt s l).draining

/-- A lane comes back from a circuit: to training where it was taken from an enabled port, otherwise DOWN (R278). -/
def giveBack (l : Nat) (taken : Bool) (s : State) : State :=
  let s := modLaneLink l (fun k => { freshLink k with trainStep := 0 }) (modLaneOpt l (fun o => { o with draining := false }) s)
  let on := taken && barnUp s (barnOf l) && (match portOfLane s l with
    | some p => (thePort s p).enabled
    | none => false)
  setLane l (if on then .training else .down) s

/-- A circuit becomes FREE and its lanes return (R278, R283); one that it had not yet taken stays as it is. -/
def freeCirc (c : Nat) (s : State) : State :=
  let x := theCirc s c
  let back (l : Nat) (taken : Bool) (s : State) : State := if laneState s l = .flue then giveBack l taken s else s
  let s := back (circLaneB x) x.takenB (back (circLaneA x) x.takenA s)
  (circTo c 0 s).modFlue fun t => tdel t c

/-! ### The budget (R282) -/

/-- The margin of a direction in 0.01 dB. (DESIGN CHOICE, log entry 103.) -/
def flueMargin (pin : Int) (il outLoss : Nat) (sens : Int) : Int :=
  10 * pin - (il : Int) - 10 * (outLoss : Int) - 150 - 10 * sens

/-- A margin in 0.1 dB: one between two units reads as one of them, and one that does not fit into 8 bits is not
stated (R293). Both are free values. (DESIGN CHOICE, log entry 103.) -/
def tenths (m : Int) (s : State) : Int × State :=
  let (v, s) := if m % 10 = 0 then (m / 10, s) else (m / 10 + (freeBelow s 2 : Nat), s.tookFree)
  if -128 ≤ v ∧ v ≤ 127 then (v, s) else ((freeBelow s 256 : Nat) - 128, s.tookFree)

/-- A monitor reading with the user offset of its lane (R395). -/
def pinOf (s : State) (l : Nat) (p : Int) : Int := p + calGet s 3 l

/-- The margins of both directions of a circuit, in 0.01 dB (R282). (DESIGN CHOICE, log entry 103.) -/
def marginAB (s : State) (x : Circuit) (m : FlueMeas) : Int :=
  flueMargin (pinOf s (8 * x.fibreA + x.k) m.pinA) m.ilAB x.outLossB x.rxSens
def marginBA (s : State) (x : Circuit) (m : FlueMeas) : Int :=
  flueMargin (pinOf s (8 * x.fibreB + x.k) m.pinB) m.ilBA x.outLossA x.rxSens

/-- Records the larger loss and the smaller margin of the directions measured (R293). (DESIGN CHOICE, log entry 101.) -/
def recordMeas (c : Nat) (ils : List Nat) (ms : List Int) (s : State) : State :=
  match ms with
  | [] => s
  | m :: rest =>
    let (v, s) := tenths (rest.foldl (fun a b => if b < a then b else a) m) s
    let il := ils.foldl Nat.max 0
    let il' := if il < 2048 then il else freeBelow s 2048
    modCirc c (fun x => { x with ilMax := il', marginMin := v }) (if il < 2048 then s else s.tookFree)

/-- The path of a direction from fibre x to fibre y in a report (R379). (DESIGN CHOICE, log entry 103.) -/
def flueFault (code severity c x ring : Nat) : FaultRep := faultAt code severity (x / 64) c ring

/-- What a tuning without circuit light finds (R281 to R283): the status of its failure with DETAIL and RESULT, and the
reported path. A mesh loss above 6.0 dB is reported. (DESIGN CHOICE, log entry 101.) -/
def tuningFails (c : Nat) (m : FlueMeas) (s : State) : Option Reply × State :=
  let x := theCirc s c
  let mesh (l : Nat) : Option Reply := some { status := St.meshFault, detail := w32 l, result := [] }
  if !(m.lightA && m.lockA) then (mesh (circLaneA x), s)
  else if !(m.lightB && m.lockB) then (mesh (circLaneB x), s)
  else
    let s := recordMeas c [m.ilAB, m.ilBA] [marginAB s x m, marginBA s x m] s
    if 600 < m.ilAB then (mesh (circLaneA x), report (flueFault 0x0B01 2 c x.fibreA (circLaneA x)) s)
    else if 600 < m.ilBA then (mesh (circLaneB x), report (flueFault 0x0B01 2 c x.fibreB (circLaneB x)) s)
    else if marginAB s x m < 50 ∨ marginBA s x m < 50 then
      let (a, s) := tenths (marginAB s x m) s
      let (b, s) := tenths (marginBA s x m) s
      (some { status := St.budgetFail, detail := 0, result := [w32i a, w32i b] }, s)
    else (none, s)

/-! ### Switch-over and the end of a setup (R281, R283, R285, R286) -/

/-- A READY circuit becomes LIVE at this instant. (DESIGN CHOICE, log entry 102.) -/
def switchOver (c : Nat) (s : State) : State :=
  let t := s.time.now
  emit (.light c true) (circTo c 3 (modCirc c (fun x =>
    { x with since := t, nextAt := t + retuneGap, retunes := 0, connectPend := false, noticeAt := none }) s))

/-- A connect trigger: 0 switched over, 1 it waits for the end of a re-tune, 2 no effect (R286).
(DESIGN CHOICE, log entry 102.) -/
def connectCirc (c : Nat) (s : State) : Nat × State :=
  match circState s c with
  | 2 => (0, switchOver c s)
  | 1 => if (theCirc s c).cmd.isSome then (2, s) else (1, modCirc c (fun x => { x with connectPend := true }) s)
  | _ => (2, s)

/-- The setup of a circuit ends refused: the lanes that it holds return and the FLUE_OPEN it belongs to ends (R283). -/
def setupRefused (c : Nat) (r : Reply) (s : State) : State :=
  match (theCirc s c).cmd with
  | some cmd => endDetached cmd r (bumpFlue 5 (freeCirc c s))
  | none => s

/-- The setup of a circuit goes on once both lanes are FLUE and drained: tuning, budget, READY, and the switch-over at once
that was asked for (R281, R283, R285). -/
def finishSetup (c : Nat) (s : State) : State :=
  let x := theCirc s c
  match x.cmd, x.meas with
  | some cmd, some m =>
    if x.state = 1 ∧ circDrained s x then
      match tuningFails c m s with
      | (some r, s) => setupRefused c r s
      | (none, s) =>
        let s := bumpFlue 4 (circTo c 2 (modCirc c (fun x => { x with since := s.time.now, cmd := none, meas := none }) s))
        endDetached cmd { status := St.ok, detail := 0, result := [w32 x.k] } (if x.connectPend then switchOver c s else s)
    else s
  | _, _ => s

/-- A lane given to a circuit has drained: its own rings are parked, and the setup may go on (R281). -/
def drained (l : Nat) (s : State) : State :=
  let s := modLaneLink l freshLink (modLaneOpt l (fun o => { o with draining := false }) s)
  match reservedBy s l with
  | some c => finishSetup c s
  | none => s

/-- A reserved lane leaves its port: it is FLUE, and still drains (R281). -/
def takeReserved (l : Nat) (s : State) : State :=
  setLane l .flue (modLaneOpt l (fun o => { o with draining := true, drainAt := s.time.now }) s)

end Sys2Proof.Machine
end

