-- ==== Sys2Proof/Machine/Lanes.lean ====
section
/-! DEFINITION. What lanes of every family of commands do: slices and swaps that end, joining and leaving the spray set,
rehoming, link down (R227 to R239, R257 to R272). -/

namespace Sys2Proof.Machine

/-- The optical path moves from a laser to a spare: the old laser is retired, the mapping recorded, the lanes follow
(R237, R238). (DESIGN CHOICE, log entry 95.) -/
def movePath (old spare : Nat) (s : State) : State :=
  let g := laserGroup s old
  let k := laserChannel s old
  let lanes := laserLanes s old
  let s := setLaser old 4 (modLaser old (fun x => { x with replacedBy := spare }) s)
  let s := setLaser spare 1 (modLaser spare (fun x => { x with replacedBy := old, group := g, channel := k, fade := 0, readings := [] }) s)
  let s := calSet 1 old 1 (calSet 0 (spare - 64) old s)
  lanes.foldl (fun s l => modLaneOpt l (fun o => { o with spare := spare + 1 }) s) s

/-- A swap is pending or in progress for the Kiln group that serves a barn (R229, R237). -/
def swapServes (s : State) (b : Nat) : Bool := s.optics.swaps.any fun e => laserGroup s e.2.laser == b / 2

/-- The conditions of R229 on a listed slice, its swap aside: it is skipped, or the withdrawal is asked for. -/
def checkSlice (x : Slice) (s : State) : State :=
  let l := x.lane
  if laneState s l ≠ .inService then dropSlice l 2 s
  else
    let alone := match portOfLane s l with
      | some p => decide (2 ≤ (thePort s p).width) && servingLanes s p == [l]
      | none => false
    if alone then dropSlice l 2 (bumpLink l 14 s)
    else askWithdraw l .cal (s.modOptics fun o =>
      { o with slices := o.slices.map fun e => if e.2.lane = l then (e.1, { e.2 with waits := false }) else e })

/-- A barn may begin a slice that waits: no swap is left in its group, and none of its slices is in progress (R229, R230). -/
def sliceMay (s : State) (b : Nat) : Bool := !swapServes s b && !s.optics.slices.any fun e => e.1 == b && !e.2.waits

/-- Slices that waited begin as soon as they may (R229). -/
def wakeSlices (s : State) : State :=
  (s.optics.slices.filter fun e => e.2.waits).foldl (fun s e => if sliceMay s e.1 then checkSlice e.2 s else s) s

/-- A slice of a barn begins, or waits (R229). -/
def beginSlice (b : Nat) (x : Slice) (s : State) : State :=
  if laneState s x.lane = .inService ∧ !sliceMay s b then
    s.modOptics fun o => { o with slices := o.slices ++ [(b, { x with waits := true })] }
  else checkSlice x (s.modOptics fun o => { o with slices := o.slices ++ [(b, { x with waits := true })] })

/-- The slice in progress on a lane ends: 0 restored, 1 banked, 2 skipped. -/
def endSlice (l outcome : Nat) (s : State) : State :=
  if (sliceOn s l).isSome then wakeSlices (dropSlice l outcome s) else s

/-- The slice in progress on a lane is cut short: CAL_SKIP counts (R231). -/
def skipSlice (l : Nat) (s : State) : State := endSlice l 2 (if (sliceOn s l).isSome then bumpLink l 14 s else s)

/-- The started swap that a lane takes part in. -/
def swapOn (s : State) (l : Nat) : Option (Nat × Swap) :=
  s.optics.swaps.find? fun e => e.2.started && e.2.lanesLeft.contains l

/-- A lane that a laser's failure has banked and that takes no part in the swap trains as before, or is DOWN (R227, R239). -/
def relight (l : Nat) (s : State) : State :=
  if laneState s l = .banked ∧ (laneOpt s l).bankCause = 4 ∧ (swapOn s l).isNone then
    setLane l (match portOfLane s l with
      | some p => if (thePort s p).enabled && barnUp s (barnOf l) then .training else .down
      | none => .down) (modLaneLink l (fun k => { k with trainStep := 0 }) s)
  else s

/-- The optical path of a started swap moves to its spare, once (R237, R239). (DESIGN CHOICE, log entry 95.) -/
def startPath (w : Swap) (s : State) : State :=
  if w.spare = 127 ∨ (theLaser s w.laser).state = 4 then s
  else
    let lanes := laserLanes s w.laser
    let s := movePath w.laser w.spare s
    if w.failure then lanes.foldl (fun s l => relight l s) s else s

/-- A started swap with no lane left ends: its command completes (R237). (DESIGN CHOICE, log entry 95.) -/
def settleSwaps (s : State) : State :=
  (s.optics.swaps.filter fun e => e.2.started && e.2.lanesLeft == []).foldl (fun s e =>
    let s := s.modOptics fun o => { o with swaps := o.swaps.filter fun x => x != e }
    wakeSlices (endCmds e.2.cmds St.ok 0 (startPath e.2 s))) s

/-- A lane's part in the started swap of its laser ends. (DESIGN CHOICE, log entry 95.) -/
def leaveSwap (l : Nat) (s : State) : State :=
  settleSwaps (s.modOptics fun o =>
    { o with swaps := o.swaps.map fun e => if e.2.started then (e.1, { e.2 with lanesLeft := e.2.lanesLeft.filter (· != l) }) else e })

/-! ### Link down (R96, R227, R272) -/

/-- Packets in the retry buffer of a lane, with those of an earlier abrupt exit. -/
def keptPkts (k : LaneLink) : List RetryPkt := k.orphans ++ k.retry.filter fun r => r.info.isSome

/-- A lane of a port whose link goes down: what it received in part is dropped, its retry buffer is discarded and counted
(R96, R272), and its work ends. -/
def laneDown (l : Nat) (s : State) : State :=
  let taken := laneState s l = .inService ∧ (reservedBy s l).isSome
  let s := skipSlice l s
  let s := bumpBy (ctr 2 (barnOf l) 2) (keptPkts (laneLink s l)).length (dropAllRx l s)
  let s := endLaneCmds l (modLaneLink l (fun k => { freshLink k with orphans := [], ctlQ := [], trainStep := 0 }) s)
  let s := leaveSwap l (if laneState s l = .withdrawn ∨ laneState s l = .inService then
      setLane l (if taken then .flue else .training) s
    else s)
  if taken ∨ (laneOpt s l).draining then drained l s else s

/-- A link that is down: what V0, RATE, FAR_ID and RTT of LINK_STATUS_READ show of it is open (R273).
(DESIGN CHOICE, log entry 100.) -/
def unlinked (p : Nat) (s : State) : State :=
  let a := s.tookFree
  let b := a.tookFree
  let c := b.tookFree
  modPort p (fun x => { x with
    up := false, v0 := freeBelow s 2 == 1, rate := freeBelow a 3, farId := freeBelow b (2 ^ 24), rtt := freeBelow c 1024 })
    c.tookFree

/-- The link of a port goes down: credit, retry buffers and queued packets are discarded, no flag is left (R96, R128,
R227, R272). -/
def linkDown (p : Nat) (s : State) : State :=
  if (thePort s p).up then
    let s := if wideHold s p then capturePort 5 p s else s
    let s := unlinked p s
    let s := (portLanes s p).foldl (fun s l => laneDown l s) s
    let off (t : Tab Nat) : Tab Nat := t.filter fun e => e.1 / 8 != p
    let s := bumpBy (ctr 2 (barnOf p) 2) (tget s.link.resend [] p).length s
    let s := s.modLink fun k =>
      { k with crLimit := off k.crLimit, cellsSent := off k.cellsSent, ownLimit := off k.ownLimit, cellsIn := off k.cellsIn,
               resend := tset k.resend [] p [], timeQ := tset k.timeQ [] p [] }
    dropQueued p (latEnd p 1 (latEnd p 2 (latEnd p 3 (capturePort 0 p s))))
  else s

/-! ### Leaving service (R232, R259, R265) -/

/-- The packets that a lane was sending or was to send next are selected afresh: the credit of one that had begun is given back.
A selection's debit stands, and the new selection debits again (R121). (DESIGN CHOICE, log entry 97.) -/
def untx (l : Nat) (s : State) : State :=
  match portOfLane s l with
  | none => s
  | some p =>
    let k := laneLink s l
    let s := modLaneLink l (fun k => { k with tx := none, next := none, retry := k.retry.filter fun r => r.kind != .partly }) s
    match k.tx.bind fun t => storedPkt s (barnOf p) t.pid with
    | some x => s.modLink fun k => { k with cellsSent := tmod k.cellsSent 0 (clsKey p x.info.hdr.tc) (· - x.info.hdr.cells) }
    | none => s

/-- The control messages that a lane had sent and that are not acknowledged wait again. (DESIGN CHOICE, log entry 98.) -/
def requeueCtl (l : Nat) (rs : List RetryPkt) (s : State) : State :=
  (rs.flatMap fun r => if r.kind = .control then r.flits.flatMap ctlOf else []).foldl (fun s m =>
    modLaneLink (l / 8 * 8 + m.k) (fun k => { k with ctlQ := k.ctlQ ++ [m] }) s) s

/-- REHOME_REQ of a lane, on another lane in service of its port; its MTAG is a free value (R265).
(DESIGN CHOICE, log entry 97.) -/
def askRehome (l : Nat) (s : State) : State :=
  let tag := freeBelow s 65536
  sendControl l 4 0 tag 0 (modLaneLink l (fun k => { k with rehomeTag := tag }) s.tookFree)

/-- The cause that suspends the bound of a port whose last lane in service has been withdrawn: KILN_SWAP where a laser swap
withdrew a lane, CALIBRATION otherwise, which on a wide port only an abrupt exit beside it can bring about (R128, R232).
(DESIGN CHOICE, log entry 92.) -/
def emptyCause (s : State) (p : Nat) : Nat :=
  if (portLanes s p).any fun l => laneState s l == .withdrawn && ((laneOpt s l).wdCause == 2 || (laneOpt s l).wdCause == 4) then 2
  else 1

/-- A port is left without a lane in service beside WITHDRAWN ones: LAT_SUSPENDED by what withdrew them; a port of two or more
lanes counts SPRAY_EMPTY_HOLD, and the hold begins (R128, R232). (DESIGN CHOICE, log entry 92.) -/
def noteEmpty (p : Nat) (began : Bool) (s : State) : State :=
  if servingLanes s p = [] ∧ carried s p then
    let s := latBegin p (emptyCause s p) s
    if began ∧ 2 ≤ (thePort s p).width then capturePort 4 p (bumpEg (barnOf p) 7 s) else s
  else s

/-- A lane has left service abruptly: where its port keeps a lane, sending and acceptance stop and its packets are
rehomed, otherwise the link goes down (R227, R232, R265). (DESIGN CHOICE, log entry 97.) -/
def leaveAbrupt (l : Nat) (served : Bool) (s : State) : State :=
  match portOfLane s l with
  | none => s
  | some p =>
    if carried s p then
      let s := untx l (dropRx l s)
      let rs := (laneLink s l).retry
      let s := modLaneLink l (fun k =>
        { k with retry := [], txAcked := (k.txSeq + 4095) % 4096, orphans := keptPkts k, stopped := true, asked := none,
                 answered := none }) s
      let s := noteEmpty p served (requeueCtl l rs s)
      flushPort p (askRehome l (bumpLink l 9 s))
    else linkDown p s

/-- A lane given to a circuit that cannot drain gives up what it was sending to the other lanes of its port.
(DESIGN CHOICE, log entry 101.) -/
def drainLost (l : Nat) (s : State) : State := if (laneOpt s l).draining then drained l (leaveAbrupt l false s) else s

/-- A reserved lane that leaves service before its withdrawal is granted is taken by its circuit at once.
(DESIGN CHOICE, log entry 101.) -/
def takeAbrupt (l : Nat) (s : State) : State :=
  drained l (leaveAbrupt l true (leaveSwap l (endLaneCmds l (skipSlice l (setLane l .flue s)))))

/-- A lane of a port leaves service abruptly and retrains: shortly while the port's link is up, otherwise fully
(R227, R231, R259, R269). (DESIGN CHOICE, log entry 97.) -/
def abruptExit (l : Nat) (s : State) : State :=
  let was := laneState s l
  if was = .flue then drainLost l s
  else if was = .inService ∧ (reservedBy s l).isSome then takeAbrupt l s
  else
    let s := skipSlice l (setLane l .training s)
    let s := modLaneLink l (fun k => { k with trainStep := 3 }) s
    leaveSwap l (leaveAbrupt l (was == .inService) s)

/-- A lane is banked with a cause: 1 WRONG_LOCK, 2 LOCK_LOST, 3 SELFTEST, 4 LASER, 5 COMMAND (R243). Its slice ends and
its port may lose its link. -/
def bankLane (l cause : Nat) (s : State) : State :=
  let was := laneState s l
  if was = .flue then drainLost l s
  else if was = .inService ∧ (reservedBy s l).isSome then takeAbrupt l s
  else
    let s := modLaneOpt l (fun o => { o with bankCause := cause }) (setLane l .banked s)
    let s := endLaneCmds l (endSlice l 1 s)
    if was = .inService ∨ was = .withdrawn then leaveAbrupt l (was == .inService) s else s

/-- The recovery of a wrong lock or a lost lock of the receive or the transmit ring begins: the lane is banked, its ring
parked (R226, R233, R235). -/
def wrongLock (l cause : Nat) (rxRing : Bool) (s : State) : State :=
  let s := bankLane l cause (bumpLink l (if cause = 2 then 17 else 16) s)
  if laneState s l = .banked then
    leaveSwap l (modLaneOpt l (fun o => { o with recovering := true, lockFails := 0, excluded := [], rxRing := rxRing }) s)
  else s

/-- A lane given to a circuit has drained at both ends: no packet is half received on it, and the 60 µs have passed that every packet
already assigned has to be sent and acknowledged (R230, R264, R281). (DESIGN CHOICE, log entry 101.) -/
def drainOver (s : State) (l : Nat) : Bool :=
  (laneOpt s l).draining && (laneLink s l).rx == [] && decide ((laneOpt s l).drainAt + usU 60 ≤ s.time.now)

/-- An idle lane goes on: one withdrawn for banking is banked (LANE_BANK, or a laser that no spare can replace), one given to
a circuit has drained (R236, R245, R281). -/
def settleIdle (l : Nat) (s : State) : State :=
  if !laneIdle s l then s
  else match laneState s l with
    | .withdrawn =>
      if (laneOpt s l).bankCmd.isSome then bankLane l 5 s
      else match swapOn s l with
        | some (_, w) => if w.spare = 127 then leaveSwap l (bankLane l 4 s) else s
        | none => s
    | .flue => if drainOver s l then drained l s else s
    | _ => s

/-- A lane leaves the spray set for work of this end or the far end: WD_CAUSE, and the flag of a port that is left
without a lane in service; an end with work of its own is not done (R128, R232, R243, R264). (DESIGN CHOICE, log entry 92.) -/
def withdrawLane (l cause : Nat) (s : State) : State :=
  let was := laneState s l
  let s := modLaneOpt l (fun o => { o with wdCause := cause }) (setLane l .withdrawn s)
  let s := modLaneLink l (fun k => { k with txDone := k.txDone && decide (3 ≤ cause) }) s
  settleIdle l (match portOfLane s l with
    | some p => noteEmpty p (was == .inService) s
    | none => s)

/-- A reserved lane's withdrawal is granted: it is FLUE, its slice and its commands end, and it drains (R278, R281).
(DESIGN CHOICE, log entry 101.) -/
def takeGranted (l : Nat) (s : State) : State :=
  let was := laneState s l
  let s := leaveSwap l (endLaneCmds l (skipSlice l (takeReserved l s)))
  settleIdle l (match portOfLane s l with
    | some p => if carried s p then noteEmpty p (was == .inService) s else linkDown p s
    | none => s)

/-- The lanes whose drain is over by now are parked (R281). (DESIGN CHOICE, log entry 101.) -/
def settleDrains (s : State) : State :=
  (s.optics.lanes.filter fun e => e.2.draining).foldl (fun s e => settleIdle e.1 s) s

/-! ### Joining service (R76, R77, R232, R267, R269) -/

/-- A lane enters IN_SERVICE: it starts its sequence numbers afresh, joins the spray set, ends what its absence had held, and
sends what has waited for it. -/
def joinService (l : Nat) (s : State) : State :=
  match portOfLane s l with
  | none => s
  | some p =>
    let b := bundleOfPort s p
    let before := match b with
      | some b => eligible s b
      | none => []
    let wasHeld := wideHold s p
    let s := modLaneLink l (fun k => { freshLink k with trainStep := 0, txFault := false, trainedAt := s.time.now }) s
    let s := modLaneOpt l (fun o => { o with lockFails := 0, excluded := [], recovering := false }) (setLane l .inService s)
    let s := joinLane l p s
    let s := match b with
      | some b => joinSlots before b s
      | none => s
    let s := latEnd p 1 (latEnd p 2 s)
    pump l (if wasHeld then capturePort 5 p s else s)

end Sys2Proof.Machine
end

