-- ==== Sys2Proof/Machine/Optics.lean ====
section
/-! DEFINITION. Calibration, wrong locks, the Kiln and their commands (R224 to R245). -/

namespace Sys2Proof.Machine

/-! ### Sweeps (R228, R229) -/

/-- SWEEP_S in force: a change applies from the next sweep (R228). (DESIGN CHOICE, log entry 94.) -/
def sweepNow (s : State) : Nat :=
  match s.optics.sweepPend with
  | some (v, t) => if t ≤ s.time.now then v else s.optics.sweepS
  | none => s.optics.sweepS

/-- The number of the present sweep. -/
def sweepNo (s : State) : Nat := secOf s.time.now / sweepNow s

/-- The lane of a slice of a barn (R228). -/
def sliceLane (b j : Nat) : Nat := 64 * b + 8 * (j % 8) + j / 8

/-- The location of a lane in a fault report. -/
def laneFault (code severity l : Nat) : FaultRep := faultAt code severity (halfOf l) (barnOf l) l

/-- A lane in service that has not completed a calibration for 2·SWEEP_S is reported, once in each sweep (R229).
(DESIGN CHOICE, log entry 94.) -/
def overdue (l : Nat) (s : State) : State :=
  let o := laneOpt s l
  if o.state = .inService ∧ o.calAt + secU (2 * sweepNow s) ≤ s.time.now ∧ o.overdueSweep ≠ sweepNo s + 1 then
    report (laneFault 0x0905 1 l) (bumpLink l 15 (modLaneOpt l (fun o => { o with overdueSweep := sweepNo s + 1 }) s))
  else s

/-- Free spares of a barn's half that fail their test are not used for swaps (R240). (DESIGN CHOICE, log entry 94.) -/
def testSpares (b : Nat) (fails : List (Fin 16)) (s : State) : State :=
  fails.foldl (fun s i =>
    if i.val / 8 = b / 8 ∧ (theLaser s (64 + i.val)).state = 5 then
      bump (ctr 0x10 (b / 8) 5) (setLaser (64 + i.val) 6 s)
    else s) s

/-- The instant of slice j of a barn in the present sweep: b·SWEEP_S/1,024 + j·SWEEP_S/64 seconds after its start (R228).
(DESIGN CHOICE, log entry 94.) -/
def sliceAt (s : State) (b j : Nat) : Nat :=
  secU (sweepNo s * sweepNow s) + secU (sweepNow s) / 1024 * b + secU (sweepNow s) / 64 * j

/-- Device time has come to the instant of slice j of a barn (R228, R309). (DESIGN CHOICE, log entries 6, 94.) -/
def sliceNow (s : State) (b j : Nat) : Bool := reached s (sliceAt s b j)

/-- CAL_SLICE_START: slice j of a barn begins, once in each sweep (R228, R229, R240). A barn whose former slice is still in
progress skips it. (DESIGN CHOICE, log entries 6, 94.) -/
def calSliceStart (b j : Nat) (test : SliceTest) (s : State) : State :=
  let l := sliceLane b j
  if sliceNow s b j ∧ tget s.optics.lastSlice 0 (64 * b + j) ≠ sweepNo s + 1 then
    let s := s.modOptics fun o => { o with lastSlice := tset o.lastSlice 0 (64 * b + j) (sweepNo s + 1) }
    let s :=
      if s.optics.calEnable && barnUp s b then
        let s := if j = 0 ∧ b % 8 = 0 then testSpares b test.spareFails s else s
        if s.optics.slices.any fun e => e.1 == b && (!e.2.waits || e.2.lane == l) then s
        else beginSlice b { lane := l, waits := false, test := some test, cmds := [] } s
      else s
    overdue l s
  else s

/-! ### Barn references (R241) -/

/-- The outcome of the barn reference test of a slice. (DESIGN CHOICE, log entry 94.) -/
def barnRef (b : Nat) (ok : Bool) (s : State) : State :=
  let h := b / 8
  if ok then s.modOptics fun o => { o with refFails := tset o.refFails 0 b 0 }
  else
    let n := tget s.optics.refFails 0 b + 1
    let mark := sweepNo s + 1
    let s := bump (ctr 8 b 18) (s.modOptics fun o => { o with refFails := tset (tset o.refFails 0 b n) 0 (16 + b) mark })
    let bad := (List.range 8).filter fun i => tget s.optics.refFails 0 (16 + 8 * h + i) == mark
    if s.optics.masterFault.contains h then s
    else if 5 ≤ bad.length then
      report (faultAt 0x0907 2 h 0 0) (s.modOptics fun o =>
        { o with masterFault := h :: o.masterFault, onMaster := o.onMaster.filter fun x => x / 8 != h })
    else if 2 ≤ n ∧ !s.optics.onMaster.contains b then
      report (faultAt 0x0906 1 h b 0) (bump (ctr 8 b 19) (s.modOptics fun o => { o with onMaster := b :: o.onMaster }))
    else s

/-- The lane tests that fail in a slice (R240). -/
def laneFails (t : SliceTest) : Nat := bit (!t.loopback) + bit (!t.heater) + bit (!t.dark)

/-! ### The end of a short retraining (R231, R235, R237, R239, R264, R269) -/

/-- A restored lane returns to service where its port's link is up; otherwise it trains fully, or is DOWN where its
port is not enabled (R227, R235). -/
def restoreLane (l : Nat) (s : State) : State :=
  let s := modLaneOpt l (fun o => { o with lockFails := 0, excluded := [], recovering := false }) s
  match portOfLane s l with
  | none => setLane l .down s
  | some p =>
    if (thePort s p).up then joinService l s
    else
      setLane l (if (thePort s p).enabled then .training else .down) (modLaneLink l (fun k => { freshLink k with trainStep := 0, rx := k.rx }) s)

/-- The lane has trained. -/
def retrainOk (r : RetrainEnd) : Bool := match r with
  | .trained _ _ => true
  | _ => false

/-- Whether the receive ring is at fault in a retraining that did not end well (R233). -/
def retrainRx (r : RetrainEnd) : Bool := match r with
  | .failed rx => rx
  | _ => true

/-- The identity check of R234 has ended: each end has received two full markers, or the lane has not trained. -/
def checkEnded (r : RetrainEnd) : Bool := match r with
  | .trained a b => decide (2 ≤ a) && decide (2 ≤ b)
  | _ => true

/-- One attempt of the recovery of R235 ends: success, another attempt, or the third failure, which names the ring, 1 for the
receive ring, and the resonances tried. The ring is that of the recovery, or the one that has failed to lock since. An excluded resonance is never a success.
(DESIGN CHOICE, log entry 93.) -/
def recoverStep (l : Nat) (r : RetrainEnd) (resonance : Nat) (s : State) : State :=
  let cmd := (laneOpt s l).unbankCmd
  let old := (laneOpt s l).excluded
  if retrainOk r ∧ !old.contains resonance then
    endCmd cmd (restoreLane l (modLaneOpt l (fun o => { o with unbankCmd := none }) s))
  else
    let tried := if old.contains resonance then old else old ++ [resonance]
    let s := match r with
      | .failed rx => modLaneOpt l (fun o => { o with rxRing := rx }) s
      | _ => s
    let s := modLaneOpt l (fun o => { o with lockFails := o.lockFails + 1, excluded := tried }) s
    if (laneOpt s l).lockFails < 3 then s
    else
      let s := modLaneOpt l (fun o => { o with recovering := false, unbankCmd := none }) s
      let s := report { laneFault 0x0904 2 l with detail := w32 (bit (laneOpt s l).rxRing) :: tried.map w32 } s
      match cmd with
      | some c => endWith c St.testFailed 0 s
      | none => s

/-- A failed short retraining; after three in a row the lane trains fully (R269). -/
def shortFail (l : Nat) (s : State) : State :=
  if (laneLink s l).shortFails + 1 < 3 then modLaneLink l (fun k => { k with shortFails := k.shortFails + 1 }) s
  else
    let s := if laneState s l = .withdrawn then endLaneCmds l (abruptExit l s) else s
    modLaneLink l (fun k => { k with shortFails := 0, trainStep := 0 }) s

/-- The lane tests that failed in a slice. -/
def sliceFails (x : Slice) : Nat := match x.test with
  | some t => laneFails t
  | none => 0

/-- The end of an own slice on a lane: its tests, its retraining, its count (R231, R240). (DESIGN CHOICE, log entry 93.) -/
def sliceEnds (b : Nat) (x : Slice) (r : RetrainEnd) (s : State) : State :=
  let l := x.lane
  let fails := sliceFails x
  let s := match x.test with
    | some t => barnRef b t.barnRef s
    | none => s
  if 0 < fails then report (laneFault 0x0904 2 l) (bankLane l 3 (bumpBy (ctr 8 b 18) fails s))
  else if !retrainOk r then wrongLock l 1 (retrainRx r) s
  else
    let s := modLaneOpt l (fun o => { o with lastCal := secOf s.time.now % 65536, calAt := s.time.now }) s
    endSlice l 0 (joinService l (setSwing l (bumpLink l 13 s)))

/-- A short retraining may end on a lane: one that recovers or whose failed laser is replaced, one that is withdrawn and idle,
or one that left abruptly while its port's link is up (R231, R235, R237, R239, R269). -/
def retrains (s : State) (l : Nat) : Bool :=
  match laneState s l with
  | .banked => (laneOpt s l).recovering || (swapOn s l).any fun e => e.2.failure
  | .withdrawn => laneIdle s l
  | .training => decide ((laneLink s l).trainStep = 3) && (match portOfLane s l with
    | some p => (thePort s p).up
    | none => false)
  | _ => false

/-- The path of a swap has moved, or may move: every lane left is withdrawn and idle, or banked by the failure
(R237, R239). -/
def pathMay (s : State) (w : Swap) : Bool :=
  (theLaser s w.laser).state == 4 || w.failure || w.lanesLeft.all fun l => laneState s l == .withdrawn && laneIdle s l

/-- A lane whose retraining was for work of the far end, LANE_RESET or an abrupt exit: it joins service, or is a wrong lock,
or has failed once more (R233, R264, R269). -/
def plainEnds (l : Nat) (r : RetrainEnd) (s : State) : State :=
  match r with
  | .trained _ _ => endLaneCmds l (joinService l s)
  | .wrongIdentity => wrongLock l 1 true s
  | .failed _ => shortFail l s

/-- SHORT_RETRAIN: the short retraining of a lane comes to its end; `resonance` is the one the ring has found and `done` the far
end's DONE, without which a lane that has trained is not yet restored (R230, R264). (DESIGN CHOICE, log entry 93.) -/
def shortRetrain (l : Nat) (r : RetrainEnd) (done : Bool) (resonance : Nat) (s : State) : State :=
  if !retrains s l || !checkEnded r then s
  else
    let s := sayCap l true (modLaneLink l (fun k => { k with txDone := true, rxDone := done }) s)
    let waits := retrainOk r && !done
    match laneState s l, sliceOn s l, swapOn s l with
    | .banked, _, sw =>
      if waits then s
      else if (laneOpt s l).recovering then recoverStep l r resonance s
      else match sw with
        | some (_, w) =>
          let s := startPath w s
          if retrainOk r then leaveSwap l (restoreLane l s) else wrongLock l 1 (retrainRx r) s
        | none => s
    | .withdrawn, some (b, x), _ => if waits ∧ sliceFails x = 0 then s else sliceEnds b x r s
    | .withdrawn, none, some (_, w) =>
      if w.spare = 127 ∨ !pathMay s w then s
      else
        let s := startPath w s
        if waits then s
        else if retrainOk r then leaveSwap l (joinService l s)
        else wrongLock l 1 (retrainRx r) s
    | _, _, _ => if waits then s else plainEnds l r s

/-- LOCK_LOST: a ring loop loses lock (R226). -/
def lockLost (l : Nat) (rxRing : Bool) (s : State) : State :=
  if laneState s l = .inService ∨ laneState s l = .withdrawn then wrongLock l 2 rxRing s else s

/-! ### The Kiln (R236 to R239) -/

/-- A counter of the KILN block of a laser's half (R399). (DESIGN CHOICE, log entry 95.) -/
def bumpKiln (i idx : Nat) (s : State) : State := bump (ctr 0x10 (laserHalf i) idx) s

/-- The location of a laser in a fault report. (DESIGN CHOICE, log entry 95.) -/
def laserFault (code severity i : Nat) : FaultRep := faultAt code severity (laserHalf i) i 0

/-- The lowest-numbered spare of a half that is free and not promised to a pending swap (R237). -/
def freeSpare (s : State) (h : Nat) : Option Nat :=
  ((List.range 8).map fun i => 64 + 8 * h + i).find? fun i =>
    (theLaser s i).state == 5 && !s.optics.swaps.any fun e => e.2.spare == i

/-- A swap has no spare: it is over, and its command ends (R236, R245). -/
def swapBare (w : Swap) (s : State) : State :=
  let s := s.modOptics fun o => { o with swaps := o.swaps.filter fun e => e.2.laser != w.laser }
  let s := wakeSlices (report (laserFault 0x0902 2 w.laser) (bumpKiln w.laser 2 s))
  endCmds w.cmds St.noSpare (laserHalf w.laser) s

/-- The spare of a swap is tuned to its laser's channel (R237, R244). -/
def tuneSpare (w : Swap) (s : State) : State :=
  setLaser w.spare 3 (modLaser w.spare (fun x => { x with group := laserGroup s w.laser, channel := laserChannel s w.laser }) s)

/-- A swap starts: its laser and spare, and the withdrawal of the lanes in use, or their restoring after a failure
(R237, R239). A spare that has failed its test meanwhile is not used (R240). (DESIGN CHOICE, log entry 95.) -/
def startSwap (h : Nat) (w : Swap) (s : State) : State :=
  let spare := if w.spare = 127 ∨ (theLaser s w.spare).state = 5 ∨ (theLaser s w.spare).state = 3 then some w.spare
    else freeSpare s h
  match spare with
  | none => swapBare w s
  | some sp =>
    let w := { w with spare := sp }
    let lanes := if w.failure then w.lanesLeft
      else (laserLanes s w.laser).filter fun l => laneState s l == .inService || laneState s l == .withdrawn
    let s := if w.spare = 127 then s else setLaser w.laser 3 (tuneSpare w s)
    let s := s.modOptics fun o =>
      { o with swaps := (o.swaps.filter fun e => e.2.laser != w.laser) ++ [(h, { w with started := true, lanesLeft := lanes })] }
    settleSwaps (if w.failure then s else lanes.foldl (fun s l => settleIdle l (askWithdraw l .swap s)) s)

/-- KILN_SWAP_START: the oldest pending swap of a half begins, once no swap runs in the half and no slice is in progress
in the barns it serves (R237). (DESIGN CHOICE, log entry 95.) -/
def kilnSwapStart (h : Nat) (s : State) : State :=
  if s.optics.swaps.any fun e => e.1 == h && e.2.started && e.2.spare != 127 then s
  else match s.optics.swaps.find? fun e => e.1 == h && !e.2.started with
    | none => s
    | some (_, w) =>
      if s.optics.slices.any fun e => !e.2.waits && e.1 / 2 == laserGroup s w.laser then s
      else startSwap h w (bumpKiln w.laser 1 s)

/-- A pending swap of a laser to a spare. (DESIGN CHOICE, log entry 95.) -/
def queueSwap (i spare : Nat) (cmds : List CmdRef) (s : State) : State :=
  s.modOptics fun o =>
    { o with swaps := o.swaps ++ [(laserHalf i, { laser := i, spare := spare, started := false, failure := false, lanesLeft := [],
                                                  cmds := cmds })] }

/-- A laser is FAILED; it stands for no other laser any longer (R239, R244). (DESIGN CHOICE, log entry 95.) -/
def failLaser (i : Nat) (s : State) : State := setLaser i 6 (modLaser i (fun x => { x with replacedBy := 127 }) s)

/-- The swaps of other lasers, without the lanes that a failing laser feeds: those wait for its own swap (R239).
(DESIGN CHOICE, log entry 95.) -/
def swapsBeside (s : State) (i : Nat) (fed : List Nat) : List (Nat × Swap) :=
  (s.optics.swaps.filter fun e => e.2.laser != i).map fun e =>
    (e.1, { e.2 with lanesLeft := e.2.lanesLeft.filter fun l => !fed.contains l })

/-- A laser fails: the sixteen lanes that it feeds are banked at once and a free spare takes its place (R239). A lane in service
is restored after its retraining, the others train as before once the path has moved. (DESIGN CHOICE, log entry 95.) -/
def laserFails (i : Nat) (s : State) : State :=
  let fed := (laserLanes s i).filter fun l => laserOf s l == i && laneState s l != .flue && laneState s l != .banked
  let lanes := fed.filter fun l => laneState s l == .inService || laneState s l == .withdrawn
  let old := s.optics.swaps.find? fun e => e.2.laser == i && e.2.spare != 127
  let s := report (laserFault 0x0903 1 i) (bumpKiln i 4 s)
  let others := swapsBeside s i fed
  match old.map (fun e => e.2.spare) |>.orElse fun _ => freeSpare s (laserHalf i) with
  | some sp =>
    let cmds := match old with
      | some e => e.2.cmds
      | none => []
    let w : Swap := { laser := i, spare := sp, started := true, failure := true, lanesLeft := lanes, cmds := cmds }
    let s := s.modOptics fun o => { o with swaps := others ++ [(laserHalf i, w)] }
    let s := startSwap (laserHalf i) w (fed.foldl (fun s l => bankLane l 4 s) s)
    if s.optics.swaps.any (fun e => e.2.laser == i) || (theLaser s i).state == 4 then s else failLaser i s
  | none =>
    let s := s.modOptics fun o => { o with swaps := others }
    failLaser i (wakeSlices (settleSwaps (fed.foldl (fun s l => bankLane l 4 s) s)))

/-- The state of a working laser by its fade (R236). -/
def workingState (x : Laser) : Nat := if x.fade ≤ -100 then 2 else 1

/-- A spare that is tuned for a swap fails before the path has moved: another free spare takes its place, or the swap is over
and its laser goes on. (DESIGN CHOICE, log entry 95.) -/
def spareFails (h : Nat) (w : Swap) (s : State) : State :=
  let s := failLaser w.spare (report (laserFault 0x0903 1 w.spare) (bumpKiln w.spare 4 s))
  match freeSpare s h with
  | some sp =>
    let w' := { w with spare := sp }
    tuneSpare w' (s.modOptics fun o => { o with swaps := o.swaps.map fun e => if e.2 = w then (h, w') else e })
  | none => setLaser w.laser (if w.failure then 6 else workingState (theLaser s w.laser)) (swapBare w s)

/-- A mean of readings is at or below a level, in 0.01 dB. (DESIGN CHOICE, log entry 90.) -/
def fadedTo (rs : List Int) (level : Int) : Bool := rs != [] && decide (rs.sum ≤ level * rs.length)

/-- WARN and its end by the fade (R236). (DESIGN CHOICE, log entry 95.) -/
def warnFade (i : Nat) (rs : List Int) (s : State) : State :=
  if (theLaser s i).state = 1 ∧ fadedTo rs (-100) then report (laserFault 0x0901 0 i) (bumpKiln i 0 (setLaser i 2 s))
  else if (theLaser s i).state = 2 ∧ -80 * (rs.length : Int) < rs.sum then setLaser i 1 s
  else s

/-- At or below −2.0 dB a laser that no swap is to replace is swapped, or the want of a spare is reported, once at each coming
(R236). (DESIGN CHOICE, log entry 95.) -/
def swapFade (i : Nat) (old new : List Int) (s : State) : State :=
  if fadedTo new (-200) && !(s.optics.swaps.any fun e => e.2.laser == i) then
    match freeSpare s (laserHalf i) with
    | some sp => queueSwap i sp [] s
    | none => if fadedTo old (-200) then s else report (laserFault 0x0902 2 i) (bumpKiln i 2 s)
  else s

/-- At or below −3.0 dB without a spare the lanes of a laser are withdrawn, or banked, once at each coming; a swap that ends for
want of a spare leaves this to the next reading (R236). (DESIGN CHOICE, log entry 95.) -/
def darkFade (i : Nat) (rs : List Int) (s : State) : State :=
  if !fadedTo rs (-300) then (if (theLaser s i).dark then modLaser i (fun x => { x with dark := false }) s else s)
  else if (theLaser s i).dark ∨ s.optics.swaps.any (fun e => e.2.laser == i) then s
  else
    let w : Swap := { laser := i, spare := 127, started := true, failure := false, lanesLeft := [], cmds := [] }
    let s := startSwap (laserHalf i) w (bumpKiln i 3 (modLaser i (fun x => { x with dark := true }) s))
    (laserLanes s i).foldl (fun s l => if laneState s l = .training ∨ laneState s l = .down then bankLane l 4 s else s) s

/-- What a laser's fade calls for (R236). (DESIGN CHOICE, log entry 95.) -/
def actOnFade (i : Nat) (old new : List Int) (s : State) : State := darkFade i new (swapFade i old new (warnFade i new s))

/-- LASER_READING: a monitor reading of a lit laser, in 0.01 dB relative to its factory baseline and compensated for
temperature (R236, R239, R395). Before sixteen readings have been taken the fade is the mean of those there are. A mean between two
units of FADE reads as one of them, which one is a free value. (DESIGN CHOICE, log entry 90.) -/
def laserReading (i : Nat) (reading : Int) (s : State) : State :=
  let x := theLaser s i
  let r := reading - calGet s 4 i
  if x.state = 1 ∨ x.state = 2 ∨ x.state = 3 then
    let rs := lastN 16 (x.readings ++ [r])
    let exact := rs.sum % (rs.length : Int) == 0
    let up : Int := if exact then 0 else (freeBelow s 2 : Nat)
    let s := modLaser i (fun x => { x with readings := rs, fade := clampI (-32768) 32767 (rs.sum / (rs.length : Int) + up) })
      (if exact then s else s.tookFree)
    if r ≤ -600 then
      match s.optics.swaps.find? fun e => e.2.started && e.2.spare == i && x.state == 3 with
      | some (h, w) => spareFails h w s
      | none => laserFails i s
    else if x.state = 3 then s
    else actOnFade i x.readings rs s
  else s

/-! ### Power-up (R238, R242) -/

/-- The spare that the user store names in the place of a laser, or the laser itself, through at most `n` spares.
(DESIGN CHOICE, log entry 96.) -/
def standsIn (s : State) (n i : Nat) : Nat :=
  match n with
  | 0 => i
  | n + 1 =>
    match (List.range 16).find? fun j => calGet s 0 j == (i : Int) && 64 + j != i with
    | some j => standsIn s n (64 + j)
    | none => i

/-- The laser of R8 that a laser stands for, through at most `n` spares. (DESIGN CHOICE, log entry 96.) -/
def standsFor (s : State) (n i : Nat) : Nat :=
  match n with
  | 0 => i
  | n + 1 => if i < 64 then i else if calGet s 0 (i - 64) = 127 then i else standsFor s n (calGet s 0 (i - 64)).toNat

/-- The state of a laser as it is switched on, by the records of the user store. (DESIGN CHOICE, log entry 96.) -/
def lightLaser (i : Nat) (s : State) : State :=
  let next := standsIn s 1 i
  let root := standsFor s 17 i
  if calGet s 1 i = 1 then
    setLaser i 4 (modLaser i (fun x => { x with replacedBy := if next = i then 127 else next, group := if root < 64 then root / 8 else 0,
                                                channel := root % 8 }) s)
  else if i < 64 then setLaser i 1 s
  else if calGet s 0 (i - 64) = 127 then setLaser i 5 (modLaser i (fun x => { x with group := 4 * ((i - 64) / 8) }) s)
  else setLaser i 1 (modLaser i (fun x => { x with replacedBy := (calGet s 0 (i - 64)).toNat, group := root / 8, channel := root % 8 }) s)

/-- A laser that is lit is measured: at or below −2.0 dB a free spare replaces it, or its lanes are banked (R242).
(DESIGN CHOICE, log entry 96.) -/
def measureLaser (i : Nat) (reading : Int) (s : State) : State :=
  let r := reading - calGet s 4 i
  if (theLaser s i).state = 1 then
    let s := modLaser i (fun x => { x with readings := [r], fade := clampI (-32768) 32767 r }) s
    if r ≤ -200 then
      match freeSpare s (laserHalf i) with
      | some sp => movePath i sp s
      | none => (laserLanes s i).foldl (fun s l => bankLane l 4 s) s
    else s
  else s

/-- The lasers of a half. -/
def halfLasers (h : Nat) : List Nat := ((List.range 32).map (32 * h + ·)) ++ (List.range 8).map (64 + 8 * h + ·)

/-- The lasers of a half are switched on, and its lanes take the lasers that the records name (R238).
(DESIGN CHOICE, log entry 96.) -/
def lightHalf (h : Nat) (s : State) : State :=
  let s := (halfLasers h).foldl (fun s i => lightLaser i s) s
  ((List.range 32).map (32 * h + ·)).foldl (fun s i =>
    let j := standsIn s 17 i
    if j = i then s else (laserLanes s i).foldl (fun s l => modLaneOpt l (fun o => { o with spare := j + 1 }) s) s) s

/-! ### Lost calibration records (R394) -/

/-- The half that a record of the user store serves (R395). -/
def calHalf (kind index : Nat) : Nat :=
  match kind with
  | 0 => index / 8
  | 1 => laserHalf index
  | 4 => laserHalf index
  | _ => halfOf index

/-- Both copies of a calibration record fail their CRC-32; where one does, the device uses the other and writes it over the failing
one, so that the record's value stays (R394). (DESIGN CHOICE, log entry 163.) -/
def bothBad {α : Type} [DecidableEq α] (bad : List (α × Fin 2)) (x : α) : Bool := bad.contains (x, 0) && bad.contains (x, 1)

/-- The records of which both copies fail. (DESIGN CHOICE, log entry 163.) -/
def lostOf {α : Type} [DecidableEq α] (bad : List (α × Fin 2)) : List α :=
  ((bad.filter fun e => e.2 == 0).map Prod.fst).filter fun x => bothBad bad x

/-- The user records of which both copies fail, by KIND and index (R394, R395). (DESIGN CHOICE, log entry 163.) -/
def userLost (u : OpticsUp) : List (Nat × Nat) := lostOf (u.userBad.map fun e => ((e.1.val, e.2.1), e.2.2))

/-- A record of the user store both of whose copies fail: an offset is taken as 0, a mapping or a retirement is not known
(R394). -/
def loseRecord (kind index : Nat) (s : State) : State := calSet kind index (if kind = 0 then 127 else 0) s

/-- The device reports a lost calibration record (R394). (DESIGN CHOICE, log entry 96.) -/
def calStore (half item : Nat) (s : State) : State := report (faultAt 0x0F05 2 half 0 item) s

/-- With a record of the mapping lost, a working laser that reads at or below −6.0 dB is recorded as RETIRED, and a retired
laser that no spare stands in for gets one (R394). (DESIGN CHOICE, log entry 96.) -/
def remapLaser (i : Nat) (reading : Int) (s : State) : State :=
  let s := if (theLaser s i).state = 1 ∧ reading - calGet s 4 i ≤ -600 then setLaser i 4 (calSet 1 i 1 s) else s
  if (theLaser s i).state = 4 ∧ standsIn s 1 i = i ∧ (i < 64 ∨ calGet s 0 (i - 64) ≠ 127) then
    match freeSpare s (laserHalf i) with
    | some sp => movePath i sp s
    | none => (laserLanes s i).foldl (fun s l => bankLane l 4 s) s
  else s

/-- The lanes of a half that a lost factory record serves are banked with cause SELFTEST, the lasers are FAILED (R394).
(DESIGN CHOICE, log entry 96.) -/
def factoryLost (h : Nat) (u : OpticsUp) (s : State) : State :=
  let s := ((lostOf u.lasersBad).filter fun i => laserHalf i.val == h).foldl (fun s i =>
    (laserLanes s i.val).foldl (fun s l => if laserOf s l = i.val then bankLane l 4 s else s)
      (calStore h i.val (failLaser i.val s))) s
  ((lostOf u.lanesBad).filter fun l => halfOf l.val == h).foldl (fun s l =>
    calStore h l.val (if laneState s l.val = .banked then s else bankLane l.val 3 s)) s

/-- The power-up optics of a half once both master references are in tolerance (R242, R394). (DESIGN CHOICE, log entry 96.) -/
def powerUpOptics (h : Nat) (u : OpticsUp) (s : State) : State :=
  let lost := (userLost u).filter fun r => calHalf r.1 r.2 == h
  let s := lightHalf h (lost.foldl (fun s r => loseRecord r.1 r.2 s) s)
  let maps := lost.filter fun r => decide (r.1 ≤ 1)
  let s := if maps = [] then s
    else maps.foldl (fun s r => calStore h r.2 s) ((halfLasers h).foldl (fun s i => remapLaser i (u.lasers.getD i 0) s) s)
  let s := factoryLost h u s
  let s := (halfLasers h).foldl (fun s i => measureLaser i (u.lasers.getD i 0) s) s
  (u.lanesFail.filter fun l => halfOf l.val == h).foldl (fun s l =>
    if laneState s l.val = .banked then s else bankLane l.val 3 (bumpLink l.val 18 s)) s

/-! ### Status words (R243, R244) -/

/-- RX_POWER and HEATER are measured as a lane's word is read: free values, the power with its factory trim and the user offset
(R395); a DOWN lane keeps its reset values. (DESIGN CHOICE, log entries 90, 163.) -/
def sampleLane (l : Nat) (s : State) : State :=
  if laneState s l = .down then s
  else
    let p := clampI (-128) 127 ((freeBelow s 256 : Nat) - 128 + Config.factoryCal 3 l + calGet s 3 l)
    let h := freeBelow s.tookFree 4096
    modLaneOpt l (fun o => { o with rxPower := p, heater := h }) s.tookFree.tookFree

/-- The status word of a lane (R243). -/
def laneWord (s : State) (l : Nat) : Nat :=
  let o := laneOpt s l
  packN [(61, laneCode o.state), (58, o.wdCause), (55, o.bankCause), (53, o.lockFails), (43, l), (36, laserOf s l),
    (20, o.lastCal), (12, (o.rxPower % 256).toNat), (0, o.heater)]

/-- The status word of a laser (R244). -/
def laserWord (s : State) (i : Nat) : Nat :=
  let x := theLaser s i
  packN [(61, x.state), (54, i), (47, x.replacedBy), (44, laserChannel s i),
    (41, if 64 ≤ i ∧ (x.state = 5 ∨ x.state = 0) then 4 * ((i - 64) / 8) else laserGroup s i), (16, (x.fade % 65536).toNat), (0, x.sinceS)]

/-! ### Commands (R245) -/

/-- LANE_STATUS_READ. (DESIGN CHOICE, log entry 90.) -/
def laneStatusRead (args : List Word) (s : State) : Res :=
  let first := argN args 1
  let n := argN args 2
  if 1024 ≤ first then cmdRefuse St.badArgument 1 s
  else if n < 1 ∨ 1024 < first + n then cmdRefuse St.badArgument 2 s
  else
    let ls := (List.range n).map (first + ·)
    let s := ls.foldl (fun s l => sampleLane l s) s
    cmdOk (hostWrite (arg64 args 3) (ls.flatMap fun l => leBytes 8 (laneWord s l)) s)

/-- KILN_STATUS_READ. -/
def kilnStatusRead (args : List Word) (s : State) : Res :=
  cmdOk (hostWrite (arg64 args 1) ((List.range 80).flatMap fun i => leBytes 8 (laserWord s i)) s)

/-- CAL_CONFIG: the period from the next sweep, the enable at once; with enable 0 no slice begins, one that waits for a swap neither
(R228, R245). Where the end of the present sweep is no multiple of the new SWEEP_S, the new grid holds from there, in the middle of a
sweep of its own. (DESIGN CHOICE, log entry 94.) -/
def calConfig (args : List Word) (s : State) : Res :=
  let v := argN args 1
  let now := sweepNow s
  if v < 60 ∨ 900 < v then cmdRefuse St.badArgument 1 s
  else if 1 < argN args 2 then cmdRefuse St.badArgument 2 s
  else cmdOk (s.modOptics fun o =>
    { o with sweepS := now, sweepPend := if v = now then none else some (v, secU ((secOf s.time.now / now + 1) * now)),
             calEnable := argN args 2 == 1,
             slices := if argN args 2 = 1 then o.slices else o.slices.filter fun e => !e.2.waits || e.2.cmds != [] })

/-- CAL_LANE: a slice on a lane at once; it joins a slice of the lane that waits for a swap (R229, R245).
(DESIGN CHOICE, log entry 93.) -/
def calLane (c : CmdRef) (args : List Word) (test : SliceTest) (s : State) : Res :=
  let l := argN args 1
  let b := barnOf l
  if 1024 ≤ l ∨ laneState s l = .flue then cmdRefuse St.badArgument 1 s
  else if s.optics.slices.any fun e => e.1 == b && !e.2.waits then cmdRefuse St.busy 0 s
  else
    let s := addDetached c .none s
    if s.optics.slices.any fun e => e.2.lane == l then
      (s.modOptics fun o =>
        { o with slices := o.slices.map fun e => if e.2.lane = l then (e.1, { e.2 with cmds := e.2.cmds ++ [c] }) else e }, none)
    else (beginSlice b { lane := l, waits := false, test := some test, cmds := [c] } s, none)

/-- LANE_BANK: the lane is withdrawn, then banked once idle (R245). (DESIGN CHOICE, log entry 23; DEDUCED, log entry 91.) -/
def laneBank (c : CmdRef) (args : List Word) (s : State) : Res :=
  let l := argN args 1
  if 1024 ≤ l ∨ laneState s l = .flue then cmdRefuse St.badArgument 1 s
  else match laneState s l with
    | .inService | .withdrawn =>
      let s := modLaneOpt l (fun o => { o with bankCmd := some c }) (addDetached c .none s)
      (settleIdle l (askWithdraw l .force s), none)
    | .banked => cmdOk s
    | _ => cmdOk (bankLane l 5 s)

/-- LANE_UNBANK: the recovery runs afresh (R235, R245). -/
def laneUnbank (c : CmdRef) (args : List Word) (s : State) : Res :=
  let l := argN args 1
  if 1024 ≤ l ∨ laneState s l ≠ .banked then cmdRefuse St.badArgument 1 s
  else if (laneOpt s l).recovering then cmdRefuse St.busy 0 s
  else (addDetached c .none (modLaneOpt l (fun o =>
    { o with recovering := true, lockFails := 0, excluded := [], unbankCmd := some c }) s), none)

/-- A laser that is working: lit, and no free or failed spare (R238). -/
def working (s : State) (i : Nat) : Bool := (theLaser s i).state == 1 || (theLaser s i).state == 2

/-- KILN_SWAP: a swap at any fade; it joins a swap of the laser that is pending (R237, R245). (DESIGN CHOICE, log entry 23.) -/
def kilnSwap (c : CmdRef) (args : List Word) (s : State) : Res :=
  let i := argN args 1
  let h := laserHalf i
  let running := s.optics.swaps.any fun e => e.1 == h && e.2.spare != 127 && e.2.started
  if 80 ≤ i ∨ (!working s i && !(running && (theLaser s i).state == 3)) then cmdRefuse St.badArgument 1 s
  else if running then cmdRefuse St.busy 0 s
  else if s.optics.swaps.any fun e => e.2.laser == i && !e.2.started then
    ((addDetached c .none s).modOptics fun o =>
      { o with swaps := o.swaps.map fun e => if e.2.laser = i ∧ !e.2.started then (e.1, { e.2 with cmds := e.2.cmds ++ [c] }) else e },
     none)
  else match freeSpare s h with
    | none => cmdRefuse St.noSpare h s
    | some sp => (queueSwap i sp [c] (addDetached c .none s), none)

/-! ### Meanings -/

/-- LANE_STATUS_READ. -/
def execLaneStatusRead (h : CmdHdr) (args : List Word) (s : State) : Host.Outcome State Fault Refusal :=
  runMailbox ⟨0x0901, 3, true⟩ (fun _ => 4) (fun _ s => laneStatusRead args s) h args s
/-- KILN_STATUS_READ. -/
def execKilnStatusRead (h : CmdHdr) (args : List Word) (s : State) : Host.Outcome State Fault Refusal :=
  runMailbox ⟨0x0902, 3, true⟩ (fun _ => 2) (fun _ s => kilnStatusRead args s) h args s
/-- CAL_CONFIG. -/
def execCalConfig (h : CmdHdr) (args : List Word) (s : State) : Host.Outcome State Fault Refusal :=
  runMailbox ⟨0x0903, 1, true⟩ (fun _ => 2) (fun _ s => calConfig args s) h args s
/-- CAL_LANE. -/
def execCalLane (h : CmdHdr) (args : List Word) (test : SliceTest) (s : State) : Host.Outcome State Fault Refusal :=
  runMailbox ⟨0x0904, 1, true⟩ (fun _ => 1) (fun c s => calLane c args test s) h args s
/-- LANE_BANK. -/
def execLaneBank (h : CmdHdr) (args : List Word) (s : State) : Host.Outcome State Fault Refusal :=
  runMailbox ⟨0x0905, 1, true⟩ (fun _ => 1) (fun c s => laneBank c args s) h args s
/-- LANE_UNBANK. -/
def execLaneUnbank (h : CmdHdr) (args : List Word) (s : State) : Host.Outcome State Fault Refusal :=
  runMailbox ⟨0x0906, 1, true⟩ (fun _ => 1) (fun c s => laneUnbank c args s) h args s
/-- KILN_SWAP. -/
def execKilnSwap (h : CmdHdr) (args : List Word) (s : State) : Host.Outcome State Fault Refusal :=
  runMailbox ⟨0x0907, 1, true⟩ (fun _ => 1) (fun c s => kilnSwap c args s) h args s
/-- CAL_SLICE_START. -/
def execCalSliceStart (barn : Fin 16) (slice : Fin 64) (test : SliceTest) (s : State) :
    Host.Outcome State Fault Refusal := .next (calSliceStart barn slice test s)
/-- LOCK_LOST. -/
def execLockLost (lost : LostLock) (s : State) : Host.Outcome State Fault Refusal :=
  .next (lockLost lost.lane lost.rxRing s)
/-- LASER_READING. -/
def execLaserReading (laser : Fin 80) (reading : Int) (s : State) : Host.Outcome State Fault Refusal :=
  .next (laserReading laser reading s)
/-- KILN_SWAP_START. -/
def execKilnSwapStart (half : Fin 2) (s : State) : Host.Outcome State Fault Refusal := .next (kilnSwapStart half s)
/-- SHORT_RETRAIN. -/
def execShortRetrain (lane : Fin 1024) (result : Retrained) (resonance : Nat) (s : State) :
    Host.Outcome State Fault Refusal := .next (shortRetrain lane result.result result.done resonance s)

end Sys2Proof.Machine
end

