-- ==== Sys2Proof/Machine/Link.lean ====
section
/-! DEFINITION. The link layer: retry, the bytes of packets, identity, control messages, training, credit and port
configuration (R246 to R274, R336). -/

namespace Sys2Proof.Machine

/-! ### Acknowledgement and replay (R257) -/

/-- A packet's last flit is acknowledged: the delivered mask of its result gains its port (R153, R257). -/
def deliver (p : RetryPkt) (s : State) : State :=
  match p.info.bind fun i => i.result with
  | some r => if r.void then s else modRet r.ctx r.index (fun x => { x with delivered := x.delivered ||| (1#1024 <<< p.port) }) s
  | none => s

/-- A sequence number lies after another, in the window of the retry protocol. -/
def seqAfter (a b : Nat) : Bool := decide (1 ≤ (a + 4096 - b) % 4096) && decide ((a + 4096 - b) % 4096 < 2048)

/-- An acknowledgement of `a` does not release an entry: its last flit is not covered, or is still to be sent (R257). -/
def staysIn (a : Nat) (p : RetryPkt) : Bool := p.kind == .partly || seqAfter p.lastSeq a

/-- An acknowledgement arrives: it is cumulative, releases the packets whose last flit it covers, and opens the window
(R257). -/
def ackUpTo (l a : Nat) (s : State) : State :=
  let k := laneLink s l
  let adv := (a + 4096 - k.txAcked) % 4096
  if 0 < adv ∧ adv ≤ outstanding k then
    let s := modLaneLink l (fun k => { k with txAcked := a, replaySeq := 4096, replays := 0, retry := k.retry.filter (staysIn a) }) s
    settleIdle l (pump l ((k.retry.filter fun p => !staysIn a p).foldl (fun s p => deliver p s) s))
  else s

/-- Replays from the oldest flit not acknowledged, with the same contents; the replays of one SEQ are counted, and a marker that falls
due goes between them (R257, R259, R261). -/
def replay (l : Nat) (s : State) : State :=
  let k := laneLink s l
  let first := (k.txAcked + 1) % 4096
  if 0 < outstanding k then
    let s := emit (.replay l first) (bumpLink l 3 (modLaneLink l (fun k =>
      { k with replaySeq := first, replays := if k.replaySeq = first then k.replays + 1 else 1 }) s))
    (flitsFrom k).foldl (fun s f =>
      let s := markerDue l s
      putRaw l (remakeFlit s l f) s) s
  else s

/-- NAK is set in the next flit of a lane, which leaves at once (R257). -/
def sayNak (l : Nat) (s : State) : State :=
  let s := emit (.nak l (laneLink s l).rxSeq) (modLaneLink l (fun k => { k with nak := true }) s)
  if sends s l then putIdle l s else s

/-- An error at the receiver: NAK is set once, and sequenced flits are discarded until the awaited one arrives. -/
def nakError (l : Nat) (s : State) : State :=
  if (laneLink s l).discarding then s
  else sayNak l (modLaneLink l (fun k => { k with discarding := true }) s)

/-! ### Packet bytes of DATA flits (R253, R254) -/

/-- Changes the last record of a lane. -/
def modLastRx (l : Nat) (f : RxPkt → RxPkt) (s : State) : State :=
  modLaneLink l (fun k => { k with rx := match k.rx.getLast? with
    | some r => k.rx.dropLast ++ [f r]
    | none => [] }) s

/-- A packet begins on a lane. (DESIGN CHOICE, log entry 47.) -/
def openRx (l : Nat) (bytes : List Byte) (s : State) : State :=
  let r : RxPkt := { hdr := none, bytes := bytes, ended := false, disp := .unknown, counted := false, pid := 0, copies := [],
                     tIn := s.time.now, parse := 0 }
  modLaneLink l (fun k => { k with rx := k.rx ++ [r] }) s

/-- More bytes of the packet that a lane receives; `ends` with its last byte. (DESIGN CHOICE, log entry 47.) -/
def growRx (l : Nat) (bytes : List Byte) (ends : Bool) (s : State) : State :=
  match (laneLink s l).rx.getLast? with
  | none => s
  | some r =>
    if r.ended then s
    else
      let s := modLastRx l (fun r => { r with bytes := r.bytes ++ bytes, ended := ends }) s
      match portOfLane s l with
      | some p => if (laneLink s l).rx.length = 1 then feed l p (r.bytes.length - 8) false s else s
      | none => s

/-- The packet that a lane receives is aborted: none of it is delivered, and what has been forwarded is aborted onward
(R22, R254). (DESIGN CHOICE, log entry 47.) -/
def abortRx (l : Nat) (s : State) : State :=
  match (laneLink s l).rx.getLast? with
  | none => s
  | some r =>
    if r.ended then s
    else
      let s := bumpLink l 8 (modLaneLink l (fun k => { k with rx := k.rx.dropLast }) s)
      if r.disp = .forwarded ∨ r.disp = .terminated then discardPkt r.pid s else s

/-- The payload of an accepted DATA flit (R253). -/
def dataFlit (l : Nat) (w1 : Word) (payload : List Byte) (s : State) : State :=
  let start := bitAt w1 31
  let ends := bitAt w1 25
  let so := 8 * fld w1 30 26
  let eo := 8 * fld w1 24 20
  let finish (bytes : List Byte) (s : State) : State := if bitAt w1 19 then abortRx l s else growRx l bytes true s
  if start && ends && decide (so < eo) then finish [] (openRx l ((payload.take eo).drop so) s)
  else
    let s := if ends then finish (payload.take eo) s else if start then s else growRx l payload false s
    if start then openRx l (payload.drop so) s else s

/-! ### Flits (R251, R252, R257, R260, R270) -/

/-- A big-endian word of a flit. -/
def flitWord (bytes : List Byte) (i : Nat) : Word := w32 (ofBe ((bytes.drop (4 * i)).take 4))

/-- The CRC-32 of a flit or of an alignment slot is good (R252). (DESIGN CHOICE, log entry 98.) -/
def flitCrcOk (bytes : List Byte) : Bool := crc32 (bytes.take 252) == ofBe (bytes.drop 252)

/-- A carried cumulative limit is taken up; one that an earlier flit of another lane has overtaken is not (R270).
(DEDUCED, log entry 50; DESIGN CHOICE, log entry 98.) -/
def takeCredit (p c v : Nat) (s : State) : State :=
  let key := clsKey p c
  let old := tget s.link.crLimit 0 key
  if (v + 2 ^ 24 - old) % 2 ^ 24 < 2 ^ 23 then s.modLink fun k => { k with crLimit := tset k.crLimit 0 key v } else s

/-- A marker's identity differs from the learned one (R260). -/
def markerBad (k : LaneLink) (bytes : List Byte) : Bool :=
  k.farTag.isSome && ((flitWord bytes 3).toNat != k.farDevice || fld (flitWord bytes 5) 31 22 != k.farLane)

/-- A flit's or a marker's identity differs from the learned one: the receive ring is at fault (R233, R260). -/
def tagMismatch (l : Nat) (s : State) : State := wrongLock l 1 true (bumpLink l 7 s)

/-- A sequenced flit is accepted in order, or is an error (R257). -/
def sequenced (l seq : Nat) (act : State → State) (s : State) : State :=
  let k := laneLink s l
  if seq = (k.rxSeq + 1) % 4096 then act (modLaneLink l (fun k => { k with rxSeq := seq, nak := false, discarding := false }) s)
  else nakError l s

/-- A slot within an uncorrectable codeword pair, at its place among the slots received: a pair holds 680 bytes, and one that
an earlier slot has shown is not counted again (R248, R259). (DESIGN CHOICE, log entry 98.) -/
def badPair (l : Nat) (s : State) : State :=
  let k := laneLink s l
  if k.lastPair ≤ 256 * k.rxPos / 680 then
    modLaneLink l (fun k =>
      { k with lastPair := (256 * k.rxPos + 255) / 680 + 1,
               uncorrAt := s.time.now :: k.uncorrAt.filter fun t => decide (s.time.now < t + usU 1000) }) (bumpLink l 1 s)
  else s

/-- A slot of a lane has been received. -/
def countSlot (l : Nat) (s : State) : State := modLaneLink l (fun k => { k with rxPos := k.rxPos + 1 }) s

/-- NAK_RESEND_TIMER: the awaited flit has not arrived within 2 µs (R257). -/
def nakResend (l : Nat) (s : State) : State := if (laneLink s l).discarding then sayNak l s else s

/-- REPLAY_TIMEOUT: no acknowledgement has advanced for 10 µs (R257). -/
def replayTimeout (l : Nat) (s : State) : State := if sends s l then replay l s else s

/-! ### Abrupt exits (R249, R259) -/

/-- LINK_RETRY_EXHAUSTED: the same SEQ has been replayed eight times. -/
def retryExhausted (l : Nat) (s : State) : State :=
  if laneState s l = .inService ∧ 8 ≤ (laneLink s l).replays then abruptExit l (bumpLink l 4 s) else s

/-- FEC_EXIT: more than 16 uncorrectable pairs within 1 ms. (DESIGN CHOICE, log entries 98, 144.) -/
def fecExit (l : Nat) (s : State) : State :=
  if laneState s l = .inService ∧ 16 < ((laneLink s l).uncorrAt.filter fun t => decide (s.time.now < t + usU 1000)).length then
    abruptExit l (bumpLink l 5 s)
  else s

/-- FRAME_LOSS and LOSS_OF_SIGNAL (`dark`): a lane in service leaves abruptly, and so does one that still drains, or whose own
slice ends as the far end's light goes (R231, R259, R281). (DESIGN CHOICE, log entry 144.) -/
def frameLoss (l : Nat) (dark : Bool) (s : State) : State :=
  match laneState s l with
  | .inService => abruptExit l (bumpLink l 6 s)
  | .withdrawn => if !laneIdle s l || (dark && (sliceOn s l).isSome) then abruptExit l (bumpLink l 6 s) else s
  | .flue => drainLost l s
  | _ => s

/-! ### Identity and status (R261, R262) -/

/-- MARKER_SEND: the rest of the 1,024 slots has been sent, in IDLE flits that are not put out one by one, and the marker follows
(R261, R270). (DESIGN CHOICE, log entry 99.) -/
def markerSend (l : Nat) (s : State) : State :=
  if sends s l then putMarker l (modLaneLink l (fun k => { k with crRot := (k.crRot + (1024 - k.slots)) % 8 }) s) else s

/-- A lane reads what its receive rings take in: it is in use or trains, and is not lent to a circuit (R227, R277). -/
def listens (s : State) (l : Nat) : Bool := laneFrames s l || laneState s l == .training

/-- ALIGNMENT_SLOT_RX: the far end's fibre status; TX_FAULT names a lane whose transmit ring is at fault (R233, R262). The light of a
circuit is not read (R277). (DESIGN CHOICE, log entry 144.) -/
def alignmentSlot (l : Nat) (bytes : List Byte) (s : State) : State :=
  if !listens s l then s
  else
  let s := countSlot l s
  if flitCrcOk bytes then
    let ws := (List.range 8).map fun k => flitWord bytes (5 + k)
    let s := modLaneLink l (fun k => { k with farStatus := ws }) s
    (fibreLanes l).foldl (fun s m =>
      if bitAt (ws.getD (m % 8) 0) 25 && (laneState s m == .inService || laneState s m == .withdrawn) then wrongLock m 1 false s
      else s) s
  else s

/-- TX_FAULT: a lane has shown light without frame lock for 5 µs while another lane of its fibre is framed: the next alignment
slots say so (R262). -/
def txFault (l : Nat) (s : State) : State :=
  if listens s l && (fibreLanes l).any fun m => m != l && laneFrames s m then
    reportFibre l (modLaneLink l (fun k => { k with txFault := true }) s)
  else s

/-! ### Withdrawal (R229, R230, R264) -/

/-- WD_REQ. (DESIGN CHOICE, log entry 92.) -/
def wdReq (l : Nat) (kind : WdKind) (mtag : Nat) (s : State) : State :=
  let o := laneOpt s l
  let mine := (laneLink s l).asked.isSome || (o.state == .withdrawn && (o.wdCause == 1 || o.wdCause == 2))
  let grant (s : State) : State :=
    let s := modLaneLink l (fun k => { k with answered := some kind, rxDone := false }) (sendControl l 2 0 mtag 0 s)
    if laneState s l = .inService then withdrawLane l (if kind = .cal then 3 else 4) s else s
  if kind ≠ .cal ∨ mine then grant s
  else if o.state ≠ .inService then sendControl l 3 0 mtag 2 s
  else match portOfLane s l with
    | some p => if 2 ≤ (thePort s p).width ∧ servingLanes s p = [l] then sendControl l 3 0 mtag 1 s else grant s
    | none => s

/-- A withdrawal of this end goes on: the lane leaves the spray set, or is taken by the circuit that has reserved it
(R230, R264, R281). -/
def goOn (l : Nat) (kind : WdKind) (s : State) : State :=
  if laneState s l = .inService ∨ laneState s l = .withdrawn then
    if kind = .force ∧ (reservedBy s l).isSome then takeGranted l s else withdrawLane l (if kind = .swap then 2 else 1) s
  else s

/-- WD_GRANT of a request of this end (R230, R264). (DESIGN CHOICE, log entry 92.) -/
def wdGrant (l mtag : Nat) (s : State) : State :=
  let k := laneLink s l
  match k.asked with
  | some kind => if k.askTag = mtag then goOn l kind (modLaneLink l (fun k => { k with asked := none }) s) else s
  | none => s

/-- A request of this end is refused or not answered: a slice is skipped, LANE_BANK, LANE_RESET and FLUE_OPEN go on (R229, R245).
(DESIGN CHOICE, log entry 92.) -/
def unanswered (l : Nat) (s : State) : State :=
  match (laneLink s l).asked with
  | some .cal => overdue l (endSlice l 2 (bumpLink l 14 (modLaneLink l (fun k => { k with asked := none }) s)))
  | some .force => goOn l .force (modLaneLink l (fun k => { k with asked := none }) s)
  | _ => s

/-- WD_REFUSE. (DESIGN CHOICE, log entry 92.) -/
def wdRefuse (l mtag : Nat) (s : State) : State := if (laneLink s l).askTag = mtag then unanswered l s else s

/-! ### Rehoming (R265) -/

/-- REHOME_REQ: the last SEQ accepted is answered, the lane stops, and this end asks in its turn.
(DESIGN CHOICE, log entry 97.) -/
def rehomeReq (l mtag : Nat) (s : State) : State :=
  let seq := (laneLink s l).rxSeq
  if laneFrames s l then abruptExit l (queueControl l 5 0 mtag seq s) else sendControl l 5 0 mtag seq s

/-- REHOME_ACK to the last request about a lane: packets after LAST_SEQ are to be sent again whole, ahead of the other packets of
the port, on lanes that R77 chooses; the others are released as delivered. (DESIGN CHOICE, log entry 97.) -/
def rehomeAck (l mtag lastSeq : Nat) (s : State) : State :=
  let k := laneLink s l
  match portOfLane s l with
  | some p =>
    if k.orphans ≠ [] ∧ k.rehomeTag = mtag then
      let s := modLaneLink l (fun k => { k with orphans := [], stopped := k.stopped && laneState s l != .inService }) s
      let s := (k.orphans.filter fun r => !seqAfter r.lastSeq lastSeq).foldl (fun s r => deliver r s) s
      let again := (k.orphans.filter fun r => seqAfter r.lastSeq lastSeq).filterMap fun r => r.info
      pump l (s.modLink fun x => { x with resend := tset x.resend [] p (tget x.resend [] p ++ again) })
    else s
  | none => s

/-! ### Training (R266 to R268) -/

/-- A full training begins, by the capability settings of this instant (R266, R267, R274). -/
def beginTraining (l : Nat) (s : State) : State :=
  match portOfLane s l with
  | some p =>
    let x := thePort s p
    sayCap l false (modLaneLink l (fun k => { k with trainStep := 1, trainVer := x.verMask, trainRate := x.maxRate }) s)
  | none => s

/-- TRAINING_START: the receive ring of a lane that waits has light. (DESIGN CHOICE, log entry 99.) -/
def trainingStart (l : Nat) (s : State) : State :=
  match portOfLane s l with
  | some p =>
    if laneState s l = .training ∧ (laneLink s l).trainStep = 0 ∧ (thePort s p).enabled ∧ barnUp s (barnOf l) then
      beginTraining l s
    else s
  | none => s

/-- TRAIN_FAIL: a step of a full training exceeds its time or finds no common choice. (DESIGN CHOICE, log entry 99.) -/
def trainFail (l : Nat) (cause : TrainFailCause) (s : State) : State :=
  if laneState s l = .training ∧ (laneLink s l).trainStep = 1 then
    bumpLink l 10 (modLaneLink l (fun k => { k with trainStep := 2, trainCause := some cause }) s)
  else s

/-- TRAINING_RESTART: 1 s after a failure. (DESIGN CHOICE, log entries 6, 99.) -/
def trainingRestart (l : Nat) (s : State) : State :=
  if laneState s l = .training ∧ (laneLink s l).trainStep = 2 then beginTraining l s else s

/-- The two ends agree on the shape of the port (R268). -/
def sameShape (x : Port) (base : Nat) (far : FarEnd) : Bool :=
  nfld far.cap.toNat 53 50 == x.width && nfld far.cap.toNat 49 47 == base % 8

/-- Both ends allow a version, v0 or v1, and a RATE code, and step 4 has not failed at it (R268). -/
def bothAllow (x : Port) (far : FarEnd) (v0 : Bool) (rate : Nat) : Bool :=
  let ver := Nat.land x.verMask (nfld far.cap.toNat 63 60)
  let rates := Nat.land (rateMask x) (nfld far.cap.toNat 59 57)
  (if v0 then ver % 2 == 1 && rate != 2 else ver / 2 % 2 == 1 && rate == 2) && rates / 2 ^ rate % 2 == 1 &&
    !(far.fellTo100 && v0 && rate == 1)

/-- The version and rate that two ends choose: whether v0, and the RATE code (R268). (DESIGN CHOICE, log entry 99.) -/
def negotiate (x : Port) (far : FarEnd) : Option (Bool × Nat) :=
  [(false, 2), (true, 1), (true, 0)].find? fun c => bothAllow x far c.1 c.2

/-- The identity check of R234: two markers each way, of the lane of the same wavelength, with its tag (R251, R260). -/
def identityOk (l : Nat) (far : FarEnd) : Bool :=
  decide (2 ≤ far.markersIn) && decide (2 ≤ far.markersOut) && far.lane.toNat % 8 == l % 8 &&
    nfld far.cap.toNat 56 54 == l % 8 && far.tag.toNat == ownTag far.lane.toNat

/-- A lane has trained: the far end's identity is learned and the lane enters service; the first lane of a port brings its link
up (R260, R267, R268, R270). -/
def trained (l p : Nat) (v0 : Bool) (rate : Nat) (far : FarEnd) (s : State) : State :=
  let s := modLaneLink l (fun k => { k with farTag := some far.tag.toNat, seenTag := far.tag.toNat, farDevice := far.deviceTag.toNat, farLane := far.lane.toNat }) s
  let s := setSwing l (modLaneOpt l (fun o => { o with calAt := s.time.now }) s)
  let up := (thePort s p).up
  let s := modPort p (fun x => { x with farId := far.endpointId.toNat, rtt := sat 1023 far.rtt }) s
  if up then joinService l s
  else
    let s := s.modLink fun k => { k with cellsIn := k.cellsIn.filter fun e => e.1 / 8 != p }
    let s := joinService l (modPort p (fun x => { x with up := true, v0 := v0, rate := rate }) s)
    let s := capturePort 1 p ((List.range 8).foldl (fun s c => giveCredit p c s) s)
    if v0 then latBegin p 3 s else s

/-- TRAINING_COMPLETE: shape, version and rate are compared, then the identity; where the port's link is up, only its version
and rate will do (R267, R268). (DESIGN CHOICE, log entry 99.) -/
def trainingComplete (l : Nat) (far : FarEnd) (s : State) : State :=
  match portOfLane s l with
  | none => s
  | some p =>
    if laneState s l = .training ∧ (laneLink s l).trainStep = 1 ∧ barnUp s (barnOf l) then
      let x := thePort s p
      let y := { x with verMask := (laneLink s l).trainVer, maxRate := (laneLink s l).trainRate }
      if !sameShape y p far then trainFail l .portMismatch s
      else if x.up then
        if bothAllow y far x.v0 x.rate ∧ identityOk l far then trained l p x.v0 x.rate far s else s
      else match negotiate y far with
        | none => trainFail l .noCommon s
        | some (v0, rate) => if identityOk l far then trained l p v0 rate far s else s
    else s

/-- EGRESS_UNDERRUN_ABORT: the next bytes of a packet that has begun have not come for 10 µs (R254, R255).
(DESIGN CHOICE, log entry 56.) -/
def underrunAbort (l : Nat) (s : State) : State :=
  match (laneLink s l).tx with
  | some t =>
    if !t.abort ∧ 0 < t.sent ∧ (storedPkt s (barnOf l) t.pid).any (fun x => decide (flitsReady x ≤ t.sent)) then
      let s := match storedPkt s (barnOf l) t.pid with
        | some x => traceStored x { outcome := 3, outPort := t.port, barn := barnOf l, cut := t.cut, selected := some t.selAt,
                                    out := some t.outAt } s
        | none => s
      settleIdle l (pump l (dropRef (barnOf l) t.pid t.port (abortTx l (bumpEg (barnOf l) 4 s))))
    else s
  | none => s

/-! ### Commands (R273, R274, R336) -/

/-- The configured ports that overlap a range of lanes, another base's. -/
def portsOver (s : State) (p w : Nat) : List Nat :=
  (s.link.ports.filter fun e => e.2.configured && e.1 != p && decide (e.1 < p + w) && decide (p < e.1 + e.2.width)).map Prod.fst

/-- An enabled slot in use of a bundle names a port. -/
def slotNames (s : State) (p : Nat) : Bool :=
  s.routing.bundles.any fun e => e.2.valid && (List.range (Nat.min e.2.count 64)).any fun i =>
    (tget e.2.slots {} i).en && (tget e.2.slots {} i).port == p

/-- The entries of a removed port return to their reset values (R274). (DESIGN CHOICE, log entry 100.) -/
def removePort (q : Nat) (s : State) : State :=
  let off {α : Type} (t : Tab α) : Tab α := t.filter fun e => e.1 % 8192 / 8 != q
  let s := s.modLink fun k => { k with ports := tdel k.ports q }
  let s := s.modJobs fun j => { j with portPart := tdel j.portPart q }
  let s := s.modTime fun t => { t with ports := tdel t.ports q }
  s.modSched fun d =>
    { d with shapers := off d.shapers, profiles := off d.profiles, policers := off d.policers,
             shaperPend := d.shaperPend.filter fun k => k / 8 != q, policerPend := d.policerPend.filter fun e => e.1 / 8 != q }

/-- A LANE_UNBANK in progress on a lane of a port that is disabled ends ABORTED. (DESIGN CHOICE, log entry 100.) -/
def endUnbank (l : Nat) (s : State) : State :=
  match (laneOpt s l).unbankCmd with
  | some c => endWith c St.aborted 0 (modLaneOpt l (fun o => { o with unbankCmd := none }) s)
  | none => s

/-- The lanes of an enabled port that are not banked begin to train; those of a disabled one are DOWN, whatever their state
(R274). (DESIGN CHOICE, log entry 100.) -/
def portLanesTo (p : Nat) (x : LaneState) (s : State) : State :=
  (portLanes s p).foldl (fun s l =>
    if laneState s l = .flue ∨ (laneState s l = .banked ∧ x ≠ .down) then s
    else
      let s := if laneState s l = .banked then
          leaveSwap l (endUnbank l (modLaneOpt l (fun o => { o with recovering := false, lockFails := 0, excluded := [] }) s))
        else s
      setLane l x (modLaneLink l (fun k => { k with trainStep := 0 }) s)) s

/-- A lane of a configured port, or of one to be removed, is given to a circuit (R274, R278). -/
def holdsFlue (s : State) (p w : Nat) : Bool :=
  (p :: portsOver s p w).any fun q =>
    (List.range (if q = p then Nat.max w (thePort s p).width else (thePort s q).width)).any fun i => laneState s (q + i) == .flue

/-- PORT_CONFIG (R6, R204, R274). (DESIGN CHOICE, log entries 86, 100.) -/
def portConfig (args : List Word) (s : State) : Res :=
  let p := argN args 1
  let w := argN args 2
  let en := argN args 3 == 1
  let ver := argN args 4
  let rate := argN args 5
  let old := thePort s p
  let over_ := portsOver s p w
  if 1024 ≤ p then cmdRefuse St.badArgument 1 s
  else if !(w == 1 || w == 2 || w == 4 || w == 8) then cmdRefuse St.badArgument 2 s
  else if p % w ≠ 0 then cmdRefuse St.badArgument 1 s
  else if 1 < argN args 3 then cmdRefuse St.badArgument 3 s
  else if ver = 0 ∨ 3 < ver then cmdRefuse St.badArgument 4 s
  else if 2 < rate ∨ (ver = 2 ∧ rate < 2) then cmdRefuse St.badArgument 5 s
  else if over_.any fun q => (thePort s q).enabled then cmdRefuse St.badArgument 1 s
  else if old.configured ∧ old.enabled ∧ old.width ≠ w then cmdRefuse St.badArgument 2 s
  else if holdsFlue s p w then cmdRefuse St.busy 0 s
  else if en ∧ wholeScratch s (barnOf p) then cmdRefuse St.busy 0 s
  else if over_.any fun q => slotNames s q then cmdRefuse St.busy 0 s
  else
    let was := old.configured && old.enabled
    let s := over_.foldl (fun s q => removePort q s) s
    let s := if was && !en then portLanesTo p .down (linkDown p s) else s
    let s := modPort p (fun x => { x with configured := true, width := w, enabled := en, verMask := ver, maxRate := rate }) s
    cmdOk (if en && !was && barnUp s (barnOf p) then portLanesTo p .training s else s)

/-- The status word of a port (R273). (DESIGN CHOICE, log entry 100.) -/
def linkWord (s : State) (p : Nat) : Nat :=
  let x := thePort s p
  if x.configured then
    let mask := ((List.range x.width).map fun i => if laneState s (p + i) = .inService then 2 ^ i else 0).sum
    packN [(63, bit x.up), (62, bit x.v0), (60, x.rate), (52, mask), (48, x.width), (38, p), (14, x.farId), (4, x.rtt)]
  else packN [(38, p)]

/-- LINK_STATUS_READ. (DESIGN CHOICE, log entry 100.) -/
def linkStatusRead (args : List Word) (s : State) : Res :=
  let first := argN args 1
  let n := argN args 2
  if 1024 ≤ first then cmdRefuse St.badArgument 1 s
  else if n < 1 ∨ 1024 < first + n then cmdRefuse St.badArgument 2 s
  else cmdOk (hostWrite (arg64 args 3) ((List.range n).flatMap fun i => leBytes 8 (linkWord s (first + i))) s)

/-- LANE_RESET (R336). (DESIGN CHOICE, log entry 23; DEDUCED, log entry 91.) -/
def laneReset (c : CmdRef) (args : List Word) (s : State) : Res :=
  let l := argN args 1
  if 1024 ≤ l then cmdRefuse St.badArgument 1 s
  else match laneState s l, portOfLane s l with
    | .inService, some p =>
      if servingLanes s p = [l] then
        let s := linkDown p s
        cmdOk (setLane l .training s)
      else
        let s := modLaneOpt l (fun o => { o with resetCmd := some c }) (addDetached c .none s)
        (settleIdle l (askWithdraw l .force s), none)
    | .withdrawn, _ => cmdRefuse St.busy 0 s
    | .training, _ => cmdRefuse St.busy 0 s
    | _, _ => cmdRefuse St.badArgument 1 s

/-! ### Meanings -/

/-- PORT_CONFIG. -/
def execPortConfig (h : CmdHdr) (args : List Word) (s : State) : Host.Outcome State Fault Refusal :=
  runMailbox ⟨0x0A01, 1, true⟩ (fun _ => 5) (fun _ s => portConfig args s) h args s
/-- LINK_STATUS_READ. -/
def execLinkStatusRead (h : CmdHdr) (args : List Word) (s : State) : Host.Outcome State Fault Refusal :=
  runMailbox ⟨0x0A02, 3, true⟩ (fun _ => 4) (fun _ s => linkStatusRead args s) h args s
/-- LANE_RESET. -/
def execLaneReset (h : CmdHdr) (args : List Word) (s : State) : Host.Outcome State Fault Refusal :=
  runMailbox ⟨0x0D0D, 1, true⟩ (fun _ => 1) (fun c s => laneReset c args s) h args s
/-- NAK_RESEND_TIMER. -/
def execNakResendTimer (lane : Fin 1024) (s : State) : Host.Outcome State Fault Refusal := .next (nakResend lane s)
/-- REPLAY_TIMEOUT. -/
def execReplayTimeout (lane : Fin 1024) (s : State) : Host.Outcome State Fault Refusal := .next (replayTimeout lane s)
/-- LINK_RETRY_EXHAUSTED. -/
def execLinkRetryExhausted (lane : Fin 1024) (s : State) : Host.Outcome State Fault Refusal := .next (retryExhausted lane s)
/-- FEC_EXIT. -/
def execFecExit (lane : Fin 1024) (s : State) : Host.Outcome State Fault Refusal := .next (fecExit lane s)
/-- FRAME_LOSS. -/
def execFrameLoss (lane : Fin 1024) (s : State) : Host.Outcome State Fault Refusal := .next (frameLoss lane false s)
/-- LOSS_OF_SIGNAL: counted FRAME_LOSS (R259). -/
def execLossOfSignal (lane : Fin 1024) (s : State) : Host.Outcome State Fault Refusal := .next (frameLoss lane true s)
/-- MARKER_SEND. -/
def execMarkerSend (lane : Fin 1024) (s : State) : Host.Outcome State Fault Refusal := .next (markerSend lane s)
/-- ALIGNMENT_SLOT_RX. An alignment slot has 256 bytes (R262). -/
def execAlignmentSlotRx (lane : Fin 1024) (bytes : List Byte) (s : State) : Host.Outcome State Fault Refusal :=
  if bytes.length = 256 then .next (alignmentSlot lane bytes s) else .refused .illFormed
/-- TX_FAULT. -/
def execTxFault (lane : Fin 1024) (s : State) : Host.Outcome State Fault Refusal := .next (txFault lane s)
/-- WD_REQ. -/
def execWdReq (lane : Fin 1024) (kind : WdKind) (mtag : BitVec 16) (s : State) : Host.Outcome State Fault Refusal :=
  .next (wdReq lane kind mtag.toNat s)
/-- WD_GRANT. -/
def execWdGrant (lane : Fin 1024) (mtag : BitVec 16) (s : State) : Host.Outcome State Fault Refusal :=
  .next (wdGrant lane mtag.toNat s)
/-- WD_REFUSE: what follows is the same for every REASON (R229). -/
def execWdRefuse (lane : Fin 1024) (mtag : BitVec 16) (_reason : Byte) (s : State) : Host.Outcome State Fault Refusal :=
  .next (wdRefuse lane mtag.toNat s)
/-- WD_ANSWER_TIMEOUT. -/
def execWdAnswerTimeout (lane : Fin 1024) (s : State) : Host.Outcome State Fault Refusal := .next (unanswered lane s)
/-- REHOME_REQ. -/
def execRehomeReq (lane : Fin 1024) (mtag : BitVec 16) (s : State) : Host.Outcome State Fault Refusal :=
  .next (rehomeReq lane mtag.toNat s)
/-- REHOME_ACK. -/
def execRehomeAck (lane : Fin 1024) (answer : RehomeAnswer) (s : State) :
    Host.Outcome State Fault Refusal := .next (rehomeAck lane answer.mtag.toNat answer.lastSeq.toNat s)
/-- TRAINING_START. -/
def execTrainingStart (lane : Fin 1024) (s : State) : Host.Outcome State Fault Refusal := .next (trainingStart lane s)
/-- TRAIN_FAIL. -/
def execTrainFail (lane : Fin 1024) (cause : TrainFailCause) (s : State) : Host.Outcome State Fault Refusal :=
  .next (trainFail lane cause s)
/-- TRAINING_RESTART. -/
def execTrainingRestart (lane : Fin 1024) (s : State) : Host.Outcome State Fault Refusal := .next (trainingRestart lane s)
/-- TRAINING_COMPLETE. -/
def execTrainingComplete (lane : Fin 1024) (far : FarEnd) (s : State) : Host.Outcome State Fault Refusal :=
  .next (trainingComplete lane far s)
/-- EGRESS_UNDERRUN_ABORT. -/
def execEgressUnderrunAbort (lane : Fin 1024) (s : State) : Host.Outcome State Fault Refusal := .next (underrunAbort lane s)

end Sys2Proof.Machine
end

