-- ==== Sys2Proof/Machine/Flue.lean ====
section
/-! DEFINITION. Flue circuits: setting up, connecting, retuning, closing, status (R275 to R294). -/

namespace Sys2Proof.Machine

/-! ### The choice of lanes (R278, R280) -/

/-- A lane is DOWN, reserved by no request in progress, and belongs to no enabled port. (DESIGN CHOICE, log entry 101.) -/
def downAndFree (s : State) (l : Nat) : Bool :=
  laneState s l == .down && (reservedBy s l).isNone && (match portOfLane s l with
    | some p => !(thePort s p).enabled
    | none => true)

/-- A lane may be taken from its enabled port: another lane of it stays in service. (DESIGN CHOICE, log entry 101.) -/
def takeable (s : State) (l : Nat) : Bool :=
  laneState s l == .inService && (reservedBy s l).isNone && (match portOfLane s l with
    | some p => decide (2 ≤ (thePort s p).width) && (servingLanes s p).any (· != l)
    | none => false)

/-- The wavelength that R280 chooses. (DESIGN CHOICE, log entry 101.) -/
def chooseK (s : State) (fa fb mask : Nat) (take : Bool) : Option Nat :=
  let ks := (List.range 8).filter fun k => mask / 2 ^ k % 2 == 1
  let both (k : Nat) : Bool := downAndFree s (8 * fa + k) && downAndFree s (8 * fb + k)
  let ok (l : Nat) : Bool := downAndFree s l || (take && takeable s l)
  match ks.find? both with
  | some k => some k
  | none => ks.find? fun k => ok (8 * fa + k) && ok (8 * fb + k)

/-- A reserved lane is taken: a DOWN lane is FLUE at once, one in service once the far end grants its withdrawal (R281).
(DESIGN CHOICE, log entry 101.) -/
def takeLane (l : Nat) (s : State) : State :=
  if laneState s l = .inService then askWithdraw l .force (skipSlice l s) else setLane l .flue s

/-! ### Close (R283, R286, R291) -/

/-- A lane of a setup that has not drained leaves its port abruptly: what it was sending is rehomed.
(DESIGN CHOICE, log entry 101.) -/
def dropDrain (l : Nat) (s : State) : State :=
  if (laneOpt s l).draining then leaveAbrupt l false (modLaneOpt l (fun o => { o with draining := false }) s) else s

/-- The setup of a circuit is cut short (R283, R286, R292). -/
def cutSetup (c : Nat) (r : Reply) (s : State) : State :=
  let x := theCirc s c
  setupRefused c r (dropDrain (circLaneB x) (dropDrain (circLaneA x) s))

/-- Closes a circuit that is not FREE: one that has carried light sends CLOSED to both ends, and a setup in progress ends
ABORTED (R286, R291). (DESIGN CHOICE, log entry 101.) -/
def closeCirc (c : Nat) (s : State) : State :=
  if (theCirc s c).cmd.isSome then cutSetup c { status := St.aborted, detail := 0, result := [] } s
  else freeCirc c (if 3 ≤ (theCirc s c).state then flueNotice c 3 s.time.now (emit (.light c false) s) else s)

/-! ### Commands (R279 to R283, R293, R294) -/

/-- The circuit that a request descriptor asks for. -/
def circOf (f : List Word) : Circuit :=
  let w (i : Nat) : Word := f.getD i 0
  { state := 0, fibreA := fld (w 0) 24 18, fibreB := fld (w 0) 17 11, endA := fld (w 1) 31 8, endB := fld (w 2) 31 8,
    partition := fld (w 3) 31 20, outLossA := fld (w 3) 19 14, outLossB := fld (w 3) 13 8,
    rxSens := (BitVec.ofNat 8 (fld (w 3) 7 0)).toInt, leadMs := if fld (w 4) 31 16 = 0 then 10 else fld (w 4) 31 16 }

/-- A refused FLUE_OPEN. (DESIGN CHOICE, log entry 103.) -/
def openRefused (st d : Nat) (s : State) : Res := cmdRefuse st d (bumpFlue 5 s)

/-- FLUE_OPEN: from the request to READY, or to its refusal. (DESIGN CHOICE, log entries 18, 23, 101.) -/
def flueOpen (c : CmdRef) (args : List Word) (m : FlueMeas) (s : State) : Res :=
  let f := wordsOf (hostRead s (arg64 args 1) 32)
  let f0 := f.getD 0 0
  let i := fld f0 31 25
  let x := circOf f
  let mask := fld f0 10 3
  if (theCirc s i).state ≠ 0 then openRefused St.busy 0 s
  else if x.fibreA = x.fibreB ∨ mask = 0 ∨ 40 < x.outLossA ∨ 40 < x.outLossB ∨ 100 < x.leadMs ∨
      genExt x.endA ≠ 0 ∨ genExt x.endB ≠ 0 then openRefused St.badArgument 1 s
  else if (thePart s x.partition).state = 2 then openRefused St.partitionRetiring 0 s
  else if wholeScratch s (barnOf (8 * x.fibreA)) || wholeScratch s (barnOf (8 * x.fibreB)) then openRefused St.busy 0 s
  else match chooseK s x.fibreA x.fibreB mask (bitAt f0 2) with
    | none => openRefused St.noWavelength 0 s
    | some k =>
      let takenA := !downAndFree s (8 * x.fibreA + k)
      let takenB := !downAndFree s (8 * x.fibreB + k)
      let x := { x with k := k, takenA := takenA, takenB := takenB, cmd := some c, meas := some m, connectPend := bitAt f0 1 }
      let s := addDetached c .none (circTo i 1 (modCirc i (fun _ => x) s))
      (finishSetup i (takeLane (circLaneB x) (takeLane (circLaneA x) s)), none)

/-- FLUE_SWITCH. (DESIGN CHOICE, log entry 102.) -/
def flueSwitch (args : List Word) (s : State) : Res :=
  let c := argN args 1
  if 128 ≤ c then cmdRefuse St.badArgument 1 s
  else match connectCirc c s with
    | (2, s) => cmdRefuse St.badArgument 1 s
    | (_, s) => cmdOk s

/-- FLUE_CLOSE. -/
def flueClose (args : List Word) (s : State) : Res :=
  let c := argN args 1
  if 128 ≤ c ∨ (theCirc s c).state = 0 then cmdRefuse St.badArgument 1 s
  else cmdOk (closeCirc c s)

/-- The status word of a circuit (R293). -/
def circWord (s : State) (c : Nat) : Nat :=
  let x := theCirc s c
  let st := circState s c
  packN [(61, st), (54, c), (47, x.fibreA), (40, x.fibreB), (37, x.k), (36, bit x.takenA), (35, bit x.takenB),
    (24, x.ilMax), (16, (x.marginMin % 256).toNat), (0, if st = 3 then secOf x.nextAt % 65536 else 0)]

/-- FLUE_STATUS_READ. -/
def flueStatusRead (args : List Word) (s : State) : Res :=
  let first := argN args 1
  let n := argN args 2
  if 128 ≤ first then cmdRefuse St.badArgument 1 s
  else if n < 1 ∨ 128 < first + n then cmdRefuse St.badArgument 2 s
  else cmdOk (hostWrite (arg64 args 3) ((List.range n).flatMap fun i => leBytes 8 (circWord s (first + i))) s)

/-! ### Retunes (R287 to R289) -/

/-- FLUE_READY_RETUNE: steps 4 to 6 again. A circuit that no longer closes is FAILED; a connect that waits switches over.
(DESIGN CHOICE, log entry 102.) -/
def readyRetune (c : Nat) (m : FlueMeas) (s : State) : State :=
  if (theCirc s c).state = 2 ∧ circState s c = 1 then
    match tuningFails c m (circTo c 1 s) with
    | (some _, s) => circTo c 5 (modCirc c (fun x => { x with connectPend := false, darkA := true, darkB := true }) s)
    | (none, s) =>
      let s := circTo c 2 (modCirc c (fun x => { x with since := s.time.now }) s)
      if (theCirc s c).connectPend then switchOver c s else s
  else s

/-- FLUE_RETUNE_NOTICE: LEAD_MS before T_n, once (R288). (DESIGN CHOICE, log entry 104.) -/
def retuneNotice (c : Nat) (s : State) : State :=
  let x := theCirc s c
  if x.state = 3 ∧ x.noticeAt ≠ some x.nextAt ∧ x.nextAt ≤ s.time.now + usU (1000 * x.leadMs) ∧ circReady s x then
    flueNotice c 1 x.nextAt (modCirc c (fun x => { x with noticeAt := some x.nextAt }) s)
  else s

/-- A direction of a retune: 0 locked, 1 no light, 2 the ring fails. (DESIGN CHOICE, log entry 103.) -/
def dirOutcome (light lock : Bool) : Nat := if !light then 1 else if lock then 0 else 2

/-- A ring that has light and does not lock is reported (R289). (DESIGN CHOICE, log entry 103.) -/
def ringFails (c fibre ring : Nat) (d : Nat) (s : State) : State :=
  if d = 2 then report (flueFault 0x0B02 2 c fibre ring) s else s

/-- FLUE_RETUNE of a live circuit at its instant T_n (R288, R289). (DESIGN CHOICE, log entries 102, 104.) -/
def liveRetune (c : Nat) (m : FlueMeas) (s : State) : State :=
  if (theCirc s c).state = 3 ∧ circState s c = 4 then
    let s := bumpFlue 0 (emit (.light c false) (circTo c 4 s))
    let x := theCirc s c
    let a := dirOutcome m.lightA m.lockA
    let b := dirOutcome m.lightB m.lockB
    let dark := bit (a == 1) + bit (b == 1)
    let s := if dark = 0 then s else bumpBy (ctr 0x11 0 2) dark s
    let ms := (if a = 0 then [marginAB s x m] else []) ++ (if b = 0 then [marginBA s x m] else [])
    let s := recordMeas c ((if a = 0 then [m.ilAB] else []) ++ (if b = 0 then [m.ilBA] else [])) ms s
    let s := if ms.any (fun v => decide (v < 50)) then report (flueFault 0x0B03 1 c x.fibreA 0) (bumpFlue 1 s) else s
    let s := modCirc c (fun x => { x with retunes := x.retunes + 1 }) s
    if a = 2 ∨ b = 2 then
      let s := circTo c 5 (modCirc c (fun x => { x with darkA := a == 2, darkB := b == 2, nextAt := 0 }) s)
      let s := flueNotice c 2 s.time.now (if a = 2 ∧ b = 2 then s else emit (.light c true) s)
      ringFails c x.fibreB (circLaneB x) b (ringFails c x.fibreA (circLaneA x) a s)
    else
      let n := (s.time.now - x.since) / retuneGap + 1
      emit (.light c true) (circTo c 3 (modCirc c (fun x => { x with nextAt := x.since + n * retuneGap }) s))
  else s

/-- FLUE_LOS: incoming light of a live circuit is lost on FR A or FR B (R289). -/
def flueLos (c : Nat) (s : State) : State :=
  if circState s c = 3 then capture 18 c (bumpFlue 3 s) else s

/-! ### Meanings -/

/-- FLUE_OPEN. -/
def execFlueOpen (h : CmdHdr) (args : List Word) (meas : FlueMeas) (s : State) : Host.Outcome State Fault Refusal :=
  runMailbox ⟨0x0B01, 1, true⟩ (fun _ => 2) (fun c s => flueOpen c args meas s) h args s
/-- FLUE_SWITCH. -/
def execFlueSwitch (h : CmdHdr) (args : List Word) (s : State) : Host.Outcome State Fault Refusal :=
  runMailbox ⟨0x0B02, 1, true⟩ (fun _ => 1) (fun _ s => flueSwitch args s) h args s
/-- FLUE_CLOSE. -/
def execFlueClose (h : CmdHdr) (args : List Word) (s : State) : Host.Outcome State Fault Refusal :=
  runMailbox ⟨0x0B03, 1, true⟩ (fun _ => 1) (fun _ s => flueClose args s) h args s
/-- FLUE_STATUS_READ. -/
def execFlueStatusRead (h : CmdHdr) (args : List Word) (s : State) : Host.Outcome State Fault Refusal :=
  runMailbox ⟨0x0B04, 3, true⟩ (fun _ => 4) (fun _ s => flueStatusRead args s) h args s
/-- FLUE_READY_RETUNE. -/
def execFlueReadyRetune (circuit : Fin 128) (meas : FlueMeas) (s : State) : Host.Outcome State Fault Refusal :=
  .next (readyRetune circuit meas s)
/-- FLUE_RETUNE_NOTICE. -/
def execFlueRetuneNotice (circuit : Fin 128) (s : State) : Host.Outcome State Fault Refusal :=
  .next (retuneNotice circuit s)
/-- FLUE_RETUNE. -/
def execFlueRetune (circuit : Fin 128) (meas : FlueMeas) (s : State) : Host.Outcome State Fault Refusal :=
  .next (liveRetune circuit meas s)
/-- FLUE_LOS: the effect is the same on either fibre. -/
def execFlueLos (circuit : Fin 128) (_sideB : Bool) (s : State) : Host.Outcome State Fault Refusal :=
  .next (flueLos circuit s)

end Sys2Proof.Machine
end

