-- ==== Sys2Proof/Machine/Terminate.lean ====
section
/-! DEFINITION. Packets that the device terminates, beside those of the collectives (R43, R49, R53 to R57, R438). -/

namespace Sys2Proof.Machine

/-! ### Status codes of answers (R42) -/

def Ans.ok : Nat := 0
def Ans.nakCheck : Nat := 1
def Ans.refusedPermission : Nat := 2
def Ans.refusedRange : Nat := 3
def Ans.notRetained : Nat := 4

/-- The base of context space (R45, R54). (DESIGN CHOICE, log entry 69.) -/
def ctxSpace : Nat := 0x0100000000000000

/-- The checks of R55 on a Granary access of `n` bytes. (DESIGN CHOICE, log entry 138.) -/
def granaryCheck (s : State) (partition a n : Nat) (wr : Bool) : Nat :=
  if n = 0 ∨ a % 16 ≠ 0 then Ans.refusedRange
  else match windowAt s a with
    | some (_, w) =>
      if w.partition ≠ partition ∨ (if wr then w.wr else w.rd) = false then Ans.refusedPermission
      else if w.base + w.size < a + n then Ans.refusedRange
      else Ans.ok
    | none => Ans.refusedPermission

/-- WRITE_DONE of a WRITE (R43). -/
def writeDone (b : Nat) (h : Header) (status : Nat) (s : State) : State :=
  if h.ackReq then
    send b (ownHeader s Kind.writeDone h.tc false h.partition h.srcId 0 0 h.w4 h.w5
      (pack [(16, h.tag), (8, status)]) 0) [] none s
  else s

/-- A WRITE at the memory sink (R53 to R57). (DESIGN CHOICE, log entries 137, 138.) -/
def writeTaken (port : Nat) (p : Packet) (s : State) : State :=
  let h := p.hdr
  let b := (sinkFor s h).1
  let a := h.remoteAddr
  let n := 16 * h.len
  if !crcOk p then writeDone b h Ans.nakCheck (termCrcFail port p s)
    else if a < granarySize then
      let st := granaryCheck s h.partition a n true
      if st = Ans.ok then writeDone b h st (cacheRange h.hint a n true (daWrite a p.payload s))
      else writeDone b h st s
    else writeDone b h (if a / 2 ^ 56 = 1 then Ans.refusedPermission else Ans.refusedRange) s

/-- TERM_WRITE. (DESIGN CHOICE, log entries 137, 138.) -/
def termWrite (port : Nat) (p : Packet) (s : State) : State :=
  let h := p.hdr
  if h.ver < 2 ∧ h.kind = Kind.write ∧ !h.mc ∧ payloadFits p then atSink p (writeTaken port p) s else s

/-- READ_DATA of a READ (R43). (DESIGN CHOICE, log entry 138.) -/
def readData (b : Nat) (h : Header) (status : Nat) (data : List Byte) (s : State) : State :=
  send b (ownHeader s Kind.readData h.tc false h.partition h.srcId (data.length / 16) 0 h.w6 h.w7 (pack [(8, status)]) 0)
    data none s

/-- The retained result that a READ of a sheaf number names: the one released last, within its retention interval
at an instant (R56). -/
def lastRetained (t : Nat) (x : Ctx) (n : Nat) : Option Retained :=
  let l := x.retained.filter fun r => withinRetention t x r && !r.upPartial && r.sheaf == n
  l.foldl (fun m r => match m with
    | none => some r
    | some q => if q.releasedAt ≤ r.releasedAt then some r else some q) none

/-- The answer to a READ in context space whose trailer was verified at an instant (R56, R312): its status and the result.
(DESIGN CHOICE, log entry 69.) -/
def ctxReadCheck (s : State) (t : Nat) (h : Header) : Nat × Option Retained :=
  let x := theCtx s (h.remoteAddr / 2 ^ 44 % 4096)
  let off := h.remoteAddr % 2 ^ 44
  if h.len = 0 then (Ans.refusedRange, none)
  else if !ctxUsed x ∨ ctxPartition x ≠ h.partition then (Ans.refusedPermission, none)
  else if off % ctxS x ≠ 0 ∨ ctxN x ≤ off / ctxS x ∨ 2 ^ 44 < off + 16 * h.len then (Ans.refusedRange, none)
  else if x.state = .retiring then (Ans.notRetained, none)
  else match lastRetained t x (off / ctxS x) with
    | none => (Ans.notRetained, none)
    | some r => if 16 * h.len ≠ r.payload.length then (Ans.refusedRange, none) else (Ans.ok, some r)

/-- A READ at the memory sink (R43, R54 to R56, R151, R377); `ue` when the data read is uncorrectable.
(DESIGN CHOICE, log entries 89, 137.) -/
def readTaken (port : Nat) (p : Packet) (ue : Bool) (t : Nat) (s : State) : State :=
  let h := p.hdr
  let b := (sinkFor s h).1
  let a := h.remoteAddr
  let n := 16 * h.len
  let c := a / 2 ^ 44 % 4096
  if !crcOk p then termCrcFail port p s
    else if h.len = 0 then readData b h Ans.refusedRange [] s
    else if a < granarySize then
      let st := granaryCheck s h.partition a n false
      if st ≠ Ans.ok then readData b h st [] s
      else if ue then readData b h Ans.nakCheck [] (memUE a h.partition none s)
      else
        let data := daRead s a n
        readData b h st data (cacheRange h.hint a n false s)
    else if a / 2 ^ 56 = 1 then
      match ctxReadCheck s t h with
      | (st, none) => readData b h st [] s
      | (st, some r) =>
        if ue then
          recallRun c 1 { first := r.index, log := 0, count := 1 } (readData b h Ans.nakCheck [] s)
        else readData b h st r.payload s
    else readData b h Ans.refusedRange [] s

/-- TERM_READ. (DESIGN CHOICE, log entries 89, 137.) -/
def termRead (port : Nat) (p : Packet) (ue : Bool) (s : State) : State :=
  let h := p.hdr
  if h.ver < 2 ∧ h.kind = Kind.read ∧ !h.mc ∧ payloadFits p then atSink p (readTaken port p ue (sunkTime p s)) s else s

/-- CONTROL_PKT: header and payload go to the host (R49, R363). (DESIGN CHOICE, log entry 137.) -/
def controlPkt (port : Nat) (p : Packet) (s : State) : State :=
  let h := p.hdr
  if h.ver < 2 ∧ h.kind = Kind.control ∧ !h.mc ∧ payloadFits p then
    atSink p (fun s =>
      if crcOk p then post 0x03 (packetBody h h.pktBytes) (some p.wire) s else termCrcFail port p s) s
  else s

/-- A terminated packet that answers nothing the device sent (R438). -/
def answersNothing (s : State) (h : Header) : Bool :=
  h.kind == Kind.readData || (h.kind == Kind.writeDone && !h.ackReq) ||
  (h.kind == Kind.notice &&
    !((decide (1 ≤ h.code ∧ h.code ≤ 3) && relaysOf s h.srcId h.ctxId != []) || fromRelay s h))

/-- TERM_UNEXPECTED (R438). -/
def termUnexpected (port : Nat) (p : Packet) (s : State) : State :=
  let h := p.hdr
  if h.ver < 2 ∧ !h.mc ∧ payloadFits p ∧ answersNothing s h then
    atSink p (fun s => if crcOk p then bumpIn (barnOf port) 32 s else termCrcFail port p s) s
  else s

/-- TERM_WRITE. -/
def execTermWrite (port : Fin 1024) (pkt : Packet) (s : State) : Host.Outcome State Fault Refusal :=
  .next (termWrite port pkt s)
/-- TERM_READ. -/
def execTermRead (port : Fin 1024) (pkt : Packet) (ue : Bool) (s : State) : Host.Outcome State Fault Refusal :=
  .next (termRead port pkt ue s)
/-- CONTROL_PKT. -/
def execControlPkt (port : Fin 1024) (pkt : Packet) (s : State) : Host.Outcome State Fault Refusal :=
  .next (controlPkt port pkt s)
/-- TERM_UNEXPECTED. -/
def execTermUnexpected (port : Fin 1024) (pkt : Packet) (s : State) : Host.Outcome State Fault Refusal :=
  .next (termUnexpected port pkt s)

end Sys2Proof.Machine
end

