-- ==== Sys2Proof/Machine/Kindle.lean ====
section
/-! DEFINITION. The Kindling table: its actions, execution, arming and disarming (R312 to R322), and the start and the
packets of a seed (R332). -/

namespace Sys2Proof.Machine

/-! ### Seeds being sent (R331, R332) -/

/-- A seed. -/
def theSeed (s : State) (i : Nat) : Seed := tget s.jobs.seeds {} i

/-- Changes a seed. -/
def modSeed (i : Nat) (f : Seed → Seed) (s : State) : State :=
  s.modJobs fun j => { j with seeds := tmod j.seeds {} i f }

/-- The seed in use that a SEED_ID names; they are unique among seeds that are not FREE. -/
def seedNamed (s : State) (id : Nat) : Option (Nat × Seed) :=
  s.jobs.seeds.find? fun e => e.2.state != 0 && e.2.seedId == id

/-- The multicast WRITE packet of image bytes from `sent` on (R332). -/
def seedHeader (s : State) (x : Seed) (len : Nat) : Header :=
  let a := (x.remote + x.sent) % 2 ^ 64
  ownHeader s Kind.write x.tc true x.partition 0 (len / 16) x.treeId (w32 (a / 2 ^ 32)) (w32 a) 0 0

/-- SEED_PACKET_SEND: the next image packet is read and multicast from its granule's home barn, once that is out of
reset. An uncorrectable granule is not sent (R332, R377). (DESIGN CHOICE, log entry 113.) -/
def seedPacket (i : Nat) (ue : Bool) (s : State) : State :=
  let x := theSeed s i
  if x.state = 2 ∧ x.sent < x.length ∧ barnUp s (granHome (x.offset + x.sent)) then
    let n := Nat.min 4096 (x.length - x.sent)
    let o := x.offset + x.sent
    let pid := s.core.nextPid
    let s :=
      if ue then memUE o x.partition none s
      else originate (granHome o) (seedHeader s x n) (daRead s o n) none s
    settleSeeds (modSeed i (fun x => { x with
      sent := x.sent + n, lastPid := if s.core.nextPid = pid then x.lastPid else some pid }) s)
  else s

/-! ### Actions (R315) -/

/-- What an action came to: performed, refused by its target, or waiting for READY (R318). -/
inductive Acted where
  | done
  | refused
  | delayed
  deriving DecidableEq, Repr

/-- ROUTE_COMMIT: flips where the non-active version is SEALED (R71). (DEDUCED, log entry 45.) -/
def actCommit (s : State) : Acted × State :=
  if nonActiveNow s = .sealedV then (.done, flip s.time.now s) else (.refused, s)

/-- The Flue switch-over action: connects or closes (R285, R286). -/
def actFlue (argw : Word) (s : State) : Acted × State :=
  let c := fld argw 6 0
  if bitAt argw 31 then
    if (theCirc s c).state = 0 then (.refused, s) else (.done, closeCirc c s)
  else match connectCirc c s with
    | (0, s) => (.done, s)
    | (1, s) => (.delayed, s)
    | (_, s) => (.refused, s)

/-- Results that waited for the release of their epoch leave in index order (R146). -/
def sendReleased (c : Nat) (s : State) : State :=
  let x := theCtx s c
  let gs := sortNat ((x.opens.filter fun o => o.2.phase == .gated && !gatedNow x (epochOf x o.1)).map Prod.fst)
  gs.foldl (fun s g =>
    let x := theCtx s c
    match retOf x g with
    | some r => sendResult c g r.payload r.tally (modRet c g (fun r => { r with waiting := false }) s)
    | none => proceed c g s) s

/-- The collective release of an epoch (R146). -/
def actRelease (argw : Word) (s : State) : Acted × State :=
  let c := fld argw 31 20
  let e := fld argw 15 0
  let x := theCtx s c
  let ahead := (e + 65536 - x.released) % 65536
  if x.state = .active ∧ 1 ≤ ahead ∧ ahead ≤ 32767 then
    (.done, sendReleased c (modCtx c (fun x => { x with released := e }) s))
  else (.refused, s)

/-- An entry of a partition may act on an object of a partition: its owner, or partition 0x000 (R315). -/
def mayAct (p owner : Nat) : Bool := p == 0 || p == owner

/-- The multicast release: a held harvest output, or the image of a READY seed of an ACTIVE partition (R182, R332).
(DESIGN CHOICE, log entries 77, 113; DEDUCED, log entry 112.) -/
def actMcRelease (p : Nat) (argw : Word) (s : State) : Acted × State :=
  let id := fld argw 15 0
  if bitAt argw 31 then
    match seedNamed s id with
    | some (i, x) =>
      if x.state = 1 ∧ partActive s x.partition ∧ mayAct p x.partition then
        (.done, modSeed i (fun x => { x with state := 2, sent := 0, lastPid := none }) s)
      else (.refused, s)
    | none => (.refused, s)
  else match s.thresh.heldOut.find? fun h => h.id == id with
    | some h =>
      if mayAct p (fld (h.desc.getD 0 0) 31 20) then
        (.done, sendHeld h (s.modThresh fun t => { t with heldOut := t.heldOut.filter fun g => g != h }))
      else (.refused, s)
    | none => (.refused, s)

/-- The payload of a TIMED notice (R320). (DEDUCED, log entry 112.) -/
def timedPayload (t occurrence : Nat) (late : Bool) : List Byte :=
  wordsBe [w32 (secOf t / 65536), pack [(16, secOf t % 65536), (15, bit late)], pack [(2, nsOf t)], w32 occurrence]

/-- NOTICE TIMED of an entry, on a tree of its partition or to one endpoint (R320). -/
def actTimed (i : Nat) (k : KEntry) (t occurrence : Nat) (late : Bool) (s : State) : Acted × State :=
  let p := kPartition k
  let mc := bitAt (kArg k) 31
  let tree := fld (kArg k) 13 0
  let x := tget s.routing.trees {} tree
  if mc && !(x.valid && x.partition == p) then (.refused, s)
  else
    let h := ownHeader s Kind.notice 7 mc p (if mc then 0 else fld (kArg k) 23 0) 1 (if mc then tree else 0)
      (pack [(8, 0x10), (0, 1)]) (w32 i) (kArg2 k) 0
    (.done, send (8 * liveHalf s) h (timedPayload t occurrence late) none s)

/-- The action of an entry (R315). -/
def act (i : Nat) (k : KEntry) (t occurrence : Nat) (late : Bool) (s : State) : Acted × State :=
  match kAction k with
  | 1 => actCommit s
  | 2 => actFlue (kArg k) s
  | 3 => actRelease (kArg k) s
  | 4 => actMcRelease (kPartition k) (kArg k) s
  | 5 => (.done, s.modSched fun d => { d with bankPend := some (fld (kArg k) 1 0) })
  | 6 => (.done, latch 4 (fld (kArg k) 15 0) i s)
  | _ => actTimed i k t occurrence late s

/-! ### Execution (R316 to R318) -/

/-- A counter of the TIME block (R399). (DESIGN CHOICE, log entry 111.) -/
def bumpTime (i : Nat) (s : State) : State := bump (ctr 0x12 0 i) s

/-- Launches of an entry that have passed before the last one (R317). -/
def launchesBefore (k : KEntry) (now : Nat) : Nat :=
  if kPeriod k = 0 then 0
  else
    let n := Nat.max k.launches ((now - kLaunch k) / nsU (kPeriod k))
    if kRepeat k = 0 then n else Nat.min n (kRepeat k - 1)

/-- The outcome of an execution that is posted to the host (R318, R363). (DEDUCED, log entry 112.) -/
def postOutcome (i code t : Nat) (s : State) : State :=
  if code = 1 ∨ code = 2 then s else post 0x06 (pack [(8, i), (0, code)] :: timeWords t) none s

/-- Which of the launches that have passed is the one that executes: a free value where there are several (R317).
(DESIGN CHOICE, log entry 111.) -/
def launchTaken (k : KEntry) (s : State) : Nat × State :=
  let m := launchesBefore k s.time.now
  if m ≤ k.launches then (m, s) else (k.launches + freeBelow s (m + 1 - k.launches), s.tookFree)

/-- An armed entry executes at this instant, once for all launches that have passed (R316 to R318).
(DESIGN CHOICE, log entry 111.) -/
def kindleExec (i : Nat) (late : Bool) (s : State) : State :=
  let k := theK s i
  let m := launchesBefore k s.time.now
  let (n, s) := launchTaken k s
  let t := kLaunch k + n * nsU (kPeriod k)
  let (code, s) : Nat × State :=
    if late && kRefuseLate k then (4, s)
    else match act i k t (n + 1) late s with
      | (.done, s) => (if late then 2 else 1, s)
      | (.refused, s) => (3, s)
      | (.delayed, s) => (5, s)
  let more := decide (kPeriod k ≠ 0) && (kRepeat k == 0 || decide (m + 1 < kRepeat k))
  let s := modK i (fun k =>
    { k with armed := more, next := if more then kLaunch k + (m + 1) * nsU (kPeriod k) else t, outcome := code, count := k.count + 1,
             performed := k.performed || code == 1 || code == 2, lastExec := s.time.now, launches := m + 1 }) s
  let s := bumpTime 7 s
  let s := if late then bumpTime 8 s else s
  let s := if code = 3 ∨ code = 4 then bumpTime 9 s else s
  postOutcome i code t (capture 6 (i * 256 + code) s)

/-- An entry is armed, and read as present: one whose parity fails is absent (R84). -/
def kLive (s : State) (i : Nat) : Bool := (theK s i).armed && !parityBad s (liveHalf s) .kindling i

/-- An armed entry's launch has come, and no lower entry whose launch has come waits: entries with one E execute in ascending order
(R316). (DESIGN CHOICE, log entry 111.) -/
def kindleDue (s : State) (i : Nat) : Bool :=
  let k := theK s i
  kLive s i && decide (k.next ≤ s.time.now) &&
    !s.kindle.any fun e => decide (e.1 < i) && kLive s e.1 && decide (e.2.next ≤ s.time.now)

/-- An entry whose action is `a` executes at E, which is not late up to 20 ns after its launch (R316).
(DESIGN CHOICE, log entry 111.) -/
def kindleAt (i a : Nat) (seed : Bool) (s : State) : State :=
  let k := theK s i
  if kindleDue s i && kAction k == a && (a != 4 || bitAt (kArg k) 31 == seed) then
    kindleExec i (decide (k.next + nsU 20 < s.time.now)) s
  else s

/-- Armed entries with their next launch in a span that a step has skipped execute late, in ascending order (R309).
(DESIGN CHOICE, log entry 111.) -/
def kindleSkipped (lo hi : Nat) (s : State) : State :=
  (s.kindle.filter fun e => kLive s e.1 && decide (lo ≤ e.2.next) && decide (e.2.next < hi)).foldl (fun s e =>
    if kLive s e.1 then kindleExec e.1 true s else s) s

/-- Armed entries that pass a test are disarmed with an outcome: 6 REFUSED_TIME, 7 RETIRED (R298, R318, R328).
(DEDUCED, log entry 112.) -/
def kindleDrop (test : KEntry → Bool) (code : Nat) (s : State) : State :=
  (s.kindle.filter fun e => e.2.armed && test e.2).foldl (fun s (e : Nat × KEntry) =>
    postOutcome e.1 code e.2.next (modK e.1 (fun k => { k with armed := false, outcome := code }) s)) s

/-! ### Commands (R314, R319, R321) -/

/-- The image of an entry, its reserved bits cleared. -/
def kImage (args : List Word) : List Word :=
  let w := argWords args 2 8
  [w.getD 0 0 &&& 0xF8000FFF, w.getD 1 0, w.getD 2 0 &&& 0xFF00FFFF, w.getD 3 0 &&& 0x3FFFFFFF, w.getD 4 0,
   w.getD 5 0 &&& 0xFFFF00FF, w.getD 6 0, w.getD 7 0]

/-- The first word of the block with a field out of range, a reserved action, or a period that is not allowed (R314).
(DEDUCED, log entry 112.) -/
def kBadWord (k : KEntry) : Option Nat :=
  if kAction k < 1 ∨ 7 < kAction k then some 2
  else if !timeOk (kw k 3) then some 5
  else if kPeriod k ≠ 0 ∧ (kAction k < 5 ∨ kPeriod k < 10000 ∨ 1000000000000 < kPeriod k) then some 6
  else if kAction k = 7 ∧ !bitAt (kArg k) 31 ∧ fld (kArg k) 23 20 ≠ 0 then some 8
  else none

/-- PARTITION may name the object of the action (R314, R315). (DEDUCED, log entry 112.) -/
def kPermits (s : State) (k : KEntry) : Bool :=
  let p := kPartition k
  match kAction k with
  | 3 => p == 0 || (ctxUsed (theCtx s (fld (kArg k) 31 20)) && ctxPartition (theCtx s (fld (kArg k) 31 20)) == p)
  | 4 =>
    p == 0 ||
      (if bitAt (kArg k) 31 then (seedNamed s (fld (kArg k) 15 0)).any fun e => e.2.partition == p
       else (s.thresh.harvests ++ s.thresh.heldOut).any fun h => h.id == fld (kArg k) 15 0 && fld (h.desc.getD 0 0) 31 20 == p)
  | 7 => !bitAt (kArg k) 31 || (tget s.routing.trees {} (fld (kArg k) 13 0)).partition == p
  | _ => p == 0

/-- KINDLE_ARM (R314, R329). (DESIGN CHOICE, log entry 18; DEDUCED, log entry 112.) -/
def kindleArm (args : List Word) (s : State) : Res :=
  let i := argN args 1
  let k : KEntry := { image := kImage args, armed := true }
  let k := { k with next := kLaunch k }
  if 256 ≤ i then cmdRefuse St.badArgument 1 s
  else if (theK s i).armed then cmdRefuse St.busy 0 s
  else if timeUnset s then cmdRefuse St.timeUnset 0 s
  else match kBadWord k with
    | some w => cmdRefuse St.badArgument w s
    | none =>
      if (thePart s (kPartition k)).state = 2 then cmdRefuse St.partitionRetiring 0 s
      else if !kPermits s k then cmdRefuse St.refusedPermission 0 s
      else match quotaRefusal s (kPartition k) 2 1 with
        | some (st, d) => cmdRefuse st d s
        | none =>
          if kAction k = 1 ∧ nonActiveNow s ≠ .sealedV then cmdRefuse St.tableNotSealed 0 s
          else if kAction k = 1 ∧ commitArmed s then cmdRefuse St.busy 0 s
          else if k.next < s.time.now ∧ kRefuseLate k then cmdRefuse St.lateRefused 0 s
          else
            let t := clearParity .kindling (· == i) (modK i (fun _ => k) s)
            cmdOk (if k.next < s.time.now then kindleExec i true t else t)

/-- KINDLE_DISARM: an IDLE entry is left as it is (R319). (DEDUCED, log entry 112.) -/
def kindleDisarm (args : List Word) (s : State) : Res :=
  let i := argN args 1
  if 256 ≤ i then cmdRefuse St.badArgument 1 s
  else
    let k := theK s i
    cmdOkWith [w32 (bit k.performed), w32 (sat (2 ^ 32 - 1) k.count)]
      (if k.armed then modK i (fun k => { k with armed := false }) s else s)

/-- The image and the status words of an entry (R321). (DEDUCED, log entry 112.) -/
def kindleImg (s : State) (i : Nat) : List Byte :=
  let k := theK s i
  wordsLe ([kw k 0] ++ timeWords k.next ++ [kw k 4, kw k 5, kw k 6, kw k 7] ++
    [pack [(30, bit k.armed), (26, k.outcome), (0, sat 65535 k.count)]] ++ timeWords k.lastExec)

/-- KINDLE_READ. (DEDUCED, log entry 112.) -/
def kindleRead (args : List Word) (s : State) : Res :=
  let first := argN args 1
  let n := argN args 2
  if 256 ≤ first then cmdRefuse St.badArgument 1 s
  else if n < 1 ∨ 256 < first + n then cmdRefuse St.badArgument 2 s
  else cmdOk (hostWrite (arg64 args 3) ((List.range n).flatMap fun i => kindleImg s (first + i)) s)

/-! ### Meanings -/

/-- KINDLE_ARM. -/
def execKindleArm (h : CmdHdr) (args : List Word) (s : State) : Host.Outcome State Fault Refusal :=
  runMailbox ⟨0x0C09, 1, true⟩ (fun _ => 9) (fun _ s => kindleArm args s) h args s
/-- KINDLE_DISARM. -/
def execKindleDisarm (h : CmdHdr) (args : List Word) (s : State) : Host.Outcome State Fault Refusal :=
  runMailbox ⟨0x0C0A, 0, true⟩ (fun _ => 1) (fun _ s => kindleDisarm args s) h args s
/-- KINDLE_READ. -/
def execKindleRead (h : CmdHdr) (args : List Word) (s : State) : Host.Outcome State Fault Refusal :=
  runMailbox ⟨0x0C0B, 3, true⟩ (fun _ => 4) (fun _ s => kindleRead args s) h args s
/-- KINDLE_ROUTE_COMMIT. -/
def execKindleRouteCommit (entry : Fin 256) (s : State) : Host.Outcome State Fault Refusal := .next (kindleAt entry 1 false s)
/-- KINDLE_FLUE_SWITCH. -/
def execKindleFlueSwitch (entry : Fin 256) (s : State) : Host.Outcome State Fault Refusal := .next (kindleAt entry 2 false s)
/-- COLL_RELEASE. -/
def execCollRelease (entry : Fin 256) (s : State) : Host.Outcome State Fault Refusal := .next (kindleAt entry 3 false s)
/-- MC_RELEASE of a held harvest output. -/
def execMcRelease (entry : Fin 256) (s : State) : Host.Outcome State Fault Refusal := .next (kindleAt entry 4 false s)
/-- MC_RELEASE of a seed image. -/
def execMcReleaseSeed (entry : Fin 256) (s : State) : Host.Outcome State Fault Refusal := .next (kindleAt entry 4 true s)
/-- SHAPER_BANK. -/
def execShaperBank (entry : Fin 256) (s : State) : Host.Outcome State Fault Refusal := .next (kindleAt entry 5 false s)
/-- COUNTER_DUMP. -/
def execCounterDump (entry : Fin 256) (s : State) : Host.Outcome State Fault Refusal := .next (kindleAt entry 6 false s)
/-- TIMED_NOTICE. -/
def execTimedNotice (entry : Fin 256) (s : State) : Host.Outcome State Fault Refusal := .next (kindleAt entry 7 false s)
/-- SEED_PACKET_SEND. (DESIGN CHOICE, log entry 113.) -/
def execSeedPacketSend (seed : Fin 64) (ue : Bool) (s : State) : Host.Outcome State Fault Refusal :=
  .next (seedPacket seed ue s)

end Sys2Proof.Machine
end

