-- ==== Sys2Proof/Machine/Jobs.lean ====
section
/-! DEFINITION. Partitions, retirement, the scrub and the records of seeds (R323 to R331, R340). -/

namespace Sys2Proof.Machine

/-- Changes a partition record. -/
def modPart (p : Nat) (f : Part → Part) (s : State) : State := s.modJobs fun j => { j with parts := tmod j.parts {} p f }

/-! ### Partition records (R323, R324) -/

/-- The limits of a partition record of four words. -/
def partOf (w : List Word) (state : Nat) : Part :=
  let x (i : Nat) : Word := w.getD i 0
  { state := state, maxContexts := fld (x 1) 31 19, maxTrees := fld (x 1) 18 4, maxKindle := fld (x 2) 31 23,
    maxGranMib := fld (x 3) 31 12 }

/-- The word of a partition record that has a field out of range, counted from 1 (R323, R340). -/
def partBad (w : List Word) : Option Nat :=
  let q := partOf w 0
  if fld (w.getD 0 0) 11 0 = 0 then some 1
  else if 4096 < q.maxContexts ∨ 16384 < q.maxTrees then some 2
  else if 256 < q.maxKindle then some 3
  else if 589824 < q.maxGranMib then some 4
  else none

/-- The image of a partition record (R323). (DEDUCED, log entry 116.) -/
def partImg (p : Nat) (q : Part) : List Word :=
  [pack [(30, q.state), (0, p)], pack [(19, q.maxContexts), (4, q.maxTrees)], pack [(23, q.maxKindle)], pack [(12, q.maxGranMib)]]

/-- PART_CREATE (R323, R340). (DEDUCED, log entry 116.) -/
def partCreate (args : List Word) (s : State) : Res :=
  let w := argWords args 1 4
  let p := fld (arg args 1) 11 0
  match partBad w with
  | some d => cmdRefuse St.badArgument d s
  | none =>
    if (thePart s p).state = 1 then cmdRefuse St.busy 0 s
    else if (thePart s p).state = 2 then cmdRefuse St.partitionRetiring 0 s
    else cmdOk (clearParity .partition (· == p) (modPart p (fun _ => partOf w 1) s))

/-- PART_QUOTA (R324, R340). (DEDUCED, log entry 116.) -/
def partQuota (args : List Word) (s : State) : Res :=
  let w := argWords args 1 4
  let p := fld (arg args 1) 11 0
  match partBad w with
  | some d => cmdRefuse St.badArgument d s
  | none =>
    if (thePart s p).state = 0 then cmdRefuse St.quotaExceeded 0 s
    else if (thePart s p).state = 2 then cmdRefuse St.partitionRetiring 0 s
    else if (List.range 4).any fun r => decide (limitOf (partOf w 1) r < chargeOf s p r) then cmdRefuse St.busy 0 s
    else cmdOk (clearParity .partition (· == p) (modPart p (fun _ => partOf w 1) s))

/-- MiB of a partition's ranges that are still to be zeroed, rounded up. (DESIGN CHOICE, log entry 115.) -/
def scrubLeft (s : State) (p : Nat) : Nat :=
  match retiringOf s p with
  | some r => mibs ((r.ranges.map fun x =>
      (granulesIn x 0 + granulesIn x 1 - x.done0 - x.done1) * 4096).sum)
  | none => 0

/-- A record and the charge words of a partition; nothing is charged to 0x000 (R323, R340). -/
def partStatus (s : State) (p : Nat) : List Word :=
  if p = 0 then List.replicate 8 0
  else partImg p (thePart s p) ++
    [pack [(19, chargedContexts s p), (4, chargedTrees s p)], pack [(23, chargedKindle s p)], pack [(12, chargedGran s p)],
     w32 (scrubLeft s p)]

/-- PART_STATUS_READ (R340). -/
def partStatusRead (args : List Word) (s : State) : Res :=
  let first := argN args 1
  let n := argN args 2
  if 4096 ≤ first then cmdRefuse St.badArgument 1 s
  else if n < 1 ∨ 4096 < first + n then cmdRefuse St.badArgument 2 s
  else cmdOk (hostWrite (arg64 args 3) ((List.range n).flatMap fun i => wordsLe (partStatus s (first + i))) s)

/-! ### Admission (R325, R326) -/

/-- PART_PORT_SET (R325, R327, R329). (DEDUCED, log entry 116.) -/
def partPortSet (args : List Word) (s : State) : Res :=
  let p := argN args 1
  let new : PortPart := { mode := fld (arg args 2) 31 30, partition := fld (arg args 2) 11 0 }
  if !portBase s p then cmdRefuse St.badArgument 1 s
  else if new.mode = 3 ∨ (new.mode = 1 ∧ new.partition = 0) ∨ (new.mode ≠ 1 ∧ new.partition ≠ 0) then cmdRefuse St.badArgument 2 s
  else if new.mode = 1 ∧ (thePart s new.partition).state = 2 then cmdRefuse St.partitionRetiring 0 s
  else cmdOk (s.modJobs fun j => { j with portPart := tset j.portPart {} p new })

/-- PART_ALLOW_WRITE (R326, R329). (DEDUCED, log entry 116.) -/
def partAllowWrite (args : List Word) (s : State) : Res :=
  let i := argN args 1
  let new : AllowEntry := { valid := bitAt (arg args 2) 31, guest := fld (arg args 2) 23 12, host := fld (arg args 2) 11 0 }
  if 256 ≤ i then cmdRefuse St.badArgument 1 s
  else if new.valid ∧ (new.guest = 0 ∨ new.host = 0 ∨ new.guest = new.host) then cmdRefuse St.badArgument 2 s
  else if new.valid ∧ ((thePart s new.guest).state = 2 ∨ (thePart s new.host).state = 2) then
    cmdRefuse St.partitionRetiring 0 s
  else cmdOk (clearParity .allow (· == i) (s.modJobs fun j => { j with allow := tset j.allow {} i new }))

/-! ### Retirement (R154, R328, R329) -/

/-- A move of a retiring partition stops after the granule in progress (R328). (DESIGN CHOICE, log entry 80.) -/
def stopMove (m : Move) (s : State) : State := endMove m St.aborted 3 (partGranules m s)

/-- Step 1 of R328: kindling entries, seeds, harvests, norm passes, moves and rings of a partition stop.
(DESIGN CHOICE, log entry 114.) -/
def retireStop (p : Nat) (s : State) : State :=
  let s := kindleDrop (fun k => kPartition k == p) 7 (modPart p (fun q => { q with state := 2 }) s)
  let s := s.modJobs fun j => { j with seeds := j.seeds.map fun e =>
    if e.2.partition = p ∧ e.2.state = 2 then (e.1, { e.2 with state := 1, sent := 0, lastPid := none }) else e }
  let s := (s.thresh.harvests.filter fun h => runPartition h.desc == p).foldl (fun s h => endHarvest h St.aborted 3 s) s
  let s := (s.thresh.norms.filter fun m => m.partition == p).foldl (fun s m =>
    endNorm m { status := St.aborted, detail := 3, result := [] } s) s
  let s := (s.mem.moves.filter fun m => m.partition == p).foldl (fun s m => stopMove m s) s
  stopRings p (s.modThresh fun t => { t with heldOut := t.heldOut.filter fun h => runPartition h.desc != p })

/-- Steps 2 and 3: every context of the partition is aborted, and is RETIRING (R154). (DESIGN CHOICE, log entry 114.) -/
def retireContexts (p : Nat) (s : State) : State :=
  let mine := (s.coll.filter fun e => ctxUsed e.2 && ctxPartition e.2 == p).map Prod.fst
  let s := mine.foldl (fun s c => abortPlain c 8 s) s
  settleFences 64 (mine.foldl (fun s c => modCtx c (fun x => { x with state := .retiring }) s) s)

/-- The ranges that the scrub of a partition zeroes: former windows, then retention spaces (R330).
(DESIGN CHOICE, log entry 114.) -/
def scrubRanges (p : Nat) (s : State) : List ScrubRange :=
  ((s.mem.windows.filter fun e => e.2.valid && e.2.partition == p).map fun e =>
    { base := e.2.base, size := e.2.size, onStacks := List.range 8, ctx := none, done0 := 0, done1 := 0 }) ++
  ((s.coll.filter fun e => ctxUsed e.2 && ctxPartition e.2 == p).map fun e =>
    { base := poolBase s + 32768 * e.2.retRow.getD 0, size := ctxRetSpace e.2, onStacks := ctxStacks e.2, ctx := some e.1, done0 := 0, done1 := 0 })

/-- Step 4: seeds are FREE; trees, windows and allow entries of the partition are invalid (R328).
(DESIGN CHOICE, log entry 114.) -/
def retireTables (p : Nat) (s : State) : State :=
  let s := s.modJobs fun j =>
    { j with seeds := j.seeds.filter fun e => e.2.partition != p,
             allow := j.allow.filter fun e => !(e.2.valid && (e.2.guest == p || e.2.host == p)) }
  (s.modRouting fun r => { r with trees := r.trees.filter fun e => !(e.2.valid && e.2.partition == p) }).modMem fun m =>
    { m with windows := m.windows.filter fun e => !(e.2.valid && e.2.partition == p) }

/-- Contexts whose retention space is scrubbed are FREE; a partition whose scrub has ended is FREE, and the end is posted
(R154, R328, R363). (DESIGN CHOICE, log entry 114.) -/
def settleRetire (r : Retire) (s : State) : State :=
  let s := (r.ranges.filter scrubbed).foldl (fun s x => match x.ctx with
    | some c => if (theCtx s c).state = .retiring then modCtx c (fun _ => {}) (stripResults c s) else s
    | none => s) s
  if r.ranges.all scrubbed then
    post 0x07 [w32 r.partition] none (modPart r.partition (fun _ => {}) (s.modJobs fun j =>
      { j with retiring := j.retiring.filter fun x => x.partition != r.partition }))
  else s

/-- Step 4 of a retirement: its tables go, its scrub begins, its command completes (R328). (DESIGN CHOICE, log entry 114.) -/
def retireStep4 (r : Retire) (s : State) : State :=
  let r' : Retire := { r with cmd := none, ranges := scrubRanges r.partition s }
  let s := (retireTables r.partition s).modJobs fun j =>
    { j with retiring := j.retiring.map fun x => if x.partition = r.partition then r' else x }
  settleRetire r' (match r.cmd with
    | some c => endWith c St.ok 0 s
    | none => s)

/-- The retirements whose last ABORT copy has left take step 4 (R328). (DESIGN CHOICE, log entry 114.) -/
def settleRetirements (s : State) : State :=
  (s.jobs.retiring.filter fun r => r.cmd.isSome && !pidsLeft s r.pids).foldl (fun s r => retireStep4 r s) s

/-- PART_RETIRE: steps 1 to 3 of R328; where an ABORT has to leave the command is at work until step 4, otherwise step 4 follows at
once. The scrub is left to run (R328, R355). (DESIGN CHOICE, log entry 114.) -/
def partRetire (c : CmdRef) (args : List Word) (s : State) : Res :=
  let p := argN args 1
  if p = 0 ∨ 4095 < p then cmdRefuse St.badArgument 1 s
  else if (thePart s p).state = 0 then cmdRefuse St.quotaExceeded 0 s
  else if (thePart s p).state = 2 then cmdRefuse St.partitionRetiring 0 s
  else
    let s := retireStop p s
    let first := s.core.nextPid
    let s := retireContexts p s
    let pids := List.range' first (s.core.nextPid - first)
    let add (r : Retire) (s : State) : State := s.modJobs fun j => { j with retiring := j.retiring ++ [r] }
    if pidsLeft s pids then (add { partition := p, pids := pids, cmd := some c, ranges := [] } (addDetached c .none s), none)
    else
      let r : Retire := { partition := p, pids := [], cmd := none, ranges := [] }
      cmdOk (retireStep4 r (add r s))

/-! ### The scrub (R330) -/

/-- The next granule of a range on the stacks of a half, by its offset in the range. (DESIGN CHOICE, log entry 115.) -/
def nextGranule (x : ScrubRange) (half : Nat) : Option Nat :=
  let k := if half = 0 then x.done0 else x.done1
  let t := x.stacksIn half
  if k < granulesIn x half then some (8 * (k / t.length) + t.getD (k % t.length) 0) else none

/-- The half whose next granule of a range is zeroed next: the lowest granule of a half that is ready.
(DESIGN CHOICE, log entry 115.) -/
def scrubHalf (s : State) (x : ScrubRange) : Option Nat :=
  match if halfReady s 0 then nextGranule x 0 else none, if halfReady s 1 then nextGranule x 1 else none with
  | some a, some b => some (if a < b then 0 else 1)
  | some _, none => some 0
  | none, some _ => some 1
  | none, none => none

/-- Zeroes the next granule of a range (R330). (DESIGN CHOICE, log entry 115.) -/
def scrubOne (x : ScrubRange) (half : Nat) (s : State) : State :=
  match nextGranule x half with
  | some g => daZero (x.base + 4096 * g) 4096 s
  | none => s

/-- The first retirement that scrubs zeroes the next granule of its first range that is not zeroed (R330). -/
def scrubNext (s : State) : State :=
  if s.mem.granary = .inService then
    match s.jobs.retiring.find? fun r => r.cmd.isNone with
    | none => s
    | some r =>
      match r.ranges.findIdx? fun x => !scrubbed x with
      | none => s
      | some i =>
        match r.ranges[i]? with
        | none => s
        | some x =>
          match scrubHalf s x with
          | none => s
          | some h =>
            let y := if h = 0 then { x with done0 := x.done0 + 1 } else { x with done1 := x.done1 + 1 }
            let r' := { r with ranges := r.ranges.set i y }
            settleRetire r' (scrubOne x h (s.modJobs fun j =>
              { j with retiring := j.retiring.map fun y => if y.partition = r.partition then r' else y }))
  else s

/-- SCRUB_GRANULE: a retirement that has waited for its ABORTs goes on, and one granule is zeroed (R328, R330).
(DESIGN CHOICE, log entry 115.) -/
def scrubGranule (s : State) : State := scrubNext (settleRetirements s)

/-- PART_SCRUB_CONFIG (R330, R340). -/
def partScrubConfig (args : List Word) (s : State) : Res :=
  if argN args 1 < 1 ∨ 250 < argN args 1 then cmdRefuse St.badArgument 1 s
  else cmdOk (s.modJobs fun j => { j with scrubRate := argN args 1 })

/-! ### Seed records (R331, R340) -/

/-- The seed that a record of eight words describes (R331). -/
def seedOf (w : List Word) : Seed :=
  let x (i : Nat) : Word := w.getD i 0
  let n (i : Nat) : Nat := (x i).toNat + 2 ^ 32 * (x (i + 1)).toNat
  { state := 1, seedId := fld (x 0) 31 16, tc := fld (x 0) 15 13, partition := fld (x 0) 11 0, treeId := fld (x 1) 31 18,
    offset := n 2, length := n 4, remote := n 6 }

/-- The image of a seed record (R331). -/
def seedImg (x : Seed) : List Byte :=
  wordsLe ([pack [(16, x.seedId), (13, x.tc), (0, x.partition)], pack [(18, x.treeId), (16, x.state)]] ++
    w64 x.offset ++ w64 x.length ++ w64 x.remote)

/-- The fields of a record are in range and its name is not in use (R331). -/
def seedOk (s : State) (x : Seed) : Bool :=
  x.partition != 0 && x.offset % 4096 == 0 && decide (16 ≤ x.length ∧ x.length ≤ 2 ^ 38) && x.length % 16 == 0 &&
    x.remote % 16 == 0 && (seedNamed s x.seedId).isNone

/-- SEED_DEFINE (R329, R331, R340). (DESIGN CHOICE, log entries 18, 113.) -/
def seedDefine (args : List Word) (s : State) : Res :=
  let i := argN args 1
  let x := seedOf (wordsOf (hostRead s (arg64 args 2) 32))
  let t := tget s.routing.trees {} x.treeId
  if 64 ≤ i then cmdRefuse St.badArgument 1 s
  else if (theSeed s i).state ≠ 0 then cmdRefuse St.busy 0 s
  else if !seedOk s x then cmdRefuse St.badArgument 2 s
  else if (thePart s x.partition).state = 2 then cmdRefuse St.partitionRetiring 0 s
  else if !t.valid ∨ t.partition ≠ x.partition then cmdRefuse St.badArgument 2 s
  else if (windowFor s x.partition x.offset x.length true false).isNone then cmdRefuse St.refusedPermission 0 s
  else cmdOk (modSeed i (fun _ => x) s)

/-- SEED_FREE (R340). (DESIGN CHOICE, log entry 113.) -/
def seedFree (args : List Word) (s : State) : Res :=
  let i := argN args 1
  if 64 ≤ i then cmdRefuse St.badArgument 1 s
  else if (theSeed s i).state = 2 then cmdRefuse St.busy 0 s
  else cmdOk (modSeed i (fun _ => {}) s)

/-- SEED_READ (R340). -/
def seedRead (args : List Word) (s : State) : Res :=
  let first := argN args 1
  let n := argN args 2
  if 64 ≤ first then cmdRefuse St.badArgument 1 s
  else if n < 1 ∨ 64 < first + n then cmdRefuse St.badArgument 2 s
  else cmdOk (hostWrite (arg64 args 3) ((List.range n).flatMap fun i => seedImg (theSeed s (first + i))) s)

/-! ### Meanings -/

/-- PART_CREATE. -/
def execPartCreate (h : CmdHdr) (args : List Word) (s : State) : Host.Outcome State Fault Refusal :=
  runMailbox ⟨0x0D01, 1, true⟩ (fun _ => 4) (fun _ s => partCreate args s) h args s
/-- PART_QUOTA. -/
def execPartQuota (h : CmdHdr) (args : List Word) (s : State) : Host.Outcome State Fault Refusal :=
  runMailbox ⟨0x0D02, 1, true⟩ (fun _ => 4) (fun _ s => partQuota args s) h args s
/-- PART_RETIRE. -/
def execPartRetire (h : CmdHdr) (args : List Word) (s : State) : Host.Outcome State Fault Refusal :=
  runMailbox ⟨0x0D03, 0, true⟩ (fun _ => 1) (fun c s => partRetire c args s) h args s
/-- PART_STATUS_READ. -/
def execPartStatusRead (h : CmdHdr) (args : List Word) (s : State) : Host.Outcome State Fault Refusal :=
  runMailbox ⟨0x0D04, 3, true⟩ (fun _ => 4) (fun _ s => partStatusRead args s) h args s
/-- PART_PORT_SET. -/
def execPartPortSet (h : CmdHdr) (args : List Word) (s : State) : Host.Outcome State Fault Refusal :=
  runMailbox ⟨0x0D05, 1, true⟩ (fun _ => 2) (fun _ s => partPortSet args s) h args s
/-- PART_ALLOW_WRITE. -/
def execPartAllowWrite (h : CmdHdr) (args : List Word) (s : State) : Host.Outcome State Fault Refusal :=
  runMailbox ⟨0x0D06, 1, true⟩ (fun _ => 2) (fun _ s => partAllowWrite args s) h args s
/-- SEED_DEFINE. -/
def execSeedDefine (h : CmdHdr) (args : List Word) (s : State) : Host.Outcome State Fault Refusal :=
  runMailbox ⟨0x0D07, 1, true⟩ (fun _ => 3) (fun _ s => seedDefine args s) h args s
/-- SEED_FREE. -/
def execSeedFree (h : CmdHdr) (args : List Word) (s : State) : Host.Outcome State Fault Refusal :=
  runMailbox ⟨0x0D08, 1, true⟩ (fun _ => 1) (fun _ s => seedFree args s) h args s
/-- SEED_READ. -/
def execSeedRead (h : CmdHdr) (args : List Word) (s : State) : Host.Outcome State Fault Refusal :=
  runMailbox ⟨0x0D09, 3, true⟩ (fun _ => 4) (fun _ s => seedRead args s) h args s
/-- PART_SCRUB_CONFIG. -/
def execPartScrubConfig (h : CmdHdr) (args : List Word) (s : State) : Host.Outcome State Fault Refusal :=
  runMailbox ⟨0x0D0F, 1, true⟩ (fun _ => 1) (fun _ s => partScrubConfig args s) h args s
/-- SCRUB_GRANULE. -/
def execScrubGranule (s : State) : Host.Outcome State Fault Refusal := .next (scrubGranule s)

end Sys2Proof.Machine
end

