-- ==== Sys2Proof/Machine/Clock.lean ====
section
/-! DEFINITION. What a reference cycle does: device time runs by 6.4 ns with the servo's correction, refills and drains whose time has
come are carried out, retirements whose notices have left go on, and the Hearth's own time base runs within 1 % of it (R119, R281, R298, R328, R356, R417). -/

namespace Sys2Proof.Machine

/-- A time engine runs: a time domain is powered and a reference is good (R298, R418). (DESIGN CHOICE, log entry 1.) -/
def timeRuns (s : State) : Bool :=
  (s.time.refOk0 || s.time.refOk1) && (s.power.on0 != 0 || s.power.on1 != 0)

/-- One reference cycle in units of 1/256 ns, at a rate correction. (DESIGN CHOICE, log entry 1.) -/
def cycleLen (rate : Rat) : Rat := 8192 / 5 * (1 + rate)

/-- Device time advances by one reference cycle. (DESIGN CHOICE, log entry 1.) -/
def runTime (t : TimeSt) : TimeSt :=
  let x := t.sub + cycleLen t.rate
  { t with now := t.now + x.floor.toNat, sub := x - x.floor }

/-- The Hearth's own time base advances: 6.4 ns within 1 %, where in that range is a free value (R417).
(DESIGN CHOICE, log entry 1.) -/
def runHearthTime (s : State) : State :=
  State.tookFree (s.modTime fun t => { t with hearthPs := t.hearthPs + 6336 + freeBelow s 129 })

/-- A refill instant that device time has passed since `old` is carried out (R119). (DESIGN CHOICE, log entry 1.) -/
def refillPassed (old : Nat) (s : State) : State :=
  if old / 131072 < s.time.now / 131072 then
    s.modSched fun d => { refillInstant d with refilled := some (131072 * (s.time.now / 131072)) }
  else s

/-- One reference cycle: what the block does when no command waits. (DESIGN CHOICE, log entries 1, 143.) -/
def tick (s : State) : State :=
  settleRetirements <| runHearthTime (if timeRuns s then settleDrains (refillPassed s.time.now (s.modTime runTime)) else s)

end Sys2Proof.Machine
end

