-- ==== Sys2Proof/Machine/CtxCmds.lean ====
section
/-! DEFINITION. The commands on collective contexts (R134, R152, R158, R159, R164, R198, R199, R439, R440). -/

namespace Sys2Proof.Machine

/-! ### Descriptors (R132, R133, R164) -/

/-- The combinations of operation, types, rounding and output mode that R164 permits. -/
def permitted (op inT outT : Nat) (stochastic : Bool) (out : Nat) : Bool :=
  if isInt inT != isInt outT || decide (11 < inT) || decide (11 < outT) then false
  else if isInt inT then
    !stochastic &&
      ((op == 0 || op == 2 || op == 3) && (out != 1 || outT == 10) ||
       (op == 4 || op == 5) && inT == outT && (out != 1 || outT == 10))
  else decide (op ≤ 3) && !(stochastic && outT == 0) && (out != 1 || (outT == 0 && !stochastic))

/-- A finite FP32 value. -/
def finiteWord (w : Word) : Bool := fld w 30 23 != 255

/-- The elements of one sheaf. -/
def ctxElems (x : Ctx) : Nat := elemsIn (ctxInType x) (ctxS x)

/-- A descriptor whose fields, combination and sizes R134 admits. -/
def descOk (x : Ctx) : Bool :=
  let outLen := resultLen (ctxOutType x) (ctxElems x)
  ctxPartition x != 0 && fld (dw x 0) 1 0 != 3 && decide (ctxWinnow x ≤ 4) &&
  decide (2 ≤ ctxStageDepth x ∧ ctxStageDepth x ≤ 64) && decide (1 ≤ ctxCount x ∧ ctxCount x ≤ 1024) &&
  decide (ctxRetainUs x ≤ 10000000) && decide (ctxStallUs x ≤ 10000000) && decide (fld (dw x 9) 5 3 ≤ 6) &&
  decide (ctxTuFirst x % ctxSpan x = 0) && finiteWord (ctxScale x) &&
  (ctxOut x == 1 || decide (64 ≤ ctxRetSlots x ∧ ctxStageDepth x ≤ ctxRetSlots x)) &&
  permitted (ctxOp x) (ctxInType x) (ctxOutType x) (ctxStochastic x) (ctxOut x) &&
  (ctxOut x != 0 || decide (outLen ≤ ctxS x)) && (!(ctxOut x == 2 || ctxOut x == 3) || decide (outLen ≤ 4096))

/-- The tree of a context that sends on one is valid and of its partition (R67, R134). -/
def treeOk (s : State) (x : Ctx) : Bool :=
  let t := tget s.routing.trees {} (ctxTree x)
  ctxOut x == 3 || (t.valid && t.partition == ctxPartition x && !parityBad s (liveHalf s) .tree (ctxTree x))

/-- Member table entries (R132). -/
def membersOf (s : State) (a n : Nat) : List Nat := (hostNums s 4 a n).map (· % 2 ^ 24)

/-- The context that a descriptor image in host memory describes. -/
def ctxFrom (s : State) (a : Nat) : Ctx :=
  let desc := (hostNums s 4 a 24).map w32
  let x : Ctx := { state := .active, desc := desc }
  let members := membersOf s (a + 96) (ctxCount x)
  { x with members := members, given := members, firstEpoch := fld (dw x 2) 31 16,
           released := (fld (dw x 2) 31 16 + 65535) % 65536 }

/-- A context has its places in the pool: its staging store, then its retention space (R198, R199). -/
def placed (s : State) (x : Ctx) : Option Ctx :=
  let st := ctxStacks x
  let limit := poolRows s (spillWanted s)
  (placeRow (poolAreas s) limit st (rowsFor st (ctxStageStore x))).bind fun r =>
    let x := { x with storeRow := some r }
    (placeRow (poolAreas s ++ ctxAreas x) limit st (rowsFor st (ctxRetSpace x))).map fun q => { x with retRow := some q }

/-- The accumulators of the placement fit in the staging cells of its barns (R198, R204). -/
def stagingFits (s : State) (x : Ctx) : Bool :=
  (List.range 16).all fun b => reservedFor x b == 0 ||
    (!wholeScratch s b && decide (2 * (reservedIn s b + reservedFor x b) ≤ (theBarn s b).stageCells))

/-- CTX_CREATE (R134, R329); it reserves space in the Granary, which must be in service (R219).
(DESIGN CHOICE, log entry 18; DEDUCED, log entry 53.) -/
def ctxCreate (args : List Word) (s : State) : Res :=
  let x := ctxFrom s (arg64 args 1)
  let c := fld (dw x 0) 31 20
  let p := ctxPartition x
  if ctxUsed (theCtx s c) then cmdRefuse St.ctxInUse 0 s
  else if !descOk x then cmdRefuse St.badArgument 1 s
  else if (thePart s p).state = 2 then cmdRefuse St.partitionRetiring 0 s
  else if !treeOk s x then cmdRefuse St.badArgument 1 s
  else if s.mem.granary ≠ .inService then cmdRefuse St.busy 0 s
  else if ctxOut x = 1 ∧ (windowFor s p (ctxAccAddr x) (accSize x) false true).isNone then cmdRefuse St.refusedPermission 0 s
  else match quotaRefusal s p 0 1 with
    | some (st, d) => cmdRefuse st d s
    | none =>
      match quotaRefusal s p 3 (mibs (ctxRetSpace x)) with
      | some (st, d) => cmdRefuse st d s
      | none =>
        match if stagingFits s x then placed s x else none with
        | some x => cmdOk (modCtx c (fun _ => x) s)
        | none => cmdRefuse St.stagingFull 0 s

/-! ### Abort, re-arm, destroy (R150, R159) -/

/-- CTX_ABORT (R159). -/
def ctxAbort (args : List Word) (s : State) : Res :=
  let c := argN args 1
  if 4096 ≤ c then cmdRefuse St.badArgument 1 s
  else if !ctxUsed (theCtx s c) then cmdRefuse St.ctxNotFound 0 s
  else cmdOk (abortCtx c 7 (plainOffence s (theCtx s c)) s)

/-- A context that starts afresh at an epoch: window, retention and substitution cleared, F = 0 (R146, R159).
(DESIGN CHOICE, log entry 71.) -/
def rearmed (e : Nat) (members : List Nat) (x : Ctx) : Ctx :=
  { state := .active, desc := x.desc.set 2 (pack [(16, e), (0, ctxCount x)]), members := members, given := members,
    storeRow := x.storeRow, retRow := x.retRow, abortReason := x.abortReason, firstEpoch := e, front := 0, released := (e + 65535) % 65536, sub := none, opens := [],
    doneAbove := [], retained := [], made := [] }

/-- CTX_REARM (R159, R329). (DEDUCED, log entry 64; DESIGN CHOICE, log entry 71.) -/
def ctxRearm (args : List Word) (s : State) : Res :=
  let c := argN args 1
  let x := theCtx s c
  if 4096 ≤ c then cmdRefuse St.badArgument 1 s
  else if 65535 < argN args 2 then cmdRefuse St.badArgument 2 s
  else if 1 < argN args 3 then cmdRefuse St.badArgument 3 s
  else if !ctxUsed x then cmdRefuse St.ctxNotFound 0 s
  else if x.state = .retiring then cmdRefuse St.partitionRetiring 0 s
  else if x.state = .active ∧ x.opens ≠ [] then cmdRefuse St.busy 0 s
  else
    let members := if argN args 3 = 1 then membersOf s (arg64 args 4) (ctxCount x) else x.members
    cmdOk (settleFences 64 (modCtx c (rearmed (argN args 2) members) (stripResults c s)))

/-- CTX_DESTROY (R159). (DEDUCED, log entry 64.) -/
def ctxDestroy (args : List Word) (s : State) : Res :=
  let c := argN args 1
  let x := theCtx s c
  if 4096 ≤ c then cmdRefuse St.badArgument 1 s
  else if !ctxUsed x then cmdRefuse St.ctxNotFound 0 s
  else if x.state = .retiring then cmdRefuse St.partitionRetiring 0 s
  else if x.state = .active then cmdRefuse St.busy 0 s
  else cmdOk (modCtx c (fun _ => {}) (stripResults c s))

/-! ### Substitution (R148, R152) -/

/-- A contribution of an epoch has been accepted, or the epoch precedes E_F (R152). -/
def epochStarted (x : Ctx) (e : Nat) : Bool :=
  let d := (e + 65536 - frontEpoch x) % 65536
  let k := x.front / ctxN x + d
  decide (32768 ≤ d) || (d == 0 && decide (0 < x.front % ctxN x)) ||
    (x.opens.map Prod.fst ++ x.doneAbove).any fun g => g / ctxN x == k

/-- CTX_SUBSTITUTE (R152). (DESIGN CHOICE, log entries 18, 63; DEDUCED, log entry 64.) -/
def ctxSubstitute (args : List Word) (s : State) : Res :=
  let c := argN args 1
  let m := argN args 2
  let new := argN args 3
  let e := argN args 4
  let x := theCtx s c
  if 4096 ≤ c then cmdRefuse St.badArgument 1 s
  else if 1024 ≤ m then cmdRefuse St.badArgument 2 s
  else if 2 ^ 24 ≤ new then cmdRefuse St.badArgument 3 s
  else if 65535 < e then cmdRefuse St.badArgument 4 s
  else if !ctxUsed x then cmdRefuse St.ctxNotFound 0 s
  else if ctxCount x ≤ m then cmdRefuse St.badArgument 2 s
  else if x.state = .retiring then cmdRefuse St.partitionRetiring 0 s
  else if x.state = .aborted then cmdRefuse St.busy 0 s
  else if epochStarted x e then cmdRefuse St.epochStarted 0 s
  else if x.sub.isSome then cmdRefuse St.busy 0 s
  else
    let old := memberAt x m e
    let s := modCtx c (fun x => settleSub { x with sub := some { member := m, newId := new, epoch := e } }) s
    let x := theCtx s c
    let rec_ := wordsBe [pack [(8, old)], pack [(8, new)], w32 (digestAt x e), 0]
    cmdOk (sendNotice c x 4 1 0 (memberDetail (some m)) e rec_ s)

/-! ### Reads (R158, R159) -/

/-- Encoding of a context state. -/
def stateCode (x : CtxState) : Nat :=
  match x with
  | .free => 0
  | .active => 1
  | .aborted => 2
  | .retiring => 3

/-- OPEN_MASK of the window; of an ABORTED context, as it was when the abort closed its indices (R150, R158).
(DESIGN CHOICE, log entry 157.) -/
def openMask (x : Ctx) : Nat := if x.state = .active then openBits x else x.abortMask

/-- The status record of a context (R158). -/
def ctxStatus (x : Ctx) : List Word :=
  [pack [(29, stateCode x.state), (16, x.abortReason), (0, frontEpoch x)], w32 (sheafOf x x.front)] ++ w64 (openMask x) ++
  [pack [(16, x.released), (15, bit x.sub.isSome)], pack [(16, x.sub.elim 0 fun b => b.epoch)], w32 x.retained.length,
   w32 (x.retained.filter fun r => decide (r.acked.length < ctxCount x)).length]

/-- CTX_STATUS_READ (R158). -/
def ctxStatusRead (args : List Word) (s : State) : Res :=
  let first := argN args 1
  let n := argN args 2
  if 4096 ≤ first then cmdRefuse St.badArgument 1 s
  else if n < 1 ∨ 4096 < first + n then cmdRefuse St.badArgument 2 s
  else cmdOk (hostWrite (arg64 args 3) ((List.range n).flatMap fun i => wordsLe (ctxStatus (theCtx s (first + i)))) s)

/-- CTX_READ: the descriptor with its member table as created or re-armed (R159). -/
def ctxRead (args : List Word) (s : State) : Res :=
  let c := argN args 1
  let x := theCtx s c
  if 4096 ≤ c then cmdRefuse St.badArgument 1 s
  else if !ctxUsed x then cmdRefuse St.ctxNotFound 0 s
  else cmdOk (hostWrite (arg64 args 2) (wordsLe x.desc ++ wordsLe (x.given.map w32)) s)

/-! ### Branches (R153, R439, R440) -/

/-- The retained results of an epoch within a range of sheaves, in order. (DESIGN CHOICE, log entry 69.) -/
def branchSlots (s : State) (x : Ctx) (e first last : Nat) : List Retained :=
  let l := x.retained.filter fun r => withinRetention s.time.now x r && r.epoch == e && decide (first ≤ r.sheaf ∧ r.sheaf ≤ last)
  (sortNat (l.map fun r => r.index)).filterMap fun g => l.find? fun r => r.index == g

/-- The checks that both branch commands make, on the context, the epoch and the range. (DEDUCED, log entry 64.) -/
def branchCheck (args : List Word) (s : State) : Option (Nat × Nat) :=
  let x := theCtx s (argN args 1)
  if 4096 ≤ argN args 1 then some (St.badArgument, 1)
  else if 65535 < argN args 2 then some (St.badArgument, 2)
  else if argN args 4 < argN args 3 then some (St.badArgument, 4)
  else if !ctxUsed x then some (St.ctxNotFound, 0)
  else if x.state = .retiring then some (St.partitionRetiring, 0)
  else if ctxN x ≤ argN args 3 then some (St.badArgument, 3)
  else if ctxN x ≤ argN args 4 then some (St.badArgument, 4)
  else none

/-- CTX_BRANCH_READ (R439). (DESIGN CHOICE, log entry 18.) -/
def ctxBranchRead (args : List Word) (s : State) : Res :=
  match branchCheck args s with
  | some (st, d) => cmdRefuse st d s
  | none =>
    let l := branchSlots s (theCtx s (argN args 1)) (argN args 2) (argN args 3) (argN args 4)
    let m : BitVec 1024 := if l = [] then 0 else l.foldl (fun m r => m &&& r.delivered) (BitVec.allOnes 1024)
    cmdOkWith [w32 l.length] (hostWrite (arg64 args 5) (leBytes 128 m.toNat) s)

/-- One copy or set of copies of a retained result, looked up anew and restricted to a port mask; a copy for the device's own ID
uses no port and is terminated (R39, R440). (DEDUCED, log entry 70.) -/
def resendOn (b : Nat) (m : BitVec 1024) (h : Header) (payload : List Byte) (ref : ResultRef) (s : State) : State :=
  let h := h.withEpoch (activeEpoch s)
  if !h.mc && s.hearth.endpointId == some h.dstId then
    originateTo b h payload (some ref) (fun pid => [copyToSink pid (sinkFor s h).1 (sinkFor s h).2]) s
  else match lookup b h s with
  | (.drop, s) => s
  | (.uni p, s) => if m.getLsbD p then originateTo b h payload (some ref) (fun pid => [copyTo pid p]) s else s
  | (.multi ports, s) => originateTo b h payload (some ref) (fun pid => copiesFor pid (ports.filter fun p => m.getLsbD p)) s

/-- A retained result sent again on a port mask: on the tree, or to every member in RETURN mode (R440).
(DEDUCED, log entry 70.) -/
def resendResult (c : Nat) (m : BitVec 1024) (r : Retained) (s : State) : State :=
  let x := theCtx s c
  let ref : ResultRef := { ctx := c, index := r.index, void := false }
  let dsts : List (Option Nat) := if ctxOut x = 3 then (membersAt x r.epoch).map some else [none]
  dsts.foldl (fun s d =>
    resendOn (feedingBarn s x r.sheaf) m (resultHeader s c x d r.sheaf r.payload.length r.tally) r.payload ref s) s

/-- A retained result is read and verified; one whose copy fails is recalled, the others are sent again (R151, R440).
(DEDUCED, log entry 70.) -/
def resendVerified (c : Nat) (m : BitVec 1024) (bad : List Nat) (r : Retained) (s : State) : State :=
  if bad.contains r.index then recallRun c 1 { first := r.index, log := 0, count := 1 } s else resendResult c m r s

/-- CTX_RESEND_BRANCH (R440); `bad` are the indices whose retained copy fails its check (R151). (DEDUCED, log entry 70.) -/
def ctxResendBranch (args : List Word) (bad : List Nat) (s : State) : Res :=
  match branchCheck args s with
  | some (st, d) => cmdRefuse st d s
  | none =>
    let c := argN args 1
    let l := branchSlots s (theCtx s c) (argN args 2) (argN args 3) (argN args 4)
    let skipped := argN args 4 - argN args 3 + 1 - (l.filter fun r => !bad.contains r.index).length
    cmdOkWith [w32 skipped] (l.foldl (fun s r => resendVerified c (maskOf args 5) bad r s) s)

/-! ### Meanings -/

/-- CTX_CREATE. -/
def execCtxCreate (h : CmdHdr) (args : List Word) (s : State) : Host.Outcome State Fault Refusal :=
  runMailbox ⟨0x0601, 1, true⟩ (fun _ => 2) (fun _ s => ctxCreate args s) h args s
/-- CTX_ABORT. -/
def execCtxAbort (h : CmdHdr) (args : List Word) (s : State) : Host.Outcome State Fault Refusal :=
  runMailbox ⟨0x0602, 0, true⟩ (fun _ => 1) (fun _ s => ctxAbort args s) h args s
/-- CTX_REARM. -/
def execCtxRearm (h : CmdHdr) (args : List Word) (s : State) : Host.Outcome State Fault Refusal :=
  runMailbox ⟨0x0603, 1, true⟩ (fun a => if argN a 3 = 1 then 5 else 3) (fun _ s => ctxRearm args s) h args s
/-- CTX_SUBSTITUTE. -/
def execCtxSubstitute (h : CmdHdr) (args : List Word) (s : State) : Host.Outcome State Fault Refusal :=
  runMailbox ⟨0x0604, 1, true⟩ (fun _ => 4) (fun _ s => ctxSubstitute args s) h args s
/-- CTX_DESTROY. -/
def execCtxDestroy (h : CmdHdr) (args : List Word) (s : State) : Host.Outcome State Fault Refusal :=
  runMailbox ⟨0x0605, 1, true⟩ (fun _ => 1) (fun _ s => ctxDestroy args s) h args s
/-- CTX_STATUS_READ. -/
def execCtxStatusRead (h : CmdHdr) (args : List Word) (s : State) : Host.Outcome State Fault Refusal :=
  runMailbox ⟨0x0606, 1, true⟩ (fun _ => 4) (fun _ s => ctxStatusRead args s) h args s
/-- CTX_READ. -/
def execCtxRead (h : CmdHdr) (args : List Word) (s : State) : Host.Outcome State Fault Refusal :=
  runMailbox ⟨0x0607, 3, true⟩ (fun _ => 3) (fun _ s => ctxRead args s) h args s
/-- CTX_BRANCH_READ. -/
def execCtxBranchRead (h : CmdHdr) (args : List Word) (s : State) : Host.Outcome State Fault Refusal :=
  runMailbox ⟨0x0608, 1, true⟩ (fun _ => 6) (fun _ s => ctxBranchRead args s) h args s
/-- CTX_RESEND_BRANCH. -/
def execCtxResendBranch (h : RereadHdr) (args : List Word) (s : State) : Host.Outcome State Fault Refusal :=
  runMailbox ⟨0x0609, 1, true⟩ (fun _ => 36) (fun _ s => ctxResendBranch args h.bad s) h.toCmdHdr args s

end Sys2Proof.Machine
end

