-- ==== Sys2Proof/Machine/Crypto.lean ====
section
/-! DEFINITION. SHA-256 and the verification of ECDSA P-256 signatures (R383, R387, R388, R391). The manual names both and
gives neither: their constants and steps are those of FIPS 180-4 and FIPS 186-5. -/

namespace Sys2Proof.Machine

/-! ### SHA-256 -/

/-- A 32-bit word turned right by `n` places. -/
def turn (x n : Nat) : Nat := (x * 2 ^ 32 + x) / 2 ^ n % 2 ^ 32

/-- A word turned by each of the amounts listed, and the results added without carries. -/
def turns (x : Nat) (amounts : List Nat) : Nat := amounts.foldl (fun y n => Nat.xor y (turn x n)) 0

/-- The sixty-four additive constants as four numbers of sixteen words, the first word most significant. -/
def shaKs : List Nat :=
  [0x428a2f9871374491b5c0fbcfe9b5dba53956c25b59f111f1923f82a4ab1c5ed5d807aa9812835b01243185be550c7dc372be5d7480deb1fe9bdc06a7c19bf174,
   0xe49b69c1efbe47860fc19dc6240ca1cc2de92c6f4a7484aa5cb0a9dc76f988da983e5152a831c66db00327c8bf597fc7c6e00bf3d5a7914706ca635114292967,
   0x27b70a852e1b21384d2c6dfc53380d13650a7354766a0abb81c2c92e92722c85a2bfe8a1a81a664bc24b8b70c76c51a3d192e819d6990624f40e3585106aa070,
   0x19a4c1161e376c082748774c34b0bcb5391c0cb34ed8aa4a5b9cca4f682e6ff3748f82ee78a5636f84c878148cc7020890befffaa4506cebbef9a3f7c67178f2]

/-- Additive constant number `i`. -/
def shaK (i : Nat) : Nat := shaKs.getD (i / 16) 0 / 2 ^ (32 * (15 - i % 16)) % 2 ^ 32

/-- The `n` 32-bit words of a number, most significant first. -/
def wordsAt (n x : Nat) : List Nat :=
  match n with
  | 0 => []
  | n + 1 => x / 2 ^ (32 * n) % 2 ^ 32 :: wordsAt n x

/-- The words of the hash value before the first block. -/
def shaIv : List Nat := wordsAt 8 0x6a09e667bb67ae853c6ef372a54ff53a510e527f9b05688c1f83d9ab5be0cd19

/-- The word that enters a window of sixteen schedule words when its first one leaves. -/
def shaNext (win : List Nat) : Nat :=
  let at1 := win.getD 1 0
  let at14 := win.getD 14 0
  (win.getD 0 0 + Nat.xor (turns at1 [7, 18]) (at1 / 8) + win.getD 9 0 + Nat.xor (turns at14 [17, 19]) (at14 / 1024)) % 2 ^ 32

/-- One round on the eight working words, with `kw` the sum of its constant and its schedule word. -/
def shaStep (kw : Nat) (v : List Nat) : List Nat :=
  match v with
  | [a, b, c, d, e, f, g, h] =>
    let choice := Nat.xor g (Nat.land e (Nat.xor f g))
    let most := Nat.lor (Nat.land a b) (Nat.land c (Nat.lor a b))
    let x := h + kw + choice + turns e [6, 11, 25]
    [(x + most + turns a [2, 13, 22]) % 2 ^ 32, a, b, c, (x + d) % 2 ^ 32, e, f, g]
  | _ => v

/-- The last `n` rounds of sixty-four: each takes the first word of the window, which moves on by one. -/
def shaRounds (n : Nat) (win v : List Nat) : List Nat :=
  match n with
  | 0 => v
  | n + 1 => shaRounds n (win.drop 1 ++ [shaNext win]) (shaStep (shaK (63 - n) + win.getD 0 0) v)

/-- The hash value after `n` further blocks of 64 bytes. -/
def shaBlocks (n : Nat) (v : List Nat) (l : List Byte) : List Nat :=
  match n with
  | 0 => v
  | n + 1 =>
    shaBlocks n (List.zipWith (fun x y => (x + y) % 2 ^ 32) v (shaRounds 64 (wordsAt 16 (ofBe (l.take 64))) v)) (l.drop 64)

/-- SHA-256 of a byte string. (PRESUMED, log entry 126.) -/
def sha256 (l : List Byte) : List Byte :=
  let padded := l ++ [0x80] ++ List.replicate ((119 - l.length % 64) % 64) 0 ++ beBytes 8 (8 * l.length)
  (shaBlocks (padded.length / 64) shaIv padded).flatMap fun x => beBytes 4 x

/-! ### P-256 -/

def p256P : Nat := 0xffffffff00000001000000000000000000000000ffffffffffffffffffffffff
def p256N : Nat := 0xffffffff00000000ffffffffffffffffbce6faada7179e84f3b9cac2fc632551
def p256B : Nat := 0x5ac635d8aa3a93e7b3ebbd55769886bc651d06b0cc53b0f63bce3c3e27d2604b
def p256Gx : Nat := 0x6b17d1f2e12c4247f8bce6e563a440f277037d812deb33a0f4a13945d898c296
def p256Gy : Nat := 0x4fe342e2fe1a7f9b8ee7eb4a7c0f9e162bce33576b315ececbb6406837bf51f5

/-- Difference modulo the field prime. -/
def fsub (a b : Nat) : Nat := (a + p256P - b % p256P) % p256P

/-- Product modulo the field prime. -/
def fmul (a b : Nat) : Nat := a * b % p256P

/-- A power modulo `m`, over at most `n` bits of the exponent. -/
def powMod (n b e m : Nat) : Nat :=
  match n with
  | 0 => 1
  | n + 1 =>
    if e = 0 then 1
    else
      let h := powMod n (b * b % m) (e / 2) m
      if e % 2 = 1 then h * b % m else h

/-- The inverse modulo a prime. -/
def invMod (a m : Nat) : Nat := powMod 256 (a % m) (m - 2) m

/-- A point in Jacobian coordinates; `z` is 0 at infinity. -/
structure Pt where
  x : Nat
  y : Nat
  z : Nat
  deriving DecidableEq, Repr

/-- The point at infinity. -/
def ptInf : Pt := { x := 1, y := 1, z := 0 }

/-- Twice a point. -/
def ptDbl (p : Pt) : Pt :=
  if p.z = 0 ∨ p.y = 0 then ptInf
  else
    let y2 := fmul p.y p.y
    let s := fmul 4 (fmul p.x y2)
    let z2 := fmul p.z p.z
    let m := fmul 3 (fmul (fsub p.x z2) ((p.x + z2) % p256P))
    let x := fsub (fmul m m) (fmul 2 s)
    { x := x, y := fsub (fmul m (fsub s x)) (fmul 8 (fmul y2 y2)), z := fmul 2 (fmul p.y p.z) }

/-- The sum of two points. -/
def ptAdd (p q : Pt) : Pt :=
  if p.z = 0 then q
  else if q.z = 0 then p
  else
    let zp := fmul p.z p.z
    let zq := fmul q.z q.z
    let u1 := fmul p.x zq
    let s1 := fmul p.y (fmul zq q.z)
    let h := fsub (fmul q.x zp) u1
    let r := fsub (fmul q.y (fmul zp p.z)) s1
    if h = 0 then (if r = 0 then ptDbl p else ptInf)
    else
      let h2 := fmul h h
      let h3 := fmul h h2
      let v := fmul u1 h2
      let x := fsub (fsub (fmul r r) h3) (fmul 2 v)
      { x := x, y := fsub (fmul r (fsub v x)) (fmul s1 h3), z := fmul h (fmul p.z q.z) }

/-- A multiple of a point, over at most `n` bits. -/
def ptMul (n k : Nat) (p : Pt) : Pt :=
  match n with
  | 0 => ptInf
  | n + 1 => if k = 0 then ptInf else
    let h := ptMul n (k / 2) (ptDbl p)
    if k % 2 = 1 then ptAdd h p else h

/-- The generator of the curve. (PRESUMED, log entry 126.) -/
def ptGen : Pt := { x := p256Gx, y := p256Gy, z := 1 }

/-- A public key x then y names a point of the curve. (PRESUMED, log entry 126.) -/
def onCurve (x y : Nat) : Bool :=
  decide (x < p256P ∧ y < p256P) && fmul y y == (fmul x (fmul x x) + p256B + (p256P - fmul 3 x)) % p256P

/-- A signature r then s over the message verifies under a public key x then y, all big-endian (R383).
(PRESUMED, log entry 126.) -/
def ecdsaOk (key msg sig : List Byte) : Bool :=
  let qx := ofBe (key.take 32)
  let qy := ofBe ((key.drop 32).take 32)
  let r := ofBe (sig.take 32)
  let s := ofBe ((sig.drop 32).take 32)
  decide (0 < r ∧ r < p256N ∧ 0 < s ∧ s < p256N) && onCurve qx qy &&
    (let w := invMod s p256N
     let e := ofBe (sha256 msg) % p256N
     let t := ptAdd (ptMul 256 (e * w % p256N) ptGen)
       (ptMul 256 (r * w % p256N) { x := qx, y := qy, z := 1 })
     let z := invMod t.z p256P
     t.z != 0 && fmul t.x (fmul z z) % p256N == r)

/-- The affine x of a point. (PRESUMED, log entry 126.) -/
def ptX (p : Pt) : Nat :=
  let z := invMod p.z p256P
  fmul p.x (fmul z z)

/-- The affine y of a point. (PRESUMED, log entry 126.) -/
def ptY (p : Pt) : Nat :=
  let z := invMod p.z p256P
  fmul p.y (fmul z (fmul z z))

/-- The public key of a private key, x then y, both big-endian (R383). (PRESUMED, log entry 126.) -/
def pubKey (d : Nat) : List Byte := beBytes 32 (ptX (ptMul 256 d ptGen)) ++ beBytes 32 (ptY (ptMul 256 d ptGen))

/-- The signature r then s over a message with private key `d` and the number `k` drawn for it (R391).
(PRESUMED, log entry 126.) -/
def ecdsaSign (d k : Nat) (msg : List Byte) : List Byte :=
  let r := ptX (ptMul 256 k ptGen) % p256N
  beBytes 32 r ++ beBytes 32 (invMod k p256N * (ofBe (sha256 msg) + r * d) % p256N)

end Sys2Proof.Machine
end

