-- ==== Sys2Proof/Machine/TimeCmds.lean ====
section
/-! DEFINITION. Steps of device time, the servo, TIME packets, the PPS and capture pins, and the time commands
(R295 to R311, R321, R322). -/

namespace Sys2Proof.Machine

/-! ### Steps (R297, R309) -/

/-- An instant moved by a step. (DESIGN CHOICE, log entry 107.) -/
def moveBy (d : Int) (t : Nat) : Nat := ((t : Int) + d).toNat

/-- Instants moved by a step. (DESIGN CHOICE, log entry 107.) -/
def moveAll (d : Int) (l : List Nat) : List Nat := l.map (moveBy d)

/-- Every entry of a table changed. (DESIGN CHOICE, log entry 107.) -/
def tabMap {α : Type} (f : α → α) (t : Tab α) : Tab α := t.map fun e => (e.1, f e.2)

/-- Running intervals of routing, the switch core and the memory tiers move with a step. (DESIGN CHOICE, log entry 107.) -/
def moveCore (d : Int) (s : State) : State :=
  let s := s.modRouting fun r => 
    let upd (u : LearnUpd) : LearnUpd := { u with at_ := moveBy d u.at_ }
    { r with drainEnd := moveBy d r.drainEnd, moves := tabMap (moveAll d) r.moves, learnQ0 := r.learnQ0.map upd, learnQ1 := r.learnQ1.map upd }
  let s := s.modCore fun c => { c with planes := tabMap (fun p => { p with failures := moveAll d p.failures }) c.planes }
  let s := s.modCore fun c => { c with barns := tabMap (fun b => { b with
    stored := b.stored.map fun x => { x with info := { x.info with verAt := moveBy d x.info.verAt } } }) c.barns }
  s.modMem fun m => { m with ceCounts := tabMap (moveAll d) m.ceCounts,
                             arbs := tabMap (fun a => if a.owner.isSome then { a with since := moveBy d a.since } else a) m.arbs }

/-- Running intervals of contexts and units move with a step. (DESIGN CHOICE, log entry 107.) -/
def moveColl (d : Int) (s : State) : State :=
  let s := s.modColl (tabMap fun x =>
    { x with opens := x.opens.map fun o => (o.1, { o.2 with firstAt := moveBy d o.2.firstAt, stallAt := moveBy d o.2.stallAt }),
             retained := x.retained.map fun r => { r with releasedAt := moveBy d r.releasedAt } })
  s.modThresh fun t => { t with units := tabMap (fun u => { u with faultAt := moveAll d u.faultAt }) t.units }

/-- Running intervals of lanes, circuits and time itself move with a step. (DESIGN CHOICE, log entry 107.) -/
def moveRest (d : Int) (s : State) : State :=
  let s := s.modOptics fun o => { o with lanes := tabMap (fun x => { x with calAt := moveBy d x.calAt, drainAt := moveBy d x.drainAt }) o.lanes }
  let s := s.modLink fun k =>
    { k with lanes := tabMap (fun x => { x with uncorrAt := moveAll d x.uncorrAt, trainedAt := moveBy d x.trainedAt }) k.lanes }
  let s := s.modFlue (tabMap fun x =>
    { x with since := moveBy d x.since, nextAt := moveBy d x.nextAt, noticeAt := x.noticeAt.map (moveBy d) })
  let s := s.modTime fun t =>
    { t with holdFrom := moveBy d t.holdFrom, ppsRise := moveBy d t.ppsRise,
             ppsSet := t.ppsSet.map fun p => { p with since := moveBy d p.since } }
  let s := s.modSec fun c => { c with folds := c.folds.map fun f => { f with since := moveBy d f.since } }
  let s := s.modPower fun p => { p with pendAt := moveBy d p.pendAt }
  s.modCount fun c =>
    { c with tally := { c.tally with last := c.tally.last.map fun l => { l with start := moveBy d l.start },
                                     waiting := moveAll d c.tally.waiting },
             trace := { c.trace with recent := c.trace.recent.map fun x => (x.1, moveBy d x.2) } }

/-- Device time after a step of `d` in 1/256 ns stays at or above the PTP epoch and within 48 bits of seconds (R297).
(DESIGN CHOICE, log entry 107.) -/
def stepFits (s : State) (d : Rat) : Bool :=
  let t := (s.time.now : Rat) + s.time.sub + d
  decide (0 ≤ t) && decide (t < (secU (2 ^ 48) : Nat))

/-- A step by `d`, in 1/256 ns: device time jumps, running intervals keep their length, the τ of the next offset is the
nominal one, launches that are skipped execute late; instants fixed by their value occur at their values in the new time, those of a
repeated interval again (R305, R309, R404). (DESIGN CHOICE, log entry 107.) -/
def stepTime (d : Rat) (s : State) : State :=
  let old := s.time.now
  let t := (s.time.now : Rat) + s.time.sub + d
  let jump : Int := t.floor - old
  let s := moveRest jump (moveColl jump (moveCore jump s))
  let s := s.modTime fun x =>
    { x with now := t.floor.toNat, sub := t - t.floor, stepped := t.ceil.toNat, lastAt := none, stepCount := sat 65535 (x.stepCount + 1) }
  let s := s.modOptics fun o => { o with lastSlice := [] }
  let mag := (if d < 0 then -d else d).floor.toNat / 256000
  let s := s.modCount fun c => { c with tally := { c.tally with lastPer := none } }
  let s := tallyFlag 2 (capture 2 (bit (decide (d < 0)) * 2 ^ 23 + sat (2 ^ 23 - 1) mag) (bumpTime 3 s))
  if 0 < jump then kindleSkipped old s.time.now s else s

/-! ### Time states (R304) -/

/-- Enters a time state; a change is captured (R310). (DEDUCED, log entry 106.) -/
def setTimeState (x : Nat) (s : State) : State :=
  if s.time.state = x then s else capture 4 x (s.modTime fun t => { t with state := x })

/-- The state after a step or a dismissal: LOCKING with a source, HOLDOVER without one (R304, R307, R308).
(DESIGN CHOICE, log entry 105.) -/
def relock (s : State) : State :=
  let s := s.modTime fun t => { t with goodRun := 0, badRun := 0, stepRefused := false, holdFrom := t.now }
  setTimeState (if s.time.srcKind = 0 then 3 else 1) s

/-- Device time is lost: UNSET, PPS out low, every armed entry disarmed with REFUSED_TIME (R298, R303).
(DESIGN CHOICE, log entry 107.) -/
def loseTime (s : State) : State :=
  let s := setTimeState 0 (s.modTime fun t => { t with stepRefused := false })
  let s := if s.time.ppsOut then emit (.ppsOut false) (s.modTime fun t => { t with ppsOut := false }) else s
  kindleDrop (fun _ => true) 6 s

/-! ### The servo (R304, R305) -/

/-- A rational in whole units: one between two units reads as one of them, which one is a free value.
(DESIGN CHOICE, log entry 105.) -/
def toUnits (q : Rat) (s : State) : Int × State :=
  if q.den = 1 then (q.num, s) else (q.floor + (freeBelow s 2 : Nat), s.tookFree)

/-- A rational clamped to a bound on its magnitude. (DESIGN CHOICE, log entry 105.) -/
def clampR (b q : Rat) : Rat := if q < -b then -b else if b < q then b else q

/-- The magnitude of a rational. -/
def absR (q : Rat) : Rat := if q < 0 then -q else q

/-- The source's nominal interval: 1 s for PPS, 2^LOG_SYNC s for a port (R305). (DESIGN CHOICE, log entry 105.) -/
def nominal (s : State) : Nat :=
  if s.time.srcKind = 1 then secU 1 / 2 ^ (-(tget s.time.ports {} s.time.srcPort).logSync).toNat else secU 1

/-- τ: the interval since the previous accepted offset of the source, or the nominal one (R305).
(DESIGN CHOICE, log entry 105.) -/
def tau (s : State) : Nat :=
  match s.time.lastAt with
  | some t => if t < s.time.now then s.time.now - t else nominal s
  | none => nominal s

/-- An offset that the servo accepts: rate, runs and the lock (R304, R305). (DESIGN CHOICE, log entry 105.) -/
def acceptOffset (th : Rat) (s : State) : State :=
  let x := s.time
  let slew : Rat := (x.slewPpm : Rat) / 1000000
  let q := th / (tau s : Nat)
  let integ := clampR slew (x.integ - q / (2 ^ x.ishift : Nat))
  let rate := clampR slew (integ - q / (2 ^ x.pshift : Nat))
  let good := decide (absR th ≤ 2560)
  let s := s.modTime fun t =>
    { t with integ := integ, rate := rate, offsets := sat (2 ^ 32 - 1) (t.offsets + 1), lastAt := some t.now, holdFrom := t.now,
             goodRun := if good then t.goodRun + 1 else 0, badRun := if good then 0 else t.badRun + 1 }
  let s := bumpTime 4 s
  let s := if s.time.state = 3 then setTimeState 1 s else s
  if s.time.state = 1 ∧ 16 ≤ s.time.goodRun then setTimeState 2 s
  else if s.time.state = 2 ∧ 4 ≤ s.time.badRun then setTimeState 1 s
  else s

/-- An offset θ of the source, in 1/256 ns (R305, R307); one of PPS is ignored while the state is UNSET.
(DESIGN CHOICE, log entry 105; DEDUCED, log entry 106.) -/
def onOffset (th : Rat) (s : State) : State :=
  if s.time.state = 0 ∧ s.time.srcKind ≠ 1 then s else
  let (u, s) := toUnits th s
  let s := s.modTime fun t => { t with lastOffset := clampI (-2147483648) 2147483647 u }
  let refuse (s : State) : State :=
    s.modTime fun t => { t with pending := u, refusedCount := sat 65535 (t.refusedCount + 1) }
  if s.time.state = 0 then
    if stepFits s (-th) then
      relock (stepTime (-th) (bumpTime 4 (s.modTime fun t => { t with offsets := sat (2 ^ 32 - 1) (t.offsets + 1) })))
    else bumpTime 2 s
  else if s.time.state = 4 then refuse s
  else if ((s.time.stepNs * 256 : Nat) : Rat) < absR th then
    let s := setTimeState 4 ((refuse s).modTime fun t => { t with stepRefused := true })
    capture 3 (sat (2 ^ 23 - 1) (u.natAbs / 256000)) (bumpTime 2 s)
  else acceptOffset th s

/-- HOLDOVER_TIMEOUT: no offset has been accepted for HOLDOVER_MS (R304). -/
def holdoverTimeout (s : State) : State :=
  if (s.time.state = 1 ∨ s.time.state = 2) ∧ s.time.holdFrom + usU (1000 * s.time.holdoverMs) ≤ s.time.now then
    setTimeState 3 (s.modTime fun t => { t with goodRun := 0, badRun := 0 })
  else s

/-! ### PTP messages (R299 to R302) -/

/-- A big-endian field of a message. (PRESUMED, log entry 108.) -/
def ptpNum (m : List Byte) (i n : Nat) : Nat := ofBe ((m.drop i).take n)

/-- messageType, and the length below which a message of that type is none: 0 for a type that is not supported.
(PRESUMED, log entry 108.) -/
def ptpType (m : List Byte) : Nat := ptpNum m 0 1 % 16
def ptpLeast (typ : Nat) : Nat :=
  if typ = 0 ∨ typ = 1 ∨ typ = 8 then 44
  else if typ = 2 ∨ typ = 3 ∨ typ = 9 ∨ typ = 10 then 54
  else if typ = 11 then 64
  else 0

/-- correctionField in 1/256 ns. (PRESUMED, log entry 108.) -/
def ptpCorr (m : List Byte) : Rat := ((BitVec.ofNat 64 (ptpNum m 8 8)).toInt : Rat) / 256

/-- The timestamp at byte 34 in 1/256 ns. (PRESUMED, log entry 108.) -/
def ptpStamp (m : List Byte) : Rat := (((ptpNum m 34 6 * 1000000000 + ptpNum m 40 4) * 256 : Nat) : Rat)

def ptpSeq (m : List Byte) : Nat := ptpNum m 30 2
def ptpTwoStep (m : List Byte) : Bool := ptpNum m 6 1 / 2 % 2 == 1

/-- This port's identity: CLOCK_ID and the port number plus 1 (R299). (PRESUMED, log entry 108.) -/
def ptpIdent (s : State) (port : Nat) : List Byte := beBytes 8 s.time.clockId.toNat ++ beBytes 2 (port + 1)

/-- A message of the device: its header by R299 and its body. (PRESUMED, log entry 108.) -/
def ptpMsg (s : State) (port typ seq ctl : Nat) (two : Bool) (log : Int) (corr : Int) (body : List Byte) : List Byte :=
  [BitVec.ofNat 8 typ, 0x12] ++ beBytes 2 (34 + body.length) ++
    [BitVec.ofNat 8 s.time.domain, 0, if two then 2 else 0, 8] ++ beBytes 8 (BitVec.ofInt 64 corr).toNat ++ beBytes 4 0 ++
    ptpIdent s port ++ beBytes 2 seq ++ [BitVec.ofNat 8 ctl, BitVec.ofInt 8 log] ++ body

/-- SEC and NS of a stamp. (PRESUMED, log entry 108.) -/
def ptpTime (t : Nat) : List Byte := beBytes 6 (secOf t) ++ beBytes 4 (nsOf t)

/-- A stamp of a timing point at this instant, within 0.8 ns (R301). (DESIGN CHOICE, log entry 48.) -/
def stampNow (s : State) : Nat × State := (s.time.now - 204 + freeBelow s 409, s.tookFree)

/-- `n` bytes that no rule gives: free values. (DESIGN CHOICE, log entry 3.) -/
def freeBytes (n : Nat) (s : State) : List Byte × State :=
  (List.range n).foldl (fun (r : List Byte × State) _ => (r.1 ++ [BitVec.ofNat 8 (freeBelow r.2 256)], r.2.tookFree)) ([], s)

/-- The lane that carries a port's TIME packets: its lowest-numbered one in service (R301). -/
def timeLane (s : State) (port : Nat) : Option Nat := if (thePort s port).up then (servingLanes s port).head? else none

/-- The header of a TIME packet (R50, R300). -/
def timeHeader (s : State) (port typ len : Nat) : Header :=
  let h := ownHeader s Kind.time 7 false 0 (ownId s) (len / 16) 0 (pack [(28, typ), (18, port)]) 0 0 0
  let h := if (thePort s port).v0 then { h with w0 := h.w0 &&& 0x3FFFFFFF } else h
  h.withEpoch (activeEpoch s)


/-- A port's time configuration. -/
def thePtp (s : State) (p : Nat) : PortTime := tget s.time.ports {} p

/-- Changes a port's time configuration. -/
def modPtp (p : Nat) (f : PortTime → PortTime) (s : State) : State :=
  s.modTime fun t => { t with ports := tmod t.ports {} p f }

/-! ### Sending (R118, R256, R301, R302) -/

/-- A TIME packet leaves in a TIME flit of its own, with its CRC-64 (R31, R52, R256); it ends at END_OFF. -/
def putTime (port lane : Nat) (m : List Byte) (s : State) : State :=
  let len := (m.length + 15) / 16 * 16
  let h := timeHeader s port (ptpType m) len
  let k : Packet := { hdr := h, payload := padTo 0 len m, crc := packetCrc h (padTo 0 len m) }
  let s := markerDue lane s
  let s := putRaw lane (makeFlit s lane 4 0 (pack [(20, k.wire.length / 8)]) k.wire) s
  emit (.timePacket port lane h k.payload k.crc) (bumpTime 5 s)

/-- A message waits to be sent on a port. -/
def queueTime (port : Nat) (m : List Byte) (use : StampUse) (s : State) : State :=
  s.modLink fun k => { k with timeQ := tset k.timeQ [] port (tget k.timeQ [] port ++ [{ msg := m, use := use }]) }

/-- What becomes of the transmit stamp of a message: the instant of a request, or a Follow_Up (R301).
(PRESUMED, log entry 108.) -/
def stamped (p : Nat) (x : TimeOut) (t : Nat) (s : State) : State :=
  match x.use with
  | .none => s
  | .request => modPtp p (fun y => { y with t3 := (t : Rat), awaitPd := none }) s
  | .syncFollow => queueTime p (ptpMsg s p 8 (ptpSeq x.msg) 2 false (thePtp s p).logSync (t % 256 * 256 : Nat) (ptpTime t)) .none s
  | .pdelayFollow req =>
    let corr : Int := (BitVec.ofNat 64 (ptpNum req 8 8)).toInt + (t % 256 * 256 : Nat)
    queueTime p (ptpMsg s p 10 (ptpSeq req) 5 false 127 corr (ptpTime t ++ (req.drop 20).take 10)) .none s

/-- The queued TIME packets of a port leave on its lowest-numbered lane in service, each stamped as it is sent, unless a packet
is being sent there (R256, R301); at most `n` of them. -/
def timeGo (n p : Nat) (s : State) : State :=
  match n with
  | 0 => s
  | n + 1 =>
    match tget s.link.timeQ [] p, timeLane s p with
    | x :: rest, some l =>
      if (laneLink s l).tx.isSome then s
      else
        let (t, s) := stampNow (s.modLink fun k => { k with timeQ := tset k.timeQ [] p rest })
        timeGo n p (stamped p x t (putTime p l x.msg s))
    | _, _ => s

/-- Queued TIME packets of a port leave, with their Follow_Ups. -/
def timeFlush (p : Nat) (s : State) : State := timeGo (2 * (tget s.link.timeQ [] p).length) p s

/-- Sends one message on a port, as soon as its lane lets it. -/
def sendTime (port : Nat) (m : List Byte) (use : StampUse) (s : State) : State := timeFlush port (queueTime port m use s)

/-- EGRESS_SELECT: a queued TIME packet goes first, then the scheduler selects; seeds whose last packet has been selected end
(R118, R332). -/
def portSelect (p : Nat) (parityFails : Bool) (s : State) : State :=
  let s := match timeLane s p with
    | some l => pump l (timeFlush p s)
    | none => s
  if tget s.link.timeQ [] p = [] then settleSeeds (egressSelect p parityFails s) else s

/-- PTP_SYNC_SEND: a two-step Sync, which its Follow_Up with the transmit stamp follows. (PRESUMED, log entry 108.) -/
def syncSend (p : Nat) (s : State) : State :=
  let x := thePtp s p
  if (timeLane s p).isSome ∧ x.role = 1 ∧ !timeUnset s then
    let (o, s) := freeBytes 10 s
    let s := modPtp p (fun x => { x with syncSeq := (x.syncSeq + 1) % 65536 }) s
    sendTime p (ptpMsg s p 0 x.syncSeq 0 true x.logSync 0 o) .syncFollow s
  else s

/-- PTP_DELAY_REQ_SEND: a Pdelay_Req with DELAY_MECH 1, otherwise a slave's Delay_Req; its transmit stamp is kept.
(PRESUMED, log entry 108.) -/
def delayReqSend (p : Nat) (s : State) : State :=
  let x := thePtp s p
  if (timeLane s p).isSome ∧ (x.mech = 1 ∨ x.role = 2) then
    let (o, s) := freeBytes 10 s
    let m := if x.mech = 1 then ptpMsg s p 2 x.delaySeq 5 false 127 0 (o ++ beBytes 10 0)
      else ptpMsg s p 1 x.delaySeq 1 false 127 0 o
    sendTime p m .request (modPtp p (fun x => { x with delaySeq := (x.delaySeq + 1) % 65536 }) s)
  else s

/-- PTP_ANNOUNCE_SEND: what the manual does not give of the message is free. (PRESUMED, log entry 108.) -/
def announceSend (p : Nat) (s : State) : State :=
  let x := thePtp s p
  if (timeLane s p).isSome ∧ x.role = 1 ∧ !timeUnset s then
    let (o, s) := freeBytes 30 s
    let s := modPtp p (fun x => { x with announceSeq := (x.announceSeq + 1) % 65536 }) s
    sendTime p (ptpMsg s p 11 x.announceSeq 5 false x.logAnnounce 0 o) .none s
  else s

/-! ### Receiving (R300, R301) -/

/-- A port is the servo's source. -/
def isSource (s : State) (p : Nat) : Bool := s.time.srcKind == 1 && s.time.srcPort == p && (thePtp s p).role == 2

/-- The offset of the last Sync, once a mean delay is known; each Sync gives one offset. (PRESUMED, log entry 108.) -/
def syncOffset (p : Nat) (s : State) : State :=
  let x := thePtp s p
  if x.fresh && x.haveDelay then
    let s := modPtp p (fun x => { x with fresh := false }) s
    if isSource s p then onOffset (x.t2 - x.t1 - x.meanDelay - x.asym) s else s
  else s

/-- The times of a Sync are complete: t1 with the corrections, and t2. (PRESUMED, log entry 108.) -/
def syncDone (p : Nat) (t1 t2 : Rat) (s : State) : State :=
  syncOffset p (modPtp p (fun x => { x with t1 := t1, t2 := t2, haveSync := true, fresh := true, awaitSeq := none }) s)

/-- A mean delay has been measured on a port. (PRESUMED, log entry 108.) -/
def delayDone (p : Nat) (d : Rat) (s : State) : State :=
  let s := modPtp p (fun x => { x with meanDelay := d, haveDelay := true, awaitPd := none }) s
  let (u, s) := toUnits d s
  syncOffset p (if isSource s p then s.modTime fun t => { t with pathDelay := u } else s)

/-- The request that a response answers is the device's last one on the port. (PRESUMED, log entry 108.) -/
def answersReq (s : State) (p : Nat) (m : List Byte) : Bool :=
  (m.drop 44).take 10 == ptpIdent s p && (ptpSeq m + 1) % 65536 == (thePtp s p).delaySeq

/-- One message that a port has received, with its receive stamp (R299, R301, R302); of an Announce
the grandmaster's fields are kept. (PRESUMED, log entry 108.) -/
def ptpReceive (p : Nat) (m : List Byte) (t : Nat) (s : State) : State :=
  let x := thePtp s p
  let slave := x.role == 2
  match ptpType m with
  | 0 =>
    if !slave then s
    else if ptpTwoStep m then
      modPtp p (fun x => { x with awaitSeq := some (ptpSeq m), rxStamp := (t : Rat), rxCorr := ptpCorr m }) s
    else syncDone p (ptpStamp m + ptpCorr m) t s
  | 8 => if slave && x.awaitSeq == some (ptpSeq m) then syncDone p (ptpStamp m + x.rxCorr + ptpCorr m) x.rxStamp s else s
  | 1 =>
    if x.role = 1 then
      let corr : Int := (BitVec.ofNat 64 (ptpNum m 8 8)).toInt - (t % 256 * 256 : Nat)
      sendTime p (ptpMsg s p 9 (ptpSeq m) 3 false x.logDelay corr (ptpTime t ++ (m.drop 20).take 10)) .none s
    else s
  | 9 =>
    if slave && x.mech == 0 && x.haveSync && answersReq s p m then
      delayDone p ((x.t2 - x.t1 + (ptpStamp m - ptpCorr m - x.t3)) / 2) s
    else s
  | 2 =>
    if x.mech = 1 then
      sendTime p (ptpMsg s p 3 (ptpSeq m) 5 true 127 (-(t % 256 * 256 : Nat)) (ptpTime t ++ (m.drop 20).take 10)) (.pdelayFollow m) s
    else s
  | 3 =>
    if x.mech = 1 ∧ answersReq s p m then
      if ptpTwoStep m then
        modPtp p (fun x => { x with awaitPd := some (ptpSeq m), t4 := (t : Rat), pt2 := ptpStamp m, pcorr := ptpCorr m }) s
      else delayDone p (((t : Rat) - x.t3 - ptpCorr m) / 2) s
    else s
  | 10 =>
    if x.mech = 1 ∧ answersReq s p m ∧ x.awaitPd = some (ptpSeq m) then
      delayDone p ((x.t4 - x.t3 - (ptpStamp m - x.pt2) - x.pcorr - ptpCorr m) / 2) s
    else s
  | 11 => modPtp p (fun x => { x with gm := (m.drop 47).take 14 }) s
  | _ => s

/-- A TLV of unicast negotiation or of security stands among those that follow a message's fields (R299).
(PRESUMED, log entry 108.) -/
def tlvRefused (n : Nat) (rest : List Byte) : Bool :=
  match n with
  | 0 => false
  | n + 1 =>
    if rest.length < 4 then false
    else
      let typ := ptpNum rest 0 2
      (decide (4 ≤ typ ∧ typ ≤ 7) || decide (0x2000 ≤ typ ∧ typ ≤ 0x2002) || typ == 0x8009) ||
        tlvRefused n (rest.drop (4 + ptpNum rest 2 2))

/-- Why a TIME packet is dropped (R299, R300): its lengths, its type, its TLVs, its version or domain, or a DISABLED port, which
answers a Pdelay_Req by DELAY_MECH 1 all the same (R302). (PRESUMED, log entry 108.) -/
def timeDrops (s : State) (p : Nat) (k : Packet) : Bool :=
  let m := k.payload
  let ml := ptpNum m 2 2
  let typ := ptpType m
  k.hdr.len != (ml + 15) / 16 || !payloadFits k || fld k.hdr.w4 31 28 != typ || ptpNum m 1 1 % 16 != 2 ||
    ptpNum m 4 1 != s.time.domain || ptpLeast typ == 0 || decide (ml < ptpLeast typ) ||
    tlvRefused 64 ((m.take ml).drop (ptpLeast typ)) ||
    ((thePtp s p).role == 0 && !(typ == 2 && (thePtp s p).mech == 1))

/-- TIME_PACKET_RX: a TIME packet, which fits into a flit, is consumed at ingress, counted and judged (R50, R53, R256, R300, R400).
(DESIGN CHOICE, log entries 109, 138.) -/
def timePacketRx (lane : Nat) (k : Packet) (s : State) : State :=
  match portOfLane s lane with
  | some p =>
    if takesPackets s lane p && isTime k.hdr && decide (k.hdr.len ≤ 12) then
      let b := barnOf p
      let n := k.hdr.pktBytes
      let s := bumpBy (ctr 4 b (p % 64)) n (bump (ctr 3 b (p % 64)) (bumpBy (ctr 1 b 1) n (bumpIn b 0 s)))
      if !crcOk k then termCrcFail p k s
      else if timeDrops s p k then bumpTime 1 s
      else
        let (t, s) := stampNow (bumpTime 6 s)
        ptpReceive p (k.payload.take (ptpNum k.payload 2 2)) t s
    else s
  | none => s

/-! ### Pins (R303, R308, R310) -/

/-- A pin's stamp, within 2 ns of an instant. (DESIGN CHOICE, log entry 48.) -/
def pinStamp (t : Nat) (s : State) : Nat × State := (t - 512 + freeBelow s 1025, s.tookFree)

/-- A TIME_SET that waited for an edge with a stamp: device time takes whole seconds there, and the command ends (R308).
(DESIGN CHOICE, log entry 109.) -/
def setAtEdge (stamp : Nat) (x : PpsSet) (s : State) : State :=
  endWith x.cmd St.ok 0 (relock (stepTime (((secU (secOf x.value) : Nat) : Rat) - (stamp : Nat)) s))

/-- Whether an edge of an input comes within the minimum interval (in ps) after another of the same pin (R419). -/
def edgeSoon (s : State) (pin gap : Nat) : Bool :=
  s.time.pinAt.any fun e => e.1 == pin && decide (s.time.hearthPs < e.2 + gap)

/-- Whether an edge of an input is seen: one within the minimum interval (in ps) after another of the same pin may be missed
(R419), which a free value decides. (DESIGN CHOICE, log entry 110.) -/
def edgeSeen (pin gap : Nat) (s : State) : Bool × State :=
  let soon := edgeSoon s pin gap
  let s := s.modTime fun t => { t with pinAt := tput t.pinAt pin t.hearthPs }
  if soon then (decide (freeBelow s 2 = 0), s.tookFree) else (true, s)

/-- What an edge of PPS in does that is seen (R303, R308): a TIME_SET that has waited 2 s by its stamp ends EXPIRED, the others take it.
The stamp of an edge for which a TIME_SET waited gives no offset. (DEDUCED, log entry 106; DESIGN CHOICE, log entry 109.) -/
def ppsStamped (s : State) : State :=
  let (t, s) := pinStamp s.time.now s
  let t := ((t : Int) - s.time.ppsDelay).toNat
  let s := captureAt 0 0 t s
  match s.time.ppsSet with
  | [] =>
    if s.time.srcKind = 2 then
      let f := t % secU 1
      onOffset (if f < secU 1 / 2 then (f : Rat) else (f : Rat) - (secU 1 : Nat)) s
    else s
  | xs =>
    let late (x : PpsSet) : Bool := decide (x.since + secU 2 ≤ t)
    let s := (xs.filter late).foldl (fun s x => endWith x.cmd St.expired 0 s) (s.modTime fun x => { x with ppsSet := [] })
    ((xs.filter fun x => !late x).foldl (fun (r : Nat × State) x => (secU (secOf x.value), setAtEdge r.1 x r.2)) (t, s)).2

/-- PPS_IN_EDGE; the pin belongs to H0.TIME (R303, R308, R419). (DESIGN CHOICE, log entry 110.) -/
def ppsInEdge (s : State) : State :=
  if !timeOn s 0 then s
  else
    let (seen, s) := edgeSeen 8 500000000000 s
    if seen then ppsStamped s else s

/-- PPS_OUT_EDGE: device time has reached a whole second by running, and its edge has not yet risen, while the state is not UNSET and
H0.TIME, to which the pin belongs, is powered (R303, R419). (DESIGN CHOICE, log entry 6.) -/
def ppsOutEdge (s : State) : State :=
  let m := secU (secOf s.time.now)
  if timeUnset s || !timeOn s 0 || !reached s m || (s.time.ppsOut && decide (m ≤ s.time.ppsRise)) then s
  else
    let (t, s) := pinStamp m s
    emit (.ppsOut true) (captureAt 1 0 t (s.modTime fun x => { x with ppsOut := true, ppsRise := x.now }))

/-- PPS_OUT_FALL after PPS_WIDTH_MS (R303). -/
def ppsOutFall (s : State) : State :=
  if s.time.ppsOut && decide (s.time.ppsRise + usU (1000 * s.time.ppsWidthMs) ≤ s.time.now) then
    emit (.ppsOut false) (s.modTime fun x => { x with ppsOut := false })
  else s

/-- CAP_IN_EDGE: the edge that CAPTURE_CONFIG selects is stamped; CAP_IN0 to CAP_IN3 belong to H0.TIME, the others to H1.TIME
(R310, R419). (DESIGN CHOICE, log entry 110.) -/
def capInEdge (n : Nat) (rising : Bool) (s : State) : State :=
  if s.time.edges.getLsbD n = rising ∨ !timeOn s (n / 4) then s
  else
    let (seen, s) := edgeSeen n 100000 s
    if seen then
      let (t, s) := pinStamp s.time.now s
      captureAt (32 + n) 0 t s
    else s

/-- TIME_SET_PPS_EXPIRED: no edge within 2 s (R308). (DESIGN CHOICE, log entry 109.) -/
def ppsExpired (s : State) : State :=
  match s.time.ppsSet with
  | x :: rest =>
    if x.since + secU 2 ≤ s.time.now then endWith x.cmd St.expired 0 (s.modTime fun t => { t with ppsSet := rest }) else s
  | [] => s

/-! ### References (R298, R418) -/

/-- A half's reference fails: both engines run from the other, or time is lost (R298). (DESIGN CHOICE, log entry 107.) -/
def refFail (h : Nat) (s : State) : State :=
  let ok := if h = 0 then s.time.refOk0 else s.time.refOk1
  if ok then
    let s := s.modTime fun t =>
      if h = 0 then { t with refOk0 := false } else { t with refOk1 := false }
    let s := s.modTime fun t => { t with refSwitched := t.refOk0 || t.refOk1 }
    if s.time.refOk0 || s.time.refOk1 then report (faultAt 0x0C01 2 h 0 0) (capture 5 h (bumpTime 0 s)) else loseTime s
  else s

/-! ### Commands (R322) -/

/-- TIME_CONFIG. -/
def timeConfig (args : List Word) (s : State) : Res :=
  let a := argN args
  if a 1 < 100 ∨ 1000000000 < a 1 then cmdRefuse St.badArgument 1 s
  else if a 2 < 1 ∨ 200 < a 2 then cmdRefuse St.badArgument 2 s
  else if 15 < a 3 then cmdRefuse St.badArgument 3 s
  else if 15 < a 4 then cmdRefuse St.badArgument 4 s
  else if a 5 < 10 ∨ 60000 < a 5 then cmdRefuse St.badArgument 5 s
  else if 255 < a 6 then cmdRefuse St.badArgument 6 s
  else if a 10 < 1 ∨ 500 < a 10 then cmdRefuse St.badArgument 10 s
  else cmdOk (s.modTime fun t =>
    { t with stepNs := a 1, slewPpm := a 2, pshift := a 3, ishift := a 4, holdoverMs := a 5, domain := a 6,
             clockId := BitVec.ofNat 64 (arg64 args 7), ppsDelay := (arg args 9).toInt, ppsWidthMs := a 10 })

/-- A field as a signed number of `n` bits. -/
def signExt (n v : Nat) : Int := (BitVec.ofNat n v).toInt

/-- TIME_PORT_CONFIG (R302). -/
def timePortConfig (args : List Word) (s : State) : Res :=
  let v := arg64 args 1
  let ls := signExt 5 (nfld v 60 56)
  let ld := signExt 5 (nfld v 55 51)
  if nfld v 63 62 = 3 ∨ ls < -10 ∨ 0 < ls ∨ ld < -10 ∨ 0 < ld ∨ 4 < nfld v 50 48 then cmdRefuse St.badArgument 2 s
  else cmdOk (modPtp (nfld v 9 0) (fun x =>
    { x with role := nfld v 63 62, mech := nfld v 61 61, logSync := ls, logDelay := ld, logAnnounce := nfld v 50 48,
             asym := signExt 22 (nfld v 41 20) }) s)

/-- TIME_SOURCE (R304). Without a source a running servo goes to HOLDOVER; PATH_DELAY is the new source's (R321). -/
def timeSource (args : List Word) (s : State) : Res :=
  let kind := argN args 1
  let p := argN args 2
  if 2 < kind then cmdRefuse St.badArgument 1 s
  else if kind = 1 ∧ (1024 ≤ p ∨ (thePtp s p).role ≠ 2) then cmdRefuse St.badArgument 2 s
  else
    let (d, s) := if kind = 1 ∧ (thePtp s p).haveDelay then toUnits (thePtp s p).meanDelay s else (0, s)
    let s := s.modTime fun t =>
      { t with srcKind := kind, srcPort := if kind = 1 then p else 0, lastAt := none, goodRun := 0, badRun := 0, holdFrom := t.now,
               pathDelay := d }
    cmdOk (if kind = 0 ∧ (s.time.state = 1 ∨ s.time.state = 2) then setTimeState 3 s else s)

/-- TIME_SET: at once, or at the next PPS in edge (R308). -/
def timeSet (c : CmdRef) (args : List Word) (s : State) : Res :=
  let v := timeOf (arg args 1) (arg args 2) (arg args 3)
  if !timeOk (arg args 3) then cmdRefuse St.badArgument 3 s
  else match argN args 4 with
    | 0 => cmdOk (relock (stepTime ((v : Rat) - (s.time.now : Nat) - s.time.sub) s))
    | 1 =>
      let s := addDetached c .none s
      (s.modTime fun t => { t with ppsSet := t.ppsSet ++ [{ value := v, since := t.now, cmd := c }] }, none)
    | _ => cmdRefuse St.badArgument 4 s

/-- TIME_STEP_ACCEPT: by −PENDING, or by the Δ given (R307). (DEDUCED, log entry 106.) -/
def timeStepAccept (args : List Word) (s : State) : Res :=
  let d : Int := if argN args 1 = 1 then argI64 args 2 else -s.time.pending
  if 1 < argN args 1 then cmdRefuse St.badArgument 1 s
  else if s.time.state ≠ 4 then cmdRefuse St.noStepPending 0 s
  else if !stepFits s d then cmdRefuse St.badArgument (if argN args 1 = 1 then 2 else 0) s
  else cmdOk (relock (stepTime d s))

/-- TIME_STEP_DISMISS: no step; τ of the next offset is the nominal one (R305, R307). (DEDUCED, log entry 106.) -/
def timeStepDismiss (s : State) : Res :=
  if s.time.state ≠ 4 then cmdRefuse St.noStepPending 0 s
  else cmdOk (relock (s.modTime fun t => { t with lastAt := none }))

/-- TIME_STATUS_READ (R321). A rate between two units of RATE reads as one of them. (DESIGN CHOICE, log entry 105.) -/
def timeStatusRead (args : List Word) (s : State) : Res :=
  let (r, s) := toUnits (s.time.rate * 1000000000000) s
  let t := s.time
  let ws := [pack [(29, t.state), (27, t.srcKind), (26, bit t.stepRefused), (25, bit t.refSwitched), (15, t.srcPort)],
    w32i t.lastOffset] ++ w64 (BitVec.ofInt 64 t.pending).toNat ++
    [w32i r, w32i t.pathDelay, w32 t.offsets, pack [(16, t.stepCount), (0, t.refusedCount)]]
  cmdOk (hostWrite (arg64 args 1) (wordsLe ws) s)

/-- CAPTURE_CONFIG: the mask, and in bit n the edge of CAP_INn: 0 rising, 1 falling (R310). (DESIGN CHOICE, log entry 110.) -/
def captureConfig (args : List Word) (s : State) : Res :=
  if 255 < argN args 3 then cmdRefuse St.badArgument 3 s
  else cmdOk (s.modTime fun t =>
    { t with captureMask := BitVec.ofNat 64 (arg64 args 1), edges := BitVec.ofNat 8 (argN args 3) })

/-! ### Meanings -/

/-- TIME_CONFIG. -/
def execTimeConfig (h : CmdHdr) (args : List Word) (s : State) : Host.Outcome State Fault Refusal :=
  runMailbox ⟨0x0C01, 1, true⟩ (fun _ => 10) (fun _ s => timeConfig args s) h args s
/-- TIME_PORT_CONFIG. -/
def execTimePortConfig (h : CmdHdr) (args : List Word) (s : State) : Host.Outcome State Fault Refusal :=
  runMailbox ⟨0x0C02, 1, true⟩ (fun _ => 2) (fun _ s => timePortConfig args s) h args s
/-- TIME_SOURCE. -/
def execTimeSource (h : CmdHdr) (args : List Word) (s : State) : Host.Outcome State Fault Refusal :=
  runMailbox ⟨0x0C03, 1, true⟩ (fun a => if argN a 1 = 1 then 2 else 1) (fun _ s => timeSource args s) h args s
/-- TIME_SET. -/
def execTimeSet (h : CmdHdr) (args : List Word) (s : State) : Host.Outcome State Fault Refusal :=
  runMailbox ⟨0x0C04, 1, true⟩ (fun _ => 4) (fun c s => timeSet c args s) h args s
/-- TIME_STEP_ACCEPT. -/
def execTimeStepAccept (h : CmdHdr) (args : List Word) (s : State) : Host.Outcome State Fault Refusal :=
  runMailbox ⟨0x0C05, 0, true⟩ (fun a => if argN a 1 = 1 then 3 else 1) (fun _ s => timeStepAccept args s) h args s
/-- TIME_STEP_DISMISS. -/
def execTimeStepDismiss (h : CmdHdr) (args : List Word) (s : State) : Host.Outcome State Fault Refusal :=
  runMailbox ⟨0x0C06, 0, true⟩ (fun _ => 0) (fun _ s => timeStepDismiss s) h args s
/-- TIME_STATUS_READ. -/
def execTimeStatusRead (h : CmdHdr) (args : List Word) (s : State) : Host.Outcome State Fault Refusal :=
  runMailbox ⟨0x0C07, 3, true⟩ (fun _ => 2) (fun _ s => timeStatusRead args s) h args s
/-- CAPTURE_CONFIG. -/
def execCaptureConfig (h : CmdHdr) (args : List Word) (s : State) : Host.Outcome State Fault Refusal :=
  runMailbox ⟨0x0C08, 1, true⟩ (fun _ => 3) (fun _ s => captureConfig args s) h args s
/-- TIME_PACKET_RX. -/
def execTimePacketRx (lane : Fin 1024) (pkt : Packet) (s : State) : Host.Outcome State Fault Refusal :=
  .next (timePacketRx lane pkt s)
/-- EGRESS_SELECT. -/
def execEgressSelect (sel : Selection) (s : State) : Host.Outcome State Fault Refusal :=
  .next (portSelect sel.port sel.parityFails s)
/-- PTP_SYNC_SEND. -/
def execPtpSyncSend (port : Fin 1024) (s : State) : Host.Outcome State Fault Refusal := .next (syncSend port s)
/-- PTP_DELAY_REQ_SEND. -/
def execPtpDelayReqSend (port : Fin 1024) (s : State) : Host.Outcome State Fault Refusal := .next (delayReqSend port s)
/-- PTP_ANNOUNCE_SEND. -/
def execPtpAnnounceSend (port : Fin 1024) (s : State) : Host.Outcome State Fault Refusal := .next (announceSend port s)
/-- HOLDOVER_TIMEOUT. -/
def execHoldoverTimeout (s : State) : Host.Outcome State Fault Refusal := .next (holdoverTimeout s)
/-- PPS_IN_EDGE. -/
def execPpsInEdge (s : State) : Host.Outcome State Fault Refusal := .next (ppsInEdge s)
/-- PPS_OUT_EDGE. -/
def execPpsOutEdge (s : State) : Host.Outcome State Fault Refusal := .next (ppsOutEdge s)
/-- PPS_OUT_FALL. -/
def execPpsOutFall (s : State) : Host.Outcome State Fault Refusal := .next (ppsOutFall s)
/-- CAP_IN_EDGE. -/
def execCapInEdge (input : Fin 8) (rising : Bool) (s : State) : Host.Outcome State Fault Refusal :=
  .next (capInEdge input rising s)
/-- TIME_SET_PPS_EXPIRED. -/
def execTimeSetPpsExpired (s : State) : Host.Outcome State Fault Refusal := .next (ppsExpired s)

end Sys2Proof.Machine
end

