-- ==== Sys2Proof/Machine/Resets.lean ====
section
/-! DEFINITION. Resets of the device, of a half and of a barn (R28, R73, R155, R219, R292, R333 to R335, R340). -/

namespace Sys2Proof.Machine

/-! ### What a reset barn takes with it (R333, R335) -/

/-- The barns that a test names. -/
def barnsOf (hit : Nat → Bool) : List Nat := (List.range 16).filter hit

/-- The lanes of those barns. -/
def lanesOf (hit : Nat → Bool) : List Nat := (List.range 1024).filter fun l => hit (barnOf l)

/-- A lane of a reset barn: DOWN, its work ended, its link state cleared. Rings given to a circuit are kept (R28).
(DESIGN CHOICE, log entry 117.) -/
def laneReset1 (l : Nat) (s : State) : State :=
  if laneState s l = .flue then s
  else
    let s := match (laneOpt s l).unbankCmd with
      | some c => endWith c St.testFailed 0 s
      | none => s
    let s := leaveSwap l (setLane l .down (endLaneCmds l s))
    modLaneLink l (fun _ => {}) (modLaneOpt l (fun o => { spare := o.spare }) s)

/-- The links, slices and lanes of reset barns. (DESIGN CHOICE, log entries 34, 117.) -/
def lanesReset (hit : Nat → Bool) (s : State) : State :=
  let s := ((s.link.ports.filter fun e => hit (barnOf e.1)).map Prod.fst).foldl (fun s p => linkDown p s) s
  let s := (s.optics.slices.filter fun e => hit e.1).foldl (fun s e =>
    if e.2.waits then dropSlice e.2.lane 2 s else skipSlice e.2.lane s) s
  (lanesOf hit).foldl (fun s l => laneReset1 l s) s

/-- A packet whose source barn is reset has arrived in part at other barns: what they hold of it is dropped, and a lane
that is sending it ends it with the packet abort. (DESIGN CHOICE, log entry 117.) -/
def dropPartial (hit : Nat → Bool) (pid : Nat) (s : State) : State :=
  ((List.range 16).filter fun b => !hit b).foldl (fun s b =>
    match storedPkt s b pid with
    | some x =>
      if whole x then s
      else freeStored b pid (((lanesSending s pid).filter fun l => barnOf l == b).foldl (fun s l => abortTx l s) s)
    | none => s) s

/-- One copy that waits in a VOQ toward a reset barn is dropped and counted RESET_DROP (R335).
(DESIGN CHOICE, log entry 117.) -/
def dropCopy (b dst tc : Nat) (e : QEntry) (s : State) : State :=
  let s := bumpIn b 17 (modBarn b (fun x =>
    { x with voqs := (tmod x.voqs [] (8 * dst + tc) fun q => q.filter fun y => y.pid != e.pid),
             unacked := (x.unacked.map fun u => if u.dst = dst then { u with parts := u.parts.filter fun t => t.pid != e.pid } else u).filter
               fun u => u.parts != [] }) s)
  match inPkt s b e.pid with
  | none => s
  | some p =>
    let s := ((List.range p.handles.length).filter fun i => !e.acked.contains i).foldl (fun s i => releaseCell b p i s) s
    let s := if (theBarn s b).voqs.any fun q => q.2.any fun y => y.pid == e.pid then s
      else modBarn b (fun x => { x with inPkts := x.inPkts.filter fun q => q.info.pid != e.pid }) s
    updateWithheld b s

/-- Packets of the other barns that are queued toward reset barns are dropped (R335). (DESIGN CHOICE, log entry 117.) -/
def dropToward (hit : Nat → Bool) (s : State) : State :=
  ((List.range 16).filter fun b => !hit b).foldl (fun s b =>
    ((theBarn s b).voqs.filter fun q => hit (q.1 / 8)).foldl (fun s q =>
      q.2.foldl (fun s e => dropCopy b (q.1 / 8) (q.1 % 8) e s) s) s) s

/-- A reset barn keeps its settings alone (R333); `held` while it stays in a reset of its own.
(DESIGN CHOICE, log entry 117.) -/
def clearBarn (held : Bool) (b : Nat) (s : State) : State :=
  daZero (loftOf b) 0x1000000 (modBarn b (fun x =>
    { bufCells := x.bufCells, egCells := x.egCells, egC7Reserve := x.egC7Reserve, egClassMax := x.egClassMax,
      stageCells := x.stageCells, scratchCells := x.scratchCells, inReset := held }) s)

/-- A cell in flight at a reset of its barn yields no trace record (R408). -/
def untag (hit : Nat → Bool) (s : State) : State :=
  s.modCore fun k => { k with barns := k.barns.map fun e =>
    (e.1, { e.2 with
      inPkts := if hit e.1 then e.2.inPkts.map fun p => { p with info := { p.info with tagged := [] } } else e.2.inPkts,
      stored := e.2.stored.map fun x => if hit e.1 || hit x.srcBarn then { x with info := { x.info with tagged := [] } } else x }) }

/-- Barns are reset: their lanes, packets, queues, credit and Loft. (DESIGN CHOICE, log entry 117.) -/
def barnsReset (hit : Nat → Bool) (held : Bool) (s : State) : State :=
  let s := lanesReset hit (untag hit s)
  let pids := (barnsOf hit).flatMap fun b => (theBarn s b).inPkts.map fun p => p.info.pid
  let s := dropToward hit (pids.foldl (fun s pid => dropPartial hit pid s) s)
  let s := (barnsOf hit).foldl (fun s b => clearBarn held b s) s
  settleSeeds (s.modCore fun k => { k with charged := k.charged.filter fun e => !hit (barnOf (e.1 / 8)) })

/-! ### A half (R28, R73, R155, R219, R333, R401) -/

/-- Switches the domains of a half, in the order of R434. (DESIGN CHOICE, log entry 133.) -/
def setHalfPower (h : Nat) (x : Byte) (s : State) : State :=
  s.modPower fun p => if h = 0 then { p with on0 := x } else { p with on1 := x }

/-- A context has a placement unit in a half. (DESIGN CHOICE, log entry 117.) -/
def ctxInHalf (x : Ctx) (h : Nat) : Bool := (List.range (ctxSpan x)).any fun i => (ctxTuFirst x + i) / 32 == h

/-- The ACTIVE contexts that a reset of a half touches. (DESIGN CHOICE, log entry 117.) -/
def ctxsHit (s : State) (h : Nat) : List Nat :=
  (s.coll.filter fun e => e.2.state == .active && ctxInHalf e.2 h).map Prod.fst

/-- Contexts of a reset half: ABORTED, their retained results lost (R155). (DESIGN CHOICE, log entry 117.) -/
def contextsReset (h reason : Nat) (s : State) : State :=
  let s := (ctxsHit s h).foldl (fun s c => abortPlain c reason s) s
  let lost := (s.coll.filter fun e => e.2.state == .aborted && (e.2.abortReason == 9 || e.2.abortReason == 10) && ctxInHalf e.2 h).map
    Prod.fst
  settleFences 64 (lost.foldl (fun s c => modCtx c (fun x => { x with retained := [], made := [] }) s) s)

/-- A range of Granary offsets has a granule on a stack of a half (R190). (DESIGN CHOICE, log entry 118.) -/
def touchesHalf (h a n : Nat) : Bool :=
  if n = 0 then false
  else (List.range (Nat.min 8 ((a + n - 1) / 4096 - a / 4096 + 1))).any fun i => stackOf (a + 4096 * i) / 4 == h

/-- A chunk in progress at a half reset: its parameters are undefined, so each array holds free bytes (R183).
(DESIGN CHOICE, log entry 118.) -/
def disturbChunk (d : List Word) (k j : Nat) (s : State) : State :=
  let n := 4 * (chunkRange s k j).length
  let put (a : Nat) (s : State) : State :=
    let (bytes, t) := freeBytes n s
    daWrite (a + 4096 * j) bytes t
  let s := put (grpM s k) (put (grpW s k) s)
  let s := if grpRule s k = 1 then put (grpV s k) s else s
  if runClear d then put (grpG s k) s else s

/-- A harvest with arrays in the half stops. Which of the chunks not written were in progress is a free value (R183).
(DESIGN CHOICE, log entries 117, 118.) -/
def harvestLost (hv : Harvest) (s : State) : State :=
  let s := (runGroups hv.desc).foldl (fun s k =>
    ((List.range (chunksOf s k)).filter fun j => !hv.written.contains (k, j)).foldl (fun s j =>
      if freeBelow s 2 = 0 then s.tookFree else disturbChunk hv.desc k j s.tookFree) s) s
  endHarvest hv St.aborted 2 s

/-- Units, harvests and norm passes of a reset half (R183, R333, R335). (DESIGN CHOICE, log entry 117.) -/
def threshReset (h : Nat) (s : State) : State :=
  let s := s.modThresh fun t => { t with units := t.units.filter fun e => e.1 / 32 != h }
  let tests := s.hearth.detached.filter fun d => match d.work with
    | .unit u => u / 32 == h
    | _ => false
  let s := tests.foldl (fun s d => endWith d.cmd St.testFailed 0 s) s
  let hs := s.thresh.harvests.filter fun v => (runGroups v.desc).any fun k => (groupArrays s k).any fun r => touchesHalf h r.1 r.2
  let s := hs.foldl (fun s v => harvestLost v s) s
  let ns := s.thresh.norms.filter fun m => (List.range m.count).any fun i =>
    touchesHalf h (grpG s (m.first + i)) (4 * grpLen s (m.first + i))
  ns.foldl (fun s m => endNorm m { status := St.aborted, detail := 2, result := [] } s) s

/-- A channel arbiter lies in a half. (DESIGN CHOICE, log entry 117.) -/
def arbHalf (ch : Nat) : Nat := if ch < 256 then ch / 128 else if ch < 280 then (ch - 256) / 12 else ch - 280

/-- The lasers of a half go off, and its swaps end. (DESIGN CHOICE, log entries 96, 117.) -/
def kilnOff (h : Nat) (s : State) : State :=
  let s := (s.optics.swaps.filter fun e => e.1 == h).foldl (fun s e => endCmds e.2.cmds St.testFailed 0 s) s
  let s := s.modOptics fun o => { o with swaps := o.swaps.filter fun e => e.1 != h }
  (halfLasers h).foldl (fun s i => modLaser i (fun x => { sinceS := x.sinceS }) (setLaser i 0 s)) s

/-- Tables of a reset half: the versioned tables and static entries are copied back from the other half, the learned
entries start empty (R73). -/
def tablesReset (h : Nat) (s : State) : State :=
  let s := modEp h (fun t => t.filter fun e => e.2.static) s
  (setLearnQ h [] s).modRouting fun r => { r with parity := r.parity.filter fun m => m.dead || m.half != h }

/-- Sets whether a half is out of reset and ready, and when it became so (R424). -/
def setReady (h : Nat) (x : Bool) (s : State) : State :=
  let t := s.time.hearthPs
  s.modPower fun p =>
    if h = 0 then { p with ready0 := x, readyAt0 := if x then t else p.readyAt0 }
    else { p with ready1 := x, readyAt1 := if x then t else p.readyAt1 }

/-- Circuits in setup with a ring in a half are refused with MESH_FAULT and that ring (R283, R292). -/
def setupsReset (h : Nat) (s : State) : State :=
  (s.flue.filter fun e => e.2.state == 1 && e.2.cmd.isSome).foldl (fun s e =>
    match [circLaneA e.2, circLaneB e.2].find? fun l => halfOf l == h with
    | some l => cutSetup e.1 { status := St.meshFault, detail := w32 l, result := [] } s
    | none => s) s

/-- A half is reset, with the CAUSE of RESET_CAUSE; its contexts are aborted with RESET where the reset was commanded,
otherwise with HALF_FAULT; of its domains GRAN, TIME and FLUE stay on (R28, R155, R218, R219, R333, R334). Retired channels, used
spares and lost crossing capacity stay as they are, also after a fatal bridge fault: HALF_READY brings the half back though a failed
arbitration or time channel still has no carrier. (DESIGN CHOICE, log entry 117.) -/
def halfReset (h cause : Nat) (s : State) : State :=
  let old := s
  let hit : Nat → Bool := fun b => halfOfBarn b == h
  let s := barnsReset hit false (kilnOff h (setHalfPower h 0xC4 (setReady h false (setupsReset h s))))
  let s := contextsReset h (if cause = 2 then 9 else 10) s
  let s := tablesReset h (threshReset h s)
  let s := s.modMem fun m => { m with arbs := m.arbs.filter fun e => arbHalf e.1 != h }
  let s := siloFail h (tallyFlag h (clearCounters (halfCounters h) s))
  noteStatus old (setResetCause 2 cause (h == 0) (h == 1) s)

/-- A circuit's retune that fell into the reset: the notice leaves at ready, the retune starts LEAD_MS later (R292). -/
def deferRetunes (s : State) : State :=
  (s.flue.filter fun e => e.2.state == 3 && decide (e.2.nextAt ≤ s.time.now) && circReady s e.2).foldl (fun s e =>
    let t := s.time.now + usU (1000 * e.2.leadMs)
    flueNotice e.1 1 t (modCirc e.1 (fun x => { x with nextAt := t, noticeAt := some t }) s)) s

/-- The lanes of the enabled ports of barns that have come out of reset begin to train (R333). -/
def lanesTrain (hit : Nat → Bool) (s : State) : State :=
  (s.link.ports.filter fun e => e.2.configured && e.2.enabled && hit (barnOf e.1)).foldl (fun s e => portLanesTo e.1 .training s) s

/-- A powered half that was reset reports ready, its lasers lit by `light` (R73, R292, R333, R335). -/
def halfUpWith (light : State → State) (h : Nat) (s : State) : State :=
  let t := deferRetunes (light (setReady h true (setHalfPower h 0xFF s)))
  noteStatus s (lanesTrain (fun b => halfOfBarn b == h) t)

/-- HALF_READY: a powered half that was reset reports ready; its lasers come on by their records (R333). -/
def halfUp (h : Nat) (s : State) : State :=
  if halfPowered s h ∧ !halfReady s h ∧ !s.power.inReset then halfUpWith (lightHalf h) h s else s

/-! ### The device (R155, R219, R292, R333, R397) -/

/-- A detached command that the reset does not touch: the copy of a firmware image is the Hearth's own work.
(DESIGN CHOICE, log entry 120.) -/
def survivesReset (d : Detached) : Bool := match d.work with
  | .fwLoad _ _ => true
  | _ => false

/-- What the half domains were working on ends: harvests and norm passes stop as at a half reset; of the other commands
that have detached nothing can say how far they came, so they end HEARTH_RESTARTED. (DESIGN CHOICE, log entry 34.) -/
def endAllWork (s : State) : State :=
  let s := s.thresh.harvests.foldl (fun s v => endHarvest v St.aborted 2 s) s
  let s := s.thresh.norms.foldl (fun s m => endNorm m { status := St.aborted, detail := 2, result := [] } s) s
  (s.hearth.detached.filter fun d => !survivesReset d).foldl (fun s d => endWith d.cmd St.hearthRestarted 0 s) s

/-- The memory after a device reset: the Silo keeps its contents, the Granary and the Barn store are zeroed as they are
brought up, the Loft is lost (R219, R333). (DESIGN CHOICE, log entry 120.) -/
def Mem.afterReset (m : Mem) : Mem :=
  { Mem.reset with bytes := m.bytes.filter fun c => decide (siloBase 0 ≤ c.1) && decide (c.1 < loftBase), bsGib := m.bsGib }

/-- A fault report's window goes on on the time that starts afresh. (DESIGN CHOICE, log entry 120.) -/
def foldsFrom0 (c : Sec) : Sec := { c with folds := c.folds.map fun f => { f with since := 0 } }

/-- The half domains at their reset values; AUX keeps the Hearth, its rings, its stores and the power controller.
(DESIGN CHOICE, log entries 8, 35, 120.) -/
def domainsReset (s : State) : State :=
  let tag := 1 + freeBelow s (2 ^ 32 - 1)
  let t := s.time
  { State.reset with
    mem := s.mem.afterReset,
    optics := { Optics.reset with lasers := [] },
    link := { Link.reset with deviceTag := w32 tag },
    time := { TimeSt.reset with hearthPs := t.hearthPs, refOk0 := t.refOk0, refOk1 := t.refOk1,
                                refSwitched := !(t.refOk0 && t.refOk1), store := t.store, lostSrc := t.lostSrc },
    hearth := { s.hearth with endpointId := none, hopLimit := 8, selftest := 0xFF000000, latch := [0, 0, 0],
                              latchUnset := false, pendingReset := none },
    sec := foldsFrom0 s.sec,
    power := { s.power with ready0 := false, ready1 := false, resetHeld := false, inReset := true, pending := .none,
                            pendPids := [] },
    out := s.out, free := s.free + 1, pending := s.pending }

/-- The light of circuits goes off as the device is reset (R292). -/
def circuitsDark (s : State) : State :=
  (s.flue.filter fun e => decide (3 ≤ e.2.state)).foldl (fun s e => emit (.light e.1 false) s) s

/-- The command that asked for a reset completes (R355). (DESIGN CHOICE, log entry 34.) -/
def endPending (s : State) : State :=
  match s.hearth.pendingReset with
  | some c => writeCompletion c { status := St.ok, detail := 0, result := [] } (s.modHearth fun h => { h with pendingReset := none })
  | none => s

/-- HEARTH_START with its cause (R363). (DESIGN CHOICE, log entry 120.) -/
def hearthStart (cause : Nat) (s : State) : State := post 0x09 [s.hearth.fwVersion, w32 cause] none s

/-- The device is reset with the LEVEL and CAUSE of RESET_CAUSE (R155, R333, R334, R363).
(DESIGN CHOICE, log entries 12, 120.) -/
def deviceReset (level cause : Nat) (s : State) : State :=
  let t := endAllWork (endPending (circuitsDark s))
  noteStatus s (hearthStart 0 (domainsReset (setResetCause level cause false false t)))

/-- REFCLK0 or REFCLK1 is failed as the half domains are released: both halves run from the other one (R418).
(DESIGN CHOICE, log entry 121.) -/
def oneRef (s : State) : State :=
  if s.time.refOk0 && s.time.refOk1 then s
  else
    let h := bit s.time.refOk0
    report (faultAt 0x1106 2 h h 0) (s.modTime fun t => { t with refSwitched := true })

/-- The optics of a powered half come up and it is ready, with all its domains powered (R242, R344, R434). -/
def releaseHalf (u : OpticsUp) (h : Nat) (s : State) : State :=
  if halfPowered s h then setReady h true (setHalfPower h 0xFF (powerUpOptics h u s)) else s

/-- A half's master reference is out of tolerance (R242). (DESIGN CHOICE, log entry 121.) -/
def masterBad (u : OpticsUp) (h : Nat) (s : State) : Bool := halfPowered s h && !(if h = 0 then u.ref0Ok else u.ref1Ok)

/-- The release of the half domains: while a master reference is out of tolerance the device stays in reset and says so,
otherwise the optics come up and the powered halves are ready (R242, R344). (DESIGN CHOICE, log entries 120, 121.) -/
def releaseDevice (u : OpticsUp) (s : State) : State :=
  if masterBad u 0 s || masterBad u 1 s then
    noteStatus s ((s.modPower fun p => { p with resetHeld := true }).modHearth fun h =>
      { h with selftest := pack [(24, 1), (23, bit (masterBad u 1 s)), (22, bit (masterBad u 0 s))] })
  else
    noteStatus s (releaseHalf u 1 (releaseHalf u 0 (oneRef (s.modPower fun p => { p with resetHeld := false, inReset := false }))))

/-- DEVICE_RESET_RELEASE: the half domains come out of a device reset that had no power loss (R333). With both references
failed they stay in reset (R418). (DESIGN CHOICE, log entry 121.) -/
def resetRelease (u : OpticsUp) (s : State) : State :=
  if (halfPowered s 0 ∨ halfPowered s 1) ∧ s.power.inReset ∧ !s.power.resetHeld ∧ (s.time.refOk0 ∨ s.time.refOk1) then
    releaseDevice u s
  else s

/-! ### Commands and their resets (R333, R340) -/

/-- A commanded reset waits for the copies of its notices, the packets originated since `first` (R333).
(DESIGN CHOICE, log entry 34.) -/
def resetAsked (r : PendReset) (first : Nat) (c : CmdRef) (s : State) : State :=
  (s.modPower fun p =>
    { p with pending := r, pendAt := s.time.now, pendPids := List.range' first (s.core.nextPid - first) }).modHearth fun h =>
      { h with pendingReset := some c }

/-- DEVICE_RESET: the notices of R155 and R292 are sent, and the reset waits for them (R333).
(DESIGN CHOICE, log entries 23, 34.) -/
def cmdDeviceReset (c : CmdRef) (s : State) : Res :=
  let first := s.core.nextPid
  let s := ((s.coll.filter fun e => e.2.state == .active).map Prod.fst).foldl (fun s i => abortPlain i 9 s) s
  let s := (s.flue.filter fun e => e.2.state != 0).foldl (fun s e => flueNotice e.1 3 s.time.now s) s
  (resetAsked .device first c (settleFences 64 s), none)

/-- HALF_RESET: the notices of R155 are sent, and the reset waits for them (R333). (DESIGN CHOICE, log entries 23, 34.) -/
def cmdHalfReset (c : CmdRef) (args : List Word) (s : State) : Res :=
  let h := argN args 1
  if 1 < h then cmdRefuse St.badArgument 1 s
  else
    let first := s.core.nextPid
    (resetAsked (.half h) first c (settleFences 64 ((ctxsHit s h).foldl (fun s i => abortPlain i 9 s) s)), none)

/-- RESET_BEGIN: a commanded reset begins once every copy of its notices has left, or 50 µs after the command; its command
completes (R333, R355). A half that has lost its power meanwhile stays as it is: the command only completes.
(DESIGN CHOICE, log entry 34.) -/
def resetBegin (s : State) : State :=
  if pidsLeft s s.power.pendPids ∧ s.time.now < s.power.pendAt + usU 50 then s
  else match s.power.pending with
  | .none => s
  | .device => deviceReset 1 2 s
  | .half h =>
    let t := endPending (s.modPower fun p => { p with pending := .none, pendPids := [] })
    if halfPowered s h then halfReset h 2 t else t

/-- A barn feeds a placement unit of a context that is not FREE (R17, R333). (DESIGN CHOICE, log entry 119.) -/
def barnInUse (s : State) (b : Nat) : Bool :=
  s.coll.any fun e => ctxUsed e.2 && (List.range (ctxSpan e.2)).any fun i => barnOfUnit (ctxTuFirst e.2 + i) == b

/-- BARN_RESET (R333, R335, R340). (DESIGN CHOICE, log entry 119.) -/
def cmdBarnReset (args : List Word) (s : State) : Res :=
  let b := argN args 1
  if 16 ≤ b then cmdRefuse St.badArgument 1 s
  else if barnInUse s b then cmdRefuse St.busy 0 s
  else cmdOk (barnsReset (fun x => x == b) true s)

/-- BARN_READY: the barn rejoins the Floor and its lanes begin full training (R333, R335). (DESIGN CHOICE, log entry 119.) -/
def barnReady (b : Nat) (s : State) : State :=
  if (theBarn s b).inReset ∧ halfReady s (halfOfBarn b) then
    lanesTrain (fun x => x == b) (modBarn b (fun x => { x with inReset := false }) s)
  else s

/-! ### Meanings -/

/-- DEVICE_RESET. -/
def execDeviceReset (h : CmdHdr) (args : List Word) (s : State) : Host.Outcome State Fault Refusal :=
  runMailbox ⟨0x0D0A, 0, true⟩ (fun _ => 0) (fun c s => cmdDeviceReset c s) h args s
/-- HALF_RESET. -/
def execHalfReset (h : CmdHdr) (args : List Word) (s : State) : Host.Outcome State Fault Refusal :=
  runMailbox ⟨0x0D0B, 0, true⟩ (fun _ => 1) (fun c s => cmdHalfReset c args s) h args s
/-- BARN_RESET. -/
def execBarnReset (h : CmdHdr) (args : List Word) (s : State) : Host.Outcome State Fault Refusal :=
  runMailbox ⟨0x0D0C, 1, true⟩ (fun _ => 1) (fun _ s => cmdBarnReset args s) h args s
/-- RESET_BEGIN. -/
def execResetBegin (s : State) : Host.Outcome State Fault Refusal := .next (resetBegin s)
/-- HALF_READY. -/
def execHalfReady (half : Fin 2) (s : State) : Host.Outcome State Fault Refusal := .next (halfUp half s)
/-- BARN_READY. -/
def execBarnReady (barn : Fin 16) (s : State) : Host.Outcome State Fault Refusal := .next (barnReady barn s)
/-- DEVICE_RESET_RELEASE. -/
def execDeviceResetRelease (optics : OpticsUp) (s : State) : Host.Outcome State Fault Refusal := .next (resetRelease optics s)

end Sys2Proof.Machine
end

