-- ==== Sys2Proof/Machine/Firmware.lean ====
section
/-! DEFINITION. Firmware images, their verification, the boot of a slot and the commands of the firmware store (R367 to
R373, R387 to R390, R421). -/

namespace Sys2Proof.Machine

/-! ### The image (R387, R388) -/

/-- A word of an image's header. -/
def imgWord (img : List Byte) (i : Nat) : Word := w32 (ofLe ((img.drop (4 * i)).take 4))

/-- Bytes of an image from `a`. -/
def imgBytes (img : List Byte) (a n : Nat) : List Byte := (img.drop a).take n

/-- Every byte is 0. -/
def allZero (l : List Byte) : Bool := l.all (· == 0)

/-- FORMAT, BODY_LEN and the reserved fields of an image (R387). -/
def imgFormOk (img : List Byte) : Bool :=
  let n := (imgWord img 3).toNat
  decide (512 ≤ img.length) && imgWord img 0 == 0x00010000 && fld (imgWord img 2) 23 16 == 0 && allZero (imgBytes img 16 16) &&
    allZero (imgBytes img 320 192) && decide (n % 4 = 0 ∧ 4 ≤ n ∧ n ≤ 4193792 ∧ img.length = 512 + n)

/-- The owner's part of an image, needed with OWNER_COSIGN and checked where it is there, outside RETURN (R388). -/
def ownerCheck (c : Sec) (img : List Byte) : Option Nat :=
  let key := imgBytes img 192 64
  if c.life = 3 then none
  else if allZero key then (if c.cosign then some 5 else none)
  else if !c.owners.contains (sha256 key) then some 6
  else if ecdsaOk key (imgBytes img 0 192) (imgBytes img 256 64) then none
  else some 7

/-- The verification of an image: none, or the DETAIL of the first check that fails (R388). (DESIGN CHOICE, log entry 122.) -/
def imageCheck (c : Sec) (img : List Byte) : Option Nat :=
  let key := imgBytes img 64 64
  if !imgFormOk img then some 1
  else if sha256 key != c.vendorDigest then some 2
  else if sha256 (img.drop 512) != imgBytes img 32 32 then some 3
  else if !ecdsaOk key (imgBytes img 0 128) (imgBytes img 128 64) then some 4
  else ownerCheck c img

/-- SEC_VER of an image. (DESIGN CHOICE, log entry 124.) -/
def imgSecVer (img : List Byte) : Nat := fld (imgWord img 2) 31 24

/-- The verification at boot and in recovery, where an image below the fused version fails with 0x08 (R388).
(DESIGN CHOICE, log entries 11, 124.) -/
def bootCheck (c : Sec) (img : List Byte) : Option Nat :=
  match imageCheck c img with
  | some d => some d
  | none => if imgSecVer img < c.fusedVer then some 8 else none

/-- A verified image in a slot. -/
def fwSlotOf (img : List Byte) : FwSlot :=
  { state := 1, image := img, version := imgWord img 1, secVer := imgSecVer img, ifMin := fld (imgWord img 2) 7 0,
    ifMax := fld (imgWord img 2) 15 8 }

/-- A slot of the firmware store. -/
def fwSlot (s : State) (i : Nat) : FwSlot := tget s.hearth.slots {} i

/-- Writes a slot. -/
def setSlot (i : Nat) (x : FwSlot) (s : State) : State :=
  s.modHearth fun h => { h with slots := tset h.slots {} i x }

/-! ### Boot (R370, R390) -/

/-- What the boot ROM has found of a slot stands in its state: an image that fails is INVALID (R373, R390).
(DESIGN CHOICE, log entry 122.) -/
def markSlot (i : Nat) (passes : Bool) (s : State) : State :=
  let x := fwSlot s i
  if x.state = 0 then s else setSlot i { x with state := if passes then 1 else 2 } s

/-- A slot of which both copies fail their CRC-32 holds no image (R375, R390). (DESIGN CHOICE, log entry 122.) -/
def loseSlot (i : Nat) (s : State) : State := setSlot i { fwSlot s i with state := 2, image := [] } s

/-- A slot passes at boot. The shipped image, whose bytes the manual does not give, passes unless its version is fused
out. (DESIGN CHOICE, log entries 11, 123.) -/
def slotPasses (s : State) (i : Nat) : Bool :=
  let x := fwSlot s i
  if x.image = [] then x.state == 1 && decide (s.sec.fusedVer ≤ x.secVer) else bootCheck s.sec x.image == none

/-- The firmware of a slot starts: its versions become those of BAR0. (DESIGN CHOICE, log entry 123.) -/
def startSlot (i : Nat) (s : State) : State :=
  let x := fwSlot s i
  s.modHearth fun h => { h with fwVersion := x.version, ifMin := x.ifMin, ifMax := x.ifMax, bootSlot := i, ready := true }

/-- The device stays in reset with BOOT_IMAGE and the DETAIL of what the boot ROM found (R389, R390).
(DESIGN CHOICE, log entries 11, 124.) -/
def bootFails (detail : Nat) (s : State) : State :=
  s.modHearth fun h => { h with ready := false, selftest := pack [(24, 3), (0, detail)] }

/-- The boot ROM starts the committed slot, or the other one, or neither (R390, R421); without a vendor key digest or UID it
starts none (R389). (DESIGN CHOICE, log entries 122, 124.) -/
def boot (s : State) : State :=
  let i := s.hearth.committed
  let j := 1 - i
  if idsLost s then bootFails 10 s
  else if slotPasses s i then (startSlot i (markSlot i true s)).modHearth fun h => { h with commitPending := false }
  else if slotPasses s j then
    report (faultAt 0x0E01 1 3 0 0)
      ((startSlot j (markSlot j true (markSlot i false s))).modHearth fun h => { h with commitPending := true })
  else
    (bootFails 9 (markSlot j false (markSlot i false s))).modPower fun p => { p with recovery := true }

/-! ### Commands of the store (R367 to R370, R373) -/

/-- A firmware image is being copied. -/
def loading (s : State) : Bool := s.hearth.detached.any fun d => match d.work with
  | .fwLoad _ _ => true
  | _ => false

/-- FW_LOAD (R367): detaches. An image longer than 4 MiB is no image; a shorter one is judged by its header.
(DESIGN CHOICE, log entry 122.) -/
def fwLoad (c : CmdRef) (args : List Word) (s : State) : Res :=
  let n := argN args 3
  if 4194304 < n then cmdRefuse St.badArgument 3 s
  else if loading s then cmdRefuse St.busy 0 s
  else (addDetached c (.fwLoad (arg64 args 1) n) s, none)

/-- The version that an image does not support: IF_ACTIVE, or the version in force on a LOCAL ring (R367).
(DESIGN CHOICE, log entry 123.) -/
def lacksVer (s : State) (x : FwSlot) : Option Nat :=
  let vs := (if s.hearth.ifValid then [s.hearth.ifActive] else []) ++
    ((s.hearth.rings.filter fun e => e.2.en && e.2.isLocal).map fun e => e.2.ver)
  vs.find? fun v => !decide (x.ifMin ≤ v ∧ v ≤ x.ifMax)

/-- The end of a copy: an image that passes stands VERIFIED in the inactive slot, one that is refused changes nothing (R360, R367,
R388). (DESIGN CHOICE, log entry 122.) -/
def loadEnds (c : CmdRef) (img : List Byte) (s : State) : State :=
  let x := fwSlotOf img
  let j := 1 - s.hearth.bootSlot
  match imageCheck s.sec img with
  | some d => endWith c St.imageInvalid d s
  | none =>
    if x.secVer < s.sec.fusedVer then endWith c St.rollbackRefused s.sec.fusedVer s
    else match lacksVer s x with
      | some v => endWith c St.versionMismatch v s
      | none => endWith c St.ok 0 (setSlot j x s)

/-- FW_LOAD_DONE (R367). (DESIGN CHOICE, log entry 122.) -/
def fwLoadDone (s : State) : State :=
  match s.hearth.detached.findSome? (fun d => match d.work with
    | .fwLoad a n => some (d.cmd, a, n)
    | _ => none) with
  | some (c, a, n) => loadEnds c (hostRead s a n) s
  | none => s

/-- The diagnostic views close (R386). -/
def closeViews (s : State) : State := s.modSec fun c => { c with debugUntil := none }

/-- The rings stop and resume round a firmware activation (R368). (DESIGN CHOICE, log entry 123.) -/
def setSwitching (x : Bool) (s : State) : State := noteStatus s (s.modHearth fun h => { h with switching := x })

/-- FW_ACTIVATE: from t0 to the resumption of the rings in one step (R368, R369). `starts` tells whether the new firmware
starts and accepts the handover. (DESIGN CHOICE, log entry 123.) -/
def fwActivate (starts : Bool) (s : State) : Res :=
  let j := 1 - s.hearth.bootSlot
  if s.hearth.detached.any fun d => !holdsRing d.cmd.opcode then cmdRefuse St.busy 0 s
  else if (fwSlot s j).state ≠ 1 then cmdRefuse St.imageInvalid 0 s
  else
    let t := setSwitching true (closeViews s)
    if starts && slotPasses t j then
      let u := setSwitching false (noteStatus t ((startSlot j t).modHearth fun h => { h with commitPending := true }))
      cmdOkWith [u.hearth.fwVersion] (hearthStart 3 u)
    else
      let u := report (faultAt 0x0E01 1 3 0 0) (hearthStart 4 (setSwitching false t))
      (u, some { status := St.fwReverted, detail := 0, result := [] })

/-- The fuses of one twin with those of the first `v` pairs blown (R389). (DESIGN CHOICE, log entries 11, 124.) -/
def blown (v : Nat) (x : BitVec 64) : BitVec 64 := x ||| BitVec.ofNat 64 (2 ^ v - 1)

/-- FW_COMMIT: the fuses advance to the image's security version, at most to their number (R370, R389).
(DESIGN CHOICE, log entry 124.) -/
def fwCommit (s : State) : Res :=
  if !s.hearth.commitPending then cmdRefuse St.badArgument 0 s
  else
    let v := sat 64 (fwSlot s s.hearth.bootSlot).secVer
    cmdOk (noteStatus s ((s.modHearth fun h => { h with committed := h.bootSlot, commitPending := false }).modSec fun c =>
      { c with fuseA := blown v c.fuseA, fuseB := blown v c.fuseB }))

/-- FW_STATUS_READ (R373). -/
def fwStatusRead (s : State) : Res :=
  let x := fwSlot s (1 - s.hearth.bootSlot)
  cmdOkWith [s.hearth.fwVersion, if x.state = 0 then 0 else x.version, w32 x.state, w32 (fwSlot s s.hearth.bootSlot).secVer,
    w32 s.sec.fusedVer] s

/-! ### Recovery (R421) -/

/-- RCV_START: START is written while the boot ROM is in recovery. (DESIGN CHOICE, log entries 125, 146.) -/
def rcvStart (v : Word) (s : State) : State :=
  if s.power.recovery && s.power.rcvState != 1 && bitAt v 0 then
    s.modPower fun p => { p with rcvState := 1, rcvDetail := 0, rcvUse := p.rcvLen }
  else s

/-- RCV_VERIFY_DONE: the first LENGTH bytes of the buffer are verified and installed into both slots, or refused.
(DESIGN CHOICE, log entries 125, 146.) -/
def rcvDone (s : State) : State :=
  if s.power.recovery && s.power.rcvState == 1 then
    let n := s.power.rcvUse
    let img := memRead s.power.rcvBuf 0 n
    match (if n < 516 ∨ 4194304 < n then some 1 else bootCheck s.sec img) with
    | some d => s.modPower fun p => { p with rcvState := 3, rcvDetail := d }
    | none =>
      noteStatus s (((setSlot 1 (fwSlotOf img) (setSlot 0 (fwSlotOf img) s)).modHearth fun h =>
        { h with committed := 0, commitPending := false }).modPower fun p => { p with rcvState := 2 })
  else s

/-! ### Meanings -/

/-- FW_LOAD. -/
def execFwLoad (h : CmdHdr) (args : List Word) (s : State) : Host.Outcome State Fault Refusal :=
  runMailbox ⟨0x0E04, 2, false⟩ (fun _ => 3) (fun c s => fwLoad c args s) h args s
/-- FW_ACTIVATE. -/
def execFwActivate (h : CmdHdr) (args : List Word) (starts : Bool) (s : State) : Host.Outcome State Fault Refusal :=
  runMailbox ⟨0x0E05, 1, false⟩ (fun _ => 0) (fun _ s => fwActivate starts s) h args s
/-- FW_COMMIT. -/
def execFwCommit (h : CmdHdr) (args : List Word) (s : State) : Host.Outcome State Fault Refusal :=
  runMailbox ⟨0x0E06, 1, false⟩ (fun _ => 0) (fun _ s => fwCommit s) h args s
/-- FW_STATUS_READ. -/
def execFwStatusRead (h : CmdHdr) (args : List Word) (s : State) : Host.Outcome State Fault Refusal :=
  runMailbox ⟨0x0E07, 3, false⟩ (fun _ => 0) (fun _ s => fwStatusRead s) h args s
/-- FW_LOAD_DONE. -/
def execFwLoadDone (s : State) : Host.Outcome State Fault Refusal := .next (fwLoadDone s)
/-- RCV_START. -/
def execRcvStart (value : Word) (s : State) : Host.Outcome State Fault Refusal := .next (rcvStart value s)
/-- RCV_VERIFY_DONE. -/
def execRcvVerifyDone (s : State) : Host.Outcome State Fault Refusal := .next (rcvDone s)

end Sys2Proof.Machine
end

