-- ==== Sys2Proof/Machine/Hearth.lean ====
section
/-! DEFINITION. The Hearth's registers, rings, events and resets (R341 to R366, R371 to R373, R378). -/

namespace Sys2Proof.Machine

/-! ### Mailbox ring registers (R346, R347, R351) -/

/-- Detached commands of some rings no longer write their completions (R347, R365). (DESIGN CHOICE, log entry 32.) -/
def muteRings (hit : Nat → Bool) (s : State) : State :=
  s.modHearth fun h =>
    { h with detached := h.detached.map fun d => if hit d.cmd.ring then { d with muted := true } else d,
             owed := h.owed.filter fun c => !hit c.ring,
             pendingReset := h.pendingReset.filter fun c => !hit c.ring }

/-- EN of a ring goes from 0 to 1, which needs VALID. (DESIGN CHOICE, log entry 25.) -/
def ringOn (r : Nat) (s : State) : State :=
  if s.hearth.ifValid then
    modRing r (fun g => { g with en := true, cmdTail := 0, cmdHead := 0, cplTail := 0, cplHead := 0, doorbells := [],
                                 ver := s.hearth.ifActive }) s
  else s

/-- EN of a ring is cleared. (DESIGN CHOICE, log entries 25, 32.) -/
def ringOff (r : Nat) (s : State) : State :=
  muteRings (· == r) (modRing r (fun g => { g with en := false }) s)

/-- A write of a ring's control word: PER_CMD_VEC and VECTOR at any time, LOCAL while EN = 0 and only on the Urgent and
Diagnostic rings, then EN (R347). (DESIGN CHOICE, log entry 25.) -/
def ringCtrl (r : Nat) (v : Word) (s : State) : State :=
  let en := (theRing s r).en
  let s := modRing r (fun g =>
    { g with perVec := bitAt v 30, vector := fld v 5 0,
             isLocal := if !en && (r == 0 || r == 3) then bitAt v 29 else g.isLocal }) s
  if bitAt v 31 && !en then ringOn r s else if !bitAt v 31 && en then ringOff r s else s

/-- A doorbell (R351). A disabled ring takes none. (DEDUCED, log entry 24.) -/
def doorbell (r : Nat) (v : Word) (s : State) : State :=
  let g := theRing s r
  let t := v.toNat % 65536
  let ahead := (t + 65536 - g.cmdTail) % 65536
  if !g.en then s
  else if ahead = 0 ∨ 32768 ≤ ahead then bump (ctr 0x14 0 3) (modRing r (fun g => { g with dbError := true }) s)
  else if 256 - inFlight g < ahead then
    raiseInt 6 0 (bump (ctr 0x14 0 2) (modRing r (fun g => { g with full := true }) s))
  else modRing r (fun g => { g with cmdTail := t, doorbells := g.doorbells ++ [(t, s.time.hearthPs)] }) s

/-- The host has consumed completions. -/
def cplHead (r : Nat) (v : Word) (s : State) : State := modRing r (fun g => { g with cplHead := v.toNat % 65536 }) s

/-- A base address with one word replaced: word 0 the low one, whose bits 11 to 0 stay 0. -/
def baseWith (b : BitVec 64) (hi : Bool) (v : Word) : BitVec 64 :=
  if hi then BitVec.ofNat 64 (b.toNat % 2 ^ 32 + v.toNat * 2 ^ 32)
  else BitVec.ofNat 64 (b.toNat / 2 ^ 32 * 2 ^ 32 + v.toNat / 4096 * 4096)

/-- A write of one of a ring's registers, by its offset in the ring's block (R347). (DESIGN CHOICE, log entry 25.) -/
def ringWrite (r off : Nat) (v : Word) (s : State) : State :=
  let idle := !(theRing s r).en
  match off with
  | 0x00 | 0x04 => if idle then modRing r (fun g => { g with cmdBase := baseWith g.cmdBase (off == 0x04) v }) s else s
  | 0x08 | 0x0C => if idle then modRing r (fun g => { g with cplBase := baseWith g.cplBase (off == 0x0C) v }) s else s
  | 0x10 => ringCtrl r v s
  | 0x14 => doorbell r v s
  | 0x20 => cplHead r v s
  | 0x24 => modRing r (fun g => { g with full := g.full && !bitAt v 31, dbError := g.dbError && !bitAt v 30 }) s
  | _ => s

/-! ### The event ring (R361 to R364) -/

/-- Changes the event ring. (DESIGN CHOICE, log entry 31.) -/
def modEv (f : EventRing → EventRing) (s : State) : State := s.modHearth fun h => { h with ev := f h.ev }

/-- A write of EV_CTRL: VECTOR, SIZE_LOG2 from 8 to 16 while EN = 0, then EN, which sets both counts to 0 (R361). -/
def evCtrl (v : Word) (s : State) : State :=
  modEv (fun e =>
    let size := fld v 12 8
    let e := { e with vector := fld v 5 0, sizeLog2 := if !e.en && decide (8 ≤ size ∧ size ≤ 16) then size else e.sizeLog2 }
    if bitAt v 31 && !e.en then { e with en := true, evTail := 0, evHead := 0, held := [], nextSlot := 0 }
    else { e with en := bitAt v 31 }) s

/-- EV_HEAD moves: the slots of the events it has passed are free (R364). -/
def evHead (v : Word) (s : State) : State :=
  modEv (fun e =>
    { e with evHead := v.toNat, held := e.held.filter fun x => decide (2 ^ 31 ≤ (v.toNat + 2 ^ 32 - x.2 - 1) % 2 ^ 32) }) s

/-- The word of the LOST register. -/
def evLostWord (s : State) : Word := pack [(16, s.hearth.ev.lost)]

/-- What a read of LOST leaves: it clears the field (R361). -/
def evLostCleared (s : State) : State := modEv (fun e => { e with lost := 0 }) s

/-- A read of LOST. -/
def evLostRead (s : State) : State := evLostCleared (emit (.readData (leBytes 4 (evLostWord s).toNat)) s)

/-- A write of one of the event ring's registers. -/
def evWrite (off : Nat) (v : Word) (s : State) : State :=
  match off with
  | 0x00 | 0x04 => modEv (fun e => if e.en then e else { e with evBase := baseWith e.evBase (off == 0x04) v }) s
  | 0x08 | 0x0C => modEv (fun e => if e.en then e else { e with pktBase := baseWith e.pktBase (off == 0x0C) v }) s
  | 0x10 => evCtrl v s
  | 0x18 => evHead v s
  | _ => s

/-- There is room for one more event entry (R362). -/
def evRoom (e : EventRing) : Bool := decide ((e.evTail + 2 ^ 32 - e.evHead) % 2 ^ 32 < 2 ^ e.sizeLog2)

/-- The 64 bytes of event number `n` (R362). -/
def eventImg (e : EventRing) (n : Nat) (x : Event) : List Byte :=
  wordsLe ([pack [(24, x.type), (23, bit (n / 2 ^ e.sizeLog2 % 2 == 0)), (22, bit e.lostPend), (0, n % 65536)]] ++
    timeWords x.stamp ++ padTo 0 12 x.body)

/-- Writes an event entry and announces it (R346, R362). -/
def putEvent (x : Event) (s : State) : State :=
  let e := s.hearth.ev
  let s := hostWrite (e.evBase.toNat + 64 * (e.evTail % 2 ^ e.sizeLog2)) (eventImg e e.evTail x) s
  raiseInt 4 e.vector (modEv (fun e => { e with evTail := (e.evTail + 1) % 2 ^ 32, lostPend := false }) s)

/-- EV12 of an event: the body word that names a slot. -/
def setEv12 (w : Word) (body : List Word) : List Word := (padTo 0 12 body).set 8 w

/-- Writes a waiting event. One with bytes for a packet slot takes the next slot; while that is held, a CONTROL packet is
discarded, another event goes without (R364). -/
def putQueued (x : Event) (s : State) : State :=
  let e := s.hearth.ev
  match x.slot with
  | none => putEvent x s
  | some bytes =>
    if e.held.any fun h => h.1 == e.nextSlot then
      if x.type = 3 then bump (ctr 0x14 0 0) s else putEvent { x with body := setEv12 0 x.body } s
    else
      let s := hostWrite (e.pktBase.toNat + 8192 * e.nextSlot) bytes s
      let s := modEv (fun e => { e with nextSlot := (e.nextSlot + 1) % 64, held := e.held ++ [(e.nextSlot, e.evTail)] }) s
      putEvent { x with body := setEv12 (pack [(31, 1), (0, e.nextSlot)]) x.body } s

/-- The capture record to be delivered next: the earliest stamp, then the lowest source (R311).
(DESIGN CHOICE, log entry 30.) -/
def nextCapture (l : List CaptureRec) : Option Nat :=
  argMin (fun i => match l[i]? with
    | some c => c.stamp * 64 + c.source
    | none => 0) (List.range l.length)

/-- The event that carries a capture record (R311, R363). -/
def captureEvent (c : CaptureRec) : Event :=
  { type := 1, stamp := c.stamp, slot := none,
    body := pack [(26, c.source), (25, bit c.lost), (0, c.detail)] :: timeWords c.stamp }

/-- Delivers a capture record. (DESIGN CHOICE, log entry 30.) -/
def putCapture (i : Nat) (s : State) : State :=
  match s.time.store[i]? with
  | some c => putEvent (captureEvent c) (s.modTime fun t => { t with store := t.store.eraseIdx i })
  | none => s

/-- Delivers the oldest waiting event. (DESIGN CHOICE, log entry 30.) -/
def putOldest (s : State) : State :=
  match s.hearth.ev.queue with
  | x :: r => putQueued x (modEv (fun e => { e with queue := r }) s)
  | [] => s

/-- The Hearth may write an event. -/
def evServed (s : State) : Bool :=
  s.hearth.ev.en && s.hearth.ready && !s.hearth.inReset && !s.hearth.switching && evRoom s.hearth.ev

/-- EVENT_WRITE: one waiting event or capture record is written. Which of the two kinds goes first where both wait is a
free value (R311, R362). (DESIGN CHOICE, log entry 30.) -/
def eventWrite (s : State) : State :=
  if evServed s then
    match nextCapture s.time.store, s.hearth.ev.queue with
    | some i, [] => putCapture i s
    | some i, _ :: _ => if freeBelow s 2 = 0 then putCapture i s.tookFree else putOldest s.tookFree
    | none, _ => putOldest s
  else s

/-! ### Identity, load, latch and interrupts (R343 to R346, R349) -/

/-- HEARTH_LOAD: the busy percentages are measurements, free values from 0 to 100 (R344). (DESIGN CHOICE, log entry 28.) -/
def loadWord (busy core : Nat) (s : State) : Word :=
  let waiting := ((List.range 4).map fun r => let g := theRing s r; (g.cmdTail + 65536 - g.cmdHead) % 65536).sum
  pack [(24, s.hearth.urgentMax), (16, busy), (8, core), (0, sat 255 waiting)]

/-- HEARTH_LOAD as it reads, with its measurements. -/
def loadNow (s : State) : Word := loadWord (freeBelow s 101) (freeBelow s.tookFree 101) s

/-- What a read of HEARTH_LOAD leaves: it clears URGENT_MAX_US (R344). -/
def loadCleared (s : State) : State :=
  s.tookFree.tookFree.modHearth fun h =>
    { h with urgentMax := 0, urgentBusy := freeBelow s 101, coreBusy := freeBelow s.tookFree 101 }

/-- A read of HEARTH_LOAD. (DESIGN CHOICE, log entry 28.) -/
def loadRead (s : State) : State := emit (.readData (leBytes 4 (loadNow s).toNat)) (loadCleared s)

/-- Some mailbox ring or the event ring is enabled. -/
def anyEn (s : State) : Bool := s.hearth.ev.en || s.hearth.rings.any fun e => e.2.en

/-- The highest common interface version (R349). (DEDUCED, log entry 26.) -/
def commonVer (h : Hearth) (v : Word) : Option Nat :=
  let lo := Nat.max (fld v 7 0) h.ifMin
  let hi := Nat.min (fld v 15 8) h.ifMax
  if lo ≤ hi then some hi else none

/-- A write of IF_REQUEST; without a common version VALID alone is cleared (R349). (DEDUCED, log entry 26.) -/
def ifRequest (v : Word) (s : State) : State :=
  if anyEn s then s.modHearth fun h => { h with reqIgnored := true }
  else s.modHearth fun h =>
    { h with ifRequest := w32 (v.toNat % 65536), reqIgnored := false, ifValid := (commonVer h v).isSome,
             ifActive := (commonVer h v).getD h.ifActive }

/-- A write of TIME_LATCH_CTRL: the latched instant lies within 20 ns of the write, where is a free value (R345).
(DESIGN CHOICE, log entry 27.) -/
def latchTime (v : Word) (s : State) : State :=
  if bitAt v 0 then
    let t := s.time.now + freeBelow s 5121
    s.tookFree.modHearth fun h => { h with latch := timeWords t, latchUnset := s.time.state == 0 }
  else s

/-- A write of a word of the MSI-X table. A vector that is unmasked while its message is pending sends it.
(PRESUMED, log entry 29.) -/
def msixWrite (i : Nat) (v : Word) (s : State) : State :=
  let x : Word := if i % 4 = 3 then v &&& 1 else if i % 4 = 0 then v &&& 0xFFFFFFFC else v
  let s := s.modHearth fun h => { h with msix := tset h.msix (if i % 4 = 3 then 1 else 0) i x }
  let n := i / 4
  if i % 4 = 3 ∧ x = 0 ∧ s.hearth.pba.getLsbD n then
    sendMsix n (s.modHearth fun h => { h with pba := h.pba &&& ~~~(1#64 <<< n) })
  else s

/-- A write of a 32-bit word of BAR0 (R343). A register that has a row of its own is written as that row writes it.
(DESIGN CHOICE, log entry 146.) -/
def barWrite (off : Nat) (v : Word) (s : State) : State :=
  if off = 0x000C then ifRequest v s
  else if off = 0x0028 then latchTime v s
  else if off = 0x0040 then s.modHearth fun h => { h with intStatus := h.intStatus &&& ~~~(BitVec.ofNat 7 v.toNat) }
  else if off = 0x0044 then s.modHearth fun h => { h with intMask := BitVec.ofNat 7 v.toNat }
  else if 0x0100 ≤ off ∧ off < 0x0200 then ringWrite ((off - 0x0100) / 0x40) (off % 0x40) v s
  else if 0x0200 ≤ off ∧ off < 0x0220 then evWrite (off - 0x0200) v s
  else if 0x8000 ≤ off ∧ off < 0x8400 then msixWrite ((off - 0x8000) / 4) v s
  else s

/-- A ring's registers as they read (R347). -/
def ringRead (s : State) (r off : Nat) : Word :=
  let g := theRing s r
  match off with
  | 0x00 => w32 g.cmdBase.toNat
  | 0x04 => w32 (g.cmdBase.toNat / 2 ^ 32)
  | 0x08 => w32 g.cplBase.toNat
  | 0x0C => w32 (g.cplBase.toNat / 2 ^ 32)
  | 0x10 => pack [(31, bit g.en), (30, bit g.perVec), (29, bit g.isLocal), (0, g.vector)]
  | 0x14 => w32 g.cmdTail
  | 0x18 => w32 g.cmdHead
  | 0x1C => w32 g.cplTail
  | 0x20 => w32 g.cplHead
  | 0x24 => pack [(31, bit g.full), (30, bit g.dbError), (29, bit (ringPaused s r)), (0, inFlight g % 512)]
  | _ => 0

/-- The event ring's registers as they read (R361). -/
def evRead (s : State) (off : Nat) : Word :=
  let e := s.hearth.ev
  match off with
  | 0x00 => w32 e.evBase.toNat
  | 0x04 => w32 (e.evBase.toNat / 2 ^ 32)
  | 0x08 => w32 e.pktBase.toNat
  | 0x0C => w32 (e.pktBase.toNat / 2 ^ 32)
  | 0x10 => pack [(31, bit e.en), (8, e.sizeLog2), (0, e.vector)]
  | 0x14 => w32 e.evTail
  | 0x18 => w32 e.evHead
  | 0x1C => evLostWord s
  | _ => 0

/-- BAR0 as it reads, apart from what a read of LOST or HEARTH_LOAD does (R343, R344). (DESIGN CHOICE, log entry 146.) -/
def barRead (s : State) (off : Nat) : Word :=
  let h := s.hearth
  if off = 0x0000 then 0x1024B000
  else if off = 0x0004 then h.fwVersion
  else if off = 0x0008 then pack [(8, h.ifMax), (0, h.ifMin)]
  else if off = 0x000C then h.ifRequest
  else if off = 0x0010 then pack [(9, bit h.reqIgnored), (8, bit h.ifValid), (0, h.ifActive)]
  else if off = 0x0014 then pack [(8, bit s.sec.debugUntil.isSome), (0, s.sec.life)]
  else if off = 0x0018 then devStatus s
  else if off = 0x001C then h.selftest
  else if off = 0x0020 then h.resetCause
  else if off = 0x0024 then loadWord h.urgentBusy h.coreBusy s
  else if off = 0x0028 then pack [(1, bit h.latchUnset)]
  else if 0x002C ≤ off ∧ off < 0x0038 then h.latch.getD ((off - 0x002C) / 4) 0
  else if off = 0x0040 then w32 h.intStatus.toNat
  else if off = 0x0044 then w32 h.intMask.toNat
  else if 0x0100 ≤ off ∧ off < 0x0200 then ringRead s ((off - 0x0100) / 0x40) (off % 0x40)
  else if 0x0200 ≤ off ∧ off < 0x0220 then evRead s (off - 0x0200)
  else if 0x8000 ≤ off ∧ off < 0x8400 then msixWord h ((off - 0x8000) / 4)
  else if off = 0x9000 then w32 h.pba.toNat
  else if off = 0x9004 then w32 (h.pba.toNat / 2 ^ 32)
  else 0

/-- A word of BAR0 as a read gives it (R343, R344, R361). (DESIGN CHOICE, log entry 146.) -/
def barWord (s : State) (off : Nat) : Word := if off = 0x0024 then loadNow s else barRead s off

/-- What a read of a word of BAR0 leaves (R343, R344, R361). (DESIGN CHOICE, log entry 146.) -/
def barSeen (off : Nat) (s : State) : State :=
  if off = 0x0024 then loadCleared s else if off = 0x021C then evLostCleared s else s

/-- The MSI-X table and the pending bit array, where accesses of 64 bits are accepted (R343). (DESIGN CHOICE, log entry 146.) -/
def inMsix (off : Nat) : Bool := decide (0x8000 ≤ off ∧ off < 0x8400) || off == 0x9000

/-- A transfer on the auxiliary interface writes a byte outside BAR0: to the local ring area, or in recovery to RCV_CTRL, RCV_LEN or
the image buffer, which takes nothing while VERIFYING (R348, R420, R421). (DESIGN CHOICE, log entry 146.) -/
def auxByte (a : Nat) (b : Byte) (s : State) : State :=
  if 0x010000 ≤ a ∧ a < 0x020000 then localWrite (a - 0x010000) [b] s
  else if !s.power.recovery then s
  else if a = 0x020000 then rcvStart (w32 b.toNat) s
  else if 0x020004 ≤ a ∧ a < 0x020008 then
    s.modPower fun p => { p with rcvLen := ofLe ((leBytes 4 p.rcvLen).set (a % 4) b) % 2 ^ 23 }
  else if 0x400000 ≤ a ∧ a < 0x800000 ∧ s.power.rcvState ≠ 1 then
    s.modPower fun p => { p with rcvBuf := memWrite p.rcvBuf (a - 0x400000) [b] }
  else s

/-- A transfer on the auxiliary interface writes bytes from address `a`; `word` holds the bytes of the present word of BAR0, empty
where it began at an address that is no multiple of 4. The word is applied when its fourth byte arrives (R420).
(DESIGN CHOICE, log entry 146.) -/
def auxWrite (a : Nat) (word bytes : List Byte) (s : State) : State :=
  match bytes with
  | [] => s
  | b :: r =>
    if a < 0x400 then
      let w := if a % 4 = 0 then [b] else if word = [] then [] else word ++ [b]
      if w.length = 4 then auxWrite ((a + 1) % 2 ^ 24) [] r (barWrite (a - 3) (w32 (ofLe w)) s)
      else auxWrite ((a + 1) % 2 ^ 24) w r s
    else auxWrite ((a + 1) % 2 ^ 24) [] r (auxByte a b s)

/-- RCV_CTRL as it reads (R421). -/
def rcvCtrlWord (s : State) : Word := pack [(24, s.power.rcvState), (16, s.power.rcvDetail)]

/-- A byte that the auxiliary interface reads outside BAR0; unmapped addresses read 0 (R420, R421).
(DESIGN CHOICE, log entry 146.) -/
def auxSeen (s : State) (a : Nat) : Byte :=
  if 0x010000 ≤ a ∧ a < 0x020000 then (memRead s.hearth.localMem (a - 0x010000) 1).getD 0 0
  else if !s.power.recovery then 0
  else if 0x020000 ≤ a ∧ a < 0x020004 then (leBytes 4 (rcvCtrlWord s).toNat).getD (a % 4) 0
  else if 0x020004 ≤ a ∧ a < 0x020008 then (leBytes 4 s.power.rcvLen).getD (a % 4) 0
  else if 0x400000 ≤ a ∧ a < 0x800000 then (memRead s.power.rcvBuf (a - 0x400000) 1).getD 0 0
  else 0

/-- A transfer on the auxiliary interface reads `n` bytes from address `a`; `word` holds the word of BAR0 that its last byte came
from, which is read once (R420). (DESIGN CHOICE, log entry 146.) -/
def auxRead (a n : Nat) (word : Option Word) (got : List Byte) (s : State) : State :=
  match n with
  | 0 => emit (.readData got) s
  | n + 1 =>
    if a < 0x400 then
      match (if a % 4 = 0 then none else word) with
      | some w => auxRead ((a + 1) % 2 ^ 24) n (some w) (got ++ [(leBytes 4 w.toNat).getD (a % 4) 0]) s
      | none =>
        let w := barWord s (a / 4 * 4)
        auxRead ((a + 1) % 2 ^ 24) n (some w) (got ++ [(leBytes 4 w.toNat).getD (a % 4) 0]) (barSeen (a / 4 * 4) s)
    else auxRead ((a + 1) % 2 ^ 24) n none (got ++ [auxSeen s a]) s

/-- An access to the registers. One of another width or alignment than R343 accepts completes with Unsupported Request and has no
effect (R343, R348, R420). (DESIGN CHOICE, log entry 146.) -/
def registerAccess (x : RegAccess) (v : Word) (s : State) : State :=
  match x with
  | .write32 off => if off.toNat % 4 = 0 then barWrite off.toNat v s else emit .unsupported s
  | .write64 off high =>
    if off.toNat % 8 = 0 ∧ inMsix off.toNat then barWrite (off.toNat + 4) high (barWrite off.toNat v s) else emit .unsupported s
  | .read32 off =>
    if off.toNat % 4 = 0 then emit (.readData (leBytes 4 (barWord s off.toNat).toNat)) (barSeen off.toNat s)
    else emit .unsupported s
  | .read64 off =>
    if off.toNat % 8 = 0 ∧ inMsix off.toNat then
      emit (.readData (leBytes 4 (barRead s off.toNat).toNat ++ leBytes 4 (barRead s (off.toNat + 4)).toNat)) s
    else emit .unsupported s
  | .writeOther _ => emit .unsupported s
  | .readOther _ => emit .unsupported s
  | .auxWrite a bytes => auxWrite a.toNat [] bytes s
  | .auxRead a n => auxRead a.toNat n none [] s

/-- The ALERT output: an unmasked completion cause of a LOCAL ring, or an unmasked STATUS, is 1 (R348).
(DESIGN CHOICE, log entry 136.) -/
def alertOut (s : State) : Bool :=
  let on (i : Nat) : Bool := s.hearth.intStatus.getLsbD i && !s.hearth.intMask.getLsbD i
  on 5 || (List.range 4).any fun r => on r && (theRing s r).isLocal

/-! ### Resets of the mailbox interface and of the Hearth (R333, R337, R342, R365, R366) -/

/-- The events that wait in Hearth SRAM are lost; `counted` where the counter EVENT_LOST counts them.
(DESIGN CHOICE, log entry 31.) -/
def dropEvents (counted : Bool) (s : State) : State :=
  let n := s.hearth.ev.queue.length
  let s := if n = 0 then s
    else modEv (fun e => { e with queue := [], lost := sat 65535 (e.lost + n), lostPend := true }) s
  if counted then bumpBy (ctr 0x14 0 1) n s else s

/-- PCIE_RESET: the mailbox interface alone (R337, R365). (DESIGN CHOICE, log entries 27, 32; PRESUMED, log entry 29.) -/
def pcieReset (s : State) : State :=
  let off : Nat → Bool := fun r => !(theRing s r).isLocal
  let t := dropEvents true (muteRings off s)
  let t := (List.range 4).foldl (fun t r => if off r then modRing r (fun g => { g with en := false }) t else t) t
  (modEv (fun e => { e with en := false }) t).modHearth fun h =>
    { h with ifActive := 0, ifValid := false, intStatus := 0, intMask := 0x7F, msix := [], pba := 0, latch := [0, 0, 0],
             latchUnset := false }

/-- A detached command whose work the Hearth itself does, and which a Hearth reset ends. (DESIGN CHOICE, log entry 33.) -/
def hearthOwn (d : Detached) : Bool := match d.work with
  | .fwLoad _ _ => true
  | _ => false

/-- A Hearth reset begins, with the CAUSE of RESET_CAUSE: pending commands, waiting events, undelivered captures and the
volatile log are lost, everything in hardware goes on (R333, R337, R366, R380, R386).
(DESIGN CHOICE, log entries 31, 32, 33.) -/
def hearthReset (cause : Nat) (s : State) : State :=
  let t := dropEvents false (closeViews s)
  let t := t.modTime fun x => { x with store := [], lostSrc := (x.store.map (fun c => c.source) ++ x.lostSrc).dedup }
  let t := t.modSec fun c => { c with volLog := [], folds := [] }
  let t := t.modHearth fun h =>
    { h with ready := false, inReset := true, resetWhy := if cause = 8 then 2 else 1, localMem := [],
             owed := h.owed ++ (h.detached.filter fun d => !d.muted).map (fun d => d.cmd) ++ h.pendingReset.toList,
             detached := (h.detached.filter fun d => !hearthOwn d).map fun d => { d with muted := true }, pendingReset := none }
  noteStatus s (setResetCause 3 cause false false t)

/-- An uncorrectable error of Hearth SRAM has halted a core: it is counted and reported (R377).
(DESIGN CHOICE, log entry 140.) -/
def sramHalts (core : Nat) (s : State) : State := report (faultAt 0x0F04 1 3 0 core) (bump (ctr 0x14 0 6) s)

/-- The report of an expired watchdog: R334 has it reported, and no rule gives its code below the chapter or its severity, which are
free values. (DESIGN CHOICE, log entry 124.) -/
def watchdogReport (core : Nat) (s : State) : State :=
  report (faultAt (0x0E00 + freeBelow s 256) (freeBelow s.tookFree 4) 3 0 core) s.tookFree.tookFree

/-- HEARTH_WATCHDOG: firmware runs, and a core's watchdog expires; `sramUe` where an uncorrectable error has halted the core
(R334, R342, R377). (DESIGN CHOICE, log entry 124.) -/
def watchdog (core : Nat) (sramUe : Bool) (s : State) : State :=
  if s.hearth.ready && !s.hearth.inReset then
    hearthReset 8 (watchdogReport core (if sramUe then sramHalts core s else s))
  else s

/-- The interrupted commands end HEARTH_RESTARTED (R366). (DESIGN CHOICE, log entry 32.) -/
def answerOwed (s : State) : State :=
  s.hearth.owed.foldl (fun s c => writeCompletion c { status := St.hearthRestarted, detail := 0, result := [] } s)
    (s.modHearth fun h => { h with owed := [] })

/-- HEARTH_RETURN: the boot ROM starts the firmware, which answers the interrupted commands (R366, R390).
(DESIGN CHOICE, log entries 31, 32.) -/
def hearthReturn (s : State) : State :=
  if s.hearth.inReset then
    let t := boot (s.modHearth fun h => { h with inReset := false })
    if t.hearth.ready then noteStatus s (hearthStart s.hearth.resetWhy (answerOwed t)) else noteStatus s t
  else s

/-! ### Settings (R371, R372) -/

/-- DEVICE_CONFIG (R371). (DESIGN CHOICE, log entry 35.) -/
def deviceConfig (args : List Word) (s : State) : Res :=
  let n := argN args 1
  if n < 1 ∨ 255 < n then cmdRefuse St.badArgument 1 s else cmdOk (s.modHearth fun h => { h with hopLimit := n })

/-- ENDPOINT_ID_SET (R372): the ID has GEN_EXT 0 and POD 255. (DESIGN CHOICE, log entry 35.) -/
def endpointIdSet (args : List Word) (s : State) : Res :=
  let id := argN args 1
  if id / 4096 ≠ 255 then cmdRefuse St.badArgument 1 s
  else if s.coll.any (fun e => ctxUsed e.2) || s.jobs.seeds.any (fun e => e.2.state == 2) then cmdRefuse St.busy 0 s
  else cmdOkWith [w32 (s.hearth.endpointId.getD 0)] (s.modHearth fun h => { h with endpointId := some id })

/-- The folding window of a fault's location ends and its report is sent (R378). (DESIGN CHOICE, log entry 140.) -/
def foldEnd (loc : Nat × Nat × Nat × Nat) (s : State) : State :=
  match s.sec.folds.find? fun f => f.rep.loc == loc with
  | some f =>
    if f.since + usU 100000 ≤ s.time.now then
      let s := s.modSec fun c => { c with folds := c.folds.filter fun g => g.rep.loc != loc }
      if f.count = 0 then s else sendFault f.rep f.count s
    else s
  | none => s

/-! ### Meanings -/

/-- MBX_NOP (R373). -/
def execMbxNop (h : CmdHdr) (args : List Word) (s : State) : Host.Outcome State Fault Refusal :=
  runMailbox ⟨0x0E01, 4, false⟩ (fun _ => 0) (fun _ s => cmdOk s) h args s
/-- DEVICE_CONFIG. -/
def execDeviceConfig (h : CmdHdr) (args : List Word) (s : State) : Host.Outcome State Fault Refusal :=
  runMailbox ⟨0x0E02, 1, false⟩ (fun _ => 1) (fun _ s => deviceConfig args s) h args s
/-- ENDPOINT_ID_SET. -/
def execEndpointIdSet (h : CmdHdr) (args : List Word) (s : State) : Host.Outcome State Fault Refusal :=
  runMailbox ⟨0x0E03, 1, false⟩ (fun _ => 1) (fun _ s => endpointIdSet args s) h args s
/-- HEARTH_RESET: the command completes before the reset (R340). -/
def execHearthReset (h : CmdHdr) (args : List Word) (s : State) : Host.Outcome State Fault Refusal :=
  runMailbox ⟨0x0D0E, 0, false⟩ (fun _ => 0)
    (fun c s => (hearthReset 2 (writeCompletion c { status := St.ok, detail := 0, result := [] } s), none)) h args s
/-- CMD_TAIL_WRITE. -/
def execCmdTailWrite (ring : Fin 4) (value : Word) (s : State) : Host.Outcome State Fault Refusal := .next (doorbell ring value s)
/-- CPL_HEAD_WRITE. -/
def execCplHeadWrite (ring : Fin 4) (value : Word) (s : State) : Host.Outcome State Fault Refusal := .next (cplHead ring value s)
/-- RING_ENABLE: a write of the ring's control word. -/
def execRingEnable (ring : Fin 4) (value : Word) (s : State) : Host.Outcome State Fault Refusal := .next (ringCtrl ring value s)
/-- RING_DISABLE: a write of the ring's control word. -/
def execRingDisable (ring : Fin 4) (value : Word) (s : State) : Host.Outcome State Fault Refusal := .next (ringCtrl ring value s)
/-- EVENT_RING_ENABLE: a write of EV_CTRL. -/
def execEventRingEnable (value : Word) (s : State) : Host.Outcome State Fault Refusal := .next (evCtrl value s)
/-- EV_HEAD_WRITE. -/
def execEvHeadWrite (value : Word) (s : State) : Host.Outcome State Fault Refusal := .next (evHead value s)
/-- EV_LOST_READ. -/
def execEvLostRead (s : State) : Host.Outcome State Fault Refusal := .next (evLostRead s)
/-- HEARTH_LOAD_READ. -/
def execHearthLoadRead (s : State) : Host.Outcome State Fault Refusal := .next (loadRead s)
/-- IF_REQUEST_WRITE. -/
def execIfRequestWrite (value : Word) (s : State) : Host.Outcome State Fault Refusal := .next (ifRequest value s)
/-- LATCH. -/
def execLatch (value : Word) (s : State) : Host.Outcome State Fault Refusal := .next (latchTime value s)
/-- REGISTER_WRITE: an access to the registers, over PCIe or the auxiliary interface. -/
def execRegisterWrite (access : RegAccess) (value : Word) (s : State) : Host.Outcome State Fault Refusal :=
  .next (registerAccess access value s)
/-- PCIE_RESET: every kind of PCIe reset acts alike (R365). -/
def execPcieReset (_kind : PcieReset) (s : State) : Host.Outcome State Fault Refusal := .next (pcieReset s)
/-- EVENT_WRITE. -/
def execEventWrite (s : State) : Host.Outcome State Fault Refusal := .next (eventWrite s)
/-- FAULT_REPORT_FOLD_END. -/
def execFaultReportFoldEnd (code : BitVec 16) (half : BitVec 2) (block : Byte) (item : BitVec 16) (s : State) :
    Host.Outcome State Fault Refusal := .next (foldEnd (code.toNat, half.toNat, block.toNat, item.toNat) s)
/-- HEARTH_WATCHDOG: an expiry on any core resets the Hearth. -/
def execHearthWatchdog (halt : HaltedCore) (s : State) : Host.Outcome State Fault Refusal :=
  .next (watchdog halt.core halt.sramUe s)
/-- HEARTH_RETURN. -/
def execHearthReturn (s : State) : Host.Outcome State Fault Refusal := .next (hearthReturn s)

end Sys2Proof.Machine
end

