-- ==== Sys2Proof/Machine/Security.lean ====
section
/-! DEFINITION. Life cycle, authorisation, attestation, tag area, calibration records and fault logs (R380 to R396). -/

namespace Sys2Proof.Machine

/-! ### Authorisation blocks (R382 to R384) -/

/-- An authorisation block (R383). -/
structure AuthBlock where
  type : Nat
  slot : Nat
  param : Nat
  seq : Nat
  uid : Nat
  key : List Byte
  signed : List Byte
  sig : List Byte
  deriving DecidableEq, Repr

/-- The authorisation block at a word of the argument block. -/
def authAt (args : List Word) (i : Nat) : AuthBlock :=
  let b := wordsLe (argWords args i 40)
  { type := fld (arg args i) 31 24, slot := fld (arg args i) 23 16, param := fld (arg args i) 15 0, seq := argN args (i + 1),
    uid := ofLe ((b.drop 8).take 16), key := (b.drop 32).take 64, signed := b.take 96, sig := b.drop 96 }

/-- The signer that a slot names: 0 the vendor, 1 to 4 an enrolled owner key. (DESIGN CHOICE, log entry 127.) -/
def signerOk (c : Sec) (a : AuthBlock) : Bool :=
  if a.slot = 0 then sha256 a.key == c.vendorDigest
  else match c.owners[a.slot - 1]? with
    | some d => sha256 a.key == d
    | none => false

/-- The checks 2 to 5 of a block, and check 1 as its caller has made it; `enrol` skips check 4 (R384). The DETAIL of the
first that fails. (DESIGN CHOICE, log entry 127.) -/
def authCheck (c : Sec) (typeOk slotOk enrol : Bool) (a : AuthBlock) : Option Nat :=
  if !typeOk then some 1
  else if a.uid ≠ c.uid.toNat then some 2
  else if a.seq ≠ c.authSeq then some 3
  else if !enrol && !(slotOk && signerOk c a) then some 4
  else if !ecdsaOk a.key a.signed a.sig then some 5
  else none

/-- A command that carries blocks is accepted: AUTH_SEQ rises (R384). -/
def authTaken (s : State) : State := s.modSec fun c => { c with authSeq := (c.authSeq + 1) % 2 ^ 32 }

/-- The refusal of a block. (DESIGN CHOICE, log entry 127.) -/
def authRefuse (d : Nat) (s : State) : Res := cmdRefuse St.lifecycleRefused d s

/-! ### Life cycle (R381, R382, R385, R386) -/

/-- A number from the on-die random source, from 1 below the order of the curve: a free value (R382, R391).
(PRESUMED, log entry 126.) -/
def drawKey (s : State) : Nat := 1 + freeBelow s (p256N - 1)

/-- MANUFACTURE to PROVISION: the identity key pair is generated from the random source (R382). (PRESUMED, log entry 126.) -/
def toProvision (s : State) : State :=
  authTaken (closeViews (s.tookFree.modSec fun c => { c with life := 1, identity := some (drawKey s) }))

/-- The debug access of R381 and R386. -/
inductive DebugAccess where
  | closed
  | views
  | full
  deriving DecidableEq, Repr

/-- What the test access port gives: everything and the Hearth halt in MANUFACTURE and RETURN, otherwise nothing but the views of a
signed unlock in force (R381, R386). -/
def debugAccess (s : State) : DebugAccess :=
  if s.sec.life = 0 ∨ s.sec.life = 3 then .full else if s.sec.debugUntil.isSome then .views else .closed

/-- LIFECYCLE_ADVANCE with an ADVANCE block. (DESIGN CHOICE, log entry 127.) -/
def lifeAdvance (a : AuthBlock) (s : State) : Res :=
  let c := s.sec
  let typeOk := decide (c.life ≤ 1) && a.param == c.life + 1
  let slotOk := if c.life = 0 then a.slot == 0 else a.slot != 0
  match authCheck c typeOk slotOk false a with
  | some d => authRefuse d s
  | none =>
    if c.life = 0 then (if c.factoryDone then cmdOk (toProvision s) else authRefuse 6 s)
    else if c.owners = [] then authRefuse 6 s
    else cmdOk (authTaken (closeViews (s.modSec fun c => { c with life := 2 })))

/-- LIFECYCLE_ADVANCE with an ENROL block. (DESIGN CHOICE, log entry 127.) -/
def enrol (a : AuthBlock) (s : State) : Res :=
  match authCheck s.sec (s.sec.life == 1) true true a with
  | some d => authRefuse d s
  | none =>
    if 4 ≤ s.sec.owners.length then authRefuse 6 s
    else cmdOk (authTaken (s.modSec fun c =>
      { c with owners := c.owners ++ [sha256 a.key], cosign := c.cosign || a.param % 2 == 1 }))

/-- LIFECYCLE_ADVANCE (R382, R384). -/
def lifecycleAdvance (args : List Word) (s : State) : Res :=
  let a := authAt args 1
  if a.type = 1 then lifeAdvance a s else if a.type = 2 then enrol a s else authRefuse 1 s

/-- RETURN_AUTHORISE (R384, R385): both blocks are checked, then every partition must be FREE.
(DESIGN CHOICE, log entry 127.) -/
def returnAuthorise (args : List Word) (s : State) : Res :=
  let v := authAt args 1
  let o := authAt args 41
  let field := s.sec.life == 2
  match authCheck s.sec (field && v.type == 3) (v.slot == 0) false v with
  | some d => authRefuse d s
  | none =>
    match authCheck s.sec (field && o.type == 4) (o.slot != 0) false o with
    | some d => authRefuse d s
    | none =>
      if s.jobs.parts.any fun e => e.2.state != 0 then cmdRefuse St.busy 0 s
      else cmdOk (authTaken (closeViews (s.modSec fun c =>
        { c with life := 3, identity := none, owners := [], cosign := false, tag := [] })))

/-- DEBUG_UNLOCK (R386): the views open for PARAM minutes of the Hearth's own time base. (DESIGN CHOICE, log entry 127.) -/
def debugUnlock (args : List Word) (s : State) : Res :=
  let a := authAt args 1
  let typeOk := (s.sec.life == 1 || s.sec.life == 2) && a.type == 5 && decide (1 ≤ a.param ∧ a.param ≤ 1440)
  match authCheck s.sec typeOk true false a with
  | some d => authRefuse d s
  | none => cmdOk (authTaken (s.modSec fun c =>
      { c with debugUntil := some (s.time.hearthPs + a.param * 60000000000000) }))

/-- DEBUG_VIEWS_EXPIRE (R386). -/
def viewsExpire (s : State) : State :=
  match s.sec.debugUntil with
  | some t => if t ≤ s.time.hearthPs then closeViews s else s
  | none => s

/-! ### Attestation (R391, R392) -/

/-- The image of a port partition entry (R325). -/
def portPartImg (x : PortPart) : Word := pack [(30, x.mode), (0, x.partition)]

/-- The image of an allow entry (R326). -/
def allowImg (x : AllowEntry) : Word := pack [(31, bit x.valid), (12, x.guest), (0, x.host)]

/-- A lane is a port base (R6). -/
def isBase (s : State) (p : Nat) : Bool := (tget s.link.ports {} p).configured

/-- The configuration image that M_CONFIG digests (R392). -/
def configImage (s : State) : List Byte :=
  ((List.range 4).flatMap fun i => s.sec.owners.getD i (List.replicate 32 0)) ++ leBytes 4 (bit s.sec.cosign) ++
  ((List.range 4095).flatMap fun i => wordsLe (partImg (i + 1) (tget s.jobs.parts {} (i + 1)))) ++
  ((List.range 1024).flatMap fun p => leBytes 4 (if isBase s p then (portPartImg (portPartition s p)).toNat else 0)) ++
  ((List.range 256).flatMap fun i => leBytes 4 (allowImg (tget s.jobs.allow {} i)).toNat) ++
  ((List.range 1024).flatMap fun i => windowImg (theWindow s i))

/-- The tag area: 512 bytes (R393). -/
def tagArea (s : State) : List Byte := memRead s.sec.tag 0 512

/-- Bytes 0 to 79 of the report (R391). -/
def attestHead (nonce : List Word) (s : State) : List Byte :=
  wordsLe [pack [(16, 1), (7, bit s.sec.debugUntil.isSome), (6, bit s.sec.cosign), (0, s.sec.life)], s.hearth.fwVersion,
    pack [(24, (fwSlot s s.hearth.bootSlot).secVer), (16, s.sec.fusedVer), (8, if s.hearth.ifValid then s.hearth.ifActive else 0),
      (4, s.sec.owners.length)],
    w32 s.sec.authSeq] ++ leBytes 16 s.sec.uid.toNat ++
  wordsLe ((if timeUnset s then [0, 0, 0] else timeWords s.time.now) ++ [0] ++ nonce)

/-- M_FW: the digest of the running image; the bytes of the shipped image are not given, so its digest is free.
(DESIGN CHOICE, log entry 11.) -/
def measureFw (s : State) : List Byte × State :=
  let img := (fwSlot s s.hearth.bootSlot).image
  if img = [] then freeBytes 32 s else (sha256 img, s)

/-- The identity public key (R391); none has been generated in MANUFACTURE, and RETURN has erased it.
(PRESUMED, log entry 126.) -/
def identityKey (s : State) : List Byte :=
  match s.sec.identity with
  | some d => pubKey d
  | none => List.replicate 64 0

/-- ATTEST_REPORT (R381, R391): bytes 0 to 239 signed with the identity key. (PRESUMED, log entry 126.) -/
def attestReport (args : List Word) (s : State) : Res :=
  if s.sec.life = 0 ∨ s.sec.life = 3 then authRefuse 1 s
  else
    let head := attestHead (argWords args 1 8) s
    let (mfw, t) := measureFw s
    let msg := head ++ mfw ++ sha256 (configImage s) ++ sha256 (tagArea s) ++ identityKey s
    cmdOk (hostWrite (arg64 args 9) (msg ++ ecdsaSign (s.sec.identity.getD 0) (drawKey t) msg) t.tookFree)

/-! ### Tag area (R393) -/

/-- A byte range lies in the tag area, in words of four bytes: the word at fault, or none. (DESIGN CHOICE, log entry 128.) -/
def tagRangeBad (off len : Nat) : Option Nat :=
  if off % 4 ≠ 0 ∨ 512 ≤ off then some 1
  else if len % 4 ≠ 0 ∨ len < 4 ∨ 512 - off < len then some 2
  else none

/-- TAG_WRITE (R381, R393). (DESIGN CHOICE, log entries 18, 128.) -/
def tagWrite (args : List Word) (s : State) : Res :=
  match tagRangeBad (argN args 1) (argN args 2) with
  | some d => cmdRefuse St.badArgument d s
  | none =>
    if s.sec.life = 0 ∨ s.sec.life = 3 then authRefuse 1 s
    else cmdOk (s.modSec fun c =>
      { c with tag := memWrite c.tag (argN args 1) (wordsLe (argWords args 3 (argN args 2 / 4))) })

/-- TAG_READ (R393). -/
def tagRead (args : List Word) (s : State) : Res :=
  match tagRangeBad (argN args 1) (argN args 2) with
  | some d => cmdRefuse St.badArgument d s
  | none => cmdOk (hostWrite (arg64 args 3) (memRead s.sec.tag (argN args 1) (argN args 2)) s)

/-! ### Calibration records (R395) -/

/-- The number of records of a kind. -/
def calCount (kind : Nat) : Nat :=
  match kind with
  | 0 => 16
  | 1 => 80
  | 2 => 1024
  | 3 => 1024
  | 4 => 80
  | _ => 0

/-- The bound of a value that software may write. -/
def calBound (kind : Nat) : Int :=
  match kind with
  | 2 => 20
  | 3 => 30
  | _ => 100

/-- CAL_USER_WRITE (R395, R396). (DESIGN CHOICE, log entry 128.) -/
def calUserWrite (args : List Word) (s : State) : Res :=
  let kind := argN args 1
  let v := (arg args 3).toInt
  if kind < 2 ∨ 4 < kind then cmdRefuse St.badArgument 1 s
  else if calCount kind ≤ argN args 2 then cmdRefuse St.badArgument 2 s
  else if v < -calBound kind ∨ calBound kind < v then cmdRefuse St.badArgument 3 s
  else cmdOk (calSet kind (argN args 2) v s)

/-- CAL_USER_READ: signed words (R396). -/
def calUserRead (args : List Word) (s : State) : Res :=
  let kind := argN args 1
  let first := argN args 2
  let n := argN args 3
  if 4 < kind then cmdRefuse St.badArgument 1 s
  else if calCount kind ≤ first then cmdRefuse St.badArgument 2 s
  else if n < 1 ∨ calCount kind < first + n then cmdRefuse St.badArgument 3 s
  else cmdOk (hostWrite (arg64 args 4) (wordsLe ((List.range n).map fun i => w32i (calGet s kind (first + i)))) s)

/-! ### Fault logs (R380) -/

/-- The 64 bytes of a log entry. (DESIGN CHOICE, log entry 128.) -/
def logImg (e : LogEntry) : List Byte :=
  wordsLe (timeWords e.stamp ++ [0] ++ faultWords e.rep e.count)

/-- FAULT_LOG_READ: a range of a log, oldest entry first; an entry not there reads as zeros. (DESIGN CHOICE, log entry 128.) -/
def faultLogRead (args : List Word) (s : State) : Res :=
  let first := argN args 2
  let n := argN args 3
  let log := if argN args 1 = 0 then s.sec.volLog else s.sec.persLog
  let cap := if argN args 1 = 0 then 1024 else 256
  if 1 < argN args 1 then cmdRefuse St.badArgument 1 s
  else if cap ≤ first then cmdRefuse St.badArgument 2 s
  else if n < 1 ∨ cap < first + n then cmdRefuse St.badArgument 3 s
  else cmdOk (hostWrite (arg64 args 4) ((List.range n).flatMap fun i => match log[first + i]? with
    | some e => logImg e
    | none => List.replicate 64 0) s)

/-! ### Meanings -/

/-- ATTEST_REPORT. -/
def execAttestReport (h : CmdHdr) (args : List Word) (s : State) : Host.Outcome State Fault Refusal :=
  runMailbox ⟨0x0F01, 3, false⟩ (fun _ => 10) (fun _ s => attestReport args s) h args s
/-- TAG_WRITE: the data take a whole number of words. -/
def execTagWrite (h : CmdHdr) (args : List Word) (s : State) : Host.Outcome State Fault Refusal :=
  runMailbox ⟨0x0F02, 1, false⟩ (fun a => 2 + (argN a 2 + 3) / 4) (fun _ s => tagWrite args s) h args s
/-- TAG_READ. -/
def execTagRead (h : CmdHdr) (args : List Word) (s : State) : Host.Outcome State Fault Refusal :=
  runMailbox ⟨0x0F03, 3, false⟩ (fun _ => 4) (fun _ s => tagRead args s) h args s
/-- LIFECYCLE_ADVANCE. -/
def execLifecycleAdvance (h : CmdHdr) (args : List Word) (s : State) : Host.Outcome State Fault Refusal :=
  runMailbox ⟨0x0F04, 3, false⟩ (fun _ => 40) (fun _ s => lifecycleAdvance args s) h args s
/-- RETURN_AUTHORISE. -/
def execReturnAuthorise (h : CmdHdr) (args : List Word) (s : State) : Host.Outcome State Fault Refusal :=
  runMailbox ⟨0x0F05, 3, false⟩ (fun _ => 80) (fun _ s => returnAuthorise args s) h args s
/-- DEBUG_UNLOCK. -/
def execDebugUnlock (h : CmdHdr) (args : List Word) (s : State) : Host.Outcome State Fault Refusal :=
  runMailbox ⟨0x0F06, 3, false⟩ (fun _ => 40) (fun _ s => debugUnlock args s) h args s
/-- CAL_USER_WRITE. -/
def execCalUserWrite (h : CmdHdr) (args : List Word) (s : State) : Host.Outcome State Fault Refusal :=
  runMailbox ⟨0x0F07, 1, false⟩ (fun _ => 3) (fun _ s => calUserWrite args s) h args s
/-- CAL_USER_READ. -/
def execCalUserRead (h : CmdHdr) (args : List Word) (s : State) : Host.Outcome State Fault Refusal :=
  runMailbox ⟨0x0F08, 3, false⟩ (fun _ => 5) (fun _ s => calUserRead args s) h args s
/-- FAULT_LOG_READ. -/
def execFaultLogRead (h : CmdHdr) (args : List Word) (s : State) : Host.Outcome State Fault Refusal :=
  runMailbox ⟨0x0F09, 3, false⟩ (fun _ => 5) (fun _ s => faultLogRead args s) h args s
/-- DEBUG_VIEWS_EXPIRE. -/
def execDebugViewsExpire (s : State) : Host.Outcome State Fault Refusal := .next (viewsExpire s)

end Sys2Proof.Machine
end

