-- ==== Sys2Proof/Machine/PowerCmds.lean ====
section
/-! DEFINITION. Rails, power-up, references, temperature (R410 to R421, R430, R433 to R435), and the bridge and the planes
whose faults reset a half or the device (R19, R20, R102). -/

namespace Sys2Proof.Machine

/-! ### Power status (R434) -/

/-- A fresh reading of 16 bits: a measurement, a free value. -/
def reading16 (s : State) (k : Nat) : Nat := Config.freeValue (s.free + k) % 65536

/-- The readings of rails and powers are refreshed (R434). (DESIGN CHOICE, log entry 14.) -/
def freshReadings (s : State) : State :=
  { s with
    power := { s.power with vin36Mv := reading16 s 0, vauxMv := reading16 s 1, pin := reading16 s 2, paux := reading16 s 3,
                            pH0 := reading16 s 4, pH1 := reading16 s 5, pOptics := reading16 s 6, pGran := reading16 s 7 },
    free := s.free + 8 }

/-- The power status record. -/
def powerRecord (s : State) : List Word :=
  let p := s.power
  [pack [(16, p.vin36Mv), (0, p.vauxMv)], pack [(16, p.pin), (0, p.paux)], pack [(16, p.pH0), (0, p.pH1)],
   pack [(16, p.pOptics), (0, p.pGran)], pack [(24, p.tempMax), (16, p.tempSensor), (8, p.kilnMax)],
   pack [(16, p.on1.toNat), (8, p.on0.toNat), (2, bit p.trip), (1, bit s.time.refOk1), (0, bit s.time.refOk0)],
   pack [(16, p.conv1), (0, p.conv0)], 0]

/-- POWER_STATUS_READ (R434, R435). -/
def powerStatusRead (args : List Word) (s : State) : Res :=
  let s := freshReadings s
  cmdOk (hostWrite (arg64 args 1) (wordsLe (powerRecord s)) s)

/-- The DEV_OK output: both halves are ready and no FATAL fault is present (R426). A FATAL fault is one that has put the
device or a half into reset. (DESIGN CHOICE, log entry 136.) -/
def devOk (s : State) : Bool := s.power.ready0 && s.power.ready1

/-! ### Output pins (R426) -/

/-- The conditions A to F of R426 on the pins of a half: AUX off, COLD_RST_N low or the AUX reset asserted, the half domains
unpowered, powered and in device reset, the half in a half reset, running. -/
inductive PinCond where
  | off
  | auxReset
  | auxOnly
  | deviceReset
  | halfReset
  | running
  deriving DecidableEq, Repr

/-- The condition of a half's pins (R426); `rst` while COLD_RST_N is low or the AUX reset is asserted, which lasts for a row of the
block and is no field. (DESIGN CHOICE, log entry 136.) -/
def pinCond (rst : Bool) (s : State) (h : Nat) : PinCond :=
  if !s.power.aux then .off
  else if rst then .auxReset
  else if Machine.auxOnly s then .auxOnly
  else if s.power.inReset then .deviceReset
  else if !halfReady s h then .halfReset
  else .running

/-- AUX runs and is not held in reset: conditions C to F. (DESIGN CHOICE, log entry 136.) -/
def auxRuns (rst : Bool) (s : State) : Bool := s.power.aux && !rst

/-- DEV_OK: high impedance in conditions A and B, else its level (R426). (DESIGN CHOICE, log entry 136.) -/
def devOkPin (rst : Bool) (s : State) : Option Bool := if auxRuns rst s then some (devOk s) else none

/-- THERM_TRIP_N is pulled low while a trip holds; in conditions A and B it is released (R426, R430).
(DESIGN CHOICE, log entry 136.) -/
def tripPinLow (rst : Bool) (s : State) : Bool := auxRuns rst s && s.power.trip

/-- AUX_ALERT_N is pulled low while ALERT is asserted; in conditions A and B it is released (R348, R426).
(DESIGN CHOICE, log entry 136.) -/
def alertPinLow (rst : Bool) (s : State) : Bool := auxRuns rst s && alertOut s

/-- AUX_SDO is driven while AUX_CS_N is low, from condition C on (R426). (DESIGN CHOICE, log entry 136.) -/
def sdoDriven (rst csLow : Bool) (s : State) : Bool := auxRuns rst s && csLow

/-- TDO is driven while the test access port shifts, from condition C on (R426). (DESIGN CHOICE, log entry 136.) -/
def tdoDriven (rst shifting : Bool) (s : State) : Bool := auxRuns rst s && shifting

/-- What PCIE_TX does (R426). -/
inductive PcieTx where
  | unpowered
  | idle
  | operating
  deriving DecidableEq, Repr

/-- PCIE_TX: electrical idle in condition B, operating from condition C on (R29, R426). (DESIGN CHOICE, log entry 136.) -/
def pcieTx (rst : Bool) (s : State) : PcieTx := if !s.power.aux then .unpowered else if rst then .idle else .operating

/-- The Silo and Barn store signals of a half are driven only while it runs (R426). (DESIGN CHOICE, log entry 136.) -/
def memPinsDriven (rst : Bool) (s : State) (h : Nat) : Bool := pinCond rst s h == .running

/-- CXn_PERST_N: high impedance or its level (R424, R426). (DESIGN CHOICE, log entry 136.) -/
def perstPin (rst : Bool) (s : State) (c : Nat) : Option Bool := if memPinsDriven rst s c then some (!perstLow s c) else none

/-- BSj_RESET_N of the channels of a half: high impedance, or low until the Barn store has trained (R423, R426).
(DESIGN CHOICE, log entry 136.) -/
def bsResetPin (rst : Bool) (s : State) (h : Nat) : Option Bool :=
  if memPinsDriven rst s h then some (s.mem.barnStore != .training) else none

/-- PPS_OUT: high impedance while the half domains are unpowered or in device reset; a half reset does not affect it
(R28, R303, R426). (DESIGN CHOICE, log entry 136.) -/
def ppsOutPin (rst : Bool) (s : State) : Option Bool :=
  match pinCond rst s 0 with
  | .halfReset => some s.time.ppsOut
  | .running => some s.time.ppsOut
  | _ => none

/-- The fibre outputs of a lane may be lit: while its half runs, or by a Flue circuit in its half reset (R28, R426).
(DESIGN CHOICE, log entry 136.) -/
def fibreMayBeLit (rst : Bool) (s : State) (l : Nat) : Bool :=
  match pinCond rst s (halfOf l) with
  | .running => true
  | .halfReset => s.flue.any fun e => decide (1 < e.2.state) && (8 * e.2.fibreA + e.2.k == l || 8 * e.2.fibreB + e.2.k == l)
  | _ => false

/-! ### Domains on and off (R412 to R416) -/

/-- Every half domain is switched off. (DESIGN CHOICE, log entry 133.) -/
def domainsOff (s : State) : State := s.modPower fun p => { p with on0 := 0, on1 := 0 }

/-- A half that must stay unpowered until a cold reset (R415). (DESIGN CHOICE, log entry 133.) -/
def staysOff (s : State) (h : Nat) : Bool := if h = 0 then s.power.stayOff0 else s.power.stayOff1

/-- The last converter fault of a half lies less than 100 ms back (R415). (DESIGN CHOICE, log entry 133.) -/
def convHeld (s : State) (h : Nat) : Bool :=
  match (if h = 0 then s.power.convAt0 else s.power.convAt1).getLast? with
  | some t => decide (s.time.hearthPs < t + 100000000000)
  | none => false

/-- The halves may be powered: AUX runs, an image has been accepted, the 36 V input is qualified, no trip holds (R412,
R414, R421, R430). (DESIGN CHOICE, log entry 133.) -/
def mayPower (s : State) : Bool := s.power.aux && !idsLost s && !s.power.recovery && s.power.qualified && !s.power.trip

/-- Steps 5 and 6 of the power-up: the halves are powered and released, but for one that R415 keeps unpowered. With both references
failed they stay in reset (R414, R415, R418). (DESIGN CHOICE, log entry 133.) -/
def powerHalves (u : OpticsUp) (s : State) : State :=
  let t := (List.range 2).foldl (fun t h => if staysOff t h || convHeld t h then t else setHalfPower h 0xFF t) s
  let t := noteStatus s (t.modPower fun p => { p with inReset := true })
  if t.time.refOk0 || t.time.refOk1 then releaseDevice u t else t

/-- HALF_POWER_ON (R414). -/
def halfPowerOn (u : OpticsUp) (s : State) : State :=
  if mayPower s && s.power.on0 == 0 && s.power.on1 == 0 then powerHalves u s else s

/-- A fault report of this chapter: BLOCK names the half or sensor, F6 holds the reading (R433). -/
def powerFault (code severity half block value : Nat) : FaultRep :=
  { faultAt code severity half block 0 with detail := [w32 value] }

/-- An uncommanded device reset after which the half domains are off. (DESIGN CHOICE, log entry 133.) -/
def resetAndOff (cause : Nat) (s : State) : State := noteStatus s (domainsOff (deviceReset 1 cause s))

/-- A reading outside 30.5 V to 42.0 V: which one is a free value. (DESIGN CHOICE, log entry 131.) -/
def lostMv (s : State) : Nat :=
  let v := freeBelow s 54034
  if v < 30500 then v else v + 11501

/-- VIN36_LOST (R412). An input that was not qualified is not lost again. (DESIGN CHOICE, log entry 131.) -/
def vinLost (s : State) : State :=
  if s.power.qualified then
    let t := report (powerFault 0x1102 3 3 0 (lostMv s)) s.tookFree
    noteStatus s ((resetAndOff 4 t).modPower fun p => { p with qualified := false })
  else s

/-- VIN36_QUALIFIED (R412). (DESIGN CHOICE, log entry 131.) -/
def vinQualified (s : State) : State := noteStatus s (s.modPower fun p => { p with qualified := true })

/-- VIN36_MARGIN (R412). (DESIGN CHOICE, log entry 131.) -/
def vinMargin (mv : Nat) (s : State) : State :=
  if s.power.aux ∧ (30500 ≤ mv ∧ mv < 32000 ∨ 40000 < mv ∧ mv ≤ 42000) then
    report (powerFault 0x1101 1 3 0 mv) (s.modPower fun p => { p with vin36Mv := mv })
  else s

/-! ### Cold reset (R333, R413, R414, R416) -/

/-- What a cold reset leaves of the Hearth: the firmware store. Host memory is not the device's.
(DESIGN CHOICE, log entry 132.) -/
def coldHearth (h : Hearth) : Hearth :=
  { Hearth.reset with slots := h.slots, committed := h.committed, bootSlot := h.committed, hostMem := h.hostMem,
                      taken := h.taken, ready := false }

/-- What a cold reset leaves of the stores in AUX: fuses, life cycle, tag area, calibration stores, persistent log.
(DESIGN CHOICE, log entry 132.) -/
def coldSec (c : Sec) : Sec := { c with debugUntil := none, volLog := [], folds := [] }

/-- A cold reset clears everything else; the half domains are off (R333). (DESIGN CHOICE, log entry 132.) -/
def coldClear (aux : Bool) (s : State) : State :=
  let t := domainsReset (circuitsDark s)
  let t := if s.power.trip then emit (.thermTrip false) t else t
  { t with
    time := { TimeSt.reset with refOk0 := s.time.refOk0, refOk1 := s.time.refOk1 },
    hearth := coldHearth s.hearth, sec := coldSec s.sec,
    power := { Power.reset with aux := aux, qualified := s.power.qualified, on0 := 0, on1 := 0, ready0 := false,
                                ready1 := false, inReset := true } }

/-- The boot ROM finishes an erasure of the keys that a loss of power has interrupted, before it starts any firmware (R385).
(DESIGN CHOICE, log entry 132.) -/
def finishErase (s : State) : State :=
  if s.sec.life = 3 then s.modSec fun c => { c with identity := none, owners := [], cosign := false, tag := [] } else s

/-- A cold reset with its CAUSE: AUX comes up and the boot ROM starts firmware or enters recovery (R385, R390, R414, R421).
(DESIGN CHOICE, log entries 12, 131, 132.) -/
def coldReset (cause : Nat) (recoveryLow : Bool) (s : State) : State :=
  let t := finishErase (setResetCause 0 cause false false (coldClear true s))
  if idsLost t then noteStatus t (bootFails 10 t)
  else if recoveryLow then t.modPower fun p => { p with recovery := true }
  else
    let u := noteStatus t (boot t)
    if u.hearth.ready then hearthStart 0 u else u

/-- What a start of the AUX domain finds of the stores: which copies of the vendor key digest and of the UID fail, and the firmware
slots of which both copies do (R375, R389, R390). (DESIGN CHOICE, log entries 122, 132.) -/
def findStores (x : AuxStart) (s : State) : State :=
  let lost (i : Nat) : Bool := x.badSlots.getLsbD (2 * i) && x.badSlots.getLsbD (2 * i + 1)
  let s := s.modSec fun c => { c with copiesBad := x.badCopies }
  let s := if lost 0 then loseSlot 0 s else s
  if lost 1 then loseSlot 1 s else s

/-- VAUX33_LOW: every domain is off (R413). (DESIGN CHOICE, log entry 132.) -/
def vauxLow (s : State) : State := coldClear false s

/-- COLD_RESET: a pulse of at least 10 µs resets, one below 1 µs does not, one between does or does not (R416).
(DESIGN CHOICE, log entry 132.) -/
def coldPulse (lowNs : Nat) (recoveryLow : Bool) (s : State) : State :=
  if !s.power.aux || decide (lowNs < 1000) then s
  else if 10000 ≤ lowNs then coldReset 1 recoveryLow s
  else if freeBelow s 2 = 0 then s.tookFree
  else coldReset 1 recoveryLow s.tookFree

/-! ### Converters (R415) -/

/-- Counts a converter fault of a half; the third within 10 min keeps the half off. Instants are of the Hearth's own time
base. (DESIGN CHOICE, log entry 133.) -/
def countConv (h : Nat) (s : State) : State :=
  let now := s.time.hearthPs
  let recent (l : List Nat) : List Nat := (l.filter fun t => decide (now < t + 600000000000000)) ++ [now]
  s.modPower fun p =>
    if h = 0 then
      { p with conv0 := sat 65535 (p.conv0 + 1), convAt0 := recent p.convAt0,
               stayOff0 := p.stayOff0 || decide (3 ≤ (recent p.convAt0).length) }
    else
      { p with conv1 := sat 65535 (p.conv1 + 1), convAt1 := recent p.convAt1,
               stayOff1 := p.stayOff1 || decide (3 ≤ (recent p.convAt1).length) }

/-- The report of a half's converter fault; the reading is a free value (R415, R433). -/
def convReport (h : Nat) (s : State) : State :=
  report (powerFault 0x1103 3 h h (freeBelow s 65536)) (countConv h s.tookFree)

/-- CONVERTER_FAULT of one half or, within 10 µs, of both (R415). (DESIGN CHOICE, log entry 133.) -/
def converterFault (h : Nat) (both : Bool) (s : State) : State :=
  if both then
    if halfPowered s 0 && halfPowered s 1 then resetAndOff 7 (convReport 1 (convReport 0 s)) else s
  else if halfPowered s h then noteStatus s (setHalfPower h 0 (halfReset h 7 (convReport h s)))
  else s

/-- A half has had a converter fault, and the last lies 100 ms back (R415). (DESIGN CHOICE, log entry 133.) -/
def convWaited (s : State) (h : Nat) : Bool :=
  (if h = 0 then s.power.convAt0 else s.power.convAt1) != [] && !convHeld s h

/-- CONVERTER_REPOWER: the half is powered 100 ms later and comes up as at power-up; in a device reset it waits for the
release (R242, R415). (DESIGN CHOICE, log entry 133.) -/
def converterRepower (h : Nat) (u : OpticsUp) (s : State) : State :=
  if mayPower s && !halfPowered s h && !staysOff s h && convWaited s h then
    let t := noteStatus s (setHalfPower h 0xFF s)
    if t.power.inReset then t
    else if masterBad u h t then
      noteStatus t ((t.modPower fun p => { p with resetHeld := true }).modHearth fun x =>
        { x with selftest := pack [(24, 1), (23, h), (22, 1 - h)] })
    else halfUpWith (powerUpOptics h u) h t
  else s

/-! ### References (R418) -/

/-- REFCLK_RETURN: the half takes its own reference back. -/
def refReturn (h : Nat) (s : State) : State :=
  s.modTime fun t =>
    let t := if h = 0 then { t with refOk0 := true } else { t with refOk1 := true }
    { t with refSwitched := !(t.refOk0 && t.refOk1) }

/-! ### Temperature (R430) -/

/-- The highest of some readings and its place. (DESIGN CHOICE, log entry 134.) -/
def hottest (l : List Nat) : Nat × Nat :=
  let m := l.foldl Nat.max 0
  (m, l.findIdx (· == m))

/-- One warning: sent as its threshold is passed, cleared 5 °C below it. `sensor` is its place among the readings.
(DESIGN CHOICE, log entry 134.) -/
def warnOn (key sensor half value limit : Nat) (s : State) : State :=
  if limit < value ∧ !s.power.warned.contains key then
    report (powerFault 0x1104 2 half sensor value) (s.modPower fun p => { p with warned := key :: p.warned })
  else if value ≤ limit - 5 then s.modPower fun p => { p with warned := p.warned.filter (· != key) }
  else s

/-- The half of a barn or bridge sensor: a bridge sensor is of the whole device. (DESIGN CHOICE, log entry 134.) -/
def sensorHalf (i : Nat) : Nat := if i < 16 then halfOfBarn i else 3

/-- Some sensor is over its trip threshold: the sensor and its reading. (DESIGN CHOICE, log entry 134.) -/
def tripAt (tj : Nat × Nat) (kiln : Nat × Nat) (stackT : List Nat) : Option (Nat × Nat × Nat) :=
  if 112 < tj.1 then some (sensorHalf tj.2, tj.2, tj.1)
  else if 90 < kiln.1 then some (kiln.2 / 4, 18 + kiln.2, kiln.1)
  else if 110 < (hottest stackT).1 then some ((hottest stackT).2 / 4, 26 + (hottest stackT).2, (hottest stackT).1)
  else none

/-- A trip: report, device reset with cause 5, domains off, THERM_TRIP_N low (R430). (DESIGN CHOICE, log entry 134.) -/
def thermalTrip (x : Nat × Nat × Nat) (s : State) : State :=
  let t := resetAndOff 5 (report (powerFault 0x1105 3 x.1 x.2.1 x.2.2) s)
  emit (.thermTrip true) (t.modPower fun p => { p with trip := true, coolSince := none })

/-- THERMAL_SENSOR_READ: 16 barn, 2 bridge and 8 Kiln group sensors; `persists` where what is over a trip threshold has
been so for 100 µs (R430). (DESIGN CHOICE, log entries 14, 134.) -/
def sensorsRead (l : List Nat) (persists : Bool) (s : State) : State :=
  let tj := hottest (l.take 18)
  let kilns := l.drop 18
  let kiln := hottest kilns
  let stackT := (List.range 8).map fun i => (tget s.mem.srcs {} i).temp
  let s := s.modPower fun p =>
    { p with tempMax := sat 255 tj.1, tempSensor := tj.2, kilnMax := sat 255 kiln.1,
             coolSince := if tj.1 ≤ 95 ∧ kiln.1 ≤ 70 ∧ (hottest stackT).1 ≤ 95 then some (p.coolSince.getD s.time.hearthPs) else none }
  let s := warnOn 0 tj.2 (sensorHalf tj.2) tj.1 100 s
  let s := (List.range 8).foldl (fun s g => warnOn (1 + g) (18 + g) (g / 4) (kilns.getD g 0) 80 s) s
  match tripAt tj kiln stackT with
  | some x => if persists && !s.power.trip then thermalTrip x s else s
  | none => s

/-- THERM_RESTART: the halves are powered again after 10 s of cool readings (R430). (DESIGN CHOICE, log entry 134.) -/
def thermRestart (u : OpticsUp) (s : State) : State :=
  let cool := match s.power.coolSince with
    | some t => decide (t + 10000000000000 ≤ s.time.hearthPs)
    | none => false
  let t := s.modPower fun p => { p with trip := false }
  if s.power.trip && cool && mayPower t then powerHalves u (emit (.thermTrip false) t) else s

/-! ### Floor and bridge (R20, R102, R334) -/

/-- With all four planes fenced the device resets itself (R102, R334). (DESIGN CHOICE, log entry 135.) -/
def floorFatal (s : State) : State :=
  if allFenced s then deviceReset 1 3 (report (faultAt 0x0403 3 3 0 0) s) else s

/-- A bridge channel is retired. (DESIGN CHOICE, log entry 135.) -/
def chanRetired (s : State) (h c : Nat) : Bool := s.core.retired.contains (512 * h + c)

/-- What a spare carries: its role plus one, 0 while it is free. (DESIGN CHOICE, log entry 135.) -/
def spareRole (s : State) (h i : Nat) : Nat := tget s.core.sparesUsed 0 (2 * h + i)

/-- The role of a channel: its own below 510, what it was assigned as a spare. (DESIGN CHOICE, log entry 135.) -/
def chanRole (s : State) (h c : Nat) : Option Nat :=
  if c < 510 then some c
  else if spareRole s h (c - 510) = 0 then none
  else some (spareRole s h (c - 510) - 1)

/-- A spare that can take over a role. (DESIGN CHOICE, log entry 135.) -/
def bridgeSpare (s : State) (h : Nat) : Option Nat :=
  (List.range 2).find? fun i => !chanRetired s h (510 + i) && spareRole s h i == 0

/-- A role whose channel has failed with no spare left: a cell channel costs its plane capacity, an arbitration, time or
fault channel is fatal, a memory channel has no further effect (R20). (DESIGN CHOICE, log entry 135.) -/
def roleLost (h r : Nat) (s : State) : State :=
  if r < 500 then
    report { faultAt 0x0102 2 h (r / 125) r with detail := [w32 r] }
      (s.modCore fun k => { k with lost := tmod k.lost 0 (4 * h + r / 125) (· + 1) })
  else if 504 ≤ r ∧ r < 508 then s
  else halfReset h 6 (report { faultAt 0x0103 3 h 0 r with detail := [w32 r] } s)

/-- BRIDGE_CHANNEL_FAIL in the direction sent by half `h` (R20). (DESIGN CHOICE, log entry 135.) -/
def channelFail (h c : Nat) (timeout : Bool) (s : State) : State :=
  if !s.power.ready0 || !s.power.ready1 || chanRetired s h c then s
  else
    let role := chanRole s h c
    let s := if timeout then bump (ctr 0x0A h 1) s else bumpBy (ctr 0x0A h 0) 3 s
    let s := bump (ctr 0x0A h 2) (s.modCore fun k => { k with retired := k.retired ++ [512 * h + c] })
    let s := report { faultAt 0x0101 1 h 0 c with detail := [w32 c] } s
    match role, bridgeSpare s h with
    | none, _ => s
    | some r, some i => bump (ctr 0x0A h 3) (s.modCore fun k => { k with sparesUsed := tset k.sparesUsed 0 (2 * h + i) (r + 1) })
    | some r, none => roleLost h r s

/-! ### Meanings -/

/-- POWER_STATUS_READ. -/
def execPowerStatusRead (h : CmdHdr) (args : List Word) (s : State) : Host.Outcome State Fault Refusal :=
  runMailbox ⟨0x1101, 3, false⟩ (fun _ => 2) (fun _ s => powerStatusRead args s) h args s
/-- VIN36_LOST. -/
def execVin36Lost (s : State) : Host.Outcome State Fault Refusal := .next (vinLost s)
/-- VIN36_QUALIFIED. -/
def execVin36Qualified (s : State) : Host.Outcome State Fault Refusal := .next (vinQualified s)
/-- VIN36_MARGIN. -/
def execVin36Margin (mv : Nat) (s : State) : Host.Outcome State Fault Refusal := .next (vinMargin mv s)
/-- VAUX33_LOW. -/
def execVaux33Low (s : State) : Host.Outcome State Fault Refusal := .next (vauxLow s)
/-- VAUX33_POWER_UP. -/
def execVaux33PowerUp (start : AuxStart) (s : State) : Host.Outcome State Fault Refusal :=
  .next (coldReset 0 start.recoveryLow (findStores start s))
/-- HALF_POWER_ON. -/
def execHalfPowerOn (optics : OpticsUp) (s : State) : Host.Outcome State Fault Refusal := .next (halfPowerOn optics s)
/-- COLD_RESET. -/
def execColdReset (lowNs : Nat) (recoveryLow : Bool) (s : State) : Host.Outcome State Fault Refusal :=
  .next (coldPulse lowNs recoveryLow s)
/-- CONVERTER_FAULT. -/
def execConverterFault (half : Fin 2) (both : Bool) (s : State) : Host.Outcome State Fault Refusal :=
  .next (converterFault half both s)
/-- CONVERTER_REPOWER. -/
def execConverterRepower (half : Fin 2) (optics : OpticsUp) (s : State) : Host.Outcome State Fault Refusal :=
  .next (converterRepower half optics s)
/-- REFCLK_FAIL. -/
def execRefclkFail (half : Fin 2) (s : State) : Host.Outcome State Fault Refusal := .next (refFail half s)
/-- REFCLK_RETURN. -/
def execRefclkReturn (half : Fin 2) (s : State) : Host.Outcome State Fault Refusal := .next (refReturn half s)
/-- THERMAL_SENSOR_READ. -/
def execThermalSensorRead (readings : List Nat) (persists : Bool) (s : State) : Host.Outcome State Fault Refusal :=
  if readings.length = 26 then .next (sensorsRead readings persists s) else .refused .illFormed
/-- THERM_RESTART. -/
def execThermRestart (optics : OpticsUp) (s : State) : Host.Outcome State Fault Refusal := .next (thermRestart optics s)
/-- CELL_BUNDLE_ARRIVAL. -/
def execCellBundleArrival (plane : Fin 4) (src dst : Fin 16) (ok : Bool) (s : State) : Host.Outcome State Fault Refusal :=
  .next (floorFatal (settleSeeds (pumpAll (bundleArrival plane src dst ok s))))
/-- BUNDLE_ACK_TIMEOUT. -/
def execBundleAckTimeout (plane : Fin 4) (src dst : Fin 16) (s : State) : Host.Outcome State Fault Refusal :=
  .next (floorFatal (settleSeeds (pumpAll (bundleTimeout plane src dst s))))
/-- BRIDGE_CHANNEL_FAIL. -/
def execBridgeChannelFail (sender : Fin 2) (channel : Fin 512) (timeout : Bool) (s : State) :
    Host.Outcome State Fault Refusal := .next (channelFail sender channel timeout s)

end Sys2Proof.Machine
end

