-- ==== Sys2Proof/Machine/Receive.lean ====
section
/-! DEFINITION. Flits received on a lane (R251 to R257, R259, R260, R263, R270). -/

namespace Sys2Proof.Machine

/-- A control message that has arrived, about a lane of the fibre of the lane that carried it; one of another MSG or KIND is
ignored (R263). (DESIGN CHOICE, log entry 98.) -/
def actCtl (l : Nat) (m : CtlMsg) (s : State) : State :=
  let t := l / 8 * 8 + m.k
  match m.msg, m.kind with
  | 1, 1 => wdReq t .cal m.mtag s
  | 1, 2 => wdReq t .swap m.mtag s
  | 1, 3 => wdReq t .force m.mtag s
  | 2, _ => wdGrant t m.mtag s
  | 3, _ => wdRefuse t m.mtag s
  | 4, _ => rehomeReq t m.mtag s
  | 5, _ => rehomeAck t m.mtag (m.arg % 4096) s
  | _, _ => s

/-- The packet of a TIME flit, from payload byte 0 to END_OFF; LEN is at most 12 (R256). -/
def timeFlit (l : Nat) (bytes : List Byte) (s : State) : State :=
  let w := (bytes.drop 12).take (8 * fld (flitWord bytes 1) 24 20)
  let k := packetOf (headerOfBytes (w.take 32)) w
  if 40 ≤ w.length then timePacketRx l k s else s

/-- The retry buffer's oldest entry reads with an uncorrectable error: it is counted and reported, its packet is not sent
again, and the lane leaves service abruptly (R377). (DESIGN CHOICE, log entry 140.) -/
def retryUe (l : Nat) (s : State) : State :=
  let k := laneLink s l
  match k.retry with
  | [] => s
  | r :: rest =>
    let rep := { faultAt 0x0F03 1 (halfOf l) (barnOf l) l with
      partition := (r.info.map fun i => i.hdr.partition).getD 0,
      ctx := r.info.bind fun i => i.result.map fun c => c.ctx }
    let s := report rep (bumpLink l 12 (modLaneLink l (fun k => { k with retry := rest }) s))
    match k.tx, rest with
    | some t, [] => abruptExit l (dropRef (barnOf l) t.pid t.port (modLaneLink l (fun k => { k with tx := none }) s))
    | _, _ => abruptExit l s

/-- A flit with a good CRC and the learned tag is acted on. -/
def goodFlit (l p : Nat) (bytes : List Byte) (s : State) : State :=
  let w0 := flitWord bytes 0
  let w2 := flitWord bytes 2
  let s := ackUpTo l (fld w0 16 5) s
  let s := if bitAt w0 4 then replay l s else s
  let s := takeCredit p (fld w2 26 24) (fld w2 23 0) s
  match fld w0 31 29 with
  | 1 => sequenced l (fld w0 28 17) (dataFlit l (flitWord bytes 1) ((bytes.drop 12).take 240)) s
  | 2 => sequenced l (fld w0 28 17) (fun s => (ctlOf bytes).foldl (fun s m => actCtl l m s) s) s
  | 3 =>
    if markerBad (laneLink s l) bytes then tagMismatch l s
    else modPort p (fun x => { x with farId := fld (flitWord bytes 4) 31 8 }) s
  | 4 => timeFlit l bytes s
  | _ => s

/-- FLIT_RX: a flit slot of a lane that carries a link (R252, R256, R257, R260). (DESIGN CHOICE, log entries 98, 144.) -/
def flitRx (l : Nat) (bytes : List Byte) (outcome : FlitEnd) (s : State) : State :=
  match portOfLane s l with
  | none => s
  | some p =>
    if sends s l then
      if outcome = .uncorrectable then nakError l (countSlot l (badPair l s))
      else
        let s := bumpBy (ctr 8 (barnOf l) 0) (match outcome with
          | .clean n => n
          | _ => 0) (countSlot l s)
        if !flitCrcOk bytes then
          let s := bumpLink l 2 s
          nakError l (if fld (flitWord bytes 0) 31 29 = 4 then bumpIn (barnOf l) 19 s else s)
        else
        let s := modLaneLink l (fun k => { k with seenTag := fld (flitWord bytes 0) 3 0 }) s
        if (laneLink s l).farTag.any fun t => t != (laneLink s l).seenTag then tagMismatch l s
        else if outcome = .retryUe ∧ bitAt (flitWord bytes 0) 4 then retryUe l (ackUpTo l (fld (flitWord bytes 0) 16 5) s)
        else goodFlit l p bytes s
    else s

/-- FLIT_RX. A flit has 256 bytes (R251). -/
def execFlitRx (lane : Fin 1024) (bytes : List Byte) (outcome : FlitEnd) (s : State) :
    Host.Outcome State Fault Refusal :=
  if bytes.length = 256 then .next (flitRx lane bytes outcome s) else .refused .illFormed

end Sys2Proof.Machine
end

