-- ==== Sys2Proof/Machine/Dispatch.lean ====
section
/-! DEFINITION. Which meaning each command has. -/

namespace Sys2Proof.Machine

/-- The effect of one command. (DESIGN CHOICE, log entries 2, 147.) -/
def exec (i : Instr) (s : State) : Host.Outcome State Fault Refusal :=
  match i with
  | .routeWrite h args => Sys2Proof.Machine.execRouteWrite h args s
  | .routeRead h args => Sys2Proof.Machine.execRouteRead h args s
  | .routeSeal h args => Sys2Proof.Machine.execRouteSeal h args s
  | .routeUnseal h args => Sys2Proof.Machine.execRouteUnseal h args s
  | .routeCommit h args => Sys2Proof.Machine.execRouteCommit h args s
  | .routeConfig h args => Sys2Proof.Machine.execRouteConfig h args s
  | .endpointWrite h args => Sys2Proof.Machine.execEndpointWrite h args s
  | .endpointFlush h args => Sys2Proof.Machine.execEndpointFlush h args s
  | .endpointRead h args => Sys2Proof.Machine.execEndpointRead h args s
  | .bundleWrite h args => Sys2Proof.Machine.execBundleWrite h args s
  | .treeWrite h args => Sys2Proof.Machine.execTreeWrite h args s
  | .coreBuf h args => Sys2Proof.Machine.execCoreBuf h args s
  | .coreCredit h args => Sys2Proof.Machine.execCoreCredit h args s
  | .coreSpill h args => Sys2Proof.Machine.execCoreSpill h args s
  | .floorConfig h args => Sys2Proof.Machine.execFloorConfig h args s
  | .floorPlaneRestore h args => Sys2Proof.Machine.execFloorPlaneRestore h args s
  | .coreQueueRead h args => Sys2Proof.Machine.execCoreQueueRead h args s
  | .shaperWrite h args => Sys2Proof.Machine.execShaperWrite h args s
  | .shaperBankSet h args => Sys2Proof.Machine.execShaperBankSet h args s
  | .policerWrite h args => Sys2Proof.Machine.execPolicerWrite h args s
  | .portSchedRead h args => Sys2Proof.Machine.execPortSchedRead h args s
  | .ctxCreate h args => Sys2Proof.Machine.execCtxCreate h args s
  | .ctxAbort h args => Sys2Proof.Machine.execCtxAbort h args s
  | .ctxRearm h args => Sys2Proof.Machine.execCtxRearm h args s
  | .ctxSubstitute h args => Sys2Proof.Machine.execCtxSubstitute h args s
  | .ctxDestroy h args => Sys2Proof.Machine.execCtxDestroy h args s
  | .ctxStatusRead h args => Sys2Proof.Machine.execCtxStatusRead h args s
  | .ctxRead h args => Sys2Proof.Machine.execCtxRead h args s
  | .ctxBranchRead h args => Sys2Proof.Machine.execCtxBranchRead h args s
  | .ctxResendBranch h args => Sys2Proof.Machine.execCtxResendBranch h args s
  | .tuStatusRead h args => Sys2Proof.Machine.execTuStatusRead h args s
  | .tuFence h args => Sys2Proof.Machine.execTuFence h args s
  | .tuUnfence h args => Sys2Proof.Machine.execTuUnfence h args s
  | .harvestGroupWrite h args => Sys2Proof.Machine.execHarvestGroupWrite h args s
  | .harvestGroupRead h args => Sys2Proof.Machine.execHarvestGroupRead h args s
  | .harvestRun h args => Sys2Proof.Machine.execHarvestRun h args s
  | .harvestAbort h args => Sys2Proof.Machine.execHarvestAbort h args s
  | .normPass h args => Sys2Proof.Machine.execNormPass h args s
  | .memWindowWrite h args => Sys2Proof.Machine.execMemWindowWrite h args s
  | .memWindowRead h args => Sys2Proof.Machine.execMemWindowRead h args s
  | .memPool h args => Sys2Proof.Machine.execMemPool h args s
  | .memLoft h args => Sys2Proof.Machine.execMemLoft h args s
  | .memScratch h args => Sys2Proof.Machine.execMemScratch h args s
  | .memHintWrite h args => Sys2Proof.Machine.execMemHintWrite h args s
  | .memBar2Map h args => Sys2Proof.Machine.execMemBar2Map h args s
  | .memMove h args => Sys2Proof.Machine.execMemMove h args s
  | .memArbConfig h args => Sys2Proof.Machine.execMemArbConfig h args s
  | .memThermal h args => Sys2Proof.Machine.execMemThermal h args s
  | .memHold h args => Sys2Proof.Machine.execMemHold h args s
  | .memRelease h args => Sys2Proof.Machine.execMemRelease h args s
  | .memMargin h args => Sys2Proof.Machine.execMemMargin h args s
  | .memSiloDetach h args => Sys2Proof.Machine.execMemSiloDetach h args s
  | .memStatusRead h args => Sys2Proof.Machine.execMemStatusRead h args s
  | .laneStatusRead h args => Sys2Proof.Machine.execLaneStatusRead h args s
  | .kilnStatusRead h args => Sys2Proof.Machine.execKilnStatusRead h args s
  | .calConfig h args => Sys2Proof.Machine.execCalConfig h args s
  | .calLane h args test => Sys2Proof.Machine.execCalLane h args test s
  | .laneBank h args => Sys2Proof.Machine.execLaneBank h args s
  | .laneUnbank h args => Sys2Proof.Machine.execLaneUnbank h args s
  | .kilnSwap h args => Sys2Proof.Machine.execKilnSwap h args s
  | .portConfig h args => Sys2Proof.Machine.execPortConfig h args s
  | .linkStatusRead h args => Sys2Proof.Machine.execLinkStatusRead h args s
  | .flueOpen h args meas => Sys2Proof.Machine.execFlueOpen h args meas s
  | .flueSwitch h args => Sys2Proof.Machine.execFlueSwitch h args s
  | .flueClose h args => Sys2Proof.Machine.execFlueClose h args s
  | .flueStatusRead h args => Sys2Proof.Machine.execFlueStatusRead h args s
  | .timeConfig h args => Sys2Proof.Machine.execTimeConfig h args s
  | .timePortConfig h args => Sys2Proof.Machine.execTimePortConfig h args s
  | .timeSource h args => Sys2Proof.Machine.execTimeSource h args s
  | .timeSet h args => Sys2Proof.Machine.execTimeSet h args s
  | .timeStepAccept h args => Sys2Proof.Machine.execTimeStepAccept h args s
  | .timeStepDismiss h args => Sys2Proof.Machine.execTimeStepDismiss h args s
  | .timeStatusRead h args => Sys2Proof.Machine.execTimeStatusRead h args s
  | .captureConfig h args => Sys2Proof.Machine.execCaptureConfig h args s
  | .kindleArm h args => Sys2Proof.Machine.execKindleArm h args s
  | .kindleDisarm h args => Sys2Proof.Machine.execKindleDisarm h args s
  | .kindleRead h args => Sys2Proof.Machine.execKindleRead h args s
  | .partCreate h args => Sys2Proof.Machine.execPartCreate h args s
  | .partQuota h args => Sys2Proof.Machine.execPartQuota h args s
  | .partRetire h args => Sys2Proof.Machine.execPartRetire h args s
  | .partStatusRead h args => Sys2Proof.Machine.execPartStatusRead h args s
  | .partPortSet h args => Sys2Proof.Machine.execPartPortSet h args s
  | .partAllowWrite h args => Sys2Proof.Machine.execPartAllowWrite h args s
  | .seedDefine h args => Sys2Proof.Machine.execSeedDefine h args s
  | .seedFree h args => Sys2Proof.Machine.execSeedFree h args s
  | .seedRead h args => Sys2Proof.Machine.execSeedRead h args s
  | .deviceReset h args => Sys2Proof.Machine.execDeviceReset h args s
  | .halfReset h args => Sys2Proof.Machine.execHalfReset h args s
  | .barnReset h args => Sys2Proof.Machine.execBarnReset h args s
  | .laneReset h args => Sys2Proof.Machine.execLaneReset h args s
  | .hearthReset h args => Sys2Proof.Machine.execHearthReset h args s
  | .partScrubConfig h args => Sys2Proof.Machine.execPartScrubConfig h args s
  | .mbxNop h args => Sys2Proof.Machine.execMbxNop h args s
  | .deviceConfig h args => Sys2Proof.Machine.execDeviceConfig h args s
  | .endpointIdSet h args => Sys2Proof.Machine.execEndpointIdSet h args s
  | .fwLoad h args => Sys2Proof.Machine.execFwLoad h args s
  | .fwActivate h args starts => Sys2Proof.Machine.execFwActivate h args starts s
  | .fwCommit h args => Sys2Proof.Machine.execFwCommit h args s
  | .fwStatusRead h args => Sys2Proof.Machine.execFwStatusRead h args s
  | .attestReport h args => Sys2Proof.Machine.execAttestReport h args s
  | .tagWrite h args => Sys2Proof.Machine.execTagWrite h args s
  | .tagRead h args => Sys2Proof.Machine.execTagRead h args s
  | .lifecycleAdvance h args => Sys2Proof.Machine.execLifecycleAdvance h args s
  | .returnAuthorise h args => Sys2Proof.Machine.execReturnAuthorise h args s
  | .debugUnlock h args => Sys2Proof.Machine.execDebugUnlock h args s
  | .calUserWrite h args => Sys2Proof.Machine.execCalUserWrite h args s
  | .calUserRead h args => Sys2Proof.Machine.execCalUserRead h args s
  | .faultLogRead h args => Sys2Proof.Machine.execFaultLogRead h args s
  | .tallyConfig h args => Sys2Proof.Machine.execTallyConfig h args s
  | .tallyLatch h args => Sys2Proof.Machine.execTallyLatch h args s
  | .counterRead h args => Sys2Proof.Machine.execCounterRead h args s
  | .traceConfig h args => Sys2Proof.Machine.execTraceConfig h args s
  | .powerStatusRead h args => Sys2Proof.Machine.execPowerStatusRead h args s
  | .cmdTailWrite ring value => Sys2Proof.Machine.execCmdTailWrite ring value s
  | .cplHeadWrite ring value => Sys2Proof.Machine.execCplHeadWrite ring value s
  | .ringEnable ring value => Sys2Proof.Machine.execRingEnable ring value s
  | .ringDisable ring value => Sys2Proof.Machine.execRingDisable ring value s
  | .eventRingEnable value => Sys2Proof.Machine.execEventRingEnable value s
  | .evHeadWrite value => Sys2Proof.Machine.execEvHeadWrite value s
  | .evLostRead => Sys2Proof.Machine.execEvLostRead s
  | .hearthLoadRead => Sys2Proof.Machine.execHearthLoadRead s
  | .ifRequestWrite value => Sys2Proof.Machine.execIfRequestWrite value s
  | .latch value => Sys2Proof.Machine.execLatch value s
  | .registerWrite access value => Sys2Proof.Machine.execRegisterWrite access value s
  | .bar2Write offset bytes => Sys2Proof.Machine.execBar2Write offset bytes s
  | .bar2Read offset len ue => Sys2Proof.Machine.execBar2Read offset len ue s
  | .rcvStart value => Sys2Proof.Machine.execRcvStart value s
  | .pcieReset kind => Sys2Proof.Machine.execPcieReset kind s
  | .packetHeaderRx lane hdr => Sys2Proof.Machine.execPacketHeaderRx lane hdr s
  | .packetTrailerRx lane rest => Sys2Proof.Machine.execPacketTrailerRx lane rest s
  | .termWrite port pkt => Sys2Proof.Machine.execTermWrite port pkt s
  | .termRead port pkt ue => Sys2Proof.Machine.execTermRead port pkt ue s
  | .sheafArrival port sheaf => Sys2Proof.Machine.execSheafArrival port sheaf s
  | .resultAck port pkt => Sys2Proof.Machine.execResultAck port pkt s
  | .resultNak port pkt copyFails => Sys2Proof.Machine.execResultNak port pkt copyFails s
  | .relayResultRx port pkt => Sys2Proof.Machine.execRelayResultRx port pkt s
  | .upstreamNoticeRx port pkt => Sys2Proof.Machine.execUpstreamNoticeRx port pkt s
  | .controlPkt port pkt => Sys2Proof.Machine.execControlPkt port pkt s
  | .termUnexpected port pkt => Sys2Proof.Machine.execTermUnexpected port pkt s
  | .timePacketRx lane pkt => Sys2Proof.Machine.execTimePacketRx lane pkt s
  | .flitRx lane bytes outcome => Sys2Proof.Machine.execFlitRx lane bytes outcome s
  | .nakResendTimer lane => Sys2Proof.Machine.execNakResendTimer lane s
  | .replayTimeout lane => Sys2Proof.Machine.execReplayTimeout lane s
  | .linkRetryExhausted lane => Sys2Proof.Machine.execLinkRetryExhausted lane s
  | .fecExit lane => Sys2Proof.Machine.execFecExit lane s
  | .frameLoss lane => Sys2Proof.Machine.execFrameLoss lane s
  | .lossOfSignal lane => Sys2Proof.Machine.execLossOfSignal lane s
  | .markerSend lane => Sys2Proof.Machine.execMarkerSend lane s
  | .alignmentSlotRx lane bytes => Sys2Proof.Machine.execAlignmentSlotRx lane bytes s
  | .txFault lane => Sys2Proof.Machine.execTxFault lane s
  | .wdReq lane kind mtag => Sys2Proof.Machine.execWdReq lane kind mtag s
  | .wdGrant lane mtag => Sys2Proof.Machine.execWdGrant lane mtag s
  | .wdRefuse lane mtag reason => Sys2Proof.Machine.execWdRefuse lane mtag reason s
  | .rehomeReq lane mtag => Sys2Proof.Machine.execRehomeReq lane mtag s
  | .rehomeAck lane answer => Sys2Proof.Machine.execRehomeAck lane answer s
  | .trainingStart lane => Sys2Proof.Machine.execTrainingStart lane s
  | .trainFail lane cause => Sys2Proof.Machine.execTrainFail lane cause s
  | .trainingRestart lane => Sys2Proof.Machine.execTrainingRestart lane s
  | .trainingComplete lane far => Sys2Proof.Machine.execTrainingComplete lane far s
  | .shortRetrain lane result resonance => Sys2Proof.Machine.execShortRetrain lane result resonance s
  | .egressUnderrunAbort lane => Sys2Proof.Machine.execEgressUnderrunAbort lane s
  | .floorSlot => Sys2Proof.Machine.execFloorSlot s
  | .cellBundleArrival plane src dst ok => Sys2Proof.Machine.execCellBundleArrival plane src dst ok s
  | .bundleAckTimeout plane src dst => Sys2Proof.Machine.execBundleAckTimeout plane src dst s
  | .spillRefill barn => Sys2Proof.Machine.execSpillRefill barn s
  | .egressSelect sel => Sys2Proof.Machine.execEgressSelect sel s
  | .refillInstant => Sys2Proof.Machine.execRefillInstant s
  | .gleanerAudit barn => Sys2Proof.Machine.execGleanerAudit barn s
  | .learnUpdate half => Sys2Proof.Machine.execLearnUpdate half s
  | .ageingVisit half => Sys2Proof.Machine.execAgeingVisit half s
  | .tableParityRepair half table index step => Sys2Proof.Machine.execTableParityRepair half table index step s
  | .drainWindowEnd => Sys2Proof.Machine.execDrainWindowEnd s
  | .bridgeChannelFail sender channel timeout => Sys2Proof.Machine.execBridgeChannelFail sender channel timeout s
  | .resultFormed ctx index => Sys2Proof.Machine.execResultFormed ctx index s
  | .winnowCompare ctx index verdict => Sys2Proof.Machine.execWinnowCompare ctx index verdict s
  | .residueFault unit work redoFaults => Sys2Proof.Machine.execResidueFault unit work redoFaults s
  | .retainStallResume ctx => Sys2Proof.Machine.execRetainStallResume ctx s
  | .stallTimer ctx index => Sys2Proof.Machine.execStallTimer ctx index s
  | .retainExpired ctx index => Sys2Proof.Machine.execRetainExpired ctx index s
  | .retentionScrub ctx index fails => Sys2Proof.Machine.execRetentionScrub ctx index fails s
  | .stagingMove read => Sys2Proof.Machine.execStagingMove read s
  | .harvestChunk harvest group chunk event => Sys2Proof.Machine.execHarvestChunk harvest group chunk event s
  | .normPassDone pass ue => Sys2Proof.Machine.execNormPassDone pass ue s
  | .memMoveDone move ue => Sys2Proof.Machine.execMemMoveDone move ue s
  | .burstBoundary chan requests => Sys2Proof.Machine.execBurstBoundary chan requests s
  | .chanWatchdog chan work => Sys2Proof.Machine.execChanWatchdog chan work s
  | .stackThermalRead source temp => Sys2Proof.Machine.execStackThermalRead source temp s
  | .patrolScrub site corrected => Sys2Proof.Machine.execPatrolScrub site corrected s
  | .scrubGranule => Sys2Proof.Machine.execScrubGranule s
  | .granaryInService barnStore failed => Sys2Proof.Machine.execGranaryInService barnStore failed s
  | .siloLinkFail port => Sys2Proof.Machine.execSiloLinkFail port s
  | .calSliceStart barn slice test => Sys2Proof.Machine.execCalSliceStart barn slice test s
  | .lockLost lost => Sys2Proof.Machine.execLockLost lost s
  | .laserReading laser reading => Sys2Proof.Machine.execLaserReading laser reading s
  | .kilnSwapStart half => Sys2Proof.Machine.execKilnSwapStart half s
  | .flueReadyRetune circuit meas => Sys2Proof.Machine.execFlueReadyRetune circuit meas s
  | .flueRetuneNotice circuit => Sys2Proof.Machine.execFlueRetuneNotice circuit s
  | .flueRetune circuit meas => Sys2Proof.Machine.execFlueRetune circuit meas s
  | .flueLos circuit sideB => Sys2Proof.Machine.execFlueLos circuit sideB s
  | .ptpSyncSend port => Sys2Proof.Machine.execPtpSyncSend port s
  | .ptpDelayReqSend port => Sys2Proof.Machine.execPtpDelayReqSend port s
  | .ptpAnnounceSend port => Sys2Proof.Machine.execPtpAnnounceSend port s
  | .holdoverTimeout => Sys2Proof.Machine.execHoldoverTimeout s
  | .ppsInEdge => Sys2Proof.Machine.execPpsInEdge s
  | .ppsOutEdge => Sys2Proof.Machine.execPpsOutEdge s
  | .ppsOutFall => Sys2Proof.Machine.execPpsOutFall s
  | .capInEdge input rising => Sys2Proof.Machine.execCapInEdge input rising s
  | .kindleRouteCommit entry => Sys2Proof.Machine.execKindleRouteCommit entry s
  | .kindleFlueSwitch entry => Sys2Proof.Machine.execKindleFlueSwitch entry s
  | .collRelease entry => Sys2Proof.Machine.execCollRelease entry s
  | .mcRelease entry => Sys2Proof.Machine.execMcRelease entry s
  | .mcReleaseSeed entry => Sys2Proof.Machine.execMcReleaseSeed entry s
  | .shaperBank entry => Sys2Proof.Machine.execShaperBank entry s
  | .counterDump entry => Sys2Proof.Machine.execCounterDump entry s
  | .timedNotice entry => Sys2Proof.Machine.execTimedNotice entry s
  | .seedPacketSend seed ue => Sys2Proof.Machine.execSeedPacketSend seed ue s
  | .tallyPeriodicLatch => Sys2Proof.Machine.execTallyPeriodicLatch s
  | .eventWrite => Sys2Proof.Machine.execEventWrite s
  | .faultReportFoldEnd code half block item => Sys2Proof.Machine.execFaultReportFoldEnd code half block item s
  | .hearthWatchdog halt => Sys2Proof.Machine.execHearthWatchdog halt s
  | .hearthReturn => Sys2Proof.Machine.execHearthReturn s
  | .debugViewsExpire => Sys2Proof.Machine.execDebugViewsExpire s
  | .resetBegin => Sys2Proof.Machine.execResetBegin s
  | .halfReady half => Sys2Proof.Machine.execHalfReady half s
  | .barnReady barn => Sys2Proof.Machine.execBarnReady barn s
  | .vin36Lost => Sys2Proof.Machine.execVin36Lost s
  | .vin36Qualified => Sys2Proof.Machine.execVin36Qualified s
  | .vin36Margin mv => Sys2Proof.Machine.execVin36Margin mv s
  | .vaux33Low => Sys2Proof.Machine.execVaux33Low s
  | .vaux33PowerUp start => Sys2Proof.Machine.execVaux33PowerUp start s
  | .halfPowerOn optics => Sys2Proof.Machine.execHalfPowerOn optics s
  | .coldReset lowNs recoveryLow => Sys2Proof.Machine.execColdReset lowNs recoveryLow s
  | .converterFault half both => Sys2Proof.Machine.execConverterFault half both s
  | .converterRepower half optics => Sys2Proof.Machine.execConverterRepower half optics s
  | .refclkFail half => Sys2Proof.Machine.execRefclkFail half s
  | .refclkReturn half => Sys2Proof.Machine.execRefclkReturn half s
  | .thermalSensorRead readings persists => Sys2Proof.Machine.execThermalSensorRead readings persists s
  | .thermRestart optics => Sys2Proof.Machine.execThermRestart optics s
  | .wdAnswerTimeout lane => Sys2Proof.Machine.execWdAnswerTimeout lane s
  | .timeSetPpsExpired => Sys2Proof.Machine.execTimeSetPpsExpired s
  | .siloLinkUp port capacity => Sys2Proof.Machine.execSiloLinkUp port capacity s
  | .unitSelftestDone unit pass => Sys2Proof.Machine.execUnitSelftestDone unit pass s
  | .planeLoopbackTestDone plane pass => Sys2Proof.Machine.execPlaneLoopbackTestDone plane pass s
  | .memMarginDone records => Sys2Proof.Machine.execMemMarginDone records s
  | .memReleaseDone tier => Sys2Proof.Machine.execMemReleaseDone tier s
  | .fwLoadDone => Sys2Proof.Machine.execFwLoadDone s
  | .rcvVerifyDone => Sys2Proof.Machine.execRcvVerifyDone s
  | .routeWriteDone => Sys2Proof.Machine.execRouteWriteDone s
  | .endpointWriteDone => Sys2Proof.Machine.execEndpointWriteDone s
  | .spillRegionPlaced => Sys2Proof.Machine.execSpillRegionPlaced s
  | .deviceResetRelease optics => Sys2Proof.Machine.execDeviceResetRelease optics s

end Sys2Proof.Machine
end

