-- ==== Sys2Proof/Machine/Entries.lean ====
section
/-! DEFINITION. Command entries as they stand in a ring's command area, and the command that each spells (R350, R352, R353,
R374). -/

namespace Sys2Proof.Machine

/-- Bytes that a ring's entries name: in host memory, or in the local ring area for a LOCAL ring (R348, R352).
(DESIGN CHOICE, log entry 16.) -/
def areaRead (s : State) (g : Ring) (a n : Nat) : List Byte :=
  if g.isLocal then memRead s.hearth.localMem (a % 65536) n else hostRead s a n

/-- M0 to M15 of the entry that a ring's CMD_HEAD has come to (R350, R352). (DESIGN CHOICE, log entry 16.) -/
def entryWords (s : State) (r : Nat) : List Word :=
  let g := theRing s r
  wordsOf (areaRead s g (g.cmdBase.toNat + 64 * (g.cmdHead % 256)) 64)

/-- OPCODE of an entry (R352). -/
def entryOp (m : List Word) : Nat := fld (m.getD 0 0) 31 16

/-- The header of an entry (R352). (DESIGN CHOICE, log entry 16.) -/
def entryHdr (r : Fin 4) (m : List Word) : CmdHdr :=
  { ring := r, tag := (m.getD 1 0).extractLsb' 16 16, vector := (m.getD 1 0).extractLsb' 10 6,
    ifVer := (m.getD 0 0).extractLsb' 8 8, dlMode := (m.getD 0 0).extractLsb' 6 2, m2 := m.getD 2 0, m3 := m.getD 3 0,
    m4 := m.getD 4 0, reservedSet := fld (m.getD 0 0) 4 0 != 0 || fld (m.getD 1 0) 9 0 != 0,
    indirect :=
      if bitAt (m.getD 0 0) 5 then
        some { argLen := m.getD 5 0, argPtr := BitVec.ofNat 64 ((m.getD 6 0).toNat + 2 ^ 32 * (m.getD 7 0).toNat),
               restSet := (m.drop 8).any fun w => w != 0 }
      else none }

/-- The argument block of an entry: M5 to M15, or the block at ARG_PTR where ARG_LEN is a length that a block can have (R352).
(DESIGN CHOICE, log entry 16.) -/
def entryArgs (s : State) (r : Nat) (h : CmdHdr) (m : List Word) : List Word :=
  match h.indirect with
  | none => (m.drop 5).take 11
  | some i =>
    if 4 ≤ i.argLen.toNat ∧ i.argLen.toNat ≤ 4096 ∧ i.argLen.toNat % 4 = 0 then
      (List.range (i.argLen.toNat / 4)).map fun k =>
        BitVec.ofNat 32 (ofLe (areaRead s (theRing s r) (i.argPtr.toNat + 4 * k) 4))
    else []

/-- How many free values the taking up of an entry may use. (DESIGN CHOICE, log entry 16.) -/
def entryFree : Nat := 4096

/-- Free bit `k` of the entry being taken up. (DESIGN CHOICE, log entry 16.) -/
def someBit (s : State) (k : Nat) : Bool := Config.freeValue (s.free + k) % 2 == 1

/-- Any numbers below 4,096. (DESIGN CHOICE, log entry 16.) -/
def someOf (s : State) (k : Nat) : List Nat := (List.range (entryFree - k)).filter fun i => someBit s (k + i)

/-- Any measurement of a Flue tuning. (DESIGN CHOICE, log entry 16.) -/
def someMeas (s : State) : FlueMeas :=
  { lockA := someBit s 0, lockB := someBit s 1, lightA := someBit s 2, lightB := someBit s 3,
    pinA := Config.freeValue (s.free + 4) - Config.freeValue (s.free + 5),
    pinB := Config.freeValue (s.free + 6) - Config.freeValue (s.free + 7), ilAB := Config.freeValue (s.free + 8),
    ilBA := Config.freeValue (s.free + 9) }

/-- Any results of a slice's tests. (DESIGN CHOICE, log entry 16.) -/
def someTest (s : State) : SliceTest :=
  { loopback := someBit s 0, heater := someBit s 1, dark := someBit s 2, barnRef := someBit s 3,
    spareFails := (List.finRange 16).filter fun i => someBit s (4 + i.val) }

/-- The command of an opcode, none where the index does not hold it (R374). What a command measures as it runs is any measurement.
(DESIGN CHOICE, log entry 16.) -/
def commandOf (s : State) (op : Nat) (h : CmdHdr) (args : List Word) : Option Instr :=
  match op with
  | 0x0301 => some (.routeWrite h args)
  | 0x0302 => some (.routeRead h args)
  | 0x0303 => some (.routeSeal h args)
  | 0x0304 => some (.routeUnseal h args)
  | 0x0305 => some (.routeCommit h args)
  | 0x0306 => some (.routeConfig h args)
  | 0x0307 => some (.endpointWrite h args)
  | 0x0308 => some (.endpointFlush h args)
  | 0x0309 => some (.endpointRead h args)
  | 0x030A => some (.bundleWrite h args)
  | 0x030B => some (.treeWrite h args)
  | 0x0401 => some (.coreBuf h args)
  | 0x0402 => some (.coreCredit h args)
  | 0x0403 => some (.coreSpill h args)
  | 0x0404 => some (.floorConfig h args)
  | 0x0405 => some (.floorPlaneRestore h args)
  | 0x0406 => some (.coreQueueRead h args)
  | 0x0501 => some (.shaperWrite h args)
  | 0x0502 => some (.shaperBankSet h args)
  | 0x0503 => some (.policerWrite h args)
  | 0x0504 => some (.portSchedRead h args)
  | 0x0601 => some (.ctxCreate h args)
  | 0x0602 => some (.ctxAbort h args)
  | 0x0603 => some (.ctxRearm h args)
  | 0x0604 => some (.ctxSubstitute h args)
  | 0x0605 => some (.ctxDestroy h args)
  | 0x0606 => some (.ctxStatusRead h args)
  | 0x0607 => some (.ctxRead h args)
  | 0x0608 => some (.ctxBranchRead h args)
  | 0x0609 => some (.ctxResendBranch { toCmdHdr := h, bad := someOf s 0 } args)
  | 0x0701 => some (.tuStatusRead h args)
  | 0x0702 => some (.tuFence h args)
  | 0x0703 => some (.tuUnfence h args)
  | 0x0704 => some (.harvestGroupWrite h args)
  | 0x0705 => some (.harvestGroupRead h args)
  | 0x0706 => some (.harvestRun h args)
  | 0x0707 => some (.harvestAbort h args)
  | 0x0708 => some (.normPass h args)
  | 0x0801 => some (.memWindowWrite h args)
  | 0x0802 => some (.memWindowRead h args)
  | 0x0803 => some (.memPool h args)
  | 0x0804 => some (.memLoft h args)
  | 0x0805 => some (.memScratch h args)
  | 0x0806 => some (.memHintWrite h args)
  | 0x0807 => some (.memBar2Map h args)
  | 0x0808 => some (.memMove h args)
  | 0x0809 => some (.memArbConfig h args)
  | 0x080A => some (.memThermal h args)
  | 0x080B => some (.memHold h args)
  | 0x080C => some (.memRelease h args)
  | 0x080D => some (.memMargin h args)
  | 0x080E => some (.memSiloDetach h args)
  | 0x080F => some (.memStatusRead h args)
  | 0x0901 => some (.laneStatusRead h args)
  | 0x0902 => some (.kilnStatusRead h args)
  | 0x0903 => some (.calConfig h args)
  | 0x0904 => some (.calLane h args (someTest s))
  | 0x0905 => some (.laneBank h args)
  | 0x0906 => some (.laneUnbank h args)
  | 0x0907 => some (.kilnSwap h args)
  | 0x0A01 => some (.portConfig h args)
  | 0x0A02 => some (.linkStatusRead h args)
  | 0x0B01 => some (.flueOpen h args (someMeas s))
  | 0x0B02 => some (.flueSwitch h args)
  | 0x0B03 => some (.flueClose h args)
  | 0x0B04 => some (.flueStatusRead h args)
  | 0x0C01 => some (.timeConfig h args)
  | 0x0C02 => some (.timePortConfig h args)
  | 0x0C03 => some (.timeSource h args)
  | 0x0C04 => some (.timeSet h args)
  | 0x0C05 => some (.timeStepAccept h args)
  | 0x0C06 => some (.timeStepDismiss h args)
  | 0x0C07 => some (.timeStatusRead h args)
  | 0x0C08 => some (.captureConfig h args)
  | 0x0C09 => some (.kindleArm h args)
  | 0x0C0A => some (.kindleDisarm h args)
  | 0x0C0B => some (.kindleRead h args)
  | 0x0D01 => some (.partCreate h args)
  | 0x0D02 => some (.partQuota h args)
  | 0x0D03 => some (.partRetire h args)
  | 0x0D04 => some (.partStatusRead h args)
  | 0x0D05 => some (.partPortSet h args)
  | 0x0D06 => some (.partAllowWrite h args)
  | 0x0D07 => some (.seedDefine h args)
  | 0x0D08 => some (.seedFree h args)
  | 0x0D09 => some (.seedRead h args)
  | 0x0D0A => some (.deviceReset h args)
  | 0x0D0B => some (.halfReset h args)
  | 0x0D0C => some (.barnReset h args)
  | 0x0D0D => some (.laneReset h args)
  | 0x0D0E => some (.hearthReset h args)
  | 0x0D0F => some (.partScrubConfig h args)
  | 0x0E01 => some (.mbxNop h args)
  | 0x0E02 => some (.deviceConfig h args)
  | 0x0E03 => some (.endpointIdSet h args)
  | 0x0E04 => some (.fwLoad h args)
  | 0x0E05 => some (.fwActivate h args (someBit s 0))
  | 0x0E06 => some (.fwCommit h args)
  | 0x0E07 => some (.fwStatusRead h args)
  | 0x0F01 => some (.attestReport h args)
  | 0x0F02 => some (.tagWrite h args)
  | 0x0F03 => some (.tagRead h args)
  | 0x0F04 => some (.lifecycleAdvance h args)
  | 0x0F05 => some (.returnAuthorise h args)
  | 0x0F06 => some (.debugUnlock h args)
  | 0x0F07 => some (.calUserWrite h args)
  | 0x0F08 => some (.calUserRead h args)
  | 0x0F09 => some (.faultLogRead h args)
  | 0x1001 => some (.tallyConfig h args)
  | 0x1002 => some (.tallyLatch h args)
  | 0x1003 => some (.counterRead h args)
  | 0x1004 => some (.traceConfig h args)
  | 0x1101 => some (.powerStatusRead h args)
  | _ => none

/-- The command that the entry at a ring's CMD_HEAD spells (R350, R352, R374). (DESIGN CHOICE, log entry 16.) -/
def entryCommand (s : State) (r : Fin 4) : Option Instr :=
  let m := entryWords s r
  let h := entryHdr r m
  commandOf s (entryOp m) h (entryArgs s r h m)

/-- The ring whose next entry the Hearth takes up where no command waits in the queue. (DESIGN CHOICE, log entry 16.) -/
def servedRing (s : State) : Option (Fin 4) := (List.finRange 4).find? fun r => serves s r

/-- An entry whose OPCODE is not in the index: it completes UNKNOWN_OPCODE (R357, R360). (DESIGN CHOICE, log entry 16.) -/
def unknownEntry (r : Fin 4) (s : State) : State :=
  let m := entryWords s r
  writeCompletion (cmdRefOf ⟨entryOp m, 4, false⟩ (entryHdr r m) s) { status := St.unknownOpcode, detail := 0, result := [] }
    (fetchEntry r s)

/-- The free values of an entry have been used. (DESIGN CHOICE, log entry 16.) -/
def entryTook (s : State) : State := s.tookMany entryFree

end Sys2Proof.Machine
end

