-- ==== Sys2Proof/Machine/Step.lean ====
section
/-! DEFINITION. One step: the command at the front of the queue; where none waits, the next entry that a mailbox ring holds, or one
reference cycle. -/

namespace Sys2Proof.Machine

/-- What the block does where no command waits in the queue: the Hearth takes up the next entry of a served ring from its command
area (R350, R351), or one reference cycle passes. (DESIGN CHOICE, log entries 1, 16.) -/
def idle (s : State) : Host.Outcome State Fault Refusal :=
  match servedRing s with
  | none => .next (tick s)
  | some r =>
    match entryCommand s r with
    | some i => exec i (entryTook s)
    | none => .next (unknownEntry r s)

/-- Takes the command at the front of the queue and runs it with the rest of the queue; on an empty queue the block takes up an
entry of a ring or lets a reference cycle pass. (DESIGN CHOICE, log entries 1, 2, 16, 143.) -/
def step (s : State) : Host.Outcome State Fault Refusal :=
  match s.pending with
  | [] => idle s
  | i :: rest => exec i { s with pending := rest }

/-- The state with the command that a word spells at the front of its queue; unchanged where it spells none.
(DESIGN CHOICE, log entry 7.) -/
def State.withFetchWord (s : State) (nbits w : Nat) : State :=
  match decodeTableWord nbits w with
  | some i => { s with pending := i :: s.pending }
  | none => s

end Sys2Proof.Machine
end

