-- ==== Sys2Proof/Safety.lean ====
section
/-! DEFINITION. What holds of every state of a sound run, and how one step may change what a device must never lose. -/

namespace Sys2Proof.Machine

/-- Every byte memory is in canonical form: the device's own, the host's, the local ring area, the tag area. -/
structure MemOk (s : State) : Prop where
  bytes : Memory.wf s.mem.bytes = true
  host : Memory.wf s.hearth.hostMem = true
  area : Memory.wf s.hearth.localMem = true
  tag : Memory.wf s.sec.tag = true

/-- The life-cycle state is one of four, at most four owner keys are enrolled, at most 64 fuses are blown, and RETURN
holds no key and an empty tag area (R381, R382, R385, R389). -/
structure SecOk (c : Sec) : Prop where
  life : c.life ≤ 3
  owners : c.owners.length ≤ 4
  fused : c.fusedVer ≤ 64
  gone : c.life = 3 → c.identity = none ∧ c.owners = [] ∧ c.cosign = false ∧ c.tag = []

/-- How the fuses and keys may change: the life cycle and the fused version only rise, enrolled keys and OWNER_COSIGN stay
until RETURN, and from FIELD on no key is added (R381, R382, R385, R389). -/
structure SecRises (a b : Sec) : Prop where
  life : a.life ≤ b.life
  fused : a.fusedVer ≤ b.fusedVer
  owners : a.owners <+: b.owners ∨ 3 ≤ b.life
  cosign : a.cosign = true → b.cosign = true ∨ 3 ≤ b.life
  fixed : 2 ≤ a.life → b.owners = a.owners ∨ 3 ≤ b.life

/-- The invariant of the block: memories are canonical, the security state is a legal one. -/
structure Inv (s : State) : Prop where
  mem : MemOk s
  sec : SecOk s.sec

/-! ### Command entries -/

/-- A row that is a command entry of a mailbox ring: its row of the opcode index (R374), its header and argument block
(R352), and the length of the block in words by the rules of R353. -/
structure MailCmd where
  spec : CmdSpec
  hdr : CmdHdr
  args : List Word
  len : Nat
  deriving DecidableEq, Repr

/-- The command entry that a row is; none for a row that is no entry of a mailbox ring. -/
def mailCmd (i : Instr) : Option MailCmd :=
  match i with
  | .routeWrite h args => some ⟨⟨0x0301, 2, true⟩, h, args, 5⟩
  | .routeRead h args => some ⟨⟨0x0302, 2, true⟩, h, args, 6⟩
  | .routeSeal h args => some ⟨⟨0x0303, 1, true⟩, h, args, 0⟩
  | .routeUnseal h args => some ⟨⟨0x0304, 1, true⟩, h, args, 0⟩
  | .routeCommit h args => some ⟨⟨0x0305, 1, true⟩, h, args, 0⟩
  | .routeConfig h args => some ⟨⟨0x0306, 1, true⟩, h, args, 3⟩
  | .endpointWrite h args => some ⟨⟨0x0307, 2, true⟩, h, args, 3⟩
  | .endpointFlush h args => some ⟨⟨0x0308, 1, true⟩, h, args, if argN args 1 = 2 then 1 else 2⟩
  | .endpointRead h args => some ⟨⟨0x0309, 2, true⟩, h, args, 5⟩
  | .bundleWrite h args => some ⟨⟨0x030A, 1, true⟩, h, args, 34⟩
  | .treeWrite h args => some ⟨⟨0x030B, 1, true⟩, h, args, 34⟩
  | .coreBuf h args => some ⟨⟨0x0401, 1, true⟩, h, args, 11⟩
  | .coreCredit h args => some ⟨⟨0x0402, 1, true⟩, h, args, 3⟩
  | .coreSpill h args => some ⟨⟨0x0403, 1, true⟩, h, args, 2⟩
  | .floorConfig h args => some ⟨⟨0x0404, 1, true⟩, h, args, 1⟩
  | .floorPlaneRestore h args => some ⟨⟨0x0405, 1, true⟩, h, args, 1⟩
  | .coreQueueRead h args => some ⟨⟨0x0406, 3, true⟩, h, args, if argN args 2 = 0 then 5 else 6⟩
  | .shaperWrite h args => some ⟨⟨0x0501, 1, true⟩, h, args, 5⟩
  | .shaperBankSet h args => some ⟨⟨0x0502, 1, true⟩, h, args, 1⟩
  | .policerWrite h args => some ⟨⟨0x0503, 1, true⟩, h, args, 4⟩
  | .portSchedRead h args => some ⟨⟨0x0504, 3, true⟩, h, args, 4⟩
  | .ctxCreate h args => some ⟨⟨0x0601, 1, true⟩, h, args, 2⟩
  | .ctxAbort h args => some ⟨⟨0x0602, 0, true⟩, h, args, 1⟩
  | .ctxRearm h args => some ⟨⟨0x0603, 1, true⟩, h, args, if argN args 3 = 1 then 5 else 3⟩
  | .ctxSubstitute h args => some ⟨⟨0x0604, 1, true⟩, h, args, 4⟩
  | .ctxDestroy h args => some ⟨⟨0x0605, 1, true⟩, h, args, 1⟩
  | .ctxStatusRead h args => some ⟨⟨0x0606, 1, true⟩, h, args, 4⟩
  | .ctxRead h args => some ⟨⟨0x0607, 3, true⟩, h, args, 3⟩
  | .ctxBranchRead h args => some ⟨⟨0x0608, 1, true⟩, h, args, 6⟩
  | .ctxResendBranch h args => some ⟨⟨0x0609, 1, true⟩, h.toCmdHdr, args, 36⟩
  | .tuStatusRead h args => some ⟨⟨0x0701, 3, true⟩, h, args, 4⟩
  | .tuFence h args => some ⟨⟨0x0702, 1, true⟩, h, args, 1⟩
  | .tuUnfence h args => some ⟨⟨0x0703, 1, true⟩, h, args, 1⟩
  | .harvestGroupWrite h args => some ⟨⟨0x0704, 1, true⟩, h, args, 4⟩
  | .harvestGroupRead h args => some ⟨⟨0x0705, 1, true⟩, h, args, 4⟩
  | .harvestRun h args => some ⟨⟨0x0706, 1, true⟩, h, args, 2⟩
  | .harvestAbort h args => some ⟨⟨0x0707, 0, true⟩, h, args, 1⟩
  | .normPass h args => some ⟨⟨0x0708, 1, true⟩, h, args, 3⟩
  | .memWindowWrite h args => some ⟨⟨0x0801, 1, true⟩, h, args, 5⟩
  | .memWindowRead h args => some ⟨⟨0x0802, 3, true⟩, h, args, 4⟩
  | .memPool h args => some ⟨⟨0x0803, 1, true⟩, h, args, 1⟩
  | .memLoft h args => some ⟨⟨0x0804, 1, true⟩, h, args, 2⟩
  | .memScratch h args => some ⟨⟨0x0805, 1, true⟩, h, args, 2⟩
  | .memHintWrite h args => some ⟨⟨0x0806, 1, true⟩, h, args, 5⟩
  | .memBar2Map h args => some ⟨⟨0x0807, 1, true⟩, h, args, if argN args 1 = 0 then 3 else 1⟩
  | .memMove h args => some ⟨⟨0x0808, 2, true⟩, h, args, 9⟩
  | .memArbConfig h args => some ⟨⟨0x0809, 1, true⟩, h, args, 3⟩
  | .memThermal h args => some ⟨⟨0x080A, 1, true⟩, h, args, 2⟩
  | .memHold h args => some ⟨⟨0x080B, 1, true⟩, h, args, 1⟩
  | .memRelease h args => some ⟨⟨0x080C, 1, true⟩, h, args, 1⟩
  | .memMargin h args => some ⟨⟨0x080D, 3, true⟩, h, args, 4⟩
  | .memSiloDetach h args => some ⟨⟨0x080E, 1, true⟩, h, args, 1⟩
  | .memStatusRead h args => some ⟨⟨0x080F, 3, true⟩, h, args, 2⟩
  | .laneStatusRead h args => some ⟨⟨0x0901, 3, true⟩, h, args, 4⟩
  | .kilnStatusRead h args => some ⟨⟨0x0902, 3, true⟩, h, args, 2⟩
  | .calConfig h args => some ⟨⟨0x0903, 1, true⟩, h, args, 2⟩
  | .calLane h args _ => some ⟨⟨0x0904, 1, true⟩, h, args, 1⟩
  | .laneBank h args => some ⟨⟨0x0905, 1, true⟩, h, args, 1⟩
  | .laneUnbank h args => some ⟨⟨0x0906, 1, true⟩, h, args, 1⟩
  | .kilnSwap h args => some ⟨⟨0x0907, 1, true⟩, h, args, 1⟩
  | .portConfig h args => some ⟨⟨0x0A01, 1, true⟩, h, args, 5⟩
  | .linkStatusRead h args => some ⟨⟨0x0A02, 3, true⟩, h, args, 4⟩
  | .flueOpen h args _ => some ⟨⟨0x0B01, 1, true⟩, h, args, 2⟩
  | .flueSwitch h args => some ⟨⟨0x0B02, 1, true⟩, h, args, 1⟩
  | .flueClose h args => some ⟨⟨0x0B03, 1, true⟩, h, args, 1⟩
  | .flueStatusRead h args => some ⟨⟨0x0B04, 3, true⟩, h, args, 4⟩
  | .timeConfig h args => some ⟨⟨0x0C01, 1, true⟩, h, args, 10⟩
  | .timePortConfig h args => some ⟨⟨0x0C02, 1, true⟩, h, args, 2⟩
  | .timeSource h args => some ⟨⟨0x0C03, 1, true⟩, h, args, if argN args 1 = 1 then 2 else 1⟩
  | .timeSet h args => some ⟨⟨0x0C04, 1, true⟩, h, args, 4⟩
  | .timeStepAccept h args => some ⟨⟨0x0C05, 0, true⟩, h, args, if argN args 1 = 1 then 3 else 1⟩
  | .timeStepDismiss h args => some ⟨⟨0x0C06, 0, true⟩, h, args, 0⟩
  | .timeStatusRead h args => some ⟨⟨0x0C07, 3, true⟩, h, args, 2⟩
  | .captureConfig h args => some ⟨⟨0x0C08, 1, true⟩, h, args, 3⟩
  | .kindleArm h args => some ⟨⟨0x0C09, 1, true⟩, h, args, 9⟩
  | .kindleDisarm h args => some ⟨⟨0x0C0A, 0, true⟩, h, args, 1⟩
  | .kindleRead h args => some ⟨⟨0x0C0B, 3, true⟩, h, args, 4⟩
  | .partCreate h args => some ⟨⟨0x0D01, 1, true⟩, h, args, 4⟩
  | .partQuota h args => some ⟨⟨0x0D02, 1, true⟩, h, args, 4⟩
  | .partRetire h args => some ⟨⟨0x0D03, 0, true⟩, h, args, 1⟩
  | .partStatusRead h args => some ⟨⟨0x0D04, 3, true⟩, h, args, 4⟩
  | .partPortSet h args => some ⟨⟨0x0D05, 1, true⟩, h, args, 2⟩
  | .partAllowWrite h args => some ⟨⟨0x0D06, 1, true⟩, h, args, 2⟩
  | .seedDefine h args => some ⟨⟨0x0D07, 1, true⟩, h, args, 3⟩
  | .seedFree h args => some ⟨⟨0x0D08, 1, true⟩, h, args, 1⟩
  | .seedRead h args => some ⟨⟨0x0D09, 3, true⟩, h, args, 4⟩
  | .deviceReset h args => some ⟨⟨0x0D0A, 0, true⟩, h, args, 0⟩
  | .halfReset h args => some ⟨⟨0x0D0B, 0, true⟩, h, args, 1⟩
  | .barnReset h args => some ⟨⟨0x0D0C, 1, true⟩, h, args, 1⟩
  | .laneReset h args => some ⟨⟨0x0D0D, 1, true⟩, h, args, 1⟩
  | .hearthReset h args => some ⟨⟨0x0D0E, 0, false⟩, h, args, 0⟩
  | .partScrubConfig h args => some ⟨⟨0x0D0F, 1, true⟩, h, args, 1⟩
  | .mbxNop h args => some ⟨⟨0x0E01, 4, false⟩, h, args, 0⟩
  | .deviceConfig h args => some ⟨⟨0x0E02, 1, false⟩, h, args, 1⟩
  | .endpointIdSet h args => some ⟨⟨0x0E03, 1, false⟩, h, args, 1⟩
  | .fwLoad h args => some ⟨⟨0x0E04, 2, false⟩, h, args, 3⟩
  | .fwActivate h args _ => some ⟨⟨0x0E05, 1, false⟩, h, args, 0⟩
  | .fwCommit h args => some ⟨⟨0x0E06, 1, false⟩, h, args, 0⟩
  | .fwStatusRead h args => some ⟨⟨0x0E07, 3, false⟩, h, args, 0⟩
  | .attestReport h args => some ⟨⟨0x0F01, 3, false⟩, h, args, 10⟩
  | .tagWrite h args => some ⟨⟨0x0F02, 1, false⟩, h, args, 2 + (argN args 2 + 3) / 4⟩
  | .tagRead h args => some ⟨⟨0x0F03, 3, false⟩, h, args, 4⟩
  | .lifecycleAdvance h args => some ⟨⟨0x0F04, 3, false⟩, h, args, 40⟩
  | .returnAuthorise h args => some ⟨⟨0x0F05, 3, false⟩, h, args, 80⟩
  | .debugUnlock h args => some ⟨⟨0x0F06, 3, false⟩, h, args, 40⟩
  | .calUserWrite h args => some ⟨⟨0x0F07, 1, false⟩, h, args, 3⟩
  | .calUserRead h args => some ⟨⟨0x0F08, 3, false⟩, h, args, 5⟩
  | .faultLogRead h args => some ⟨⟨0x0F09, 3, false⟩, h, args, 5⟩
  | .tallyConfig h args => some ⟨⟨0x1001, 1, true⟩, h, args, 6 + targetLen args 5⟩
  | .tallyLatch h args => some ⟨⟨0x1002, 1, true⟩, h, args, 1⟩
  | .counterRead h args => some ⟨⟨0x1003, 3, true⟩, h, args, 1 + 2 * argN args 1 + 2⟩
  | .traceConfig h args => some ⟨⟨0x1004, 1, true⟩, h, args, 7 + targetLen args 6⟩
  | .powerStatusRead h args => some ⟨⟨0x1101, 3, false⟩, h, args, 2⟩
  | .cmdTailWrite _ _ => none
  | .cplHeadWrite _ _ => none
  | .ringEnable _ _ => none
  | .ringDisable _ _ => none
  | .eventRingEnable _ => none
  | .evHeadWrite _ => none
  | .evLostRead => none
  | .hearthLoadRead => none
  | .ifRequestWrite _ => none
  | .latch _ => none
  | .registerWrite _ _ => none
  | .bar2Write _ _ => none
  | .bar2Read _ _ _ => none
  | .rcvStart _ => none
  | .pcieReset _ => none
  | .packetHeaderRx _ _ => none
  | .packetTrailerRx _ _ => none
  | .termWrite _ _ => none
  | .termRead _ _ _ => none
  | .sheafArrival _ _ => none
  | .resultAck _ _ => none
  | .resultNak _ _ _ => none
  | .relayResultRx _ _ => none
  | .upstreamNoticeRx _ _ => none
  | .controlPkt _ _ => none
  | .termUnexpected _ _ => none
  | .timePacketRx _ _ => none
  | .flitRx _ _ _ => none
  | .nakResendTimer _ => none
  | .replayTimeout _ => none
  | .linkRetryExhausted _ => none
  | .fecExit _ => none
  | .frameLoss _ => none
  | .lossOfSignal _ => none
  | .markerSend _ => none
  | .alignmentSlotRx _ _ => none
  | .txFault _ => none
  | .wdReq _ _ _ => none
  | .wdGrant _ _ => none
  | .wdRefuse _ _ _ => none
  | .rehomeReq _ _ => none
  | .rehomeAck _ _ => none
  | .trainingStart _ => none
  | .trainFail _ _ => none
  | .trainingRestart _ => none
  | .trainingComplete _ _ => none
  | .shortRetrain _ _ _ => none
  | .egressUnderrunAbort _ => none
  | .floorSlot => none
  | .cellBundleArrival _ _ _ _ => none
  | .bundleAckTimeout _ _ _ => none
  | .spillRefill _ => none
  | .egressSelect _ => none
  | .refillInstant => none
  | .gleanerAudit _ => none
  | .learnUpdate _ => none
  | .ageingVisit _ => none
  | .tableParityRepair _ _ _ _ => none
  | .drainWindowEnd => none
  | .bridgeChannelFail _ _ _ => none
  | .resultFormed _ _ => none
  | .winnowCompare _ _ _ => none
  | .residueFault _ _ _ => none
  | .retainStallResume _ => none
  | .stallTimer _ _ => none
  | .retainExpired _ _ => none
  | .retentionScrub _ _ _ => none
  | .stagingMove _ => none
  | .harvestChunk _ _ _ _ => none
  | .normPassDone _ _ => none
  | .memMoveDone _ _ => none
  | .burstBoundary _ _ => none
  | .chanWatchdog _ _ => none
  | .stackThermalRead _ _ => none
  | .patrolScrub _ _ => none
  | .scrubGranule => none
  | .granaryInService _ _ => none
  | .siloLinkFail _ => none
  | .calSliceStart _ _ _ => none
  | .lockLost _ => none
  | .laserReading _ _ => none
  | .kilnSwapStart _ => none
  | .flueReadyRetune _ _ => none
  | .flueRetuneNotice _ => none
  | .flueRetune _ _ => none
  | .flueLos _ _ => none
  | .ptpSyncSend _ => none
  | .ptpDelayReqSend _ => none
  | .ptpAnnounceSend _ => none
  | .holdoverTimeout => none
  | .ppsInEdge => none
  | .ppsOutEdge => none
  | .ppsOutFall => none
  | .capInEdge _ _ => none
  | .kindleRouteCommit _ => none
  | .kindleFlueSwitch _ => none
  | .collRelease _ => none
  | .mcRelease _ => none
  | .mcReleaseSeed _ => none
  | .shaperBank _ => none
  | .counterDump _ => none
  | .timedNotice _ => none
  | .seedPacketSend _ _ => none
  | .tallyPeriodicLatch => none
  | .eventWrite => none
  | .faultReportFoldEnd _ _ _ _ => none
  | .hearthWatchdog _ => none
  | .hearthReturn => none
  | .debugViewsExpire => none
  | .resetBegin => none
  | .halfReady _ => none
  | .barnReady _ => none
  | .vin36Lost => none
  | .vin36Qualified => none
  | .vin36Margin _ => none
  | .vaux33Low => none
  | .vaux33PowerUp _ => none
  | .halfPowerOn _ => none
  | .coldReset _ _ => none
  | .converterFault _ _ => none
  | .converterRepower _ _ => none
  | .refclkFail _ => none
  | .refclkReturn _ => none
  | .thermalSensorRead _ _ => none
  | .thermRestart _ => none
  | .wdAnswerTimeout _ => none
  | .timeSetPpsExpired => none
  | .siloLinkUp _ _ => none
  | .unitSelftestDone _ _ => none
  | .planeLoopbackTestDone _ _ => none
  | .memMarginDone _ => none
  | .memReleaseDone _ => none
  | .fwLoadDone => none
  | .rcvVerifyDone => none
  | .routeWriteDone => none
  | .endpointWriteDone => none
  | .spillRegionPlaced => none
  | .deviceResetRelease _ => none

/-- The state in which the checks of an entry are made and its work is done: the entry is fetched. -/
def fetched (i : Instr) (s : State) : State :=
  match mailCmd i with
  | some m => fetchEntry m.hdr.ring s
  | none => s

/-- What the completion of an entry repeats. -/
def refOf (i : Instr) (s : State) : CmdRef :=
  match mailCmd i with
  | some m => cmdRefOf m.spec m.hdr s
  | none => cmdRefOf ⟨0, 0, false⟩ ⟨0, 0, 0, 0, 0, 0, 0, 0, false, none⟩ s

/-- The Hearth takes the entry up, no check of R357 stops it and its block passes the checks of R353: the command runs. -/
def accepted (i : Instr) (s : State) : Bool :=
  match mailCmd i with
  | some m =>
    m.hdr.argsOk m.args && serves s m.hdr.ring && (startCheck m.spec m.hdr (refOf i s) (fetched i s)).isNone &&
      (blockCheck m.hdr m.args m.len).isNone
  | none => false

/-- The completion of the entry written to the state its work leaves: STATUS OK. -/
def okEnd (i : Instr) (s : State) (result : List Word) (t : State) : State :=
  writeCompletion (refOf i s) { status := St.ok, detail := 0, result := result } t

/-- The completion of a refused entry, which has changed nothing else: STATUS and DETAIL. -/
def refusedEnd (i : Instr) (s : State) (status detail : Nat) : State :=
  writeCompletion (refOf i s) { status := status, detail := w32 detail, result := [] } (fetched i s)

end Sys2Proof.Machine
end

