-- ==== Sys2Proof/Certificates/Slice0/Obligations.lean ====
section
/-! DEFINITION. The statements about the block: what each command and event does, and what holds of the block as a whole. -/

open Sys2Proof Sys2Proof.Machine

/-! ### The block as a whole (R354 to R357, R360), and rules on single operations (R36, R167, R371) -/

/-- The state after reset meets the invariant: memories are in canonical form, the security state is a legal one. -/
def Obligations.ResetHoldsInvariant : Prop := Machine.Inv State.reset

/-- Every step keeps the invariant, and may change the fuses and keys only forward (R381, R382, R385, R389): whatever the command,
memories stay canonical, the life cycle and the fused version never fall, enrolled keys stay until RETURN, and from FIELD on none is
added. -/
def Obligations.StepKeepsInvariant : Prop :=
  ∀ s t, Machine.Inv s → step s = .next t → Machine.Inv t ∧ SecRises s.sec t.sec

/-- Every command that is well formed runs: the step that takes it answers a next state, with the rest of the queue in its order; one
whose operands spell no command is refused by name, and nothing ever faults. One queue of whole rows (log entry 2) and which operands
spell no command, with their refusal (log entry 5), are the model's choice. -/
def Obligations.EveryWellFormedCommandRuns : Prop :=
  (∀ c rest s, s.pending = c :: rest →
    (c.wf = true → ∃ t, step s = .next t ∧ t.pending = rest) ∧ (c.wf = false → step s = .refused .illFormed)) ∧
  (∀ s f, step s ≠ .fault f)

/-- A step takes the command at the front of the queue and runs it on the state with the rest of the queue. On an empty queue the
block goes on by itself (log entries 1, 16, the model's own choice): the Hearth takes the next entry of a served ring from its command
area and runs the command of its OPCODE, or answers UNKNOWN_OPCODE. Where no ring has one, a reference cycle passes: with no lane
draining and no retirement waiting, device time runs by 6.4 ns at its rate where a reference is good and a time domain is powered, the
Hearth's own time base by 6.4 ns within 1 %; a refill instant (R119) is carried out where device time reaches or passes one; and
nothing else changes but the free counter. -/
def Obligations.StepRunsFront : Prop :=
  (∀ c rest s, s.pending = c :: rest → step s = exec c { s with pending := rest }) ∧
  (∀ s r, s.pending = [] → servedRing s = some r →
    (∀ i, entryCommand s r = some i → step s = exec i { s with free := s.free + 4096 }) ∧
    (entryCommand s r = none →
      step s = .next (writeCompletion (cmdRefOf ⟨entryOp (entryWords s r), 4, false⟩ (entryHdr r (entryWords s r)) s)
        { status := 0x04, detail := 0, result := [] } (fetchEntry r s)))) ∧
  (∀ s, s.pending = [] → servedRing s = none → (∀ e ∈ s.optics.lanes, e.2.draining = false) → s.jobs.retiring = [] →
    ∃ t, step s = .next t ∧
    t = { s with time := t.time, free := s.free + 1, sched := t.sched } ∧
    (t.time.now / 131072 = s.time.now / 131072 → t.sched = s.sched) ∧
    (s.time.now / 131072 < t.time.now / 131072 →
      t.sched = { refillInstant s.sched with refilled := some (131072 * (t.time.now / 131072)) }) ∧
    s.time.hearthPs + 6336 ≤ t.time.hearthPs ∧ t.time.hearthPs ≤ s.time.hearthPs + 6464 ∧
    ((s.time.refOk0 = false ∧ s.time.refOk1 = false) ∨ (s.power.on0 = 0 ∧ s.power.on1 = 0) →
      t.time = { s.time with hearthPs := t.time.hearthPs }) ∧
    (s.time.refOk0 = true ∨ s.time.refOk1 = true → s.power.on0 ≠ 0 ∨ s.power.on1 ≠ 0 → 0 ≤ s.time.sub → -1 ≤ s.time.rate →
      t.time = { s.time with hearthPs := t.time.hearthPs, now := t.time.now, sub := t.time.sub } ∧
      0 ≤ t.time.sub ∧ t.time.sub < 1 ∧
      (t.time.now : Rat) + t.time.sub = s.time.now + s.time.sub + 32 / 5 * 256 * (1 + s.time.rate)))

/-- How the Hearth takes an entry up (R350, R352, R353, R355 to R357, R360, R374). The entry lies at CMD_BASE plus 64 times the low
eight bits of CMD_HEAD, its words are fields as R352 lays them out, and OPCODE chooses the command, none for an opcode outside the
index. Of a ring that is not being served the Hearth takes none. Otherwise CMD_HEAD advances past the entry, and the first check of
R357 that applies decides, then the length and padding of the block; a refused entry changes nothing but its completion. That deadline
words must be 0 where DL_MODE does not use them and that ARG_PTR must be a multiple of 4 are readings of the model (log entry 20), as
is that a half in reset counts as powered (21). -/
def Obligations.EntryChecks : Prop :=
  (∀ s (r : Fin 4), (theRing s r).isLocal = false → entryWords s r =
    wordsOf (hostRead s ((theRing s r).cmdBase.toNat + 64 * ((theRing s r).cmdHead % 256)) 64)) ∧
  (∀ (r : Fin 4) m0 m1 m2 m3 m4 (rest : List Word), let m := m0 :: m1 :: m2 :: m3 :: m4 :: rest
    let h := entryHdr r m
    entryOp m = m0.toNat / 2 ^ 16 ∧ h.ring = r ∧ h.ifVer.toNat = m0.toNat / 2 ^ 8 % 2 ^ 8 ∧ h.dlMode.toNat = m0.toNat / 2 ^ 6 % 4 ∧
    h.tag.toNat = m1.toNat / 2 ^ 16 ∧ h.vector.toNat = m1.toNat / 2 ^ 10 % 2 ^ 6 ∧ h.m2 = m2 ∧ h.m3 = m3 ∧ h.m4 = m4 ∧
    (h.reservedSet = true ↔ m0.toNat % 2 ^ 5 ≠ 0 ∨ m1.toNat % 2 ^ 10 ≠ 0) ∧
    (m0.toNat / 2 ^ 5 % 2 = 0 → h.indirect = none ∧ ∀ s, rest.length = 11 → entryArgs s r h m = rest) ∧
    (m0.toNat / 2 ^ 5 % 2 = 1 → ∀ len p q more, rest = len :: p :: q :: more → h.indirect = some
      { argLen := len, argPtr := BitVec.ofNat 64 (p.toNat + 2 ^ 32 * q.toNat), restSet := more.any fun w => w != 0 })) ∧
  (∀ s op h args i, commandOf s op h args = some i →
    ∃ m, mailCmd i = some m ∧ m.spec.op = op ∧ m.hdr = h ∧ m.args = args) ∧
  (∀ s i m, mailCmd i = some m → ∃ j, commandOf s m.spec.op m.hdr m.args = some j) ∧
  (∀ i m s, mailCmd i = some m → m.hdr.argsOk m.args = true →
    (serves s m.hdr.ring = false → exec i s = .next s) ∧
    (serves s m.hdr.ring = true →
      theRing (fetched i s) m.hdr.ring =
        { theRing s m.hdr.ring with cmdHead := ((theRing s m.hdr.ring).cmdHead + 1) % 65536,
                                    doorbells := (theRing (fetched i s) m.hdr.ring).doorbells } ∧
      (∀ st d, startCheck m.spec m.hdr (refOf i s) (fetched i s) = some (st, d) → exec i s = .next (refusedEnd i s st d)) ∧
      (startCheck m.spec m.hdr (refOf i s) (fetched i s) = none →
        ∀ st d, blockCheck m.hdr m.args m.len = some (st, d) → exec i s = .next (refusedEnd i s st d)))) ∧
  (∀ (sp : CmdSpec) (h : CmdHdr) c s,
    let ver := activeVer s (theRing s h.ring) = some h.ifVer.toNat
    let ring := sp.ring = 4 ∨ sp.ring = h.ring.val
    let fields := h.reservedSet = false ∧ deadlineFieldOk h = true ∧ (∀ x, h.indirect = some x →
      4 ≤ x.argLen.toNat ∧ x.argLen.toNat ≤ 4096 ∧ x.argLen.toNat % 4 = 0 ∧ x.argPtr.toNat % 4 = 0)
    let timed := h.dlMode = 1 ∧ timeUnset s = true
    (¬ver → startCheck sp h c s = some (0x06, h.ifVer.toNat)) ∧
    (ver → ¬ring → startCheck sp h c s = some (0x05, sp.ring)) ∧
    (ver → ring → ¬fields → startCheck sp h c s = some (0x01, 0)) ∧
    (ver → ring → fields → timed → startCheck sp h c s = some (0x1C, 0)) ∧
    (ver → ring → fields → ¬timed → deadlinePassed c s = true → startCheck sp h c s = some (0x03, 0)) ∧
    (ver → ring → fields → ¬timed → deadlinePassed c s = false →
      (sp.halves = false → startCheck sp h c s = none) ∧
      (sp.halves = true → halfPowered s 0 = false ∨ halfPowered s 1 = false → startCheck sp h c s =
        some (0x07, (if halfPowered s 0 then 0 else 1) + (if halfPowered s 1 then 0 else 2))) ∧
      (sp.halves = true → halfPowered s 0 = true → halfPowered s 1 = true → s.power.ready0 = false ∨ s.power.ready1 = false →
        startCheck sp h c s = some (0x02, (if s.power.ready0 then 0 else 1) + (if s.power.ready1 then 0 else 2))) ∧
      (sp.halves = true → halfPowered s 0 = true → halfPowered s 1 = true → s.power.ready0 = true → s.power.ready1 = true →
        startCheck sp h c s = none))) ∧
  (∀ (h : CmdHdr) args n,
    (h.indirect = none → 11 < n → blockCheck h args n = some (0x01, 0)) ∧
    (h.indirect = none → n ≤ 11 → (∀ k, n < k → k ≤ args.length → arg args k = 0) → blockCheck h args n = none) ∧
    (∀ k, h.indirect = none → n ≤ 11 → n < k → k ≤ args.length → arg args k ≠ 0 → (∀ j, n < j → j < k → arg args j = 0) →
      blockCheck h args n = some (0x01, k)) ∧
    (∀ x, h.indirect = some x → blockCheck h args n = if args.length = n ∧ x.restSet = false then none else some (0x01, 0)))

/-- Completion entries (R346, R347, R354). On an enabled ring a completion is 32 bytes at the ring's completion base plus 32 times the
low eight bits of its number, in host memory or the local ring area: TAG, STATUS, PHASE (1 while the number div 256 is even) and
OVERRAN, then OPCODE and command number, DETAIL and five result words; CPL_TAIL rises by 1 and the ring's cause is raised. On a ring
that is off nothing is written. -/
def Obligations.CompletionEntries : Prop :=
  (∀ (c : CmdRef) r s, c.ring < 4 → (theRing s c.ring).en = true → r.status ≠ 0x03 → r.result.length ≤ 5 →
    let g := theRing s c.ring
    let t := writeCompletion c r s
    let a := g.cplBase.toNat + 32 * (g.cplTail % 256)
    let entry := wordsLe ([pack [(16, c.tag), (8, r.status), (7, bit (g.cplTail / 256 % 2 == 0)), (6, bit (deadlinePassed c s))],
      pack [(16, c.opcode), (0, c.count % 65536)], r.detail] ++ r.result ++ List.replicate (5 - r.result.length) 0)
    entry.length = 32 ∧ (theRing t c.ring).cplTail = (g.cplTail + 1) % 65536 ∧ t.hearth.intStatus.getLsbD c.ring = true ∧
    (∀ q, q ≠ c.ring → theRing t q = theRing s q) ∧
    (g.isLocal = false → t.hearth.hostMem = memWrite s.hearth.hostMem a entry ∧
      t.hearth.localMem = s.hearth.localMem) ∧
    (g.isLocal = true → t.hearth.localMem = memWrite s.hearth.localMem (a % 65536) entry ∧ t.hearth.hostMem = s.hearth.hostMem) ∧
    t = { s with hearth := t.hearth, out := t.out }) ∧
  (∀ (c : CmdRef) r s, (theRing s c.ring).en = false → r.status ≠ 0x03 → writeCompletion c r s = s)

/-- HOP_LIMIT (R36, R371). A forwarded packet leaves with HOP_LIMIT one less, and nothing else of its header changed by that; a packet
to be forwarded that arrives with HOP_LIMIT 0 is dropped and counted HOP_EXPIRED; one for the device is terminated whatever its
HOP_LIMIT. A packet that the device originates carries the value that DEVICE_CONFIG has set, 1 to 255, which is 8 after reset. -/
def Obligations.HopLimit : Prop :=
  (∀ h : Header, h.hopLimit ≠ 0 → h.decHop.hopLimit = h.hopLimit - 1 ∧ h.decHop = { h with w0 := h.decHop.w0 } ∧
    h.decHop.w0 >>> 8 = h.w0 >>> 8) ∧
  (∀ port (h : Header) pid s, (judge port h pid s).1.disp = .forwarded →
    h.hopLimit ≠ 0 ∧ (judge port h pid s).1.hdr.hopLimit = h.hopLimit - 1) ∧
  (∀ port (h : Header) pid s, let a := noteAdmit port h.partition s
    headerDrop s h = none → admits a port h.partition = true → (police port h a).1 = true →
    (toSelf s h = true → (judge port h pid s).1.disp = .terminated) ∧
    (toSelf s h = false → h.hopLimit = 0 → (judge port h pid s).1.disp = .dropped ∧
      (judge port h pid s).2 = bumpIn (barnOf port) 6 (police port h a).2)) ∧
  (∀ s kind tc mc p, kind < 16 → tc < 8 → p < 4096 → fld (originW0 s kind tc mc p) 7 0 = s.hearth.hopLimit % 256) ∧
  (∀ s kind tc mc p dst len tree w4 w5 w6 w7,
    (ownHeader s kind tc mc p dst len tree w4 w5 w6 w7).w0 = originW0 s kind tc mc p) ∧
  (∀ h args s, let i := Instr.deviceConfig h args
    accepted i s = true → 1 ≤ argN args 1 → argN args 1 ≤ 255 → ∃ t, exec i s = .next t ∧ t.hearth.hopLimit = argN args 1) ∧
  (∀ h args s, let i := Instr.deviceConfig h args
    accepted i s = true → argN args 1 < 1 ∨ 255 < argN args 1 → ∃ t, exec i s = .next t ∧ t.hearth.hopLimit = s.hearth.hopLimit) ∧
  State.reset.hearth.hopLimit = 8

/-- Reduction of integers (R167). An element of an integer type is its bits as a signed number; SUM adds exactly, and the sum of 1,024
contributions fits 48 bits; MAX and MIN compare as signed numbers; AND and OR act bit by bit on the element's own width. -/
def Obligations.IntegerReduction : Prop :=
  (∀ code size (p : List Byte) k, isInt code = true → k < elemsIn code size → let w := elemBits code / 8
    (elemsOf code size p).1[k]? = some (BitVec.ofNat (8 * w) (ofLe ((p.drop (w * k)).take w))).toInt) ∧
  (∀ a b, combine 0 true a b = a + b ∧ combine 2 true a b = max a b ∧ combine 3 true a b = min a b) ∧
  (∀ w (x y : BitVec w), w ≤ 48 → combine 4 true x.toInt y.toInt = (x &&& y).toInt ∧
    combine 5 true x.toInt y.toInt = (x ||| y).toInt) ∧
  (∀ l : List (List Int), l.length ≤ 1024 → (∀ c ∈ l, ∀ v ∈ c, -2 ^ 31 ≤ v ∧ v < 2 ^ 31) →
    ∀ v ∈ reduceAll 0 true l, -2 ^ 47 ≤ v ∧ v < 2 ^ 47)

/-! ### Routing (R62 to R85) -/

/-- ROUTE_WRITE on an OPEN version (R64, R65, R68, R85): the named entries of the non-active version take the images the
host gives, every other entry of it and all of the active version stay, and the command detaches (R355). ROUTE_WRITE completes. That
the images stand in the table while the command is still detached (log entry 22), and that the pod form too reads its images from a
host address (39), are the model's. -/
def Obligations.RouteWriteInstallsImages : Prop :=
  (∀ h args s, let i := Instr.routeWrite h args
    accepted i s = true → nonActiveNow (fetched i s) = .opened → argN args 1 = 0 → argN args 2 < 65536 →
    1 ≤ argN args 3 → argN args 2 + argN args 3 ≤ 65536 →
    (∀ k, k < argN args 3 → explicitOk (explicitOf (ofLe (hostRead (fetched i s) (arg64 args 4 + 8 * k) 8))) = true) →
    ∃ t, exec i s = .next (addDetached (refOf i s) .none t) ∧
      (∀ j, tget (explOf t (idleVersion s)) {} j =
        if argN args 2 ≤ j ∧ j < argN args 2 + argN args 3 then
          explicitOf (ofLe (hostRead (fetched i s) (arg64 args 4 + 8 * (j - argN args 2)) 8))
        else tget (explOf s (idleVersion s)) {} j) ∧
      podsOf t (idleVersion s) = podsOf s (idleVersion s) ∧
      explOf t s.routing.active = explOf s s.routing.active ∧ podsOf t s.routing.active = podsOf s s.routing.active ∧
      t = { fetched i s with routing := { s.routing with
        explA := t.routing.explA, explB := t.routing.explB, parity := t.routing.parity } }) ∧
  (∀ h args s, let i := Instr.routeWrite h args
    accepted i s = true → nonActiveNow (fetched i s) = .opened → argN args 1 = 1 → argN args 2 < 256 →
    1 ≤ argN args 3 → argN args 2 + argN args 3 ≤ 256 →
    (∀ k, k < argN args 3 → podOk (podOfImg (ofLe (hostRead (fetched i s) (arg64 args 4 + 4 * k) 4))) = true) →
    ∃ t, exec i s = .next (addDetached (refOf i s) .none t) ∧
      (∀ j, tget (podsOf t (idleVersion s)) {} j =
        if argN args 2 ≤ j ∧ j < argN args 2 + argN args 3 then
          podOfImg (ofLe (hostRead (fetched i s) (arg64 args 4 + 4 * (j - argN args 2)) 4))
        else tget (podsOf s (idleVersion s)) {} j) ∧
      explOf t (idleVersion s) = explOf s (idleVersion s) ∧
      explOf t s.routing.active = explOf s s.routing.active ∧ podsOf t s.routing.active = podsOf s s.routing.active ∧
      t = { fetched i s with routing := { s.routing with
        podA := t.routing.podA, podB := t.routing.podB, parity := t.routing.parity } })

/-- The route version commands on a version in the state they need (R68 to R72, R85): ROUTE_SEAL freezes the OPEN version
and returns the CRC-32 over its images, ROUTE_UNSEAL opens the SEALED one, ROUTE_COMMIT makes it active at the instant it
executes, puts the former one into DRAINING until t_f + D, counts ROUTE_FLIP in both halves, captures t_f and returns it;
ROUTE_CONFIG sets D, AGE_S and the eviction mode. Nothing else changes.
The refusals of the route version commands (R68, R71, R85): TABLE_SEALED and TABLE_DRAINING for a write or a seal of a
version that is not OPEN, BUSY for a commit or an unseal while a commit entry is armed, TABLE_NOT_SEALED for one of a version
that is not SEALED; BAD_ARGUMENT for the first word of ROUTE_CONFIG that is out of range. A refused command leaves the tables as they
were. ROUTE_SEAL, ROUTE_UNSEAL, ROUTE_COMMIT and ROUTE_CONFIG complete. That ROUTE_SEAL ends the ROUTE_WRITEs still pending (log
entry 22), the order of the checks (18, 150), and that t_f is the instant of the row (45) are the model's. -/
def Obligations.RouteVersions : Prop :=
  (∀ h args s, let i := Instr.routeSeal h args
    accepted i s = true → nonActiveNow (fetched i s) = .opened →
    exec i s = .next (okEnd i s
      [w32 (crc32 (((List.range 65536).flatMap fun k => leBytes 8 (explicitImg (tget (explOf s (idleVersion s)) {} k))) ++
        (List.range 256).flatMap fun k => leBytes 4 (podImg (tget (podsOf s (idleVersion s)) {} k))))]
      ((endAll 0x0301 (fetched i s)).modRouting fun r => { r with nonActive := .sealedV }))) ∧
  (∀ h args s, let i := Instr.routeUnseal h args
    accepted i s = true → commitArmed s = false → nonActiveNow (fetched i s) = .sealedV →
    exec i s = .next (okEnd i s [] ((fetched i s).modRouting fun r => { r with nonActive := .opened }))) ∧
  (∀ h args s, let i := Instr.routeCommit h args
    accepted i s = true → commitArmed s = false → nonActiveNow (fetched i s) = .sealedV →
    ∃ t, exec i s = .next (okEnd i s (timeWords s.time.now) t) ∧
      t.routing = { s.routing with active := s.routing.active.other, nonActive := .draining,
                                   drainEnd := s.time.now + s.routing.drainUs * 256000 } ∧
      (∀ half, half < 2 → counter t (ctr 0x0B half 9) = counter s (ctr 0x0B half 9) + 1) ∧
      (s.time.captureMask.getLsbD 20 = true → s.time.store.length < 4096 →
        t.time.store = s.time.store ++ [⟨20, s.time.lostSrc.contains 20, if s.routing.active = .a then 1 else 0, s.time.now⟩]) ∧
      t = { fetched i s with routing := t.routing, count := t.count,
                             time := { s.time with store := t.time.store, lostSrc := t.time.lostSrc } }) ∧
  (∀ h args s, let i := Instr.routeConfig h args
    accepted i s = true → 1 ≤ argN args 1 → argN args 1 ≤ 10000 → argN args 2 ≤ 32767 → argN args 3 ≤ 1 →
    exec i s = .next (okEnd i s [] ((fetched i s).modRouting fun r =>
      { r with drainUs := argN args 1, ageS := argN args 2, evictRandom := argN args 3 == 1 }))) ∧
  (∀ h args i s, i = Instr.routeWrite h args ∨ i = Instr.routeSeal h args → accepted i s = true →
    (nonActiveNow (fetched i s) = .sealedV → exec i s = .next (refusedEnd i s 0x0F 0)) ∧
    (nonActiveNow (fetched i s) = .draining → exec i s = .next (refusedEnd i s 0x10 0))) ∧
  (∀ h args i s, i = Instr.routeUnseal h args ∨ i = Instr.routeCommit h args → accepted i s = true →
    (commitArmed s = true → exec i s = .next (refusedEnd i s 0x02 0)) ∧
    (commitArmed s = false → nonActiveNow (fetched i s) ≠ .sealedV → exec i s = .next (refusedEnd i s 0x11 0))) ∧
  (∀ h args s, let i := Instr.routeConfig h args
    let dOk := 1 ≤ argN args 1 ∧ argN args 1 ≤ 10000
    accepted i s = true →
    (¬dOk → exec i s = .next (refusedEnd i s 0x01 1)) ∧
    (dOk → 32767 < argN args 2 → exec i s = .next (refusedEnd i s 0x01 2)) ∧
    (dOk → argN args 2 ≤ 32767 → 1 < argN args 3 → exec i s = .next (refusedEnd i s 0x01 3)))

/-- The commands on endpoints, bundles and trees (R62, R63, R66, R67, R76, R82, R85). An ENDPOINT_WRITE whose images fit applies each of
them, in order, to both halves' tables and detaches; one that would raise the static entries above 32,768, or finds in either half a
set full of static entries, is refused as a whole with TABLE_FULL; one with an image that is not static, or with ID bits of the
extension, and a count outside 1 to 32,768, are refused with BAD_ARGUMENT. An image with VALID sets one way of its ID's set to the
static entry; one without VALID removes the ID's static entry; no other way changes. ENDPOINT_FLUSH removes from both halves exactly
the learned entries of one ID, of one bundle, or all. BUNDLE_WRITE and TREE_WRITE replace the whole record. A bundle beyond 1,023, COUNT
above 64, an enabled slot in use whose port is not configured, or a port that another bundle names is refused with BAD_ARGUMENT; of the
deficit counters only those of the slots of this bundle that join the set E change. A tree beyond 16,383, a partition that retires, does
not exist or has no room for the tree, is refused; ENDPOINT_FLUSH of an unknown form, an ID of more than 24 bits or a bundle beyond
1,023 is BAD_ARGUMENT. ENDPOINT_WRITE, ENDPOINT_FLUSH, BUNDLE_WRITE and TREE_WRITE complete. The model's are the DETAIL words (log
entry 19), slots below COUNT and one bundle to a port (37), a slot whose port changes as one that joins (38), TABLE_FULL on the count
after the whole write (40), and the lowest free way with a static entry rewritten in place (149). -/
def Obligations.EndpointsBundlesTrees : Prop :=
  (∀ h args s t0 t1, let i := Instr.endpointWrite h args
    let es := (hostNums (fetched i s) 8 (arg64 args 2) (argN args 1)).map epOfImg
    accepted i s = true → 1 ≤ argN args 1 → argN args 1 ≤ 32768 →
    (∀ e ∈ es, e.static = true ∧ genExt e.id = 0) →
    putStatics (secOf s.time.now % 65536) es (s.routing.ep0, []) = some t0 →
    putStatics (secOf s.time.now % 65536) es (s.routing.ep1, []) = some t1 → staticCount t0.1 ≤ 32768 →
    ∃ t, exec i s = .next (addDetached (refOf i s) .none t) ∧
      t = { fetched i s with routing := { s.routing with ep0 := t0.1, ep1 := t1.1, parity := t.routing.parity } }) ∧
  (∀ n (e : EpEntry) es w, putStatics n [] w = some w ∧ putStatics n (e :: es) w = (putStatic n e w).bind (putStatics n es)) ∧
  (∀ n (e : EpEntry) w w', putStatic n e w = some w' →
    (e.valid = true → ∃ k ∈ waysOf e.id,
      tget w'.1 {} k = { valid := true, static := true, id := e.id, bundle := e.bundle, stamp := 0 } ∧
      ∀ j, j ≠ k → tget w'.1 {} j = tget w.1 {} j) ∧
    (e.valid = false → ∀ j, tget w'.1 {} j = if epFind w.1 e.id true = some j then {} else tget w.1 {} j)) ∧
  (∀ h args s, let i := Instr.endpointWrite h args
    let es := (hostNums (fetched i s) 8 (arg64 args 2) (argN args 1)).map epOfImg
    accepted i s = true →
    (argN args 1 < 1 ∨ 32768 < argN args 1 → exec i s = .next (refusedEnd i s 0x01 1)) ∧
    (1 ≤ argN args 1 → argN args 1 ≤ 32768 →
      ((∃ e ∈ es, e.static = false ∨ genExt e.id ≠ 0) → exec i s = .next (refusedEnd i s 0x01 2)) ∧
      ((∀ e ∈ es, e.static = true ∧ genExt e.id = 0) →
        (putStatics (secOf s.time.now % 65536) es (s.routing.ep0, []) = none ∨
          putStatics (secOf s.time.now % 65536) es (s.routing.ep1, []) = none → exec i s = .next (refusedEnd i s 0x0E 0)) ∧
        (∀ t0 t1, putStatics (secOf s.time.now % 65536) es (s.routing.ep0, []) = some t0 →
          putStatics (secOf s.time.now % 65536) es (s.routing.ep1, []) = some t1 → 32768 < staticCount t0.1 →
          exec i s = .next (refusedEnd i s 0x0E 0))))) ∧
  (∀ h args s, let i := Instr.endpointFlush h args
    accepted i s = true → argN args 1 ≤ 2 → (argN args 1 = 0 → argN args 2 < 2 ^ 24) →
    (argN args 1 = 1 → argN args 2 < 1024) →
    exec i s = .next (okEnd i s [] ((fetched i s).modRouting fun r =>
      let goes (e : Nat × EpEntry) : Bool := !e.2.static &&
        (if argN args 1 = 0 then e.2.id == argN args 2 else if argN args 1 = 1 then e.2.bundle == argN args 2 else true)
      { r with ep0 := r.ep0.filter fun e => !goes e, ep1 := r.ep1.filter fun e => !goes e }))) ∧
  (∀ h args s, let i := Instr.endpointFlush h args
    accepted i s = true →
    (2 < argN args 1 → exec i s = .next (refusedEnd i s 0x01 1)) ∧
    (argN args 1 = 0 → 2 ^ 24 ≤ argN args 2 → exec i s = .next (refusedEnd i s 0x01 2)) ∧
    (argN args 1 = 1 → 1024 ≤ argN args 2 → exec i s = .next (refusedEnd i s 0x01 2))) ∧
  (∀ h args s, let i := Instr.bundleWrite h args
    let n := argN args 1
    accepted i s = true → n < 1024 → fld (arg args 2) 6 0 ≤ 64 →
    (∀ k, k < fld (arg args 2) 6 0 → slotBad (fetched i s) n (slotOf args k) = false) →
    ∃ t, exec i s = .next (okEnd i s [] t) ∧
      (theBundle t n).valid = bitAt (arg args 2) 15 ∧ (theBundle t n).learn = bitAt (arg args 2) 14 ∧
      (theBundle t n).count = fld (arg args 2) 6 0 ∧
      (∀ k, k < 64 → tget (theBundle t n).slots {} k = slotOf args k) ∧
      (∀ b, b ≠ n → theBundle t b = theBundle s b) ∧
      (∀ j, tget t.routing.defs 0 j ≠ tget s.routing.defs 0 j → ∃ barn k, barn < 16 ∧ j = defKey barn n k ∧ k ∈ eligible t n ∧
        ¬(k ∈ eligible s n ∧ (tget (theBundle s n).slots {} k).port = (tget (theBundle t n).slots {} k).port)) ∧
      t = { fetched i s with routing := { s.routing with
        bundles := t.routing.bundles, defs := t.routing.defs, parity := t.routing.parity } }) ∧
  (∀ h args s, let i := Instr.bundleWrite h args
    accepted i s = true →
    (1024 ≤ argN args 1 → exec i s = .next (refusedEnd i s 0x01 1)) ∧
    (argN args 1 < 1024 → 64 < fld (arg args 2) 6 0 → exec i s = .next (refusedEnd i s 0x01 2)) ∧
    (argN args 1 < 1024 → fld (arg args 2) 6 0 ≤ 64 →
      ∀ k, k < fld (arg args 2) 6 0 → slotBad (fetched i s) (argN args 1) (slotOf args k) = true →
        (∀ j, j < k → slotBad (fetched i s) (argN args 1) (slotOf args j) = false) →
        exec i s = .next (refusedEnd i s 0x01 (3 + k / 2)))) ∧
  (∀ h args s, let i := Instr.treeWrite h args
    let p := fld (arg args 2) 11 0
    let old := tget s.routing.trees {} (argN args 1)
    accepted i s = true →
    (16384 ≤ argN args 1 → exec i s = .next (refusedEnd i s 0x01 1)) ∧
    (argN args 1 < 16384 → p ≠ 0 → (thePart s p).state = 2 → exec i s = .next (refusedEnd i s 0x0D 1)) ∧
    (argN args 1 < 16384 → p ≠ 0 → (thePart s p).state ≠ 1 → (thePart s p).state ≠ 2 → bitAt (arg args 2) 31 = true →
      old.valid = false ∨ old.partition ≠ p → exec i s = .next (refusedEnd i s 0x0C 1)) ∧
    (argN args 1 < 16384 → p ≠ 0 → (thePart s p).state = 1 → bitAt (arg args 2) 31 = true →
      old.valid = false ∨ old.partition ≠ p → limitOf (thePart s p) 1 ≤ chargeOf s p 1 → exec i s = .next (refusedEnd i s 0x0C 1)) ∧
    (argN args 1 < 16384 → p = 0 ∨ ((thePart s p).state = 1 ∧ (chargeOf s p 1 < limitOf (thePart s p) 1 ∨
        bitAt (arg args 2) 31 = false ∨ (old.valid = true ∧ old.partition = p))) →
      ∃ t, exec i s = .next (okEnd i s [] t) ∧
      (∀ n, tget t.routing.trees {} n = if n = argN args 1 then
        { valid := bitAt (arg args 2) 31, partition := p, mask := maskOf args 3 } else tget s.routing.trees {} n) ∧
      t = { fetched i s with routing := { s.routing with trees := t.routing.trees, parity := t.routing.parity } }))

/-- Learning, ageing, the end of the drain window and parity repair (R68, R70, R78 to R81, R84). A half's oldest learning update is taken
from its queue and counted. Where no entry of its set fails its parity: a static entry of the ID stays, and a conflict is counted where
its bundle differs; a learned entry with the same bundle takes the present seconds, one with another bundle moves, is counted, and is
reported unstable at more than 16 moves within a second; an ID without an entry takes the first way of its set that is not in use, or
evicts a learned one, counted, or finds its set full of static entries, counted. An ageing visit removes exactly the learned entries
whose age has reached AGE_S and counts them; none where AGE_S is 0. A drain window that has ended leaves the version OPEN.
A failing entry that is not counted yet is counted TABLE_PARITY and reported; then a learned entry is invalidated, any other is
rewritten from the other half's copy unless it is marked absent, and where that copy fails too both are invalid, marked absent and
reported TABLE_UNREPAIRED. A copy that begins to fail is marked, and nothing else changes. LEARN_UPDATE, AGEING_VISIT,
DRAIN_WINDOW_END and TABLE_PARITY_REPAIR complete. What the parity row brings, absent marks and their counting (log entry 41), the
sliding second, counted at the packets' instants, and the words of the report (42), and the first free way (149) are the model's. -/
def Obligations.LearningAgeingDrainingRepair : Prop :=
  (∀ (half : Fin 2) s, learnQ s half = [] → exec (.learnUpdate half) s = .next s) ∧
  (∀ (half : Fin 2) s u r, learnQ s half = u :: r → (∀ k ∈ waysOf u.id, parityBad s half .endpoint k = false) →
    let t := bump (ctr 0x0B half 5) (setLearnQ half r s)
    let old k := tget (epOf s half) {} k
    let now16 := secOf s.time.now % 65536
    let new : EpEntry := { valid := true, static := false, id := u.id, bundle := u.bundle, stamp := now16 }
    (∀ k, epFind (epOf s half) u.id true = some k →
      exec (.learnUpdate half) s = .next (if (old k).bundle = u.bundle then t else bump (ctr 0x0B half 0) t)) ∧
    (epFind (epOf s half) u.id true = none → ∀ k, epFind (epOf s half) u.id false = some k →
      ((old k).bundle = u.bundle → exec (.learnUpdate half) s = .next (putEp half k { old k with stamp := now16 } t)) ∧
      ((old k).bundle ≠ u.bundle →
        let moves := u.at_ :: (tget s.routing.moves [] (moveKey half u.id)).filter fun x => decide (u.at_ < x + secU 1)
        let v := (bump (ctr 0x0B half 1) (putEp half k { old k with bundle := u.bundle, stamp := now16 } t)).modRouting
          fun x => { x with moves := tset x.moves [] (moveKey half u.id) moves }
        exec (.learnUpdate half) s =
          .next (if 16 < moves.length then report (unstable half k u.id (old k).bundle u.bundle) v else v))) ∧
    (epFind (epOf s half) u.id true = none → epFind (epOf s half) u.id false = none →
      (∀ k, (waysOf u.id).find? (fun k => !(old k).valid) = some k → exec (.learnUpdate half) s = .next (insertEp half k new t)) ∧
      ((∀ k ∈ waysOf u.id, (old k).valid = true) →
        (∀ k, evictWay t (epOf s half) ((waysOf u.id).filter fun k => !(old k).static) = some k → exec (.learnUpdate half) s =
          .next (bump (ctr 0x0B half 3) (insertEp half k new (if s.routing.evictRandom then t.tookFree else t)))) ∧
        ((∀ k ∈ waysOf u.id, (old k).static = true) → exec (.learnUpdate half) s = .next (bump (ctr 0x0B half 4) t))))) ∧
  (∀ (half : Fin 2) s, s.routing.ageS = 0 → exec (.ageingVisit half) s = .next s) ∧
  (∀ (half : Fin 2) s, s.routing.ageS ≠ 0 → ∃ t, exec (.ageingVisit half) s = .next t ∧
    let old (e : EpEntry) : Bool := e.valid && !e.static &&
      decide (s.routing.ageS ≤ (secOf s.time.now % 65536 + 65536 - e.stamp) % 65536)
    epOf t half = (epOf s half).filter (fun e => !old e.2) ∧ epOf t (1 - half.val) = epOf s (1 - half.val) ∧
    counter t (ctr 0x0B half 6) = counter s (ctr 0x0B half 6) + ((epOf s half).filter fun e => old e.2).length ∧
    (∀ c, c ≠ ctr 0x0B half 6 → counter t c = counter s c) ∧
    t = { s with routing := { s.routing with ep0 := t.routing.ep0, ep1 := t.routing.ep1 }, count := t.count }) ∧
  (∀ s, s.routing.nonActive = .draining → s.routing.drainEnd ≤ s.time.now →
    exec .drainWindowEnd s = .next (s.modRouting fun r => { r with nonActive := .opened })) ∧
  (∀ s, s.routing.nonActive = .draining → s.time.now < s.routing.drainEnd → exec .drainWindowEnd s = .next s) ∧
  (∀ (half : Fin 2) k n other s,
    let u := if parityBad s half k n then s
      else report (parityFault half n false) (bump (ctr 0x0B half 7) s)
    let learned : Bool := k == .endpoint && (tget (epOf s half) {} n).valid && !(tget (epOf s half) {} n).static
    (learned = true → exec (.tableParityRepair half k n (.repair other)) s = .next (putEp half n {} u)) ∧
    (learned = false → other = false →
      exec (.tableParityRepair half k n (.repair other)) s = .next (if isDead s half k n then u else unmark half k n u)) ∧
    (learned = false → other = true → ∃ t, exec (.tableParityRepair half k n (.repair other)) s = .next
        (report (parityFault half n true) (bump (ctr 0x0B half 8) t)) ∧
      (∀ c ∈ copiesOf s half k n, parityBad t c.1 k c.2 = true ∧ isDead t c.1 k c.2 = true ∧
        (k = .endpoint → c.1 < 2 → tget (epOf t c.1) {} c.2 = {})) ∧
      (∀ j, theBundle t j = if k = .bundle ∧ j = n then {} else theBundle s j) ∧
      (∀ j, tget t.routing.trees {} j = if k = .tree ∧ j = n then {} else tget s.routing.trees {} j) ∧
      (∀ j, tget (explOf t .a) {} j = if k = .explicitA ∧ j = n then {} else tget (explOf s .a) {} j) ∧
      (∀ j, tget (explOf t .b) {} j = if k = .explicitB ∧ j = n then {} else tget (explOf s .b) {} j) ∧
      (∀ j, tget (podsOf t .a) {} j = if k = .podA ∧ j = n then {} else tget (podsOf s .a) {} j) ∧
      (∀ j, tget (podsOf t .b) {} j = if k = .podB ∧ j = n then {} else tget (podsOf s .b) {} j) ∧
      (k ≠ .endpoint → t.routing.ep0 = s.routing.ep0 ∧ t.routing.ep1 = s.routing.ep1) ∧
      t = { u with routing := { u.routing with
        parity := t.routing.parity, bundles := t.routing.bundles, trees := t.routing.trees, explA := t.routing.explA,
        explB := t.routing.explB, podA := t.routing.podA, podB := t.routing.podB, ep0 := t.routing.ep0, ep1 := t.routing.ep1 } })) ∧
  (∀ (half : Fin 2) k n s, ∃ t, exec (.tableParityRepair half k n .fails) s = .next t ∧ parityBad t half k n = true ∧
    t = { s with routing := { s.routing with parity := t.routing.parity } }) ∧
  (∀ (half : Fin 2) n s, epOf (putEp half n {} s) half = tset (epOf s half) {} n {} ∧
    parityBad (putEp half n {} s) half .endpoint n = false)

/-! ### Switch core (R86 to R115) -/

/-- The switch core's commands (R90, R99, R102, R105, R109, R112, R115, R355). CORE_BUF sets one barn's division and egress limits,
empties its cache where the division moves, and renews its holds; CORE_CREDIT sets one ALLOW and raises the limit given; CORE_SPILL
detaches, and when the spill region is placed its size and classes come into force and it completes with OK; FLOOR_CONFIG sets
WAIT_LIMIT; FLOOR_PLANE_RESTORE starts the loop-back test of a fenced plane and detaches.
A division, an allowance, a spill area or a limit outside its range or its sums gives BAD_ARGUMENT; a division of a barn with an
enabled port, a spill area while the Granary is not in service or another size while cells are spilled, and a plane under test give
BUSY; a plane that is not fenced gives BAD_ARGUMENT. CORE_BUF, CORE_CREDIT, CORE_SPILL, SPILL_REGION_PLACED, FLOOR_CONFIG and
FLOOR_PLANE_RESTORE complete. The order of the checks and their words (log entries 18, 19), the refusal of a division and the emptied
cache (51), CORE_SPILL's BUSY while the Granary is out of service and the instant its settings come into force (53), and BUSY for a
plane under test (159) are the model's. -/
def Obligations.SwitchCoreSettings : Prop :=
  (∀ h args s, let i := Instr.coreBuf h args
    let b := argN args 1
    let moved : Bool := argN args 2 != (theBarn s b).bufCells || argN args 3 != (theBarn s b).egCells
    let t := modBarn b (fun x => { x with
      bufCells := argN args 2, egCells := argN args 3, egC7Reserve := argN args 4,
      egClassMax := [argN args 5, argN args 6, argN args 7, argN args 8, argN args 9, argN args 10, argN args 11],
      cache := if moved then [] else x.cache }) (fetched i s)
    let bufOk := 16384 ≤ argN args 2 ∧ argN args 2 ≤ 49152 ∧ argN args 2 % 4096 = 0
    let egOk := 4096 ≤ argN args 3 ∧ argN args 3 + 8192 ≤ argN args 2 ∧ argN args 3 % 1024 = 0
    let c7Ok := 512 ≤ argN args 4 ∧ argN args 4 ≤ 4096
    let maxOk (k : Nat) := 1024 ≤ argN args (5 + k) ∧ argN args (5 + k) ≤ argN args 3
    let fits := argN args 2 + (theBarn s b).stageCells + (theBarn s b).scratchCells + 4096 ≤ 65536 ∧ creditOk t b = true
    accepted i s = true →
    (16 ≤ b → exec i s = .next (refusedEnd i s 0x01 1)) ∧
    (b < 16 → ¬bufOk → exec i s = .next (refusedEnd i s 0x01 2)) ∧
    (b < 16 → bufOk → ¬egOk → exec i s = .next (refusedEnd i s 0x01 3)) ∧
    (b < 16 → bufOk → egOk → ¬c7Ok → exec i s = .next (refusedEnd i s 0x01 4)) ∧
    (b < 16 → bufOk → egOk → c7Ok → ∀ k, k < 7 → ¬maxOk k → (∀ j, j < k → maxOk j) → exec i s = .next (refusedEnd i s 0x01 (5 + k))) ∧
    (b < 16 → bufOk → egOk → c7Ok → (∀ k, k < 7 → maxOk k) →
      (¬fits → exec i s = .next (refusedEnd i s 0x01 2)) ∧
      (fits → moved = true → barnPortEnabled s b = true → exec i s = .next (refusedEnd i s 0x02 0)) ∧
      (fits → (moved = true → barnPortEnabled s b = false) → exec i s = .next (okEnd i s [] (updateHolds b t))))) ∧
  (∀ h args s, let i := Instr.coreCredit h args
    let t := (fetched i s).modCore fun k => { k with allow := tset k.allow 0 (argN args 1 * 8 + argN args 2) (argN args 3) }
    let portOk := argN args 1 < 1024 ∧ insidePort s (argN args 1) = false
    accepted i s = true →
    (¬portOk → exec i s = .next (refusedEnd i s 0x01 1)) ∧
    (portOk → 8 ≤ argN args 2 → exec i s = .next (refusedEnd i s 0x01 2)) ∧
    (portOk → argN args 2 < 8 → 8388607 < argN args 3 ∨ creditOk t (barnOf (argN args 1)) = false →
      exec i s = .next (refusedEnd i s 0x01 3)) ∧
    (portOk → argN args 2 < 8 → argN args 3 ≤ 8388607 → creditOk t (barnOf (argN args 1)) = true →
      exec i s = .next (okEnd i s [] (giveCredit (argN args 1) (argN args 2) t)))) ∧
  (∀ h args s, let i := Instr.coreSpill h args
    let g := argN args 1
    let m := argN args 2
    let fits := spillFits s g = true ∧ ∀ b, b < 16 → creditFits (withSpill g (BitVec.ofNat 8 m) s) b = true
    accepted i s = true →
    (64 < g ∨ g % 8 ≠ 0 → exec i s = .next (refusedEnd i s 0x01 1)) ∧
    (g ≤ 64 → g % 8 = 0 → 127 < m → exec i s = .next (refusedEnd i s 0x01 2)) ∧
    (g ≤ 64 → g % 8 = 0 → m ≤ 127 → ¬fits → exec i s = .next (refusedEnd i s 0x01 1)) ∧
    (g ≤ 64 → g % 8 = 0 → m ≤ 127 → fits →
      (g ≠ 0 ∧ s.mem.granary ≠ .inService) ∨ (g ≠ s.core.spillGib ∧ holdsSpill s = true) → exec i s = .next (refusedEnd i s 0x02 0)) ∧
    (g ≤ 64 → g % 8 = 0 → m ≤ 127 → fits → (g ≠ 0 → s.mem.granary = .inService) → (g ≠ s.core.spillGib → holdsSpill s = false) →
      exec i s = .next (addDetached (refOf i s) (.spill g (BitVec.ofNat 8 m)) (fetched i s)))) ∧
  (∀ s l c g m muted r, s.hearth.detached = l ++ ⟨c, .spill g m, muted⟩ :: r → (∀ d ∈ l, ∀ g m, d.work ≠ .spill g m) →
    (g = s.core.spillGib ∨ holdsSpill s = false → exec .spillRegionPlaced s = .next (endWith c 0x00 0
      (s.modCore fun k => { k with spillGib := g, spillMask := m }))) ∧
    (g ≠ s.core.spillGib → holdsSpill s = true → exec .spillRegionPlaced s = .next s)) ∧
  (∀ h args s, let i := Instr.floorConfig h args
    accepted i s = true →
    (argN args 1 < 1 ∨ 255 < argN args 1 → exec i s = .next (refusedEnd i s 0x01 1)) ∧
    (1 ≤ argN args 1 → argN args 1 ≤ 255 →
      exec i s = .next (okEnd i s [] ((fetched i s).modCore fun k => { k with waitLimit := argN args 1 })))) ∧
  (∀ h args s, let i := Instr.floorPlaneRestore h args
    let p := argN args 1
    accepted i s = true →
    (4 ≤ p ∨ (thePlane s p).fenced = false → exec i s = .next (refusedEnd i s 0x01 1)) ∧
    (p < 4 → (thePlane s p).fenced = true → (thePlane s p).testing = true → exec i s = .next (refusedEnd i s 0x02 0)) ∧
    (p < 4 → (thePlane s p).fenced = true → (thePlane s p).testing = false → exec i s = .next (addDetached (refOf i s) (.plane p)
      (modPlane p (fun x => { x with testing := true }) (fetched i s)))))

/-- On one plane and in one slot a barn sends to at most one barn and receives from at most one, every match answers a request
of that plane whose class is not held, and no more matches cross the bridge from a half than whole bundles of its remaining
capacity (R20, R99, R108). That a lost channel takes 8/125 of a slot's 8 bundles, with what the last slot left over carried to this
one, is the model's choice (log entry 54). -/
def Obligations.FloorMatchesAreOneToOne : Prop :=
  ∀ s p reqs,
    (matchPlane s p reqs).1.Pairwise (fun a b => a.src ≠ b.src ∧ a.dst ≠ b.dst) ∧
    (∀ r ∈ (matchPlane s p reqs).1, r ∈ reqs ∧ r.plane = p ∧ r.held = false) ∧
    (∀ half, half < 2 → let n := ((matchPlane s p reqs).1.filter fun r => halfOfBarn r.src == half && halfOfBarn r.dst != half).length
      125 * n ≤ (125 - tget s.core.lost 0 (4 * half + p)) * 8 + tget s.core.crossLeft 0 (4 * half + p))

/-- The Floor's rows (R97 to R99, R102). A slot matches the requests on every plane that is not fenced, moves the pointers, raises by one
WAIT of every VOQ that requests, and sends a bundle for each match; a match whose VOQ has nothing to send is counted
FLOOR_EMPTY_MATCH, and one that sends sets WAIT to 0 and keeps the cells as unacknowledged. A bundle that passes its check is stored and
acknowledged. One that fails, or is not acknowledged in time, is counted and its cells are offered again; if the plane has failed
within the last millisecond it is fenced, counted, reported, and every bundle in flight on it is offered again. A plane under test
returns to service if the test passes and stays fenced, with TEST_FAILED, if not. FLOOR_SLOT, CELL_BUNDLE_ARRIVAL,
BUNDLE_ACK_TIMEOUT and PLANE_LOOPBACK_TEST_DONE complete. One slot on all planes in rising order, its crossing capacity and the order
of its crossings (log entry 54), and that a bundle's fate comes by its rows (55), are the model's. -/
def Obligations.FloorRows : Prop :=
  (∀ s, let planes := (List.range 4).filter fun p => !(thePlane s p).fenced
    let ms := planes.map fun p => (p, matchPlane s p (requests s))
    let matched := ms.flatMap fun m => m.2.1
    exec .floorSlot s = .next (matched.foldl (fun s r => transfer r s) (updateWait (requests s)
      (ms.foldl (fun s m => leaveCross m.1 m.2.1 (modPlane m.1 (fun _ => m.2.2) s)) s)))) ∧
  (∀ reqs s b key, tget (theBarn (updateWait reqs s) b).wait 0 key = tget (theBarn s b).wait 0 key +
    if ∃ r ∈ reqs, r.src = b ∧ 8 * r.dst + r.tc = key then 1 else 0) ∧
  (∀ r s, let key := 8 * r.dst + r.tc
    let t := modBarn r.src (fun x => { x with planeRot := tset x.planeRot 0 key ((r.plane + 1) % 4) }) s
    let next := (offers (theBarn s r.src) key).take 16
    (next = [] → transfer r s = bump (ctr 9 r.plane 2) t) ∧
    (next ≠ [] → readChecked r.src next t = (next, t) →
      tget (theBarn (transfer r s) r.src).wait 0 key = 0 ∧
      (theBarn (transfer r s) r.src).unacked =
        (theBarn s r.src).unacked ++ [{ plane := r.plane, src := r.src, dst := r.dst, tc := r.tc, parts := groupCells next }])) ∧
  (∀ (plane : Fin 4) (src dst : Fin 16) ok s u,
    ((theBarn s src).unacked.find? fun u => u.plane == plane.val && u.dst == dst.val) = some u → barnUp s dst = true →
    exec (.cellBundleArrival plane src dst ok) s =
      .next (floorFatal (settleSeeds (pumpAll (if ok then bundleOk u s else bundleFail u s)))) ∧
    exec (.bundleAckTimeout plane src dst) s = .next (floorFatal (settleSeeds (pumpAll (bundleFail u s))))) ∧
  (∀ u s, let v := bump (ctr 9 u.plane 3) (requeue u s)
    ((∀ t ∈ (thePlane s u.plane).failures, t + 256000000 ≤ s.time.now) →
      bundleFail u s = modPlane u.plane (fun x => { x with failures := [s.time.now] }) v) ∧
    ((∃ t ∈ (thePlane s u.plane).failures, s.time.now < t + 256000000) → bundleFail u s = fencePlane u.plane v)) ∧
  (∀ u s, (theBarn (requeue u s) u.src).unacked = (theBarn s u.src).unacked.erase u ∧
    ∀ e ∈ tget (theBarn s u.src).voqs [] (8 * u.dst + u.tc), ∀ t, (u.parts.find? fun t => t.pid == e.pid) = some t →
      ∃ x ∈ tget (theBarn (requeue u s) u.src).voqs [] (8 * u.dst + u.tc), x.pid = e.pid ∧
        ∀ c, c < 32 → (c ∈ x.resend ↔ c ∈ t.cells ∨ c ∈ e.resend)) ∧
  (∀ p s, fencePlane p s = (s.core.barns.flatMap fun e => e.2.unacked.filter fun u => u.plane == p).foldl (fun s u => requeue u s)
    (report (faultAt 0x0402 2 3 p 0) (bump (ctr 9 p 4) (modPlane p (fun x => { x with fenced := true, failures := [] }) s)))) ∧
  (∀ (plane : Fin 4) (src dst : Fin 16) ok s,
    ((theBarn s src).unacked.find? fun u => u.plane == plane.val && u.dst == dst.val) = none ∨ barnUp s dst = false →
    exec (.cellBundleArrival plane src dst ok) s = .next (floorFatal (settleSeeds (pumpAll s))) ∧
    exec (.bundleAckTimeout plane src dst) s = .next (floorFatal (settleSeeds (pumpAll s)))) ∧
  (∀ (plane : Fin 4) pass s d, (thePlane s plane).testing = true →
    (s.hearth.detached.find? fun d => d.work == .plane plane.val) = some d →
    exec (.planeLoopbackTestDone plane pass) s = .next (endWith d.cmd (if pass then 0x00 else 0x0A) 0
      (modPlane plane (fun x => { x with testing := false, fenced := x.fenced && !pass }) s))) ∧
  (∀ (plane : Fin 4) pass s, (thePlane s plane).testing = false → exec (.planeLoopbackTestDone plane pass) s = .next s)

/-- The Gleaner and spill refill (R111, R113, R114). An audit of a barn that is up is one pass over handles of its buffer, then over its
spill handles, each once, which leaves out only handles that are free, on the free list, held by nothing and no candidates. A handle
in use whose REFS differs from the number of its holders gets that number; one in use without holders becomes a candidate, and is
reclaimed when a second audit finds it so; one on the free list with a holder is taken off it; one that is neither in use nor on the free
list nor held is put back on it; each is counted and reported, and no other cell of the barn changes; so with a spill handle. The packet that R111 takes next
from spill is read back, cell by cell, once the ingress account has room for it, and not before; one with a cell whose check
fails is discarded. GLEANER_AUDIT and SPILL_REFILL complete. That an audit is one row, and that nothing is done in the cases that
R114's table does not list, are the model's choice (log entry 57). -/
def Obligations.GleanerAndRefill : Prop :=
  (∀ (b : Fin 16) s, barnUp s b = true → ∃ hs sp : List Nat, hs.Nodup ∧ sp.Nodup ∧
    exec (.gleanerAudit b) s = .next (sp.foldl (fun s h => auditSpill b h s) (hs.foldl (fun s h => auditHandle b h s) s)) ∧
    (∀ h, h ∉ hs → (tget (theBarn s b).cells {} h).inuse = false ∧ h ∉ (theBarn s b).lostFree ∧ h ∉ (theBarn s b).doubleFree ∧
      h ∉ (theBarn s b).cand ∧ holders (theBarn s b) h = 0) ∧
    (∀ h, h ∉ sp → (tget (theBarn s b).spill {} h).inuse = false ∧ h ∉ (theBarn s b).spillLost ∧
      h ∉ (theBarn s b).spillDouble ∧ h ∉ (theBarn s b).spillCand ∧ spillHolders (theBarn s b) h = 0)) ∧
  (∀ (b : Fin 16) s, barnUp s b = false → exec (.gleanerAudit b) s = .next s) ∧
  (∀ b h s, let brn := theBarn s b
    let c := tget brn.cells {} h
    let n := holders brn h
    let onList : Bool := (!c.inuse && !brn.lostFree.contains h) || brn.doubleFree.contains h
    let others (t : State) : Prop := ∀ k, k ≠ h → tget (theBarn t b).cells {} k = tget brn.cells {} k
    (c.inuse = true → onList = false → 1 ≤ n → n ≠ c.refs → ∃ t, auditHandle b h s = gleanEvent b h 0 t ∧
      tget (theBarn t b).cells {} h = { c with refs := n } ∧ others t) ∧
    (c.inuse = true → onList = false → n = 0 → brn.cand.contains h = false →
      auditHandle b h s = modBarn b (fun x => { x with cand := h :: x.cand }) s) ∧
    (c.inuse = true → onList = false → n = 0 → brn.cand.contains h = true → ∃ t, auditHandle b h s = gleanEvent b h 1 t ∧
      tget (theBarn t b).cells {} h = {} ∧ others t) ∧
    (onList = true → 1 ≤ n → ∃ t, auditHandle b h s = gleanEvent b h 2 t ∧
      tget (theBarn t b).cells {} h = { c with inuse := true } ∧ h ∉ (theBarn t b).doubleFree ∧ others t) ∧
    (c.inuse = false → onList = false → n = 0 → ∃ t, auditHandle b h s = gleanEvent b h 3 t ∧
      h ∉ (theBarn t b).lostFree ∧ (theBarn t b).cells = brn.cells)) ∧
  (∀ b h s, let brn := theBarn s b
    let c := tget brn.spill {} h
    let n := spillHolders brn h
    let onList : Bool := (!c.inuse && !brn.spillLost.contains h) || brn.spillDouble.contains h
    let others (t : State) : Prop := ∀ k, k ≠ h → tget (theBarn t b).spill {} k = tget brn.spill {} k
    (c.inuse = true → onList = false → 1 ≤ n → n ≠ c.refs → ∃ t, auditSpill b h s = gleanEvent b h 0 t ∧
      tget (theBarn t b).spill {} h = { c with refs := n } ∧ others t) ∧
    (c.inuse = true → onList = false → n = 0 → brn.spillCand.contains h = false →
      auditSpill b h s = modBarn b (fun x => { x with spillCand := h :: x.spillCand }) s) ∧
    (c.inuse = true → onList = false → n = 0 → brn.spillCand.contains h = true → ∃ t, auditSpill b h s = gleanEvent b h 1 t ∧
      tget (theBarn t b).spill {} h = {} ∧ others t) ∧
    (onList = true → 1 ≤ n → ∃ t, auditSpill b h s = gleanEvent b h 2 t ∧
      tget (theBarn t b).spill {} h = { c with inuse := true } ∧ h ∉ (theBarn t b).spillDouble ∧ others t) ∧
    (c.inuse = false → onList = false → n = 0 → ∃ t, auditSpill b h s = gleanEvent b h 3 t ∧
      h ∉ (theBarn t b).spillLost ∧ (theBarn t b).spill = brn.spill)) ∧
  (∀ (b : Fin 16) s, refillNext (theBarn s b) = none → exec (.spillRefill b) s = .next s) ∧
  (∀ (b : Fin 16) s p, refillNext (theBarn s b) = some p → eligibleLimit s b < eligibleCells s b + p.handles.length →
    exec (.spillRefill b) s = .next s) ∧
  (∀ (b : Fin 16) s p, refillNext (theBarn s b) = some p → eligibleCells s b + p.handles.length ≤ eligibleLimit s b →
    let bad (k : Nat) : Bool := cellBad (theBarn s b).spill p.info.bytes k (p.handles.getD k 65535)
    ((∀ k, k < p.handles.length → bad k = false) →
      exec (.spillRefill b) s = .next ((List.range p.handles.length).foldl (fun s k => refillCell b p k s)
        (modInPkt b p.info.pid (fun q => { q with handles := [], spilled := false, refilled := true }) s))) ∧
    (∀ k, k < p.handles.length → bad k = true → (∀ j, j < k → bad j = false) →
      exec (.spillRefill b) s = .next (cellFail b (p.handles.getD k 65535 % 65536) p.info.pid s)))

/-! ### Scheduling and policing (R116 to R130) -/

/-- The scheduling commands (R122, R124, R130). SHAPER_WRITE stores the profile for each class of the mask in the bank given
and, in the active bank, leaves it to apply at the next refill instant; SHAPER_BANK_SET and POLICER_WRITE leave the bank and the
entries to the next refill instant. A lane that is no port base, a mask above 8 bits, a bank above 3 and an enabled entry
outside the ranges of R120 are refused with BAD_ARGUMENT. The order of the checks and DETAIL, the word at fault, are the model's
(log entries 18, 19), and so is that a bank change comes before the writes (58). SHAPER_WRITE, SHAPER_BANK_SET and POLICER_WRITE
complete. -/
def Obligations.SchedulingCommands : Prop :=
  (∀ h args s, let i := Instr.shaperWrite h args
    let base := argN args 1 < 1024 ∧ (thePort s (argN args 1)).configured = true
    let pr := profileOf (arg64 args 4)
    let prOk := pr.en = true → 1 ≤ pr.rate ∧ pr.rate ≤ 204800 ∧ 4136 ≤ pr.burst ∧ pr.rate ≤ pr.burst
    let ks := (maskClasses (argN args 2)).map fun c => argN args 1 * 8 + c
    accepted i s = true →
    (base → argN args 2 ≤ 255 → argN args 3 ≤ 3 → prOk →
      ∃ t, exec i s = .next (okEnd i s [] t) ∧
        (∀ k, k < 8192 → ∀ bank, tget t.sched.profiles {} (8192 * bank + k) =
          if bank = argN args 3 ∧ k ∈ ks then pr else tget s.sched.profiles {} (8192 * bank + k)) ∧
        (argN args 3 ≠ s.sched.bank → t.sched.shaperPend = s.sched.shaperPend) ∧
        (argN args 3 = s.sched.bank → ∀ k, k ∈ t.sched.shaperPend ↔ k ∈ s.sched.shaperPend ∨ k ∈ ks) ∧
        t = { fetched i s with sched := { s.sched with profiles := t.sched.profiles, shaperPend := t.sched.shaperPend } }) ∧
    (¬base → exec i s = .next (refusedEnd i s 0x01 1)) ∧
    (base → 255 < argN args 2 → exec i s = .next (refusedEnd i s 0x01 2)) ∧
    (base → argN args 2 ≤ 255 → 3 < argN args 3 → exec i s = .next (refusedEnd i s 0x01 3)) ∧
    (base → argN args 2 ≤ 255 → argN args 3 ≤ 3 → ¬prOk → exec i s = .next (refusedEnd i s 0x01 4))) ∧
  (∀ h args s, let i := Instr.shaperBankSet h args
    accepted i s = true →
    (argN args 1 ≤ 3 → exec i s = .next (okEnd i s [] ((fetched i s).modSched fun d => { d with bankPend := some (argN args 1) }))) ∧
    (3 < argN args 1 → exec i s = .next (refusedEnd i s 0x01 1))) ∧
  (∀ h args s, let i := Instr.policerWrite h args
    let base := argN args 1 < 1024 ∧ (thePort s (argN args 1)).configured = true
    let pr := profileOf (arg64 args 3)
    let prOk := pr.en = true → 1 ≤ pr.rate ∧ pr.rate ≤ 204800 ∧ 4136 ≤ pr.burst ∧ pr.rate ≤ pr.burst
    accepted i s = true →
    (base → argN args 2 ≤ 255 → prOk →
      exec i s = .next (okEnd i s [] ((fetched i s).modSched fun d =>
        { d with policerPend := d.policerPend ++ (maskClasses (argN args 2)).map fun c => (argN args 1 * 8 + c, pr) }))) ∧
    (¬base → exec i s = .next (refusedEnd i s 0x01 1)) ∧
    (base → 255 < argN args 2 → exec i s = .next (refusedEnd i s 0x01 2)) ∧
    (base → argN args 2 ≤ 255 → ¬prOk → exec i s = .next (refusedEnd i s 0x01 3)))

/-- A refill instant (R119, R122 to R124). REFILL_INSTANT acts where device time is a multiple of 512 ns that no refill has been carried
out for, and changes nothing otherwise; it changes only the buckets and what waits for it. With nothing waiting every enabled
bucket takes RATE, capped at BURST. A profile that waits for one shaper applies first: a shaper that was disabled starts at
BURST, one that was enabled takes min(TOKENS + new RATE, new BURST). A bank change puts the bank's number in force. After it no
enabled bucket that is listed holds more than BURST. That the row does nothing at another time or twice at one instant is log entry
6, the order of bank change, writes and refill is log entry 58, both the model's. REFILL_INSTANT completes. -/
def Obligations.RefillInstant : Prop :=
  let due (s : State) : Prop := s.time.now % 131072 = 0 ∧ s.sched.refilled ≠ some s.time.now
  (∀ s, ¬due s → exec .refillInstant s = .next s) ∧
  (∀ s, due s → s.sched.bankPend = none → s.sched.shaperPend = [] → s.sched.policerPend = [] →
    exec .refillInstant s = .next (s.modSched fun d =>
      { d with shapers := mapBuckets refill d.shapers, policers := mapBuckets refill d.policers, refilled := some s.time.now })) ∧
  (∀ s k, due s → s.sched.bankPend = none → s.sched.shaperPend = [k] →
    let new := tget s.sched.profiles {} (8192 * s.sched.bank + k)
    let old := tget s.sched.shapers {} k
    new.en = true →
    ∃ t, exec .refillInstant s = .next t ∧
      tget t.sched.shapers {} k =
        { prof := new, tokens := if old.prof.en then min (old.tokens + new.rate) new.burst else new.burst }) ∧
  (∀ s, due s → ∃ t, exec .refillInstant s = .next t ∧ t = { s with sched := t.sched } ∧
    t.sched.bank = s.sched.bankPend.getD s.sched.bank ∧ t.sched.bankPend = none ∧ t.sched.shaperPend = [] ∧
    t.sched.policerPend = [] ∧ t.sched.profiles = s.sched.profiles ∧ t.sched.lat = s.sched.lat ∧
    t.sched.refilled = some s.time.now ∧
    (∀ e ∈ t.sched.shapers ++ t.sched.policers, e.2.prof.en = true → e.2.tokens ≤ e.2.prof.burst))

/-- The scheduler of a port (R95, R118, R121, R256, R271, R327, R377). A row first lets the lane of the port's TIME packets go on; while a TIME
packet waits nothing else is selected. What it selects is the head of the highest class whose head is
eligible and whose shaper has EN = 0 or TOKENS ≥ 0. A selection with nothing to send leaves the port as it was. A selected
packet that is still admitted and whose cells pass their check is debited and handed to its lane; one that is admitted no longer
is counted PART_EGRESS_DROP and dropped; a result that an abort has voided is dropped; one with a cell whose check fails is
discarded, and so is one whose queue entry or cell descriptors fail their parity, with its cells left in use. The model's choices: the shaper is debited for a packet that is then
dropped, and the order of the checks (log entry 49); a parity failure is the row's operand (49, 140); a failing admission entry is
counted when it is read (41); seeds end with the selection of their last packet (113). EGRESS_SELECT completes. -/
def Obligations.PortScheduler : Prop :=
  (∀ s p n x, selectFrom s p n = some x →
    ∃ c, c < n ∧ egHead s p c = some x ∧ headEligible s p c x = true ∧
      ((tget s.sched.shapers {} (p * 8 + c)).prof.en = false ∨ 0 ≤ (tget s.sched.shapers {} (p * 8 + c)).tokens) ∧
      ∀ d y, c < d → d < n → egHead s p d = some y → (headEligible s p d y && shaperPasses s p d) = false) ∧
  (∀ (p : Fin 1024) s, let v := match timeLane s p with
      | some l => pump l (timeFlush p s)
      | none => s
    ∀ pf, (tget v.link.timeQ [] p ≠ [] → exec (.egressSelect ⟨p, pf⟩) s = .next v) ∧
    (tget v.link.timeQ [] p = [] → exec (.egressSelect ⟨p, pf⟩) s = .next (settleSeeds (egressSelect p pf v)))) ∧
  (∀ p pf s, (thePort s p).up = false ∨ barnUp s (barnOf p) = false ∨ laneFree s p = false ∨ selectFrom s p 8 = none →
    egressSelect p pf s = s) ∧
  (∀ p s x, (thePort s p).up = true → barnUp s (barnOf p) = true → laneFree s p = true → selectFrom s p 8 = some x →
    let u := noteAdmit p x.info.hdr.partition (debit p x.info.hdr s)
    let out := admitsOut u p x.info.inPort.isNone x.info.hdr
    let gone : TraceEnd := { outcome := 1, outPort := p, barn := barnOf p }
    (x.info.result = none → out = true → badStored u (barnOf p) x = none → egressSelect p false s = dispatch p x u) ∧
    (x.info.result = none → out = true → ∀ k, badStored u (barnOf p) x = some k →
      egressSelect p false s = cellFail (barnOf p) k x.info.pid u) ∧
    (x.info.result = none → out = false → egressSelect p false s =
      noteDropped x.info.pid (dropRef (barnOf p) x.info.pid p (traceStored x gone (bump (ctr 2 (barnOf p) 5) u)))) ∧
    (∀ r, x.info.result = some r → r.void = true →
      egressSelect p false s = dropRef (barnOf p) x.info.pid p (traceStored x gone u)) ∧
    egressSelect p true s = parityDrop (barnOf p) x s) ∧
  (∀ p s (x : Stored),
    let spend (b : Bucket) : Bucket := if b.prof.en then { b with tokens := b.tokens - x.info.hdr.pktBytes } else b
    debit p x.info.hdr s = s.modSched fun d => { d with shapers := tmod d.shapers {} (p * 8 + x.info.hdr.tc) spend })

/-! ### Collectives (R131 to R159, R439, R440) -/

/-- The commands on collective contexts that run (R134, R150, R152, R159, R439, R440). CTX_CREATE makes the context its image
describes; CTX_ABORT aborts an ACTIVE one with reason COMMAND and leaves an ABORTED or RETIRING one as it
was but for fences that waited; CTX_REARM starts a context afresh at an epoch with F = 0; CTX_SUBSTITUTE holds the substitution and
tells every member; CTX_DESTROY makes an ABORTED context FREE; CTX_READ copies the descriptor and the member table as created or
re-armed; CTX_BRANCH_READ copies the AND of the delivered masks of the retained sheaves of its range and returns their number;
CTX_RESEND_BRANCH sends each retained result that verifies again on the port mask, recalls one that does not, and returns how many
were not sent. CTX_CREATE, CTX_ABORT, CTX_REARM, CTX_SUBSTITUTE, CTX_DESTROY, CTX_READ, CTX_BRANCH_READ and CTX_RESEND_BRANCH complete. The model's choices: the order of the checks (log entry 18), BUSY outside IN_SERVICE (53), tables kept per
epoch (63), the retiring context (64), fences (66), the branch masks (70), ABORT_REASON kept (71), places in the pool (158), and the sheaf that
COMMAND names (160). -/
def Obligations.ContextCommands : Prop :=
  let exists_ (x : Ctx) : Prop := x.state ≠ .free
  (∀ h args s, let i := Instr.ctxCreate h args
    let f := fetched i s
    let x := ctxFrom f (arg64 args 1)
    accepted i s = true → (theCtx s (fld (dw x 0) 31 20)).state = .free → descOk x = true →
    (thePart s (ctxPartition x)).state ≠ 2 → treeOk f x = true → s.mem.granary = .inService →
    (ctxOut x = 1 → (windowFor f (ctxPartition x) (ctxAccAddr x) (accSize x) false true).isSome = true) →
    quotaRefusal f (ctxPartition x) 0 1 = none → quotaRefusal f (ctxPartition x) 3 (mibs (ctxRetSpace x)) = none →
    stagingFits f x = true → (placed f x).isSome = true →
    ∃ a b, placed f x = some { x with storeRow := some a, retRow := some b } ∧
      exec i s = .next (okEnd i s [] (modCtx (fld (dw x 0) 31 20) (fun _ => { x with storeRow := some a, retRow := some b }) f))) ∧
  (∀ h args s, let i := Instr.ctxAbort h args
    accepted i s = true → argN args 1 < 4096 → exists_ (theCtx s (argN args 1)) →
    exec i s = .next (okEnd i s [] (abortCtx (argN args 1) 7 (plainOffence (fetched i s) (theCtx s (argN args 1))) (fetched i s))) ∧
    ((theCtx s (argN args 1)).state ≠ .active → exec i s = .next (okEnd i s [] (settleFences 64 (fetched i s))))) ∧
  (∀ h args s, let i := Instr.ctxRearm h args
    let x := theCtx s (argN args 1)
    let members := if argN args 3 = 1 then membersOf (fetched i s) (arg64 args 4) (ctxCount x) else x.members
    accepted i s = true → argN args 1 < 4096 → argN args 2 ≤ 65535 → argN args 3 ≤ 1 →
    x.state = .aborted ∨ (x.state = .active ∧ x.opens = []) →
    exec i s = .next (okEnd i s [] (settleFences 64 (modCtx (argN args 1) (rearmed (argN args 2) members)
      (stripResults (argN args 1) (fetched i s)))))) ∧
  (∀ e members x, (rearmed e members x).state = .active ∧ (rearmed e members x).front = 0 ∧ (rearmed e members x).opens = [] ∧
    (rearmed e members x).retained = [] ∧ (rearmed e members x).sub = none ∧ (rearmed e members x).firstEpoch = e ∧
    (rearmed e members x).members = members ∧ (rearmed e members x).given = members) ∧
  (∀ h args s, let i := Instr.ctxSubstitute h args
    let x := theCtx s (argN args 1)
    accepted i s = true → argN args 1 < 4096 → argN args 3 < 2 ^ 24 → argN args 4 ≤ 65535 → x.state = .active →
    argN args 2 < ctxCount x → argN args 2 < 1024 → epochStarted x (argN args 4) = false → x.sub = none →
    ∃ t u, exec i s = .next (okEnd i s [] u) ∧
      t = modCtx (argN args 1) (fun x => settleSub { x with sub := some ⟨argN args 2, argN args 3, argN args 4⟩ }) (fetched i s) ∧
      u = sendNotice (argN args 1) (theCtx t (argN args 1)) 4 1 0 (memberDetail (some (argN args 2))) (argN args 4)
        (wordsBe [pack [(8, memberAt x (argN args 2) (argN args 4))], pack [(8, argN args 3)],
          w32 (digestAt (theCtx t (argN args 1)) (argN args 4)), 0]) t) ∧
  (∀ h args s, let i := Instr.ctxDestroy h args
    accepted i s = true → argN args 1 < 4096 → (theCtx s (argN args 1)).state = .aborted →
    exec i s = .next (okEnd i s [] (modCtx (argN args 1) (fun _ => {}) (stripResults (argN args 1) (fetched i s))))) ∧
  (∀ h args s, let i := Instr.ctxRead h args
    let x := theCtx s (argN args 1)
    accepted i s = true → argN args 1 < 4096 → exists_ x →
    exec i s = .next (okEnd i s [] (hostWrite (arg64 args 2) (wordsLe x.desc ++ wordsLe (x.given.map w32)) (fetched i s)))) ∧
  (∀ h args s, let i := Instr.ctxBranchRead h args
    let x := theCtx s (argN args 1)
    let l := branchSlots (fetched i s) x (argN args 2) (argN args 3) (argN args 4)
    accepted i s = true → argN args 1 < 4096 → argN args 2 ≤ 65535 → argN args 3 ≤ argN args 4 → argN args 4 < ctxN x →
    x.state = .active ∨ x.state = .aborted →
    exec i s = .next (okEnd i s [w32 l.length] (hostWrite (arg64 args 5) (leBytes 128
      (if l = [] then (0 : BitVec 1024) else l.foldl (fun m r => m &&& r.delivered) (BitVec.allOnes 1024)).toNat) (fetched i s)))) ∧
  (∀ h bad args s, let i := Instr.ctxResendBranch ⟨h, bad⟩ args
    let x := theCtx s (argN args 1)
    let l := branchSlots (fetched i s) x (argN args 2) (argN args 3) (argN args 4)
    accepted i s = true → argN args 1 < 4096 → argN args 2 ≤ 65535 → argN args 3 ≤ argN args 4 → argN args 4 < ctxN x →
    x.state = .active ∨ x.state = .aborted →
    exec i s = .next (okEnd i s [w32 (argN args 4 - argN args 3 + 1 - (l.filter fun r => !bad.contains r.index).length)]
      (l.foldl (fun s r => if bad.contains r.index then recallRun (argN args 1) 1 ⟨r.index, 0, 1⟩ s
        else resendResult (argN args 1) (maskOf args 5) r s) (fetched i s))))

/-- The refusals of the context commands (R134, R152, R159, R329): CTX_IN_USE for a context that exists, BAD_ARGUMENT for a descriptor or
tree that R134 does not admit, PARTITION_RETIRING between those two for a RETIRING partition, BUSY while the Granary is not in service,
the refusal of a quota, STAGING_FULL without room, REFUSED_PERMISSION without an accumulation window; CTX_NOT_FOUND for a FREE context, PARTITION_RETIRING for a RETIRING one, BUSY for one
in a state that will pass, EPOCH_STARTED for a substitution whose epoch has begun. The model's choices: the order of the checks (log
entry 18), DETAIL (19), BUSY outside IN_SERVICE (53), PARTITION_RETIRING with DETAIL 0 for a RETIRING context (64). -/
def Obligations.ContextRefusals : Prop :=
  (∀ h args s, let i := Instr.ctxCreate h args
    let f := fetched i s
    let x := ctxFrom f (arg64 args 1)
    let live := (thePart s (ctxPartition x)).state ≠ 2
    let fits := descOk x = true ∧ live ∧ treeOk f x = true
    let window := ctxOut x = 1 → (windowFor f (ctxPartition x) (ctxAccAddr x) (accSize x) false true).isSome = true
    accepted i s = true →
    ((theCtx s (fld (dw x 0) 31 20)).state ≠ .free → exec i s = .next (refusedEnd i s 0x12 0)) ∧
    ((theCtx s (fld (dw x 0) 31 20)).state = .free →
      (descOk x = false → exec i s = .next (refusedEnd i s 0x01 1)) ∧
      (descOk x = true → ¬live → exec i s = .next (refusedEnd i s 0x0D 0)) ∧
      (descOk x = true → live → treeOk f x = false → exec i s = .next (refusedEnd i s 0x01 1)) ∧
      (fits → s.mem.granary ≠ .inService → exec i s = .next (refusedEnd i s 0x02 0)) ∧
      (fits → s.mem.granary = .inService → ¬window → exec i s = .next (refusedEnd i s 0x0B 0)) ∧
      (fits → s.mem.granary = .inService → window →
        (∀ st d, quotaRefusal f (ctxPartition x) 0 1 = some (st, d) → exec i s = .next (refusedEnd i s st d)) ∧
        (quotaRefusal f (ctxPartition x) 0 1 = none →
          (∀ st d, quotaRefusal f (ctxPartition x) 3 (mibs (ctxRetSpace x)) = some (st, d) →
            exec i s = .next (refusedEnd i s st d)) ∧
          (quotaRefusal f (ctxPartition x) 3 (mibs (ctxRetSpace x)) = none → stagingFits f x = false ∨ placed f x = none →
            exec i s = .next (refusedEnd i s 0x14 0)))))) ∧
  (∀ h args i s, i = Instr.ctxAbort h args ∨ i = Instr.ctxDestroy h args ∨ i = Instr.ctxRead h args → accepted i s = true →
    (4096 ≤ argN args 1 → exec i s = .next (refusedEnd i s 0x01 1)) ∧
    (argN args 1 < 4096 → (theCtx s (argN args 1)).state = .free → exec i s = .next (refusedEnd i s 0x13 0))) ∧
  (∀ h args s, let i := Instr.ctxRearm h args
    let x := theCtx s (argN args 1)
    accepted i s = true → argN args 1 < 4096 → argN args 2 ≤ 65535 → argN args 3 ≤ 1 →
    (x.state = .free → exec i s = .next (refusedEnd i s 0x13 0)) ∧
    (x.state = .retiring → exec i s = .next (refusedEnd i s 0x0D 0)) ∧
    (x.state = .active → x.opens ≠ [] → exec i s = .next (refusedEnd i s 0x02 0))) ∧
  (∀ h args s, let i := Instr.ctxDestroy h args
    accepted i s = true → argN args 1 < 4096 →
    ((theCtx s (argN args 1)).state = .retiring → exec i s = .next (refusedEnd i s 0x0D 0)) ∧
    ((theCtx s (argN args 1)).state = .active → exec i s = .next (refusedEnd i s 0x02 0))) ∧
  (∀ h args s, let i := Instr.ctxSubstitute h args
    let x := theCtx s (argN args 1)
    accepted i s = true → argN args 1 < 4096 → argN args 2 < 1024 → argN args 3 < 2 ^ 24 → argN args 4 ≤ 65535 →
    (x.state = .free → exec i s = .next (refusedEnd i s 0x13 0)) ∧
    (x.state ≠ .free → argN args 2 < ctxCount x →
      (x.state = .retiring → exec i s = .next (refusedEnd i s 0x0D 0)) ∧
      (x.state = .aborted → exec i s = .next (refusedEnd i s 0x02 0)) ∧
      (x.state = .active → epochStarted x (argN args 4) = true → exec i s = .next (refusedEnd i s 0x15 0)) ∧
      (x.state = .active → epochStarted x (argN args 4) = false → x.sub.isSome = true →
        exec i s = .next (refusedEnd i s 0x02 0)))) ∧
  (∀ h bad args i s, i = Instr.ctxBranchRead h args ∨ i = Instr.ctxResendBranch ⟨h, bad⟩ args → accepted i s = true →
    let x := theCtx s (argN args 1)
    (4096 ≤ argN args 1 → exec i s = .next (refusedEnd i s 0x01 1)) ∧
    (argN args 1 < 4096 → 65535 < argN args 2 → exec i s = .next (refusedEnd i s 0x01 2)) ∧
    (argN args 1 < 4096 → argN args 2 ≤ 65535 → argN args 4 < argN args 3 → exec i s = .next (refusedEnd i s 0x01 4)) ∧
    (argN args 1 < 4096 → argN args 2 ≤ 65535 → argN args 3 ≤ argN args 4 →
      (x.state = .free → exec i s = .next (refusedEnd i s 0x13 0)) ∧
      (x.state = .retiring → exec i s = .next (refusedEnd i s 0x0D 0))))

/-- An arriving contribution that has passed its CRC-64 check (R139): the first row of the table whose condition holds decides.
The sink takes the packet over first, when its turn has come; before that it waits. In the last row its payload is appended to its
index, which is opened if need be, on a unit in service; without one the context is aborted with TU_FENCED. Where the staged data that
the arrival makes the unit read is bad, as the row's operand says, the accumulator or the staged contribution is dealt with as R377 has
it, after the arrival. SHEAF_ARRIVAL completes. The model's choices: the packet is carried whole by its row and taken from its sink there
(log entry 137), tables kept per epoch (63), the read errors as operands (89), and the sheaf and epoch that TU_FENCED names (160). -/
def Obligations.ContributionArrival : Prop :=
  ∀ (port : Fin 1024) pkt s, pkt.hdr.ver < 2 → pkt.hdr.kind = 4 → payloadFits pkt = true → crcOk pkt = true →
    let i := Instr.sheafArrival port ⟨pkt, none⟩
    let h := pkt.hdr
    let c := h.ctxId
    let u := releaseSink pkt s
    let x := theCtx u c
    let d := (h.collEpoch + 65536 - frontEpoch x) % 65536
    let g := (x.front / ctxN x + d) * ctxN x + h.sheafNo
    let r1 := x.state ≠ .active
    let r2 := h.partition ≠ ctxPartition x
    let r3 := ctxCount x ≤ h.member ∨ memberAt x h.member h.collEpoch ≠ h.srcId
    let r4 := 32768 ≤ d ∨ (d = 0 ∧ g < x.front)
    let r5 := 2 ≤ d
    let r6 := h.w6.toNat ≠ digestAt x h.collEpoch
    let r7 := h.len ≠ ctxS x / 16
    let r8 := ctxN x ≤ h.sheafNo
    let r9 := x.front + ctxDepth x ≤ g
    let r10 := isComplete x g = true
    let r11 := lacks x g h.member = false
    let room := (openOf x g).isSome = true ∨ (substitute u (placedUnit x h.sheafNo)).isSome = true
    (sinkTurn pkt s = false → ∀ ue, exec (.sheafArrival port ⟨pkt, ue⟩) s = .next (notTaken pkt s)) ∧
    (sinkTurn pkt s = true → sunkVoid pkt s = true → ∀ ue, exec (.sheafArrival port ⟨pkt, ue⟩) s = .next (dropSunk pkt s)) ∧
    (sinkTurn pkt s = true → sunkVoid pkt s = false → ∀ t, exec i s = .next t →
      exec (.sheafArrival port ⟨pkt, some none⟩) s =
        .next (accumulatorUE c (indexOf (theCtx t c) (epochDist (theCtx t c) h.collEpoch) h.sheafNo) t) ∧
      ∀ m, exec (.sheafArrival port ⟨pkt, some (some m)⟩) s =
        .next (stagedUE c (indexOf (theCtx t c) (epochDist (theCtx t c) h.collEpoch) h.sheafNo) m t)) ∧
    (sinkTurn pkt s = true → sunkVoid pkt s = false →
      (r1 → exec i s = .next (bumpColl 0 u x h.sheafNo)) ∧
      (¬r1 → r2 → exec i s = .next (bumpColl 1 u x h.sheafNo)) ∧
      (¬r1 → ¬r2 → r3 → exec i s = .next (bumpColl 2 u x h.sheafNo)) ∧
      (¬r1 → ¬r2 → ¬r3 → r4 → exec i s = .next (bumpColl 3 u x h.sheafNo)) ∧
      (¬r1 → ¬r2 → ¬r3 → ¬r4 →
        (r5 → exec i s = .next (abortCtx c 4 (offenceOf x h) u)) ∧
        (¬r5 → r6 → exec i s = .next (abortCtx c 1 (offenceOf x h) u)) ∧
        (¬r5 → ¬r6 → r7 → exec i s = .next (abortCtx c 2 (offenceOf x h) u)) ∧
        (¬r5 → ¬r6 → ¬r7 → r8 → exec i s = .next (abortCtx c 3 (offenceOf x h) u)) ∧
        (¬r5 → ¬r6 → ¬r7 → ¬r8 →
          (r9 → exec i s = .next (sendResend c x 4 h.member h.sheafNo h.collEpoch u)) ∧
          (¬r9 → r10 → exec i s = .next (bumpColl 3 u x h.sheafNo)) ∧
          (¬r9 → ¬r10 → r11 → exec i s = .next (bumpColl 4 u x h.sheafNo)) ∧
          (¬r9 → ¬r10 → ¬r11 → ¬room → exec i s = .next (abortCtx c 6 (plainOffence u x) u)) ∧
          (¬r9 → ¬r10 → ¬r11 → room →
            ∃ t, exec i s = .next t ∧ t = { u with coll := t.coll, count := t.count } ∧
              ∃ o, openOf (theCtx t c) g = some o ∧
                o.contribs = (match openOf x g with | some o => o.contribs | none => []) ++ [⟨h.member, pkt.payload, false⟩]))))

/-- A bad contribution (R53, R140): when the sink takes it over it is counted CTX_BAD_CRC and reported, with its context, and RESEND with
reason CRC goes to the member exactly where the context is ACTIVE and of the packet's partition, the source is the member's endpoint,
and the index lies in the window, is not complete and lacks the member. That the sink takes it over at its row is the model's choice (log
entry 137). -/
def Obligations.BadContribution : Prop :=
  ∀ (port : Fin 1024) pkt s, pkt.hdr.ver < 2 → pkt.hdr.kind = 4 → payloadFits pkt = true → crcOk pkt = false →
    sinkTurn pkt s = true → sunkVoid pkt s = false → ∀ ue,
    let h := pkt.hdr
    let u := releaseSink pkt s
    let t := report { faultAt 0x0201 1 (halfOf port) (barnOf port) port with partition := h.partition, ctx := some h.ctxId }
      (bumpColl 5 u (theCtx u h.ctxId) h.sheafNo)
    let x := theCtx t h.ctxId
    let d := (h.collEpoch + 65536 - frontEpoch x) % 65536
    let g := (x.front / ctxN x + d) * ctxN x + h.sheafNo
    let answered := x.state = .active ∧ ctxPartition x = h.partition ∧ h.member < ctxCount x ∧
      memberAt x h.member h.collEpoch = h.srcId ∧ d < 2 ∧ h.sheafNo < ctxN x ∧ x.front ≤ g ∧ g < x.front + ctxDepth x ∧
      isComplete x g = false ∧ lacks x g h.member = true
    (answered → exec (.sheafArrival port ⟨pkt, ue⟩) s = .next (sendResend h.ctxId x 1 h.member h.sheafNo h.collEpoch t)) ∧
    (¬answered → exec (.sheafArrival port ⟨pkt, ue⟩) s = .next t)

/-- Results (R142, R143, R176). An index to which every member has contributed forms its result on a unit in service: the
unit counts it, and what was saturated or not a number; it is compared where its index is winnowed and a witness exists, else it goes on
by OUT_MODE; without a unit the context is aborted. A comparison that agrees marks the result WITNESSED; of three units one outvoted is
fenced once the index is resolved, and the result goes on; a comparison that nobody can decide aborts the context with ARITH. A result
that waits for a retention slot goes on when one is free. RESULT_FORMED, WINNOW_COMPARE and RETAIN_STALL_RESUME complete. The model's
choices: rows that do nothing (log entry 6), the arithmetic (60), completion without copies (61), the verdict as an operand, the roles
after a fault and the counters at the primary (67), fences that wait for a comparison (66), what TU_FENCED and ARITH name (160). -/
def Obligations.ResultRows : Prop :=
  (∀ (c : Fin 4096) g s, openOf (theCtx s c) g = none → exec (.resultFormed c g) s = .next s ∧
    (∀ v, exec (.winnowCompare c g v) s = .next (settleWinnow s))) ∧
  (∀ (c : Fin 4096) g s o u, let x := theCtx s c
    let out := if ctxOut x = 1 then ([], ({} : ConvFlags)) else convertAll (ctxOutType x) (roundingDraw x g) (reduceIndex x o)
    let tally := tallyWord false (ctxCount x) (epochOf x g)
    let formed : Formed := ⟨out.1, packetCrc (resultHeader s c x none (sheafOf x g) out.1.length tally) out.1, tally⟩
    let v := bumpUnit u 0 s
    let v := if out.2.sat then bumpUnit u 6 v else v
    let v := if out.2.nan then bumpUnit u 7 v else v
    let t := modOpen c g (fun o => { o with formed := some formed }) v
    x.state = .active → openOf x g = some o → o.phase = .reducing → o.contribs.length = ctxCount x →
    (primaryOf s o = none → exec (.resultFormed c g) s = .next (abortCtx c 5 (plainOffence s x) s)) ∧
    (primaryOf s o = some u →
      (winnowed (ctxWinnow x) (sheafOf x g) (epochOf x g) = false → exec (.resultFormed c g) s = .next (proceed c g t)) ∧
      (winnowed (ctxWinnow x) (sheafOf x g) (epochOf x g) = true → 2 ≤ (rolesOf t o.unit o.faulty).length →
        exec (.resultFormed c g) s = .next (modOpen c g (fun o => { o with phase := .winnowing }) t)) ∧
      (winnowed (ctxWinnow x) (sheafOf x g) (epochOf x g) = true → (rolesOf t o.unit o.faulty).length < 2 →
        exec (.resultFormed c g) s = .next (proceed c g (bumpColl 17 t x (sheafOf x g)))))) ∧
  (∀ (c : Fin 4096) g s o p w rest, (theCtx s c).state = .active → openOf (theCtx s c) g = some o → o.phase = .winnowing →
    rolesOf s o.unit o.faulty = p :: w :: rest →
    let undecided := settleWinnow (unresolved c g p (p :: w :: rest) s)
    exec (.winnowCompare c g .equal) s =
      .next (settleWinnow (proceed c g (agreed c w (agreed c p (setWitnessed c g (bumpUnit p 2 s)))))) ∧
    exec (.winnowCompare c g .unresolved) s = .next undecided ∧
    (rest = [] → exec (.winnowCompare c g .witnessRight) s = .next undecided ∧
      exec (.winnowCompare c g .primaryRight) s = .next undecided) ∧
    (rest ≠ [] → exec (.winnowCompare c g .witnessRight) s = .next (settleWinnow (proceed c g (agreed c w
        (modOpen c g (fun o => { o with faulty := o.faulty ++ [p] }) (outvote p c g (bumpUnit p 3 (setWitnessed c g s))))))) ∧
      exec (.winnowCompare c g .primaryRight) s = .next (settleWinnow (proceed c g (agreed c p
        (outvote w c g (bumpUnit p 3 (setWitnessed c g s)))))))) ∧
  (∀ c g p roles s, ∃ t, unresolved c g p roles s = abortCtx c 5 (plainOffence t (theCtx s c)) t) ∧
  (∀ (c : Fin 4096) s g rest, sortNat (((theCtx s c).opens.filter fun o => o.2.phase == .waitSlot).map Prod.fst) = g :: rest →
    ((theCtx s c).retained.length < ctxRetSlots (theCtx s c) → exec (.retainStallResume c) s = .next (proceed c g s)) ∧
    (ctxRetSlots (theCtx s c) ≤ (theCtx s c).retained.length → exec (.retainStallResume c) s = .next s))

/-- Acknowledgements and NAKs of a result that is still retained (R144, R145, R151): an acknowledgement marks its member, and frees the
slot once every member has acknowledged; a NAK after three is counted NAK_LIMIT; else the copy is verified, and one that verifies is
sent again to its member, one that fails is recalled. One that names no retained result, or comes from no member, is counted
ACK_UNMATCHED; one whose CRC-64 fails is reported with its context. The sink takes the packet over first, when its turn has come.
RESULT_ACK and RESULT_NAK complete. The model's choices: the packet carried by its row (log entry 137), tables kept per epoch (63), the slot
judged at the trailer's instant (69), the failing copy as an operand (41, 70). -/
def Obligations.AcknowledgementsAndNaks : Prop :=
  ∀ (port : Fin 1024) pkt s copyFails, pkt.hdr.ver < 2 → pkt.hdr.kind = 1 → pkt.hdr.ackReq = true → payloadFits pkt = true →
    let h := pkt.hdr
    let c := h.ctxId
    let u := releaseSink pkt s
    let x := theCtx u c
    let acked (r : Retained) (m : Nat) := if r.acked.contains m then r.acked else r.acked ++ [m]
    (sinkTurn pkt s = false → (h.status = 0 → exec (.resultAck port pkt) s = .next (notTaken pkt s)) ∧
      (h.status ≠ 0 → exec (.resultNak port pkt copyFails) s = .next (notTaken pkt s))) ∧
    (sinkTurn pkt s = true → sunkVoid pkt s = false → crcOk pkt = false →
      (h.status = 0 → exec (.resultAck port pkt) s = .next (termCrcFail port pkt u)) ∧
      (h.status ≠ 0 → exec (.resultNak port pkt copyFails) s = .next (termCrcFail port pkt u))) ∧
    (sinkTurn pkt s = true → sunkVoid pkt s = false → crcOk pkt = true → retNamed (sunkTime pkt s) x h = none ∨ memberOf x h.srcId h.collEpoch = none →
      (h.status = 0 → exec (.resultAck port pkt) s = .next (bumpColl 8 u x h.sheafNo)) ∧
      (h.status ≠ 0 → exec (.resultNak port pkt copyFails) s = .next (bumpColl 8 u x h.sheafNo))) ∧
    (sinkTurn pkt s = true → sunkVoid pkt s = false → crcOk pkt = true →
      ∀ r m, retNamed (sunkTime pkt s) x h = some r → memberOf x h.srcId h.collEpoch = some m → answers x = true →
      (h.status = 0 → ∃ t, exec (.resultAck port pkt) s = .next t ∧ t = { u with coll := t.coll } ∧
        (ctxCount x ≤ (acked r m).length → retOf (theCtx t c) r.index = none) ∧
        ((acked r m).length < ctxCount x → { r with acked := acked r m } ∈ (theCtx t c).retained)) ∧
      (h.status ≠ 0 → 3 ≤ tget r.naks 0 m → exec (.resultNak port pkt copyFails) s = .next (bumpColl 9 u x h.sheafNo)) ∧
      (h.status ≠ 0 → tget r.naks 0 m < 3 → copyFails = true →
        exec (.resultNak port pkt copyFails) s = .next (recallRun c 1 ⟨r.index, 0, 1⟩ u)) ∧
      (h.status ≠ 0 → tget r.naks 0 m < 3 → copyFails = false →
        ∃ t, exec (.resultNak port pkt copyFails) s = .next (send (feedingBarn t x r.sheaf)
            (resultHeader t c x (some h.srcId) r.sheaf r.payload.length r.tally) r.payload (some ⟨c, r.index, false⟩) t) ∧
          t = modRet c r.index (fun r => { r with naks := tmod r.naks 0 m (· + 1) }) u))

/-- The timers of a context (R141, R144, R151, R198). A stall sends RESEND to each member that has not contributed, posts one
event that names them, and waits another STALL_US; a retained result whose interval has passed is freed and counted; a retained
copy that fails its scrub is recalled; a barn short of staging moves the contributions of the oldest open index it stages to the store.
A contribution that the move reads in error is dealt with as R377 has it. STALL_TIMER, RETAIN_EXPIRED, RETENTION_SCRUB and STAGING_MOVE
complete. The model's choices: rows that do nothing (log entry 6), the instant of RETAIN_US and the timer that waits for a packet of
before it (69), the oldest index of a barn (72), read errors as operands (89). -/
def Obligations.ContextTimers : Prop :=
  (∀ (c : Fin 4096) g s o, let x := theCtx s c
    x.state = .active → openOf x g = some o → ctxStallUs x ≠ 0 → missing x o ≠ [] →
    o.stallAt + ctxStallUs x * 256000 ≤ s.time.now →
    exec (.stallTimer c g) s = .next (modOpen c g (fun o => { o with stallAt := o.stallAt + ctxStallUs x * 256000 })
      (capture 14 c (post 0x05 [pack [(20, c.val)], w32 (sheafOf x g), pack [(16, epochOf x g)], w32 (missing x o).length,
          0, 0, 0, 0, 0] (some (memberBits (missing x o)))
        ((missing x o).foldl (fun s m => sendResend c x 3 m (sheafOf x g) (epochOf x g) s) s))))) ∧
  (∀ (c : Fin 4096) g s o, let x := theCtx s c
    openOf x g = some o → x.state ≠ .active ∨ ctxStallUs x = 0 ∨ missing x o = [] ∨
      s.time.now < o.stallAt + ctxStallUs x * 256000 → exec (.stallTimer c g) s = .next s) ∧
  (∀ (c : Fin 4096) g s r, let x := theCtx s c
    retOf x g = some r → r.left = true → answers x = true → ctxRetainUs x ≠ 0 →
    (r.releasedAt + ctxRetainUs x * 256000 ≤ s.time.now → sunkBefore s (r.releasedAt + ctxRetainUs x * 256000) = true →
      exec (.retainExpired c g) s = .next s) ∧
    (r.releasedAt + ctxRetainUs x * 256000 ≤ s.time.now → sunkBefore s (r.releasedAt + ctxRetainUs x * 256000) = false →
      exec (.retainExpired c g) s = .next (bumpColl 7 (freeSlot c g s) x r.sheaf)) ∧
    (s.time.now < r.releasedAt + ctxRetainUs x * 256000 → exec (.retainExpired c g) s = .next s)) ∧
  (∀ (c : Fin 4096) g s r, retOf (theCtx s c) g = some r → r.left = true → answers (theCtx s c) = true →
    exec (.retentionScrub c g true) s = .next (recallRun c 1 ⟨g, 0, 1⟩ s) ∧ exec (.retentionScrub c g false) s = .next s) ∧
  (∀ (b : Fin 16) s, 1024 ≤ stagingFree s b → ∀ ue, exec (.stagingMove ⟨b, ue⟩) s = .next s) ∧
  (∀ (b : Fin 16) s k, let staged := s.coll.flatMap fun e => (e.2.opens.filter fun o => decide (0 < stagedCells s b e.2 o)).map fun o => (e.1, o)
    stagingFree s b < 1024 → k ∈ staged → (∀ j ∈ staged, j = k ∨ k.2.2.firstAt < j.2.2.firstAt) →
    let t := modOpen k.1 k.2.1 (fun o => { o with contribs := o.contribs.map fun q => { q with inStore := true } }) s
    exec (.stagingMove ⟨b, none⟩) s = .next t ∧
    ∀ (c : Fin 4096) g (m : Fin 1024), exec (.stagingMove ⟨b, some (c, g, m)⟩) s =
      .next (if c.val = k.1 ∧ g = k.2.1 then stagedUE c g m t else t)) ∧
  (∀ c g m s o, let x := theCtx s c
    openOf x g = some o → x.state = .active → o.phase = .reducing ∨ o.phase = .winnowing → lacks x g m = false →
    let t := modOpen c g (fun o => { o with contribs := o.contribs.filter (fun k => k.member != m), phase := .reducing, formed := none })
      (loftUE (feedingBarn s x (sheafOf x g)) c x s)
    x.front ≤ g → g < x.front + ctxDepth x → stagedUE c g m s = sendResend c x 1 m (sheafOf x g) (epochOf x g) t)

/-- Relays (R156, R157, R438). An upstream result is taken by every ACTIVE relay context whose upstream it names, or counted
ACK_UNMATCHED where there is none; a notice of the upstream context reaches every relay context of it, whatever its state; an ABORT
by a relay that is a member of a RETURN context aborts it with RELAY_FAULT; any other notice is counted TERM_UNEXPECTED; one whose CRC-64
fails is reported. The sink takes the packet over first, when its turn has come. A RESEND that names a member reaches the relay that is that
member. RELAY_RESULT_RX and UPSTREAM_NOTICE_RX complete. The model's choices: which ABORT is a relay's (log entry 65), what RELAY_FAULT
names (160), the packet carried by its row (137). -/
def Obligations.RelayRows : Prop :=
  (∀ s src up c, c ∈ takersOf s src up ↔ c ∈ relaysOf s src up ∧ (theCtx s c).state = .active) ∧
  (∀ s src up c, c ∈ relaysOf s src up ↔
    ∃ x, (c, x) ∈ s.coll ∧ x.state ≠ .free ∧ ctxOut x = 2 ∧ ctxUpDst x = src ∧ ctxUpCtx x = up) ∧
  (∀ (port : Fin 1024) pkt s, pkt.hdr.ver < 2 → pkt.hdr.kind = 5 → pkt.hdr.mc = false → payloadFits pkt = true →
    let u := releaseSink pkt s
    let takers := takersOf u pkt.hdr.srcId pkt.hdr.ctxId
    (sinkTurn pkt s = false → exec (.relayResultRx port pkt) s = .next (notTaken pkt s)) ∧
    (sinkTurn pkt s = true → sunkVoid pkt s = false → crcOk pkt = false → exec (.relayResultRx port pkt) s = .next (termCrcFail port pkt u)) ∧
    (sinkTurn pkt s = true → sunkVoid pkt s = false → crcOk pkt = true → exec (.relayResultRx port pkt) s = .next (if takers = [] then
        bumpColl 8 u (theCtx u pkt.hdr.ctxId) pkt.hdr.sheafNo
      else takers.foldl (fun s c => relayTakes c pkt s) u))) ∧
  (∀ (port : Fin 1024) pkt s, pkt.hdr.ver < 2 → pkt.hdr.kind = 8 → payloadFits pkt = true →
    let h := pkt.hdr
    let u := releaseSink pkt s
    let relays := relaysOf u h.srcId h.ctxId
    (sinkTurn pkt s = false → exec (.upstreamNoticeRx port pkt) s = .next (notTaken pkt s)) ∧
    (sinkTurn pkt s = true → sunkVoid pkt s = false → crcOk pkt = false → exec (.upstreamNoticeRx port pkt) s = .next (termCrcFail port pkt u)) ∧
    (sinkTurn pkt s = true → sunkVoid pkt s = false → crcOk pkt = true →
      (fromRelay u h = true →
        exec (.upstreamNoticeRx port pkt) s = .next (abortCtx h.ctxId 0x0B (plainOffence u (theCtx u h.ctxId)) u)) ∧
      (fromRelay u h = false → 1 ≤ h.code → h.code ≤ 3 → relays ≠ [] → exec (.upstreamNoticeRx port pkt) s =
        .next ((relays.filter fun c => h.code != 2 || !bitAt h.w6 31 || fld h.w6 19 10 == ctxUpMember (theCtx u c)).foldl
          (fun s c => relayNotice c h s) u)) ∧
      (fromRelay u h = false → h.code = 0 ∨ 3 < h.code ∨ relays = [] →
        exec (.upstreamNoticeRx port pkt) s = .next (bump (ctr 1 (barnOf port) 32) u)))) ∧
  (∀ c (h : Header) s, (h.code = 1 → relayNotice c h s = abortCtx c 0x0C (plainOffence s (theCtx s c)) s) ∧
    (h.code = 2 → relayNotice c h s = relayResend c h s) ∧ (h.code = 3 → relayNotice c h s = relayRecall c h s))

/-! ### Threshing units and the harvest (R160 to R187) -/

/-- Units (R173, R175, R176, R183, R185 to R187). TU_FENCE fences a unit with cause 3; TU_UNFENCE of a unit in service ends at once, of a
fenced one starts its self-test and detaches, of one under test is BUSY; the self-test puts the unit into service or leaves it
fenced with cause 4 and TEST_FAILED. A residue fault is counted against its unit. On an index, or its conversion, the work passes to the
witness; without one, or where the witness faults too, the context is aborted with ARITH. On a witness or referee of a winnowed index
the roles pass on, and with one unit left the result goes on uncompared. A fault in the addition into an accumulation region is one on
its index. In a chunk of a harvest the unit that faulted last is kept, whose witness does the chunk again; in
a norm pass the work is done again. A fence leaves its unit FENCED with the cause and the second it was fenced in, and every other unit
as it was. TU_FENCE, TU_UNFENCE, UNIT_SELFTEST_DONE and RESIDUE_FAULT complete. The model's choices: detached ends at their rows (log
entry 22), fences that wait (66), the roles after a fault, the addition, a fault after a redo (67), TU_FENCE on a FENCED or TESTING
unit (73), the chunk's redo (74), what the ABORT names (160). -/
def Obligations.Units : Prop :=
  (∀ h args s, let i := Instr.tuFence h args
    accepted i s = true →
    (argN args 1 < 64 →
      exec i s = .next (okEnd i s [] (settleWinnow (settleFences 64 (fenceUnit (argN args 1) 3 (fetched i s)))))) ∧
    (64 ≤ argN args 1 → exec i s = .next (refusedEnd i s 0x01 1))) ∧
  (∀ h args s, let i := Instr.tuUnfence h args
    accepted i s = true →
    (64 ≤ argN args 1 → exec i s = .next (refusedEnd i s 0x01 1)) ∧
    (argN args 1 < 64 → (theUnit s (argN args 1)).state = 0 → exec i s = .next (okEnd i s [] (fetched i s))) ∧
    (argN args 1 < 64 → (theUnit s (argN args 1)).state = 1 → exec i s = .next (addDetached (refOf i s) (.unit (argN args 1))
      (modUnit (argN args 1) (fun x => { x with state := 2 }) (fetched i s)))) ∧
    (argN args 1 < 64 → (theUnit s (argN args 1)).state = 2 → exec i s = .next (refusedEnd i s 0x02 0))) ∧
  (∀ (u : Fin 64) s d, (s.hearth.detached.find? fun d => d.work == .unit u.val) = some d →
    ((theUnit s u).state = 2 →
      exec (.unitSelftestDone u true) s = .next (endWith d.cmd 0x00 0 (modUnit u (fun x => { x with state := 0, cause := 0 }) s)) ∧
      exec (.unitSelftestDone u false) s = .next (endWith d.cmd 0x0A 0 (modUnit u (fun x => { x with state := 1, cause := 4 }) s))) ∧
    (∀ pass, (theUnit s u).state ≠ 2 → exec (.unitSelftestDone u pass) s = .next (endWith d.cmd 0x0A 0 s))) ∧
  (∀ (u : Fin 64) (c : Fin 4096) g s o i, let x := theCtx s c
    openOf x g = some o →
    ((i = ResidueWork.index c g ∨ i = ResidueWork.conversion c g) ∧ o.phase = .reducing) ∨
      (i = ResidueWork.addition c g ∧ ctxOut x = 1 ∧ o.phase ≠ .leaving) →
    x.state = .active → primaryOf s o = some u.val →
    (∀ w, o.faulty = [] → (rolesOf s o.unit o.faulty)[1]? = some w →
      exec (.residueFault u i false) s =
        .next (settleWinnow (modOpen c g (fun o => { o with faulty := o.faulty ++ [u.val] }) (faultOn u c g s))) ∧
      exec (.residueFault u i true) s =
        .next (settleWinnow (abortCtx c 5 (plainOffence (faultOn u c g s) x) (faultOn w c g (faultOn u c g s))))) ∧
    (∀ redo, o.faulty ≠ [] ∨ (rolesOf s o.unit o.faulty)[1]? = none →
      exec (.residueFault u i redo) s = .next (settleWinnow (abortCtx c 5 (plainOffence s x) (faultOn u c g s))))) ∧
  (∀ (u : Fin 64) (c : Fin 4096) g redo s o, let x := theCtx s c
    let t := modOpen c g (fun o => { o with faulty := o.faulty ++ [u.val] }) (faultOn u c g s)
    x.state = .active → openOf x g = some o → o.phase = .winnowing → u.val ∈ (rolesOf s o.unit o.faulty).drop 1 →
    exec (.residueFault u (.winnow c g) redo) s = .next (settleWinnow (if (rolesOf t o.unit (o.faulty ++ [u.val])).length < 2 then
      proceed c g (bumpColl 17 t x (sheafOf x g)) else t))) ∧
  (∀ (u : Fin 64) (id : BitVec 16) (k : Fin 1024) j redo s h, openChunk s id.toNat k j = some h → unitUp s u = true →
    let t := faultWork u redo s
    exec (.residueFault u (.chunk id k j) redo) s = .next (settleWinnow (t.2.modThresh fun x => { x with
      harvests := x.harvests.map fun y => if y.cmd == h.cmd then
        { y with redo := (h.redo.filter fun e => e.1 != (k.val, j)) ++ [((k.val, j), t.1)] } else y }))) ∧
  (∀ (u : Fin 64) (n : Fin 4) redo s, (s.thresh.norms[n.val]?).isSome = true → unitUp s u = true →
    exec (.residueFault u (.norm n) redo) s = .next (settleWinnow (faultWork u redo s).2)) ∧
  (∀ u s, faultWork u false s = (u, settleFences 64 (faultFree u s)) ∧
    ((firstRoles s u)[1]? = none → faultWork u true s = (u, settleFences 64 (faultFree u s))) ∧
    (∀ w, (firstRoles s u)[1]? = some w → faultWork u true s = (w, settleFences 64 (faultFree w (faultFree u s))))) ∧
  (∀ u s, (theUnit (residueCount u s).2 u).residue = sat (2 ^ 32 - 1) ((theUnit s u).residue + 1) ∧
    ((residueCount u s).1 = true ↔ ∃ t ∈ (theUnit s u).faultAt, s.time.now < t + secU 60) ∧
    (∀ c g, faultOn u c g s = if (residueCount u s).1 then fenceAfter u 1 c g (residueCount u s).2 else (residueCount u s).2) ∧
    faultFree u s = if (residueCount u s).1 then fenceUnit u 1 (residueCount u s).2 else (residueCount u s).2) ∧
  (∀ (u : Fin 64) cause s, (theUnit s u).state ≠ 1 →
    ∃ t, fenceUnit u cause s = (t.coll.map Prod.fst).foldl (fun s c => recallUnit c u s) t ∧
      (theUnit t u).state = 1 ∧ (theUnit t u).cause = cause ∧ (theUnit t u).fenceS = secOf s.time.now % 65536 ∧
      ∀ v, v ≠ u.val → theUnit t v = theUnit s v)

/-- Parameter groups and the start of harvests and norm passes (R179, R180, R184, R185, R187). HARVEST_GROUP_WRITE keeps the
records given, reserved bits 0; HARVEST_RUN and NORM_PASS that pass every check start and detach; HARVEST_ABORT ends a running
harvest with ABORTED and DETAIL 1. A partition that retires, a fifth run, a group without a record, an array outside the
partition's windows, a tree that is not the partition's, a gradient that contributions are being added to, and a harvest that is not
running are refused. HARVEST_GROUP_WRITE, HARVEST_RUN, HARVEST_ABORT and NORM_PASS complete. The model's choices: the order of the checks
and DETAIL (log entries 18, 19), detached ends (22), reserved bits (36), the results of the completion (75), runs of one ID and where
arrays must lie (77), a group rewritten during a norm pass (161). -/
def Obligations.HarvestCommands : Prop :=
  (∀ h args s, let i := Instr.harvestGroupWrite h args
    let rs := (List.range (argN args 2)).map fun k => (hostNums (fetched i s) 4 (arg64 args 3 + 80 * k) 20).map w32
    accepted i s = true →
    (1024 ≤ argN args 1 → exec i s = .next (refusedEnd i s 0x01 1)) ∧
    (argN args 1 < 1024 → argN args 2 < 1 ∨ 1024 < argN args 1 + argN args 2 → exec i s = .next (refusedEnd i s 0x01 2)) ∧
    (1 ≤ argN args 2 → argN args 1 + argN args 2 ≤ 1024 →
      ((∀ r ∈ rs, recordOk r = true) → (∀ k, k < argN args 2 → groupBusy s (argN args 1 + k) = false) →
        ∃ t, exec i s = .next (okEnd i s [] t) ∧
          (∀ k, tget t.thresh.groups [] k = if argN args 1 ≤ k ∧ k < argN args 1 + argN args 2 then
            keepRecord (rs.getD (k - argN args 1) []) else tget s.thresh.groups [] k) ∧
          t = { fetched i s with thresh := { s.thresh with groups := t.thresh.groups } }) ∧
      ((∃ r ∈ rs, recordOk r = false) → exec i s = .next (refusedEnd i s 0x01 3)) ∧
      ((∀ r ∈ rs, recordOk r = true) → (∃ k, k < argN args 2 ∧ groupBusy s (argN args 1 + k) = true) →
        exec i s = .next (refusedEnd i s 0x02 0)))) ∧
  (∀ h args s, let i := Instr.harvestRun h args
    let d := (hostNums (fetched i s) 4 (arg64 args 1) 12).map w32
    let p := runPartition d
    let ks := runGroups d
    let inside := inWindows s p (ks.flatMap (groupArrays s)) = true ∧ (runCopy d = true → inWindows s p (ks.map (outRange s d)) = true)
    let tree := (tget s.routing.trees {} (runTree d)).valid = true ∧ (tget s.routing.trees {} (runTree d)).partition = p
    accepted i s = true →
    ((thePart s p).state = 2 → exec i s = .next (refusedEnd i s 0x0D 0)) ∧
    ((thePart s p).state ≠ 2 → runOk s d = false → exec i s = .next (refusedEnd i s 0x01 1)) ∧
    ((thePart s p).state ≠ 2 → runOk s d = true →
      (¬inside → exec i s = .next (refusedEnd i s 0x0B 0)) ∧
      (inside → ¬tree → exec i s = .next (refusedEnd i s 0x01 1)) ∧
      (inside → tree → 4 ≤ s.thresh.harvests.length ∨ gradConflict s p ks = true → exec i s = .next (refusedEnd i s 0x02 0)) ∧
      (inside → tree → s.thresh.harvests.length < 4 → gradConflict s p ks = false →
        exec i s = .next (addDetached (refOf i s) .none ((fetched i s).modThresh fun t => { t with harvests := t.harvests ++
          [{ id := runId d, desc := d, b1b2 := ks.map fun k => (k, startPowers s k),
             recs := ks.map fun k => (k, tget s.thresh.groups [] k), redo := [], written := [], witnessed := 0, nonfinite := 0,
             cmd := refOf i s }] }))))) ∧
  (∀ h args s, let i := Instr.harvestAbort h args
    accepted i s = true →
    ((∀ x ∈ s.thresh.harvests, x.id ≠ argN args 1) → exec i s = .next (refusedEnd i s 0x01 1)) ∧
    (∀ x, (s.thresh.harvests.find? fun x => decide (x.id = argN args 1)) = some x →
      exec i s = .next (okEnd i s [] (endHarvest x 0x17 1 (fetched i s))))) ∧
  (∀ h args s, let i := Instr.normPass h args
    let ks := (List.range (argN args 3)).map (argN args 2 + ·)
    let inside := inWindows s (argN args 1) (ks.map fun k => (grpG s k, 4 * grpLen s k)) = true
    accepted i s = true → argN args 1 < 4096 → argN args 2 < 1024 → 1 ≤ argN args 3 → argN args 2 + argN args 3 ≤ 1024 →
    ((thePart s (argN args 1)).state = 2 → exec i s = .next (refusedEnd i s 0x0D 0)) ∧
    ((thePart s (argN args 1)).state ≠ 2 →
      ((∃ k ∈ ks, grpValid s k = false) → exec i s = .next (refusedEnd i s 0x01 2)) ∧
      ((∀ k ∈ ks, grpValid s k = true) →
        (¬inside → exec i s = .next (refusedEnd i s 0x0B 0)) ∧
        (inside → 4 ≤ s.thresh.norms.length ∨ gradConflict s (argN args 1) ks = true → exec i s = .next (refusedEnd i s 0x02 0)) ∧
        (inside → s.thresh.norms.length < 4 → gradConflict s (argN args 1) ks = false →
          exec i s = .next (addDetached (refOf i s) .none ((fetched i s).modThresh fun t => { t with norms := t.norms ++
            [⟨argN args 1, argN args 2, argN args 3, refOf i s⟩] }))))))

/-- What harvest chunks and norm passes come to (R176, R181 to R183, R185). A chunk is computed by a unit in service: after a residue
fault the witness that the faulting unit has then, else which one is free; without one, or where the run, the group or the number is not open,
nothing changes. A chunk written stores its parameters' updates; one where a unit is outvoted is written, and that unit is fenced; one
that nobody can decide ends the run with ARITH_FAULT; an uncorrectable error in an array that the chunk reads ends it with MEM_FAULT.
A parameter whose gradient is not finite is left as it is and counted where SKIP_NONFINITE is set. A norm pass returns SUMSQ, the number
of non-finite gradients and the number of parameters, or MEM_FAULT. HARVEST_CHUNK and NORM_PASS_DONE complete. The model's choices: free
values (log entry 3), rows that do nothing (6), the unit and the witnesses of a chunk (74), RESULT words (75), errors as operands (89),
the groups at the pass's end (161). -/
def Obligations.HarvestRows : Prop :=
  (∀ (id : BitVec 16) (k : Fin 1024) j ev s, openChunk s id.toNat k j = none ∨ (∀ v, v < 64 → unitUp s v = false) →
    exec (.harvestChunk id k j ev) s = .next s) ∧
  (∀ h k j s, (∃ v, v < 64 ∧ unitUp s v = true) → ∃ u, chunkUnit h k j s = some u ∧ unitUp s u = true ∧
    ∀ v w, (h.redo.find? fun e => e.1 == (k, j)) = some ((k, j), v) → (firstRoles s v)[1]? = some w → u = w) ∧
  (∀ (id : BitVec 16) (k : Fin 1024) j s h u, openChunk s id.toNat k j = some h → chunkUnit h k j s = some u →
    let t := s.tookFree
    let wit := winnowed (runWinnow h.desc) j id.toNat && decide (2 ≤ (firstRoles s u).length)
    exec (.harvestChunk id k j .written) s = .next (writeChunk u wit h k j (if wit then bumpUnit u 2 t else t)) ∧
    (∀ w r rest primary, firstRoles s u = u :: w :: r :: rest → winnowed (runWinnow h.desc) j id.toNat = true →
      let v := if primary then u else w
      exec (.harvestChunk id k j (.outvoted primary)) s = .next (settleWinnow (settleFences 64 (fenceUnit v 2 (modUnit v
        (fun x => { x with outvoted := sat (2 ^ 32 - 1) (x.outvoted + 1) }) (writeChunk u true h k j (bumpUnit u 3 t))))))) ∧
    (wit = true → ∃ v, exec (.harvestChunk id k j .unresolved) s = .next (endHarvest h 0x16 0 v) ∧ v.thresh.harvests = s.thresh.harvests) ∧
    ∀ a, inChunk s k j a = true → exec (.harvestChunk id k j (.uncorrectable a)) s =
      .next (endHarvest h 0x09 (memDetail a) (memUE a (runPartition h.desc) none t))) ∧
  (∀ hy w g m v, finite32 g = false → hy.skip = true → updateParam hy w g m v = ⟨w, m, v, g, true⟩) ∧
  (∀ hy w g m v, finite32 g = true ∨ hy.skip = false → (updateParam hy w g m v).nonfinite = false ∧
    (hy.clear = true → (updateParam hy w g m v).g = 0) ∧ (hy.clear = false → (updateParam hy w g m v).g = g)) ∧
  (∀ (n : Fin 4) s m, s.thresh.norms[n.val]? = some m →
    let ks := (List.range m.count).map (m.first + ·)
    let t := cacheAll false (ks.map fun k => (grpG s k, 4 * grpLen s k)) s
    exec (.normPassDone n none) s = .next (endNorm m ⟨0x00, 0, w64 (sumSq t ks) ++
      [w32 (sat (2 ^ 32 - 1) ((ks.map (badGrads t)).sum))] ++ w64 ((ks.map (grpLen t)).sum)⟩ t) ∧
    ∀ a, exec (.normPassDone n (some a)) s = .next (endNorm m ⟨0x09, w32 (memDetail a), []⟩ (memUE a m.partition none s))) ∧
  (∀ (n : Fin 4) ue s, s.thresh.norms[n.val]? = none → exec (.normPassDone n ue) s = .next s)

/-! ### Memory tiers (R188 to R223, R330, R376) -/

/-- The device address map (R190, R191, R193): a Granary offset lies in stack `(o >> 12) mod 8` and in channel `(o >> 15) mod 32`
of it, at address ((o >> 20) << 12) + (o mod 4096) there, and is homed at barn B(2s + (c mod 2)); a Barn store address of granule g in half
h lies in channel 12h + (g mod 12), at ((g div 12) << 12) + (o mod 4096) there, and is homed at B(2j + ((g div 12) mod 2)) with
j = (12h + (g mod 12)) div 3; a Silo address is homed at B(8h + (g mod 8)). -/
def Obligations.HomesOfGranules : Prop :=
  (∀ s da, da < 0x9000000000 → homeBarn s da = 2 * (da / 4096 % 8) + da / 32768 % 32 % 2) ∧
  (∀ o, o < 0x9000000000 → stackOf o = o / 4096 % 8 ∧ chanOf o = o / 32768 % 32 ∧ granAddr o = o / 2 ^ 20 * 4096 + o % 4096 ∧
    o = granAddr o / 4096 * 2 ^ 20 + chanOf o * 2 ^ 15 + stackOf o * 2 ^ 12 + granAddr o % 4096) ∧
  (∀ g r, r < 4096 → bsAddr (4096 * g + r) = 4096 * (g / 12) + r ∧
    4096 * g + r = (bsAddr (4096 * g + r) / 4096 * 12 + g % 12) * 4096 + bsAddr (4096 * g + r) % 4096) ∧
  (∀ s hf g r, 1 ≤ s.mem.bsGib → s.mem.bsGib ≤ 64 → hf < 2 → g < 3 * 2 ^ 20 * s.mem.bsGib → r < 4096 →
    homeBarn s (0x100000000000 + hf * (12 * (s.mem.bsGib * 2 ^ 30)) + 4096 * g + r) =
      2 * ((12 * hf + g % 12) / 3) + g / 12 % 2) ∧
  (∀ s hf g r, hf < 2 → g < 2 ^ 28 → r < 4096 →
    homeBarn s (0x200000000000 + hf * 0x10000000000 + 4096 * g + r) = 8 * hf + g % 8)

/-- The commands that divide and map memory, on arguments in range (R195, R196, R200, R203 to R205, R223): a window, a hint, the
pool's size, a barn's staging and scratchpad cells, BAR2's target and the arbiters' limits take the values given; a window write
or hint write changes no other entry; staging that moves empties the barn's cache; a smaller scratchpad gives up zeroed bytes; a larger
one, up to the whole barn, leaves the cache the lines that still have a place. A window in use from which something is taken, a pool that
holds something, staging while accumulators are held and the whole barn as scratchpad while anything is in it are BUSY. MEM_WINDOW_WRITE,
MEM_POOL, MEM_LOFT, MEM_SCRATCH, MEM_HINT_WRITE, MEM_BAR2_MAP and MEM_ARB_CONFIG complete. The model's choices: the order of the checks and
DETAIL (log entries 18, 19), pending spills as an allocation (53), failing table copies that a write mends (41), the scratchpad's bytes and
the lines that stay (86), the cache as state (87). -/
def Obligations.MemoryMapCommands : Prop :=
  (∀ h args s, let i := Instr.memWindowWrite h args
    let w := windowOfWords args 2
    accepted i s = true → argN args 1 < 1024 →
    (w.valid = true → w.partition ≠ 0 ∧ w.base % 2 ^ 20 = 0 ∧ w.size % 2 ^ 20 = 0 ∧ 2 ^ 20 ≤ w.size ∧ w.base + w.size ≤ poolBase s ∧
      s.mem.granary = .inService ∧ overlapsScrub s w.base w.size = false ∧
      (∀ e ∈ s.mem.windows, e.1 ≠ argN args 1 → e.2.valid = true → overlaps w.base w.size e.2.base e.2.size = false) ∧
      (thePart s w.partition).state = 1 ∧ chargeOf s w.partition 3 + mibs w.size ≤ limitOf (thePart s w.partition) 3) →
    ((theWindow s (argN args 1)).valid = true → (thePart s (theWindow s (argN args 1)).partition).state ≠ 2 ∧
      windowInUse s (theWindow s (argN args 1)) = false) →
    ∃ t, exec i s = .next (okEnd i s [] t) ∧
      (∀ k, theWindow t k = if k = argN args 1 then w else theWindow s k) ∧
      t = { fetched i s with mem := { s.mem with windows := t.mem.windows },
                             routing := { s.routing with parity := t.routing.parity } }) ∧
  (∀ h args s, let i := Instr.memWindowWrite h args
    let w := windowOfWords args 2
    let old := theWindow s (argN args 1)
    accepted i s = true →
    (1024 ≤ argN args 1 → exec i s = .next (refusedEnd i s 0x01 1)) ∧
    (argN args 1 < 1024 → w.valid = true → ∀ st d, windowPlace (fetched i s) (argN args 1) w = some (st, d) →
      exec i s = .next (refusedEnd i s st d)) ∧
    (argN args 1 < 1024 → w.valid = false ∨ windowPlace (fetched i s) (argN args 1) w = none → old.valid = true →
      (thePart s old.partition).state = 2 ∨ windowInUse s old = true ∧ takesFrom old w = true →
      exec i s = .next (refusedEnd i s 0x02 0)) ∧
    (takesFrom old w = true ↔ w.valid = false ∨ w.base ≠ old.base ∨ w.size < old.size ∨ w.partition ≠ old.partition ∨
      (old.rd = true ∧ w.rd = false) ∨ (old.wr = true ∧ w.wr = false)) ∧
    (windowInUse s old = true ↔ ∃ r ∈ heldRanges s, overlaps old.base old.size r.1 r.2 = true)) ∧
  (∀ h args s, let i := Instr.memPool h args
    let range := 8 ≤ argN args 1 ∧ argN args 1 ≤ 256 ∧ argN args 1 % 8 = 0
    let clear := ∀ e ∈ s.mem.windows, e.2.valid = true → e.2.base + e.2.size ≤ 0x9000000000 - argN args 1 * 2 ^ 30
    accepted i s = true →
    (¬range ∨ ¬clear → exec i s = .next (refusedEnd i s 0x01 1)) ∧
    (range → clear → spillWanted s ≠ 0 ∨ (∃ e ∈ s.coll, ctxUsed e.2 = true) → exec i s = .next (refusedEnd i s 0x02 0))) ∧
  (∀ h args s, let i := Instr.memLoft h args
    let n := argN args 2
    let x := theBarn s (argN args 1)
    accepted i s = true →
    (16 ≤ argN args 1 → exec i s = .next (refusedEnd i s 0x01 1)) ∧
    (argN args 1 < 16 → n < 4096 ∨ n % 1024 ≠ 0 ∨ 65536 < n + x.bufCells + x.scratchCells + 4096 →
      exec i s = .next (refusedEnd i s 0x01 2)) ∧
    (argN args 1 < 16 → 4096 ≤ n → n % 1024 = 0 → n + x.bufCells + x.scratchCells + 4096 ≤ 65536 →
      accIn s (argN args 1) = true → exec i s = .next (refusedEnd i s 0x02 0))) ∧
  (∀ h args s, let i := Instr.memScratch h args
    let b := argN args 1
    let n := argN args 2
    let x := theBarn s b
    accepted i s = true →
    (16 ≤ b → exec i s = .next (refusedEnd i s 0x01 1)) ∧
    (b < 16 → n ≠ 0 → n ≠ 65536 → 65536 < n + x.bufCells + x.stageCells + 4096 → exec i s = .next (refusedEnd i s 0x01 2)) ∧
    (b < 16 → n = 65536 → barnPortEnabled s b = true ∨ accIn s b = true ∨ stagedIn s b = true ∨ x.cells ≠ [] →
      exec i s = .next (refusedEnd i s 0x02 0))) ∧
  (∀ h args s, let i := Instr.memPool h args
    accepted i s = true → 8 ≤ argN args 1 → argN args 1 ≤ 256 → argN args 1 % 8 = 0 →
    (∀ e ∈ s.mem.windows, e.2.valid = true → e.2.base + e.2.size ≤ 0x9000000000 - argN args 1 * 2 ^ 30) →
    s.core.spillGib = 0 → pendingSpills s = [] → (∀ e ∈ s.coll, ctxUsed e.2 = false) →
    exec i s = .next (okEnd i s [] ((fetched i s).modMem fun m => { m with poolGib := argN args 1 }))) ∧
  (∀ h args s, let i := Instr.memLoft h args
    let b := argN args 1
    let n := argN args 2
    accepted i s = true → b < 16 → 4096 ≤ n → n % 1024 = 0 →
    n + (theBarn s b).bufCells + (theBarn s b).scratchCells + 4096 ≤ 65536 → accIn s b = false →
    exec i s = .next (okEnd i s [] (modBarn b (fun x =>
      { x with stageCells := n, cache := if n = x.stageCells then x.cache else [] }) (fetched i s)))) ∧
  (∀ h args s, let i := Instr.memScratch h args
    let b := argN args 1
    let n := argN args 2
    let old := (theBarn s b).scratchCells
    let whole := n = 65536 ∧ barnPortEnabled s b = false ∧ accIn s b = false ∧ stagedIn s b = false ∧ (theBarn s b).cells = []
    accepted i s = true → b < 16 → n = 0 ∨ n + (theBarn s b).bufCells + (theBarn s b).stageCells + 4096 ≤ 65536 ∨ whole →
    exec i s = .next (okEnd i s [] (modBarn b (fun x =>
        { x with scratchCells := n, cache := if old < n then fitLines { x with scratchCells := n } else x.cache })
      (if n < old then daZero (0x300000000000 + b * 0x1000000 + n * 256) ((old - n) * 256) (fetched i s) else fetched i s)))) ∧
  (∀ h args s, let i := Instr.memHintWrite h args
    let base := nfld (arg64 args 2) 47 0
    let size := nfld (arg64 args 4) 47 0
    let valid := nfld (arg64 args 2) 63 63 == 1
    accepted i s = true → argN args 1 < 256 →
    (valid = true → base % 2 ^ 20 = 0 ∧ size % 2 ^ 20 = 0 ∧ inOneTier base 0 = true ∧ inOneTier base size = true) →
    ∃ t, exec i s = .next (okEnd i s [] t) ∧
      (∀ k, tget t.mem.hints {} k =
        if k = argN args 1 then ⟨valid, nfld (arg64 args 2) 62 61, base, size⟩ else tget s.mem.hints {} k) ∧
      t = { fetched i s with mem := { s.mem with hints := t.mem.hints },
                             routing := { s.routing with parity := t.routing.parity } }) ∧
  (∀ h args s, let i := Instr.memBar2Map h args
    accepted i s = true →
    (argN args 1 = 0 → arg64 args 2 % bar2Size = 0 → arg64 args 2 + bar2Size ≤ poolBase s →
      exec i s = .next (okEnd i s [] ((fetched i s).modMem fun m => { m with bar2 := some (arg64 args 2) }))) ∧
    (argN args 1 = 1 → exec i s = .next (okEnd i s [] ((fetched i s).modMem fun m => { m with bar2 := none })))) ∧
  (∀ h args s, let i := Instr.memArbConfig h args
    accepted i s = true → 1 ≤ argN args 1 → argN args 1 ≤ 256 → 1 ≤ argN args 2 → argN args 2 ≤ 255 → 2 ≤ argN args 3 →
    argN args 3 ≤ 1000 →
    exec i s = .next (okEnd i s [] ((fetched i s).modMem fun m =>
      { m with burstLimit := argN args 1, waitLimit := argN args 2, wdUs := argN args 3 })))

/-- Moves, heat and service commands (R206, R213, R218, R220, R329). A move whose ranges are populated, aligned and permitted detaches
with at most 16 running; MEM_THERMAL sets the mode and THR; a tier with nothing on it is taken out of service, and one that is held stays
so; a held tier begins to retrain, or channels of held tiers to be margined, both detached; a Silo port that no move touches is
detached, and its port held in reset. What is in the way gives BUSY. The model's choices: the order of the checks and DETAIL (log entries
18, 19), detached ends (22), pending spills (53), the words of MEM_MOVE (79), the numbers of channels (81), holding the Silo or a held tier and
releasing one not held (82), the Silo's return (162). MEM_MOVE, MEM_THERMAL, MEM_HOLD, MEM_RELEASE, MEM_MARGIN and MEM_SILO_DETACH complete. -/
def Obligations.MemoryServiceCommands : Prop :=
  (∀ h args s, let i := Instr.memMove h args
    let p := argN args 1
    let src := arg64 args 2
    let dst := arg64 args 4
    let len := arg64 args 6
    accepted i s = true → p < 4096 → src % 16 = 0 → dst % 16 = 0 → len % 16 = 0 → populated s src len = true →
    populated s dst len = true → argN args 8 ≤ 3 → argN args 9 ≤ 3 →
    ((thePart s p).state = 2 → exec i s = .next (refusedEnd i s 0x0D 0)) ∧
    ((thePart s p).state ≠ 2 → sideOk s p false src len = false ∨ sideOk s p true dst len = false →
      exec i s = .next (refusedEnd i s 0x0B 0)) ∧
    ((thePart s p).state ≠ 2 → sideOk s p false src len = true → sideOk s p true dst len = true →
      (16 ≤ s.mem.moves.length ∨ tierReady s src = false ∨ tierReady s dst = false →
        exec i s = .next (refusedEnd i s 0x02 0)) ∧
      (s.mem.moves.length < 16 → tierReady s src = true → tierReady s dst = true →
        exec i s = .next (addDetached (refOf i s) .none ((fetched i s).modMem fun m => { m with moves := m.moves ++
          [⟨p, src, dst, len, argN args 8, argN args 9, refOf i s⟩] }))))) ∧
  (∀ h args s, let i := Instr.memThermal h args
    accepted i s = true →
    (argN args 1 ≤ 1 → 75 ≤ argN args 2 → argN args 2 ≤ 95 →
      exec i s = .next (okEnd i s [] ((fetched i s).modMem fun m => { m with forerunner := argN args 1 == 1, thr := argN args 2 }))) ∧
    (1 < argN args 1 → exec i s = .next (refusedEnd i s 0x01 1)) ∧
    (argN args 1 ≤ 1 → argN args 2 < 75 ∨ 95 < argN args 2 → exec i s = .next (refusedEnd i s 0x01 2))) ∧
  (∀ h args s, let i := Instr.memHold h args
    let clear := (∀ e ∈ s.link.ports, e.2.configured = true → e.2.enabled = false) ∧ (∀ e ∈ s.mem.windows, e.2.valid = false) ∧
      spillWanted s = 0 ∧ (∀ e ∈ s.coll, ctxUsed e.2 = false)
    accepted i s = true →
    (argN args 1 = 0 →
      (s.mem.granary = .held → exec i s = .next (okEnd i s [] (fetched i s))) ∧
      (s.mem.granary = .inService → clear →
        exec i s = .next (okEnd i s [] ((fetched i s).modMem fun m => { m with granary := .held }))) ∧
      (s.mem.granary ≠ .held → s.mem.granary ≠ .inService ∨ ¬clear → exec i s = .next (refusedEnd i s 0x02 0))) ∧
    (argN args 1 = 1 →
      (s.mem.barnStore = .held → exec i s = .next (okEnd i s [] (fetched i s))) ∧
      (s.mem.barnStore = .inService → moveTouches s 1 = false →
        exec i s = .next (okEnd i s [] ((fetched i s).modMem fun m => { m with barnStore := .held }))) ∧
      (s.mem.barnStore ≠ .held → s.mem.barnStore ≠ .inService ∨ moveTouches s 1 = true → exec i s = .next (refusedEnd i s 0x02 0))) ∧
    (argN args 1 = 2 → exec i s = .next (refusedEnd i s 0x02 0)) ∧
    (2 < argN args 1 → exec i s = .next (refusedEnd i s 0x01 1))) ∧
  (∀ h args s, let i := Instr.memRelease h args
    accepted i s = true →
    (2 ≤ argN args 1 → exec i s = .next (refusedEnd i s 0x01 1)) ∧
    (argN args 1 < 2 → tierState s (argN args 1) = .releasing ∨ s.mem.marginCmd ≠ none → exec i s = .next (refusedEnd i s 0x02 0)) ∧
    (argN args 1 < 2 → tierState s (argN args 1) ≠ .releasing → s.mem.marginCmd = none →
      (tierState s (argN args 1) ≠ .held → exec i s = .next (refusedEnd i s 0x01 1)) ∧
      (tierState s (argN args 1) = .held →
        exec i s = .next (addDetached (refOf i s) .none ((setTier (argN args 1) .releasing (fetched i s)).modMem fun m =>
          { m with releaseCmds := m.releaseCmds ++ [(argN args 1, refOf i s)] }))))) ∧
  (∀ h args s, let i := Instr.memMargin h args
    let n := argN args 2
    let held := (argN args 1 < 256 → s.mem.granary = .held) ∧ (256 < argN args 1 + n → s.mem.barnStore = .held) ∧ s.mem.marginCmd = none
    accepted i s = true →
    (280 ≤ argN args 1 → exec i s = .next (refusedEnd i s 0x01 1)) ∧
    (argN args 1 < 280 → n < 1 ∨ 280 < argN args 1 + n → exec i s = .next (refusedEnd i s 0x01 2)) ∧
    (1 ≤ n → argN args 1 + n ≤ 280 →
      (held → exec i s = .next (addDetached (refOf i s) .none ((fetched i s).modMem fun m =>
        { m with marginCmd := some (refOf i s), marginAddr := arg64 args 3, marginFirst := argN args 1, marginCount := n }))) ∧
      (¬held → exec i s = .next (refusedEnd i s 0x02 0)))) ∧
  (∀ h args s, let i := Instr.memSiloDetach h args
    let c := argN args 1
    let touched := ∃ m ∈ s.mem.moves, inSilo c m.src m.len = true ∨ inSilo c m.dst m.len = true
    accepted i s = true →
    (2 ≤ c → exec i s = .next (refusedEnd i s 0x01 1)) ∧
    (c < 2 → touched → exec i s = .next (refusedEnd i s 0x02 0)) ∧
    (c < 2 → ¬touched → exec i s = .next (okEnd i s [] (modSilo c (fun x => { x with up := false, detached := true }) (fetched i s)))))

/-- BAR2, moves and the tiers' own events (R205, R206, R208, R211, R213, R217 to R221, R330, R376). A write that a ready Granary
target takes is stored; one that nothing takes is discarded and counted; a read answers its bytes or Unsupported Request, and Completer
Abort where its data are uncorrectable. A move that ends copies its source to its destination, one that meets an uncorrectable error ends
with MEM_FAULT. A burst boundary grants the channel of an idle request set to HEARTH alone, and of others to one requester whose WAIT
falls to 0. A watchdog acts once a grant has lasted WD_US: it takes the grant away, counts, captures and reports it, and resets the
requester's work. A temperature sets its source's level. A correction is counted where it is made. A half that is ready brings a tier in
training into service, zeroed, and, 100 ms later, a Silo link up; a Silo link that fails goes down, counted and reported. The records of a
margining are written, and all must pass; a tier released is in service again; a scrub zeroes the next granule of the first retirement. The
model's choices: log entries 6, 80 (failed moves), 81 (numbers), 83 (levels), 84 (the watchdog's work and report), 85 (corrections), 86, 88,
89 (errors as operands), 114, 115 (the scrub's row), 162. BAR2_WRITE, BAR2_READ,
MEM_MOVE_DONE, BURST_BOUNDARY, CHAN_WATCHDOG, STACK_THERMAL_READ, PATROL_SCRUB, GRANARY_IN_SERVICE, SILO_LINK_FAIL, SILO_LINK_UP,
MEM_MARGIN_DONE, MEM_RELEASE_DONE and SCRUB_GRANULE complete. -/
def Obligations.MemoryRows : Prop :=
  (∀ (off : Fin 268435456) bytes s o, off.val + bytes.length ≤ bar2Size → s.mem.bar2 = some o →
    (bar2Ready s = true → exec (.bar2Write off bytes) s = .next (daWrite (o + off.val) bytes s)) ∧
    (bar2Ready s = false → exec (.bar2Write off bytes) s = .next (bump (ctr 0x14 0 7) s))) ∧
  (∀ (off : Fin 268435456) bytes s, off.val + bytes.length ≤ bar2Size → s.mem.bar2 = none →
    let u := ((List.range bytes.length).filter fun k => inScratch s (off.val + k)).foldl (fun s k =>
      daWrite (0x300000000000 + off.val + k) [bytes.getD k 0] s) s
    exec (.bar2Write off bytes) s = .next (if ∀ k, k < bytes.length → inScratch s (off.val + k) = true then u else bump (ctr 0x14 0 7) u)) ∧
  (∀ (off : Fin 268435456) n s, off.val + n ≤ bar2Size → s.mem.bar2 = none →
    ((∀ k, k < n → inScratch s (off.val + k) = true) →
      exec (.bar2Read off n false) s = .next (emit (.readData (daRead s (0x300000000000 + off.val) n)) s)) ∧
    ((∀ k, k < n → inScratch s (off.val + k) = true) →
      exec (.bar2Read off n true) s = .next (emit .completerAbort (memUE (0x300000000000 + off.val) 0 none s))) ∧
    ((∃ k, k < n ∧ inScratch s (off.val + k) = false) → ∀ ue, exec (.bar2Read off n ue) s = .next (emit .unsupported s))) ∧
  (∀ (off : Fin 268435456) n ue s o, off.val + n ≤ bar2Size → s.mem.bar2 = some o →
    (bar2Ready s = false → exec (.bar2Read off n ue) s = .next (emit .unsupported s)) ∧
    (bar2Ready s = true → ue = false → exec (.bar2Read off n ue) s = .next (emit (.readData (daRead s (o + off.val) n)) s)) ∧
    (bar2Ready s = true → ue = true → exec (.bar2Read off n ue) s = .next (emit .completerAbort (memUE (o + off.val) 0 none s)))) ∧
  (∀ (k : Fin 16) s m, s.mem.moves[k.val]? = some m →
    exec (.memMoveDone k none) s = .next (endMove m 0x00 0 (copyMove m s)) ∧
    (∀ a, m.src ≤ a → a < m.src + m.len → exec (.memMoveDone k (some a)) s =
      .next (endMove m 0x09 (memDetail a) (memUE a m.partition none (partMove m (some a) s))))) ∧
  (∀ (ch : Fin 282) (rq : BitVec 11) s,
    let reqs := (List.range 10).filter fun r => rq.getLsbD r && (decide (ch.val < 256) || decide (8 ≤ r))
    (reqs = [] → exec (.burstBoundary ch rq) s =
      .next (modArb ch (fun a => { a with owner := if rq.getLsbD 10 then some 10 else none, since := s.time.now }) s)) ∧
    (reqs ≠ [] → ∃ t p, exec (.burstBoundary ch rq) s = .next t ∧ p ∈ reqs ∧ (theArb t ch).owner = some p ∧
      (theArb t ch).since = s.time.now ∧ (theArb t ch).ptr = p ∧ tget (theArb t ch).wait 0 p = 0 ∧
      (∀ r ∈ reqs, r ≠ p → tget (theArb t ch).wait 0 r = tget (theArb s ch).wait 0 r + 1) ∧
      (∀ r, r ∉ reqs → tget (theArb t ch).wait 0 r = tget (theArb s ch).wait 0 r) ∧
      ((∃ r ∈ reqs, s.mem.waitLimit ≤ tget (theArb s ch).wait 0 r) → s.mem.waitLimit ≤ tget (theArb s ch).wait 0 p) ∧
      t = { s with mem := { s.mem with arbs := t.mem.arbs } })) ∧
  (∀ (ch : Fin 282) work rf s, (theArb s ch).owner = none ∨ s.time.now < (theArb s ch).since + usU s.mem.wdUs →
    exec (.chanWatchdog ch ⟨work, rf⟩) s = .next s) ∧
  (∀ (ch : Fin 282) work rf s r, (theArb s ch).owner = some r → (theArb s ch).since + usU s.mem.wdUs ≤ s.time.now →
    let place := if ch.val < 256 then ch.val / 32 else if ch.val < 280 then ch.val - 256 else ch.val - 280
    let half := if ch.val < 256 then ch.val / 128 else if ch.val < 280 then (ch.val - 256) / 12 else ch.val - 280
    let counter := if ch.val < 256 then ctr 0x0D (ch.val / 32) 3 else
      if ch.val < 280 then ctr 0x0E ((ch.val - 256) / 12) 2 else ctr 0x0E (ch.val - 280) 8
    let t := bump counter (modSrc (if ch.val < 256 then ch.val / 32 else ch.val - 248)
      (fun x => { x with wdFires := min 65535 (x.wdFires + 1) }) (modArb ch (fun a => { a with owner := none }) s))
    exec (.chanWatchdog ch ⟨work, rf⟩) s = .next (watchdogWork ch r work rf (report { faultAt 0x0801 1 half place r with
      detail := [w32 (if ch.val < 256 then ch.val % 32 else 0)] } (capture 16 (place * 256 + r) t)))) ∧
  (∀ ch rf s, (∀ r w, r < 8 → watchdogWork ch r (.unit w) rf s = residueFault (8 * (ch / 32) + r) w rf s) ∧
    (∀ b pid, watchdogWork ch 8 (.spill b pid) rf s = if rf then loseSpilled b pid s else s) ∧
    (∀ k m, s.mem.moves[Fin.val (n := 16) k]? = some m → watchdogWork ch 9 (.move k) true s =
      endMove m 0x09 (memDetail (chanSide ch m)) (partMove m none s)) ∧
    (∀ p, watchdogWork ch 9 (.remote p) true s = atSink p (bump (wdCounter ch)) s) ∧
    (∀ c g o w, openOf (theCtx s (Fin.val (n := 4096) c)) g = some o → (rolesOf s o.unit o.faulty)[1]? = some w →
      watchdogWork ch 9 (.witness c g) true s = settleWinnow (residueWinnow w c g s)) ∧
    (∀ w, watchdogWork ch 9 w false s = s) ∧ watchdogWork ch 10 .bar2 rf s = emit .completerAbort s ∧
    (∀ n a c, s.mem.marginCmd = some c → c.serial = n → watchdogWork ch 10 (.command n a) rf s =
      endWith c 0x09 (memDetail a) (s.modMem fun m => { m with marginCmd := none })) ∧
    (∀ n a d, s.mem.marginCmd = none → (s.hearth.detached.find? fun d => d.cmd.serial == n && hearthWork d.work) = some d →
      watchdogWork ch 10 (.command n a) rf s = endWith d.cmd 0x09 (memDetail a) s)) ∧
  (∀ (k : Fin 32) temp s, let new := levelAt (thermalLimits s k) (theSrc s k).level temp
    ∃ t, exec (.stackThermalRead k temp) s = .next t ∧ (theSrc t k).level = new ∧ (theSrc t k).temp = min 255 temp ∧
      (new = (theSrc s k).level → t = modSrc k (fun x => { x with temp := min 255 temp, level := new }) s) ∧
      t.mem.bytes = s.mem.bytes) ∧
  (∀ x s, exec (.patrolScrub x false) s = .next s) ∧
  (∀ a s, tierReady s a = false → exec (.patrolScrub (.patrol a) true) s = .next s ∧ exec (.patrolScrub (.read a) true) s = .next s) ∧
  (∀ a s, tierOf a = some 0 → s.mem.granary = .inService → let t := bump (ctr 0x0D (memPlace s a).2.1 0) s
    exec (.patrolScrub (.patrol a) true) s = .next (corrected a (bump (ctr 0x0D (memPlace s a).2.1 9) t)) ∧
    exec (.patrolScrub (.read a) true) s = .next (corrected a t)) ∧
  (∀ a s, tierOf a = some 1 → s.mem.barnStore = .inService → let t := bump (ctr 0x0E (memPlace s a).1 0) s
    exec (.patrolScrub (.patrol a) true) s = .next (corrected a t) ∧ exec (.patrolScrub (.read a) true) s = .next (corrected a t)) ∧
  (∀ (b : Fin 16) (l : Fin 1024) s, exec (.patrolScrub (.loft b) true) s = .next (bump (ctr 1 b 21) s) ∧
    exec (.patrolScrub (.retryBuf l) true) s = .next (bump (ctr 8 (barnOf l) 11) s) ∧
    exec (.patrolScrub .sram true) s = .next (bump (ctr 0x14 0 5) s)) ∧
  (∀ s, halfReady s 0 = true → halfReady s 1 = true → s.mem.barnStore = .training →
    exec (.granaryInService true none) s = .next (setTier 1 .inService (daZero 0x100000000000 0x018000000000 s))) ∧
  (∀ s, halfReady s 0 = true → halfReady s 1 = true → s.mem.granary = .training →
    ∃ t, exec (.granaryInService false none) s = .next t ∧ t.mem.granary = .inService ∧
      t.mem.bytes = memZero s.mem.bytes 0 0x9000000000) ∧
  (∀ (c : Fin 2) s, (theSilo s c).up = true →
    exec (.siloLinkFail c) s = .next (report (faultAt 0x0802 2 c c 0) (bump (ctr 0x0E c 7) (siloDown c s)))) ∧
  (∀ (c : Fin 2) n s,
    let out := halfReady s c = true ∧ (if c = 0 then s.power.readyAt0 else s.power.readyAt1) + 100000000000 ≤ s.time.hearthPs
    (out → n ≤ 2 ^ 40 → exec (.siloLinkUp c n) s =
      .next (modSilo c (fun x => { x with up := true, detached := false, capacity := n }) s)) ∧
    (¬out → exec (.siloLinkUp c n) s = .next s)) ∧
  (∀ (c : Fin 2) s, siloDown c s = (s.mem.moves.filter fun m => inSilo c m.src m.len || inSilo c m.dst m.len).foldl
    (fun s m => failMove m (siloSide c m) s) (modSilo c (fun x => { x with up := false }) s)) ∧
  (∀ s c rs, s.mem.marginCmd = some c → rs.length = 8 * s.mem.marginCount → exec (.memMarginDone rs) s = .next (endWith c
    (if rs.all fun w => decide (12 ≤ fld w 31 24 + fld w 23 16) && decide (8 ≤ fld w 15 8 + fld w 7 0) then 0x00 else 0x0A) 0
    (hostWrite s.mem.marginAddr (wordsLe rs) (s.modMem fun m => { m with marginCmd := none })))) ∧
  (∀ (t : Fin 3) s e, (s.mem.releaseCmds.find? fun e => e.1 == t.val) = some e → exec (.memReleaseDone t) s =
    .next (endWith e.2 0x00 0 ((setTier t .inService s).modMem fun m =>
      { m with releaseCmds := m.releaseCmds.filter fun x => x.1 != t.val }))) ∧
  (∀ s, s.jobs.retiring = [] → exec .scrubGranule s = .next s) ∧
  (∀ s r k x half, let u := settleRetirements s
    u.mem.granary = .inService → (u.jobs.retiring.find? fun r => r.cmd.isNone) = some r →
    (r.ranges.findIdx? fun x => !scrubbed x) = some k → r.ranges[k]? = some x → scrubHalf u x = some half →
    let y : ScrubRange := if half = 0 then { x with done0 := x.done0 + 1 } else { x with done1 := x.done1 + 1 }
    let r' := { r with ranges := r.ranges.set k y }
    exec .scrubGranule s = .next (settleRetire r' (scrubOne x half (u.modJobs fun j =>
      { j with retiring := j.retiring.map fun z => if z.partition = r.partition then r' else z }))))

/-! ### Optical ports: calibration, lanes and the Kiln (R224 to R245) -/

/-- The optical commands (R228, R229, R235, R237, R245). CAL_CONFIG takes a period of 60 to 900 s from the next sweep on and the
enable at once, else BAD_ARGUMENT for the first wrong word; enable 0 drops the slices that wait, unless a command asked for them. CAL_LANE
begins a slice on a lane and detaches; it is BUSY while a slice is in progress in the barn. LANE_BANK asks for the withdrawal of a lane that
serves and holds its ring until the lane is idle; a lane DOWN or TRAINING is banked at once; a BANKED one stays so. LANE_UNBANK of a BANKED
lane starts its recovery and detaches; it is BUSY while the lane recovers. KILN_SWAP of a working laser takes the lowest free spare of its
half and holds its ring until the swap ends; it is BUSY while a swap runs in the half, and NO_SPARE with the half as DETAIL where no spare is
free. A lane or laser out of range, a lane lent to a circuit and a laser that is not working are BAD_ARGUMENT. CAL_CONFIG, CAL_LANE,
LANE_BANK, LANE_UNBANK and KILN_SWAP complete. The model's choices: the order of the checks and DETAIL (log entries 18, 19), what detaches (22)
and what holds its ring (23), LANE_BANK of a lane that does not serve (91), withdrawals (92), a slice or a swap that waits is joined (93, 95),
the period and enable 0 (94). -/
def Obligations.OpticalCommands : Prop :=
  (∀ h args s, let i := Instr.calConfig h args
    let now := sweepNow s
    accepted i s = true →
    (60 ≤ argN args 1 → argN args 1 ≤ 900 → argN args 2 ≤ 1 →
      exec i s = .next (okEnd i s [] ((fetched i s).modOptics fun o =>
        { o with sweepS := now, calEnable := argN args 2 == 1,
                 sweepPend := if argN args 1 = now then none
                   else some (argN args 1, secU ((secOf s.time.now / now + 1) * now)),
                 slices := if argN args 2 = 1 then o.slices else o.slices.filter fun e => !e.2.waits || e.2.cmds != [] }))) ∧
    (argN args 1 < 60 ∨ 900 < argN args 1 → exec i s = .next (refusedEnd i s 0x01 1)) ∧
    (60 ≤ argN args 1 → argN args 1 ≤ 900 → 1 < argN args 2 → exec i s = .next (refusedEnd i s 0x01 2))) ∧
  (∀ h args test s, let i := Instr.calLane h args test
    let l := argN args 1
    let busy : Prop := ∃ e ∈ s.optics.slices, e.1 = barnOf l ∧ e.2.waits = false
    accepted i s = true →
    (1024 ≤ l ∨ laneState s l = .flue → exec i s = .next (refusedEnd i s 0x01 1)) ∧
    (l < 1024 → laneState s l ≠ .flue → busy → exec i s = .next (refusedEnd i s 0x02 0)) ∧
    (l < 1024 → laneState s l ≠ .flue → ¬busy → (∃ e ∈ s.optics.slices, e.2.lane = l) →
      exec i s = .next ((addDetached (refOf i s) .none (fetched i s)).modOptics fun o => { o with slices := o.slices.map fun e =>
        if e.2.lane = l then (e.1, { e.2 with cmds := e.2.cmds ++ [refOf i s] }) else e })) ∧
    (l < 1024 → laneState s l ≠ .flue → ¬busy → (∀ e ∈ s.optics.slices, e.2.lane ≠ l) →
      exec i s = .next (beginSlice (barnOf l) ⟨l, false, some test, [refOf i s]⟩
        (addDetached (refOf i s) .none (fetched i s))))) ∧
  (∀ h args s, let i := Instr.laneBank h args
    let l := argN args 1
    accepted i s = true →
    (1024 ≤ l ∨ laneState s l = .flue → exec i s = .next (refusedEnd i s 0x01 1)) ∧
    (l < 1024 → laneState s l = .inService ∨ laneState s l = .withdrawn → exec i s = .next (settleIdle l (askWithdraw l .force
      (modLaneOpt l (fun o => { o with bankCmd := some (refOf i s) }) (addDetached (refOf i s) .none (fetched i s)))))) ∧
    (l < 1024 → laneState s l = .banked → exec i s = .next (okEnd i s [] (fetched i s))) ∧
    (l < 1024 → laneState s l = .down ∨ laneState s l = .training →
      exec i s = .next (okEnd i s [] (bankLane l 5 (fetched i s))))) ∧
  (∀ h args s, let i := Instr.laneUnbank h args
    let l := argN args 1
    accepted i s = true →
    (1024 ≤ l ∨ laneState s l ≠ .banked → exec i s = .next (refusedEnd i s 0x01 1)) ∧
    (l < 1024 → laneState s l = .banked → (laneOpt s l).recovering = true → exec i s = .next (refusedEnd i s 0x02 0)) ∧
    (l < 1024 → laneState s l = .banked → (laneOpt s l).recovering = false →
      exec i s = .next (addDetached (refOf i s) .none (modLaneOpt l (fun o =>
        { o with recovering := true, lockFails := 0, excluded := [], unbankCmd := some (refOf i s) }) (fetched i s))))) ∧
  (∀ h args s, let i := Instr.kilnSwap h args
    let k := argN args 1
    let running : Prop := ∃ e ∈ s.optics.swaps, e.1 = laserHalf k ∧ e.2.spare ≠ 127 ∧ e.2.started = true
    let works : Prop := working s k = true ∨ running ∧ (theLaser s k).state = 3
    accepted i s = true →
    (80 ≤ k ∨ ¬works → exec i s = .next (refusedEnd i s 0x01 1)) ∧
    (k < 80 → works → running → exec i s = .next (refusedEnd i s 0x02 0)) ∧
    (k < 80 → works → ¬running → (∃ e ∈ s.optics.swaps, e.2.laser = k ∧ e.2.started = false) →
      exec i s = .next ((addDetached (refOf i s) .none (fetched i s)).modOptics fun o => { o with swaps := o.swaps.map fun e =>
        if e.2.laser = k ∧ !e.2.started then (e.1, { e.2 with cmds := e.2.cmds ++ [refOf i s] }) else e })) ∧
    (k < 80 → works → ¬running → (∀ e ∈ s.optics.swaps, e.2.laser = k → e.2.started = true) →
      (freeSpare s (laserHalf k) = none → exec i s = .next (refusedEnd i s 0x18 (laserHalf k))) ∧
      (∀ sp, freeSpare s (laserHalf k) = some sp →
        exec i s = .next (queueSwap k sp [refOf i s] (addDetached (refOf i s) .none (fetched i s))))))

/-- Slices, rings and the Kiln at work (R226, R228, R229, R231, R235 to R237, R239, R240, R269). Slice j of barn b begins in the
reference cycle in which device time reaches its instant of the sweep, once a sweep, on lane 64·b + 8·(j mod 8) + j div 8, with calibration
enabled and no slice of the barn in progress; at another time the row changes nothing. A lane that serves and loses lock is banked with
LOCK_LOST and recovers. A reading of a lit laser enters its mean; at −6 dB or below the laser fails. The oldest pending swap of a half
begins unless a swap runs in the half or a slice is in progress in the barns it serves. A retraining counts only with two markers of the
lane each way and restores the lane only with the far end's DONE: a recovering lane returns on a resonance not tried before, its third
failure is reported with the ring; a slice that passes its tests completes, one that fails them banks the lane; a lane in training joins
service, its third failure in a row makes it train fully. CAL_SLICE_START, LOCK_LOST, LASER_READING, KILN_SWAP_START and SHORT_RETRAIN
complete. The model's choices: rows that do nothing (log entry 6), the fade and its rounding (90), what ends a retraining and which ring is
named (93), the cycle of a slice's instant, once a sweep (94), swaps (95), lost locks of lanes that do not serve (97). -/
def Obligations.OpticalRows : Prop :=
  (∀ (b : Fin 16) (j : Fin 64) t s, let l := 64 * b.val + 8 * (j.val % 8) + j.val / 8
    let turn : Prop := sliceNow s b j = true ∧ tget s.optics.lastSlice 0 (64 * b.val + j.val) ≠ sweepNo s + 1
    let m := s.modOptics fun o => { o with lastSlice := tset o.lastSlice 0 (64 * b.val + j.val) (sweepNo s + 1) }
    (sliceNow s b j = true ↔ let a := secU (sweepNo s * sweepNow s) + secU (sweepNow s) / 1024 * b.val + secU (sweepNow s) / 64 * j.val
      s.time.stepped ≤ a ∧ a ≤ s.time.now ∧ s.time.now < a + 1639) ∧
    (¬turn → exec (.calSliceStart b j t) s = .next s) ∧
    (turn → s.optics.calEnable = false ∨ barnUp m b = false → exec (.calSliceStart b j t) s = .next (overdue l m)) ∧
    (turn → s.optics.calEnable = true → barnUp m b = true →
      let v := if j.val = 0 ∧ b.val % 8 = 0 then testSpares b t.spareFails m else m
      let busy : Prop := ∃ e ∈ v.optics.slices, e.1 = b.val ∧ (e.2.waits = false ∨ e.2.lane = l)
      (busy → exec (.calSliceStart b j t) s = .next (overdue l v)) ∧
      (¬busy → exec (.calSliceStart b j t) s = .next (overdue l (beginSlice b ⟨l, false, some t, []⟩ v))))) ∧
  (∀ (l : Fin 1024) rx s,
    (laneState s l = .inService ∨ laneState s l = .withdrawn → exec (.lockLost ⟨l, rx⟩) s = .next (wrongLock l 2 rx s)) ∧
    (laneState s l ≠ .inService → laneState s l ≠ .withdrawn → exec (.lockLost ⟨l, rx⟩) s = .next s)) ∧
  (∀ (k : Fin 80) r s,
    ((theLaser s k).state ≠ 1 → (theLaser s k).state ≠ 2 → (theLaser s k).state ≠ 3 → exec (.laserReading k r) s = .next s) ∧
    ((theLaser s k).state = 1 ∨ (theLaser s k).state = 2 ∨ (theLaser s k).state = 3 →
      let v := r - calGet s 4 k
      let old := (theLaser s k).readings
      let rs := lastN 16 (old ++ [v])
      ∃ t m, (theLaser t k).readings = rs ∧ (theLaser t k).fade = clampI (-32768) 32767 m ∧
        rs.sum < (rs.length : Int) * (m + 1) ∧ (rs.length : Int) * (m - 1) < rs.sum ∧
        (rs.sum % (rs.length : Int) = 0 → rs.sum = (rs.length : Int) * m) ∧
        t = { s with optics := { s.optics with lasers := t.optics.lasers }, free := t.free } ∧
        (-600 < v → exec (.laserReading k r) s = .next (if (theLaser s k).state = 3 then t else actOnFade k old rs t)) ∧
        (v ≤ -600 → (theLaser s k).state ≠ 3 ∨ (∀ e ∈ s.optics.swaps, e.2.started = true → e.2.spare ≠ k.val) →
          exec (.laserReading k r) s = .next (laserFails k t)) ∧
        (∀ h w, v ≤ -600 → (theLaser s k).state = 3 → (s.optics.swaps.find? fun e => e.2.started && e.2.spare == k.val) = some (h, w) →
          exec (.laserReading k r) s = .next (spareFails h w t)))) ∧
  (∀ (f : Fin 2) s,
    ((∃ e ∈ s.optics.swaps, e.1 = f.val ∧ e.2.started = true ∧ e.2.spare ≠ 127) → exec (.kilnSwapStart f) s = .next s) ∧
    ((∀ e ∈ s.optics.swaps, e.1 = f.val → e.2.started = true ∧ e.2.spare = 127) → exec (.kilnSwapStart f) s = .next s) ∧
    (∀ e, (∀ x ∈ s.optics.swaps, x.1 = f.val → x.2.started = true → x.2.spare = 127) →
      (s.optics.swaps.find? fun x => x.1 == f.val && !x.2.started) = some e →
      ((∃ x ∈ s.optics.slices, x.2.waits = false ∧ x.1 / 2 = laserGroup s e.2.laser) → exec (.kilnSwapStart f) s = .next s) ∧
      ((∀ x ∈ s.optics.slices, x.2.waits = false → x.1 / 2 ≠ laserGroup s e.2.laser) →
        exec (.kilnSwapStart f) s = .next (startSwap f e.2 (bump (ctr 0x10 (laserHalf e.2.laser) 1) s))))) ∧
  (∀ (l : Fin 1024) r matched res s,
    let ends := Instr.shortRetrain l ⟨r, matched⟩ res
    let k := sayCap l true (modLaneLink l (fun x => { x with txDone := true, rxDone := matched }) s)
    let tried := if (laneOpt s l).excluded.contains res then (laneOpt s l).excluded else (laneOpt s l).excluded ++ [res]
    (retrains s l = false ∨ checkEnded r = false → exec ends s = .next s) ∧
    (retrains s l = true → checkEnded r = true → retrainOk r = true → matched = false → laneState s l ≠ .withdrawn →
      exec ends s = .next k) ∧
    (laneState s l = .banked → (laneOpt s l).recovering = true → checkEnded r = true →
      (retrainOk r = true → matched = true → res ∉ (laneOpt s l).excluded →
        exec ends s = .next (endCmd (laneOpt s l).unbankCmd
          (restoreLane l (modLaneOpt l (fun o => { o with unbankCmd := none }) k)))) ∧
      (retrainOk r = false ∨ matched = true ∧ res ∈ (laneOpt s l).excluded →
        let f := modLaneOpt l (fun o => { o with lockFails := o.lockFails + 1, excluded := tried })
          (match r with
            | .failed rx => modLaneOpt l (fun o => { o with rxRing := rx }) k
            | _ => k)
        ((laneOpt s l).lockFails < 2 → exec ends s = .next f) ∧
        (2 ≤ (laneOpt s l).lockFails →
          let g := report { laneFault 0x0904 2 l with detail := w32 (bit (laneOpt f l).rxRing) :: tried.map w32 }
            (modLaneOpt l (fun o => { o with recovering := false, unbankCmd := none }) f)
          (∀ c, (laneOpt s l).unbankCmd = some c → exec ends s = .next (endWith c 0x0A 0 g)) ∧
          ((laneOpt s l).unbankCmd = none → exec ends s = .next g)))) ∧
    (∀ b x, laneState s l = .withdrawn → laneIdle s l = true → sliceOn s l = some (b, x) → checkEnded r = true →
      let u := match x.test with
        | some t => barnRef b t.barnRef k
        | none => k
      (0 < sliceFails x → exec ends s = .next (report (laneFault 0x0904 2 l) (bankLane l 3 (bumpBy (ctr 8 b 18) (sliceFails x) u)))) ∧
      (sliceFails x = 0 → retrainOk r = true → matched = false → exec ends s = .next k) ∧
      (sliceFails x = 0 → retrainOk r = true → matched = true → exec ends s = .next (endSlice l 0 (joinService l (setSwing l
        (bumpLink l 13 (modLaneOpt l (fun o => { o with lastCal := secOf u.time.now % 65536, calAt := u.time.now }) u)))))) ∧
      (sliceFails x = 0 → retrainOk r = false → exec ends s = .next (wrongLock l 1 (retrainRx r) u))) ∧
    (retrains s l = true → laneState s l = .training ∨ laneState s l = .withdrawn ∧ sliceOn s l = none ∧ swapOn s l = none →
      (∀ a b, r = .trained a b → 2 ≤ a → 2 ≤ b → exec ends s = .next (if matched then endLaneCmds l (joinService l k) else k)) ∧
      (r = .wrongIdentity → exec ends s = .next (wrongLock l 1 true k)) ∧
      (∀ rx, r = .failed rx → (laneLink s l).shortFails < 2 →
        exec ends s = .next (modLaneLink l (fun x => { x with shortFails := x.shortFails + 1 }) k)) ∧
      (∀ rx, r = .failed rx → 2 ≤ (laneLink s l).shortFails → laneState s l = .training →
        exec ends s = .next (modLaneLink l (fun x => { x with shortFails := 0, trainStep := 0 }) k))))

/-! ### Links (R246 to R274, R336) -/

/-- A flit slot (R251, R252, R256, R257, R260, R263, R270, R377). A lane that serves no link, or has stopped, takes nothing. A slot of an
uncorrectable codeword pair is an error; a flit whose CRC-32 fails is counted and is an error; one whose LANE_TAG differs from the
learned one is a wrong lock. Otherwise the ACK, the NAK bit and the credit of the flit are taken up, in that order; a DATA flit is
accepted if its SEQ is the next one, which ends a NAK, and its bytes join the packet; the messages of a CONTROL flit in order are
acted on one by one; a sequenced flit out of order is an error; a MARKER gives the far end's ID unless its identity differs; a TIME
flit is stamped; every other type ends there. A replay whose retry buffer reads with an uncorrectable error is none: the packet is
counted, reported and not sent again, and the lane leaves service. An error sets NAK once. An acknowledgement within the outstanding flits releases the
packets whose last flit it covers, and a later cumulative limit replaces an earlier one. Corrected codewords are counted. FLIT_RX completes.
The model's choices: rows that do nothing (log entry 6), errors as operands (89, 98), pairs and older limits (98), wrong locks (97). -/
def Obligations.FlitReception : Prop :=
  (∀ (l : Fin 1024) (bytes : List Byte) unc s, bytes.length = 256 →
    (portOfLane s l = none ∨ sends s l = false → exec (.flitRx l bytes unc) s = .next s)) ∧
  (∀ (l : Fin 1024) (bytes : List Byte) s p, bytes.length = 256 → portOfLane s l = some p → sends s l = true →
    let w0 := flitWord bytes 0
    let good := crc32 (bytes.take 252) == ofBe (bytes.drop 252)
    let slot := modLaneLink l (fun k => { k with rxPos := k.rxPos + 1 }) s
    let r (n : Nat) := bumpBy (ctr 8 (barnOf l) 0) n slot
    let seen (n : Nat) := modLaneLink l (fun k => { k with seenTag := fld w0 3 0 }) (r n)
    exec (.flitRx l bytes .uncorrectable) s = .next (nakError l (modLaneLink l (fun k => { k with rxPos := k.rxPos + 1 }) (badPair l s))) ∧
    (∀ n, good = false → let fails := bump (ctr 8 (barnOf l) 2) (r n)
      exec (.flitRx l bytes (.clean n)) s = .next (nakError l (if fld w0 31 29 = 4 then bumpIn (barnOf l) 19 fails else fails))) ∧
    (∀ n t, good = true → (laneLink s l).farTag = some t → t ≠ fld w0 3 0 →
      exec (.flitRx l bytes (.clean n)) s = .next (wrongLock l 1 true (bump (ctr 8 (barnOf l) 7) (seen n)))) ∧
    (∀ n, good = true → (laneLink s l).farTag = none ∨ (laneLink s l).farTag = some (fld w0 3 0) →
      let a := ackUpTo l (fld w0 16 5) (seen n)
      (bitAt w0 4 = true → exec (.flitRx l bytes .retryUe) s = .next (retryUe l (ackUpTo l (fld w0 16 5) (seen 0)))) ∧
      (bitAt w0 4 = false → exec (.flitRx l bytes .retryUe) s = exec (.flitRx l bytes (.clean 0)) s) ∧
      let b := if bitAt w0 4 = true then replay l a else a
      let c := takeCredit p (fld (flitWord bytes 2) 26 24) (fld (flitWord bytes 2) 23 0) b
      let next := fld w0 28 17 = ((laneLink c l).rxSeq + 1) % 4096
      let took := modLaneLink l (fun k => { k with rxSeq := fld w0 28 17, nak := false, discarding := false }) c
      (fld w0 31 29 = 1 → next → exec (.flitRx l bytes (.clean n)) s =
        .next (dataFlit l (flitWord bytes 1) ((bytes.drop 12).take 240) took)) ∧
      (fld w0 31 29 = 2 → next → exec (.flitRx l bytes (.clean n)) s = .next ((ctlOf bytes).foldl (fun s m => actCtl l m s) took)) ∧
      (fld w0 31 29 = 1 ∨ fld w0 31 29 = 2 → ¬next → exec (.flitRx l bytes (.clean n)) s = .next (nakError l c)) ∧
      (fld w0 31 29 = 3 → markerBad (laneLink c l) bytes = false → exec (.flitRx l bytes (.clean n)) s =
        .next (modPort p (fun x => { x with farId := fld (flitWord bytes 4) 31 8 }) c)) ∧
      (fld w0 31 29 = 3 → markerBad (laneLink c l) bytes = true → exec (.flitRx l bytes (.clean n)) s =
        .next (wrongLock l 1 true (bump (ctr 8 (barnOf l) 7) c))) ∧
      (fld w0 31 29 = 4 → exec (.flitRx l bytes (.clean n)) s = .next (timeFlit l bytes c)) ∧
      (fld w0 31 29 = 0 ∨ 5 ≤ fld w0 31 29 → exec (.flitRx l bytes (.clean n)) s = .next c))) ∧
  (∀ l s, ((laneLink s l).discarding = true → nakError l s = s) ∧
    ((laneLink s l).discarding = false → nakError l s = sayNak l (modLaneLink l (fun k => { k with discarding := true }) s))) ∧
  (∀ l a s, let k := laneLink s l
    let adv := (a + 4096 - k.txAcked) % 4096
    (adv = 0 ∨ outstanding k < adv → ackUpTo l a s = s) ∧
    (0 < adv → adv ≤ outstanding k → ackUpTo l a s = settleIdle l (pump l
      ((k.retry.filter fun p => !staysIn a p).foldl (fun s p => deliver p s) (modLaneLink l (fun k =>
        { k with txAcked := a, replaySeq := 4096, replays := 0, retry := k.retry.filter (staysIn a) }) s))))) ∧
  (∀ p c v s, let old := tget s.link.crLimit 0 (8 * p + c)
    ((v + 2 ^ 24 - old) % 2 ^ 24 < 2 ^ 23 → tget (takeCredit p c v s).link.crLimit 0 (8 * p + c) = v) ∧
    (2 ^ 23 ≤ (v + 2 ^ 24 - old) % 2 ^ 24 → takeCredit p c v s = s))

/-- Timers, exits and identity of a lane (R231, R249, R254, R255, R257, R259, R261, R262, R281). While flits are discarded NAK is set
again; with flits outstanding a replay starts at the oldest. A lane in service leaves abruptly after 8 replays of a SEQ, after more
than 16 uncorrectable codeword pairs within 1 ms, at frame loss and at loss of signal, both counted FRAME_LOSS; a withdrawn lane
that still drains leaves too, and so does one whose own slice loses its light; a lane that drains for a circuit gives up what it
sent. A marker goes out on a lane that sends, with the limit whose turn has come. A good alignment slot is kept and its TX_FAULT bits
of lanes that serve are wrong locks of their transmit rings. TX_FAULT is reported to the far end while another lane of the fibre
frames. A packet that has begun and whose next bytes are missing is aborted and counted. The model's choices: rows that do nothing (log
entry 6), the underrun's row (56), exits of lanes that do not serve (97), what a flit sent again carries (98), the marker's slots (99), lanes
that drain for a circuit (101), alignment slots (151). NAK_RESEND_TIMER, REPLAY_TIMEOUT,
LINK_RETRY_EXHAUSTED, FEC_EXIT, FRAME_LOSS, LOSS_OF_SIGNAL, MARKER_SEND, ALIGNMENT_SLOT_RX, TX_FAULT and EGRESS_UNDERRUN_ABORT
complete. -/
def Obligations.LaneTimersAndExits : Prop :=
  (∀ (l : Fin 1024) s,
    ((laneLink s l).discarding = true → exec (.nakResendTimer l) s = .next (sayNak l s)) ∧
    ((laneLink s l).discarding = false → exec (.nakResendTimer l) s = .next s)) ∧
  (∀ (l : Fin 1024) s, let k := laneLink s l
    let first := (k.txAcked + 1) % 4096
    (sends s l = true → 0 < outstanding k → exec (.replayTimeout l) s = .next ((flitsFrom k).foldl
      (fun s f => putRaw l (remakeFlit (markerDue l s) l f) (markerDue l s)) (emit (.replay l first) (bump (ctr 8 (barnOf l) 3)
        (modLaneLink l (fun x => { x with replaySeq := first, replays := if k.replaySeq = first then k.replays + 1 else 1 }) s))))) ∧
    (sends s l = false ∨ outstanding k = 0 → exec (.replayTimeout l) s = .next s)) ∧
  (∀ s l f, remakeFlit s l f = makeFlit s l (fld (flitWord f 0) 31 29) (fld (flitWord f 0) 28 17) (flitWord f 1) ((f.drop 12).take 240)) ∧
  (∀ (l : Fin 1024) s, laneState s l = .inService →
    (8 ≤ (laneLink s l).replays → exec (.linkRetryExhausted l) s = .next (abruptExit l (bump (ctr 8 (barnOf l) 4) s))) ∧
    (16 < ((laneLink s l).uncorrAt.filter fun t => decide (s.time.now < t + 256000000)).length →
      exec (.fecExit l) s = .next (abruptExit l (bump (ctr 8 (barnOf l) 5) s))) ∧
    exec (.frameLoss l) s = .next (abruptExit l (bump (ctr 8 (barnOf l) 6) s)) ∧
    exec (.lossOfSignal l) s = .next (abruptExit l (bump (ctr 8 (barnOf l) 6) s))) ∧
  (∀ (l : Fin 1024) s,
    (laneState s l ≠ .inService ∨ (laneLink s l).replays < 8 → exec (.linkRetryExhausted l) s = .next s) ∧
    (laneState s l ≠ .inService ∨ ((laneLink s l).uncorrAt.filter fun t => decide (s.time.now < t + 256000000)).length ≤ 16 →
      exec (.fecExit l) s = .next s)) ∧
  (∀ (l : Fin 1024) s, laneState s l = .withdrawn →
    (laneIdle s l = false → exec (.frameLoss l) s = .next (abruptExit l (bump (ctr 8 (barnOf l) 6) s))) ∧
    (laneIdle s l = true → exec (.frameLoss l) s = .next s) ∧
    (laneIdle s l = false ∨ (sliceOn s l).isSome = true →
      exec (.lossOfSignal l) s = .next (abruptExit l (bump (ctr 8 (barnOf l) 6) s))) ∧
    (laneIdle s l = true → sliceOn s l = none → exec (.lossOfSignal l) s = .next s)) ∧
  (∀ (l : Fin 1024) s,
    (laneState s l = .flue → exec (.frameLoss l) s = .next (drainLost l s) ∧ exec (.lossOfSignal l) s = .next (drainLost l s)) ∧
    (laneState s l = .down ∨ laneState s l = .training ∨ laneState s l = .banked →
      exec (.frameLoss l) s = .next s ∧ exec (.lossOfSignal l) s = .next s)) ∧
  (∀ (l : Fin 1024) s,
    (sends s l = true → exec (.markerSend l) s =
      .next (putMarker l (modLaneLink l (fun k => { k with crRot := (k.crRot + (1024 - k.slots)) % 8 }) s))) ∧
    (sends s l = false → exec (.markerSend l) s = .next s)) ∧
  (∀ (l : Fin 1024) p s, portOfLane s l = some p →
    let ws := [s.link.deviceTag, pack [(8, ownId s)],
      pack [(22, l), (12, p), (8, (thePort s p).width), (6, bit (!(thePort s p).v0))], w32 (laneLink s l).markerCount]
    putMarker l s = modLaneLink l (fun k => { k with markerCount := (k.markerCount + 1) % 2 ^ 32, slots := 0 })
      (emit (.marker l ws) (putRaw l (makeFlit s l 3 0 0 (wordsBe ws)) s))) ∧
  (∀ (l : Fin 1024) (bytes : List Byte) s, bytes.length = 256 →
    let r := modLaneLink l (fun k => { k with rxPos := k.rxPos + 1 }) s
    let hears : Prop := laneFrames s l = true ∨ laneState s l = .training
    (¬hears → exec (.alignmentSlotRx l bytes) s = .next s) ∧
    (hears → crc32 (bytes.take 252) ≠ ofBe (bytes.drop 252) → exec (.alignmentSlotRx l bytes) s = .next r) ∧
    (hears → crc32 (bytes.take 252) = ofBe (bytes.drop 252) →
      let t := modLaneLink l (fun k => { k with farStatus := (List.range 8).map fun k => flitWord bytes (5 + k) }) r
      ((∀ k, k < 8 → bitAt (flitWord bytes (5 + k)) 25 = false) → exec (.alignmentSlotRx l bytes) s = .next t) ∧
      (∀ k, k < 8 → (∀ j, j < 8 → (bitAt (flitWord bytes (5 + j)) 25 = true ↔ j = k)) →
        laneState s (l.val / 8 * 8 + k) = .inService ∨ laneState s (l.val / 8 * 8 + k) = .withdrawn →
        exec (.alignmentSlotRx l bytes) s = .next (wrongLock (l.val / 8 * 8 + k) 1 false t)))) ∧
  (∀ (l : Fin 1024) s,
    let others : Prop := (laneFrames s l = true ∨ laneState s l = .training) ∧
      ∃ m, l.val / 8 * 8 ≤ m ∧ m < l.val / 8 * 8 + 8 ∧ m ≠ l.val ∧ laneFrames s m = true
    (others → exec (.txFault l) s = .next (reportFibre l (modLaneLink l (fun k => { k with txFault := true }) s))) ∧
    (¬others → exec (.txFault l) s = .next s)) ∧
  (∀ (l : Fin 1024) s,
    ((laneLink s l).tx = none → exec (.egressUnderrunAbort l) s = .next s) ∧
    (∀ t, (laneLink s l).tx = some t →
      (t.abort = true ∨ t.sent = 0 ∨ (∀ x, storedPkt s (barnOf l) t.pid = some x → t.sent < flitsReady x) →
        exec (.egressUnderrunAbort l) s = .next s) ∧
      (∀ x, t.abort = false → 0 < t.sent → storedPkt s (barnOf l) t.pid = some x → flitsReady x ≤ t.sent →
        let e : TraceEnd := { outcome := 3, outPort := t.port, barn := barnOf l, cut := t.cut, selected := some t.selAt, out := some t.outAt }
        exec (.egressUnderrunAbort l) s = .next (settleIdle l (pump l (dropRef (barnOf l) t.pid t.port
          (abortTx l (bumpEg (barnOf l) 4 (traceStored x e s)))))))))

/-- Withdrawal, rehoming, training and port configuration (R6, R228 to R230, R264 to R268, R274, R336). A CAL request about a lane
that is not in service and not this end's own work is refused with reason 2, about the last serving lane of a wide port with reason
1; every other request is granted and the lane leaves service. A grant of this end's request withdraws the lane, a CAL request
refused or unanswered skips its slice, a forced one goes on. A REHOME_REQ is answered with the last SEQ accepted; a REHOME_ACK with
the tag of the last request releases what the far end had and queues the rest to be sent again. A training starts, fails and restarts
with its capability word; it ends in service where shape, version, rate and identity agree, and as the port's first lane brings the
link up with its credit; where they do not agree it fails with PORT_MISMATCH or NO_COMMON. LANE_RESET and PORT_CONFIG act, or are
refused by the clauses below. The model's choices: log entries 6, 18, 19 (checks), 22, 23 (LANE_RESET holds its ring), 91 (the only serving
lane), 92 (withdrawals), 97 (rehoming), 99 (training), 100 (disabled ports). WD_REQ, WD_GRANT, WD_REFUSE, WD_ANSWER_TIMEOUT, REHOME_REQ, REHOME_ACK, TRAINING_START, TRAIN_FAIL,
TRAINING_RESTART, TRAINING_COMPLETE, LANE_RESET and PORT_CONFIG complete. -/
def Obligations.WithdrawalTrainingAndPorts : Prop :=
  (∀ (l : Fin 1024) (tag : BitVec 16) s,
    let mine := (laneLink s l).asked.isSome = true ∨
      (laneState s l = .withdrawn ∧ ((laneOpt s l).wdCause = 1 ∨ (laneOpt s l).wdCause = 2))
    let alone := ∃ p, portOfLane s l = some p ∧ 2 ≤ (thePort s p).width ∧ servingLanes s p = [l.val]
    let granted (kind : WdKind) := modLaneLink l (fun k => { k with answered := some kind, rxDone := false })
      (sendControl l 2 0 tag.toNat 0 s)
    (laneState s l ≠ .inService → ¬mine → exec (.wdReq l .cal tag) s = .next (sendControl l 3 0 tag.toNat 2 s)) ∧
    (laneState s l = .inService → ¬mine → alone → exec (.wdReq l .cal tag) s = .next (sendControl l 3 0 tag.toNat 1 s)) ∧
    (laneState s l = .inService → ¬mine → portOfLane s l = none → exec (.wdReq l .cal tag) s = .next s) ∧
    (laneState s l = .inService → ¬mine → ¬alone → portOfLane s l ≠ none →
      exec (.wdReq l .cal tag) s = .next (withdrawLane l 3 (granted .cal))) ∧
    (∀ kind, kind ≠ .cal ∨ mine →
      (laneState s l = .inService →
        exec (.wdReq l kind tag) s = .next (withdrawLane l (if kind = .cal then 3 else 4) (granted kind))) ∧
      (laneState s l ≠ .inService → exec (.wdReq l kind tag) s = .next (granted kind)))) ∧
  (∀ (l : Fin 1024) (tag : BitVec 16) reason s, let t := modLaneLink l (fun k => { k with asked := none }) s
    let waits := laneState s l = .inService ∨ laneState s l = .withdrawn
    ((laneLink s l).asked = none → exec (.wdGrant l tag) s = .next s ∧ exec (.wdAnswerTimeout l) s = .next s) ∧
    ((laneLink s l).askTag ≠ tag.toNat → exec (.wdGrant l tag) s = .next s ∧ exec (.wdRefuse l tag reason) s = .next s) ∧
    ((laneLink s l).askTag = tag.toNat → exec (.wdRefuse l tag reason) s = exec (.wdAnswerTimeout l) s) ∧
    (∀ kind, (laneLink s l).asked = some kind → (laneLink s l).askTag = tag.toNat →
      (waits → kind ≠ .force ∨ reservedBy s l = none →
        exec (.wdGrant l tag) s = .next (withdrawLane l (if kind = .swap then 2 else 1) t)) ∧
      (waits → kind = .force → (reservedBy s l).isSome = true → exec (.wdGrant l tag) s = .next (takeGranted l t)) ∧
      (¬waits → exec (.wdGrant l tag) s = .next t)) ∧
    ((laneLink s l).asked = some .cal →
      exec (.wdAnswerTimeout l) s = .next (overdue l (endSlice l 2 (bump (ctr 8 (barnOf l) 14) t)))) ∧
    ((laneLink s l).asked = some .swap → exec (.wdAnswerTimeout l) s = .next s) ∧
    ((laneLink s l).asked = some .force →
      (waits → reservedBy s l = none → exec (.wdAnswerTimeout l) s = .next (withdrawLane l 1 t)) ∧
      (waits → (reservedBy s l).isSome = true → exec (.wdAnswerTimeout l) s = .next (takeGranted l t)) ∧
      (¬waits → exec (.wdAnswerTimeout l) s = .next t))) ∧
  (∀ (l : Fin 1024) (tag : BitVec 16) s,
    (laneFrames s l = true →
      exec (.rehomeReq l tag) s = .next (abruptExit l (queueControl l 5 0 tag.toNat (laneLink s l).rxSeq s))) ∧
    (laneFrames s l = false → exec (.rehomeReq l tag) s = .next (sendControl l 5 0 tag.toNat (laneLink s l).rxSeq s))) ∧
  (∀ (l : Fin 1024) (tag : BitVec 16) (q : BitVec 12) s, let k := laneLink s l
    (portOfLane s l = none ∨ k.orphans = [] ∨ k.rehomeTag ≠ tag.toNat → exec (.rehomeAck l ⟨tag, q⟩) s = .next s) ∧
    (∀ p, portOfLane s l = some p → k.orphans ≠ [] → k.rehomeTag = tag.toNat →
      let t := (k.orphans.filter fun r => !seqAfter r.lastSeq q.toNat).foldl (fun s r => deliver r s)
        (modLaneLink l (fun k => { k with orphans := [], stopped := k.stopped && laneState s l != .inService }) s)
      let again := (k.orphans.filter fun r => seqAfter r.lastSeq q.toNat).filterMap fun r => r.info
      exec (.rehomeAck l ⟨tag, q⟩) s =
        .next (pump l (t.modLink fun x => { x with resend := tset x.resend [] p (tget x.resend [] p ++ again) })))) ∧
  (∀ (l : Fin 1024) s p, laneState s l = .training → portOfLane s l = some p →
    let begins := sayCap l false (modLaneLink l (fun k =>
      { k with trainStep := 1, trainVer := (thePort s p).verMask, trainRate := (thePort s p).maxRate }) s)
    let fails (cause : TrainFailCause) := bump (ctr 8 (barnOf l) 10) (modLaneLink l (fun k =>
      { k with trainStep := 2, trainCause := some cause }) s)
    ((laneLink s l).trainStep = 0 → (thePort s p).enabled = true → barnUp s (barnOf l) = true →
      exec (.trainingStart l) s = .next begins) ∧
    (∀ cause, (laneLink s l).trainStep = 1 → exec (.trainFail l cause) s = .next (fails cause)) ∧
    ((laneLink s l).trainStep = 2 → exec (.trainingRestart l) s = .next begins) ∧
    (∀ far, (laneLink s l).trainStep = 1 → barnUp s (barnOf l) = true →
      let y := { thePort s p with verMask := (laneLink s l).trainVer, maxRate := (laneLink s l).trainRate }
      (sameShape y p far = false → exec (.trainingComplete l far) s = .next (fails .portMismatch)) ∧
      (sameShape y p far = true → (thePort s p).up = false → negotiate y far = none →
        exec (.trainingComplete l far) s = .next (fails .noCommon)) ∧
      (∀ v0 rate, sameShape y p far = true → (thePort s p).up = false → negotiate y far = some (v0, rate) →
        exec (.trainingComplete l far) s = .next (if identityOk l far then trained l p v0 rate far s else s)) ∧
      (sameShape y p far = true → (thePort s p).up = true →
        exec (.trainingComplete l far) s = .next (if bothAllow y far (thePort s p).v0 (thePort s p).rate && identityOk l far
          then trained l p (thePort s p).v0 (thePort s p).rate far s else s)))) ∧
  (∀ (l : Fin 1024) far cause s,
    (laneState s l ≠ .training → exec (.trainingStart l) s = .next s ∧ exec (.trainFail l cause) s = .next s ∧
      exec (.trainingRestart l) s = .next s ∧ exec (.trainingComplete l far) s = .next s) ∧
    ((laneLink s l).trainStep ≠ 0 → exec (.trainingStart l) s = .next s) ∧
    ((laneLink s l).trainStep ≠ 1 → exec (.trainFail l cause) s = .next s ∧ exec (.trainingComplete l far) s = .next s) ∧
    ((laneLink s l).trainStep ≠ 2 → exec (.trainingRestart l) s = .next s)) ∧
  (∀ l p v0 rate far s, (thePort s p).up = false →
    let t := modPort p (fun x => { x with farId := far.endpointId.toNat, rtt := Nat.min 1023 far.rtt })
      (setSwing l (modLaneOpt l (fun o => { o with calAt := s.time.now }) (modLaneLink l (fun k =>
        { k with farTag := some far.tag.toNat, seenTag := far.tag.toNat, farDevice := far.deviceTag.toNat, farLane := far.lane.toNat }) s)))
    let u := capturePort 1 p ((List.range 8).foldl (fun s c => giveCredit p c s)
      (joinService l (modPort p (fun x => { x with up := true, v0 := v0, rate := rate })
        (t.modLink fun k => { k with cellsIn := k.cellsIn.filter fun e => e.1 / 8 != p }))))
    trained l p v0 rate far s = if v0 = true then latBegin p 3 u else u) ∧
  (∀ h args s, let i := Instr.laneReset h args
    let l := argN args 1
    accepted i s = true →
    (1024 ≤ l → exec i s = .next (refusedEnd i s 0x01 1)) ∧
    (l < 1024 → laneState s l = .withdrawn ∨ laneState s l = .training → exec i s = .next (refusedEnd i s 0x02 0)) ∧
    (l < 1024 → laneState s l = .flue ∨ laneState s l = .banked ∨ laneState s l = .down →
      exec i s = .next (refusedEnd i s 0x01 1)) ∧
    (∀ p, l < 1024 → laneState s l = .inService → portOfLane s l = some p →
      (servingLanes s p = [l] → exec i s = .next (okEnd i s [] (setLane l .training (linkDown p (fetched i s))))) ∧
      (servingLanes s p ≠ [l] → exec i s = .next (settleIdle l (askWithdraw l .force
        (modLaneOpt l (fun o => { o with resetCmd := some (refOf i s) }) (addDetached (refOf i s) .none (fetched i s)))))))) ∧
  (∀ h args s, let i := Instr.portConfig h args
    let p := argN args 1
    let w := argN args 2
    let shape := p < 1024 ∧ (w = 1 ∨ w = 2 ∨ w = 4 ∨ w = 8) ∧ p % w = 0
    let rates := 1 ≤ argN args 4 ∧ argN args 4 ≤ 3 ∧ argN args 5 ≤ 2 ∧ (argN args 4 = 2 → argN args 5 = 2)
    let clear := ∀ q ∈ portsOver s p w, (thePort s q).enabled = false
    let same := (thePort s p).configured = true → (thePort s p).enabled = true → (thePort s p).width = w
    let named := ∃ q ∈ portsOver s p w, slotNames s q = true
    let whole := argN args 3 = 1 ∧ wholeScratch s (barnOf p) = true
    accepted i s = true →
    (1024 ≤ p → exec i s = .next (refusedEnd i s 0x01 1)) ∧
    (p < 1024 → w ≠ 1 → w ≠ 2 → w ≠ 4 → w ≠ 8 → exec i s = .next (refusedEnd i s 0x01 2)) ∧
    (p < 1024 → w = 1 ∨ w = 2 ∨ w = 4 ∨ w = 8 → p % w ≠ 0 → exec i s = .next (refusedEnd i s 0x01 1)) ∧
    (shape → 1 < argN args 3 → exec i s = .next (refusedEnd i s 0x01 3)) ∧
    (shape → argN args 3 ≤ 1 → argN args 4 = 0 ∨ 3 < argN args 4 → exec i s = .next (refusedEnd i s 0x01 4)) ∧
    (shape → argN args 3 ≤ 1 → 1 ≤ argN args 4 → argN args 4 ≤ 3 → 2 < argN args 5 ∨ (argN args 4 = 2 ∧ argN args 5 < 2) →
      exec i s = .next (refusedEnd i s 0x01 5)) ∧
    (shape → argN args 3 ≤ 1 → rates →
      (¬clear → exec i s = .next (refusedEnd i s 0x01 1)) ∧
      (clear → ¬same → exec i s = .next (refusedEnd i s 0x01 2)) ∧
      (clear → same → holdsFlue s p w = true ∨ whole ∨ named → exec i s = .next (refusedEnd i s 0x02 0)) ∧
      (clear → same → holdsFlue s p w = false → ¬whole → ¬named →
        let was := (thePort s p).configured && (thePort s p).enabled
        let t := (portsOver s p w).foldl (fun s q => removePort q s) (fetched i s)
        let conf (s : State) := modPort p (fun x =>
          { x with configured := true, width := w, enabled := argN args 3 == 1, verMask := argN args 4, maxRate := argN args 5 }) s
        (argN args 3 = 1 → was = false → barnUp (conf t) (barnOf p) = true →
          exec i s = .next (okEnd i s [] (portLanesTo p .training (conf t)))) ∧
        (argN args 3 = 1 → was = true ∨ barnUp (conf t) (barnOf p) = false → exec i s = .next (okEnd i s [] (conf t))) ∧
        (argN args 3 = 0 → was = true → exec i s = .next (okEnd i s [] (conf (portLanesTo p .down (linkDown p t))))) ∧
        (argN args 3 = 0 → was = false → exec i s = .next (okEnd i s [] (conf t))))))

/-! ### Flue circuits (R275 to R294) -/

/-- Opening, switching and closing a circuit (R278, R280 to R283, R285, R286, R291, R329). FLUE_OPEN of a circuit that is not FREE is
BUSY; a request whose fibres are equal, whose mask is empty, whose losses exceed 4.0 dB, whose lead exceeds 100 ms or that names a
generation extension is BAD_ARGUMENT; one for a retiring partition PARTITION_RETIRING; a whole-barn scratchpad BUSY; without a
wavelength NO_WAVELENGTH; each refusal is counted. Otherwise the lanes of the lowest wavelength that serves are reserved and taken.
Once both are drained the path is tuned: where it closes the circuit is READY, counted, the wavelength is returned and an immediate
request switches over; where it does not the circuit is FREE again, the lanes return, and the reply says why. FLUE_SWITCH of a READY
circuit makes it LIVE, with its next retune 600 s later; one that is re-tuned switches over when that ends; FLUE_CLOSE frees a
circuit and ends a setup ABORTED. FLUE_OPEN, FLUE_SWITCH and FLUE_CLOSE complete. The model's choices: the order of the checks and DETAIL (log
entries 18, 19), FLUE_OPEN holds its ring (23), a whole-barn scratchpad (86), the steps of a setup (101), circuits between two rows (102),
margins rounded free and every refusal counted (103), where the notice starts (104). -/
def Obligations.FlueCommands : Prop :=
  (∀ h args m s, let i := Instr.flueOpen h args m
    let f := wordsOf (hostRead (fetched i s) (arg64 args 1) 32)
    let f0 := f.getD 0 0
    let c := fld f0 31 25
    let x := circOf f
    let mask := fld f0 10 3
    let no (st d : Nat) : State :=
      writeCompletion (refOf i s) ⟨st, w32 d, []⟩ (bump (ctr 0x11 0 5) (fetched i s))
    let fits : Prop := x.fibreA ≠ x.fibreB ∧ mask ≠ 0 ∧ x.outLossA ≤ 40 ∧ x.outLossB ≤ 40 ∧ x.leadMs ≤ 100 ∧
      genExt x.endA = 0 ∧ genExt x.endB = 0
    accepted i s = true →
    ((theCirc s c).state ≠ 0 → exec i s = .next (no 0x02 0)) ∧
    ((theCirc s c).state = 0 → ¬fits → exec i s = .next (no 0x01 1)) ∧
    ((theCirc s c).state = 0 → fits → (thePart s x.partition).state = 2 → exec i s = .next (no 0x0D 0)) ∧
    ((theCirc s c).state = 0 → fits → (thePart s x.partition).state ≠ 2 →
      wholeScratch s (barnOf (8 * x.fibreA)) = true ∨ wholeScratch s (barnOf (8 * x.fibreB)) = true →
      exec i s = .next (no 0x02 0)) ∧
    ((theCirc s c).state = 0 → fits → (thePart s x.partition).state ≠ 2 → wholeScratch s (barnOf (8 * x.fibreA)) = false →
      wholeScratch s (barnOf (8 * x.fibreB)) = false →
      (chooseK s x.fibreA x.fibreB mask (bitAt f0 2) = none → exec i s = .next (no 0x19 0)) ∧
      (∀ k, chooseK s x.fibreA x.fibreB mask (bitAt f0 2) = some k →
        let y : Circuit :=
          { x with k := k, takenA := !downAndFree s (8 * x.fibreA + k), takenB := !downAndFree s (8 * x.fibreB + k),
                   cmd := some (refOf i s), meas := some m, connectPend := bitAt f0 1 }
        exec i s = .next (finishSetup c (takeLane (8 * x.fibreB + k) (takeLane (8 * x.fibreA + k)
          (addDetached (refOf i s) .none (circTo c 1 (modCirc c (fun _ => y) (fetched i s)))))))))) ∧
  (∀ c m cmd s, (theCirc s c).cmd = some cmd → (theCirc s c).meas = some m →
    ((theCirc s c).state ≠ 1 ∨ circDrained s (theCirc s c) = false → finishSetup c s = s) ∧
    ((theCirc s c).state = 1 → circDrained s (theCirc s c) = true →
      (∀ r u, tuningFails c m s = (some r, u) →
        finishSetup c s = endDetached cmd r (bump (ctr 0x11 0 5) (freeCirc c u))) ∧
      (∀ u, tuningFails c m s = (none, u) →
        let v := bump (ctr 0x11 0 4) (circTo c 2 (modCirc c (fun x => { x with since := u.time.now, cmd := none, meas := none }) u))
        finishSetup c s = endDetached cmd ⟨0, 0, [w32 (theCirc s c).k]⟩
          (if (theCirc s c).connectPend then switchOver c v else v)))) ∧
  (∀ h args s, let i := Instr.flueSwitch h args
    let c := argN args 1
    let setup : Prop := circState s c = 1 ∧ (theCirc s c).cmd.isSome = true
    accepted i s = true →
    (128 ≤ c ∨ (circState s c ≠ 1 ∧ circState s c ≠ 2) ∨ setup → exec i s = .next (refusedEnd i s 0x01 1)) ∧
    (c < 128 → circState s c = 2 → exec i s = .next (okEnd i s [] (switchOver c (fetched i s)))) ∧
    (c < 128 → circState s c = 1 → ¬setup →
      exec i s = .next (okEnd i s [] (modCirc c (fun x => { x with connectPend := true }) (fetched i s))))) ∧
  (∀ h args s, let i := Instr.flueClose h args
    let c := argN args 1
    accepted i s = true →
    (128 ≤ c ∨ (theCirc s c).state = 0 → exec i s = .next (refusedEnd i s 0x01 1)) ∧
    (c < 128 → (theCirc s c).state = 1 ∨ (theCirc s c).state = 2 → (theCirc s c).cmd = none →
      exec i s = .next (okEnd i s [] (freeCirc c (fetched i s)))) ∧
    (c < 128 → 3 ≤ (theCirc s c).state → (theCirc s c).cmd = none → exec i s = .next (okEnd i s []
      (freeCirc c (flueNotice c 3 s.time.now (emit (.light c false) (fetched i s)))))) ∧
    (c < 128 → (theCirc s c).state ≠ 0 → (theCirc s c).cmd.isSome = true →
      exec i s = .next (okEnd i s [] (cutSetup c ⟨0x17, 0, []⟩ (fetched i s))))) ∧
  (∀ c s, let t := switchOver c s
    (theCirc t c).state = 3 ∧ (theCirc t c).since = s.time.now ∧ (theCirc t c).nextAt = s.time.now + secU 600 ∧
    (theCirc t c).retunes = 0 ∧ ∀ d, d ≠ c → theCirc t d = theCirc s d)

/-- A standing circuit (R284, R287 to R290). 600 s after READY the tuning runs again: a circuit that no longer closes is FAILED,
one that closes is READY again, or LIVE if a connect waits. A notice goes to both ends once for each retune, LEAD_MS before it. A
retune of a live circuit counts itself; it ends LIVE with the next retune on the 600 s grid where no ring that has light fails to
lock, and FAILED with the dark sides marked where one does. Lost light of a live circuit is captured and counted. A row that comes
in another state or before its instant changes nothing. The model's choices: that (log entry 6), the state between two rows (102), rounding
and outcomes (103), notices and halves that are not ready (104). FLUE_READY_RETUNE, FLUE_RETUNE_NOTICE, FLUE_RETUNE and FLUE_LOS complete. -/
def Obligations.FlueRows : Prop :=
  (∀ (c : Fin 128) m s, (theCirc s c).state = 2 → circState s c = 1 →
    (∀ r u, tuningFails c m (circTo c 1 s) = (some r, u) → exec (.flueReadyRetune c m) s =
      .next (circTo c 5 (modCirc c (fun x => { x with connectPend := false, darkA := true, darkB := true }) u))) ∧
    (∀ u, tuningFails c m (circTo c 1 s) = (none, u) →
      let v := circTo c 2 (modCirc c (fun x => { x with since := u.time.now }) u)
      exec (.flueReadyRetune c m) s = .next (if (theCirc v c).connectPend = true then switchOver c v else v))) ∧
  (∀ (c : Fin 128) m s, (theCirc s c).state ≠ 2 ∨ circState s c ≠ 1 → exec (.flueReadyRetune c m) s = .next s) ∧
  (∀ (c : Fin 128) s, let x := theCirc s c
    (x.state = 3 → x.noticeAt ≠ some x.nextAt → x.nextAt ≤ s.time.now + usU (1000 * x.leadMs) → circReady s x = true →
      exec (.flueRetuneNotice c) s =
        .next (flueNotice c 1 x.nextAt (modCirc c (fun x => { x with noticeAt := some x.nextAt }) s))) ∧
    (x.state ≠ 3 ∨ x.noticeAt = some x.nextAt ∨ s.time.now + usU (1000 * x.leadMs) < x.nextAt ∨ circReady s x = false →
      exec (.flueRetuneNotice c) s = .next s)) ∧
  (∀ (c : Fin 128) m s, (theCirc s c).state = 3 → circState s c = 4 →
    let noLockA := m.lightA && !m.lockA
    let noLockB := m.lightB && !m.lockB
    ∃ t, exec (.flueRetune c m) s = .next t ∧ (theCirc t c).retunes = (theCirc s c).retunes + 1 ∧
      (noLockA = false → noLockB = false → (theCirc t c).state = 3 ∧
        (theCirc t c).nextAt = (theCirc s c).since + ((s.time.now - (theCirc s c).since) / secU 600 + 1) * secU 600) ∧
      (noLockA = true ∨ noLockB = true → (theCirc t c).state = 5 ∧ (theCirc t c).darkA = noLockA ∧
        (theCirc t c).darkB = noLockB ∧ (theCirc t c).nextAt = 0)) ∧
  (∀ (c : Fin 128) m s, (theCirc s c).state ≠ 3 ∨ circState s c ≠ 4 → exec (.flueRetune c m) s = .next s) ∧
  (∀ (c : Fin 128) side s,
    (circState s c = 3 → exec (.flueLos c side) s = .next (capture 18 c (bump (ctr 0x11 0 3) s))) ∧
    (circState s c ≠ 3 → exec (.flueLos c side) s = .next s))

/-! ### Device time and the Kindling table (R295 to R322, R332) -/

/-- The time commands (R302, R304, R307, R308, R310, R322). TIME_CONFIG, TIME_PORT_CONFIG and CAPTURE_CONFIG set what they name and
nothing else, or are BAD_ARGUMENT for the first word out of range. TIME_SOURCE sets the source and restarts its runs, with the mean
delay of the port it selects; without a source a running servo is in HOLDOVER. TIME_SET steps at once, or waits for the next PPS edge
and detaches. A step that was refused is accepted as −PENDING or as the Δ given, where device time stays in its range, or dismissed;
neither is possible without one. The model's choices: the order of the checks and DETAIL (log entries 18, 19), what detaches (22), exact
arithmetic (105), offsets while a step is refused (106), what a step moves (107), several TIME_SETs for one edge (109), edge bits (110).
TIME_CONFIG, TIME_PORT_CONFIG, TIME_SOURCE, TIME_SET, TIME_STEP_ACCEPT, TIME_STEP_DISMISS and CAPTURE_CONFIG complete. -/
def Obligations.TimeCommands : Prop :=
  (∀ h args s, let i := Instr.timeConfig h args
    let a := argN args
    let ok (w : Nat) : Prop := match w with
      | 1 => 100 ≤ a 1 ∧ a 1 ≤ 1000000000
      | 2 => 1 ≤ a 2 ∧ a 2 ≤ 200
      | 3 => a 3 ≤ 15
      | 4 => a 4 ≤ 15
      | 5 => 10 ≤ a 5 ∧ a 5 ≤ 60000
      | 6 => a 6 ≤ 255
      | 10 => 1 ≤ a 10 ∧ a 10 ≤ 500
      | _ => True
    accepted i s = true →
    ((∀ w, ok w) → exec i s = .next (okEnd i s [] ((fetched i s).modTime fun t =>
      { t with stepNs := a 1, slewPpm := a 2, pshift := a 3, ishift := a 4, holdoverMs := a 5, domain := a 6,
               clockId := BitVec.ofNat 64 (arg64 args 7), ppsDelay := (arg args 9).toInt, ppsWidthMs := a 10 }))) ∧
    (∀ w, ¬ok w → (∀ v, v < w → ok v) → exec i s = .next (refusedEnd i s 0x01 w))) ∧
  (∀ h args s, let i := Instr.timePortConfig h args
    let v := arg64 args 1
    let ls := (BitVec.ofNat 5 (nfld v 60 56)).toInt
    let ld := (BitVec.ofNat 5 (nfld v 55 51)).toInt
    accepted i s = true →
    (nfld v 63 62 ≠ 3 → -10 ≤ ls → ls ≤ 0 → -10 ≤ ld → ld ≤ 0 → nfld v 50 48 ≤ 4 →
      exec i s = .next (okEnd i s [] (modPtp (nfld v 9 0) (fun x =>
        { x with role := nfld v 63 62, mech := nfld v 61 61, logSync := ls, logDelay := ld, logAnnounce := nfld v 50 48,
                 asym := (BitVec.ofNat 22 (nfld v 41 20)).toInt }) (fetched i s)))) ∧
    (nfld v 63 62 = 3 ∨ ls < -10 ∨ 0 < ls ∨ ld < -10 ∨ 0 < ld ∨ 4 < nfld v 50 48 → exec i s = .next (refusedEnd i s 0x01 2))) ∧
  (∀ h args s, let i := Instr.timeSource h args
    let kind := argN args 1
    let d := if kind = 1 ∧ (thePtp s (argN args 2)).haveDelay = true then
        Machine.toUnits (thePtp s (argN args 2)).meanDelay (fetched i s)
      else (0, fetched i s)
    let t := d.2.modTime fun t =>
      { t with srcKind := kind, srcPort := if kind = 1 then argN args 2 else 0, lastAt := none, goodRun := 0, badRun := 0,
               holdFrom := t.now, pathDelay := d.1 }
    accepted i s = true →
    (kind ≤ 2 → (kind = 1 → argN args 2 < 1024 ∧ (thePtp s (argN args 2)).role = 2) →
      (kind ≠ 0 ∨ (s.time.state ≠ 1 ∧ s.time.state ≠ 2) → exec i s = .next (okEnd i s [] t)) ∧
      (kind = 0 → s.time.state = 1 ∨ s.time.state = 2 → exec i s = .next (okEnd i s [] (setTimeState 3 t)))) ∧
    (2 < kind → exec i s = .next (refusedEnd i s 0x01 1)) ∧
    (kind = 1 → 1024 ≤ argN args 2 ∨ (thePtp s (argN args 2)).role ≠ 2 → exec i s = .next (refusedEnd i s 0x01 2))) ∧
  (∀ h args s, let i := Instr.timeSet h args
    let v := timeOf (arg args 1) (arg args 2) (arg args 3)
    accepted i s = true →
    (timeOk (arg args 3) = false → exec i s = .next (refusedEnd i s 0x01 3)) ∧
    (timeOk (arg args 3) = true →
      (argN args 4 = 0 → exec i s = .next (okEnd i s [] (relock
        (stepTime ((v : Rat) - (s.time.now : Nat) - s.time.sub) (fetched i s))))) ∧
      (argN args 4 = 1 → exec i s = .next ((addDetached (refOf i s) .none (fetched i s)).modTime fun t =>
        { t with ppsSet := t.ppsSet ++ [⟨v, t.now, refOf i s⟩] })) ∧
      (2 ≤ argN args 4 → exec i s = .next (refusedEnd i s 0x01 4)))) ∧
  (∀ h args s, let i := Instr.timeStepAccept h args
    let d : Int := if argN args 1 = 1 then argI64 args 2 else -s.time.pending
    accepted i s = true →
    (argN args 1 ≤ 1 → s.time.state = 4 → stepFits s d = true → exec i s = .next (okEnd i s [] (relock (stepTime d (fetched i s))))) ∧
    (1 < argN args 1 → exec i s = .next (refusedEnd i s 0x01 1)) ∧
    (argN args 1 ≤ 1 → s.time.state ≠ 4 → exec i s = .next (refusedEnd i s 0x1E 0)) ∧
    (argN args 1 ≤ 1 → s.time.state = 4 → stepFits s d = false →
      exec i s = .next (refusedEnd i s 0x01 (if argN args 1 = 1 then 2 else 0)))) ∧
  (∀ h args s, let i := Instr.timeStepDismiss h args
    accepted i s = true →
    (s.time.state = 4 → exec i s = .next (okEnd i s [] (relock ((fetched i s).modTime fun t => { t with lastAt := none })))) ∧
    (s.time.state ≠ 4 → exec i s = .next (refusedEnd i s 0x1E 0))) ∧
  (∀ h args s, let i := Instr.captureConfig h args
    accepted i s = true →
    (argN args 3 ≤ 255 → exec i s = .next (okEnd i s [] ((fetched i s).modTime fun t =>
      { t with captureMask := BitVec.ofNat 64 (arg64 args 1), edges := BitVec.ofNat 8 (argN args 3) }))) ∧
    (255 < argN args 3 → exec i s = .next (refusedEnd i s 0x01 3)))

/-- The servo, the pins and PTP (R298 to R305, R307, R308, R310, R419). A step moves device time by exactly Δ and counts. The first
offset of a port source in UNSET steps device time by −θ and goes to LOCKING. An offset above STEP_NS is refused and kept as PENDING; while a
step is refused each offset is only counted; an offset within it is accepted; one of PPS in UNSET is ignored. The rate never leaves ±SLEW_PPM.
HOLDOVER follows HOLDOVER_MS without an accepted offset. A PPS edge is stamped within 2 ns, less the delay, and gives an offset to a PPS source
or is used by the TIME_SET that waits, unless 2 s have passed; PPS out rises in the cycle in which device time reaches a whole second, and
falls; a capture input takes the edge selected; none acts with TIME of its half off; an edge within 500 ms (PPS) or 100 ns (captures) of another
of its pin may be missed. A TIME_SET without an edge for 2 s expires. A master queues Sync and Announce while device time is set, a slave or a
port that measures peer delay its request; a queued message leaves on the lowest-numbered lane in service with a stamp within 0.8 ns, unless a
packet is being sent there. A TIME packet that a lane takes is counted; one whose CRC fails or that R300 drops is counted so, and every other
one goes to PTP. The model's choices: log entries 6, 48 (stamps), 105 to 109, 108 for PTP, 110 (edges). HOLDOVER_TIMEOUT, PPS_IN_EDGE,
PPS_OUT_EDGE, PPS_OUT_FALL, CAP_IN_EDGE, TIME_SET_PPS_EXPIRED, PTP_SYNC_SEND, PTP_ANNOUNCE_SEND, PTP_DELAY_REQ_SEND and TIME_PACKET_RX
complete. -/
def Obligations.TimeRows : Prop :=
  (∀ (d : Rat) s, let x := (s.time.now : Rat) + s.time.sub + d
    0 ≤ x → (d ≤ 0 ∧ s.time.sub < 1) ∨ s.kindle = [] → ((stepTime d s).time.now : Rat) + (stepTime d s).time.sub = x ∧
      (stepTime d s).time.stepCount = min 65535 (s.time.stepCount + 1) ∧ (stepTime d s).time.rate = s.time.rate) ∧
  (∀ (th : Rat) s, (s.time.state = 1 ∨ s.time.state = 2 ∨ s.time.state = 3) →
    let t := acceptOffset th s
    (-(s.time.slewPpm : Rat)) / 1000000 ≤ t.time.rate ∧ t.time.rate ≤ (s.time.slewPpm : Rat) / 1000000 ∧
    t.time.now = s.time.now ∧ t.time.offsets = min (2 ^ 32 - 1) (s.time.offsets + 1)) ∧
  (∀ (th : Rat) s, s.time.state = 0 → s.time.srcKind ≠ 1 → onOffset th s = s) ∧
  (∀ (th : Int) s, s.time.state = 0 → s.time.srcKind = 1 →
    let u := s.modTime fun t => { t with lastOffset := clampI (-2147483648) 2147483647 th }
    (stepFits s (-(th : Rat)) = true → onOffset (th : Rat) s = relock (stepTime (-(th : Rat))
      (bump (ctr 0x12 0 4) (u.modTime fun t => { t with offsets := min (2 ^ 32 - 1) (t.offsets + 1) })))) ∧
    (stepFits s (-(th : Rat)) = false → onOffset (th : Rat) s = bump (ctr 0x12 0 2) u)) ∧
  (∀ s, s.time.srcKind ≠ 0 → (relock s).time.state = 1 ∧ (relock s).time.stepRefused = false) ∧
  (∀ (th : Int) s, let m := clampI (-2147483648) 2147483647 th
    (s.time.state = 4 → onOffset (th : Rat) s = s.modTime fun t =>
      { t with lastOffset := m, pending := th, refusedCount := min 65535 (t.refusedCount + 1) }) ∧
    (s.time.state = 1 ∨ s.time.state = 2 ∨ s.time.state = 3 → (s.time.stepNs * 256 : Nat) < th.natAbs →
      (onOffset (th : Rat) s).time.state = 4 ∧ (onOffset (th : Rat) s).time.pending = th ∧
      (onOffset (th : Rat) s).time.stepRefused = true ∧ (onOffset (th : Rat) s).time.now = s.time.now ∧
      (onOffset (th : Rat) s).time.rate = s.time.rate) ∧
    (s.time.state = 1 ∨ s.time.state = 2 ∨ s.time.state = 3 → th.natAbs ≤ (s.time.stepNs * 256 : Nat) →
      onOffset (th : Rat) s = acceptOffset (th : Rat) (s.modTime fun t => { t with lastOffset := m }))) ∧
  (∀ s, ((s.time.state = 1 ∨ s.time.state = 2) → s.time.holdFrom + usU (1000 * s.time.holdoverMs) ≤ s.time.now →
      exec .holdoverTimeout s = .next (setTimeState 3 (s.modTime fun t => { t with goodRun := 0, badRun := 0 }))) ∧
    ((s.time.state ≠ 1 ∧ s.time.state ≠ 2) ∨ s.time.now < s.time.holdFrom + usU (1000 * s.time.holdoverMs) →
      exec .holdoverTimeout s = .next s)) ∧
  (∀ s, let d := s.modTime fun t => { t with pinAt := tput t.pinAt 8 t.hearthPs }
    (s.power.on0.getLsbD 6 = false → exec .ppsInEdge s = .next s) ∧
    (s.power.on0.getLsbD 6 = true → edgeSoon s 8 500000000000 = false → exec .ppsInEdge s = .next (ppsStamped d)) ∧
    (s.power.on0.getLsbD 6 = true → edgeSoon s 8 500000000000 = true → exec .ppsInEdge s = .next d.tookFree ∨ exec .ppsInEdge s = .next (ppsStamped d.tookFree))) ∧
  (∀ s, s.time.ppsSet = [] → ∃ e : Int, -512 ≤ e ∧ e ≤ 512 ∧
    (512 ≤ s.time.now → let t := ((s.time.now : Int) + e - s.time.ppsDelay).toNat
      let u := captureAt 0 0 t s.tookFree
      (s.time.srcKind ≠ 2 → ppsStamped s = u) ∧
      (s.time.srcKind = 2 → ppsStamped s = onOffset (if t % secU 1 < secU 1 / 2 then ((t % secU 1 : Nat) : Rat)
        else ((t % secU 1 : Nat) : Rat) - (secU 1 : Nat)) u))) ∧
  (∀ s x, s.time.ppsSet = [x] → ∃ e : Int, -512 ≤ e ∧ e ≤ 512 ∧
    (512 ≤ s.time.now → let t := ((s.time.now : Int) + e - s.time.ppsDelay).toNat
      let u := (captureAt 0 0 t s.tookFree).modTime fun y => { y with ppsSet := [] }
      (x.since + secU 2 ≤ t → ppsStamped s = endWith x.cmd 0x03 0 u) ∧
      (t < x.since + secU 2 → ppsStamped s =
        endWith x.cmd 0x00 0 (relock (stepTime (((secU (secOf x.value) : Nat) : Rat) - (t : Nat)) u))))) ∧
  (∀ s, let m := secU (secOf s.time.now)
    let rises : Prop := timeUnset s = false ∧ s.power.on0.getLsbD 6 = true ∧ reached s m = true ∧
      (s.time.ppsOut = true → s.time.ppsRise < m)
    (reached s m = true ↔ s.time.stepped ≤ m ∧ s.time.now < m + 1639) ∧
    (rises → ∃ t, m ≤ t + 512 ∧ t ≤ Nat.max m 512 + 512 ∧ exec .ppsOutEdge s = .next (emit (.ppsOut true) (captureAt 1 0 t
      (s.tookFree.modTime fun x => { x with ppsOut := true, ppsRise := x.now })))) ∧
    (¬rises → exec .ppsOutEdge s = .next s) ∧
    (s.time.ppsOut = true → s.time.ppsRise + usU (1000 * s.time.ppsWidthMs) ≤ s.time.now →
      exec .ppsOutFall s = .next (emit (.ppsOut false) (s.modTime fun x => { x with ppsOut := false }))) ∧
    (s.time.ppsOut = false ∨ s.time.now < s.time.ppsRise + usU (1000 * s.time.ppsWidthMs) → exec .ppsOutFall s = .next s)) ∧
  (∀ (n : Fin 8) rising s, let d := s.modTime fun t => { t with pinAt := tput t.pinAt n t.hearthPs }
    let on : Prop := (if n.val < 4 then s.power.on0 else s.power.on1).getLsbD 6 = true
    (s.time.edges.getLsbD n = rising ∨ ¬on → exec (.capInEdge n rising) s = .next s) ∧
    (s.time.edges.getLsbD n ≠ rising → on → edgeSoon s n 100000 = false →
      ∃ t, exec (.capInEdge n rising) s = .next (captureAt (32 + n) 0 t d.tookFree)) ∧
    (s.time.edges.getLsbD n ≠ rising → on → edgeSoon s n 100000 = true → exec (.capInEdge n rising) s = .next d.tookFree ∨
      ∃ t, exec (.capInEdge n rising) s = .next (captureAt (32 + n) 0 t d.tookFree.tookFree))) ∧
  (∀ s, s.time.ppsSet = [] → exec .timeSetPpsExpired s = .next s) ∧
  (∀ s x rest, s.time.ppsSet = x :: rest →
    (x.since + secU 2 ≤ s.time.now →
      exec .timeSetPpsExpired s = .next (endWith x.cmd 0x03 0 (s.modTime fun t => { t with ppsSet := rest }))) ∧
    (s.time.now < x.since + secU 2 → exec .timeSetPpsExpired s = .next s)) ∧
  (∀ (p : Fin 1024) s, let x := thePtp s p
    let master : Prop := (timeLane s p).isSome = true ∧ x.role = 1 ∧ timeUnset s = false
    let asks : Prop := (timeLane s p).isSome = true ∧ (x.mech = 1 ∨ x.role = 2)
    (master →
      (let (o, f) := freeBytes 10 s
       let u := modPtp p (fun x => { x with syncSeq := (x.syncSeq + 1) % 65536 }) f
       exec (.ptpSyncSend p) s = .next (sendTime p (ptpMsg u p 0 x.syncSeq 0 true x.logSync 0 o) .syncFollow u)) ∧
      (let (o, f) := freeBytes 30 s
       let u := modPtp p (fun x => { x with announceSeq := (x.announceSeq + 1) % 65536 }) f
       exec (.ptpAnnounceSend p) s = .next (sendTime p (ptpMsg u p 11 x.announceSeq 5 false x.logAnnounce 0 o) .none u))) ∧
    (¬master → exec (.ptpSyncSend p) s = .next s ∧ exec (.ptpAnnounceSend p) s = .next s) ∧
    (asks → let (o, f) := freeBytes 10 s
      let u := modPtp p (fun x => { x with delaySeq := (x.delaySeq + 1) % 65536 }) f
      let m := if x.mech = 1 then ptpMsg f p 2 x.delaySeq 5 false 127 0 (o ++ beBytes 10 0)
        else ptpMsg f p 1 x.delaySeq 1 false 127 0 o
      exec (.ptpDelayReqSend p) s = .next (sendTime p m .request u)) ∧
    (¬asks → exec (.ptpDelayReqSend p) s = .next s)) ∧
  (∀ n p s x rest l, tget s.link.timeQ [] p = x :: rest → timeLane s p = some l →
    ((laneLink s l).tx.isSome = true → timeGo (n + 1) p s = s) ∧
    ((laneLink s l).tx = none → ∃ t, s.time.now ≤ t + 204 ∧ t ≤ Nat.max s.time.now 204 + 204 ∧
      timeGo (n + 1) p s = timeGo n p (stamped p x t (putTime p l x.msg
        (s.modLink fun k => { k with timeQ := tset k.timeQ [] p rest }).tookFree)))) ∧
  (∀ (l : Fin 1024) k s, (portOfLane s l = none → exec (.timePacketRx l k) s = .next s) ∧
    (∀ p, portOfLane s l = some p → takesPackets s l p = false ∨ isTime k.hdr = false ∨ 12 < k.hdr.len → exec (.timePacketRx l k) s = .next s)) ∧
  (∀ (l : Fin 1024) k s p, portOfLane s l = some p → takesPackets s l p = true → isTime k.hdr = true → k.hdr.len ≤ 12 →
    let n := 40 + 16 * k.hdr.len
    let u := bumpBy (ctr 4 (barnOf p) (p % 64)) n (bump (ctr 3 (barnOf p) (p % 64)) (bumpBy (ctr 1 (barnOf p) 1) n (bumpIn (barnOf p) 0 s)))
    (crcOk k = false → exec (.timePacketRx l k) s = .next (termCrcFail p k u)) ∧
    (crcOk k = true → timeDrops u p k = true → exec (.timePacketRx l k) s = .next (bump (ctr 0x12 0 1) u)) ∧
    (crcOk k = true → timeDrops u p k = false → ∃ t, exec (.timePacketRx l k) s =
      .next (ptpReceive p (k.payload.take (ptpNum k.payload 2 2)) t (bump (ctr 0x12 0 6) u).tookFree))) ∧
  (∀ p m t s, (thePtp s p).role = 2 → ptpType m = 0 → ptpTwoStep m = true → ptpReceive p m t s = modPtp p (fun x =>
    { x with awaitSeq := some (ptpSeq m), rxStamp := (t : Rat), rxCorr := ptpCorr m }) s) ∧
  (∀ p s, (thePtp s p).fresh = true → (thePtp s p).haveDelay = true → isSource s p = true → syncOffset p s =
    onOffset ((thePtp s p).t2 - (thePtp s p).t1 - (thePtp s p).meanDelay - (thePtp s p).asym)
      (modPtp p (fun x => { x with fresh := false }) s))

/-- The Kindling table (R312 to R320, R332). KINDLE_ARM takes an entry that breaks no rule and executes it at once where its
launch has passed; it refuses an armed entry, an unset time, a bad field, an object of another partition, a spent quota, an
unsealed version, a second armed ROUTE_COMMIT and a late launch with REFUSE_LATE, in this order, and one of a RETIRING partition before its
objects are looked at. KINDLE_DISARM disarms and returns
whether the entry has been performed and its count. A row executes an entry of its action that is due, late if E is more than
20 ns after the launch, and no other. The execution performs the action unless it is late and the entry refuses that; it stands for
every launch that has passed, records the outcome, the count and the time, arms the next occurrence of a periodic entry, captures
and posts what R318 says; of entries due at one instant the lowest goes first. The model's choices: log entries 6, 18 and 19 (checks), 41
(a failing copy that the write mends), 45 (the commit), 58 (the bank), 89, 111 (which launch is meant), 112 (arming late), 113 (seeds). KINDLE_ARM, KINDLE_DISARM, KINDLE_ROUTE_COMMIT, KINDLE_FLUE_SWITCH, COLL_RELEASE, MC_RELEASE of an output
and of a seed, SHAPER_BANK, COUNTER_DUMP, TIMED_NOTICE and SEED_PACKET_SEND complete. -/
def Obligations.Kindling : Prop :=
  (∀ h args s, let i := Instr.kindleArm h args
    let e := argN args 1
    let k0 : KEntry := { image := kImage args, armed := true }
    let k : KEntry := { k0 with next := kLaunch k0 }
    let t := clearParity .kindling (· == e) (modK e (fun _ => k) (fetched i s))
    accepted i s = true →
    (256 ≤ e → exec i s = .next (refusedEnd i s 0x01 1)) ∧
    (e < 256 → (theK s e).armed = true → exec i s = .next (refusedEnd i s 0x02 0)) ∧
    (e < 256 → (theK s e).armed = false → timeUnset s = true → exec i s = .next (refusedEnd i s 0x1C 0)) ∧
    (e < 256 → (theK s e).armed = false → timeUnset s = false →
      (∀ w, kBadWord k = some w → exec i s = .next (refusedEnd i s 0x01 w)) ∧
      (kBadWord k = none → (thePart s (kPartition k)).state = 2 → exec i s = .next (refusedEnd i s 0x0D 0)) ∧
      (kBadWord k = none → (thePart s (kPartition k)).state ≠ 2 → kPermits s k = false → exec i s = .next (refusedEnd i s 0x0B 0)) ∧
      (kBadWord k = none → (thePart s (kPartition k)).state ≠ 2 → kPermits s k = true →
        (∀ q, quotaRefusal s (kPartition k) 2 1 = some q → exec i s = .next (refusedEnd i s q.1 q.2)) ∧
        (quotaRefusal s (kPartition k) 2 1 = none →
          (kAction k = 1 → nonActiveNow s ≠ .sealedV → exec i s = .next (refusedEnd i s 0x11 0)) ∧
          (kAction k = 1 → nonActiveNow s = .sealedV → commitArmed s = true → exec i s = .next (refusedEnd i s 0x02 0)) ∧
          ((kAction k = 1 → nonActiveNow s = .sealedV ∧ commitArmed s = false) →
            (s.time.now ≤ k.next → exec i s = .next (okEnd i s [] t)) ∧
            (k.next < s.time.now → kRefuseLate k = true → exec i s = .next (refusedEnd i s 0x1D 0)) ∧
            (k.next < s.time.now → kRefuseLate k = false → exec i s = .next (okEnd i s [] (kindleExec e true t)))))))) ∧
  (∀ h args s, let i := Instr.kindleDisarm h args
    let e := argN args 1
    accepted i s = true →
    (256 ≤ e → exec i s = .next (refusedEnd i s 0x01 1)) ∧
    (e < 256 → exec i s = .next (okEnd i s [if (theK s e).performed then 1 else 0, w32 (min (2 ^ 32 - 1) (theK s e).count)]
      (if (theK s e).armed then modK e (fun k => { k with armed := false }) (fetched i s) else fetched i s)))) ∧
  (∀ s e, kindleDue s e = true ↔ kLive s e = true ∧ (theK s e).next ≤ s.time.now ∧
    ∀ x ∈ s.kindle, x.1 < e → kLive s x.1 = true → s.time.now < x.2.next) ∧
  (∀ (e : Fin 256) s row, (row = (Instr.kindleRouteCommit e, 1) ∨ row = (.kindleFlueSwitch e, 2) ∨ row = (.collRelease e, 3) ∨
      row = (.shaperBank e, 5) ∨ row = (.counterDump e, 6) ∨ row = (.timedNotice e, 7)) →
    (kindleDue s e = true → kAction (theK s e) = row.2 →
      exec row.1 s = .next (kindleExec e (decide ((theK s e).next + nsU 20 < s.time.now)) s)) ∧
    (kindleDue s e = false ∨ kAction (theK s e) ≠ row.2 → exec row.1 s = .next s)) ∧
  (∀ (e : Fin 256) s, let late := decide ((theK s e).next + nsU 20 < s.time.now)
    let seed := bitAt (kArg (theK s e)) 31
    (kindleDue s e = true → kAction (theK s e) = 4 →
      exec (.mcRelease e) s = .next (if seed then s else kindleExec e late s) ∧
      exec (.mcReleaseSeed e) s = .next (if seed then kindleExec e late s else s)) ∧
    (kindleDue s e = false ∨ kAction (theK s e) ≠ 4 → exec (.mcRelease e) s = .next s ∧ exec (.mcReleaseSeed e) s = .next s)) ∧
  (∀ k s, let m := launchesBefore k s.time.now
    (m ≤ k.launches → launchTaken k s = (m, s)) ∧
    (k.launches < m → k.launches ≤ (launchTaken k s).1 ∧ (launchTaken k s).1 ≤ m ∧ (launchTaken k s).2 = s.tookFree)) ∧
  (∀ e late s, let k := theK s e
    let m := launchesBefore k s.time.now
    let (n, r) := launchTaken k s
    let t := kLaunch k + n * nsU (kPeriod k)
    let more := decide (kPeriod k ≠ 0) && (kRepeat k == 0 || decide (m + 1 < kRepeat k))
    ∀ a u code, (if late && kRefuseLate k then a = Acted.refused ∧ u = r ∧ code = 4
        else act e k t (n + 1) late r = (a, u) ∧ (a = .done → code = if late then 2 else 1) ∧ (a = .refused → code = 3) ∧
          (a = .delayed → code = 5)) →
      ∃ v, kindleExec e late s = postOutcome e code t (capture 6 (e * 256 + code) v) ∧
        theK v e = { theK u e with
          armed := more, next := if more then kLaunch k + (m + 1) * nsU (kPeriod k) else t, outcome := code,
          count := (theK u e).count + 1, performed := (theK u e).performed || code == 1 || code == 2,
          lastExec := u.time.now, launches := m + 1 }) ∧
  (∀ e k t n late s,
    (kAction k = 1 → nonActiveNow s = .sealedV → act e k t n late s = (.done, flip s.time.now s)) ∧
    (kAction k = 1 → nonActiveNow s ≠ .sealedV → act e k t n late s = (.refused, s)) ∧
    (kAction k = 5 → act e k t n late s = (.done, s.modSched fun d => { d with bankPend := some (fld (kArg k) 1 0) })) ∧
    (kAction k = 6 → act e k t n late s = (.done, latch 4 (fld (kArg k) 15 0) e s))) ∧
  (∀ (d : Fin 64) ue s, let x := theSeed s d
    (x.state ≠ 2 ∨ x.length ≤ x.sent ∨ barnUp s (granHome (x.offset + x.sent)) = false → exec (.seedPacketSend d ue) s = .next s) ∧
    (x.state = 2 → x.sent < x.length → barnUp s (granHome (x.offset + x.sent)) = true →
      let n := min 4096 (x.length - x.sent)
      let o := x.offset + x.sent
      let t := if ue = true then memUE o x.partition none s
        else originate (granHome o) (seedHeader s x n) (daRead s o n) none s
      exec (.seedPacketSend d ue) s = .next (settleSeeds (modSeed d (fun x =>
        { x with sent := x.sent + n, lastPid := if t.core.nextPid = s.core.nextPid then x.lastPid else some s.core.nextPid }) t))))

/-! ### Partitions, seeds, retirement and resets (R323 to R340) -/

/-- The commands on partitions, ports, allowances and seeds (R323 to R326, R328, R329, R331, R340). A FREE partition takes the limits
given, an ACTIVE one new limits while its charges allow; a port takes its mode, an allow entry its pair, a seed its record, and a
seed that is not being sent is freed. Every other partition record stays. A record in use is BUSY, a RETIRING partition
PARTITION_RETIRING, a field out of range BAD_ARGUMENT. PART_RETIRE of 0x000 and of numbers above 4095 is BAD_ARGUMENT, of a FREE
partition QUOTA_EXCEEDED, of a RETIRING one PARTITION_RETIRING; an ACTIVE one is retired: its work stops, its contexts are RETIRING, and
while an ABORT copy has not left the command waits; step 4 leaves no valid window, tree or allow entry that names it, no seed that is its,
and the scrub of its former ranges to run. The model's choices: the order of the checks and DETAIL (log entries 18, 19, 116), what waits (23,
114), the scrub's ranges (115), failing copies that a write mends (41), seeds (113). PART_CREATE, PART_QUOTA,
PART_PORT_SET, PART_ALLOW_WRITE, PART_SCRUB_CONFIG, SEED_DEFINE, SEED_FREE and PART_RETIRE complete. -/
def Obligations.PartitionsAndSeeds : Prop :=
  (∀ h args s, let i := Instr.partCreate h args
    let w := argWords args 1 4
    let p := fld (arg args 1) 11 0
    accepted i s = true →
    (∀ d, partBad w = some d → exec i s = .next (refusedEnd i s 0x01 d)) ∧
    (partBad w = none → (thePart s p).state = 1 → exec i s = .next (refusedEnd i s 0x02 0)) ∧
    (partBad w = none → (thePart s p).state = 2 → exec i s = .next (refusedEnd i s 0x0D 0)) ∧
    (partBad w = none → (thePart s p).state = 0 → ∃ t, exec i s = .next (okEnd i s [] t) ∧
      (∀ q, thePart t q = if q = p then partOf w 1 else thePart s q) ∧
      t = { fetched i s with jobs := { s.jobs with parts := t.jobs.parts },
                             routing := { s.routing with parity := t.routing.parity } })) ∧
  (∀ h args s, let i := Instr.partQuota h args
    let w := argWords args 1 4
    let p := fld (arg args 1) 11 0
    accepted i s = true →
    (∀ d, partBad w = some d → exec i s = .next (refusedEnd i s 0x01 d)) ∧
    (partBad w = none → (thePart s p).state = 0 → exec i s = .next (refusedEnd i s 0x0C 0)) ∧
    (partBad w = none → (thePart s p).state = 2 → exec i s = .next (refusedEnd i s 0x0D 0)) ∧
    (partBad w = none → (thePart s p).state = 1 → (∃ r, r < 4 ∧ limitOf (partOf w 1) r < chargeOf s p r) →
      exec i s = .next (refusedEnd i s 0x02 0)) ∧
    (partBad w = none → (thePart s p).state = 1 → (∀ r, r < 4 → chargeOf s p r ≤ limitOf (partOf w 1) r) →
      ∃ t, exec i s = .next (okEnd i s [] t) ∧ (∀ q, thePart t q = if q = p then partOf w 1 else thePart s q) ∧
        t = { fetched i s with jobs := { s.jobs with parts := t.jobs.parts },
                               routing := { s.routing with parity := t.routing.parity } })) ∧
  (∀ h args s, let i := Instr.partPortSet h args
    let p := argN args 1
    let m := fld (arg args 2) 31 30
    let q := fld (arg args 2) 11 0
    accepted i s = true →
    (1024 ≤ p ∨ portBase s p = false → exec i s = .next (refusedEnd i s 0x01 1)) ∧
    (p < 1024 → portBase s p = true → m = 3 ∨ (m = 1 ∧ q = 0) ∨ (m ≠ 1 ∧ q ≠ 0) → exec i s = .next (refusedEnd i s 0x01 2)) ∧
    (p < 1024 → portBase s p = true → m = 1 → q ≠ 0 → (thePart s q).state = 2 → exec i s = .next (refusedEnd i s 0x0D 0)) ∧
    (p < 1024 → portBase s p = true → m < 3 → (m = 1 ↔ q ≠ 0) → (m = 1 → (thePart s q).state ≠ 2) →
      exec i s = .next (okEnd i s [] ((fetched i s).modJobs fun j => { j with portPart := tset j.portPart {} p ⟨m, q⟩ })))) ∧
  (∀ h args s, let i := Instr.partAllowWrite h args
    let v := bitAt (arg args 2) 31
    let g := fld (arg args 2) 23 12
    let o := fld (arg args 2) 11 0
    accepted i s = true → (256 ≤ argN args 1 → exec i s = .next (refusedEnd i s 0x01 1)) ∧
    (argN args 1 < 256 →
    (v = true → g = 0 ∨ o = 0 ∨ g = o → exec i s = .next (refusedEnd i s 0x01 2)) ∧
    (v = true → g ≠ 0 → o ≠ 0 → g ≠ o → (thePart s g).state = 2 ∨ (thePart s o).state = 2 →
      exec i s = .next (refusedEnd i s 0x0D 0)) ∧
    (v = false ∨ (g ≠ 0 ∧ o ≠ 0 ∧ g ≠ o ∧ (thePart s g).state ≠ 2 ∧ (thePart s o).state ≠ 2) →
      exec i s = .next (okEnd i s [] (clearParity .allow (· == argN args 1) ((fetched i s).modJobs fun j =>
        { j with allow := tset j.allow {} (argN args 1) ⟨v, g, o⟩ })))))) ∧
  (∀ h args s, let i := Instr.partScrubConfig h args
    accepted i s = true →
    (1 ≤ argN args 1 → argN args 1 ≤ 250 →
      exec i s = .next (okEnd i s [] ((fetched i s).modJobs fun j => { j with scrubRate := argN args 1 }))) ∧
    (argN args 1 < 1 ∨ 250 < argN args 1 → exec i s = .next (refusedEnd i s 0x01 1))) ∧
  (∀ h args s, let i := Instr.seedDefine h args
    let x := seedOf (wordsOf (hostRead (fetched i s) (arg64 args 2) 32))
    let t := tget s.routing.trees {} x.treeId
    accepted i s = true → (64 ≤ argN args 1 → exec i s = .next (refusedEnd i s 0x01 1)) ∧
    (argN args 1 < 64 →
    ((theSeed s (argN args 1)).state ≠ 0 → exec i s = .next (refusedEnd i s 0x02 0)) ∧
    ((theSeed s (argN args 1)).state = 0 →
      (seedOk s x = false → exec i s = .next (refusedEnd i s 0x01 2)) ∧
      (seedOk s x = true → (thePart s x.partition).state = 2 → exec i s = .next (refusedEnd i s 0x0D 0)) ∧
      (seedOk s x = true → (thePart s x.partition).state ≠ 2 →
        (t.valid = false ∨ t.partition ≠ x.partition → exec i s = .next (refusedEnd i s 0x01 2)) ∧
        (t.valid = true → t.partition = x.partition →
          (windowFor s x.partition x.offset x.length true false = none → exec i s = .next (refusedEnd i s 0x0B 0)) ∧
          (windowFor s x.partition x.offset x.length true false ≠ none →
            exec i s = .next (okEnd i s [] (modSeed (argN args 1) (fun _ => x) (fetched i s))))))))) ∧
  (∀ h args s, let i := Instr.seedFree h args
    accepted i s = true → (64 ≤ argN args 1 → exec i s = .next (refusedEnd i s 0x01 1)) ∧
    (argN args 1 < 64 →
    ((theSeed s (argN args 1)).state = 2 → exec i s = .next (refusedEnd i s 0x02 0)) ∧
    ((theSeed s (argN args 1)).state ≠ 2 → exec i s = .next (okEnd i s [] (modSeed (argN args 1) (fun _ => {}) (fetched i s)))))) ∧
  (∀ h args s, let i := Instr.partRetire h args
    let p := argN args 1
    accepted i s = true →
    (p = 0 ∨ 4095 < p → exec i s = .next (refusedEnd i s 0x01 1)) ∧
    (0 < p → p ≤ 4095 → (thePart s p).state = 0 → exec i s = .next (refusedEnd i s 0x0C 0)) ∧
    (0 < p → p ≤ 4095 → (thePart s p).state = 2 → exec i s = .next (refusedEnd i s 0x0D 0)) ∧
    (0 < p → p ≤ 4095 → (thePart s p).state = 1 →
      let u := retireStop p (fetched i s)
      let v := retireContexts p u
      let pids := List.range' u.core.nextPid (v.core.nextPid - u.core.nextPid)
      (pidsLeft v pids = true → exec i s = .next ((addDetached (refOf i s) .none v).modJobs fun j =>
        { j with retiring := j.retiring ++ [{ partition := p, pids := pids, cmd := some (refOf i s), ranges := [] }] })) ∧
      (pidsLeft v pids = false → let r : Retire := { partition := p, pids := [], cmd := none, ranges := [] }
        exec i s = .next (okEnd i s [] (retireStep4 r (v.modJobs fun j => { j with retiring := j.retiring ++ [r] })))))) ∧
  (∀ (r : Retire) s, let r' : Retire := { r with cmd := none, ranges := scrubRanges r.partition s }
    ∃ t, retireStep4 r s = settleRetire r' (match r.cmd with
        | some c => endWith c 0x00 0 t
        | none => t) ∧
      t.jobs.retiring = s.jobs.retiring.map (fun x => if x.partition = r.partition then r' else x) ∧
      (∀ e ∈ t.mem.windows, e.2.valid = true → e.2.partition ≠ r.partition) ∧
      (∀ e ∈ t.routing.trees, e.2.valid = true → e.2.partition ≠ r.partition) ∧
      (∀ e ∈ t.jobs.allow, e.2.valid = true → e.2.guest ≠ r.partition ∧ e.2.host ≠ r.partition) ∧
      (∀ e ∈ t.jobs.seeds, e.2.partition ≠ r.partition))

/-- Resets (R28, R155, R242, R333, R335, R340, R355, R418). DEVICE_RESET and HALF_RESET abort the contexts they touch and leave the
reset to begin. At RESET_BEGIN, once the notices sent for it have left or 50 µs have passed, the command completes and the half, or the device,
is reset: after a device reset the half domains are at their reset state but for the Silo's contents, with a DEVICE_TAG that is
not 0 and every laser off, and the partitions, the contexts and the tables are empty. BARN_RESET of a barn that no context uses
resets it; one in use is BUSY, one above 15 BAD_ARGUMENT; it rejoins at BARN_READY. A half that is powered comes up at HALF_READY.
The device is released once its master references are in tolerance, and held otherwise. The model's choices: log entries 12 (DEVICE_TAG),
34 (pending resets, their packets and a half without power), 35, 66 (fences), 96 (lasers), 117, 119, 120 (what a reset keeps), 121. DEVICE_RESET, HALF_RESET, RESET_BEGIN,
BARN_RESET, BARN_READY, HALF_READY and DEVICE_RESET_RELEASE complete. -/
def Obligations.Resets : Prop :=
  (∀ h args s, let i := Instr.deviceReset h args
    let a := ((s.coll.filter fun e => e.2.state == .active).map Prod.fst).foldl (fun s k => abortPlain k 9 s) (fetched i s)
    let b := (a.flue.filter fun e => e.2.state != 0).foldl (fun s e => flueNotice e.1 3 s.time.now s) a
    let x := settleFences 64 b
    let sent := List.range' s.core.nextPid (x.core.nextPid - s.core.nextPid)
    accepted i s = true → exec i s = .next ((x.modPower fun p =>
      { p with pending := .device, pendAt := x.time.now, pendPids := sent }).modHearth fun h => { h with pendingReset := some (refOf i s) })) ∧
  (∀ h args s, let i := Instr.halfReset h args
    let a := (ctxsHit s (argN args 1)).foldl (fun s k => abortPlain k 9 s) (fetched i s)
    let x := settleFences 64 a
    let sent := List.range' s.core.nextPid (x.core.nextPid - s.core.nextPid)
    accepted i s = true →
    (1 < argN args 1 → exec i s = .next (refusedEnd i s 0x01 1)) ∧
    (argN args 1 ≤ 1 → exec i s = .next ((x.modPower fun p =>
      { p with pending := .half (argN args 1), pendAt := x.time.now, pendPids := sent }).modHearth fun h =>
        { h with pendingReset := some (refOf i s) }))) ∧
  (∀ s, let waits : Prop := pidsLeft s s.power.pendPids = true ∧ s.time.now < s.power.pendAt + usU 50
    (s.power.pending = .none ∨ waits → exec .resetBegin s = .next s) ∧
    (∀ hf, s.power.pending = .half hf → ¬waits →
      let t := endPending (s.modPower fun p => { p with pending := .none, pendPids := [] })
      exec .resetBegin s = .next (if halfPowered s hf = true then halfReset hf 2 t else t))) ∧
  (∀ s, s.power.pending = .device → pidsLeft s s.power.pendPids = false ∨ s.power.pendAt + usU 50 ≤ s.time.now → ∃ t, exec .resetBegin s = .next t ∧
    t.routing = State.reset.routing ∧ t.core = State.reset.core ∧ t.sched = State.reset.sched ∧ t.coll = [] ∧
    t.thresh = State.reset.thresh ∧ t.optics = State.reset.optics ∧ t.flue = [] ∧ t.kindle = [] ∧ t.jobs = State.reset.jobs ∧
    t.mem = { State.reset.mem with bytes := t.mem.bytes, bsGib := t.mem.bsGib } ∧
    (∀ c ∈ t.mem.bytes, 0x200000000000 ≤ c.1 ∧ c.1 < 0x300000000000) ∧
    (s.thresh.harvests = [] → t.mem = s.mem.afterReset) ∧ t.link = { State.reset.link with deviceTag := t.link.deviceTag } ∧ t.link.deviceTag ≠ 0 ∧
    t.power.ready0 = false ∧ t.power.ready1 = false ∧ t.power.inReset = true ∧ t.time.state = 0 ∧ t.pending = s.pending) ∧
  (∀ h args s, let i := Instr.barnReset h args
    accepted i s = true →
    (16 ≤ argN args 1 → exec i s = .next (refusedEnd i s 0x01 1)) ∧
    (argN args 1 < 16 → barnInUse s (argN args 1) = true → exec i s = .next (refusedEnd i s 0x02 0)) ∧
    (argN args 1 < 16 → barnInUse s (argN args 1) = false →
      exec i s = .next (okEnd i s [] (barnsReset (fun x => x == argN args 1) true (fetched i s))))) ∧
  (∀ (b : Fin 16) s,
    ((theBarn s b).inReset = true → halfReady s (halfOfBarn b) = true →
      exec (.barnReady b) s = .next (lanesTrain (fun x => x == b.val) (modBarn b (fun x => { x with inReset := false }) s))) ∧
    ((theBarn s b).inReset = false ∨ halfReady s (halfOfBarn b) = false → exec (.barnReady b) s = .next s)) ∧
  (∀ (hf : Fin 2) s,
    (halfPowered s hf = true → halfReady s hf = false → s.power.inReset = false →
      exec (.halfReady hf) s = .next (halfUpWith (lightHalf hf) hf s)) ∧
    (halfPowered s hf = false ∨ halfReady s hf = true ∨ s.power.inReset = true → exec (.halfReady hf) s = .next s)) ∧
  (∀ u s,
    let may : Prop := (halfPowered s 0 = true ∨ halfPowered s 1 = true) ∧ s.power.inReset = true ∧ s.power.resetHeld = false ∧
      (s.time.refOk0 = true ∨ s.time.refOk1 = true)
    (¬may → exec (.deviceResetRelease u) s = .next s) ∧
    (may → masterBad u 0 s = false → masterBad u 1 s = false → exec (.deviceResetRelease u) s = .next (noteStatus s
      (releaseHalf u 1 (releaseHalf u 0 (oneRef (s.modPower fun p => { p with resetHeld := false, inReset := false })))))) ∧
    (may → masterBad u 0 s = true ∨ masterBad u 1 s = true → ∃ t, exec (.deviceResetRelease u) s = .next t ∧
      t.power.resetHeld = true ∧ t.power.ready0 = s.power.ready0 ∧ t.power.ready1 = s.power.ready1))

/-! ### The Hearth: registers, rings, events, firmware, resets (R341 to R373, R387 to R390, R421) -/

/-- The registers (R343 to R349, R351, R361, R364, R420). A doorbell of an enabled ring that moves the tail by 1 to 32,767 entries,
no more than are free, makes them visible; one that does not move it or moves it back is counted and sets DB_ERROR; one that exceeds
the free entries is counted, sets MBX_FULL and raises interrupt cause 6. CPL_HEAD and EV_HEAD are taken. A ring comes on only with
VALID, with its counts 0 and the version in force; turned off it mutes what has detached from it. A read of LOST and of HEARTH_LOAD
clears what it reads. IF_REQUEST takes the highest common version while no ring is enabled; with none it clears VALID alone. An access
to BAR0 is of 32 aligned bits, in the MSI-X table and PBA of 64 too; any other is answered Unsupported Request. The auxiliary
interface applies a word of BAR0 at its fourth byte and reaches the local ring area and, in recovery, the registers of the image
buffer. CMD_TAIL_WRITE, CPL_HEAD_WRITE, RING_ENABLE, RING_DISABLE, EVENT_RING_ENABLE, EV_HEAD_WRITE, EV_LOST_READ, HEARTH_LOAD_READ,
IF_REQUEST_WRITE, LATCH and REGISTER_WRITE complete. The model's choices: a disabled ring takes no doorbell (log entry 24), one
operation for every write of a control word and the muting (25, 32), IF_ACTIVE kept (26), the latched instant (27), the measured
percentages (28), the MSI-X words (29), the read data as an output (141), one row for every access and the bytes of a transfer (146). -/
def Obligations.HearthRegisters : Prop :=
  (∀ (r : Fin 4) (v : Word) s, let g := theRing s r
    let t := v.toNat % 65536
    let ahead := (t + 65536 - g.cmdTail) % 65536
    (g.en = false → exec (.cmdTailWrite r v) s = .next s) ∧
    (g.en = true → ahead = 0 ∨ 32768 ≤ ahead →
      exec (.cmdTailWrite r v) s = .next (bump (ctr 0x14 0 3) (modRing r (fun g => { g with dbError := true }) s))) ∧
    (g.en = true → 0 < ahead → ahead < 32768 → 256 - inFlight g < ahead →
      exec (.cmdTailWrite r v) s = .next (raiseInt 6 0 (bump (ctr 0x14 0 2) (modRing r (fun g => { g with full := true }) s)))) ∧
    (g.en = true → 0 < ahead → ahead < 32768 → ahead ≤ 256 - inFlight g → exec (.cmdTailWrite r v) s =
      .next (modRing r (fun g => { g with cmdTail := t, doorbells := g.doorbells ++ [(t, s.time.hearthPs)] }) s))) ∧
  (∀ (r : Fin 4) v s, exec (.cplHeadWrite r v) s = .next (modRing r (fun g => { g with cplHead := v.toNat % 65536 }) s)) ∧
  (∀ (r : Fin 4) v s, ∃ t, exec (.ringEnable r v) s = .next t ∧ exec (.ringDisable r v) s = .next t ∧
    (theRing t r).perVec = bitAt v 30 ∧ (theRing t r).vector = fld v 5 0 ∧
    (bitAt v 31 = true → (theRing s r).en = false → s.hearth.ifValid = true → (theRing t r).en = true ∧ (theRing t r).cmdTail = 0 ∧
      (theRing t r).cmdHead = 0 ∧ (theRing t r).cplTail = 0 ∧ (theRing t r).cplHead = 0 ∧ (theRing t r).ver = s.hearth.ifActive) ∧
    (bitAt v 31 = true → (theRing s r).en = false → s.hearth.ifValid = false → (theRing t r).en = false) ∧
    (bitAt v 31 = false → (theRing t r).en = false ∧ ((theRing s r).en = true → ∀ d ∈ t.hearth.detached, d.cmd.ring = r.val → d.muted = true)) ∧
    (bitAt v 31 = true → (theRing s r).en = true → (theRing t r).en = true ∧ (theRing t r).cmdTail = (theRing s r).cmdTail) ∧
    ((theRing s r).en = true ∨ r = 1 ∨ r = 2 → (theRing t r).isLocal = (theRing s r).isLocal) ∧
    ∀ q, q ≠ r.val → theRing t q = theRing s q) ∧
  (∀ v s, ∃ t, exec (.eventRingEnable v) s = .next t ∧ t.hearth.ev.vector = fld v 5 0 ∧ t.hearth.ev.en = bitAt v 31 ∧
    (bitAt v 31 = true → s.hearth.ev.en = false → t.hearth.ev.evTail = 0 ∧ t.hearth.ev.evHead = 0) ∧
    t.hearth.ev.queue = s.hearth.ev.queue) ∧
  (∀ v s, ∃ t, exec (.evHeadWrite v) s = .next t ∧ t.hearth.ev.evHead = v.toNat ∧ t.hearth.ev.evTail = s.hearth.ev.evTail) ∧
  (∀ s, exec .evLostRead s = .next (modEv (fun e => { e with lost := 0 })
    (emit (.readData (leBytes 4 (pack [(16, s.hearth.ev.lost)]).toNat)) s))) ∧
  (∀ s, ∃ busy core, busy ≤ 100 ∧ core ≤ 100 ∧ exec .hearthLoadRead s = .next ((emit (.readData (leBytes 4
    (loadWord busy core s).toNat)) s.tookFree.tookFree).modHearth fun h =>
      { h with urgentMax := 0, urgentBusy := busy, coreBusy := core })) ∧
  (∀ v s, (anyEn s = true → exec (.ifRequestWrite v) s = .next (s.modHearth fun h => { h with reqIgnored := true })) ∧
    (anyEn s = false → let lo := max (fld v 7 0) s.hearth.ifMin
      let hi := min (fld v 15 8) s.hearth.ifMax
      exec (.ifRequestWrite v) s = .next (s.modHearth fun h =>
        { h with ifRequest := w32 (v.toNat % 65536), reqIgnored := false, ifValid := decide (lo ≤ hi),
                 ifActive := if lo ≤ hi then hi else h.ifActive }))) ∧
  (∀ v s, (bitAt v 0 = false → exec (.latch v) s = .next s) ∧
    (bitAt v 0 = true → ∃ d, d ≤ 5120 ∧ exec (.latch v) s = .next (s.tookFree.modHearth fun h =>
      { h with latch := timeWords (s.time.now + d), latchUnset := s.time.state == 0 }))) ∧
  (∀ v s, exec (.registerWrite (.write32 0x000C) v) s = exec (.ifRequestWrite v) s ∧
    exec (.registerWrite (.write32 0x0028) v) s = exec (.latch v) s ∧
    exec (.registerWrite (.write32 0x0210) v) s = exec (.eventRingEnable v) s ∧
    exec (.registerWrite (.write32 0x0218) v) s = exec (.evHeadWrite v) s ∧
    exec (.registerWrite (.write32 0x0114) v) s = exec (.cmdTailWrite 0 v) s ∧
    exec (.registerWrite (.write32 0x0150) v) s = exec (.ringEnable 1 v) s ∧
    exec (.registerWrite (.write32 0x01A0) v) s = exec (.cplHeadWrite 2 v) s ∧
    exec (.registerWrite (.read32 0x021C) v) s = exec .evLostRead s ∧
    exec (.registerWrite (.read32 0x0024) v) s = exec .hearthLoadRead s ∧
    exec (.registerWrite (.write32 0x0040) v) s =
      .next (s.modHearth fun h => { h with intStatus := h.intStatus &&& ~~~(BitVec.ofNat 7 v.toNat) }) ∧
    exec (.registerWrite (.write32 0x0044) v) s = .next (s.modHearth fun h => { h with intMask := BitVec.ofNat 7 v.toNat })) ∧
  (∀ (off : BitVec 16) v (high : Word) s, let n := off.toNat
    let word (x : Nat) := leBytes 4 (barRead s x).toNat
    (n % 4 = 0 → n ≠ 0x0024 → n ≠ 0x021C → exec (.registerWrite (.read32 off) v) s = .next (emit (.readData (word n)) s)) ∧
    (n % 4 ≠ 0 → exec (.registerWrite (.write32 off) v) s = .next (emit .unsupported s) ∧
      exec (.registerWrite (.read32 off) v) s = .next (emit .unsupported s)) ∧
    (n % 8 = 0 → inMsix n = true → ∃ t, exec (.registerWrite (.write32 off) v) s = .next t ∧
      exec (.registerWrite (.write64 off high) v) s = exec (.registerWrite (.write32 (off + 4)) high) t ∧
      exec (.registerWrite (.read64 off) v) s = .next (emit (.readData (word n ++ word (n + 4))) s)) ∧
    (n % 8 ≠ 0 ∨ inMsix n = false → exec (.registerWrite (.write64 off high) v) s = .next (emit .unsupported s) ∧
      exec (.registerWrite (.read64 off) v) s = .next (emit .unsupported s)) ∧
    exec (.registerWrite (.writeOther off) v) s = .next (emit .unsupported s) ∧
    exec (.registerWrite (.readOther off) v) s = .next (emit .unsupported s)) ∧
  (∀ (a : BitVec 24) v (b0 b1 b2 b3 : Byte) s,
    (a.toNat % 4 = 0 → a.toNat < 0x400 → exec (.registerWrite (.auxWrite a [b0, b1, b2, b3]) v) s =
      exec (.registerWrite (.write32 (a.setWidth 16)) (w32 (ofLe [b0, b1, b2, b3]))) s ∧
      exec (.registerWrite (.auxWrite a [b0, b1, b2]) v) s = .next s) ∧
    (a.toNat % 4 ≠ 0 → a.toNat < 0x400 → exec (.registerWrite (.auxWrite a [b0]) v) s = .next s) ∧
    (0x010000 ≤ a.toNat → a.toNat < 0x020000 →
      exec (.registerWrite (.auxWrite a [b0]) v) s = .next (localWrite (a.toNat - 0x010000) [b0] s) ∧
      exec (.registerWrite (.auxRead a 1) v) s =
        .next (emit (.readData [(memRead s.hearth.localMem (a.toNat - 0x010000) 1).getD 0 0]) s)) ∧
    (0x400000 ≤ a.toNat → a.toNat < 0x800000 → s.power.recovery = true → s.power.rcvState ≠ 1 →
      exec (.registerWrite (.auxWrite a [b0]) v) s =
        .next (s.modPower fun p => { p with rcvBuf := memWrite p.rcvBuf (a.toNat - 0x400000) [b0] })) ∧
    (a.toNat = 0x020000 → s.power.recovery = true →
      exec (.registerWrite (.auxWrite a [b0]) v) s = exec (.rcvStart (w32 b0.toNat)) s ∧
      exec (.registerWrite (.auxRead a 4) v) s =
        .next (emit (.readData (leBytes 4 (pack [(24, s.power.rcvState), (16, s.power.rcvDetail)]).toNat)) s)) ∧
    (0x020000 ≤ a.toNat → s.power.recovery = false ∨ 0x800000 ≤ a.toNat →
      exec (.registerWrite (.auxWrite a [b0]) v) s = .next s ∧
      exec (.registerWrite (.auxRead a 1) v) s = .next (emit (.readData [0]) s)))

/-- Events, resets of the interface and of the Hearth, and settings (R334, R337, R342, R362, R365, R366, R371 to R373, R377, R378).
Nothing is written while the event ring is not served; with one kind waiting its first item is written, with both kinds one of the
two. A PCIe reset disables the host's rings and the event ring and clears the interface; a Hearth reset begins at HEARTH_RESET, which
completes first, or at a watchdog expiry, which is reported, and takes the waiting events and captures and the folds; HEARTH_RETURN
ends it. A folding window that has run 100 ms reports what it has counted. MBX_NOP does nothing; DEVICE_CONFIG sets a hop limit of 1
to 255; ENDPOINT_ID_SET sets an ID of the form 0xFFxxx while no context is used and no seed is sent. EVENT_WRITE, PCIE_RESET,
HEARTH_RESET, HEARTH_WATCHDOG, HEARTH_RETURN, FAULT_REPORT_FOLD_END, MBX_NOP, DEVICE_CONFIG and ENDPOINT_ID_SET complete. The model's
choices: which of two kinds of event goes first (log entry 30), which events a reset loses and counts (31), INT_MASK at its reset
value of all ones after a PCIe reset where R365 says cleared, and the commands that are muted or answered later (32), the local ring
area and the folds (33), the settings' checks (18, 19, 35), the unknown code of the watchdog's report (124), a fold's words (140). -/
def Obligations.HearthEventsAndResets : Prop :=
  (∀ s, evServed s = false → exec .eventWrite s = .next s) ∧
  (∀ s, evServed s = true → nextCapture s.time.store = none → s.hearth.ev.queue = [] → exec .eventWrite s = .next s) ∧
  (∀ s x r, evServed s = true → nextCapture s.time.store = none → s.hearth.ev.queue = x :: r →
    exec .eventWrite s = .next (putQueued x (modEv (fun e => { e with queue := r }) s))) ∧
  (∀ s i c, evServed s = true → nextCapture s.time.store = some i → s.time.store[i]? = some c → s.hearth.ev.queue = [] →
    exec .eventWrite s = .next (putEvent (captureEvent c) (s.modTime fun t => { t with store := t.store.eraseIdx i }))) ∧
  (∀ s i c x r, evServed s = true → nextCapture s.time.store = some i → s.time.store[i]? = some c → s.hearth.ev.queue = x :: r →
    exec .eventWrite s = .next (putEvent (captureEvent c) (s.tookFree.modTime fun t => { t with store := t.store.eraseIdx i })) ∨
    exec .eventWrite s = .next (putQueued x (modEv (fun e => { e with queue := r }) s.tookFree))) ∧
  (∀ k s, ∃ t, exec (.pcieReset k) s = .next t ∧ t.hearth.ifValid = false ∧ t.hearth.ifActive = 0 ∧ t.hearth.intStatus = 0 ∧
    t.hearth.intMask = 0x7F ∧ t.hearth.msix = [] ∧ t.hearth.ev.en = false ∧ t.hearth.ev.queue = [] ∧
    (∀ r, r < 4 → (theRing s r).isLocal = false → (theRing t r).en = false) ∧
    (∀ r, r < 4 → (theRing s r).isLocal = true → theRing t r = theRing s r) ∧
    t.mem = s.mem ∧ t.coll = s.coll ∧ t.routing = s.routing) ∧
  (∀ h args s, let i := Instr.hearthReset h args
    accepted i s = true → exec i s = .next (hearthReset 2 (okEnd i s [] (fetched i s)))) ∧
  (∀ core ue s, (s.hearth.ready = true → s.hearth.inReset = false → 
      let t := if ue then report (faultAt 0x0F04 1 3 0 core) (bump (ctr 0x14 0 6) s) else s
      ∃ low sev, low < 256 ∧ sev < 4 ∧ exec (.hearthWatchdog ⟨core, ue⟩) s =
        .next (hearthReset 8 (report (faultAt (0x0E00 + low) sev 3 0 core) t.tookFree.tookFree))) ∧
    (s.hearth.ready = false ∨ s.hearth.inReset = true → exec (.hearthWatchdog ⟨core, ue⟩) s = .next s)) ∧
  (∀ cause s, let t := hearthReset cause s
    t.hearth.inReset = true ∧ t.hearth.ready = false ∧ t.hearth.ev.queue = [] ∧ t.time.store = [] ∧ t.sec.folds = [] ∧
    t.sec.debugUntil = none ∧ t.hearth.localMem = [] ∧ (∀ d ∈ t.hearth.detached, d.muted = true) ∧
    t.mem = s.mem ∧ t.coll = s.coll ∧ t.routing = s.routing ∧ t.core = s.core ∧ t.thresh = s.thresh) ∧
  (∀ s, (s.hearth.inReset = false → exec .hearthReturn s = .next s) ∧
    (s.hearth.inReset = true → let t := boot (s.modHearth fun h => { h with inReset := false })
      exec .hearthReturn s = .next (noteStatus s (if t.hearth.ready = true then hearthStart s.hearth.resetWhy (answerOwed t) else t)))) ∧
  (∀ (code : BitVec 16) (half : BitVec 2) (block : Byte) (item : BitVec 16) s,
    let loc := (code.toNat, half.toNat, block.toNat, item.toNat)
    ((s.sec.folds.find? fun f => f.rep.loc == loc) = none → exec (.faultReportFoldEnd code half block item) s = .next s) ∧
    (∀ f, (s.sec.folds.find? fun f => f.rep.loc == loc) = some f →
      let t := s.modSec fun c => { c with folds := c.folds.filter fun g => g.rep.loc != loc }
      (s.time.now < f.since + usU 100000 → exec (.faultReportFoldEnd code half block item) s = .next s) ∧
      (f.since + usU 100000 ≤ s.time.now → exec (.faultReportFoldEnd code half block item) s =
        .next (if f.count = 0 then t else sendFault f.rep f.count t)))) ∧
  (∀ h args s, let i := Instr.mbxNop h args
    accepted i s = true → exec i s = .next (okEnd i s [] (fetched i s))) ∧
  (∀ h args s, let i := Instr.deviceConfig h args
    accepted i s = true →
    (1 ≤ argN args 1 → argN args 1 ≤ 255 →
      exec i s = .next (okEnd i s [] ((fetched i s).modHearth fun h => { h with hopLimit := argN args 1 }))) ∧
    (argN args 1 < 1 ∨ 255 < argN args 1 → exec i s = .next (refusedEnd i s 0x01 1))) ∧
  (∀ h args s, let i := Instr.endpointIdSet h args
    accepted i s = true →
    (argN args 1 / 4096 ≠ 255 → exec i s = .next (refusedEnd i s 0x01 1)) ∧
    (argN args 1 / 4096 = 255 → (∃ e ∈ s.coll, ctxUsed e.2 = true) ∨ (∃ e ∈ s.jobs.seeds, e.2.state = 2) →
      exec i s = .next (refusedEnd i s 0x02 0)) ∧
    (argN args 1 / 4096 = 255 → (∀ e ∈ s.coll, ctxUsed e.2 = false) → (∀ e ∈ s.jobs.seeds, e.2.state ≠ 2) →
      exec i s = .next (okEnd i s [w32 (s.hearth.endpointId.getD 0)]
        ((fetched i s).modHearth fun h => { h with endpointId := some (argN args 1) }))))

/-- Firmware (R360, R367 to R370, R387 to R390, R421). FW_LOAD detaches unless a copy is in progress; its end judges the image by
the checks of R388, then against the fused version and the versions in force: one that passes stands in the inactive slot, VERIFIED,
and one that is refused changes nothing. FW_ACTIVATE is BUSY while a command is detached, needs a VERIFIED image, and either starts
it or reports FW_REVERTED and stays with the running one. FW_COMMIT makes a pending image the committed one and raises the fused
version. A boot starts the committed slot, or the other one with the pending mark and a report, or enters recovery; an image
installed in recovery goes into both slots, one that fails gives its DETAIL. FW_LOAD, FW_LOAD_DONE, FW_ACTIVATE, FW_COMMIT, RCV_START
and RCV_VERIFY_DONE complete. The model's choices: the order of checks (log entry 18), the image is read at FW_LOAD_DONE, the slot a
refused image leaves as it was, and what the boot ROM marks in the slots (122), the activation in one step and the order BUSY before
IMAGE_INVALID (123), fuses that saturate at 64, lost identification judged first (11, 124), recovery and its buffer (125, 146), the
algorithms of the checks (126). -/
def Obligations.Firmware : Prop :=
  (∀ h args s, let i := Instr.fwLoad h args
    accepted i s = true →
    (4194304 < argN args 3 → exec i s = .next (refusedEnd i s 0x01 3)) ∧
    (argN args 3 ≤ 4194304 → loading s = true → exec i s = .next (refusedEnd i s 0x02 0)) ∧
    (argN args 3 ≤ 4194304 → loading s = false →
      exec i s = .next (addDetached (refOf i s) (.fwLoad (arg64 args 1) (argN args 3)) (fetched i s)))) ∧
  (∀ s pre d post a n, s.hearth.detached = pre ++ d :: post → (∀ e ∈ pre, ∀ b m, e.work ≠ .fwLoad b m) → d.work = .fwLoad a n →
    let img := hostRead s a n
    let x := fwSlotOf img
    let j := 1 - s.hearth.bootSlot
    (∀ w, imageCheck s.sec img = some w →
      exec .fwLoadDone s = .next (endWith d.cmd 0x1F w s)) ∧
    (imageCheck s.sec img = none → x.secVer < s.sec.fusedVer →
      exec .fwLoadDone s = .next (endWith d.cmd 0x20 s.sec.fusedVer s)) ∧
    (imageCheck s.sec img = none → s.sec.fusedVer ≤ x.secVer → lacksVer s x = none →
      x.state = 1 ∧ exec .fwLoadDone s = .next (endWith d.cmd 0x00 0 (setSlot j x s))) ∧
    (∀ v, imageCheck s.sec img = none → s.sec.fusedVer ≤ x.secVer → lacksVer s x = some v →
      exec .fwLoadDone s = .next (endWith d.cmd 0x06 v s))) ∧
  (∀ s, loading s = false → exec .fwLoadDone s = .next s) ∧
  (∀ h args starts s, let i := Instr.fwActivate h args starts
    let j := 1 - s.hearth.bootSlot
    accepted i s = true →
    ((∃ d ∈ s.hearth.detached, holdsRing d.cmd.opcode = false) → exec i s = .next (refusedEnd i s 0x02 0)) ∧
    ((∀ d ∈ s.hearth.detached, holdsRing d.cmd.opcode = true) →
      ((fwSlot s j).state ≠ 1 → exec i s = .next (refusedEnd i s 0x1F 0)) ∧
      ((fwSlot s j).state = 1 → slotPasses s j = true → starts = true → ∃ t, exec i s = .next (okEnd i s [(fwSlot s j).version] t) ∧
        t.hearth.bootSlot = j ∧ t.hearth.fwVersion = (fwSlot s j).version ∧ t.hearth.commitPending = true ∧
        t.hearth.committed = s.hearth.committed ∧ t.hearth.switching = false) ∧
      ((fwSlot s j).state = 1 → slotPasses s j = false ∨ starts = false → ∃ t,
        exec i s = .next (writeCompletion (refOf i s) ⟨0x21, 0, []⟩ t) ∧ t.hearth.bootSlot = s.hearth.bootSlot ∧
        t.hearth.fwVersion = s.hearth.fwVersion ∧ t.hearth.commitPending = s.hearth.commitPending))) ∧
  (∀ h args s, let i := Instr.fwCommit h args
    accepted i s = true →
    (s.hearth.commitPending = false → exec i s = .next (refusedEnd i s 0x01 0)) ∧
    (s.hearth.commitPending = true → ∃ t, exec i s = .next (okEnd i s [] t) ∧ t.hearth.committed = s.hearth.bootSlot ∧
      t.hearth.commitPending = false ∧ s.sec.fusedVer ≤ t.sec.fusedVer ∧
      ∀ k, k < 64 → let now := decide (k < (fwSlot s s.hearth.bootSlot).secVer)
        t.sec.fuseA.getLsbD k = (s.sec.fuseA.getLsbD k || now) ∧ t.sec.fuseB.getLsbD k = (s.sec.fuseB.getLsbD k || now))) ∧
  (∀ s, let i := s.hearth.committed
    (idsLost s = true → boot s = s.modHearth fun h => { h with ready := false, selftest := pack [(24, 3), (0, 10)] }) ∧
    (idsLost s = false → slotPasses s i = true →
      boot s = (startSlot i (markSlot i true s)).modHearth fun h => { h with commitPending := false }) ∧
    (idsLost s = false → slotPasses s i = false → slotPasses s (1 - i) = true → boot s = report (faultAt 0x0E01 1 3 0 0)
      ((startSlot (1 - i) (markSlot (1 - i) true (markSlot i false s))).modHearth fun h => { h with commitPending := true })) ∧
    (idsLost s = false → slotPasses s i = false → slotPasses s (1 - i) = false →
      (boot s).power.recovery = true ∧ (boot s).hearth.ready = false ∧ (boot s).hearth.selftest = pack [(24, 3), (0, 9)])) ∧
  (∀ v s,
    (s.power.recovery = true → s.power.rcvState ≠ 1 → bitAt v 0 = true →
      exec (.rcvStart v) s = .next (s.modPower fun p => { p with rcvState := 1, rcvDetail := 0, rcvUse := p.rcvLen })) ∧
    (s.power.recovery = false ∨ s.power.rcvState = 1 ∨ bitAt v 0 = false → exec (.rcvStart v) s = .next s)) ∧
  (∀ s, s.power.recovery = true → s.power.rcvState = 1 → let n := s.power.rcvUse
    let img := memRead s.power.rcvBuf 0 n
    (∀ d, 516 ≤ n → n ≤ 4194304 → bootCheck s.sec img = some d →
      exec .rcvVerifyDone s = .next (s.modPower fun p => { p with rcvState := 3, rcvDetail := d })) ∧
    (n < 516 ∨ 4194304 < n → exec .rcvVerifyDone s = .next (s.modPower fun p => { p with rcvState := 3, rcvDetail := 1 })) ∧
    (516 ≤ n → n ≤ 4194304 → bootCheck s.sec img = none → ∃ t, exec .rcvVerifyDone s = .next t ∧
      fwSlot t 0 = fwSlotOf img ∧ fwSlot t 1 = fwSlotOf img ∧ t.hearth.committed = 0 ∧ t.hearth.commitPending = false ∧
      t.power = { s.power with rcvState := 2 })) ∧
  (∀ s, s.power.recovery = false ∨ s.power.rcvState ≠ 1 → exec .rcvVerifyDone s = .next s)

/-! ### Integrity and security (R381 to R386, R393, R395, R396) -/

/-- Life cycle and authorisation (R381, R382, R384 to R386). A block's checks are made in the order TYPE, UID, AUTH_SEQ,
SIGNER_KEY (skipped for ENROL), signature, and the first that fails gives the DETAIL. From MANUFACTURE an ADVANCE block signed by
the vendor leads to PROVISION with a new private identity key if the factory store is complete; in PROVISION an ENROL block
adds its key's digest while fewer than four are enrolled, and an ADVANCE block of an owner leads to FIELD if one is; from FIELD two
blocks lead to RETURN, which erases keys, OWNER_COSIGN and tag area, if every partition is FREE. DEBUG_UNLOCK opens the views for
PARAM minutes. Each accepted command raises AUTH_SEQ by 1; a refused one changes nothing; a transition closes the views, and
DEBUG_VIEWS_EXPIRE closes them when their time has passed. The test port gives full access in MANUFACTURE and RETURN, else the open
views alone. LIFECYCLE_ADVANCE, RETURN_AUTHORISE, DEBUG_UNLOCK and DEBUG_VIEWS_EXPIRE complete. The model's choices: the order of
checks and the DETAIL values that the rules leave open (log entries 18, 19, 127); the drawn key is a free value and the algorithms
are those of the standards (3, 126). -/
def Obligations.LifeCycle : Prop :=
  (∀ c typeOk slotOk enr (a : AuthBlock),
    (typeOk = false → authCheck c typeOk slotOk enr a = some 1) ∧
    (typeOk = true → a.uid ≠ c.uid.toNat → authCheck c typeOk slotOk enr a = some 2) ∧
    (typeOk = true → a.uid = c.uid.toNat → a.seq ≠ c.authSeq → authCheck c typeOk slotOk enr a = some 3) ∧
    (typeOk = true → a.uid = c.uid.toNat → a.seq = c.authSeq → enr = false → (slotOk = false ∨ signerOk c a = false) →
      authCheck c typeOk slotOk enr a = some 4) ∧
    (typeOk = true → a.uid = c.uid.toNat → a.seq = c.authSeq → enr = true ∨ (slotOk = true ∧ signerOk c a = true) →
      authCheck c typeOk slotOk enr a = if ecdsaOk a.key a.signed a.sig = true then none else some 5)) ∧
  (∀ h args s, let i := Instr.lifecycleAdvance h args
    let a := authAt args 1
    let c := s.sec
    let seq := (c.authSeq + 1) % 2 ^ 32
    accepted i s = true →
    (a.type ≠ 1 → a.type ≠ 2 → exec i s = .next (refusedEnd i s 0x22 1)) ∧
    (a.type = 1 → 2 ≤ c.life → exec i s = .next (refusedEnd i s 0x22 1)) ∧
    (a.type = 1 → c.life = 0 → authCheck c (a.param == 1) (a.slot == 0) false a = none →
      (c.factoryDone = false → exec i s = .next (refusedEnd i s 0x22 6)) ∧
      (c.factoryDone = true → ∃ key n, 1 ≤ key ∧ key < p256N ∧ exec i s = .next (okEnd i s [] { fetched i s with
        sec := { c with life := 1, identity := some key, debugUntil := none, authSeq := seq }, free := n }))) ∧
    (a.type = 1 → c.life = 1 → authCheck c (a.param == 2) (a.slot != 0) false a = none →
      (c.owners = [] → exec i s = .next (refusedEnd i s 0x22 6)) ∧
      (c.owners ≠ [] → exec i s = .next (okEnd i s []
        { fetched i s with sec := { c with life := 2, debugUntil := none, authSeq := seq } }))) ∧
    (a.type = 2 → authCheck c (c.life == 1) true true a = none →
      (4 ≤ c.owners.length → exec i s = .next (refusedEnd i s 0x22 6)) ∧
      (c.owners.length < 4 → exec i s = .next (okEnd i s [] { fetched i s with sec :=
        { c with owners := c.owners ++ [sha256 a.key], cosign := c.cosign || a.param % 2 == 1, authSeq := seq } }))) ∧
    (∀ d, a.type = 1 → c.life ≤ 1 →
      authCheck c (a.param == c.life + 1) (if c.life = 0 then a.slot == 0 else a.slot != 0) false a = some d →
      exec i s = .next (refusedEnd i s 0x22 d)) ∧
    (∀ d, a.type = 2 → authCheck c (c.life == 1) true true a = some d → exec i s = .next (refusedEnd i s 0x22 d))) ∧
  (∀ h args s, let i := Instr.returnAuthorise h args
    let v := authAt args 1
    let o := authAt args 41
    let cv := authCheck s.sec (s.sec.life == 2 && v.type == 3) (v.slot == 0) false v
    let co := authCheck s.sec (s.sec.life == 2 && o.type == 4) (o.slot != 0) false o
    accepted i s = true →
    (∀ d, cv = some d → exec i s = .next (refusedEnd i s 0x22 d)) ∧
    (∀ d, cv = none → co = some d → exec i s = .next (refusedEnd i s 0x22 d)) ∧
    (cv = none → co = none → (∃ e ∈ s.jobs.parts, e.2.state ≠ 0) → exec i s = .next (refusedEnd i s 0x02 0)) ∧
    (cv = none → co = none → (∀ e ∈ s.jobs.parts, e.2.state = 0) → exec i s = .next (okEnd i s [] { fetched i s with sec :=
      { s.sec with life := 3, identity := none, owners := [], cosign := false, tag := [], debugUntil := none,
                   authSeq := (s.sec.authSeq + 1) % 2 ^ 32 } }))) ∧
  (∀ h args s, let i := Instr.debugUnlock h args
    let a := authAt args 1
    let c := authCheck s.sec ((s.sec.life == 1 || s.sec.life == 2) && a.type == 5 && decide (1 ≤ a.param ∧ a.param ≤ 1440)) true
      false a
    accepted i s = true →
    (∀ d, c = some d → exec i s = .next (refusedEnd i s 0x22 d)) ∧
    (c = none → exec i s = .next (okEnd i s [] { fetched i s with sec :=
      { s.sec with debugUntil := some (s.time.hearthPs + a.param * 60000000000000),
                   authSeq := (s.sec.authSeq + 1) % 2 ^ 32 } }))) ∧
  (∀ s, (s.sec.debugUntil = none → exec .debugViewsExpire s = .next s) ∧
    (∀ t, s.sec.debugUntil = some t → s.time.hearthPs < t → exec .debugViewsExpire s = .next s) ∧
    (∀ t, s.sec.debugUntil = some t → t ≤ s.time.hearthPs →
      exec .debugViewsExpire s = .next { s with sec := { s.sec with debugUntil := none } })) ∧
  (∀ s, (s.sec.life = 0 ∨ s.sec.life = 3 → debugAccess s = .full) ∧
    (s.sec.life ≠ 0 → s.sec.life ≠ 3 → debugAccess s = if s.sec.debugUntil = none then .closed else .views))

/-- The tag area and the user calibration records (R381, R393, R395). TAG_WRITE takes offset and length that are multiples of 4
with a length from 4 to 512 - offset, in PROVISION and FIELD alone, and changes no other byte of the area. CAL_USER_WRITE takes
the kinds 2 to 4 at an index and a value in range and changes that one record: TX_SWING ±20, RX_POWER_OFS ±30, FADE_BASE_OFS
±100; every other kind, index or value is BAD_ARGUMENT. TAG_WRITE and CAL_USER_WRITE complete. The model's choices: the order of checks
and which word a DETAIL names (log entries 18, 19), the ranges before the life cycle (128). -/
def Obligations.TagAreaAndCalibration : Prop :=
  (∀ h args s, let i := Instr.tagWrite h args
    let off := argN args 1
    let n := argN args 2
    accepted i s = true →
    (off % 4 ≠ 0 ∨ 512 ≤ off → exec i s = .next (refusedEnd i s 0x01 1)) ∧
    (off % 4 = 0 → off < 512 → n % 4 ≠ 0 ∨ n < 4 ∨ 512 - off < n → exec i s = .next (refusedEnd i s 0x01 2)) ∧
    (off % 4 = 0 → off < 512 → n % 4 = 0 → 4 ≤ n → n ≤ 512 - off →
      (s.sec.life = 0 ∨ s.sec.life = 3 → exec i s = .next (refusedEnd i s 0x22 1)) ∧
      (s.sec.life ≠ 0 → s.sec.life ≠ 3 → ∃ m, exec i s = .next (okEnd i s []
          { fetched i s with sec := { s.sec with tag := m } }) ∧
        ∀ k, tget m 0 k = if off ≤ k ∧ k < off + n then (wordsLe (argWords args 3 (n / 4))).getD (k - off) 0 else tget s.sec.tag 0 k))) ∧
  (∀ h args s, let i := Instr.calUserWrite h args
    let kind := argN args 1
    let k := argN args 2
    let v := (arg args 3).toInt
    let count : Nat := if kind = 4 then 80 else 1024
    let bound : Int := if kind = 2 then 20 else if kind = 3 then 30 else 100
    accepted i s = true →
    (kind < 2 ∨ 4 < kind → exec i s = .next (refusedEnd i s 0x01 1)) ∧
    (2 ≤ kind → kind ≤ 4 → count ≤ k → exec i s = .next (refusedEnd i s 0x01 2)) ∧
    (2 ≤ kind → kind ≤ 4 → k < count → v < -bound ∨ bound < v → exec i s = .next (refusedEnd i s 0x01 3)) ∧
    (2 ≤ kind → kind ≤ 4 → k < count → -bound ≤ v → v ≤ bound → ∃ m, exec i s = .next (okEnd i s []
        { fetched i s with sec := { s.sec with userCal := m } }) ∧
      (∀ kd j, kd < 5 → j < 1024 → calGet { s with sec := { s.sec with userCal := m } } kd j =
        if kd = kind ∧ j = k then v else calGet s kd j)))

/-! ### Counters, Tally and tracing (R398 to R409) -/

/-- The Tally and tracing (R329, R402 to R405, R408, R409). On arguments in range TALLY_CONFIG and TRACE_CONFIG take them, and SEQ
starts at 0 when the target or KIND_MASK is another or the unit was off; out of range they are BAD_ARGUMENT with the word at fault,
PARTITION_RETIRING for a Granary ring of a retiring partition, REFUSED_PERMISSION for one in no window admitting writes. TALLY_LATCH
answers SEQ and LATCH_START of the latch that served it. A trigger that no open window takes starts a latch: of an enabled Tally it
writes record SEQ and raises SEQ; of a disabled one it is counted lost, and so is one that finds both sets waiting. A trigger within
an open window starts none: its bit is added, and its TAG taken if it comes first. A periodic latch runs once for each multiple of
PERIOD_US that device time reaches within a reference cycle, only while time is set. A dump record is a header of 64 bytes, COUNT
counter words and a trailer of 8 bytes, with COUNT 9,056 for all kinds, in slot SEQ mod SLOTS. A trace record fills slot SEQ mod
SLOTS, and is counted lost only where 256 of its barn may be pending. TALLY_CONFIG, TRACE_CONFIG, TALLY_LATCH and TALLY_PERIODIC_LATCH
complete. The model's choices: orders and DETAIL words (log entries 18, 19); LATCH_START of a row (48); records written at once, free
occupancy of the sets, the samples of a merged latch, a cycle of at most 1,639 units of 1/256 ns (6.4 ns and its tolerance), the TAG's
16 bits and the answer of a lost TALLY_LATCH (129); pending trace records (130). -/
def Obligations.TallyAndTracing : Prop :=
  (∀ h args s, let i := Instr.tallyConfig h args
    let n := argN args (6 + targetLen args 5)
    let ok := argN args 1 ≤ 1 ∧ 10 ≤ argN args 2 ∧ argN args 2 ≤ 10000000 ∧ (arg args 3) &&& 0xFFE00001#32 = 0 ∧
      argN args 4 ≤ 255 ∧ 2 ≤ n ∧ n ≤ 65536
    accepted i s = true →
    (1 < argN args 1 → exec i s = .next (refusedEnd i s 0x01 1)) ∧
    (argN args 1 ≤ 1 → argN args 2 < 10 ∨ 10000000 < argN args 2 → exec i s = .next (refusedEnd i s 0x01 2)) ∧
    (argN args 1 ≤ 1 → 10 ≤ argN args 2 → argN args 2 ≤ 10000000 →
      ((arg args 3) &&& 0xFFE00001#32 ≠ 0 → exec i s = .next (refusedEnd i s 0x01 3)) ∧
      ((arg args 3) &&& 0xFFE00001#32 = 0 → 255 < argN args 4 → exec i s = .next (refusedEnd i s 0x01 4)) ∧
      ((arg args 3) &&& 0xFFE00001#32 = 0 → argN args 4 ≤ 255 → n < 2 ∨ 65536 < n →
        exec i s = .next (refusedEnd i s 0x01 (6 + targetLen args 5)))) ∧
    (∀ target, ok → ringTarget (fetched i s) args 5 (n * slotLen (arg args 3)) = .ok target →
      let t := s.count.tally
      let same := t.enabled = true ∧ t.target = target ∧ t.kindMask = arg args 3
      exec i s = .next (okEnd i s [] ((fetched i s).modCount fun c => { c with tally :=
        { t with enabled := argN args 1 == 1, periodUs := argN args 2, kindMask := arg args 3,
                 policeMask := BitVec.ofNat 8 (argN args 4), target := target, slots := n, seq := if same then t.seq else 0,
                 last := none } }))) ∧
    (∀ st d, ok → ringTarget (fetched i s) args 5 (n * slotLen (arg args 3)) = .error (st, d) →
      exec i s = .next (refusedEnd i s st d))) ∧
  (∀ s args k n, let a := arg64 args (k + 1)
    (argN args k = 0 → ringTarget s args k n = if a % 4096 = 0 then .ok (.host a) else .error (0x01, k + 1)) ∧
    (argN args k = 1 → argN args (k + 1) = 0 ∨ 4095 < argN args (k + 1) → ringTarget s args k n = .error (0x01, k + 1)) ∧
    (argN args k = 1 → 0 < argN args (k + 1) → argN args (k + 1) ≤ 4095 → arg64 args (k + 2) % 4096 ≠ 0 →
      ringTarget s args k n = .error (0x01, k + 2)) ∧
    (argN args k = 1 → 0 < argN args (k + 1) → argN args (k + 1) ≤ 4095 → arg64 args (k + 2) % 4096 = 0 →
      (thePart s (argN args (k + 1))).state = 2 → ringTarget s args k n = .error (0x0D, 0)) ∧
    (argN args k = 1 → 0 < argN args (k + 1) → argN args (k + 1) ≤ 4095 → arg64 args (k + 2) % 4096 = 0 →
      (thePart s (argN args (k + 1))).state ≠ 2 → ringTarget s args k n = if (windowFor s (argN args (k + 1)) (arg64 args (k + 2)) n false true).isSome = true then
        .ok (.granary (argN args (k + 1)) (arg64 args (k + 2))) else .error (0x0B, 0)) ∧
    (1 < argN args k → ringTarget s args k n = .error (0x01, k))) ∧
  (∀ h args s, let i := Instr.traceConfig h args
    let n := argN args (7 + targetLen args 6)
    let ok := argN args 1 ≤ 1 ∧ 8 ≤ argN args 2 ∧ argN args 2 ≤ 24 ∧ argN args 3 ≤ 255 ∧ argN args 4 ≤ 65535 ∧ 1024 ≤ n ∧ n ≤ 16777216
    accepted i s = true →
    (1 < argN args 1 → exec i s = .next (refusedEnd i s 0x01 1)) ∧
    (argN args 1 ≤ 1 → argN args 2 < 8 ∨ 24 < argN args 2 → exec i s = .next (refusedEnd i s 0x01 2)) ∧
    (argN args 1 ≤ 1 → 8 ≤ argN args 2 → argN args 2 ≤ 24 →
      (255 < argN args 3 → exec i s = .next (refusedEnd i s 0x01 3)) ∧
      (argN args 3 ≤ 255 → 65535 < argN args 4 → exec i s = .next (refusedEnd i s 0x01 4)) ∧
      (argN args 3 ≤ 255 → argN args 4 ≤ 65535 → n < 1024 ∨ 16777216 < n →
        exec i s = .next (refusedEnd i s 0x01 (7 + targetLen args 6)))) ∧
    (∀ target, ok → ringTarget (fetched i s) args 6 (n * 64) = .ok target →
      let t := s.count.trace
      exec i s = .next (okEnd i s [] ((fetched i s).modCount fun c => { c with trace :=
        { enabled := argN args 1 == 1, logN := argN args 2, classMask := BitVec.ofNat 8 (argN args 3),
          barnMask := BitVec.ofNat 16 (argN args 4), seed := arg args 5, target := target, slots := n,
          recent := t.recent, seq := if t.enabled = true ∧ t.target = target then t.seq else 0 } }))) ∧
    (∀ st d, ok → ringTarget (fetched i s) args 6 (n * 64) = .error (st, d) → exec i s = .next (refusedEnd i s st d))) ∧
  (∀ h args s, let i := Instr.tallyLatch h args
    let t := latch 2 (argN args 1 % 65536) 256 (fetched i s)
    accepted i s = true →
    (∀ l, t.count.tally.last = some l → exec i s = .next (okEnd i s (w32 l.seq :: timeWords l.start) t)) ∧
    (t.count.tally.last = none → ∃ r n, r.length = 4 ∧ exec i s = .next (okEnd i s r { t with free := n }))) ∧
  (∀ s, let p := s.count.tally.periodUs * 256000
    let m := s.time.now / p * p
    let due := timeUnset s = false ∧ s.time.stepped ≤ m ∧ s.time.now - m < 1639 ∧ s.count.tally.lastPer ≠ some m
    (due → exec .tallyPeriodicLatch s = .next (latchAt m 1 0 257 (s.modCount fun c => { c with tally := { c.tally with lastPer := some m } }))) ∧
    (¬due → exec .tallyPeriodicLatch s = .next s)) ∧
  (∀ (trig : BitVec 3) tag rank s, (∀ l, s.count.tally.last = some l → l.start ≤ s.time.now → l.start + nsU l.windowNs ≤ s.time.now) →
    let t := s.count.tally
    let u := latch trig tag rank s
    let begun := ∃ l, u.count.tally.last = some l ∧ l.start = s.time.now ∧ 1 ≤ l.windowNs ∧ l.windowNs ≤ 200 ∧ l.trigger = trig ∧
      l.tag = tag ∧ l.seq = t.seq ∧ l.written = t.enabled ∧ l.lost = t.lost ∧ u.count.trace = s.count.trace ∧
      (t.enabled = true → l.body = dumpBody t.kindMask s ∧ u.count.tally.seq = (t.seq + 1) % 2 ^ 32 ∧ u.count.tally.lost = 0 ∧
        u.count.tally.flags = 0) ∧
      (t.enabled = false → u.count.tally.seq = t.seq ∧ u.count.tally.lost = sat (2 ^ 32 - 1) (t.lost + 1) ∧ u.mem = s.mem ∧
        u.hearth.hostMem = s.hearth.hostMem)
    (t.waiting.length < 2 → begun) ∧
    (begun ∨ (u.count.tally.last = none ∧ u.count.tally.seq = t.seq ∧ u.count.tally.lost = sat (2 ^ 32 - 1) (t.lost + 1) ∧
      u.time = s.time ∧ u.mem = s.mem ∧ u.hearth.hostMem = s.hearth.hostMem))) ∧
  (∀ (trig : BitVec 3) tag rank s l, s.count.tally.last = some l → l.start ≤ s.time.now → s.time.now < l.start + nsU l.windowNs →
    let u := latch trig tag rank s
    let first := decide (rank < l.tagFrom)
    let l' : Latch := { l with trigger := l.trigger ||| trig, tag := if first then tag else l.tag,
                               tagFrom := if first then rank else l.tagFrom }
    u.count.tally = { s.count.tally with last := some l' } ∧ u.time.store = s.time.store.map (fun c =>
      if c.source = 22 ∧ c.stamp = l.capStamp then { c with detail := l'.tag } else c) ∧
    { u.time with store := [] } = { s.time with store := [] } ∧ u.count.counters = s.count.counters) ∧
  (bodyCount 0x001FFFFE = 9056 ∧
  (∀ mask s, (dumpBody mask s).length = 8 * bodyCount mask) ∧
  (∀ l mask, (dumpRecord l mask).length = 64 + l.body.length + 8) ∧
  (∀ mask, slotLen mask % 4096 = 0 ∧ 72 + 8 * bodyCount mask ≤ slotLen mask ∧ slotLen mask < 72 + 8 * bodyCount mask + 4096) ∧
  (∀ l s a, s.count.tally.target = .host a → let m := s.count.tally.kindMask
    putDump l s = hostWrite (a + l.seq % s.count.tally.slots * slotLen m) (dumpRecord l m) s) ∧
  (∀ l s p o, s.count.tally.target = .granary p o → let m := s.count.tally.kindMask
    putDump l s = daWrite (o + l.seq % s.count.tally.slots * slotLen m) (dumpRecord l m) s)) ∧
  (∀ b words s, let t := s.count.trace
    let x := wordsLe (words ++ [w32 t.seq, 0])
    let y := x ++ leBytes 4 (crc32 x)
    let u := putTrace b words s
    let written := u.count.trace.seq = (t.seq + 1) % 2 ^ 32 ∧
      (∀ a, t.target = .host a → u.hearth.hostMem = (hostWrite (a + t.seq % t.slots * 64) y s).hearth.hostMem) ∧
      (∀ p o, t.target = .granary p o → u.mem = (daWrite (o + t.seq % t.slots * 64) y s).mem)
    (t.enabled = false → u = s) ∧
    (t.enabled = true → ((t.recent.filter fun e => e.1 == b).length < 256 → written) ∧
      (written ∨ u = bump (ctr 0x14 0 12) s.tookFree)))

/-! ### Power, references, temperature and the bridge (R20, R298, R333, R334, R412 to R418, R430) -/

/-- Rails, cold resets and pins (R333, R375, R385, R412 to R416, R426). A qualified input that is lost resets the device with cause 4
and switches every half domain off; one that is not qualified is not lost again. VAUX33 low switches everything off, and its rise is
a cold reset that finds which copies of the stores fail. A COLD_RST_N pulse of 10 µs resets, one below 1 µs does not, one between
does either whole. A cold reset keeps fuses, life cycle, tag area, calibration and firmware images, finishes the erasure of keys in
RETURN, and leaves the half domains off. HALF_POWER_ON powers and releases both halves where AUX runs firmware, the input is
qualified and no trip holds; with both references failed they stay in reset. A margin reading is only reported, while AUX runs. The
pins are released without AUX or in its reset; PPS_OUT also without the half domains and in a device reset, and a half's memory
signals unless it runs. VIN36_LOST, VIN36_QUALIFIED, VIN36_MARGIN, VAUX33_LOW, VAUX33_POWER_UP, COLD_RESET and HALF_POWER_ON
complete. The model's choices: an input once lost and its free reading (log entries 14, 131), a pulse between the limits and what a
cold reset keeps (132), the copies and slots (11, 122, 124), a half within 100 ms of its fault stays off (133), the pins (136). -/
def Obligations.RailsAndColdReset : Prop :=
  (∀ cause s, cause < 16 → let t := deviceReset 1 cause s
    let u := resetAndOff cause s
    (u = domainsOff t ∨ u = raiseInt 5 0 (domainsOff t)) ∧ u.power.on0 = 0 ∧ u.power.on1 = 0 ∧
    u.power.ready0 = false ∧ u.power.ready1 = false ∧ u.power.inReset = true ∧ u.coll = [] ∧ u.flue = [] ∧ u.kindle = [] ∧
    u.routing = State.reset.routing ∧ u.optics = { State.reset.optics with lasers := [] } ∧ u.time.state = 0 ∧
    fld u.hearth.resetCause 31 28 = 1 ∧ fld u.hearth.resetCause 27 24 = cause) ∧
  (∀ s, (s.power.qualified = false → exec .vin36Lost s = .next s) ∧
    (s.power.qualified = true → ∃ mv t, (mv < 30500 ∨ 42000 < mv) ∧
      t = (resetAndOff 4 (report (powerFault 0x1102 3 3 0 mv) s.tookFree)).modPower (fun p => { p with qualified := false }) ∧
      (exec .vin36Lost s = .next t ∨ exec .vin36Lost s = .next (raiseInt 5 0 t)))) ∧
  (∀ s, let t := s.modPower fun p => { p with qualified := true }
    exec .vin36Qualified s = .next t ∨ exec .vin36Qualified s = .next (raiseInt 5 0 t)) ∧
  (∀ mv s, let inMargin := (30500 ≤ mv ∧ mv < 32000) ∨ (40000 < mv ∧ mv ≤ 42000)
    (s.power.aux = true → inMargin → exec (.vin36Margin mv) s =
      .next (report (powerFault 0x1101 1 3 0 mv) (s.modPower fun p => { p with vin36Mv := mv }))) ∧
    (s.power.aux = false ∨ ¬inMargin → exec (.vin36Margin mv) s = .next s)) ∧
  (∀ s, ∃ t, exec .vaux33Low s = .next t ∧ t.power.aux = false ∧ t.power.on0 = 0 ∧ t.power.on1 = 0 ∧ t.power.ready0 = false ∧
    t.power.ready1 = false ∧ t.hearth.ready = false ∧ t.sec = coldSec s.sec ∧ t.coll = [] ∧ t.routing = State.reset.routing) ∧
  (∀ low bad slots s, ∃ u, exec (.vaux33PowerUp ⟨low, bad, slots⟩) s = .next (coldReset 0 low u) ∧
    u.sec = { s.sec with copiesBad := bad } ∧ u.power = s.power ∧ u.mem = s.mem ∧ ∀ i, i < 2 → fwSlot u i =
      if slots.getLsbD (2 * i) = true ∧ slots.getLsbD (2 * i + 1) = true then { fwSlot s i with state := 2, image := [] }
      else fwSlot s i) ∧
  (∀ n low s,
    (s.power.aux = false ∨ n < 1000 → exec (.coldReset n low) s = .next s) ∧
    (s.power.aux = true → 10000 ≤ n → exec (.coldReset n low) s = .next (coldReset 1 low s)) ∧
    (s.power.aux = true → 1000 ≤ n → n < 10000 → exec (.coldReset n low) s = .next s.tookFree ∨
      exec (.coldReset n low) s = .next (coldReset 1 low s.tookFree))) ∧
  (∀ cause low s, let t := coldReset cause low s
    t.power.aux = true ∧ t.power.on0 = 0 ∧ t.power.on1 = 0 ∧ t.power.ready0 = false ∧ t.power.ready1 = false ∧
    t.power.inReset = true ∧ t.power.stayOff0 = false ∧ t.power.stayOff1 = false ∧ t.power.trip = false ∧
    t.power.qualified = s.power.qualified ∧ t.coll = [] ∧ t.jobs = State.reset.jobs ∧ t.routing = State.reset.routing ∧
    t.link.ports = [] ∧ t.time.state = 0 ∧ t.sec.life = s.sec.life ∧
    (s.sec.life ≠ 3 → t.sec.owners = s.sec.owners ∧ t.sec.identity = s.sec.identity ∧ t.sec.cosign = s.sec.cosign ∧
      t.sec.tag = s.sec.tag) ∧
    (s.sec.life = 3 → t.sec.owners = [] ∧ t.sec.identity = none ∧ t.sec.cosign = false ∧ t.sec.tag = []) ∧
    t.sec.fuseA = s.sec.fuseA ∧ t.sec.fuseB = s.sec.fuseB ∧ t.sec.authSeq = s.sec.authSeq ∧ t.sec.userCal = s.sec.userCal ∧
    t.sec.debugUntil = none ∧ (∀ i, (fwSlot t i).image = (fwSlot s i).image) ∧ t.hearth.committed = s.hearth.committed ∧ t.hearth.rings = [] ∧
    (idsLost s = true → t.hearth.ready = false ∧ t.hearth.selftest = pack [(24, 3), (0, 10)]) ∧
    (idsLost s = false → low = true → t.power.recovery = true ∧ t.hearth.ready = false) ∧
    (idsLost s = false → low = false → slotPasses s s.hearth.committed = true → t.power.recovery = false ∧ t.hearth.ready = true ∧
      t.hearth.bootSlot = s.hearth.committed)) ∧
  (∀ u s, let may := s.power.aux = true ∧ idsLost s = false ∧ s.power.recovery = false ∧ s.power.qualified = true ∧ s.power.trip = false ∧
      s.power.on0 = 0 ∧ s.power.on1 = 0
    (¬may → exec (.halfPowerOn u) s = .next s) ∧
    (may → exec (.halfPowerOn u) s = .next (powerHalves u s)) ∧
    let t := powerHalves u s
    let off0 := s.power.stayOff0 = true ∨ convHeld s 0 = true
    let off1 := s.power.stayOff1 = true ∨ convHeld s 1 = true
    (¬off0 → t.power.on0 = 0xFF) ∧ (¬off1 → t.power.on1 = 0xFF) ∧
    (off0 → s.power.on0 = 0 → t.power.on0 = 0 ∧ t.power.ready0 = s.power.ready0) ∧
    (off1 → s.power.on1 = 0 → t.power.on1 = 0 ∧ t.power.ready1 = s.power.ready1) ∧
    (s.time.refOk0 = true ∨ s.time.refOk1 = true → u.ref0Ok = true → u.ref1Ok = true → ¬off0 → ¬off1 →
      t.power.ready0 = true ∧ t.power.ready1 = true ∧ t.power.inReset = false) ∧
    (s.time.refOk0 = false → s.time.refOk1 = false → t.power.ready0 = s.power.ready0 ∧ t.power.ready1 = s.power.ready1 ∧
      t.power.inReset = true)) ∧
  (∀ rst s,
    (s.power.aux = false ∨ rst = true → devOkPin rst s = none ∧ tripPinLow rst s = false ∧ alertPinLow rst s = false ∧
      ppsOutPin rst s = none ∧ ∀ h, memPinsDriven rst s h = false ∧ ∀ l, fibreMayBeLit rst s l = false) ∧
    (s.power.aux = true → rst = false → devOkPin rst s = some (s.power.ready0 && s.power.ready1) ∧
      tripPinLow rst s = s.power.trip ∧ alertPinLow rst s = alertOut s ∧ pcieTx rst s = .operating ∧
      (s.power.qualified = false ∨ (s.power.on0 = 0 ∧ s.power.on1 = 0) ∨ s.power.inReset = true → ppsOutPin rst s = none ∧
        ∀ h, memPinsDriven rst s h = false) ∧
      (s.power.qualified = true → s.power.on0 ≠ 0 ∨ s.power.on1 ≠ 0 → s.power.inReset = false →
        ppsOutPin rst s = some s.time.ppsOut ∧ (∀ h, memPinsDriven rst s h = halfReady s h) ∧
        ∀ c, halfReady s c = true → perstPin rst s c = some (!perstLow s c))))

/-- Converters, references, temperature and the bridge (R20, R298, R415, R418, R430). A converter fault of a powered half switches its
domains off as a half reset with cause 7 and is counted; the third within 10 min keeps the half off; of both halves it is a device
reset. The half is powered again 100 ms later. A reference that fails is switched from, or with the other failed time is lost; one
that returns is taken back. A sensor over its trip threshold resets the device, switches the halves off and asserts THERM_TRIP_N
until a restart, after 10 s at which every sensor is cool. A bridge channel that fails is retired once and counted; a spare takes over
its role, and without one a cell channel costs crossing capacity and an arbitration, time or fault channel resets the half.
CONVERTER_FAULT, CONVERTER_REPOWER, REFCLK_FAIL, REFCLK_RETURN, THERMAL_SENSOR_READ, THERM_RESTART and BRIDGE_CHANNEL_FAIL complete.
The model's choices: readings and their history (log entry 14), a bad master (121), what a converter fault keeps and the time base of
its instants (133), the numbering and the instant of a trip (134), the half that a lost role resets, the memory channels, and retired
channels that a half reset keeps (135). -/
def Obligations.ConvertersReferencesTemperatureBridge : Prop :=
  (∀ (h : Fin 2) s,
    (halfPowered s h = false → exec (.converterFault h false) s = .next s) ∧
    (halfPowered s h = true → ∃ t, exec (.converterFault h false) s = .next t ∧ halfPowered t h = false ∧ halfReady t h = false ∧
      (h = 0 → t.power.on0 = 0 ∧ t.power.on1 = s.power.on1 ∧ t.power.conv0 = sat 65535 (s.power.conv0 + 1) ∧
        t.power.conv1 = s.power.conv1 ∧ t.power.ready1 = s.power.ready1) ∧
      (h = 1 → t.power.on1 = 0 ∧ t.power.on0 = s.power.on0 ∧ t.power.conv1 = sat 65535 (s.power.conv1 + 1) ∧
        t.power.conv0 = s.power.conv0 ∧ t.power.ready0 = s.power.ready0) ∧
      fld t.hearth.resetCause 27 24 = 7)) ∧
  (∀ s, let recent := s.power.convAt0.filter fun x => decide (s.time.hearthPs < x + 600000000000000)
    let t := countConv 0 s
    t.power.convAt0 = recent ++ [s.time.hearthPs] ∧
    (t.power.stayOff0 = true ↔ s.power.stayOff0 = true ∨ 2 ≤ recent.length) ∧ t.power.stayOff1 = s.power.stayOff1) ∧
  (∀ (h : Fin 2) s,
    (halfPowered s 0 = false ∨ halfPowered s 1 = false → exec (.converterFault h true) s = .next s) ∧
    (halfPowered s 0 = true → halfPowered s 1 = true →
      exec (.converterFault h true) s = .next (resetAndOff 7 (convReport 1 (convReport 0 s))))) ∧
  (∀ (h : Fin 2) u s,
    (halfPowered s h = true ∨ staysOff s h = true ∨ convWaited s h = false ∨ mayPower s = false →
      exec (.converterRepower h u) s = .next s) ∧
    (halfPowered s h = false → staysOff s h = false → convWaited s h = true → mayPower s = true → s.power.inReset = true →
      exec (.converterRepower h u) s = .next (noteStatus s (setHalfPower h 0xFF s))) ∧
    (halfPowered s h = false → staysOff s h = false → convWaited s h = true → mayPower s = true → s.power.inReset = false →
      let t := noteStatus s (setHalfPower h 0xFF s)
      ((if h.val = 0 then u.ref0Ok else u.ref1Ok) = true →
        exec (.converterRepower h u) s = .next (halfUpWith (powerUpOptics h u) h t)) ∧
      ((if h.val = 0 then u.ref0Ok else u.ref1Ok) = false →
        exec (.converterRepower h u) s = .next (noteStatus t ((t.modPower fun p => { p with resetHeld := true }).modHearth fun x =>
          { x with selftest := pack [(24, 1), (23, h), (22, 1 - h.val)] }))))) ∧
  (∀ s, (s.time.refOk0 = false → exec (.refclkFail 0) s = .next s) ∧ (s.time.refOk1 = false → exec (.refclkFail 1) s = .next s) ∧
    (s.time.refOk0 = true → s.time.refOk1 = true → ∃ t u, exec (.refclkFail 0) s = .next t ∧ t.time.refOk0 = false ∧
      t.time.refOk1 = true ∧ t.time.refSwitched = true ∧ t.time.state = s.time.state ∧ exec (.refclkFail 1) s = .next u ∧
      u.time.refOk0 = true ∧ u.time.refOk1 = false ∧ u.time.refSwitched = true ∧ u.power = s.power) ∧
    (s.time.refOk0 = true → s.time.refOk1 = false → ∃ t, exec (.refclkFail 0) s = .next t ∧ t.time.refOk0 = false ∧
      t.time.state = 0 ∧ t.time.refSwitched = false) ∧
    (s.time.refOk0 = false → s.time.refOk1 = true → ∃ t, exec (.refclkFail 1) s = .next t ∧ t.time.refOk1 = false ∧
      t.time.state = 0 ∧ t.time.refSwitched = false)) ∧
  (∀ s, exec (.refclkReturn 0) s = .next { s with time := { s.time with refOk0 := true, refSwitched := !s.time.refOk1 } } ∧
    exec (.refclkReturn 1) s = .next { s with time := { s.time with refOk1 := true, refSwitched := !s.time.refOk0 } }) ∧
  (∀ l persists s, l.length = 26 →
    let hot := (∃ x ∈ l.take 18, 112 < x) ∨ (∃ x ∈ l.drop 18, 90 < x) ∨ (∃ i, i < 8 ∧ 110 < (tget s.mem.srcs {} i).temp)
    (hot → persists = true → s.power.trip = false → ∃ t, exec (.thermalSensorRead l persists) s = .next t ∧ t.power.trip = true ∧
      t.power.on0 = 0 ∧ t.power.on1 = 0 ∧ t.power.ready0 = false ∧ t.power.ready1 = false ∧ t.coll = [] ∧
      fld t.hearth.resetCause 27 24 = 5) ∧
    (¬hot ∨ persists = false ∨ s.power.trip = true → ∃ t, exec (.thermalSensorRead l persists) s = .next t ∧
      (t.power.coolSince.isSome = true ↔ (∀ x ∈ l.take 18, x ≤ 95) ∧ (∀ x ∈ l.drop 18, x ≤ 70) ∧
        ∀ i, i < 8 → (tget s.mem.srcs {} i).temp ≤ 95) ∧
      (∀ x, s.power.coolSince = some x → t.power.coolSince = none ∨ t.power.coolSince = some x) ∧
      t.power.trip = s.power.trip ∧ t.power.on0 = s.power.on0 ∧ t.power.on1 = s.power.on1 ∧
      t.power.tempMax = sat 255 ((l.take 18).foldl Nat.max 0) ∧ t.power.kilnMax = sat 255 ((l.drop 18).foldl Nat.max 0) ∧
      t.mem = s.mem ∧ t.coll = s.coll ∧ t.routing = s.routing ∧ t.core = s.core)) ∧
  (∀ u s, let t := s.modPower fun p => { p with trip := false }
    (s.power.trip = false ∨ s.power.coolSince = none ∨ mayPower t = false → exec (.thermRestart u) s = .next s) ∧
    (∀ x, s.power.trip = true → s.power.coolSince = some x → mayPower t = true →
      (s.time.hearthPs < x + 10000000000000 → exec (.thermRestart u) s = .next s) ∧
      (x + 10000000000000 ≤ s.time.hearthPs → exec (.thermRestart u) s = .next (powerHalves u (emit (.thermTrip false) t))))) ∧
  (∀ (h : Fin 2) (c : Fin 512) timeout s,
    (halfReady s 0 = false ∨ halfReady s 1 = false ∨ chanRetired s h c = true →
      exec (.bridgeChannelFail h c timeout) s = .next s) ∧
    (halfReady s 0 = true → halfReady s 1 = true → chanRetired s h c = false →
      let a := if timeout then bump (ctr 0x0A h 1) s else bumpBy (ctr 0x0A h 0) 3 s
      let b := report { faultAt 0x0101 1 h 0 c with detail := [w32 c] }
        (bump (ctr 0x0A h 2) (a.modCore fun k => { k with retired := k.retired ++ [512 * h.val + c.val] }))
      (chanRole s h c = none → exec (.bridgeChannelFail h c timeout) s = .next b) ∧
      (∀ r i, chanRole s h c = some r → bridgeSpare b h = some i → exec (.bridgeChannelFail h c timeout) s =
        .next (bump (ctr 0x0A h 3) (b.modCore fun k => { k with sparesUsed := tset k.sparesUsed 0 (2 * h.val + i) (r + 1) }))) ∧
      (∀ r, chanRole s h c = some r → bridgeSpare b h = none →
        (r < 500 → exec (.bridgeChannelFail h c timeout) s = .next (report { faultAt 0x0102 2 h (r / 125) r with detail := [w32 r] }
          (b.modCore fun k => { k with lost := tmod k.lost 0 (4 * h.val + r / 125) (· + 1) }))) ∧
        (504 ≤ r → r < 508 → exec (.bridgeChannelFail h c timeout) s = .next b) ∧
        (500 ≤ r → r < 504 ∨ 508 ≤ r → exec (.bridgeChannelFail h c timeout) s =
          .next (halfReset h 6 (report { faultAt 0x0103 3 h 0 r with detail := [w32 r] } b))))))

/-! ### Packets received and packets terminated (R22, R35, R36, R43, R49, R53 to R59, R78, R93, R124, R400, R436 to R438) -/

/-- The checks of a received header (R35, R36, R59, R60, R83, R84, R92, R124, R277, R327, R436). A packet is judged once, on a lane that
takes packets for a port that is up, TIME packets of versions 0 and 1 apart: the drop conditions of R59 in order, then admission
(PART_INGRESS_DROP), the policer (a policed contribution for the device also asks for RESEND), then, for the device's own ID, its
sink; else HOP_LIMIT 0 is dropped and counted, and the lookup gives the copies; entries that the row names as failing their parity
are marked as they are read. A dropped packet keeps its record until it ends; only one that passed admission and its policer may
teach. PACKET_HEADER_RX completes. The model's choices: which copies fail is the row's and what failing does (log entry 41), which
dropped packets may teach (43), the record of a packet and its rows (47), TIME packets (138), the model's packet numbers (142). -/
def Obligations.PacketHeaders : Prop :=
  (∀ (lane : Fin 1024) h bad s, portOfLane s lane = none ∨ openRecord s lane h = none ∨ isTime h = true ∨
    (∀ port, portOfLane s lane = some port → takesPackets s lane port = false) →
    exec (.packetHeaderRx lane ⟨h, bad⟩) s = .next s) ∧
  (∀ (lane : Fin 1024) h bad s port r, portOfLane s lane = some port → openRecord s lane h = some r → isTime h = false →
    takesPackets s lane port = true →
    let b := barnOf port
    let a0 := newPid (markParity (halfOf port) bad s)
    let a := noteAdmit port h.partition a0
    let p := police port h a
    let m := markEpoch s h
    let found := lookup b m.decHop p.2
    let keep (hdr : Option Header) (disp : Disp) (copies : List (Nat × QEntry)) (t : State) : State :=
      feed lane port 0 false (modLaneLink lane (fun k =>
        { k with rx := { r with hdr := hdr, disp := disp, pid := s.core.nextPid, copies := copies,
                                                        parse := s.time.now } :: k.rx.drop 1 })
        (dropUnread (halfOf port) bad t))
    let answers (t : State) : Prop := exec (.packetHeaderRx lane ⟨h, bad⟩) s = .next t
    (∀ i, headerDrop s h = some i → answers (keep none .dropped [] (bumpIn b i a0))) ∧
    (headerDrop s h = none → admits a port h.partition = false → answers (keep none .dropped [] (bumpIn b 16 a))) ∧
    (headerDrop s h = none → admits a port h.partition = true →
      (p.1 = false → toSelf s h = true → h.kind = 4 → answers (keep none .dropped [] (badContribution 2 h p.2))) ∧
      (p.1 = false → toSelf s h = false ∨ h.kind ≠ 4 → answers (keep none .dropped [] p.2)) ∧
      (p.1 = true → toSelf s h = true → answers (keep (some m) .terminated
        [copyToSink s.core.nextPid (sinkFor p.2 m).1 (sinkFor p.2 m).2] p.2)) ∧
      (p.1 = true → toSelf s h = false → h.hopLimit = 0 → answers (keep (some m) .dropped [] (bumpIn b 6 p.2))) ∧
      (p.1 = true → toSelf s h = false → h.hopLimit ≠ 0 →
        (found.1 = .drop ∨ found.1 = .multi [] → answers (keep (some m.decHop) .dropped [] found.2)) ∧
        (∀ q, found.1 = .uni q → answers (keep (some m.decHop) .forwarded [copyTo s.core.nextPid q] found.2)) ∧
        (∀ q qs, found.1 = .multi (q :: qs) →
          answers (keep (some m.decHop) .forwarded (copiesFor s.core.nextPid (q :: qs)) found.2))))) ∧
  (∀ s (h : Header),
    (h.ver < 2 → 9 ≤ h.kind → headerDrop s h = some 2) ∧
    (h.ver = 0 → h.kind = 4 ∨ h.kind = 5 ∨ h.kind = 8 → headerDrop s h = some 2) ∧
    (2 ≤ h.ver → 256 < h.len → headerDrop s h = some 3) ∧
    (h.ver = 1 → h.kind ≤ 8 → 256 < h.len → headerDrop s h = some 3) ∧
    (h.ver = 1 → h.kind ≤ 8 → h.len ≤ 256 → genExt h.dstId ≠ 0 ∨ genExt h.srcId ≠ 0 → headerDrop s h = some 4) ∧
    (h.ver = 1 → h.kind ≤ 8 → h.len ≤ 256 → genExt h.dstId = 0 → genExt h.srcId = 0 → h.mc = true → mcAllowed h.kind = false →
      headerDrop s h = some 5) ∧
    (2 ≤ h.ver → h.len ≤ 256 → toSelf s h = true → headerDrop s h = some 7) ∧
    (2 ≤ h.ver → h.len ≤ 256 → toSelf s h = false → headerDrop s h = none)) ∧
  (∀ port (h : Header) s, let x := tget s.sched.policers {} (clsKey port h.tc)
    (x.prof.en = false → police port h s = (true, s)) ∧
    (x.prof.en = true → (h.pktBytes : Int) ≤ x.tokens → police port h s =
      (true, s.modSched fun d => { d with policers := tset d.policers {} (clsKey port h.tc) { x with tokens := x.tokens - h.pktBytes } })) ∧
    (x.prof.en = true → x.tokens < (h.pktBytes : Int) → (police port h s).1 = false ∧ (police port h s).2.sched = s.sched))

/-- The trailer of a received packet (R22, R59, R78, R277, R400, R436). It counts the packet and its bytes on its barn and port,
whatever becomes of it, the bytes as its LEN gives them, and closes its record. A packet with the wrong length is dropped and counted unless it has been counted, a
forwarded one whose CRC-64 fails is discarded, or aborted where it is being sent, and reported; any other ends in the ingress
account. One whose CRC-64 holds teaches its source if its header might. A packet not judged yet, and one on a lane lent to a circuit,
is left alone. PACKET_TRAILER_RX completes. The model's choices: which packets teach (log entry 43), the rows of a packet and the
bytes held back until this one (47). -/
def Obligations.PacketTrailers : Prop :=
  (∀ (lane : Fin 1024) rest s, portOfLane s lane = none ∨ (laneLink s lane).rx = [] ∨
    (∃ r rs, (laneLink s lane).rx = r :: rs ∧ (r.disp = .unknown ∨ (r.ended = true ∧ rest ≠ []) ∨
      (r.ended = false ∧ laneState s lane = .flue ∧ (laneOpt s lane).draining = false))) →
    exec (.packetTrailerRx lane rest) s = .next s) ∧
  (∀ (lane : Fin 1024) rest s port r rs, portOfLane s lane = some port → (laneLink s lane).rx = r :: rs → r.disp ≠ .unknown →
    r.ended = false ∨ rest = [] → r.ended = true ∨ laneState s lane ≠ .flue ∨ (laneOpt s lane).draining = true →
    let b := barnOf port
    let r' := { r with bytes := r.bytes ++ rest, ended := true }
    let h := headerOfBytes (r'.bytes.take 32)
    let n := h.pktBytes
    let good := crcOk (packetOf h r'.bytes)
    let t := bumpBy (ctr 4 b (port % 64)) n (bump (ctr 3 b (port % 64)) (bumpBy (ctr 1 b 1) n (bumpIn b 0
      (modLaneLink lane (fun k => { k with rx := r' :: k.rx.drop 1 }) s))))
    let done (u : State) : State := modLaneLink lane (fun k => { k with rx := k.rx.drop 1 }) u
    let learned (u : State) : State := if r.hdr.isSome = true ∧ good = true then teach port h u else u
    let fed (u : State) : State := feed lane port (held r false) true u
    let void (u : State) : State := modRx lane (fun r => { r with disp := .dropped }) u
    let answers (u : State) : Prop := exec (.packetTrailerRx lane rest) s = .next u
    (r.disp = .dropped → answers (done (learned (fed t)))) ∧
    (r.disp ≠ .dropped → r'.bytes.length ≠ n → answers (done (fed (discardPkt r.pid (void (if r.counted then t else bumpIn b 3 t)))))) ∧
    (r.disp = .forwarded → r'.bytes.length = n → good = false → answers (done (fed (failTransit port r' (void t))))) ∧
    (r.disp = .forwarded ∨ r.disp = .terminated → r'.bytes.length = n → (r.disp = .terminated ∨ good = true) →
      answers (done (learned (verified b r.pid (fed t))))))

/-- The packets the device terminates (R43, R49, R53 to R58, R88, R118, R377, R437, R438). A packet that is none of its row's kind, of
a later generation, multicast, or of another length is left alone; so is one whose turn at its sink has not come, and one with a cell
that fails its check is discarded; any other leaves its sink queue, and one whose CRC-64 fails is reported. A WRITE to the Granary is
checked by R55 and stored whole or not at all, and WRITE_DONE carries its status if asked for. A READ answers the bytes of the
Granary, or a retained result, or a status; an uncorrectable error is reported and answered NAK_CHECK. A CONTROL packet goes to the
host; a packet that answers nothing the device sent is counted. A packet that an abort has voided in its sink queue does nothing more. TERM_WRITE, TERM_READ, CONTROL_PKT and TERM_UNEXPECTED
complete. The model's choices: a packet is whole in its row and taken in its sink's turn (log entry 137), all or nothing of a WRITE
(138), VER of an answer (148), a voided packet (79). -/
def Obligations.TerminatedPackets : Prop :=
  (∀ (port : Fin 1024) (p : Packet) s,
    (2 ≤ p.hdr.ver ∨ p.hdr.mc = true ∨ payloadFits p = false → exec (.termWrite port p) s = .next s ∧
      (∀ ue, exec (.termRead port p ue) s = .next s) ∧ exec (.controlPkt port p) s = .next s ∧
      exec (.termUnexpected port p) s = .next s) ∧
    (p.hdr.kind ≠ 0 → exec (.termWrite port p) s = .next s) ∧ (∀ ue, p.hdr.kind ≠ 2 → exec (.termRead port p ue) s = .next s) ∧
    (p.hdr.kind ≠ 6 → exec (.controlPkt port p) s = .next s) ∧
    (answersNothing s p.hdr = false → exec (.termUnexpected port p) s = .next s)) ∧
  (∀ (port : Fin 1024) (p : Packet) s, p.hdr.ver < 2 → p.hdr.mc = false → payloadFits p = true → sinkTurn p s = false →
    (p.hdr.kind = 0 → exec (.termWrite port p) s = .next (notTaken p s)) ∧
    (∀ ue, p.hdr.kind = 2 → exec (.termRead port p ue) s = .next (notTaken p s)) ∧
    (p.hdr.kind = 6 → exec (.controlPkt port p) s = .next (notTaken p s)) ∧
    (answersNothing s p.hdr = true → exec (.termUnexpected port p) s = .next (notTaken p s))) ∧
  (∀ (port : Fin 1024) (p : Packet) s, p.hdr.ver < 2 → p.hdr.mc = false → payloadFits p = true → sinkTurn p s = true →
    sunkVoid p s = true →
    (p.hdr.kind = 0 → exec (.termWrite port p) s = .next (dropSunk p s)) ∧
    (∀ ue, p.hdr.kind = 2 → exec (.termRead port p ue) s = .next (dropSunk p s)) ∧
    (p.hdr.kind = 6 → exec (.controlPkt port p) s = .next (dropSunk p s)) ∧
    (answersNothing s p.hdr = true → exec (.termUnexpected port p) s = .next (dropSunk p s))) ∧
  (∀ (port : Fin 1024) (p : Packet) s, p.hdr.ver < 2 → p.hdr.mc = false → payloadFits p = true → sinkTurn p s = true →
    sunkVoid p s = false →
    let h := p.hdr
    let t := releaseSink p s
    let b := (sinkFor t h).1
    let a := h.remoteAddr
    let n := 16 * h.len
    let st := granaryCheck t h.partition a n true
    let rd := granaryCheck t h.partition a n false
    let bad := termCrcFail port p t
    (h.kind = 0 → crcOk p = false → exec (.termWrite port p) s = .next (writeDone b h 1 bad)) ∧
    (h.kind = 0 → crcOk p = true → a < granarySize →
      (st = 0 → exec (.termWrite port p) s = .next (writeDone b h 0 (cacheRange h.hint a n true (daWrite a p.payload t)))) ∧
      (st ≠ 0 → exec (.termWrite port p) s = .next (writeDone b h st t))) ∧
    (h.kind = 0 → crcOk p = true → granarySize ≤ a →
      exec (.termWrite port p) s = .next (writeDone b h (if a / 2 ^ 56 = 1 then 2 else 3) t)) ∧
    (h.kind = 2 → crcOk p = false → ∀ ue, exec (.termRead port p ue) s = .next bad) ∧
    (h.kind = 2 → crcOk p = true → h.len = 0 → ∀ ue, exec (.termRead port p ue) s = .next (readData b h 3 [] t)) ∧
    (h.kind = 2 → crcOk p = true → h.len ≠ 0 → a < granarySize →
      (rd ≠ 0 → ∀ ue, exec (.termRead port p ue) s = .next (readData b h rd [] t)) ∧
      (rd = 0 → exec (.termRead port p true) s = .next (readData b h 1 [] (memUE a h.partition none t)) ∧
        exec (.termRead port p false) s = .next (readData b h 0 (daRead t a n) (cacheRange h.hint a n false t)))) ∧
    (h.kind = 2 → crcOk p = true → h.len ≠ 0 → a / 2 ^ 56 = 1 →
      (∀ u ue, ctxReadCheck t (sunkTime p s) h = (u, none) → exec (.termRead port p ue) s = .next (readData b h u [] t)) ∧
      (∀ u r, ctxReadCheck t (sunkTime p s) h = (u, some r) → exec (.termRead port p false) s = .next (readData b h u r.payload t) ∧
        exec (.termRead port p true) s = .next (recallRun (a / 2 ^ 44 % 4096) 1 { first := r.index, log := 0, count := 1 }
          (readData b h 1 [] t)))) ∧
    (h.kind = 2 → crcOk p = true → h.len ≠ 0 → granarySize ≤ a → a / 2 ^ 56 ≠ 1 → ∀ ue,
      exec (.termRead port p ue) s = .next (readData b h 3 [] t)) ∧
    (h.kind = 6 → exec (.controlPkt port p) s =
      .next (if crcOk p then post 0x03 (packetBody h h.pktBytes) (some p.wire) t else bad)) ∧
    (answersNothing s h = true → exec (.termUnexpected port p) s =
      .next (if crcOk p then bumpIn (barnOf port) 32 t else bad))) ∧
  (∀ s p a n wr,
    (n = 0 ∨ a % 16 ≠ 0 → granaryCheck s p a n wr = 3) ∧
    (n ≠ 0 → a % 16 = 0 → windowAt s a = none → granaryCheck s p a n wr = 2) ∧
    (∀ k w, n ≠ 0 → a % 16 = 0 → windowAt s a = some (k, w) →
      granaryCheck s p a n wr = if w.partition ≠ p ∨ (if wr then w.wr else w.rd) = false then 2
        else if w.base + w.size < a + n then 3 else 0)) ∧
  granarySize = 576 * 2 ^ 30 ∧ (∀ b h st s, h.ackReq = false → writeDone b h st s = s) ∧
  (∀ m a (bytes : List Byte) k, tget (memWrite m a bytes) (0 : Byte) k =
    if a ≤ k ∧ k < a + bytes.length then bytes.getD (k - a) 0 else tget m 0 k)

/-! ### Reads of state, and work that ends (R63, R76, R114, R130, R158, R186, R222, R243, R244, R273, R293, R321, R340, R355, R373, R380, R391,
R395, R396, R409, R434) -/

/-- The reads of a range of a table (R130, R158, R186, R187, R195, R243, R273, R293, R321, R340): from a first entry and a count that
stay within the table, the images of its entries in order go to host memory; a first entry beyond the table or a count outside it is
BAD_ARGUMENT and writes nothing. LANE_STATUS_READ first takes a new reading of each lane that is not DOWN. PORT_SCHED_READ,
CTX_STATUS_READ, TU_STATUS_READ, HARVEST_GROUP_READ, MEM_WINDOW_READ, LANE_STATUS_READ, LINK_STATUS_READ, FLUE_STATUS_READ,
KINDLE_READ, PART_STATUS_READ and SEED_READ complete. The model's choices: which word a DETAIL names and the order of checks (log
entries 18, 19), reserved bits 0 (36), the readings as free values (3, 90) and the unknown constants of the factory store (163). -/
def Obligations.RangeReads : Prop :=
  (∀ h args s, let i := Instr.portSchedRead h args
    let first := argN args 1
    let n := argN args 2
    accepted i s = true →
    (1024 ≤ first → exec i s = .next (refusedEnd i s 0x01 1)) ∧
    (first < 1024 → n < 1 ∨ 1024 < first + n → exec i s = .next (refusedEnd i s 0x01 2)) ∧
    (1 ≤ n → first + n ≤ 1024 → exec i s = .next (okEnd i s [] (hostWrite (arg64 args 3)
      ((List.range n).flatMap fun k => schedImage (fetched i s) (first + k)) (fetched i s))))) ∧
  (∀ h args s, let i := Instr.ctxStatusRead h args
    let first := argN args 1
    let n := argN args 2
    accepted i s = true →
    (4096 ≤ first → exec i s = .next (refusedEnd i s 0x01 1)) ∧
    (first < 4096 → n < 1 ∨ 4096 < first + n → exec i s = .next (refusedEnd i s 0x01 2)) ∧
    (1 ≤ n → first + n ≤ 4096 → exec i s = .next (okEnd i s [] (hostWrite (arg64 args 3)
      ((List.range n).flatMap fun k => wordsLe (ctxStatus (theCtx s (first + k)))) (fetched i s))))) ∧
  (∀ h args s, let i := Instr.tuStatusRead h args
    let first := argN args 1
    let n := argN args 2
    accepted i s = true →
    (64 ≤ first → exec i s = .next (refusedEnd i s 0x01 1)) ∧
    (first < 64 → n < 1 ∨ 64 < first + n → exec i s = .next (refusedEnd i s 0x01 2)) ∧
    (1 ≤ n → first + n ≤ 64 → exec i s = .next (okEnd i s [] (hostWrite (arg64 args 3)
      ((List.range n).flatMap fun k => wordsLe (unitStatus (first + k) (theUnit s (first + k)))) (fetched i s))))) ∧
  (∀ h args s, let i := Instr.harvestGroupRead h args
    let first := argN args 1
    let n := argN args 2
    accepted i s = true →
    (1024 ≤ first → exec i s = .next (refusedEnd i s 0x01 1)) ∧
    (first < 1024 → n < 1 ∨ 1024 < first + n → exec i s = .next (refusedEnd i s 0x01 2)) ∧
    (1 ≤ n → first + n ≤ 1024 → exec i s = .next (okEnd i s [] (hostWrite (arg64 args 3)
      ((List.range n).flatMap fun k => wordsLe (padTo 0 20 (tget s.thresh.groups [] (first + k)))) (fetched i s))))) ∧
  (∀ h args s, let i := Instr.memWindowRead h args
    let first := argN args 1
    let n := argN args 2
    accepted i s = true →
    (1024 ≤ first → exec i s = .next (refusedEnd i s 0x01 1)) ∧
    (first < 1024 → n < 1 ∨ 1024 < first + n → exec i s = .next (refusedEnd i s 0x01 2)) ∧
    (1 ≤ n → first + n ≤ 1024 → exec i s = .next (okEnd i s [] (hostWrite (arg64 args 3)
      ((List.range n).flatMap fun k => windowImg (theWindow s (first + k))) (fetched i s))))) ∧
  (∀ h args s, let i := Instr.laneStatusRead h args
    let first := argN args 1
    let n := argN args 2
    let t := ((List.range n).map (first + ·)).foldl (fun s k => sampleLane k s) (fetched i s)
    accepted i s = true →
    (1024 ≤ first → exec i s = .next (refusedEnd i s 0x01 1)) ∧
    (first < 1024 → n < 1 ∨ 1024 < first + n → exec i s = .next (refusedEnd i s 0x01 2)) ∧
    (1 ≤ n → first + n ≤ 1024 → exec i s = .next (okEnd i s [] (hostWrite (arg64 args 3)
      ((List.range n).flatMap fun k => leBytes 8 (laneWord t (first + k))) t)))) ∧
  (∀ h args s, let i := Instr.linkStatusRead h args
    let first := argN args 1
    let n := argN args 2
    accepted i s = true →
    (1024 ≤ first → exec i s = .next (refusedEnd i s 0x01 1)) ∧
    (first < 1024 → n < 1 ∨ 1024 < first + n → exec i s = .next (refusedEnd i s 0x01 2)) ∧
    (1 ≤ n → first + n ≤ 1024 → exec i s = .next (okEnd i s [] (hostWrite (arg64 args 3)
      ((List.range n).flatMap fun k => leBytes 8 (linkWord (fetched i s) (first + k))) (fetched i s))))) ∧
  (∀ h args s, let i := Instr.flueStatusRead h args
    let first := argN args 1
    let n := argN args 2
    accepted i s = true →
    (128 ≤ first → exec i s = .next (refusedEnd i s 0x01 1)) ∧
    (first < 128 → n < 1 ∨ 128 < first + n → exec i s = .next (refusedEnd i s 0x01 2)) ∧
    (1 ≤ n → first + n ≤ 128 → exec i s = .next (okEnd i s [] (hostWrite (arg64 args 3)
      ((List.range n).flatMap fun k => leBytes 8 (circWord (fetched i s) (first + k))) (fetched i s))))) ∧
  (∀ h args s, let i := Instr.kindleRead h args
    let first := argN args 1
    let n := argN args 2
    accepted i s = true →
    (256 ≤ first → exec i s = .next (refusedEnd i s 0x01 1)) ∧
    (first < 256 → n < 1 ∨ 256 < first + n → exec i s = .next (refusedEnd i s 0x01 2)) ∧
    (1 ≤ n → first + n ≤ 256 → exec i s = .next (okEnd i s [] (hostWrite (arg64 args 3)
      ((List.range n).flatMap fun k => kindleImg (fetched i s) (first + k)) (fetched i s))))) ∧
  (∀ h args s, let i := Instr.partStatusRead h args
    let first := argN args 1
    let n := argN args 2
    accepted i s = true →
    (4096 ≤ first → exec i s = .next (refusedEnd i s 0x01 1)) ∧
    (first < 4096 → n < 1 ∨ 4096 < first + n → exec i s = .next (refusedEnd i s 0x01 2)) ∧
    (1 ≤ n → first + n ≤ 4096 → exec i s = .next (okEnd i s [] (hostWrite (arg64 args 3)
      ((List.range n).flatMap fun k => wordsLe (partStatus (fetched i s) (first + k))) (fetched i s))))) ∧
  (∀ h args s, let i := Instr.seedRead h args
    let first := argN args 1
    let n := argN args 2
    accepted i s = true →
    (64 ≤ first → exec i s = .next (refusedEnd i s 0x01 1)) ∧
    (first < 64 → n < 1 ∨ 64 < first + n → exec i s = .next (refusedEnd i s 0x01 2)) ∧
    (1 ≤ n → first + n ≤ 64 → exec i s = .next (okEnd i s [] (hostWrite (arg64 args 3)
      ((List.range n).flatMap fun k => seedImg (theSeed s (first + k))) (fetched i s))))) ∧
  (∀ k s, sampleLane k s = if laneState s k = .down then s else modLaneOpt k (fun o =>
    { o with rxPower := clampI (-128) 127 ((freeBelow s 256 : Nat) - 128 + Config.factoryCal 3 k + calGet s 3 k), heater := freeBelow s.tookFree 4096 }) s.tookFree.tookFree)

/-- The other reads (R63, R71, R84, R91, R114, R222, R244, R321, R373, R380, R381, R391 to R393, R395, R434) and the work that ends at a
row of its own (R63, R355): the entries of one routing version, the sets of one half's endpoint table, a queue or the cells of a barn,
the memory, Kiln, time, power and firmware status, the tag area, calibration records, a fault log and the attestation report go to host
memory; the first word out of range is BAD_ARGUMENT, and a report is refused outside PROVISION and FIELD. ROUTE_WRITE_DONE and
ENDPOINT_WRITE_DONE complete the oldest command of their kind with OK and change nothing without one. ROUTE_READ, ENDPOINT_READ,
CORE_QUEUE_READ, MEM_STATUS_READ, KILN_STATUS_READ, TIME_STATUS_READ, POWER_STATUS_READ, FW_STATUS_READ, ATTEST_REPORT, TAG_READ,
CAL_USER_READ, FAULT_LOG_READ, ROUTE_WRITE_DONE and ENDPOINT_WRITE_DONE complete. The report's last 64 bytes are its signature with
the identity key. The model's choices: DETAIL words and orders (log entries 18, 19), the digest of the shipped image is free (11),
the readings of the power record (14), when a detached write ends (22), the number drawn for a signature (126), entries of a log that
are not there (128). -/
def Obligations.OtherReadsAndEnds : Prop :=
  (∀ h args s, let i := Instr.routeRead h args
    let first := argN args 3
    let n := argN args 4
    let v := versionOf (argN args 1 == 1)
    let f := fetched i s
    accepted i s = true →
    (1 < argN args 1 → exec i s = .next (refusedEnd i s 0x01 1)) ∧
    (argN args 1 ≤ 1 → 1 < argN args 2 → exec i s = .next (refusedEnd i s 0x01 2)) ∧
    (argN args 1 ≤ 1 → argN args 2 ≤ 1 → let size := if argN args 2 = 0 then 65536 else 256
      (size ≤ first → exec i s = .next (refusedEnd i s 0x01 3)) ∧
      (first < size → n < 1 ∨ size < first + n → exec i s = .next (refusedEnd i s 0x01 4))) ∧
    (argN args 1 ≤ 1 → argN args 2 = 0 → 1 ≤ n → first + n ≤ 65536 → exec i s = .next (okEnd i s [] (hostWrite (arg64 args 5)
      ((List.range n).flatMap fun k => leBytes 8 (explicitImg (explShown f v (first + k)))) f))) ∧
    (argN args 1 ≤ 1 → argN args 2 = 1 → 1 ≤ n → first + n ≤ 256 → exec i s = .next (okEnd i s [] (hostWrite (arg64 args 5)
      ((List.range n).flatMap fun k => leBytes 4 (podImg (podShown f v (first + k)))) f)))) ∧
  (∀ h args s, let i := Instr.endpointRead h args
    let first := argN args 2
    let n := argN args 3
    let f := fetched i s
    accepted i s = true →
    (1 < argN args 1 → exec i s = .next (refusedEnd i s 0x01 1)) ∧
    (argN args 1 ≤ 1 → 32768 ≤ first → exec i s = .next (refusedEnd i s 0x01 2)) ∧
    (argN args 1 ≤ 1 → first < 32768 → n < 1 ∨ 32768 < first + n → exec i s = .next (refusedEnd i s 0x01 3)) ∧
    (argN args 1 ≤ 1 → 1 ≤ n → first + n ≤ 32768 → exec i s = .next (okEnd i s [] (hostWrite (arg64 args 4)
      ((List.range (8 * n)).flatMap fun k => leBytes 8 (epImg (epShown f (argN args 1) (8 * first + k)))) f)))) ∧
  (∀ h args s, let i := Instr.coreQueueRead h args
    let b := argN args 1
    let n := argN args 4
    let f := fetched i s
    accepted i s = true →
    (16 ≤ b → exec i s = .next (refusedEnd i s 0x01 1)) ∧ (b < 16 → 1 < argN args 2 → exec i s = .next (refusedEnd i s 0x01 2)) ∧
    (b < 16 → argN args 2 = 0 → 643 ≤ argN args 3 → exec i s = .next (refusedEnd i s 0x01 3)) ∧
    (b < 16 → argN args 2 = 1 → (theBarn s b).bufCells ≤ argN args 3 → exec i s = .next (refusedEnd i s 0x01 3)) ∧
    (b < 16 → argN args 2 = 1 → argN args 3 < (theBarn s b).bufCells → n < 1 ∨ (theBarn s b).bufCells < argN args 3 + n →
      exec i s = .next (refusedEnd i s 0x01 4)) ∧
    (b < 16 → argN args 2 = 0 → argN args 3 < 643 → exec i s = .next (okEnd i s []
      (hostWrite (arg64 args 4) (queueBytes f b (argN args 3)) f))) ∧
    (b < 16 → argN args 2 = 1 → 1 ≤ n → argN args 3 + n ≤ (theBarn s b).bufCells → exec i s = .next (okEnd i s []
      (hostWrite (arg64 args 5) ((List.range n).flatMap fun k => leBytes 8 (cellImg (tget (theBarn f b).cells {} (argN args 3 + k)))) f)))) ∧
  (∀ h args s, let i := Instr.memStatusRead h args
    let f := fetched i s
    accepted i s = true →
    exec i s = .next (okEnd i s [] (hostWrite (arg64 args 1) ((List.range 34).flatMap fun k => leBytes 8 (memWord f k)) f))) ∧
  (∀ h args s, let i := Instr.kilnStatusRead h args
    let f := fetched i s
    accepted i s = true →
    exec i s = .next (okEnd i s [] (hostWrite (arg64 args 1) ((List.range 80).flatMap fun k => leBytes 8 (laserWord f k)) f))) ∧
  (∀ h args s, let i := Instr.timeStatusRead h args
    let t := s.time
    accepted i s = true → ∃ r : Int, ∃ n, (r : Rat) - 1 < t.rate * 1000000000000 ∧ t.rate * 1000000000000 < (r : Rat) + 1 ∧
    exec i s = .next (okEnd i s [] (hostWrite (arg64 args 1) (wordsLe ([pack [(29, t.state), (27, t.srcKind), (26, bit t.stepRefused),
      (25, bit t.refSwitched), (15, t.srcPort)], w32i t.lastOffset] ++ w64 (BitVec.ofInt 64 t.pending).toNat ++
      [w32i r, w32i t.pathDelay, w32 t.offsets, pack [(16, t.stepCount), (0, t.refusedCount)]])) { fetched i s with free := n }))) ∧
  (∀ h args s, let i := Instr.powerStatusRead h args
    let t := freshReadings (fetched i s)
    accepted i s = true → exec i s = .next (okEnd i s [] (hostWrite (arg64 args 1) (wordsLe (powerRecord t)) t)) ∧
    (powerRecord t).length = 8 ∧ t.power.on0 = s.power.on0 ∧ t.power.on1 = s.power.on1 ∧ t.power.trip = s.power.trip) ∧
  (∀ h args s, let i := Instr.fwStatusRead h args
    let x := fwSlot s (1 - s.hearth.bootSlot)
    accepted i s = true → exec i s = .next (okEnd i s [s.hearth.fwVersion, if x.state = 0 then 0 else x.version, w32 x.state,
      w32 (fwSlot s s.hearth.bootSlot).secVer, w32 s.sec.fusedVer] (fetched i s))) ∧
  (∀ h args s, let i := Instr.attestReport h args
    accepted i s = true →
    (s.sec.life = 0 ∨ s.sec.life = 3 → exec i s = .next (refusedEnd i s 0x22 1)) ∧
    (s.sec.life ≠ 0 → s.sec.life ≠ 3 → ∃ mfw k n, ((fwSlot s s.hearth.bootSlot).image ≠ [] →
        mfw = sha256 (fwSlot s s.hearth.bootSlot).image) ∧ mfw.length = 32 ∧ 1 ≤ k ∧ k < p256N ∧
      (let key := match s.sec.identity with
        | some d => pubKey d
        | none => List.replicate 64 0
      let msg := attestHead (argWords args 1 8) (fetched i s) ++ mfw ++ sha256 (configImage s) ++
        sha256 (memRead s.sec.tag 0 512) ++ key
      exec i s = .next (okEnd i s [] (hostWrite (arg64 args 9) (msg ++ ecdsaSign (s.sec.identity.getD 0) k msg)
        { fetched i s with free := n }))))) ∧
  (∀ h args s, let i := Instr.tagRead h args
    let off := argN args 1
    let n := argN args 2
    accepted i s = true →
    (off % 4 ≠ 0 ∨ 512 ≤ off → exec i s = .next (refusedEnd i s 0x01 1)) ∧
    (off % 4 = 0 → off < 512 → n % 4 ≠ 0 ∨ n < 4 ∨ 512 - off < n → exec i s = .next (refusedEnd i s 0x01 2)) ∧
    (off % 4 = 0 → n % 4 = 0 → 4 ≤ n → off + n ≤ 512 → exec i s = .next (okEnd i s []
      (hostWrite (arg64 args 3) (memRead s.sec.tag off n) (fetched i s))))) ∧
  (∀ h args s, let i := Instr.calUserRead h args
    let kind := argN args 1
    let count : Nat := if kind = 0 then 16 else if kind = 1 ∨ kind = 4 then 80 else 1024
    let first := argN args 2
    let n := argN args 3
    accepted i s = true →
    (4 < kind → exec i s = .next (refusedEnd i s 0x01 1)) ∧
    (kind ≤ 4 → count ≤ first → exec i s = .next (refusedEnd i s 0x01 2)) ∧
    (kind ≤ 4 → first < count → n < 1 ∨ count < first + n → exec i s = .next (refusedEnd i s 0x01 3)) ∧
    (kind ≤ 4 → 1 ≤ n → first + n ≤ count → exec i s = .next (okEnd i s [] (hostWrite (arg64 args 4)
      (wordsLe ((List.range n).map fun k => w32i (calGet s kind (first + k)))) (fetched i s))))) ∧
  (∀ h args s, let i := Instr.faultLogRead h args
    let log := if argN args 1 = 0 then s.sec.volLog else s.sec.persLog
    let cap : Nat := if argN args 1 = 0 then 1024 else 256
    let first := argN args 2
    let n := argN args 3
    accepted i s = true →
    (1 < argN args 1 → exec i s = .next (refusedEnd i s 0x01 1)) ∧
    (argN args 1 ≤ 1 → cap ≤ first → exec i s = .next (refusedEnd i s 0x01 2)) ∧
    (argN args 1 ≤ 1 → first < cap → n < 1 ∨ cap < first + n → exec i s = .next (refusedEnd i s 0x01 3)) ∧
    (argN args 1 ≤ 1 → 1 ≤ n → first + n ≤ cap → exec i s = .next (okEnd i s [] (hostWrite (arg64 args 4)
      ((List.range n).flatMap fun k => match log[first + k]? with
        | some e => logImg e
        | none => List.replicate 64 0) (fetched i s))))) ∧
  (∀ s,
    ((∀ x ∈ s.hearth.detached, x.cmd.opcode ≠ 0x0301) → exec .routeWriteDone s = .next s) ∧
    (∀ d, (s.hearth.detached.find? fun x => x.cmd.opcode == 0x0301) = some d →
      exec .routeWriteDone s = .next (endWith d.cmd 0x00 0 s)) ∧
    ((∀ x ∈ s.hearth.detached, x.cmd.opcode ≠ 0x0307) → exec .endpointWriteDone s = .next s) ∧
    (∀ d, (s.hearth.detached.find? fun x => x.cmd.opcode == 0x0307) = some d →
      exec .endpointWriteDone s = .next (endWith d.cmd 0x00 0 s)) ∧
    ((∀ x ∈ s.hearth.detached, ∀ g m, x.work ≠ .spill g m) → exec .spillRegionPlaced s = .next s))

/-- A counter is read by its COUNTER_ID (R398, R399, R409): KIND, INSTANCE and INDEX are its bits 31 to 24, 23 to 16 and 5 to 0, and bits 15 to 6
are ignored. COUNTER_READ copies 1 to 510 ranges of counters, eight bytes each, each range from its INDEX upward within its block;
a count of ranges outside that, and the first range that does not stay in a block, is refused with a word: the range's COUNTER_ID, or
its count where the ID names a counter. COUNTER_READ completes. Which word a DETAIL names is the model's choice (log entries 19, 139),
and so are counters that read 0 for reserved indices (139). -/
def Obligations.CountersByName : Prop :=
  (∀ kind inst idx, kind < 256 → inst < 256 → idx < 64 →
    ctr kind inst idx / 2 ^ 24 = kind ∧ ctr kind inst idx / 2 ^ 16 % 256 = inst ∧ ctr kind inst idx % 64 = idx) ∧
  (∀ h args s, let i := Instr.counterRead h args
    let n := argN args 1
    let kind (r : Nat) := argN args (2 + 2 * r) / 2 ^ 24
    let inst (r : Nat) := argN args (2 + 2 * r) / 2 ^ 16 % 256
    let idx (r : Nat) := argN args (2 + 2 * r) % 64
    let len (r : Nat) := argN args (3 + 2 * r)
    let inBlock (r : Nat) : Prop :=
      ∃ b ∈ blocks, b.1 = kind r ∧ inst r < b.2.1 ∧ 1 ≤ len r ∧ len r ≤ 64 ∧ idx r + len r ≤ b.2.2
    accepted i s = true →
    (n < 1 ∨ 510 < n → exec i s = .next (refusedEnd i s 0x01 1)) ∧
    (1 ≤ n → n ≤ 510 → (∀ r, r < n → inBlock r) → exec i s = .next (okEnd i s [] (hostWrite (arg64 args (2 + 2 * n))
      ((List.range n).flatMap fun r => (List.range (len r)).flatMap fun k =>
        leBytes 8 (counter s (ctr (kind r) (inst r) (idx r + k))).toNat) (fetched i s)))) ∧
    (∀ r, 1 ≤ n → n ≤ 510 → r < n → ¬inBlock r → (∀ q, q < r → inBlock q) →
      exec i s = .next (refusedEnd i s 0x01
        (if ∃ b ∈ blocks, b.1 = kind r ∧ inst r < b.2.1 ∧ idx r < b.2.2 then 3 + 2 * r else 2 + 2 * r))))
end

