-- ==== Sys2Proof/Laws/Memory.lean ====
section
/-! SUPPORT. What a table and a byte memory hold after a change, and that every operation on a memory keeps its canonical
form. -/

namespace Sys2Proof.Machine

/-! ### Tables -/

theorem tget_tput {α : Type} (d : α) (k j : Nat) (v : α) (t : Tab α) (h : sortedKeys t = true) :
    tget (tput t k v) d j = if k = j then v else tget t d j := by
  induction t with
  | nil => simp [tput, tget]
  | cons p r ih =>
    obtain ⟨i, u⟩ := p
    simp only [sortedKeys, Bool.and_eq_true] at h
    by_cases e : i = k
    · subst e
      by_cases f : i = j <;> simp [tput, tget, f]
    · by_cases lt : k < i
      · simp only [tput, e, lt, if_true, if_false, tget]
      · simp only [tput, e, lt, if_false, tget, ih h.2]
        by_cases f : i = j
        · subst f
          simp [Ne.symm e]
        · simp [f]

theorem all_keys_tput {α : Type} (t : Tab α) (k j : Nat) (v : α) (hk : j < k)
    (h : t.all (fun p => decide (j < p.1)) = true) : (tput t k v).all (fun p => decide (j < p.1)) = true := by
  induction t with
  | nil => simp [tput, hk]
  | cons p r ih =>
    obtain ⟨i, u⟩ := p
    simp only [List.all_cons, Bool.and_eq_true] at h
    unfold tput
    split
    · simp only [List.all_cons, Bool.and_eq_true]
      exact ⟨by simpa using hk, h.2⟩
    · split
      · simp only [List.all_cons, Bool.and_eq_true]
        exact ⟨by simpa using hk, h.1, h.2⟩
      · simp only [List.all_cons, Bool.and_eq_true]
        exact ⟨h.1, ih h.2⟩

theorem sortedKeys_tput {α : Type} (t : Tab α) (k : Nat) (v : α) (h : sortedKeys t = true) :
    sortedKeys (tput t k v) = true := by
  induction t with
  | nil => rfl
  | cons p r ih =>
    obtain ⟨i, u⟩ := p
    simp only [sortedKeys, Bool.and_eq_true] at h
    unfold tput
    split
    · subst_vars
      simp only [sortedKeys, Bool.and_eq_true]
      exact h
    · split
      · rename_i lt
        simp only [sortedKeys, Bool.and_eq_true, List.all_cons]
        refine ⟨⟨by simpa using lt, ?_⟩, h⟩
        simp only [List.all_eq_true, decide_eq_true_eq] at h ⊢
        exact fun p hp => Nat.lt_trans lt (h.1 p hp)
      · simp only [sortedKeys, Bool.and_eq_true]
        exact ⟨all_keys_tput r k i v (by omega) h.1, ih h.2⟩

theorem sortedKeys_filter {α : Type} (t : Tab α) (f : Nat × α → Bool) (h : sortedKeys t = true) :
    sortedKeys (t.filter f) = true := by
  induction t with
  | nil => rfl
  | cons p r ih =>
    obtain ⟨i, u⟩ := p
    simp only [sortedKeys, Bool.and_eq_true] at h
    rw [List.filter_cons]
    split
    · simp only [sortedKeys, Bool.and_eq_true]
      refine ⟨?_, ih h.2⟩
      have hall := h.1
      simp only [List.all_eq_true] at hall ⊢
      exact fun p hp => hall p (List.mem_of_mem_filter hp)
    · exact ih h.2

theorem mem_tput {α : Type} (t : Tab α) (k : Nat) (v : α) (p : Nat × α) (h : p ∈ tput t k v) : p = (k, v) ∨ p ∈ t := by
  induction t with
  | nil => simpa [tput] using h
  | cons q r ih =>
    obtain ⟨i, u⟩ := q
    unfold tput at h
    split at h
    · rcases List.mem_cons.mp h with e | e
      · exact .inl e
      · exact .inr (List.mem_cons_of_mem _ e)
    · split at h
      · rcases List.mem_cons.mp h with e | e
        · exact .inl e
        · exact .inr e
      · rcases List.mem_cons.mp h with e | e
        · exact .inr (e ▸ List.mem_cons_self)
        · rcases ih e with e | e
          · exact .inl e
          · exact .inr (List.mem_cons_of_mem _ e)

/-- An entry lower than the first key is not listed. -/
theorem tget_low {α : Type} (t : Tab α) (d : α) (k : Nat) (h : t.all (fun p => decide (k < p.1)) = true) : tget t d k = d := by
  induction t with
  | nil => rfl
  | cons p r ih =>
    obtain ⟨i, u⟩ := p
    simp only [List.all_cons, Bool.and_eq_true, decide_eq_true_eq] at h
    simp only [tget, Nat.ne_of_gt h.1, if_false]
    exact ih h.2

theorem tget_filter {α : Type} (t : Tab α) (d : α) (f : Nat → Bool) (k : Nat) :
    tget (t.filter fun p => f p.1) d k = if f k then tget t d k else d := by
  induction t with
  | nil => simp [tget]
  | cons p r ih =>
    obtain ⟨i, u⟩ := p
    rw [List.filter_cons]
    by_cases e : i = k
    · subst e
      by_cases g : f i = true
      · simp [g, tget]
      · have h0 := ih
        simp only [g] at h0 ⊢
        simpa using h0
    · by_cases g : f i = true
      · simp only [g, if_true, tget, e, if_false]
        exact ih
      · simp only [g, tget, e, if_false]
        simpa using ih

/-- What a table reads after one key is set. -/
theorem tget_tset {α : Type} [DecidableEq α] (t : Tab α) (d : α) (k j : Nat) (v : α) (h : sortedKeys t = true) :
    tget (tset t d k v) d j = if k = j then v else tget t d j := by
  unfold tset
  split
  · rename_i e
    unfold tdel
    rw [tget_filter t d (fun i => i != k) j]
    by_cases f : k = j
    · subst f
      simp [e]
    · simp [f, Ne.symm f]
  · exact tget_tput d k j v t h

theorem tabWf_tset {α : Type} [DecidableEq α] (t : Tab α) (d : α) (k : Nat) (v : α) (h : tabWf d t = true) :
    tabWf d (tset t d k v) = true := by
  simp only [tabWf, Bool.and_eq_true, List.all_eq_true, decide_eq_true_eq] at h ⊢
  unfold tset
  split
  · exact ⟨sortedKeys_filter t _ h.1, fun p hp => h.2 p (List.mem_of_mem_filter hp)⟩
  · rename_i e
    refine ⟨sortedKeys_tput t k v h.1, fun p hp => ?_⟩
    rcases mem_tput t k v p hp with q | q
    · subst q
      exact e
    · exact h.2 p q

/-! ### Byte memories -/

theorem Memory.wf_filter (m : List Host.Cell) (f : Host.Cell → Bool) (h : Memory.wf m = true) :
    Memory.wf (m.filter f) = true := by
  simp only [Memory.wf, tabWf, Bool.and_eq_true, List.all_eq_true] at h ⊢
  exact ⟨sortedKeys_filter m f h.1, fun p hp => h.2 p (List.mem_of_mem_filter hp)⟩

/-- A write keeps the canonical form. -/
theorem Memory.wf_memWrite (bytes : List Byte) : ∀ (m : List Host.Cell) (a : Nat), Memory.wf m = true →
    Memory.wf (memWrite m a bytes) = true := by
  induction bytes with
  | nil => exact fun _ _ h => h
  | cons b r ih => exact fun m a h => ih _ _ (tabWf_tset m 0 a b h)

/-- Zeroing a range keeps the canonical form. -/
theorem Memory.wf_memZero (m : List Host.Cell) (a n : Nat) (h : Memory.wf m = true) : Memory.wf (memZero m a n) = true :=
  Memory.wf_filter m _ h

theorem Memory.sorted (m : List Host.Cell) (h : Memory.wf m = true) : sortedKeys m = true := by
  simp only [Memory.wf, tabWf, Bool.and_eq_true] at h
  exact h.1

/-- What a byte reads after a write: the byte written there, or what it read before. -/
theorem tget_memWrite (bytes : List Byte) : ∀ (m : List Host.Cell) (a j : Nat), Memory.wf m = true →
    tget (memWrite m a bytes) (0 : Byte) j = if a ≤ j ∧ j < a + bytes.length then bytes.getD (j - a) 0 else tget m 0 j := by
  induction bytes with
  | nil =>
    intro m a j _
    simp [memWrite]
  | cons b r ih =>
    intro m a j h
    show tget (memWrite (tset m 0 a b) (a + 1) r) 0 j = _
    rw [ih _ (a + 1) j (tabWf_tset m 0 a b h)]
    by_cases e : a = j
    · subst e
      have c1 : ¬(a + 1 ≤ a ∧ a < a + 1 + r.length) := by omega
      have c2 : a ≤ a ∧ a < a + (r.length + 1) := by omega
      simp only [c1, if_false, List.length_cons, c2]
      rw [tget_tset m 0 a a b (Memory.sorted m h)]
      simp
    · rw [tget_tset m 0 a j b (Memory.sorted m h)]
      simp only [e, if_false, List.length_cons]
      by_cases c : a + 1 ≤ j ∧ j < a + 1 + r.length
      · have c2 : a ≤ j ∧ j < a + (r.length + 1) := by omega
        obtain ⟨n, hn⟩ : ∃ n, j - a = n + 1 := ⟨j - a - 1, by omega⟩
        have hm : j - (a + 1) = n := by omega
        simp [c, c2, hn, hm]
      · have c2 : ¬(a ≤ j ∧ j < a + (r.length + 1)) := by omega
        rw [if_neg c, if_neg c2]

/-- What a byte reads after a range is zeroed. -/
theorem tget_memZero (m : List Host.Cell) (a n j : Nat) :
    tget (memZero m a n) (0 : Byte) j = if a ≤ j ∧ j < a + n then 0 else tget m 0 j := by
  unfold memZero
  rw [tget_filter m (0 : Byte) (fun i => decide (i < a ∨ a + n ≤ i)) j]
  by_cases c : a ≤ j ∧ j < a + n
  · have : ¬(j < a ∨ a + n ≤ j) := by omega
    simp [c, this]
  · have : j < a ∨ a + n ≤ j := by omega
    simp [c, this]

/-! ### Device addresses and host memory -/

/-- What a byte of a device address reads after a write. -/
theorem daWrite_byte (s : State) (da j : Nat) (bytes : List Byte) (h : Memory.wf s.mem.bytes = true) :
    tget (daWrite da bytes s).mem.bytes (0 : Byte) j =
      if da ≤ j ∧ j < da + bytes.length then bytes.getD (j - da) 0 else tget s.mem.bytes 0 j :=
  tget_memWrite bytes s.mem.bytes da j h

/-- What a byte of a device address reads after a range is zeroed. -/
theorem daZero_byte (s : State) (da n j : Nat) :
    tget (daZero da n s).mem.bytes (0 : Byte) j = if da ≤ j ∧ j < da + n then 0 else tget s.mem.bytes 0 j :=
  tget_memZero s.mem.bytes da n j

/-- What a byte of host memory reads after a write. -/
theorem hostWrite_byte (s : State) (a j : Nat) (bytes : List Byte) (h : Memory.wf s.hearth.hostMem = true) :
    tget (hostWrite a bytes s).hearth.hostMem (0 : Byte) j =
      if a ≤ j ∧ j < a + bytes.length then bytes.getD (j - a) 0 else tget s.hearth.hostMem 0 j :=
  tget_memWrite bytes s.hearth.hostMem a j h

end Sys2Proof.Machine
end

