-- ==== Sys2Proof/Laws/Keeps.lean ====
section
/-! SUPPORT. What every operation on the state keeps: the queue of waiting commands, the invariant, and the order in which
the security state may change. -/

namespace Sys2Proof.Machine

/-- The second state is a later one: the queue is the same, the invariant is kept, the security state only rises. -/
structure Keeps (s t : State) : Prop where
  pending : t.pending = s.pending
  inv : Inv s → Inv t
  rises : SecRises s.sec t.sec

theorem SecRises.refl (a : Sec) : SecRises a a :=
  ⟨Nat.le_refl _, Nat.le_refl _, .inl (List.prefix_refl _), .inl, fun _ => .inl rfl⟩

theorem SecRises.trans {a b c : Sec} (h : SecRises a b) (k : SecRises b c) : SecRises a c where
  life := Nat.le_trans h.life k.life
  fused := Nat.le_trans h.fused k.fused
  owners := by
    rcases k.owners with e | e
    · rcases h.owners with f | f
      · exact .inl (f.trans e)
      · exact .inr (Nat.le_trans f k.life)
    · exact .inr e
  cosign e := by
    rcases h.cosign e with f | f
    · exact k.cosign f
    · exact .inr (Nat.le_trans f k.life)
  fixed e := by
    rcases k.fixed (Nat.le_trans e h.life) with f | f
    · rcases h.fixed e with g | g
      · exact .inl (f.trans g)
      · exact .inr (Nat.le_trans g k.life)
    · exact .inr f

theorem Keeps.refl (s : State) : Keeps s s := ⟨rfl, id, .refl _⟩

theorem Keeps.trans {s t u : State} (h : Keeps s t) (k : Keeps t u) : Keeps s u :=
  ⟨k.pending.trans h.pending, k.inv ∘ h.inv, h.rises.trans k.rises⟩

/-- A change that leaves the queue, the fuses, the keys and the tag area alone and keeps the canonical form of every byte
memory. -/
theorem Keeps.all {s0 s t : State} (h : Keeps s0 s) (e1 : t.pending = s.pending)
    (es : t.sec.life = s.sec.life ∧ (t.sec.fuseA, t.sec.fuseB) = (s.sec.fuseA, s.sec.fuseB) ∧ t.sec.owners = s.sec.owners ∧
      t.sec.cosign = s.sec.cosign ∧ t.sec.identity = s.sec.identity ∧ t.sec.tag = s.sec.tag)
    (e2 : Memory.wf s.mem.bytes = true → Memory.wf t.mem.bytes = true)
    (e3 : Memory.wf s.hearth.hostMem = true → Memory.wf t.hearth.hostMem = true)
    (e4 : Memory.wf s.hearth.localMem = true → Memory.wf t.hearth.localMem = true) : Keeps s0 t := by
  obtain ⟨l, f', o, c, i, g⟩ := es
  have f : t.sec.fusedVer = s.sec.fusedVer := by
    unfold Sec.fusedVer
    rw [(Prod.mk.inj f').1, (Prod.mk.inj f').2]
  refine h.trans ⟨e1, fun v => ⟨⟨e2 v.mem.bytes, e3 v.mem.host, e4 v.mem.area, g ▸ v.mem.tag⟩, ⟨?_, ?_, ?_, ?_⟩⟩,
    ⟨Nat.le_of_eq l.symm, Nat.le_of_eq f.symm, .inl (o ▸ List.prefix_refl _), fun k => .inl (c.trans k), fun _ => .inl o⟩⟩
  · rw [l]; exact v.sec.life
  · rw [o]; exact v.sec.owners
  · rw [f]; exact v.sec.fused
  · intro k
    rw [i, o, c, g]
    exact v.sec.gone (l.symm.trans k)

/-- A change that leaves the queue, the security state and the byte memories alone. -/
theorem Keeps.same {s0 s t : State} (h : Keeps s0 s) (e1 : t.pending = s.pending) (e2 : t.sec = s.sec)
    (e3 : t.mem.bytes = s.mem.bytes) (e4 : t.hearth.hostMem = s.hearth.hostMem) (e5 : t.hearth.localMem = s.hearth.localMem) :
    Keeps s0 t :=
  h.all e1 (by rw [e2]; exact ⟨rfl, rfl, rfl, rfl, rfl, rfl⟩) (by rw [e3]; exact id) (by rw [e4]; exact id) (by rw [e5]; exact id)

/-- A change of the device's bytes that keeps their canonical form. -/
theorem Keeps.bytes {s0 s : State} {f : Mem → Mem} (e : ∀ m, Memory.wf m.bytes = true → Memory.wf (f m).bytes = true)
    (h : Keeps s0 s) : Keeps s0 (s.modMem f) := h.all rfl ⟨rfl, rfl, rfl, rfl, rfl, rfl⟩ (e _) id id

/-- A change of host memory and of the local ring area that keeps their canonical forms. -/
theorem Keeps.hearth {s0 s : State} {f : Hearth → Hearth}
    (e : ∀ x, Memory.wf x.hostMem = true → Memory.wf (f x).hostMem = true)
    (e' : ∀ x, Memory.wf x.localMem = true → Memory.wf (f x).localMem = true) (h : Keeps s0 s) : Keeps s0 (s.modHearth f) :=
  h.all rfl ⟨rfl, rfl, rfl, rfl, rfl, rfl⟩ id (e _) (e' _)

/-- A change of the security state that leaves fuses, keys and the tag area alone. -/
theorem Keeps.modSec {s0 s : State} {f : Sec → Sec}
    (e : ∀ c, (f c).life = c.life ∧ ((f c).fuseA, (f c).fuseB) = (c.fuseA, c.fuseB) ∧ (f c).owners = c.owners ∧ (f c).cosign = c.cosign ∧
      (f c).identity = c.identity ∧ (f c).tag = c.tag) (h : Keeps s0 s) : Keeps s0 (s.modSec f) :=
  h.all rfl (e _) id id id

/-- A change of the security state to a legal one that only rises. -/
theorem Keeps.secTo {s0 s : State} {f : Sec → Sec} (h : Keeps s0 s) (ok : SecOk s.sec → SecOk (f s.sec))
    (tag : Memory.wf s.sec.tag = true → Memory.wf (f s.sec).tag = true) (r : SecRises s.sec (f s.sec)) :
    Keeps s0 (s.modSec f) :=
  h.trans ⟨rfl, fun i => ⟨⟨i.mem.bytes, i.mem.host, i.mem.area, tag i.mem.tag⟩, ok i.sec⟩, r⟩

/-- There are 64 pairs of fuses. -/
theorem fusedVer_le (c : Sec) : c.fusedVer ≤ 64 := by
  unfold Sec.fusedVer
  exact Nat.le_trans List.countP_le_length (by simp)

/-- Blowing fuses lowers no version. -/
theorem fusedVer_mono {a b : Sec} (ha : ∀ i, a.fuseA.getLsbD i = true → b.fuseA.getLsbD i = true)
    (hb : ∀ i, a.fuseB.getLsbD i = true → b.fuseB.getLsbD i = true) : a.fusedVer ≤ b.fusedVer := by
  unfold Sec.fusedVer
  apply List.countP_mono_left
  intro i _ h
  rw [BitVec.getLsbD_or, Bool.or_eq_true] at h ⊢
  exact h.imp (ha i) (hb i)

/-- The fuses of the first pairs are blown. -/
theorem Keeps.fuse {s0 s : State} {v : Nat} (h : Keeps s0 s) :
    Keeps s0 (s.modSec fun c => { c with fuseA := blown v c.fuseA, fuseB := blown v c.fuseB }) :=
  h.trans ⟨rfl, fun i => ⟨⟨i.mem.bytes, i.mem.host, i.mem.area, i.mem.tag⟩,
    ⟨i.sec.life, i.sec.owners, fusedVer_le _, i.sec.gone⟩⟩,
    ⟨Nat.le_refl _, fusedVer_mono (fun i k => by simp [blown, State.modSec, k]) (fun i k => by simp [blown, State.modSec, k]),
      .inl (List.prefix_refl _), .inl, fun _ => .inl rfl⟩⟩

theorem Keeps.foldl {α : Type} {s0 : State} {f : State → α → State} (l : List α)
    (e : ∀ t a, Keeps s0 t → Keeps s0 (f t a)) {s : State} (h : Keeps s0 s) : Keeps s0 (l.foldl f s) := by
  induction l generalizing s with
  | nil => exact h
  | cons a r ih => exact ih (e s a h)

theorem Keeps.foldl_snd {α β : Type} {s0 : State} {f : β × State → α → β × State} (l : List α)
    (e : ∀ p a, Keeps s0 p.2 → Keeps s0 (f p a).2) {p : β × State} (h : Keeps s0 p.2) : Keeps s0 (l.foldl f p).2 := by
  induction l generalizing p with
  | nil => exact h
  | cons a r ih => exact ih (e p a h)

theorem Keeps.ite {s0 t u : State} {c : Prop} [Decidable c] (h : Keeps s0 t) (k : Keeps s0 u) :
    Keeps s0 (if c then t else u) := by
  split
  · exact h
  · exact k

theorem Keeps.ite_fst {α : Type} {s0 : State} {t u : State × α} {c : Prop} [Decidable c] (h : Keeps s0 t.1)
    (k : Keeps s0 u.1) : Keeps s0 (if c then t else u).1 := by
  split
  · exact h
  · exact k

theorem Keeps.ite_snd {α : Type} {s0 : State} {t u : α × State} {c : Prop} [Decidable c] (h : Keeps s0 t.2)
    (k : Keeps s0 u.2) : Keeps s0 (if c then t else u).2 := by
  split
  · exact h
  · exact k

/-- The state beside a value, of a pair that an equation names. -/
theorem Keeps.snd {α : Type} {s0 t : State} {p : α × State} {a : α} (e : p = (a, t)) (h : Keeps s0 p.2) : Keeps s0 t := by
  rw [e] at h
  exact h

theorem Keeps.fst {α : Type} {s0 t : State} {p : State × α} {a : α} (e : p = (t, a)) (h : Keeps s0 p.1) : Keeps s0 t := by
  rw [e] at h
  exact h

/-- What an outcome that answers a next state keeps. -/
def KeepsOut (s : State) (o : Host.Outcome State Fault Refusal) : Prop :=
  match o with
  | .next t => Keeps s t
  | _ => True

theorem KeepsOut.next {s t : State} (h : Keeps s t) : KeepsOut s (.next t) := h

theorem KeepsOut.ite {s : State} {a b : Host.Outcome State Fault Refusal} {c : Prop} [Decidable c] (h : KeepsOut s a)
    (k : KeepsOut s b) : KeepsOut s (if c then a else b) := by
  split
  · exact h
  · exact k

theorem KeepsOut.refused {s : State} {r : Refusal} : KeepsOut s (.refused r) := trivial

end Sys2Proof.Machine
end

