-- ==== Sys2Proof/Laws/KeepsFields.lean ====
section
/-! SUPPORT. What the changes of one part of the state keep. -/

namespace Sys2Proof.Machine

variable {s0 s : State}

theorem State.modRouting_keeps {f : Routing → Routing} (h : Keeps s0 s) : Keeps s0 (s.modRouting f) := h.same rfl rfl rfl rfl rfl
theorem State.modCore_keeps {f : Core → Core} (h : Keeps s0 s) : Keeps s0 (s.modCore f) := h.same rfl rfl rfl rfl rfl
theorem State.modSched_keeps {f : Sched → Sched} (h : Keeps s0 s) : Keeps s0 (s.modSched f) := h.same rfl rfl rfl rfl rfl
theorem State.modColl_keeps {f : Tab Ctx → Tab Ctx} (h : Keeps s0 s) : Keeps s0 (s.modColl f) := h.same rfl rfl rfl rfl rfl
theorem State.modThresh_keeps {f : Thresh → Thresh} (h : Keeps s0 s) : Keeps s0 (s.modThresh f) := h.same rfl rfl rfl rfl rfl
theorem State.modOptics_keeps {f : Optics → Optics} (h : Keeps s0 s) : Keeps s0 (s.modOptics f) := h.same rfl rfl rfl rfl rfl
theorem State.modLink_keeps {f : Link → Link} (h : Keeps s0 s) : Keeps s0 (s.modLink f) := h.same rfl rfl rfl rfl rfl
theorem State.modFlue_keeps {f : Tab Circuit → Tab Circuit} (h : Keeps s0 s) : Keeps s0 (s.modFlue f) := h.same rfl rfl rfl rfl rfl
theorem State.modTime_keeps {f : TimeSt → TimeSt} (h : Keeps s0 s) : Keeps s0 (s.modTime f) := h.same rfl rfl rfl rfl rfl
theorem State.modKindle_keeps {f : Tab KEntry → Tab KEntry} (h : Keeps s0 s) : Keeps s0 (s.modKindle f) := h.same rfl rfl rfl rfl rfl
theorem State.modJobs_keeps {f : Jobs → Jobs} (h : Keeps s0 s) : Keeps s0 (s.modJobs f) := h.same rfl rfl rfl rfl rfl
theorem State.modCount_keeps {f : Count → Count} (h : Keeps s0 s) : Keeps s0 (s.modCount f) := h.same rfl rfl rfl rfl rfl
theorem State.modPower_keeps {f : Power → Power} (h : Keeps s0 s) : Keeps s0 (s.modPower f) := h.same rfl rfl rfl rfl rfl

theorem State.modMem_keeps {f : Mem → Mem} (h : Keeps s0 s) (e : ∀ m, (f m).bytes = m.bytes) : Keeps s0 (s.modMem f) :=
  h.same rfl rfl (e _) rfl rfl

theorem State.modHearth_keeps {f : Hearth → Hearth} (h : Keeps s0 s)
    (e : ∀ x, (f x).hostMem = x.hostMem ∧ (f x).localMem = x.localMem) : Keeps s0 (s.modHearth f) :=
  h.same rfl rfl rfl (e _).1 (e _).2

theorem State.modSec_keeps {f : Sec → Sec} (h : Keeps s0 s)
    (e : ∀ c, (f c).life = c.life ∧ ((f c).fuseA, (f c).fuseB) = (c.fuseA, c.fuseB) ∧ (f c).owners = c.owners ∧ (f c).cosign = c.cosign ∧
      (f c).identity = c.identity ∧ (f c).tag = c.tag) : Keeps s0 (s.modSec f) := h.modSec e

theorem State.tookFree_keeps (h : Keeps s0 s) : Keeps s0 s.tookFree := h.same rfl rfl rfl rfl rfl
theorem State.tookMany_keeps {n : Nat} (h : Keeps s0 s) : Keeps s0 (s.tookMany n) := h.same rfl rfl rfl rfl rfl
theorem emit_keeps {o : Output} (h : Keeps s0 s) : Keeps s0 (emit o s) := h.same rfl rfl rfl rfl rfl

theorem hostWrite_keeps {a : Nat} {b : List Byte} (h : Keeps s0 s) : Keeps s0 (hostWrite a b s) :=
  h.hearth (fun _ i => Memory.wf_memWrite b _ _ i) (fun _ i => i)

theorem localWrite_keeps {a : Nat} {b : List Byte} (h : Keeps s0 s) : Keeps s0 (localWrite a b s) :=
  h.hearth (fun _ i => i) (fun _ i => Memory.wf_memWrite b _ _ i)

theorem daWrite_keeps {a : Nat} {b : List Byte} (h : Keeps s0 s) : Keeps s0 (daWrite a b s) :=
  h.bytes fun _ i => Memory.wf_memWrite b _ _ i

theorem daZero_keeps {a n : Nat} (h : Keeps s0 s) : Keeps s0 (daZero a n s) :=
  h.bytes fun _ i => Memory.wf_memZero _ a n i

end Sys2Proof.Machine
end

