-- ==== Sys2Proof/Laws/KeepsOps.lean ====
section
/-! SUPPORT. What the operations of Machine/Ops.lean keep. -/

namespace Sys2Proof.Machine

theorem modBarn_keeps {s0 : State} : ∀ x0 x1 s, Keeps s0 s → Keeps s0 (modBarn x0 x1 s) := by
  intro x0 x1 s h
  unfold modBarn
  try dsimp only
  repeat' first
    | with_reducible exact h | (intro) | with_reducible apply State.modCore_keeps

theorem modLaneOpt_keeps {s0 : State} : ∀ x0 x1 s, Keeps s0 s → Keeps s0 (modLaneOpt x0 x1 s) := by
  intro x0 x1 s h
  unfold modLaneOpt
  try dsimp only
  repeat' first
    | with_reducible exact h | (intro) | with_reducible apply State.modOptics_keeps

theorem modLaneLink_keeps {s0 : State} : ∀ x0 x1 s, Keeps s0 s → Keeps s0 (modLaneLink x0 x1 s) := by
  intro x0 x1 s h
  unfold modLaneLink
  try dsimp only
  repeat' first
    | with_reducible exact h | (intro) | with_reducible apply State.modLink_keeps

theorem modPort_keeps {s0 : State} : ∀ x0 x1 s, Keeps s0 s → Keeps s0 (modPort x0 x1 s) := by
  intro x0 x1 s h
  unfold modPort
  try dsimp only
  repeat' first
    | with_reducible exact h | (intro) | with_reducible apply State.modLink_keeps

theorem bumpBy_keeps {s0 : State} : ∀ x0 x1 s, Keeps s0 s → Keeps s0 (bumpBy x0 x1 s) := by
  intro x0 x1 s h
  unfold bumpBy
  try dsimp only
  repeat' first
    | with_reducible exact h | (intro) | with_reducible apply State.modCount_keeps

theorem bump_keeps {s0 : State} : ∀ x0 s, Keeps s0 s → Keeps s0 (bump x0 s) := by
  intro x0 s h
  unfold bump
  try dsimp only
  repeat' first
    | with_reducible exact h | (intro) | with_reducible apply bumpBy_keeps

theorem sendMsix_keeps {s0 : State} : ∀ x0 s, Keeps s0 s → Keeps s0 (sendMsix x0 s) := by
  intro x0 s h
  unfold sendMsix
  try dsimp only
  repeat' first
    | with_reducible exact h | (intro) | with_reducible apply State.modHearth_keeps | with_reducible apply emit_keeps
    | with_reducible apply Keeps.ite | with_reducible apply Keeps.foldl | split | dsimp only | exact rfl
    | exact ⟨rfl, rfl⟩

theorem raiseInt_keeps {s0 : State} : ∀ x0 x1 s, Keeps s0 s → Keeps s0 (raiseInt x0 x1 s) := by
  intro x0 x1 s h
  unfold raiseInt
  try dsimp only
  repeat' first
    | with_reducible exact h | (intro) | with_reducible apply State.modHearth_keeps
    | with_reducible apply sendMsix_keeps | with_reducible apply Keeps.ite | with_reducible apply Keeps.foldl | split
    | dsimp only | exact rfl | exact ⟨rfl, rfl⟩

theorem post_keeps {s0 : State} : ∀ x0 x1 x2 s, Keeps s0 s → Keeps s0 (post x0 x1 x2 s) := by
  intro x0 x1 x2 s h
  unfold post
  try dsimp only
  repeat' first
    | with_reducible exact h | (intro) | with_reducible apply State.modHearth_keeps | with_reducible apply bump_keeps
    | with_reducible apply Keeps.ite | with_reducible apply Keeps.foldl | split | dsimp only | exact rfl
    | exact ⟨rfl, rfl⟩

theorem captureAt_keeps {s0 : State} : ∀ x0 x1 x2 s, Keeps s0 s → Keeps s0 (captureAt x0 x1 x2 s) := by
  intro x0 x1 x2 s h
  unfold captureAt
  try dsimp only
  repeat' first
    | with_reducible exact h | (intro) | with_reducible apply State.modTime_keeps | with_reducible apply bump_keeps
    | with_reducible apply Keeps.ite

theorem capture_keeps {s0 : State} : ∀ x0 x1 s, Keeps s0 s → Keeps s0 (capture x0 x1 s) := by
  intro x0 x1 s h
  unfold capture
  try dsimp only
  repeat' first
    | with_reducible exact h | (intro) | with_reducible apply State.tookFree_keeps
    | with_reducible apply captureAt_keeps

theorem sendFault_keeps {s0 : State} : ∀ x0 x1 s, Keeps s0 s → Keeps s0 (sendFault x0 x1 s) := by
  intro x0 x1 s h
  unfold sendFault
  try dsimp only
  repeat' first
    | with_reducible exact h | (intro) | with_reducible apply State.modSec_keeps | with_reducible apply capture_keeps
    | with_reducible apply post_keeps | with_reducible apply Keeps.ite | with_reducible apply Keeps.foldl | split
    | dsimp only | exact rfl | exact ⟨rfl, rfl⟩ | exact ⟨rfl, rfl, rfl, rfl, rfl, rfl⟩

theorem report_keeps {s0 : State} : ∀ x0 s, Keeps s0 s → Keeps s0 (report x0 s) := by
  intro x0 s h
  unfold report
  try dsimp only
  repeat' first
    | with_reducible exact h | (intro) | with_reducible apply State.modSec_keeps
    | with_reducible apply sendFault_keeps | with_reducible apply Keeps.ite | with_reducible apply Keeps.foldl | split
    | dsimp only | exact rfl | exact ⟨rfl, rfl⟩ | exact ⟨rfl, rfl, rfl, rfl, rfl, rfl⟩

theorem noteStatus_keeps {s0 : State} : ∀ old t, Keeps s0 t → Keeps s0 (noteStatus old t) := by
  intro old t h
  unfold noteStatus
  split
  · exact h
  · exact raiseInt_keeps _ _ _ h

theorem setResetCause_keeps {s0 : State} : ∀ x0 x1 x2 x3 s, Keeps s0 s → Keeps s0 (setResetCause x0 x1 x2 x3 s) := by
  intro x0 x1 x2 x3 s h
  unfold setResetCause
  try dsimp only
  repeat' first
    | with_reducible exact h | (intro) | with_reducible apply State.modHearth_keeps | with_reducible apply Keeps.ite
    | with_reducible apply Keeps.foldl | split | dsimp only | exact rfl | exact ⟨rfl, rfl⟩

end Sys2Proof.Machine
end

