-- ==== Sys2Proof/Laws/KeepsMailbox.lean ====
section
/-! SUPPORT. What the operations of Machine/Mailbox.lean keep. -/

namespace Sys2Proof.Machine

theorem cmdOk_keeps {s0 : State} : ∀ s, Keeps s0 s → Keeps s0 (cmdOk s).1 := by
  intro s h
  unfold cmdOk
  try dsimp only
  exact h

theorem cmdOkWith_keeps {s0 : State} : ∀ x0 s, Keeps s0 s → Keeps s0 (cmdOkWith x0 s).1 := by
  intro x0 s h
  unfold cmdOkWith
  try dsimp only
  exact h

theorem cmdRefuse_keeps {s0 : State} : ∀ x0 x1 s, Keeps s0 s → Keeps s0 (cmdRefuse x0 x1 s).1 := by
  intro x0 x1 s h
  unfold cmdRefuse
  try dsimp only
  exact h

theorem modRing_keeps {s0 : State} : ∀ x0 x1 s, Keeps s0 s → Keeps s0 (modRing x0 x1 s) := by
  intro x0 x1 s h
  unfold modRing
  try dsimp only
  repeat' first
    | with_reducible exact h | (intro) | with_reducible apply State.modHearth_keeps | with_reducible apply Keeps.ite
    | with_reducible apply Keeps.foldl | split | dsimp only | exact rfl | exact ⟨rfl, rfl⟩

theorem writeCompletion_keeps {s0 : State} : ∀ x0 x1 s, Keeps s0 s → Keeps s0 (writeCompletion x0 x1 s) := by
  intro x0 x1 s h
  unfold writeCompletion
  try dsimp only
  repeat' first
    | with_reducible exact h | (intro) | with_reducible apply State.modHearth_keeps | with_reducible apply bump_keeps
    | with_reducible apply hostWrite_keeps | with_reducible apply localWrite_keeps
    | with_reducible apply modRing_keeps | with_reducible apply raiseInt_keeps | with_reducible apply Keeps.ite
    | with_reducible apply Keeps.foldl | split | dsimp only | exact rfl | exact ⟨rfl, rfl⟩

theorem addDetached_keeps {s0 : State} : ∀ x0 x1 s, Keeps s0 s → Keeps s0 (addDetached x0 x1 s) := by
  intro x0 x1 s h
  unfold addDetached
  try dsimp only
  repeat' first
    | with_reducible exact h | (intro) | with_reducible apply State.modHearth_keeps | with_reducible apply Keeps.ite
    | with_reducible apply Keeps.foldl | split | dsimp only | exact rfl | exact ⟨rfl, rfl⟩

theorem cmdDetach_keeps {s0 : State} : ∀ x0 s, Keeps s0 s → Keeps s0 (cmdDetach x0 s).1 := by
  intro x0 s h
  unfold cmdDetach
  try dsimp only
  repeat' first
    | with_reducible exact h | (intro) | with_reducible apply addDetached_keeps

theorem endDetached_keeps {s0 : State} : ∀ x0 x1 s, Keeps s0 s → Keeps s0 (endDetached x0 x1 s) := by
  intro x0 x1 s h
  unfold endDetached
  try dsimp only
  repeat' first
    | with_reducible exact h | (intro) | with_reducible apply State.modHearth_keeps
    | with_reducible apply writeCompletion_keeps | with_reducible apply Keeps.ite | with_reducible apply Keeps.foldl
    | split | dsimp only | exact rfl | exact ⟨rfl, rfl⟩

theorem endWith_keeps {s0 : State} : ∀ x0 x1 x2 s, Keeps s0 s → Keeps s0 (endWith x0 x1 x2 s) := by
  intro x0 x1 x2 s h
  unfold endWith
  try dsimp only
  repeat' first
    | with_reducible exact h | (intro) | with_reducible apply endDetached_keeps

theorem fetchEntry_keeps {s0 : State} : ∀ x0 s, Keeps s0 s → Keeps s0 (fetchEntry x0 s) := by
  intro x0 s h
  unfold fetchEntry
  try dsimp only
  repeat' first
    | with_reducible exact h | (intro) | with_reducible apply State.modHearth_keeps
    | with_reducible apply modRing_keeps | with_reducible apply Keeps.ite | with_reducible apply Keeps.foldl | split
    | dsimp only | exact rfl | exact ⟨rfl, rfl⟩

theorem mailbox_keeps {s0 s : State} {sp : CmdSpec} {len : List Word → Nat} {body : CmdRef → State → Res} {e : CmdHdr}
    {args : List Word} (hb : ∀ c t, Keeps s0 t → Keeps s0 (body c t).1) (h : Keeps s0 s) :
    Keeps s0 (mailbox sp len body e args s) := by
  have hf := fetchEntry_keeps e.ring.val s h
  have hr := hb (cmdRefOf sp e s) _ hf
  unfold mailbox
  dsimp only
  split
  · split
    · exact writeCompletion_keeps _ _ _ hf
    · split
      · exact writeCompletion_keeps _ _ _ hf
      · split
        · exact writeCompletion_keeps _ _ _ (Keeps.fst (by assumption) hr)
        · exact Keeps.fst (by assumption) hr
  · exact h

theorem runMailbox_keeps {s : State} {sp : CmdSpec} {len : List Word → Nat} {body : CmdRef → State → Res} {e : CmdHdr}
    {args : List Word} (hb : ∀ c t, Keeps s t → Keeps s (body c t).1) :
    KeepsOut s (runMailbox sp len body e args s) := by
  unfold runMailbox
  split
  · exact mailbox_keeps hb (Keeps.refl s)
  · trivial

end Sys2Proof.Machine
end

