-- ==== Sys2Proof/Laws/KeepsMemOps.lean ====
section
/-! SUPPORT. What the operations of Machine/MemOps.lean keep. -/

namespace Sys2Proof.Machine

theorem cacheRange_keeps {s0 : State} : ∀ x0 x1 x2 x3 s, Keeps s0 s → Keeps s0 (cacheRange x0 x1 x2 x3 s) := by
  intro x0 x1 x2 x3 s h
  unfold cacheRange
  try dsimp only
  repeat' first
    | with_reducible exact h | (intro) | with_reducible apply modBarn_keeps | with_reducible apply Keeps.ite
    | with_reducible apply Keeps.foldl | split | dsimp only | exact rfl | exact ⟨rfl, rfl⟩
    | exact ⟨rfl, rfl, rfl, rfl, rfl, rfl⟩ | assumption

theorem memUE_keeps {s0 : State} : ∀ x0 x1 x2 s, Keeps s0 s → Keeps s0 (memUE x0 x1 x2 s) := by
  intro x0 x1 x2 s h
  unfold memUE
  try dsimp only
  repeat' first
    | with_reducible exact h | (intro) | with_reducible apply State.tookFree_keeps | with_reducible apply bump_keeps
    | with_reducible apply bumpBy_keeps | with_reducible apply report_keeps | with_reducible apply Keeps.ite
    | with_reducible apply Keeps.foldl | split

end Sys2Proof.Machine
end

