-- ==== Sys2Proof/Laws/KeepsRouting.lean ====
section
/-! SUPPORT. What the operations of Machine/Routing.lean keep. -/

namespace Sys2Proof.Machine

theorem chooseMember_keeps {s0 : State} : ∀ x0 x1 x2 s, Keeps s0 s → Keeps s0 (chooseMember x0 x1 x2 s).2 := by
  intro x0 x1 x2 s h
  unfold chooseMember
  try dsimp only
  repeat' first
    | with_reducible exact h | (intro) | with_reducible apply State.modRouting_keeps
    | with_reducible apply Keeps.ite_snd | with_reducible apply Keeps.ite | with_reducible apply Keeps.foldl | split

theorem joinSlots_keeps {s0 : State} : ∀ x0 x1 s, Keeps s0 s → Keeps s0 (joinSlots x0 x1 s) := by
  intro x0 x1 s h
  unfold joinSlots
  try dsimp only
  repeat' first
    | with_reducible exact h | (intro) | with_reducible apply State.modRouting_keeps

theorem joinLane_keeps {s0 : State} : ∀ x0 x1 s, Keeps s0 s → Keeps s0 (joinLane x0 x1 s) := by
  intro x0 x1 s h
  unfold joinLane
  try dsimp only
  repeat' first
    | with_reducible exact h | (intro) | with_reducible apply State.modRouting_keeps

theorem chooseLane_keeps {s0 : State} : ∀ x0 x1 s, Keeps s0 s → Keeps s0 (chooseLane x0 x1 s).2 := by
  intro x0 x1 s h
  unfold chooseLane
  try dsimp only
  repeat' first
    | with_reducible exact h | (intro) | with_reducible apply State.modRouting_keeps
    | with_reducible apply Keeps.ite_snd | with_reducible apply Keeps.ite | with_reducible apply Keeps.foldl | split

theorem modEp_keeps {s0 : State} : ∀ x0 x1 s, Keeps s0 s → Keeps s0 (modEp x0 x1 s) := by
  intro x0 x1 s h
  unfold modEp
  try dsimp only
  repeat' first
    | with_reducible exact h | (intro) | with_reducible apply State.modRouting_keeps

theorem noteParity_keeps {s0 : State} : ∀ x0 x1 x2 s, Keeps s0 s → Keeps s0 (noteParity x0 x1 x2 s) := by
  intro x0 x1 x2 s h
  unfold noteParity
  try dsimp only
  repeat' first
    | with_reducible exact h | (intro) | with_reducible apply State.modRouting_keeps | with_reducible apply bump_keeps
    | with_reducible apply report_keeps | with_reducible apply Keeps.ite | with_reducible apply Keeps.foldl | split
    | dsimp only | exact rfl | exact ⟨rfl, rfl⟩ | exact ⟨rfl, rfl, rfl, rfl, rfl, rfl⟩ | assumption

theorem markParity_keeps {s0 : State} : ∀ x0 x1 s, Keeps s0 s → Keeps s0 (markParity x0 x1 s) := by
  intro x0 x1 s h
  unfold markParity
  try dsimp only
  repeat' first
    | with_reducible exact h | (intro) | with_reducible apply State.modRouting_keeps | with_reducible apply Keeps.ite
    | with_reducible apply Keeps.foldl | split | dsimp only | exact rfl | exact ⟨rfl, rfl⟩
    | exact ⟨rfl, rfl, rfl, rfl, rfl, rfl⟩ | assumption

theorem dropUnread_keeps {s0 : State} : ∀ x0 x1 s, Keeps s0 s → Keeps s0 (dropUnread x0 x1 s) := by
  intro x0 x1 s h
  unfold dropUnread
  try dsimp only
  repeat' first
    | with_reducible exact h | (intro) | with_reducible apply State.modRouting_keeps

theorem noteAdmit_keeps {s0 : State} : ∀ x0 x1 s, Keeps s0 s → Keeps s0 (noteAdmit x0 x1 s) := by
  intro x0 x1 s h
  unfold noteAdmit
  try dsimp only
  repeat' first
    | with_reducible exact h | (intro) | with_reducible apply noteParity_keeps | with_reducible apply Keeps.ite
    | with_reducible apply Keeps.foldl | split | dsimp only | exact rfl | exact ⟨rfl, rfl⟩
    | exact ⟨rfl, rfl, rfl, rfl, rfl, rfl⟩ | assumption

theorem unmark_keeps {s0 : State} : ∀ x0 x1 x2 s, Keeps s0 s → Keeps s0 (unmark x0 x1 x2 s) := by
  intro x0 x1 x2 s h
  unfold unmark
  try dsimp only
  repeat' first
    | with_reducible exact h | (intro) | with_reducible apply State.modRouting_keeps

theorem putEp_keeps {s0 : State} : ∀ x0 x1 x2 s, Keeps s0 s → Keeps s0 (putEp x0 x1 x2 s) := by
  intro x0 x1 x2 s h
  unfold putEp
  try dsimp only
  repeat' first
    | with_reducible exact h | (intro) | with_reducible apply modEp_keeps | with_reducible apply unmark_keeps

theorem bumpIn_keeps {s0 : State} : ∀ x0 x1 s, Keeps s0 s → Keeps s0 (bumpIn x0 x1 s) := by
  intro x0 x1 s h
  unfold bumpIn
  try dsimp only
  repeat' first
    | with_reducible exact h | (intro) | with_reducible apply bump_keeps

theorem bumpEg_keeps {s0 : State} : ∀ x0 x1 s, Keeps s0 s → Keeps s0 (bumpEg x0 x1 s) := by
  intro x0 x1 s h
  unfold bumpEg
  try dsimp only
  repeat' first
    | with_reducible exact h | (intro) | with_reducible apply bump_keeps

theorem treeCopies_keeps {s0 : State} : ∀ x0 x1 s, Keeps s0 s → Keeps s0 (treeCopies x0 x1 s).2 := by
  intro x0 x1 s h
  unfold treeCopies
  try dsimp only
  repeat' first
    | with_reducible exact h | (intro) | with_reducible apply bumpBy_keeps | with_reducible apply bumpIn_keeps
    | with_reducible apply noteParity_keeps | with_reducible apply Keeps.ite_snd

theorem lookup_keeps {s0 : State} : ∀ x0 x1 s, Keeps s0 s → Keeps s0 (lookup x0 x1 s).2 := by
  intro x0 x1 s h
  unfold lookup
  try dsimp only
  repeat' first
    | with_reducible exact h | (intro) | with_reducible apply bumpIn_keeps | with_reducible apply chooseMember_keeps
    | with_reducible apply noteParity_keeps | with_reducible apply treeCopies_keeps
    | with_reducible apply Keeps.ite_snd | with_reducible apply Keeps.ite | with_reducible apply Keeps.foldl
    | refine Keeps.snd (by assumption) ?_ | split | dsimp only | exact rfl | exact ⟨rfl, rfl⟩
    | exact ⟨rfl, rfl, rfl, rfl, rfl, rfl⟩ | assumption

theorem insertEp_keeps {s0 : State} : ∀ x0 x1 x2 s, Keeps s0 s → Keeps s0 (insertEp x0 x1 x2 s) := by
  intro x0 x1 x2 s h
  unfold insertEp
  try dsimp only
  repeat' first
    | with_reducible exact h | (intro) | with_reducible apply State.modRouting_keeps
    | with_reducible apply putEp_keeps

theorem learn_keeps {s0 : State} : ∀ x0 x1 s, Keeps s0 s → Keeps s0 (learn x0 x1 s) := by
  intro x0 x1 s h
  unfold learn
  try dsimp only
  repeat' first
    | with_reducible exact h | (intro) | with_reducible apply State.modRouting_keeps
    | with_reducible apply State.tookFree_keeps | with_reducible apply bump_keeps
    | with_reducible apply insertEp_keeps | with_reducible apply putEp_keeps | with_reducible apply report_keeps
    | with_reducible apply Keeps.ite | with_reducible apply Keeps.foldl | split

theorem setLearnQ_keeps {s0 : State} : ∀ x0 x1 s, Keeps s0 s → Keeps s0 (setLearnQ x0 x1 s) := by
  intro x0 x1 s h
  unfold setLearnQ
  try dsimp only
  repeat' first
    | with_reducible exact h | (intro) | with_reducible apply State.modRouting_keeps

theorem teach_keeps {s0 : State} : ∀ x0 x1 s, Keeps s0 s → Keeps s0 (teach x0 x1 s) := by
  intro x0 x1 s h
  unfold teach
  try dsimp only
  repeat' first
    | with_reducible exact h | (intro) | with_reducible apply bump_keeps | with_reducible apply setLearnQ_keeps
    | with_reducible apply Keeps.ite | with_reducible apply Keeps.foldl | split

end Sys2Proof.Machine
end

