-- ==== Sys2Proof/Laws/KeepsFlits.lean ====
section
/-! SUPPORT. What the operations of Machine/Flits.lean keep. -/

namespace Sys2Proof.Machine

theorem putRaw_keeps {s0 : State} : ∀ x0 x1 s, Keeps s0 s → Keeps s0 (putRaw x0 x1 s) := by
  intro x0 x1 s h
  unfold putRaw
  try dsimp only
  repeat' first
    | with_reducible exact h | (intro) | with_reducible apply emit_keeps | with_reducible apply modLaneLink_keeps

theorem putMarker_keeps {s0 : State} : ∀ x0 s, Keeps s0 s → Keeps s0 (putMarker x0 s) := by
  intro x0 s h
  unfold putMarker
  try dsimp only
  repeat' first
    | with_reducible exact h | (intro) | with_reducible apply emit_keeps | with_reducible apply modLaneLink_keeps
    | with_reducible apply putRaw_keeps | with_reducible apply Keeps.ite | with_reducible apply Keeps.foldl | split

theorem markerDue_keeps {s0 : State} : ∀ x0 s, Keeps s0 s → Keeps s0 (markerDue x0 s) := by
  intro x0 s h
  unfold markerDue
  try dsimp only
  repeat' first
    | with_reducible exact h | (intro) | with_reducible apply putMarker_keeps | with_reducible apply Keeps.ite

theorem putIdle_keeps {s0 : State} : ∀ x0 s, Keeps s0 s → Keeps s0 (putIdle x0 s) := by
  intro x0 s h
  unfold putIdle
  try dsimp only
  repeat' first
    | with_reducible exact h | (intro) | with_reducible apply markerDue_keeps | with_reducible apply putRaw_keeps

theorem modLastRetry_keeps {s0 : State} : ∀ x0 x1 s, Keeps s0 s → Keeps s0 (modLastRetry x0 x1 s) := by
  intro x0 x1 s h
  unfold modLastRetry
  try dsimp only
  repeat' first
    | with_reducible exact h | (intro) | with_reducible apply modLaneLink_keeps

theorem openEntry_keeps {s0 : State} : ∀ x0 x1 x2 x3 s, Keeps s0 s → Keeps s0 (openEntry x0 x1 x2 x3 s) := by
  intro x0 x1 x2 x3 s h
  unfold openEntry
  try dsimp only
  repeat' first
    | with_reducible exact h | (intro) | with_reducible apply modLaneLink_keeps

theorem putSeq_keeps {s0 : State} : ∀ x0 x1 x2 x3 s, Keeps s0 s → Keeps s0 (putSeq x0 x1 x2 x3 s) := by
  intro x0 x1 x2 x3 s h
  unfold putSeq
  try dsimp only
  repeat' first
    | with_reducible exact h | (intro) | with_reducible apply markerDue_keeps | with_reducible apply modLaneLink_keeps
    | with_reducible apply modLastRetry_keeps | with_reducible apply putRaw_keeps

theorem putData_keeps {s0 : State} : ∀ x0 x1 x2 x3 s, Keeps s0 s → Keeps s0 (putData x0 x1 x2 x3 s) := by
  intro x0 x1 x2 x3 s h
  unfold putData
  try dsimp only
  repeat' first
    | with_reducible exact h | (intro) | with_reducible apply putSeq_keeps

theorem putDatas_keeps {s0 : State} : ∀ l bytes n i m s, Keeps s0 s → Keeps s0 (putDatas l bytes n i m s) := by
  intro l bytes n i m
  induction m generalizing i with
  | zero => exact fun _ h => h
  | succ m ih => exact fun s h => ih _ _ (putData_keeps _ _ _ _ _ h)

theorem abortTx_keeps {s0 : State} : ∀ x0 s, Keeps s0 s → Keeps s0 (abortTx x0 s) := by
  intro x0 s h
  unfold abortTx
  try dsimp only
  repeat' first
    | with_reducible exact h | (intro) | with_reducible apply emit_keeps | with_reducible apply modLaneLink_keeps
    | with_reducible apply modLastRetry_keeps | with_reducible apply putSeq_keeps | with_reducible apply Keeps.ite
    | with_reducible apply Keeps.foldl | split

theorem flushCtl_keeps {s0 : State} : ∀ x0 s, Keeps s0 s → Keeps s0 (flushCtl x0 s) := by
  intro x0 s h
  unfold flushCtl
  try dsimp only
  repeat' first
    | with_reducible exact h | (intro) | with_reducible apply emit_keeps | with_reducible apply modLaneLink_keeps
    | with_reducible apply openEntry_keeps | with_reducible apply putSeq_keeps | with_reducible apply Keeps.ite
    | with_reducible apply Keeps.foldl | split | dsimp only | exact rfl | exact ⟨rfl, rfl⟩
    | exact ⟨rfl, rfl, rfl, rfl, rfl, rfl⟩ | assumption

theorem queueControl_keeps {s0 : State} : ∀ x0 x1 x2 x3 x4 s, Keeps s0 s → Keeps s0 (queueControl x0 x1 x2 x3 x4 s) := by
  intro x0 x1 x2 x3 x4 s h
  unfold queueControl
  try dsimp only
  repeat' first
    | with_reducible exact h | (intro) | with_reducible apply modLaneLink_keeps | with_reducible apply Keeps.ite

theorem sendControl_keeps {s0 : State} : ∀ x0 x1 x2 x3 x4 s, Keeps s0 s → Keeps s0 (sendControl x0 x1 x2 x3 x4 s) := by
  intro x0 x1 x2 x3 x4 s h
  unfold sendControl
  try dsimp only
  repeat' first
    | with_reducible exact h | (intro) | with_reducible apply flushCtl_keeps | with_reducible apply queueControl_keeps

theorem flushPort_keeps {s0 : State} : ∀ x0 s, Keeps s0 s → Keeps s0 (flushPort x0 s) := by
  intro x0 s h
  unfold flushPort
  try dsimp only
  repeat' first
    | with_reducible exact h | (intro) | with_reducible apply flushCtl_keeps | with_reducible apply Keeps.ite
    | with_reducible apply Keeps.foldl | split | dsimp only | exact rfl | exact ⟨rfl, rfl⟩
    | exact ⟨rfl, rfl, rfl, rfl, rfl, rfl⟩ | assumption

theorem sayCap_keeps {s0 : State} : ∀ x0 x1 s, Keeps s0 s → Keeps s0 (sayCap x0 x1 s) := by
  intro x0 x1 s h
  unfold sayCap
  try dsimp only
  repeat' first
    | with_reducible exact h | (intro) | with_reducible apply emit_keeps

theorem reportFibre_keeps {s0 : State} : ∀ x0 s, Keeps s0 s → Keeps s0 (reportFibre x0 s) := by
  intro x0 s h
  unfold reportFibre
  try dsimp only
  repeat' first
    | with_reducible exact h | (intro) | with_reducible apply emit_keeps | with_reducible apply Keeps.ite
    | with_reducible apply Keeps.foldl | split | dsimp only | exact rfl | exact ⟨rfl, rfl⟩
    | exact ⟨rfl, rfl, rfl, rfl, rfl, rfl⟩ | assumption

end Sys2Proof.Machine
end

