-- ==== Sys2Proof/Laws/KeepsSpill.lean ====
section
/-! SUPPORT. What the operations of Machine/Spill.lean keep. -/

namespace Sys2Proof.Machine

theorem storeDesc_keeps {s0 : State} : ∀ x0 x1 s, Keeps s0 s → Keeps s0 (storeDesc x0 x1 s) := by
  intro x0 x1 s h
  unfold storeDesc
  try dsimp only
  repeat' first
    | with_reducible exact h | (intro) | with_reducible apply daWrite_keeps

theorem storeSpillCell_keeps {s0 : State} : ∀ x0 x1 x2 s, Keeps s0 s → Keeps s0 (storeSpillCell x0 x1 x2 s) := by
  intro x0 x1 x2 s h
  unfold storeSpillCell
  try dsimp only
  repeat' first
    | with_reducible exact h | (intro) | with_reducible apply daWrite_keeps | with_reducible apply storeDesc_keeps

theorem storeSpill_keeps {s0 : State} : ∀ x0 x1 s, Keeps s0 s → Keeps s0 (storeSpill x0 x1 s) := by
  intro x0 x1 s h
  unfold storeSpill
  try dsimp only
  repeat' first
    | with_reducible exact h | (intro) | with_reducible apply storeDesc_keeps | with_reducible apply Keeps.ite
    | with_reducible apply Keeps.foldl | split

end Sys2Proof.Machine
end

