-- ==== Sys2Proof/Laws/KeepsTracing.lean ====
section
/-! SUPPORT. What the operations of Machine/Tracing.lean keep. -/

namespace Sys2Proof.Machine

theorem ringPut_keeps {s0 : State} : ∀ x0 x1 x2 s, Keeps s0 s → Keeps s0 (ringPut x0 x1 x2 s) := by
  intro x0 x1 x2 s h
  unfold ringPut
  try dsimp only
  repeat' first
    | with_reducible exact h | (intro) | with_reducible apply daWrite_keeps | with_reducible apply hostWrite_keeps
    | with_reducible apply Keeps.ite | with_reducible apply Keeps.foldl | split

theorem putTrace_keeps {s0 : State} : ∀ x0 x1 s, Keeps s0 s → Keeps s0 (putTrace x0 x1 s) := by
  intro x0 x1 s h
  unfold putTrace
  try dsimp only
  repeat' first
    | with_reducible exact h | (intro) | with_reducible apply State.modCount_keeps
    | with_reducible apply State.tookFree_keeps | with_reducible apply bump_keeps | with_reducible apply ringPut_keeps
    | with_reducible apply Keeps.ite

theorem traceCell_keeps {s0 : State} : ∀ x0 x1 x2 s, Keeps s0 s → Keeps s0 (traceCell x0 x1 x2 s) := by
  intro x0 x1 x2 s h
  unfold traceCell
  try dsimp only
  repeat' first
    | with_reducible exact h | (intro) | with_reducible apply State.tookFree_keeps
    | with_reducible apply putTrace_keeps

theorem traceInfo_keeps {s0 : State} : ∀ x0 x1 s, Keeps s0 s → Keeps s0 (traceInfo x0 x1 s) := by
  intro x0 x1 s h
  unfold traceInfo
  try dsimp only
  repeat' first
    | with_reducible exact h | (intro) | with_reducible apply traceCell_keeps | with_reducible apply Keeps.ite
    | with_reducible apply Keeps.foldl | split | dsimp only | exact rfl | exact ⟨rfl, rfl⟩
    | exact ⟨rfl, rfl, rfl, rfl, rfl, rfl⟩ | assumption

theorem traceStored_keeps {s0 : State} : ∀ x0 x1 s, Keeps s0 s → Keeps s0 (traceStored x0 x1 s) := by
  intro x0 x1 s h
  unfold traceStored
  try dsimp only
  repeat' first
    | with_reducible exact h | (intro) | with_reducible apply traceInfo_keeps | with_reducible apply Keeps.ite

end Sys2Proof.Machine
end

