-- ==== Sys2Proof/Laws/KeepsForward.lean ====
section
/-! SUPPORT. What the operations of Machine/Forward.lean keep. -/

namespace Sys2Proof.Machine

theorem giveCredit_keeps {s0 : State} : ∀ x0 x1 s, Keeps s0 s → Keeps s0 (giveCredit x0 x1 s) := by
  intro x0 x1 s h
  unfold giveCredit
  try dsimp only
  repeat' first
    | with_reducible exact h | (intro) | with_reducible apply State.modLink_keeps | with_reducible apply Keeps.ite

theorem updateWithheld_keeps {s0 : State} : ∀ x0 s, Keeps s0 s → Keeps s0 (updateWithheld x0 s) := by
  intro x0 s h
  unfold updateWithheld
  try dsimp only
  repeat' first
    | with_reducible exact h | (intro) | with_reducible apply giveCredit_keeps | with_reducible apply modBarn_keeps
    | with_reducible apply Keeps.ite | with_reducible apply Keeps.foldl | split | dsimp only | exact rfl
    | exact ⟨rfl, rfl⟩ | exact ⟨rfl, rfl, rfl, rfl, rfl, rfl⟩ | assumption

theorem returnCredit_keeps {s0 : State} : ∀ x0 x1 x2 s, Keeps s0 s → Keeps s0 (returnCredit x0 x1 x2 s) := by
  intro x0 x1 x2 s h
  unfold returnCredit
  try dsimp only
  repeat' first
    | with_reducible exact h | (intro) | with_reducible apply State.modCore_keeps
    | with_reducible apply giveCredit_keeps | with_reducible apply Keeps.ite | with_reducible apply Keeps.foldl
    | split

theorem chargeCells_keeps {s0 : State} : ∀ x0 x1 x2 s, Keeps s0 s → Keeps s0 (chargeCells x0 x1 x2 s) := by
  intro x0 x1 x2 s h
  unfold chargeCells
  try dsimp only
  repeat' first
    | with_reducible exact h | (intro) | with_reducible apply State.modCore_keeps
    | with_reducible apply State.modLink_keeps | with_reducible apply Keeps.ite | with_reducible apply Keeps.foldl
    | split

theorem passCells_keeps {s0 : State} : ∀ x0 x1 x2 s, Keeps s0 s → Keeps s0 (passCells x0 x1 x2 s) := by
  intro x0 x1 x2 s h
  unfold passCells
  try dsimp only
  repeat' first
    | with_reducible exact h | (intro) | with_reducible apply State.modLink_keeps
    | with_reducible apply giveCredit_keeps

theorem drawTag_keeps {s0 : State} : ∀ x0 x1 x2 x3 s, Keeps s0 s → Keeps s0 (drawTag x0 x1 x2 x3 s).2 := by
  intro x0 x1 x2 x3 s h
  unfold drawTag
  try dsimp only
  repeat' first
    | with_reducible exact h | (intro) | with_reducible apply State.tookFree_keeps | with_reducible apply bump_keeps
    | with_reducible apply Keeps.ite_snd

theorem modInPkt_keeps {s0 : State} : ∀ x0 x1 x2 s, Keeps s0 s → Keeps s0 (modInPkt x0 x1 x2 s) := by
  intro x0 x1 x2 s h
  unfold modInPkt
  try dsimp only
  repeat' first
    | with_reducible exact h | (intro) | with_reducible apply modBarn_keeps

theorem writeCell_keeps {s0 : State} : ∀ x0 x1 x2 s, Keeps s0 s → Keeps s0 (writeCell x0 x1 x2 s) := by
  intro x0 x1 x2 s h
  unfold writeCell
  try dsimp only
  repeat' first
    | with_reducible exact h | (intro) | with_reducible apply State.tookFree_keeps | with_reducible apply bump_keeps
    | with_reducible apply chargeCells_keeps | with_reducible apply drawTag_keeps | with_reducible apply modBarn_keeps
    | with_reducible apply modInPkt_keeps | with_reducible apply storeSpill_keeps
    | with_reducible apply storeSpillCell_keeps | with_reducible apply Keeps.ite | with_reducible apply Keeps.foldl
    | refine Keeps.snd (by assumption) ?_ | split

theorem writeCells_keeps {s0 : State} : ∀ x0 x1 x2 n s, Keeps s0 s → Keeps s0 (writeCells x0 x1 x2 n s) := by
  intro x0 x1 x2 n
  induction n with
  | zero => exact fun _ h => h
  | succ n ih => exact fun s h => ih _ (writeCell_keeps _ _ _ _ h)

theorem enterVoqs_keeps {s0 : State} : ∀ x0 x1 x2 s, Keeps s0 s → Keeps s0 (enterVoqs x0 x1 x2 s) := by
  intro x0 x1 x2 s h
  unfold enterVoqs
  try dsimp only
  repeat' first
    | with_reducible exact h | (intro) | with_reducible apply modBarn_keeps
    | with_reducible apply updateWithheld_keeps

theorem admitPkt_keeps {s0 : State} : ∀ x0 x1 x2 x3 s, Keeps s0 s → Keeps s0 (admitPkt x0 x1 x2 x3 s) := by
  intro x0 x1 x2 x3 s h
  unfold admitPkt
  try dsimp only
  repeat' first
    | with_reducible exact h | (intro) | with_reducible apply bumpIn_keeps | with_reducible apply enterVoqs_keeps
    | with_reducible apply modBarn_keeps | with_reducible apply writeCells_keeps | with_reducible apply Keeps.ite

theorem growPkt_keeps {s0 : State} : ∀ x0 x1 x2 x3 s, Keeps s0 s → Keeps s0 (growPkt x0 x1 x2 x3 s) := by
  intro x0 x1 x2 x3 s h
  unfold growPkt
  try dsimp only
  repeat' first
    | with_reducible exact h | (intro) | with_reducible apply modInPkt_keeps | with_reducible apply writeCells_keeps
    | with_reducible apply Keeps.ite | with_reducible apply Keeps.foldl | split

theorem newPid_keeps {s0 : State} : ∀ s, Keeps s0 s → Keeps s0 (newPid s) := by
  intro s h
  unfold newPid
  try dsimp only
  repeat' first
    | with_reducible exact h | (intro) | with_reducible apply State.modCore_keeps

theorem originateTo_keeps {s0 : State} : ∀ x0 x1 x2 x3 x4 s, Keeps s0 s → Keeps s0 (originateTo x0 x1 x2 x3 x4 s) := by
  intro x0 x1 x2 x3 x4 s h
  unfold originateTo
  try dsimp only
  repeat' first
    | with_reducible exact h | (intro) | with_reducible apply admitPkt_keeps | with_reducible apply newPid_keeps
    | with_reducible apply Keeps.ite | with_reducible apply Keeps.foldl | split

theorem originate_keeps {s0 : State} : ∀ x0 x1 x2 x3 s, Keeps s0 s → Keeps s0 (originate x0 x1 x2 x3 s) := by
  intro x0 x1 x2 x3 s h
  unfold originate
  try dsimp only
  repeat' first
    | with_reducible exact h | (intro) | with_reducible apply lookup_keeps | with_reducible apply originateTo_keeps
    | with_reducible apply Keeps.ite | with_reducible apply Keeps.foldl | refine Keeps.snd (by assumption) ?_ | split

theorem releaseCell_keeps {s0 : State} : ∀ x0 x1 x2 s, Keeps s0 s → Keeps s0 (releaseCell x0 x1 x2 s) := by
  intro x0 x1 x2 s h
  unfold releaseCell
  try dsimp only
  repeat' first
    | with_reducible exact h | (intro) | with_reducible apply modBarn_keeps | with_reducible apply returnCredit_keeps
    | with_reducible apply Keeps.ite | with_reducible apply Keeps.foldl | split

theorem settleIn_keeps {s0 : State} : ∀ x0 x1 s, Keeps s0 s → Keeps s0 (settleIn x0 x1 s) := by
  intro x0 x1 s h
  unfold settleIn
  try dsimp only
  repeat' first
    | with_reducible exact h | (intro) | with_reducible apply modBarn_keeps
    | with_reducible apply updateWithheld_keeps | with_reducible apply Keeps.ite | with_reducible apply Keeps.foldl
    | split

theorem ackCells_keeps {s0 : State} : ∀ x0 x1 x2 x3 x4 s, Keeps s0 s → Keeps s0 (ackCells x0 x1 x2 x3 x4 s) := by
  intro x0 x1 x2 x3 x4 s h
  unfold ackCells
  try dsimp only
  repeat' first
    | with_reducible exact h | (intro) | with_reducible apply modBarn_keeps | with_reducible apply releaseCell_keeps
    | with_reducible apply settleIn_keeps | with_reducible apply Keeps.ite | with_reducible apply Keeps.foldl | split
    | dsimp only | exact rfl | exact ⟨rfl, rfl⟩ | exact ⟨rfl, rfl, rfl, rfl, rfl, rfl⟩ | assumption

theorem updateHolds_keeps {s0 : State} : ∀ x0 s, Keeps s0 s → Keeps s0 (updateHolds x0 s) := by
  intro x0 s h
  unfold updateHolds
  try dsimp only
  repeat' first
    | with_reducible exact h | (intro) | with_reducible apply bumpEg_keeps | with_reducible apply modBarn_keeps
    | with_reducible apply Keeps.ite | with_reducible apply Keeps.foldl | split | dsimp only | exact rfl
    | exact ⟨rfl, rfl⟩ | exact ⟨rfl, rfl, rfl, rfl, rfl, rfl⟩ | assumption

theorem modStored_keeps {s0 : State} : ∀ x0 x1 x2 s, Keeps s0 s → Keeps s0 (modStored x0 x1 x2 s) := by
  intro x0 x1 x2 s h
  unfold modStored
  try dsimp only
  repeat' first
    | with_reducible exact h | (intro) | with_reducible apply modBarn_keeps

theorem freeStored_keeps {s0 : State} : ∀ x0 x1 s, Keeps s0 s → Keeps s0 (freeStored x0 x1 s) := by
  intro x0 x1 s h
  unfold freeStored
  try dsimp only
  repeat' first
    | with_reducible exact h | (intro) | with_reducible apply modBarn_keeps | with_reducible apply updateHolds_keeps
    | with_reducible apply Keeps.ite | with_reducible apply Keeps.foldl | split

theorem killStored_keeps {s0 : State} : ∀ x0 x1 s, Keeps s0 s → Keeps s0 (killStored x0 x1 s) := by
  intro x0 x1 s h
  unfold killStored
  try dsimp only
  repeat' first
    | with_reducible exact h | (intro) | with_reducible apply freeStored_keeps | with_reducible apply modBarn_keeps
    | with_reducible apply modStored_keeps | with_reducible apply updateHolds_keeps | with_reducible apply Keeps.ite
    | with_reducible apply Keeps.foldl | split

theorem dropRef_keeps {s0 : State} : ∀ x0 x1 x2 s, Keeps s0 s → Keeps s0 (dropRef x0 x1 x2 s) := by
  intro x0 x1 x2 s h
  unfold dropRef
  try dsimp only
  repeat' first
    | with_reducible exact h | (intro) | with_reducible apply killStored_keeps | with_reducible apply modBarn_keeps
    | with_reducible apply modStored_keeps | with_reducible apply Keeps.ite | with_reducible apply Keeps.foldl | split

theorem openStored_keeps {s0 : State} : ∀ x0 x1 x2 x3 s, Keeps s0 s → Keeps s0 (openStored x0 x1 x2 x3 s) := by
  intro x0 x1 x2 x3 s h
  unfold openStored
  try dsimp only
  repeat' first
    | with_reducible exact h | (intro) | with_reducible apply modBarn_keeps

theorem noteCounted_keeps {s0 : State} : ∀ x0 s, Keeps s0 s → Keeps s0 (noteCounted x0 s) := by
  intro x0 s h
  unfold noteCounted
  try dsimp only
  repeat' first
    | with_reducible exact h | (intro) | with_reducible apply State.modLink_keeps

theorem noteDropped_keeps {s0 : State} : ∀ x0 s, Keeps s0 s → Keeps s0 (noteDropped x0 s) := by
  intro x0 s h
  unfold noteDropped
  try dsimp only
  repeat' first
    | with_reducible exact h | (intro) | with_reducible apply noteCounted_keeps | with_reducible apply Keeps.ite

theorem linkStored_keeps {s0 : State} : ∀ x0 x1 s, Keeps s0 s → Keeps s0 (linkStored x0 x1 s) := by
  intro x0 x1 s h
  unfold linkStored
  try dsimp only
  repeat' first
    | with_reducible exact h | (intro) | with_reducible apply bumpEg_keeps | with_reducible apply killStored_keeps
    | with_reducible apply modBarn_keeps | with_reducible apply modStored_keeps | with_reducible apply noteAdmit_keeps
    | with_reducible apply noteDropped_keeps | with_reducible apply traceStored_keeps | with_reducible apply Keeps.ite
    | with_reducible apply Keeps.foldl | split | dsimp only | exact rfl | exact ⟨rfl, rfl⟩
    | exact ⟨rfl, rfl, rfl, rfl, rfl, rfl⟩ | assumption

theorem storeCell_keeps {s0 : State} : ∀ x0 x1 x2 s, Keeps s0 s → Keeps s0 (storeCell x0 x1 x2 s) := by
  intro x0 x1 x2 s h
  unfold storeCell
  try dsimp only
  repeat' first
    | with_reducible exact h | (intro) | with_reducible apply State.tookFree_keeps
    | with_reducible apply freeStored_keeps | with_reducible apply modBarn_keeps
    | with_reducible apply modStored_keeps | with_reducible apply Keeps.ite | with_reducible apply Keeps.foldl | split

theorem unassign_keeps {s0 : State} : ∀ x0 s, Keeps s0 s → Keeps s0 (unassign x0 s) := by
  intro x0 s h
  unfold unassign
  try dsimp only
  repeat' first
    | with_reducible exact h | (intro) | with_reducible apply State.modLink_keeps

theorem purgeBarn_keeps {s0 : State} : ∀ x0 x1 s, Keeps s0 s → Keeps s0 (purgeBarn x0 x1 s) := by
  intro x0 x1 s h
  unfold purgeBarn
  try dsimp only
  repeat' first
    | with_reducible exact h | (intro) | with_reducible apply freeStored_keeps | with_reducible apply modBarn_keeps
    | with_reducible apply returnCredit_keeps | with_reducible apply updateWithheld_keeps
    | with_reducible apply Keeps.ite | with_reducible apply Keeps.foldl | split

theorem traceDiscard_keeps {s0 : State} : ∀ x0 s, Keeps s0 s → Keeps s0 (traceDiscard x0 s) := by
  intro x0 s h
  unfold traceDiscard
  try dsimp only
  repeat' first
    | with_reducible exact h | (intro) | with_reducible apply traceInfo_keeps | with_reducible apply traceStored_keeps
    | with_reducible apply Keeps.ite | with_reducible apply Keeps.foldl | split | dsimp only | exact rfl
    | exact ⟨rfl, rfl⟩ | exact ⟨rfl, rfl, rfl, rfl, rfl, rfl⟩ | assumption

theorem discardPkt_keeps {s0 : State} : ∀ x0 s, Keeps s0 s → Keeps s0 (discardPkt x0 s) := by
  intro x0 s h
  unfold discardPkt
  try dsimp only
  repeat' first
    | with_reducible exact h | (intro) | with_reducible apply abortTx_keeps | with_reducible apply purgeBarn_keeps
    | with_reducible apply traceDiscard_keeps | with_reducible apply unassign_keeps | with_reducible apply Keeps.ite
    | with_reducible apply Keeps.foldl | split | dsimp only | exact rfl | exact ⟨rfl, rfl⟩
    | exact ⟨rfl, rfl, rfl, rfl, rfl, rfl⟩ | assumption

end Sys2Proof.Machine
end

