-- ==== Sys2Proof/Laws/KeepsCounters.lean ====
section
/-! SUPPORT. What the operations of Machine/Counters.lean keep. -/

namespace Sys2Proof.Machine

theorem putDump_keeps {s0 : State} : ∀ x0 s, Keeps s0 s → Keeps s0 (putDump x0 s) := by
  intro x0 s h
  unfold putDump
  try dsimp only
  repeat' first
    | with_reducible exact h | (intro) | with_reducible apply ringPut_keeps

theorem modTally_keeps {s0 : State} : ∀ x0 s, Keeps s0 s → Keeps s0 (modTally x0 s) := by
  intro x0 s h
  unfold modTally
  try dsimp only
  repeat' first
    | with_reducible exact h | (intro) | with_reducible apply State.modCount_keeps

theorem retag_keeps {s0 : State} : ∀ x0 s, Keeps s0 s → Keeps s0 (retag x0 s) := by
  intro x0 s h
  unfold retag
  try dsimp only
  repeat' first
    | with_reducible exact h | (intro) | with_reducible apply State.modTime_keeps

theorem mergeInto_keeps {s0 : State} : ∀ x0 x1 x2 x3 s, Keeps s0 s → Keeps s0 (mergeInto x0 x1 x2 x3 s) := by
  intro x0 x1 x2 x3 s h
  unfold mergeInto
  try dsimp only
  repeat' first
    | with_reducible exact h | (intro) | with_reducible apply modTally_keeps | with_reducible apply putDump_keeps
    | with_reducible apply retag_keeps | with_reducible apply Keeps.ite

theorem latchLost_keeps {s0 : State} : ∀ x0 s, Keeps s0 s → Keeps s0 (latchLost x0 s) := by
  intro x0 s h
  unfold latchLost
  try dsimp only
  repeat' first
    | with_reducible exact h | (intro) | with_reducible apply bump_keeps | with_reducible apply modTally_keeps

theorem latchNew_keeps {s0 : State} : ∀ x0 x1 x2 x3 x4 s, Keeps s0 s → Keeps s0 (latchNew x0 x1 x2 x3 x4 s) := by
  intro x0 x1 x2 x3 x4 s h
  unfold latchNew
  try dsimp only
  repeat' first
    | with_reducible exact h | (intro) | with_reducible apply State.tookFree_keeps | with_reducible apply bump_keeps
    | with_reducible apply captureAt_keeps | with_reducible apply modTally_keeps | with_reducible apply putDump_keeps
    | with_reducible apply Keeps.ite

theorem latchAt_keeps {s0 : State} : ∀ x0 x1 x2 x3 s, Keeps s0 s → Keeps s0 (latchAt x0 x1 x2 x3 s) := by
  intro x0 x1 x2 x3 s h
  unfold latchAt
  try dsimp only
  repeat' first
    | with_reducible exact h | (intro) | with_reducible apply State.tookMany_keeps
    | with_reducible apply latchLost_keeps | with_reducible apply latchNew_keeps
    | with_reducible apply mergeInto_keeps | with_reducible apply Keeps.ite | with_reducible apply Keeps.foldl | split

theorem latch_keeps {s0 : State} : ∀ x0 x1 x2 s, Keeps s0 s → Keeps s0 (latch x0 x1 x2 s) := by
  intro x0 x1 x2 s h
  unfold latch
  try dsimp only
  repeat' first
    | with_reducible exact h | (intro) | with_reducible apply latchAt_keeps

theorem tallyFlag_keeps {s0 : State} : ∀ x0 s, Keeps s0 s → Keeps s0 (tallyFlag x0 s) := by
  intro x0 s h
  unfold tallyFlag
  try dsimp only
  repeat' first
    | with_reducible exact h | (intro) | with_reducible apply State.modCount_keeps

theorem stopRings_keeps {s0 : State} : ∀ x0 s, Keeps s0 s → Keeps s0 (stopRings x0 s) := by
  intro x0 s h
  unfold stopRings
  try dsimp only
  repeat' first
    | with_reducible exact h | (intro) | with_reducible apply State.modCount_keeps | with_reducible apply Keeps.ite

theorem clearCounters_keeps {s0 : State} : ∀ x0 s, Keeps s0 s → Keeps s0 (clearCounters x0 s) := by
  intro x0 s h
  unfold clearCounters
  try dsimp only
  repeat' first
    | with_reducible exact h | (intro) | with_reducible apply State.modCount_keeps

theorem tallyConfig_keeps {s0 : State} : ∀ x0 s, Keeps s0 s → Keeps s0 (tallyConfig x0 s).1 := by
  intro x0 s h
  unfold tallyConfig
  try dsimp only
  repeat' first
    | with_reducible exact h | (intro) | with_reducible apply State.modCount_keeps | with_reducible apply cmdOk_keeps
    | with_reducible apply cmdRefuse_keeps | with_reducible apply Keeps.ite_fst | with_reducible apply Keeps.ite
    | with_reducible apply Keeps.foldl | refine Keeps.fst (by assumption) ?_ | split

theorem tallyLatch_keeps {s0 : State} : ∀ x0 s, Keeps s0 s → Keeps s0 (tallyLatch x0 s).1 := by
  intro x0 s h
  unfold tallyLatch
  try dsimp only
  repeat' first
    | with_reducible exact h | (intro) | with_reducible apply State.tookMany_keeps
    | with_reducible apply cmdOkWith_keeps | with_reducible apply latch_keeps | with_reducible apply Keeps.ite_fst
    | with_reducible apply Keeps.ite | with_reducible apply Keeps.foldl | refine Keeps.fst (by assumption) ?_ | split

theorem counterRead_keeps {s0 : State} : ∀ x0 s, Keeps s0 s → Keeps s0 (counterRead x0 s).1 := by
  intro x0 s h
  unfold counterRead
  try dsimp only
  repeat' first
    | with_reducible exact h | (intro) | with_reducible apply cmdOk_keeps | with_reducible apply cmdRefuse_keeps
    | with_reducible apply hostWrite_keeps | with_reducible apply Keeps.ite_fst | with_reducible apply Keeps.ite
    | with_reducible apply Keeps.foldl | refine Keeps.fst (by assumption) ?_ | split

theorem traceConfig_keeps {s0 : State} : ∀ x0 s, Keeps s0 s → Keeps s0 (traceConfig x0 s).1 := by
  intro x0 s h
  unfold traceConfig
  try dsimp only
  repeat' first
    | with_reducible exact h | (intro) | with_reducible apply State.modCount_keeps | with_reducible apply cmdOk_keeps
    | with_reducible apply cmdRefuse_keeps | with_reducible apply Keeps.ite_fst | with_reducible apply Keeps.ite
    | with_reducible apply Keeps.foldl | refine Keeps.fst (by assumption) ?_ | split

theorem execTallyConfig_keeps : ∀ x0 x1 s, KeepsOut s (execTallyConfig x0 x1 s) := by
  intro x0 x1 s
  unfold execTallyConfig
  refine runMailbox_keeps fun c t h => ?_
  try dsimp only
  repeat' first
    | with_reducible exact h | (intro) | with_reducible apply Keeps.ite_fst | with_reducible apply tallyConfig_keeps
    | with_reducible apply Keeps.ite

theorem execTallyLatch_keeps : ∀ x0 x1 s, KeepsOut s (execTallyLatch x0 x1 s) := by
  intro x0 x1 s
  unfold execTallyLatch
  refine runMailbox_keeps fun c t h => ?_
  try dsimp only
  repeat' first
    | with_reducible exact h | (intro) | with_reducible apply Keeps.ite_fst | with_reducible apply tallyLatch_keeps
    | with_reducible apply Keeps.ite

theorem execCounterRead_keeps : ∀ x0 x1 s, KeepsOut s (execCounterRead x0 x1 s) := by
  intro x0 x1 s
  unfold execCounterRead
  refine runMailbox_keeps fun c t h => ?_
  try dsimp only
  repeat' first
    | with_reducible exact h | (intro) | with_reducible apply Keeps.ite_fst | with_reducible apply counterRead_keeps
    | with_reducible apply Keeps.ite

theorem execTraceConfig_keeps : ∀ x0 x1 s, KeepsOut s (execTraceConfig x0 x1 s) := by
  intro x0 x1 s
  unfold execTraceConfig
  refine runMailbox_keeps fun c t h => ?_
  try dsimp only
  repeat' first
    | with_reducible exact h | (intro) | with_reducible apply Keeps.ite_fst | with_reducible apply traceConfig_keeps
    | with_reducible apply Keeps.ite

theorem periodicLatch_keeps {s0 : State} : ∀ s, Keeps s0 s → Keeps s0 (periodicLatch s) := by
  intro s h
  unfold periodicLatch
  try dsimp only
  repeat' first
    | with_reducible exact h | (intro) | with_reducible apply State.modCount_keeps
    | with_reducible apply latchAt_keeps | with_reducible apply Keeps.ite | with_reducible apply Keeps.foldl | split

theorem execTallyPeriodicLatch_keeps : ∀ s, KeepsOut s (execTallyPeriodicLatch s) := by
  intro s
  unfold execTallyPeriodicLatch
  have h := Keeps.refl s
  try dsimp only
  repeat' first
    | with_reducible apply KeepsOut.next | with_reducible apply KeepsOut.ite | with_reducible exact KeepsOut.refused
    | with_reducible exact h | (intro) | with_reducible apply periodicLatch_keeps | with_reducible apply Keeps.ite

end Sys2Proof.Machine
end

