-- ==== Sys2Proof/Laws/KeepsSwitchCore.lean ====
section
/-! SUPPORT. What the operations of Machine/SwitchCore.lean keep. -/

namespace Sys2Proof.Machine

theorem modPlane_keeps {s0 : State} : ∀ x0 x1 s, Keeps s0 s → Keeps s0 (modPlane x0 x1 s) := by
  intro x0 x1 s h
  unfold modPlane
  try dsimp only
  repeat' first
    | with_reducible exact h | (intro) | with_reducible apply State.modCore_keeps

theorem leaveCross_keeps {s0 : State} : ∀ x0 x1 s, Keeps s0 s → Keeps s0 (leaveCross x0 x1 s) := by
  intro x0 x1 s h
  unfold leaveCross
  try dsimp only
  repeat' first
    | with_reducible exact h | (intro) | with_reducible apply State.modCore_keeps | with_reducible apply Keeps.ite
    | with_reducible apply Keeps.foldl | split | dsimp only | exact rfl | exact ⟨rfl, rfl⟩
    | exact ⟨rfl, rfl, rfl, rfl, rfl, rfl⟩ | assumption

theorem cellFail_keeps {s0 : State} : ∀ x0 x1 x2 s, Keeps s0 s → Keeps s0 (cellFail x0 x1 x2 s) := by
  intro x0 x1 x2 s h
  unfold cellFail
  try dsimp only
  repeat' first
    | with_reducible exact h | (intro) | with_reducible apply bumpIn_keeps | with_reducible apply discardPkt_keeps
    | with_reducible apply report_keeps

theorem readChecked_keeps {s0 : State} : ∀ x0 x1 s, Keeps s0 s → Keeps s0 (readChecked x0 x1 s).2 := by
  intro x0 x1 s h
  unfold readChecked
  try dsimp only
  repeat' first
    | with_reducible exact h | (intro) | with_reducible apply cellFail_keeps | with_reducible apply Keeps.ite_snd
    | with_reducible apply Keeps.ite | with_reducible apply Keeps.foldl | split | dsimp only | exact rfl
    | exact ⟨rfl, rfl⟩ | exact ⟨rfl, rfl, rfl, rfl, rfl, rfl⟩ | assumption

theorem transfer_keeps {s0 : State} : ∀ x0 s, Keeps s0 s → Keeps s0 (transfer x0 s) := by
  intro x0 s h
  unfold transfer
  try dsimp only
  repeat' first
    | with_reducible exact h | (intro) | with_reducible apply bump_keeps | with_reducible apply bumpBy_keeps
    | with_reducible apply modBarn_keeps | with_reducible apply readChecked_keeps | with_reducible apply Keeps.ite

theorem updateWait_keeps {s0 : State} : ∀ x0 s, Keeps s0 s → Keeps s0 (updateWait x0 s) := by
  intro x0 s h
  unfold updateWait
  try dsimp only
  repeat' first
    | with_reducible exact h | (intro) | with_reducible apply modBarn_keeps | with_reducible apply Keeps.ite
    | with_reducible apply Keeps.foldl | split | dsimp only | exact rfl | exact ⟨rfl, rfl⟩
    | exact ⟨rfl, rfl, rfl, rfl, rfl, rfl⟩ | assumption

theorem floorSlot_keeps {s0 : State} : ∀ s, Keeps s0 s → Keeps s0 (floorSlot s) := by
  intro s h
  unfold floorSlot
  try dsimp only
  repeat' first
    | with_reducible exact h | (intro) | with_reducible apply leaveCross_keeps | with_reducible apply modPlane_keeps
    | with_reducible apply transfer_keeps | with_reducible apply updateWait_keeps | with_reducible apply Keeps.ite
    | with_reducible apply Keeps.foldl | split | dsimp only | exact rfl | exact ⟨rfl, rfl⟩
    | exact ⟨rfl, rfl, rfl, rfl, rfl, rfl⟩ | assumption

theorem execFloorSlot_keeps : ∀ s, KeepsOut s (execFloorSlot s) := by
  intro s
  unfold execFloorSlot
  have h := Keeps.refl s
  try dsimp only
  repeat' first
    | with_reducible apply KeepsOut.next | with_reducible apply KeepsOut.ite | with_reducible exact KeepsOut.refused
    | with_reducible exact h | (intro) | with_reducible apply floorSlot_keeps | with_reducible apply Keeps.ite

theorem requeue_keeps {s0 : State} : ∀ x0 s, Keeps s0 s → Keeps s0 (requeue x0 s) := by
  intro x0 s h
  unfold requeue
  try dsimp only
  repeat' first
    | with_reducible exact h | (intro) | with_reducible apply modBarn_keeps

theorem fencePlane_keeps {s0 : State} : ∀ x0 s, Keeps s0 s → Keeps s0 (fencePlane x0 s) := by
  intro x0 s h
  unfold fencePlane
  try dsimp only
  repeat' first
    | with_reducible exact h | (intro) | with_reducible apply bump_keeps | with_reducible apply modPlane_keeps
    | with_reducible apply report_keeps | with_reducible apply requeue_keeps | with_reducible apply Keeps.ite
    | with_reducible apply Keeps.foldl | split | dsimp only | exact rfl | exact ⟨rfl, rfl⟩
    | exact ⟨rfl, rfl, rfl, rfl, rfl, rfl⟩ | assumption

theorem bundleFail_keeps {s0 : State} : ∀ x0 s, Keeps s0 s → Keeps s0 (bundleFail x0 s) := by
  intro x0 s h
  unfold bundleFail
  try dsimp only
  repeat' first
    | with_reducible exact h | (intro) | with_reducible apply bump_keeps | with_reducible apply fencePlane_keeps
    | with_reducible apply modPlane_keeps | with_reducible apply requeue_keeps | with_reducible apply Keeps.ite

theorem completeTx_keeps {s0 : State} : ∀ x0 x1 x2 s, Keeps s0 s → Keeps s0 (completeTx x0 x1 x2 s) := by
  intro x0 x1 x2 s h
  unfold completeTx
  try dsimp only
  repeat' first
    | with_reducible exact h | (intro) | with_reducible apply bumpBy_keeps | with_reducible apply bumpEg_keeps
    | with_reducible apply dropRef_keeps | with_reducible apply emit_keeps | with_reducible apply modLaneLink_keeps
    | with_reducible apply modLastRetry_keeps | with_reducible apply traceStored_keeps

theorem feedTx_keeps {s0 : State} : ∀ x0 s, Keeps s0 s → Keeps s0 (feedTx x0 s) := by
  intro x0 s h
  unfold feedTx
  try dsimp only
  repeat' first
    | with_reducible exact h | (intro) | with_reducible apply abortTx_keeps | with_reducible apply cellFail_keeps
    | with_reducible apply completeTx_keeps | with_reducible apply modLaneLink_keeps
    | with_reducible apply putDatas_keeps | with_reducible apply Keeps.ite | with_reducible apply Keeps.foldl | split

theorem finishArrivals_keeps {s0 : State} : ∀ x0 x1 s, Keeps s0 s → Keeps s0 (finishArrivals x0 x1 s) := by
  intro x0 x1 s h
  unfold finishArrivals
  try dsimp only
  repeat' first
    | with_reducible exact h | (intro) | with_reducible apply feedTx_keeps | with_reducible apply freeStored_keeps
    | with_reducible apply Keeps.ite | with_reducible apply Keeps.foldl | split | dsimp only | exact rfl
    | exact ⟨rfl, rfl⟩ | exact ⟨rfl, rfl, rfl, rfl, rfl, rfl⟩ | assumption

theorem moveTags_keeps {s0 : State} : ∀ x0 x1 x2 s, Keeps s0 s → Keeps s0 (moveTags x0 x1 x2 s) := by
  intro x0 x1 x2 s h
  unfold moveTags
  try dsimp only
  repeat' first
    | with_reducible exact h | (intro) | with_reducible apply modInPkt_keeps | with_reducible apply modStored_keeps
    | with_reducible apply traceInfo_keeps | with_reducible apply Keeps.ite | with_reducible apply Keeps.foldl | split

theorem bundleOk_keeps {s0 : State} : ∀ x0 s, Keeps s0 s → Keeps s0 (bundleOk x0 s) := by
  intro x0 s h
  unfold bundleOk
  try dsimp only
  repeat' first
    | with_reducible exact h | (intro) | with_reducible apply ackCells_keeps
    | with_reducible apply finishArrivals_keeps | with_reducible apply linkStored_keeps
    | with_reducible apply modBarn_keeps | with_reducible apply modStored_keeps | with_reducible apply moveTags_keeps
    | with_reducible apply openStored_keeps | with_reducible apply storeCell_keeps
    | with_reducible apply updateHolds_keeps | with_reducible apply Keeps.ite | with_reducible apply Keeps.foldl
    | split | dsimp only | exact rfl | exact ⟨rfl, rfl⟩ | exact ⟨rfl, rfl, rfl, rfl, rfl, rfl⟩ | assumption

theorem bundleArrival_keeps {s0 : State} : ∀ x0 x1 x2 x3 s, Keeps s0 s → Keeps s0 (bundleArrival x0 x1 x2 x3 s) := by
  intro x0 x1 x2 x3 s h
  unfold bundleArrival
  try dsimp only
  repeat' first
    | with_reducible exact h | (intro) | with_reducible apply bundleFail_keeps | with_reducible apply bundleOk_keeps
    | with_reducible apply Keeps.ite | with_reducible apply Keeps.foldl | split

theorem bundleTimeout_keeps {s0 : State} : ∀ x0 x1 x2 s, Keeps s0 s → Keeps s0 (bundleTimeout x0 x1 x2 s) := by
  intro x0 x1 x2 s h
  unfold bundleTimeout
  try dsimp only
  repeat' first
    | with_reducible exact h | (intro) | with_reducible apply bundleFail_keeps | with_reducible apply Keeps.ite
    | with_reducible apply Keeps.foldl | split

theorem dropQueued_keeps {s0 : State} : ∀ x0 s, Keeps s0 s → Keeps s0 (dropQueued x0 s) := by
  intro x0 s h
  unfold dropQueued
  try dsimp only
  repeat' first
    | with_reducible exact h | (intro) | with_reducible apply bumpEg_keeps | with_reducible apply dropRef_keeps
    | with_reducible apply traceStored_keeps | with_reducible apply Keeps.ite | with_reducible apply Keeps.foldl
    | split | dsimp only | exact rfl | exact ⟨rfl, rfl⟩ | exact ⟨rfl, rfl, rfl, rfl, rfl, rfl⟩ | assumption

theorem refillCell_keeps {s0 : State} : ∀ x0 x1 x2 s, Keeps s0 s → Keeps s0 (refillCell x0 x1 x2 s) := by
  intro x0 x1 x2 s h
  unfold refillCell
  try dsimp only
  repeat' first
    | with_reducible exact h | (intro) | with_reducible apply State.tookFree_keeps | with_reducible apply bump_keeps
    | with_reducible apply modBarn_keeps | with_reducible apply modInPkt_keeps | with_reducible apply Keeps.ite
    | with_reducible apply Keeps.foldl | split

theorem spillRefill_keeps {s0 : State} : ∀ x0 s, Keeps s0 s → Keeps s0 (spillRefill x0 s) := by
  intro x0 s h
  unfold spillRefill
  try dsimp only
  repeat' first
    | with_reducible exact h | (intro) | with_reducible apply cellFail_keeps | with_reducible apply modInPkt_keeps
    | with_reducible apply refillCell_keeps | with_reducible apply Keeps.ite | with_reducible apply Keeps.foldl
    | split | dsimp only | exact rfl | exact ⟨rfl, rfl⟩ | exact ⟨rfl, rfl, rfl, rfl, rfl, rfl⟩ | assumption

theorem execSpillRefill_keeps : ∀ x0 s, KeepsOut s (execSpillRefill x0 s) := by
  intro x0 s
  unfold execSpillRefill
  have h := Keeps.refl s
  try dsimp only
  repeat' first
    | with_reducible apply KeepsOut.next | with_reducible apply KeepsOut.ite | with_reducible exact KeepsOut.refused
    | with_reducible exact h | (intro) | with_reducible apply spillRefill_keeps | with_reducible apply Keeps.ite

theorem gleanEvent_keeps {s0 : State} : ∀ x0 x1 x2 s, Keeps s0 s → Keeps s0 (gleanEvent x0 x1 x2 s) := by
  intro x0 x1 x2 s h
  unfold gleanEvent
  try dsimp only
  repeat' first
    | with_reducible exact h | (intro) | with_reducible apply bumpEg_keeps | with_reducible apply report_keeps

theorem reclaim_keeps {s0 : State} : ∀ x0 s, Keeps s0 s → Keeps s0 (reclaim x0 s) := by
  intro x0 s h
  unfold reclaim
  try dsimp only
  repeat' first
    | with_reducible exact h | (intro) | with_reducible apply returnCredit_keeps

theorem auditHandle_keeps {s0 : State} : ∀ x0 x1 s, Keeps s0 s → Keeps s0 (auditHandle x0 x1 s) := by
  intro x0 x1 s h
  unfold auditHandle
  try dsimp only
  repeat' first
    | with_reducible exact h | (intro) | with_reducible apply gleanEvent_keeps | with_reducible apply modBarn_keeps
    | with_reducible apply reclaim_keeps | with_reducible apply updateHolds_keeps | with_reducible apply Keeps.ite

theorem auditSpill_keeps {s0 : State} : ∀ x0 x1 s, Keeps s0 s → Keeps s0 (auditSpill x0 x1 s) := by
  intro x0 x1 s h
  unfold auditSpill
  try dsimp only
  repeat' first
    | with_reducible exact h | (intro) | with_reducible apply gleanEvent_keeps | with_reducible apply modBarn_keeps
    | with_reducible apply reclaim_keeps | with_reducible apply Keeps.ite

theorem gleanerAudit_keeps {s0 : State} : ∀ x0 s, Keeps s0 s → Keeps s0 (gleanerAudit x0 s) := by
  intro x0 s h
  unfold gleanerAudit
  try dsimp only
  repeat' first
    | with_reducible exact h | (intro) | with_reducible apply auditHandle_keeps
    | with_reducible apply auditSpill_keeps | with_reducible apply Keeps.ite | with_reducible apply Keeps.foldl
    | split | dsimp only | exact rfl | exact ⟨rfl, rfl⟩ | exact ⟨rfl, rfl, rfl, rfl, rfl, rfl⟩ | assumption

theorem execGleanerAudit_keeps : ∀ x0 s, KeepsOut s (execGleanerAudit x0 s) := by
  intro x0 s
  unfold execGleanerAudit
  have h := Keeps.refl s
  try dsimp only
  repeat' first
    | with_reducible apply KeepsOut.next | with_reducible apply KeepsOut.ite | with_reducible exact KeepsOut.refused
    | with_reducible exact h | (intro) | with_reducible apply gleanerAudit_keeps | with_reducible apply Keeps.ite

end Sys2Proof.Machine
end

