-- ==== Sys2Proof/Laws/KeepsCtxBase.lean ====
section
/-! SUPPORT. What the operations of Machine/CtxBase.lean keep. -/

namespace Sys2Proof.Machine

theorem modCtx_keeps {s0 : State} : ∀ x0 x1 s, Keeps s0 s → Keeps s0 (modCtx x0 x1 s) := by
  intro x0 x1 s h
  unfold modCtx
  try dsimp only
  repeat' first
    | with_reducible exact h | (intro) | with_reducible apply State.modColl_keeps

theorem areaWrite_keeps {s0 : State} : ∀ x0 x1 x2 s, Keeps s0 s → Keeps s0 (areaWrite x0 x1 x2 s) := by
  intro x0 x1 x2 s h
  unfold areaWrite
  try dsimp only
  repeat' first
    | with_reducible exact h | (intro) | with_reducible apply daWrite_keeps | with_reducible apply Keeps.ite
    | with_reducible apply Keeps.foldl | split | dsimp only | exact rfl | exact ⟨rfl, rfl⟩
    | exact ⟨rfl, rfl, rfl, rfl, rfl, rfl⟩ | assumption

theorem storeRet_keeps {s0 : State} : ∀ x0 x1 s, Keeps s0 s → Keeps s0 (storeRet x0 x1 s) := by
  intro x0 x1 s h
  unfold storeRet
  try dsimp only
  repeat' first
    | with_reducible exact h | (intro) | with_reducible apply areaWrite_keeps | with_reducible apply Keeps.ite
    | with_reducible apply Keeps.foldl | split

theorem modK_keeps {s0 : State} : ∀ x0 x1 s, Keeps s0 s → Keeps s0 (modK x0 x1 s) := by
  intro x0 x1 s h
  unfold modK
  try dsimp only
  repeat' first
    | with_reducible exact h | (intro) | with_reducible apply State.modKindle_keeps

end Sys2Proof.Machine
end

