-- ==== Sys2Proof/Laws/KeepsCollectives.lean ====
section
/-! SUPPORT. What the operations of Machine/Collectives.lean keep. -/

namespace Sys2Proof.Machine

theorem modUnit_keeps {s0 : State} : ∀ x0 x1 s, Keeps s0 s → Keeps s0 (modUnit x0 x1 s) := by
  intro x0 x1 s h
  unfold modUnit
  try dsimp only
  repeat' first
    | with_reducible exact h | (intro) | with_reducible apply State.modThresh_keeps

theorem bumpUnit_keeps {s0 : State} : ∀ x0 x1 s, Keeps s0 s → Keeps s0 (bumpUnit x0 x1 s) := by
  intro x0 x1 s h
  unfold bumpUnit
  try dsimp only
  repeat' first
    | with_reducible exact h | (intro) | with_reducible apply bump_keeps

theorem modOpen_keeps {s0 : State} : ∀ x0 x1 x2 s, Keeps s0 s → Keeps s0 (modOpen x0 x1 x2 s) := by
  intro x0 x1 x2 s h
  unfold modOpen
  try dsimp only
  repeat' first
    | with_reducible exact h | (intro) | with_reducible apply modCtx_keeps

theorem bumpColl_keeps {s0 : State} : ∀ x0 s x2 x3, Keeps s0 s → Keeps s0 (bumpColl x0 s x2 x3) := by
  intro x0 s x2 x3 h
  unfold bumpColl
  try dsimp only
  repeat' first
    | with_reducible exact h | (intro) | with_reducible apply bump_keeps

theorem send_keeps {s0 : State} : ∀ x0 x1 x2 x3 s, Keeps s0 s → Keeps s0 (send x0 x1 x2 x3 s) := by
  intro x0 x1 x2 x3 s h
  unfold send
  try dsimp only
  repeat' first
    | with_reducible exact h | (intro) | with_reducible apply originate_keeps | with_reducible apply originateTo_keeps
    | with_reducible apply Keeps.ite

theorem sendNotice_keeps {s0 : State} : ∀ x0 x1 x2 x3 x4 x5 x6 x7 s, Keeps s0 s → Keeps s0 (sendNotice x0 x1 x2 x3 x4 x5 x6 x7 s) := by
  intro x0 x1 x2 x3 x4 x5 x6 x7 s h
  unfold sendNotice
  try dsimp only
  repeat' first
    | with_reducible exact h | (intro) | with_reducible apply post_keeps | with_reducible apply send_keeps
    | with_reducible apply Keeps.ite | with_reducible apply Keeps.foldl | split | dsimp only | exact rfl
    | exact ⟨rfl, rfl⟩ | exact ⟨rfl, rfl, rfl, rfl, rfl, rfl⟩ | assumption

theorem sendResend_keeps {s0 : State} : ∀ x0 x1 x2 x3 x4 x5 s, Keeps s0 s → Keeps s0 (sendResend x0 x1 x2 x3 x4 x5 s) := by
  intro x0 x1 x2 x3 x4 x5 s h
  unfold sendResend
  try dsimp only
  repeat' first
    | with_reducible exact h | (intro) | with_reducible apply bumpColl_keeps | with_reducible apply send_keeps

theorem completeIndex_keeps {s0 : State} : ∀ x0 x1 s, Keeps s0 s → Keeps s0 (completeIndex x0 x1 s) := by
  intro x0 x1 s h
  unfold completeIndex
  try dsimp only
  repeat' first
    | with_reducible exact h | (intro) | with_reducible apply capture_keeps | with_reducible apply modCtx_keeps
    | with_reducible apply Keeps.ite

theorem mapQueued_keeps {s0 : State} : ∀ x0 s, Keeps s0 s → Keeps s0 (mapQueued x0 s) := by
  intro x0 s h
  unfold mapQueued
  try dsimp only
  repeat' first
    | with_reducible exact h | (intro) | with_reducible apply State.modCore_keeps

theorem mapInfos_keeps {s0 : State} : ∀ x0 s, Keeps s0 s → Keeps s0 (mapInfos x0 s) := by
  intro x0 s h
  unfold mapInfos
  try dsimp only
  repeat' first
    | with_reducible exact h | (intro) | with_reducible apply State.modLink_keeps
    | with_reducible apply mapQueued_keeps

theorem voidResults_keeps {s0 : State} : ∀ x0 x1 s, Keeps s0 s → Keeps s0 (voidResults x0 x1 s) := by
  intro x0 x1 s h
  unfold voidResults
  try dsimp only
  repeat' first
    | with_reducible exact h | (intro) | with_reducible apply mapQueued_keeps

theorem stripResults_keeps {s0 : State} : ∀ x0 s, Keeps s0 s → Keeps s0 (stripResults x0 s) := by
  intro x0 s h
  unfold stripResults
  try dsimp only
  repeat' first
    | with_reducible exact h | (intro) | with_reducible apply mapInfos_keeps

theorem abortCore_keeps {s0 : State} : ∀ x0 x1 x2 s, Keeps s0 s → Keeps s0 (abortCore x0 x1 x2 s) := by
  intro x0 x1 x2 s h
  unfold abortCore
  try dsimp only
  repeat' first
    | with_reducible exact h | (intro) | with_reducible apply bumpColl_keeps | with_reducible apply capture_keeps
    | with_reducible apply modCtx_keeps | with_reducible apply send_keeps | with_reducible apply sendNotice_keeps
    | with_reducible apply voidResults_keeps | with_reducible apply Keeps.ite

theorem abortPlain_keeps {s0 : State} : ∀ x0 x1 s, Keeps s0 s → Keeps s0 (abortPlain x0 x1 s) := by
  intro x0 x1 s h
  unfold abortPlain
  try dsimp only
  repeat' first
    | with_reducible exact h | (intro) | with_reducible apply abortCore_keeps

theorem recallNamed_keeps {s0 : State} : ∀ x0 x1 x2 x3 x4 x5 x6 s, Keeps s0 s → Keeps s0 (recallNamed x0 x1 x2 x3 x4 x5 x6 s) := by
  intro x0 x1 x2 x3 x4 x5 x6 s h
  unfold recallNamed
  try dsimp only
  repeat' first
    | with_reducible exact h | (intro) | with_reducible apply bumpColl_keeps | with_reducible apply capture_keeps
    | with_reducible apply modCtx_keeps | with_reducible apply sendNotice_keeps

theorem recallRun_keeps {s0 : State} : ∀ x0 x1 x2 s, Keeps s0 s → Keeps s0 (recallRun x0 x1 x2 s) := by
  intro x0 x1 x2 s h
  unfold recallRun
  try dsimp only
  repeat' first
    | with_reducible exact h | (intro) | with_reducible apply recallNamed_keeps

theorem recallUnit_keeps {s0 : State} : ∀ x0 x1 s, Keeps s0 s → Keeps s0 (recallUnit x0 x1 s) := by
  intro x0 x1 s h
  unfold recallUnit
  try dsimp only
  repeat' first
    | with_reducible exact h | (intro) | with_reducible apply recallRun_keeps | with_reducible apply Keeps.ite
    | with_reducible apply Keeps.foldl | split | dsimp only | exact rfl | exact ⟨rfl, rfl⟩
    | exact ⟨rfl, rfl, rfl, rfl, rfl, rfl⟩ | assumption

theorem fenceUnit_keeps {s0 : State} : ∀ x0 x1 s, Keeps s0 s → Keeps s0 (fenceUnit x0 x1 s) := by
  intro x0 x1 s h
  unfold fenceUnit
  try dsimp only
  repeat' first
    | with_reducible exact h | (intro) | with_reducible apply abortPlain_keeps | with_reducible apply capture_keeps
    | with_reducible apply modUnit_keeps | with_reducible apply recallUnit_keeps | with_reducible apply report_keeps
    | with_reducible apply Keeps.ite | with_reducible apply Keeps.foldl | split | dsimp only | exact rfl
    | exact ⟨rfl, rfl⟩ | exact ⟨rfl, rfl, rfl, rfl, rfl, rfl⟩ | assumption

theorem settleFences_keeps {s0 : State} : ∀ n s, Keeps s0 s → Keeps s0 (settleFences n s) := by
  intro n
  induction n with
  | zero => exact fun _ h => h
  | succ n ih =>
    intro s h
    unfold settleFences
    split
    · exact ih _ (fenceUnit_keeps _ _ _ h)
    · exact h

theorem fenceAfter_keeps {s0 : State} : ∀ x0 x1 x2 x3 s, Keeps s0 s → Keeps s0 (fenceAfter x0 x1 x2 x3 s) := by
  intro x0 x1 x2 x3 s h
  unfold fenceAfter
  try dsimp only
  repeat' first
    | with_reducible exact h | (intro) | with_reducible apply modUnit_keeps | with_reducible apply settleFences_keeps

theorem abortCtx_keeps {s0 : State} : ∀ x0 x1 x2 s, Keeps s0 s → Keeps s0 (abortCtx x0 x1 x2 s) := by
  intro x0 x1 x2 s h
  unfold abortCtx
  try dsimp only
  repeat' first
    | with_reducible exact h | (intro) | with_reducible apply abortCore_keeps
    | with_reducible apply settleFences_keeps

theorem residueCount_keeps {s0 : State} : ∀ x0 s, Keeps s0 s → Keeps s0 (residueCount x0 s).2 := by
  intro x0 s h
  unfold residueCount
  try dsimp only
  repeat' first
    | with_reducible exact h | (intro) | with_reducible apply bumpUnit_keeps | with_reducible apply modUnit_keeps

theorem modRet_keeps {s0 : State} : ∀ x0 x1 x2 s, Keeps s0 s → Keeps s0 (modRet x0 x1 x2 s) := by
  intro x0 x1 x2 s h
  unfold modRet
  try dsimp only
  repeat' first
    | with_reducible exact h | (intro) | with_reducible apply modCtx_keeps | with_reducible apply storeRet_keeps

theorem resultLeaves_keeps {s0 : State} : ∀ x0 s, Keeps s0 s → Keeps s0 (resultLeaves x0 s) := by
  intro x0 s h
  unfold resultLeaves
  try dsimp only
  repeat' first
    | with_reducible exact h | (intro) | with_reducible apply bumpColl_keeps
    | with_reducible apply completeIndex_keeps | with_reducible apply modCtx_keeps | with_reducible apply modRet_keeps
    | with_reducible apply settleFences_keeps | with_reducible apply Keeps.ite | with_reducible apply Keeps.foldl
    | split

theorem sendResult_keeps {s0 : State} : ∀ x0 x1 x2 x3 s, Keeps s0 s → Keeps s0 (sendResult x0 x1 x2 x3 s) := by
  intro x0 x1 x2 x3 s h
  unfold sendResult
  try dsimp only
  repeat' first
    | with_reducible exact h | (intro) | with_reducible apply modOpen_keeps | with_reducible apply resultLeaves_keeps
    | with_reducible apply send_keeps | with_reducible apply Keeps.ite | with_reducible apply Keeps.foldl | split
    | dsimp only | exact rfl | exact ⟨rfl, rfl⟩ | exact ⟨rfl, rfl, rfl, rfl, rfl, rfl⟩ | assumption

theorem accumulate_keeps {s0 : State} : ∀ x0 x1 x2 x3 s, Keeps s0 s → Keeps s0 (accumulate x0 x1 x2 x3 s) := by
  intro x0 x1 x2 x3 s h
  unfold accumulate
  try dsimp only
  repeat' first
    | with_reducible exact h | (intro) | with_reducible apply bumpUnit_keeps | with_reducible apply cacheRange_keeps
    | with_reducible apply daWrite_keeps | with_reducible apply Keeps.ite

theorem sendPartial_keeps {s0 : State} : ∀ x0 x1 x2 s, Keeps s0 s → Keeps s0 (sendPartial x0 x1 x2 s) := by
  intro x0 x1 x2 s h
  unfold sendPartial
  try dsimp only
  repeat' first
    | with_reducible exact h | (intro) | with_reducible apply abortCtx_keeps | with_reducible apply send_keeps
    | with_reducible apply Keeps.ite

theorem proceed_keeps {s0 : State} : ∀ x0 x1 s, Keeps s0 s → Keeps s0 (proceed x0 x1 s) := by
  intro x0 x1 s h
  unfold proceed
  try dsimp only
  repeat' first
    | with_reducible exact h | (intro) | with_reducible apply accumulate_keeps | with_reducible apply bumpColl_keeps
    | with_reducible apply modCtx_keeps | with_reducible apply modOpen_keeps | with_reducible apply sendPartial_keeps
    | with_reducible apply sendResult_keeps | with_reducible apply storeRet_keeps | with_reducible apply Keeps.ite
    | with_reducible apply Keeps.foldl | split

theorem formResult_keeps {s0 : State} : ∀ x0 x1 s, Keeps s0 s → Keeps s0 (formResult x0 x1 s) := by
  intro x0 x1 s h
  unfold formResult
  try dsimp only
  repeat' first
    | with_reducible exact h | (intro) | with_reducible apply abortCtx_keeps | with_reducible apply bumpColl_keeps
    | with_reducible apply bumpUnit_keeps | with_reducible apply modOpen_keeps | with_reducible apply proceed_keeps
    | with_reducible apply Keeps.ite | with_reducible apply Keeps.foldl | split

theorem setWitnessed_keeps {s0 : State} : ∀ x0 x1 s, Keeps s0 s → Keeps s0 (setWitnessed x0 x1 s) := by
  intro x0 x1 s h
  unfold setWitnessed
  try dsimp only
  repeat' first
    | with_reducible exact h | (intro) | with_reducible apply modOpen_keeps

theorem agreed_keeps {s0 : State} : ∀ x0 x1 s, Keeps s0 s → Keeps s0 (agreed x0 x1 s) := by
  intro x0 x1 s h
  unfold agreed
  try dsimp only
  repeat' first
    | with_reducible exact h | (intro) | with_reducible apply modCtx_keeps

theorem outvote_keeps {s0 : State} : ∀ x0 x1 x2 s, Keeps s0 s → Keeps s0 (outvote x0 x1 x2 s) := by
  intro x0 x1 x2 s h
  unfold outvote
  try dsimp only
  repeat' first
    | with_reducible exact h | (intro) | with_reducible apply fenceAfter_keeps | with_reducible apply modUnit_keeps

theorem unresolved_keeps {s0 : State} : ∀ x0 x1 x2 x3 s, Keeps s0 s → Keeps s0 (unresolved x0 x1 x2 x3 s) := by
  intro x0 x1 x2 x3 s h
  unfold unresolved
  try dsimp only
  repeat' first
    | with_reducible exact h | (intro) | with_reducible apply abortCtx_keeps | with_reducible apply bumpUnit_keeps
    | with_reducible apply report_keeps | with_reducible apply Keeps.ite | with_reducible apply Keeps.foldl | split
    | dsimp only | exact rfl | exact ⟨rfl, rfl⟩ | exact ⟨rfl, rfl, rfl, rfl, rfl, rfl⟩ | assumption

theorem winnowCompare_keeps {s0 : State} : ∀ x0 x1 x2 s, Keeps s0 s → Keeps s0 (winnowCompare x0 x1 x2 s) := by
  intro x0 x1 x2 s h
  unfold winnowCompare
  try dsimp only
  repeat' first
    | with_reducible exact h | (intro) | with_reducible apply agreed_keeps | with_reducible apply bumpColl_keeps
    | with_reducible apply bumpUnit_keeps | with_reducible apply modOpen_keeps | with_reducible apply outvote_keeps
    | with_reducible apply proceed_keeps | with_reducible apply setWitnessed_keeps
    | with_reducible apply unresolved_keeps | with_reducible apply Keeps.ite | with_reducible apply Keeps.foldl
    | split

theorem settleWinnow_keeps {s0 : State} : ∀ s, Keeps s0 s → Keeps s0 (settleWinnow s) := by
  intro s h
  unfold settleWinnow
  try dsimp only
  repeat' first
    | with_reducible exact h | (intro) | with_reducible apply bumpColl_keeps | with_reducible apply proceed_keeps
    | with_reducible apply Keeps.ite | with_reducible apply Keeps.foldl | split | dsimp only | exact rfl
    | exact ⟨rfl, rfl⟩ | exact ⟨rfl, rfl, rfl, rfl, rfl, rfl⟩ | assumption

end Sys2Proof.Machine
end

