-- ==== Sys2Proof/Laws/KeepsCollEvents.lean ====
section
/-! SUPPORT. What the operations of Machine/CollEvents.lean keep. -/

namespace Sys2Proof.Machine

theorem releaseSink_keeps {s0 : State} : ∀ x0 s, Keeps s0 s → Keeps s0 (releaseSink x0 s) := by
  intro x0 s h
  unfold releaseSink
  try dsimp only
  repeat' first
    | with_reducible exact h | (intro) | with_reducible apply freeStored_keeps
    | with_reducible apply resultLeaves_keeps | with_reducible apply traceStored_keeps
    | with_reducible apply Keeps.ite | with_reducible apply Keeps.foldl | split

theorem dropSunk_keeps {s0 : State} : ∀ x0 s, Keeps s0 s → Keeps s0 (dropSunk x0 s) := by
  intro x0 s h
  unfold dropSunk
  try dsimp only
  repeat' first
    | with_reducible exact h | (intro) | with_reducible apply freeStored_keeps
    | with_reducible apply traceStored_keeps | with_reducible apply Keeps.ite | with_reducible apply Keeps.foldl
    | split

theorem notTaken_keeps {s0 : State} : ∀ x0 s, Keeps s0 s → Keeps s0 (notTaken x0 s) := by
  intro x0 s h
  unfold notTaken
  try dsimp only
  repeat' first
    | with_reducible exact h | (intro) | with_reducible apply cellFail_keeps | with_reducible apply Keeps.ite
    | with_reducible apply Keeps.foldl | split

theorem atSink_keeps {s0 : State} : ∀ x0 x1 s, (∀ t, Keeps s0 t → Keeps s0 (x1 t)) → Keeps s0 s → Keeps s0 (atSink x0 x1 s) := by
  intro x0 x1 s hx1 h
  unfold atSink
  try dsimp only
  repeat' first
    | with_reducible exact h | (intro) | with_reducible apply dropSunk_keeps | with_reducible apply notTaken_keeps
    | with_reducible apply releaseSink_keeps | with_reducible apply Keeps.ite | with_reducible apply Keeps.foldl
    | split | dsimp only | exact rfl | exact ⟨rfl, rfl⟩ | exact ⟨rfl, rfl, rfl, rfl, rfl, rfl⟩ | assumption
    | with_reducible apply hx1

theorem termCrcFail_keeps {s0 : State} : ∀ x0 x1 s, Keeps s0 s → Keeps s0 (termCrcFail x0 x1 s) := by
  intro x0 x1 s h
  unfold termCrcFail
  try dsimp only
  repeat' first
    | with_reducible exact h | (intro) | with_reducible apply report_keeps

theorem badContribution_keeps {s0 : State} : ∀ x0 x1 s, Keeps s0 s → Keeps s0 (badContribution x0 x1 s) := by
  intro x0 x1 s h
  unfold badContribution
  try dsimp only
  repeat' first
    | with_reducible exact h | (intro) | with_reducible apply sendResend_keeps | with_reducible apply Keeps.ite

theorem accept_keeps {s0 : State} : ∀ x0 x1 x2 x3 s, Keeps s0 s → Keeps s0 (accept x0 x1 x2 x3 s) := by
  intro x0 x1 x2 x3 s h
  unfold accept
  try dsimp only
  repeat' first
    | with_reducible exact h | (intro) | with_reducible apply abortCtx_keeps | with_reducible apply bumpUnit_keeps
    | with_reducible apply modCtx_keeps | with_reducible apply modOpen_keeps | with_reducible apply Keeps.ite
    | with_reducible apply Keeps.foldl | split

theorem faultOn_keeps {s0 : State} : ∀ x0 x1 x2 s, Keeps s0 s → Keeps s0 (faultOn x0 x1 x2 s) := by
  intro x0 x1 x2 s h
  unfold faultOn
  try dsimp only
  repeat' first
    | with_reducible exact h | (intro) | with_reducible apply fenceAfter_keeps
    | with_reducible apply residueCount_keeps | with_reducible apply Keeps.ite

theorem redoIndex_keeps {s0 : State} : ∀ x0 x1 x2 x3 x4 s, Keeps s0 s → Keeps s0 (redoIndex x0 x1 x2 x3 x4 s) := by
  intro x0 x1 x2 x3 x4 s h
  unfold redoIndex
  try dsimp only
  repeat' first
    | with_reducible exact h | (intro) | with_reducible apply abortCtx_keeps | with_reducible apply faultOn_keeps
    | with_reducible apply modOpen_keeps | with_reducible apply Keeps.ite | with_reducible apply Keeps.foldl | split

theorem residueIndex_keeps {s0 : State} : ∀ x0 x1 x2 x3 s, Keeps s0 s → Keeps s0 (residueIndex x0 x1 x2 x3 s) := by
  intro x0 x1 x2 x3 s h
  unfold residueIndex
  try dsimp only
  repeat' first
    | with_reducible exact h | (intro) | with_reducible apply redoIndex_keeps | with_reducible apply Keeps.ite
    | with_reducible apply Keeps.foldl | split

theorem loftUE_keeps {s0 : State} : ∀ x0 x1 x2 s, Keeps s0 s → Keeps s0 (loftUE x0 x1 x2 s) := by
  intro x0 x1 x2 s h
  unfold loftUE
  try dsimp only
  repeat' first
    | with_reducible exact h | (intro) | with_reducible apply bumpIn_keeps | with_reducible apply report_keeps

theorem accumulatorUE_keeps {s0 : State} : ∀ x0 x1 s, Keeps s0 s → Keeps s0 (accumulatorUE x0 x1 s) := by
  intro x0 x1 s h
  unfold accumulatorUE
  try dsimp only
  repeat' first
    | with_reducible exact h | (intro) | with_reducible apply loftUE_keeps | with_reducible apply residueIndex_keeps
    | with_reducible apply Keeps.ite | with_reducible apply Keeps.foldl | split

theorem stagedUE_keeps {s0 : State} : ∀ x0 x1 x2 s, Keeps s0 s → Keeps s0 (stagedUE x0 x1 x2 s) := by
  intro x0 x1 x2 s h
  unfold stagedUE
  try dsimp only
  repeat' first
    | with_reducible exact h | (intro) | with_reducible apply loftUE_keeps | with_reducible apply modOpen_keeps
    | with_reducible apply sendResend_keeps | with_reducible apply Keeps.ite | with_reducible apply Keeps.foldl
    | split

theorem arrive_keeps {s0 : State} : ∀ x0 s, Keeps s0 s → Keeps s0 (arrive x0 s) := by
  intro x0 s h
  unfold arrive
  try dsimp only
  repeat' first
    | with_reducible exact h | (intro) | with_reducible apply abortCtx_keeps | with_reducible apply accept_keeps
    | with_reducible apply bumpColl_keeps | with_reducible apply sendResend_keeps | with_reducible apply Keeps.ite

theorem stagingReads_keeps {s0 : State} : ∀ x0 x1 s, Keeps s0 s → Keeps s0 (stagingReads x0 x1 s) := by
  intro x0 x1 s h
  unfold stagingReads
  try dsimp only
  repeat' first
    | with_reducible exact h | (intro) | with_reducible apply accumulatorUE_keeps
    | with_reducible apply stagedUE_keeps | with_reducible apply Keeps.ite | with_reducible apply Keeps.foldl | split

theorem sheafArrival_keeps {s0 : State} : ∀ x0 x1 x2 s, Keeps s0 s → Keeps s0 (sheafArrival x0 x1 x2 s) := by
  intro x0 x1 x2 s h
  unfold sheafArrival
  try dsimp only
  repeat' first
    | with_reducible exact h | (intro) | with_reducible apply arrive_keeps | with_reducible apply atSink_keeps
    | with_reducible apply badContribution_keeps | with_reducible apply bumpColl_keeps
    | with_reducible apply stagingReads_keeps | with_reducible apply termCrcFail_keeps
    | with_reducible apply Keeps.ite | with_reducible apply Keeps.foldl | split | dsimp only | exact rfl
    | exact ⟨rfl, rfl⟩ | exact ⟨rfl, rfl, rfl, rfl, rfl, rfl⟩ | assumption

theorem freeSlot_keeps {s0 : State} : ∀ x0 x1 s, Keeps s0 s → Keeps s0 (freeSlot x0 x1 s) := by
  intro x0 x1 s h
  unfold freeSlot
  try dsimp only
  repeat' first
    | with_reducible exact h | (intro) | with_reducible apply modCtx_keeps

theorem ackTaken_keeps {s0 : State} : ∀ x0 x1 x2 s, Keeps s0 s → Keeps s0 (ackTaken x0 x1 x2 s) := by
  intro x0 x1 x2 s h
  unfold ackTaken
  try dsimp only
  repeat' first
    | with_reducible exact h | (intro) | with_reducible apply bumpColl_keeps | with_reducible apply freeSlot_keeps
    | with_reducible apply modCtx_keeps | with_reducible apply modRet_keeps | with_reducible apply termCrcFail_keeps
    | with_reducible apply Keeps.ite | with_reducible apply Keeps.foldl | split

theorem resultAck_keeps {s0 : State} : ∀ x0 x1 s, Keeps s0 s → Keeps s0 (resultAck x0 x1 s) := by
  intro x0 x1 s h
  unfold resultAck
  try dsimp only
  repeat' first
    | with_reducible exact h | (intro) | with_reducible apply ackTaken_keeps | with_reducible apply atSink_keeps
    | with_reducible apply Keeps.ite | with_reducible apply Keeps.foldl | split | dsimp only | exact rfl
    | exact ⟨rfl, rfl⟩ | exact ⟨rfl, rfl, rfl, rfl, rfl, rfl⟩ | assumption

theorem nakTaken_keeps {s0 : State} : ∀ x0 x1 x2 x3 s, Keeps s0 s → Keeps s0 (nakTaken x0 x1 x2 x3 s) := by
  intro x0 x1 x2 x3 s h
  unfold nakTaken
  try dsimp only
  repeat' first
    | with_reducible exact h | (intro) | with_reducible apply bumpColl_keeps | with_reducible apply modRet_keeps
    | with_reducible apply recallRun_keeps | with_reducible apply send_keeps | with_reducible apply termCrcFail_keeps
    | with_reducible apply Keeps.ite | with_reducible apply Keeps.foldl | split

theorem resultNak_keeps {s0 : State} : ∀ x0 x1 x2 s, Keeps s0 s → Keeps s0 (resultNak x0 x1 x2 s) := by
  intro x0 x1 x2 s h
  unfold resultNak
  try dsimp only
  repeat' first
    | with_reducible exact h | (intro) | with_reducible apply atSink_keeps | with_reducible apply nakTaken_keeps
    | with_reducible apply Keeps.ite | with_reducible apply Keeps.foldl | split | dsimp only | exact rfl
    | exact ⟨rfl, rfl⟩ | exact ⟨rfl, rfl, rfl, rfl, rfl, rfl⟩ | assumption

theorem relayTakes_keeps {s0 : State} : ∀ x0 x1 s, Keeps s0 s → Keeps s0 (relayTakes x0 x1 s) := by
  intro x0 x1 s h
  unfold relayTakes
  try dsimp only
  repeat' first
    | with_reducible exact h | (intro) | with_reducible apply abortCtx_keeps | with_reducible apply modOpen_keeps
    | with_reducible apply modRet_keeps | with_reducible apply send_keeps | with_reducible apply sendResult_keeps
    | with_reducible apply Keeps.ite | with_reducible apply Keeps.foldl | split

theorem relayResult_keeps {s0 : State} : ∀ x0 x1 s, Keeps s0 s → Keeps s0 (relayResult x0 x1 s) := by
  intro x0 x1 s h
  unfold relayResult
  try dsimp only
  repeat' first
    | with_reducible exact h | (intro) | with_reducible apply atSink_keeps | with_reducible apply bumpColl_keeps
    | with_reducible apply relayTakes_keeps | with_reducible apply termCrcFail_keeps | with_reducible apply Keeps.ite
    | with_reducible apply Keeps.foldl | split | dsimp only | exact rfl | exact ⟨rfl, rfl⟩
    | exact ⟨rfl, rfl, rfl, rfl, rfl, rfl⟩ | assumption

theorem relayResend_keeps {s0 : State} : ∀ x0 x1 s, Keeps s0 s → Keeps s0 (relayResend x0 x1 s) := by
  intro x0 x1 s h
  unfold relayResend
  try dsimp only
  repeat' first
    | with_reducible exact h | (intro) | with_reducible apply abortCtx_keeps | with_reducible apply sendPartial_keeps
    | with_reducible apply Keeps.ite | with_reducible apply Keeps.foldl | split

theorem relayRecall_keeps {s0 : State} : ∀ x0 x1 s, Keeps s0 s → Keeps s0 (relayRecall x0 x1 s) := by
  intro x0 x1 s h
  unfold relayRecall
  try dsimp only
  repeat' first
    | with_reducible exact h | (intro) | with_reducible apply recallNamed_keeps | with_reducible apply Keeps.ite

theorem relayNotice_keeps {s0 : State} : ∀ x0 x1 s, Keeps s0 s → Keeps s0 (relayNotice x0 x1 s) := by
  intro x0 x1 s h
  unfold relayNotice
  try dsimp only
  repeat' first
    | with_reducible exact h | (intro) | with_reducible apply abortCtx_keeps | with_reducible apply relayRecall_keeps
    | with_reducible apply relayResend_keeps | with_reducible apply Keeps.ite | with_reducible apply Keeps.foldl
    | split

theorem upstreamNotice_keeps {s0 : State} : ∀ x0 x1 s, Keeps s0 s → Keeps s0 (upstreamNotice x0 x1 s) := by
  intro x0 x1 s h
  unfold upstreamNotice
  try dsimp only
  repeat' first
    | with_reducible exact h | (intro) | with_reducible apply abortCtx_keeps | with_reducible apply atSink_keeps
    | with_reducible apply bumpIn_keeps | with_reducible apply relayNotice_keeps
    | with_reducible apply termCrcFail_keeps | with_reducible apply Keeps.ite | with_reducible apply Keeps.foldl
    | split | dsimp only | exact rfl | exact ⟨rfl, rfl⟩ | exact ⟨rfl, rfl, rfl, rfl, rfl, rfl⟩ | assumption

theorem stallTimer_keeps {s0 : State} : ∀ x0 x1 s, Keeps s0 s → Keeps s0 (stallTimer x0 x1 s) := by
  intro x0 x1 s h
  unfold stallTimer
  try dsimp only
  repeat' first
    | with_reducible exact h | (intro) | with_reducible apply capture_keeps | with_reducible apply modOpen_keeps
    | with_reducible apply post_keeps | with_reducible apply sendResend_keeps | with_reducible apply Keeps.ite
    | with_reducible apply Keeps.foldl | split | dsimp only | exact rfl | exact ⟨rfl, rfl⟩
    | exact ⟨rfl, rfl, rfl, rfl, rfl, rfl⟩ | assumption

theorem retainResume_keeps {s0 : State} : ∀ x0 s, Keeps s0 s → Keeps s0 (retainResume x0 s) := by
  intro x0 s h
  unfold retainResume
  try dsimp only
  repeat' first
    | with_reducible exact h | (intro) | with_reducible apply proceed_keeps | with_reducible apply Keeps.ite
    | with_reducible apply Keeps.foldl | split

theorem retainExpired_keeps {s0 : State} : ∀ x0 x1 s, Keeps s0 s → Keeps s0 (retainExpired x0 x1 s) := by
  intro x0 x1 s h
  unfold retainExpired
  try dsimp only
  repeat' first
    | with_reducible exact h | (intro) | with_reducible apply bumpColl_keeps | with_reducible apply freeSlot_keeps
    | with_reducible apply Keeps.ite | with_reducible apply Keeps.foldl | split

theorem retentionScrub_keeps {s0 : State} : ∀ x0 x1 x2 s, Keeps s0 s → Keeps s0 (retentionScrub x0 x1 x2 s) := by
  intro x0 x1 x2 s h
  unfold retentionScrub
  try dsimp only
  repeat' first
    | with_reducible exact h | (intro) | with_reducible apply recallRun_keeps | with_reducible apply Keeps.ite
    | with_reducible apply Keeps.foldl | split

theorem stagingMove_keeps {s0 : State} : ∀ x0 x1 s, Keeps s0 s → Keeps s0 (stagingMove x0 x1 s) := by
  intro x0 x1 s h
  unfold stagingMove
  try dsimp only
  repeat' first
    | with_reducible exact h | (intro) | with_reducible apply modOpen_keeps | with_reducible apply stagedUE_keeps
    | with_reducible apply Keeps.ite | with_reducible apply Keeps.foldl | split

theorem execSheafArrival_keeps : ∀ x0 x1 s, KeepsOut s (execSheafArrival x0 x1 s) := by
  intro x0 x1 s
  unfold execSheafArrival
  have h := Keeps.refl s
  try dsimp only
  repeat' first
    | with_reducible apply KeepsOut.next | with_reducible apply KeepsOut.ite | with_reducible exact KeepsOut.refused
    | with_reducible exact h | (intro) | with_reducible apply sheafArrival_keeps | with_reducible apply Keeps.ite

theorem execResultAck_keeps : ∀ x0 x1 s, KeepsOut s (execResultAck x0 x1 s) := by
  intro x0 x1 s
  unfold execResultAck
  have h := Keeps.refl s
  try dsimp only
  repeat' first
    | with_reducible apply KeepsOut.next | with_reducible apply KeepsOut.ite | with_reducible exact KeepsOut.refused
    | with_reducible exact h | (intro) | with_reducible apply resultAck_keeps | with_reducible apply Keeps.ite

theorem execResultNak_keeps : ∀ x0 x1 x2 s, KeepsOut s (execResultNak x0 x1 x2 s) := by
  intro x0 x1 x2 s
  unfold execResultNak
  have h := Keeps.refl s
  try dsimp only
  repeat' first
    | with_reducible apply KeepsOut.next | with_reducible apply KeepsOut.ite | with_reducible exact KeepsOut.refused
    | with_reducible exact h | (intro) | with_reducible apply resultNak_keeps | with_reducible apply Keeps.ite

theorem execRelayResultRx_keeps : ∀ x0 x1 s, KeepsOut s (execRelayResultRx x0 x1 s) := by
  intro x0 x1 s
  unfold execRelayResultRx
  have h := Keeps.refl s
  try dsimp only
  repeat' first
    | with_reducible apply KeepsOut.next | with_reducible apply KeepsOut.ite | with_reducible exact KeepsOut.refused
    | with_reducible exact h | (intro) | with_reducible apply relayResult_keeps | with_reducible apply Keeps.ite

theorem execUpstreamNoticeRx_keeps : ∀ x0 x1 s, KeepsOut s (execUpstreamNoticeRx x0 x1 s) := by
  intro x0 x1 s
  unfold execUpstreamNoticeRx
  have h := Keeps.refl s
  try dsimp only
  repeat' first
    | with_reducible apply KeepsOut.next | with_reducible apply KeepsOut.ite | with_reducible exact KeepsOut.refused
    | with_reducible exact h | (intro) | with_reducible apply upstreamNotice_keeps | with_reducible apply Keeps.ite

theorem execResultFormed_keeps : ∀ x0 x1 s, KeepsOut s (execResultFormed x0 x1 s) := by
  intro x0 x1 s
  unfold execResultFormed
  have h := Keeps.refl s
  try dsimp only
  repeat' first
    | with_reducible apply KeepsOut.next | with_reducible apply KeepsOut.ite | with_reducible exact KeepsOut.refused
    | with_reducible exact h | (intro) | with_reducible apply formResult_keeps | with_reducible apply Keeps.ite

theorem execWinnowCompare_keeps : ∀ x0 x1 x2 s, KeepsOut s (execWinnowCompare x0 x1 x2 s) := by
  intro x0 x1 x2 s
  unfold execWinnowCompare
  have h := Keeps.refl s
  try dsimp only
  repeat' first
    | with_reducible apply KeepsOut.next | with_reducible apply KeepsOut.ite | with_reducible exact KeepsOut.refused
    | with_reducible exact h | (intro) | with_reducible apply settleWinnow_keeps
    | with_reducible apply winnowCompare_keeps | with_reducible apply Keeps.ite

theorem execRetainStallResume_keeps : ∀ x0 s, KeepsOut s (execRetainStallResume x0 s) := by
  intro x0 s
  unfold execRetainStallResume
  have h := Keeps.refl s
  try dsimp only
  repeat' first
    | with_reducible apply KeepsOut.next | with_reducible apply KeepsOut.ite | with_reducible exact KeepsOut.refused
    | with_reducible exact h | (intro) | with_reducible apply retainResume_keeps | with_reducible apply Keeps.ite

theorem execStallTimer_keeps : ∀ x0 x1 s, KeepsOut s (execStallTimer x0 x1 s) := by
  intro x0 x1 s
  unfold execStallTimer
  have h := Keeps.refl s
  try dsimp only
  repeat' first
    | with_reducible apply KeepsOut.next | with_reducible apply KeepsOut.ite | with_reducible exact KeepsOut.refused
    | with_reducible exact h | (intro) | with_reducible apply stallTimer_keeps | with_reducible apply Keeps.ite

theorem execRetainExpired_keeps : ∀ x0 x1 s, KeepsOut s (execRetainExpired x0 x1 s) := by
  intro x0 x1 s
  unfold execRetainExpired
  have h := Keeps.refl s
  try dsimp only
  repeat' first
    | with_reducible apply KeepsOut.next | with_reducible apply KeepsOut.ite | with_reducible exact KeepsOut.refused
    | with_reducible exact h | (intro) | with_reducible apply retainExpired_keeps | with_reducible apply Keeps.ite

theorem execRetentionScrub_keeps : ∀ x0 x1 x2 s, KeepsOut s (execRetentionScrub x0 x1 x2 s) := by
  intro x0 x1 x2 s
  unfold execRetentionScrub
  have h := Keeps.refl s
  try dsimp only
  repeat' first
    | with_reducible apply KeepsOut.next | with_reducible apply KeepsOut.ite | with_reducible exact KeepsOut.refused
    | with_reducible exact h | (intro) | with_reducible apply retentionScrub_keeps | with_reducible apply Keeps.ite

theorem execStagingMove_keeps : ∀ x0 s, KeepsOut s (execStagingMove x0 s) := by
  intro x0 s
  unfold execStagingMove
  have h := Keeps.refl s
  try dsimp only
  repeat' first
    | with_reducible apply KeepsOut.next | with_reducible apply KeepsOut.ite | with_reducible exact KeepsOut.refused
    | with_reducible exact h | (intro) | with_reducible apply stagingMove_keeps | with_reducible apply Keeps.ite

end Sys2Proof.Machine
end

