-- ==== Sys2Proof/Laws/KeepsSched.lean ====
section
/-! SUPPORT. What the operations of Machine/Sched.lean keep. -/

namespace Sys2Proof.Machine

theorem refillNow_keeps {s0 : State} : ∀ s, Keeps s0 s → Keeps s0 (refillNow s) := by
  intro s h
  unfold refillNow
  try dsimp only
  repeat' first
    | with_reducible exact h | (intro) | with_reducible apply State.modSched_keeps | with_reducible apply Keeps.ite

theorem execRefillInstant_keeps : ∀ s, KeepsOut s (execRefillInstant s) := by
  intro s
  unfold execRefillInstant
  have h := Keeps.refl s
  try dsimp only
  repeat' first
    | with_reducible apply KeepsOut.next | with_reducible apply KeepsOut.ite | with_reducible exact KeepsOut.refused
    | with_reducible exact h | (intro) | with_reducible apply refillNow_keeps | with_reducible apply Keeps.ite

theorem police_keeps {s0 : State} : ∀ x0 x1 s, Keeps s0 s → Keeps s0 (police x0 x1 s).2 := by
  intro x0 x1 s h
  unfold police
  try dsimp only
  repeat' first
    | with_reducible exact h | (intro) | with_reducible apply State.modSched_keeps | with_reducible apply bump_keeps
    | with_reducible apply bumpBy_keeps | with_reducible apply Keeps.ite_snd | with_reducible apply Keeps.ite

theorem capturePort_keeps {s0 : State} : ∀ x0 x1 s, Keeps s0 s → Keeps s0 (capturePort x0 x1 s) := by
  intro x0 x1 s h
  unfold capturePort
  try dsimp only
  repeat' first
    | with_reducible exact h | (intro) | with_reducible apply capture_keeps

theorem latBegin_keeps {s0 : State} : ∀ x0 x1 s, Keeps s0 s → Keeps s0 (latBegin x0 x1 s) := by
  intro x0 x1 s h
  unfold latBegin
  try dsimp only
  repeat' first
    | with_reducible exact h | (intro) | with_reducible apply State.modSched_keeps | with_reducible apply bump_keeps
    | with_reducible apply capturePort_keeps | with_reducible apply Keeps.ite

theorem latEnd_keeps {s0 : State} : ∀ x0 x1 s, Keeps s0 s → Keeps s0 (latEnd x0 x1 s) := by
  intro x0 x1 s h
  unfold latEnd
  try dsimp only
  repeat' first
    | with_reducible exact h | (intro) | with_reducible apply State.modSched_keeps
    | with_reducible apply capturePort_keeps | with_reducible apply Keeps.ite

theorem debit_keeps {s0 : State} : ∀ x0 x1 s, Keeps s0 s → Keeps s0 (debit x0 x1 s) := by
  intro x0 x1 s h
  unfold debit
  try dsimp only
  repeat' first
    | with_reducible exact h | (intro) | with_reducible apply State.modSched_keeps

theorem resultGoes_keeps {s0 : State} : ∀ x0 s, Keeps s0 s → Keeps s0 (resultGoes x0 s) := by
  intro x0 s h
  unfold resultGoes
  try dsimp only
  repeat' first
    | with_reducible exact h | (intro) | with_reducible apply resultLeaves_keeps | with_reducible apply Keeps.ite
    | with_reducible apply Keeps.foldl | split

theorem dropWithheld_keeps {s0 : State} : ∀ x0 s, Keeps s0 s → Keeps s0 (dropWithheld x0 s) := by
  intro x0 s h
  unfold dropWithheld
  try dsimp only
  repeat' first
    | with_reducible exact h | (intro) | with_reducible apply State.modLink_keeps | with_reducible apply abortTx_keeps
    | with_reducible apply dropRef_keeps | with_reducible apply traceStored_keeps | with_reducible apply Keeps.ite
    | with_reducible apply Keeps.foldl | split

theorem driveTx_keeps {s0 : State} : ∀ x0 s, Keeps s0 s → Keeps s0 (driveTx x0 s) := by
  intro x0 s h
  unfold driveTx
  try dsimp only
  repeat' first
    | with_reducible exact h | (intro) | with_reducible apply dropWithheld_keeps | with_reducible apply feedTx_keeps
    | with_reducible apply resultGoes_keeps

theorem startTx_keeps {s0 : State} : ∀ x0 s, Keeps s0 s → Keeps s0 (startTx x0 s) := by
  intro x0 s h
  unfold startTx
  try dsimp only
  repeat' first
    | with_reducible exact h | (intro) | with_reducible apply State.modLink_keeps
    | with_reducible apply State.tookFree_keeps | with_reducible apply bumpBy_keeps
    | with_reducible apply driveTx_keeps | with_reducible apply dropRef_keeps | with_reducible apply modLaneLink_keeps
    | with_reducible apply openEntry_keeps | with_reducible apply traceStored_keeps | with_reducible apply Keeps.ite
    | with_reducible apply Keeps.foldl | split

theorem sendAgain_keeps {s0 : State} : ∀ x0 x1 x2 s, Keeps s0 s → Keeps s0 (sendAgain x0 x1 x2 s) := by
  intro x0 x1 x2 s h
  unfold sendAgain
  try dsimp only
  repeat' first
    | with_reducible exact h | (intro) | with_reducible apply emit_keeps | with_reducible apply openEntry_keeps
    | with_reducible apply putDatas_keeps

theorem sendsAgain_keeps {s0 : State} : ∀ n p s, Keeps s0 s → Keeps s0 (sendsAgain n p s) := by
  intro n p
  induction n with
  | zero => exact fun _ h => h
  | succ n ih =>
    intro s h
    unfold sendsAgain
    split
    · exact h
    · split
      · exact h
      · dsimp only
        split
        · exact h
        · apply ih
          apply sendAgain_keeps
          apply State.modLink_keeps
          exact chooseLane_keeps _ _ _ h

theorem startNext_keeps {s0 : State} : ∀ x0 x1 s, Keeps s0 s → Keeps s0 (startNext x0 x1 s) := by
  intro x0 x1 s h
  unfold startNext
  try dsimp only
  repeat' first
    | with_reducible exact h | (intro) | with_reducible apply flushPort_keeps | with_reducible apply startTx_keeps
    | with_reducible apply Keeps.ite

theorem startWaiting_keeps {s0 : State} : ∀ x0 x1 x2 s, Keeps s0 s → Keeps s0 (startWaiting x0 x1 x2 s) := by
  intro x0 x1 x2 s h
  unfold startWaiting
  try dsimp only
  repeat' first
    | with_reducible exact h | (intro) | with_reducible apply startNext_keeps | with_reducible apply Keeps.ite
    | with_reducible apply Keeps.foldl | split | dsimp only | exact rfl | exact ⟨rfl, rfl⟩
    | exact ⟨rfl, rfl, rfl, rfl, rfl, rfl⟩ | assumption

theorem pump_keeps {s0 : State} : ∀ x0 s, Keeps s0 s → Keeps s0 (pump x0 s) := by
  intro x0 s h
  unfold pump
  try dsimp only
  repeat' first
    | with_reducible exact h | (intro) | with_reducible apply driveTx_keeps | with_reducible apply flushPort_keeps
    | with_reducible apply sendsAgain_keeps | with_reducible apply startWaiting_keeps | with_reducible apply Keeps.ite
    | with_reducible apply Keeps.foldl | split

theorem pumpAll_keeps {s0 : State} : ∀ s, Keeps s0 s → Keeps s0 (pumpAll s) := by
  intro s h
  unfold pumpAll
  try dsimp only
  repeat' first
    | with_reducible exact h | (intro) | with_reducible apply pump_keeps | with_reducible apply Keeps.ite
    | with_reducible apply Keeps.foldl | split | dsimp only | exact rfl | exact ⟨rfl, rfl⟩
    | exact ⟨rfl, rfl, rfl, rfl, rfl, rfl⟩ | assumption

theorem dispatch_keeps {s0 : State} : ∀ x0 x1 s, Keeps s0 s → Keeps s0 (dispatch x0 x1 s) := by
  intro x0 x1 s h
  unfold dispatch
  try dsimp only
  repeat' first
    | with_reducible exact h | (intro) | with_reducible apply chooseLane_keeps
    | with_reducible apply modLaneLink_keeps | with_reducible apply pump_keeps | with_reducible apply Keeps.ite
    | with_reducible apply Keeps.foldl | refine Keeps.snd (by assumption) ?_ | split

theorem parityDrop_keeps {s0 : State} : ∀ x0 x1 s, Keeps s0 s → Keeps s0 (parityDrop x0 x1 s) := by
  intro x0 x1 s h
  unfold parityDrop
  try dsimp only
  repeat' first
    | with_reducible exact h | (intro) | with_reducible apply bumpIn_keeps | with_reducible apply discardPkt_keeps
    | with_reducible apply modBarn_keeps | with_reducible apply modStored_keeps | with_reducible apply report_keeps

theorem egressSelect_keeps {s0 : State} : ∀ x0 x1 s, Keeps s0 s → Keeps s0 (egressSelect x0 x1 s) := by
  intro x0 x1 s h
  unfold egressSelect
  try dsimp only
  repeat' first
    | with_reducible exact h | (intro) | with_reducible apply bumpEg_keeps | with_reducible apply cellFail_keeps
    | with_reducible apply debit_keeps | with_reducible apply dispatch_keeps | with_reducible apply dropRef_keeps
    | with_reducible apply noteAdmit_keeps | with_reducible apply noteDropped_keeps
    | with_reducible apply parityDrop_keeps | with_reducible apply traceStored_keeps | with_reducible apply Keeps.ite
    | with_reducible apply Keeps.foldl | split

theorem settleSeeds_keeps {s0 : State} : ∀ s, Keeps s0 s → Keeps s0 (settleSeeds s) := by
  intro s h
  unfold settleSeeds
  try dsimp only
  repeat' first
    | with_reducible exact h | (intro) | with_reducible apply State.modJobs_keeps | with_reducible apply post_keeps
    | with_reducible apply Keeps.ite | with_reducible apply Keeps.foldl | split | dsimp only | exact rfl
    | exact ⟨rfl, rfl⟩ | exact ⟨rfl, rfl, rfl, rfl, rfl, rfl⟩ | assumption

theorem shaperWrite_keeps {s0 : State} : ∀ x0 s, Keeps s0 s → Keeps s0 (shaperWrite x0 s).1 := by
  intro x0 s h
  unfold shaperWrite
  try dsimp only
  repeat' first
    | with_reducible exact h | (intro) | with_reducible apply State.modSched_keeps | with_reducible apply cmdOk_keeps
    | with_reducible apply cmdRefuse_keeps | with_reducible apply Keeps.ite_fst

theorem shaperBankSet_keeps {s0 : State} : ∀ x0 s, Keeps s0 s → Keeps s0 (shaperBankSet x0 s).1 := by
  intro x0 s h
  unfold shaperBankSet
  try dsimp only
  repeat' first
    | with_reducible exact h | (intro) | with_reducible apply State.modSched_keeps | with_reducible apply cmdOk_keeps
    | with_reducible apply cmdRefuse_keeps | with_reducible apply Keeps.ite_fst

theorem policerWrite_keeps {s0 : State} : ∀ x0 s, Keeps s0 s → Keeps s0 (policerWrite x0 s).1 := by
  intro x0 s h
  unfold policerWrite
  try dsimp only
  repeat' first
    | with_reducible exact h | (intro) | with_reducible apply State.modSched_keeps | with_reducible apply cmdOk_keeps
    | with_reducible apply cmdRefuse_keeps | with_reducible apply Keeps.ite_fst

theorem portSchedRead_keeps {s0 : State} : ∀ x0 s, Keeps s0 s → Keeps s0 (portSchedRead x0 s).1 := by
  intro x0 s h
  unfold portSchedRead
  try dsimp only
  repeat' first
    | with_reducible exact h | (intro) | with_reducible apply cmdOk_keeps | with_reducible apply cmdRefuse_keeps
    | with_reducible apply hostWrite_keeps | with_reducible apply Keeps.ite_fst

theorem execShaperWrite_keeps : ∀ x0 x1 s, KeepsOut s (execShaperWrite x0 x1 s) := by
  intro x0 x1 s
  unfold execShaperWrite
  refine runMailbox_keeps fun c t h => ?_
  try dsimp only
  repeat' first
    | with_reducible exact h | (intro) | with_reducible apply Keeps.ite_fst | with_reducible apply shaperWrite_keeps
    | with_reducible apply Keeps.ite

theorem execShaperBankSet_keeps : ∀ x0 x1 s, KeepsOut s (execShaperBankSet x0 x1 s) := by
  intro x0 x1 s
  unfold execShaperBankSet
  refine runMailbox_keeps fun c t h => ?_
  try dsimp only
  repeat' first
    | with_reducible exact h | (intro) | with_reducible apply Keeps.ite_fst | with_reducible apply shaperBankSet_keeps
    | with_reducible apply Keeps.ite

theorem execPolicerWrite_keeps : ∀ x0 x1 s, KeepsOut s (execPolicerWrite x0 x1 s) := by
  intro x0 x1 s
  unfold execPolicerWrite
  refine runMailbox_keeps fun c t h => ?_
  try dsimp only
  repeat' first
    | with_reducible exact h | (intro) | with_reducible apply Keeps.ite_fst | with_reducible apply policerWrite_keeps
    | with_reducible apply Keeps.ite

theorem execPortSchedRead_keeps : ∀ x0 x1 s, KeepsOut s (execPortSchedRead x0 x1 s) := by
  intro x0 x1 s
  unfold execPortSchedRead
  refine runMailbox_keeps fun c t h => ?_
  try dsimp only
  repeat' first
    | with_reducible exact h | (intro) | with_reducible apply Keeps.ite_fst | with_reducible apply portSchedRead_keeps
    | with_reducible apply Keeps.ite

end Sys2Proof.Machine
end

