-- ==== Sys2Proof/Laws/KeepsIngress.lean ====
section
/-! SUPPORT. What the operations of Machine/Ingress.lean keep. -/

namespace Sys2Proof.Machine

theorem judge_keeps {s0 : State} : ∀ x0 x1 x2 s, Keeps s0 s → Keeps s0 (judge x0 x1 x2 s).2 := by
  intro x0 x1 x2 s h
  unfold judge
  try dsimp only
  repeat' first
    | with_reducible exact h | (intro) | with_reducible apply badContribution_keeps
    | with_reducible apply bumpIn_keeps | with_reducible apply lookup_keeps | with_reducible apply noteAdmit_keeps
    | with_reducible apply police_keeps | with_reducible apply Keeps.ite_snd | with_reducible apply Keeps.ite
    | with_reducible apply Keeps.foldl | refine Keeps.snd (by assumption) ?_ | split

theorem modRx_keeps {s0 : State} : ∀ x0 x1 s, Keeps s0 s → Keeps s0 (modRx x0 x1 s) := by
  intro x0 x1 s h
  unfold modRx
  try dsimp only
  repeat' first
    | with_reducible exact h | (intro) | with_reducible apply modLaneLink_keeps

theorem feed_keeps {s0 : State} : ∀ x0 x1 x2 x3 s, Keeps s0 s → Keeps s0 (feed x0 x1 x2 x3 s) := by
  intro x0 x1 x2 x3 s h
  unfold feed
  try dsimp only
  repeat' first
    | with_reducible exact h | (intro) | with_reducible apply admitPkt_keeps | with_reducible apply growPkt_keeps
    | with_reducible apply modRx_keeps | with_reducible apply passCells_keeps | with_reducible apply Keeps.ite
    | with_reducible apply Keeps.foldl | split

theorem headerRx_keeps {s0 : State} : ∀ x0 x1 x2 s, Keeps s0 s → Keeps s0 (headerRx x0 x1 x2 s) := by
  intro x0 x1 x2 s h
  unfold headerRx
  try dsimp only
  repeat' first
    | with_reducible exact h | (intro) | with_reducible apply dropUnread_keeps | with_reducible apply feed_keeps
    | with_reducible apply judge_keeps | with_reducible apply markParity_keeps
    | with_reducible apply modLaneLink_keeps | with_reducible apply newPid_keeps | with_reducible apply Keeps.ite
    | with_reducible apply Keeps.foldl | refine Keeps.snd (by assumption) ?_ | split

theorem failTransit_keeps {s0 : State} : ∀ x0 x1 s, Keeps s0 s → Keeps s0 (failTransit x0 x1 s) := by
  intro x0 x1 s h
  unfold failTransit
  try dsimp only
  repeat' first
    | with_reducible exact h | (intro) | with_reducible apply discardPkt_keeps | with_reducible apply report_keeps

theorem verified_keeps {s0 : State} : ∀ x0 x1 s, Keeps s0 s → Keeps s0 (verified x0 x1 s) := by
  intro x0 x1 s h
  unfold verified
  try dsimp only
  repeat' first
    | with_reducible exact h | (intro) | with_reducible apply modInPkt_keeps | with_reducible apply modStored_keeps
    | with_reducible apply Keeps.ite | with_reducible apply Keeps.foldl | split | dsimp only | exact rfl
    | exact ⟨rfl, rfl⟩ | exact ⟨rfl, rfl, rfl, rfl, rfl, rfl⟩ | assumption

theorem trailerRx_keeps {s0 : State} : ∀ x0 x1 s, Keeps s0 s → Keeps s0 (trailerRx x0 x1 s) := by
  intro x0 x1 s h
  unfold trailerRx
  try dsimp only
  repeat' first
    | with_reducible exact h | (intro) | with_reducible apply bump_keeps | with_reducible apply bumpBy_keeps
    | with_reducible apply bumpIn_keeps | with_reducible apply discardPkt_keeps
    | with_reducible apply failTransit_keeps | with_reducible apply feed_keeps
    | with_reducible apply modLaneLink_keeps | with_reducible apply modRx_keeps | with_reducible apply teach_keeps
    | with_reducible apply verified_keeps | with_reducible apply Keeps.ite | with_reducible apply Keeps.foldl | split

theorem dropRx_keeps {s0 : State} : ∀ x0 s, Keeps s0 s → Keeps s0 (dropRx x0 s) := by
  intro x0 s h
  unfold dropRx
  try dsimp only
  repeat' first
    | with_reducible exact h | (intro) | with_reducible apply discardPkt_keeps
    | with_reducible apply modLaneLink_keeps | with_reducible apply Keeps.ite | with_reducible apply Keeps.foldl
    | split | dsimp only | exact rfl | exact ⟨rfl, rfl⟩ | exact ⟨rfl, rfl, rfl, rfl, rfl, rfl⟩ | assumption

theorem dropAllRx_keeps {s0 : State} : ∀ x0 s, Keeps s0 s → Keeps s0 (dropAllRx x0 s) := by
  intro x0 s h
  unfold dropAllRx
  try dsimp only
  repeat' first
    | with_reducible exact h | (intro) | with_reducible apply dropRx_keeps | with_reducible apply modLaneLink_keeps

theorem execPacketHeaderRx_keeps : ∀ x0 x1 s, KeepsOut s (execPacketHeaderRx x0 x1 s) := by
  intro x0 x1 s
  unfold execPacketHeaderRx
  have h := Keeps.refl s
  try dsimp only
  repeat' first
    | with_reducible apply KeepsOut.next | with_reducible apply KeepsOut.ite | with_reducible exact KeepsOut.refused
    | with_reducible exact h | (intro) | with_reducible apply headerRx_keeps | with_reducible apply Keeps.ite

theorem execPacketTrailerRx_keeps : ∀ x0 x1 s, KeepsOut s (execPacketTrailerRx x0 x1 s) := by
  intro x0 x1 s
  unfold execPacketTrailerRx
  have h := Keeps.refl s
  try dsimp only
  repeat' first
    | with_reducible apply KeepsOut.next | with_reducible apply KeepsOut.ite | with_reducible exact KeepsOut.refused
    | with_reducible exact h | (intro) | with_reducible apply trailerRx_keeps | with_reducible apply Keeps.ite

end Sys2Proof.Machine
end

