-- ==== Sys2Proof/Laws/KeepsTables.lean ====
section
/-! SUPPORT. What the operations of Machine/Tables.lean keep. -/

namespace Sys2Proof.Machine

theorem clearParity_keeps {s0 : State} : ∀ x0 x1 s, Keeps s0 s → Keeps s0 (clearParity x0 x1 s) := by
  intro x0 x1 s h
  unfold clearParity
  try dsimp only
  repeat' first
    | with_reducible exact h | (intro) | with_reducible apply State.modRouting_keeps

theorem modExpl_keeps {s0 : State} : ∀ x0 x1 s, Keeps s0 s → Keeps s0 (modExpl x0 x1 s) := by
  intro x0 x1 s h
  unfold modExpl
  try dsimp only
  repeat' first
    | with_reducible exact h | (intro) | with_reducible apply State.modRouting_keeps

theorem modPods_keeps {s0 : State} : ∀ x0 x1 s, Keeps s0 s → Keeps s0 (modPods x0 x1 s) := by
  intro x0 x1 s h
  unfold modPods
  try dsimp only
  repeat' first
    | with_reducible exact h | (intro) | with_reducible apply State.modRouting_keeps

theorem routeWrite_keeps {s0 : State} : ∀ x0 x1 s, Keeps s0 s → Keeps s0 (routeWrite x0 x1 s).1 := by
  intro x0 x1 s h
  unfold routeWrite
  try dsimp only
  repeat' first
    | with_reducible exact h | (intro) | with_reducible apply clearParity_keeps | with_reducible apply cmdDetach_keeps
    | with_reducible apply cmdRefuse_keeps | with_reducible apply modExpl_keeps | with_reducible apply modPods_keeps
    | with_reducible apply Keeps.ite_fst | with_reducible apply Keeps.ite | with_reducible apply Keeps.foldl
    | refine Keeps.fst (by assumption) ?_ | split

theorem routeRead_keeps {s0 : State} : ∀ x0 s, Keeps s0 s → Keeps s0 (routeRead x0 s).1 := by
  intro x0 s h
  unfold routeRead
  try dsimp only
  repeat' first
    | with_reducible exact h | (intro) | with_reducible apply cmdOk_keeps | with_reducible apply cmdRefuse_keeps
    | with_reducible apply hostWrite_keeps | with_reducible apply Keeps.ite_fst

theorem endAll_keeps {s0 : State} : ∀ x0 s, Keeps s0 s → Keeps s0 (endAll x0 s) := by
  intro x0 s h
  unfold endAll
  try dsimp only
  repeat' first
    | with_reducible exact h | (intro) | with_reducible apply endWith_keeps | with_reducible apply Keeps.ite
    | with_reducible apply Keeps.foldl | split | dsimp only | exact rfl | exact ⟨rfl, rfl⟩
    | exact ⟨rfl, rfl, rfl, rfl, rfl, rfl⟩ | assumption

theorem routeSeal_keeps {s0 : State} : ∀ s, Keeps s0 s → Keeps s0 (routeSeal s).1 := by
  intro s h
  unfold routeSeal
  try dsimp only
  repeat' first
    | with_reducible exact h | (intro) | with_reducible apply State.modRouting_keeps
    | with_reducible apply cmdOkWith_keeps | with_reducible apply cmdRefuse_keeps | with_reducible apply endAll_keeps
    | with_reducible apply Keeps.ite_fst | with_reducible apply Keeps.ite | with_reducible apply Keeps.foldl
    | refine Keeps.fst (by assumption) ?_ | split

theorem routeUnseal_keeps {s0 : State} : ∀ s, Keeps s0 s → Keeps s0 (routeUnseal s).1 := by
  intro s h
  unfold routeUnseal
  try dsimp only
  repeat' first
    | with_reducible exact h | (intro) | with_reducible apply State.modRouting_keeps
    | with_reducible apply cmdOk_keeps | with_reducible apply cmdRefuse_keeps | with_reducible apply Keeps.ite_fst

theorem flip_keeps {s0 : State} : ∀ x0 s, Keeps s0 s → Keeps s0 (flip x0 s) := by
  intro x0 s h
  unfold flip
  try dsimp only
  repeat' first
    | with_reducible exact h | (intro) | with_reducible apply State.modRouting_keeps | with_reducible apply bump_keeps
    | with_reducible apply captureAt_keeps

theorem routeCommit_keeps {s0 : State} : ∀ s, Keeps s0 s → Keeps s0 (routeCommit s).1 := by
  intro s h
  unfold routeCommit
  try dsimp only
  repeat' first
    | with_reducible exact h | (intro) | with_reducible apply cmdOkWith_keeps | with_reducible apply cmdRefuse_keeps
    | with_reducible apply flip_keeps | with_reducible apply Keeps.ite_fst

theorem routeConfig_keeps {s0 : State} : ∀ x0 s, Keeps s0 s → Keeps s0 (routeConfig x0 s).1 := by
  intro x0 s h
  unfold routeConfig
  try dsimp only
  repeat' first
    | with_reducible exact h | (intro) | with_reducible apply State.modRouting_keeps
    | with_reducible apply cmdOk_keeps | with_reducible apply cmdRefuse_keeps | with_reducible apply Keeps.ite_fst

theorem drainWindowEnd_keeps {s0 : State} : ∀ s, Keeps s0 s → Keeps s0 (drainWindowEnd s) := by
  intro s h
  unfold drainWindowEnd
  try dsimp only
  repeat' first
    | with_reducible exact h | (intro) | with_reducible apply State.modRouting_keeps | with_reducible apply Keeps.ite

theorem clearEpParity_keeps {s0 : State} : ∀ x0 x1 s, Keeps s0 s → Keeps s0 (clearEpParity x0 x1 s) := by
  intro x0 x1 s h
  unfold clearEpParity
  try dsimp only
  repeat' first
    | with_reducible exact h | (intro) | with_reducible apply unmark_keeps | with_reducible apply Keeps.ite
    | with_reducible apply Keeps.foldl | split | dsimp only | exact rfl | exact ⟨rfl, rfl⟩
    | exact ⟨rfl, rfl, rfl, rfl, rfl, rfl⟩ | assumption

theorem endpointWrite_keeps {s0 : State} : ∀ x0 x1 s, Keeps s0 s → Keeps s0 (endpointWrite x0 x1 s).1 := by
  intro x0 x1 s h
  unfold endpointWrite
  try dsimp only
  repeat' first
    | with_reducible exact h | (intro) | with_reducible apply State.modRouting_keeps
    | with_reducible apply clearEpParity_keeps | with_reducible apply cmdDetach_keeps
    | with_reducible apply cmdRefuse_keeps | with_reducible apply Keeps.ite_fst | with_reducible apply Keeps.ite
    | with_reducible apply Keeps.foldl | refine Keeps.fst (by assumption) ?_ | split

theorem flushLearned_keeps {s0 : State} : ∀ x0 s, Keeps s0 s → Keeps s0 (flushLearned x0 s) := by
  intro x0 s h
  unfold flushLearned
  try dsimp only
  repeat' first
    | with_reducible exact h | (intro) | with_reducible apply State.modRouting_keeps

theorem endpointFlush_keeps {s0 : State} : ∀ x0 s, Keeps s0 s → Keeps s0 (endpointFlush x0 s).1 := by
  intro x0 s h
  unfold endpointFlush
  try dsimp only
  repeat' first
    | with_reducible exact h | (intro) | with_reducible apply cmdOk_keeps | with_reducible apply cmdRefuse_keeps
    | with_reducible apply flushLearned_keeps | with_reducible apply Keeps.ite_fst | with_reducible apply Keeps.ite
    | with_reducible apply Keeps.foldl | refine Keeps.fst (by assumption) ?_ | split

theorem endpointRead_keeps {s0 : State} : ∀ x0 s, Keeps s0 s → Keeps s0 (endpointRead x0 s).1 := by
  intro x0 s h
  unfold endpointRead
  try dsimp only
  repeat' first
    | with_reducible exact h | (intro) | with_reducible apply cmdOk_keeps | with_reducible apply cmdRefuse_keeps
    | with_reducible apply hostWrite_keeps | with_reducible apply Keeps.ite_fst

theorem bundleWrite_keeps {s0 : State} : ∀ x0 s, Keeps s0 s → Keeps s0 (bundleWrite x0 s).1 := by
  intro x0 s h
  unfold bundleWrite
  try dsimp only
  repeat' first
    | with_reducible exact h | (intro) | with_reducible apply State.modRouting_keeps
    | with_reducible apply clearParity_keeps | with_reducible apply cmdOk_keeps | with_reducible apply cmdRefuse_keeps
    | with_reducible apply joinSlots_keeps | with_reducible apply Keeps.ite_fst | with_reducible apply Keeps.ite
    | with_reducible apply Keeps.foldl | refine Keeps.fst (by assumption) ?_ | split

theorem treeWrite_keeps {s0 : State} : ∀ x0 s, Keeps s0 s → Keeps s0 (treeWrite x0 s).1 := by
  intro x0 s h
  unfold treeWrite
  try dsimp only
  repeat' first
    | with_reducible exact h | (intro) | with_reducible apply State.modRouting_keeps
    | with_reducible apply clearParity_keeps | with_reducible apply cmdOk_keeps | with_reducible apply cmdRefuse_keeps
    | with_reducible apply Keeps.ite_fst | with_reducible apply Keeps.ite | with_reducible apply Keeps.foldl
    | refine Keeps.fst (by assumption) ?_ | split

theorem learnUpdate_keeps {s0 : State} : ∀ x0 s, Keeps s0 s → Keeps s0 (learnUpdate x0 s) := by
  intro x0 s h
  unfold learnUpdate
  try dsimp only
  repeat' first
    | with_reducible exact h | (intro) | with_reducible apply learn_keeps | with_reducible apply setLearnQ_keeps
    | with_reducible apply Keeps.ite | with_reducible apply Keeps.foldl | split

theorem ageingVisit_keeps {s0 : State} : ∀ x0 s, Keeps s0 s → Keeps s0 (ageingVisit x0 s) := by
  intro x0 s h
  unfold ageingVisit
  try dsimp only
  repeat' first
    | with_reducible exact h | (intro) | with_reducible apply bumpBy_keeps | with_reducible apply modEp_keeps
    | with_reducible apply Keeps.ite

theorem invalidate_keeps {s0 : State} : ∀ x0 x1 x2 s, Keeps s0 s → Keeps s0 (invalidate x0 x1 x2 s) := by
  intro x0 x1 x2 s h
  unfold invalidate
  try dsimp only
  repeat' first
    | with_reducible exact h | (intro) | with_reducible apply State.modRouting_keeps
    | with_reducible apply modEp_keeps | with_reducible apply modExpl_keeps | with_reducible apply modPods_keeps
    | with_reducible apply Keeps.ite | with_reducible apply Keeps.foldl | split

theorem parityRepair_keeps {s0 : State} : ∀ x0 x1 x2 x3 s, Keeps s0 s → Keeps s0 (parityRepair x0 x1 x2 x3 s) := by
  intro x0 x1 x2 x3 s h
  unfold parityRepair
  try dsimp only
  repeat' first
    | with_reducible exact h | (intro) | with_reducible apply State.modRouting_keeps | with_reducible apply bump_keeps
    | with_reducible apply invalidate_keeps | with_reducible apply putEp_keeps | with_reducible apply report_keeps
    | with_reducible apply unmark_keeps | with_reducible apply Keeps.ite | with_reducible apply Keeps.foldl | split
    | dsimp only | exact rfl | exact ⟨rfl, rfl⟩ | exact ⟨rfl, rfl, rfl, rfl, rfl, rfl⟩ | assumption

theorem parityStep_keeps {s0 : State} : ∀ x0 x1 x2 x3 s, Keeps s0 s → Keeps s0 (parityStep x0 x1 x2 x3 s) := by
  intro x0 x1 x2 x3 s h
  unfold parityStep
  try dsimp only
  repeat' first
    | with_reducible exact h | (intro) | with_reducible apply markParity_keeps
    | with_reducible apply parityRepair_keeps | with_reducible apply Keeps.ite | with_reducible apply Keeps.foldl
    | split

theorem endOldest_keeps {s0 : State} : ∀ x0 x1 x2 s, Keeps s0 s → Keeps s0 (endOldest x0 x1 x2 s) := by
  intro x0 x1 x2 s h
  unfold endOldest
  try dsimp only
  repeat' first
    | with_reducible exact h | (intro) | with_reducible apply endWith_keeps | with_reducible apply Keeps.ite
    | with_reducible apply Keeps.foldl | split

theorem execRouteWrite_keeps : ∀ x0 x1 s, KeepsOut s (execRouteWrite x0 x1 s) := by
  intro x0 x1 s
  unfold execRouteWrite
  refine runMailbox_keeps fun c t h => ?_
  try dsimp only
  repeat' first
    | with_reducible exact h | (intro) | with_reducible apply Keeps.ite_fst | with_reducible apply routeWrite_keeps
    | with_reducible apply Keeps.ite

theorem execRouteRead_keeps : ∀ x0 x1 s, KeepsOut s (execRouteRead x0 x1 s) := by
  intro x0 x1 s
  unfold execRouteRead
  refine runMailbox_keeps fun c t h => ?_
  try dsimp only
  repeat' first
    | with_reducible exact h | (intro) | with_reducible apply Keeps.ite_fst | with_reducible apply routeRead_keeps
    | with_reducible apply Keeps.ite

theorem execRouteSeal_keeps : ∀ x0 x1 s, KeepsOut s (execRouteSeal x0 x1 s) := by
  intro x0 x1 s
  unfold execRouteSeal
  refine runMailbox_keeps fun c t h => ?_
  try dsimp only
  repeat' first
    | with_reducible exact h | (intro) | with_reducible apply Keeps.ite_fst | with_reducible apply routeSeal_keeps
    | with_reducible apply Keeps.ite

theorem execRouteUnseal_keeps : ∀ x0 x1 s, KeepsOut s (execRouteUnseal x0 x1 s) := by
  intro x0 x1 s
  unfold execRouteUnseal
  refine runMailbox_keeps fun c t h => ?_
  try dsimp only
  repeat' first
    | with_reducible exact h | (intro) | with_reducible apply Keeps.ite_fst | with_reducible apply routeUnseal_keeps
    | with_reducible apply Keeps.ite

theorem execRouteCommit_keeps : ∀ x0 x1 s, KeepsOut s (execRouteCommit x0 x1 s) := by
  intro x0 x1 s
  unfold execRouteCommit
  refine runMailbox_keeps fun c t h => ?_
  try dsimp only
  repeat' first
    | with_reducible exact h | (intro) | with_reducible apply Keeps.ite_fst | with_reducible apply routeCommit_keeps
    | with_reducible apply Keeps.ite

theorem execRouteConfig_keeps : ∀ x0 x1 s, KeepsOut s (execRouteConfig x0 x1 s) := by
  intro x0 x1 s
  unfold execRouteConfig
  refine runMailbox_keeps fun c t h => ?_
  try dsimp only
  repeat' first
    | with_reducible exact h | (intro) | with_reducible apply Keeps.ite_fst | with_reducible apply routeConfig_keeps
    | with_reducible apply Keeps.ite

theorem execEndpointWrite_keeps : ∀ x0 x1 s, KeepsOut s (execEndpointWrite x0 x1 s) := by
  intro x0 x1 s
  unfold execEndpointWrite
  refine runMailbox_keeps fun c t h => ?_
  try dsimp only
  repeat' first
    | with_reducible exact h | (intro) | with_reducible apply Keeps.ite_fst | with_reducible apply endpointWrite_keeps
    | with_reducible apply Keeps.ite

theorem execEndpointFlush_keeps : ∀ x0 x1 s, KeepsOut s (execEndpointFlush x0 x1 s) := by
  intro x0 x1 s
  unfold execEndpointFlush
  refine runMailbox_keeps fun c t h => ?_
  try dsimp only
  repeat' first
    | with_reducible exact h | (intro) | with_reducible apply Keeps.ite_fst | with_reducible apply endpointFlush_keeps
    | with_reducible apply Keeps.ite

theorem execEndpointRead_keeps : ∀ x0 x1 s, KeepsOut s (execEndpointRead x0 x1 s) := by
  intro x0 x1 s
  unfold execEndpointRead
  refine runMailbox_keeps fun c t h => ?_
  try dsimp only
  repeat' first
    | with_reducible exact h | (intro) | with_reducible apply Keeps.ite_fst | with_reducible apply endpointRead_keeps
    | with_reducible apply Keeps.ite

theorem execBundleWrite_keeps : ∀ x0 x1 s, KeepsOut s (execBundleWrite x0 x1 s) := by
  intro x0 x1 s
  unfold execBundleWrite
  refine runMailbox_keeps fun c t h => ?_
  try dsimp only
  repeat' first
    | with_reducible exact h | (intro) | with_reducible apply Keeps.ite_fst | with_reducible apply bundleWrite_keeps
    | with_reducible apply Keeps.ite

theorem execTreeWrite_keeps : ∀ x0 x1 s, KeepsOut s (execTreeWrite x0 x1 s) := by
  intro x0 x1 s
  unfold execTreeWrite
  refine runMailbox_keeps fun c t h => ?_
  try dsimp only
  repeat' first
    | with_reducible exact h | (intro) | with_reducible apply Keeps.ite_fst | with_reducible apply treeWrite_keeps
    | with_reducible apply Keeps.ite

theorem execLearnUpdate_keeps : ∀ x0 s, KeepsOut s (execLearnUpdate x0 s) := by
  intro x0 s
  unfold execLearnUpdate
  have h := Keeps.refl s
  try dsimp only
  repeat' first
    | with_reducible apply KeepsOut.next | with_reducible apply KeepsOut.ite | with_reducible exact KeepsOut.refused
    | with_reducible exact h | (intro) | with_reducible apply learnUpdate_keeps | with_reducible apply Keeps.ite

theorem execAgeingVisit_keeps : ∀ x0 s, KeepsOut s (execAgeingVisit x0 s) := by
  intro x0 s
  unfold execAgeingVisit
  have h := Keeps.refl s
  try dsimp only
  repeat' first
    | with_reducible apply KeepsOut.next | with_reducible apply KeepsOut.ite | with_reducible exact KeepsOut.refused
    | with_reducible exact h | (intro) | with_reducible apply ageingVisit_keeps | with_reducible apply Keeps.ite

theorem execTableParityRepair_keeps : ∀ x0 x1 x2 x3 s, KeepsOut s (execTableParityRepair x0 x1 x2 x3 s) := by
  intro x0 x1 x2 x3 s
  unfold execTableParityRepair
  have h := Keeps.refl s
  try dsimp only
  repeat' first
    | with_reducible apply KeepsOut.next | with_reducible apply KeepsOut.ite | with_reducible exact KeepsOut.refused
    | with_reducible exact h | (intro) | with_reducible apply parityStep_keeps | with_reducible apply Keeps.ite

theorem execDrainWindowEnd_keeps : ∀ s, KeepsOut s (execDrainWindowEnd s) := by
  intro s
  unfold execDrainWindowEnd
  have h := Keeps.refl s
  try dsimp only
  repeat' first
    | with_reducible apply KeepsOut.next | with_reducible apply KeepsOut.ite | with_reducible exact KeepsOut.refused
    | with_reducible exact h | (intro) | with_reducible apply drainWindowEnd_keeps | with_reducible apply Keeps.ite

theorem execRouteWriteDone_keeps : ∀ s, KeepsOut s (execRouteWriteDone s) := by
  intro s
  unfold execRouteWriteDone
  have h := Keeps.refl s
  try dsimp only
  repeat' first
    | with_reducible apply KeepsOut.next | with_reducible apply KeepsOut.ite | with_reducible exact KeepsOut.refused
    | with_reducible exact h | (intro) | with_reducible apply endOldest_keeps | with_reducible apply Keeps.ite

theorem execEndpointWriteDone_keeps : ∀ s, KeepsOut s (execEndpointWriteDone s) := by
  intro s
  unfold execEndpointWriteDone
  have h := Keeps.refl s
  try dsimp only
  repeat' first
    | with_reducible apply KeepsOut.next | with_reducible apply KeepsOut.ite | with_reducible exact KeepsOut.refused
    | with_reducible exact h | (intro) | with_reducible apply endOldest_keeps | with_reducible apply Keeps.ite

end Sys2Proof.Machine
end

