-- ==== Sys2Proof/Laws/KeepsThreshing.lean ====
section
/-! SUPPORT. What the operations of Machine/Threshing.lean keep. -/

namespace Sys2Proof.Machine

theorem faultFree_keeps {s0 : State} : ∀ x0 s, Keeps s0 s → Keeps s0 (faultFree x0 s) := by
  intro x0 s h
  unfold faultFree
  try dsimp only
  repeat' first
    | with_reducible exact h | (intro) | with_reducible apply fenceUnit_keeps
    | with_reducible apply residueCount_keeps | with_reducible apply Keeps.ite

theorem residueAdd_keeps {s0 : State} : ∀ x0 x1 x2 x3 s, Keeps s0 s → Keeps s0 (residueAdd x0 x1 x2 x3 s) := by
  intro x0 x1 x2 x3 s h
  unfold residueAdd
  try dsimp only
  repeat' first
    | with_reducible exact h | (intro) | with_reducible apply redoIndex_keeps | with_reducible apply Keeps.ite
    | with_reducible apply Keeps.foldl | split

theorem residueWinnow_keeps {s0 : State} : ∀ x0 x1 x2 s, Keeps s0 s → Keeps s0 (residueWinnow x0 x1 x2 s) := by
  intro x0 x1 x2 s h
  unfold residueWinnow
  try dsimp only
  repeat' first
    | with_reducible exact h | (intro) | with_reducible apply bumpColl_keeps | with_reducible apply faultOn_keeps
    | with_reducible apply modOpen_keeps | with_reducible apply proceed_keeps | with_reducible apply Keeps.ite
    | with_reducible apply Keeps.foldl | split

theorem tuStatusRead_keeps {s0 : State} : ∀ x0 s, Keeps s0 s → Keeps s0 (tuStatusRead x0 s).1 := by
  intro x0 s h
  unfold tuStatusRead
  try dsimp only
  repeat' first
    | with_reducible exact h | (intro) | with_reducible apply cmdOk_keeps | with_reducible apply cmdRefuse_keeps
    | with_reducible apply hostWrite_keeps | with_reducible apply Keeps.ite_fst

theorem tuFence_keeps {s0 : State} : ∀ x0 s, Keeps s0 s → Keeps s0 (tuFence x0 s).1 := by
  intro x0 s h
  unfold tuFence
  try dsimp only
  repeat' first
    | with_reducible exact h | (intro) | with_reducible apply cmdOk_keeps | with_reducible apply cmdRefuse_keeps
    | with_reducible apply fenceUnit_keeps | with_reducible apply settleFences_keeps
    | with_reducible apply settleWinnow_keeps | with_reducible apply Keeps.ite_fst

theorem tuUnfence_keeps {s0 : State} : ∀ x0 x1 s, Keeps s0 s → Keeps s0 (tuUnfence x0 x1 s).1 := by
  intro x0 x1 s h
  unfold tuUnfence
  try dsimp only
  repeat' first
    | with_reducible exact h | (intro) | with_reducible apply addDetached_keeps | with_reducible apply cmdOk_keeps
    | with_reducible apply cmdRefuse_keeps | with_reducible apply modUnit_keeps | with_reducible apply Keeps.ite_fst

theorem selftestDone_keeps {s0 : State} : ∀ x0 x1 s, Keeps s0 s → Keeps s0 (selftestDone x0 x1 s) := by
  intro x0 x1 s h
  unfold selftestDone
  try dsimp only
  repeat' first
    | with_reducible exact h | (intro) | with_reducible apply endWith_keeps | with_reducible apply modUnit_keeps
    | with_reducible apply Keeps.ite | with_reducible apply Keeps.foldl | split

theorem groupWrite_keeps {s0 : State} : ∀ x0 s, Keeps s0 s → Keeps s0 (groupWrite x0 s).1 := by
  intro x0 s h
  unfold groupWrite
  try dsimp only
  repeat' first
    | with_reducible exact h | (intro) | with_reducible apply State.modThresh_keeps | with_reducible apply cmdOk_keeps
    | with_reducible apply cmdRefuse_keeps | with_reducible apply Keeps.ite_fst

theorem groupRead_keeps {s0 : State} : ∀ x0 s, Keeps s0 s → Keeps s0 (groupRead x0 s).1 := by
  intro x0 s h
  unfold groupRead
  try dsimp only
  repeat' first
    | with_reducible exact h | (intro) | with_reducible apply cmdOk_keeps | with_reducible apply cmdRefuse_keeps
    | with_reducible apply hostWrite_keeps | with_reducible apply Keeps.ite_fst

theorem harvestRun_keeps {s0 : State} : ∀ x0 x1 s, Keeps s0 s → Keeps s0 (harvestRun x0 x1 s).1 := by
  intro x0 x1 s h
  unfold harvestRun
  try dsimp only
  repeat' first
    | with_reducible exact h | (intro) | with_reducible apply State.modThresh_keeps
    | with_reducible apply cmdDetach_keeps | with_reducible apply cmdRefuse_keeps | with_reducible apply Keeps.ite_fst

theorem sendOutput_keeps {s0 : State} : ∀ x0 x1 x2 x3 s, Keeps s0 s → Keeps s0 (sendOutput x0 x1 x2 x3 s) := by
  intro x0 x1 x2 x3 s h
  unfold sendOutput
  try dsimp only
  repeat' first
    | with_reducible exact h | (intro) | with_reducible apply originate_keeps | with_reducible apply Keeps.ite
    | with_reducible apply Keeps.foldl | split | dsimp only | exact rfl | exact ⟨rfl, rfl⟩
    | exact ⟨rfl, rfl, rfl, rfl, rfl, rfl⟩ | assumption

theorem sendHeld_keeps {s0 : State} : ∀ x0 s, Keeps s0 s → Keeps s0 (sendHeld x0 s) := by
  intro x0 s h
  unfold sendHeld
  try dsimp only
  repeat' first
    | with_reducible exact h | (intro) | with_reducible apply cacheRange_keeps | with_reducible apply sendOutput_keeps
    | with_reducible apply Keeps.ite | with_reducible apply Keeps.foldl | split | dsimp only | exact rfl
    | exact ⟨rfl, rfl⟩ | exact ⟨rfl, rfl, rfl, rfl, rfl, rfl⟩ | assumption

theorem releaseHeld_keeps {s0 : State} : ∀ s, Keeps s0 s → Keeps s0 (releaseHeld s) := by
  intro s h
  unfold releaseHeld
  try dsimp only
  repeat' first
    | with_reducible exact h | (intro) | with_reducible apply proceed_keeps | with_reducible apply Keeps.ite
    | with_reducible apply Keeps.foldl | split | dsimp only | exact rfl | exact ⟨rfl, rfl⟩
    | exact ⟨rfl, rfl, rfl, rfl, rfl, rfl⟩ | assumption

theorem endHarvest_keeps {s0 : State} : ∀ x0 x1 x2 s, Keeps s0 s → Keeps s0 (endHarvest x0 x1 x2 s) := by
  intro x0 x1 x2 s h
  unfold endHarvest
  try dsimp only
  repeat' first
    | with_reducible exact h | (intro) | with_reducible apply State.modThresh_keeps
    | with_reducible apply State.tookFree_keeps | with_reducible apply capture_keeps
    | with_reducible apply endDetached_keeps | with_reducible apply releaseHeld_keeps | with_reducible apply Keeps.ite
    | with_reducible apply Keeps.foldl | split

theorem harvestAbort_keeps {s0 : State} : ∀ x0 s, Keeps s0 s → Keeps s0 (harvestAbort x0 s).1 := by
  intro x0 s h
  unfold harvestAbort
  try dsimp only
  repeat' first
    | with_reducible exact h | (intro) | with_reducible apply cmdOk_keeps | with_reducible apply cmdRefuse_keeps
    | with_reducible apply endHarvest_keeps | with_reducible apply Keeps.ite_fst | with_reducible apply Keeps.ite
    | with_reducible apply Keeps.foldl | refine Keeps.fst (by assumption) ?_ | split

theorem storePowers_keeps {s0 : State} : ∀ x0 x1 s, Keeps s0 s → Keeps s0 (storePowers x0 x1 s) := by
  intro x0 x1 s h
  unfold storePowers
  try dsimp only
  repeat' first
    | with_reducible exact h | (intro) | with_reducible apply State.modThresh_keeps | with_reducible apply Keeps.ite
    | with_reducible apply Keeps.foldl | split

theorem cacheAll_keeps {s0 : State} : ∀ x0 x1 s, Keeps s0 s → Keeps s0 (cacheAll x0 x1 s) := by
  intro x0 x1 s h
  unfold cacheAll
  try dsimp only
  repeat' first
    | with_reducible exact h | (intro) | with_reducible apply cacheRange_keeps | with_reducible apply Keeps.ite
    | with_reducible apply Keeps.foldl | split | dsimp only | exact rfl | exact ⟨rfl, rfl⟩
    | exact ⟨rfl, rfl, rfl, rfl, rfl, rfl⟩ | assumption

theorem writeChunk_keeps {s0 : State} : ∀ x0 x1 x2 x3 x4 s, Keeps s0 s → Keeps s0 (writeChunk x0 x1 x2 x3 x4 s) := by
  intro x0 x1 x2 x3 x4 s h
  unfold writeChunk
  try dsimp only
  repeat' first
    | with_reducible exact h | (intro) | with_reducible apply State.modThresh_keeps | with_reducible apply bump_keeps
    | with_reducible apply bumpBy_keeps | with_reducible apply cacheAll_keeps | with_reducible apply daWrite_keeps
    | with_reducible apply endHarvest_keeps | with_reducible apply sendOutput_keeps
    | with_reducible apply storePowers_keeps | with_reducible apply Keeps.ite

theorem harvestChunk_keeps {s0 : State} : ∀ x0 x1 x2 x3 s, Keeps s0 s → Keeps s0 (harvestChunk x0 x1 x2 x3 s) := by
  intro x0 x1 x2 x3 s h
  unfold harvestChunk
  try dsimp only
  repeat' first
    | with_reducible exact h | (intro) | with_reducible apply State.tookFree_keeps
    | with_reducible apply bumpUnit_keeps | with_reducible apply endHarvest_keeps
    | with_reducible apply fenceUnit_keeps | with_reducible apply memUE_keeps | with_reducible apply modUnit_keeps
    | with_reducible apply report_keeps | with_reducible apply settleFences_keeps
    | with_reducible apply settleWinnow_keeps | with_reducible apply writeChunk_keeps | with_reducible apply Keeps.ite
    | with_reducible apply Keeps.foldl | split | dsimp only | exact rfl | exact ⟨rfl, rfl⟩
    | exact ⟨rfl, rfl, rfl, rfl, rfl, rfl⟩ | assumption

theorem faultWork_keeps {s0 : State} : ∀ x0 x1 s, Keeps s0 s → Keeps s0 (faultWork x0 x1 s).2 := by
  intro x0 x1 s h
  unfold faultWork
  try dsimp only
  repeat' first
    | with_reducible exact h | (intro) | with_reducible apply faultFree_keeps
    | with_reducible apply settleFences_keeps | with_reducible apply Keeps.ite_snd | with_reducible apply Keeps.ite
    | with_reducible apply Keeps.foldl | split

theorem residueChunk_keeps {s0 : State} : ∀ x0 x1 x2 x3 x4 s, Keeps s0 s → Keeps s0 (residueChunk x0 x1 x2 x3 x4 s) := by
  intro x0 x1 x2 x3 x4 s h
  unfold residueChunk
  try dsimp only
  repeat' first
    | with_reducible exact h | (intro) | with_reducible apply State.modThresh_keeps
    | with_reducible apply faultWork_keeps | with_reducible apply Keeps.ite | with_reducible apply Keeps.foldl
    | refine Keeps.snd (by assumption) ?_ | split

theorem residueNorm_keeps {s0 : State} : ∀ x0 x1 x2 s, Keeps s0 s → Keeps s0 (residueNorm x0 x1 x2 s) := by
  intro x0 x1 x2 s h
  unfold residueNorm
  try dsimp only
  repeat' first
    | with_reducible exact h | (intro) | with_reducible apply faultWork_keeps | with_reducible apply Keeps.ite

theorem residueFault_keeps {s0 : State} : ∀ x0 x1 x2 s, Keeps s0 s → Keeps s0 (residueFault x0 x1 x2 s) := by
  intro x0 x1 x2 s h
  unfold residueFault
  try dsimp only
  repeat' first
    | with_reducible exact h | (intro) | with_reducible apply residueAdd_keeps
    | with_reducible apply residueChunk_keeps | with_reducible apply residueIndex_keeps
    | with_reducible apply residueNorm_keeps | with_reducible apply residueWinnow_keeps
    | with_reducible apply settleWinnow_keeps | with_reducible apply Keeps.ite | with_reducible apply Keeps.foldl
    | split

theorem normPass_keeps {s0 : State} : ∀ x0 x1 s, Keeps s0 s → Keeps s0 (normPass x0 x1 s).1 := by
  intro x0 x1 s h
  unfold normPass
  try dsimp only
  repeat' first
    | with_reducible exact h | (intro) | with_reducible apply State.modThresh_keeps
    | with_reducible apply cmdDetach_keeps | with_reducible apply cmdRefuse_keeps | with_reducible apply Keeps.ite_fst

theorem endNorm_keeps {s0 : State} : ∀ x0 x1 s, Keeps s0 s → Keeps s0 (endNorm x0 x1 s) := by
  intro x0 x1 s h
  unfold endNorm
  try dsimp only
  repeat' first
    | with_reducible exact h | (intro) | with_reducible apply State.modThresh_keeps
    | with_reducible apply endDetached_keeps

theorem normDone_keeps {s0 : State} : ∀ x0 x1 s, Keeps s0 s → Keeps s0 (normDone x0 x1 s) := by
  intro x0 x1 s h
  unfold normDone
  try dsimp only
  repeat' first
    | with_reducible exact h | (intro) | with_reducible apply cacheAll_keeps | with_reducible apply endNorm_keeps
    | with_reducible apply memUE_keeps | with_reducible apply Keeps.ite | with_reducible apply Keeps.foldl | split

theorem execResidueFault_keeps : ∀ x0 x1 x2 s, KeepsOut s (execResidueFault x0 x1 x2 s) := by
  intro x0 x1 x2 s
  unfold execResidueFault
  have h := Keeps.refl s
  try dsimp only
  repeat' first
    | with_reducible apply KeepsOut.next | with_reducible apply KeepsOut.ite | with_reducible exact KeepsOut.refused
    | with_reducible exact h | (intro) | with_reducible apply residueFault_keeps | with_reducible apply Keeps.ite

theorem execTuStatusRead_keeps : ∀ x0 x1 s, KeepsOut s (execTuStatusRead x0 x1 s) := by
  intro x0 x1 s
  unfold execTuStatusRead
  refine runMailbox_keeps fun c t h => ?_
  try dsimp only
  repeat' first
    | with_reducible exact h | (intro) | with_reducible apply Keeps.ite_fst | with_reducible apply tuStatusRead_keeps
    | with_reducible apply Keeps.ite

theorem execTuFence_keeps : ∀ x0 x1 s, KeepsOut s (execTuFence x0 x1 s) := by
  intro x0 x1 s
  unfold execTuFence
  refine runMailbox_keeps fun c t h => ?_
  try dsimp only
  repeat' first
    | with_reducible exact h | (intro) | with_reducible apply Keeps.ite_fst | with_reducible apply tuFence_keeps
    | with_reducible apply Keeps.ite

theorem execTuUnfence_keeps : ∀ x0 x1 s, KeepsOut s (execTuUnfence x0 x1 s) := by
  intro x0 x1 s
  unfold execTuUnfence
  refine runMailbox_keeps fun c t h => ?_
  try dsimp only
  repeat' first
    | with_reducible exact h | (intro) | with_reducible apply Keeps.ite_fst | with_reducible apply tuUnfence_keeps
    | with_reducible apply Keeps.ite

theorem execUnitSelftestDone_keeps : ∀ x0 x1 s, KeepsOut s (execUnitSelftestDone x0 x1 s) := by
  intro x0 x1 s
  unfold execUnitSelftestDone
  have h := Keeps.refl s
  try dsimp only
  repeat' first
    | with_reducible apply KeepsOut.next | with_reducible apply KeepsOut.ite | with_reducible exact KeepsOut.refused
    | with_reducible exact h | (intro) | with_reducible apply selftestDone_keeps | with_reducible apply Keeps.ite

theorem execHarvestGroupWrite_keeps : ∀ x0 x1 s, KeepsOut s (execHarvestGroupWrite x0 x1 s) := by
  intro x0 x1 s
  unfold execHarvestGroupWrite
  refine runMailbox_keeps fun c t h => ?_
  try dsimp only
  repeat' first
    | with_reducible exact h | (intro) | with_reducible apply Keeps.ite_fst | with_reducible apply groupWrite_keeps
    | with_reducible apply Keeps.ite

theorem execHarvestGroupRead_keeps : ∀ x0 x1 s, KeepsOut s (execHarvestGroupRead x0 x1 s) := by
  intro x0 x1 s
  unfold execHarvestGroupRead
  refine runMailbox_keeps fun c t h => ?_
  try dsimp only
  repeat' first
    | with_reducible exact h | (intro) | with_reducible apply Keeps.ite_fst | with_reducible apply groupRead_keeps
    | with_reducible apply Keeps.ite

theorem execHarvestRun_keeps : ∀ x0 x1 s, KeepsOut s (execHarvestRun x0 x1 s) := by
  intro x0 x1 s
  unfold execHarvestRun
  refine runMailbox_keeps fun c t h => ?_
  try dsimp only
  repeat' first
    | with_reducible exact h | (intro) | with_reducible apply Keeps.ite_fst | with_reducible apply harvestRun_keeps
    | with_reducible apply Keeps.ite

theorem execHarvestAbort_keeps : ∀ x0 x1 s, KeepsOut s (execHarvestAbort x0 x1 s) := by
  intro x0 x1 s
  unfold execHarvestAbort
  refine runMailbox_keeps fun c t h => ?_
  try dsimp only
  repeat' first
    | with_reducible exact h | (intro) | with_reducible apply Keeps.ite_fst | with_reducible apply harvestAbort_keeps
    | with_reducible apply Keeps.ite

theorem execNormPass_keeps : ∀ x0 x1 s, KeepsOut s (execNormPass x0 x1 s) := by
  intro x0 x1 s
  unfold execNormPass
  refine runMailbox_keeps fun c t h => ?_
  try dsimp only
  repeat' first
    | with_reducible exact h | (intro) | with_reducible apply Keeps.ite_fst | with_reducible apply normPass_keeps
    | with_reducible apply Keeps.ite

theorem execHarvestChunk_keeps : ∀ x0 x1 x2 x3 s, KeepsOut s (execHarvestChunk x0 x1 x2 x3 s) := by
  intro x0 x1 x2 x3 s
  unfold execHarvestChunk
  have h := Keeps.refl s
  try dsimp only
  repeat' first
    | with_reducible apply KeepsOut.next | with_reducible apply KeepsOut.ite | with_reducible exact KeepsOut.refused
    | with_reducible exact h | (intro) | with_reducible apply harvestChunk_keeps | with_reducible apply Keeps.ite

theorem execNormPassDone_keeps : ∀ x0 x1 s, KeepsOut s (execNormPassDone x0 x1 s) := by
  intro x0 x1 s
  unfold execNormPassDone
  have h := Keeps.refl s
  try dsimp only
  repeat' first
    | with_reducible apply KeepsOut.next | with_reducible apply KeepsOut.ite | with_reducible exact KeepsOut.refused
    | with_reducible exact h | (intro) | with_reducible apply normDone_keeps | with_reducible apply Keeps.ite

end Sys2Proof.Machine
end

