-- ==== Sys2Proof/Laws/KeepsCoreCmds.lean ====
section
/-! SUPPORT. What the operations of Machine/CoreCmds.lean keep. -/

namespace Sys2Proof.Machine

theorem withSpill_keeps {s0 : State} : ∀ x0 x1 s, Keeps s0 s → Keeps s0 (withSpill x0 x1 s) := by
  intro x0 x1 s h
  unfold withSpill
  try dsimp only
  repeat' first
    | with_reducible exact h | (intro) | with_reducible apply State.modCore_keeps

theorem coreBuf_keeps {s0 : State} : ∀ x0 s, Keeps s0 s → Keeps s0 (coreBuf x0 s).1 := by
  intro x0 s h
  unfold coreBuf
  try dsimp only
  repeat' first
    | with_reducible exact h | (intro) | with_reducible apply cmdOk_keeps | with_reducible apply cmdRefuse_keeps
    | with_reducible apply modBarn_keeps | with_reducible apply updateHolds_keeps | with_reducible apply Keeps.ite_fst
    | with_reducible apply Keeps.ite | with_reducible apply Keeps.foldl | refine Keeps.fst (by assumption) ?_ | split

theorem coreCredit_keeps {s0 : State} : ∀ x0 s, Keeps s0 s → Keeps s0 (coreCredit x0 s).1 := by
  intro x0 s h
  unfold coreCredit
  try dsimp only
  repeat' first
    | with_reducible exact h | (intro) | with_reducible apply State.modCore_keeps | with_reducible apply cmdOk_keeps
    | with_reducible apply cmdRefuse_keeps | with_reducible apply giveCredit_keeps
    | with_reducible apply Keeps.ite_fst

theorem coreSpill_keeps {s0 : State} : ∀ x0 x1 s, Keeps s0 s → Keeps s0 (coreSpill x0 x1 s).1 := by
  intro x0 x1 s h
  unfold coreSpill
  try dsimp only
  repeat' first
    | with_reducible exact h | (intro) | with_reducible apply addDetached_keeps | with_reducible apply cmdRefuse_keeps
    | with_reducible apply withSpill_keeps | with_reducible apply Keeps.ite_fst

theorem spillPlaced_keeps {s0 : State} : ∀ s, Keeps s0 s → Keeps s0 (spillPlaced s) := by
  intro s h
  unfold spillPlaced
  try dsimp only
  repeat' first
    | with_reducible exact h | (intro) | with_reducible apply endWith_keeps | with_reducible apply withSpill_keeps
    | with_reducible apply Keeps.ite | with_reducible apply Keeps.foldl | split

theorem floorConfig_keeps {s0 : State} : ∀ x0 s, Keeps s0 s → Keeps s0 (floorConfig x0 s).1 := by
  intro x0 s h
  unfold floorConfig
  try dsimp only
  repeat' first
    | with_reducible exact h | (intro) | with_reducible apply State.modCore_keeps | with_reducible apply cmdOk_keeps
    | with_reducible apply cmdRefuse_keeps | with_reducible apply Keeps.ite_fst

theorem floorPlaneRestore_keeps {s0 : State} : ∀ x0 x1 s, Keeps s0 s → Keeps s0 (floorPlaneRestore x0 x1 s).1 := by
  intro x0 x1 s h
  unfold floorPlaneRestore
  try dsimp only
  repeat' first
    | with_reducible exact h | (intro) | with_reducible apply addDetached_keeps | with_reducible apply cmdRefuse_keeps
    | with_reducible apply modPlane_keeps | with_reducible apply Keeps.ite_fst

theorem planeTestDone_keeps {s0 : State} : ∀ x0 x1 s, Keeps s0 s → Keeps s0 (planeTestDone x0 x1 s) := by
  intro x0 x1 s h
  unfold planeTestDone
  try dsimp only
  repeat' first
    | with_reducible exact h | (intro) | with_reducible apply endWith_keeps | with_reducible apply modPlane_keeps
    | with_reducible apply Keeps.ite | with_reducible apply Keeps.foldl | split

theorem coreQueueRead_keeps {s0 : State} : ∀ x0 s, Keeps s0 s → Keeps s0 (coreQueueRead x0 s).1 := by
  intro x0 s h
  unfold coreQueueRead
  try dsimp only
  repeat' first
    | with_reducible exact h | (intro) | with_reducible apply cmdOk_keeps | with_reducible apply cmdRefuse_keeps
    | with_reducible apply hostWrite_keeps | with_reducible apply Keeps.ite_fst | with_reducible apply Keeps.ite
    | with_reducible apply Keeps.foldl | refine Keeps.fst (by assumption) ?_ | split

theorem execCoreBuf_keeps : ∀ x0 x1 s, KeepsOut s (execCoreBuf x0 x1 s) := by
  intro x0 x1 s
  unfold execCoreBuf
  refine runMailbox_keeps fun c t h => ?_
  try dsimp only
  repeat' first
    | with_reducible exact h | (intro) | with_reducible apply Keeps.ite_fst | with_reducible apply coreBuf_keeps
    | with_reducible apply Keeps.ite

theorem execCoreCredit_keeps : ∀ x0 x1 s, KeepsOut s (execCoreCredit x0 x1 s) := by
  intro x0 x1 s
  unfold execCoreCredit
  refine runMailbox_keeps fun c t h => ?_
  try dsimp only
  repeat' first
    | with_reducible exact h | (intro) | with_reducible apply Keeps.ite_fst | with_reducible apply coreCredit_keeps
    | with_reducible apply Keeps.ite

theorem execCoreSpill_keeps : ∀ x0 x1 s, KeepsOut s (execCoreSpill x0 x1 s) := by
  intro x0 x1 s
  unfold execCoreSpill
  refine runMailbox_keeps fun c t h => ?_
  try dsimp only
  repeat' first
    | with_reducible exact h | (intro) | with_reducible apply Keeps.ite_fst | with_reducible apply coreSpill_keeps
    | with_reducible apply Keeps.ite

theorem execFloorConfig_keeps : ∀ x0 x1 s, KeepsOut s (execFloorConfig x0 x1 s) := by
  intro x0 x1 s
  unfold execFloorConfig
  refine runMailbox_keeps fun c t h => ?_
  try dsimp only
  repeat' first
    | with_reducible exact h | (intro) | with_reducible apply Keeps.ite_fst | with_reducible apply floorConfig_keeps
    | with_reducible apply Keeps.ite

theorem execFloorPlaneRestore_keeps : ∀ x0 x1 s, KeepsOut s (execFloorPlaneRestore x0 x1 s) := by
  intro x0 x1 s
  unfold execFloorPlaneRestore
  refine runMailbox_keeps fun c t h => ?_
  try dsimp only
  repeat' first
    | with_reducible exact h | (intro) | with_reducible apply Keeps.ite_fst
    | with_reducible apply floorPlaneRestore_keeps | with_reducible apply Keeps.ite

theorem execCoreQueueRead_keeps : ∀ x0 x1 s, KeepsOut s (execCoreQueueRead x0 x1 s) := by
  intro x0 x1 s
  unfold execCoreQueueRead
  refine runMailbox_keeps fun c t h => ?_
  try dsimp only
  repeat' first
    | with_reducible exact h | (intro) | with_reducible apply Keeps.ite_fst | with_reducible apply coreQueueRead_keeps
    | with_reducible apply Keeps.ite

theorem execPlaneLoopbackTestDone_keeps : ∀ x0 x1 s, KeepsOut s (execPlaneLoopbackTestDone x0 x1 s) := by
  intro x0 x1 s
  unfold execPlaneLoopbackTestDone
  have h := Keeps.refl s
  try dsimp only
  repeat' first
    | with_reducible apply KeepsOut.next | with_reducible apply KeepsOut.ite | with_reducible exact KeepsOut.refused
    | with_reducible exact h | (intro) | with_reducible apply planeTestDone_keeps | with_reducible apply Keeps.ite

theorem execSpillRegionPlaced_keeps : ∀ s, KeepsOut s (execSpillRegionPlaced s) := by
  intro s
  unfold execSpillRegionPlaced
  have h := Keeps.refl s
  try dsimp only
  repeat' first
    | with_reducible apply KeepsOut.next | with_reducible apply KeepsOut.ite | with_reducible exact KeepsOut.refused
    | with_reducible exact h | (intro) | with_reducible apply spillPlaced_keeps | with_reducible apply Keeps.ite

end Sys2Proof.Machine
end

