-- ==== Sys2Proof/Laws/KeepsMemCmds.lean ====
section
/-! SUPPORT. What the operations of Machine/MemCmds.lean keep. -/

namespace Sys2Proof.Machine

theorem windowWrite_keeps {s0 : State} : ∀ x0 s, Keeps s0 s → Keeps s0 (windowWrite x0 s).1 := by
  intro x0 s h
  unfold windowWrite
  try dsimp only
  repeat' first
    | with_reducible exact h | (intro) | with_reducible apply State.modMem_keeps
    | with_reducible apply clearParity_keeps | with_reducible apply cmdOk_keeps | with_reducible apply cmdRefuse_keeps
    | with_reducible apply Keeps.ite_fst | with_reducible apply Keeps.ite | with_reducible apply Keeps.foldl
    | refine Keeps.fst (by assumption) ?_ | split | dsimp only

theorem windowRead_keeps {s0 : State} : ∀ x0 s, Keeps s0 s → Keeps s0 (windowRead x0 s).1 := by
  intro x0 s h
  unfold windowRead
  try dsimp only
  repeat' first
    | with_reducible exact h | (intro) | with_reducible apply cmdOk_keeps | with_reducible apply cmdRefuse_keeps
    | with_reducible apply hostWrite_keeps | with_reducible apply Keeps.ite_fst

theorem memPool_keeps {s0 : State} : ∀ x0 s, Keeps s0 s → Keeps s0 (memPool x0 s).1 := by
  intro x0 s h
  unfold memPool
  try dsimp only
  repeat' first
    | with_reducible exact h | (intro) | with_reducible apply State.modMem_keeps | with_reducible apply cmdOk_keeps
    | with_reducible apply cmdRefuse_keeps | with_reducible apply Keeps.ite_fst | with_reducible apply Keeps.ite
    | with_reducible apply Keeps.foldl | refine Keeps.fst (by assumption) ?_ | split | dsimp only

theorem memLoft_keeps {s0 : State} : ∀ x0 s, Keeps s0 s → Keeps s0 (memLoft x0 s).1 := by
  intro x0 s h
  unfold memLoft
  try dsimp only
  repeat' first
    | with_reducible exact h | (intro) | with_reducible apply cmdOk_keeps | with_reducible apply cmdRefuse_keeps
    | with_reducible apply modBarn_keeps | with_reducible apply Keeps.ite_fst

theorem memScratch_keeps {s0 : State} : ∀ x0 s, Keeps s0 s → Keeps s0 (memScratch x0 s).1 := by
  intro x0 s h
  unfold memScratch
  try dsimp only
  repeat' first
    | with_reducible exact h | (intro) | with_reducible apply cmdOk_keeps | with_reducible apply cmdRefuse_keeps
    | with_reducible apply daZero_keeps | with_reducible apply modBarn_keeps | with_reducible apply Keeps.ite_fst
    | with_reducible apply Keeps.ite

theorem hintWrite_keeps {s0 : State} : ∀ x0 s, Keeps s0 s → Keeps s0 (hintWrite x0 s).1 := by
  intro x0 s h
  unfold hintWrite
  try dsimp only
  repeat' first
    | with_reducible exact h | (intro) | with_reducible apply State.modMem_keeps
    | with_reducible apply clearParity_keeps | with_reducible apply cmdOk_keeps | with_reducible apply cmdRefuse_keeps
    | with_reducible apply Keeps.ite_fst | with_reducible apply Keeps.ite | with_reducible apply Keeps.foldl
    | refine Keeps.fst (by assumption) ?_ | split | dsimp only

theorem bar2Map_keeps {s0 : State} : ∀ x0 s, Keeps s0 s → Keeps s0 (bar2Map x0 s).1 := by
  intro x0 s h
  unfold bar2Map
  try dsimp only
  repeat' first
    | with_reducible exact h | (intro) | with_reducible apply State.modMem_keeps | with_reducible apply cmdOk_keeps
    | with_reducible apply cmdRefuse_keeps | with_reducible apply Keeps.ite_fst | with_reducible apply Keeps.ite
    | with_reducible apply Keeps.foldl | refine Keeps.fst (by assumption) ?_ | split | dsimp only

theorem bar2Write_keeps {s0 : State} : ∀ x0 x1 s, Keeps s0 s → Keeps s0 (bar2Write x0 x1 s) := by
  intro x0 x1 s h
  unfold bar2Write
  try dsimp only
  repeat' first
    | with_reducible exact h | (intro) | with_reducible apply bump_keeps | with_reducible apply daWrite_keeps
    | with_reducible apply Keeps.ite | with_reducible apply Keeps.foldl | split | dsimp only | exact rfl
    | exact ⟨rfl, rfl⟩ | exact ⟨rfl, rfl, rfl, rfl, rfl, rfl⟩ | assumption

theorem bar2Read_keeps {s0 : State} : ∀ x0 x1 x2 s, Keeps s0 s → Keeps s0 (bar2Read x0 x1 x2 s) := by
  intro x0 x1 x2 s h
  unfold bar2Read
  try dsimp only
  repeat' first
    | with_reducible exact h | (intro) | with_reducible apply emit_keeps | with_reducible apply memUE_keeps
    | with_reducible apply Keeps.ite

theorem memMove_keeps {s0 : State} : ∀ x0 x1 s, Keeps s0 s → Keeps s0 (memMove x0 x1 s).1 := by
  intro x0 x1 s h
  unfold memMove
  try dsimp only
  repeat' first
    | with_reducible exact h | (intro) | with_reducible apply State.modMem_keeps
    | with_reducible apply cmdDetach_keeps | with_reducible apply cmdRefuse_keeps | with_reducible apply Keeps.ite_fst
    | with_reducible apply Keeps.ite | with_reducible apply Keeps.foldl | refine Keeps.fst (by assumption) ?_ | split
    | dsimp only

theorem endMove_keeps {s0 : State} : ∀ x0 x1 x2 s, Keeps s0 s → Keeps s0 (endMove x0 x1 x2 s) := by
  intro x0 x1 x2 s h
  unfold endMove
  try dsimp only
  repeat' first
    | with_reducible exact h | (intro) | with_reducible apply State.modMem_keeps | with_reducible apply endWith_keeps
    | with_reducible apply Keeps.ite | with_reducible apply Keeps.foldl | split | dsimp only

theorem copyMove_keeps {s0 : State} : ∀ x0 s, Keeps s0 s → Keeps s0 (copyMove x0 s) := by
  intro x0 s h
  unfold copyMove
  try dsimp only
  repeat' first
    | with_reducible exact h | (intro) | with_reducible apply cacheRange_keeps | with_reducible apply daWrite_keeps

theorem partMove_keeps {s0 : State} : ∀ x0 x1 s, Keeps s0 s → Keeps s0 (partMove x0 x1 s) := by
  intro x0 x1 s h
  unfold partMove
  try dsimp only
  repeat' first
    | with_reducible exact h | (intro) | with_reducible apply State.tookFree_keeps
    | with_reducible apply daWrite_keeps | with_reducible apply Keeps.ite | with_reducible apply Keeps.foldl | split
    | dsimp only | exact rfl | exact ⟨rfl, rfl⟩ | exact ⟨rfl, rfl, rfl, rfl, rfl, rfl⟩ | assumption

theorem partGranules_keeps {s0 : State} : ∀ x0 s, Keeps s0 s → Keeps s0 (partGranules x0 s) := by
  intro x0 s h
  unfold partGranules
  try dsimp only
  repeat' first
    | with_reducible exact h | (intro) | with_reducible apply State.tookFree_keeps
    | with_reducible apply daWrite_keeps | with_reducible apply Keeps.ite | with_reducible apply Keeps.foldl | split
    | dsimp only | exact rfl | exact ⟨rfl, rfl⟩ | exact ⟨rfl, rfl, rfl, rfl, rfl, rfl⟩ | assumption

theorem failMove_keeps {s0 : State} : ∀ x0 x1 s, Keeps s0 s → Keeps s0 (failMove x0 x1 s) := by
  intro x0 x1 s h
  unfold failMove
  try dsimp only
  repeat' first
    | with_reducible exact h | (intro) | with_reducible apply endMove_keeps | with_reducible apply memUE_keeps
    | with_reducible apply partMove_keeps

theorem moveDone_keeps {s0 : State} : ∀ x0 x1 s, Keeps s0 s → Keeps s0 (moveDone x0 x1 s) := by
  intro x0 x1 s h
  unfold moveDone
  try dsimp only
  repeat' first
    | with_reducible exact h | (intro) | with_reducible apply copyMove_keeps | with_reducible apply endMove_keeps
    | with_reducible apply failMove_keeps | with_reducible apply Keeps.ite | with_reducible apply Keeps.foldl | split

theorem modArb_keeps {s0 : State} : ∀ x0 x1 s, Keeps s0 s → Keeps s0 (modArb x0 x1 s) := by
  intro x0 x1 s h
  unfold modArb
  try dsimp only
  repeat' first
    | with_reducible exact h | (intro) | with_reducible apply State.modMem_keeps | with_reducible apply Keeps.ite
    | with_reducible apply Keeps.foldl | split | dsimp only

theorem burstBoundary_keeps {s0 : State} : ∀ x0 x1 s, Keeps s0 s → Keeps s0 (burstBoundary x0 x1 s) := by
  intro x0 x1 s h
  unfold burstBoundary
  try dsimp only
  repeat' first
    | with_reducible exact h | (intro) | with_reducible apply modArb_keeps

theorem modSrc_keeps {s0 : State} : ∀ x0 x1 s, Keeps s0 s → Keeps s0 (modSrc x0 x1 s) := by
  intro x0 x1 s h
  unfold modSrc
  try dsimp only
  repeat' first
    | with_reducible exact h | (intro) | with_reducible apply State.modMem_keeps | with_reducible apply Keeps.ite
    | with_reducible apply Keeps.foldl | split | dsimp only

theorem loseSpilled_keeps {s0 : State} : ∀ x0 x1 s, Keeps s0 s → Keeps s0 (loseSpilled x0 x1 s) := by
  intro x0 x1 s h
  unfold loseSpilled
  try dsimp only
  repeat' first
    | with_reducible exact h | (intro) | with_reducible apply modBarn_keeps | with_reducible apply Keeps.ite

theorem watchdogCmd_keeps {s0 : State} : ∀ x0 x1 s, Keeps s0 s → Keeps s0 (watchdogCmd x0 x1 s) := by
  intro x0 x1 s h
  unfold watchdogCmd
  try dsimp only
  repeat' first
    | with_reducible exact h | (intro) | with_reducible apply State.modMem_keeps | with_reducible apply endWith_keeps
    | with_reducible apply Keeps.ite | with_reducible apply Keeps.foldl | split | dsimp only

theorem watchdogWork_keeps {s0 : State} : ∀ x0 x1 x2 x3 s, Keeps s0 s → Keeps s0 (watchdogWork x0 x1 x2 x3 s) := by
  intro x0 x1 x2 x3 s h
  unfold watchdogWork
  try dsimp only
  repeat' first
    | with_reducible exact h | (intro) | with_reducible apply atSink_keeps | with_reducible apply bump_keeps
    | with_reducible apply emit_keeps | with_reducible apply endMove_keeps | with_reducible apply faultFree_keeps
    | with_reducible apply loseSpilled_keeps | with_reducible apply partMove_keeps
    | with_reducible apply residueFault_keeps | with_reducible apply residueWinnow_keeps
    | with_reducible apply settleFences_keeps | with_reducible apply settleWinnow_keeps
    | with_reducible apply watchdogCmd_keeps | with_reducible apply Keeps.ite | with_reducible apply Keeps.foldl
    | split | dsimp only | exact rfl | exact ⟨rfl, rfl⟩ | exact ⟨rfl, rfl, rfl, rfl, rfl, rfl⟩ | assumption

theorem chanWatchdog_keeps {s0 : State} : ∀ x0 x1 x2 s, Keeps s0 s → Keeps s0 (chanWatchdog x0 x1 x2 s) := by
  intro x0 x1 x2 s h
  unfold chanWatchdog
  try dsimp only
  repeat' first
    | with_reducible exact h | (intro) | with_reducible apply bump_keeps | with_reducible apply capture_keeps
    | with_reducible apply modArb_keeps | with_reducible apply modSrc_keeps | with_reducible apply report_keeps
    | with_reducible apply watchdogWork_keeps | with_reducible apply Keeps.ite | with_reducible apply Keeps.foldl
    | split

theorem arbConfig_keeps {s0 : State} : ∀ x0 s, Keeps s0 s → Keeps s0 (arbConfig x0 s).1 := by
  intro x0 s h
  unfold arbConfig
  try dsimp only
  repeat' first
    | with_reducible exact h | (intro) | with_reducible apply State.modMem_keeps | with_reducible apply cmdOk_keeps
    | with_reducible apply cmdRefuse_keeps | with_reducible apply Keeps.ite_fst | with_reducible apply Keeps.ite
    | with_reducible apply Keeps.foldl | refine Keeps.fst (by assumption) ?_ | split | dsimp only

theorem memThermal_keeps {s0 : State} : ∀ x0 s, Keeps s0 s → Keeps s0 (memThermal x0 s).1 := by
  intro x0 s h
  unfold memThermal
  try dsimp only
  repeat' first
    | with_reducible exact h | (intro) | with_reducible apply State.modMem_keeps | with_reducible apply cmdOk_keeps
    | with_reducible apply cmdRefuse_keeps | with_reducible apply Keeps.ite_fst | with_reducible apply Keeps.ite
    | with_reducible apply Keeps.foldl | refine Keeps.fst (by assumption) ?_ | split | dsimp only

theorem coolEnds_keeps {s0 : State} : ∀ x0 x1 s, Keeps s0 s → Keeps s0 (coolEnds x0 x1 s) := by
  intro x0 x1 s h
  unfold coolEnds
  try dsimp only
  repeat' first
    | with_reducible exact h | (intro) | with_reducible apply State.modPower_keeps | with_reducible apply Keeps.ite

theorem thermalRead_keeps {s0 : State} : ∀ x0 x1 s, Keeps s0 s → Keeps s0 (thermalRead x0 x1 s) := by
  intro x0 x1 s h
  unfold thermalRead
  try dsimp only
  repeat' first
    | with_reducible exact h | (intro) | with_reducible apply bump_keeps | with_reducible apply capture_keeps
    | with_reducible apply coolEnds_keeps | with_reducible apply modSrc_keeps | with_reducible apply Keeps.ite

theorem memHold_keeps {s0 : State} : ∀ x0 s, Keeps s0 s → Keeps s0 (memHold x0 s).1 := by
  intro x0 s h
  unfold memHold
  try dsimp only
  repeat' first
    | with_reducible exact h | (intro) | with_reducible apply State.modMem_keeps | with_reducible apply cmdOk_keeps
    | with_reducible apply cmdRefuse_keeps | with_reducible apply Keeps.ite_fst | with_reducible apply Keeps.ite
    | with_reducible apply Keeps.foldl | refine Keeps.fst (by assumption) ?_ | split | dsimp only

theorem setTier_keeps {s0 : State} : ∀ x0 x1 s, Keeps s0 s → Keeps s0 (setTier x0 x1 s) := by
  intro x0 x1 s h
  unfold setTier
  try dsimp only
  repeat' first
    | with_reducible exact h | (intro) | with_reducible apply State.modMem_keeps | with_reducible apply Keeps.ite
    | with_reducible apply Keeps.foldl | split | dsimp only

theorem memRelease_keeps {s0 : State} : ∀ x0 x1 s, Keeps s0 s → Keeps s0 (memRelease x0 x1 s).1 := by
  intro x0 x1 s h
  unfold memRelease
  try dsimp only
  repeat' first
    | with_reducible exact h | (intro) | with_reducible apply State.modMem_keeps
    | with_reducible apply cmdDetach_keeps | with_reducible apply cmdRefuse_keeps | with_reducible apply setTier_keeps
    | with_reducible apply Keeps.ite_fst | with_reducible apply Keeps.ite | with_reducible apply Keeps.foldl
    | refine Keeps.fst (by assumption) ?_ | split | dsimp only

theorem releaseDone_keeps {s0 : State} : ∀ x0 s, Keeps s0 s → Keeps s0 (releaseDone x0 s) := by
  intro x0 s h
  unfold releaseDone
  try dsimp only
  repeat' first
    | with_reducible exact h | (intro) | with_reducible apply State.modMem_keeps | with_reducible apply endWith_keeps
    | with_reducible apply setTier_keeps | with_reducible apply Keeps.ite | with_reducible apply Keeps.foldl | split
    | dsimp only

theorem memMargin_keeps {s0 : State} : ∀ x0 x1 s, Keeps s0 s → Keeps s0 (memMargin x0 x1 s).1 := by
  intro x0 x1 s h
  unfold memMargin
  try dsimp only
  repeat' first
    | with_reducible exact h | (intro) | with_reducible apply State.modMem_keeps
    | with_reducible apply cmdDetach_keeps | with_reducible apply cmdRefuse_keeps | with_reducible apply Keeps.ite_fst
    | with_reducible apply Keeps.ite | with_reducible apply Keeps.foldl | refine Keeps.fst (by assumption) ?_ | split
    | dsimp only

theorem marginDone_keeps {s0 : State} : ∀ x0 s, Keeps s0 s → Keeps s0 (marginDone x0 s) := by
  intro x0 s h
  unfold marginDone
  try dsimp only
  repeat' first
    | with_reducible exact h | (intro) | with_reducible apply State.modMem_keeps | with_reducible apply endWith_keeps
    | with_reducible apply hostWrite_keeps | with_reducible apply Keeps.ite | with_reducible apply Keeps.foldl | split
    | dsimp only

theorem modSilo_keeps {s0 : State} : ∀ x0 x1 s, Keeps s0 s → Keeps s0 (modSilo x0 x1 s) := by
  intro x0 x1 s h
  unfold modSilo
  try dsimp only
  repeat' first
    | with_reducible exact h | (intro) | with_reducible apply State.modMem_keeps | with_reducible apply Keeps.ite
    | with_reducible apply Keeps.foldl | split | dsimp only

theorem siloDetach_keeps {s0 : State} : ∀ x0 s, Keeps s0 s → Keeps s0 (siloDetach x0 s).1 := by
  intro x0 s h
  unfold siloDetach
  try dsimp only
  repeat' first
    | with_reducible exact h | (intro) | with_reducible apply cmdOk_keeps | with_reducible apply cmdRefuse_keeps
    | with_reducible apply modSilo_keeps | with_reducible apply Keeps.ite_fst

theorem siloDown_keeps {s0 : State} : ∀ x0 s, Keeps s0 s → Keeps s0 (siloDown x0 s) := by
  intro x0 s h
  unfold siloDown
  try dsimp only
  repeat' first
    | with_reducible exact h | (intro) | with_reducible apply failMove_keeps | with_reducible apply modSilo_keeps
    | with_reducible apply Keeps.ite | with_reducible apply Keeps.foldl | split | dsimp only | exact rfl
    | exact ⟨rfl, rfl⟩ | exact ⟨rfl, rfl, rfl, rfl, rfl, rfl⟩ | assumption

theorem siloFail_keeps {s0 : State} : ∀ x0 s, Keeps s0 s → Keeps s0 (siloFail x0 s) := by
  intro x0 s h
  unfold siloFail
  try dsimp only
  repeat' first
    | with_reducible exact h | (intro) | with_reducible apply bump_keeps | with_reducible apply report_keeps
    | with_reducible apply siloDown_keeps | with_reducible apply Keeps.ite

theorem siloUp_keeps {s0 : State} : ∀ x0 x1 s, Keeps s0 s → Keeps s0 (siloUp x0 x1 s) := by
  intro x0 x1 s h
  unfold siloUp
  try dsimp only
  repeat' first
    | with_reducible exact h | (intro) | with_reducible apply modSilo_keeps | with_reducible apply Keeps.ite

theorem memStatusRead_keeps {s0 : State} : ∀ x0 s, Keeps s0 s → Keeps s0 (memStatusRead x0 s).1 := by
  intro x0 s h
  unfold memStatusRead
  try dsimp only
  repeat' first
    | with_reducible exact h | (intro) | with_reducible apply cmdOk_keeps | with_reducible apply hostWrite_keeps

theorem tierUp_keeps {s0 : State} : ∀ x0 x1 s, Keeps s0 s → Keeps s0 (tierUp x0 x1 s) := by
  intro x0 x1 s h
  unfold tierUp
  try dsimp only
  repeat' first
    | with_reducible exact h | (intro) | with_reducible apply State.modHearth_keeps
    | with_reducible apply daZero_keeps | with_reducible apply noteStatus_keeps | with_reducible apply setTier_keeps
    | with_reducible apply Keeps.ite | with_reducible apply Keeps.foldl | split | dsimp only | exact rfl
    | exact ⟨rfl, rfl⟩

theorem corrected_keeps {s0 : State} : ∀ x0 s, Keeps s0 s → Keeps s0 (corrected x0 s) := by
  intro x0 s h
  unfold corrected
  try dsimp only
  repeat' first
    | with_reducible exact h | (intro) | with_reducible apply State.modMem_keeps | with_reducible apply bump_keeps
    | with_reducible apply report_keeps | with_reducible apply Keeps.ite | with_reducible apply Keeps.foldl | split
    | dsimp only

theorem memCorrected_keeps {s0 : State} : ∀ x0 x1 s, Keeps s0 s → Keeps s0 (memCorrected x0 x1 s) := by
  intro x0 x1 s h
  unfold memCorrected
  try dsimp only
  repeat' first
    | with_reducible exact h | (intro) | with_reducible apply bump_keeps | with_reducible apply corrected_keeps
    | with_reducible apply Keeps.ite | with_reducible apply Keeps.foldl | split

theorem patrolScrub_keeps {s0 : State} : ∀ x0 x1 s, Keeps s0 s → Keeps s0 (patrolScrub x0 x1 s) := by
  intro x0 x1 s h
  unfold patrolScrub
  try dsimp only
  repeat' first
    | with_reducible exact h | (intro) | with_reducible apply bump_keeps | with_reducible apply memCorrected_keeps
    | with_reducible apply Keeps.ite | with_reducible apply Keeps.foldl | split

theorem execMemWindowWrite_keeps : ∀ x0 x1 s, KeepsOut s (execMemWindowWrite x0 x1 s) := by
  intro x0 x1 s
  unfold execMemWindowWrite
  refine runMailbox_keeps fun c t h => ?_
  try dsimp only
  repeat' first
    | with_reducible exact h | (intro) | with_reducible apply Keeps.ite_fst | with_reducible apply windowWrite_keeps
    | with_reducible apply Keeps.ite

theorem execMemWindowRead_keeps : ∀ x0 x1 s, KeepsOut s (execMemWindowRead x0 x1 s) := by
  intro x0 x1 s
  unfold execMemWindowRead
  refine runMailbox_keeps fun c t h => ?_
  try dsimp only
  repeat' first
    | with_reducible exact h | (intro) | with_reducible apply Keeps.ite_fst | with_reducible apply windowRead_keeps
    | with_reducible apply Keeps.ite

theorem execMemPool_keeps : ∀ x0 x1 s, KeepsOut s (execMemPool x0 x1 s) := by
  intro x0 x1 s
  unfold execMemPool
  refine runMailbox_keeps fun c t h => ?_
  try dsimp only
  repeat' first
    | with_reducible exact h | (intro) | with_reducible apply Keeps.ite_fst | with_reducible apply memPool_keeps
    | with_reducible apply Keeps.ite

theorem execMemLoft_keeps : ∀ x0 x1 s, KeepsOut s (execMemLoft x0 x1 s) := by
  intro x0 x1 s
  unfold execMemLoft
  refine runMailbox_keeps fun c t h => ?_
  try dsimp only
  repeat' first
    | with_reducible exact h | (intro) | with_reducible apply Keeps.ite_fst | with_reducible apply memLoft_keeps
    | with_reducible apply Keeps.ite

theorem execMemScratch_keeps : ∀ x0 x1 s, KeepsOut s (execMemScratch x0 x1 s) := by
  intro x0 x1 s
  unfold execMemScratch
  refine runMailbox_keeps fun c t h => ?_
  try dsimp only
  repeat' first
    | with_reducible exact h | (intro) | with_reducible apply Keeps.ite_fst | with_reducible apply memScratch_keeps
    | with_reducible apply Keeps.ite

theorem execMemHintWrite_keeps : ∀ x0 x1 s, KeepsOut s (execMemHintWrite x0 x1 s) := by
  intro x0 x1 s
  unfold execMemHintWrite
  refine runMailbox_keeps fun c t h => ?_
  try dsimp only
  repeat' first
    | with_reducible exact h | (intro) | with_reducible apply Keeps.ite_fst | with_reducible apply hintWrite_keeps
    | with_reducible apply Keeps.ite

theorem execMemBar2Map_keeps : ∀ x0 x1 s, KeepsOut s (execMemBar2Map x0 x1 s) := by
  intro x0 x1 s
  unfold execMemBar2Map
  refine runMailbox_keeps fun c t h => ?_
  try dsimp only
  repeat' first
    | with_reducible exact h | (intro) | with_reducible apply Keeps.ite_fst | with_reducible apply bar2Map_keeps
    | with_reducible apply Keeps.ite

theorem execMemMove_keeps : ∀ x0 x1 s, KeepsOut s (execMemMove x0 x1 s) := by
  intro x0 x1 s
  unfold execMemMove
  refine runMailbox_keeps fun c t h => ?_
  try dsimp only
  repeat' first
    | with_reducible exact h | (intro) | with_reducible apply Keeps.ite_fst | with_reducible apply memMove_keeps
    | with_reducible apply Keeps.ite

theorem execMemArbConfig_keeps : ∀ x0 x1 s, KeepsOut s (execMemArbConfig x0 x1 s) := by
  intro x0 x1 s
  unfold execMemArbConfig
  refine runMailbox_keeps fun c t h => ?_
  try dsimp only
  repeat' first
    | with_reducible exact h | (intro) | with_reducible apply Keeps.ite_fst | with_reducible apply arbConfig_keeps
    | with_reducible apply Keeps.ite

theorem execMemThermal_keeps : ∀ x0 x1 s, KeepsOut s (execMemThermal x0 x1 s) := by
  intro x0 x1 s
  unfold execMemThermal
  refine runMailbox_keeps fun c t h => ?_
  try dsimp only
  repeat' first
    | with_reducible exact h | (intro) | with_reducible apply Keeps.ite_fst | with_reducible apply memThermal_keeps
    | with_reducible apply Keeps.ite

theorem execMemHold_keeps : ∀ x0 x1 s, KeepsOut s (execMemHold x0 x1 s) := by
  intro x0 x1 s
  unfold execMemHold
  refine runMailbox_keeps fun c t h => ?_
  try dsimp only
  repeat' first
    | with_reducible exact h | (intro) | with_reducible apply Keeps.ite_fst | with_reducible apply memHold_keeps
    | with_reducible apply Keeps.ite

theorem execMemRelease_keeps : ∀ x0 x1 s, KeepsOut s (execMemRelease x0 x1 s) := by
  intro x0 x1 s
  unfold execMemRelease
  refine runMailbox_keeps fun c t h => ?_
  try dsimp only
  repeat' first
    | with_reducible exact h | (intro) | with_reducible apply Keeps.ite_fst | with_reducible apply memRelease_keeps
    | with_reducible apply Keeps.ite

theorem execMemMargin_keeps : ∀ x0 x1 s, KeepsOut s (execMemMargin x0 x1 s) := by
  intro x0 x1 s
  unfold execMemMargin
  refine runMailbox_keeps fun c t h => ?_
  try dsimp only
  repeat' first
    | with_reducible exact h | (intro) | with_reducible apply Keeps.ite_fst | with_reducible apply memMargin_keeps
    | with_reducible apply Keeps.ite

theorem execMemSiloDetach_keeps : ∀ x0 x1 s, KeepsOut s (execMemSiloDetach x0 x1 s) := by
  intro x0 x1 s
  unfold execMemSiloDetach
  refine runMailbox_keeps fun c t h => ?_
  try dsimp only
  repeat' first
    | with_reducible exact h | (intro) | with_reducible apply Keeps.ite_fst | with_reducible apply siloDetach_keeps
    | with_reducible apply Keeps.ite

theorem execMemStatusRead_keeps : ∀ x0 x1 s, KeepsOut s (execMemStatusRead x0 x1 s) := by
  intro x0 x1 s
  unfold execMemStatusRead
  refine runMailbox_keeps fun c t h => ?_
  try dsimp only
  repeat' first
    | with_reducible exact h | (intro) | with_reducible apply Keeps.ite_fst | with_reducible apply memStatusRead_keeps
    | with_reducible apply Keeps.ite

theorem execBar2Write_keeps : ∀ x0 x1 s, KeepsOut s (execBar2Write x0 x1 s) := by
  intro x0 x1 s
  unfold execBar2Write
  have h := Keeps.refl s
  try dsimp only
  repeat' first
    | with_reducible apply KeepsOut.next | with_reducible apply KeepsOut.ite | with_reducible exact KeepsOut.refused
    | with_reducible exact h | (intro) | with_reducible apply bar2Write_keeps | with_reducible apply Keeps.ite

theorem execBar2Read_keeps : ∀ x0 x1 x2 s, KeepsOut s (execBar2Read x0 x1 x2 s) := by
  intro x0 x1 x2 s
  unfold execBar2Read
  have h := Keeps.refl s
  try dsimp only
  repeat' first
    | with_reducible apply KeepsOut.next | with_reducible apply KeepsOut.ite | with_reducible exact KeepsOut.refused
    | with_reducible exact h | (intro) | with_reducible apply bar2Read_keeps | with_reducible apply Keeps.ite

theorem execMemMoveDone_keeps : ∀ x0 x1 s, KeepsOut s (execMemMoveDone x0 x1 s) := by
  intro x0 x1 s
  unfold execMemMoveDone
  have h := Keeps.refl s
  try dsimp only
  repeat' first
    | with_reducible apply KeepsOut.next | with_reducible apply KeepsOut.ite | with_reducible exact KeepsOut.refused
    | with_reducible exact h | (intro) | with_reducible apply moveDone_keeps | with_reducible apply Keeps.ite

theorem execBurstBoundary_keeps : ∀ x0 x1 s, KeepsOut s (execBurstBoundary x0 x1 s) := by
  intro x0 x1 s
  unfold execBurstBoundary
  have h := Keeps.refl s
  try dsimp only
  repeat' first
    | with_reducible apply KeepsOut.next | with_reducible apply KeepsOut.ite | with_reducible exact KeepsOut.refused
    | with_reducible exact h | (intro) | with_reducible apply burstBoundary_keeps | with_reducible apply Keeps.ite

theorem execChanWatchdog_keeps : ∀ x0 x1 s, KeepsOut s (execChanWatchdog x0 x1 s) := by
  intro x0 x1 s
  unfold execChanWatchdog
  have h := Keeps.refl s
  try dsimp only
  repeat' first
    | with_reducible apply KeepsOut.next | with_reducible apply KeepsOut.ite | with_reducible exact KeepsOut.refused
    | with_reducible exact h | (intro) | with_reducible apply chanWatchdog_keeps | with_reducible apply Keeps.ite

theorem execStackThermalRead_keeps : ∀ x0 x1 s, KeepsOut s (execStackThermalRead x0 x1 s) := by
  intro x0 x1 s
  unfold execStackThermalRead
  have h := Keeps.refl s
  try dsimp only
  repeat' first
    | with_reducible apply KeepsOut.next | with_reducible apply KeepsOut.ite | with_reducible exact KeepsOut.refused
    | with_reducible exact h | (intro) | with_reducible apply thermalRead_keeps | with_reducible apply Keeps.ite

theorem execPatrolScrub_keeps : ∀ x0 x1 s, KeepsOut s (execPatrolScrub x0 x1 s) := by
  intro x0 x1 s
  unfold execPatrolScrub
  have h := Keeps.refl s
  try dsimp only
  repeat' first
    | with_reducible apply KeepsOut.next | with_reducible apply KeepsOut.ite | with_reducible exact KeepsOut.refused
    | with_reducible exact h | (intro) | with_reducible apply patrolScrub_keeps | with_reducible apply Keeps.ite

theorem execGranaryInService_keeps : ∀ x0 x1 s, KeepsOut s (execGranaryInService x0 x1 s) := by
  intro x0 x1 s
  unfold execGranaryInService
  have h := Keeps.refl s
  try dsimp only
  repeat' first
    | with_reducible apply KeepsOut.next | with_reducible apply KeepsOut.ite | with_reducible exact KeepsOut.refused
    | with_reducible exact h | (intro) | with_reducible apply tierUp_keeps | with_reducible apply Keeps.ite

theorem execSiloLinkFail_keeps : ∀ x0 s, KeepsOut s (execSiloLinkFail x0 s) := by
  intro x0 s
  unfold execSiloLinkFail
  have h := Keeps.refl s
  try dsimp only
  repeat' first
    | with_reducible apply KeepsOut.next | with_reducible apply KeepsOut.ite | with_reducible exact KeepsOut.refused
    | with_reducible exact h | (intro) | with_reducible apply siloFail_keeps | with_reducible apply Keeps.ite

theorem execSiloLinkUp_keeps : ∀ x0 x1 s, KeepsOut s (execSiloLinkUp x0 x1 s) := by
  intro x0 x1 s
  unfold execSiloLinkUp
  have h := Keeps.refl s
  try dsimp only
  repeat' first
    | with_reducible apply KeepsOut.next | with_reducible apply KeepsOut.ite | with_reducible exact KeepsOut.refused
    | with_reducible exact h | (intro) | with_reducible apply siloUp_keeps | with_reducible apply Keeps.ite

theorem execMemMarginDone_keeps : ∀ x0 s, KeepsOut s (execMemMarginDone x0 s) := by
  intro x0 s
  unfold execMemMarginDone
  have h := Keeps.refl s
  try dsimp only
  repeat' first
    | with_reducible apply KeepsOut.next | with_reducible apply KeepsOut.ite | with_reducible exact KeepsOut.refused
    | with_reducible exact h | (intro) | with_reducible apply marginDone_keeps | with_reducible apply Keeps.ite

theorem execMemReleaseDone_keeps : ∀ x0 s, KeepsOut s (execMemReleaseDone x0 s) := by
  intro x0 s
  unfold execMemReleaseDone
  have h := Keeps.refl s
  try dsimp only
  repeat' first
    | with_reducible apply KeepsOut.next | with_reducible apply KeepsOut.ite | with_reducible exact KeepsOut.refused
    | with_reducible exact h | (intro) | with_reducible apply releaseDone_keeps | with_reducible apply Keeps.ite

end Sys2Proof.Machine
end

