-- ==== Sys2Proof/Laws/KeepsLaneBase.lean ====
section
/-! SUPPORT. What the operations of Machine/LaneBase.lean keep. -/

namespace Sys2Proof.Machine

theorem setLane_keeps {s0 : State} : ∀ x0 x1 s, Keeps s0 s → Keeps s0 (setLane x0 x1 s) := by
  intro x0 x1 s h
  unfold setLane
  try dsimp only
  repeat' first
    | with_reducible exact h | (intro) | with_reducible apply capture_keeps | with_reducible apply modLaneOpt_keeps
    | with_reducible apply reportFibre_keeps | with_reducible apply Keeps.ite

theorem bumpLink_keeps {s0 : State} : ∀ x0 x1 s, Keeps s0 s → Keeps s0 (bumpLink x0 x1 s) := by
  intro x0 x1 s h
  unfold bumpLink
  try dsimp only
  repeat' first
    | with_reducible exact h | (intro) | with_reducible apply bump_keeps

theorem askWithdraw_keeps {s0 : State} : ∀ x0 x1 s, Keeps s0 s → Keeps s0 (askWithdraw x0 x1 s) := by
  intro x0 x1 s h
  unfold askWithdraw
  try dsimp only
  repeat' first
    | with_reducible exact h | (intro) | with_reducible apply State.tookFree_keeps
    | with_reducible apply modLaneLink_keeps | with_reducible apply sendControl_keeps

theorem dropSlice_keeps {s0 : State} : ∀ x0 x1 s, Keeps s0 s → Keeps s0 (dropSlice x0 x1 s) := by
  intro x0 x1 s h
  unfold dropSlice
  try dsimp only
  repeat' first
    | with_reducible exact h | (intro) | with_reducible apply State.modOptics_keeps
    | with_reducible apply endDetached_keeps | with_reducible apply Keeps.ite | with_reducible apply Keeps.foldl
    | split | dsimp only | exact rfl | exact ⟨rfl, rfl⟩ | exact ⟨rfl, rfl, rfl, rfl, rfl, rfl⟩ | assumption

theorem endCmd_keeps {s0 : State} : ∀ x0 s, Keeps s0 s → Keeps s0 (endCmd x0 s) := by
  intro x0 s h
  unfold endCmd
  try dsimp only
  repeat' first
    | with_reducible exact h | (intro) | with_reducible apply endWith_keeps | with_reducible apply Keeps.ite
    | with_reducible apply Keeps.foldl | split

theorem endCmds_keeps {s0 : State} : ∀ x0 x1 x2 s, Keeps s0 s → Keeps s0 (endCmds x0 x1 x2 s) := by
  intro x0 x1 x2 s h
  unfold endCmds
  try dsimp only
  repeat' first
    | with_reducible exact h | (intro) | with_reducible apply endWith_keeps | with_reducible apply Keeps.ite
    | with_reducible apply Keeps.foldl | split | dsimp only | exact rfl | exact ⟨rfl, rfl⟩
    | exact ⟨rfl, rfl, rfl, rfl, rfl, rfl⟩ | assumption

theorem endLaneCmds_keeps {s0 : State} : ∀ x0 s, Keeps s0 s → Keeps s0 (endLaneCmds x0 s) := by
  intro x0 s h
  unfold endLaneCmds
  try dsimp only
  repeat' first
    | with_reducible exact h | (intro) | with_reducible apply endCmd_keeps | with_reducible apply modLaneOpt_keeps

theorem modLaser_keeps {s0 : State} : ∀ x0 x1 s, Keeps s0 s → Keeps s0 (modLaser x0 x1 s) := by
  intro x0 x1 s h
  unfold modLaser
  try dsimp only
  repeat' first
    | with_reducible exact h | (intro) | with_reducible apply State.modOptics_keeps

theorem setLaser_keeps {s0 : State} : ∀ x0 x1 s, Keeps s0 s → Keeps s0 (setLaser x0 x1 s) := by
  intro x0 x1 s h
  unfold setLaser
  try dsimp only
  repeat' first
    | with_reducible exact h | (intro) | with_reducible apply capture_keeps | with_reducible apply modLaser_keeps
    | with_reducible apply Keeps.ite

theorem calSet_keeps {s0 : State} : ∀ x0 x1 x2 s, Keeps s0 s → Keeps s0 (calSet x0 x1 x2 s) := by
  intro x0 x1 x2 s h
  unfold calSet
  try dsimp only
  repeat' first
    | with_reducible exact h | (intro) | with_reducible apply State.modSec_keeps | with_reducible apply Keeps.ite
    | with_reducible apply Keeps.foldl | split | dsimp only | exact rfl | exact ⟨rfl, rfl⟩
    | exact ⟨rfl, rfl, rfl, rfl, rfl, rfl⟩

theorem setSwing_keeps {s0 : State} : ∀ x0 s, Keeps s0 s → Keeps s0 (setSwing x0 s) := by
  intro x0 s h
  unfold setSwing
  try dsimp only
  repeat' first
    | with_reducible exact h | (intro) | with_reducible apply modLaneOpt_keeps

end Sys2Proof.Machine
end

