-- ==== Sys2Proof/Laws/KeepsCircuits.lean ====
section
/-! SUPPORT. What the operations of Machine/Circuits.lean keep. -/

namespace Sys2Proof.Machine

theorem modCirc_keeps {s0 : State} : ∀ x0 x1 s, Keeps s0 s → Keeps s0 (modCirc x0 x1 s) := by
  intro x0 x1 s h
  unfold modCirc
  try dsimp only
  repeat' first
    | with_reducible exact h | (intro) | with_reducible apply State.modFlue_keeps

theorem circTo_keeps {s0 : State} : ∀ x0 x1 s, Keeps s0 s → Keeps s0 (circTo x0 x1 s) := by
  intro x0 x1 s h
  unfold circTo
  try dsimp only
  repeat' first
    | with_reducible exact h | (intro) | with_reducible apply capture_keeps | with_reducible apply modCirc_keeps
    | with_reducible apply Keeps.ite

theorem bumpFlue_keeps {s0 : State} : ∀ x0 s, Keeps s0 s → Keeps s0 (bumpFlue x0 s) := by
  intro x0 s h
  unfold bumpFlue
  try dsimp only
  repeat' first
    | with_reducible exact h | (intro) | with_reducible apply bump_keeps

theorem flueNotice_keeps {s0 : State} : ∀ x0 x1 x2 s, Keeps s0 s → Keeps s0 (flueNotice x0 x1 x2 s) := by
  intro x0 x1 x2 s h
  unfold flueNotice
  try dsimp only
  repeat' first
    | with_reducible exact h | (intro) | with_reducible apply send_keeps

theorem giveBack_keeps {s0 : State} : ∀ x0 x1 s, Keeps s0 s → Keeps s0 (giveBack x0 x1 s) := by
  intro x0 x1 s h
  unfold giveBack
  try dsimp only
  repeat' first
    | with_reducible exact h | (intro) | with_reducible apply modLaneLink_keeps
    | with_reducible apply modLaneOpt_keeps | with_reducible apply setLane_keeps

theorem freeCirc_keeps {s0 : State} : ∀ x0 s, Keeps s0 s → Keeps s0 (freeCirc x0 s) := by
  intro x0 s h
  unfold freeCirc
  try dsimp only
  repeat' first
    | with_reducible exact h | (intro) | with_reducible apply State.modFlue_keeps | with_reducible apply circTo_keeps
    | with_reducible apply giveBack_keeps | with_reducible apply Keeps.ite

theorem tenths_keeps {s0 : State} : ∀ x0 s, Keeps s0 s → Keeps s0 (tenths x0 s).2 := by
  intro x0 s h
  unfold tenths
  try dsimp only
  repeat' first
    | with_reducible exact h | (intro) | with_reducible apply State.tookFree_keeps
    | with_reducible apply Keeps.ite_snd

theorem recordMeas_keeps {s0 : State} : ∀ x0 x1 x2 s, Keeps s0 s → Keeps s0 (recordMeas x0 x1 x2 s) := by
  intro x0 x1 x2 s h
  unfold recordMeas
  try dsimp only
  repeat' first
    | with_reducible exact h | (intro) | with_reducible apply State.tookFree_keeps
    | with_reducible apply modCirc_keeps | with_reducible apply tenths_keeps | with_reducible apply Keeps.ite
    | with_reducible apply Keeps.foldl | refine Keeps.snd (by assumption) ?_ | split

theorem tuningFails_keeps {s0 : State} : ∀ x0 x1 s, Keeps s0 s → Keeps s0 (tuningFails x0 x1 s).2 := by
  intro x0 x1 s h
  unfold tuningFails
  try dsimp only
  repeat' first
    | with_reducible exact h | (intro) | with_reducible apply recordMeas_keeps | with_reducible apply report_keeps
    | with_reducible apply tenths_keeps | with_reducible apply Keeps.ite_snd

theorem switchOver_keeps {s0 : State} : ∀ x0 s, Keeps s0 s → Keeps s0 (switchOver x0 s) := by
  intro x0 s h
  unfold switchOver
  try dsimp only
  repeat' first
    | with_reducible exact h | (intro) | with_reducible apply circTo_keeps | with_reducible apply emit_keeps
    | with_reducible apply modCirc_keeps

theorem connectCirc_keeps {s0 : State} : ∀ x0 s, Keeps s0 s → Keeps s0 (connectCirc x0 s).2 := by
  intro x0 s h
  unfold connectCirc
  try dsimp only
  repeat' first
    | with_reducible exact h | (intro) | with_reducible apply modCirc_keeps | with_reducible apply switchOver_keeps
    | with_reducible apply Keeps.ite_snd | with_reducible apply Keeps.ite | with_reducible apply Keeps.foldl | split

theorem setupRefused_keeps {s0 : State} : ∀ x0 x1 s, Keeps s0 s → Keeps s0 (setupRefused x0 x1 s) := by
  intro x0 x1 s h
  unfold setupRefused
  try dsimp only
  repeat' first
    | with_reducible exact h | (intro) | with_reducible apply bumpFlue_keeps | with_reducible apply endDetached_keeps
    | with_reducible apply freeCirc_keeps | with_reducible apply Keeps.ite | with_reducible apply Keeps.foldl | split

theorem finishSetup_keeps {s0 : State} : ∀ x0 s, Keeps s0 s → Keeps s0 (finishSetup x0 s) := by
  intro x0 s h
  unfold finishSetup
  try dsimp only
  repeat' first
    | with_reducible exact h | (intro) | with_reducible apply bumpFlue_keeps | with_reducible apply circTo_keeps
    | with_reducible apply endDetached_keeps | with_reducible apply modCirc_keeps
    | with_reducible apply setupRefused_keeps | with_reducible apply switchOver_keeps
    | with_reducible apply tuningFails_keeps | with_reducible apply Keeps.ite | with_reducible apply Keeps.foldl
    | refine Keeps.snd (by assumption) ?_ | split

theorem drained_keeps {s0 : State} : ∀ x0 s, Keeps s0 s → Keeps s0 (drained x0 s) := by
  intro x0 s h
  unfold drained
  try dsimp only
  repeat' first
    | with_reducible exact h | (intro) | with_reducible apply finishSetup_keeps
    | with_reducible apply modLaneLink_keeps | with_reducible apply modLaneOpt_keeps | with_reducible apply Keeps.ite
    | with_reducible apply Keeps.foldl | split

theorem takeReserved_keeps {s0 : State} : ∀ x0 s, Keeps s0 s → Keeps s0 (takeReserved x0 s) := by
  intro x0 s h
  unfold takeReserved
  try dsimp only
  repeat' first
    | with_reducible exact h | (intro) | with_reducible apply modLaneOpt_keeps | with_reducible apply setLane_keeps

end Sys2Proof.Machine
end

