-- ==== Sys2Proof/Laws/KeepsLanes.lean ====
section
/-! SUPPORT. What the operations of Machine/Lanes.lean keep. -/

namespace Sys2Proof.Machine

theorem movePath_keeps {s0 : State} : ∀ x0 x1 s, Keeps s0 s → Keeps s0 (movePath x0 x1 s) := by
  intro x0 x1 s h
  unfold movePath
  try dsimp only
  repeat' first
    | with_reducible exact h | (intro) | with_reducible apply calSet_keeps | with_reducible apply modLaneOpt_keeps
    | with_reducible apply modLaser_keeps | with_reducible apply setLaser_keeps | with_reducible apply Keeps.ite
    | with_reducible apply Keeps.foldl | split | dsimp only | exact rfl | exact ⟨rfl, rfl⟩
    | exact ⟨rfl, rfl, rfl, rfl, rfl, rfl⟩ | assumption

theorem checkSlice_keeps {s0 : State} : ∀ x0 s, Keeps s0 s → Keeps s0 (checkSlice x0 s) := by
  intro x0 s h
  unfold checkSlice
  try dsimp only
  repeat' first
    | with_reducible exact h | (intro) | with_reducible apply State.modOptics_keeps
    | with_reducible apply askWithdraw_keeps | with_reducible apply bumpLink_keeps
    | with_reducible apply dropSlice_keeps | with_reducible apply Keeps.ite

theorem wakeSlices_keeps {s0 : State} : ∀ s, Keeps s0 s → Keeps s0 (wakeSlices s) := by
  intro s h
  unfold wakeSlices
  try dsimp only
  repeat' first
    | with_reducible exact h | (intro) | with_reducible apply checkSlice_keeps | with_reducible apply Keeps.ite
    | with_reducible apply Keeps.foldl | split | dsimp only | exact rfl | exact ⟨rfl, rfl⟩
    | exact ⟨rfl, rfl, rfl, rfl, rfl, rfl⟩ | assumption

theorem beginSlice_keeps {s0 : State} : ∀ x0 x1 s, Keeps s0 s → Keeps s0 (beginSlice x0 x1 s) := by
  intro x0 x1 s h
  unfold beginSlice
  try dsimp only
  repeat' first
    | with_reducible exact h | (intro) | with_reducible apply State.modOptics_keeps
    | with_reducible apply checkSlice_keeps | with_reducible apply Keeps.ite

theorem endSlice_keeps {s0 : State} : ∀ x0 x1 s, Keeps s0 s → Keeps s0 (endSlice x0 x1 s) := by
  intro x0 x1 s h
  unfold endSlice
  try dsimp only
  repeat' first
    | with_reducible exact h | (intro) | with_reducible apply dropSlice_keeps | with_reducible apply wakeSlices_keeps
    | with_reducible apply Keeps.ite

theorem skipSlice_keeps {s0 : State} : ∀ x0 s, Keeps s0 s → Keeps s0 (skipSlice x0 s) := by
  intro x0 s h
  unfold skipSlice
  try dsimp only
  repeat' first
    | with_reducible exact h | (intro) | with_reducible apply bumpLink_keeps | with_reducible apply endSlice_keeps
    | with_reducible apply Keeps.ite

theorem relight_keeps {s0 : State} : ∀ x0 s, Keeps s0 s → Keeps s0 (relight x0 s) := by
  intro x0 s h
  unfold relight
  try dsimp only
  repeat' first
    | with_reducible exact h | (intro) | with_reducible apply modLaneLink_keeps | with_reducible apply setLane_keeps
    | with_reducible apply Keeps.ite

theorem startPath_keeps {s0 : State} : ∀ x0 s, Keeps s0 s → Keeps s0 (startPath x0 s) := by
  intro x0 s h
  unfold startPath
  try dsimp only
  repeat' first
    | with_reducible exact h | (intro) | with_reducible apply movePath_keeps | with_reducible apply relight_keeps
    | with_reducible apply Keeps.ite | with_reducible apply Keeps.foldl | split | dsimp only | exact rfl
    | exact ⟨rfl, rfl⟩ | exact ⟨rfl, rfl, rfl, rfl, rfl, rfl⟩ | assumption

theorem settleSwaps_keeps {s0 : State} : ∀ s, Keeps s0 s → Keeps s0 (settleSwaps s) := by
  intro s h
  unfold settleSwaps
  try dsimp only
  repeat' first
    | with_reducible exact h | (intro) | with_reducible apply State.modOptics_keeps
    | with_reducible apply endCmds_keeps | with_reducible apply startPath_keeps
    | with_reducible apply wakeSlices_keeps | with_reducible apply Keeps.ite | with_reducible apply Keeps.foldl
    | split | dsimp only | exact rfl | exact ⟨rfl, rfl⟩ | exact ⟨rfl, rfl, rfl, rfl, rfl, rfl⟩ | assumption

theorem leaveSwap_keeps {s0 : State} : ∀ x0 s, Keeps s0 s → Keeps s0 (leaveSwap x0 s) := by
  intro x0 s h
  unfold leaveSwap
  try dsimp only
  repeat' first
    | with_reducible exact h | (intro) | with_reducible apply State.modOptics_keeps
    | with_reducible apply settleSwaps_keeps

theorem laneDown_keeps {s0 : State} : ∀ x0 s, Keeps s0 s → Keeps s0 (laneDown x0 s) := by
  intro x0 s h
  unfold laneDown
  try dsimp only
  repeat' first
    | with_reducible exact h | (intro) | with_reducible apply bumpBy_keeps | with_reducible apply drained_keeps
    | with_reducible apply dropAllRx_keeps | with_reducible apply endLaneCmds_keeps
    | with_reducible apply leaveSwap_keeps | with_reducible apply modLaneLink_keeps
    | with_reducible apply setLane_keeps | with_reducible apply skipSlice_keeps | with_reducible apply Keeps.ite

theorem unlinked_keeps {s0 : State} : ∀ x0 s, Keeps s0 s → Keeps s0 (unlinked x0 s) := by
  intro x0 s h
  unfold unlinked
  try dsimp only
  repeat' first
    | with_reducible exact h | (intro) | with_reducible apply State.tookFree_keeps
    | with_reducible apply modPort_keeps

theorem linkDown_keeps {s0 : State} : ∀ x0 s, Keeps s0 s → Keeps s0 (linkDown x0 s) := by
  intro x0 s h
  unfold linkDown
  try dsimp only
  repeat' first
    | with_reducible exact h | (intro) | with_reducible apply State.modLink_keeps | with_reducible apply bumpBy_keeps
    | with_reducible apply capturePort_keeps | with_reducible apply dropQueued_keeps
    | with_reducible apply laneDown_keeps | with_reducible apply latEnd_keeps | with_reducible apply unlinked_keeps
    | with_reducible apply Keeps.ite | with_reducible apply Keeps.foldl | split | dsimp only | exact rfl
    | exact ⟨rfl, rfl⟩ | exact ⟨rfl, rfl, rfl, rfl, rfl, rfl⟩ | assumption

theorem untx_keeps {s0 : State} : ∀ x0 s, Keeps s0 s → Keeps s0 (untx x0 s) := by
  intro x0 s h
  unfold untx
  try dsimp only
  repeat' first
    | with_reducible exact h | (intro) | with_reducible apply State.modLink_keeps
    | with_reducible apply modLaneLink_keeps | with_reducible apply Keeps.ite | with_reducible apply Keeps.foldl
    | split

theorem requeueCtl_keeps {s0 : State} : ∀ x0 x1 s, Keeps s0 s → Keeps s0 (requeueCtl x0 x1 s) := by
  intro x0 x1 s h
  unfold requeueCtl
  try dsimp only
  repeat' first
    | with_reducible exact h | (intro) | with_reducible apply modLaneLink_keeps | with_reducible apply Keeps.ite
    | with_reducible apply Keeps.foldl | split | dsimp only | exact rfl | exact ⟨rfl, rfl⟩
    | exact ⟨rfl, rfl, rfl, rfl, rfl, rfl⟩ | assumption

theorem askRehome_keeps {s0 : State} : ∀ x0 s, Keeps s0 s → Keeps s0 (askRehome x0 s) := by
  intro x0 s h
  unfold askRehome
  try dsimp only
  repeat' first
    | with_reducible exact h | (intro) | with_reducible apply State.tookFree_keeps
    | with_reducible apply modLaneLink_keeps | with_reducible apply sendControl_keeps

theorem noteEmpty_keeps {s0 : State} : ∀ x0 x1 s, Keeps s0 s → Keeps s0 (noteEmpty x0 x1 s) := by
  intro x0 x1 s h
  unfold noteEmpty
  try dsimp only
  repeat' first
    | with_reducible exact h | (intro) | with_reducible apply bumpEg_keeps | with_reducible apply capturePort_keeps
    | with_reducible apply latBegin_keeps | with_reducible apply Keeps.ite

theorem leaveAbrupt_keeps {s0 : State} : ∀ x0 x1 s, Keeps s0 s → Keeps s0 (leaveAbrupt x0 x1 s) := by
  intro x0 x1 s h
  unfold leaveAbrupt
  try dsimp only
  repeat' first
    | with_reducible exact h | (intro) | with_reducible apply askRehome_keeps | with_reducible apply bumpLink_keeps
    | with_reducible apply dropRx_keeps | with_reducible apply flushPort_keeps | with_reducible apply linkDown_keeps
    | with_reducible apply modLaneLink_keeps | with_reducible apply noteEmpty_keeps
    | with_reducible apply requeueCtl_keeps | with_reducible apply untx_keeps | with_reducible apply Keeps.ite
    | with_reducible apply Keeps.foldl | split

theorem drainLost_keeps {s0 : State} : ∀ x0 s, Keeps s0 s → Keeps s0 (drainLost x0 s) := by
  intro x0 s h
  unfold drainLost
  try dsimp only
  repeat' first
    | with_reducible exact h | (intro) | with_reducible apply drained_keeps | with_reducible apply leaveAbrupt_keeps
    | with_reducible apply Keeps.ite

theorem takeAbrupt_keeps {s0 : State} : ∀ x0 s, Keeps s0 s → Keeps s0 (takeAbrupt x0 s) := by
  intro x0 s h
  unfold takeAbrupt
  try dsimp only
  repeat' first
    | with_reducible exact h | (intro) | with_reducible apply drained_keeps | with_reducible apply endLaneCmds_keeps
    | with_reducible apply leaveAbrupt_keeps | with_reducible apply leaveSwap_keeps
    | with_reducible apply setLane_keeps | with_reducible apply skipSlice_keeps

theorem abruptExit_keeps {s0 : State} : ∀ x0 s, Keeps s0 s → Keeps s0 (abruptExit x0 s) := by
  intro x0 s h
  unfold abruptExit
  try dsimp only
  repeat' first
    | with_reducible exact h | (intro) | with_reducible apply drainLost_keeps | with_reducible apply leaveAbrupt_keeps
    | with_reducible apply leaveSwap_keeps | with_reducible apply modLaneLink_keeps
    | with_reducible apply setLane_keeps | with_reducible apply skipSlice_keeps
    | with_reducible apply takeAbrupt_keeps | with_reducible apply Keeps.ite

theorem bankLane_keeps {s0 : State} : ∀ x0 x1 s, Keeps s0 s → Keeps s0 (bankLane x0 x1 s) := by
  intro x0 x1 s h
  unfold bankLane
  try dsimp only
  repeat' first
    | with_reducible exact h | (intro) | with_reducible apply drainLost_keeps | with_reducible apply endLaneCmds_keeps
    | with_reducible apply endSlice_keeps | with_reducible apply leaveAbrupt_keeps
    | with_reducible apply modLaneOpt_keeps | with_reducible apply setLane_keeps
    | with_reducible apply takeAbrupt_keeps | with_reducible apply Keeps.ite

theorem wrongLock_keeps {s0 : State} : ∀ x0 x1 x2 s, Keeps s0 s → Keeps s0 (wrongLock x0 x1 x2 s) := by
  intro x0 x1 x2 s h
  unfold wrongLock
  try dsimp only
  repeat' first
    | with_reducible exact h | (intro) | with_reducible apply bankLane_keeps | with_reducible apply bumpLink_keeps
    | with_reducible apply leaveSwap_keeps | with_reducible apply modLaneOpt_keeps | with_reducible apply Keeps.ite

theorem settleIdle_keeps {s0 : State} : ∀ x0 s, Keeps s0 s → Keeps s0 (settleIdle x0 s) := by
  intro x0 s h
  unfold settleIdle
  try dsimp only
  repeat' first
    | with_reducible exact h | (intro) | with_reducible apply bankLane_keeps | with_reducible apply drained_keeps
    | with_reducible apply leaveSwap_keeps | with_reducible apply Keeps.ite | with_reducible apply Keeps.foldl | split

theorem withdrawLane_keeps {s0 : State} : ∀ x0 x1 s, Keeps s0 s → Keeps s0 (withdrawLane x0 x1 s) := by
  intro x0 x1 s h
  unfold withdrawLane
  try dsimp only
  repeat' first
    | with_reducible exact h | (intro) | with_reducible apply modLaneLink_keeps
    | with_reducible apply modLaneOpt_keeps | with_reducible apply noteEmpty_keeps
    | with_reducible apply setLane_keeps | with_reducible apply settleIdle_keeps | with_reducible apply Keeps.ite
    | with_reducible apply Keeps.foldl | split

theorem takeGranted_keeps {s0 : State} : ∀ x0 s, Keeps s0 s → Keeps s0 (takeGranted x0 s) := by
  intro x0 s h
  unfold takeGranted
  try dsimp only
  repeat' first
    | with_reducible exact h | (intro) | with_reducible apply endLaneCmds_keeps | with_reducible apply leaveSwap_keeps
    | with_reducible apply linkDown_keeps | with_reducible apply noteEmpty_keeps
    | with_reducible apply settleIdle_keeps | with_reducible apply skipSlice_keeps
    | with_reducible apply takeReserved_keeps | with_reducible apply Keeps.ite | with_reducible apply Keeps.foldl
    | split

theorem settleDrains_keeps {s0 : State} : ∀ s, Keeps s0 s → Keeps s0 (settleDrains s) := by
  intro s h
  unfold settleDrains
  try dsimp only
  repeat' first
    | with_reducible exact h | (intro) | with_reducible apply settleIdle_keeps | with_reducible apply Keeps.ite
    | with_reducible apply Keeps.foldl | split | dsimp only | exact rfl | exact ⟨rfl, rfl⟩
    | exact ⟨rfl, rfl, rfl, rfl, rfl, rfl⟩ | assumption

theorem joinService_keeps {s0 : State} : ∀ x0 s, Keeps s0 s → Keeps s0 (joinService x0 s) := by
  intro x0 s h
  unfold joinService
  try dsimp only
  repeat' first
    | with_reducible exact h | (intro) | with_reducible apply capturePort_keeps | with_reducible apply joinLane_keeps
    | with_reducible apply joinSlots_keeps | with_reducible apply latEnd_keeps
    | with_reducible apply modLaneLink_keeps | with_reducible apply modLaneOpt_keeps | with_reducible apply pump_keeps
    | with_reducible apply setLane_keeps | with_reducible apply Keeps.ite | with_reducible apply Keeps.foldl | split

end Sys2Proof.Machine
end

