-- ==== Sys2Proof/Laws/KeepsOptics.lean ====
section
/-! SUPPORT. What the operations of Machine/Optics.lean keep. -/

namespace Sys2Proof.Machine

theorem overdue_keeps {s0 : State} : ∀ x0 s, Keeps s0 s → Keeps s0 (overdue x0 s) := by
  intro x0 s h
  unfold overdue
  try dsimp only
  repeat' first
    | with_reducible exact h | (intro) | with_reducible apply bumpLink_keeps | with_reducible apply modLaneOpt_keeps
    | with_reducible apply report_keeps | with_reducible apply Keeps.ite

theorem testSpares_keeps {s0 : State} : ∀ x0 x1 s, Keeps s0 s → Keeps s0 (testSpares x0 x1 s) := by
  intro x0 x1 s h
  unfold testSpares
  try dsimp only
  repeat' first
    | with_reducible exact h | (intro) | with_reducible apply bump_keeps | with_reducible apply setLaser_keeps
    | with_reducible apply Keeps.ite | with_reducible apply Keeps.foldl | split | dsimp only | exact rfl
    | exact ⟨rfl, rfl⟩ | exact ⟨rfl, rfl, rfl, rfl, rfl, rfl⟩ | assumption

theorem calSliceStart_keeps {s0 : State} : ∀ x0 x1 x2 s, Keeps s0 s → Keeps s0 (calSliceStart x0 x1 x2 s) := by
  intro x0 x1 x2 s h
  unfold calSliceStart
  try dsimp only
  repeat' first
    | with_reducible exact h | (intro) | with_reducible apply State.modOptics_keeps
    | with_reducible apply beginSlice_keeps | with_reducible apply overdue_keeps
    | with_reducible apply testSpares_keeps | with_reducible apply Keeps.ite

theorem barnRef_keeps {s0 : State} : ∀ x0 x1 s, Keeps s0 s → Keeps s0 (barnRef x0 x1 s) := by
  intro x0 x1 s h
  unfold barnRef
  try dsimp only
  repeat' first
    | with_reducible exact h | (intro) | with_reducible apply State.modOptics_keeps | with_reducible apply bump_keeps
    | with_reducible apply report_keeps | with_reducible apply Keeps.ite

theorem restoreLane_keeps {s0 : State} : ∀ x0 s, Keeps s0 s → Keeps s0 (restoreLane x0 s) := by
  intro x0 s h
  unfold restoreLane
  try dsimp only
  repeat' first
    | with_reducible exact h | (intro) | with_reducible apply joinService_keeps
    | with_reducible apply modLaneLink_keeps | with_reducible apply modLaneOpt_keeps
    | with_reducible apply setLane_keeps | with_reducible apply Keeps.ite | with_reducible apply Keeps.foldl | split

theorem recoverStep_keeps {s0 : State} : ∀ x0 x1 x2 s, Keeps s0 s → Keeps s0 (recoverStep x0 x1 x2 s) := by
  intro x0 x1 x2 s h
  unfold recoverStep
  try dsimp only
  repeat' first
    | with_reducible exact h | (intro) | with_reducible apply endCmd_keeps | with_reducible apply endWith_keeps
    | with_reducible apply modLaneOpt_keeps | with_reducible apply report_keeps
    | with_reducible apply restoreLane_keeps | with_reducible apply Keeps.ite | with_reducible apply Keeps.foldl
    | split

theorem shortFail_keeps {s0 : State} : ∀ x0 s, Keeps s0 s → Keeps s0 (shortFail x0 s) := by
  intro x0 s h
  unfold shortFail
  try dsimp only
  repeat' first
    | with_reducible exact h | (intro) | with_reducible apply abruptExit_keeps
    | with_reducible apply endLaneCmds_keeps | with_reducible apply modLaneLink_keeps | with_reducible apply Keeps.ite

theorem sliceEnds_keeps {s0 : State} : ∀ x0 x1 x2 s, Keeps s0 s → Keeps s0 (sliceEnds x0 x1 x2 s) := by
  intro x0 x1 x2 s h
  unfold sliceEnds
  try dsimp only
  repeat' first
    | with_reducible exact h | (intro) | with_reducible apply bankLane_keeps | with_reducible apply barnRef_keeps
    | with_reducible apply bumpBy_keeps | with_reducible apply bumpLink_keeps | with_reducible apply endSlice_keeps
    | with_reducible apply joinService_keeps | with_reducible apply modLaneOpt_keeps
    | with_reducible apply report_keeps | with_reducible apply setSwing_keeps | with_reducible apply wrongLock_keeps
    | with_reducible apply Keeps.ite | with_reducible apply Keeps.foldl | split

theorem plainEnds_keeps {s0 : State} : ∀ x0 x1 s, Keeps s0 s → Keeps s0 (plainEnds x0 x1 s) := by
  intro x0 x1 s h
  unfold plainEnds
  try dsimp only
  repeat' first
    | with_reducible exact h | (intro) | with_reducible apply endLaneCmds_keeps
    | with_reducible apply joinService_keeps | with_reducible apply shortFail_keeps
    | with_reducible apply wrongLock_keeps | with_reducible apply Keeps.ite | with_reducible apply Keeps.foldl | split

theorem shortRetrain_keeps {s0 : State} : ∀ x0 x1 x2 x3 s, Keeps s0 s → Keeps s0 (shortRetrain x0 x1 x2 x3 s) := by
  intro x0 x1 x2 x3 s h
  unfold shortRetrain
  try dsimp only
  repeat' first
    | with_reducible exact h | (intro) | with_reducible apply joinService_keeps | with_reducible apply leaveSwap_keeps
    | with_reducible apply modLaneLink_keeps | with_reducible apply plainEnds_keeps
    | with_reducible apply recoverStep_keeps | with_reducible apply restoreLane_keeps
    | with_reducible apply sayCap_keeps | with_reducible apply sliceEnds_keeps | with_reducible apply startPath_keeps
    | with_reducible apply wrongLock_keeps | with_reducible apply Keeps.ite | with_reducible apply Keeps.foldl | split

theorem lockLost_keeps {s0 : State} : ∀ x0 x1 s, Keeps s0 s → Keeps s0 (lockLost x0 x1 s) := by
  intro x0 x1 s h
  unfold lockLost
  try dsimp only
  repeat' first
    | with_reducible exact h | (intro) | with_reducible apply wrongLock_keeps | with_reducible apply Keeps.ite

theorem bumpKiln_keeps {s0 : State} : ∀ x0 x1 s, Keeps s0 s → Keeps s0 (bumpKiln x0 x1 s) := by
  intro x0 x1 s h
  unfold bumpKiln
  try dsimp only
  repeat' first
    | with_reducible exact h | (intro) | with_reducible apply bump_keeps

theorem swapBare_keeps {s0 : State} : ∀ x0 s, Keeps s0 s → Keeps s0 (swapBare x0 s) := by
  intro x0 s h
  unfold swapBare
  try dsimp only
  repeat' first
    | with_reducible exact h | (intro) | with_reducible apply State.modOptics_keeps
    | with_reducible apply bumpKiln_keeps | with_reducible apply endCmds_keeps | with_reducible apply report_keeps
    | with_reducible apply wakeSlices_keeps

theorem tuneSpare_keeps {s0 : State} : ∀ x0 s, Keeps s0 s → Keeps s0 (tuneSpare x0 s) := by
  intro x0 s h
  unfold tuneSpare
  try dsimp only
  repeat' first
    | with_reducible exact h | (intro) | with_reducible apply modLaser_keeps | with_reducible apply setLaser_keeps

theorem startSwap_keeps {s0 : State} : ∀ x0 x1 s, Keeps s0 s → Keeps s0 (startSwap x0 x1 s) := by
  intro x0 x1 s h
  unfold startSwap
  try dsimp only
  repeat' first
    | with_reducible exact h | (intro) | with_reducible apply State.modOptics_keeps
    | with_reducible apply askWithdraw_keeps | with_reducible apply setLaser_keeps
    | with_reducible apply settleIdle_keeps | with_reducible apply settleSwaps_keeps
    | with_reducible apply swapBare_keeps | with_reducible apply tuneSpare_keeps | with_reducible apply Keeps.ite
    | with_reducible apply Keeps.foldl | split | dsimp only | exact rfl | exact ⟨rfl, rfl⟩
    | exact ⟨rfl, rfl, rfl, rfl, rfl, rfl⟩ | assumption

theorem kilnSwapStart_keeps {s0 : State} : ∀ x0 s, Keeps s0 s → Keeps s0 (kilnSwapStart x0 s) := by
  intro x0 s h
  unfold kilnSwapStart
  try dsimp only
  repeat' first
    | with_reducible exact h | (intro) | with_reducible apply bumpKiln_keeps | with_reducible apply startSwap_keeps
    | with_reducible apply Keeps.ite | with_reducible apply Keeps.foldl | split

theorem queueSwap_keeps {s0 : State} : ∀ x0 x1 x2 s, Keeps s0 s → Keeps s0 (queueSwap x0 x1 x2 s) := by
  intro x0 x1 x2 s h
  unfold queueSwap
  try dsimp only
  repeat' first
    | with_reducible exact h | (intro) | with_reducible apply State.modOptics_keeps

theorem failLaser_keeps {s0 : State} : ∀ x0 s, Keeps s0 s → Keeps s0 (failLaser x0 s) := by
  intro x0 s h
  unfold failLaser
  try dsimp only
  repeat' first
    | with_reducible exact h | (intro) | with_reducible apply modLaser_keeps | with_reducible apply setLaser_keeps

theorem laserFails_keeps {s0 : State} : ∀ x0 s, Keeps s0 s → Keeps s0 (laserFails x0 s) := by
  intro x0 s h
  unfold laserFails
  try dsimp only
  repeat' first
    | with_reducible exact h | (intro) | with_reducible apply State.modOptics_keeps
    | with_reducible apply bankLane_keeps | with_reducible apply bumpKiln_keeps | with_reducible apply failLaser_keeps
    | with_reducible apply report_keeps | with_reducible apply settleSwaps_keeps
    | with_reducible apply startSwap_keeps | with_reducible apply wakeSlices_keeps | with_reducible apply Keeps.ite
    | with_reducible apply Keeps.foldl | split | dsimp only | exact rfl | exact ⟨rfl, rfl⟩
    | exact ⟨rfl, rfl, rfl, rfl, rfl, rfl⟩ | assumption

theorem spareFails_keeps {s0 : State} : ∀ x0 x1 s, Keeps s0 s → Keeps s0 (spareFails x0 x1 s) := by
  intro x0 x1 s h
  unfold spareFails
  try dsimp only
  repeat' first
    | with_reducible exact h | (intro) | with_reducible apply State.modOptics_keeps
    | with_reducible apply bumpKiln_keeps | with_reducible apply failLaser_keeps | with_reducible apply report_keeps
    | with_reducible apply setLaser_keeps | with_reducible apply swapBare_keeps | with_reducible apply tuneSpare_keeps
    | with_reducible apply Keeps.ite | with_reducible apply Keeps.foldl | split

theorem warnFade_keeps {s0 : State} : ∀ x0 x1 s, Keeps s0 s → Keeps s0 (warnFade x0 x1 s) := by
  intro x0 x1 s h
  unfold warnFade
  try dsimp only
  repeat' first
    | with_reducible exact h | (intro) | with_reducible apply bumpKiln_keeps | with_reducible apply report_keeps
    | with_reducible apply setLaser_keeps | with_reducible apply Keeps.ite

theorem swapFade_keeps {s0 : State} : ∀ x0 x1 x2 s, Keeps s0 s → Keeps s0 (swapFade x0 x1 x2 s) := by
  intro x0 x1 x2 s h
  unfold swapFade
  try dsimp only
  repeat' first
    | with_reducible exact h | (intro) | with_reducible apply bumpKiln_keeps | with_reducible apply queueSwap_keeps
    | with_reducible apply report_keeps | with_reducible apply Keeps.ite | with_reducible apply Keeps.foldl | split

theorem darkFade_keeps {s0 : State} : ∀ x0 x1 s, Keeps s0 s → Keeps s0 (darkFade x0 x1 s) := by
  intro x0 x1 s h
  unfold darkFade
  try dsimp only
  repeat' first
    | with_reducible exact h | (intro) | with_reducible apply bankLane_keeps | with_reducible apply bumpKiln_keeps
    | with_reducible apply modLaser_keeps | with_reducible apply startSwap_keeps | with_reducible apply Keeps.ite
    | with_reducible apply Keeps.foldl | split | dsimp only | exact rfl | exact ⟨rfl, rfl⟩
    | exact ⟨rfl, rfl, rfl, rfl, rfl, rfl⟩ | assumption

theorem actOnFade_keeps {s0 : State} : ∀ x0 x1 x2 s, Keeps s0 s → Keeps s0 (actOnFade x0 x1 x2 s) := by
  intro x0 x1 x2 s h
  unfold actOnFade
  try dsimp only
  repeat' first
    | with_reducible exact h | (intro) | with_reducible apply darkFade_keeps | with_reducible apply swapFade_keeps
    | with_reducible apply warnFade_keeps

theorem laserReading_keeps {s0 : State} : ∀ x0 x1 s, Keeps s0 s → Keeps s0 (laserReading x0 x1 s) := by
  intro x0 x1 s h
  unfold laserReading
  try dsimp only
  repeat' first
    | with_reducible exact h | (intro) | with_reducible apply State.tookFree_keeps
    | with_reducible apply actOnFade_keeps | with_reducible apply laserFails_keeps
    | with_reducible apply modLaser_keeps | with_reducible apply spareFails_keeps | with_reducible apply Keeps.ite
    | with_reducible apply Keeps.foldl | split

theorem lightLaser_keeps {s0 : State} : ∀ x0 s, Keeps s0 s → Keeps s0 (lightLaser x0 s) := by
  intro x0 s h
  unfold lightLaser
  try dsimp only
  repeat' first
    | with_reducible exact h | (intro) | with_reducible apply modLaser_keeps | with_reducible apply setLaser_keeps
    | with_reducible apply Keeps.ite

theorem measureLaser_keeps {s0 : State} : ∀ x0 x1 s, Keeps s0 s → Keeps s0 (measureLaser x0 x1 s) := by
  intro x0 x1 s h
  unfold measureLaser
  try dsimp only
  repeat' first
    | with_reducible exact h | (intro) | with_reducible apply bankLane_keeps | with_reducible apply modLaser_keeps
    | with_reducible apply movePath_keeps | with_reducible apply Keeps.ite | with_reducible apply Keeps.foldl | split
    | dsimp only | exact rfl | exact ⟨rfl, rfl⟩ | exact ⟨rfl, rfl, rfl, rfl, rfl, rfl⟩ | assumption

theorem lightHalf_keeps {s0 : State} : ∀ x0 s, Keeps s0 s → Keeps s0 (lightHalf x0 s) := by
  intro x0 s h
  unfold lightHalf
  try dsimp only
  repeat' first
    | with_reducible exact h | (intro) | with_reducible apply lightLaser_keeps | with_reducible apply modLaneOpt_keeps
    | with_reducible apply Keeps.ite | with_reducible apply Keeps.foldl | split | dsimp only | exact rfl
    | exact ⟨rfl, rfl⟩ | exact ⟨rfl, rfl, rfl, rfl, rfl, rfl⟩ | assumption

theorem loseRecord_keeps {s0 : State} : ∀ x0 x1 s, Keeps s0 s → Keeps s0 (loseRecord x0 x1 s) := by
  intro x0 x1 s h
  unfold loseRecord
  try dsimp only
  repeat' first
    | with_reducible exact h | (intro) | with_reducible apply calSet_keeps

theorem calStore_keeps {s0 : State} : ∀ x0 x1 s, Keeps s0 s → Keeps s0 (calStore x0 x1 s) := by
  intro x0 x1 s h
  unfold calStore
  try dsimp only
  repeat' first
    | with_reducible exact h | (intro) | with_reducible apply report_keeps

theorem remapLaser_keeps {s0 : State} : ∀ x0 x1 s, Keeps s0 s → Keeps s0 (remapLaser x0 x1 s) := by
  intro x0 x1 s h
  unfold remapLaser
  try dsimp only
  repeat' first
    | with_reducible exact h | (intro) | with_reducible apply bankLane_keeps | with_reducible apply calSet_keeps
    | with_reducible apply movePath_keeps | with_reducible apply setLaser_keeps | with_reducible apply Keeps.ite
    | with_reducible apply Keeps.foldl | split | dsimp only | exact rfl | exact ⟨rfl, rfl⟩
    | exact ⟨rfl, rfl, rfl, rfl, rfl, rfl⟩ | assumption

theorem factoryLost_keeps {s0 : State} : ∀ x0 x1 s, Keeps s0 s → Keeps s0 (factoryLost x0 x1 s) := by
  intro x0 x1 s h
  unfold factoryLost
  try dsimp only
  repeat' first
    | with_reducible exact h | (intro) | with_reducible apply bankLane_keeps | with_reducible apply calStore_keeps
    | with_reducible apply failLaser_keeps | with_reducible apply Keeps.ite | with_reducible apply Keeps.foldl | split
    | dsimp only | exact rfl | exact ⟨rfl, rfl⟩ | exact ⟨rfl, rfl, rfl, rfl, rfl, rfl⟩ | assumption

theorem powerUpOptics_keeps {s0 : State} : ∀ x0 x1 s, Keeps s0 s → Keeps s0 (powerUpOptics x0 x1 s) := by
  intro x0 x1 s h
  unfold powerUpOptics
  try dsimp only
  repeat' first
    | with_reducible exact h | (intro) | with_reducible apply bankLane_keeps | with_reducible apply bumpLink_keeps
    | with_reducible apply calStore_keeps | with_reducible apply factoryLost_keeps
    | with_reducible apply lightHalf_keeps | with_reducible apply loseRecord_keeps
    | with_reducible apply measureLaser_keeps | with_reducible apply remapLaser_keeps | with_reducible apply Keeps.ite
    | with_reducible apply Keeps.foldl | split | dsimp only | exact rfl | exact ⟨rfl, rfl⟩
    | exact ⟨rfl, rfl, rfl, rfl, rfl, rfl⟩ | assumption

theorem sampleLane_keeps {s0 : State} : ∀ x0 s, Keeps s0 s → Keeps s0 (sampleLane x0 s) := by
  intro x0 s h
  unfold sampleLane
  try dsimp only
  repeat' first
    | with_reducible exact h | (intro) | with_reducible apply State.tookFree_keeps
    | with_reducible apply modLaneOpt_keeps | with_reducible apply Keeps.ite

theorem laneStatusRead_keeps {s0 : State} : ∀ x0 s, Keeps s0 s → Keeps s0 (laneStatusRead x0 s).1 := by
  intro x0 s h
  unfold laneStatusRead
  try dsimp only
  repeat' first
    | with_reducible exact h | (intro) | with_reducible apply cmdOk_keeps | with_reducible apply cmdRefuse_keeps
    | with_reducible apply hostWrite_keeps | with_reducible apply sampleLane_keeps
    | with_reducible apply Keeps.ite_fst | with_reducible apply Keeps.ite | with_reducible apply Keeps.foldl
    | refine Keeps.fst (by assumption) ?_ | split | dsimp only | exact rfl | exact ⟨rfl, rfl⟩
    | exact ⟨rfl, rfl, rfl, rfl, rfl, rfl⟩ | assumption

theorem kilnStatusRead_keeps {s0 : State} : ∀ x0 s, Keeps s0 s → Keeps s0 (kilnStatusRead x0 s).1 := by
  intro x0 s h
  unfold kilnStatusRead
  try dsimp only
  repeat' first
    | with_reducible exact h | (intro) | with_reducible apply cmdOk_keeps | with_reducible apply hostWrite_keeps

theorem calConfig_keeps {s0 : State} : ∀ x0 s, Keeps s0 s → Keeps s0 (calConfig x0 s).1 := by
  intro x0 s h
  unfold calConfig
  try dsimp only
  repeat' first
    | with_reducible exact h | (intro) | with_reducible apply State.modOptics_keeps | with_reducible apply cmdOk_keeps
    | with_reducible apply cmdRefuse_keeps | with_reducible apply Keeps.ite_fst

theorem calLane_keeps {s0 : State} : ∀ x0 x1 x2 s, Keeps s0 s → Keeps s0 (calLane x0 x1 x2 s).1 := by
  intro x0 x1 x2 s h
  unfold calLane
  try dsimp only
  repeat' first
    | with_reducible exact h | (intro) | with_reducible apply State.modOptics_keeps
    | with_reducible apply addDetached_keeps | with_reducible apply beginSlice_keeps
    | with_reducible apply cmdRefuse_keeps | with_reducible apply Keeps.ite_fst

theorem laneBank_keeps {s0 : State} : ∀ x0 x1 s, Keeps s0 s → Keeps s0 (laneBank x0 x1 s).1 := by
  intro x0 x1 s h
  unfold laneBank
  try dsimp only
  repeat' first
    | with_reducible exact h | (intro) | with_reducible apply addDetached_keeps
    | with_reducible apply askWithdraw_keeps | with_reducible apply bankLane_keeps | with_reducible apply cmdOk_keeps
    | with_reducible apply cmdRefuse_keeps | with_reducible apply modLaneOpt_keeps
    | with_reducible apply settleIdle_keeps | with_reducible apply Keeps.ite_fst | with_reducible apply Keeps.ite
    | with_reducible apply Keeps.foldl | refine Keeps.fst (by assumption) ?_ | split

theorem laneUnbank_keeps {s0 : State} : ∀ x0 x1 s, Keeps s0 s → Keeps s0 (laneUnbank x0 x1 s).1 := by
  intro x0 x1 s h
  unfold laneUnbank
  try dsimp only
  repeat' first
    | with_reducible exact h | (intro) | with_reducible apply addDetached_keeps | with_reducible apply cmdRefuse_keeps
    | with_reducible apply modLaneOpt_keeps | with_reducible apply Keeps.ite_fst

theorem kilnSwap_keeps {s0 : State} : ∀ x0 x1 s, Keeps s0 s → Keeps s0 (kilnSwap x0 x1 s).1 := by
  intro x0 x1 s h
  unfold kilnSwap
  try dsimp only
  repeat' first
    | with_reducible exact h | (intro) | with_reducible apply State.modOptics_keeps
    | with_reducible apply addDetached_keeps | with_reducible apply cmdRefuse_keeps
    | with_reducible apply queueSwap_keeps | with_reducible apply Keeps.ite_fst | with_reducible apply Keeps.ite
    | with_reducible apply Keeps.foldl | refine Keeps.fst (by assumption) ?_ | split

theorem execLaneStatusRead_keeps : ∀ x0 x1 s, KeepsOut s (execLaneStatusRead x0 x1 s) := by
  intro x0 x1 s
  unfold execLaneStatusRead
  refine runMailbox_keeps fun c t h => ?_
  try dsimp only
  repeat' first
    | with_reducible exact h | (intro) | with_reducible apply Keeps.ite_fst
    | with_reducible apply laneStatusRead_keeps | with_reducible apply Keeps.ite

theorem execKilnStatusRead_keeps : ∀ x0 x1 s, KeepsOut s (execKilnStatusRead x0 x1 s) := by
  intro x0 x1 s
  unfold execKilnStatusRead
  refine runMailbox_keeps fun c t h => ?_
  try dsimp only
  repeat' first
    | with_reducible exact h | (intro) | with_reducible apply Keeps.ite_fst
    | with_reducible apply kilnStatusRead_keeps | with_reducible apply Keeps.ite

theorem execCalConfig_keeps : ∀ x0 x1 s, KeepsOut s (execCalConfig x0 x1 s) := by
  intro x0 x1 s
  unfold execCalConfig
  refine runMailbox_keeps fun c t h => ?_
  try dsimp only
  repeat' first
    | with_reducible exact h | (intro) | with_reducible apply Keeps.ite_fst | with_reducible apply calConfig_keeps
    | with_reducible apply Keeps.ite

theorem execCalLane_keeps : ∀ x0 x1 x2 s, KeepsOut s (execCalLane x0 x1 x2 s) := by
  intro x0 x1 x2 s
  unfold execCalLane
  refine runMailbox_keeps fun c t h => ?_
  try dsimp only
  repeat' first
    | with_reducible exact h | (intro) | with_reducible apply Keeps.ite_fst | with_reducible apply calLane_keeps
    | with_reducible apply Keeps.ite

theorem execLaneBank_keeps : ∀ x0 x1 s, KeepsOut s (execLaneBank x0 x1 s) := by
  intro x0 x1 s
  unfold execLaneBank
  refine runMailbox_keeps fun c t h => ?_
  try dsimp only
  repeat' first
    | with_reducible exact h | (intro) | with_reducible apply Keeps.ite_fst | with_reducible apply laneBank_keeps
    | with_reducible apply Keeps.ite

theorem execLaneUnbank_keeps : ∀ x0 x1 s, KeepsOut s (execLaneUnbank x0 x1 s) := by
  intro x0 x1 s
  unfold execLaneUnbank
  refine runMailbox_keeps fun c t h => ?_
  try dsimp only
  repeat' first
    | with_reducible exact h | (intro) | with_reducible apply Keeps.ite_fst | with_reducible apply laneUnbank_keeps
    | with_reducible apply Keeps.ite

theorem execKilnSwap_keeps : ∀ x0 x1 s, KeepsOut s (execKilnSwap x0 x1 s) := by
  intro x0 x1 s
  unfold execKilnSwap
  refine runMailbox_keeps fun c t h => ?_
  try dsimp only
  repeat' first
    | with_reducible exact h | (intro) | with_reducible apply Keeps.ite_fst | with_reducible apply kilnSwap_keeps
    | with_reducible apply Keeps.ite

theorem execCalSliceStart_keeps : ∀ x0 x1 x2 s, KeepsOut s (execCalSliceStart x0 x1 x2 s) := by
  intro x0 x1 x2 s
  unfold execCalSliceStart
  have h := Keeps.refl s
  try dsimp only
  repeat' first
    | with_reducible apply KeepsOut.next | with_reducible apply KeepsOut.ite | with_reducible exact KeepsOut.refused
    | with_reducible exact h | (intro) | with_reducible apply calSliceStart_keeps | with_reducible apply Keeps.ite

theorem execLockLost_keeps : ∀ x0 s, KeepsOut s (execLockLost x0 s) := by
  intro x0 s
  unfold execLockLost
  have h := Keeps.refl s
  try dsimp only
  repeat' first
    | with_reducible apply KeepsOut.next | with_reducible apply KeepsOut.ite | with_reducible exact KeepsOut.refused
    | with_reducible exact h | (intro) | with_reducible apply lockLost_keeps | with_reducible apply Keeps.ite

theorem execLaserReading_keeps : ∀ x0 x1 s, KeepsOut s (execLaserReading x0 x1 s) := by
  intro x0 x1 s
  unfold execLaserReading
  have h := Keeps.refl s
  try dsimp only
  repeat' first
    | with_reducible apply KeepsOut.next | with_reducible apply KeepsOut.ite | with_reducible exact KeepsOut.refused
    | with_reducible exact h | (intro) | with_reducible apply laserReading_keeps | with_reducible apply Keeps.ite

theorem execKilnSwapStart_keeps : ∀ x0 s, KeepsOut s (execKilnSwapStart x0 s) := by
  intro x0 s
  unfold execKilnSwapStart
  have h := Keeps.refl s
  try dsimp only
  repeat' first
    | with_reducible apply KeepsOut.next | with_reducible apply KeepsOut.ite | with_reducible exact KeepsOut.refused
    | with_reducible exact h | (intro) | with_reducible apply kilnSwapStart_keeps | with_reducible apply Keeps.ite

theorem execShortRetrain_keeps : ∀ x0 x1 x2 s, KeepsOut s (execShortRetrain x0 x1 x2 s) := by
  intro x0 x1 x2 s
  unfold execShortRetrain
  have h := Keeps.refl s
  try dsimp only
  repeat' first
    | with_reducible apply KeepsOut.next | with_reducible apply KeepsOut.ite | with_reducible exact KeepsOut.refused
    | with_reducible exact h | (intro) | with_reducible apply shortRetrain_keeps | with_reducible apply Keeps.ite

end Sys2Proof.Machine
end

