-- ==== Sys2Proof/Laws/KeepsLink.lean ====
section
/-! SUPPORT. What the operations of Machine/Link.lean keep. -/

namespace Sys2Proof.Machine

theorem deliver_keeps {s0 : State} : ∀ x0 s, Keeps s0 s → Keeps s0 (deliver x0 s) := by
  intro x0 s h
  unfold deliver
  try dsimp only
  repeat' first
    | with_reducible exact h | (intro) | with_reducible apply modRet_keeps | with_reducible apply Keeps.ite
    | with_reducible apply Keeps.foldl | split

theorem ackUpTo_keeps {s0 : State} : ∀ x0 x1 s, Keeps s0 s → Keeps s0 (ackUpTo x0 x1 s) := by
  intro x0 x1 s h
  unfold ackUpTo
  try dsimp only
  repeat' first
    | with_reducible exact h | (intro) | with_reducible apply deliver_keeps | with_reducible apply modLaneLink_keeps
    | with_reducible apply pump_keeps | with_reducible apply settleIdle_keeps | with_reducible apply Keeps.ite
    | with_reducible apply Keeps.foldl | split | dsimp only | exact rfl | exact ⟨rfl, rfl⟩
    | exact ⟨rfl, rfl, rfl, rfl, rfl, rfl⟩ | assumption

theorem replay_keeps {s0 : State} : ∀ x0 s, Keeps s0 s → Keeps s0 (replay x0 s) := by
  intro x0 s h
  unfold replay
  try dsimp only
  repeat' first
    | with_reducible exact h | (intro) | with_reducible apply bumpLink_keeps | with_reducible apply emit_keeps
    | with_reducible apply markerDue_keeps | with_reducible apply modLaneLink_keeps
    | with_reducible apply putRaw_keeps | with_reducible apply Keeps.ite | with_reducible apply Keeps.foldl | split
    | dsimp only | exact rfl | exact ⟨rfl, rfl⟩ | exact ⟨rfl, rfl, rfl, rfl, rfl, rfl⟩ | assumption

theorem sayNak_keeps {s0 : State} : ∀ x0 s, Keeps s0 s → Keeps s0 (sayNak x0 s) := by
  intro x0 s h
  unfold sayNak
  try dsimp only
  repeat' first
    | with_reducible exact h | (intro) | with_reducible apply emit_keeps | with_reducible apply modLaneLink_keeps
    | with_reducible apply putIdle_keeps | with_reducible apply Keeps.ite

theorem nakError_keeps {s0 : State} : ∀ x0 s, Keeps s0 s → Keeps s0 (nakError x0 s) := by
  intro x0 s h
  unfold nakError
  try dsimp only
  repeat' first
    | with_reducible exact h | (intro) | with_reducible apply modLaneLink_keeps | with_reducible apply sayNak_keeps
    | with_reducible apply Keeps.ite

theorem modLastRx_keeps {s0 : State} : ∀ x0 x1 s, Keeps s0 s → Keeps s0 (modLastRx x0 x1 s) := by
  intro x0 x1 s h
  unfold modLastRx
  try dsimp only
  repeat' first
    | with_reducible exact h | (intro) | with_reducible apply modLaneLink_keeps

theorem openRx_keeps {s0 : State} : ∀ x0 x1 s, Keeps s0 s → Keeps s0 (openRx x0 x1 s) := by
  intro x0 x1 s h
  unfold openRx
  try dsimp only
  repeat' first
    | with_reducible exact h | (intro) | with_reducible apply modLaneLink_keeps

theorem growRx_keeps {s0 : State} : ∀ x0 x1 x2 s, Keeps s0 s → Keeps s0 (growRx x0 x1 x2 s) := by
  intro x0 x1 x2 s h
  unfold growRx
  try dsimp only
  repeat' first
    | with_reducible exact h | (intro) | with_reducible apply feed_keeps | with_reducible apply modLastRx_keeps
    | with_reducible apply Keeps.ite | with_reducible apply Keeps.foldl | split

theorem abortRx_keeps {s0 : State} : ∀ x0 s, Keeps s0 s → Keeps s0 (abortRx x0 s) := by
  intro x0 s h
  unfold abortRx
  try dsimp only
  repeat' first
    | with_reducible exact h | (intro) | with_reducible apply bumpLink_keeps | with_reducible apply discardPkt_keeps
    | with_reducible apply modLaneLink_keeps | with_reducible apply Keeps.ite | with_reducible apply Keeps.foldl
    | split

theorem dataFlit_keeps {s0 : State} : ∀ x0 x1 x2 s, Keeps s0 s → Keeps s0 (dataFlit x0 x1 x2 s) := by
  intro x0 x1 x2 s h
  unfold dataFlit
  try dsimp only
  repeat' first
    | with_reducible exact h | (intro) | with_reducible apply abortRx_keeps | with_reducible apply growRx_keeps
    | with_reducible apply openRx_keeps | with_reducible apply Keeps.ite

theorem takeCredit_keeps {s0 : State} : ∀ x0 x1 x2 s, Keeps s0 s → Keeps s0 (takeCredit x0 x1 x2 s) := by
  intro x0 x1 x2 s h
  unfold takeCredit
  try dsimp only
  repeat' first
    | with_reducible exact h | (intro) | with_reducible apply State.modLink_keeps | with_reducible apply Keeps.ite

theorem tagMismatch_keeps {s0 : State} : ∀ x0 s, Keeps s0 s → Keeps s0 (tagMismatch x0 s) := by
  intro x0 s h
  unfold tagMismatch
  try dsimp only
  repeat' first
    | with_reducible exact h | (intro) | with_reducible apply bumpLink_keeps | with_reducible apply wrongLock_keeps

theorem sequenced_keeps {s0 : State} : ∀ x0 x1 x2 s, (∀ t, Keeps s0 t → Keeps s0 (x2 t)) → Keeps s0 s → Keeps s0 (sequenced x0 x1 x2 s) := by
  intro x0 x1 x2 s hx2 h
  unfold sequenced
  try dsimp only
  repeat' first
    | with_reducible exact h | (intro) | with_reducible apply modLaneLink_keeps | with_reducible apply nakError_keeps
    | with_reducible apply Keeps.ite | with_reducible apply Keeps.foldl | split | dsimp only | exact rfl
    | exact ⟨rfl, rfl⟩ | exact ⟨rfl, rfl, rfl, rfl, rfl, rfl⟩ | assumption | with_reducible apply hx2

theorem badPair_keeps {s0 : State} : ∀ x0 s, Keeps s0 s → Keeps s0 (badPair x0 s) := by
  intro x0 s h
  unfold badPair
  try dsimp only
  repeat' first
    | with_reducible exact h | (intro) | with_reducible apply bumpLink_keeps | with_reducible apply modLaneLink_keeps
    | with_reducible apply Keeps.ite

theorem countSlot_keeps {s0 : State} : ∀ x0 s, Keeps s0 s → Keeps s0 (countSlot x0 s) := by
  intro x0 s h
  unfold countSlot
  try dsimp only
  repeat' first
    | with_reducible exact h | (intro) | with_reducible apply modLaneLink_keeps

theorem nakResend_keeps {s0 : State} : ∀ x0 s, Keeps s0 s → Keeps s0 (nakResend x0 s) := by
  intro x0 s h
  unfold nakResend
  try dsimp only
  repeat' first
    | with_reducible exact h | (intro) | with_reducible apply sayNak_keeps | with_reducible apply Keeps.ite

theorem replayTimeout_keeps {s0 : State} : ∀ x0 s, Keeps s0 s → Keeps s0 (replayTimeout x0 s) := by
  intro x0 s h
  unfold replayTimeout
  try dsimp only
  repeat' first
    | with_reducible exact h | (intro) | with_reducible apply replay_keeps | with_reducible apply Keeps.ite

theorem retryExhausted_keeps {s0 : State} : ∀ x0 s, Keeps s0 s → Keeps s0 (retryExhausted x0 s) := by
  intro x0 s h
  unfold retryExhausted
  try dsimp only
  repeat' first
    | with_reducible exact h | (intro) | with_reducible apply abruptExit_keeps | with_reducible apply bumpLink_keeps
    | with_reducible apply Keeps.ite

theorem fecExit_keeps {s0 : State} : ∀ x0 s, Keeps s0 s → Keeps s0 (fecExit x0 s) := by
  intro x0 s h
  unfold fecExit
  try dsimp only
  repeat' first
    | with_reducible exact h | (intro) | with_reducible apply abruptExit_keeps | with_reducible apply bumpLink_keeps
    | with_reducible apply Keeps.ite

theorem frameLoss_keeps {s0 : State} : ∀ x0 x1 s, Keeps s0 s → Keeps s0 (frameLoss x0 x1 s) := by
  intro x0 x1 s h
  unfold frameLoss
  try dsimp only
  repeat' first
    | with_reducible exact h | (intro) | with_reducible apply abruptExit_keeps | with_reducible apply bumpLink_keeps
    | with_reducible apply drainLost_keeps | with_reducible apply Keeps.ite | with_reducible apply Keeps.foldl | split

theorem markerSend_keeps {s0 : State} : ∀ x0 s, Keeps s0 s → Keeps s0 (markerSend x0 s) := by
  intro x0 s h
  unfold markerSend
  try dsimp only
  repeat' first
    | with_reducible exact h | (intro) | with_reducible apply modLaneLink_keeps | with_reducible apply putMarker_keeps
    | with_reducible apply Keeps.ite

theorem alignmentSlot_keeps {s0 : State} : ∀ x0 x1 s, Keeps s0 s → Keeps s0 (alignmentSlot x0 x1 s) := by
  intro x0 x1 s h
  unfold alignmentSlot
  try dsimp only
  repeat' first
    | with_reducible exact h | (intro) | with_reducible apply countSlot_keeps | with_reducible apply modLaneLink_keeps
    | with_reducible apply wrongLock_keeps | with_reducible apply Keeps.ite | with_reducible apply Keeps.foldl | split
    | dsimp only | exact rfl | exact ⟨rfl, rfl⟩ | exact ⟨rfl, rfl, rfl, rfl, rfl, rfl⟩ | assumption

theorem txFault_keeps {s0 : State} : ∀ x0 s, Keeps s0 s → Keeps s0 (txFault x0 s) := by
  intro x0 s h
  unfold txFault
  try dsimp only
  repeat' first
    | with_reducible exact h | (intro) | with_reducible apply modLaneLink_keeps
    | with_reducible apply reportFibre_keeps | with_reducible apply Keeps.ite

theorem wdReq_keeps {s0 : State} : ∀ x0 x1 x2 s, Keeps s0 s → Keeps s0 (wdReq x0 x1 x2 s) := by
  intro x0 x1 x2 s h
  unfold wdReq
  try dsimp only
  repeat' first
    | with_reducible exact h | (intro) | with_reducible apply modLaneLink_keeps
    | with_reducible apply sendControl_keeps | with_reducible apply withdrawLane_keeps
    | with_reducible apply Keeps.ite | with_reducible apply Keeps.foldl | split

theorem goOn_keeps {s0 : State} : ∀ x0 x1 s, Keeps s0 s → Keeps s0 (goOn x0 x1 s) := by
  intro x0 x1 s h
  unfold goOn
  try dsimp only
  repeat' first
    | with_reducible exact h | (intro) | with_reducible apply takeGranted_keeps
    | with_reducible apply withdrawLane_keeps | with_reducible apply Keeps.ite

theorem wdGrant_keeps {s0 : State} : ∀ x0 x1 s, Keeps s0 s → Keeps s0 (wdGrant x0 x1 s) := by
  intro x0 x1 s h
  unfold wdGrant
  try dsimp only
  repeat' first
    | with_reducible exact h | (intro) | with_reducible apply goOn_keeps | with_reducible apply modLaneLink_keeps
    | with_reducible apply Keeps.ite | with_reducible apply Keeps.foldl | split

theorem unanswered_keeps {s0 : State} : ∀ x0 s, Keeps s0 s → Keeps s0 (unanswered x0 s) := by
  intro x0 s h
  unfold unanswered
  try dsimp only
  repeat' first
    | with_reducible exact h | (intro) | with_reducible apply bumpLink_keeps | with_reducible apply endSlice_keeps
    | with_reducible apply goOn_keeps | with_reducible apply modLaneLink_keeps | with_reducible apply overdue_keeps
    | with_reducible apply Keeps.ite | with_reducible apply Keeps.foldl | split

theorem wdRefuse_keeps {s0 : State} : ∀ x0 x1 s, Keeps s0 s → Keeps s0 (wdRefuse x0 x1 s) := by
  intro x0 x1 s h
  unfold wdRefuse
  try dsimp only
  repeat' first
    | with_reducible exact h | (intro) | with_reducible apply unanswered_keeps | with_reducible apply Keeps.ite

theorem rehomeReq_keeps {s0 : State} : ∀ x0 x1 s, Keeps s0 s → Keeps s0 (rehomeReq x0 x1 s) := by
  intro x0 x1 s h
  unfold rehomeReq
  try dsimp only
  repeat' first
    | with_reducible exact h | (intro) | with_reducible apply abruptExit_keeps
    | with_reducible apply queueControl_keeps | with_reducible apply sendControl_keeps
    | with_reducible apply Keeps.ite

theorem rehomeAck_keeps {s0 : State} : ∀ x0 x1 x2 s, Keeps s0 s → Keeps s0 (rehomeAck x0 x1 x2 s) := by
  intro x0 x1 x2 s h
  unfold rehomeAck
  try dsimp only
  repeat' first
    | with_reducible exact h | (intro) | with_reducible apply State.modLink_keeps | with_reducible apply deliver_keeps
    | with_reducible apply modLaneLink_keeps | with_reducible apply pump_keeps | with_reducible apply Keeps.ite
    | with_reducible apply Keeps.foldl | split | dsimp only | exact rfl | exact ⟨rfl, rfl⟩
    | exact ⟨rfl, rfl, rfl, rfl, rfl, rfl⟩ | assumption

theorem beginTraining_keeps {s0 : State} : ∀ x0 s, Keeps s0 s → Keeps s0 (beginTraining x0 s) := by
  intro x0 s h
  unfold beginTraining
  try dsimp only
  repeat' first
    | with_reducible exact h | (intro) | with_reducible apply modLaneLink_keeps | with_reducible apply sayCap_keeps
    | with_reducible apply Keeps.ite | with_reducible apply Keeps.foldl | split

theorem trainingStart_keeps {s0 : State} : ∀ x0 s, Keeps s0 s → Keeps s0 (trainingStart x0 s) := by
  intro x0 s h
  unfold trainingStart
  try dsimp only
  repeat' first
    | with_reducible exact h | (intro) | with_reducible apply beginTraining_keeps | with_reducible apply Keeps.ite
    | with_reducible apply Keeps.foldl | split

theorem trainFail_keeps {s0 : State} : ∀ x0 x1 s, Keeps s0 s → Keeps s0 (trainFail x0 x1 s) := by
  intro x0 x1 s h
  unfold trainFail
  try dsimp only
  repeat' first
    | with_reducible exact h | (intro) | with_reducible apply bumpLink_keeps | with_reducible apply modLaneLink_keeps
    | with_reducible apply Keeps.ite

theorem trainingRestart_keeps {s0 : State} : ∀ x0 s, Keeps s0 s → Keeps s0 (trainingRestart x0 s) := by
  intro x0 s h
  unfold trainingRestart
  try dsimp only
  repeat' first
    | with_reducible exact h | (intro) | with_reducible apply beginTraining_keeps | with_reducible apply Keeps.ite

theorem trained_keeps {s0 : State} : ∀ x0 x1 x2 x3 x4 s, Keeps s0 s → Keeps s0 (trained x0 x1 x2 x3 x4 s) := by
  intro x0 x1 x2 x3 x4 s h
  unfold trained
  try dsimp only
  repeat' first
    | with_reducible exact h | (intro) | with_reducible apply State.modLink_keeps
    | with_reducible apply capturePort_keeps | with_reducible apply giveCredit_keeps
    | with_reducible apply joinService_keeps | with_reducible apply latBegin_keeps
    | with_reducible apply modLaneLink_keeps | with_reducible apply modLaneOpt_keeps
    | with_reducible apply modPort_keeps | with_reducible apply setSwing_keeps | with_reducible apply Keeps.ite
    | with_reducible apply Keeps.foldl | split | dsimp only | exact rfl | exact ⟨rfl, rfl⟩
    | exact ⟨rfl, rfl, rfl, rfl, rfl, rfl⟩ | assumption

theorem trainingComplete_keeps {s0 : State} : ∀ x0 x1 s, Keeps s0 s → Keeps s0 (trainingComplete x0 x1 s) := by
  intro x0 x1 s h
  unfold trainingComplete
  try dsimp only
  repeat' first
    | with_reducible exact h | (intro) | with_reducible apply trainFail_keeps | with_reducible apply trained_keeps
    | with_reducible apply Keeps.ite | with_reducible apply Keeps.foldl | split

theorem underrunAbort_keeps {s0 : State} : ∀ x0 s, Keeps s0 s → Keeps s0 (underrunAbort x0 s) := by
  intro x0 s h
  unfold underrunAbort
  try dsimp only
  repeat' first
    | with_reducible exact h | (intro) | with_reducible apply abortTx_keeps | with_reducible apply bumpEg_keeps
    | with_reducible apply dropRef_keeps | with_reducible apply pump_keeps | with_reducible apply settleIdle_keeps
    | with_reducible apply traceStored_keeps | with_reducible apply Keeps.ite | with_reducible apply Keeps.foldl
    | split

theorem removePort_keeps {s0 : State} : ∀ x0 s, Keeps s0 s → Keeps s0 (removePort x0 s) := by
  intro x0 s h
  unfold removePort
  try dsimp only
  repeat' first
    | with_reducible exact h | (intro) | with_reducible apply State.modJobs_keeps
    | with_reducible apply State.modLink_keeps | with_reducible apply State.modSched_keeps
    | with_reducible apply State.modTime_keeps

theorem endUnbank_keeps {s0 : State} : ∀ x0 s, Keeps s0 s → Keeps s0 (endUnbank x0 s) := by
  intro x0 s h
  unfold endUnbank
  try dsimp only
  repeat' first
    | with_reducible exact h | (intro) | with_reducible apply endWith_keeps | with_reducible apply modLaneOpt_keeps
    | with_reducible apply Keeps.ite | with_reducible apply Keeps.foldl | split

theorem portLanesTo_keeps {s0 : State} : ∀ x0 x1 s, Keeps s0 s → Keeps s0 (portLanesTo x0 x1 s) := by
  intro x0 x1 s h
  unfold portLanesTo
  try dsimp only
  repeat' first
    | with_reducible exact h | (intro) | with_reducible apply endUnbank_keeps | with_reducible apply leaveSwap_keeps
    | with_reducible apply modLaneLink_keeps | with_reducible apply modLaneOpt_keeps
    | with_reducible apply setLane_keeps | with_reducible apply Keeps.ite | with_reducible apply Keeps.foldl | split
    | dsimp only | exact rfl | exact ⟨rfl, rfl⟩ | exact ⟨rfl, rfl, rfl, rfl, rfl, rfl⟩ | assumption

theorem portConfig_keeps {s0 : State} : ∀ x0 s, Keeps s0 s → Keeps s0 (portConfig x0 s).1 := by
  intro x0 s h
  unfold portConfig
  try dsimp only
  repeat' first
    | with_reducible exact h | (intro) | with_reducible apply cmdOk_keeps | with_reducible apply cmdRefuse_keeps
    | with_reducible apply linkDown_keeps | with_reducible apply modPort_keeps
    | with_reducible apply portLanesTo_keeps | with_reducible apply removePort_keeps
    | with_reducible apply Keeps.ite_fst | with_reducible apply Keeps.ite | with_reducible apply Keeps.foldl
    | refine Keeps.fst (by assumption) ?_ | split | dsimp only | exact rfl | exact ⟨rfl, rfl⟩
    | exact ⟨rfl, rfl, rfl, rfl, rfl, rfl⟩ | assumption

theorem linkStatusRead_keeps {s0 : State} : ∀ x0 s, Keeps s0 s → Keeps s0 (linkStatusRead x0 s).1 := by
  intro x0 s h
  unfold linkStatusRead
  try dsimp only
  repeat' first
    | with_reducible exact h | (intro) | with_reducible apply cmdOk_keeps | with_reducible apply cmdRefuse_keeps
    | with_reducible apply hostWrite_keeps | with_reducible apply Keeps.ite_fst

theorem laneReset_keeps {s0 : State} : ∀ x0 x1 s, Keeps s0 s → Keeps s0 (laneReset x0 x1 s).1 := by
  intro x0 x1 s h
  unfold laneReset
  try dsimp only
  repeat' first
    | with_reducible exact h | (intro) | with_reducible apply addDetached_keeps
    | with_reducible apply askWithdraw_keeps | with_reducible apply cmdOk_keeps | with_reducible apply cmdRefuse_keeps
    | with_reducible apply linkDown_keeps | with_reducible apply modLaneOpt_keeps | with_reducible apply setLane_keeps
    | with_reducible apply settleIdle_keeps | with_reducible apply Keeps.ite_fst | with_reducible apply Keeps.ite
    | with_reducible apply Keeps.foldl | refine Keeps.fst (by assumption) ?_ | split

theorem execPortConfig_keeps : ∀ x0 x1 s, KeepsOut s (execPortConfig x0 x1 s) := by
  intro x0 x1 s
  unfold execPortConfig
  refine runMailbox_keeps fun c t h => ?_
  try dsimp only
  repeat' first
    | with_reducible exact h | (intro) | with_reducible apply Keeps.ite_fst | with_reducible apply portConfig_keeps
    | with_reducible apply Keeps.ite

theorem execLinkStatusRead_keeps : ∀ x0 x1 s, KeepsOut s (execLinkStatusRead x0 x1 s) := by
  intro x0 x1 s
  unfold execLinkStatusRead
  refine runMailbox_keeps fun c t h => ?_
  try dsimp only
  repeat' first
    | with_reducible exact h | (intro) | with_reducible apply Keeps.ite_fst
    | with_reducible apply linkStatusRead_keeps | with_reducible apply Keeps.ite

theorem execLaneReset_keeps : ∀ x0 x1 s, KeepsOut s (execLaneReset x0 x1 s) := by
  intro x0 x1 s
  unfold execLaneReset
  refine runMailbox_keeps fun c t h => ?_
  try dsimp only
  repeat' first
    | with_reducible exact h | (intro) | with_reducible apply Keeps.ite_fst | with_reducible apply laneReset_keeps
    | with_reducible apply Keeps.ite

theorem execNakResendTimer_keeps : ∀ x0 s, KeepsOut s (execNakResendTimer x0 s) := by
  intro x0 s
  unfold execNakResendTimer
  have h := Keeps.refl s
  try dsimp only
  repeat' first
    | with_reducible apply KeepsOut.next | with_reducible apply KeepsOut.ite | with_reducible exact KeepsOut.refused
    | with_reducible exact h | (intro) | with_reducible apply nakResend_keeps | with_reducible apply Keeps.ite

theorem execReplayTimeout_keeps : ∀ x0 s, KeepsOut s (execReplayTimeout x0 s) := by
  intro x0 s
  unfold execReplayTimeout
  have h := Keeps.refl s
  try dsimp only
  repeat' first
    | with_reducible apply KeepsOut.next | with_reducible apply KeepsOut.ite | with_reducible exact KeepsOut.refused
    | with_reducible exact h | (intro) | with_reducible apply replayTimeout_keeps | with_reducible apply Keeps.ite

theorem execLinkRetryExhausted_keeps : ∀ x0 s, KeepsOut s (execLinkRetryExhausted x0 s) := by
  intro x0 s
  unfold execLinkRetryExhausted
  have h := Keeps.refl s
  try dsimp only
  repeat' first
    | with_reducible apply KeepsOut.next | with_reducible apply KeepsOut.ite | with_reducible exact KeepsOut.refused
    | with_reducible exact h | (intro) | with_reducible apply retryExhausted_keeps | with_reducible apply Keeps.ite

theorem execFecExit_keeps : ∀ x0 s, KeepsOut s (execFecExit x0 s) := by
  intro x0 s
  unfold execFecExit
  have h := Keeps.refl s
  try dsimp only
  repeat' first
    | with_reducible apply KeepsOut.next | with_reducible apply KeepsOut.ite | with_reducible exact KeepsOut.refused
    | with_reducible exact h | (intro) | with_reducible apply fecExit_keeps | with_reducible apply Keeps.ite

theorem execFrameLoss_keeps : ∀ x0 s, KeepsOut s (execFrameLoss x0 s) := by
  intro x0 s
  unfold execFrameLoss
  have h := Keeps.refl s
  try dsimp only
  repeat' first
    | with_reducible apply KeepsOut.next | with_reducible apply KeepsOut.ite | with_reducible exact KeepsOut.refused
    | with_reducible exact h | (intro) | with_reducible apply frameLoss_keeps | with_reducible apply Keeps.ite

theorem execLossOfSignal_keeps : ∀ x0 s, KeepsOut s (execLossOfSignal x0 s) := by
  intro x0 s
  unfold execLossOfSignal
  have h := Keeps.refl s
  try dsimp only
  repeat' first
    | with_reducible apply KeepsOut.next | with_reducible apply KeepsOut.ite | with_reducible exact KeepsOut.refused
    | with_reducible exact h | (intro) | with_reducible apply frameLoss_keeps | with_reducible apply Keeps.ite

theorem execMarkerSend_keeps : ∀ x0 s, KeepsOut s (execMarkerSend x0 s) := by
  intro x0 s
  unfold execMarkerSend
  have h := Keeps.refl s
  try dsimp only
  repeat' first
    | with_reducible apply KeepsOut.next | with_reducible apply KeepsOut.ite | with_reducible exact KeepsOut.refused
    | with_reducible exact h | (intro) | with_reducible apply markerSend_keeps | with_reducible apply Keeps.ite

theorem execAlignmentSlotRx_keeps : ∀ x0 x1 s, KeepsOut s (execAlignmentSlotRx x0 x1 s) := by
  intro x0 x1 s
  unfold execAlignmentSlotRx
  have h := Keeps.refl s
  try dsimp only
  repeat' first
    | with_reducible apply KeepsOut.next | with_reducible apply KeepsOut.ite | with_reducible exact KeepsOut.refused
    | with_reducible exact h | (intro) | with_reducible apply alignmentSlot_keeps | with_reducible apply Keeps.ite

theorem execTxFault_keeps : ∀ x0 s, KeepsOut s (execTxFault x0 s) := by
  intro x0 s
  unfold execTxFault
  have h := Keeps.refl s
  try dsimp only
  repeat' first
    | with_reducible apply KeepsOut.next | with_reducible apply KeepsOut.ite | with_reducible exact KeepsOut.refused
    | with_reducible exact h | (intro) | with_reducible apply txFault_keeps | with_reducible apply Keeps.ite

theorem execWdReq_keeps : ∀ x0 x1 x2 s, KeepsOut s (execWdReq x0 x1 x2 s) := by
  intro x0 x1 x2 s
  unfold execWdReq
  have h := Keeps.refl s
  try dsimp only
  repeat' first
    | with_reducible apply KeepsOut.next | with_reducible apply KeepsOut.ite | with_reducible exact KeepsOut.refused
    | with_reducible exact h | (intro) | with_reducible apply wdReq_keeps | with_reducible apply Keeps.ite

theorem execWdGrant_keeps : ∀ x0 x1 s, KeepsOut s (execWdGrant x0 x1 s) := by
  intro x0 x1 s
  unfold execWdGrant
  have h := Keeps.refl s
  try dsimp only
  repeat' first
    | with_reducible apply KeepsOut.next | with_reducible apply KeepsOut.ite | with_reducible exact KeepsOut.refused
    | with_reducible exact h | (intro) | with_reducible apply wdGrant_keeps | with_reducible apply Keeps.ite

theorem execWdRefuse_keeps : ∀ x0 x1 x2 s, KeepsOut s (execWdRefuse x0 x1 x2 s) := by
  intro x0 x1 x2 s
  unfold execWdRefuse
  have h := Keeps.refl s
  try dsimp only
  repeat' first
    | with_reducible apply KeepsOut.next | with_reducible apply KeepsOut.ite | with_reducible exact KeepsOut.refused
    | with_reducible exact h | (intro) | with_reducible apply wdRefuse_keeps | with_reducible apply Keeps.ite

theorem execWdAnswerTimeout_keeps : ∀ x0 s, KeepsOut s (execWdAnswerTimeout x0 s) := by
  intro x0 s
  unfold execWdAnswerTimeout
  have h := Keeps.refl s
  try dsimp only
  repeat' first
    | with_reducible apply KeepsOut.next | with_reducible apply KeepsOut.ite | with_reducible exact KeepsOut.refused
    | with_reducible exact h | (intro) | with_reducible apply unanswered_keeps | with_reducible apply Keeps.ite

theorem execRehomeReq_keeps : ∀ x0 x1 s, KeepsOut s (execRehomeReq x0 x1 s) := by
  intro x0 x1 s
  unfold execRehomeReq
  have h := Keeps.refl s
  try dsimp only
  repeat' first
    | with_reducible apply KeepsOut.next | with_reducible apply KeepsOut.ite | with_reducible exact KeepsOut.refused
    | with_reducible exact h | (intro) | with_reducible apply rehomeReq_keeps | with_reducible apply Keeps.ite

theorem execRehomeAck_keeps : ∀ x0 x1 s, KeepsOut s (execRehomeAck x0 x1 s) := by
  intro x0 x1 s
  unfold execRehomeAck
  have h := Keeps.refl s
  try dsimp only
  repeat' first
    | with_reducible apply KeepsOut.next | with_reducible apply KeepsOut.ite | with_reducible exact KeepsOut.refused
    | with_reducible exact h | (intro) | with_reducible apply rehomeAck_keeps | with_reducible apply Keeps.ite

theorem execTrainingStart_keeps : ∀ x0 s, KeepsOut s (execTrainingStart x0 s) := by
  intro x0 s
  unfold execTrainingStart
  have h := Keeps.refl s
  try dsimp only
  repeat' first
    | with_reducible apply KeepsOut.next | with_reducible apply KeepsOut.ite | with_reducible exact KeepsOut.refused
    | with_reducible exact h | (intro) | with_reducible apply trainingStart_keeps | with_reducible apply Keeps.ite

theorem execTrainFail_keeps : ∀ x0 x1 s, KeepsOut s (execTrainFail x0 x1 s) := by
  intro x0 x1 s
  unfold execTrainFail
  have h := Keeps.refl s
  try dsimp only
  repeat' first
    | with_reducible apply KeepsOut.next | with_reducible apply KeepsOut.ite | with_reducible exact KeepsOut.refused
    | with_reducible exact h | (intro) | with_reducible apply trainFail_keeps | with_reducible apply Keeps.ite

theorem execTrainingRestart_keeps : ∀ x0 s, KeepsOut s (execTrainingRestart x0 s) := by
  intro x0 s
  unfold execTrainingRestart
  have h := Keeps.refl s
  try dsimp only
  repeat' first
    | with_reducible apply KeepsOut.next | with_reducible apply KeepsOut.ite | with_reducible exact KeepsOut.refused
    | with_reducible exact h | (intro) | with_reducible apply trainingRestart_keeps | with_reducible apply Keeps.ite

theorem execTrainingComplete_keeps : ∀ x0 x1 s, KeepsOut s (execTrainingComplete x0 x1 s) := by
  intro x0 x1 s
  unfold execTrainingComplete
  have h := Keeps.refl s
  try dsimp only
  repeat' first
    | with_reducible apply KeepsOut.next | with_reducible apply KeepsOut.ite | with_reducible exact KeepsOut.refused
    | with_reducible exact h | (intro) | with_reducible apply trainingComplete_keeps | with_reducible apply Keeps.ite

theorem execEgressUnderrunAbort_keeps : ∀ x0 s, KeepsOut s (execEgressUnderrunAbort x0 s) := by
  intro x0 s
  unfold execEgressUnderrunAbort
  have h := Keeps.refl s
  try dsimp only
  repeat' first
    | with_reducible apply KeepsOut.next | with_reducible apply KeepsOut.ite | with_reducible exact KeepsOut.refused
    | with_reducible exact h | (intro) | with_reducible apply underrunAbort_keeps | with_reducible apply Keeps.ite

end Sys2Proof.Machine
end

