-- ==== Sys2Proof/Laws/KeepsFlue.lean ====
section
/-! SUPPORT. What the operations of Machine/Flue.lean keep. -/

namespace Sys2Proof.Machine

theorem takeLane_keeps {s0 : State} : ∀ x0 s, Keeps s0 s → Keeps s0 (takeLane x0 s) := by
  intro x0 s h
  unfold takeLane
  try dsimp only
  repeat' first
    | with_reducible exact h | (intro) | with_reducible apply askWithdraw_keeps | with_reducible apply setLane_keeps
    | with_reducible apply skipSlice_keeps | with_reducible apply Keeps.ite

theorem dropDrain_keeps {s0 : State} : ∀ x0 s, Keeps s0 s → Keeps s0 (dropDrain x0 s) := by
  intro x0 s h
  unfold dropDrain
  try dsimp only
  repeat' first
    | with_reducible exact h | (intro) | with_reducible apply leaveAbrupt_keeps
    | with_reducible apply modLaneOpt_keeps | with_reducible apply Keeps.ite

theorem cutSetup_keeps {s0 : State} : ∀ x0 x1 s, Keeps s0 s → Keeps s0 (cutSetup x0 x1 s) := by
  intro x0 x1 s h
  unfold cutSetup
  try dsimp only
  repeat' first
    | with_reducible exact h | (intro) | with_reducible apply dropDrain_keeps
    | with_reducible apply setupRefused_keeps

theorem closeCirc_keeps {s0 : State} : ∀ x0 s, Keeps s0 s → Keeps s0 (closeCirc x0 s) := by
  intro x0 s h
  unfold closeCirc
  try dsimp only
  repeat' first
    | with_reducible exact h | (intro) | with_reducible apply cutSetup_keeps | with_reducible apply emit_keeps
    | with_reducible apply flueNotice_keeps | with_reducible apply freeCirc_keeps | with_reducible apply Keeps.ite

theorem openRefused_keeps {s0 : State} : ∀ x0 x1 s, Keeps s0 s → Keeps s0 (openRefused x0 x1 s).1 := by
  intro x0 x1 s h
  unfold openRefused
  try dsimp only
  repeat' first
    | with_reducible exact h | (intro) | with_reducible apply bumpFlue_keeps | with_reducible apply cmdRefuse_keeps

theorem flueOpen_keeps {s0 : State} : ∀ x0 x1 x2 s, Keeps s0 s → Keeps s0 (flueOpen x0 x1 x2 s).1 := by
  intro x0 x1 x2 s h
  unfold flueOpen
  try dsimp only
  repeat' first
    | with_reducible exact h | (intro) | with_reducible apply addDetached_keeps | with_reducible apply circTo_keeps
    | with_reducible apply finishSetup_keeps | with_reducible apply modCirc_keeps
    | with_reducible apply openRefused_keeps | with_reducible apply takeLane_keeps
    | with_reducible apply Keeps.ite_fst | with_reducible apply Keeps.ite | with_reducible apply Keeps.foldl
    | refine Keeps.fst (by assumption) ?_ | split

theorem flueSwitch_keeps {s0 : State} : ∀ x0 s, Keeps s0 s → Keeps s0 (flueSwitch x0 s).1 := by
  intro x0 s h
  unfold flueSwitch
  try dsimp only
  repeat' first
    | with_reducible exact h | (intro) | with_reducible apply cmdOk_keeps | with_reducible apply cmdRefuse_keeps
    | with_reducible apply connectCirc_keeps | with_reducible apply Keeps.ite_fst | with_reducible apply Keeps.ite
    | with_reducible apply Keeps.foldl | refine Keeps.snd (by assumption) ?_ | split

theorem flueClose_keeps {s0 : State} : ∀ x0 s, Keeps s0 s → Keeps s0 (flueClose x0 s).1 := by
  intro x0 s h
  unfold flueClose
  try dsimp only
  repeat' first
    | with_reducible exact h | (intro) | with_reducible apply closeCirc_keeps | with_reducible apply cmdOk_keeps
    | with_reducible apply cmdRefuse_keeps | with_reducible apply Keeps.ite_fst

theorem flueStatusRead_keeps {s0 : State} : ∀ x0 s, Keeps s0 s → Keeps s0 (flueStatusRead x0 s).1 := by
  intro x0 s h
  unfold flueStatusRead
  try dsimp only
  repeat' first
    | with_reducible exact h | (intro) | with_reducible apply cmdOk_keeps | with_reducible apply cmdRefuse_keeps
    | with_reducible apply hostWrite_keeps | with_reducible apply Keeps.ite_fst

theorem readyRetune_keeps {s0 : State} : ∀ x0 x1 s, Keeps s0 s → Keeps s0 (readyRetune x0 x1 s) := by
  intro x0 x1 s h
  unfold readyRetune
  try dsimp only
  repeat' first
    | with_reducible exact h | (intro) | with_reducible apply circTo_keeps | with_reducible apply modCirc_keeps
    | with_reducible apply switchOver_keeps | with_reducible apply tuningFails_keeps | with_reducible apply Keeps.ite
    | with_reducible apply Keeps.foldl | refine Keeps.snd (by assumption) ?_ | split

theorem retuneNotice_keeps {s0 : State} : ∀ x0 s, Keeps s0 s → Keeps s0 (retuneNotice x0 s) := by
  intro x0 s h
  unfold retuneNotice
  try dsimp only
  repeat' first
    | with_reducible exact h | (intro) | with_reducible apply flueNotice_keeps | with_reducible apply modCirc_keeps
    | with_reducible apply Keeps.ite

theorem ringFails_keeps {s0 : State} : ∀ x0 x1 x2 x3 s, Keeps s0 s → Keeps s0 (ringFails x0 x1 x2 x3 s) := by
  intro x0 x1 x2 x3 s h
  unfold ringFails
  try dsimp only
  repeat' first
    | with_reducible exact h | (intro) | with_reducible apply report_keeps | with_reducible apply Keeps.ite

theorem liveRetune_keeps {s0 : State} : ∀ x0 x1 s, Keeps s0 s → Keeps s0 (liveRetune x0 x1 s) := by
  intro x0 x1 s h
  unfold liveRetune
  try dsimp only
  repeat' first
    | with_reducible exact h | (intro) | with_reducible apply bumpBy_keeps | with_reducible apply bumpFlue_keeps
    | with_reducible apply circTo_keeps | with_reducible apply emit_keeps | with_reducible apply flueNotice_keeps
    | with_reducible apply modCirc_keeps | with_reducible apply recordMeas_keeps | with_reducible apply report_keeps
    | with_reducible apply ringFails_keeps | with_reducible apply Keeps.ite

theorem flueLos_keeps {s0 : State} : ∀ x0 s, Keeps s0 s → Keeps s0 (flueLos x0 s) := by
  intro x0 s h
  unfold flueLos
  try dsimp only
  repeat' first
    | with_reducible exact h | (intro) | with_reducible apply bumpFlue_keeps | with_reducible apply capture_keeps
    | with_reducible apply Keeps.ite

theorem execFlueOpen_keeps : ∀ x0 x1 x2 s, KeepsOut s (execFlueOpen x0 x1 x2 s) := by
  intro x0 x1 x2 s
  unfold execFlueOpen
  refine runMailbox_keeps fun c t h => ?_
  try dsimp only
  repeat' first
    | with_reducible exact h | (intro) | with_reducible apply Keeps.ite_fst | with_reducible apply flueOpen_keeps
    | with_reducible apply Keeps.ite

theorem execFlueSwitch_keeps : ∀ x0 x1 s, KeepsOut s (execFlueSwitch x0 x1 s) := by
  intro x0 x1 s
  unfold execFlueSwitch
  refine runMailbox_keeps fun c t h => ?_
  try dsimp only
  repeat' first
    | with_reducible exact h | (intro) | with_reducible apply Keeps.ite_fst | with_reducible apply flueSwitch_keeps
    | with_reducible apply Keeps.ite

theorem execFlueClose_keeps : ∀ x0 x1 s, KeepsOut s (execFlueClose x0 x1 s) := by
  intro x0 x1 s
  unfold execFlueClose
  refine runMailbox_keeps fun c t h => ?_
  try dsimp only
  repeat' first
    | with_reducible exact h | (intro) | with_reducible apply Keeps.ite_fst | with_reducible apply flueClose_keeps
    | with_reducible apply Keeps.ite

theorem execFlueStatusRead_keeps : ∀ x0 x1 s, KeepsOut s (execFlueStatusRead x0 x1 s) := by
  intro x0 x1 s
  unfold execFlueStatusRead
  refine runMailbox_keeps fun c t h => ?_
  try dsimp only
  repeat' first
    | with_reducible exact h | (intro) | with_reducible apply Keeps.ite_fst
    | with_reducible apply flueStatusRead_keeps | with_reducible apply Keeps.ite

theorem execFlueReadyRetune_keeps : ∀ x0 x1 s, KeepsOut s (execFlueReadyRetune x0 x1 s) := by
  intro x0 x1 s
  unfold execFlueReadyRetune
  have h := Keeps.refl s
  try dsimp only
  repeat' first
    | with_reducible apply KeepsOut.next | with_reducible apply KeepsOut.ite | with_reducible exact KeepsOut.refused
    | with_reducible exact h | (intro) | with_reducible apply readyRetune_keeps | with_reducible apply Keeps.ite

theorem execFlueRetuneNotice_keeps : ∀ x0 s, KeepsOut s (execFlueRetuneNotice x0 s) := by
  intro x0 s
  unfold execFlueRetuneNotice
  have h := Keeps.refl s
  try dsimp only
  repeat' first
    | with_reducible apply KeepsOut.next | with_reducible apply KeepsOut.ite | with_reducible exact KeepsOut.refused
    | with_reducible exact h | (intro) | with_reducible apply retuneNotice_keeps | with_reducible apply Keeps.ite

theorem execFlueRetune_keeps : ∀ x0 x1 s, KeepsOut s (execFlueRetune x0 x1 s) := by
  intro x0 x1 s
  unfold execFlueRetune
  have h := Keeps.refl s
  try dsimp only
  repeat' first
    | with_reducible apply KeepsOut.next | with_reducible apply KeepsOut.ite | with_reducible exact KeepsOut.refused
    | with_reducible exact h | (intro) | with_reducible apply liveRetune_keeps | with_reducible apply Keeps.ite

theorem execFlueLos_keeps : ∀ x0 x1 s, KeepsOut s (execFlueLos x0 x1 s) := by
  intro x0 x1 s
  unfold execFlueLos
  have h := Keeps.refl s
  try dsimp only
  repeat' first
    | with_reducible apply KeepsOut.next | with_reducible apply KeepsOut.ite | with_reducible exact KeepsOut.refused
    | with_reducible exact h | (intro) | with_reducible apply flueLos_keeps | with_reducible apply Keeps.ite

end Sys2Proof.Machine
end

