-- ==== Sys2Proof/Laws/KeepsTerminate.lean ====
section
/-! SUPPORT. What the operations of Machine/Terminate.lean keep. -/

namespace Sys2Proof.Machine

theorem writeDone_keeps {s0 : State} : ∀ x0 x1 x2 s, Keeps s0 s → Keeps s0 (writeDone x0 x1 x2 s) := by
  intro x0 x1 x2 s h
  unfold writeDone
  try dsimp only
  repeat' first
    | with_reducible exact h | (intro) | with_reducible apply send_keeps | with_reducible apply Keeps.ite

theorem writeTaken_keeps {s0 : State} : ∀ x0 x1 s, Keeps s0 s → Keeps s0 (writeTaken x0 x1 s) := by
  intro x0 x1 s h
  unfold writeTaken
  try dsimp only
  repeat' first
    | with_reducible exact h | (intro) | with_reducible apply cacheRange_keeps | with_reducible apply daWrite_keeps
    | with_reducible apply termCrcFail_keeps | with_reducible apply writeDone_keeps | with_reducible apply Keeps.ite

theorem termWrite_keeps {s0 : State} : ∀ x0 x1 s, Keeps s0 s → Keeps s0 (termWrite x0 x1 s) := by
  intro x0 x1 s h
  unfold termWrite
  try dsimp only
  repeat' first
    | with_reducible exact h | (intro) | with_reducible apply atSink_keeps | with_reducible apply writeTaken_keeps
    | with_reducible apply Keeps.ite | with_reducible apply Keeps.foldl | split | dsimp only | exact rfl
    | exact ⟨rfl, rfl⟩ | exact ⟨rfl, rfl, rfl, rfl, rfl, rfl⟩ | assumption

theorem readData_keeps {s0 : State} : ∀ x0 x1 x2 x3 s, Keeps s0 s → Keeps s0 (readData x0 x1 x2 x3 s) := by
  intro x0 x1 x2 x3 s h
  unfold readData
  try dsimp only
  repeat' first
    | with_reducible exact h | (intro) | with_reducible apply send_keeps

theorem readTaken_keeps {s0 : State} : ∀ x0 x1 x2 x3 s, Keeps s0 s → Keeps s0 (readTaken x0 x1 x2 x3 s) := by
  intro x0 x1 x2 x3 s h
  unfold readTaken
  try dsimp only
  repeat' first
    | with_reducible exact h | (intro) | with_reducible apply cacheRange_keeps | with_reducible apply memUE_keeps
    | with_reducible apply readData_keeps | with_reducible apply recallRun_keeps
    | with_reducible apply termCrcFail_keeps | with_reducible apply Keeps.ite | with_reducible apply Keeps.foldl
    | split

theorem termRead_keeps {s0 : State} : ∀ x0 x1 x2 s, Keeps s0 s → Keeps s0 (termRead x0 x1 x2 s) := by
  intro x0 x1 x2 s h
  unfold termRead
  try dsimp only
  repeat' first
    | with_reducible exact h | (intro) | with_reducible apply atSink_keeps | with_reducible apply readTaken_keeps
    | with_reducible apply Keeps.ite | with_reducible apply Keeps.foldl | split | dsimp only | exact rfl
    | exact ⟨rfl, rfl⟩ | exact ⟨rfl, rfl, rfl, rfl, rfl, rfl⟩ | assumption

theorem controlPkt_keeps {s0 : State} : ∀ x0 x1 s, Keeps s0 s → Keeps s0 (controlPkt x0 x1 s) := by
  intro x0 x1 s h
  unfold controlPkt
  try dsimp only
  repeat' first
    | with_reducible exact h | (intro) | with_reducible apply atSink_keeps | with_reducible apply post_keeps
    | with_reducible apply termCrcFail_keeps | with_reducible apply Keeps.ite | with_reducible apply Keeps.foldl
    | split | dsimp only | exact rfl | exact ⟨rfl, rfl⟩ | exact ⟨rfl, rfl, rfl, rfl, rfl, rfl⟩ | assumption

theorem termUnexpected_keeps {s0 : State} : ∀ x0 x1 s, Keeps s0 s → Keeps s0 (termUnexpected x0 x1 s) := by
  intro x0 x1 s h
  unfold termUnexpected
  try dsimp only
  repeat' first
    | with_reducible exact h | (intro) | with_reducible apply atSink_keeps | with_reducible apply bumpIn_keeps
    | with_reducible apply termCrcFail_keeps | with_reducible apply Keeps.ite | with_reducible apply Keeps.foldl
    | split | dsimp only | exact rfl | exact ⟨rfl, rfl⟩ | exact ⟨rfl, rfl, rfl, rfl, rfl, rfl⟩ | assumption

theorem execTermWrite_keeps : ∀ x0 x1 s, KeepsOut s (execTermWrite x0 x1 s) := by
  intro x0 x1 s
  unfold execTermWrite
  have h := Keeps.refl s
  try dsimp only
  repeat' first
    | with_reducible apply KeepsOut.next | with_reducible apply KeepsOut.ite | with_reducible exact KeepsOut.refused
    | with_reducible exact h | (intro) | with_reducible apply termWrite_keeps | with_reducible apply Keeps.ite

theorem execTermRead_keeps : ∀ x0 x1 x2 s, KeepsOut s (execTermRead x0 x1 x2 s) := by
  intro x0 x1 x2 s
  unfold execTermRead
  have h := Keeps.refl s
  try dsimp only
  repeat' first
    | with_reducible apply KeepsOut.next | with_reducible apply KeepsOut.ite | with_reducible exact KeepsOut.refused
    | with_reducible exact h | (intro) | with_reducible apply termRead_keeps | with_reducible apply Keeps.ite

theorem execControlPkt_keeps : ∀ x0 x1 s, KeepsOut s (execControlPkt x0 x1 s) := by
  intro x0 x1 s
  unfold execControlPkt
  have h := Keeps.refl s
  try dsimp only
  repeat' first
    | with_reducible apply KeepsOut.next | with_reducible apply KeepsOut.ite | with_reducible exact KeepsOut.refused
    | with_reducible exact h | (intro) | with_reducible apply controlPkt_keeps | with_reducible apply Keeps.ite

theorem execTermUnexpected_keeps : ∀ x0 x1 s, KeepsOut s (execTermUnexpected x0 x1 s) := by
  intro x0 x1 s
  unfold execTermUnexpected
  have h := Keeps.refl s
  try dsimp only
  repeat' first
    | with_reducible apply KeepsOut.next | with_reducible apply KeepsOut.ite | with_reducible exact KeepsOut.refused
    | with_reducible exact h | (intro) | with_reducible apply termUnexpected_keeps | with_reducible apply Keeps.ite

end Sys2Proof.Machine
end

