-- ==== Sys2Proof/Laws/KeepsKindle.lean ====
section
/-! SUPPORT. What the operations of Machine/Kindle.lean keep. -/

namespace Sys2Proof.Machine

theorem modSeed_keeps {s0 : State} : ∀ x0 x1 s, Keeps s0 s → Keeps s0 (modSeed x0 x1 s) := by
  intro x0 x1 s h
  unfold modSeed
  try dsimp only
  repeat' first
    | with_reducible exact h | (intro) | with_reducible apply State.modJobs_keeps

theorem seedPacket_keeps {s0 : State} : ∀ x0 x1 s, Keeps s0 s → Keeps s0 (seedPacket x0 x1 s) := by
  intro x0 x1 s h
  unfold seedPacket
  try dsimp only
  repeat' first
    | with_reducible exact h | (intro) | with_reducible apply memUE_keeps | with_reducible apply modSeed_keeps
    | with_reducible apply originate_keeps | with_reducible apply settleSeeds_keeps | with_reducible apply Keeps.ite

theorem actCommit_keeps {s0 : State} : ∀ s, Keeps s0 s → Keeps s0 (actCommit s).2 := by
  intro s h
  unfold actCommit
  try dsimp only
  repeat' first
    | with_reducible exact h | (intro) | with_reducible apply flip_keeps | with_reducible apply Keeps.ite_snd

theorem actFlue_keeps {s0 : State} : ∀ x0 s, Keeps s0 s → Keeps s0 (actFlue x0 s).2 := by
  intro x0 s h
  unfold actFlue
  try dsimp only
  repeat' first
    | with_reducible exact h | (intro) | with_reducible apply closeCirc_keeps | with_reducible apply connectCirc_keeps
    | with_reducible apply Keeps.ite_snd | with_reducible apply Keeps.ite | with_reducible apply Keeps.foldl
    | refine Keeps.snd (by assumption) ?_ | split

theorem sendReleased_keeps {s0 : State} : ∀ x0 s, Keeps s0 s → Keeps s0 (sendReleased x0 s) := by
  intro x0 s h
  unfold sendReleased
  try dsimp only
  repeat' first
    | with_reducible exact h | (intro) | with_reducible apply modRet_keeps | with_reducible apply proceed_keeps
    | with_reducible apply sendResult_keeps | with_reducible apply Keeps.ite | with_reducible apply Keeps.foldl
    | split | dsimp only | exact rfl | exact ⟨rfl, rfl⟩ | exact ⟨rfl, rfl, rfl, rfl, rfl, rfl⟩ | assumption

theorem actRelease_keeps {s0 : State} : ∀ x0 s, Keeps s0 s → Keeps s0 (actRelease x0 s).2 := by
  intro x0 s h
  unfold actRelease
  try dsimp only
  repeat' first
    | with_reducible exact h | (intro) | with_reducible apply modCtx_keeps | with_reducible apply sendReleased_keeps
    | with_reducible apply Keeps.ite_snd

theorem actMcRelease_keeps {s0 : State} : ∀ x0 x1 s, Keeps s0 s → Keeps s0 (actMcRelease x0 x1 s).2 := by
  intro x0 x1 s h
  unfold actMcRelease
  try dsimp only
  repeat' first
    | with_reducible exact h | (intro) | with_reducible apply State.modThresh_keeps
    | with_reducible apply modSeed_keeps | with_reducible apply sendHeld_keeps | with_reducible apply Keeps.ite_snd
    | with_reducible apply Keeps.ite | with_reducible apply Keeps.foldl | split

theorem actTimed_keeps {s0 : State} : ∀ x0 x1 x2 x3 x4 s, Keeps s0 s → Keeps s0 (actTimed x0 x1 x2 x3 x4 s).2 := by
  intro x0 x1 x2 x3 x4 s h
  unfold actTimed
  try dsimp only
  repeat' first
    | with_reducible exact h | (intro) | with_reducible apply send_keeps | with_reducible apply Keeps.ite_snd

theorem act_keeps {s0 : State} : ∀ x0 x1 x2 x3 x4 s, Keeps s0 s → Keeps s0 (act x0 x1 x2 x3 x4 s).2 := by
  intro x0 x1 x2 x3 x4 s h
  unfold act
  try dsimp only
  repeat' first
    | with_reducible exact h | (intro) | with_reducible apply State.modSched_keeps
    | with_reducible apply actCommit_keeps | with_reducible apply actFlue_keeps
    | with_reducible apply actMcRelease_keeps | with_reducible apply actRelease_keeps
    | with_reducible apply actTimed_keeps | with_reducible apply latch_keeps | with_reducible apply Keeps.ite_snd
    | with_reducible apply Keeps.ite | with_reducible apply Keeps.foldl | refine Keeps.snd (by assumption) ?_ | split

theorem bumpTime_keeps {s0 : State} : ∀ x0 s, Keeps s0 s → Keeps s0 (bumpTime x0 s) := by
  intro x0 s h
  unfold bumpTime
  try dsimp only
  repeat' first
    | with_reducible exact h | (intro) | with_reducible apply bump_keeps

theorem postOutcome_keeps {s0 : State} : ∀ x0 x1 x2 s, Keeps s0 s → Keeps s0 (postOutcome x0 x1 x2 s) := by
  intro x0 x1 x2 s h
  unfold postOutcome
  try dsimp only
  repeat' first
    | with_reducible exact h | (intro) | with_reducible apply post_keeps | with_reducible apply Keeps.ite

theorem launchTaken_keeps {s0 : State} : ∀ x0 s, Keeps s0 s → Keeps s0 (launchTaken x0 s).2 := by
  intro x0 s h
  unfold launchTaken
  try dsimp only
  repeat' first
    | with_reducible exact h | (intro) | with_reducible apply State.tookFree_keeps
    | with_reducible apply Keeps.ite_snd

theorem kindleExec_keeps {s0 : State} : ∀ x0 x1 s, Keeps s0 s → Keeps s0 (kindleExec x0 x1 s) := by
  intro x0 x1 s h
  unfold kindleExec
  try dsimp only
  repeat' first
    | with_reducible exact h | (intro) | with_reducible apply act_keeps | with_reducible apply bumpTime_keeps
    | with_reducible apply capture_keeps | with_reducible apply launchTaken_keeps | with_reducible apply modK_keeps
    | with_reducible apply postOutcome_keeps | with_reducible apply Keeps.ite | with_reducible apply Keeps.foldl
    | refine Keeps.snd (by assumption) ?_ | split

theorem kindleAt_keeps {s0 : State} : ∀ x0 x1 x2 s, Keeps s0 s → Keeps s0 (kindleAt x0 x1 x2 s) := by
  intro x0 x1 x2 s h
  unfold kindleAt
  try dsimp only
  repeat' first
    | with_reducible exact h | (intro) | with_reducible apply kindleExec_keeps | with_reducible apply Keeps.ite

theorem kindleSkipped_keeps {s0 : State} : ∀ x0 x1 s, Keeps s0 s → Keeps s0 (kindleSkipped x0 x1 s) := by
  intro x0 x1 s h
  unfold kindleSkipped
  try dsimp only
  repeat' first
    | with_reducible exact h | (intro) | with_reducible apply kindleExec_keeps | with_reducible apply Keeps.ite
    | with_reducible apply Keeps.foldl | split | dsimp only | exact rfl | exact ⟨rfl, rfl⟩
    | exact ⟨rfl, rfl, rfl, rfl, rfl, rfl⟩ | assumption

theorem kindleDrop_keeps {s0 : State} : ∀ x0 x1 s, Keeps s0 s → Keeps s0 (kindleDrop x0 x1 s) := by
  intro x0 x1 s h
  unfold kindleDrop
  try dsimp only
  repeat' first
    | with_reducible exact h | (intro) | with_reducible apply modK_keeps | with_reducible apply postOutcome_keeps
    | with_reducible apply Keeps.ite | with_reducible apply Keeps.foldl | split | dsimp only | exact rfl
    | exact ⟨rfl, rfl⟩ | exact ⟨rfl, rfl, rfl, rfl, rfl, rfl⟩ | assumption

theorem kindleArm_keeps {s0 : State} : ∀ x0 s, Keeps s0 s → Keeps s0 (kindleArm x0 s).1 := by
  intro x0 s h
  unfold kindleArm
  try dsimp only
  repeat' first
    | with_reducible exact h | (intro) | with_reducible apply clearParity_keeps | with_reducible apply cmdOk_keeps
    | with_reducible apply cmdRefuse_keeps | with_reducible apply kindleExec_keeps | with_reducible apply modK_keeps
    | with_reducible apply Keeps.ite_fst | with_reducible apply Keeps.ite | with_reducible apply Keeps.foldl
    | refine Keeps.fst (by assumption) ?_ | split

theorem kindleDisarm_keeps {s0 : State} : ∀ x0 s, Keeps s0 s → Keeps s0 (kindleDisarm x0 s).1 := by
  intro x0 s h
  unfold kindleDisarm
  try dsimp only
  repeat' first
    | with_reducible exact h | (intro) | with_reducible apply cmdOkWith_keeps | with_reducible apply cmdRefuse_keeps
    | with_reducible apply modK_keeps | with_reducible apply Keeps.ite_fst | with_reducible apply Keeps.ite

theorem kindleRead_keeps {s0 : State} : ∀ x0 s, Keeps s0 s → Keeps s0 (kindleRead x0 s).1 := by
  intro x0 s h
  unfold kindleRead
  try dsimp only
  repeat' first
    | with_reducible exact h | (intro) | with_reducible apply cmdOk_keeps | with_reducible apply cmdRefuse_keeps
    | with_reducible apply hostWrite_keeps | with_reducible apply Keeps.ite_fst

theorem execKindleArm_keeps : ∀ x0 x1 s, KeepsOut s (execKindleArm x0 x1 s) := by
  intro x0 x1 s
  unfold execKindleArm
  refine runMailbox_keeps fun c t h => ?_
  try dsimp only
  repeat' first
    | with_reducible exact h | (intro) | with_reducible apply Keeps.ite_fst | with_reducible apply kindleArm_keeps
    | with_reducible apply Keeps.ite

theorem execKindleDisarm_keeps : ∀ x0 x1 s, KeepsOut s (execKindleDisarm x0 x1 s) := by
  intro x0 x1 s
  unfold execKindleDisarm
  refine runMailbox_keeps fun c t h => ?_
  try dsimp only
  repeat' first
    | with_reducible exact h | (intro) | with_reducible apply Keeps.ite_fst | with_reducible apply kindleDisarm_keeps
    | with_reducible apply Keeps.ite

theorem execKindleRead_keeps : ∀ x0 x1 s, KeepsOut s (execKindleRead x0 x1 s) := by
  intro x0 x1 s
  unfold execKindleRead
  refine runMailbox_keeps fun c t h => ?_
  try dsimp only
  repeat' first
    | with_reducible exact h | (intro) | with_reducible apply Keeps.ite_fst | with_reducible apply kindleRead_keeps
    | with_reducible apply Keeps.ite

theorem execKindleRouteCommit_keeps : ∀ x0 s, KeepsOut s (execKindleRouteCommit x0 s) := by
  intro x0 s
  unfold execKindleRouteCommit
  have h := Keeps.refl s
  try dsimp only
  repeat' first
    | with_reducible apply KeepsOut.next | with_reducible apply KeepsOut.ite | with_reducible exact KeepsOut.refused
    | with_reducible exact h | (intro) | with_reducible apply kindleAt_keeps | with_reducible apply Keeps.ite

theorem execKindleFlueSwitch_keeps : ∀ x0 s, KeepsOut s (execKindleFlueSwitch x0 s) := by
  intro x0 s
  unfold execKindleFlueSwitch
  have h := Keeps.refl s
  try dsimp only
  repeat' first
    | with_reducible apply KeepsOut.next | with_reducible apply KeepsOut.ite | with_reducible exact KeepsOut.refused
    | with_reducible exact h | (intro) | with_reducible apply kindleAt_keeps | with_reducible apply Keeps.ite

theorem execCollRelease_keeps : ∀ x0 s, KeepsOut s (execCollRelease x0 s) := by
  intro x0 s
  unfold execCollRelease
  have h := Keeps.refl s
  try dsimp only
  repeat' first
    | with_reducible apply KeepsOut.next | with_reducible apply KeepsOut.ite | with_reducible exact KeepsOut.refused
    | with_reducible exact h | (intro) | with_reducible apply kindleAt_keeps | with_reducible apply Keeps.ite

theorem execMcRelease_keeps : ∀ x0 s, KeepsOut s (execMcRelease x0 s) := by
  intro x0 s
  unfold execMcRelease
  have h := Keeps.refl s
  try dsimp only
  repeat' first
    | with_reducible apply KeepsOut.next | with_reducible apply KeepsOut.ite | with_reducible exact KeepsOut.refused
    | with_reducible exact h | (intro) | with_reducible apply kindleAt_keeps | with_reducible apply Keeps.ite

theorem execMcReleaseSeed_keeps : ∀ x0 s, KeepsOut s (execMcReleaseSeed x0 s) := by
  intro x0 s
  unfold execMcReleaseSeed
  have h := Keeps.refl s
  try dsimp only
  repeat' first
    | with_reducible apply KeepsOut.next | with_reducible apply KeepsOut.ite | with_reducible exact KeepsOut.refused
    | with_reducible exact h | (intro) | with_reducible apply kindleAt_keeps | with_reducible apply Keeps.ite

theorem execShaperBank_keeps : ∀ x0 s, KeepsOut s (execShaperBank x0 s) := by
  intro x0 s
  unfold execShaperBank
  have h := Keeps.refl s
  try dsimp only
  repeat' first
    | with_reducible apply KeepsOut.next | with_reducible apply KeepsOut.ite | with_reducible exact KeepsOut.refused
    | with_reducible exact h | (intro) | with_reducible apply kindleAt_keeps | with_reducible apply Keeps.ite

theorem execCounterDump_keeps : ∀ x0 s, KeepsOut s (execCounterDump x0 s) := by
  intro x0 s
  unfold execCounterDump
  have h := Keeps.refl s
  try dsimp only
  repeat' first
    | with_reducible apply KeepsOut.next | with_reducible apply KeepsOut.ite | with_reducible exact KeepsOut.refused
    | with_reducible exact h | (intro) | with_reducible apply kindleAt_keeps | with_reducible apply Keeps.ite

theorem execTimedNotice_keeps : ∀ x0 s, KeepsOut s (execTimedNotice x0 s) := by
  intro x0 s
  unfold execTimedNotice
  have h := Keeps.refl s
  try dsimp only
  repeat' first
    | with_reducible apply KeepsOut.next | with_reducible apply KeepsOut.ite | with_reducible exact KeepsOut.refused
    | with_reducible exact h | (intro) | with_reducible apply kindleAt_keeps | with_reducible apply Keeps.ite

theorem execSeedPacketSend_keeps : ∀ x0 x1 s, KeepsOut s (execSeedPacketSend x0 x1 s) := by
  intro x0 x1 s
  unfold execSeedPacketSend
  have h := Keeps.refl s
  try dsimp only
  repeat' first
    | with_reducible apply KeepsOut.next | with_reducible apply KeepsOut.ite | with_reducible exact KeepsOut.refused
    | with_reducible exact h | (intro) | with_reducible apply seedPacket_keeps | with_reducible apply Keeps.ite

end Sys2Proof.Machine
end

