-- ==== Sys2Proof/Laws/KeepsJobs.lean ====
section
/-! SUPPORT. What the operations of Machine/Jobs.lean keep. -/

namespace Sys2Proof.Machine

theorem modPart_keeps {s0 : State} : ∀ x0 x1 s, Keeps s0 s → Keeps s0 (modPart x0 x1 s) := by
  intro x0 x1 s h
  unfold modPart
  try dsimp only
  repeat' first
    | with_reducible exact h | (intro) | with_reducible apply State.modJobs_keeps

theorem partCreate_keeps {s0 : State} : ∀ x0 s, Keeps s0 s → Keeps s0 (partCreate x0 s).1 := by
  intro x0 s h
  unfold partCreate
  try dsimp only
  repeat' first
    | with_reducible exact h | (intro) | with_reducible apply clearParity_keeps | with_reducible apply cmdOk_keeps
    | with_reducible apply cmdRefuse_keeps | with_reducible apply modPart_keeps | with_reducible apply Keeps.ite_fst
    | with_reducible apply Keeps.ite | with_reducible apply Keeps.foldl | refine Keeps.fst (by assumption) ?_ | split

theorem partQuota_keeps {s0 : State} : ∀ x0 s, Keeps s0 s → Keeps s0 (partQuota x0 s).1 := by
  intro x0 s h
  unfold partQuota
  try dsimp only
  repeat' first
    | with_reducible exact h | (intro) | with_reducible apply clearParity_keeps | with_reducible apply cmdOk_keeps
    | with_reducible apply cmdRefuse_keeps | with_reducible apply modPart_keeps | with_reducible apply Keeps.ite_fst
    | with_reducible apply Keeps.ite | with_reducible apply Keeps.foldl | refine Keeps.fst (by assumption) ?_ | split

theorem partStatusRead_keeps {s0 : State} : ∀ x0 s, Keeps s0 s → Keeps s0 (partStatusRead x0 s).1 := by
  intro x0 s h
  unfold partStatusRead
  try dsimp only
  repeat' first
    | with_reducible exact h | (intro) | with_reducible apply cmdOk_keeps | with_reducible apply cmdRefuse_keeps
    | with_reducible apply hostWrite_keeps | with_reducible apply Keeps.ite_fst

theorem partPortSet_keeps {s0 : State} : ∀ x0 s, Keeps s0 s → Keeps s0 (partPortSet x0 s).1 := by
  intro x0 s h
  unfold partPortSet
  try dsimp only
  repeat' first
    | with_reducible exact h | (intro) | with_reducible apply State.modJobs_keeps | with_reducible apply cmdOk_keeps
    | with_reducible apply cmdRefuse_keeps | with_reducible apply Keeps.ite_fst

theorem partAllowWrite_keeps {s0 : State} : ∀ x0 s, Keeps s0 s → Keeps s0 (partAllowWrite x0 s).1 := by
  intro x0 s h
  unfold partAllowWrite
  try dsimp only
  repeat' first
    | with_reducible exact h | (intro) | with_reducible apply State.modJobs_keeps
    | with_reducible apply clearParity_keeps | with_reducible apply cmdOk_keeps | with_reducible apply cmdRefuse_keeps
    | with_reducible apply Keeps.ite_fst

theorem stopMove_keeps {s0 : State} : ∀ x0 s, Keeps s0 s → Keeps s0 (stopMove x0 s) := by
  intro x0 s h
  unfold stopMove
  try dsimp only
  repeat' first
    | with_reducible exact h | (intro) | with_reducible apply endMove_keeps | with_reducible apply partGranules_keeps

theorem retireStop_keeps {s0 : State} : ∀ x0 s, Keeps s0 s → Keeps s0 (retireStop x0 s) := by
  intro x0 s h
  unfold retireStop
  try dsimp only
  repeat' first
    | with_reducible exact h | (intro) | with_reducible apply State.modJobs_keeps
    | with_reducible apply State.modThresh_keeps | with_reducible apply endHarvest_keeps
    | with_reducible apply endNorm_keeps | with_reducible apply kindleDrop_keeps | with_reducible apply modPart_keeps
    | with_reducible apply stopMove_keeps | with_reducible apply stopRings_keeps | with_reducible apply Keeps.ite
    | with_reducible apply Keeps.foldl | split | dsimp only | exact rfl | exact ⟨rfl, rfl⟩
    | exact ⟨rfl, rfl, rfl, rfl, rfl, rfl⟩ | assumption

theorem retireContexts_keeps {s0 : State} : ∀ x0 s, Keeps s0 s → Keeps s0 (retireContexts x0 s) := by
  intro x0 s h
  unfold retireContexts
  try dsimp only
  repeat' first
    | with_reducible exact h | (intro) | with_reducible apply abortPlain_keeps | with_reducible apply modCtx_keeps
    | with_reducible apply settleFences_keeps | with_reducible apply Keeps.ite | with_reducible apply Keeps.foldl
    | split | dsimp only | exact rfl | exact ⟨rfl, rfl⟩ | exact ⟨rfl, rfl, rfl, rfl, rfl, rfl⟩ | assumption

theorem retireTables_keeps {s0 : State} : ∀ x0 s, Keeps s0 s → Keeps s0 (retireTables x0 s) := by
  intro x0 s h
  unfold retireTables
  try dsimp only
  repeat' first
    | with_reducible exact h | (intro) | with_reducible apply State.modJobs_keeps
    | with_reducible apply State.modMem_keeps | with_reducible apply State.modRouting_keeps
    | with_reducible apply Keeps.ite | with_reducible apply Keeps.foldl | split | dsimp only

theorem settleRetire_keeps {s0 : State} : ∀ x0 s, Keeps s0 s → Keeps s0 (settleRetire x0 s) := by
  intro x0 s h
  unfold settleRetire
  try dsimp only
  repeat' first
    | with_reducible exact h | (intro) | with_reducible apply State.modJobs_keeps | with_reducible apply modCtx_keeps
    | with_reducible apply modPart_keeps | with_reducible apply post_keeps | with_reducible apply stripResults_keeps
    | with_reducible apply Keeps.ite | with_reducible apply Keeps.foldl | split | dsimp only | exact rfl
    | exact ⟨rfl, rfl⟩ | exact ⟨rfl, rfl, rfl, rfl, rfl, rfl⟩ | assumption

theorem retireStep4_keeps {s0 : State} : ∀ x0 s, Keeps s0 s → Keeps s0 (retireStep4 x0 s) := by
  intro x0 s h
  unfold retireStep4
  try dsimp only
  repeat' first
    | with_reducible exact h | (intro) | with_reducible apply State.modJobs_keeps | with_reducible apply endWith_keeps
    | with_reducible apply retireTables_keeps | with_reducible apply settleRetire_keeps
    | with_reducible apply Keeps.ite | with_reducible apply Keeps.foldl | split

theorem settleRetirements_keeps {s0 : State} : ∀ s, Keeps s0 s → Keeps s0 (settleRetirements s) := by
  intro s h
  unfold settleRetirements
  try dsimp only
  repeat' first
    | with_reducible exact h | (intro) | with_reducible apply retireStep4_keeps | with_reducible apply Keeps.ite
    | with_reducible apply Keeps.foldl | split | dsimp only | exact rfl | exact ⟨rfl, rfl⟩
    | exact ⟨rfl, rfl, rfl, rfl, rfl, rfl⟩ | assumption

theorem partRetire_keeps {s0 : State} : ∀ x0 x1 s, Keeps s0 s → Keeps s0 (partRetire x0 x1 s).1 := by
  intro x0 x1 s h
  unfold partRetire
  try dsimp only
  repeat' first
    | with_reducible exact h | (intro) | with_reducible apply State.modJobs_keeps
    | with_reducible apply addDetached_keeps | with_reducible apply cmdOk_keeps | with_reducible apply cmdRefuse_keeps
    | with_reducible apply retireContexts_keeps | with_reducible apply retireStep4_keeps
    | with_reducible apply retireStop_keeps | with_reducible apply Keeps.ite_fst

theorem scrubOne_keeps {s0 : State} : ∀ x0 x1 s, Keeps s0 s → Keeps s0 (scrubOne x0 x1 s) := by
  intro x0 x1 s h
  unfold scrubOne
  try dsimp only
  repeat' first
    | with_reducible exact h | (intro) | with_reducible apply daZero_keeps | with_reducible apply Keeps.ite
    | with_reducible apply Keeps.foldl | split

theorem scrubNext_keeps {s0 : State} : ∀ s, Keeps s0 s → Keeps s0 (scrubNext s) := by
  intro s h
  unfold scrubNext
  try dsimp only
  repeat' first
    | with_reducible exact h | (intro) | with_reducible apply State.modJobs_keeps
    | with_reducible apply scrubOne_keeps | with_reducible apply settleRetire_keeps | with_reducible apply Keeps.ite
    | with_reducible apply Keeps.foldl | split

theorem scrubGranule_keeps {s0 : State} : ∀ s, Keeps s0 s → Keeps s0 (scrubGranule s) := by
  intro s h
  unfold scrubGranule
  try dsimp only
  repeat' first
    | with_reducible exact h | (intro) | with_reducible apply scrubNext_keeps
    | with_reducible apply settleRetirements_keeps

theorem partScrubConfig_keeps {s0 : State} : ∀ x0 s, Keeps s0 s → Keeps s0 (partScrubConfig x0 s).1 := by
  intro x0 s h
  unfold partScrubConfig
  try dsimp only
  repeat' first
    | with_reducible exact h | (intro) | with_reducible apply State.modJobs_keeps | with_reducible apply cmdOk_keeps
    | with_reducible apply cmdRefuse_keeps | with_reducible apply Keeps.ite_fst

theorem seedDefine_keeps {s0 : State} : ∀ x0 s, Keeps s0 s → Keeps s0 (seedDefine x0 s).1 := by
  intro x0 s h
  unfold seedDefine
  try dsimp only
  repeat' first
    | with_reducible exact h | (intro) | with_reducible apply cmdOk_keeps | with_reducible apply cmdRefuse_keeps
    | with_reducible apply modSeed_keeps | with_reducible apply Keeps.ite_fst

theorem seedFree_keeps {s0 : State} : ∀ x0 s, Keeps s0 s → Keeps s0 (seedFree x0 s).1 := by
  intro x0 s h
  unfold seedFree
  try dsimp only
  repeat' first
    | with_reducible exact h | (intro) | with_reducible apply cmdOk_keeps | with_reducible apply cmdRefuse_keeps
    | with_reducible apply modSeed_keeps | with_reducible apply Keeps.ite_fst

theorem seedRead_keeps {s0 : State} : ∀ x0 s, Keeps s0 s → Keeps s0 (seedRead x0 s).1 := by
  intro x0 s h
  unfold seedRead
  try dsimp only
  repeat' first
    | with_reducible exact h | (intro) | with_reducible apply cmdOk_keeps | with_reducible apply cmdRefuse_keeps
    | with_reducible apply hostWrite_keeps | with_reducible apply Keeps.ite_fst

theorem execPartCreate_keeps : ∀ x0 x1 s, KeepsOut s (execPartCreate x0 x1 s) := by
  intro x0 x1 s
  unfold execPartCreate
  refine runMailbox_keeps fun c t h => ?_
  try dsimp only
  repeat' first
    | with_reducible exact h | (intro) | with_reducible apply Keeps.ite_fst | with_reducible apply partCreate_keeps
    | with_reducible apply Keeps.ite

theorem execPartQuota_keeps : ∀ x0 x1 s, KeepsOut s (execPartQuota x0 x1 s) := by
  intro x0 x1 s
  unfold execPartQuota
  refine runMailbox_keeps fun c t h => ?_
  try dsimp only
  repeat' first
    | with_reducible exact h | (intro) | with_reducible apply Keeps.ite_fst | with_reducible apply partQuota_keeps
    | with_reducible apply Keeps.ite

theorem execPartRetire_keeps : ∀ x0 x1 s, KeepsOut s (execPartRetire x0 x1 s) := by
  intro x0 x1 s
  unfold execPartRetire
  refine runMailbox_keeps fun c t h => ?_
  try dsimp only
  repeat' first
    | with_reducible exact h | (intro) | with_reducible apply Keeps.ite_fst | with_reducible apply partRetire_keeps
    | with_reducible apply Keeps.ite

theorem execPartStatusRead_keeps : ∀ x0 x1 s, KeepsOut s (execPartStatusRead x0 x1 s) := by
  intro x0 x1 s
  unfold execPartStatusRead
  refine runMailbox_keeps fun c t h => ?_
  try dsimp only
  repeat' first
    | with_reducible exact h | (intro) | with_reducible apply Keeps.ite_fst
    | with_reducible apply partStatusRead_keeps | with_reducible apply Keeps.ite

theorem execPartPortSet_keeps : ∀ x0 x1 s, KeepsOut s (execPartPortSet x0 x1 s) := by
  intro x0 x1 s
  unfold execPartPortSet
  refine runMailbox_keeps fun c t h => ?_
  try dsimp only
  repeat' first
    | with_reducible exact h | (intro) | with_reducible apply Keeps.ite_fst | with_reducible apply partPortSet_keeps
    | with_reducible apply Keeps.ite

theorem execPartAllowWrite_keeps : ∀ x0 x1 s, KeepsOut s (execPartAllowWrite x0 x1 s) := by
  intro x0 x1 s
  unfold execPartAllowWrite
  refine runMailbox_keeps fun c t h => ?_
  try dsimp only
  repeat' first
    | with_reducible exact h | (intro) | with_reducible apply Keeps.ite_fst
    | with_reducible apply partAllowWrite_keeps | with_reducible apply Keeps.ite

theorem execSeedDefine_keeps : ∀ x0 x1 s, KeepsOut s (execSeedDefine x0 x1 s) := by
  intro x0 x1 s
  unfold execSeedDefine
  refine runMailbox_keeps fun c t h => ?_
  try dsimp only
  repeat' first
    | with_reducible exact h | (intro) | with_reducible apply Keeps.ite_fst | with_reducible apply seedDefine_keeps
    | with_reducible apply Keeps.ite

theorem execSeedFree_keeps : ∀ x0 x1 s, KeepsOut s (execSeedFree x0 x1 s) := by
  intro x0 x1 s
  unfold execSeedFree
  refine runMailbox_keeps fun c t h => ?_
  try dsimp only
  repeat' first
    | with_reducible exact h | (intro) | with_reducible apply Keeps.ite_fst | with_reducible apply seedFree_keeps
    | with_reducible apply Keeps.ite

theorem execSeedRead_keeps : ∀ x0 x1 s, KeepsOut s (execSeedRead x0 x1 s) := by
  intro x0 x1 s
  unfold execSeedRead
  refine runMailbox_keeps fun c t h => ?_
  try dsimp only
  repeat' first
    | with_reducible exact h | (intro) | with_reducible apply Keeps.ite_fst | with_reducible apply seedRead_keeps
    | with_reducible apply Keeps.ite

theorem execPartScrubConfig_keeps : ∀ x0 x1 s, KeepsOut s (execPartScrubConfig x0 x1 s) := by
  intro x0 x1 s
  unfold execPartScrubConfig
  refine runMailbox_keeps fun c t h => ?_
  try dsimp only
  repeat' first
    | with_reducible exact h | (intro) | with_reducible apply Keeps.ite_fst
    | with_reducible apply partScrubConfig_keeps | with_reducible apply Keeps.ite

theorem execScrubGranule_keeps : ∀ s, KeepsOut s (execScrubGranule s) := by
  intro s
  unfold execScrubGranule
  have h := Keeps.refl s
  try dsimp only
  repeat' first
    | with_reducible apply KeepsOut.next | with_reducible apply KeepsOut.ite | with_reducible exact KeepsOut.refused
    | with_reducible exact h | (intro) | with_reducible apply scrubGranule_keeps | with_reducible apply Keeps.ite

end Sys2Proof.Machine
end

