-- ==== Sys2Proof/Laws/KeepsClock.lean ====
section
/-! SUPPORT. What the operations of Machine/Clock.lean keep. -/

namespace Sys2Proof.Machine

theorem runHearthTime_keeps {s0 : State} : ∀ s, Keeps s0 s → Keeps s0 (runHearthTime s) := by
  intro s h
  unfold runHearthTime
  try dsimp only
  repeat' first
    | with_reducible exact h | (intro) | with_reducible apply State.modTime_keeps
    | with_reducible apply State.tookFree_keeps

theorem refillPassed_keeps {s0 : State} : ∀ x0 s, Keeps s0 s → Keeps s0 (refillPassed x0 s) := by
  intro x0 s h
  unfold refillPassed
  try dsimp only
  repeat' first
    | with_reducible exact h | (intro) | with_reducible apply State.modSched_keeps | with_reducible apply Keeps.ite

theorem tick_keeps {s0 : State} : ∀ s, Keeps s0 s → Keeps s0 (tick s) := by
  intro s h
  unfold tick
  try dsimp only
  repeat' first
    | with_reducible exact h | (intro) | with_reducible apply State.modTime_keeps
    | with_reducible apply refillPassed_keeps | with_reducible apply runHearthTime_keeps
    | with_reducible apply settleDrains_keeps | with_reducible apply settleRetirements_keeps
    | with_reducible apply Keeps.ite

end Sys2Proof.Machine
end

