-- ==== Sys2Proof/Laws/KeepsCtxCmds.lean ====
section
/-! SUPPORT. What the operations of Machine/CtxCmds.lean keep. -/

namespace Sys2Proof.Machine

theorem ctxCreate_keeps {s0 : State} : ∀ x0 s, Keeps s0 s → Keeps s0 (ctxCreate x0 s).1 := by
  intro x0 s h
  unfold ctxCreate
  try dsimp only
  repeat' first
    | with_reducible exact h | (intro) | with_reducible apply cmdOk_keeps | with_reducible apply cmdRefuse_keeps
    | with_reducible apply modCtx_keeps | with_reducible apply Keeps.ite_fst | with_reducible apply Keeps.ite
    | with_reducible apply Keeps.foldl | refine Keeps.fst (by assumption) ?_ | split

theorem ctxAbort_keeps {s0 : State} : ∀ x0 s, Keeps s0 s → Keeps s0 (ctxAbort x0 s).1 := by
  intro x0 s h
  unfold ctxAbort
  try dsimp only
  repeat' first
    | with_reducible exact h | (intro) | with_reducible apply abortCtx_keeps | with_reducible apply cmdOk_keeps
    | with_reducible apply cmdRefuse_keeps | with_reducible apply Keeps.ite_fst

theorem ctxRearm_keeps {s0 : State} : ∀ x0 s, Keeps s0 s → Keeps s0 (ctxRearm x0 s).1 := by
  intro x0 s h
  unfold ctxRearm
  try dsimp only
  repeat' first
    | with_reducible exact h | (intro) | with_reducible apply cmdOk_keeps | with_reducible apply cmdRefuse_keeps
    | with_reducible apply modCtx_keeps | with_reducible apply settleFences_keeps
    | with_reducible apply stripResults_keeps | with_reducible apply Keeps.ite_fst

theorem ctxDestroy_keeps {s0 : State} : ∀ x0 s, Keeps s0 s → Keeps s0 (ctxDestroy x0 s).1 := by
  intro x0 s h
  unfold ctxDestroy
  try dsimp only
  repeat' first
    | with_reducible exact h | (intro) | with_reducible apply cmdOk_keeps | with_reducible apply cmdRefuse_keeps
    | with_reducible apply modCtx_keeps | with_reducible apply stripResults_keeps | with_reducible apply Keeps.ite_fst

theorem ctxSubstitute_keeps {s0 : State} : ∀ x0 s, Keeps s0 s → Keeps s0 (ctxSubstitute x0 s).1 := by
  intro x0 s h
  unfold ctxSubstitute
  try dsimp only
  repeat' first
    | with_reducible exact h | (intro) | with_reducible apply cmdOk_keeps | with_reducible apply cmdRefuse_keeps
    | with_reducible apply modCtx_keeps | with_reducible apply sendNotice_keeps | with_reducible apply Keeps.ite_fst

theorem ctxStatusRead_keeps {s0 : State} : ∀ x0 s, Keeps s0 s → Keeps s0 (ctxStatusRead x0 s).1 := by
  intro x0 s h
  unfold ctxStatusRead
  try dsimp only
  repeat' first
    | with_reducible exact h | (intro) | with_reducible apply cmdOk_keeps | with_reducible apply cmdRefuse_keeps
    | with_reducible apply hostWrite_keeps | with_reducible apply Keeps.ite_fst

theorem ctxRead_keeps {s0 : State} : ∀ x0 s, Keeps s0 s → Keeps s0 (ctxRead x0 s).1 := by
  intro x0 s h
  unfold ctxRead
  try dsimp only
  repeat' first
    | with_reducible exact h | (intro) | with_reducible apply cmdOk_keeps | with_reducible apply cmdRefuse_keeps
    | with_reducible apply hostWrite_keeps | with_reducible apply Keeps.ite_fst

theorem ctxBranchRead_keeps {s0 : State} : ∀ x0 s, Keeps s0 s → Keeps s0 (ctxBranchRead x0 s).1 := by
  intro x0 s h
  unfold ctxBranchRead
  try dsimp only
  repeat' first
    | with_reducible exact h | (intro) | with_reducible apply cmdOkWith_keeps | with_reducible apply cmdRefuse_keeps
    | with_reducible apply hostWrite_keeps | with_reducible apply Keeps.ite_fst | with_reducible apply Keeps.ite
    | with_reducible apply Keeps.foldl | refine Keeps.fst (by assumption) ?_ | split

theorem resendOn_keeps {s0 : State} : ∀ x0 x1 x2 x3 x4 s, Keeps s0 s → Keeps s0 (resendOn x0 x1 x2 x3 x4 s) := by
  intro x0 x1 x2 x3 x4 s h
  unfold resendOn
  try dsimp only
  repeat' first
    | with_reducible exact h | (intro) | with_reducible apply lookup_keeps | with_reducible apply originateTo_keeps
    | with_reducible apply Keeps.ite | with_reducible apply Keeps.foldl | refine Keeps.snd (by assumption) ?_ | split

theorem resendResult_keeps {s0 : State} : ∀ x0 x1 x2 s, Keeps s0 s → Keeps s0 (resendResult x0 x1 x2 s) := by
  intro x0 x1 x2 s h
  unfold resendResult
  try dsimp only
  repeat' first
    | with_reducible exact h | (intro) | with_reducible apply resendOn_keeps | with_reducible apply Keeps.ite
    | with_reducible apply Keeps.foldl | split | dsimp only | exact rfl | exact ⟨rfl, rfl⟩
    | exact ⟨rfl, rfl, rfl, rfl, rfl, rfl⟩ | assumption

theorem resendVerified_keeps {s0 : State} : ∀ x0 x1 x2 x3 s, Keeps s0 s → Keeps s0 (resendVerified x0 x1 x2 x3 s) := by
  intro x0 x1 x2 x3 s h
  unfold resendVerified
  try dsimp only
  repeat' first
    | with_reducible exact h | (intro) | with_reducible apply recallRun_keeps
    | with_reducible apply resendResult_keeps | with_reducible apply Keeps.ite

theorem ctxResendBranch_keeps {s0 : State} : ∀ x0 x1 s, Keeps s0 s → Keeps s0 (ctxResendBranch x0 x1 s).1 := by
  intro x0 x1 s h
  unfold ctxResendBranch
  try dsimp only
  repeat' first
    | with_reducible exact h | (intro) | with_reducible apply cmdOkWith_keeps | with_reducible apply cmdRefuse_keeps
    | with_reducible apply resendVerified_keeps | with_reducible apply Keeps.ite_fst | with_reducible apply Keeps.ite
    | with_reducible apply Keeps.foldl | refine Keeps.fst (by assumption) ?_ | split | dsimp only | exact rfl
    | exact ⟨rfl, rfl⟩ | exact ⟨rfl, rfl, rfl, rfl, rfl, rfl⟩ | assumption

theorem execCtxCreate_keeps : ∀ x0 x1 s, KeepsOut s (execCtxCreate x0 x1 s) := by
  intro x0 x1 s
  unfold execCtxCreate
  refine runMailbox_keeps fun c t h => ?_
  try dsimp only
  repeat' first
    | with_reducible exact h | (intro) | with_reducible apply Keeps.ite_fst | with_reducible apply ctxCreate_keeps
    | with_reducible apply Keeps.ite

theorem execCtxAbort_keeps : ∀ x0 x1 s, KeepsOut s (execCtxAbort x0 x1 s) := by
  intro x0 x1 s
  unfold execCtxAbort
  refine runMailbox_keeps fun c t h => ?_
  try dsimp only
  repeat' first
    | with_reducible exact h | (intro) | with_reducible apply Keeps.ite_fst | with_reducible apply ctxAbort_keeps
    | with_reducible apply Keeps.ite

theorem execCtxRearm_keeps : ∀ x0 x1 s, KeepsOut s (execCtxRearm x0 x1 s) := by
  intro x0 x1 s
  unfold execCtxRearm
  refine runMailbox_keeps fun c t h => ?_
  try dsimp only
  repeat' first
    | with_reducible exact h | (intro) | with_reducible apply Keeps.ite_fst | with_reducible apply ctxRearm_keeps
    | with_reducible apply Keeps.ite

theorem execCtxSubstitute_keeps : ∀ x0 x1 s, KeepsOut s (execCtxSubstitute x0 x1 s) := by
  intro x0 x1 s
  unfold execCtxSubstitute
  refine runMailbox_keeps fun c t h => ?_
  try dsimp only
  repeat' first
    | with_reducible exact h | (intro) | with_reducible apply Keeps.ite_fst | with_reducible apply ctxSubstitute_keeps
    | with_reducible apply Keeps.ite

theorem execCtxDestroy_keeps : ∀ x0 x1 s, KeepsOut s (execCtxDestroy x0 x1 s) := by
  intro x0 x1 s
  unfold execCtxDestroy
  refine runMailbox_keeps fun c t h => ?_
  try dsimp only
  repeat' first
    | with_reducible exact h | (intro) | with_reducible apply Keeps.ite_fst | with_reducible apply ctxDestroy_keeps
    | with_reducible apply Keeps.ite

theorem execCtxStatusRead_keeps : ∀ x0 x1 s, KeepsOut s (execCtxStatusRead x0 x1 s) := by
  intro x0 x1 s
  unfold execCtxStatusRead
  refine runMailbox_keeps fun c t h => ?_
  try dsimp only
  repeat' first
    | with_reducible exact h | (intro) | with_reducible apply Keeps.ite_fst | with_reducible apply ctxStatusRead_keeps
    | with_reducible apply Keeps.ite

theorem execCtxRead_keeps : ∀ x0 x1 s, KeepsOut s (execCtxRead x0 x1 s) := by
  intro x0 x1 s
  unfold execCtxRead
  refine runMailbox_keeps fun c t h => ?_
  try dsimp only
  repeat' first
    | with_reducible exact h | (intro) | with_reducible apply Keeps.ite_fst | with_reducible apply ctxRead_keeps
    | with_reducible apply Keeps.ite

theorem execCtxBranchRead_keeps : ∀ x0 x1 s, KeepsOut s (execCtxBranchRead x0 x1 s) := by
  intro x0 x1 s
  unfold execCtxBranchRead
  refine runMailbox_keeps fun c t h => ?_
  try dsimp only
  repeat' first
    | with_reducible exact h | (intro) | with_reducible apply Keeps.ite_fst | with_reducible apply ctxBranchRead_keeps
    | with_reducible apply Keeps.ite

theorem execCtxResendBranch_keeps : ∀ x0 x1 s, KeepsOut s (execCtxResendBranch x0 x1 s) := by
  intro x0 x1 s
  unfold execCtxResendBranch
  refine runMailbox_keeps fun c t h => ?_
  try dsimp only
  repeat' first
    | with_reducible exact h | (intro) | with_reducible apply Keeps.ite_fst
    | with_reducible apply ctxResendBranch_keeps | with_reducible apply Keeps.ite

end Sys2Proof.Machine
end

