-- ==== Sys2Proof/Laws/KeepsTimeCmds.lean ====
section
/-! SUPPORT. What the operations of Machine/TimeCmds.lean keep. -/

namespace Sys2Proof.Machine

theorem moveCore_keeps {s0 : State} : ∀ x0 s, Keeps s0 s → Keeps s0 (moveCore x0 s) := by
  intro x0 s h
  unfold moveCore
  try dsimp only
  repeat' first
    | with_reducible exact h | (intro) | with_reducible apply State.modCore_keeps
    | with_reducible apply State.modMem_keeps | with_reducible apply State.modRouting_keeps
    | with_reducible apply Keeps.ite | with_reducible apply Keeps.foldl | split | dsimp only

theorem moveColl_keeps {s0 : State} : ∀ x0 s, Keeps s0 s → Keeps s0 (moveColl x0 s) := by
  intro x0 s h
  unfold moveColl
  try dsimp only
  repeat' first
    | with_reducible exact h | (intro) | with_reducible apply State.modColl_keeps
    | with_reducible apply State.modThresh_keeps

theorem moveRest_keeps {s0 : State} : ∀ x0 s, Keeps s0 s → Keeps s0 (moveRest x0 s) := by
  intro x0 s h
  unfold moveRest
  try dsimp only
  repeat' first
    | with_reducible exact h | (intro) | with_reducible apply State.modCount_keeps
    | with_reducible apply State.modFlue_keeps | with_reducible apply State.modLink_keeps
    | with_reducible apply State.modOptics_keeps | with_reducible apply State.modPower_keeps
    | with_reducible apply State.modSec_keeps | with_reducible apply State.modTime_keeps
    | with_reducible apply Keeps.ite | with_reducible apply Keeps.foldl | split | dsimp only | exact rfl
    | exact ⟨rfl, rfl⟩ | exact ⟨rfl, rfl, rfl, rfl, rfl, rfl⟩

theorem stepTime_keeps {s0 : State} : ∀ x0 s, Keeps s0 s → Keeps s0 (stepTime x0 s) := by
  intro x0 s h
  unfold stepTime
  try dsimp only
  repeat' first
    | with_reducible exact h | (intro) | with_reducible apply State.modCount_keeps
    | with_reducible apply State.modOptics_keeps | with_reducible apply State.modTime_keeps
    | with_reducible apply bumpTime_keeps | with_reducible apply capture_keeps
    | with_reducible apply kindleSkipped_keeps | with_reducible apply moveColl_keeps
    | with_reducible apply moveCore_keeps | with_reducible apply moveRest_keeps | with_reducible apply tallyFlag_keeps
    | with_reducible apply Keeps.ite

theorem setTimeState_keeps {s0 : State} : ∀ x0 s, Keeps s0 s → Keeps s0 (setTimeState x0 s) := by
  intro x0 s h
  unfold setTimeState
  try dsimp only
  repeat' first
    | with_reducible exact h | (intro) | with_reducible apply State.modTime_keeps | with_reducible apply capture_keeps
    | with_reducible apply Keeps.ite

theorem relock_keeps {s0 : State} : ∀ s, Keeps s0 s → Keeps s0 (relock s) := by
  intro s h
  unfold relock
  try dsimp only
  repeat' first
    | with_reducible exact h | (intro) | with_reducible apply State.modTime_keeps
    | with_reducible apply setTimeState_keeps

theorem loseTime_keeps {s0 : State} : ∀ s, Keeps s0 s → Keeps s0 (loseTime s) := by
  intro s h
  unfold loseTime
  try dsimp only
  repeat' first
    | with_reducible exact h | (intro) | with_reducible apply State.modTime_keeps | with_reducible apply emit_keeps
    | with_reducible apply kindleDrop_keeps | with_reducible apply setTimeState_keeps | with_reducible apply Keeps.ite

theorem toUnits_keeps {s0 : State} : ∀ x0 s, Keeps s0 s → Keeps s0 (toUnits x0 s).2 := by
  intro x0 s h
  unfold toUnits
  try dsimp only
  repeat' first
    | with_reducible exact h | (intro) | with_reducible apply State.tookFree_keeps
    | with_reducible apply Keeps.ite_snd

theorem acceptOffset_keeps {s0 : State} : ∀ x0 s, Keeps s0 s → Keeps s0 (acceptOffset x0 s) := by
  intro x0 s h
  unfold acceptOffset
  try dsimp only
  repeat' first
    | with_reducible exact h | (intro) | with_reducible apply State.modTime_keeps
    | with_reducible apply bumpTime_keeps | with_reducible apply setTimeState_keeps | with_reducible apply Keeps.ite

theorem onOffset_keeps {s0 : State} : ∀ x0 s, Keeps s0 s → Keeps s0 (onOffset x0 s) := by
  intro x0 s h
  unfold onOffset
  try dsimp only
  repeat' first
    | with_reducible exact h | (intro) | with_reducible apply State.modTime_keeps
    | with_reducible apply acceptOffset_keeps | with_reducible apply bumpTime_keeps
    | with_reducible apply capture_keeps | with_reducible apply relock_keeps | with_reducible apply setTimeState_keeps
    | with_reducible apply stepTime_keeps | with_reducible apply toUnits_keeps | with_reducible apply Keeps.ite

theorem holdoverTimeout_keeps {s0 : State} : ∀ s, Keeps s0 s → Keeps s0 (holdoverTimeout s) := by
  intro s h
  unfold holdoverTimeout
  try dsimp only
  repeat' first
    | with_reducible exact h | (intro) | with_reducible apply State.modTime_keeps
    | with_reducible apply setTimeState_keeps | with_reducible apply Keeps.ite

theorem stampNow_keeps {s0 : State} : ∀ s, Keeps s0 s → Keeps s0 (stampNow s).2 := by
  intro s h
  unfold stampNow
  try dsimp only
  repeat' first
    | with_reducible exact h | (intro) | with_reducible apply State.tookFree_keeps

theorem freeBytes_keeps {s0 : State} : ∀ x0 s, Keeps s0 s → Keeps s0 (freeBytes x0 s).2 := by
  intro x0 s h
  unfold freeBytes
  try dsimp only
  repeat' first
    | with_reducible exact h | (intro) | with_reducible apply State.tookFree_keeps
    | with_reducible apply Keeps.ite_snd | with_reducible apply Keeps.ite | with_reducible apply Keeps.foldl
    | with_reducible apply Keeps.foldl_snd | split | dsimp only | exact rfl | exact ⟨rfl, rfl⟩
    | exact ⟨rfl, rfl, rfl, rfl, rfl, rfl⟩ | assumption

theorem modPtp_keeps {s0 : State} : ∀ x0 x1 s, Keeps s0 s → Keeps s0 (modPtp x0 x1 s) := by
  intro x0 x1 s h
  unfold modPtp
  try dsimp only
  repeat' first
    | with_reducible exact h | (intro) | with_reducible apply State.modTime_keeps

theorem putTime_keeps {s0 : State} : ∀ x0 x1 x2 s, Keeps s0 s → Keeps s0 (putTime x0 x1 x2 s) := by
  intro x0 x1 x2 s h
  unfold putTime
  try dsimp only
  repeat' first
    | with_reducible exact h | (intro) | with_reducible apply bumpTime_keeps | with_reducible apply emit_keeps
    | with_reducible apply markerDue_keeps | with_reducible apply putRaw_keeps

theorem queueTime_keeps {s0 : State} : ∀ x0 x1 x2 s, Keeps s0 s → Keeps s0 (queueTime x0 x1 x2 s) := by
  intro x0 x1 x2 s h
  unfold queueTime
  try dsimp only
  repeat' first
    | with_reducible exact h | (intro) | with_reducible apply State.modLink_keeps

theorem stamped_keeps {s0 : State} : ∀ x0 x1 x2 s, Keeps s0 s → Keeps s0 (stamped x0 x1 x2 s) := by
  intro x0 x1 x2 s h
  unfold stamped
  try dsimp only
  repeat' first
    | with_reducible exact h | (intro) | with_reducible apply modPtp_keeps | with_reducible apply queueTime_keeps
    | with_reducible apply Keeps.ite | with_reducible apply Keeps.foldl | split

theorem timeGo_keeps {s0 : State} : ∀ n p s, Keeps s0 s → Keeps s0 (timeGo n p s) := by
  intro n p
  induction n with
  | zero => exact fun _ h => h
  | succ n ih =>
    intro s h
    unfold timeGo
    split
    · split
      · exact h
      · apply ih
        apply stamped_keeps
        apply putTime_keeps
        apply stampNow_keeps
        exact State.modLink_keeps h
    · exact h

theorem timeFlush_keeps {s0 : State} : ∀ x0 s, Keeps s0 s → Keeps s0 (timeFlush x0 s) := by
  intro x0 s h
  unfold timeFlush
  try dsimp only
  repeat' first
    | with_reducible exact h | (intro) | with_reducible apply timeGo_keeps

theorem sendTime_keeps {s0 : State} : ∀ x0 x1 x2 s, Keeps s0 s → Keeps s0 (sendTime x0 x1 x2 s) := by
  intro x0 x1 x2 s h
  unfold sendTime
  try dsimp only
  repeat' first
    | with_reducible exact h | (intro) | with_reducible apply queueTime_keeps | with_reducible apply timeFlush_keeps

theorem portSelect_keeps {s0 : State} : ∀ x0 x1 s, Keeps s0 s → Keeps s0 (portSelect x0 x1 s) := by
  intro x0 x1 s h
  unfold portSelect
  try dsimp only
  repeat' first
    | with_reducible exact h | (intro) | with_reducible apply egressSelect_keeps | with_reducible apply pump_keeps
    | with_reducible apply settleSeeds_keeps | with_reducible apply timeFlush_keeps | with_reducible apply Keeps.ite
    | with_reducible apply Keeps.foldl | split

theorem syncSend_keeps {s0 : State} : ∀ x0 s, Keeps s0 s → Keeps s0 (syncSend x0 s) := by
  intro x0 s h
  unfold syncSend
  try dsimp only
  repeat' first
    | with_reducible exact h | (intro) | with_reducible apply freeBytes_keeps | with_reducible apply modPtp_keeps
    | with_reducible apply sendTime_keeps | with_reducible apply Keeps.ite

theorem delayReqSend_keeps {s0 : State} : ∀ x0 s, Keeps s0 s → Keeps s0 (delayReqSend x0 s) := by
  intro x0 s h
  unfold delayReqSend
  try dsimp only
  repeat' first
    | with_reducible exact h | (intro) | with_reducible apply freeBytes_keeps | with_reducible apply modPtp_keeps
    | with_reducible apply sendTime_keeps | with_reducible apply Keeps.ite

theorem announceSend_keeps {s0 : State} : ∀ x0 s, Keeps s0 s → Keeps s0 (announceSend x0 s) := by
  intro x0 s h
  unfold announceSend
  try dsimp only
  repeat' first
    | with_reducible exact h | (intro) | with_reducible apply freeBytes_keeps | with_reducible apply modPtp_keeps
    | with_reducible apply sendTime_keeps | with_reducible apply Keeps.ite

theorem syncOffset_keeps {s0 : State} : ∀ x0 s, Keeps s0 s → Keeps s0 (syncOffset x0 s) := by
  intro x0 s h
  unfold syncOffset
  try dsimp only
  repeat' first
    | with_reducible exact h | (intro) | with_reducible apply modPtp_keeps | with_reducible apply onOffset_keeps
    | with_reducible apply Keeps.ite

theorem syncDone_keeps {s0 : State} : ∀ x0 x1 x2 s, Keeps s0 s → Keeps s0 (syncDone x0 x1 x2 s) := by
  intro x0 x1 x2 s h
  unfold syncDone
  try dsimp only
  repeat' first
    | with_reducible exact h | (intro) | with_reducible apply modPtp_keeps | with_reducible apply syncOffset_keeps

theorem delayDone_keeps {s0 : State} : ∀ x0 x1 s, Keeps s0 s → Keeps s0 (delayDone x0 x1 s) := by
  intro x0 x1 s h
  unfold delayDone
  try dsimp only
  repeat' first
    | with_reducible exact h | (intro) | with_reducible apply State.modTime_keeps | with_reducible apply modPtp_keeps
    | with_reducible apply syncOffset_keeps | with_reducible apply toUnits_keeps | with_reducible apply Keeps.ite

theorem ptpReceive_keeps {s0 : State} : ∀ x0 x1 x2 s, Keeps s0 s → Keeps s0 (ptpReceive x0 x1 x2 s) := by
  intro x0 x1 x2 s h
  unfold ptpReceive
  try dsimp only
  repeat' first
    | with_reducible exact h | (intro) | with_reducible apply delayDone_keeps | with_reducible apply modPtp_keeps
    | with_reducible apply sendTime_keeps | with_reducible apply syncDone_keeps | with_reducible apply Keeps.ite
    | with_reducible apply Keeps.foldl | split

theorem timePacketRx_keeps {s0 : State} : ∀ x0 x1 s, Keeps s0 s → Keeps s0 (timePacketRx x0 x1 s) := by
  intro x0 x1 s h
  unfold timePacketRx
  try dsimp only
  repeat' first
    | with_reducible exact h | (intro) | with_reducible apply bump_keeps | with_reducible apply bumpBy_keeps
    | with_reducible apply bumpIn_keeps | with_reducible apply bumpTime_keeps | with_reducible apply ptpReceive_keeps
    | with_reducible apply stampNow_keeps | with_reducible apply termCrcFail_keeps | with_reducible apply Keeps.ite
    | with_reducible apply Keeps.foldl | refine Keeps.snd (by assumption) ?_ | split

theorem pinStamp_keeps {s0 : State} : ∀ x0 s, Keeps s0 s → Keeps s0 (pinStamp x0 s).2 := by
  intro x0 s h
  unfold pinStamp
  try dsimp only
  repeat' first
    | with_reducible exact h | (intro) | with_reducible apply State.tookFree_keeps

theorem setAtEdge_keeps {s0 : State} : ∀ x0 x1 s, Keeps s0 s → Keeps s0 (setAtEdge x0 x1 s) := by
  intro x0 x1 s h
  unfold setAtEdge
  try dsimp only
  repeat' first
    | with_reducible exact h | (intro) | with_reducible apply endWith_keeps | with_reducible apply relock_keeps
    | with_reducible apply stepTime_keeps

theorem edgeSeen_keeps {s0 : State} : ∀ x0 x1 s, Keeps s0 s → Keeps s0 (edgeSeen x0 x1 s).2 := by
  intro x0 x1 s h
  unfold edgeSeen
  try dsimp only
  repeat' first
    | with_reducible exact h | (intro) | with_reducible apply State.modTime_keeps
    | with_reducible apply State.tookFree_keeps | with_reducible apply Keeps.ite_snd

theorem ppsStamped_keeps {s0 : State} : ∀ s, Keeps s0 s → Keeps s0 (ppsStamped s) := by
  intro s h
  unfold ppsStamped
  try dsimp only
  repeat' first
    | with_reducible exact h | (intro) | with_reducible apply State.modTime_keeps
    | with_reducible apply captureAt_keeps | with_reducible apply endWith_keeps | with_reducible apply onOffset_keeps
    | with_reducible apply pinStamp_keeps | with_reducible apply setAtEdge_keeps | with_reducible apply Keeps.ite
    | with_reducible apply Keeps.foldl | with_reducible apply Keeps.foldl_snd | refine Keeps.snd (by assumption) ?_
    | split | dsimp only | exact rfl | exact ⟨rfl, rfl⟩ | exact ⟨rfl, rfl, rfl, rfl, rfl, rfl⟩ | assumption

theorem ppsInEdge_keeps {s0 : State} : ∀ s, Keeps s0 s → Keeps s0 (ppsInEdge s) := by
  intro s h
  unfold ppsInEdge
  try dsimp only
  repeat' first
    | with_reducible exact h | (intro) | with_reducible apply edgeSeen_keeps | with_reducible apply ppsStamped_keeps
    | with_reducible apply Keeps.ite

theorem ppsOutEdge_keeps {s0 : State} : ∀ s, Keeps s0 s → Keeps s0 (ppsOutEdge s) := by
  intro s h
  unfold ppsOutEdge
  try dsimp only
  repeat' first
    | with_reducible exact h | (intro) | with_reducible apply State.modTime_keeps
    | with_reducible apply captureAt_keeps | with_reducible apply emit_keeps | with_reducible apply pinStamp_keeps
    | with_reducible apply Keeps.ite

theorem ppsOutFall_keeps {s0 : State} : ∀ s, Keeps s0 s → Keeps s0 (ppsOutFall s) := by
  intro s h
  unfold ppsOutFall
  try dsimp only
  repeat' first
    | with_reducible exact h | (intro) | with_reducible apply State.modTime_keeps | with_reducible apply emit_keeps
    | with_reducible apply Keeps.ite

theorem capInEdge_keeps {s0 : State} : ∀ x0 x1 s, Keeps s0 s → Keeps s0 (capInEdge x0 x1 s) := by
  intro x0 x1 s h
  unfold capInEdge
  try dsimp only
  repeat' first
    | with_reducible exact h | (intro) | with_reducible apply captureAt_keeps | with_reducible apply edgeSeen_keeps
    | with_reducible apply pinStamp_keeps | with_reducible apply Keeps.ite

theorem ppsExpired_keeps {s0 : State} : ∀ s, Keeps s0 s → Keeps s0 (ppsExpired s) := by
  intro s h
  unfold ppsExpired
  try dsimp only
  repeat' first
    | with_reducible exact h | (intro) | with_reducible apply State.modTime_keeps | with_reducible apply endWith_keeps
    | with_reducible apply Keeps.ite | with_reducible apply Keeps.foldl | split

theorem refFail_keeps {s0 : State} : ∀ x0 s, Keeps s0 s → Keeps s0 (refFail x0 s) := by
  intro x0 s h
  unfold refFail
  try dsimp only
  repeat' first
    | with_reducible exact h | (intro) | with_reducible apply State.modTime_keeps
    | with_reducible apply bumpTime_keeps | with_reducible apply capture_keeps | with_reducible apply loseTime_keeps
    | with_reducible apply report_keeps | with_reducible apply Keeps.ite

theorem timeConfig_keeps {s0 : State} : ∀ x0 s, Keeps s0 s → Keeps s0 (timeConfig x0 s).1 := by
  intro x0 s h
  unfold timeConfig
  try dsimp only
  repeat' first
    | with_reducible exact h | (intro) | with_reducible apply State.modTime_keeps | with_reducible apply cmdOk_keeps
    | with_reducible apply cmdRefuse_keeps | with_reducible apply Keeps.ite_fst

theorem timePortConfig_keeps {s0 : State} : ∀ x0 s, Keeps s0 s → Keeps s0 (timePortConfig x0 s).1 := by
  intro x0 s h
  unfold timePortConfig
  try dsimp only
  repeat' first
    | with_reducible exact h | (intro) | with_reducible apply cmdOk_keeps | with_reducible apply cmdRefuse_keeps
    | with_reducible apply modPtp_keeps | with_reducible apply Keeps.ite_fst

theorem timeSource_keeps {s0 : State} : ∀ x0 s, Keeps s0 s → Keeps s0 (timeSource x0 s).1 := by
  intro x0 s h
  unfold timeSource
  try dsimp only
  repeat' first
    | with_reducible exact h | (intro) | with_reducible apply State.modTime_keeps | with_reducible apply cmdOk_keeps
    | with_reducible apply cmdRefuse_keeps | with_reducible apply setTimeState_keeps
    | with_reducible apply toUnits_keeps | with_reducible apply Keeps.ite_fst | with_reducible apply Keeps.ite
    | with_reducible apply Keeps.foldl | refine Keeps.snd (by assumption) ?_ | split

theorem timeSet_keeps {s0 : State} : ∀ x0 x1 s, Keeps s0 s → Keeps s0 (timeSet x0 x1 s).1 := by
  intro x0 x1 s h
  unfold timeSet
  try dsimp only
  repeat' first
    | with_reducible exact h | (intro) | with_reducible apply State.modTime_keeps
    | with_reducible apply addDetached_keeps | with_reducible apply cmdOk_keeps | with_reducible apply cmdRefuse_keeps
    | with_reducible apply relock_keeps | with_reducible apply stepTime_keeps | with_reducible apply Keeps.ite_fst
    | with_reducible apply Keeps.ite | with_reducible apply Keeps.foldl | refine Keeps.fst (by assumption) ?_ | split

theorem timeStepAccept_keeps {s0 : State} : ∀ x0 s, Keeps s0 s → Keeps s0 (timeStepAccept x0 s).1 := by
  intro x0 s h
  unfold timeStepAccept
  try dsimp only
  repeat' first
    | with_reducible exact h | (intro) | with_reducible apply cmdOk_keeps | with_reducible apply cmdRefuse_keeps
    | with_reducible apply relock_keeps | with_reducible apply stepTime_keeps | with_reducible apply Keeps.ite_fst

theorem timeStepDismiss_keeps {s0 : State} : ∀ s, Keeps s0 s → Keeps s0 (timeStepDismiss s).1 := by
  intro s h
  unfold timeStepDismiss
  try dsimp only
  repeat' first
    | with_reducible exact h | (intro) | with_reducible apply State.modTime_keeps | with_reducible apply cmdOk_keeps
    | with_reducible apply cmdRefuse_keeps | with_reducible apply relock_keeps | with_reducible apply Keeps.ite_fst

theorem timeStatusRead_keeps {s0 : State} : ∀ x0 s, Keeps s0 s → Keeps s0 (timeStatusRead x0 s).1 := by
  intro x0 s h
  unfold timeStatusRead
  try dsimp only
  repeat' first
    | with_reducible exact h | (intro) | with_reducible apply cmdOk_keeps | with_reducible apply hostWrite_keeps
    | with_reducible apply toUnits_keeps

theorem captureConfig_keeps {s0 : State} : ∀ x0 s, Keeps s0 s → Keeps s0 (captureConfig x0 s).1 := by
  intro x0 s h
  unfold captureConfig
  try dsimp only
  repeat' first
    | with_reducible exact h | (intro) | with_reducible apply State.modTime_keeps | with_reducible apply cmdOk_keeps
    | with_reducible apply cmdRefuse_keeps | with_reducible apply Keeps.ite_fst

theorem execTimeConfig_keeps : ∀ x0 x1 s, KeepsOut s (execTimeConfig x0 x1 s) := by
  intro x0 x1 s
  unfold execTimeConfig
  refine runMailbox_keeps fun c t h => ?_
  try dsimp only
  repeat' first
    | with_reducible exact h | (intro) | with_reducible apply Keeps.ite_fst | with_reducible apply timeConfig_keeps
    | with_reducible apply Keeps.ite

theorem execTimePortConfig_keeps : ∀ x0 x1 s, KeepsOut s (execTimePortConfig x0 x1 s) := by
  intro x0 x1 s
  unfold execTimePortConfig
  refine runMailbox_keeps fun c t h => ?_
  try dsimp only
  repeat' first
    | with_reducible exact h | (intro) | with_reducible apply Keeps.ite_fst
    | with_reducible apply timePortConfig_keeps | with_reducible apply Keeps.ite

theorem execTimeSource_keeps : ∀ x0 x1 s, KeepsOut s (execTimeSource x0 x1 s) := by
  intro x0 x1 s
  unfold execTimeSource
  refine runMailbox_keeps fun c t h => ?_
  try dsimp only
  repeat' first
    | with_reducible exact h | (intro) | with_reducible apply Keeps.ite_fst | with_reducible apply timeSource_keeps
    | with_reducible apply Keeps.ite

theorem execTimeSet_keeps : ∀ x0 x1 s, KeepsOut s (execTimeSet x0 x1 s) := by
  intro x0 x1 s
  unfold execTimeSet
  refine runMailbox_keeps fun c t h => ?_
  try dsimp only
  repeat' first
    | with_reducible exact h | (intro) | with_reducible apply Keeps.ite_fst | with_reducible apply timeSet_keeps
    | with_reducible apply Keeps.ite

theorem execTimeStepAccept_keeps : ∀ x0 x1 s, KeepsOut s (execTimeStepAccept x0 x1 s) := by
  intro x0 x1 s
  unfold execTimeStepAccept
  refine runMailbox_keeps fun c t h => ?_
  try dsimp only
  repeat' first
    | with_reducible exact h | (intro) | with_reducible apply Keeps.ite_fst
    | with_reducible apply timeStepAccept_keeps | with_reducible apply Keeps.ite

theorem execTimeStepDismiss_keeps : ∀ x0 x1 s, KeepsOut s (execTimeStepDismiss x0 x1 s) := by
  intro x0 x1 s
  unfold execTimeStepDismiss
  refine runMailbox_keeps fun c t h => ?_
  try dsimp only
  repeat' first
    | with_reducible exact h | (intro) | with_reducible apply Keeps.ite_fst
    | with_reducible apply timeStepDismiss_keeps | with_reducible apply Keeps.ite

theorem execTimeStatusRead_keeps : ∀ x0 x1 s, KeepsOut s (execTimeStatusRead x0 x1 s) := by
  intro x0 x1 s
  unfold execTimeStatusRead
  refine runMailbox_keeps fun c t h => ?_
  try dsimp only
  repeat' first
    | with_reducible exact h | (intro) | with_reducible apply Keeps.ite_fst
    | with_reducible apply timeStatusRead_keeps | with_reducible apply Keeps.ite

theorem execCaptureConfig_keeps : ∀ x0 x1 s, KeepsOut s (execCaptureConfig x0 x1 s) := by
  intro x0 x1 s
  unfold execCaptureConfig
  refine runMailbox_keeps fun c t h => ?_
  try dsimp only
  repeat' first
    | with_reducible exact h | (intro) | with_reducible apply Keeps.ite_fst | with_reducible apply captureConfig_keeps
    | with_reducible apply Keeps.ite

theorem execTimePacketRx_keeps : ∀ x0 x1 s, KeepsOut s (execTimePacketRx x0 x1 s) := by
  intro x0 x1 s
  unfold execTimePacketRx
  have h := Keeps.refl s
  try dsimp only
  repeat' first
    | with_reducible apply KeepsOut.next | with_reducible apply KeepsOut.ite | with_reducible exact KeepsOut.refused
    | with_reducible exact h | (intro) | with_reducible apply timePacketRx_keeps | with_reducible apply Keeps.ite

theorem execEgressSelect_keeps : ∀ x0 s, KeepsOut s (execEgressSelect x0 s) := by
  intro x0 s
  unfold execEgressSelect
  have h := Keeps.refl s
  try dsimp only
  repeat' first
    | with_reducible apply KeepsOut.next | with_reducible apply KeepsOut.ite | with_reducible exact KeepsOut.refused
    | with_reducible exact h | (intro) | with_reducible apply portSelect_keeps | with_reducible apply Keeps.ite

theorem execPtpSyncSend_keeps : ∀ x0 s, KeepsOut s (execPtpSyncSend x0 s) := by
  intro x0 s
  unfold execPtpSyncSend
  have h := Keeps.refl s
  try dsimp only
  repeat' first
    | with_reducible apply KeepsOut.next | with_reducible apply KeepsOut.ite | with_reducible exact KeepsOut.refused
    | with_reducible exact h | (intro) | with_reducible apply syncSend_keeps | with_reducible apply Keeps.ite

theorem execPtpDelayReqSend_keeps : ∀ x0 s, KeepsOut s (execPtpDelayReqSend x0 s) := by
  intro x0 s
  unfold execPtpDelayReqSend
  have h := Keeps.refl s
  try dsimp only
  repeat' first
    | with_reducible apply KeepsOut.next | with_reducible apply KeepsOut.ite | with_reducible exact KeepsOut.refused
    | with_reducible exact h | (intro) | with_reducible apply delayReqSend_keeps | with_reducible apply Keeps.ite

theorem execPtpAnnounceSend_keeps : ∀ x0 s, KeepsOut s (execPtpAnnounceSend x0 s) := by
  intro x0 s
  unfold execPtpAnnounceSend
  have h := Keeps.refl s
  try dsimp only
  repeat' first
    | with_reducible apply KeepsOut.next | with_reducible apply KeepsOut.ite | with_reducible exact KeepsOut.refused
    | with_reducible exact h | (intro) | with_reducible apply announceSend_keeps | with_reducible apply Keeps.ite

theorem execHoldoverTimeout_keeps : ∀ s, KeepsOut s (execHoldoverTimeout s) := by
  intro s
  unfold execHoldoverTimeout
  have h := Keeps.refl s
  try dsimp only
  repeat' first
    | with_reducible apply KeepsOut.next | with_reducible apply KeepsOut.ite | with_reducible exact KeepsOut.refused
    | with_reducible exact h | (intro) | with_reducible apply holdoverTimeout_keeps | with_reducible apply Keeps.ite

theorem execPpsInEdge_keeps : ∀ s, KeepsOut s (execPpsInEdge s) := by
  intro s
  unfold execPpsInEdge
  have h := Keeps.refl s
  try dsimp only
  repeat' first
    | with_reducible apply KeepsOut.next | with_reducible apply KeepsOut.ite | with_reducible exact KeepsOut.refused
    | with_reducible exact h | (intro) | with_reducible apply ppsInEdge_keeps | with_reducible apply Keeps.ite

theorem execPpsOutEdge_keeps : ∀ s, KeepsOut s (execPpsOutEdge s) := by
  intro s
  unfold execPpsOutEdge
  have h := Keeps.refl s
  try dsimp only
  repeat' first
    | with_reducible apply KeepsOut.next | with_reducible apply KeepsOut.ite | with_reducible exact KeepsOut.refused
    | with_reducible exact h | (intro) | with_reducible apply ppsOutEdge_keeps | with_reducible apply Keeps.ite

theorem execPpsOutFall_keeps : ∀ s, KeepsOut s (execPpsOutFall s) := by
  intro s
  unfold execPpsOutFall
  have h := Keeps.refl s
  try dsimp only
  repeat' first
    | with_reducible apply KeepsOut.next | with_reducible apply KeepsOut.ite | with_reducible exact KeepsOut.refused
    | with_reducible exact h | (intro) | with_reducible apply ppsOutFall_keeps | with_reducible apply Keeps.ite

theorem execCapInEdge_keeps : ∀ x0 x1 s, KeepsOut s (execCapInEdge x0 x1 s) := by
  intro x0 x1 s
  unfold execCapInEdge
  have h := Keeps.refl s
  try dsimp only
  repeat' first
    | with_reducible apply KeepsOut.next | with_reducible apply KeepsOut.ite | with_reducible exact KeepsOut.refused
    | with_reducible exact h | (intro) | with_reducible apply capInEdge_keeps | with_reducible apply Keeps.ite

theorem execTimeSetPpsExpired_keeps : ∀ s, KeepsOut s (execTimeSetPpsExpired s) := by
  intro s
  unfold execTimeSetPpsExpired
  have h := Keeps.refl s
  try dsimp only
  repeat' first
    | with_reducible apply KeepsOut.next | with_reducible apply KeepsOut.ite | with_reducible exact KeepsOut.refused
    | with_reducible exact h | (intro) | with_reducible apply ppsExpired_keeps | with_reducible apply Keeps.ite

end Sys2Proof.Machine
end

