-- ==== Sys2Proof/Laws/KeepsResets.lean ====
section
/-! SUPPORT. What the operations of Machine/Resets.lean keep. -/

namespace Sys2Proof.Machine

theorem laneReset1_keeps {s0 : State} : ∀ x0 s, Keeps s0 s → Keeps s0 (laneReset1 x0 s) := by
  intro x0 s h
  unfold laneReset1
  try dsimp only
  repeat' first
    | with_reducible exact h | (intro) | with_reducible apply endLaneCmds_keeps | with_reducible apply endWith_keeps
    | with_reducible apply leaveSwap_keeps | with_reducible apply modLaneLink_keeps
    | with_reducible apply modLaneOpt_keeps | with_reducible apply setLane_keeps | with_reducible apply Keeps.ite
    | with_reducible apply Keeps.foldl | split

theorem lanesReset_keeps {s0 : State} : ∀ x0 s, Keeps s0 s → Keeps s0 (lanesReset x0 s) := by
  intro x0 s h
  unfold lanesReset
  try dsimp only
  repeat' first
    | with_reducible exact h | (intro) | with_reducible apply dropSlice_keeps | with_reducible apply laneReset1_keeps
    | with_reducible apply linkDown_keeps | with_reducible apply skipSlice_keeps | with_reducible apply Keeps.ite
    | with_reducible apply Keeps.foldl | split | dsimp only | exact rfl | exact ⟨rfl, rfl⟩
    | exact ⟨rfl, rfl, rfl, rfl, rfl, rfl⟩ | assumption

theorem dropPartial_keeps {s0 : State} : ∀ x0 x1 s, Keeps s0 s → Keeps s0 (dropPartial x0 x1 s) := by
  intro x0 x1 s h
  unfold dropPartial
  try dsimp only
  repeat' first
    | with_reducible exact h | (intro) | with_reducible apply abortTx_keeps | with_reducible apply freeStored_keeps
    | with_reducible apply Keeps.ite | with_reducible apply Keeps.foldl | split | dsimp only | exact rfl
    | exact ⟨rfl, rfl⟩ | exact ⟨rfl, rfl, rfl, rfl, rfl, rfl⟩ | assumption

theorem dropCopy_keeps {s0 : State} : ∀ x0 x1 x2 x3 s, Keeps s0 s → Keeps s0 (dropCopy x0 x1 x2 x3 s) := by
  intro x0 x1 x2 x3 s h
  unfold dropCopy
  try dsimp only
  repeat' first
    | with_reducible exact h | (intro) | with_reducible apply bumpIn_keeps | with_reducible apply modBarn_keeps
    | with_reducible apply releaseCell_keeps | with_reducible apply updateWithheld_keeps
    | with_reducible apply Keeps.ite | with_reducible apply Keeps.foldl | split | dsimp only | exact rfl
    | exact ⟨rfl, rfl⟩ | exact ⟨rfl, rfl, rfl, rfl, rfl, rfl⟩ | assumption

theorem dropToward_keeps {s0 : State} : ∀ x0 s, Keeps s0 s → Keeps s0 (dropToward x0 s) := by
  intro x0 s h
  unfold dropToward
  try dsimp only
  repeat' first
    | with_reducible exact h | (intro) | with_reducible apply dropCopy_keeps | with_reducible apply Keeps.ite
    | with_reducible apply Keeps.foldl | split | dsimp only | exact rfl | exact ⟨rfl, rfl⟩
    | exact ⟨rfl, rfl, rfl, rfl, rfl, rfl⟩ | assumption

theorem clearBarn_keeps {s0 : State} : ∀ x0 x1 s, Keeps s0 s → Keeps s0 (clearBarn x0 x1 s) := by
  intro x0 x1 s h
  unfold clearBarn
  try dsimp only
  repeat' first
    | with_reducible exact h | (intro) | with_reducible apply daZero_keeps | with_reducible apply modBarn_keeps

theorem untag_keeps {s0 : State} : ∀ x0 s, Keeps s0 s → Keeps s0 (untag x0 s) := by
  intro x0 s h
  unfold untag
  try dsimp only
  repeat' first
    | with_reducible exact h | (intro) | with_reducible apply State.modCore_keeps

theorem barnsReset_keeps {s0 : State} : ∀ x0 x1 s, Keeps s0 s → Keeps s0 (barnsReset x0 x1 s) := by
  intro x0 x1 s h
  unfold barnsReset
  try dsimp only
  repeat' first
    | with_reducible exact h | (intro) | with_reducible apply State.modCore_keeps
    | with_reducible apply clearBarn_keeps | with_reducible apply dropPartial_keeps
    | with_reducible apply dropToward_keeps | with_reducible apply lanesReset_keeps
    | with_reducible apply settleSeeds_keeps | with_reducible apply untag_keeps | with_reducible apply Keeps.ite
    | with_reducible apply Keeps.foldl | split | dsimp only | exact rfl | exact ⟨rfl, rfl⟩
    | exact ⟨rfl, rfl, rfl, rfl, rfl, rfl⟩ | assumption

theorem setHalfPower_keeps {s0 : State} : ∀ x0 x1 s, Keeps s0 s → Keeps s0 (setHalfPower x0 x1 s) := by
  intro x0 x1 s h
  unfold setHalfPower
  try dsimp only
  repeat' first
    | with_reducible exact h | (intro) | with_reducible apply State.modPower_keeps

theorem contextsReset_keeps {s0 : State} : ∀ x0 x1 s, Keeps s0 s → Keeps s0 (contextsReset x0 x1 s) := by
  intro x0 x1 s h
  unfold contextsReset
  try dsimp only
  repeat' first
    | with_reducible exact h | (intro) | with_reducible apply abortPlain_keeps | with_reducible apply modCtx_keeps
    | with_reducible apply settleFences_keeps | with_reducible apply Keeps.ite | with_reducible apply Keeps.foldl
    | split | dsimp only | exact rfl | exact ⟨rfl, rfl⟩ | exact ⟨rfl, rfl, rfl, rfl, rfl, rfl⟩ | assumption

theorem disturbChunk_keeps {s0 : State} : ∀ x0 x1 x2 s, Keeps s0 s → Keeps s0 (disturbChunk x0 x1 x2 s) := by
  intro x0 x1 x2 s h
  unfold disturbChunk
  try dsimp only
  repeat' first
    | with_reducible exact h | (intro) | with_reducible apply daWrite_keeps | with_reducible apply freeBytes_keeps
    | with_reducible apply Keeps.ite

theorem harvestLost_keeps {s0 : State} : ∀ x0 s, Keeps s0 s → Keeps s0 (harvestLost x0 s) := by
  intro x0 s h
  unfold harvestLost
  try dsimp only
  repeat' first
    | with_reducible exact h | (intro) | with_reducible apply State.tookFree_keeps
    | with_reducible apply disturbChunk_keeps | with_reducible apply endHarvest_keeps | with_reducible apply Keeps.ite
    | with_reducible apply Keeps.foldl | split | dsimp only | exact rfl | exact ⟨rfl, rfl⟩
    | exact ⟨rfl, rfl, rfl, rfl, rfl, rfl⟩ | assumption

theorem threshReset_keeps {s0 : State} : ∀ x0 s, Keeps s0 s → Keeps s0 (threshReset x0 s) := by
  intro x0 s h
  unfold threshReset
  try dsimp only
  repeat' first
    | with_reducible exact h | (intro) | with_reducible apply State.modThresh_keeps
    | with_reducible apply endNorm_keeps | with_reducible apply endWith_keeps | with_reducible apply harvestLost_keeps
    | with_reducible apply Keeps.ite | with_reducible apply Keeps.foldl | split | dsimp only | exact rfl
    | exact ⟨rfl, rfl⟩ | exact ⟨rfl, rfl, rfl, rfl, rfl, rfl⟩ | assumption

theorem kilnOff_keeps {s0 : State} : ∀ x0 s, Keeps s0 s → Keeps s0 (kilnOff x0 s) := by
  intro x0 s h
  unfold kilnOff
  try dsimp only
  repeat' first
    | with_reducible exact h | (intro) | with_reducible apply State.modOptics_keeps
    | with_reducible apply endCmds_keeps | with_reducible apply modLaser_keeps | with_reducible apply setLaser_keeps
    | with_reducible apply Keeps.ite | with_reducible apply Keeps.foldl | split | dsimp only | exact rfl
    | exact ⟨rfl, rfl⟩ | exact ⟨rfl, rfl, rfl, rfl, rfl, rfl⟩ | assumption

theorem tablesReset_keeps {s0 : State} : ∀ x0 s, Keeps s0 s → Keeps s0 (tablesReset x0 s) := by
  intro x0 s h
  unfold tablesReset
  try dsimp only
  repeat' first
    | with_reducible exact h | (intro) | with_reducible apply State.modRouting_keeps
    | with_reducible apply modEp_keeps | with_reducible apply setLearnQ_keeps

theorem setReady_keeps {s0 : State} : ∀ x0 x1 s, Keeps s0 s → Keeps s0 (setReady x0 x1 s) := by
  intro x0 x1 s h
  unfold setReady
  try dsimp only
  repeat' first
    | with_reducible exact h | (intro) | with_reducible apply State.modPower_keeps

theorem setupsReset_keeps {s0 : State} : ∀ x0 s, Keeps s0 s → Keeps s0 (setupsReset x0 s) := by
  intro x0 s h
  unfold setupsReset
  try dsimp only
  repeat' first
    | with_reducible exact h | (intro) | with_reducible apply cutSetup_keeps | with_reducible apply Keeps.ite
    | with_reducible apply Keeps.foldl | split | dsimp only | exact rfl | exact ⟨rfl, rfl⟩
    | exact ⟨rfl, rfl, rfl, rfl, rfl, rfl⟩ | assumption

theorem halfReset_keeps {s0 : State} : ∀ x0 x1 s, Keeps s0 s → Keeps s0 (halfReset x0 x1 s) := by
  intro x0 x1 s h
  unfold halfReset
  try dsimp only
  repeat' first
    | with_reducible exact h | (intro) | with_reducible apply State.modMem_keeps
    | with_reducible apply barnsReset_keeps | with_reducible apply clearCounters_keeps
    | with_reducible apply contextsReset_keeps | with_reducible apply kilnOff_keeps
    | with_reducible apply noteStatus_keeps | with_reducible apply setHalfPower_keeps
    | with_reducible apply setReady_keeps | with_reducible apply setResetCause_keeps
    | with_reducible apply setupsReset_keeps | with_reducible apply siloFail_keeps
    | with_reducible apply tablesReset_keeps | with_reducible apply tallyFlag_keeps
    | with_reducible apply threshReset_keeps | with_reducible apply Keeps.ite | with_reducible apply Keeps.foldl
    | split | dsimp only

theorem deferRetunes_keeps {s0 : State} : ∀ s, Keeps s0 s → Keeps s0 (deferRetunes s) := by
  intro s h
  unfold deferRetunes
  try dsimp only
  repeat' first
    | with_reducible exact h | (intro) | with_reducible apply flueNotice_keeps | with_reducible apply modCirc_keeps
    | with_reducible apply Keeps.ite | with_reducible apply Keeps.foldl | split | dsimp only | exact rfl
    | exact ⟨rfl, rfl⟩ | exact ⟨rfl, rfl, rfl, rfl, rfl, rfl⟩ | assumption

theorem lanesTrain_keeps {s0 : State} : ∀ x0 s, Keeps s0 s → Keeps s0 (lanesTrain x0 s) := by
  intro x0 s h
  unfold lanesTrain
  try dsimp only
  repeat' first
    | with_reducible exact h | (intro) | with_reducible apply portLanesTo_keeps | with_reducible apply Keeps.ite
    | with_reducible apply Keeps.foldl | split | dsimp only | exact rfl | exact ⟨rfl, rfl⟩
    | exact ⟨rfl, rfl, rfl, rfl, rfl, rfl⟩ | assumption

theorem halfUpWith_keeps {s0 : State} : ∀ x0 x1 s, (∀ t, Keeps s0 t → Keeps s0 (x0 t)) → Keeps s0 s → Keeps s0 (halfUpWith x0 x1 s) := by
  intro x0 x1 s hx0 h
  unfold halfUpWith
  try dsimp only
  repeat' first
    | with_reducible exact h | (intro) | with_reducible apply deferRetunes_keeps
    | with_reducible apply lanesTrain_keeps | with_reducible apply noteStatus_keeps
    | with_reducible apply setHalfPower_keeps | with_reducible apply setReady_keeps | with_reducible apply Keeps.ite
    | with_reducible apply Keeps.foldl | split | dsimp only | exact rfl | exact ⟨rfl, rfl⟩
    | exact ⟨rfl, rfl, rfl, rfl, rfl, rfl⟩ | assumption | with_reducible apply hx0

theorem halfUp_keeps {s0 : State} : ∀ x0 s, Keeps s0 s → Keeps s0 (halfUp x0 s) := by
  intro x0 s h
  unfold halfUp
  try dsimp only
  repeat' first
    | with_reducible exact h | (intro) | with_reducible apply halfUpWith_keeps | with_reducible apply lightHalf_keeps
    | with_reducible apply Keeps.ite | with_reducible apply Keeps.foldl | split | dsimp only | exact rfl
    | exact ⟨rfl, rfl⟩ | exact ⟨rfl, rfl, rfl, rfl, rfl, rfl⟩ | assumption

theorem endAllWork_keeps {s0 : State} : ∀ s, Keeps s0 s → Keeps s0 (endAllWork s) := by
  intro s h
  unfold endAllWork
  try dsimp only
  repeat' first
    | with_reducible exact h | (intro) | with_reducible apply endHarvest_keeps | with_reducible apply endNorm_keeps
    | with_reducible apply endWith_keeps | with_reducible apply Keeps.ite | with_reducible apply Keeps.foldl | split
    | dsimp only | exact rfl | exact ⟨rfl, rfl⟩ | exact ⟨rfl, rfl, rfl, rfl, rfl, rfl⟩ | assumption

theorem domainsReset_keeps {s0 : State} : ∀ s, Keeps s0 s → Keeps s0 (domainsReset s) :=
  fun _ h => h.all rfl ⟨rfl, rfl, rfl, rfl, rfl, rfl⟩ (fun i => Memory.wf_filter _ _ i) id id

theorem circuitsDark_keeps {s0 : State} : ∀ s, Keeps s0 s → Keeps s0 (circuitsDark s) := by
  intro s h
  unfold circuitsDark
  try dsimp only
  repeat' first
    | with_reducible exact h | (intro) | with_reducible apply emit_keeps | with_reducible apply Keeps.ite
    | with_reducible apply Keeps.foldl | split | dsimp only | exact rfl | exact ⟨rfl, rfl⟩
    | exact ⟨rfl, rfl, rfl, rfl, rfl, rfl⟩ | assumption

theorem endPending_keeps {s0 : State} : ∀ s, Keeps s0 s → Keeps s0 (endPending s) := by
  intro s h
  unfold endPending
  try dsimp only
  repeat' first
    | with_reducible exact h | (intro) | with_reducible apply State.modHearth_keeps
    | with_reducible apply writeCompletion_keeps | with_reducible apply Keeps.ite | with_reducible apply Keeps.foldl
    | split | dsimp only | exact rfl | exact ⟨rfl, rfl⟩

theorem hearthStart_keeps {s0 : State} : ∀ x0 s, Keeps s0 s → Keeps s0 (hearthStart x0 s) := by
  intro x0 s h
  unfold hearthStart
  try dsimp only
  repeat' first
    | with_reducible exact h | (intro) | with_reducible apply post_keeps

theorem deviceReset_keeps {s0 : State} : ∀ x0 x1 s, Keeps s0 s → Keeps s0 (deviceReset x0 x1 s) := by
  intro x0 x1 s h
  unfold deviceReset
  try dsimp only
  repeat' first
    | with_reducible exact h | (intro) | with_reducible apply circuitsDark_keeps
    | with_reducible apply domainsReset_keeps | with_reducible apply endAllWork_keeps
    | with_reducible apply endPending_keeps | with_reducible apply hearthStart_keeps
    | with_reducible apply noteStatus_keeps | with_reducible apply setResetCause_keeps

theorem oneRef_keeps {s0 : State} : ∀ s, Keeps s0 s → Keeps s0 (oneRef s) := by
  intro s h
  unfold oneRef
  try dsimp only
  repeat' first
    | with_reducible exact h | (intro) | with_reducible apply State.modTime_keeps | with_reducible apply report_keeps
    | with_reducible apply Keeps.ite

theorem releaseHalf_keeps {s0 : State} : ∀ x0 x1 s, Keeps s0 s → Keeps s0 (releaseHalf x0 x1 s) := by
  intro x0 x1 s h
  unfold releaseHalf
  try dsimp only
  repeat' first
    | with_reducible exact h | (intro) | with_reducible apply powerUpOptics_keeps
    | with_reducible apply setHalfPower_keeps | with_reducible apply setReady_keeps | with_reducible apply Keeps.ite

theorem releaseDevice_keeps {s0 : State} : ∀ x0 s, Keeps s0 s → Keeps s0 (releaseDevice x0 s) := by
  intro x0 s h
  unfold releaseDevice
  try dsimp only
  repeat' first
    | with_reducible exact h | (intro) | with_reducible apply State.modHearth_keeps
    | with_reducible apply State.modPower_keeps | with_reducible apply noteStatus_keeps
    | with_reducible apply oneRef_keeps | with_reducible apply releaseHalf_keeps | with_reducible apply Keeps.ite
    | with_reducible apply Keeps.foldl | split | dsimp only | exact rfl | exact ⟨rfl, rfl⟩

theorem resetRelease_keeps {s0 : State} : ∀ x0 s, Keeps s0 s → Keeps s0 (resetRelease x0 s) := by
  intro x0 s h
  unfold resetRelease
  try dsimp only
  repeat' first
    | with_reducible exact h | (intro) | with_reducible apply releaseDevice_keeps | with_reducible apply Keeps.ite

theorem resetAsked_keeps {s0 : State} : ∀ x0 x1 x2 s, Keeps s0 s → Keeps s0 (resetAsked x0 x1 x2 s) := by
  intro x0 x1 x2 s h
  unfold resetAsked
  try dsimp only
  repeat' first
    | with_reducible exact h | (intro) | with_reducible apply State.modHearth_keeps
    | with_reducible apply State.modPower_keeps | with_reducible apply Keeps.ite | with_reducible apply Keeps.foldl
    | split | dsimp only | exact rfl | exact ⟨rfl, rfl⟩

theorem cmdDeviceReset_keeps {s0 : State} : ∀ x0 s, Keeps s0 s → Keeps s0 (cmdDeviceReset x0 s).1 := by
  intro x0 s h
  unfold cmdDeviceReset
  try dsimp only
  repeat' first
    | with_reducible exact h | (intro) | with_reducible apply abortPlain_keeps | with_reducible apply flueNotice_keeps
    | with_reducible apply resetAsked_keeps | with_reducible apply settleFences_keeps
    | with_reducible apply Keeps.ite_fst | with_reducible apply Keeps.ite | with_reducible apply Keeps.foldl | split
    | dsimp only | exact rfl | exact ⟨rfl, rfl⟩ | exact ⟨rfl, rfl, rfl, rfl, rfl, rfl⟩ | assumption

theorem cmdHalfReset_keeps {s0 : State} : ∀ x0 x1 s, Keeps s0 s → Keeps s0 (cmdHalfReset x0 x1 s).1 := by
  intro x0 x1 s h
  unfold cmdHalfReset
  try dsimp only
  repeat' first
    | with_reducible exact h | (intro) | with_reducible apply abortPlain_keeps | with_reducible apply cmdRefuse_keeps
    | with_reducible apply resetAsked_keeps | with_reducible apply settleFences_keeps
    | with_reducible apply Keeps.ite_fst | with_reducible apply Keeps.ite | with_reducible apply Keeps.foldl
    | refine Keeps.fst (by assumption) ?_ | split | dsimp only | exact rfl | exact ⟨rfl, rfl⟩
    | exact ⟨rfl, rfl, rfl, rfl, rfl, rfl⟩ | assumption

theorem resetBegin_keeps {s0 : State} : ∀ s, Keeps s0 s → Keeps s0 (resetBegin s) := by
  intro s h
  unfold resetBegin
  try dsimp only
  repeat' first
    | with_reducible exact h | (intro) | with_reducible apply State.modPower_keeps
    | with_reducible apply deviceReset_keeps | with_reducible apply endPending_keeps
    | with_reducible apply halfReset_keeps | with_reducible apply Keeps.ite | with_reducible apply Keeps.foldl | split

theorem cmdBarnReset_keeps {s0 : State} : ∀ x0 s, Keeps s0 s → Keeps s0 (cmdBarnReset x0 s).1 := by
  intro x0 s h
  unfold cmdBarnReset
  try dsimp only
  repeat' first
    | with_reducible exact h | (intro) | with_reducible apply barnsReset_keeps | with_reducible apply cmdOk_keeps
    | with_reducible apply cmdRefuse_keeps | with_reducible apply Keeps.ite_fst

theorem barnReady_keeps {s0 : State} : ∀ x0 s, Keeps s0 s → Keeps s0 (barnReady x0 s) := by
  intro x0 s h
  unfold barnReady
  try dsimp only
  repeat' first
    | with_reducible exact h | (intro) | with_reducible apply lanesTrain_keeps | with_reducible apply modBarn_keeps
    | with_reducible apply Keeps.ite

theorem execDeviceReset_keeps : ∀ x0 x1 s, KeepsOut s (execDeviceReset x0 x1 s) := by
  intro x0 x1 s
  unfold execDeviceReset
  refine runMailbox_keeps fun c t h => ?_
  try dsimp only
  repeat' first
    | with_reducible exact h | (intro) | with_reducible apply Keeps.ite_fst
    | with_reducible apply cmdDeviceReset_keeps | with_reducible apply Keeps.ite

theorem execHalfReset_keeps : ∀ x0 x1 s, KeepsOut s (execHalfReset x0 x1 s) := by
  intro x0 x1 s
  unfold execHalfReset
  refine runMailbox_keeps fun c t h => ?_
  try dsimp only
  repeat' first
    | with_reducible exact h | (intro) | with_reducible apply Keeps.ite_fst | with_reducible apply cmdHalfReset_keeps
    | with_reducible apply Keeps.ite

theorem execBarnReset_keeps : ∀ x0 x1 s, KeepsOut s (execBarnReset x0 x1 s) := by
  intro x0 x1 s
  unfold execBarnReset
  refine runMailbox_keeps fun c t h => ?_
  try dsimp only
  repeat' first
    | with_reducible exact h | (intro) | with_reducible apply Keeps.ite_fst | with_reducible apply cmdBarnReset_keeps
    | with_reducible apply Keeps.ite

theorem execResetBegin_keeps : ∀ s, KeepsOut s (execResetBegin s) := by
  intro s
  unfold execResetBegin
  have h := Keeps.refl s
  try dsimp only
  repeat' first
    | with_reducible apply KeepsOut.next | with_reducible apply KeepsOut.ite | with_reducible exact KeepsOut.refused
    | with_reducible exact h | (intro) | with_reducible apply resetBegin_keeps | with_reducible apply Keeps.ite

theorem execHalfReady_keeps : ∀ x0 s, KeepsOut s (execHalfReady x0 s) := by
  intro x0 s
  unfold execHalfReady
  have h := Keeps.refl s
  try dsimp only
  repeat' first
    | with_reducible apply KeepsOut.next | with_reducible apply KeepsOut.ite | with_reducible exact KeepsOut.refused
    | with_reducible exact h | (intro) | with_reducible apply halfUp_keeps | with_reducible apply Keeps.ite

theorem execBarnReady_keeps : ∀ x0 s, KeepsOut s (execBarnReady x0 s) := by
  intro x0 s
  unfold execBarnReady
  have h := Keeps.refl s
  try dsimp only
  repeat' first
    | with_reducible apply KeepsOut.next | with_reducible apply KeepsOut.ite | with_reducible exact KeepsOut.refused
    | with_reducible exact h | (intro) | with_reducible apply barnReady_keeps | with_reducible apply Keeps.ite

theorem execDeviceResetRelease_keeps : ∀ x0 s, KeepsOut s (execDeviceResetRelease x0 s) := by
  intro x0 s
  unfold execDeviceResetRelease
  have h := Keeps.refl s
  try dsimp only
  repeat' first
    | with_reducible apply KeepsOut.next | with_reducible apply KeepsOut.ite | with_reducible exact KeepsOut.refused
    | with_reducible exact h | (intro) | with_reducible apply resetRelease_keeps | with_reducible apply Keeps.ite

end Sys2Proof.Machine
end

