-- ==== Sys2Proof/Laws/KeepsFirmware.lean ====
section
/-! SUPPORT. What the operations of Machine/Firmware.lean keep. -/

namespace Sys2Proof.Machine

theorem setSlot_keeps {s0 : State} : ∀ x0 x1 s, Keeps s0 s → Keeps s0 (setSlot x0 x1 s) := by
  intro x0 x1 s h
  unfold setSlot
  try dsimp only
  repeat' first
    | with_reducible exact h | (intro) | with_reducible apply State.modHearth_keeps | with_reducible apply Keeps.ite
    | with_reducible apply Keeps.foldl | split | dsimp only | exact rfl | exact ⟨rfl, rfl⟩

theorem markSlot_keeps {s0 : State} : ∀ x0 x1 s, Keeps s0 s → Keeps s0 (markSlot x0 x1 s) := by
  intro x0 x1 s h
  unfold markSlot
  try dsimp only
  repeat' first
    | with_reducible exact h | (intro) | with_reducible apply setSlot_keeps | with_reducible apply Keeps.ite

theorem loseSlot_keeps {s0 : State} : ∀ x0 s, Keeps s0 s → Keeps s0 (loseSlot x0 s) := by
  intro x0 s h
  unfold loseSlot
  try dsimp only
  repeat' first
    | with_reducible exact h | (intro) | with_reducible apply setSlot_keeps

theorem startSlot_keeps {s0 : State} : ∀ x0 s, Keeps s0 s → Keeps s0 (startSlot x0 s) := by
  intro x0 s h
  unfold startSlot
  try dsimp only
  repeat' first
    | with_reducible exact h | (intro) | with_reducible apply State.modHearth_keeps | with_reducible apply Keeps.ite
    | with_reducible apply Keeps.foldl | split | dsimp only | exact rfl | exact ⟨rfl, rfl⟩

theorem bootFails_keeps {s0 : State} : ∀ x0 s, Keeps s0 s → Keeps s0 (bootFails x0 s) := by
  intro x0 s h
  unfold bootFails
  try dsimp only
  repeat' first
    | with_reducible exact h | (intro) | with_reducible apply State.modHearth_keeps | with_reducible apply Keeps.ite
    | with_reducible apply Keeps.foldl | split | dsimp only | exact rfl | exact ⟨rfl, rfl⟩

theorem boot_keeps {s0 : State} : ∀ s, Keeps s0 s → Keeps s0 (boot s) := by
  intro s h
  unfold boot
  try dsimp only
  repeat' first
    | with_reducible exact h | (intro) | with_reducible apply State.modHearth_keeps
    | with_reducible apply State.modPower_keeps | with_reducible apply bootFails_keeps
    | with_reducible apply markSlot_keeps | with_reducible apply report_keeps | with_reducible apply startSlot_keeps
    | with_reducible apply Keeps.ite | with_reducible apply Keeps.foldl | split | dsimp only | exact rfl
    | exact ⟨rfl, rfl⟩

theorem fwLoad_keeps {s0 : State} : ∀ x0 x1 s, Keeps s0 s → Keeps s0 (fwLoad x0 x1 s).1 := by
  intro x0 x1 s h
  unfold fwLoad
  try dsimp only
  repeat' first
    | with_reducible exact h | (intro) | with_reducible apply addDetached_keeps | with_reducible apply cmdRefuse_keeps
    | with_reducible apply Keeps.ite_fst

theorem loadEnds_keeps {s0 : State} : ∀ x0 x1 s, Keeps s0 s → Keeps s0 (loadEnds x0 x1 s) := by
  intro x0 x1 s h
  unfold loadEnds
  try dsimp only
  repeat' first
    | with_reducible exact h | (intro) | with_reducible apply endWith_keeps | with_reducible apply setSlot_keeps
    | with_reducible apply Keeps.ite | with_reducible apply Keeps.foldl | split

theorem fwLoadDone_keeps {s0 : State} : ∀ s, Keeps s0 s → Keeps s0 (fwLoadDone s) := by
  intro s h
  unfold fwLoadDone
  try dsimp only
  repeat' first
    | with_reducible exact h | (intro) | with_reducible apply loadEnds_keeps | with_reducible apply Keeps.ite
    | with_reducible apply Keeps.foldl | split

theorem closeViews_keeps {s0 : State} : ∀ s, Keeps s0 s → Keeps s0 (closeViews s) := by
  intro s h
  unfold closeViews
  try dsimp only
  repeat' first
    | with_reducible exact h | (intro) | with_reducible apply State.modSec_keeps | with_reducible apply Keeps.ite
    | with_reducible apply Keeps.foldl | split | dsimp only | exact rfl | exact ⟨rfl, rfl⟩
    | exact ⟨rfl, rfl, rfl, rfl, rfl, rfl⟩

theorem setSwitching_keeps {s0 : State} : ∀ x0 s, Keeps s0 s → Keeps s0 (setSwitching x0 s) := by
  intro x0 s h
  unfold setSwitching
  try dsimp only
  repeat' first
    | with_reducible exact h | (intro) | with_reducible apply State.modHearth_keeps
    | with_reducible apply noteStatus_keeps | with_reducible apply Keeps.ite | with_reducible apply Keeps.foldl
    | split | dsimp only | exact rfl | exact ⟨rfl, rfl⟩

theorem fwActivate_keeps {s0 : State} : ∀ x0 s, Keeps s0 s → Keeps s0 (fwActivate x0 s).1 := by
  intro x0 s h
  unfold fwActivate
  try dsimp only
  repeat' first
    | with_reducible exact h | (intro) | with_reducible apply State.modHearth_keeps
    | with_reducible apply closeViews_keeps | with_reducible apply cmdOkWith_keeps
    | with_reducible apply cmdRefuse_keeps | with_reducible apply hearthStart_keeps
    | with_reducible apply noteStatus_keeps | with_reducible apply report_keeps
    | with_reducible apply setSwitching_keeps | with_reducible apply startSlot_keeps
    | with_reducible apply Keeps.ite_fst | with_reducible apply Keeps.ite | with_reducible apply Keeps.foldl
    | refine Keeps.fst (by assumption) ?_ | split | dsimp only | exact rfl | exact ⟨rfl, rfl⟩

theorem fwCommit_keeps {s0 : State} : ∀ s, Keeps s0 s → Keeps s0 (fwCommit s).1 := by
  intro s h
  unfold fwCommit
  split
  · exact cmdRefuse_keeps _ _ _ h
  · apply cmdOk_keeps
    apply noteStatus_keeps
    exact Keeps.fuse (State.modHearth_keeps h fun _ => ⟨rfl, rfl⟩)

theorem fwStatusRead_keeps {s0 : State} : ∀ s, Keeps s0 s → Keeps s0 (fwStatusRead s).1 := by
  intro s h
  unfold fwStatusRead
  try dsimp only
  repeat' first
    | with_reducible exact h | (intro) | with_reducible apply cmdOkWith_keeps

theorem rcvStart_keeps {s0 : State} : ∀ x0 s, Keeps s0 s → Keeps s0 (rcvStart x0 s) := by
  intro x0 s h
  unfold rcvStart
  try dsimp only
  repeat' first
    | with_reducible exact h | (intro) | with_reducible apply State.modPower_keeps | with_reducible apply Keeps.ite

theorem rcvDone_keeps {s0 : State} : ∀ s, Keeps s0 s → Keeps s0 (rcvDone s) := by
  intro s h
  unfold rcvDone
  try dsimp only
  repeat' first
    | with_reducible exact h | (intro) | with_reducible apply State.modHearth_keeps
    | with_reducible apply State.modPower_keeps | with_reducible apply noteStatus_keeps
    | with_reducible apply setSlot_keeps | with_reducible apply Keeps.ite | with_reducible apply Keeps.foldl | split
    | dsimp only | exact rfl | exact ⟨rfl, rfl⟩

theorem execFwLoad_keeps : ∀ x0 x1 s, KeepsOut s (execFwLoad x0 x1 s) := by
  intro x0 x1 s
  unfold execFwLoad
  refine runMailbox_keeps fun c t h => ?_
  try dsimp only
  repeat' first
    | with_reducible exact h | (intro) | with_reducible apply Keeps.ite_fst | with_reducible apply fwLoad_keeps
    | with_reducible apply Keeps.ite

theorem execFwActivate_keeps : ∀ x0 x1 x2 s, KeepsOut s (execFwActivate x0 x1 x2 s) := by
  intro x0 x1 x2 s
  unfold execFwActivate
  refine runMailbox_keeps fun c t h => ?_
  try dsimp only
  repeat' first
    | with_reducible exact h | (intro) | with_reducible apply Keeps.ite_fst | with_reducible apply fwActivate_keeps
    | with_reducible apply Keeps.ite

theorem execFwCommit_keeps : ∀ x0 x1 s, KeepsOut s (execFwCommit x0 x1 s) := by
  intro x0 x1 s
  unfold execFwCommit
  refine runMailbox_keeps fun c t h => ?_
  try dsimp only
  repeat' first
    | with_reducible exact h | (intro) | with_reducible apply Keeps.ite_fst | with_reducible apply fwCommit_keeps
    | with_reducible apply Keeps.ite

theorem execFwStatusRead_keeps : ∀ x0 x1 s, KeepsOut s (execFwStatusRead x0 x1 s) := by
  intro x0 x1 s
  unfold execFwStatusRead
  refine runMailbox_keeps fun c t h => ?_
  try dsimp only
  repeat' first
    | with_reducible exact h | (intro) | with_reducible apply Keeps.ite_fst | with_reducible apply fwStatusRead_keeps
    | with_reducible apply Keeps.ite

theorem execFwLoadDone_keeps : ∀ s, KeepsOut s (execFwLoadDone s) := by
  intro s
  unfold execFwLoadDone
  have h := Keeps.refl s
  try dsimp only
  repeat' first
    | with_reducible apply KeepsOut.next | with_reducible apply KeepsOut.ite | with_reducible exact KeepsOut.refused
    | with_reducible exact h | (intro) | with_reducible apply fwLoadDone_keeps | with_reducible apply Keeps.ite

theorem execRcvStart_keeps : ∀ x0 s, KeepsOut s (execRcvStart x0 s) := by
  intro x0 s
  unfold execRcvStart
  have h := Keeps.refl s
  try dsimp only
  repeat' first
    | with_reducible apply KeepsOut.next | with_reducible apply KeepsOut.ite | with_reducible exact KeepsOut.refused
    | with_reducible exact h | (intro) | with_reducible apply rcvStart_keeps | with_reducible apply Keeps.ite

theorem execRcvVerifyDone_keeps : ∀ s, KeepsOut s (execRcvVerifyDone s) := by
  intro s
  unfold execRcvVerifyDone
  have h := Keeps.refl s
  try dsimp only
  repeat' first
    | with_reducible apply KeepsOut.next | with_reducible apply KeepsOut.ite | with_reducible exact KeepsOut.refused
    | with_reducible exact h | (intro) | with_reducible apply rcvDone_keeps | with_reducible apply Keeps.ite

end Sys2Proof.Machine
end

