-- ==== Sys2Proof/Laws/KeepsHearth.lean ====
section
/-! SUPPORT. What the operations of Machine/Hearth.lean keep. -/

namespace Sys2Proof.Machine

theorem muteRings_keeps {s0 : State} : ∀ x0 s, Keeps s0 s → Keeps s0 (muteRings x0 s) := by
  intro x0 s h
  unfold muteRings
  try dsimp only
  repeat' first
    | with_reducible exact h | (intro) | with_reducible apply State.modHearth_keeps | with_reducible apply Keeps.ite
    | with_reducible apply Keeps.foldl | split | dsimp only | exact rfl | exact ⟨rfl, rfl⟩

theorem ringOn_keeps {s0 : State} : ∀ x0 s, Keeps s0 s → Keeps s0 (ringOn x0 s) := by
  intro x0 s h
  unfold ringOn
  try dsimp only
  repeat' first
    | with_reducible exact h | (intro) | with_reducible apply modRing_keeps | with_reducible apply Keeps.ite

theorem ringOff_keeps {s0 : State} : ∀ x0 s, Keeps s0 s → Keeps s0 (ringOff x0 s) := by
  intro x0 s h
  unfold ringOff
  try dsimp only
  repeat' first
    | with_reducible exact h | (intro) | with_reducible apply modRing_keeps | with_reducible apply muteRings_keeps

theorem ringCtrl_keeps {s0 : State} : ∀ x0 x1 s, Keeps s0 s → Keeps s0 (ringCtrl x0 x1 s) := by
  intro x0 x1 s h
  unfold ringCtrl
  try dsimp only
  repeat' first
    | with_reducible exact h | (intro) | with_reducible apply modRing_keeps | with_reducible apply ringOff_keeps
    | with_reducible apply ringOn_keeps | with_reducible apply Keeps.ite

theorem doorbell_keeps {s0 : State} : ∀ x0 x1 s, Keeps s0 s → Keeps s0 (doorbell x0 x1 s) := by
  intro x0 x1 s h
  unfold doorbell
  try dsimp only
  repeat' first
    | with_reducible exact h | (intro) | with_reducible apply bump_keeps | with_reducible apply modRing_keeps
    | with_reducible apply raiseInt_keeps | with_reducible apply Keeps.ite

theorem cplHead_keeps {s0 : State} : ∀ x0 x1 s, Keeps s0 s → Keeps s0 (cplHead x0 x1 s) := by
  intro x0 x1 s h
  unfold cplHead
  try dsimp only
  repeat' first
    | with_reducible exact h | (intro) | with_reducible apply modRing_keeps

theorem ringWrite_keeps {s0 : State} : ∀ x0 x1 x2 s, Keeps s0 s → Keeps s0 (ringWrite x0 x1 x2 s) := by
  intro x0 x1 x2 s h
  unfold ringWrite
  try dsimp only
  repeat' first
    | with_reducible exact h | (intro) | with_reducible apply cplHead_keeps | with_reducible apply doorbell_keeps
    | with_reducible apply modRing_keeps | with_reducible apply ringCtrl_keeps | with_reducible apply Keeps.ite
    | with_reducible apply Keeps.foldl | split

theorem modEv_keeps {s0 : State} : ∀ x0 s, Keeps s0 s → Keeps s0 (modEv x0 s) := by
  intro x0 s h
  unfold modEv
  try dsimp only
  repeat' first
    | with_reducible exact h | (intro) | with_reducible apply State.modHearth_keeps | with_reducible apply Keeps.ite
    | with_reducible apply Keeps.foldl | split | dsimp only | exact rfl | exact ⟨rfl, rfl⟩

theorem evCtrl_keeps {s0 : State} : ∀ x0 s, Keeps s0 s → Keeps s0 (evCtrl x0 s) := by
  intro x0 s h
  unfold evCtrl
  try dsimp only
  repeat' first
    | with_reducible exact h | (intro) | with_reducible apply modEv_keeps

theorem evHead_keeps {s0 : State} : ∀ x0 s, Keeps s0 s → Keeps s0 (evHead x0 s) := by
  intro x0 s h
  unfold evHead
  try dsimp only
  repeat' first
    | with_reducible exact h | (intro) | with_reducible apply modEv_keeps

theorem evLostCleared_keeps {s0 : State} : ∀ s, Keeps s0 s → Keeps s0 (evLostCleared s) := by
  intro s h
  unfold evLostCleared
  try dsimp only
  repeat' first
    | with_reducible exact h | (intro) | with_reducible apply modEv_keeps

theorem evLostRead_keeps {s0 : State} : ∀ s, Keeps s0 s → Keeps s0 (evLostRead s) := by
  intro s h
  unfold evLostRead
  try dsimp only
  repeat' first
    | with_reducible exact h | (intro) | with_reducible apply emit_keeps | with_reducible apply evLostCleared_keeps

theorem evWrite_keeps {s0 : State} : ∀ x0 x1 s, Keeps s0 s → Keeps s0 (evWrite x0 x1 s) := by
  intro x0 x1 s h
  unfold evWrite
  try dsimp only
  repeat' first
    | with_reducible exact h | (intro) | with_reducible apply evCtrl_keeps | with_reducible apply evHead_keeps
    | with_reducible apply modEv_keeps | with_reducible apply Keeps.ite | with_reducible apply Keeps.foldl | split

theorem putEvent_keeps {s0 : State} : ∀ x0 s, Keeps s0 s → Keeps s0 (putEvent x0 s) := by
  intro x0 s h
  unfold putEvent
  try dsimp only
  repeat' first
    | with_reducible exact h | (intro) | with_reducible apply hostWrite_keeps | with_reducible apply modEv_keeps
    | with_reducible apply raiseInt_keeps

theorem putQueued_keeps {s0 : State} : ∀ x0 s, Keeps s0 s → Keeps s0 (putQueued x0 s) := by
  intro x0 s h
  unfold putQueued
  try dsimp only
  repeat' first
    | with_reducible exact h | (intro) | with_reducible apply bump_keeps | with_reducible apply hostWrite_keeps
    | with_reducible apply modEv_keeps | with_reducible apply putEvent_keeps | with_reducible apply Keeps.ite
    | with_reducible apply Keeps.foldl | split

theorem putCapture_keeps {s0 : State} : ∀ x0 s, Keeps s0 s → Keeps s0 (putCapture x0 s) := by
  intro x0 s h
  unfold putCapture
  try dsimp only
  repeat' first
    | with_reducible exact h | (intro) | with_reducible apply State.modTime_keeps
    | with_reducible apply putEvent_keeps | with_reducible apply Keeps.ite | with_reducible apply Keeps.foldl | split

theorem putOldest_keeps {s0 : State} : ∀ s, Keeps s0 s → Keeps s0 (putOldest s) := by
  intro s h
  unfold putOldest
  try dsimp only
  repeat' first
    | with_reducible exact h | (intro) | with_reducible apply modEv_keeps | with_reducible apply putQueued_keeps
    | with_reducible apply Keeps.ite | with_reducible apply Keeps.foldl | split

theorem eventWrite_keeps {s0 : State} : ∀ s, Keeps s0 s → Keeps s0 (eventWrite s) := by
  intro s h
  unfold eventWrite
  try dsimp only
  repeat' first
    | with_reducible exact h | (intro) | with_reducible apply State.tookFree_keeps
    | with_reducible apply putCapture_keeps | with_reducible apply putOldest_keeps | with_reducible apply Keeps.ite
    | with_reducible apply Keeps.foldl | split

theorem loadCleared_keeps {s0 : State} : ∀ s, Keeps s0 s → Keeps s0 (loadCleared s) := by
  intro s h
  unfold loadCleared
  try dsimp only
  repeat' first
    | with_reducible exact h | (intro) | with_reducible apply State.modHearth_keeps
    | with_reducible apply State.tookFree_keeps | with_reducible apply Keeps.ite | with_reducible apply Keeps.foldl
    | split | dsimp only | exact rfl | exact ⟨rfl, rfl⟩

theorem loadRead_keeps {s0 : State} : ∀ s, Keeps s0 s → Keeps s0 (loadRead s) := by
  intro s h
  unfold loadRead
  try dsimp only
  repeat' first
    | with_reducible exact h | (intro) | with_reducible apply emit_keeps | with_reducible apply loadCleared_keeps

theorem ifRequest_keeps {s0 : State} : ∀ x0 s, Keeps s0 s → Keeps s0 (ifRequest x0 s) := by
  intro x0 s h
  unfold ifRequest
  try dsimp only
  repeat' first
    | with_reducible exact h | (intro) | with_reducible apply State.modHearth_keeps | with_reducible apply Keeps.ite
    | with_reducible apply Keeps.foldl | split | dsimp only | exact rfl | exact ⟨rfl, rfl⟩

theorem latchTime_keeps {s0 : State} : ∀ x0 s, Keeps s0 s → Keeps s0 (latchTime x0 s) := by
  intro x0 s h
  unfold latchTime
  try dsimp only
  repeat' first
    | with_reducible exact h | (intro) | with_reducible apply State.modHearth_keeps
    | with_reducible apply State.tookFree_keeps | with_reducible apply Keeps.ite | with_reducible apply Keeps.foldl
    | split | dsimp only | exact rfl | exact ⟨rfl, rfl⟩

theorem msixWrite_keeps {s0 : State} : ∀ x0 x1 s, Keeps s0 s → Keeps s0 (msixWrite x0 x1 s) := by
  intro x0 x1 s h
  unfold msixWrite
  try dsimp only
  repeat' first
    | with_reducible exact h | (intro) | with_reducible apply State.modHearth_keeps
    | with_reducible apply sendMsix_keeps | with_reducible apply Keeps.ite | with_reducible apply Keeps.foldl | split
    | dsimp only | exact rfl | exact ⟨rfl, rfl⟩

theorem barWrite_keeps {s0 : State} : ∀ x0 x1 s, Keeps s0 s → Keeps s0 (barWrite x0 x1 s) := by
  intro x0 x1 s h
  unfold barWrite
  try dsimp only
  repeat' first
    | with_reducible exact h | (intro) | with_reducible apply State.modHearth_keeps
    | with_reducible apply evWrite_keeps | with_reducible apply ifRequest_keeps | with_reducible apply latchTime_keeps
    | with_reducible apply msixWrite_keeps | with_reducible apply ringWrite_keeps | with_reducible apply Keeps.ite
    | with_reducible apply Keeps.foldl | split | dsimp only | exact rfl | exact ⟨rfl, rfl⟩

theorem barSeen_keeps {s0 : State} : ∀ x0 s, Keeps s0 s → Keeps s0 (barSeen x0 s) := by
  intro x0 s h
  unfold barSeen
  try dsimp only
  repeat' first
    | with_reducible exact h | (intro) | with_reducible apply evLostCleared_keeps
    | with_reducible apply loadCleared_keeps | with_reducible apply Keeps.ite

theorem auxByte_keeps {s0 : State} : ∀ x0 x1 s, Keeps s0 s → Keeps s0 (auxByte x0 x1 s) := by
  intro x0 x1 s h
  unfold auxByte
  try dsimp only
  repeat' first
    | with_reducible exact h | (intro) | with_reducible apply State.modPower_keeps
    | with_reducible apply localWrite_keeps | with_reducible apply rcvStart_keeps | with_reducible apply Keeps.ite

theorem auxWrite_keeps {s0 : State} : ∀ a w l s, Keeps s0 s → Keeps s0 (auxWrite a w l s) := by
  intro a w l
  induction l generalizing a w with
  | nil => exact fun _ h => h
  | cons b r ih =>
    intro s h
    unfold auxWrite
    split
    · dsimp only
      exact Keeps.ite (ih _ _ _ (barWrite_keeps _ _ _ h)) (ih _ _ _ h)
    · exact ih _ _ _ (auxByte_keeps _ _ _ h)

theorem auxRead_keeps {s0 : State} : ∀ a n w g s, Keeps s0 s → Keeps s0 (auxRead a n w g s) := by
  intro a n
  induction n generalizing a with
  | zero => exact fun _ _ _ h => emit_keeps h
  | succ n ih =>
    intro w g s h
    unfold auxRead
    split
    · split
      · exact ih _ _ _ _ h
      · exact ih _ _ _ _ (barSeen_keeps _ _ h)
    · exact ih _ _ _ _ h

theorem registerAccess_keeps {s0 : State} : ∀ x0 x1 s, Keeps s0 s → Keeps s0 (registerAccess x0 x1 s) := by
  intro x0 x1 s h
  unfold registerAccess
  try dsimp only
  repeat' first
    | with_reducible exact h | (intro) | with_reducible apply auxRead_keeps | with_reducible apply auxWrite_keeps
    | with_reducible apply barSeen_keeps | with_reducible apply barWrite_keeps | with_reducible apply emit_keeps
    | with_reducible apply Keeps.ite | with_reducible apply Keeps.foldl | split

theorem dropEvents_keeps {s0 : State} : ∀ x0 s, Keeps s0 s → Keeps s0 (dropEvents x0 s) := by
  intro x0 s h
  unfold dropEvents
  try dsimp only
  repeat' first
    | with_reducible exact h | (intro) | with_reducible apply bumpBy_keeps | with_reducible apply modEv_keeps
    | with_reducible apply Keeps.ite

theorem pcieReset_keeps {s0 : State} : ∀ s, Keeps s0 s → Keeps s0 (pcieReset s) := by
  intro s h
  unfold pcieReset
  try dsimp only
  repeat' first
    | with_reducible exact h | (intro) | with_reducible apply State.modHearth_keeps
    | with_reducible apply dropEvents_keeps | with_reducible apply modEv_keeps | with_reducible apply modRing_keeps
    | with_reducible apply muteRings_keeps | with_reducible apply Keeps.ite | with_reducible apply Keeps.foldl | split
    | dsimp only | exact rfl | exact ⟨rfl, rfl⟩ | exact ⟨rfl, rfl, rfl, rfl, rfl, rfl⟩ | assumption

theorem hearthReset_keeps {s0 : State} : ∀ x0 s, Keeps s0 s → Keeps s0 (hearthReset x0 s) := by
  intro x0 s h
  unfold hearthReset
  dsimp only
  apply noteStatus_keeps
  apply setResetCause_keeps
  refine Keeps.hearth (fun _ i => i) (fun _ _ => rfl) ?_
  refine State.modSec_keeps ?_ (fun _ => ⟨rfl, rfl, rfl, rfl, rfl, rfl⟩)
  apply State.modTime_keeps
  apply dropEvents_keeps
  exact closeViews_keeps s h

theorem sramHalts_keeps {s0 : State} : ∀ x0 s, Keeps s0 s → Keeps s0 (sramHalts x0 s) := by
  intro x0 s h
  unfold sramHalts
  try dsimp only
  repeat' first
    | with_reducible exact h | (intro) | with_reducible apply bump_keeps | with_reducible apply report_keeps

theorem watchdogReport_keeps {s0 : State} : ∀ x0 s, Keeps s0 s → Keeps s0 (watchdogReport x0 s) := by
  intro x0 s h
  unfold watchdogReport
  try dsimp only
  repeat' first
    | with_reducible exact h | (intro) | with_reducible apply State.tookFree_keeps | with_reducible apply report_keeps

theorem watchdog_keeps {s0 : State} : ∀ x0 x1 s, Keeps s0 s → Keeps s0 (watchdog x0 x1 s) := by
  intro x0 x1 s h
  unfold watchdog
  try dsimp only
  repeat' first
    | with_reducible exact h | (intro) | with_reducible apply hearthReset_keeps | with_reducible apply sramHalts_keeps
    | with_reducible apply watchdogReport_keeps | with_reducible apply Keeps.ite

theorem answerOwed_keeps {s0 : State} : ∀ s, Keeps s0 s → Keeps s0 (answerOwed s) := by
  intro s h
  unfold answerOwed
  try dsimp only
  repeat' first
    | with_reducible exact h | (intro) | with_reducible apply State.modHearth_keeps
    | with_reducible apply writeCompletion_keeps | with_reducible apply Keeps.ite | with_reducible apply Keeps.foldl
    | split | dsimp only | exact rfl | exact ⟨rfl, rfl⟩ | exact ⟨rfl, rfl, rfl, rfl, rfl, rfl⟩ | assumption

theorem hearthReturn_keeps {s0 : State} : ∀ s, Keeps s0 s → Keeps s0 (hearthReturn s) := by
  intro s h
  unfold hearthReturn
  try dsimp only
  repeat' first
    | with_reducible exact h | (intro) | with_reducible apply State.modHearth_keeps
    | with_reducible apply answerOwed_keeps | with_reducible apply boot_keeps | with_reducible apply hearthStart_keeps
    | with_reducible apply noteStatus_keeps | with_reducible apply Keeps.ite | with_reducible apply Keeps.foldl
    | split | dsimp only | exact rfl | exact ⟨rfl, rfl⟩

theorem deviceConfig_keeps {s0 : State} : ∀ x0 s, Keeps s0 s → Keeps s0 (deviceConfig x0 s).1 := by
  intro x0 s h
  unfold deviceConfig
  try dsimp only
  repeat' first
    | with_reducible exact h | (intro) | with_reducible apply State.modHearth_keeps | with_reducible apply cmdOk_keeps
    | with_reducible apply cmdRefuse_keeps | with_reducible apply Keeps.ite_fst | with_reducible apply Keeps.ite
    | with_reducible apply Keeps.foldl | refine Keeps.fst (by assumption) ?_ | split | dsimp only | exact rfl
    | exact ⟨rfl, rfl⟩

theorem endpointIdSet_keeps {s0 : State} : ∀ x0 s, Keeps s0 s → Keeps s0 (endpointIdSet x0 s).1 := by
  intro x0 s h
  unfold endpointIdSet
  try dsimp only
  repeat' first
    | with_reducible exact h | (intro) | with_reducible apply State.modHearth_keeps
    | with_reducible apply cmdOkWith_keeps | with_reducible apply cmdRefuse_keeps | with_reducible apply Keeps.ite_fst
    | with_reducible apply Keeps.ite | with_reducible apply Keeps.foldl | refine Keeps.fst (by assumption) ?_ | split
    | dsimp only | exact rfl | exact ⟨rfl, rfl⟩

theorem foldEnd_keeps {s0 : State} : ∀ x0 s, Keeps s0 s → Keeps s0 (foldEnd x0 s) := by
  intro x0 s h
  unfold foldEnd
  try dsimp only
  repeat' first
    | with_reducible exact h | (intro) | with_reducible apply State.modSec_keeps
    | with_reducible apply sendFault_keeps | with_reducible apply Keeps.ite | with_reducible apply Keeps.foldl | split
    | dsimp only | exact rfl | exact ⟨rfl, rfl⟩ | exact ⟨rfl, rfl, rfl, rfl, rfl, rfl⟩

theorem execMbxNop_keeps : ∀ x0 x1 s, KeepsOut s (execMbxNop x0 x1 s) := by
  intro x0 x1 s
  unfold execMbxNop
  refine runMailbox_keeps fun c t h => ?_
  try dsimp only
  repeat' first
    | with_reducible exact h | (intro) | with_reducible apply Keeps.ite_fst | with_reducible apply cmdOk_keeps
    | with_reducible apply Keeps.ite

theorem execDeviceConfig_keeps : ∀ x0 x1 s, KeepsOut s (execDeviceConfig x0 x1 s) := by
  intro x0 x1 s
  unfold execDeviceConfig
  refine runMailbox_keeps fun c t h => ?_
  try dsimp only
  repeat' first
    | with_reducible exact h | (intro) | with_reducible apply Keeps.ite_fst | with_reducible apply deviceConfig_keeps
    | with_reducible apply Keeps.ite

theorem execEndpointIdSet_keeps : ∀ x0 x1 s, KeepsOut s (execEndpointIdSet x0 x1 s) := by
  intro x0 x1 s
  unfold execEndpointIdSet
  refine runMailbox_keeps fun c t h => ?_
  try dsimp only
  repeat' first
    | with_reducible exact h | (intro) | with_reducible apply Keeps.ite_fst | with_reducible apply endpointIdSet_keeps
    | with_reducible apply Keeps.ite

theorem execHearthReset_keeps : ∀ x0 x1 s, KeepsOut s (execHearthReset x0 x1 s) := by
  intro x0 x1 s
  unfold execHearthReset
  refine runMailbox_keeps fun c t h => ?_
  try dsimp only
  repeat' first
    | with_reducible exact h | (intro) | with_reducible apply Keeps.ite_fst | with_reducible apply hearthReset_keeps
    | with_reducible apply writeCompletion_keeps | with_reducible apply Keeps.ite

theorem execCmdTailWrite_keeps : ∀ x0 x1 s, KeepsOut s (execCmdTailWrite x0 x1 s) := by
  intro x0 x1 s
  unfold execCmdTailWrite
  have h := Keeps.refl s
  try dsimp only
  repeat' first
    | with_reducible apply KeepsOut.next | with_reducible apply KeepsOut.ite | with_reducible exact KeepsOut.refused
    | with_reducible exact h | (intro) | with_reducible apply doorbell_keeps | with_reducible apply Keeps.ite

theorem execCplHeadWrite_keeps : ∀ x0 x1 s, KeepsOut s (execCplHeadWrite x0 x1 s) := by
  intro x0 x1 s
  unfold execCplHeadWrite
  have h := Keeps.refl s
  try dsimp only
  repeat' first
    | with_reducible apply KeepsOut.next | with_reducible apply KeepsOut.ite | with_reducible exact KeepsOut.refused
    | with_reducible exact h | (intro) | with_reducible apply cplHead_keeps | with_reducible apply Keeps.ite

theorem execRingEnable_keeps : ∀ x0 x1 s, KeepsOut s (execRingEnable x0 x1 s) := by
  intro x0 x1 s
  unfold execRingEnable
  have h := Keeps.refl s
  try dsimp only
  repeat' first
    | with_reducible apply KeepsOut.next | with_reducible apply KeepsOut.ite | with_reducible exact KeepsOut.refused
    | with_reducible exact h | (intro) | with_reducible apply ringCtrl_keeps | with_reducible apply Keeps.ite

theorem execRingDisable_keeps : ∀ x0 x1 s, KeepsOut s (execRingDisable x0 x1 s) := by
  intro x0 x1 s
  unfold execRingDisable
  have h := Keeps.refl s
  try dsimp only
  repeat' first
    | with_reducible apply KeepsOut.next | with_reducible apply KeepsOut.ite | with_reducible exact KeepsOut.refused
    | with_reducible exact h | (intro) | with_reducible apply ringCtrl_keeps | with_reducible apply Keeps.ite

theorem execEventRingEnable_keeps : ∀ x0 s, KeepsOut s (execEventRingEnable x0 s) := by
  intro x0 s
  unfold execEventRingEnable
  have h := Keeps.refl s
  try dsimp only
  repeat' first
    | with_reducible apply KeepsOut.next | with_reducible apply KeepsOut.ite | with_reducible exact KeepsOut.refused
    | with_reducible exact h | (intro) | with_reducible apply evCtrl_keeps | with_reducible apply Keeps.ite

theorem execEvHeadWrite_keeps : ∀ x0 s, KeepsOut s (execEvHeadWrite x0 s) := by
  intro x0 s
  unfold execEvHeadWrite
  have h := Keeps.refl s
  try dsimp only
  repeat' first
    | with_reducible apply KeepsOut.next | with_reducible apply KeepsOut.ite | with_reducible exact KeepsOut.refused
    | with_reducible exact h | (intro) | with_reducible apply evHead_keeps | with_reducible apply Keeps.ite

theorem execEvLostRead_keeps : ∀ s, KeepsOut s (execEvLostRead s) := by
  intro s
  unfold execEvLostRead
  have h := Keeps.refl s
  try dsimp only
  repeat' first
    | with_reducible apply KeepsOut.next | with_reducible apply KeepsOut.ite | with_reducible exact KeepsOut.refused
    | with_reducible exact h | (intro) | with_reducible apply evLostRead_keeps | with_reducible apply Keeps.ite

theorem execHearthLoadRead_keeps : ∀ s, KeepsOut s (execHearthLoadRead s) := by
  intro s
  unfold execHearthLoadRead
  have h := Keeps.refl s
  try dsimp only
  repeat' first
    | with_reducible apply KeepsOut.next | with_reducible apply KeepsOut.ite | with_reducible exact KeepsOut.refused
    | with_reducible exact h | (intro) | with_reducible apply loadRead_keeps | with_reducible apply Keeps.ite

theorem execIfRequestWrite_keeps : ∀ x0 s, KeepsOut s (execIfRequestWrite x0 s) := by
  intro x0 s
  unfold execIfRequestWrite
  have h := Keeps.refl s
  try dsimp only
  repeat' first
    | with_reducible apply KeepsOut.next | with_reducible apply KeepsOut.ite | with_reducible exact KeepsOut.refused
    | with_reducible exact h | (intro) | with_reducible apply ifRequest_keeps | with_reducible apply Keeps.ite

theorem execLatch_keeps : ∀ x0 s, KeepsOut s (execLatch x0 s) := by
  intro x0 s
  unfold execLatch
  have h := Keeps.refl s
  try dsimp only
  repeat' first
    | with_reducible apply KeepsOut.next | with_reducible apply KeepsOut.ite | with_reducible exact KeepsOut.refused
    | with_reducible exact h | (intro) | with_reducible apply latchTime_keeps | with_reducible apply Keeps.ite

theorem execRegisterWrite_keeps : ∀ x0 x1 s, KeepsOut s (execRegisterWrite x0 x1 s) := by
  intro x0 x1 s
  unfold execRegisterWrite
  have h := Keeps.refl s
  try dsimp only
  repeat' first
    | with_reducible apply KeepsOut.next | with_reducible apply KeepsOut.ite | with_reducible exact KeepsOut.refused
    | with_reducible exact h | (intro) | with_reducible apply registerAccess_keeps | with_reducible apply Keeps.ite

theorem execPcieReset_keeps : ∀ x0 s, KeepsOut s (execPcieReset x0 s) := by
  intro x0 s
  unfold execPcieReset
  have h := Keeps.refl s
  try dsimp only
  repeat' first
    | with_reducible apply KeepsOut.next | with_reducible apply KeepsOut.ite | with_reducible exact KeepsOut.refused
    | with_reducible exact h | (intro) | with_reducible apply pcieReset_keeps | with_reducible apply Keeps.ite

theorem execEventWrite_keeps : ∀ s, KeepsOut s (execEventWrite s) := by
  intro s
  unfold execEventWrite
  have h := Keeps.refl s
  try dsimp only
  repeat' first
    | with_reducible apply KeepsOut.next | with_reducible apply KeepsOut.ite | with_reducible exact KeepsOut.refused
    | with_reducible exact h | (intro) | with_reducible apply eventWrite_keeps | with_reducible apply Keeps.ite

theorem execFaultReportFoldEnd_keeps : ∀ x0 x1 x2 x3 s, KeepsOut s (execFaultReportFoldEnd x0 x1 x2 x3 s) := by
  intro x0 x1 x2 x3 s
  unfold execFaultReportFoldEnd
  have h := Keeps.refl s
  try dsimp only
  repeat' first
    | with_reducible apply KeepsOut.next | with_reducible apply KeepsOut.ite | with_reducible exact KeepsOut.refused
    | with_reducible exact h | (intro) | with_reducible apply foldEnd_keeps | with_reducible apply Keeps.ite

theorem execHearthWatchdog_keeps : ∀ x0 s, KeepsOut s (execHearthWatchdog x0 s) := by
  intro x0 s
  unfold execHearthWatchdog
  have h := Keeps.refl s
  try dsimp only
  repeat' first
    | with_reducible apply KeepsOut.next | with_reducible apply KeepsOut.ite | with_reducible exact KeepsOut.refused
    | with_reducible exact h | (intro) | with_reducible apply watchdog_keeps | with_reducible apply Keeps.ite

theorem execHearthReturn_keeps : ∀ s, KeepsOut s (execHearthReturn s) := by
  intro s
  unfold execHearthReturn
  have h := Keeps.refl s
  try dsimp only
  repeat' first
    | with_reducible apply KeepsOut.next | with_reducible apply KeepsOut.ite | with_reducible exact KeepsOut.refused
    | with_reducible exact h | (intro) | with_reducible apply hearthReturn_keeps | with_reducible apply Keeps.ite

end Sys2Proof.Machine
end

