-- ==== Sys2Proof/Laws/KeepsSecurity.lean ====
section
/-! SUPPORT. What the operations of Machine/Security.lean keep. -/

namespace Sys2Proof.Machine

theorem authTaken_keeps {s0 : State} : ∀ s, Keeps s0 s → Keeps s0 (authTaken s) := by
  intro s h
  unfold authTaken
  try dsimp only
  repeat' first
    | with_reducible exact h | (intro) | with_reducible apply State.modSec_keeps | with_reducible apply Keeps.ite
    | with_reducible apply Keeps.foldl | split | dsimp only | exact rfl | exact ⟨rfl, rfl⟩
    | exact ⟨rfl, rfl, rfl, rfl, rfl, rfl⟩

theorem authRefuse_keeps {s0 : State} : ∀ x0 s, Keeps s0 s → Keeps s0 (authRefuse x0 s).1 := by
  intro x0 s h
  unfold authRefuse
  try dsimp only
  repeat' first
    | with_reducible exact h | (intro) | with_reducible apply cmdRefuse_keeps

theorem authCheck_type {c : Sec} {t l e : Bool} {a : AuthBlock} (h : authCheck c t l e a = none) : t = true := by
  cases t
  · simp [authCheck] at h
  · rfl

theorem toProvision_keeps {s0 : State} : ∀ s, s.sec.life = 0 → Keeps s0 s → Keeps s0 (toProvision s) := by
  intro s z h
  unfold toProvision
  apply authTaken_keeps
  apply closeViews_keeps
  refine (State.tookFree_keeps h).secTo
    (fun i => ⟨by show 1 ≤ 3; omega, i.owners, i.fused, fun k => absurd k (by show ¬(1 = 3); omega)⟩) id
    ⟨?_, Nat.le_refl _, .inl (List.prefix_refl _), .inl, fun _ => .inl rfl⟩
  show s.sec.life ≤ 1
  omega

theorem lifeAdvance_keeps {s0 : State} : ∀ x0 s, Keeps s0 s → Keeps s0 (lifeAdvance x0 s).1 := by
  intro x0 s h
  unfold lifeAdvance
  dsimp only
  split
  · exact authRefuse_keeps _ _ h
  · rename_i hc
    have ht := authCheck_type hc
    simp only [Bool.and_eq_true, decide_eq_true_eq] at ht
    split
    · rename_i z
      split
      · exact cmdOk_keeps _ (toProvision_keeps _ z h)
      · exact authRefuse_keeps _ _ h
    · split
      · exact authRefuse_keeps _ _ h
      · apply cmdOk_keeps
        apply authTaken_keeps
        apply closeViews_keeps
        refine h.secTo (fun i => ⟨by show 2 ≤ 3; decide, i.owners, i.fused, fun k => absurd k (by show ¬(2 = 3); decide)⟩) id
          ⟨?_, Nat.le_refl _, .inl (List.prefix_refl _), .inl, fun _ => .inl rfl⟩
        show s.sec.life ≤ 2
        omega

theorem enrol_keeps {s0 : State} : ∀ x0 s, Keeps s0 s → Keeps s0 (enrol x0 s).1 := by
  intro x0 s h
  unfold enrol
  split
  · exact authRefuse_keeps _ _ h
  · rename_i hc
    have ht := authCheck_type hc
    simp only [beq_iff_eq] at ht
    split
    · exact authRefuse_keeps _ _ h
    · rename_i n
      apply cmdOk_keeps
      apply authTaken_keeps
      refine h.secTo (fun i => ⟨i.life, ?_, i.fused, fun k => ?_⟩) id
        ⟨Nat.le_refl _, Nat.le_refl _, .inl (List.prefix_append _ _), fun k => .inl ?_, fun k => ?_⟩
      · show (s.sec.owners ++ [sha256 x0.key]).length ≤ 4
        rw [List.length_append]
        simp only [List.length_singleton]
        omega
      · have k2 : s.sec.life = 3 := k
        omega
      · show (s.sec.cosign || x0.param % 2 == 1) = true
        rw [k, Bool.true_or]
      · have k2 : 2 ≤ s.sec.life := k
        omega

theorem lifecycleAdvance_keeps {s0 : State} : ∀ x0 s, Keeps s0 s → Keeps s0 (lifecycleAdvance x0 s).1 := by
  intro x0 s h
  unfold lifecycleAdvance
  try dsimp only
  repeat' first
    | with_reducible exact h | (intro) | with_reducible apply authRefuse_keeps | with_reducible apply enrol_keeps
    | with_reducible apply lifeAdvance_keeps | with_reducible apply Keeps.ite_fst

theorem returnAuthorise_keeps {s0 : State} : ∀ x0 s, Keeps s0 s → Keeps s0 (returnAuthorise x0 s).1 := by
  intro x0 s h
  unfold returnAuthorise
  dsimp only
  split
  · exact authRefuse_keeps _ _ h
  · rename_i hc
    have ht := authCheck_type hc
    simp only [Bool.and_eq_true, beq_iff_eq] at ht
    split
    · exact authRefuse_keeps _ _ h
    · split
      · exact cmdRefuse_keeps _ _ _ h
      · apply cmdOk_keeps
        apply authTaken_keeps
        apply closeViews_keeps
        refine h.secTo (fun i => ⟨Nat.le_refl 3, Nat.zero_le 4, i.fused, fun _ => ⟨rfl, rfl, rfl, rfl⟩⟩) (fun _ => rfl)
          ⟨?_, Nat.le_refl _, .inr (Nat.le_refl 3), fun _ => .inr (Nat.le_refl 3), fun _ => .inr (Nat.le_refl 3)⟩
        show s.sec.life ≤ 3
        omega

theorem debugUnlock_keeps {s0 : State} : ∀ x0 s, Keeps s0 s → Keeps s0 (debugUnlock x0 s).1 := by
  intro x0 s h
  unfold debugUnlock
  try dsimp only
  repeat' first
    | with_reducible exact h | (intro) | with_reducible apply State.modSec_keeps
    | with_reducible apply authRefuse_keeps | with_reducible apply authTaken_keeps | with_reducible apply cmdOk_keeps
    | with_reducible apply Keeps.ite_fst | with_reducible apply Keeps.ite | with_reducible apply Keeps.foldl
    | refine Keeps.fst (by assumption) ?_ | split | dsimp only | exact rfl | exact ⟨rfl, rfl⟩
    | exact ⟨rfl, rfl, rfl, rfl, rfl, rfl⟩

theorem viewsExpire_keeps {s0 : State} : ∀ s, Keeps s0 s → Keeps s0 (viewsExpire s) := by
  intro s h
  unfold viewsExpire
  try dsimp only
  repeat' first
    | with_reducible exact h | (intro) | with_reducible apply closeViews_keeps | with_reducible apply Keeps.ite
    | with_reducible apply Keeps.foldl | split

theorem measureFw_keeps {s0 : State} : ∀ s, Keeps s0 s → Keeps s0 (measureFw s).2 := by
  intro s h
  unfold measureFw
  try dsimp only
  repeat' first
    | with_reducible exact h | (intro) | with_reducible apply freeBytes_keeps | with_reducible apply Keeps.ite_snd

theorem attestReport_keeps {s0 : State} : ∀ x0 s, Keeps s0 s → Keeps s0 (attestReport x0 s).1 := by
  intro x0 s h
  unfold attestReport
  try dsimp only
  repeat' first
    | with_reducible exact h | (intro) | with_reducible apply State.tookFree_keeps
    | with_reducible apply authRefuse_keeps | with_reducible apply cmdOk_keeps | with_reducible apply hostWrite_keeps
    | with_reducible apply measureFw_keeps | with_reducible apply Keeps.ite_fst

theorem tagWrite_keeps {s0 : State} : ∀ x0 s, Keeps s0 s → Keeps s0 (tagWrite x0 s).1 := by
  intro x0 s h
  unfold tagWrite
  split
  · exact cmdRefuse_keeps _ _ _ h
  · split
    · exact authRefuse_keeps _ _ h
    · rename_i n
      apply cmdOk_keeps
      refine h.secTo (fun i => ⟨i.life, i.owners, i.fused, fun k => ?_⟩) (fun i => Memory.wf_memWrite _ _ _ i)
        ⟨Nat.le_refl _, Nat.le_refl _, .inl (List.prefix_refl _), .inl, fun _ => .inl rfl⟩
      exact absurd (Or.inr k) n

theorem tagRead_keeps {s0 : State} : ∀ x0 s, Keeps s0 s → Keeps s0 (tagRead x0 s).1 := by
  intro x0 s h
  unfold tagRead
  try dsimp only
  repeat' first
    | with_reducible exact h | (intro) | with_reducible apply cmdOk_keeps | with_reducible apply cmdRefuse_keeps
    | with_reducible apply hostWrite_keeps | with_reducible apply Keeps.ite_fst | with_reducible apply Keeps.ite
    | with_reducible apply Keeps.foldl | refine Keeps.fst (by assumption) ?_ | split

theorem calUserWrite_keeps {s0 : State} : ∀ x0 s, Keeps s0 s → Keeps s0 (calUserWrite x0 s).1 := by
  intro x0 s h
  unfold calUserWrite
  try dsimp only
  repeat' first
    | with_reducible exact h | (intro) | with_reducible apply calSet_keeps | with_reducible apply cmdOk_keeps
    | with_reducible apply cmdRefuse_keeps | with_reducible apply Keeps.ite_fst

theorem calUserRead_keeps {s0 : State} : ∀ x0 s, Keeps s0 s → Keeps s0 (calUserRead x0 s).1 := by
  intro x0 s h
  unfold calUserRead
  try dsimp only
  repeat' first
    | with_reducible exact h | (intro) | with_reducible apply cmdOk_keeps | with_reducible apply cmdRefuse_keeps
    | with_reducible apply hostWrite_keeps | with_reducible apply Keeps.ite_fst

theorem faultLogRead_keeps {s0 : State} : ∀ x0 s, Keeps s0 s → Keeps s0 (faultLogRead x0 s).1 := by
  intro x0 s h
  unfold faultLogRead
  try dsimp only
  repeat' first
    | with_reducible exact h | (intro) | with_reducible apply cmdOk_keeps | with_reducible apply cmdRefuse_keeps
    | with_reducible apply hostWrite_keeps | with_reducible apply Keeps.ite_fst

theorem execAttestReport_keeps : ∀ x0 x1 s, KeepsOut s (execAttestReport x0 x1 s) := by
  intro x0 x1 s
  unfold execAttestReport
  refine runMailbox_keeps fun c t h => ?_
  try dsimp only
  repeat' first
    | with_reducible exact h | (intro) | with_reducible apply Keeps.ite_fst | with_reducible apply attestReport_keeps
    | with_reducible apply Keeps.ite

theorem execTagWrite_keeps : ∀ x0 x1 s, KeepsOut s (execTagWrite x0 x1 s) := by
  intro x0 x1 s
  unfold execTagWrite
  refine runMailbox_keeps fun c t h => ?_
  try dsimp only
  repeat' first
    | with_reducible exact h | (intro) | with_reducible apply Keeps.ite_fst | with_reducible apply tagWrite_keeps
    | with_reducible apply Keeps.ite

theorem execTagRead_keeps : ∀ x0 x1 s, KeepsOut s (execTagRead x0 x1 s) := by
  intro x0 x1 s
  unfold execTagRead
  refine runMailbox_keeps fun c t h => ?_
  try dsimp only
  repeat' first
    | with_reducible exact h | (intro) | with_reducible apply Keeps.ite_fst | with_reducible apply tagRead_keeps
    | with_reducible apply Keeps.ite

theorem execLifecycleAdvance_keeps : ∀ x0 x1 s, KeepsOut s (execLifecycleAdvance x0 x1 s) := by
  intro x0 x1 s
  unfold execLifecycleAdvance
  refine runMailbox_keeps fun c t h => ?_
  try dsimp only
  repeat' first
    | with_reducible exact h | (intro) | with_reducible apply Keeps.ite_fst
    | with_reducible apply lifecycleAdvance_keeps | with_reducible apply Keeps.ite

theorem execReturnAuthorise_keeps : ∀ x0 x1 s, KeepsOut s (execReturnAuthorise x0 x1 s) := by
  intro x0 x1 s
  unfold execReturnAuthorise
  refine runMailbox_keeps fun c t h => ?_
  try dsimp only
  repeat' first
    | with_reducible exact h | (intro) | with_reducible apply Keeps.ite_fst
    | with_reducible apply returnAuthorise_keeps | with_reducible apply Keeps.ite

theorem execDebugUnlock_keeps : ∀ x0 x1 s, KeepsOut s (execDebugUnlock x0 x1 s) := by
  intro x0 x1 s
  unfold execDebugUnlock
  refine runMailbox_keeps fun c t h => ?_
  try dsimp only
  repeat' first
    | with_reducible exact h | (intro) | with_reducible apply Keeps.ite_fst | with_reducible apply debugUnlock_keeps
    | with_reducible apply Keeps.ite

theorem execCalUserWrite_keeps : ∀ x0 x1 s, KeepsOut s (execCalUserWrite x0 x1 s) := by
  intro x0 x1 s
  unfold execCalUserWrite
  refine runMailbox_keeps fun c t h => ?_
  try dsimp only
  repeat' first
    | with_reducible exact h | (intro) | with_reducible apply Keeps.ite_fst | with_reducible apply calUserWrite_keeps
    | with_reducible apply Keeps.ite

theorem execCalUserRead_keeps : ∀ x0 x1 s, KeepsOut s (execCalUserRead x0 x1 s) := by
  intro x0 x1 s
  unfold execCalUserRead
  refine runMailbox_keeps fun c t h => ?_
  try dsimp only
  repeat' first
    | with_reducible exact h | (intro) | with_reducible apply Keeps.ite_fst | with_reducible apply calUserRead_keeps
    | with_reducible apply Keeps.ite

theorem execFaultLogRead_keeps : ∀ x0 x1 s, KeepsOut s (execFaultLogRead x0 x1 s) := by
  intro x0 x1 s
  unfold execFaultLogRead
  refine runMailbox_keeps fun c t h => ?_
  try dsimp only
  repeat' first
    | with_reducible exact h | (intro) | with_reducible apply Keeps.ite_fst | with_reducible apply faultLogRead_keeps
    | with_reducible apply Keeps.ite

theorem execDebugViewsExpire_keeps : ∀ s, KeepsOut s (execDebugViewsExpire s) := by
  intro s
  unfold execDebugViewsExpire
  have h := Keeps.refl s
  try dsimp only
  repeat' first
    | with_reducible apply KeepsOut.next | with_reducible apply KeepsOut.ite | with_reducible exact KeepsOut.refused
    | with_reducible exact h | (intro) | with_reducible apply viewsExpire_keeps | with_reducible apply Keeps.ite

end Sys2Proof.Machine
end

