-- ==== Sys2Proof/Laws/KeepsPowerCmds.lean ====
section
/-! SUPPORT. What the operations of Machine/PowerCmds.lean keep. -/

namespace Sys2Proof.Machine

theorem freshReadings_keeps {s0 : State} : ∀ s, Keeps s0 s → Keeps s0 (freshReadings s) :=
  fun _ h => h.same rfl rfl rfl rfl rfl

theorem powerStatusRead_keeps {s0 : State} : ∀ x0 s, Keeps s0 s → Keeps s0 (powerStatusRead x0 s).1 := by
  intro x0 s h
  unfold powerStatusRead
  try dsimp only
  repeat' first
    | with_reducible exact h | (intro) | with_reducible apply cmdOk_keeps | with_reducible apply freshReadings_keeps
    | with_reducible apply hostWrite_keeps

theorem domainsOff_keeps {s0 : State} : ∀ s, Keeps s0 s → Keeps s0 (domainsOff s) := by
  intro s h
  unfold domainsOff
  try dsimp only
  repeat' first
    | with_reducible exact h | (intro) | with_reducible apply State.modPower_keeps

theorem powerHalves_keeps {s0 : State} : ∀ x0 s, Keeps s0 s → Keeps s0 (powerHalves x0 s) := by
  intro x0 s h
  unfold powerHalves
  try dsimp only
  repeat' first
    | with_reducible exact h | (intro) | with_reducible apply State.modPower_keeps
    | with_reducible apply noteStatus_keeps | with_reducible apply releaseDevice_keeps
    | with_reducible apply setHalfPower_keeps | with_reducible apply Keeps.ite | with_reducible apply Keeps.foldl
    | split | dsimp only | exact rfl | exact ⟨rfl, rfl⟩ | exact ⟨rfl, rfl, rfl, rfl, rfl, rfl⟩ | assumption

theorem halfPowerOn_keeps {s0 : State} : ∀ x0 s, Keeps s0 s → Keeps s0 (halfPowerOn x0 s) := by
  intro x0 s h
  unfold halfPowerOn
  try dsimp only
  repeat' first
    | with_reducible exact h | (intro) | with_reducible apply powerHalves_keeps | with_reducible apply Keeps.ite

theorem resetAndOff_keeps {s0 : State} : ∀ x0 s, Keeps s0 s → Keeps s0 (resetAndOff x0 s) := by
  intro x0 s h
  unfold resetAndOff
  try dsimp only
  repeat' first
    | with_reducible exact h | (intro) | with_reducible apply deviceReset_keeps
    | with_reducible apply domainsOff_keeps | with_reducible apply noteStatus_keeps

theorem vinLost_keeps {s0 : State} : ∀ s, Keeps s0 s → Keeps s0 (vinLost s) := by
  intro s h
  unfold vinLost
  try dsimp only
  repeat' first
    | with_reducible exact h | (intro) | with_reducible apply State.modPower_keeps
    | with_reducible apply State.tookFree_keeps | with_reducible apply noteStatus_keeps
    | with_reducible apply report_keeps | with_reducible apply resetAndOff_keeps | with_reducible apply Keeps.ite

theorem vinQualified_keeps {s0 : State} : ∀ s, Keeps s0 s → Keeps s0 (vinQualified s) := by
  intro s h
  unfold vinQualified
  try dsimp only
  repeat' first
    | with_reducible exact h | (intro) | with_reducible apply State.modPower_keeps
    | with_reducible apply noteStatus_keeps

theorem vinMargin_keeps {s0 : State} : ∀ x0 s, Keeps s0 s → Keeps s0 (vinMargin x0 s) := by
  intro x0 s h
  unfold vinMargin
  try dsimp only
  repeat' first
    | with_reducible exact h | (intro) | with_reducible apply State.modPower_keeps | with_reducible apply report_keeps
    | with_reducible apply Keeps.ite

theorem circuitsDark_out (s : State) : ∃ o, circuitsDark s = { s with out := o } := by
  unfold circuitsDark
  generalize (s.flue.filter fun e => decide (3 ≤ e.2.state)) = l
  induction l generalizing s with
  | nil => exact ⟨s.out, rfl⟩
  | cons a r ih => exact ih (emit (.light a.1 false) s)

theorem coldClear_keeps {s0 : State} : ∀ x0 s, Keeps s0 s → Keeps s0 (coldClear x0 s) := by
  intro x0 s h
  obtain ⟨o, e⟩ := circuitsDark_out s
  unfold coldClear
  rw [e]
  split <;> exact h.all rfl ⟨rfl, rfl, rfl, rfl, rfl, rfl⟩ (fun i => Memory.wf_filter _ _ i) id (fun _ => rfl)

theorem finishErase_keeps {s0 : State} : ∀ s, Keeps s0 s → Keeps s0 (finishErase s) := by
  intro s h
  unfold finishErase
  split
  · rename_i e
    refine h.secTo (fun i => ⟨i.life, Nat.zero_le _, i.fused, fun _ => ⟨rfl, rfl, rfl, rfl⟩⟩) (fun _ => rfl)
      ⟨Nat.le_refl _, Nat.le_refl _, .inr (Nat.le_of_eq e.symm), fun _ => .inr (Nat.le_of_eq e.symm),
        fun _ => .inr (Nat.le_of_eq e.symm)⟩
  · exact h

theorem coldReset_keeps {s0 : State} : ∀ x0 x1 s, Keeps s0 s → Keeps s0 (coldReset x0 x1 s) := by
  intro x0 x1 s h
  unfold coldReset
  try dsimp only
  repeat' first
    | with_reducible exact h | (intro) | with_reducible apply State.modPower_keeps | with_reducible apply boot_keeps
    | with_reducible apply bootFails_keeps | with_reducible apply coldClear_keeps
    | with_reducible apply finishErase_keeps | with_reducible apply hearthStart_keeps
    | with_reducible apply noteStatus_keeps | with_reducible apply setResetCause_keeps
    | with_reducible apply Keeps.ite

theorem findStores_keeps {s0 : State} : ∀ x0 s, Keeps s0 s → Keeps s0 (findStores x0 s) := by
  intro x0 s h
  unfold findStores
  try dsimp only
  repeat' first
    | with_reducible exact h | (intro) | with_reducible apply State.modSec_keeps | with_reducible apply loseSlot_keeps
    | with_reducible apply Keeps.ite | with_reducible apply Keeps.foldl | split | dsimp only | exact rfl
    | exact ⟨rfl, rfl⟩ | exact ⟨rfl, rfl, rfl, rfl, rfl, rfl⟩

theorem vauxLow_keeps {s0 : State} : ∀ s, Keeps s0 s → Keeps s0 (vauxLow s) := by
  intro s h
  unfold vauxLow
  try dsimp only
  repeat' first
    | with_reducible exact h | (intro) | with_reducible apply coldClear_keeps

theorem coldPulse_keeps {s0 : State} : ∀ x0 x1 s, Keeps s0 s → Keeps s0 (coldPulse x0 x1 s) := by
  intro x0 x1 s h
  unfold coldPulse
  try dsimp only
  repeat' first
    | with_reducible exact h | (intro) | with_reducible apply State.tookFree_keeps
    | with_reducible apply coldReset_keeps | with_reducible apply Keeps.ite

theorem countConv_keeps {s0 : State} : ∀ x0 s, Keeps s0 s → Keeps s0 (countConv x0 s) := by
  intro x0 s h
  unfold countConv
  try dsimp only
  repeat' first
    | with_reducible exact h | (intro) | with_reducible apply State.modPower_keeps

theorem convReport_keeps {s0 : State} : ∀ x0 s, Keeps s0 s → Keeps s0 (convReport x0 s) := by
  intro x0 s h
  unfold convReport
  try dsimp only
  repeat' first
    | with_reducible exact h | (intro) | with_reducible apply State.tookFree_keeps
    | with_reducible apply countConv_keeps | with_reducible apply report_keeps

theorem converterFault_keeps {s0 : State} : ∀ x0 x1 s, Keeps s0 s → Keeps s0 (converterFault x0 x1 s) := by
  intro x0 x1 s h
  unfold converterFault
  try dsimp only
  repeat' first
    | with_reducible exact h | (intro) | with_reducible apply convReport_keeps | with_reducible apply halfReset_keeps
    | with_reducible apply noteStatus_keeps | with_reducible apply resetAndOff_keeps
    | with_reducible apply setHalfPower_keeps | with_reducible apply Keeps.ite

theorem converterRepower_keeps {s0 : State} : ∀ x0 x1 s, Keeps s0 s → Keeps s0 (converterRepower x0 x1 s) := by
  intro x0 x1 s h
  unfold converterRepower
  try dsimp only
  repeat' first
    | with_reducible exact h | (intro) | with_reducible apply State.modHearth_keeps
    | with_reducible apply State.modPower_keeps | with_reducible apply halfUpWith_keeps
    | with_reducible apply noteStatus_keeps | with_reducible apply powerUpOptics_keeps
    | with_reducible apply setHalfPower_keeps | with_reducible apply Keeps.ite | with_reducible apply Keeps.foldl
    | split | dsimp only | exact rfl | exact ⟨rfl, rfl⟩ | exact ⟨rfl, rfl, rfl, rfl, rfl, rfl⟩ | assumption

theorem refReturn_keeps {s0 : State} : ∀ x0 s, Keeps s0 s → Keeps s0 (refReturn x0 s) := by
  intro x0 s h
  unfold refReturn
  try dsimp only
  repeat' first
    | with_reducible exact h | (intro) | with_reducible apply State.modTime_keeps

theorem warnOn_keeps {s0 : State} : ∀ x0 x1 x2 x3 x4 s, Keeps s0 s → Keeps s0 (warnOn x0 x1 x2 x3 x4 s) := by
  intro x0 x1 x2 x3 x4 s h
  unfold warnOn
  try dsimp only
  repeat' first
    | with_reducible exact h | (intro) | with_reducible apply State.modPower_keeps | with_reducible apply report_keeps
    | with_reducible apply Keeps.ite

theorem thermalTrip_keeps {s0 : State} : ∀ x0 s, Keeps s0 s → Keeps s0 (thermalTrip x0 s) := by
  intro x0 s h
  unfold thermalTrip
  try dsimp only
  repeat' first
    | with_reducible exact h | (intro) | with_reducible apply State.modPower_keeps | with_reducible apply emit_keeps
    | with_reducible apply report_keeps | with_reducible apply resetAndOff_keeps

theorem sensorsRead_keeps {s0 : State} : ∀ x0 x1 s, Keeps s0 s → Keeps s0 (sensorsRead x0 x1 s) := by
  intro x0 x1 s h
  unfold sensorsRead
  try dsimp only
  repeat' first
    | with_reducible exact h | (intro) | with_reducible apply State.modPower_keeps
    | with_reducible apply thermalTrip_keeps | with_reducible apply warnOn_keeps | with_reducible apply Keeps.ite
    | with_reducible apply Keeps.foldl | split | dsimp only | exact rfl | exact ⟨rfl, rfl⟩
    | exact ⟨rfl, rfl, rfl, rfl, rfl, rfl⟩ | assumption

theorem thermRestart_keeps {s0 : State} : ∀ x0 s, Keeps s0 s → Keeps s0 (thermRestart x0 s) := by
  intro x0 s h
  unfold thermRestart
  try dsimp only
  repeat' first
    | with_reducible exact h | (intro) | with_reducible apply State.modPower_keeps | with_reducible apply emit_keeps
    | with_reducible apply powerHalves_keeps | with_reducible apply Keeps.ite

theorem floorFatal_keeps {s0 : State} : ∀ s, Keeps s0 s → Keeps s0 (floorFatal s) := by
  intro s h
  unfold floorFatal
  try dsimp only
  repeat' first
    | with_reducible exact h | (intro) | with_reducible apply deviceReset_keeps | with_reducible apply report_keeps
    | with_reducible apply Keeps.ite

theorem roleLost_keeps {s0 : State} : ∀ x0 x1 s, Keeps s0 s → Keeps s0 (roleLost x0 x1 s) := by
  intro x0 x1 s h
  unfold roleLost
  try dsimp only
  repeat' first
    | with_reducible exact h | (intro) | with_reducible apply State.modCore_keeps
    | with_reducible apply halfReset_keeps | with_reducible apply report_keeps | with_reducible apply Keeps.ite

theorem channelFail_keeps {s0 : State} : ∀ x0 x1 x2 s, Keeps s0 s → Keeps s0 (channelFail x0 x1 x2 s) := by
  intro x0 x1 x2 s h
  unfold channelFail
  try dsimp only
  repeat' first
    | with_reducible exact h | (intro) | with_reducible apply State.modCore_keeps | with_reducible apply bump_keeps
    | with_reducible apply bumpBy_keeps | with_reducible apply report_keeps | with_reducible apply roleLost_keeps
    | with_reducible apply Keeps.ite | with_reducible apply Keeps.foldl | split

theorem execPowerStatusRead_keeps : ∀ x0 x1 s, KeepsOut s (execPowerStatusRead x0 x1 s) := by
  intro x0 x1 s
  unfold execPowerStatusRead
  refine runMailbox_keeps fun c t h => ?_
  try dsimp only
  repeat' first
    | with_reducible exact h | (intro) | with_reducible apply Keeps.ite_fst
    | with_reducible apply powerStatusRead_keeps | with_reducible apply Keeps.ite

theorem execVin36Lost_keeps : ∀ s, KeepsOut s (execVin36Lost s) := by
  intro s
  unfold execVin36Lost
  have h := Keeps.refl s
  try dsimp only
  repeat' first
    | with_reducible apply KeepsOut.next | with_reducible apply KeepsOut.ite | with_reducible exact KeepsOut.refused
    | with_reducible exact h | (intro) | with_reducible apply vinLost_keeps | with_reducible apply Keeps.ite

theorem execVin36Qualified_keeps : ∀ s, KeepsOut s (execVin36Qualified s) := by
  intro s
  unfold execVin36Qualified
  have h := Keeps.refl s
  try dsimp only
  repeat' first
    | with_reducible apply KeepsOut.next | with_reducible apply KeepsOut.ite | with_reducible exact KeepsOut.refused
    | with_reducible exact h | (intro) | with_reducible apply vinQualified_keeps | with_reducible apply Keeps.ite

theorem execVin36Margin_keeps : ∀ x0 s, KeepsOut s (execVin36Margin x0 s) := by
  intro x0 s
  unfold execVin36Margin
  have h := Keeps.refl s
  try dsimp only
  repeat' first
    | with_reducible apply KeepsOut.next | with_reducible apply KeepsOut.ite | with_reducible exact KeepsOut.refused
    | with_reducible exact h | (intro) | with_reducible apply vinMargin_keeps | with_reducible apply Keeps.ite

theorem execVaux33Low_keeps : ∀ s, KeepsOut s (execVaux33Low s) := by
  intro s
  unfold execVaux33Low
  have h := Keeps.refl s
  try dsimp only
  repeat' first
    | with_reducible apply KeepsOut.next | with_reducible apply KeepsOut.ite | with_reducible exact KeepsOut.refused
    | with_reducible exact h | (intro) | with_reducible apply vauxLow_keeps | with_reducible apply Keeps.ite

theorem execVaux33PowerUp_keeps : ∀ x0 s, KeepsOut s (execVaux33PowerUp x0 s) := by
  intro x0 s
  unfold execVaux33PowerUp
  have h := Keeps.refl s
  try dsimp only
  repeat' first
    | with_reducible apply KeepsOut.next | with_reducible apply KeepsOut.ite | with_reducible exact KeepsOut.refused
    | with_reducible exact h | (intro) | with_reducible apply coldReset_keeps | with_reducible apply findStores_keeps
    | with_reducible apply Keeps.ite

theorem execHalfPowerOn_keeps : ∀ x0 s, KeepsOut s (execHalfPowerOn x0 s) := by
  intro x0 s
  unfold execHalfPowerOn
  have h := Keeps.refl s
  try dsimp only
  repeat' first
    | with_reducible apply KeepsOut.next | with_reducible apply KeepsOut.ite | with_reducible exact KeepsOut.refused
    | with_reducible exact h | (intro) | with_reducible apply halfPowerOn_keeps | with_reducible apply Keeps.ite

theorem execColdReset_keeps : ∀ x0 x1 s, KeepsOut s (execColdReset x0 x1 s) := by
  intro x0 x1 s
  unfold execColdReset
  have h := Keeps.refl s
  try dsimp only
  repeat' first
    | with_reducible apply KeepsOut.next | with_reducible apply KeepsOut.ite | with_reducible exact KeepsOut.refused
    | with_reducible exact h | (intro) | with_reducible apply coldPulse_keeps | with_reducible apply Keeps.ite

theorem execConverterFault_keeps : ∀ x0 x1 s, KeepsOut s (execConverterFault x0 x1 s) := by
  intro x0 x1 s
  unfold execConverterFault
  have h := Keeps.refl s
  try dsimp only
  repeat' first
    | with_reducible apply KeepsOut.next | with_reducible apply KeepsOut.ite | with_reducible exact KeepsOut.refused
    | with_reducible exact h | (intro) | with_reducible apply converterFault_keeps | with_reducible apply Keeps.ite

theorem execConverterRepower_keeps : ∀ x0 x1 s, KeepsOut s (execConverterRepower x0 x1 s) := by
  intro x0 x1 s
  unfold execConverterRepower
  have h := Keeps.refl s
  try dsimp only
  repeat' first
    | with_reducible apply KeepsOut.next | with_reducible apply KeepsOut.ite | with_reducible exact KeepsOut.refused
    | with_reducible exact h | (intro) | with_reducible apply converterRepower_keeps | with_reducible apply Keeps.ite

theorem execRefclkFail_keeps : ∀ x0 s, KeepsOut s (execRefclkFail x0 s) := by
  intro x0 s
  unfold execRefclkFail
  have h := Keeps.refl s
  try dsimp only
  repeat' first
    | with_reducible apply KeepsOut.next | with_reducible apply KeepsOut.ite | with_reducible exact KeepsOut.refused
    | with_reducible exact h | (intro) | with_reducible apply refFail_keeps | with_reducible apply Keeps.ite

theorem execRefclkReturn_keeps : ∀ x0 s, KeepsOut s (execRefclkReturn x0 s) := by
  intro x0 s
  unfold execRefclkReturn
  have h := Keeps.refl s
  try dsimp only
  repeat' first
    | with_reducible apply KeepsOut.next | with_reducible apply KeepsOut.ite | with_reducible exact KeepsOut.refused
    | with_reducible exact h | (intro) | with_reducible apply refReturn_keeps | with_reducible apply Keeps.ite

theorem execThermalSensorRead_keeps : ∀ x0 x1 s, KeepsOut s (execThermalSensorRead x0 x1 s) := by
  intro x0 x1 s
  unfold execThermalSensorRead
  have h := Keeps.refl s
  try dsimp only
  repeat' first
    | with_reducible apply KeepsOut.next | with_reducible apply KeepsOut.ite | with_reducible exact KeepsOut.refused
    | with_reducible exact h | (intro) | with_reducible apply sensorsRead_keeps | with_reducible apply Keeps.ite

theorem execThermRestart_keeps : ∀ x0 s, KeepsOut s (execThermRestart x0 s) := by
  intro x0 s
  unfold execThermRestart
  have h := Keeps.refl s
  try dsimp only
  repeat' first
    | with_reducible apply KeepsOut.next | with_reducible apply KeepsOut.ite | with_reducible exact KeepsOut.refused
    | with_reducible exact h | (intro) | with_reducible apply thermRestart_keeps | with_reducible apply Keeps.ite

theorem execCellBundleArrival_keeps : ∀ x0 x1 x2 x3 s, KeepsOut s (execCellBundleArrival x0 x1 x2 x3 s) := by
  intro x0 x1 x2 x3 s
  unfold execCellBundleArrival
  have h := Keeps.refl s
  try dsimp only
  repeat' first
    | with_reducible apply KeepsOut.next | with_reducible apply KeepsOut.ite | with_reducible exact KeepsOut.refused
    | with_reducible exact h | (intro) | with_reducible apply bundleArrival_keeps
    | with_reducible apply floorFatal_keeps | with_reducible apply pumpAll_keeps
    | with_reducible apply settleSeeds_keeps | with_reducible apply Keeps.ite

theorem execBundleAckTimeout_keeps : ∀ x0 x1 x2 s, KeepsOut s (execBundleAckTimeout x0 x1 x2 s) := by
  intro x0 x1 x2 s
  unfold execBundleAckTimeout
  have h := Keeps.refl s
  try dsimp only
  repeat' first
    | with_reducible apply KeepsOut.next | with_reducible apply KeepsOut.ite | with_reducible exact KeepsOut.refused
    | with_reducible exact h | (intro) | with_reducible apply bundleTimeout_keeps
    | with_reducible apply floorFatal_keeps | with_reducible apply pumpAll_keeps
    | with_reducible apply settleSeeds_keeps | with_reducible apply Keeps.ite

theorem execBridgeChannelFail_keeps : ∀ x0 x1 x2 s, KeepsOut s (execBridgeChannelFail x0 x1 x2 s) := by
  intro x0 x1 x2 s
  unfold execBridgeChannelFail
  have h := Keeps.refl s
  try dsimp only
  repeat' first
    | with_reducible apply KeepsOut.next | with_reducible apply KeepsOut.ite | with_reducible exact KeepsOut.refused
    | with_reducible exact h | (intro) | with_reducible apply channelFail_keeps | with_reducible apply Keeps.ite

end Sys2Proof.Machine
end

