-- ==== Sys2Proof/Laws/KeepsReceive.lean ====
section
/-! SUPPORT. What the operations of Machine/Receive.lean keep. -/

namespace Sys2Proof.Machine

theorem actCtl_keeps {s0 : State} : ∀ x0 x1 s, Keeps s0 s → Keeps s0 (actCtl x0 x1 s) := by
  intro x0 x1 s h
  unfold actCtl
  try dsimp only
  repeat' first
    | with_reducible exact h | (intro) | with_reducible apply rehomeAck_keeps | with_reducible apply rehomeReq_keeps
    | with_reducible apply wdGrant_keeps | with_reducible apply wdRefuse_keeps | with_reducible apply wdReq_keeps
    | with_reducible apply Keeps.ite | with_reducible apply Keeps.foldl | split

theorem timeFlit_keeps {s0 : State} : ∀ x0 x1 s, Keeps s0 s → Keeps s0 (timeFlit x0 x1 s) := by
  intro x0 x1 s h
  unfold timeFlit
  try dsimp only
  repeat' first
    | with_reducible exact h | (intro) | with_reducible apply timePacketRx_keeps | with_reducible apply Keeps.ite

theorem retryUe_keeps {s0 : State} : ∀ x0 s, Keeps s0 s → Keeps s0 (retryUe x0 s) := by
  intro x0 s h
  unfold retryUe
  try dsimp only
  repeat' first
    | with_reducible exact h | (intro) | with_reducible apply abruptExit_keeps | with_reducible apply bumpLink_keeps
    | with_reducible apply dropRef_keeps | with_reducible apply modLaneLink_keeps | with_reducible apply report_keeps
    | with_reducible apply Keeps.ite | with_reducible apply Keeps.foldl | split

theorem goodFlit_keeps {s0 : State} : ∀ x0 x1 x2 s, Keeps s0 s → Keeps s0 (goodFlit x0 x1 x2 s) := by
  intro x0 x1 x2 s h
  unfold goodFlit
  try dsimp only
  repeat' first
    | with_reducible exact h | (intro) | with_reducible apply ackUpTo_keeps | with_reducible apply actCtl_keeps
    | with_reducible apply dataFlit_keeps | with_reducible apply modPort_keeps | with_reducible apply replay_keeps
    | with_reducible apply sequenced_keeps | with_reducible apply tagMismatch_keeps
    | with_reducible apply takeCredit_keeps | with_reducible apply timeFlit_keeps | with_reducible apply Keeps.ite
    | with_reducible apply Keeps.foldl | split | dsimp only | exact rfl | exact ⟨rfl, rfl⟩
    | exact ⟨rfl, rfl, rfl, rfl, rfl, rfl⟩ | assumption

theorem flitRx_keeps {s0 : State} : ∀ x0 x1 x2 s, Keeps s0 s → Keeps s0 (flitRx x0 x1 x2 s) := by
  intro x0 x1 x2 s h
  unfold flitRx
  try dsimp only
  repeat' first
    | with_reducible exact h | (intro) | with_reducible apply ackUpTo_keeps | with_reducible apply badPair_keeps
    | with_reducible apply bumpBy_keeps | with_reducible apply bumpIn_keeps | with_reducible apply bumpLink_keeps
    | with_reducible apply countSlot_keeps | with_reducible apply goodFlit_keeps
    | with_reducible apply modLaneLink_keeps | with_reducible apply nakError_keeps
    | with_reducible apply retryUe_keeps | with_reducible apply tagMismatch_keeps | with_reducible apply Keeps.ite
    | with_reducible apply Keeps.foldl | split

theorem execFlitRx_keeps : ∀ x0 x1 x2 s, KeepsOut s (execFlitRx x0 x1 x2 s) := by
  intro x0 x1 x2 s
  unfold execFlitRx
  have h := Keeps.refl s
  try dsimp only
  repeat' first
    | with_reducible apply KeepsOut.next | with_reducible apply KeepsOut.ite | with_reducible exact KeepsOut.refused
    | with_reducible exact h | (intro) | with_reducible apply flitRx_keeps | with_reducible apply Keeps.ite

end Sys2Proof.Machine
end

