-- ==== Sys2Proof/Laws/Exec.lean ====
section
/-! SUPPORT. How a command entry runs once it is accepted, and what every command keeps. -/

namespace Sys2Proof.Machine

/-- An entry whose ring is served and that no check stops ends as its work does. -/
theorem runMailbox_runs {sp : CmdSpec} {len : List Word → Nat} {body : CmdRef → State → Res} {h : CmdHdr} {args : List Word}
    {s : State} (ha : h.argsOk args = true) (hs : serves s h.ring = true)
    (hc : startCheck sp h (cmdRefOf sp h s) (fetchEntry h.ring s) = none) (hb : blockCheck h args (len args) = none) :
    runMailbox sp len body h args s =
      .next (match body (cmdRefOf sp h s) (fetchEntry h.ring s) with
        | (t, some r) => writeCompletion (cmdRefOf sp h s) r t
        | (t, none) => t) := by
  unfold runMailbox mailbox
  rw [if_pos ha, if_pos hs]
  simp only [hc, hb] <;> rfl

/-- Only the length that the block at hand has matters. -/
theorem runMailbox_len {sp : CmdSpec} {len : List Word → Nat} {body : CmdRef → State → Res} {h : CmdHdr}
    {args : List Word} {s : State} :
    runMailbox sp len body h args s = runMailbox sp (fun _ => len args) body h args s := rfl

/-- An accepted entry that is the entry `m` runs. -/
theorem accepted_runs {i : Instr} {m : MailCmd} (hm : mailCmd i = some m) {s : State} (h : accepted i s = true) :
    m.hdr.argsOk m.args = true ∧ serves s m.hdr.ring = true ∧
      startCheck m.spec m.hdr (cmdRefOf m.spec m.hdr s) (fetchEntry m.hdr.ring s) = none ∧
      blockCheck m.hdr m.args m.len = none := by
  simp only [accepted, refOf, fetched, hm, Bool.and_eq_true, Option.isNone_iff_eq_none] at h
  exact ⟨h.1.1.1, h.1.1.2, h.1.2, h.2⟩

/-- Every row that is an entry runs as one, whatever its own work is. -/
theorem exec_mail {i : Instr} {m : MailCmd} (hm : mailCmd i = some m) (s : State) :
    ∃ body, exec i s = runMailbox m.spec (fun _ => m.len) body m.hdr m.args s := by
  cases i <;> (cases hm; try exact ⟨_, runMailbox_len⟩)

/-- An accepted entry whose work ends OK. -/
theorem run_ok {i : Instr} {m : MailCmd} (hm : mailCmd i = some m) {s t : State} (h : accepted i s = true)
    {body : CmdRef → State → Res} (he : exec i s = runMailbox m.spec (fun _ => m.len) body m.hdr m.args s) {r : List Word}
    (hb : body (refOf i s) (fetched i s) = (t, some { status := St.ok, detail := 0, result := r })) :
    exec i s = .next (okEnd i s r t) := by
  obtain ⟨ha, hs, hc, hl⟩ := accepted_runs hm h
  simp only [refOf, fetched, hm] at hb
  rw [he, runMailbox_runs ha hs hc hl, hb]
  simp only [okEnd, refOf, hm]

/-- An accepted entry that its own checks refuse. -/
theorem run_refused {i : Instr} {m : MailCmd} (hm : mailCmd i = some m) {s : State} (h : accepted i s = true)
    {body : CmdRef → State → Res} (he : exec i s = runMailbox m.spec (fun _ => m.len) body m.hdr m.args s) {st d : Nat}
    (hb : body (refOf i s) (fetched i s) = cmdRefuse st d (fetched i s)) :
    exec i s = .next (refusedEnd i s st d) := by
  obtain ⟨ha, hs, hc, hl⟩ := accepted_runs hm h
  simp only [refOf, fetched, hm] at hb
  rw [he, runMailbox_runs ha hs hc hl, hb]
  simp only [refusedEnd, refOf, fetched, hm, cmdRefuse]

/-- An accepted entry that detaches. -/
theorem run_detached {i : Instr} {m : MailCmd} (hm : mailCmd i = some m) {s t : State} (h : accepted i s = true)
    {body : CmdRef → State → Res} (he : exec i s = runMailbox m.spec (fun _ => m.len) body m.hdr m.args s)
    (hb : body (refOf i s) (fetched i s) = (t, none)) :
    exec i s = .next t := by
  obtain ⟨ha, hs, hc, hl⟩ := accepted_runs hm h
  simp only [refOf, fetched, hm] at hb
  rw [he, runMailbox_runs ha hs hc hl, hb]

/-- What every command keeps. -/
theorem exec_keeps (i : Instr) (s : State) : KeepsOut s (exec i s) := by
  cases i with
  | routeWrite h args => exact execRouteWrite_keeps h args s
  | routeRead h args => exact execRouteRead_keeps h args s
  | routeSeal h args => exact execRouteSeal_keeps h args s
  | routeUnseal h args => exact execRouteUnseal_keeps h args s
  | routeCommit h args => exact execRouteCommit_keeps h args s
  | routeConfig h args => exact execRouteConfig_keeps h args s
  | endpointWrite h args => exact execEndpointWrite_keeps h args s
  | endpointFlush h args => exact execEndpointFlush_keeps h args s
  | endpointRead h args => exact execEndpointRead_keeps h args s
  | bundleWrite h args => exact execBundleWrite_keeps h args s
  | treeWrite h args => exact execTreeWrite_keeps h args s
  | coreBuf h args => exact execCoreBuf_keeps h args s
  | coreCredit h args => exact execCoreCredit_keeps h args s
  | coreSpill h args => exact execCoreSpill_keeps h args s
  | floorConfig h args => exact execFloorConfig_keeps h args s
  | floorPlaneRestore h args => exact execFloorPlaneRestore_keeps h args s
  | coreQueueRead h args => exact execCoreQueueRead_keeps h args s
  | shaperWrite h args => exact execShaperWrite_keeps h args s
  | shaperBankSet h args => exact execShaperBankSet_keeps h args s
  | policerWrite h args => exact execPolicerWrite_keeps h args s
  | portSchedRead h args => exact execPortSchedRead_keeps h args s
  | ctxCreate h args => exact execCtxCreate_keeps h args s
  | ctxAbort h args => exact execCtxAbort_keeps h args s
  | ctxRearm h args => exact execCtxRearm_keeps h args s
  | ctxSubstitute h args => exact execCtxSubstitute_keeps h args s
  | ctxDestroy h args => exact execCtxDestroy_keeps h args s
  | ctxStatusRead h args => exact execCtxStatusRead_keeps h args s
  | ctxRead h args => exact execCtxRead_keeps h args s
  | ctxBranchRead h args => exact execCtxBranchRead_keeps h args s
  | ctxResendBranch h args => exact execCtxResendBranch_keeps h args s
  | tuStatusRead h args => exact execTuStatusRead_keeps h args s
  | tuFence h args => exact execTuFence_keeps h args s
  | tuUnfence h args => exact execTuUnfence_keeps h args s
  | harvestGroupWrite h args => exact execHarvestGroupWrite_keeps h args s
  | harvestGroupRead h args => exact execHarvestGroupRead_keeps h args s
  | harvestRun h args => exact execHarvestRun_keeps h args s
  | harvestAbort h args => exact execHarvestAbort_keeps h args s
  | normPass h args => exact execNormPass_keeps h args s
  | memWindowWrite h args => exact execMemWindowWrite_keeps h args s
  | memWindowRead h args => exact execMemWindowRead_keeps h args s
  | memPool h args => exact execMemPool_keeps h args s
  | memLoft h args => exact execMemLoft_keeps h args s
  | memScratch h args => exact execMemScratch_keeps h args s
  | memHintWrite h args => exact execMemHintWrite_keeps h args s
  | memBar2Map h args => exact execMemBar2Map_keeps h args s
  | memMove h args => exact execMemMove_keeps h args s
  | memArbConfig h args => exact execMemArbConfig_keeps h args s
  | memThermal h args => exact execMemThermal_keeps h args s
  | memHold h args => exact execMemHold_keeps h args s
  | memRelease h args => exact execMemRelease_keeps h args s
  | memMargin h args => exact execMemMargin_keeps h args s
  | memSiloDetach h args => exact execMemSiloDetach_keeps h args s
  | memStatusRead h args => exact execMemStatusRead_keeps h args s
  | laneStatusRead h args => exact execLaneStatusRead_keeps h args s
  | kilnStatusRead h args => exact execKilnStatusRead_keeps h args s
  | calConfig h args => exact execCalConfig_keeps h args s
  | calLane h args test => exact execCalLane_keeps h args test s
  | laneBank h args => exact execLaneBank_keeps h args s
  | laneUnbank h args => exact execLaneUnbank_keeps h args s
  | kilnSwap h args => exact execKilnSwap_keeps h args s
  | portConfig h args => exact execPortConfig_keeps h args s
  | linkStatusRead h args => exact execLinkStatusRead_keeps h args s
  | flueOpen h args meas => exact execFlueOpen_keeps h args meas s
  | flueSwitch h args => exact execFlueSwitch_keeps h args s
  | flueClose h args => exact execFlueClose_keeps h args s
  | flueStatusRead h args => exact execFlueStatusRead_keeps h args s
  | timeConfig h args => exact execTimeConfig_keeps h args s
  | timePortConfig h args => exact execTimePortConfig_keeps h args s
  | timeSource h args => exact execTimeSource_keeps h args s
  | timeSet h args => exact execTimeSet_keeps h args s
  | timeStepAccept h args => exact execTimeStepAccept_keeps h args s
  | timeStepDismiss h args => exact execTimeStepDismiss_keeps h args s
  | timeStatusRead h args => exact execTimeStatusRead_keeps h args s
  | captureConfig h args => exact execCaptureConfig_keeps h args s
  | kindleArm h args => exact execKindleArm_keeps h args s
  | kindleDisarm h args => exact execKindleDisarm_keeps h args s
  | kindleRead h args => exact execKindleRead_keeps h args s
  | partCreate h args => exact execPartCreate_keeps h args s
  | partQuota h args => exact execPartQuota_keeps h args s
  | partRetire h args => exact execPartRetire_keeps h args s
  | partStatusRead h args => exact execPartStatusRead_keeps h args s
  | partPortSet h args => exact execPartPortSet_keeps h args s
  | partAllowWrite h args => exact execPartAllowWrite_keeps h args s
  | seedDefine h args => exact execSeedDefine_keeps h args s
  | seedFree h args => exact execSeedFree_keeps h args s
  | seedRead h args => exact execSeedRead_keeps h args s
  | deviceReset h args => exact execDeviceReset_keeps h args s
  | halfReset h args => exact execHalfReset_keeps h args s
  | barnReset h args => exact execBarnReset_keeps h args s
  | laneReset h args => exact execLaneReset_keeps h args s
  | hearthReset h args => exact execHearthReset_keeps h args s
  | partScrubConfig h args => exact execPartScrubConfig_keeps h args s
  | mbxNop h args => exact execMbxNop_keeps h args s
  | deviceConfig h args => exact execDeviceConfig_keeps h args s
  | endpointIdSet h args => exact execEndpointIdSet_keeps h args s
  | fwLoad h args => exact execFwLoad_keeps h args s
  | fwActivate h args starts => exact execFwActivate_keeps h args starts s
  | fwCommit h args => exact execFwCommit_keeps h args s
  | fwStatusRead h args => exact execFwStatusRead_keeps h args s
  | attestReport h args => exact execAttestReport_keeps h args s
  | tagWrite h args => exact execTagWrite_keeps h args s
  | tagRead h args => exact execTagRead_keeps h args s
  | lifecycleAdvance h args => exact execLifecycleAdvance_keeps h args s
  | returnAuthorise h args => exact execReturnAuthorise_keeps h args s
  | debugUnlock h args => exact execDebugUnlock_keeps h args s
  | calUserWrite h args => exact execCalUserWrite_keeps h args s
  | calUserRead h args => exact execCalUserRead_keeps h args s
  | faultLogRead h args => exact execFaultLogRead_keeps h args s
  | tallyConfig h args => exact execTallyConfig_keeps h args s
  | tallyLatch h args => exact execTallyLatch_keeps h args s
  | counterRead h args => exact execCounterRead_keeps h args s
  | traceConfig h args => exact execTraceConfig_keeps h args s
  | powerStatusRead h args => exact execPowerStatusRead_keeps h args s
  | cmdTailWrite ring value => exact execCmdTailWrite_keeps ring value s
  | cplHeadWrite ring value => exact execCplHeadWrite_keeps ring value s
  | ringEnable ring value => exact execRingEnable_keeps ring value s
  | ringDisable ring value => exact execRingDisable_keeps ring value s
  | eventRingEnable value => exact execEventRingEnable_keeps value s
  | evHeadWrite value => exact execEvHeadWrite_keeps value s
  | evLostRead => exact execEvLostRead_keeps s
  | hearthLoadRead => exact execHearthLoadRead_keeps s
  | ifRequestWrite value => exact execIfRequestWrite_keeps value s
  | latch value => exact execLatch_keeps value s
  | registerWrite access value => exact execRegisterWrite_keeps access value s
  | bar2Write offset bytes => exact execBar2Write_keeps offset bytes s
  | bar2Read offset len ue => exact execBar2Read_keeps offset len ue s
  | rcvStart value => exact execRcvStart_keeps value s
  | pcieReset kind => exact execPcieReset_keeps kind s
  | packetHeaderRx lane hdr => exact execPacketHeaderRx_keeps lane hdr s
  | packetTrailerRx lane rest => exact execPacketTrailerRx_keeps lane rest s
  | termWrite port pkt => exact execTermWrite_keeps port pkt s
  | termRead port pkt ue => exact execTermRead_keeps port pkt ue s
  | sheafArrival port sheaf => exact execSheafArrival_keeps port sheaf s
  | resultAck port pkt => exact execResultAck_keeps port pkt s
  | resultNak port pkt copyFails => exact execResultNak_keeps port pkt copyFails s
  | relayResultRx port pkt => exact execRelayResultRx_keeps port pkt s
  | upstreamNoticeRx port pkt => exact execUpstreamNoticeRx_keeps port pkt s
  | controlPkt port pkt => exact execControlPkt_keeps port pkt s
  | termUnexpected port pkt => exact execTermUnexpected_keeps port pkt s
  | timePacketRx lane pkt => exact execTimePacketRx_keeps lane pkt s
  | flitRx lane bytes outcome => exact execFlitRx_keeps lane bytes outcome s
  | nakResendTimer lane => exact execNakResendTimer_keeps lane s
  | replayTimeout lane => exact execReplayTimeout_keeps lane s
  | linkRetryExhausted lane => exact execLinkRetryExhausted_keeps lane s
  | fecExit lane => exact execFecExit_keeps lane s
  | frameLoss lane => exact execFrameLoss_keeps lane s
  | lossOfSignal lane => exact execLossOfSignal_keeps lane s
  | markerSend lane => exact execMarkerSend_keeps lane s
  | alignmentSlotRx lane bytes => exact execAlignmentSlotRx_keeps lane bytes s
  | txFault lane => exact execTxFault_keeps lane s
  | wdReq lane kind mtag => exact execWdReq_keeps lane kind mtag s
  | wdGrant lane mtag => exact execWdGrant_keeps lane mtag s
  | wdRefuse lane mtag reason => exact execWdRefuse_keeps lane mtag reason s
  | rehomeReq lane mtag => exact execRehomeReq_keeps lane mtag s
  | rehomeAck lane answer => exact execRehomeAck_keeps lane answer s
  | trainingStart lane => exact execTrainingStart_keeps lane s
  | trainFail lane cause => exact execTrainFail_keeps lane cause s
  | trainingRestart lane => exact execTrainingRestart_keeps lane s
  | trainingComplete lane far => exact execTrainingComplete_keeps lane far s
  | shortRetrain lane result resonance => exact execShortRetrain_keeps lane result resonance s
  | egressUnderrunAbort lane => exact execEgressUnderrunAbort_keeps lane s
  | floorSlot => exact execFloorSlot_keeps s
  | cellBundleArrival plane src dst ok => exact execCellBundleArrival_keeps plane src dst ok s
  | bundleAckTimeout plane src dst => exact execBundleAckTimeout_keeps plane src dst s
  | spillRefill barn => exact execSpillRefill_keeps barn s
  | egressSelect sel => exact execEgressSelect_keeps sel s
  | refillInstant => exact execRefillInstant_keeps s
  | gleanerAudit barn => exact execGleanerAudit_keeps barn s
  | learnUpdate half => exact execLearnUpdate_keeps half s
  | ageingVisit half => exact execAgeingVisit_keeps half s
  | tableParityRepair half table index step => exact execTableParityRepair_keeps half table index step s
  | drainWindowEnd => exact execDrainWindowEnd_keeps s
  | bridgeChannelFail sender channel timeout => exact execBridgeChannelFail_keeps sender channel timeout s
  | resultFormed ctx index => exact execResultFormed_keeps ctx index s
  | winnowCompare ctx index verdict => exact execWinnowCompare_keeps ctx index verdict s
  | residueFault unit work redoFaults => exact execResidueFault_keeps unit work redoFaults s
  | retainStallResume ctx => exact execRetainStallResume_keeps ctx s
  | stallTimer ctx index => exact execStallTimer_keeps ctx index s
  | retainExpired ctx index => exact execRetainExpired_keeps ctx index s
  | retentionScrub ctx index fails => exact execRetentionScrub_keeps ctx index fails s
  | stagingMove read => exact execStagingMove_keeps read s
  | harvestChunk harvest group chunk event => exact execHarvestChunk_keeps harvest group chunk event s
  | normPassDone pass ue => exact execNormPassDone_keeps pass ue s
  | memMoveDone move ue => exact execMemMoveDone_keeps move ue s
  | burstBoundary chan requests => exact execBurstBoundary_keeps chan requests s
  | chanWatchdog chan work => exact execChanWatchdog_keeps chan work s
  | stackThermalRead source temp => exact execStackThermalRead_keeps source temp s
  | patrolScrub site corrected => exact execPatrolScrub_keeps site corrected s
  | scrubGranule => exact execScrubGranule_keeps s
  | granaryInService barnStore failed => exact execGranaryInService_keeps barnStore failed s
  | siloLinkFail port => exact execSiloLinkFail_keeps port s
  | calSliceStart barn slice test => exact execCalSliceStart_keeps barn slice test s
  | lockLost lost => exact execLockLost_keeps lost s
  | laserReading laser reading => exact execLaserReading_keeps laser reading s
  | kilnSwapStart half => exact execKilnSwapStart_keeps half s
  | flueReadyRetune circuit meas => exact execFlueReadyRetune_keeps circuit meas s
  | flueRetuneNotice circuit => exact execFlueRetuneNotice_keeps circuit s
  | flueRetune circuit meas => exact execFlueRetune_keeps circuit meas s
  | flueLos circuit sideB => exact execFlueLos_keeps circuit sideB s
  | ptpSyncSend port => exact execPtpSyncSend_keeps port s
  | ptpDelayReqSend port => exact execPtpDelayReqSend_keeps port s
  | ptpAnnounceSend port => exact execPtpAnnounceSend_keeps port s
  | holdoverTimeout => exact execHoldoverTimeout_keeps s
  | ppsInEdge => exact execPpsInEdge_keeps s
  | ppsOutEdge => exact execPpsOutEdge_keeps s
  | ppsOutFall => exact execPpsOutFall_keeps s
  | capInEdge input rising => exact execCapInEdge_keeps input rising s
  | kindleRouteCommit entry => exact execKindleRouteCommit_keeps entry s
  | kindleFlueSwitch entry => exact execKindleFlueSwitch_keeps entry s
  | collRelease entry => exact execCollRelease_keeps entry s
  | mcRelease entry => exact execMcRelease_keeps entry s
  | mcReleaseSeed entry => exact execMcReleaseSeed_keeps entry s
  | shaperBank entry => exact execShaperBank_keeps entry s
  | counterDump entry => exact execCounterDump_keeps entry s
  | timedNotice entry => exact execTimedNotice_keeps entry s
  | seedPacketSend seed ue => exact execSeedPacketSend_keeps seed ue s
  | tallyPeriodicLatch => exact execTallyPeriodicLatch_keeps s
  | eventWrite => exact execEventWrite_keeps s
  | faultReportFoldEnd code half block item => exact execFaultReportFoldEnd_keeps code half block item s
  | hearthWatchdog halt => exact execHearthWatchdog_keeps halt s
  | hearthReturn => exact execHearthReturn_keeps s
  | debugViewsExpire => exact execDebugViewsExpire_keeps s
  | resetBegin => exact execResetBegin_keeps s
  | halfReady half => exact execHalfReady_keeps half s
  | barnReady barn => exact execBarnReady_keeps barn s
  | vin36Lost => exact execVin36Lost_keeps s
  | vin36Qualified => exact execVin36Qualified_keeps s
  | vin36Margin mv => exact execVin36Margin_keeps mv s
  | vaux33Low => exact execVaux33Low_keeps s
  | vaux33PowerUp start => exact execVaux33PowerUp_keeps start s
  | halfPowerOn optics => exact execHalfPowerOn_keeps optics s
  | coldReset lowNs recoveryLow => exact execColdReset_keeps lowNs recoveryLow s
  | converterFault half both => exact execConverterFault_keeps half both s
  | converterRepower half optics => exact execConverterRepower_keeps half optics s
  | refclkFail half => exact execRefclkFail_keeps half s
  | refclkReturn half => exact execRefclkReturn_keeps half s
  | thermalSensorRead readings persists => exact execThermalSensorRead_keeps readings persists s
  | thermRestart optics => exact execThermRestart_keeps optics s
  | wdAnswerTimeout lane => exact execWdAnswerTimeout_keeps lane s
  | timeSetPpsExpired => exact execTimeSetPpsExpired_keeps s
  | siloLinkUp port capacity => exact execSiloLinkUp_keeps port capacity s
  | unitSelftestDone unit pass => exact execUnitSelftestDone_keeps unit pass s
  | planeLoopbackTestDone plane pass => exact execPlaneLoopbackTestDone_keeps plane pass s
  | memMarginDone records => exact execMemMarginDone_keeps records s
  | memReleaseDone tier => exact execMemReleaseDone_keeps tier s
  | fwLoadDone => exact execFwLoadDone_keeps s
  | rcvVerifyDone => exact execRcvVerifyDone_keeps s
  | routeWriteDone => exact execRouteWriteDone_keeps s
  | endpointWriteDone => exact execEndpointWriteDone_keeps s
  | spillRegionPlaced => exact execSpillRegionPlaced_keeps s
  | deviceResetRelease optics => exact execDeviceResetRelease_keeps optics s

/-! ### Which entry each mailbox row is -/

theorem exec_routeWrite (h : CmdHdr) (args : List Word) (s : State) : exec (.routeWrite h args) s =
    runMailbox ⟨0x0301, 2, true⟩ (fun _ => 5) (fun c s => routeWrite c args s) h args s := rfl
theorem exec_routeRead (h : CmdHdr) (args : List Word) (s : State) : exec (.routeRead h args) s =
    runMailbox ⟨0x0302, 2, true⟩ (fun _ => 6) (fun _ s => routeRead args s) h args s := rfl
theorem exec_routeSeal (h : CmdHdr) (args : List Word) (s : State) : exec (.routeSeal h args) s =
    runMailbox ⟨0x0303, 1, true⟩ (fun _ => 0) (fun _ s => routeSeal s) h args s := rfl
theorem exec_routeUnseal (h : CmdHdr) (args : List Word) (s : State) : exec (.routeUnseal h args) s =
    runMailbox ⟨0x0304, 1, true⟩ (fun _ => 0) (fun _ s => routeUnseal s) h args s := rfl
theorem exec_routeCommit (h : CmdHdr) (args : List Word) (s : State) : exec (.routeCommit h args) s =
    runMailbox ⟨0x0305, 1, true⟩ (fun _ => 0) (fun _ s => routeCommit s) h args s := rfl
theorem exec_routeConfig (h : CmdHdr) (args : List Word) (s : State) : exec (.routeConfig h args) s =
    runMailbox ⟨0x0306, 1, true⟩ (fun _ => 3) (fun _ s => routeConfig args s) h args s := rfl
theorem exec_endpointWrite (h : CmdHdr) (args : List Word) (s : State) : exec (.endpointWrite h args) s =
    runMailbox ⟨0x0307, 2, true⟩ (fun _ => 3) (fun c s => endpointWrite c args s) h args s := rfl
theorem exec_endpointFlush (h : CmdHdr) (args : List Word) (s : State) : exec (.endpointFlush h args) s =
    runMailbox ⟨0x0308, 1, true⟩ (fun _ => if argN args 1 = 2 then 1 else 2) (fun _ s => endpointFlush args s) h args s := runMailbox_len
theorem exec_endpointRead (h : CmdHdr) (args : List Word) (s : State) : exec (.endpointRead h args) s =
    runMailbox ⟨0x0309, 2, true⟩ (fun _ => 5) (fun _ s => endpointRead args s) h args s := rfl
theorem exec_bundleWrite (h : CmdHdr) (args : List Word) (s : State) : exec (.bundleWrite h args) s =
    runMailbox ⟨0x030A, 1, true⟩ (fun _ => 34) (fun _ s => bundleWrite args s) h args s := rfl
theorem exec_treeWrite (h : CmdHdr) (args : List Word) (s : State) : exec (.treeWrite h args) s =
    runMailbox ⟨0x030B, 1, true⟩ (fun _ => 34) (fun _ s => treeWrite args s) h args s := rfl
theorem exec_coreBuf (h : CmdHdr) (args : List Word) (s : State) : exec (.coreBuf h args) s =
    runMailbox ⟨0x0401, 1, true⟩ (fun _ => 11) (fun _ s => coreBuf args s) h args s := rfl
theorem exec_coreCredit (h : CmdHdr) (args : List Word) (s : State) : exec (.coreCredit h args) s =
    runMailbox ⟨0x0402, 1, true⟩ (fun _ => 3) (fun _ s => coreCredit args s) h args s := rfl
theorem exec_coreSpill (h : CmdHdr) (args : List Word) (s : State) : exec (.coreSpill h args) s =
    runMailbox ⟨0x0403, 1, true⟩ (fun _ => 2) (fun c s => coreSpill c args s) h args s := rfl
theorem exec_floorConfig (h : CmdHdr) (args : List Word) (s : State) : exec (.floorConfig h args) s =
    runMailbox ⟨0x0404, 1, true⟩ (fun _ => 1) (fun _ s => floorConfig args s) h args s := rfl
theorem exec_floorPlaneRestore (h : CmdHdr) (args : List Word) (s : State) : exec (.floorPlaneRestore h args) s =
    runMailbox ⟨0x0405, 1, true⟩ (fun _ => 1) (fun c s => floorPlaneRestore c args s) h args s := rfl
theorem exec_coreQueueRead (h : CmdHdr) (args : List Word) (s : State) : exec (.coreQueueRead h args) s =
    runMailbox ⟨0x0406, 3, true⟩ (fun _ => if argN args 2 = 0 then 5 else 6) (fun _ s => coreQueueRead args s) h args s := runMailbox_len
theorem exec_shaperWrite (h : CmdHdr) (args : List Word) (s : State) : exec (.shaperWrite h args) s =
    runMailbox ⟨0x0501, 1, true⟩ (fun _ => 5) (fun _ s => shaperWrite args s) h args s := rfl
theorem exec_shaperBankSet (h : CmdHdr) (args : List Word) (s : State) : exec (.shaperBankSet h args) s =
    runMailbox ⟨0x0502, 1, true⟩ (fun _ => 1) (fun _ s => shaperBankSet args s) h args s := rfl
theorem exec_policerWrite (h : CmdHdr) (args : List Word) (s : State) : exec (.policerWrite h args) s =
    runMailbox ⟨0x0503, 1, true⟩ (fun _ => 4) (fun _ s => policerWrite args s) h args s := rfl
theorem exec_portSchedRead (h : CmdHdr) (args : List Word) (s : State) : exec (.portSchedRead h args) s =
    runMailbox ⟨0x0504, 3, true⟩ (fun _ => 4) (fun _ s => portSchedRead args s) h args s := rfl
theorem exec_ctxCreate (h : CmdHdr) (args : List Word) (s : State) : exec (.ctxCreate h args) s =
    runMailbox ⟨0x0601, 1, true⟩ (fun _ => 2) (fun _ s => ctxCreate args s) h args s := rfl
theorem exec_ctxAbort (h : CmdHdr) (args : List Word) (s : State) : exec (.ctxAbort h args) s =
    runMailbox ⟨0x0602, 0, true⟩ (fun _ => 1) (fun _ s => ctxAbort args s) h args s := rfl
theorem exec_ctxRearm (h : CmdHdr) (args : List Word) (s : State) : exec (.ctxRearm h args) s =
    runMailbox ⟨0x0603, 1, true⟩ (fun _ => if argN args 3 = 1 then 5 else 3) (fun _ s => ctxRearm args s) h args s := runMailbox_len
theorem exec_ctxSubstitute (h : CmdHdr) (args : List Word) (s : State) : exec (.ctxSubstitute h args) s =
    runMailbox ⟨0x0604, 1, true⟩ (fun _ => 4) (fun _ s => ctxSubstitute args s) h args s := rfl
theorem exec_ctxDestroy (h : CmdHdr) (args : List Word) (s : State) : exec (.ctxDestroy h args) s =
    runMailbox ⟨0x0605, 1, true⟩ (fun _ => 1) (fun _ s => ctxDestroy args s) h args s := rfl
theorem exec_ctxStatusRead (h : CmdHdr) (args : List Word) (s : State) : exec (.ctxStatusRead h args) s =
    runMailbox ⟨0x0606, 1, true⟩ (fun _ => 4) (fun _ s => ctxStatusRead args s) h args s := rfl
theorem exec_ctxRead (h : CmdHdr) (args : List Word) (s : State) : exec (.ctxRead h args) s =
    runMailbox ⟨0x0607, 3, true⟩ (fun _ => 3) (fun _ s => ctxRead args s) h args s := rfl
theorem exec_ctxBranchRead (h : CmdHdr) (args : List Word) (s : State) : exec (.ctxBranchRead h args) s =
    runMailbox ⟨0x0608, 1, true⟩ (fun _ => 6) (fun _ s => ctxBranchRead args s) h args s := rfl
theorem exec_ctxResendBranch (h : RereadHdr) (args : List Word) (s : State) : exec (.ctxResendBranch h args) s =
    runMailbox ⟨0x0609, 1, true⟩ (fun _ => 36) (fun _ s => ctxResendBranch args h.bad s) h.toCmdHdr args s := rfl
theorem exec_tuStatusRead (h : CmdHdr) (args : List Word) (s : State) : exec (.tuStatusRead h args) s =
    runMailbox ⟨0x0701, 3, true⟩ (fun _ => 4) (fun _ s => tuStatusRead args s) h args s := rfl
theorem exec_tuFence (h : CmdHdr) (args : List Word) (s : State) : exec (.tuFence h args) s =
    runMailbox ⟨0x0702, 1, true⟩ (fun _ => 1) (fun _ s => tuFence args s) h args s := rfl
theorem exec_tuUnfence (h : CmdHdr) (args : List Word) (s : State) : exec (.tuUnfence h args) s =
    runMailbox ⟨0x0703, 1, true⟩ (fun _ => 1) (fun c s => tuUnfence c args s) h args s := rfl
theorem exec_harvestGroupWrite (h : CmdHdr) (args : List Word) (s : State) : exec (.harvestGroupWrite h args) s =
    runMailbox ⟨0x0704, 1, true⟩ (fun _ => 4) (fun _ s => groupWrite args s) h args s := rfl
theorem exec_harvestGroupRead (h : CmdHdr) (args : List Word) (s : State) : exec (.harvestGroupRead h args) s =
    runMailbox ⟨0x0705, 1, true⟩ (fun _ => 4) (fun _ s => groupRead args s) h args s := rfl
theorem exec_harvestRun (h : CmdHdr) (args : List Word) (s : State) : exec (.harvestRun h args) s =
    runMailbox ⟨0x0706, 1, true⟩ (fun _ => 2) (fun c s => harvestRun c args s) h args s := rfl
theorem exec_harvestAbort (h : CmdHdr) (args : List Word) (s : State) : exec (.harvestAbort h args) s =
    runMailbox ⟨0x0707, 0, true⟩ (fun _ => 1) (fun _ s => harvestAbort args s) h args s := rfl
theorem exec_normPass (h : CmdHdr) (args : List Word) (s : State) : exec (.normPass h args) s =
    runMailbox ⟨0x0708, 1, true⟩ (fun _ => 3) (fun c s => normPass c args s) h args s := rfl
theorem exec_memWindowWrite (h : CmdHdr) (args : List Word) (s : State) : exec (.memWindowWrite h args) s =
    runMailbox ⟨0x0801, 1, true⟩ (fun _ => 5) (fun _ s => windowWrite args s) h args s := rfl
theorem exec_memWindowRead (h : CmdHdr) (args : List Word) (s : State) : exec (.memWindowRead h args) s =
    runMailbox ⟨0x0802, 3, true⟩ (fun _ => 4) (fun _ s => windowRead args s) h args s := rfl
theorem exec_memPool (h : CmdHdr) (args : List Word) (s : State) : exec (.memPool h args) s =
    runMailbox ⟨0x0803, 1, true⟩ (fun _ => 1) (fun _ s => memPool args s) h args s := rfl
theorem exec_memLoft (h : CmdHdr) (args : List Word) (s : State) : exec (.memLoft h args) s =
    runMailbox ⟨0x0804, 1, true⟩ (fun _ => 2) (fun _ s => memLoft args s) h args s := rfl
theorem exec_memScratch (h : CmdHdr) (args : List Word) (s : State) : exec (.memScratch h args) s =
    runMailbox ⟨0x0805, 1, true⟩ (fun _ => 2) (fun _ s => memScratch args s) h args s := rfl
theorem exec_memHintWrite (h : CmdHdr) (args : List Word) (s : State) : exec (.memHintWrite h args) s =
    runMailbox ⟨0x0806, 1, true⟩ (fun _ => 5) (fun _ s => hintWrite args s) h args s := rfl
theorem exec_memBar2Map (h : CmdHdr) (args : List Word) (s : State) : exec (.memBar2Map h args) s =
    runMailbox ⟨0x0807, 1, true⟩ (fun _ => if argN args 1 = 0 then 3 else 1) (fun _ s => bar2Map args s) h args s := runMailbox_len
theorem exec_memMove (h : CmdHdr) (args : List Word) (s : State) : exec (.memMove h args) s =
    runMailbox ⟨0x0808, 2, true⟩ (fun _ => 9) (fun c s => memMove c args s) h args s := rfl
theorem exec_memArbConfig (h : CmdHdr) (args : List Word) (s : State) : exec (.memArbConfig h args) s =
    runMailbox ⟨0x0809, 1, true⟩ (fun _ => 3) (fun _ s => arbConfig args s) h args s := rfl
theorem exec_memThermal (h : CmdHdr) (args : List Word) (s : State) : exec (.memThermal h args) s =
    runMailbox ⟨0x080A, 1, true⟩ (fun _ => 2) (fun _ s => memThermal args s) h args s := rfl
theorem exec_memHold (h : CmdHdr) (args : List Word) (s : State) : exec (.memHold h args) s =
    runMailbox ⟨0x080B, 1, true⟩ (fun _ => 1) (fun _ s => memHold args s) h args s := rfl
theorem exec_memRelease (h : CmdHdr) (args : List Word) (s : State) : exec (.memRelease h args) s =
    runMailbox ⟨0x080C, 1, true⟩ (fun _ => 1) (fun c s => memRelease c args s) h args s := rfl
theorem exec_memMargin (h : CmdHdr) (args : List Word) (s : State) : exec (.memMargin h args) s =
    runMailbox ⟨0x080D, 3, true⟩ (fun _ => 4) (fun c s => memMargin c args s) h args s := rfl
theorem exec_memSiloDetach (h : CmdHdr) (args : List Word) (s : State) : exec (.memSiloDetach h args) s =
    runMailbox ⟨0x080E, 1, true⟩ (fun _ => 1) (fun _ s => siloDetach args s) h args s := rfl
theorem exec_memStatusRead (h : CmdHdr) (args : List Word) (s : State) : exec (.memStatusRead h args) s =
    runMailbox ⟨0x080F, 3, true⟩ (fun _ => 2) (fun _ s => memStatusRead args s) h args s := rfl
theorem exec_laneStatusRead (h : CmdHdr) (args : List Word) (s : State) : exec (.laneStatusRead h args) s =
    runMailbox ⟨0x0901, 3, true⟩ (fun _ => 4) (fun _ s => laneStatusRead args s) h args s := rfl
theorem exec_kilnStatusRead (h : CmdHdr) (args : List Word) (s : State) : exec (.kilnStatusRead h args) s =
    runMailbox ⟨0x0902, 3, true⟩ (fun _ => 2) (fun _ s => kilnStatusRead args s) h args s := rfl
theorem exec_calConfig (h : CmdHdr) (args : List Word) (s : State) : exec (.calConfig h args) s =
    runMailbox ⟨0x0903, 1, true⟩ (fun _ => 2) (fun _ s => calConfig args s) h args s := rfl
theorem exec_calLane (h : CmdHdr) (args : List Word) (test : SliceTest) (s : State) : exec (.calLane h args test) s =
    runMailbox ⟨0x0904, 1, true⟩ (fun _ => 1) (fun c s => calLane c args test s) h args s := rfl
theorem exec_laneBank (h : CmdHdr) (args : List Word) (s : State) : exec (.laneBank h args) s =
    runMailbox ⟨0x0905, 1, true⟩ (fun _ => 1) (fun c s => laneBank c args s) h args s := rfl
theorem exec_laneUnbank (h : CmdHdr) (args : List Word) (s : State) : exec (.laneUnbank h args) s =
    runMailbox ⟨0x0906, 1, true⟩ (fun _ => 1) (fun c s => laneUnbank c args s) h args s := rfl
theorem exec_kilnSwap (h : CmdHdr) (args : List Word) (s : State) : exec (.kilnSwap h args) s =
    runMailbox ⟨0x0907, 1, true⟩ (fun _ => 1) (fun c s => kilnSwap c args s) h args s := rfl
theorem exec_portConfig (h : CmdHdr) (args : List Word) (s : State) : exec (.portConfig h args) s =
    runMailbox ⟨0x0A01, 1, true⟩ (fun _ => 5) (fun _ s => portConfig args s) h args s := rfl
theorem exec_linkStatusRead (h : CmdHdr) (args : List Word) (s : State) : exec (.linkStatusRead h args) s =
    runMailbox ⟨0x0A02, 3, true⟩ (fun _ => 4) (fun _ s => linkStatusRead args s) h args s := rfl
theorem exec_flueOpen (h : CmdHdr) (args : List Word) (meas : FlueMeas) (s : State) : exec (.flueOpen h args meas) s =
    runMailbox ⟨0x0B01, 1, true⟩ (fun _ => 2) (fun c s => flueOpen c args meas s) h args s := rfl
theorem exec_flueSwitch (h : CmdHdr) (args : List Word) (s : State) : exec (.flueSwitch h args) s =
    runMailbox ⟨0x0B02, 1, true⟩ (fun _ => 1) (fun _ s => flueSwitch args s) h args s := rfl
theorem exec_flueClose (h : CmdHdr) (args : List Word) (s : State) : exec (.flueClose h args) s =
    runMailbox ⟨0x0B03, 1, true⟩ (fun _ => 1) (fun _ s => flueClose args s) h args s := rfl
theorem exec_flueStatusRead (h : CmdHdr) (args : List Word) (s : State) : exec (.flueStatusRead h args) s =
    runMailbox ⟨0x0B04, 3, true⟩ (fun _ => 4) (fun _ s => flueStatusRead args s) h args s := rfl
theorem exec_timeConfig (h : CmdHdr) (args : List Word) (s : State) : exec (.timeConfig h args) s =
    runMailbox ⟨0x0C01, 1, true⟩ (fun _ => 10) (fun _ s => timeConfig args s) h args s := rfl
theorem exec_timePortConfig (h : CmdHdr) (args : List Word) (s : State) : exec (.timePortConfig h args) s =
    runMailbox ⟨0x0C02, 1, true⟩ (fun _ => 2) (fun _ s => timePortConfig args s) h args s := rfl
theorem exec_timeSource (h : CmdHdr) (args : List Word) (s : State) : exec (.timeSource h args) s =
    runMailbox ⟨0x0C03, 1, true⟩ (fun _ => if argN args 1 = 1 then 2 else 1) (fun _ s => timeSource args s) h args s := runMailbox_len
theorem exec_timeSet (h : CmdHdr) (args : List Word) (s : State) : exec (.timeSet h args) s =
    runMailbox ⟨0x0C04, 1, true⟩ (fun _ => 4) (fun c s => timeSet c args s) h args s := rfl
theorem exec_timeStepAccept (h : CmdHdr) (args : List Word) (s : State) : exec (.timeStepAccept h args) s =
    runMailbox ⟨0x0C05, 0, true⟩ (fun _ => if argN args 1 = 1 then 3 else 1) (fun _ s => timeStepAccept args s) h args s := runMailbox_len
theorem exec_timeStepDismiss (h : CmdHdr) (args : List Word) (s : State) : exec (.timeStepDismiss h args) s =
    runMailbox ⟨0x0C06, 0, true⟩ (fun _ => 0) (fun _ s => timeStepDismiss s) h args s := rfl
theorem exec_timeStatusRead (h : CmdHdr) (args : List Word) (s : State) : exec (.timeStatusRead h args) s =
    runMailbox ⟨0x0C07, 3, true⟩ (fun _ => 2) (fun _ s => timeStatusRead args s) h args s := rfl
theorem exec_captureConfig (h : CmdHdr) (args : List Word) (s : State) : exec (.captureConfig h args) s =
    runMailbox ⟨0x0C08, 1, true⟩ (fun _ => 3) (fun _ s => captureConfig args s) h args s := rfl
theorem exec_kindleArm (h : CmdHdr) (args : List Word) (s : State) : exec (.kindleArm h args) s =
    runMailbox ⟨0x0C09, 1, true⟩ (fun _ => 9) (fun _ s => kindleArm args s) h args s := rfl
theorem exec_kindleDisarm (h : CmdHdr) (args : List Word) (s : State) : exec (.kindleDisarm h args) s =
    runMailbox ⟨0x0C0A, 0, true⟩ (fun _ => 1) (fun _ s => kindleDisarm args s) h args s := rfl
theorem exec_kindleRead (h : CmdHdr) (args : List Word) (s : State) : exec (.kindleRead h args) s =
    runMailbox ⟨0x0C0B, 3, true⟩ (fun _ => 4) (fun _ s => kindleRead args s) h args s := rfl
theorem exec_partCreate (h : CmdHdr) (args : List Word) (s : State) : exec (.partCreate h args) s =
    runMailbox ⟨0x0D01, 1, true⟩ (fun _ => 4) (fun _ s => partCreate args s) h args s := rfl
theorem exec_partQuota (h : CmdHdr) (args : List Word) (s : State) : exec (.partQuota h args) s =
    runMailbox ⟨0x0D02, 1, true⟩ (fun _ => 4) (fun _ s => partQuota args s) h args s := rfl
theorem exec_partRetire (h : CmdHdr) (args : List Word) (s : State) : exec (.partRetire h args) s =
    runMailbox ⟨0x0D03, 0, true⟩ (fun _ => 1) (fun c s => partRetire c args s) h args s := rfl
theorem exec_partStatusRead (h : CmdHdr) (args : List Word) (s : State) : exec (.partStatusRead h args) s =
    runMailbox ⟨0x0D04, 3, true⟩ (fun _ => 4) (fun _ s => partStatusRead args s) h args s := rfl
theorem exec_partPortSet (h : CmdHdr) (args : List Word) (s : State) : exec (.partPortSet h args) s =
    runMailbox ⟨0x0D05, 1, true⟩ (fun _ => 2) (fun _ s => partPortSet args s) h args s := rfl
theorem exec_partAllowWrite (h : CmdHdr) (args : List Word) (s : State) : exec (.partAllowWrite h args) s =
    runMailbox ⟨0x0D06, 1, true⟩ (fun _ => 2) (fun _ s => partAllowWrite args s) h args s := rfl
theorem exec_seedDefine (h : CmdHdr) (args : List Word) (s : State) : exec (.seedDefine h args) s =
    runMailbox ⟨0x0D07, 1, true⟩ (fun _ => 3) (fun _ s => seedDefine args s) h args s := rfl
theorem exec_seedFree (h : CmdHdr) (args : List Word) (s : State) : exec (.seedFree h args) s =
    runMailbox ⟨0x0D08, 1, true⟩ (fun _ => 1) (fun _ s => seedFree args s) h args s := rfl
theorem exec_seedRead (h : CmdHdr) (args : List Word) (s : State) : exec (.seedRead h args) s =
    runMailbox ⟨0x0D09, 3, true⟩ (fun _ => 4) (fun _ s => seedRead args s) h args s := rfl
theorem exec_deviceReset (h : CmdHdr) (args : List Word) (s : State) : exec (.deviceReset h args) s =
    runMailbox ⟨0x0D0A, 0, true⟩ (fun _ => 0) (fun c s => cmdDeviceReset c s) h args s := rfl
theorem exec_halfReset (h : CmdHdr) (args : List Word) (s : State) : exec (.halfReset h args) s =
    runMailbox ⟨0x0D0B, 0, true⟩ (fun _ => 1) (fun c s => cmdHalfReset c args s) h args s := rfl
theorem exec_barnReset (h : CmdHdr) (args : List Word) (s : State) : exec (.barnReset h args) s =
    runMailbox ⟨0x0D0C, 1, true⟩ (fun _ => 1) (fun _ s => cmdBarnReset args s) h args s := rfl
theorem exec_laneReset (h : CmdHdr) (args : List Word) (s : State) : exec (.laneReset h args) s =
    runMailbox ⟨0x0D0D, 1, true⟩ (fun _ => 1) (fun c s => laneReset c args s) h args s := rfl
theorem exec_hearthReset (h : CmdHdr) (args : List Word) (s : State) : exec (.hearthReset h args) s =
    runMailbox ⟨0x0D0E, 0, false⟩ (fun _ => 0) (fun c s => (hearthReset 2 (writeCompletion c { status := St.ok, detail := 0, result := [] } s), none)) h args s := rfl
theorem exec_partScrubConfig (h : CmdHdr) (args : List Word) (s : State) : exec (.partScrubConfig h args) s =
    runMailbox ⟨0x0D0F, 1, true⟩ (fun _ => 1) (fun _ s => partScrubConfig args s) h args s := rfl
theorem exec_mbxNop (h : CmdHdr) (args : List Word) (s : State) : exec (.mbxNop h args) s =
    runMailbox ⟨0x0E01, 4, false⟩ (fun _ => 0) (fun _ s => cmdOk s) h args s := rfl
theorem exec_deviceConfig (h : CmdHdr) (args : List Word) (s : State) : exec (.deviceConfig h args) s =
    runMailbox ⟨0x0E02, 1, false⟩ (fun _ => 1) (fun _ s => deviceConfig args s) h args s := rfl
theorem exec_endpointIdSet (h : CmdHdr) (args : List Word) (s : State) : exec (.endpointIdSet h args) s =
    runMailbox ⟨0x0E03, 1, false⟩ (fun _ => 1) (fun _ s => endpointIdSet args s) h args s := rfl
theorem exec_fwLoad (h : CmdHdr) (args : List Word) (s : State) : exec (.fwLoad h args) s =
    runMailbox ⟨0x0E04, 2, false⟩ (fun _ => 3) (fun c s => fwLoad c args s) h args s := rfl
theorem exec_fwActivate (h : CmdHdr) (args : List Word) (starts : Bool) (s : State) : exec (.fwActivate h args starts) s =
    runMailbox ⟨0x0E05, 1, false⟩ (fun _ => 0) (fun _ s => fwActivate starts s) h args s := rfl
theorem exec_fwCommit (h : CmdHdr) (args : List Word) (s : State) : exec (.fwCommit h args) s =
    runMailbox ⟨0x0E06, 1, false⟩ (fun _ => 0) (fun _ s => fwCommit s) h args s := rfl
theorem exec_fwStatusRead (h : CmdHdr) (args : List Word) (s : State) : exec (.fwStatusRead h args) s =
    runMailbox ⟨0x0E07, 3, false⟩ (fun _ => 0) (fun _ s => fwStatusRead s) h args s := rfl
theorem exec_attestReport (h : CmdHdr) (args : List Word) (s : State) : exec (.attestReport h args) s =
    runMailbox ⟨0x0F01, 3, false⟩ (fun _ => 10) (fun _ s => attestReport args s) h args s := rfl
theorem exec_tagWrite (h : CmdHdr) (args : List Word) (s : State) : exec (.tagWrite h args) s =
    runMailbox ⟨0x0F02, 1, false⟩ (fun _ => 2 + (argN args 2 + 3) / 4) (fun _ s => tagWrite args s) h args s := runMailbox_len
theorem exec_tagRead (h : CmdHdr) (args : List Word) (s : State) : exec (.tagRead h args) s =
    runMailbox ⟨0x0F03, 3, false⟩ (fun _ => 4) (fun _ s => tagRead args s) h args s := rfl
theorem exec_lifecycleAdvance (h : CmdHdr) (args : List Word) (s : State) : exec (.lifecycleAdvance h args) s =
    runMailbox ⟨0x0F04, 3, false⟩ (fun _ => 40) (fun _ s => lifecycleAdvance args s) h args s := rfl
theorem exec_returnAuthorise (h : CmdHdr) (args : List Word) (s : State) : exec (.returnAuthorise h args) s =
    runMailbox ⟨0x0F05, 3, false⟩ (fun _ => 80) (fun _ s => returnAuthorise args s) h args s := rfl
theorem exec_debugUnlock (h : CmdHdr) (args : List Word) (s : State) : exec (.debugUnlock h args) s =
    runMailbox ⟨0x0F06, 3, false⟩ (fun _ => 40) (fun _ s => debugUnlock args s) h args s := rfl
theorem exec_calUserWrite (h : CmdHdr) (args : List Word) (s : State) : exec (.calUserWrite h args) s =
    runMailbox ⟨0x0F07, 1, false⟩ (fun _ => 3) (fun _ s => calUserWrite args s) h args s := rfl
theorem exec_calUserRead (h : CmdHdr) (args : List Word) (s : State) : exec (.calUserRead h args) s =
    runMailbox ⟨0x0F08, 3, false⟩ (fun _ => 5) (fun _ s => calUserRead args s) h args s := rfl
theorem exec_faultLogRead (h : CmdHdr) (args : List Word) (s : State) : exec (.faultLogRead h args) s =
    runMailbox ⟨0x0F09, 3, false⟩ (fun _ => 5) (fun _ s => faultLogRead args s) h args s := rfl
theorem exec_tallyConfig (h : CmdHdr) (args : List Word) (s : State) : exec (.tallyConfig h args) s =
    runMailbox ⟨0x1001, 1, true⟩ (fun _ => 6 + targetLen args 5) (fun _ s => tallyConfig args s) h args s := runMailbox_len
theorem exec_tallyLatch (h : CmdHdr) (args : List Word) (s : State) : exec (.tallyLatch h args) s =
    runMailbox ⟨0x1002, 1, true⟩ (fun _ => 1) (fun _ s => tallyLatch args s) h args s := rfl
theorem exec_counterRead (h : CmdHdr) (args : List Word) (s : State) : exec (.counterRead h args) s =
    runMailbox ⟨0x1003, 3, true⟩ (fun _ => 1 + 2 * argN args 1 + 2) (fun _ s => counterRead args s) h args s := runMailbox_len
theorem exec_traceConfig (h : CmdHdr) (args : List Word) (s : State) : exec (.traceConfig h args) s =
    runMailbox ⟨0x1004, 1, true⟩ (fun _ => 7 + targetLen args 6) (fun _ s => traceConfig args s) h args s := runMailbox_len
theorem exec_powerStatusRead (h : CmdHdr) (args : List Word) (s : State) : exec (.powerStatusRead h args) s =
    runMailbox ⟨0x1101, 3, false⟩ (fun _ => 2) (fun _ s => powerStatusRead args s) h args s := rfl

end Sys2Proof.Machine
end

