-- ==== Sys2Proof/Laws/State.lean ====
section
/-! SUPPORT. What each part of the state is after a change of one part. -/

namespace Sys2Proof.Machine

@[simp] theorem State.modRouting_routing (f : Routing → Routing) (s : State) : (State.modRouting f s).routing = f s.routing := rfl
@[simp] theorem State.modRouting_core (f : Routing → Routing) (s : State) : (State.modRouting f s).core = s.core := rfl
@[simp] theorem State.modRouting_sched (f : Routing → Routing) (s : State) : (State.modRouting f s).sched = s.sched := rfl
@[simp] theorem State.modRouting_coll (f : Routing → Routing) (s : State) : (State.modRouting f s).coll = s.coll := rfl
@[simp] theorem State.modRouting_thresh (f : Routing → Routing) (s : State) : (State.modRouting f s).thresh = s.thresh := rfl
@[simp] theorem State.modRouting_mem (f : Routing → Routing) (s : State) : (State.modRouting f s).mem = s.mem := rfl
@[simp] theorem State.modRouting_optics (f : Routing → Routing) (s : State) : (State.modRouting f s).optics = s.optics := rfl
@[simp] theorem State.modRouting_link (f : Routing → Routing) (s : State) : (State.modRouting f s).link = s.link := rfl
@[simp] theorem State.modRouting_flue (f : Routing → Routing) (s : State) : (State.modRouting f s).flue = s.flue := rfl
@[simp] theorem State.modRouting_time (f : Routing → Routing) (s : State) : (State.modRouting f s).time = s.time := rfl
@[simp] theorem State.modRouting_kindle (f : Routing → Routing) (s : State) : (State.modRouting f s).kindle = s.kindle := rfl
@[simp] theorem State.modRouting_jobs (f : Routing → Routing) (s : State) : (State.modRouting f s).jobs = s.jobs := rfl
@[simp] theorem State.modRouting_hearth (f : Routing → Routing) (s : State) : (State.modRouting f s).hearth = s.hearth := rfl
@[simp] theorem State.modRouting_sec (f : Routing → Routing) (s : State) : (State.modRouting f s).sec = s.sec := rfl
@[simp] theorem State.modRouting_count (f : Routing → Routing) (s : State) : (State.modRouting f s).count = s.count := rfl
@[simp] theorem State.modRouting_power (f : Routing → Routing) (s : State) : (State.modRouting f s).power = s.power := rfl
@[simp] theorem State.modRouting_out (f : Routing → Routing) (s : State) : (State.modRouting f s).out = s.out := rfl
@[simp] theorem State.modRouting_free (f : Routing → Routing) (s : State) : (State.modRouting f s).free = s.free := rfl
@[simp] theorem State.modRouting_pending (f : Routing → Routing) (s : State) : (State.modRouting f s).pending = s.pending := rfl

@[simp] theorem State.modCore_routing (f : Core → Core) (s : State) : (State.modCore f s).routing = s.routing := rfl
@[simp] theorem State.modCore_core (f : Core → Core) (s : State) : (State.modCore f s).core = f s.core := rfl
@[simp] theorem State.modCore_sched (f : Core → Core) (s : State) : (State.modCore f s).sched = s.sched := rfl
@[simp] theorem State.modCore_coll (f : Core → Core) (s : State) : (State.modCore f s).coll = s.coll := rfl
@[simp] theorem State.modCore_thresh (f : Core → Core) (s : State) : (State.modCore f s).thresh = s.thresh := rfl
@[simp] theorem State.modCore_mem (f : Core → Core) (s : State) : (State.modCore f s).mem = s.mem := rfl
@[simp] theorem State.modCore_optics (f : Core → Core) (s : State) : (State.modCore f s).optics = s.optics := rfl
@[simp] theorem State.modCore_link (f : Core → Core) (s : State) : (State.modCore f s).link = s.link := rfl
@[simp] theorem State.modCore_flue (f : Core → Core) (s : State) : (State.modCore f s).flue = s.flue := rfl
@[simp] theorem State.modCore_time (f : Core → Core) (s : State) : (State.modCore f s).time = s.time := rfl
@[simp] theorem State.modCore_kindle (f : Core → Core) (s : State) : (State.modCore f s).kindle = s.kindle := rfl
@[simp] theorem State.modCore_jobs (f : Core → Core) (s : State) : (State.modCore f s).jobs = s.jobs := rfl
@[simp] theorem State.modCore_hearth (f : Core → Core) (s : State) : (State.modCore f s).hearth = s.hearth := rfl
@[simp] theorem State.modCore_sec (f : Core → Core) (s : State) : (State.modCore f s).sec = s.sec := rfl
@[simp] theorem State.modCore_count (f : Core → Core) (s : State) : (State.modCore f s).count = s.count := rfl
@[simp] theorem State.modCore_power (f : Core → Core) (s : State) : (State.modCore f s).power = s.power := rfl
@[simp] theorem State.modCore_out (f : Core → Core) (s : State) : (State.modCore f s).out = s.out := rfl
@[simp] theorem State.modCore_free (f : Core → Core) (s : State) : (State.modCore f s).free = s.free := rfl
@[simp] theorem State.modCore_pending (f : Core → Core) (s : State) : (State.modCore f s).pending = s.pending := rfl

@[simp] theorem State.modSched_routing (f : Sched → Sched) (s : State) : (State.modSched f s).routing = s.routing := rfl
@[simp] theorem State.modSched_core (f : Sched → Sched) (s : State) : (State.modSched f s).core = s.core := rfl
@[simp] theorem State.modSched_sched (f : Sched → Sched) (s : State) : (State.modSched f s).sched = f s.sched := rfl
@[simp] theorem State.modSched_coll (f : Sched → Sched) (s : State) : (State.modSched f s).coll = s.coll := rfl
@[simp] theorem State.modSched_thresh (f : Sched → Sched) (s : State) : (State.modSched f s).thresh = s.thresh := rfl
@[simp] theorem State.modSched_mem (f : Sched → Sched) (s : State) : (State.modSched f s).mem = s.mem := rfl
@[simp] theorem State.modSched_optics (f : Sched → Sched) (s : State) : (State.modSched f s).optics = s.optics := rfl
@[simp] theorem State.modSched_link (f : Sched → Sched) (s : State) : (State.modSched f s).link = s.link := rfl
@[simp] theorem State.modSched_flue (f : Sched → Sched) (s : State) : (State.modSched f s).flue = s.flue := rfl
@[simp] theorem State.modSched_time (f : Sched → Sched) (s : State) : (State.modSched f s).time = s.time := rfl
@[simp] theorem State.modSched_kindle (f : Sched → Sched) (s : State) : (State.modSched f s).kindle = s.kindle := rfl
@[simp] theorem State.modSched_jobs (f : Sched → Sched) (s : State) : (State.modSched f s).jobs = s.jobs := rfl
@[simp] theorem State.modSched_hearth (f : Sched → Sched) (s : State) : (State.modSched f s).hearth = s.hearth := rfl
@[simp] theorem State.modSched_sec (f : Sched → Sched) (s : State) : (State.modSched f s).sec = s.sec := rfl
@[simp] theorem State.modSched_count (f : Sched → Sched) (s : State) : (State.modSched f s).count = s.count := rfl
@[simp] theorem State.modSched_power (f : Sched → Sched) (s : State) : (State.modSched f s).power = s.power := rfl
@[simp] theorem State.modSched_out (f : Sched → Sched) (s : State) : (State.modSched f s).out = s.out := rfl
@[simp] theorem State.modSched_free (f : Sched → Sched) (s : State) : (State.modSched f s).free = s.free := rfl
@[simp] theorem State.modSched_pending (f : Sched → Sched) (s : State) : (State.modSched f s).pending = s.pending := rfl

@[simp] theorem State.modColl_routing (f : Tab Ctx → Tab Ctx) (s : State) : (State.modColl f s).routing = s.routing := rfl
@[simp] theorem State.modColl_core (f : Tab Ctx → Tab Ctx) (s : State) : (State.modColl f s).core = s.core := rfl
@[simp] theorem State.modColl_sched (f : Tab Ctx → Tab Ctx) (s : State) : (State.modColl f s).sched = s.sched := rfl
@[simp] theorem State.modColl_coll (f : Tab Ctx → Tab Ctx) (s : State) : (State.modColl f s).coll = f s.coll := rfl
@[simp] theorem State.modColl_thresh (f : Tab Ctx → Tab Ctx) (s : State) : (State.modColl f s).thresh = s.thresh := rfl
@[simp] theorem State.modColl_mem (f : Tab Ctx → Tab Ctx) (s : State) : (State.modColl f s).mem = s.mem := rfl
@[simp] theorem State.modColl_optics (f : Tab Ctx → Tab Ctx) (s : State) : (State.modColl f s).optics = s.optics := rfl
@[simp] theorem State.modColl_link (f : Tab Ctx → Tab Ctx) (s : State) : (State.modColl f s).link = s.link := rfl
@[simp] theorem State.modColl_flue (f : Tab Ctx → Tab Ctx) (s : State) : (State.modColl f s).flue = s.flue := rfl
@[simp] theorem State.modColl_time (f : Tab Ctx → Tab Ctx) (s : State) : (State.modColl f s).time = s.time := rfl
@[simp] theorem State.modColl_kindle (f : Tab Ctx → Tab Ctx) (s : State) : (State.modColl f s).kindle = s.kindle := rfl
@[simp] theorem State.modColl_jobs (f : Tab Ctx → Tab Ctx) (s : State) : (State.modColl f s).jobs = s.jobs := rfl
@[simp] theorem State.modColl_hearth (f : Tab Ctx → Tab Ctx) (s : State) : (State.modColl f s).hearth = s.hearth := rfl
@[simp] theorem State.modColl_sec (f : Tab Ctx → Tab Ctx) (s : State) : (State.modColl f s).sec = s.sec := rfl
@[simp] theorem State.modColl_count (f : Tab Ctx → Tab Ctx) (s : State) : (State.modColl f s).count = s.count := rfl
@[simp] theorem State.modColl_power (f : Tab Ctx → Tab Ctx) (s : State) : (State.modColl f s).power = s.power := rfl
@[simp] theorem State.modColl_out (f : Tab Ctx → Tab Ctx) (s : State) : (State.modColl f s).out = s.out := rfl
@[simp] theorem State.modColl_free (f : Tab Ctx → Tab Ctx) (s : State) : (State.modColl f s).free = s.free := rfl
@[simp] theorem State.modColl_pending (f : Tab Ctx → Tab Ctx) (s : State) : (State.modColl f s).pending = s.pending := rfl

@[simp] theorem State.modThresh_routing (f : Thresh → Thresh) (s : State) : (State.modThresh f s).routing = s.routing := rfl
@[simp] theorem State.modThresh_core (f : Thresh → Thresh) (s : State) : (State.modThresh f s).core = s.core := rfl
@[simp] theorem State.modThresh_sched (f : Thresh → Thresh) (s : State) : (State.modThresh f s).sched = s.sched := rfl
@[simp] theorem State.modThresh_coll (f : Thresh → Thresh) (s : State) : (State.modThresh f s).coll = s.coll := rfl
@[simp] theorem State.modThresh_thresh (f : Thresh → Thresh) (s : State) : (State.modThresh f s).thresh = f s.thresh := rfl
@[simp] theorem State.modThresh_mem (f : Thresh → Thresh) (s : State) : (State.modThresh f s).mem = s.mem := rfl
@[simp] theorem State.modThresh_optics (f : Thresh → Thresh) (s : State) : (State.modThresh f s).optics = s.optics := rfl
@[simp] theorem State.modThresh_link (f : Thresh → Thresh) (s : State) : (State.modThresh f s).link = s.link := rfl
@[simp] theorem State.modThresh_flue (f : Thresh → Thresh) (s : State) : (State.modThresh f s).flue = s.flue := rfl
@[simp] theorem State.modThresh_time (f : Thresh → Thresh) (s : State) : (State.modThresh f s).time = s.time := rfl
@[simp] theorem State.modThresh_kindle (f : Thresh → Thresh) (s : State) : (State.modThresh f s).kindle = s.kindle := rfl
@[simp] theorem State.modThresh_jobs (f : Thresh → Thresh) (s : State) : (State.modThresh f s).jobs = s.jobs := rfl
@[simp] theorem State.modThresh_hearth (f : Thresh → Thresh) (s : State) : (State.modThresh f s).hearth = s.hearth := rfl
@[simp] theorem State.modThresh_sec (f : Thresh → Thresh) (s : State) : (State.modThresh f s).sec = s.sec := rfl
@[simp] theorem State.modThresh_count (f : Thresh → Thresh) (s : State) : (State.modThresh f s).count = s.count := rfl
@[simp] theorem State.modThresh_power (f : Thresh → Thresh) (s : State) : (State.modThresh f s).power = s.power := rfl
@[simp] theorem State.modThresh_out (f : Thresh → Thresh) (s : State) : (State.modThresh f s).out = s.out := rfl
@[simp] theorem State.modThresh_free (f : Thresh → Thresh) (s : State) : (State.modThresh f s).free = s.free := rfl
@[simp] theorem State.modThresh_pending (f : Thresh → Thresh) (s : State) : (State.modThresh f s).pending = s.pending := rfl

@[simp] theorem State.modMem_routing (f : Mem → Mem) (s : State) : (State.modMem f s).routing = s.routing := rfl
@[simp] theorem State.modMem_core (f : Mem → Mem) (s : State) : (State.modMem f s).core = s.core := rfl
@[simp] theorem State.modMem_sched (f : Mem → Mem) (s : State) : (State.modMem f s).sched = s.sched := rfl
@[simp] theorem State.modMem_coll (f : Mem → Mem) (s : State) : (State.modMem f s).coll = s.coll := rfl
@[simp] theorem State.modMem_thresh (f : Mem → Mem) (s : State) : (State.modMem f s).thresh = s.thresh := rfl
@[simp] theorem State.modMem_mem (f : Mem → Mem) (s : State) : (State.modMem f s).mem = f s.mem := rfl
@[simp] theorem State.modMem_optics (f : Mem → Mem) (s : State) : (State.modMem f s).optics = s.optics := rfl
@[simp] theorem State.modMem_link (f : Mem → Mem) (s : State) : (State.modMem f s).link = s.link := rfl
@[simp] theorem State.modMem_flue (f : Mem → Mem) (s : State) : (State.modMem f s).flue = s.flue := rfl
@[simp] theorem State.modMem_time (f : Mem → Mem) (s : State) : (State.modMem f s).time = s.time := rfl
@[simp] theorem State.modMem_kindle (f : Mem → Mem) (s : State) : (State.modMem f s).kindle = s.kindle := rfl
@[simp] theorem State.modMem_jobs (f : Mem → Mem) (s : State) : (State.modMem f s).jobs = s.jobs := rfl
@[simp] theorem State.modMem_hearth (f : Mem → Mem) (s : State) : (State.modMem f s).hearth = s.hearth := rfl
@[simp] theorem State.modMem_sec (f : Mem → Mem) (s : State) : (State.modMem f s).sec = s.sec := rfl
@[simp] theorem State.modMem_count (f : Mem → Mem) (s : State) : (State.modMem f s).count = s.count := rfl
@[simp] theorem State.modMem_power (f : Mem → Mem) (s : State) : (State.modMem f s).power = s.power := rfl
@[simp] theorem State.modMem_out (f : Mem → Mem) (s : State) : (State.modMem f s).out = s.out := rfl
@[simp] theorem State.modMem_free (f : Mem → Mem) (s : State) : (State.modMem f s).free = s.free := rfl
@[simp] theorem State.modMem_pending (f : Mem → Mem) (s : State) : (State.modMem f s).pending = s.pending := rfl

@[simp] theorem State.modOptics_routing (f : Optics → Optics) (s : State) : (State.modOptics f s).routing = s.routing := rfl
@[simp] theorem State.modOptics_core (f : Optics → Optics) (s : State) : (State.modOptics f s).core = s.core := rfl
@[simp] theorem State.modOptics_sched (f : Optics → Optics) (s : State) : (State.modOptics f s).sched = s.sched := rfl
@[simp] theorem State.modOptics_coll (f : Optics → Optics) (s : State) : (State.modOptics f s).coll = s.coll := rfl
@[simp] theorem State.modOptics_thresh (f : Optics → Optics) (s : State) : (State.modOptics f s).thresh = s.thresh := rfl
@[simp] theorem State.modOptics_mem (f : Optics → Optics) (s : State) : (State.modOptics f s).mem = s.mem := rfl
@[simp] theorem State.modOptics_optics (f : Optics → Optics) (s : State) : (State.modOptics f s).optics = f s.optics := rfl
@[simp] theorem State.modOptics_link (f : Optics → Optics) (s : State) : (State.modOptics f s).link = s.link := rfl
@[simp] theorem State.modOptics_flue (f : Optics → Optics) (s : State) : (State.modOptics f s).flue = s.flue := rfl
@[simp] theorem State.modOptics_time (f : Optics → Optics) (s : State) : (State.modOptics f s).time = s.time := rfl
@[simp] theorem State.modOptics_kindle (f : Optics → Optics) (s : State) : (State.modOptics f s).kindle = s.kindle := rfl
@[simp] theorem State.modOptics_jobs (f : Optics → Optics) (s : State) : (State.modOptics f s).jobs = s.jobs := rfl
@[simp] theorem State.modOptics_hearth (f : Optics → Optics) (s : State) : (State.modOptics f s).hearth = s.hearth := rfl
@[simp] theorem State.modOptics_sec (f : Optics → Optics) (s : State) : (State.modOptics f s).sec = s.sec := rfl
@[simp] theorem State.modOptics_count (f : Optics → Optics) (s : State) : (State.modOptics f s).count = s.count := rfl
@[simp] theorem State.modOptics_power (f : Optics → Optics) (s : State) : (State.modOptics f s).power = s.power := rfl
@[simp] theorem State.modOptics_out (f : Optics → Optics) (s : State) : (State.modOptics f s).out = s.out := rfl
@[simp] theorem State.modOptics_free (f : Optics → Optics) (s : State) : (State.modOptics f s).free = s.free := rfl
@[simp] theorem State.modOptics_pending (f : Optics → Optics) (s : State) : (State.modOptics f s).pending = s.pending := rfl

@[simp] theorem State.modLink_routing (f : Link → Link) (s : State) : (State.modLink f s).routing = s.routing := rfl
@[simp] theorem State.modLink_core (f : Link → Link) (s : State) : (State.modLink f s).core = s.core := rfl
@[simp] theorem State.modLink_sched (f : Link → Link) (s : State) : (State.modLink f s).sched = s.sched := rfl
@[simp] theorem State.modLink_coll (f : Link → Link) (s : State) : (State.modLink f s).coll = s.coll := rfl
@[simp] theorem State.modLink_thresh (f : Link → Link) (s : State) : (State.modLink f s).thresh = s.thresh := rfl
@[simp] theorem State.modLink_mem (f : Link → Link) (s : State) : (State.modLink f s).mem = s.mem := rfl
@[simp] theorem State.modLink_optics (f : Link → Link) (s : State) : (State.modLink f s).optics = s.optics := rfl
@[simp] theorem State.modLink_link (f : Link → Link) (s : State) : (State.modLink f s).link = f s.link := rfl
@[simp] theorem State.modLink_flue (f : Link → Link) (s : State) : (State.modLink f s).flue = s.flue := rfl
@[simp] theorem State.modLink_time (f : Link → Link) (s : State) : (State.modLink f s).time = s.time := rfl
@[simp] theorem State.modLink_kindle (f : Link → Link) (s : State) : (State.modLink f s).kindle = s.kindle := rfl
@[simp] theorem State.modLink_jobs (f : Link → Link) (s : State) : (State.modLink f s).jobs = s.jobs := rfl
@[simp] theorem State.modLink_hearth (f : Link → Link) (s : State) : (State.modLink f s).hearth = s.hearth := rfl
@[simp] theorem State.modLink_sec (f : Link → Link) (s : State) : (State.modLink f s).sec = s.sec := rfl
@[simp] theorem State.modLink_count (f : Link → Link) (s : State) : (State.modLink f s).count = s.count := rfl
@[simp] theorem State.modLink_power (f : Link → Link) (s : State) : (State.modLink f s).power = s.power := rfl
@[simp] theorem State.modLink_out (f : Link → Link) (s : State) : (State.modLink f s).out = s.out := rfl
@[simp] theorem State.modLink_free (f : Link → Link) (s : State) : (State.modLink f s).free = s.free := rfl
@[simp] theorem State.modLink_pending (f : Link → Link) (s : State) : (State.modLink f s).pending = s.pending := rfl

@[simp] theorem State.modFlue_routing (f : Tab Circuit → Tab Circuit) (s : State) : (State.modFlue f s).routing = s.routing := rfl
@[simp] theorem State.modFlue_core (f : Tab Circuit → Tab Circuit) (s : State) : (State.modFlue f s).core = s.core := rfl
@[simp] theorem State.modFlue_sched (f : Tab Circuit → Tab Circuit) (s : State) : (State.modFlue f s).sched = s.sched := rfl
@[simp] theorem State.modFlue_coll (f : Tab Circuit → Tab Circuit) (s : State) : (State.modFlue f s).coll = s.coll := rfl
@[simp] theorem State.modFlue_thresh (f : Tab Circuit → Tab Circuit) (s : State) : (State.modFlue f s).thresh = s.thresh := rfl
@[simp] theorem State.modFlue_mem (f : Tab Circuit → Tab Circuit) (s : State) : (State.modFlue f s).mem = s.mem := rfl
@[simp] theorem State.modFlue_optics (f : Tab Circuit → Tab Circuit) (s : State) : (State.modFlue f s).optics = s.optics := rfl
@[simp] theorem State.modFlue_link (f : Tab Circuit → Tab Circuit) (s : State) : (State.modFlue f s).link = s.link := rfl
@[simp] theorem State.modFlue_flue (f : Tab Circuit → Tab Circuit) (s : State) : (State.modFlue f s).flue = f s.flue := rfl
@[simp] theorem State.modFlue_time (f : Tab Circuit → Tab Circuit) (s : State) : (State.modFlue f s).time = s.time := rfl
@[simp] theorem State.modFlue_kindle (f : Tab Circuit → Tab Circuit) (s : State) : (State.modFlue f s).kindle = s.kindle := rfl
@[simp] theorem State.modFlue_jobs (f : Tab Circuit → Tab Circuit) (s : State) : (State.modFlue f s).jobs = s.jobs := rfl
@[simp] theorem State.modFlue_hearth (f : Tab Circuit → Tab Circuit) (s : State) : (State.modFlue f s).hearth = s.hearth := rfl
@[simp] theorem State.modFlue_sec (f : Tab Circuit → Tab Circuit) (s : State) : (State.modFlue f s).sec = s.sec := rfl
@[simp] theorem State.modFlue_count (f : Tab Circuit → Tab Circuit) (s : State) : (State.modFlue f s).count = s.count := rfl
@[simp] theorem State.modFlue_power (f : Tab Circuit → Tab Circuit) (s : State) : (State.modFlue f s).power = s.power := rfl
@[simp] theorem State.modFlue_out (f : Tab Circuit → Tab Circuit) (s : State) : (State.modFlue f s).out = s.out := rfl
@[simp] theorem State.modFlue_free (f : Tab Circuit → Tab Circuit) (s : State) : (State.modFlue f s).free = s.free := rfl
@[simp] theorem State.modFlue_pending (f : Tab Circuit → Tab Circuit) (s : State) : (State.modFlue f s).pending = s.pending := rfl

@[simp] theorem State.modTime_routing (f : TimeSt → TimeSt) (s : State) : (State.modTime f s).routing = s.routing := rfl
@[simp] theorem State.modTime_core (f : TimeSt → TimeSt) (s : State) : (State.modTime f s).core = s.core := rfl
@[simp] theorem State.modTime_sched (f : TimeSt → TimeSt) (s : State) : (State.modTime f s).sched = s.sched := rfl
@[simp] theorem State.modTime_coll (f : TimeSt → TimeSt) (s : State) : (State.modTime f s).coll = s.coll := rfl
@[simp] theorem State.modTime_thresh (f : TimeSt → TimeSt) (s : State) : (State.modTime f s).thresh = s.thresh := rfl
@[simp] theorem State.modTime_mem (f : TimeSt → TimeSt) (s : State) : (State.modTime f s).mem = s.mem := rfl
@[simp] theorem State.modTime_optics (f : TimeSt → TimeSt) (s : State) : (State.modTime f s).optics = s.optics := rfl
@[simp] theorem State.modTime_link (f : TimeSt → TimeSt) (s : State) : (State.modTime f s).link = s.link := rfl
@[simp] theorem State.modTime_flue (f : TimeSt → TimeSt) (s : State) : (State.modTime f s).flue = s.flue := rfl
@[simp] theorem State.modTime_time (f : TimeSt → TimeSt) (s : State) : (State.modTime f s).time = f s.time := rfl
@[simp] theorem State.modTime_kindle (f : TimeSt → TimeSt) (s : State) : (State.modTime f s).kindle = s.kindle := rfl
@[simp] theorem State.modTime_jobs (f : TimeSt → TimeSt) (s : State) : (State.modTime f s).jobs = s.jobs := rfl
@[simp] theorem State.modTime_hearth (f : TimeSt → TimeSt) (s : State) : (State.modTime f s).hearth = s.hearth := rfl
@[simp] theorem State.modTime_sec (f : TimeSt → TimeSt) (s : State) : (State.modTime f s).sec = s.sec := rfl
@[simp] theorem State.modTime_count (f : TimeSt → TimeSt) (s : State) : (State.modTime f s).count = s.count := rfl
@[simp] theorem State.modTime_power (f : TimeSt → TimeSt) (s : State) : (State.modTime f s).power = s.power := rfl
@[simp] theorem State.modTime_out (f : TimeSt → TimeSt) (s : State) : (State.modTime f s).out = s.out := rfl
@[simp] theorem State.modTime_free (f : TimeSt → TimeSt) (s : State) : (State.modTime f s).free = s.free := rfl
@[simp] theorem State.modTime_pending (f : TimeSt → TimeSt) (s : State) : (State.modTime f s).pending = s.pending := rfl

@[simp] theorem State.modKindle_routing (f : Tab KEntry → Tab KEntry) (s : State) : (State.modKindle f s).routing = s.routing := rfl
@[simp] theorem State.modKindle_core (f : Tab KEntry → Tab KEntry) (s : State) : (State.modKindle f s).core = s.core := rfl
@[simp] theorem State.modKindle_sched (f : Tab KEntry → Tab KEntry) (s : State) : (State.modKindle f s).sched = s.sched := rfl
@[simp] theorem State.modKindle_coll (f : Tab KEntry → Tab KEntry) (s : State) : (State.modKindle f s).coll = s.coll := rfl
@[simp] theorem State.modKindle_thresh (f : Tab KEntry → Tab KEntry) (s : State) : (State.modKindle f s).thresh = s.thresh := rfl
@[simp] theorem State.modKindle_mem (f : Tab KEntry → Tab KEntry) (s : State) : (State.modKindle f s).mem = s.mem := rfl
@[simp] theorem State.modKindle_optics (f : Tab KEntry → Tab KEntry) (s : State) : (State.modKindle f s).optics = s.optics := rfl
@[simp] theorem State.modKindle_link (f : Tab KEntry → Tab KEntry) (s : State) : (State.modKindle f s).link = s.link := rfl
@[simp] theorem State.modKindle_flue (f : Tab KEntry → Tab KEntry) (s : State) : (State.modKindle f s).flue = s.flue := rfl
@[simp] theorem State.modKindle_time (f : Tab KEntry → Tab KEntry) (s : State) : (State.modKindle f s).time = s.time := rfl
@[simp] theorem State.modKindle_kindle (f : Tab KEntry → Tab KEntry) (s : State) : (State.modKindle f s).kindle = f s.kindle := rfl
@[simp] theorem State.modKindle_jobs (f : Tab KEntry → Tab KEntry) (s : State) : (State.modKindle f s).jobs = s.jobs := rfl
@[simp] theorem State.modKindle_hearth (f : Tab KEntry → Tab KEntry) (s : State) : (State.modKindle f s).hearth = s.hearth := rfl
@[simp] theorem State.modKindle_sec (f : Tab KEntry → Tab KEntry) (s : State) : (State.modKindle f s).sec = s.sec := rfl
@[simp] theorem State.modKindle_count (f : Tab KEntry → Tab KEntry) (s : State) : (State.modKindle f s).count = s.count := rfl
@[simp] theorem State.modKindle_power (f : Tab KEntry → Tab KEntry) (s : State) : (State.modKindle f s).power = s.power := rfl
@[simp] theorem State.modKindle_out (f : Tab KEntry → Tab KEntry) (s : State) : (State.modKindle f s).out = s.out := rfl
@[simp] theorem State.modKindle_free (f : Tab KEntry → Tab KEntry) (s : State) : (State.modKindle f s).free = s.free := rfl
@[simp] theorem State.modKindle_pending (f : Tab KEntry → Tab KEntry) (s : State) : (State.modKindle f s).pending = s.pending := rfl

@[simp] theorem State.modJobs_routing (f : Jobs → Jobs) (s : State) : (State.modJobs f s).routing = s.routing := rfl
@[simp] theorem State.modJobs_core (f : Jobs → Jobs) (s : State) : (State.modJobs f s).core = s.core := rfl
@[simp] theorem State.modJobs_sched (f : Jobs → Jobs) (s : State) : (State.modJobs f s).sched = s.sched := rfl
@[simp] theorem State.modJobs_coll (f : Jobs → Jobs) (s : State) : (State.modJobs f s).coll = s.coll := rfl
@[simp] theorem State.modJobs_thresh (f : Jobs → Jobs) (s : State) : (State.modJobs f s).thresh = s.thresh := rfl
@[simp] theorem State.modJobs_mem (f : Jobs → Jobs) (s : State) : (State.modJobs f s).mem = s.mem := rfl
@[simp] theorem State.modJobs_optics (f : Jobs → Jobs) (s : State) : (State.modJobs f s).optics = s.optics := rfl
@[simp] theorem State.modJobs_link (f : Jobs → Jobs) (s : State) : (State.modJobs f s).link = s.link := rfl
@[simp] theorem State.modJobs_flue (f : Jobs → Jobs) (s : State) : (State.modJobs f s).flue = s.flue := rfl
@[simp] theorem State.modJobs_time (f : Jobs → Jobs) (s : State) : (State.modJobs f s).time = s.time := rfl
@[simp] theorem State.modJobs_kindle (f : Jobs → Jobs) (s : State) : (State.modJobs f s).kindle = s.kindle := rfl
@[simp] theorem State.modJobs_jobs (f : Jobs → Jobs) (s : State) : (State.modJobs f s).jobs = f s.jobs := rfl
@[simp] theorem State.modJobs_hearth (f : Jobs → Jobs) (s : State) : (State.modJobs f s).hearth = s.hearth := rfl
@[simp] theorem State.modJobs_sec (f : Jobs → Jobs) (s : State) : (State.modJobs f s).sec = s.sec := rfl
@[simp] theorem State.modJobs_count (f : Jobs → Jobs) (s : State) : (State.modJobs f s).count = s.count := rfl
@[simp] theorem State.modJobs_power (f : Jobs → Jobs) (s : State) : (State.modJobs f s).power = s.power := rfl
@[simp] theorem State.modJobs_out (f : Jobs → Jobs) (s : State) : (State.modJobs f s).out = s.out := rfl
@[simp] theorem State.modJobs_free (f : Jobs → Jobs) (s : State) : (State.modJobs f s).free = s.free := rfl
@[simp] theorem State.modJobs_pending (f : Jobs → Jobs) (s : State) : (State.modJobs f s).pending = s.pending := rfl

@[simp] theorem State.modHearth_routing (f : Hearth → Hearth) (s : State) : (State.modHearth f s).routing = s.routing := rfl
@[simp] theorem State.modHearth_core (f : Hearth → Hearth) (s : State) : (State.modHearth f s).core = s.core := rfl
@[simp] theorem State.modHearth_sched (f : Hearth → Hearth) (s : State) : (State.modHearth f s).sched = s.sched := rfl
@[simp] theorem State.modHearth_coll (f : Hearth → Hearth) (s : State) : (State.modHearth f s).coll = s.coll := rfl
@[simp] theorem State.modHearth_thresh (f : Hearth → Hearth) (s : State) : (State.modHearth f s).thresh = s.thresh := rfl
@[simp] theorem State.modHearth_mem (f : Hearth → Hearth) (s : State) : (State.modHearth f s).mem = s.mem := rfl
@[simp] theorem State.modHearth_optics (f : Hearth → Hearth) (s : State) : (State.modHearth f s).optics = s.optics := rfl
@[simp] theorem State.modHearth_link (f : Hearth → Hearth) (s : State) : (State.modHearth f s).link = s.link := rfl
@[simp] theorem State.modHearth_flue (f : Hearth → Hearth) (s : State) : (State.modHearth f s).flue = s.flue := rfl
@[simp] theorem State.modHearth_time (f : Hearth → Hearth) (s : State) : (State.modHearth f s).time = s.time := rfl
@[simp] theorem State.modHearth_kindle (f : Hearth → Hearth) (s : State) : (State.modHearth f s).kindle = s.kindle := rfl
@[simp] theorem State.modHearth_jobs (f : Hearth → Hearth) (s : State) : (State.modHearth f s).jobs = s.jobs := rfl
@[simp] theorem State.modHearth_hearth (f : Hearth → Hearth) (s : State) : (State.modHearth f s).hearth = f s.hearth := rfl
@[simp] theorem State.modHearth_sec (f : Hearth → Hearth) (s : State) : (State.modHearth f s).sec = s.sec := rfl
@[simp] theorem State.modHearth_count (f : Hearth → Hearth) (s : State) : (State.modHearth f s).count = s.count := rfl
@[simp] theorem State.modHearth_power (f : Hearth → Hearth) (s : State) : (State.modHearth f s).power = s.power := rfl
@[simp] theorem State.modHearth_out (f : Hearth → Hearth) (s : State) : (State.modHearth f s).out = s.out := rfl
@[simp] theorem State.modHearth_free (f : Hearth → Hearth) (s : State) : (State.modHearth f s).free = s.free := rfl
@[simp] theorem State.modHearth_pending (f : Hearth → Hearth) (s : State) : (State.modHearth f s).pending = s.pending := rfl

@[simp] theorem State.modSec_routing (f : Sec → Sec) (s : State) : (State.modSec f s).routing = s.routing := rfl
@[simp] theorem State.modSec_core (f : Sec → Sec) (s : State) : (State.modSec f s).core = s.core := rfl
@[simp] theorem State.modSec_sched (f : Sec → Sec) (s : State) : (State.modSec f s).sched = s.sched := rfl
@[simp] theorem State.modSec_coll (f : Sec → Sec) (s : State) : (State.modSec f s).coll = s.coll := rfl
@[simp] theorem State.modSec_thresh (f : Sec → Sec) (s : State) : (State.modSec f s).thresh = s.thresh := rfl
@[simp] theorem State.modSec_mem (f : Sec → Sec) (s : State) : (State.modSec f s).mem = s.mem := rfl
@[simp] theorem State.modSec_optics (f : Sec → Sec) (s : State) : (State.modSec f s).optics = s.optics := rfl
@[simp] theorem State.modSec_link (f : Sec → Sec) (s : State) : (State.modSec f s).link = s.link := rfl
@[simp] theorem State.modSec_flue (f : Sec → Sec) (s : State) : (State.modSec f s).flue = s.flue := rfl
@[simp] theorem State.modSec_time (f : Sec → Sec) (s : State) : (State.modSec f s).time = s.time := rfl
@[simp] theorem State.modSec_kindle (f : Sec → Sec) (s : State) : (State.modSec f s).kindle = s.kindle := rfl
@[simp] theorem State.modSec_jobs (f : Sec → Sec) (s : State) : (State.modSec f s).jobs = s.jobs := rfl
@[simp] theorem State.modSec_hearth (f : Sec → Sec) (s : State) : (State.modSec f s).hearth = s.hearth := rfl
@[simp] theorem State.modSec_sec (f : Sec → Sec) (s : State) : (State.modSec f s).sec = f s.sec := rfl
@[simp] theorem State.modSec_count (f : Sec → Sec) (s : State) : (State.modSec f s).count = s.count := rfl
@[simp] theorem State.modSec_power (f : Sec → Sec) (s : State) : (State.modSec f s).power = s.power := rfl
@[simp] theorem State.modSec_out (f : Sec → Sec) (s : State) : (State.modSec f s).out = s.out := rfl
@[simp] theorem State.modSec_free (f : Sec → Sec) (s : State) : (State.modSec f s).free = s.free := rfl
@[simp] theorem State.modSec_pending (f : Sec → Sec) (s : State) : (State.modSec f s).pending = s.pending := rfl

@[simp] theorem State.modCount_routing (f : Count → Count) (s : State) : (State.modCount f s).routing = s.routing := rfl
@[simp] theorem State.modCount_core (f : Count → Count) (s : State) : (State.modCount f s).core = s.core := rfl
@[simp] theorem State.modCount_sched (f : Count → Count) (s : State) : (State.modCount f s).sched = s.sched := rfl
@[simp] theorem State.modCount_coll (f : Count → Count) (s : State) : (State.modCount f s).coll = s.coll := rfl
@[simp] theorem State.modCount_thresh (f : Count → Count) (s : State) : (State.modCount f s).thresh = s.thresh := rfl
@[simp] theorem State.modCount_mem (f : Count → Count) (s : State) : (State.modCount f s).mem = s.mem := rfl
@[simp] theorem State.modCount_optics (f : Count → Count) (s : State) : (State.modCount f s).optics = s.optics := rfl
@[simp] theorem State.modCount_link (f : Count → Count) (s : State) : (State.modCount f s).link = s.link := rfl
@[simp] theorem State.modCount_flue (f : Count → Count) (s : State) : (State.modCount f s).flue = s.flue := rfl
@[simp] theorem State.modCount_time (f : Count → Count) (s : State) : (State.modCount f s).time = s.time := rfl
@[simp] theorem State.modCount_kindle (f : Count → Count) (s : State) : (State.modCount f s).kindle = s.kindle := rfl
@[simp] theorem State.modCount_jobs (f : Count → Count) (s : State) : (State.modCount f s).jobs = s.jobs := rfl
@[simp] theorem State.modCount_hearth (f : Count → Count) (s : State) : (State.modCount f s).hearth = s.hearth := rfl
@[simp] theorem State.modCount_sec (f : Count → Count) (s : State) : (State.modCount f s).sec = s.sec := rfl
@[simp] theorem State.modCount_count (f : Count → Count) (s : State) : (State.modCount f s).count = f s.count := rfl
@[simp] theorem State.modCount_power (f : Count → Count) (s : State) : (State.modCount f s).power = s.power := rfl
@[simp] theorem State.modCount_out (f : Count → Count) (s : State) : (State.modCount f s).out = s.out := rfl
@[simp] theorem State.modCount_free (f : Count → Count) (s : State) : (State.modCount f s).free = s.free := rfl
@[simp] theorem State.modCount_pending (f : Count → Count) (s : State) : (State.modCount f s).pending = s.pending := rfl

@[simp] theorem State.modPower_routing (f : Power → Power) (s : State) : (State.modPower f s).routing = s.routing := rfl
@[simp] theorem State.modPower_core (f : Power → Power) (s : State) : (State.modPower f s).core = s.core := rfl
@[simp] theorem State.modPower_sched (f : Power → Power) (s : State) : (State.modPower f s).sched = s.sched := rfl
@[simp] theorem State.modPower_coll (f : Power → Power) (s : State) : (State.modPower f s).coll = s.coll := rfl
@[simp] theorem State.modPower_thresh (f : Power → Power) (s : State) : (State.modPower f s).thresh = s.thresh := rfl
@[simp] theorem State.modPower_mem (f : Power → Power) (s : State) : (State.modPower f s).mem = s.mem := rfl
@[simp] theorem State.modPower_optics (f : Power → Power) (s : State) : (State.modPower f s).optics = s.optics := rfl
@[simp] theorem State.modPower_link (f : Power → Power) (s : State) : (State.modPower f s).link = s.link := rfl
@[simp] theorem State.modPower_flue (f : Power → Power) (s : State) : (State.modPower f s).flue = s.flue := rfl
@[simp] theorem State.modPower_time (f : Power → Power) (s : State) : (State.modPower f s).time = s.time := rfl
@[simp] theorem State.modPower_kindle (f : Power → Power) (s : State) : (State.modPower f s).kindle = s.kindle := rfl
@[simp] theorem State.modPower_jobs (f : Power → Power) (s : State) : (State.modPower f s).jobs = s.jobs := rfl
@[simp] theorem State.modPower_hearth (f : Power → Power) (s : State) : (State.modPower f s).hearth = s.hearth := rfl
@[simp] theorem State.modPower_sec (f : Power → Power) (s : State) : (State.modPower f s).sec = s.sec := rfl
@[simp] theorem State.modPower_count (f : Power → Power) (s : State) : (State.modPower f s).count = s.count := rfl
@[simp] theorem State.modPower_power (f : Power → Power) (s : State) : (State.modPower f s).power = f s.power := rfl
@[simp] theorem State.modPower_out (f : Power → Power) (s : State) : (State.modPower f s).out = s.out := rfl
@[simp] theorem State.modPower_free (f : Power → Power) (s : State) : (State.modPower f s).free = s.free := rfl
@[simp] theorem State.modPower_pending (f : Power → Power) (s : State) : (State.modPower f s).pending = s.pending := rfl

end Sys2Proof.Machine
end

