-- ==== Sys2Proof/Laws/Tables.lean ====
section
/-! SUPPORT. What one key of a table reads after a change, for any table, sorted or not; and reading back the bytes written. -/

namespace Sys2Proof.Machine

/-- What a key reads after another value is listed at a key. -/
theorem tget_tput_any {α : Type} (d : α) (k j : Nat) (v : α) (t : Tab α) :
    tget (tput t k v) d j = if k = j then v else tget t d j := by
  induction t with
  | nil => simp [tput, tget]
  | cons p r ih =>
    obtain ⟨i, u⟩ := p
    simp only [tput]
    split
    · rename_i h
      simp only [tget, h]
      split <;> rfl
    · split
      · simp only [tget]
      · simp only [tget, ih]
        split
        · rw [if_neg (by omega)]
        · rfl

/-- What a key reads after a key is set. -/
theorem tget_tset_any {α : Type} [DecidableEq α] (t : Tab α) (d : α) (k j : Nat) (v : α) :
    tget (tset t d k v) d j = if k = j then v else tget t d j := by
  unfold tset
  by_cases h : v = d
  · rw [if_pos h, tdel, tget_filter t d (fun i => i != k) j]
    by_cases e : k = j
    · subst e; simp [h]
    · have : j ≠ k := fun x => e x.symm
      simp [e, this]
  · rw [if_neg h]
    exact tget_tput_any d k j v t

/-- What a byte reads after a write to any memory. -/
theorem tget_memWrite_any (bytes : List Byte) : ∀ (m : List Host.Cell) (a j : Nat),
    tget (memWrite m a bytes) (0 : Byte) j = if a ≤ j ∧ j < a + bytes.length then bytes.getD (j - a) 0 else tget m 0 j := by
  induction bytes with
  | nil => intro m a j; simp [memWrite]
  | cons b r ih =>
    intro m a j
    show tget (memWrite (tset m 0 a b) (a + 1) r) 0 j = _
    rw [ih, tget_tset_any]
    simp only [List.length_cons]
    by_cases e : a = j
    · subst e
      simp
    · by_cases c : a + 1 ≤ j ∧ j < a + 1 + r.length
      · have c2 : a ≤ j ∧ j < a + (r.length + 1) := by omega
        obtain ⟨n, hn⟩ : ∃ n, j - a = n + 1 := ⟨j - a - 1, by omega⟩
        have hm : j - (a + 1) = n := by omega
        rw [if_pos c, if_pos c2, hn, hm]; simp
      · have c2 : ¬(a ≤ j ∧ j < a + (r.length + 1)) := by omega
        rw [if_neg c, if_neg c2, if_neg e]

/-- The bytes written are read back. -/
theorem memRead_memWrite (m : List Host.Cell) (a : Nat) (bytes : List Byte) : memRead (memWrite m a bytes) a bytes.length = bytes := by
  unfold memRead
  apply List.ext_getElem
  · simp
  · intro i h1 h2
    simp only [List.getElem_map, List.getElem_range]
    rw [tget_memWrite_any, if_pos (by omega)]
    simp [List.getD_eq_getElem?_getD, h2]

end Sys2Proof.Machine
end

