-- ==== Sys2Proof/Laws/Effects.lean ====
section
/-! SUPPORT. What the shared operations do to the tables and registers they change. -/

namespace Sys2Proof.Machine

/-- Changing a key changes only it. -/
theorem tget_tmod {α : Type} [DecidableEq α] (t : Tab α) (d : α) (k j : Nat) (f : α → α) :
    tget (tmod t d k f) d j = if k = j then f (tget t d k) else tget t d j :=
  tget_tset_any t d k j _

/-- Writing consecutive entries changes only their keys. -/
theorem tget_putAll {α : Type} [DecidableEq α] (d : α) (l : List α) : ∀ (first : Nat) (t : Tab α) (j : Nat),
    tget (putAll d first l t) d j = if first ≤ j ∧ j < first + l.length then l.getD (j - first) d else tget t d j := by
  induction l with
  | nil => intro first t j; simp [putAll]
  | cons v r ih =>
    intro first t j
    rw [putAll, ih, tget_tset_any]
    by_cases h1 : first = j
    · subst h1; simp
    · by_cases h2 : first + 1 ≤ j ∧ j < first + 1 + r.length
      · have h3 : first ≤ j ∧ j < first + (v :: r).length := by simp only [List.length_cons]; omega
        have h4 : j - first = (j - (first + 1)) + 1 := by omega
        rw [if_pos h2, if_pos h3, h4, List.getD_cons_succ]
      · have h3 : ¬(first ≤ j ∧ j < first + (v :: r).length) := by simp only [List.length_cons]; omega
        rw [if_neg h2, if_neg h3, if_neg h1]

/-! ### What fetching an entry leaves as it was -/

/-- Fetching an entry changes only the ring, the count of entries taken up and URGENT_MAX_US. -/
theorem fetchEntry_eq (r : Nat) (s : State) :
    fetchEntry r s = { s with hearth := { s.hearth with
      rings := (fetchEntry r s).hearth.rings, taken := s.hearth.taken + 1,
      urgentMax := (fetchEntry r s).hearth.urgentMax } } := by
  by_cases h : r = 0 <;> simp only [fetchEntry, h, if_true, if_false] <;> rfl

/-- The same of the state in which an entry's checks are made. -/
theorem fetched_eq (i : Instr) (s : State) :
    fetched i s = { s with hearth := { s.hearth with
      rings := (fetched i s).hearth.rings, taken := (fetched i s).hearth.taken,
      urgentMax := (fetched i s).hearth.urgentMax } } := by
  unfold fetched
  split
  · rw [fetchEntry_eq]
  · rfl

@[simp] theorem fetched_routing (i : Instr) (s : State) : (fetched i s).routing = s.routing := by rw [fetched_eq]
@[simp] theorem fetched_core (i : Instr) (s : State) : (fetched i s).core = s.core := by rw [fetched_eq]
@[simp] theorem fetched_sched (i : Instr) (s : State) : (fetched i s).sched = s.sched := by rw [fetched_eq]
@[simp] theorem fetched_coll (i : Instr) (s : State) : (fetched i s).coll = s.coll := by rw [fetched_eq]
@[simp] theorem fetched_thresh (i : Instr) (s : State) : (fetched i s).thresh = s.thresh := by rw [fetched_eq]
@[simp] theorem fetched_mem (i : Instr) (s : State) : (fetched i s).mem = s.mem := by rw [fetched_eq]
@[simp] theorem fetched_optics (i : Instr) (s : State) : (fetched i s).optics = s.optics := by rw [fetched_eq]
@[simp] theorem fetched_link (i : Instr) (s : State) : (fetched i s).link = s.link := by rw [fetched_eq]
@[simp] theorem fetched_flue (i : Instr) (s : State) : (fetched i s).flue = s.flue := by rw [fetched_eq]
@[simp] theorem fetched_time (i : Instr) (s : State) : (fetched i s).time = s.time := by rw [fetched_eq]
@[simp] theorem fetched_kindle (i : Instr) (s : State) : (fetched i s).kindle = s.kindle := by rw [fetched_eq]
@[simp] theorem fetched_jobs (i : Instr) (s : State) : (fetched i s).jobs = s.jobs := by rw [fetched_eq]
@[simp] theorem fetched_sec (i : Instr) (s : State) : (fetched i s).sec = s.sec := by rw [fetched_eq]
@[simp] theorem fetched_count (i : Instr) (s : State) : (fetched i s).count = s.count := by rw [fetched_eq]
@[simp] theorem fetched_power (i : Instr) (s : State) : (fetched i s).power = s.power := by rw [fetched_eq]
@[simp] theorem fetched_out (i : Instr) (s : State) : (fetched i s).out = s.out := by rw [fetched_eq]
@[simp] theorem fetched_free (i : Instr) (s : State) : (fetched i s).free = s.free := by rw [fetched_eq]
@[simp] theorem fetched_pending (i : Instr) (s : State) : (fetched i s).pending = s.pending := by rw [fetched_eq]
@[simp] theorem fetched_hearth_fwVersion (i : Instr) (s : State) : (fetched i s).hearth.fwVersion = s.hearth.fwVersion := by rw [fetched_eq]
@[simp] theorem fetched_hearth_ifMin (i : Instr) (s : State) : (fetched i s).hearth.ifMin = s.hearth.ifMin := by rw [fetched_eq]
@[simp] theorem fetched_hearth_ifMax (i : Instr) (s : State) : (fetched i s).hearth.ifMax = s.hearth.ifMax := by rw [fetched_eq]
@[simp] theorem fetched_hearth_ifRequest (i : Instr) (s : State) : (fetched i s).hearth.ifRequest = s.hearth.ifRequest := by rw [fetched_eq]
@[simp] theorem fetched_hearth_ifActive (i : Instr) (s : State) : (fetched i s).hearth.ifActive = s.hearth.ifActive := by rw [fetched_eq]
@[simp] theorem fetched_hearth_ifValid (i : Instr) (s : State) : (fetched i s).hearth.ifValid = s.hearth.ifValid := by rw [fetched_eq]
@[simp] theorem fetched_hearth_reqIgnored (i : Instr) (s : State) : (fetched i s).hearth.reqIgnored = s.hearth.reqIgnored := by rw [fetched_eq]
@[simp] theorem fetched_hearth_selftest (i : Instr) (s : State) : (fetched i s).hearth.selftest = s.hearth.selftest := by rw [fetched_eq]
@[simp] theorem fetched_hearth_resetCause (i : Instr) (s : State) : (fetched i s).hearth.resetCause = s.hearth.resetCause := by rw [fetched_eq]
@[simp] theorem fetched_hearth_urgentPrev (i : Instr) (s : State) : (fetched i s).hearth.urgentPrev = s.hearth.urgentPrev := by rw [fetched_eq]
@[simp] theorem fetched_hearth_urgentBusy (i : Instr) (s : State) : (fetched i s).hearth.urgentBusy = s.hearth.urgentBusy := by rw [fetched_eq]
@[simp] theorem fetched_hearth_coreBusy (i : Instr) (s : State) : (fetched i s).hearth.coreBusy = s.hearth.coreBusy := by rw [fetched_eq]
@[simp] theorem fetched_hearth_latch (i : Instr) (s : State) : (fetched i s).hearth.latch = s.hearth.latch := by rw [fetched_eq]
@[simp] theorem fetched_hearth_latchUnset (i : Instr) (s : State) : (fetched i s).hearth.latchUnset = s.hearth.latchUnset := by rw [fetched_eq]
@[simp] theorem fetched_hearth_intStatus (i : Instr) (s : State) : (fetched i s).hearth.intStatus = s.hearth.intStatus := by rw [fetched_eq]
@[simp] theorem fetched_hearth_intMask (i : Instr) (s : State) : (fetched i s).hearth.intMask = s.hearth.intMask := by rw [fetched_eq]
@[simp] theorem fetched_hearth_msix (i : Instr) (s : State) : (fetched i s).hearth.msix = s.hearth.msix := by rw [fetched_eq]
@[simp] theorem fetched_hearth_pba (i : Instr) (s : State) : (fetched i s).hearth.pba = s.hearth.pba := by rw [fetched_eq]
@[simp] theorem fetched_hearth_ev (i : Instr) (s : State) : (fetched i s).hearth.ev = s.hearth.ev := by rw [fetched_eq]
@[simp] theorem fetched_hearth_hostMem (i : Instr) (s : State) : (fetched i s).hearth.hostMem = s.hearth.hostMem := by rw [fetched_eq]
@[simp] theorem fetched_hearth_localMem (i : Instr) (s : State) : (fetched i s).hearth.localMem = s.hearth.localMem := by rw [fetched_eq]
@[simp] theorem fetched_hearth_detached (i : Instr) (s : State) : (fetched i s).hearth.detached = s.hearth.detached := by rw [fetched_eq]
@[simp] theorem fetched_hearth_owed (i : Instr) (s : State) : (fetched i s).hearth.owed = s.hearth.owed := by rw [fetched_eq]
@[simp] theorem fetched_hearth_pendingReset (i : Instr) (s : State) : (fetched i s).hearth.pendingReset = s.hearth.pendingReset := by rw [fetched_eq]
@[simp] theorem fetched_hearth_ready (i : Instr) (s : State) : (fetched i s).hearth.ready = s.hearth.ready := by rw [fetched_eq]
@[simp] theorem fetched_hearth_inReset (i : Instr) (s : State) : (fetched i s).hearth.inReset = s.hearth.inReset := by rw [fetched_eq]
@[simp] theorem fetched_hearth_resetWhy (i : Instr) (s : State) : (fetched i s).hearth.resetWhy = s.hearth.resetWhy := by rw [fetched_eq]
@[simp] theorem fetched_hearth_switching (i : Instr) (s : State) : (fetched i s).hearth.switching = s.hearth.switching := by rw [fetched_eq]
@[simp] theorem fetched_hearth_bootSlot (i : Instr) (s : State) : (fetched i s).hearth.bootSlot = s.hearth.bootSlot := by rw [fetched_eq]
@[simp] theorem fetched_hearth_committed (i : Instr) (s : State) : (fetched i s).hearth.committed = s.hearth.committed := by rw [fetched_eq]
@[simp] theorem fetched_hearth_commitPending (i : Instr) (s : State) : (fetched i s).hearth.commitPending = s.hearth.commitPending := by rw [fetched_eq]
@[simp] theorem fetched_hearth_slots (i : Instr) (s : State) : (fetched i s).hearth.slots = s.hearth.slots := by rw [fetched_eq]
@[simp] theorem fetched_hearth_hopLimit (i : Instr) (s : State) : (fetched i s).hearth.hopLimit = s.hearth.hopLimit := by rw [fetched_eq]
@[simp] theorem fetched_hearth_endpointId (i : Instr) (s : State) : (fetched i s).hearth.endpointId = s.hearth.endpointId := by rw [fetched_eq]

end Sys2Proof.Machine
end

