-- ==== Sys2Proof/Laws/KeepsEntries.lean ====
section
/-! SUPPORT. What the operations of Machine/Entries.lean keep. -/

namespace Sys2Proof.Machine

theorem unknownEntry_keeps {s0 : State} : ∀ x0 s, Keeps s0 s → Keeps s0 (unknownEntry x0 s) := by
  intro x0 s h
  unfold unknownEntry
  try dsimp only
  repeat' first
    | with_reducible exact h | (intro) | with_reducible apply fetchEntry_keeps
    | with_reducible apply writeCompletion_keeps

theorem entryTook_keeps {s0 : State} : ∀ s, Keeps s0 s → Keeps s0 (entryTook s) := by
  intro s h
  unfold entryTook
  try dsimp only
  repeat' first
    | with_reducible exact h | (intro) | with_reducible apply State.tookMany_keeps

end Sys2Proof.Machine
end

