-- ==== Sys2Proof/Laws/Entries.lean ====
section
/-! SUPPORT. What the entries of a ring's command area spell. -/

namespace Sys2Proof.Machine

/-- An entry's block is a block of its header (R352). -/
theorem entry_argsOk (s : State) (n : Nat) (r : Fin 4) (m : List Word) :
    (entryHdr r m).argsOk (entryArgs s n (entryHdr r m) m) = true := by
  unfold CmdHdr.argsOk entryArgs
  split
  · simp [*, List.length_take]
  · rename_i i e
    simp only [e]
    split
    · rename_i ok
      simp only [List.length_map, List.length_range, decide_eq_true_eq]
      omega
    · rfl

/-- The command of an opcode is a command of the block where its block is one. -/
theorem commandOf_wf {s : State} {op : Nat} {h : CmdHdr} {args : List Word} {i : Instr} (k : h.argsOk args = true)
    (e : commandOf s op h args = some i) : i.wf = true := by
  unfold commandOf at e
  split at e <;> first | (cases e; exact k) | cases e

/-- An entry is never refused as no command. -/
theorem entryCommand_wf {s : State} {r : Fin 4} {i : Instr} (e : entryCommand s r = some i) : i.wf = true :=
  commandOf_wf (entry_argsOk s r r _) e

end Sys2Proof.Machine
end

