-- ==== Sys2Proof/Laws/PerInstr.lean ====
section
/-! SUPPORT. The family F: what holds of every command as syntax. -/

namespace Sys2Proof.Laws.F

open Sys2Proof.Machine

/-- A row that is a mailbox entry is well formed exactly where its block fits its header, has an opcode of chapters 3 to 17 that is not
0 in its low byte, and runs on one ring, or on any (4). -/
def Statement (i : Instr) : Prop :=
  ∀ m, mailCmd i = some m → i.wf = m.hdr.argsOk m.args ∧ 3 ≤ m.spec.op / 256 ∧ m.spec.op / 256 ≤ 17 ∧ 1 ≤ m.spec.op % 256 ∧
    m.spec.ring ≤ 4

theorem entry {i : Instr} {sp : CmdSpec} {h : CmdHdr} {args : List Word} {n : Nat} (e : mailCmd i = some ⟨sp, h, args, n⟩)
    (w : i.wf = h.argsOk args) (k : 3 ≤ sp.op / 256 ∧ sp.op / 256 ≤ 17 ∧ 1 ≤ sp.op % 256 ∧ sp.ring ≤ 4) : Statement i := by
  intro m hm
  rw [e] at hm
  cases hm
  exact ⟨w, k⟩

theorem plain {i : Instr} (e : mailCmd i = none) : Statement i := by
  intro m hm
  rw [e] at hm
  cases hm

theorem routeWrite (h : CmdHdr) (args : List Word) : Statement (.routeWrite h args) := entry rfl rfl (by decide)
theorem routeRead (h : CmdHdr) (args : List Word) : Statement (.routeRead h args) := entry rfl rfl (by decide)
theorem routeSeal (h : CmdHdr) (args : List Word) : Statement (.routeSeal h args) := entry rfl rfl (by decide)
theorem routeUnseal (h : CmdHdr) (args : List Word) : Statement (.routeUnseal h args) := entry rfl rfl (by decide)
theorem routeCommit (h : CmdHdr) (args : List Word) : Statement (.routeCommit h args) := entry rfl rfl (by decide)
theorem routeConfig (h : CmdHdr) (args : List Word) : Statement (.routeConfig h args) := entry rfl rfl (by decide)
theorem endpointWrite (h : CmdHdr) (args : List Word) : Statement (.endpointWrite h args) := entry rfl rfl (by decide)
theorem endpointFlush (h : CmdHdr) (args : List Word) : Statement (.endpointFlush h args) := entry rfl rfl (by decide)
theorem endpointRead (h : CmdHdr) (args : List Word) : Statement (.endpointRead h args) := entry rfl rfl (by decide)
theorem bundleWrite (h : CmdHdr) (args : List Word) : Statement (.bundleWrite h args) := entry rfl rfl (by decide)
theorem treeWrite (h : CmdHdr) (args : List Word) : Statement (.treeWrite h args) := entry rfl rfl (by decide)
theorem coreBuf (h : CmdHdr) (args : List Word) : Statement (.coreBuf h args) := entry rfl rfl (by decide)
theorem coreCredit (h : CmdHdr) (args : List Word) : Statement (.coreCredit h args) := entry rfl rfl (by decide)
theorem coreSpill (h : CmdHdr) (args : List Word) : Statement (.coreSpill h args) := entry rfl rfl (by decide)
theorem floorConfig (h : CmdHdr) (args : List Word) : Statement (.floorConfig h args) := entry rfl rfl (by decide)
theorem floorPlaneRestore (h : CmdHdr) (args : List Word) : Statement (.floorPlaneRestore h args) := entry rfl rfl (by decide)
theorem coreQueueRead (h : CmdHdr) (args : List Word) : Statement (.coreQueueRead h args) := entry rfl rfl (by decide)
theorem shaperWrite (h : CmdHdr) (args : List Word) : Statement (.shaperWrite h args) := entry rfl rfl (by decide)
theorem shaperBankSet (h : CmdHdr) (args : List Word) : Statement (.shaperBankSet h args) := entry rfl rfl (by decide)
theorem policerWrite (h : CmdHdr) (args : List Word) : Statement (.policerWrite h args) := entry rfl rfl (by decide)
theorem portSchedRead (h : CmdHdr) (args : List Word) : Statement (.portSchedRead h args) := entry rfl rfl (by decide)
theorem ctxCreate (h : CmdHdr) (args : List Word) : Statement (.ctxCreate h args) := entry rfl rfl (by decide)
theorem ctxAbort (h : CmdHdr) (args : List Word) : Statement (.ctxAbort h args) := entry rfl rfl (by decide)
theorem ctxRearm (h : CmdHdr) (args : List Word) : Statement (.ctxRearm h args) := entry rfl rfl (by decide)
theorem ctxSubstitute (h : CmdHdr) (args : List Word) : Statement (.ctxSubstitute h args) := entry rfl rfl (by decide)
theorem ctxDestroy (h : CmdHdr) (args : List Word) : Statement (.ctxDestroy h args) := entry rfl rfl (by decide)
theorem ctxStatusRead (h : CmdHdr) (args : List Word) : Statement (.ctxStatusRead h args) := entry rfl rfl (by decide)
theorem ctxRead (h : CmdHdr) (args : List Word) : Statement (.ctxRead h args) := entry rfl rfl (by decide)
theorem ctxBranchRead (h : CmdHdr) (args : List Word) : Statement (.ctxBranchRead h args) := entry rfl rfl (by decide)
theorem ctxResendBranch (h : RereadHdr) (args : List Word) : Statement (.ctxResendBranch h args) := entry rfl rfl (by decide)
theorem tuStatusRead (h : CmdHdr) (args : List Word) : Statement (.tuStatusRead h args) := entry rfl rfl (by decide)
theorem tuFence (h : CmdHdr) (args : List Word) : Statement (.tuFence h args) := entry rfl rfl (by decide)
theorem tuUnfence (h : CmdHdr) (args : List Word) : Statement (.tuUnfence h args) := entry rfl rfl (by decide)
theorem harvestGroupWrite (h : CmdHdr) (args : List Word) : Statement (.harvestGroupWrite h args) := entry rfl rfl (by decide)
theorem harvestGroupRead (h : CmdHdr) (args : List Word) : Statement (.harvestGroupRead h args) := entry rfl rfl (by decide)
theorem harvestRun (h : CmdHdr) (args : List Word) : Statement (.harvestRun h args) := entry rfl rfl (by decide)
theorem harvestAbort (h : CmdHdr) (args : List Word) : Statement (.harvestAbort h args) := entry rfl rfl (by decide)
theorem normPass (h : CmdHdr) (args : List Word) : Statement (.normPass h args) := entry rfl rfl (by decide)
theorem memWindowWrite (h : CmdHdr) (args : List Word) : Statement (.memWindowWrite h args) := entry rfl rfl (by decide)
theorem memWindowRead (h : CmdHdr) (args : List Word) : Statement (.memWindowRead h args) := entry rfl rfl (by decide)
theorem memPool (h : CmdHdr) (args : List Word) : Statement (.memPool h args) := entry rfl rfl (by decide)
theorem memLoft (h : CmdHdr) (args : List Word) : Statement (.memLoft h args) := entry rfl rfl (by decide)
theorem memScratch (h : CmdHdr) (args : List Word) : Statement (.memScratch h args) := entry rfl rfl (by decide)
theorem memHintWrite (h : CmdHdr) (args : List Word) : Statement (.memHintWrite h args) := entry rfl rfl (by decide)
theorem memBar2Map (h : CmdHdr) (args : List Word) : Statement (.memBar2Map h args) := entry rfl rfl (by decide)
theorem memMove (h : CmdHdr) (args : List Word) : Statement (.memMove h args) := entry rfl rfl (by decide)
theorem memArbConfig (h : CmdHdr) (args : List Word) : Statement (.memArbConfig h args) := entry rfl rfl (by decide)
theorem memThermal (h : CmdHdr) (args : List Word) : Statement (.memThermal h args) := entry rfl rfl (by decide)
theorem memHold (h : CmdHdr) (args : List Word) : Statement (.memHold h args) := entry rfl rfl (by decide)
theorem memRelease (h : CmdHdr) (args : List Word) : Statement (.memRelease h args) := entry rfl rfl (by decide)
theorem memMargin (h : CmdHdr) (args : List Word) : Statement (.memMargin h args) := entry rfl rfl (by decide)
theorem memSiloDetach (h : CmdHdr) (args : List Word) : Statement (.memSiloDetach h args) := entry rfl rfl (by decide)
theorem memStatusRead (h : CmdHdr) (args : List Word) : Statement (.memStatusRead h args) := entry rfl rfl (by decide)
theorem laneStatusRead (h : CmdHdr) (args : List Word) : Statement (.laneStatusRead h args) := entry rfl rfl (by decide)
theorem kilnStatusRead (h : CmdHdr) (args : List Word) : Statement (.kilnStatusRead h args) := entry rfl rfl (by decide)
theorem calConfig (h : CmdHdr) (args : List Word) : Statement (.calConfig h args) := entry rfl rfl (by decide)
theorem calLane (h : CmdHdr) (args : List Word) (test : SliceTest) : Statement (.calLane h args test) := entry rfl rfl (by decide)
theorem laneBank (h : CmdHdr) (args : List Word) : Statement (.laneBank h args) := entry rfl rfl (by decide)
theorem laneUnbank (h : CmdHdr) (args : List Word) : Statement (.laneUnbank h args) := entry rfl rfl (by decide)
theorem kilnSwap (h : CmdHdr) (args : List Word) : Statement (.kilnSwap h args) := entry rfl rfl (by decide)
theorem portConfig (h : CmdHdr) (args : List Word) : Statement (.portConfig h args) := entry rfl rfl (by decide)
theorem linkStatusRead (h : CmdHdr) (args : List Word) : Statement (.linkStatusRead h args) := entry rfl rfl (by decide)
theorem flueOpen (h : CmdHdr) (args : List Word) (meas : FlueMeas) : Statement (.flueOpen h args meas) := entry rfl rfl (by decide)
theorem flueSwitch (h : CmdHdr) (args : List Word) : Statement (.flueSwitch h args) := entry rfl rfl (by decide)
theorem flueClose (h : CmdHdr) (args : List Word) : Statement (.flueClose h args) := entry rfl rfl (by decide)
theorem flueStatusRead (h : CmdHdr) (args : List Word) : Statement (.flueStatusRead h args) := entry rfl rfl (by decide)
theorem timeConfig (h : CmdHdr) (args : List Word) : Statement (.timeConfig h args) := entry rfl rfl (by decide)
theorem timePortConfig (h : CmdHdr) (args : List Word) : Statement (.timePortConfig h args) := entry rfl rfl (by decide)
theorem timeSource (h : CmdHdr) (args : List Word) : Statement (.timeSource h args) := entry rfl rfl (by decide)
theorem timeSet (h : CmdHdr) (args : List Word) : Statement (.timeSet h args) := entry rfl rfl (by decide)
theorem timeStepAccept (h : CmdHdr) (args : List Word) : Statement (.timeStepAccept h args) := entry rfl rfl (by decide)
theorem timeStepDismiss (h : CmdHdr) (args : List Word) : Statement (.timeStepDismiss h args) := entry rfl rfl (by decide)
theorem timeStatusRead (h : CmdHdr) (args : List Word) : Statement (.timeStatusRead h args) := entry rfl rfl (by decide)
theorem captureConfig (h : CmdHdr) (args : List Word) : Statement (.captureConfig h args) := entry rfl rfl (by decide)
theorem kindleArm (h : CmdHdr) (args : List Word) : Statement (.kindleArm h args) := entry rfl rfl (by decide)
theorem kindleDisarm (h : CmdHdr) (args : List Word) : Statement (.kindleDisarm h args) := entry rfl rfl (by decide)
theorem kindleRead (h : CmdHdr) (args : List Word) : Statement (.kindleRead h args) := entry rfl rfl (by decide)
theorem partCreate (h : CmdHdr) (args : List Word) : Statement (.partCreate h args) := entry rfl rfl (by decide)
theorem partQuota (h : CmdHdr) (args : List Word) : Statement (.partQuota h args) := entry rfl rfl (by decide)
theorem partRetire (h : CmdHdr) (args : List Word) : Statement (.partRetire h args) := entry rfl rfl (by decide)
theorem partStatusRead (h : CmdHdr) (args : List Word) : Statement (.partStatusRead h args) := entry rfl rfl (by decide)
theorem partPortSet (h : CmdHdr) (args : List Word) : Statement (.partPortSet h args) := entry rfl rfl (by decide)
theorem partAllowWrite (h : CmdHdr) (args : List Word) : Statement (.partAllowWrite h args) := entry rfl rfl (by decide)
theorem seedDefine (h : CmdHdr) (args : List Word) : Statement (.seedDefine h args) := entry rfl rfl (by decide)
theorem seedFree (h : CmdHdr) (args : List Word) : Statement (.seedFree h args) := entry rfl rfl (by decide)
theorem seedRead (h : CmdHdr) (args : List Word) : Statement (.seedRead h args) := entry rfl rfl (by decide)
theorem deviceReset (h : CmdHdr) (args : List Word) : Statement (.deviceReset h args) := entry rfl rfl (by decide)
theorem halfReset (h : CmdHdr) (args : List Word) : Statement (.halfReset h args) := entry rfl rfl (by decide)
theorem barnReset (h : CmdHdr) (args : List Word) : Statement (.barnReset h args) := entry rfl rfl (by decide)
theorem laneReset (h : CmdHdr) (args : List Word) : Statement (.laneReset h args) := entry rfl rfl (by decide)
theorem hearthReset (h : CmdHdr) (args : List Word) : Statement (.hearthReset h args) := entry rfl rfl (by decide)
theorem partScrubConfig (h : CmdHdr) (args : List Word) : Statement (.partScrubConfig h args) := entry rfl rfl (by decide)
theorem mbxNop (h : CmdHdr) (args : List Word) : Statement (.mbxNop h args) := entry rfl rfl (by decide)
theorem deviceConfig (h : CmdHdr) (args : List Word) : Statement (.deviceConfig h args) := entry rfl rfl (by decide)
theorem endpointIdSet (h : CmdHdr) (args : List Word) : Statement (.endpointIdSet h args) := entry rfl rfl (by decide)
theorem fwLoad (h : CmdHdr) (args : List Word) : Statement (.fwLoad h args) := entry rfl rfl (by decide)
theorem fwActivate (h : CmdHdr) (args : List Word) (starts : Bool) : Statement (.fwActivate h args starts) := entry rfl rfl (by decide)
theorem fwCommit (h : CmdHdr) (args : List Word) : Statement (.fwCommit h args) := entry rfl rfl (by decide)
theorem fwStatusRead (h : CmdHdr) (args : List Word) : Statement (.fwStatusRead h args) := entry rfl rfl (by decide)
theorem attestReport (h : CmdHdr) (args : List Word) : Statement (.attestReport h args) := entry rfl rfl (by decide)
theorem tagWrite (h : CmdHdr) (args : List Word) : Statement (.tagWrite h args) := entry rfl rfl (by decide)
theorem tagRead (h : CmdHdr) (args : List Word) : Statement (.tagRead h args) := entry rfl rfl (by decide)
theorem lifecycleAdvance (h : CmdHdr) (args : List Word) : Statement (.lifecycleAdvance h args) := entry rfl rfl (by decide)
theorem returnAuthorise (h : CmdHdr) (args : List Word) : Statement (.returnAuthorise h args) := entry rfl rfl (by decide)
theorem debugUnlock (h : CmdHdr) (args : List Word) : Statement (.debugUnlock h args) := entry rfl rfl (by decide)
theorem calUserWrite (h : CmdHdr) (args : List Word) : Statement (.calUserWrite h args) := entry rfl rfl (by decide)
theorem calUserRead (h : CmdHdr) (args : List Word) : Statement (.calUserRead h args) := entry rfl rfl (by decide)
theorem faultLogRead (h : CmdHdr) (args : List Word) : Statement (.faultLogRead h args) := entry rfl rfl (by decide)
theorem tallyConfig (h : CmdHdr) (args : List Word) : Statement (.tallyConfig h args) := entry rfl rfl (by decide)
theorem tallyLatch (h : CmdHdr) (args : List Word) : Statement (.tallyLatch h args) := entry rfl rfl (by decide)
theorem counterRead (h : CmdHdr) (args : List Word) : Statement (.counterRead h args) := entry rfl rfl (by decide)
theorem traceConfig (h : CmdHdr) (args : List Word) : Statement (.traceConfig h args) := entry rfl rfl (by decide)
theorem powerStatusRead (h : CmdHdr) (args : List Word) : Statement (.powerStatusRead h args) := entry rfl rfl (by decide)
theorem cmdTailWrite (ring : Fin 4) (value : Word) : Statement (.cmdTailWrite ring value) := plain rfl
theorem cplHeadWrite (ring : Fin 4) (value : Word) : Statement (.cplHeadWrite ring value) := plain rfl
theorem ringEnable (ring : Fin 4) (value : Word) : Statement (.ringEnable ring value) := plain rfl
theorem ringDisable (ring : Fin 4) (value : Word) : Statement (.ringDisable ring value) := plain rfl
theorem eventRingEnable (value : Word) : Statement (.eventRingEnable value) := plain rfl
theorem evHeadWrite (value : Word) : Statement (.evHeadWrite value) := plain rfl
theorem evLostRead : Statement .evLostRead := plain rfl
theorem hearthLoadRead : Statement .hearthLoadRead := plain rfl
theorem ifRequestWrite (value : Word) : Statement (.ifRequestWrite value) := plain rfl
theorem latch (value : Word) : Statement (.latch value) := plain rfl
theorem registerWrite (access : RegAccess) (value : Word) : Statement (.registerWrite access value) := plain rfl
theorem bar2Write (offset : Fin 268435456) (bytes : List Byte) : Statement (.bar2Write offset bytes) := plain rfl
theorem bar2Read (offset : Fin 268435456) (len : Nat) (ue : Bool) : Statement (.bar2Read offset len ue) := plain rfl
theorem rcvStart (value : Word) : Statement (.rcvStart value) := plain rfl
theorem pcieReset (kind : PcieReset) : Statement (.pcieReset kind) := plain rfl
theorem packetHeaderRx (lane : Fin 1024) (hdr : HeaderRead) : Statement (.packetHeaderRx lane hdr) := plain rfl
theorem packetTrailerRx (lane : Fin 1024) (rest : List Byte) : Statement (.packetTrailerRx lane rest) := plain rfl
theorem termWrite (port : Fin 1024) (pkt : Packet) : Statement (.termWrite port pkt) := plain rfl
theorem termRead (port : Fin 1024) (pkt : Packet) (ue : Bool) : Statement (.termRead port pkt ue) := plain rfl
theorem sheafArrival (port : Fin 1024) (sheaf : SheafRx) : Statement (.sheafArrival port sheaf) := plain rfl
theorem resultAck (port : Fin 1024) (pkt : Packet) : Statement (.resultAck port pkt) := plain rfl
theorem resultNak (port : Fin 1024) (pkt : Packet) (copyFails : Bool) : Statement (.resultNak port pkt copyFails) := plain rfl
theorem relayResultRx (port : Fin 1024) (pkt : Packet) : Statement (.relayResultRx port pkt) := plain rfl
theorem upstreamNoticeRx (port : Fin 1024) (pkt : Packet) : Statement (.upstreamNoticeRx port pkt) := plain rfl
theorem controlPkt (port : Fin 1024) (pkt : Packet) : Statement (.controlPkt port pkt) := plain rfl
theorem termUnexpected (port : Fin 1024) (pkt : Packet) : Statement (.termUnexpected port pkt) := plain rfl
theorem timePacketRx (lane : Fin 1024) (pkt : Packet) : Statement (.timePacketRx lane pkt) := plain rfl
theorem flitRx (lane : Fin 1024) (bytes : List Byte) (outcome : FlitEnd) : Statement (.flitRx lane bytes outcome) := plain rfl
theorem nakResendTimer (lane : Fin 1024) : Statement (.nakResendTimer lane) := plain rfl
theorem replayTimeout (lane : Fin 1024) : Statement (.replayTimeout lane) := plain rfl
theorem linkRetryExhausted (lane : Fin 1024) : Statement (.linkRetryExhausted lane) := plain rfl
theorem fecExit (lane : Fin 1024) : Statement (.fecExit lane) := plain rfl
theorem frameLoss (lane : Fin 1024) : Statement (.frameLoss lane) := plain rfl
theorem lossOfSignal (lane : Fin 1024) : Statement (.lossOfSignal lane) := plain rfl
theorem markerSend (lane : Fin 1024) : Statement (.markerSend lane) := plain rfl
theorem alignmentSlotRx (lane : Fin 1024) (bytes : List Byte) : Statement (.alignmentSlotRx lane bytes) := plain rfl
theorem txFault (lane : Fin 1024) : Statement (.txFault lane) := plain rfl
theorem wdReq (lane : Fin 1024) (kind : WdKind) (mtag : BitVec 16) : Statement (.wdReq lane kind mtag) := plain rfl
theorem wdGrant (lane : Fin 1024) (mtag : BitVec 16) : Statement (.wdGrant lane mtag) := plain rfl
theorem wdRefuse (lane : Fin 1024) (mtag : BitVec 16) (reason : Byte) : Statement (.wdRefuse lane mtag reason) := plain rfl
theorem rehomeReq (lane : Fin 1024) (mtag : BitVec 16) : Statement (.rehomeReq lane mtag) := plain rfl
theorem rehomeAck (lane : Fin 1024) (answer : RehomeAnswer) : Statement (.rehomeAck lane answer) := plain rfl
theorem trainingStart (lane : Fin 1024) : Statement (.trainingStart lane) := plain rfl
theorem trainFail (lane : Fin 1024) (cause : TrainFailCause) : Statement (.trainFail lane cause) := plain rfl
theorem trainingRestart (lane : Fin 1024) : Statement (.trainingRestart lane) := plain rfl
theorem trainingComplete (lane : Fin 1024) (far : FarEnd) : Statement (.trainingComplete lane far) := plain rfl
theorem shortRetrain (lane : Fin 1024) (result : Retrained) (resonance : Nat) : Statement (.shortRetrain lane result resonance) := plain rfl
theorem egressUnderrunAbort (lane : Fin 1024) : Statement (.egressUnderrunAbort lane) := plain rfl
theorem floorSlot : Statement .floorSlot := plain rfl
theorem cellBundleArrival (plane : Fin 4) (src dst : Fin 16) (ok : Bool) : Statement (.cellBundleArrival plane src dst ok) := plain rfl
theorem bundleAckTimeout (plane : Fin 4) (src dst : Fin 16) : Statement (.bundleAckTimeout plane src dst) := plain rfl
theorem spillRefill (barn : Fin 16) : Statement (.spillRefill barn) := plain rfl
theorem egressSelect (sel : Selection) : Statement (.egressSelect sel) := plain rfl
theorem refillInstant : Statement .refillInstant := plain rfl
theorem gleanerAudit (barn : Fin 16) : Statement (.gleanerAudit barn) := plain rfl
theorem learnUpdate (half : Fin 2) : Statement (.learnUpdate half) := plain rfl
theorem ageingVisit (half : Fin 2) : Statement (.ageingVisit half) := plain rfl
theorem tableParityRepair (half : Fin 2) (table : TableKind) (index : Nat) (step : ParityStep) : Statement (.tableParityRepair half table index step) := plain rfl
theorem drainWindowEnd : Statement .drainWindowEnd := plain rfl
theorem bridgeChannelFail (sender : Fin 2) (channel : Fin 512) (timeout : Bool) : Statement (.bridgeChannelFail sender channel timeout) := plain rfl
theorem resultFormed (ctx : Fin 4096) (index : Nat) : Statement (.resultFormed ctx index) := plain rfl
theorem winnowCompare (ctx : Fin 4096) (index : Nat) (verdict : WinnowVerdict) : Statement (.winnowCompare ctx index verdict) := plain rfl
theorem residueFault (unit : Fin 64) (work : ResidueWork) (redoFaults : Bool) : Statement (.residueFault unit work redoFaults) := plain rfl
theorem retainStallResume (ctx : Fin 4096) : Statement (.retainStallResume ctx) := plain rfl
theorem stallTimer (ctx : Fin 4096) (index : Nat) : Statement (.stallTimer ctx index) := plain rfl
theorem retainExpired (ctx : Fin 4096) (index : Nat) : Statement (.retainExpired ctx index) := plain rfl
theorem retentionScrub (ctx : Fin 4096) (index : Nat) (fails : Bool) : Statement (.retentionScrub ctx index fails) := plain rfl
theorem stagingMove (read : StagingRead) : Statement (.stagingMove read) := plain rfl
theorem harvestChunk (harvest : BitVec 16) (group : Fin 1024) (chunk : Nat) (event : ChunkEvent) : Statement (.harvestChunk harvest group chunk event) := plain rfl
theorem normPassDone (pass : Fin 4) (ue : Option Nat) : Statement (.normPassDone pass ue) := plain rfl
theorem memMoveDone (move : Fin 16) (ue : Option Nat) : Statement (.memMoveDone move ue) := plain rfl
theorem burstBoundary (chan : Fin 282) (requests : BitVec 11) : Statement (.burstBoundary chan requests) := plain rfl
theorem chanWatchdog (chan : Fin 282) (work : Watched) : Statement (.chanWatchdog chan work) := plain rfl
theorem stackThermalRead (source : Fin 32) (temp : Nat) : Statement (.stackThermalRead source temp) := plain rfl
theorem patrolScrub (site : EccSite) (corrected : Bool) : Statement (.patrolScrub site corrected) := plain rfl
theorem scrubGranule : Statement .scrubGranule := plain rfl
theorem granaryInService (barnStore : Bool) (failed : Option (Fin 8 × Fin 32)) : Statement (.granaryInService barnStore failed) := plain rfl
theorem siloLinkFail (port : Fin 2) : Statement (.siloLinkFail port) := plain rfl
theorem calSliceStart (barn : Fin 16) (slice : Fin 64) (test : SliceTest) : Statement (.calSliceStart barn slice test) := plain rfl
theorem lockLost (lost : LostLock) : Statement (.lockLost lost) := plain rfl
theorem laserReading (laser : Fin 80) (reading : Int) : Statement (.laserReading laser reading) := plain rfl
theorem kilnSwapStart (half : Fin 2) : Statement (.kilnSwapStart half) := plain rfl
theorem flueReadyRetune (circuit : Fin 128) (meas : FlueMeas) : Statement (.flueReadyRetune circuit meas) := plain rfl
theorem flueRetuneNotice (circuit : Fin 128) : Statement (.flueRetuneNotice circuit) := plain rfl
theorem flueRetune (circuit : Fin 128) (meas : FlueMeas) : Statement (.flueRetune circuit meas) := plain rfl
theorem flueLos (circuit : Fin 128) (sideB : Bool) : Statement (.flueLos circuit sideB) := plain rfl
theorem ptpSyncSend (port : Fin 1024) : Statement (.ptpSyncSend port) := plain rfl
theorem ptpDelayReqSend (port : Fin 1024) : Statement (.ptpDelayReqSend port) := plain rfl
theorem ptpAnnounceSend (port : Fin 1024) : Statement (.ptpAnnounceSend port) := plain rfl
theorem holdoverTimeout : Statement .holdoverTimeout := plain rfl
theorem ppsInEdge : Statement .ppsInEdge := plain rfl
theorem ppsOutEdge : Statement .ppsOutEdge := plain rfl
theorem ppsOutFall : Statement .ppsOutFall := plain rfl
theorem capInEdge (input : Fin 8) (rising : Bool) : Statement (.capInEdge input rising) := plain rfl
theorem kindleRouteCommit (entry : Fin 256) : Statement (.kindleRouteCommit entry) := plain rfl
theorem kindleFlueSwitch (entry : Fin 256) : Statement (.kindleFlueSwitch entry) := plain rfl
theorem collRelease (entry : Fin 256) : Statement (.collRelease entry) := plain rfl
theorem mcRelease (entry : Fin 256) : Statement (.mcRelease entry) := plain rfl
theorem mcReleaseSeed (entry : Fin 256) : Statement (.mcReleaseSeed entry) := plain rfl
theorem shaperBank (entry : Fin 256) : Statement (.shaperBank entry) := plain rfl
theorem counterDump (entry : Fin 256) : Statement (.counterDump entry) := plain rfl
theorem timedNotice (entry : Fin 256) : Statement (.timedNotice entry) := plain rfl
theorem seedPacketSend (seed : Fin 64) (ue : Bool) : Statement (.seedPacketSend seed ue) := plain rfl
theorem tallyPeriodicLatch : Statement .tallyPeriodicLatch := plain rfl
theorem eventWrite : Statement .eventWrite := plain rfl
theorem faultReportFoldEnd (code : BitVec 16) (half : BitVec 2) (block : Byte) (item : BitVec 16) : Statement (.faultReportFoldEnd code half block item) := plain rfl
theorem hearthWatchdog (halt : HaltedCore) : Statement (.hearthWatchdog halt) := plain rfl
theorem hearthReturn : Statement .hearthReturn := plain rfl
theorem debugViewsExpire : Statement .debugViewsExpire := plain rfl
theorem resetBegin : Statement .resetBegin := plain rfl
theorem halfReady (half : Fin 2) : Statement (.halfReady half) := plain rfl
theorem barnReady (barn : Fin 16) : Statement (.barnReady barn) := plain rfl
theorem vin36Lost : Statement .vin36Lost := plain rfl
theorem vin36Qualified : Statement .vin36Qualified := plain rfl
theorem vin36Margin (mv : Nat) : Statement (.vin36Margin mv) := plain rfl
theorem vaux33Low : Statement .vaux33Low := plain rfl
theorem vaux33PowerUp (start : AuxStart) : Statement (.vaux33PowerUp start) := plain rfl
theorem halfPowerOn (optics : OpticsUp) : Statement (.halfPowerOn optics) := plain rfl
theorem coldReset (lowNs : Nat) (recoveryLow : Bool) : Statement (.coldReset lowNs recoveryLow) := plain rfl
theorem converterFault (half : Fin 2) (both : Bool) : Statement (.converterFault half both) := plain rfl
theorem converterRepower (half : Fin 2) (optics : OpticsUp) : Statement (.converterRepower half optics) := plain rfl
theorem refclkFail (half : Fin 2) : Statement (.refclkFail half) := plain rfl
theorem refclkReturn (half : Fin 2) : Statement (.refclkReturn half) := plain rfl
theorem thermalSensorRead (readings : List Nat) (persists : Bool) : Statement (.thermalSensorRead readings persists) := plain rfl
theorem thermRestart (optics : OpticsUp) : Statement (.thermRestart optics) := plain rfl
theorem wdAnswerTimeout (lane : Fin 1024) : Statement (.wdAnswerTimeout lane) := plain rfl
theorem timeSetPpsExpired : Statement .timeSetPpsExpired := plain rfl
theorem siloLinkUp (port : Fin 2) (capacity : Nat) : Statement (.siloLinkUp port capacity) := plain rfl
theorem unitSelftestDone (unit : Fin 64) (pass : Bool) : Statement (.unitSelftestDone unit pass) := plain rfl
theorem planeLoopbackTestDone (plane : Fin 4) (pass : Bool) : Statement (.planeLoopbackTestDone plane pass) := plain rfl
theorem memMarginDone (records : List Word) : Statement (.memMarginDone records) := plain rfl
theorem memReleaseDone (tier : Fin 3) : Statement (.memReleaseDone tier) := plain rfl
theorem fwLoadDone : Statement .fwLoadDone := plain rfl
theorem rcvVerifyDone : Statement .rcvVerifyDone := plain rfl
theorem routeWriteDone : Statement .routeWriteDone := plain rfl
theorem endpointWriteDone : Statement .endpointWriteDone := plain rfl
theorem spillRegionPlaced : Statement .spillRegionPlaced := plain rfl
theorem deviceResetRelease (optics : OpticsUp) : Statement (.deviceResetRelease optics) := plain rfl

end Sys2Proof.Laws.F
end

