-- ==== Sys2Proof/Tests/Slice0.lean ====
section
/-! SUPPORT. Small tests: what the checks of WellFormed refuse, values that the manual works out, and for every statement a state and
operands that meet its hypotheses. -/

namespace Sys2Proof.Tests

set_option Elab.async false

open Sys2Proof.Machine

/-- The device in operation: the state after reset with both halves powered and ready, the firmware running and every laser lit. -/
def up : State :=
  { State.reset with
    power := { State.reset.power with on0 := 0xFF, on1 := 0xFF, qualified := true, ready0 := true, ready1 := true, inReset := false },
    hearth := { State.reset.hearth with ready := true, inReset := false },
    optics := { State.reset.optics with lasers := (List.range 80).map fun i => (i, Laser.lit i) } }

/-- The header of an entry on a ring, with no deadline and a direct block. -/
def hdr (r : Fin 4) : CmdHdr :=
  { ring := r, tag := 7, vector := 0, ifVer := 0x10, dlMode := 0, m2 := 0, m3 := 0, m4 := 0, reservedSet := false, indirect := none }

/-- The same with an indirect block of `n` words. -/
def far (r : Fin 4) (n : Nat) : CmdHdr :=
  { hdr r with indirect := some { argLen := BitVec.ofNat 32 (4 * n), argPtr := 0x1000, restSet := false } }

/-- A ring that is on, with one entry visible, and an interface version in force. -/
def ready (r : Nat) (s : State) : State :=
  modRing r (fun g => { g with en := true, cmdTail := 1 }) (s.modHearth fun h => { h with ifValid := true, ifActive := 0x10 })

/-- The entry is taken up and runs, on a state whose ring is ready. -/
def runs (mk : CmdHdr → List Word → Instr) (h : CmdHdr) (args : List Word) (s : State) : Bool :=
  accepted (mk h args) (ready h.ring s)

/-- A port that is configured, enabled and up, of width 1. -/
def aPort : Port :=
  { configured := true, width := 1, enabled := true, verMask := 3, maxRate := 2, up := true, v0 := false, rate := 2, farId := 0, rtt := 100 }

/-- A state with such a port at a lane in service. -/
def withPort (p : Nat) (s : State) : State :=
  { s with link := { s.link with ports := tset s.link.ports {} p aPort },
           optics := { s.optics with lanes := tset s.optics.lanes {} p { state := .inService } } }

/-- Host memory with words at an address. -/
def hostHas (a : Nat) (ws : List Word) (s : State) : State := hostWrite a (wordsLe ws) s

/-- A partition that is ACTIVE with room for some of everything. -/
def withPart (p : Nat) (s : State) : State :=
  s.modJobs fun j => { j with parts := tset j.parts {} p ⟨1, 4, 4, 4, 4096⟩ }

/-- The Granary is in service. -/
def granaryUp (s : State) : State := s.modMem fun m => { m with granary := .inService }

/-! ### Witnesses: routing -/

/-- A state whose non-active version is SEALED. -/
def sealedState : State := up.modRouting fun r => { r with nonActive := .sealedV }

/-- A state whose non-active version drains until instant 1. -/
def drainState : State := up.modRouting fun r => { r with nonActive := .draining, drainEnd := 1 }

theorem witness_RouteWriteInstallsImages :
    let s := ready 2 up
    let a : List Word := [0, 65535, 1, 0x1000, 0]
    let b : List Word := [1, 255, 1, 0x1000, 0]
    let f := fetched (.routeWrite (hdr 2) a) s
    accepted (.routeWrite (hdr 2) a) s = true ∧ accepted (.routeWrite (hdr 2) b) s = true ∧ nonActiveNow f = .opened ∧
    explicitOk (explicitOf (ofLe (hostRead f 0x1000 8))) = true ∧ podOk (podOfImg (ofLe (hostRead f 0x1000 4))) = true := by decide

theorem witness_RouteVersions :
    runs .routeSeal (hdr 1) [] up = true ∧ nonActiveNow (ready 1 up) = .opened ∧
    runs .routeUnseal (hdr 1) [] sealedState = true ∧ commitArmed (ready 1 sealedState) = false ∧
    nonActiveNow (ready 1 sealedState) = .sealedV ∧ runs .routeCommit (hdr 1) [] sealedState = true ∧
    runs .routeConfig (hdr 1) [10000, 32767, 1] up = true ∧ runs .routeWrite (hdr 2) [0, 0, 1, 0, 0] sealedState = true ∧
    runs .routeSeal (hdr 1) [] drainState = true ∧ nonActiveNow (ready 1 drainState) = .draining ∧
    runs .routeUnseal (hdr 1) [] { sealedState with kindle := [(0, { image := [0x80000100], armed := true })] } = true := by decide

theorem witness_EndpointsBundlesTrees :
    let s := hostHas 0x1000 [1, 0xC0000000, 0, 0] up
    runs .endpointWrite (hdr 2) [1, 0x1000, 0] s = true ∧
    (epOfImg (ofLe (hostRead s 0x1000 8))).static = true ∧ genExt (epOfImg (ofLe (hostRead s 0x1000 8))).id = 0 ∧
    (epOfImg (ofLe (hostRead s 0x1008 8))).static = false ∧
    (putStatics 0 [epOfImg (ofLe (hostRead s 0x1000 8))] ([], []) |>.isSome) = true ∧
    putStatics 0 [⟨true, true, 8, 1, 0⟩] ((List.range 8).map fun k => (Machine.setOf 8 * 8 + k, ⟨true, true, 9, 1, 0⟩), []) = none ∧
    runs .endpointFlush (hdr 1) [0, 0xFFFFFF] up = true ∧ runs .endpointFlush (hdr 1) [3] up = true ∧
    runs .endpointFlush (hdr 1) [0, 0x1000000] up = true ∧ runs .endpointFlush (hdr 1) [1, 1024] up = true ∧ runs .endpointFlush (hdr 1) [2] up = true ∧
    runs .bundleWrite (far 1 34) ([1023, 0x00008001, 0x00008008] ++ List.replicate 31 0) (withPort 8 up) = true ∧
    slotBad (withPort 8 up) 1023 (slotOf [1023, 0x00008001, 0x00008008] 0) = false ∧
    slotBad up 1023 (slotOf [1023, 0x00008001, 0x00008008] 0) = true ∧
    runs .treeWrite (far 1 34) ([16383, 0x80000005] ++ List.replicate 32 0) (withPart 5 up) = true ∧
    chargeOf (withPart 5 up) 5 1 = 0 := by decide

/-- One learning update waits in H0. -/
def learning (static : Bool) (bundle : Nat) : State :=
  up.modRouting fun r =>
    { r with learnQ0 := [⟨9, 3, 0⟩], ep0 := [(Machine.setOf 9 * 8, { valid := true, static := static, id := 9, bundle := bundle, stamp := 0 })] }

theorem witness_LearningAgeingDrainingRepair :
    learnQ (learning true 4) 0 = [⟨9, 3, 0⟩] ∧ (epFind (epOf (learning true 4) 0) 9 true).isSome = true ∧
    epFind (epOf (learning false 3) 0) 9 true = none ∧ (epFind (epOf (learning false 3) 0) 9 false).isSome = true ∧
    epFind (epOf up 0) 9 false = none ∧
    ((waysOf 9).find? fun k => !(tget (epOf up 0) {} k).valid) = some (Machine.setOf 9 * 8) ∧
    up.routing.ageS ≠ 0 ∧ drainState.routing.nonActive = .draining ∧
    { drainState with time := { drainState.time with now := 1 } }.routing.drainEnd ≤ 1 ∧
    (tget (epOf (learning false 3) 0) {} (Machine.setOf 9 * 8)).valid = true ∧
    (∀ k ∈ waysOf 9, parityBad (learning false 3) 0 .endpoint k = false) ∧
    parityBad (markParity 0 [(.endpoint, 5)] up) 0 .endpoint 5 = true := by decide +kernel

/-! ### Witnesses: switch core and scheduling -/

/-- A state whose plane 0 is fenced, under test if asked. -/
def fencedPlane (t : Bool) : State := modPlane 0 (fun x => { x with fenced := true, testing := t }) up

/-- An entry of a barn's bundles in flight, on plane 0 from barn 0 to barn 1. -/
def aBundle : CellBundle := { plane := 0, src := 0, dst := 1, tc := 0, parts := [] }

theorem witness_SwitchCoreSettings :
    let a : List Word := [0, 16384, 4096, 512, 4096, 4096, 4096, 4096, 4096, 4096, 4096]
    let s := ready 1 up
    runs .coreBuf (hdr 1) a up = true ∧ barnPortEnabled s 0 = false ∧
    creditOk (modBarn 0 (fun x => { x with bufCells := 16384, egCells := 4096 }) (fetched (.coreBuf (hdr 1) a) s)) 0 = true ∧
    runs .coreCredit (hdr 1) [5, 2, 256] up = true ∧ insidePort s 5 = false ∧
    creditOk (s.modCore fun k => { k with allow := tset k.allow 0 42 256 }) 0 = true ∧
    creditOk (s.modCore fun k => { k with allow := tset k.allow 0 42 65535 }) 0 = false ∧
    runs .coreSpill (hdr 1) [8, 0x7F] (granaryUp up) = true ∧ holdsSpill s = false ∧
    spillFits s 8 = true ∧ ((List.range 16).all fun b => creditFits (withSpill 8 0x7F s) b) = true ∧
    holdsSpill (s.modHearth fun h => { h with detached := [⟨refOf (.coreSpill (hdr 1) [8, 0x7F]) s, .spill 8 0x7F, false⟩] }) = false ∧
    (granaryUp s).mem.granary = .inService ∧ s.mem.granary ≠ .inService ∧ spillFits s 64 = false ∧
    runs .floorConfig (hdr 1) [255] up = true ∧ runs .floorPlaneRestore (hdr 1) [0] (fencedPlane false) = true ∧
    (thePlane (fencedPlane true) 0).testing = true ∧
    (thePlane (fencedPlane false) 0).fenced = true ∧ (thePlane s 0).fenced = false := by decide

theorem witness_FloorRows :
    let s := modBarn 0 (fun x => { x with unacked := [aBundle] }) up
    let u := (fencedPlane true).modHearth fun h =>
      { h with detached := [⟨refOf (.floorPlaneRestore (hdr 1) [0]) up, .plane 0, false⟩] }
    ((theBarn s 0).unacked.find? fun u => u.plane == 0 && u.dst == 1) = some aBundle ∧ barnUp s 1 = true ∧
    ((theBarn s 0).unacked.find? fun u => u.plane == 1 && u.dst == 1) = none ∧
    (thePlane u 0).testing = true ∧ (u.hearth.detached.find? fun d => d.work == .plane 0).isSome = true ∧
    ((modPlane 0 (fun x => { x with failures := [0] }) up).time.now < 0 + 256000000) := by decide

/-- A packet of one cell. -/
def oneCellPkt : InPkt :=
  { info := { pid := 1, hdr := ⟨0, 0, 0, 0, 0, 0, 0, 0⟩, bytes := [1, 2, 3], inPort := some 0, tIn := 0, parse := 0, result := none,
              tagged := [] },
    handles := [3], arriving := false, spilled := false, refilled := false, firstDst := 1, alone := true }

/-- A VOQ from barn 0 to barn 1 with that packet, whose cell has CELL_CHECK `k`. -/
def oneCell (k : Nat) : State :=
  modBarn 0 (fun x => { x with
    inPkts := [oneCellPkt], voqs := [(8, [⟨1, 0, 64, 0, 0, [], []⟩])],
    cells := [(3, { inuse := true, start := true, last := true, refs := 1, check := k })] }) up

theorem readChecked_one (s : State) (b pid c : Nat) (p : InPkt) (g : inPkt s b pid = some p)
    (h : cellBad (theBarn s b).cells p.info.bytes c (p.handles.getD c 65535) = false) :
    readChecked b [(pid, c)] s = ([(pid, c)], s) := by
  simp only [readChecked, List.filterMap_cons, List.filterMap_nil, g, h]
  rfl

theorem witness_FloorRowsTransfer :
    let s := oneCell (cellCheck (cellSlice [1, 2, 3] 0))
    (offers (theBarn s 0) 8).take 16 = [(1, 0)] ∧ readChecked 0 [(1, 0)] s = ([(1, 0)], s) ∧ offers (theBarn up 0) 8 = [] := by
  generalize hk : cellCheck (cellSlice [1, 2, 3] 0) = k
  refine ⟨rfl, readChecked_one _ 0 1 0 oneCellPkt rfl ?_, by decide +kernel⟩
  have e : (tget (theBarn (oneCell k) 0).cells {} (oneCellPkt.handles.getD 0 65535)).check = k := rfl
  rw [cellBad, e]
  change (k != cellCheck (cellSlice [1, 2, 3] 0)) = false
  rw [hk]
  exact bne_self_eq_false k

/-- A packet with two cells that lies in spill. -/
def spilled (h : Header) : InPkt :=
  { info := { pid := 1, hdr := h, bytes := [], inPort := none, tIn := 0, parse := 0, result := none, tagged := [] },
    handles := [1, 2], arriving := false, spilled := true, refilled := false, firstDst := 0,
    alone := false }

theorem witness_GleanerAndRefill :
    let c : CellRec := { inuse := true, start := true, last := true, refs := 2 }
    let p := { spilled ⟨0, 0, 0, 0, 0, 0, 0, 0⟩ with handles := [3], spilled := false }
    let s := modBarn 0 (fun x => { x with cells := [(3, c)], inPkts := [p], voqs := [(0, [⟨1, 0, 0, 0, 0, [], []⟩])] }) up
    let q := spilled ⟨0, 0, 0, 0, 0, 0, 0, 0⟩
    let t := modBarn 0 (fun x => { x with inPkts := [q], spill := [(1, { inuse := true, next := 2 }), (2, { inuse := true })] }) up
    barnUp s 0 = true ∧ tget (theBarn s 0).cells {} 3 = c ∧ 1 ≤ holders (theBarn s 0) 3 ∧ holders (theBarn s 0) 3 ≠ 2 ∧
    refillNext (theBarn up 0) = none ∧ (refillNext (theBarn t 0)).isSome = true ∧
    eligibleCells t 0 + 2 ≤ eligibleLimit t 0 ∧
    (theBarn t 0).spill = [(1, { inuse := true, next := 2 }), (2, { inuse := true })] := by
  decide +kernel

/-- A cell whose check is right passes, and one whose check is off by one does not. -/
theorem witness_SpillRefillCells (c : CellRec) (l : List Byte) :
    cellBad [(1, { c with check := cellCheck (cellSlice l 0) })] l 0 1 = false ∧
    cellBad [(1, { c with check := cellCheck (cellSlice l 0) + 1 })] l 0 1 = true := by
  simp [cellBad, tget]

/-- A handle and a spill handle in each condition that an audit acts on: in use without holders, marked or not, on the free list
with a holder, off the list and unused. -/
theorem witness_GleanerAudit :
    let c : CellRec := { inuse := true, refs := 1 }
    let p := { spilled ⟨0, 0, 0, 0, 0, 0, 0, 0⟩ with handles := [3], spilled := false }
    let q := { p with handles := [3], spilled := true }
    let v := [(0, [({ pid := 1, sink := 0, dstPort := 0, localMask := 0, taken := 0, resend := [], acked := [] } : QEntry)])]
    let s := modBarn 0 (fun x => { x with cells := [(4, c), (5, c)], cand := [5], lostFree := [6], inPkts := [p], voqs := v }) up
    let u := modBarn 0 (fun x => { x with spill := [(4, c), (5, c), (3, { c with refs := 2 })], spillCand := [5], spillLost := [6],
                                          inPkts := [q], voqs := v }) up
    (tget (theBarn s 0).cells {} 4).inuse = true ∧ holders (theBarn s 0) 4 = 0 ∧ (theBarn s 0).cand.contains 4 = false ∧
    holders (theBarn s 0) 5 = 0 ∧ (theBarn s 0).cand.contains 5 = true ∧ holders (theBarn s 0) 6 = 0 ∧
    (tget (theBarn s 0).cells {} 6).inuse = false ∧ (theBarn s 0).lostFree.contains 6 = true ∧
    (tget (theBarn s 0).cells {} 3).inuse = false ∧ 1 ≤ holders (theBarn s 0) 3 ∧ (theBarn s 0).lostFree.contains 3 = false ∧
    (tget (theBarn u 0).spill {} 4).inuse = true ∧ spillHolders (theBarn u 0) 4 = 0 ∧ (theBarn u 0).spillCand.contains 4 = false ∧
    spillHolders (theBarn u 0) 5 = 0 ∧ (theBarn u 0).spillCand.contains 5 = true ∧ spillHolders (theBarn u 0) 6 = 0 ∧
    (theBarn u 0).spillLost.contains 6 = true ∧ spillHolders (theBarn u 0) 3 = 1 := by decide +kernel

/-- The same with no room in the ingress account. -/
theorem witness_GleanerAndRefillFull :
    let q := spilled ⟨0, 0, 0, 0, 0, 0, 0, 0⟩
    let t := modBarn 0 (fun x => { x with bufCells := 0, egCells := 0, inPkts := [q] }) up
    eligibleLimit t 0 < eligibleCells t 0 + 2 := by decide

theorem witness_SchedulingCommands :
    let s := withPort 8 up
    runs .shaperWrite (hdr 1) [8, 1, 0, 0x80001860, 0x00004000] s = true ∧ (thePort s 8).configured = true ∧
    profileOk (profileOf (arg64 [8, 1, 0, 0x80001860, 0x00004000] 4)) = true ∧
    profileOk (profileOf (arg64 [8, 1, 0, 1, 0x80000000] 4)) = false ∧ runs .shaperBankSet (hdr 1) [4] s = true ∧
    runs .shaperBankSet (hdr 1) [3] s = true ∧ runs .policerWrite (hdr 1) [8, 255, 0, 0] s = true ∧
    (thePort s 9).configured = false := by decide

theorem witness_RefillInstant :
    let s := up.modSched fun d => { d with shaperPend := [3], profiles := [(3, ⟨true, 6240, 16384⟩)] }
    up.sched.shaperPend = [] ∧ s.sched.bankPend = none ∧ s.time.now % 131072 = 0 ∧ s.sched.refilled ≠ some s.time.now ∧
    (tget s.sched.profiles {} (8192 * s.sched.bank + 3)).en = true := by decide

/-! ### Witnesses: collectives -/

/-- The descriptor of a RETURN context of partition 5 with two members, 16 sheaves of 1 KiB and FP32 sums. -/
def aDesc (out winnow : Nat) : List Word :=
  [pack [(8, 5), (2, out)], pack [(16, winnow), (9, 2)], 2, 15, 0, 0x3F800000, 0, 0, 1000, pack [(12, 64)], 0, 0, 1000, 0, 0, 0, 0, 0,
    0, 0, 0, 0, 0, 0]

/-- An ACTIVE context 0 of that form, of members 0x000009 and 0x00000A. -/
def aCtx (out winnow : Nat) : Ctx := { state := .active, desc := aDesc out winnow, members := [9, 10], released := 65535 }

/-- The state after reset with that context. -/
def withCtx (x : Ctx) : State := up.modColl fun t => tset t {} 0 x

/-- An open index whose member 0 has contributed. -/
def anOpen (ph : Phase) (both : Bool) : OpenIdx :=
  { contribs := ⟨0, List.replicate 1024 0, false⟩ :: (if both then [⟨1, List.replicate 1024 0, false⟩] else []),
    unit := 0, faulty := [], firstAt := 0, stallAt := 0, phase := ph, formed := none }

/-- A released result of sheaf 0. -/
def aResult (part : Bool) : Retained :=
  { index := 0, epoch := 0, sheaf := 0, payload := List.replicate 16 0, crc := 0, tally := 0, acked := [], naks := [], releasedAt := 0,
    delivered := 0, unit := 0, waiting := false, upPartial := part, left := true, slot := 0 }

/-- A packet of a kind, with the header words given and its right CRC-64. -/
def aPacket (kind part src len : Nat) (w4 w5 w6 w7 : Word) : Packet :=
  let h : Header := ⟨pack [(30, 1), (26, kind), (8, part), (0, 8)], 0, pack [(8, src)], pack [(23, len)], w4, w5, w6, w7⟩
  ⟨h, List.replicate (16 * len) 0, packetCrc h (List.replicate (16 * len) 0)⟩

/-- A contribution of member 0 to context 0. -/
def aSheaf (x : Ctx) (len sheaf epoch : Nat) : Packet :=
  aPacket 4 5 9 len 0 (w32 sheaf) (w32 (digestAt x epoch)) (pack [(16, epoch)])

/-- The packet waits in sink queue 4 of barn 0 with `n` of its cells; `res` where it is a result of a context of the device. -/
def waitingAt (n : Nat) (res : Option ResultRef) (p : Packet) (s : State) : State :=
  modBarn 0 (fun b => { b with
    stored := [{ info := { pid := 1, hdr := p.hdr, bytes := p.wire, inPort := none, tIn := 0, parse := 0, result := res, tagged := [] },
                 srcBarn := 0, first := 0, handles := [], arrived := n, linked := true, sink := 4, dstPort := 0, localMask := 0,
                 mask := 0, dead := false, refilled := false, tracePort := 0, alone := true }],
    sinkq := [(32 + p.hdr.tc, [1])] }) s

/-- The packet waits there, still without its cells. -/
def waiting (p : Packet) (s : State) : State := waitingAt 0 none p s

/-- Its turn has come, and it is not a result, a result that an abort has voided. -/
def turnOf (p : Packet) (s : State) : Bool :=
  let v := waitingAt p.hdr.cells (some ⟨0, 0, true⟩) p s
  sinkTurn p s && !sunkVoid p s && sinkTurn p v && sunkVoid p v

theorem witness_ContextCommands :
    let s := hostHas 0x1000 (aDesc 3 0 ++ [9, 10]) (granaryUp (withPart 5 up))
    let x := ctxFrom (fetched (.ctxCreate (hdr 1) [0x1000, 0]) (ready 1 s)) 0x1000
    runs .ctxCreate (hdr 1) [0x1000, 0] s = true ∧ descOk x = true ∧ treeOk s x = true ∧ x.members = [9, 10] ∧
    quotaRefusal s 5 0 1 = none ∧ quotaRefusal s 5 3 (mibs (ctxRetSpace x)) = none ∧ stagingFits s x = true ∧
    (placed s x).isSome = true ∧ ctxOut x ≠ 1 := by decide +kernel

theorem witness_ContextCommandsRunning :
    let s := withCtx (aCtx 3 0)
    let a := withCtx { aCtx 3 0 with state := .aborted }
    runs .ctxAbort (hdr 0) [0] s = true ∧ runs .ctxAbort (hdr 0) [0] a = true ∧ runs .ctxRearm (hdr 1) [0, 7, 0, 0, 0] s = true ∧
    runs .ctxRearm (hdr 1) [0, 7, 1, 0, 0] a = true ∧ runs .ctxSubstitute (hdr 1) [0, 1, 77, 3] s = true ∧
    epochStarted (aCtx 3 0) 3 = false ∧ runs .ctxDestroy (hdr 1) [0] a = true ∧
    runs .ctxBranchRead (hdr 1) [0, 0, 0, 15, 0x1000, 0] s = true ∧ branchCheck [0, 0, 0, 15, 0x1000, 0] s = none ∧
    accepted (.ctxResendBranch ⟨far 1 36, [3]⟩ ([0, 0, 0, 15] ++ List.replicate 32 0)) (ready 1 s) = true := by decide +kernel

theorem witness_ContextRefusals :
    let busyX := { aCtx 3 0 with opens := [(0, anOpen .reducing false)] }
    let retX := { aCtx 3 0 with state := .retiring }
    runs .ctxCreate (hdr 1) [0x1000, 0] (withCtx (aCtx 3 0)) = true ∧ descOk (ctxFrom up 0x1000) = false ∧
    (theCtx up 0).state = .free ∧ runs .ctxRead (hdr 3) [0, 0x1000, 0] up = true ∧
    runs .ctxRearm (hdr 1) [0, 0, 0, 0, 0] (withCtx busyX) = true ∧ runs .ctxDestroy (hdr 1) [0] (withCtx retX) = true ∧
    epochStarted busyX 0 = true ∧ epochStarted (aCtx 3 0) 65535 = true ∧
    branchCheck [4096, 0, 0, 0, 0, 0] up = some (0x01, 1) ∧ treeOk up { aCtx 0 0 with desc := List.set (aDesc 0 0) 5 9 } = false ∧
    quotaRefusal up 5 0 1 ≠ none ∧ (thePart (up.modJobs fun j => { j with parts := [(5, ⟨2, 4, 4, 4, 4096⟩)] }) 5).state = 2 ∧
    up.mem.granary ≠ .inService ∧ ctxOut (aCtx 1 0) = 1 ∧ (windowFor up 5 0 4096 false true).isSome = false ∧
    runs .ctxSubstitute (hdr 1) [0, 1, 77, 3] (withCtx { aCtx 3 0 with sub := some ⟨1, 77, 3⟩ }) = true := by decide +kernel

/-- What the rows of R139 look at, for a contribution. -/
def seen (s : State) (p : Packet) : List Bool :=
  let u := releaseSink p s
  let x := theCtx u p.hdr.ctxId
  let d := (p.hdr.collEpoch + 65536 - frontEpoch x) % 65536
  let g := (x.front / ctxN x + d) * ctxN x + p.hdr.sheafNo
  [x.state != .active, p.hdr.partition != ctxPartition x, memberAt x p.hdr.member p.hdr.collEpoch != p.hdr.srcId,
    decide (32768 ≤ d) || decide (d = 0 ∧ g < x.front), decide (2 ≤ d), p.hdr.w6.toNat != digestAt x p.hdr.collEpoch,
    p.hdr.len != ctxS x / 16, decide (ctxN x ≤ p.hdr.sheafNo), decide (x.front + ctxDepth x ≤ g), isComplete x g, !lacks x g p.hdr.member]

theorem witness_ContributionArrival :
    let x := aCtx 3 0
    let p := aSheaf x 1 0 0
    p.hdr.ver < 2 ∧ turnOf p (withCtx x) = true ∧ sinkTurn p (waiting p (withCtx x)) = false ∧ payloadFits p = true ∧ crcOk p = true ∧ p.hdr.kind = 4 ∧
    crcOk { p with crc := p.crc + 1 } = false ∧
    seen (withCtx x) (aSheaf x 64 0 0) = List.replicate 11 false ∧ (substitute (withCtx x) (placedUnit x 0)).isSome = true ∧
    (seen (withCtx x) p).findIdx (· == true) = 6 ∧ (seen (withCtx x) (aSheaf x 64 16 0)).findIdx (· == true) = 7 ∧
    (seen (withCtx x) (aSheaf x 64 2 0)).findIdx (· == true) = 8 ∧ (seen (withCtx x) (aSheaf x 64 0 2)).findIdx (· == true) = 4 ∧
    (seen (withCtx { x with front := 1 }) (aSheaf x 64 0 0)).findIdx (· == true) = 3 ∧
    (seen (withCtx { x with doneAbove := [1] }) (aSheaf x 64 1 0)).findIdx (· == true) = 9 ∧
    (seen (withCtx { x with opens := [(0, anOpen .reducing false)] }) (aSheaf x 64 0 0)).findIdx (· == true) = 10 ∧
    (seen up p).findIdx (· == true) = 0 := by decide +kernel

theorem witness_ResultRows :
    let s (w : Nat) (ph : Phase) := withCtx { aCtx 3 w with opens := [(0, anOpen ph true)] }
    let o := anOpen .reducing true
    openOf (theCtx (s 0 .reducing) 0) 0 = some o ∧ o.contribs.length = 2 ∧ primaryOf (s 0 .reducing) o = some 0 ∧
    winnowed 0 0 0 = false ∧ winnowed 4 0 0 = true ∧ rolesOf (s 4 .winnowing) 0 [] = [0, 8, 16] ∧
    (rolesOf (modUnit 8 (fun x => { x with state := 1 }) (s 4 .reducing)) 0 []).length = 3 ∧
    sortNat (((theCtx (s 0 .waitSlot) 0).opens.filter fun o => o.2.phase == .waitSlot).map Prod.fst) = [0] ∧
    openOf (theCtx up 0) 0 = none := by decide +kernel

/-- An acknowledgement, or a NAK, of sheaf 0 of context 0. -/
def anAck (src status : Nat) : Packet := aPacket 1 5 src 0 0 0 (pack [(8, status), (0, 1)]) 0

theorem witness_AcknowledgementsAndNaks :
    let x := { aCtx 3 0 with retained := [aResult false] }
    let p := anAck 9 0
    p.hdr.ver < 2 ∧ turnOf p (withCtx x) = true ∧ sinkTurn p (waiting p (withCtx x)) = false ∧ crcOk { p with crc := p.crc + 1 } = false ∧
    payloadFits p = true ∧ crcOk p = true ∧ p.hdr.kind = 1 ∧ p.hdr.ackReq = true ∧ p.hdr.status = 0 ∧ (anAck 9 3).hdr.status ≠ 0 ∧
    retNamed (sunkTime p (withCtx x)) x p.hdr = some (aResult false) ∧ memberOf x 9 0 = some 0 ∧ memberOf x 11 0 = none ∧
    answers x = true := by decide +kernel

theorem witness_ContextTimers :
    let x := { aCtx 3 0 with opens := [(0, anOpen .reducing false)], retained := [aResult false] }
    let s := withCtx x
    let t := modBarn 0 (fun b => { b with stageCells := 0 }) s
    ctxStallUs x = 1000 ∧ missing x (anOpen .reducing false) ≠ [] ∧ ctxRetainUs x = 1000 ∧ retOf x 0 = some (aResult false) ∧
    (aResult false).left = true ∧ answers x = true ∧ sunkBefore s 256000 = false ∧
    sunkBefore (waitingAt 1 none (anAck 9 0) s) 256000 = false ∧
    sunkBefore (modBarn 0 (fun b => { b with stored := b.stored.map fun y => { y with info := { y.info with inPort := some 0 } } })
      (waitingAt 1 none (anAck 9 0) s)) 256000 = true ∧ lacks x 0 0 = false ∧ x.front = 0 ∧ 0 < ctxDepth x ∧ 0 + ctxStallUs x * 256000 ≤ 256000000 ∧ s.time.now < 0 + ctxRetainUs x * 256000 ∧
    1024 ≤ stagingFree up 0 ∧ stagingFree t 0 < 1024 ∧
    ((t.coll.flatMap fun e => (e.2.opens.filter fun o => decide (0 < stagedCells t 0 e.2 o)).map fun o => (e.1, o)).length = 1) := by
  decide +kernel

theorem witness_RelayRows :
    let s := withCtx (aCtx 2 0)
    let p := aPacket 5 5 0 0 0 0 0 0
    let n (code reason : Nat) (w6 : Word) := aPacket 8 5 0 0 (pack [(8, code), (0, reason)]) 0 w6 0
    let m := aPacket 8 5 9 0 (pack [(8, 1), (0, 11)]) 0 (pack [(31, 1)]) 0
    p.hdr.ver < 2 ∧ turnOf p s = true ∧ sinkTurn p (waiting p s) = false ∧ crcOk { p with crc := p.crc + 1 } = false ∧
    (n 1 1 0).hdr.ver < 2 ∧ turnOf (n 1 1 0) s = true ∧ takersOf (releaseSink p s) 0 0 = [0] ∧ payloadFits p = true ∧ crcOk p = true ∧
    p.hdr.kind = 5 ∧ p.hdr.mc = false ∧ relaysOf (releaseSink p s) 0 0 = [0] ∧
    relaysOf up 0 0 = [] ∧ fromRelay (withCtx (aCtx 3 0)) m.hdr = true ∧ fromRelay s (n 1 1 0).hdr = false ∧
    relaysOf s (n 2 1 0).hdr.srcId (n 2 1 0).hdr.ctxId = [0] ∧ crcOk (n 3 1 0) = true := by decide +kernel

/-! ### Witnesses: threshing units and the harvest -/

/-- A group record: 16 parameters, FP32 arrays at 0, 0x1000 and 0x2000 of the Granary. -/
def aRecord : List Word := [pack [(26, 1), (23, 1)], 0, 0, 0, 0, 0, 0, 0, 16, 0, 0, 0, 0x1000, 0, 0x2000, 0, 0, 0, 0, 0]

/-- A run descriptor of partition 5 over group 0. -/
def aRun : List Word := [pack [(20, 5)], 0, pack [(11, 1)], 0x3F800000, 0, 0, 0, 0, 0, 0, 0, 0]

/-- A running harvest of that descriptor. -/
def aHarvest : Harvest := ⟨0, aRun, [(0, 0, 0)], [(0, aRecord)], [], [], 0, 0, refOf (.harvestRun (hdr 1) []) up⟩

/-- Group 0 valid, a window of partition 5 over it, and tree 0 of that partition. -/
def harvestState : State :=
  let s := granaryUp (withPart 5 up)
  { s with
    thresh := { s.thresh with groups := [(0, aRecord)] },
    mem := { s.mem with windows := [(0, ⟨true, true, true, 5, 0, 0x100000⟩)] },
    routing := { s.routing with trees := [(0, ⟨true, 5, 1⟩)] } }

/-- The same with a harvest running, and a norm pass. -/
def harvesting : State := harvestState.modThresh fun t => { t with harvests := [aHarvest], norms := [⟨5, 0, 1, aHarvest.cmd⟩] }

/-- A context that unit 0 works for: the open index 0. -/
def reducing (w : Nat) : State := withCtx { aCtx 3 w with opens := [(0, anOpen .reducing true)] }

theorem witness_Units :
    let d : Detached := ⟨refOf (.tuUnfence (hdr 1) [0]) up, .unit 0, false⟩
    let s (st : Nat) := (modUnit 0 (fun x => { x with state := st }) up).modHearth fun h => { h with detached := [d] }
    runs .tuFence (hdr 1) [63] up = true ∧ runs .tuFence (hdr 1) [64] up = true ∧
    runs .tuUnfence (hdr 1) [0] (s 2) = true ∧ (theUnit up 0).state = 0 ∧
    ((s 2).hearth.detached.find? fun d => d.work == .unit 0) = some d ∧ (theUnit (s 1) 0).state = 1 ∧
    (rolesOf (reducing 0) 0 [])[1]? = some 8 ∧ primaryOf (reducing 0) (anOpen .reducing true) = some 0 ∧
    (rolesOf ((reducing 0).modThresh fun t => { t with units := (List.range 56).map fun k => (k + 8, ({ state := 1 } : Machine.Unit)) }) 0 [])[1]? =
      none ∧ openOf (theCtx (withCtx { aCtx 3 4 with opens := [(0, anOpen .winnowing true)] }) 0) 0 = some (anOpen .winnowing true) ∧ 8 ∈ (rolesOf (reducing 4) 0 []).drop 1 ∧
    (firstRoles up 0)[1]? = some 8 ∧ (openChunk harvesting 0 0 0).isSome = true ∧ unitUp harvesting 0 = true ∧
    (harvesting.thresh.norms[(0 : Fin 4).val]?).isSome = true ∧ ctxOut (aCtx 1 0) = 1 ∧
    primaryOf (withCtx { aCtx 1 0 with opens := [(0, anOpen .gated true)] }) (anOpen .gated true) = some 0 ∧
    primaryOf (reducing 0) { anOpen .reducing true with faulty := [0] } = some 8 := by decide +kernel

theorem witness_HarvestCommands :
    let s := hostHas 0x1000 aRecord up
    let h := hostHas 0x1000 aRun harvestState
    let f := fetched (.harvestRun (hdr 1) [0x1000, 0]) (ready 1 h)
    runs .harvestGroupWrite (hdr 1) [1023, 1, 0x1000, 0] s = true ∧ recordOk aRecord = true ∧ recordOk (List.replicate 20 0) = false ∧
    groupBusy harvesting 0 = true ∧ runs .harvestRun (hdr 1) [0x1000, 0] h = true ∧
    (hostNums f 4 0x1000 12).map w32 = aRun ∧ runOk h aRun = true ∧ (thePart h 5).state ≠ 2 ∧
    inWindows h 5 ((runGroups aRun).flatMap (groupArrays h)) = true ∧ runCopy aRun = false ∧
    runOk up aRun = false ∧ inWindows { h with mem := Mem.reset } 5 ((runGroups aRun).flatMap (groupArrays h)) = false ∧
    (tget h.routing.trees {} (runTree aRun)).partition = 5 ∧ gradConflict h 5 (runGroups aRun) = false ∧
    runs .harvestAbort (hdr 0) [0] harvesting = true ∧ runs .normPass (hdr 1) [5, 0, 1] harvestState = true ∧
    inWindows h 5 [(grpG h 0, 4 * grpLen h 0)] = true ∧ grpValid up 0 = false := by decide +kernel

theorem witness_HarvestRows :
    let hy : Hyper := ⟨0, 0, 0, 0, 0, 0, 0, 0, one32, false, true⟩
    let again := { aHarvest with redo := [((0, 0), 0)] }
    openChunk harvesting 0 0 0 = some aHarvest ∧ chunkUnit again 0 0 harvesting = some 8 ∧
    firstRoles harvesting 0 = [0, 8, 16] ∧ winnowed (runWinnow (aRun.set 0 (pack [(20, 5), (10, 4)]))) 0 0 = true ∧ unitUp harvesting 63 = true ∧ inChunk harvesting 0 0 0x1000 = true ∧
    openChunk harvesting 0 0 1 = none ∧ finite32 0x7F800000 = false ∧ finite32 0x3F800000 = true ∧ hy.skip = true ∧
    harvesting.thresh.norms[(0 : Fin 4).val]?.isSome = true ∧ up.thresh.norms[(0 : Fin 4).val]? = none := by decide +kernel

/-! ### Witnesses: memory -/

/-- The state after reset with the memory changed. -/
def memState (f : Mem → Mem) : State := up.modMem f

/-- A command in progress, for states that hold one. -/
def aCmd : CmdRef := refOf (.mbxNop (hdr 1) []) up

theorem witness_MemoryMapCommands :
    let s := granaryUp (withPart 5 up)
    let a : List Word := [1023, 0, 0xE0000500, 0x100000, 0]
    let w := windowOfWords a 2
    runs .memWindowWrite (hdr 1) a s = true ∧ w.valid = true ∧ w.partition = 5 ∧ w.size = 2 ^ 20 ∧ w.base + w.size ≤ poolBase s ∧
    chargeOf s 5 3 + mibs w.size ≤ limitOf (thePart s 5) 3 ∧ overlapsScrub s w.base w.size = false ∧ stagedIn s 0 = false ∧ barnPortEnabled s 0 = false ∧
    runs .memWindowWrite (hdr 1) [0, 0, 0, 0, 0] harvestState = true ∧ (theWindow harvestState 0).valid = true ∧
    windowInUse harvestState (theWindow harvestState 0) = false ∧ runs .memPool (hdr 1) [256] up = true ∧
    runs .memLoft (hdr 1) [15, 4096] up = true ∧ accIn up 15 = false ∧
    runs .memScratch (hdr 1) [0, 65536] up = true ∧ runs .memHintWrite (hdr 1) [255, 0, 0x80001000, 0x100000, 0] up = true ∧
    nfld (arg64 [255, 0, 0x80001000, 0x100000, 0] 2) 63 63 = 1 ∧ inOneTier (nfld (arg64 [255, 0, 0x80001000, 0x100000, 0] 2) 47 0) 0x100000 = true ∧
    runs .memBar2Map (hdr 1) [0, 0x10000000, 0] up = true ∧ runs .memBar2Map (hdr 1) [1] up = true ∧
    runs .memArbConfig (hdr 1) [256, 255, 1000] up = true ∧ takesFrom (theWindow harvestState 0) {} = true ∧
    windowInUse (harvestState.modCount fun c => { c with tally := { c.tally with enabled := true, target := .granary 5 0, slots := 2 } })
      (theWindow harvestState 0) = true ∧
    (windowPlace s 1023 { w with partition := 0 }).isSome = true ∧ spillWanted { s with core := { s.core with spillGib := 8 } } ≠ 0 ∧
    ctxUsed (aCtx 3 0) = true ∧ accIn (reducing 0) (feedingBarn up (aCtx 3 0) 0) = true ∧
    runs .memScratch (hdr 1) [0, 65535] up = true := by decide +kernel

theorem witness_MemoryServiceCommands :
    let up := memState fun m => { m with granary := .inService, barnStore := .inService }
    let held := memState fun m => { m with granary := .held, barnStore := .held }
    let mv : List Word := [0, 0, 0x1000, 0, 0x1010, 4096, 0, 3, 3]
    let busy := up.modMem fun m => { m with moves := [⟨0, 0x100000000000, 0x200000000000, 16, 0, 0, aCmd⟩] }
    runs .memMove (hdr 2) mv up = true ∧ populated up 0x100000000000 4096 = true ∧ populated up 0x101000000000 4096 = true ∧
    runs .memMove (hdr 2) [5, 0, 0, 0, 0x1000, 4096, 0, 0, 0] up = true ∧ sideOk up 5 false 0 4096 = false ∧
    sideOk up 0 false 0x100000000000 4096 = true ∧ tierReady up 0x100000000000 = true ∧ tierReady held 0x100000000000 = false ∧
    runs .memThermal (hdr 1) [1, 95] up = true ∧ runs .memHold (hdr 1) [0] up = true ∧ runs .memHold (hdr 1) [1] up = true ∧
    moveTouches busy 1 = true ∧ runs .memRelease (hdr 1) [1] held = true ∧ tierState held 1 = .held ∧
    runs .memMargin (hdr 3) [0, 280, 0x1000, 0] held = true ∧ runs .memSiloDetach (hdr 1) [0] busy = true ∧
    inSilo 0 0x200000000000 16 = true := by decide +kernel

/-- A partition that retires with one granule to be zeroed. -/
def retiringState : State :=
  (granaryUp up).modJobs fun j => { j with retiring := [⟨5, [], none, [⟨0, 4096, [0, 1, 2, 3, 4, 5, 6, 7], none, 0, 0⟩]⟩], parts := [(5, { state := 2 })] }

theorem witness_MemoryRows :
    let s := granaryUp up
    let b := s.modMem fun m => { m with bar2 := none, barnStore := .inService, silos := [(0, ⟨true, false, 4096⟩)], marginCmd := some aCmd,
                                        moves := [⟨0, 0x100000000000, 0x100000001000, 16, 0, 0, aCmd⟩],
                                        releaseCmds := [(0, aCmd)] }
    let a := modArb 3 (fun a => { a with owner := some 9 }) s
    bar2Ready s = true ∧ s.mem.bar2 = some 0 ∧ bar2Ready up = false ∧ b.mem.bar2 = none ∧ b.mem.moves[(0 : Fin 16).val]?.isSome = true ∧
    inScratch (modBarn 0 (fun x => { x with scratchCells := 1 }) b) 255 = true ∧ inScratch b 255 = false ∧
    ((List.range 10).filter fun r => (0x3FF : BitVec 11).getLsbD r && (decide (3 < 256) || decide (8 ≤ r))) ≠ [] ∧
    (theArb a 3).owner = some 9 ∧ tierOf 0 = some 0 ∧ tierOf 0x100000000000 = some 1 ∧ halfReady s 0 = true ∧ halfReady s 1 = true ∧
    up.mem.granary = .training ∧ up.mem.barnStore = .training ∧ (theSilo b 0).up = true ∧
    (b.mem.releaseCmds.find? fun e => e.1 == 0).isSome = true ∧
    scrubHalf retiringState ⟨0, 4096, [0, 1, 2, 3, 4, 5, 6, 7], none, 0, 0⟩ = some 0 ∧ levelAt (thermalLimits s 0) (theSrc s 0).level 200 ≠ (theSrc s 0).level ∧
    (let u := settleRetirements retiringState
     u.mem.granary = .inService ∧ (u.jobs.retiring.find? fun r => r.cmd.isNone).isSome = true) ∧
    tierReady up 0 = false ∧ tierReady b 0x100000000000 = true ∧ halfReady up 0 = true ∧
    up.power.readyAt0 + 100000000000 ≤ (up.modTime fun t => { t with hearthPs := 100000000000 }).time.hearthPs ∧
    up.time.hearthPs < up.power.readyAt1 + 100000000000 ∧
    openOf (theCtx (reducing 0) 0) 0 = some (anOpen .reducing true) ∧ (rolesOf (reducing 0) 0 [])[1]? = some 8 ∧
    hearthWork (.fwLoad 0 4) = true ∧ 0 + usU s.mem.wdUs ≤ (s.mem.wdUs * 256000) ∧ (theArb s 3).owner = none := by decide +kernel

/-! ### Witnesses: optics, links and circuits -/

/-- A slice test that passes. -/
def goodTest : SliceTest := ⟨true, true, true, true, []⟩

/-- A lane in a state. -/
def laneIn (l : Nat) (st : LaneState) (s : State) : State := modLaneOpt l (fun o => { o with state := st }) s

/-- Laser 0 of a state, spare 64 free. -/
def lasersIn (st : Nat) : State := up.modOptics fun o => { o with lasers := [(0, { state := st }), (64, { state := 5 })] }

theorem witness_OpticalCommands :
    let sl : Slice := ⟨0, false, some goodTest, []⟩
    let sliced := up.modOptics fun o => { o with slices := [(0, sl)] }
    runs .calConfig (hdr 1) [60, 1] up = true ∧ runs .calConfig (hdr 1) [901, 0] up = true ∧
    accepted (.calLane (hdr 1) [0] goodTest) (ready 1 sliced) = true ∧ laneState sliced 0 ≠ .flue ∧ laneState (laneIn 0 .flue sliced) 0 = .flue ∧
    runs .laneBank (hdr 1) [3] (laneIn 3 .inService up) = true ∧ laneState up 3 = .down ∧
    runs .laneUnbank (hdr 1) [3] (laneIn 3 .banked up) = true ∧ (laneOpt up 3).recovering = false ∧
    runs .kilnSwap (hdr 1) [0] (lasersIn 1) = true ∧ working (lasersIn 1) 0 = true ∧ freeSpare (lasersIn 1) 0 = some 64 ∧
    freeSpare (up.modOptics fun o => { o with lasers := [] }) 0 = none ∧
    barnOf 0 = 0 ∧ ({ sl with waits := true } : Slice).waits = true ∧ runs .laneUnbank (hdr 1) [3] up = true ∧
    ((lasersIn 1).modOptics fun o => { o with swaps := [(0, ⟨0, 64, false, false, [], []⟩)] }).optics.swaps.any
      (fun e => e.2.laser == 0 && !e.2.started) = true ∧ working (lasersIn 3) 0 = false ∧ laserHalf 64 = 0 ∧
    runs .kilnSwap (hdr 1) [80] (lasersIn 1) = true ∧
    ((lasersIn 1).modOptics fun o => { o with swaps := [(0, ⟨1, 65, true, false, [], []⟩)] }).optics.swaps ≠ [] := by decide +kernel

theorem witness_OpticalRows :
    let sl : Slice := ⟨5, false, some goodTest, []⟩
    let s := (laneIn 5 .withdrawn up).modOptics fun o => { o with slices := [(0, sl)] }
    let q (f : Bool) : Swap := ⟨0, 64, f, false, [], []⟩
    let t := (lasersIn 1).modOptics fun o => { o with swaps := [(0, q false)] }
    let r (n : Nat) := modLaneOpt 5 (fun o => { o with state := .banked, recovering := true, lockFails := n }) up
    let w (n : Nat) := modLaneLink 8 (fun k => { k with trainStep := 3, shortFails := n }) (laneIn 8 .training (withPort 8 up))
    up.optics.calEnable = true ∧ barnUp up 0 = true ∧ (up.optics.slices = []) ∧
    laneState (laneIn 5 .inService up) 5 = .inService ∧ (theLaser (up.modOptics fun o => { o with lasers := [] }) 0).state = 0 ∧
    sliceNow up 0 0 = true ∧ tget up.optics.lastSlice 0 0 ≠ sweepNo up + 1 ∧ sliceNow up 0 1 = false ∧
    retrains (r 2) 5 = true ∧ retrains s 5 = true ∧ retrains (w 2) 8 = true ∧ retrains up 8 = false ∧ sliceOn (w 2) 8 = none ∧
    checkEnded (.trained 2 2) = true ∧ retrainOk (.trained 2 2) = true ∧ checkEnded (.trained 1 2) = false ∧
    retrainOk .wrongIdentity = false ∧ checkEnded (.failed true) = true ∧ sliceOn s 5 = some (0, sl) ∧ sliceFails sl = 0 ∧
    7 ∉ (laneOpt (r 2) 5).excluded ∧ (theLaser (lasersIn 2) 0).state = 2 ∧
    (t.optics.swaps.find? fun x => x.1 == 0 && !x.2.started) = some (0, q false) ∧
    (t.optics.swaps.all fun x => !x.2.started) = true ∧ laserGroup t 0 = 0 ∧ s.optics.slices = [(0, sl)] ∧
    laneState (r 2) 5 = .banked ∧ (laneOpt (r 2) 5).recovering = true ∧ (laneOpt (r 1) 5).lockFails < 2 ∧
    laneState s 5 = .withdrawn ∧ laneIdle s 5 = true ∧ ((sliceOn s 5).filter fun e => !e.2.waits) = some (0, sl) ∧
    laneFails goodTest = 0 ∧ goodTest.barnRef = true ∧ laneState (w 2) 8 = .training ∧ portOfLane (w 2) 8 = some 8 ∧
    (thePort (w 2) 8).up = true ∧ (laneLink (w 2) 8).trainStep = 3 ∧ (laneLink (w 1) 8).shortFails < 2 := by decide +kernel

/-- A flit of a type, SEQ, ACK and LANE_TAG, with payload words of zeros and its right CRC-32. -/
def aFlit (type seq ack tag : Nat) : List Byte :=
  let b := wordsBe (pack [(29, type), (17, seq), (5, ack), (0, tag)] :: List.replicate 62 0)
  b ++ beBytes 4 (crc32 b)

/-- Port 8 with its lane in service and the lane link given. -/
def linked (f : LaneLink → LaneLink) : State := modLaneLink 8 f (withPort 8 up)

theorem witness_FlitReception :
    let s := linked id
    let good (b : List Byte) : Bool := crc32 (b.take 252) == ofBe (b.drop 252)
    (aFlit 1 0 4095 0).length = 256 ∧ portOfLane s 8 = some 8 ∧ laneState s 8 = .inService ∧ (laneLink s 8).stopped = false ∧
    portOfLane s 9 = none ∧ good (aFlit 1 0 4095 0) = true ∧ good (List.replicate 256 1) = false ∧
    (laneLink (linked fun k => { k with farTag := some 3 }) 8).farTag = some 3 ∧ (laneLink s 8).farTag = none ∧
    ((laneLink s 8).rxSeq + 1) % 4096 = fld (flitWord (aFlit 1 0 4095 0) 0) 28 17 ∧
    fld (flitWord (aFlit 2 0 4095 0) 0) 31 29 = 2 ∧ fld (flitWord (aFlit 3 0 4095 0) 0) 31 29 = 3 ∧
    fld (flitWord (aFlit 5 0 4095 0) 0) 31 29 = 5 ∧ (laneLink (linked fun k => { k with discarding := true }) 8).discarding = true ∧
    outstanding (laneLink (linked fun k => { k with txSeq := 3 }) 8) = 3 ∧
    markerBad (laneLink s 8) (aFlit 3 0 4095 0) = false ∧ good (aFlit 1 0 4095 16) = true ∧
    bitAt (flitWord (aFlit 1 0 4095 16) 0) 4 = true ∧ bitAt (flitWord (aFlit 1 0 4095 0) 0) 4 = false ∧
    markerBad (laneLink (linked fun k => { k with farTag := some 0, farDevice := 9 }) 8) (aFlit 3 0 4095 0) = true := by decide +kernel

/-- A TIME packet with a Sync message of 44 bytes. -/
def aTime : Packet :=
  let h : Header := ⟨pack [(26, 7)], 0, 0, pack [(23, 3)], 0, 0, 0, 0⟩
  let m : List Byte := [0, 2, 0, 44] ++ List.replicate 44 0
  ⟨h, m, packetCrc h m⟩

/-- Packet 1 of port 8, stored whole in barn 0. -/
def aStored : Stored :=
  { info := { pid := 1, hdr := aTime.hdr, bytes := List.replicate 400 0, inPort := none, tIn := 0, parse := 0, result := none, tagged := [] },
    srcBarn := 0, first := 0, handles := [], arrived := 0, linked := true, sink := 0, dstPort := 8, localMask := 0, mask := 0, dead := false,
    refilled := false, tracePort := 8, alone := true }

/-- A packet of port 8 that its lane sends. -/
def aTx : Tx := { pid := 1, port := 8, sent := 0, abort := false, cut := true, selAt := 0, outAt := 0 }

theorem witness_LaneTimersAndExits :
    let s := linked fun k => { k with discarding := true, txSeq := 3, replays := 8, tx := some aTx,
                                      uncorrAt := List.replicate 17 0 }
    let i := laneIn 8 .withdrawn (withPort 8 up)
    let two := laneIn 9 .inService s
    let g (n : Nat) := modLaneLink 8 (fun k => { k with tx := some { aTx with sent := n } }) (modBarn 0 (fun b => { b with stored := [aStored] }) s)
    (laneLink s 8).discarding = true ∧ sends s 8 = true ∧ 0 < outstanding (laneLink s 8) ∧ laneState s 8 = .inService ∧
    8 ≤ (laneLink s 8).replays ∧ 16 < ((laneLink s 8).uncorrAt.filter fun t => decide (s.time.now < t + 256000000)).length ∧
    laneState s 9 ≠ .inService ∧ portOfLane s 8 = some 8 ∧ (laneLink s 8).tx = some aTx ∧ sends s 9 = false ∧
    bitAt (flitWord (aFlit 0 0 0 0) 5) 25 = false ∧ laneState s (9 / 8 * 8 + 0) = .inService ∧
    crc32 ((aFlit 0 0 0 0).take 252) = ofBe ((aFlit 0 0 0 0).drop 252) ∧
    (laneLink i 8).replays < 8 ∧ laneState i 8 = .withdrawn ∧ laneIdle i 8 = true ∧ sliceOn i 8 = none ∧
    laneIdle (laneIn 8 .withdrawn s) 8 = false ∧ (sliceOn (i.modOptics fun o => { o with slices := [(0, ⟨8, false, none, []⟩)] }) 8).isSome = true ∧
    laneState (laneIn 8 .flue s) 8 = .flue ∧ laneState up 8 = .down ∧ laneFrames s 8 = true ∧ laneFrames up 9 = false ∧
    laneState up 9 ≠ .training ∧ bitAt (flitWord (List.replicate 20 0 ++ [2] ++ List.replicate 235 0) 5) 25 = true ∧
    laneFrames two 9 = true ∧ laneFrames s 9 = false ∧ storedPkt (g 14) 0 1 = some aStored ∧ flitsReady aStored ≤ 14 ∧
    (laneLink (g 14) 8).tx = some { aTx with sent := 14 } ∧ (laneLink (linked id) 8).tx = none ∧ (laneLink (linked id) 8).discarding = false := by decide +kernel

theorem witness_WithdrawalTrainingAndPorts :
    let s := linked fun k => { k with asked := some .force, askTag := 5 }
    let t (n : Nat) := modLaneLink 8 (fun k => { k with trainStep := n }) (laneIn 8 .training (withPort 8 up))
    let wide := { s with link := { s.link with ports := [(8, { aPort with width := 2 })] } }
    let far : FarEnd := { endpointId := 0, deviceTag := 2, lane := 8, tag := 1, rtt := 100, fellTo100 := false,
                          markersIn := 2, markersOut := 2,
                          cap := BitVec.ofNat 64 (2 * 2 ^ 60 + 4 * 2 ^ 57 + 1 * 2 ^ 50) }
    (laneLink s 8).asked = some .force ∧ (laneLink s 8).askTag = 5 ∧ laneState s 8 = .inService ∧ servingLanes wide 8 = [8] ∧
    portOfLane wide 8 = some 8 ∧ (laneLink (linked fun k => { k with stopped := true }) 8).stopped = true ∧
    portOfLane (t 1) 8 = some 8 ∧ (laneLink (t 1) 8).trainStep = 1 ∧ (laneLink (t 2) 8).trainStep = 2 ∧ laneState (t 0) 8 = .training ∧
    negotiate (thePort (t 1) 8) far = some (false, 2) ∧ sameShape (thePort (t 1) 8) 8 far = true ∧ identityOk 8 far = true ∧
    bothAllow (thePort (t 1) 8) far false 2 = true ∧ negotiate (thePort (t 1) 8) { far with cap := BitVec.ofNat 64 (2 ^ 50) } = none ∧
    sameShape (thePort (t 1) 8) 8 { far with cap := 0 } = false ∧ reservedBy s 8 = none ∧ (thePort (t 1) 8).up = true ∧ barnUp (t 1) 0 = true ∧
    runs .laneReset (hdr 1) [8] s = true ∧ servingLanes s 8 = [8] ∧ laneState s 3 = .down ∧
    runs .portConfig (hdr 1) [16, 8, 1, 2, 2] s = true ∧ portsOver s 16 8 = [] ∧ (thePort s 16).configured = false ∧
    wholeScratch s (barnOf 16) = false ∧ runs .portConfig (hdr 1) [8, 1, 0, 2, 2] s = true ∧ slotNames s 8 = false := by decide +kernel

theorem witness_Withdrawals :
    let s := linked fun k => { k with asked := some .force, askTag := 5 }
    let t (n : Nat) := modLaneLink 8 (fun k => { k with trainStep := n }) (laneIn 8 .training (withPort 8 up))
    let wide := { s with link := { s.link with ports := [(8, { aPort with width := 2 })] } }
    let idle := laneIn 8 .withdrawn (withPort 8 up)
    let ours := modLaneOpt 8 (fun o => { o with wdCause := 1 }) idle
    let cal := linked fun k => { k with asked := some .cal }
    let pkt : RetryPkt := ⟨1, 3, 8, none, [], .sentWhole⟩
    let orphan := linked fun k => { k with orphans := [pkt], rehomeTag := 5 }
    let res := modCirc 3 (fun x => { x with state := 1, cmd := some aCmd, k := 0, fibreA := 1 }) s
    let off := { s with link := { s.link with ports := [(8, { aPort with enabled := false }), (9, { aPort with enabled := false })] } }
    laneState idle 8 ≠ .inService ∧ (laneLink idle 8).asked = none ∧ (laneOpt idle 8).wdCause = 0 ∧ (laneOpt ours 8).wdCause = 1 ∧
    laneState ours 8 = .withdrawn ∧ (thePort wide 8).width = 2 ∧ portOfLane (laneIn 3 .inService up) 3 = none ∧
    laneState (laneIn 3 .inService up) 3 = .inService ∧ (laneLink s 8).askTag ≠ 6 ∧ (reservedBy res 8).isSome = true ∧
    (laneLink cal 8).asked = some .cal ∧ (laneLink (linked fun k => { k with asked := some .swap }) 8).asked = some .swap ∧
    laneFrames s 8 = true ∧ laneFrames up 9 = false ∧ (laneLink orphan 8).orphans ≠ [] ∧ (laneLink orphan 8).rehomeTag = 5 ∧
    portOfLane orphan 8 = some 8 ∧ (laneLink s 8).orphans = [] ∧ (laneLink (t 0) 8).trainStep = 0 ∧ (thePort (t 0) 8).enabled = true ∧
    (thePort { t 1 with link := off.link } 8).up = true ∧ (thePort up 8).up = false ∧ runs .laneReset (hdr 1) [1024] s = true ∧
    runs .laneReset (hdr 1) [8] idle = true ∧ laneState (laneIn 8 .flue s) 8 = .flue ∧
    servingLanes (laneIn 9 .inService wide) 8 ≠ [8] ∧ runs .laneReset (hdr 1) [8] (laneIn 9 .inService wide) = true := by decide +kernel

theorem witness_PortConfigurations :
    let s := linked fun k => { k with asked := some .force, askTag := 5 }
    let off := { s with link := { s.link with ports := [(8, { aPort with enabled := false }), (9, { aPort with enabled := false })] } }
    runs .portConfig (hdr 1) [1024, 1, 1, 2, 2] s = true ∧ runs .portConfig (hdr 1) [8, 3, 1, 2, 2] s = true ∧
    runs .portConfig (hdr 1) [9, 2, 1, 2, 2] s = true ∧ runs .portConfig (hdr 1) [8, 2, 2, 2, 2] s = true ∧
    runs .portConfig (hdr 1) [8, 2, 1, 4, 2] s = true ∧ runs .portConfig (hdr 1) [8, 2, 1, 2, 1] s = true ∧
    ¬(∀ q ∈ portsOver { s with link := { s.link with ports := [(9, aPort)] } } 8 2,
      (thePort { s with link := { s.link with ports := [(9, aPort)] } } q).enabled = false) ∧
    portsOver off 8 2 ≠ [] ∧ (∀ q ∈ portsOver off 8 2, (thePort off q).enabled = false) ∧ (thePort off 8).enabled = false ∧
    (thePort s 8).width ≠ 2 ∧ (thePort s 8).enabled = true ∧ holdsFlue (laneIn 8 .flue s) 8 1 = true ∧ holdsFlue s 8 1 = false ∧
    wholeScratch (modBarn 0 (fun b => { b with scratchCells := 65536 }) up) 0 = true ∧ barnUp State.reset 0 = false := by decide +kernel

/-- A request of circuit 3 between fibres 0 and 1 on wavelengths 0 to 7, and its measurements. -/
def aRequest : List Word := [pack [(25, 3), (11, 1), (3, 255)], 0x900, 0xA00, pack [(20, 5), (0, 0xEC)], 0, 0, 0, 0]
def goodMeas : FlueMeas := ⟨true, true, true, true, 40, 40, 300, 300⟩

/-- Circuit 3 in a state since instant 0, with its next retune due. -/
def circuitIn (st now : Nat) : State :=
  let s := modCirc 3 (fun _ => { (circOf aRequest) with state := st, nextAt := 10 }) up
  { s with time := { s.time with now := now } }

theorem witness_FlueCommands :
    let s := hostHas 0x1000 aRequest up
    let f := fetched (.flueOpen (hdr 1) [0x1000, 0] goodMeas) (ready 1 s)
    let x := circOf aRequest
    let w := modCirc 3 (fun x => { x with cmd := some aCmd, meas := some goodMeas }) (laneIn 0 .flue (laneIn 8 .flue (circuitIn 1 0)))
    accepted (.flueOpen (hdr 1) [0x1000, 0] goodMeas) (ready 1 s) = true ∧ wordsOf (hostRead f 0x1000 32) = aRequest ∧
    (x.fibreA ≠ x.fibreB ∧ x.outLossA ≤ 40 ∧ x.leadMs ≤ 100 ∧ genExt x.endA = 0 ∧ genExt x.endB = 0) ∧
    wholeScratch s 0 = false ∧ chooseK s 0 1 255 false = some 0 ∧ chooseK (laneIn 0 .inService s) 0 1 1 false = none ∧
    (tuningFails 3 goodMeas (modCirc 3 (fun _ => x) s)).1 = none ∧
    (tuningFails 3 { goodMeas with lockA := false } (modCirc 3 (fun _ => x) s)).1.isSome = true ∧
    runs .flueSwitch (hdr 1) [3] (circuitIn 2 0) = true ∧ circState (circuitIn 1 0) 3 = 1 ∧ circState up 3 = 0 ∧
    circDrained w (theCirc w 3) = true ∧ runs .flueClose (hdr 1) [3] w = true ∧ (theCirc w 3).cmd = some aCmd ∧
    runs .flueClose (hdr 1) [3] (circuitIn 3 0) = true ∧ (theCirc (circuitIn 2 0) 3).state = 2 ∧
    (theCirc s 3).state = 0 ∧ (theCirc (circuitIn 2 0) 3).state ≠ 0 ∧ (circOf (aRequest.set 0 0)).fibreA = (circOf (aRequest.set 0 0)).fibreB ∧
    (thePart s x.partition).state ≠ 2 ∧ (thePart (s.modJobs fun j => { j with parts := [(x.partition, ⟨2, 0, 0, 0, 0⟩)] }) x.partition).state = 2 ∧
    wholeScratch (modBarn 0 (fun b => { b with scratchCells := 65536 }) s) (barnOf (8 * x.fibreA)) = true ∧
    wholeScratch s (barnOf (8 * x.fibreB)) = false ∧ circDrained (laneIn 8 .inService w) (theCirc w 3) = false ∧ (theCirc w 3).meas = some goodMeas ∧
    (theCirc (circuitIn 2 0) 3).cmd = none ∧ runs .flueSwitch (hdr 1) [128] up = true ∧ runs .flueSwitch (hdr 1) [3] (circuitIn 1 0) = true ∧
    (theCirc (circuitIn 1 0) 3).cmd.isSome = false ∧ (theCirc w 3).state = 1 ∧ circState w 3 = 1 ∧ runs .flueSwitch (hdr 1) [3] w = true ∧
    runs .flueClose (hdr 1) [128] up = true := by decide +kernel

theorem witness_FlueRows :
    let late := circuitIn 2 (600 * 256000000000)
    (theCirc late 3).state = 2 ∧ circState late 3 = 1 ∧ (tuningFails 3 goodMeas (circTo 3 1 late)).1 = none ∧
    (tuningFails 3 { goodMeas with lightB := false } (circTo 3 1 late)).1.isSome = true ∧ circState up 3 ≠ 1 ∧
    circState (circuitIn 3 10) 3 = 4 ∧ circState (circuitIn 3 0) 3 = 3 ∧ (theCirc (circuitIn 3 0) 3).noticeAt ≠ some 10 ∧
    circReady late (theCirc late 3) = true ∧ 50 ≤ marginAB late (theCirc late 3) goodMeas ∧
    50 ≤ marginBA late (theCirc late 3) goodMeas ∧ circState (circuitIn 2 0) 3 ≠ 1 ∧
    (let c := modCirc 3 (fun x => { x with nextAt := 20 * 256000000, leadMs := 50 }) (circuitIn 3 0)
     (theCirc c 3).nextAt ≤ c.time.now + usU (1000 * (theCirc c 3).leadMs) ∧ (theCirc c 3).noticeAt ≠ some (theCirc c 3).nextAt ∧
     circReady c (theCirc c 3) = true) ∧
    (theCirc (circuitIn 3 0) 3).noticeAt ≠ some (theCirc (circuitIn 3 0) 3).nextAt ∧
    (let c := modCirc 3 (fun x => { x with nextAt := 20 * 256000000 }) (circuitIn 3 0)
     c.time.now + usU (1000 * (theCirc c 3).leadMs) < (theCirc c 3).nextAt) ∧
    circReady State.reset (theCirc late 3) = false ∧ circState (circuitIn 3 10) 3 ≠ 3 := by decide +kernel

/-! ### Witnesses: time, kindling, partitions and resets -/

/-- The state after reset with device time changed. -/
def timeState (f : TimeSt → TimeSt) : State := up.modTime f

theorem witness_TimeCommands :
    let s := timeState fun t => { t with state := 4, pending := 500, ports := [(8, { role := 2 })] }
    runs .timeConfig (hdr 1) [1000, 50, 2, 6, 3000, 255, 0, 0, 0, 500] s = true ∧
    runs .timeConfig (hdr 1) [99, 50, 2, 6, 3000, 255, 0, 0, 0, 500] s = true ∧
    runs .timePortConfig (hdr 1) [8, 0x80000000] s = true ∧ nfld (arg64 [8, 0x80000000] 1) 63 62 = 2 ∧
    runs .timePortConfig (hdr 1) [8, 0xC0000000] s = true ∧ runs .timeSource (hdr 1) [1, 8] s = true ∧ (thePtp s 8).role = 2 ∧
    runs .timeSource (hdr 1) [0] (timeState fun t => { t with state := 2 }) = true ∧ runs .timeSource (hdr 1) [3] s = true ∧
    (thePtp s 9).role ≠ 2 ∧ runs .timeSet (hdr 1) [0, 0, 1000000000, 0] s = true ∧ timeOk 1000000000 = false ∧ timeOk 999999999 = true ∧
    runs .timeSet (hdr 1) [0, 0, 5, 1] s = true ∧ runs .timeStepAccept (hdr 0) [0] s = true ∧ stepFits (ready 0 s) 500 = true ∧
    stepFits (ready 0 s) (-1) = false ∧ runs .timeStepAccept (hdr 0) [1, 500, 0] s = true ∧ runs .timeStepDismiss (hdr 0) [] s = true ∧
    runs .captureConfig (hdr 1) [0, 0, 255] s = true := by decide +kernel

theorem witness_TimeRows :
    let s := withPort 8 (timeState fun t => { t with state := 2, now := 10 ^ 12, edges := 1, ppsOut := true,
                                                     ppsSet := [⟨0, 0, aCmd⟩], srcKind := 1, srcPort := 8,
                                                     ports := [(8, { role := 2, fresh := true, haveDelay := true })] })
    let m := { s with time := { s.time with ports := [(8, { role := 1, mech := 1 })] } }
    let q := sendTime 8 [0] .none (modLaneLink 8 (fun k => { k with tx := some aTx }) s)
    tget q.link.timeQ [] 8 ≠ [] ∧ (laneLink q 8).tx.isSome = true ∧ (laneLink s 8).tx = none ∧ takesPackets s 8 8 = true ∧
    s.time.holdFrom + usU (1000 * s.time.holdoverMs) ≤ s.time.now ∧ timeUnset s = false ∧ (s.time.stepNs * 256 : Nat) < (256001 : Int).natAbs ∧
    s.time.ppsRise + usU (1000 * s.time.ppsWidthMs) ≤ s.time.now ∧ s.time.edges.getLsbD 0 = true ∧ 0 + secU 2 ≤ s.time.now ∧
    timeLane s 8 = some 8 ∧ (thePtp s 8).mech ≠ 1 ∧ (thePtp m 8).role = 1 ∧ (thePtp m 8).mech = 1 ∧ timeLane s 9 = none ∧
    isTime aTime.hdr = true ∧ crcOk aTime = true ∧ timeDrops s 8 aTime = false ∧ timeDrops s 8 { aTime with payload := [] } = true ∧
    portOfLane s 8 = some 8 ∧ (thePort s 8).up = true ∧ barnUp s (barnOf 8) = true ∧ isSource s 8 = true ∧ (thePtp s 8).fresh = true ∧
    ptpType aTime.payload = 0 ∧ ptpTwoStep ([0, 2, 0, 44, 0, 0, 2] : List Byte) = true ∧ up.time.ppsSet = [] ∧
    edgeSoon s 8 500000000000 = false ∧ edgeSoon s 0 100000 = false ∧
    edgeSoon { s with time := { s.time with pinAt := [(0, 0), (8, 0)] } } 8 500000000000 = true ∧
    edgeSoon { s with time := { s.time with pinAt := [(0, 0), (8, 0)] } } 0 100000 = true ∧
    crcOk { aTime with crc := aTime.crc + 1 } = false := by decide +kernel

theorem witness_TimeCommandRefusals :
    let s := timeState fun t => { t with state := 4, pending := 500, ports := [(8, { role := 2, haveDelay := true })] }
    let n (a : Nat) : Int := (BitVec.ofNat 5 (nfld (arg64 [8, a] 1) 60 56)).toInt
    n 0x80000000 ≤ 0 ∧ -10 ≤ n 0x80000000 ∧ n 0x90000000 < -10 ∧ 0 < n 0x81000000 ∧ nfld (arg64 [8, 0x80000000] 1) 50 48 ≤ 4 ∧
    4 < nfld (arg64 [8, 0x80050000] 1) 50 48 ∧ nfld (arg64 [8, 0xC0000000] 1) 63 62 = 3 ∧ runs .timeSource (hdr 1) [1, 1024] s = true ∧
    (thePtp s 8).haveDelay = true ∧ runs .timeSet (hdr 1) [0, 0, 5, 2] s = true ∧ runs .timeSet (hdr 1) [0, 0, 5, 0] s = true ∧
    runs .timeStepAccept (hdr 0) [2] s = true ∧ runs .timeStepAccept (hdr 0) [0] up = true ∧ up.time.state ≠ 4 ∧
    runs .timeStepDismiss (hdr 0) [] up = true ∧ runs .captureConfig (hdr 1) [0, 0, 256] s = true := by decide +kernel

theorem witness_OffsetsAndEdges :
    let s (st k : Nat) := timeState fun t => { t with state := st, now := 10 ^ 12, srcKind := k }
    let m := timeState fun t => { t with state := 2, now := 3 * secU 1 + 100 }
    (s 0 1).time.state = 0 ∧ (s 0 1).time.srcKind = 1 ∧ stepFits (s 0 1) (-((5 : Int) : Rat)) = true ∧
    stepFits (s 0 1) (-((10 ^ 12 + 1 : Int) : Rat)) = false ∧ (s 0 2).time.srcKind ≠ 1 ∧ (s 0 1).time.srcKind ≠ 0 ∧ (s 4 1).time.state = 4 ∧
    ((s 2 1).time.stepNs * 256 : Nat) < (10 ^ 12 : Int).natAbs ∧ (5 : Int).natAbs ≤ ((s 2 1).time.stepNs * 256 : Nat) ∧
    m.time.now < 3 * secU 1 + usU (1000 * m.time.holdoverMs) ∧
    timeUnset m = false ∧ m.power.on0.getLsbD 6 = true ∧ reached m (secU (secOf m.time.now)) = true ∧ m.time.ppsOut = false ∧
    (s 2 1).power.on0.getLsbD 6 = true ∧ State.reset.power.on0.getLsbD 6 = false ∧ State.reset.power.on1.getLsbD 6 = false ∧
    reached (s 2 1) (secU (secOf (s 2 1).time.now)) = false ∧ edgeSoon (s 2 1) 8 500000000000 = false ∧ (s 2 1).time.ppsSet = [] ∧
    512 ≤ (s 2 1).time.now ∧ (s 2 1).kindle = [] ∧ 0 ≤ ((s 2 1).time.now : Rat) + (s 2 1).time.sub + 5 ∧
    (s 2 1).time.sub < 1 ∧ (s 2 1).time.edges.getLsbD 1 ≠ true ∧ 12 < (⟨0, 0, 0, pack [(23, 13)], 0, 0, 0, 0⟩ : Header).len ∧
    aTime.hdr.len ≤ 12 := by decide +kernel

/-- An image of a Kindling entry: action, launch second, PERIOD in ns, REFUSE_LATE. -/
def aKindle (a sec period late : Nat) : List Word := [pack [(28, a), (27, late)], w32 sec, 0, 0, w32 period, 0, 0, 0]

/-- Entry 0 armed with an image and due at instant 256, at an instant. -/
def armedAt (a period now : Nat) : State :=
  let s := timeState fun t => { t with state := 2, now := now }
  { s with kindle := [(0, { image := aKindle a 0 period 0, armed := true, next := 256 })] }

theorem witness_Kindling :
    let s := timeState fun t => { t with state := 2 }
    let k (a sec period late : Nat) : KEntry :=
      let x : KEntry := { image := kImage (0 :: aKindle a sec period late), armed := true }
      { x with next := kLaunch x }
    let other : KEntry := { image := kImage (0 :: List.set (aKindle 3 1 0 0) 0 (pack [(28, 3), (0, 5)])), armed := true }
    let parts (n : Nat) := s.modJobs fun j => { j with parts := [(5, ⟨n, 0, 0, 0, 0⟩)] }
    runs .kindleArm (hdr 1) (0 :: aKindle 5 1 0 0) s = true ∧ runs .kindleArm (hdr 1) (0 :: aKindle 5 1 0 0) up = true ∧
    (theK s 0).armed = false ∧ (theK (armedAt 5 0 0) 0).armed = true ∧ kBadWord (k 0 0 0 0) = some 2 ∧ kBadWord (k 1 0 10000 0) = some 6 ∧
    kBadWord (k 5 1 10000 0) = none ∧ kPermits s (k 5 1 0 0) = true ∧ quotaRefusal s (kPartition (k 5 1 0 0)) 2 1 = none ∧
    nonActiveNow s ≠ .sealedV ∧ nonActiveNow sealedState = .sealedV ∧ commitArmed sealedState = false ∧ s.time.now ≤ (k 5 1 0 0).next ∧
    (k 5 0 0 1).next < (armedAt 5 0 300).time.now ∧ kRefuseLate (k 5 0 0 1) = true ∧ kRefuseLate (k 5 0 0 0) = false ∧
    runs .kindleDisarm (hdr 0) [0] s = true ∧ kindleDue (armedAt 5 10000 256) 0 = true ∧ kAction (theK (armedAt 3 0 256) 0) = 3 ∧
    kindleDue (armedAt 4 0 256) 0 = true ∧ kindleDue s 0 = false ∧
    decide ((theK (armedAt 5 0 256) 0).next + nsU 20 < 6000) = true ∧ runs .kindleArm (hdr 1) (256 :: aKindle 5 1 0 0) s = true ∧
    (thePart s 5).state ≠ 2 ∧ (thePart (parts 2) (kPartition other)).state = 2 ∧ kPartition other = 5 ∧ kBadWord other = none ∧
    kPermits s other = false ∧ (quotaRefusal (parts 1) (kPartition other) 2 1).isSome = true ∧
    runs .kindleDisarm (hdr 0) [256] s = true ∧ launchesBefore (theK (armedAt 5 0 0) 0) 0 ≤ (theK (armedAt 5 0 0) 0).launches ∧
    (theK (armedAt 5 10000 300) 0).launches < launchesBefore (theK (armedAt 5 10000 300) 0) 2560300 := by decide +kernel

theorem witness_KindlingSeeds :
    let s := modSeed 0 (fun _ => { state := 2, partition := 5, length := 32, sent := 16 }) harvestState
    (theSeed s 0).state = 2 ∧ (theSeed s 0).sent < (theSeed s 0).length ∧ barnUp s (granHome 16) = true ∧
    (theSeed up 0).state ≠ 2 ∧ barnUp State.reset (granHome 16) = false ∧ 32 ≤ (theSeed (modSeed 0 (fun x => { x with sent := 32 }) s) 0).sent := by decide +kernel

theorem witness_PartitionsAndSeeds :
    let s := withPart 5 up
    let w : List Word := [5, pack [(19, 4096), (4, 16384)], pack [(23, 256)], pack [(12, 589824)]]
    let seed : List Word := [pack [(16, 9), (0, 5)], 0, 0, 0, 16, 0, 0, 0]
    let h := hostHas 0x1000 seed harvestState
    runs .partCreate (hdr 1) w up = true ∧ partBad w = none ∧ partBad [0, 0, 0, 0] = some 1 ∧ (thePart up 5).state = 0 ∧
    (thePart s 5).state = 1 ∧ (thePart retiringState 5).state = 2 ∧ runs .partQuota (hdr 1) w s = true ∧ chargeOf s 5 3 = 0 ∧
    limitOf (partOf [5, 0, 0, 0] 1) 3 < chargeOf harvestState 5 3 ∧ runs .partPortSet (hdr 1) [8, 0x40000005] (withPort 8 s) = true ∧
    portBase (withPort 8 s) 8 = true ∧ portBase s 9 = false ∧ runs .partAllowWrite (hdr 1) [255, 0x80006005] s = true ∧
    runs .partAllowWrite (hdr 1) [0, 0] s = true ∧ runs .partScrubConfig (hdr 1) [250] s = true ∧
    runs .seedDefine (hdr 1) [63, 0x1000, 0] h = true ∧ seedOk h (seedOf seed) = true ∧ seedOk s (seedOf [0, 0, 0, 0, 0, 0, 0, 0]) = false ∧
    (tget h.routing.trees {} 0).partition = 5 ∧ windowFor h 5 0 16 true false = some 0 ∧ windowFor s 5 0 16 true false = none ∧
    runs .seedFree (hdr 1) [0] s = true ∧ runs .partRetire (hdr 0) [5] s = true ∧ runs .partRetire (hdr 0) [0] s = true ∧
    runs .partRetire (hdr 0) [4096] s = true ∧ runs .partRetire (hdr 0) [5] up = true ∧ runs .partRetire (hdr 0) [5] retiringState = true ∧
    runs .partAllowWrite (hdr 1) [256, 0] s = true ∧ runs .partAllowWrite (hdr 1) [0, 0x80005005] s = true ∧
    runs .partPortSet (hdr 1) [1024, 0] s = true ∧ runs .partScrubConfig (hdr 1) [0] s = true ∧ runs .seedDefine (hdr 1) [64, 0x1000, 0] h = true ∧
    runs .seedFree (hdr 1) [64] s = true ∧ (theSeed s 0).state ≠ 2 ∧ (tget s.routing.trees {} 0).valid = false ∧
    (theSeed (modSeed 0 (fun x => { x with state := 2 }) s) 0).state = 2 ∧ chargeOf s 5 0 ≤ limitOf (partOf w 1) 0 := by decide +kernel

theorem witness_Resets :
    let pend (p : PendReset) := up.modPower fun x => { x with pending := p }
    let down := up.modPower fun x => { x with ready0 := false, ready1 := false, inReset := true }
    let b := modBarn 0 (fun x => { x with inReset := true }) up
    let u : OpticsUp := ⟨true, true, [], [], [], [], []⟩
    let waiting := (modBarn 0 (fun b => { b with stored := [aStored] }) (pend .device)).modPower fun x => { x with pendPids := [1] }
    runs .deviceReset (hdr 0) [] (withCtx (aCtx 3 0)) = true ∧ runs .halfReset (hdr 0) [1] up = true ∧
    runs .halfReset (hdr 0) [2] up = true ∧ (pend (.half 1)).power.pending = .half 1 ∧ (pend .device).power.pending = .device ∧
    pidsLeft (pend .device) (pend .device).power.pendPids = false ∧ halfPowered (pend (.half 1)) 1 = true ∧
    halfPowered ((pend (.half 1)).modPower fun x => { x with on1 := 0 }) 1 = false ∧ runs .barnReset (hdr 1) [16] up = true ∧
    (waiting.power.pendPids = [1] ∧ pidsLeft waiting waiting.power.pendPids = true ∧ waiting.time.now < waiting.power.pendAt + usU 50) ∧
    waiting.power.pending = .device ∧ waiting.power.pendAt + usU 50 ≤ (waiting.modTime fun t => { t with now := 12800000 }).time.now ∧ masterBad u 0 down = false ∧ masterBad { u with ref0Ok := false } 0 down = true ∧ up.power.pending = .none ∧ runs .barnReset (hdr 1) [15] up = true ∧ barnInUse up 15 = false ∧
    barnInUse (withCtx (aCtx 3 0)) 0 = true ∧ (theBarn b 0).inReset = true ∧ halfReady b 0 = true ∧ halfPowered down 0 = true ∧
    halfReady down 0 = false ∧ down.power.inReset = true ∧ down.power.resetHeld = false ∧ down.time.refOk0 = true ∧ down.time.refOk1 = true ∧
    u.ref0Ok = true ∧ up.power.inReset = false ∧
    halfReady (up.modPower fun x => { x with ready0 := false }) 0 = false := by decide +kernel

/-! ### Witnesses: the Hearth, firmware and security -/

/-- The vendor's key of these tests: private key 1, so that the public key is the base point. -/
def aKey : List Byte := beBytes 32 p256Gx ++ beBytes 32 p256Gy

/-- The signature of a message under that key with the nonce 1. -/
def aSign (msg : List Byte) : List Byte :=
  beBytes 32 (p256Gx % p256N) ++ beBytes 32 ((ofBe (sha256 msg) + p256Gx) % p256N)

/-- A signed image of four body bytes, with SEC_VER 1. -/
def anImage : List Byte :=
  let body : List Byte := [1, 2, 3, 4]
  let head := wordsLe [0x00010000, 0x02000000, pack [(24, 1), (8, 0x10), (0, 0x10)], 4] ++ List.replicate 16 0 ++ sha256 body ++ aKey
  head ++ aSign head ++ List.replicate 320 0 ++ body

/-- A state whose vendor key is that key, with the image given to the host and to the recovery buffer. -/
def vendorState : State :=
  (up.modSec fun c => { c with vendorDigest := sha256 aKey, owners := [sha256 aKey] }).modHearth fun h =>
    { h with hostMem := memWrite [] 0x1000 anImage }

theorem witness_HearthRegisters :
    let g (t : Nat) := modRing 0 (fun g => { g with en := true, cmdTail := t, cplHead := 0 }) (ready 1 up)
    (theRing up 0).en = false ∧ (theRing (g 0) 0).en = true ∧ inFlight (theRing (g 200) 0) = 200 ∧
    (5 + 65536 - (theRing (g 4) 0).cmdTail) % 65536 = 1 ∧ 256 - inFlight (theRing (g 200) 0) < 57 ∧
    256 - inFlight (theRing (g 4) 0) ≥ 1 ∧ (theRing (g 0) 0).cmdTail = 0 ∧
    (up.hearth.ifValid = false ∧ (theRing up 2).isLocal = false) ∧ inMsix 0x8000 = true ∧ inMsix 0x0040 = false ∧
    (0x010000 : Nat) ≤ (0x010004 : BitVec 24).toNat ∧ up.power.recovery = false ∧
    (up.modPower fun p => { p with recovery := true }).power.rcvState ≠ 1 ∧
    anyEn (g 0) = true ∧ anyEn up = false ∧ bitAt (1 : Word) 0 = true ∧ (g 0).hearth.ifValid = true := by decide +kernel

theorem witness_HearthEventsAndResets :
    let e : Event := ⟨1, 0, List.replicate 12 0, none⟩
    let s := modEv (fun x => { x with en := true, queue := [e] }) up
    let t := modEv (fun x => { x with en := true }) (timeState fun t => { t with store := [⟨1, false, 0, 0⟩] })
    let f : Fold := ⟨⟨0x0102, 1, 0, 1, 2, 0, none, 0, []⟩, 0, 3⟩
    let u := up.modSec fun c => { c with folds := [f] }
    evServed up = false ∧ evServed s = true ∧ s.time.store = [] ∧ evServed t = true ∧ t.hearth.ev.queue = [] ∧
    (up.hearth.ready = true ∧ up.hearth.inReset = false) ∧
    (hearthReset 8 up).hearth.inReset = true ∧ runs .hearthReset (hdr 0) [] up = true ∧
    (u.sec.folds.find? fun x => x.rep.loc == (0x0102, 0, 1, 2)) = some f ∧ u.time.now < f.since + usU 100000 ∧
    nextCapture s.time.store = none ∧ nextCapture t.time.store = some 0 ∧ t.time.store[0]? = some ⟨1, false, 0, 0⟩ ∧ s.hearth.ev.queue = [e] ∧
    s.hearth.inReset = false ∧ (theRing (modRing 2 (fun g => { g with isLocal := true }) up) 2).isLocal = true ∧
    f.since + usU 100000 ≤ (u.modTime fun t => { t with now := usU 100000 }).time.now ∧ u.sec.folds.find? (fun x => x.rep.loc == (1, 0, 1, 2)) = none ∧
    (∃ x ∈ (withCtx (aCtx 3 0)).coll, ctxUsed x.2 = true) ∧ (∀ x ∈ up.coll, ctxUsed x.2 = false) ∧ (∀ x ∈ up.jobs.seeds, x.2.state ≠ 2) ∧
    runs .mbxNop (hdr 3) [] up = true ∧ runs .deviceConfig (hdr 1) [255] up = true ∧
    runs .deviceConfig (hdr 1) [0] up = true ∧ runs .endpointIdSet (hdr 1) [0xFF123] up = true ∧
    runs .endpointIdSet (hdr 1) [0x123] up = true ∧ (0xFF123 : Nat) / 4096 = 255 := by decide +kernel

/-- The host has the image at 0x1000. -/
theorem witness_FirmwareImage : hostRead vendorState 0x1000 516 = anImage := by
  have h : anImage.length = 516 := by decide +kernel
  have e : vendorState.hearth.hostMem = memWrite [] 0x1000 anImage := by
    simp only [vendorState, State.modHearth, State.modSec]
  rw [hostRead, e, ← h, memRead_memWrite]

theorem witness_Firmware :
    let s := vendorState
    let c := aCmd
    let l := s.modHearth fun h => { h with detached := [⟨c, .fwLoad 0x1000 516, false⟩] }
    let bad := { l with sec := { s.sec with vendorDigest := [] } }
    let a := setSlot 1 (fwSlotOf anImage) s
    runs .fwLoad (hdr 2) [0x1000, 0, 516] s = true ∧ runs .fwLoad (hdr 2) [0x1000, 0, 4194305] s = true ∧ loading s = false ∧ loading l = true ∧
    imageCheck s.sec anImage = none ∧ imageCheck bad.sec anImage = some 2 ∧
    (fwSlotOf anImage).secVer = 1 ∧ lacksVer s (fwSlotOf anImage) = none ∧
    accepted (.fwActivate (hdr 1) [] true) (ready 1 a) = true ∧ (fwSlot a 1).state = 1 ∧ (fwSlot s 1).state ≠ 1 ∧
    (l.hearth.detached.any fun d => !holdsRing d.cmd.opcode) = true ∧ runs .fwCommit (hdr 1) [] s = true ∧
    slotPasses up 0 = true ∧ slotPasses { s with sec := { s.sec with fuseA := 3 } } 0 = false ∧
    slotPasses a 1 = true ∧ ((s.modPower fun p => { p with recovery := true, rcvState := 1, rcvLen := 516 }).power.rcvState = 1) ∧
    (∀ d ∈ s.hearth.detached, holdsRing d.cmd.opcode = true) ∧ (∃ d ∈ l.hearth.detached, holdsRing d.cmd.opcode = false) ∧
    s.hearth.commitPending = false ∧ (s.modHearth fun h => { h with commitPending := true }).hearth.commitPending = true ∧
    (fwSlotOf anImage).secVer < { s.sec with fuseA := 3 }.fusedVer ∧ s.sec.fusedVer ≤ (fwSlotOf anImage).secVer ∧
    lacksVer (modRing 1 (fun g => { g with en := true, isLocal := true, ver := 0x20 }) s) (fwSlotOf anImage) = some 0x20 ∧
    s.hearth.committed = 0 ∧ slotPasses s 1 = false ∧ (anImage.length = 516) ∧
    bootCheck s.sec anImage = none ∧ bootCheck bad.sec anImage = some 2 ∧ idsLost s = false ∧
    idsLost (s.modSec fun c => { c with copiesBad := 3 }) = true ∧ up.power.recovery = false := by decide +kernel

/-- R389: a pair counts once, whichever of its twins reads as blown. -/
theorem test_fused_version_counts_pairs :
    { up.sec with fuseA := 5, fuseB := 6 }.fusedVer = 3 ∧ blown 3 0 = 7#64 := by decide +kernel

/-- The forty words of a signed authorisation block. -/
def aBlock (type slot param : Nat) : List Word :=
  let head := pack [(24, type), (16, slot), (0, param)] :: List.replicate 7 0 ++ wordsOf aKey
  head ++ wordsOf (aSign (wordsLe head))

theorem witness_LifeCycle :
    let s (n : Nat) := { vendorState with sec := { vendorState.sec with life := n } }
    let a (t sl p : Nat) := authAt (aBlock t sl p) 1
    let c := vendorState.sec
    authCheck c true true false (a 1 0 1) = none ∧ authCheck c true true true (a 2 0 1) = none ∧
    authCheck c true true false { (a 5 0 60) with sig := [] } = some 5 ∧ signerOk c (a 1 2 2) = false ∧
    accepted (.lifecycleAdvance (far 3 40) (aBlock 1 0 1)) (ready 3 (s 0)) = true ∧ (a 1 0 1).param = 1 ∧ (a 1 1 2).slot = 1 ∧
    accepted (.returnAuthorise (far 3 80) (aBlock 3 0 0 ++ aBlock 4 1 0)) (ready 3 (s 2)) = true ∧
    authCheck c true true false (authAt (aBlock 3 0 0 ++ aBlock 4 1 0) 1) = none ∧
    authCheck c true true false (authAt (aBlock 3 0 0 ++ aBlock 4 1 0) 41) = none ∧
    authCheck c true true false (a 5 0 60) = none ∧
    accepted (.debugUnlock (far 3 40) (aBlock 5 0 60)) (ready 3 (s 2)) = true ∧ (a 5 0 60).type = 5 ∧ (a 5 0 60).param = 60 ∧
    (s 0).jobs.parts = [] ∧ c.factoryDone = true ∧ c.owners.length < 4 ∧ c.owners ≠ [] ∧
    authCheck c false true false (a 1 0 1) = some 1 ∧ authCheck c true true false { (a 1 0 1) with uid := 1 } = some 2 ∧
    authCheck c true true false { (a 1 0 1) with seq := 5 } = some 3 ∧ authCheck c true false false (a 1 0 1) = some 4 ∧
    accepted (.lifecycleAdvance (far 3 40) (aBlock 1 0 1)) (ready 3 (s 2)) = true ∧
    (∃ e ∈ (withPart 5 (s 2)).jobs.parts, e.2.state ≠ 0) ∧ up.sec.debugUntil = none ∧
    (up.modSec fun c => { c with debugUntil := some 5 }).sec.debugUntil = some 5 ∧ up.time.hearthPs < 5 ∧
    (s 0).sec.life = 0 ∧ (s 2).sec.life ≠ 3 := by decide +kernel

theorem witness_TagAreaAndCalibration :
    runs .tagWrite (hdr 1) [508, 4, 7] up = true ∧ runs .tagWrite (hdr 1) [2, 4, 7] up = true ∧
    runs .tagWrite (hdr 1) [4, 0] up = true ∧ up.sec.life = 2 ∧ runs .calUserWrite (hdr 1) [1, 0, 0] up = true ∧
    runs .calUserWrite (hdr 1) [4, 80, 0] up = true ∧ runs .calUserWrite (hdr 1) [2, 0, 21] up = true ∧
    runs .calUserWrite (hdr 1) [4, 79, BitVec.ofInt 32 (-100)] up = true ∧ (BitVec.ofInt 32 (-100)).toInt = -100 := by decide +kernel

theorem witness_TallyAndTracing :
    let a : List Word := [1, 10, 0x001FFFFE, 255, 0, 0x100000, 0, 65536]
    let b : List Word := [1, 24, 255, 65535, 9, 0, 0x100000, 0, 16777216]
    let g : List Word := [1, 1, 0x1000, 0]
    let l : Latch := ⟨0, 100, 1, 0, 257, 0, false, 0, 0, [], 0⟩
    let s := up.modCount fun c => { c with tally := { c.tally with last := some l } }
    runs .tallyConfig (hdr 1) a up = true ∧ runs .tallyConfig (hdr 1) [2, 10, 0, 0, 0, 0, 0, 2] up = true ∧
    (ringTarget up a 5 (65536 * slotLen 0x001FFFFE)).toOption = some (.host 0x100000) ∧
    runs .traceConfig (hdr 1) b up = true ∧ (ringTarget up b 6 (16777216 * 64)).toOption = some (.host 0x100000) ∧
    (match ringTarget up g 1 4096 with | .error e => some e | .ok _ => none) = some (0x0B, 0) ∧
    runs .tallyLatch (hdr 1) [65535] up = true ∧ up.count.tally.last = none ∧
    s.time.now < l.start + nsU l.windowNs ∧ l.start ≤ s.time.now ∧
    runs .tallyConfig (hdr 1) [1, 9, 0, 0, 0, 0, 0, 2] up = true ∧ runs .tallyConfig (hdr 1) [1, 10, 1, 0, 0, 0, 0, 2] up = true ∧
    runs .tallyConfig (hdr 1) [1, 10, 2, 256, 0, 0, 0, 2] up = true ∧ runs .tallyConfig (hdr 1) [1, 10, 2, 0, 0, 0, 0, 1] up = true ∧
    runs .traceConfig (hdr 1) [1, 7, 0, 0, 0, 0, 0, 0, 1024] up = true ∧ runs .traceConfig (hdr 1) [1, 8, 256, 0, 0, 0, 0, 0, 1024] up = true ∧
    runs .traceConfig (hdr 1) [1, 8, 0, 65536, 0, 0, 0, 0, 1024] up = true ∧ runs .traceConfig (hdr 1) [1, 8, 0, 0, 0, 0, 0, 0, 1023] up = true ∧
    (match ringTarget up [1, 0, 0, 0] 1 4096 with | .error e => some e | .ok _ => none) = some (0x01, 2) ∧
    (match ringTarget up [1, 5, 1, 0] 1 4096 with | .error e => some e | .ok _ => none) = some (0x01, 3) ∧
    (match ringTarget retiringState [1, 5, 0, 0] 1 4096 with | .error e => some e | .ok _ => none) = some (0x0D, 0) ∧
    (match ringTarget up [2, 0, 0, 0] 1 4096 with | .error e => some e | .ok _ => none) = some (0x01, 1) := by decide +kernel

theorem witness_Latches :
    let s := timeState fun t => { t with state := 2 }
    let due (s : State) : Prop := let p := s.count.tally.periodUs * 256000
      let m := s.time.now / p * p
      timeUnset s = false ∧ s.time.stepped ≤ m ∧ s.time.now - m < 1639 ∧ s.count.tally.lastPer ≠ some m
    let full := up.modCount fun c => { c with tally := { c.tally with waiting := [0, 0] } }
    let on := up.modCount fun c => { c with tally := { c.tally with enabled := true } }
    let trace := up.modCount fun c => { c with trace := { c.trace with enabled := true } }
    due s ∧ ¬due up ∧ up.count.tally.waiting.length < 2 ∧ up.count.tally.last = none ∧ full.count.tally.waiting.length = 2 ∧
    on.count.tally.enabled = true ∧ up.count.tally.enabled = false ∧ trace.count.trace.enabled = true ∧
    (trace.count.trace.recent.filter fun e => e.1 == 0).length < 256 := by decide +kernel

/-! ### Witnesses: power, packets and reads -/

/-- The state after reset with the power changed. -/
def powerState (f : Power → Power) : State := up.modPower f

theorem witness_RailsAndColdReset :
    let off := powerState fun p => { p with on0 := 0, on1 := 0, ready0 := false, ready1 := false, inReset := true }
    up.power.qualified = true ∧ (powerState fun p => { p with qualified := false }).power.qualified = false ∧
    idsLost up = false ∧ idsLost (up.modSec fun c => { c with copiesBad := 12 }) = true ∧
    up.power.aux = true ∧ slotPasses up up.hearth.committed = true ∧
    (off.power.recovery = false ∧ off.power.trip = false ∧ off.power.on0 = 0 ∧ off.power.stayOff0 = false ∧ off.time.refOk0 = true) ∧
    (off.modTime fun t => { t with refOk0 := false, refOk1 := false }).time.refOk1 = false ∧ convHeld off 0 = false ∧
    convHeld (off.modPower fun p => { p with convAt0 := [0] }) 0 = true ∧ (off.modPower fun p => { p with stayOff1 := true }).power.stayOff1 = true ∧
    (powerState fun p => { p with aux := false }).power.aux = false ∧ up.sec.life ≠ 3 ∧
    slotPasses (setSlot 0 { fwSlot up 0 with state := 2 } up) 0 = false ∧ halfReady up 0 = true ∧ up.power.inReset = false ∧
    (0b0011 : BitVec 4).getLsbD (2 * 0) = true ∧ (0b0011 : BitVec 4).getLsbD (2 * 0 + 1) = true := by decide +kernel

theorem witness_ConvertersReferencesTemperatureBridge :
    let s := powerState fun p => { p with on0 := 0, ready0 := false, convAt0 := [0] }
    let t := s.modTime fun t => { t with hearthPs := 100000000000 }
    let trip := (powerState fun p => { p with trip := true, coolSince := some 0 }).modTime fun t => { t with hearthPs := 10000000000000 }
    let spares := up.modCore fun k => { k with sparesUsed := [(0, 1), (1, 2)], retired := [7] }
    let thin := powerState fun p => { p with trip := true, qualified := false }
    let hot : List Nat := 113 :: List.replicate 25 40
    halfPowered up 0 = true ∧ halfPowered s 0 = false ∧ staysOff t 0 = false ∧ convWaited t 0 = true ∧ convWaited s 0 = false ∧
    mayPower t = true ∧ t.power.inReset = false ∧ up.time.refOk0 = true ∧
    (up.modTime fun t => { t with refOk1 := false }).time.refOk1 = false ∧ hot.length = 26 ∧ (hot.take 18).any (fun x => decide (112 < x)) = true ∧
    up.power.trip = false ∧ trip.power.coolSince = some 0 ∧ mayPower (trip.modPower fun p => { p with trip := false }) = true ∧
    chanRetired up 0 505 = false ∧ chanRetired spares 0 7 = true ∧ chanRole up 0 505 = some 505 ∧
    chanRole up 0 510 = none ∧ bridgeSpare up 0 = some 0 ∧ bridgeSpare spares 0 = none ∧ chanRole spares 0 9 = some 9 ∧
    chanRetired spares 0 9 = false ∧ chanRole spares 0 502 = some 502 ∧ chanRole spares 0 505 = some 505 ∧ (thin.power.trip = true ∧ mayPower thin = false) ∧
    staysOff (s.modPower fun p => { p with stayOff0 := true }) 0 = true ∧ (t.modPower fun p => { p with inReset := true }).power.inReset = true ∧
    trip.power.coolSince = some 0 ∧ 0 + 10000000000000 ≤ trip.time.hearthPs ∧ (tget up.mem.srcs {} 0).temp ≤ 95 := by decide +kernel

/-- A state that knows its own ID 0xFF001, routes 0x000009 by bundle 3 to port 16 and tree 4 to ports 16 and 17, with ports 8, 16 and
17 up and open to partition 5. -/
def routed : State :=
  let e : EpEntry := { valid := true, static := true, id := 9, bundle := 3 }
  let s := withPort 17 (withPort 16 (withPort 8 (withPart 5 up)))
  let s := s.modRouting fun r => { r with
    ep0 := [(setOf 9 * 8, e)], ep1 := [(setOf 9 * 8, e)],
    bundles := [(3, { valid := true, count := 1, slots := [(0, ⟨true, 16⟩)] })],
    trees := [(4, ⟨true, 5, 3 <<< 16⟩)] }
  (s.modJobs fun j => { j with portPart := [(8, ⟨1, 5⟩), (16, ⟨1, 5⟩), (17, ⟨1, 5⟩)] }).modHearth fun h =>
    { h with endpointId := some 0xFF001 }

/-- A header of version 1 with a kind, a destination, HOP_LIMIT and MC. -/
def aHeader (kind dst hop mc len : Nat) : Header :=
  ⟨pack [(30, 1), (26, kind), (20, mc), (8, 5), (0, hop)], pack [(8, dst)], pack [(8, 7)], pack [(23, len), (9, 4)], 0, 0, 0, 0⟩

theorem witness_PacketHeaders :
    let s := routed
    let h := aHeader 0 9 8 0 1
    let pol := s.modSched fun d => { d with policers := [(clsKey 8 0, ⟨⟨true, 1, 4136⟩, 0⟩)] }
    let look (h : Header) : Look := (lookup 0 (markEpoch s h).decHop (newPid s)).1
    portOfLane s 8 = some 8 ∧ (openRecord s 8 h).isSome = true ∧ isTime h = false ∧ isTime (aHeader 7 9 8 0 1) = true ∧
    takesPackets s 8 8 = true ∧ takesPackets up 8 8 = false ∧ headerDrop s h = none ∧ headerDrop s (aHeader 9 9 8 0 1) = some 2 ∧ admits s 8 5 = true ∧
    admits up 8 5 = false ∧ (police 8 h s).1 = true ∧ (police 8 h pol).1 = false ∧ toSelf s (aHeader 4 0xFF001 8 0 1) = true ∧
    toSelf s h = false ∧ h.hopLimit ≠ 0 ∧ (aHeader 0 9 0 0 1).hopLimit = 0 ∧
    (match look h with | .uni q => q == 16 | _ => false) = true ∧
    (match look (aHeader 0 11 8 0 1) with | .drop => true | _ => false) = true ∧
    (match look (aHeader 0 0 8 1 1) with | .multi l => l == [16, 17] | _ => false) = true ∧
    (match (lookup 0 (aHeader 0 0 8 1 1) up).1 with | .multi [] => true | .drop => true | _ => false) = true ∧
    headerDrop s (aHeader 4 9 8 0 1) = none ∧ (aHeader 4 0xFF001 8 0 1).kind = 4 ∧
    (match (lookup 0 (markEpoch s h).decHop (newPid up)).1 with | .multi _ => false | .drop => true | .uni _ => false) = true ∧
    headerDrop s (aHeader 0 9 8 0 257) = some 3 ∧ mcAllowed 2 = false := by decide +kernel

theorem witness_HopLimit :
    let s := routed
    runs .deviceConfig (hdr 1) [1] s = true ∧ runs .deviceConfig (hdr 1) [256] s = true ∧
    (judge 8 (aHeader 0 9 8 0 1) 0 (newPid s)).1.disp = .forwarded ∧ headerDrop s (aHeader 0 9 0 0 1) = none ∧
    admits s 8 (aHeader 0 9 0 0 1).partition = true ∧ (police 8 (aHeader 0 9 0 0 1) s).1 = true := by decide +kernel

/-- A received packet at lane 8, by what becomes of it. -/
def receiving (d : Disp) (h : Header) (bytes : List Byte) : State :=
  modLaneLink 8 (fun k => { k with rx := [⟨some h, bytes, false, d, false, 1, [], 0, 0⟩] }) routed

theorem witness_PacketTrailers :
    let p := aPacket 0 5 7 1 0 0 0 0
    let s (d : Disp) := receiving d p.hdr (p.wire.take 48)
    let rest := p.wire.drop 48
    portOfLane (s .forwarded) 8 = some 8 ∧ (laneLink (s .dropped) 8).rx ≠ [] ∧ rest.length = 8 ∧
    headerOfBytes ((p.wire).take 32) = p.hdr ∧ (p.wire).length = p.hdr.pktBytes ∧ crcOk (packetOf p.hdr p.wire) = true ∧
    crcOk (packetOf p.hdr (p.wire.take 48 ++ List.replicate 8 0)) = false ∧ (laneLink up 8).rx = [] := by decide +kernel

theorem witness_TerminatedPackets :
    let s := harvestState
    let w := aPacket 0 5 7 1 0 0x1000 0 0
    let far := aPacket 2 5 7 1 (pack [(24, 1)]) 0 0 0
    let x := withCtx { aCtx 3 0 with retained := [aResult false] }
    let odd := aPacket 2 5 7 1 (pack [(24, 2)]) 0 0 0
    w.hdr.ver < 2 ∧ w.hdr.mc = false ∧ sinkTurn w s = true ∧ sinkTurn w (waiting w s) = false ∧ payloadFits w = true ∧ crcOk w = true ∧ crcOk { w with crc := w.crc + 1 } = false ∧
    w.hdr.remoteAddr = 0x1000 ∧ granaryCheck (releaseSink w s) 5 0x1000 16 true = 0 ∧ granaryCheck up 5 0x1000 16 true = 2 ∧
    granaryCheck s 5 0xFFFF0 32 false = 3 ∧ granaryCheck s 5 8 16 true = 3 ∧ windowAt s 0xFFFF0 = some (0, ⟨true, true, true, 5, 0, 0x100000⟩) ∧
    far.hdr.remoteAddr / 2 ^ 56 = 1 ∧ payloadFits { far with payload := [] } = true ∧ odd.hdr.remoteAddr / 2 ^ 56 = 2 ∧
    ctxReadCheck x 0 far.hdr = (0, some (aResult false)) ∧ (ctxReadCheck up 0 far.hdr).2 = none ∧
    answersNothing s (aPacket 3 5 7 1 0 0 0 0).hdr = true ∧ answersNothing s w.hdr = false ∧
    sunkVoid w s = false ∧ turnOf w s = true ∧ w.hdr.ackReq = false ∧
    granaryCheck s 5 0 0 true = 3 ∧ (aPacket 6 5 7 1 0 0 0 0).hdr.kind = 6 ∧ crcOk (aPacket 6 5 7 1 0 0 0 0) = true ∧
    (aPacket 2 5 7 1 0 0x1000 0 0).hdr.kind = 2 ∧ 0x1000 < granarySize ∧ granaryCheck s 5 0x1000 16 false = 0 := by decide +kernel

theorem witness_RangeReads :
    let s := up
    runs .portSchedRead (hdr 3) [0, 1024, 0x1000, 0] s = true ∧ runs .ctxStatusRead (hdr 1) [4096, 1, 0x1000, 0] s = true ∧
    runs .tuStatusRead (hdr 3) [63, 1, 0x1000, 0] s = true ∧ runs .harvestGroupRead (hdr 1) [1023, 2, 0x1000, 0] s = true ∧
    runs .memWindowRead (hdr 3) [0, 1024, 0x1000, 0] s = true ∧ runs .laneStatusRead (hdr 3) [1023, 1, 0x1000, 0] s = true ∧
    runs .linkStatusRead (hdr 3) [0, 1, 0x1000, 0] s = true ∧ runs .flueStatusRead (hdr 3) [127, 1, 0x1000, 0] s = true ∧
    runs .kindleRead (hdr 3) [255, 1, 0x1000, 0] s = true ∧ runs .partStatusRead (hdr 3) [4095, 1, 0x1000, 0] s = true ∧
    runs .seedRead (hdr 3) [63, 1, 0x1000, 0] s = true ∧ laneState s 0 = .down ∧ laneState (laneIn 0 .inService s) 0 ≠ .down ∧
    runs .portSchedRead (hdr 3) [1024, 1, 0, 0] s = true ∧ runs .portSchedRead (hdr 3) [0, 0, 0, 0] s = true ∧
    runs .ctxStatusRead (hdr 1) [0, 4096, 0, 0] s = true ∧ runs .laneStatusRead (hdr 3) [1023, 2, 0, 0] s = true := by decide +kernel

theorem witness_OtherReadsAndEnds :
    let s := up
    let d (op : Nat) := s.modHearth fun h => { h with detached := [⟨{ aCmd with opcode := op }, .none, false⟩] }
    runs .routeRead (hdr 2) [1, 0, 65535, 1, 0x1000, 0] s = true ∧ runs .routeRead (hdr 2) [0, 1, 255, 1, 0x1000, 0] s = true ∧
    runs .routeRead (hdr 2) [2, 1, 255, 1, 0x1000, 0] s = true ∧ runs .endpointRead (hdr 2) [1, 32767, 1, 0x1000, 0] s = true ∧
    runs .coreQueueRead (hdr 3) [15, 0, 642, 0x1000, 0] s = true ∧ runs .coreQueueRead (hdr 3) [15, 1, 0, 32768, 0x1000, 0] s = true ∧
    runs .memStatusRead (hdr 3) [0x1000, 0] s = true ∧ runs .kilnStatusRead (hdr 3) [0x1000, 0] s = true ∧
    runs .timeStatusRead (hdr 3) [0x1000, 0] s = true ∧ runs .powerStatusRead (hdr 3) [0x1000, 0] s = true ∧
    runs .fwStatusRead (hdr 3) [] s = true ∧ runs .attestReport (hdr 3) (List.replicate 10 0) s = true ∧ s.sec.life = 2 ∧
    runs .tagRead (hdr 3) [508, 4, 0x1000, 0] s = true ∧ runs .calUserRead (hdr 3) [4, 79, 1, 0x1000, 0] s = true ∧
    runs .faultLogRead (hdr 3) [1, 255, 1, 0x1000, 0] s = true ∧
    ((d 0x0301).hearth.detached.find? fun x => x.cmd.opcode == 0x0301).isSome = true ∧
    runs .coreQueueRead (hdr 3) [16, 0, 0, 0, 0] s = true ∧ runs .coreQueueRead (hdr 3) [15, 2, 0, 0, 0] s = true ∧
    runs .coreQueueRead (hdr 3) [15, 0, 643, 0, 0] s = true ∧ runs .coreQueueRead (hdr 3) [15, 1, 32768, 1, 0, 0] s = true ∧
    runs .tagRead (hdr 3) [508, 8, 0, 0] s = true ∧ runs .calUserRead (hdr 3) [5, 0, 1, 0, 0] s = true ∧
    runs .faultLogRead (hdr 3) [0, 1023, 2, 0, 0] s = true ∧ (fwSlot s 0).image = [] ∧ (theBarn s 15).bufCells = 32768 ∧
    ((d 0x0307).hearth.detached.find? fun x => x.cmd.opcode == 0x0307).isSome = true ∧ s.sec.life ≠ 3 ∧
    (s.hearth.detached = []) := by decide +kernel

theorem witness_CountersByName :
    let a : List Word := [2, 0x14000000, 32, 0x0113003F, 1, 0x1000, 0]
    let b : List Word := [1, 0x01000000, 64, 0x1000, 0]
    let ok (id n : Nat) : Bool := blocks.any fun b => b.1 == id / 2 ^ 24 && decide (id / 2 ^ 16 % 256 < b.2.1) && decide (1 ≤ n ∧ n ≤ 64 ∧ id % 64 + n ≤ b.2.2)
    runs .counterRead (hdr 3) b up = true ∧ ok 0x01000000 64 = true ∧ runs .counterRead (hdr 3) a up = true ∧
    ok 0x14000000 32 = true ∧ ok 0x0113003F 1 = false ∧ runs .counterRead (hdr 3) [0, 0, 0] up = true := by decide +kernel

/-! ### Witnesses: the block as a whole -/

theorem reset_inv : Machine.Inv State.reset := ⟨by constructor <;> decide, by constructor <;> decide⟩

theorem witness_StepKeepsInvariant : Machine.Inv State.reset ∧ ∃ t, step State.reset = .next t := ⟨reset_inv, _, rfl⟩

theorem witness_EveryWellFormedCommandRuns :
    (Instr.mbxNop (hdr 0) []).wf = true ∧ (Instr.mbxNop (far 0 3) []).wf = false ∧
    { State.reset with pending := [.floorSlot] }.pending = .floorSlot :: [] := by decide +kernel

theorem witness_StepRunsFront :
    up.pending = [] ∧ up.time.refOk0 = true ∧ up.power.on0 ≠ 0 ∧ 0 ≤ up.time.sub ∧
    -1 ≤ up.time.rate ∧
    ((timeState fun t => { t with refOk0 := false, refOk1 := false }).time.refOk0 = false) ∧
    servedRing up = none ∧ (∀ e ∈ up.optics.lanes, e.2.draining = false) ∧ up.jobs.retiring = [] ∧ up.time.now / 131072 = 0 ∧
    (State.reset.power.on0 = 0 ∧ State.reset.power.on1 = 0) ∧ servedRing (ready 1 up) = some 1 ∧
    (entryCommand (hostHas 0 [pack [(16, 0x0E01), (8, 0x10)]] (ready 1 up)) 1).isSome = true ∧
    (entryCommand (hostHas 0 [pack [(16, 0xFFFF), (8, 0x10)]] (ready 1 up)) 1).isNone = true := by decide +kernel

theorem witness_EntryChecks :
    let i := Instr.deviceConfig (hdr 1) [8]
    let s := ready 1 up
    let sp : CmdSpec := ⟨0x0301, 2, true⟩
    let c := refOf i s
    let late : CmdHdr := { hdr 2 with dlMode := 1 }
    let down := (ready 2 up).modPower fun p => { p with ready1 := false }
    let off := (ready 2 up).modPower fun p => { p with on1 := 0 }
    (mailCmd i).isSome = true ∧ serves up 1 = false ∧ serves s 1 = true ∧
    (startCheck ⟨0x0E02, 1, false⟩ { hdr 1 with ifVer := 0x11 } c s).isSome = true ∧ activeVer s (theRing s 1) = some 0x10 ∧
    (sp.ring = 2 ∧ sp.halves = true) ∧ deadlineFieldOk (hdr 2) = true ∧ deadlineFieldOk late = true ∧ timeUnset s = true ∧
    deadlinePassed c s = false ∧ halfPowered off 1 = false ∧ halfPowered down 1 = true ∧ down.power.ready1 = false ∧
    deadlinePassed { c with dlMode := 2, deadline := 0 } (s.modTime fun t => { t with hearthPs := 1 }) = true ∧
    serves s 1 = true ∧ (hdr 1).argsOk [8] = true ∧ blockCheck (hdr 1) [8, 0, 0] 1 = none ∧ (theRing s 1).isLocal = false ∧
    startCheck ⟨0x0E02, 1, false⟩ (hdr 1) c s = none ∧ blockCheck (hdr 1) [] 12 = some (0x01, 0) ∧
    blockCheck (hdr 1) [8, 0, 5] 1 = some (0x01, 3) ∧ (far 1 34).indirect.isSome = true := by decide +kernel

theorem witness_CompletionEntries :
    let c := refOf (.mbxNop (hdr 3) []) (ready 3 up)
    c.ring < 4 ∧ (theRing (ready 3 up) 3).en = true ∧ (theRing up 3).en = false ∧
    (theRing (modRing 3 (fun g => { g with isLocal := true }) up) 3).isLocal = true ∧ (theRing (ready 3 up) 3).isLocal = false := by decide +kernel

theorem witness_IntegerReduction :
    isInt 10 = true ∧ isInt 11 = true ∧ 1023 < elemsIn 11 1024 ∧ combine 4 true (BitVec.toInt (0xF0 : BitVec 8)) (BitVec.toInt (0x3C : BitVec 8)) = 0x30 ∧
    reduceAll 0 true [[2 ^ 31 - 1], [-2 ^ 31], [5]] = [4] := by decide +kernel

theorem witness_BadContribution :
    let x := aCtx 3 0
    let p := { aSheaf x 1 0 0 with crc := 0 }
    p.hdr.ver < 2 ∧ sinkTurn p (withCtx x) = true ∧ p.hdr.kind = 4 ∧ payloadFits p = true ∧ crcOk p = false ∧ lacks x 0 p.hdr.member = true ∧ memberAt x 0 0 = p.hdr.srcId ∧
    isComplete x 0 = false := by decide +kernel

theorem witness_HomesOfGranules :
    1 ≤ up.mem.bsGib ∧ up.mem.bsGib ≤ 64 ∧ homeBarn up (0x9000000000 - 1) = 15 := by decide +kernel

/-- Port 16 with a stored packet at the head of its class 0 queue; `void` where it is a result that an abort has withheld. -/
def queued (result : Option ResultRef) (part : Nat) : State :=
  let h : Header := ⟨pack [(30, 1), (26, 5), (8, part)], 0, 0, pack [(23, 1)], 0, 0, 0, 0⟩
  let info : PktInfo := ⟨1, h, h.bytes ++ List.replicate 24 0, some 8, 0, 0, 0, result, []⟩
  modBarn 0 (fun b => { b with stored := [⟨info, 0, 0, [], 1, true, 0, 16, 1 <<< 16, 1 <<< 16, false, false, 64, true⟩], egq := [(8 * 16, [1])] })
    { routed with link := { routed.link with crLimit := [(128, 10)] } }

theorem witness_PortScheduler :
    let s := queued none 5
    (thePort s 16).up = true ∧ barnUp s (barnOf 16) = true ∧ laneFree s 16 = true ∧ (selectFrom s 16 8).isSome = true ∧
    selectFrom routed 16 8 = none ∧
    (match selectFrom s 16 8 with
      | some x => admitsOut (debit 16 x.info.hdr s) 16 false x.info.hdr && x.info.result.isNone && (badStored (debit 16 x.info.hdr s) 0 x).isNone
      | none => false) = true ∧
    (match selectFrom (queued none 6) 16 8 with
      | some x => !admitsOut (debit 16 x.info.hdr (queued none 6)) 16 false x.info.hdr
      | none => false) = true ∧
    (match selectFrom (queued (some ⟨0, 0, true⟩) 5) 16 8 with
      | some x => x.info.result == some ⟨0, 0, true⟩
      | none => false) = true := by decide +kernel

/-! ### What WellFormed refuses: one ill-formed term for each check -/

theorem test_wf_direct_block_too_long : (Instr.mbxNop (hdr 0) (List.replicate 12 0)).wf = false := by decide
theorem test_wf_indirect_block_of_another_length : (Instr.mbxNop (far 0 2) [0, 0, 0]).wf = false := by decide
theorem test_wf_flit_of_255_bytes : (Instr.flitRx 0 (List.replicate 255 0) (.clean 0)).wf = false := by decide +kernel
theorem test_wf_alignment_slot_of_255_bytes : (Instr.alignmentSlotRx 0 (List.replicate 255 0)).wf = false := by decide +kernel
theorem test_wf_bar2_write_past_the_end : (Instr.bar2Write 268435455 [1, 2]).wf = false := by decide
theorem test_wf_bar2_read_past_the_end : (Instr.bar2Read 268435455 2 false).wf = false := by decide
theorem test_wf_thermal_readings : (Instr.thermalSensorRead (List.replicate 25 40) true).wf = false := by decide

/-- A command that is ill formed is refused, and one that is well formed is not. -/
theorem test_step_refuses_ill_formed :
    step { State.reset with pending := [.bar2Write 268435455 [1, 2]] } = .refused .illFormed := by rfl

/-! ### The manual's own examples -/

/-- The check value of CRC-64/WE over "123456789" (R52). -/
theorem test_crc64_of_the_manual : crc64 [0x31, 0x32, 0x33, 0x34, 0x35, 0x36, 0x37, 0x38, 0x39] = 0x62EC59E3F1A4F00A := by
  decide +kernel

/-- Chapter 2, seeding write: the header on the wire, and W0 as the spine receives it. -/
theorem test_seeding_write :
    let h : Header := ⟨0x4282A708, 0x0FF00C00, 0x003A0500, 0x80000100, 0x00000012, 0, 0x01C30001, 0⟩
    h.dstId = 0x0FF00C ∧ h.srcId = 14853 ∧ h.partition = 0x2A7 ∧ h.tc = 5 ∧ h.hopLimit = 8 ∧ h.pktBytes = 4136 ∧ h.hint = 2 ∧
    h.remoteAddr = 72 * 2 ^ 30 ∧ h.tag = 0x01C3 ∧ h.ackReq = true ∧ (h.withEpoch true).decHop.w0 = 0x42E2A707 ∧
    h.bytes.take 8 = [0x42, 0x82, 0xA7, 0x08, 0x0F, 0xF0, 0x0C, 0x00] := by decide

/-- Chapter 5, shaping a bulk class: TOKENS of the table. -/
theorem test_shaper_table :
    let b (t : Int) : Bucket := ⟨⟨true, 6400, 16384⟩, t⟩
    let c (t : Int) : Bucket := ⟨⟨true, 3200, 8192⟩, t⟩
    (refill (b 16384)).tokens = 16384 ∧ (refill (b (16384 - 4 * 4136))).tokens = 6240 ∧ (refill (b (6240 - 2 * 4136))).tokens = 4368 ∧
    (refill (c 4368)).tokens = 7568 ∧ (refill (c 7568)).tokens = 8192 := by decide

/-- Chapter 7, order and the witness: the sums of the two orders, and TALLY. -/
theorem test_order_of_reduction :
    combine 0 false (combine 0 false 0x4B800000 0x3F800000) 0x3F800000 = 0x4B800000 ∧
    combine 0 false (combine 0 false 0x3F800000 0x3F800000) 0x4B800000 = 0x4B800001 ∧ tallyWord true 3 0x42 = 0x80030042 := by
  decide +kernel

/-- Chapter 7, one AdamW parameter: the weight and the moments. EPS is 10⁻⁸ in FP32, 0x322BCC77. -/
theorem test_adamw_parameter :
    updateParam ⟨1, 0x3A800000, 0x3F666666, 0x3F7FBE77, 0x322BCC77, 0x3C000000, 0x3F666666, 0x3F7FBE77, one32, true, false⟩
      one32 0x3F000000 0 0 = ⟨0x3F7FBF80, 0x3D4CCCD0, 0x39831200, 0, false⟩ := by decide +kernel

/-- Chapter 8: Granary offset 0x12_0002_B400 lies in S3, channel 5, and is homed at B7. -/
theorem test_granary_offset : stackOf 0x120002B400 = 3 ∧ chanOf 0x120002B400 = 5 ∧ granHome 0x120002B400 = 7 := by decide

/-- Chapter 9: the lanes of laser K37 are 517, 525, … 637. -/
theorem test_lanes_of_k37 :
    laserLanes State.reset 37 = [517, 525, 533, 541, 549, 557, 565, 573, 581, 589, 597, 605, 613, 621, 629, 637] := by decide

/-- Chapter 11: the margins 1.6 dB and 0.9 dB of circuit 9, and −0.1 dB with OUT_LOSS_A = 2.0 dB. -/
theorem test_margins_of_circuit_9 : flueMargin 15 420 12 (-70) = 160 ∧ flueMargin 8 440 10 (-70) = 90 ∧ flueMargin 8 440 20 (-70) = -10 := by
  decide

/-- Chapter 12: an offset of +249.5 ns at LOG_SYNC −7 gives a rate of −8.483 ppm. -/
theorem test_servo_rate :
    let s := timeState fun t => { t with state := 2, srcKind := 1, srcPort := 40, ports := [(40, { role := 2 })] }
    let r := (acceptOffset (499 / 2 * 256) s).time.rate * 1000000000
    r < -8482 ∧ -8484 < r := by decide +kernel

/-- Chapter 13: a retention space of 4,096 slots of 4 KiB sheaves is 19 MiB. -/
theorem test_retention_space :
    let x : Ctx := { desc := List.set (List.set (aDesc 3 0) 0 (pack [(8, 5), (2, 3), (0, 2)])) 9 (pack [(12, 4096)]) }
    ctxRetSpace x = 19922944 ∧ mibs (ctxRetSpace x) = 19 := by decide

/-- Chapter 14: with IN_FLIGHT 256 a doorbell of 0x0106 is refused and CMD_TAIL stays; with 252 it is taken. -/
theorem test_full_control_ring :
    let s (head : Nat) := modRing 1 (fun g => { g with en := true, cmdTail := 0x105, cplHead := head }) State.reset
    let tail (head : Nat) : Option (Nat × Bool) := match exec (.cmdTailWrite 1 0x106) (s head) with
      | .next t => some ((theRing t 1).cmdTail, (theRing t 1).full)
      | _ => none
    inFlight (theRing (s 5) 1) = 256 ∧ tail 5 = some (0x105, true) ∧ tail 9 = some (0x106, false) := by decide +kernel

/-- Chapter 16: KIND_MASK with PORT_RX_BYTES and LINK gives COUNT 1,536 and slots of 16,384 bytes. -/
theorem test_tally_sizes : bodyCount (pack [(4, 1), (8, 1)]) = 1536 ∧ slotLen (pack [(4, 1), (8, 1)]) = 16384 := by decide +kernel

end Sys2Proof.Tests
end

section
/-! SUPPORT. What the readers of lanes and ports read after an entry is fetched, after a lane changes, and after a control
message is sent. -/

namespace Sys2Proof.Machine

/-! ### After the fetch of an entry -/

@[simp] theorem fetched_laneOpt (i : Instr) (s : State) (l : Nat) : laneOpt (fetched i s) l = laneOpt s l := by
  simp only [laneOpt, fetched_optics]
@[simp] theorem fetched_laneState (i : Instr) (s : State) (l : Nat) : laneState (fetched i s) l = laneState s l := by
  simp only [laneState, fetched_laneOpt]
@[simp] theorem fetched_thePort (i : Instr) (s : State) (p : Nat) : thePort (fetched i s) p = thePort s p := by
  simp only [thePort, fetched_link]
@[simp] theorem fetched_portOfLane (i : Instr) (s : State) (l : Nat) : portOfLane (fetched i s) l = portOfLane s l := by
  simp only [portOfLane, fetched_link]
@[simp] theorem fetched_servingLanes (i : Instr) (s : State) (p : Nat) :
    servingLanes (fetched i s) p = servingLanes s p := by
  simp only [servingLanes, spraySet, portLanes, fetched_thePort, fetched_laneOpt]
@[simp] theorem fetched_portsOver (i : Instr) (s : State) (p w : Nat) : portsOver (fetched i s) p w = portsOver s p w := by
  simp only [portsOver, fetched_link]
@[simp] theorem fetched_slotNames (i : Instr) (s : State) (p : Nat) : slotNames (fetched i s) p = slotNames s p := by
  simp only [slotNames, fetched_routing]
@[simp] theorem fetched_holdsFlue (i : Instr) (s : State) (p w : Nat) : holdsFlue (fetched i s) p w = holdsFlue s p w := by
  simp only [holdsFlue, fetched_portsOver, fetched_thePort, fetched_laneState]
@[simp] theorem fetched_wholeScratch (i : Instr) (s : State) (b : Nat) :
    wholeScratch (fetched i s) b = wholeScratch s b := by
  simp only [wholeScratch, theBarn, fetched_core]

/-! ### After a change of a lane -/

@[simp] theorem modLaneLink_optics (l : Nat) (f : LaneLink → LaneLink) (s : State) :
    (modLaneLink l f s).optics = s.optics := rfl
@[simp] theorem modLaneLink_laneState (l m : Nat) (f : LaneLink → LaneLink) (s : State) :
    laneState (modLaneLink l f s) m = laneState s m := rfl
@[simp] theorem modLaneLink_time (l : Nat) (f : LaneLink → LaneLink) (s : State) :
    (modLaneLink l f s).time = s.time := rfl
@[simp] theorem modLaneLink_thePort (l p : Nat) (f : LaneLink → LaneLink) (s : State) :
    thePort (modLaneLink l f s) p = thePort s p := rfl
@[simp] theorem modLaneLink_reservedBy (l m : Nat) (f : LaneLink → LaneLink) (s : State) :
    reservedBy (modLaneLink l f s) m = reservedBy s m := rfl

@[simp] theorem modLaneOpt_thePort (l p : Nat) (f : LaneOpt → LaneOpt) (s : State) :
    thePort (modLaneOpt l f s) p = thePort s p := rfl
@[simp] theorem setSwing_thePort (l p : Nat) (s : State) : thePort (setSwing l s) p = thePort s p := rfl

/-! ### Sending leaves the optics as they were (R257, R263) -/

@[simp] theorem emit_optics (o : Output) (s : State) : (emit o s).optics = s.optics := rfl

theorem foldl_emit_optics {α : Type} (f : α → Output) (xs : List α) (s : State) :
    (xs.foldl (fun s x => emit (f x) s) s).optics = s.optics := by
  induction xs generalizing s with
  | nil => rfl
  | cons x xs ih => rw [List.foldl_cons, ih, emit_optics]

@[simp] theorem putRaw_optics (l : Nat) (f : List Byte) (s : State) : (putRaw l f s).optics = s.optics := rfl

@[simp] theorem putMarker_optics (l : Nat) (s : State) : (putMarker l s).optics = s.optics := by
  unfold putMarker
  split <;> rfl

@[simp] theorem markerDue_optics (l : Nat) (s : State) : (markerDue l s).optics = s.optics := by
  unfold markerDue
  split
  · exact putMarker_optics l s
  · rfl

@[simp] theorem modLastRetry_optics (l : Nat) (f : RetryPkt → RetryPkt) (s : State) :
    (modLastRetry l f s).optics = s.optics := rfl

@[simp] theorem putSeq_optics (l ftype : Nat) (fw1 : Word) (payload : List Byte) (s : State) :
    (putSeq l ftype fw1 payload s).optics = s.optics := by
  simp only [putSeq, modLaneLink_optics, modLastRetry_optics, putRaw_optics, markerDue_optics]

@[simp] theorem openEntry_optics (l port : Nat) (info : Option PktInfo) (kind : RetryKind) (s : State) :
    (openEntry l port info kind s).optics = s.optics := rfl

@[simp] theorem flushCtl_optics (l : Nat) (s : State) : (flushCtl l s).optics = s.optics := by
  unfold flushCtl
  split
  · rfl
  · simp only []
    split
    · rfl
    · rw [putSeq_optics, openEntry_optics, foldl_emit_optics, modLaneLink_optics]

@[simp] theorem queueControl_optics (l msg kind mtag arg : Nat) (s : State) :
    (queueControl l msg kind mtag arg s).optics = s.optics := by
  unfold queueControl
  split <;> rfl

@[simp] theorem sendControl_optics (l msg kind mtag arg : Nat) (s : State) :
    (sendControl l msg kind mtag arg s).optics = s.optics := by
  rw [sendControl, flushCtl_optics, queueControl_optics]

@[simp] theorem sendControl_laneState (l msg kind mtag arg m : Nat) (s : State) :
    laneState (sendControl l msg kind mtag arg s) m = laneState s m := by
  simp only [laneState, laneOpt, sendControl_optics]

end Sys2Proof.Machine
end

section
/-! SUPPORT. Withdrawal (R229, R230, R264): what a request, a grant, a refusal and an unanswered request do. -/

namespace Sys2Proof.Machine

theorem exec_wdReq (l : Fin 1024) (kind : WdKind) (tag : BitVec 16) (s : State) :
    exec (.wdReq l kind tag) s = .next (wdReq l kind tag.toNat s) := rfl
theorem exec_wdGrant (l : Fin 1024) (tag : BitVec 16) (s : State) :
    exec (.wdGrant l tag) s = .next (wdGrant l tag.toNat s) := rfl
theorem exec_wdRefuse (l : Fin 1024) (tag : BitVec 16) (reason : Byte) (s : State) :
    exec (.wdRefuse l tag reason) s = .next (wdRefuse l tag.toNat s) := rfl
theorem exec_wdAnswerTimeout (l : Fin 1024) (s : State) : exec (.wdAnswerTimeout l) s = .next (unanswered l s) := rfl

/-! ### WD_REQ -/

/-- A lane is this end's own work: this end has asked for it, or has withdrawn it for a slice, a bank or a swap of its own. -/
def OwnWork (s : State) (l : Nat) : Prop :=
  (laneLink s l).asked.isSome = true ∨
    (laneState s l = .withdrawn ∧ ((laneOpt s l).wdCause = 1 ∨ (laneOpt s l).wdCause = 2))

/-- A lane is the last one of a wide port that serves. -/
def LastServing (s : State) (l : Nat) : Prop :=
  ∃ p, portOfLane s l = some p ∧ 2 ≤ (thePort s p).width ∧ servingLanes s p = [l]

/-- A request about a lane is answered with a grant. -/
def grantRequest (l : Nat) (kind : WdKind) (tag : Nat) (s : State) : State :=
  modLaneLink l (fun k => { k with answered := some kind, rxDone := false }) (sendControl l 2 0 tag 0 s)

@[simp] theorem grantRequest_laneState (l : Nat) (kind : WdKind) (tag m : Nat) (s : State) :
    laneState (grantRequest l kind tag s) m = laneState s m := by
  rw [grantRequest, modLaneLink_laneState, sendControl_laneState]

/-- What follows a grant: a lane in service leaves it. -/
def grantAndLeave (l : Nat) (kind : WdKind) (tag : Nat) (s : State) : State :=
  if laneState s l = .inService then withdrawLane l (if kind = .cal then 3 else 4) (grantRequest l kind tag s)
  else grantRequest l kind tag s

/-- WD_REQ in the terms of the rule: what is granted at once, and the three answers to a CAL request about a lane that is no work of
this end. -/
theorem wdReq_eq (l : Nat) (kind : WdKind) (tag : Nat) (s : State) [Decidable (OwnWork s l)] :
    wdReq l kind tag s =
      if kind ≠ .cal ∨ OwnWork s l then grantAndLeave l kind tag s
      else if laneState s l ≠ .inService then sendControl l 3 0 tag 2 s
      else (portOfLane s l).elim s fun p =>
        if 2 ≤ (thePort s p).width ∧ servingLanes s p = [l] then sendControl l 3 0 tag 1 s
        else grantAndLeave l kind tag s := by
  have leave : (if laneState (grantRequest l kind tag s) l = .inService
      then withdrawLane l (if kind = .cal then 3 else 4) (grantRequest l kind tag s)
      else grantRequest l kind tag s) = grantAndLeave l kind tag s := by
    rw [grantRequest_laneState, grantAndLeave]
  have mine : ((laneLink s l).asked.isSome ||
      ((laneOpt s l).state == .withdrawn && ((laneOpt s l).wdCause == 1 || (laneOpt s l).wdCause == 2))) = true ↔
      OwnWork s l := by
    simp [OwnWork, laneState]
  rw [← leave]
  simp only [← mine]
  cases hp : portOfLane s l <;> (unfold wdReq; rw [hp]; rfl)

theorem grantAndLeave_of_serving {l : Nat} {s : State} (kind : WdKind) (tag : Nat) (h : laneState s l = .inService) :
    grantAndLeave l kind tag s = withdrawLane l (if kind = .cal then 3 else 4) (grantRequest l kind tag s) := if_pos h

theorem grantAndLeave_of_notServing {l : Nat} {s : State} (kind : WdKind) (tag : Nat) (h : laneState s l ≠ .inService) :
    grantAndLeave l kind tag s = grantRequest l kind tag s := if_neg h

theorem wdReq_of_grantAtOnce {l : Nat} {kind : WdKind} {s : State} (tag : Nat) (h : kind ≠ .cal ∨ OwnWork s l) :
    wdReq l kind tag s = grantAndLeave l kind tag s := by
  classical rw [wdReq_eq, if_pos h]

section
variable {l : Nat} {s : State} (tag : Nat) (notMine : ¬OwnWork s l)
include notMine

theorem wdReq_cal_of_notServing (h : laneState s l ≠ .inService) :
    wdReq l .cal tag s = sendControl l 3 0 tag 2 s := by
  classical rw [wdReq_eq, if_neg (by simp [notMine]), if_pos h]

theorem wdReq_cal_of_lastServing (h : laneState s l = .inService) (alone : LastServing s l) :
    wdReq l .cal tag s = sendControl l 3 0 tag 1 s := by
  obtain ⟨p, hp, hw⟩ := alone
  classical rw [wdReq_eq, if_neg (by simp [notMine]), if_neg (not_not.mpr h), hp]
  exact if_pos hw

theorem wdReq_cal_of_noPort (h : laneState s l = .inService) (hp : portOfLane s l = none) : wdReq l .cal tag s = s := by
  classical rw [wdReq_eq, if_neg (by simp [notMine]), if_neg (not_not.mpr h), hp, Option.elim_none]

theorem wdReq_cal_of_othersServe (h : laneState s l = .inService) (others : ¬LastServing s l) (hp : portOfLane s l ≠ none) :
    wdReq l .cal tag s = grantAndLeave l .cal tag s := by
  obtain ⟨p, hp⟩ := Option.ne_none_iff_exists'.mp hp
  classical rw [wdReq_eq, if_neg (by simp [notMine]), if_neg (not_not.mpr h), hp]
  exact if_neg fun hw => others ⟨p, hp, hw⟩

end

/-! ### WD_GRANT, WD_REFUSE and WD_ANSWER_TIMEOUT -/

/-- The request of this end is over. -/
def endAsk (l : Nat) (s : State) : State := modLaneLink l (fun k => { k with asked := none }) s

/-- A lane that a withdrawal of this end can still go on with. -/
def InUse (s : State) (l : Nat) : Prop := laneState s l = .inService ∨ laneState s l = .withdrawn

theorem goOn_of_notInUse {l : Nat} {s : State} (kind : WdKind) (h : ¬InUse s l) : goOn l kind s = s := if_neg h

theorem goOn_withdraws {l : Nat} {kind : WdKind} {s : State} (h : InUse s l) (hk : kind ≠ .force ∨ reservedBy s l = none) :
    goOn l kind s = withdrawLane l (if kind = .swap then 2 else 1) s := by
  have free : ¬(kind = .force ∧ (reservedBy s l).isSome = true) := by
    rintro ⟨force, reserved⟩
    rcases hk with hk | hk
    · exact hk force
    · simp [hk] at reserved
  exact (if_pos h).trans (if_neg free)

theorem goOn_takes {l : Nat} {s : State} (h : InUse s l) (hr : (reservedBy s l).isSome = true) :
    goOn l .force s = takeGranted l s :=
  (if_pos h).trans (if_pos ⟨rfl, hr⟩)

theorem wdGrant_of_notAsked {l : Nat} {s : State} (tag : Nat) (h : (laneLink s l).asked = none) : wdGrant l tag s = s := by
  simp only [wdGrant, h]

theorem wdGrant_of_asked {l tag : Nat} {kind : WdKind} {s : State} (h : (laneLink s l).asked = some kind)
    (ht : (laneLink s l).askTag = tag) : wdGrant l tag s = goOn l kind (endAsk l s) := by
  simp only [wdGrant, h, ht, if_true, endAsk]

theorem wdGrant_of_otherTag {l tag : Nat} {s : State} (ht : (laneLink s l).askTag ≠ tag) : wdGrant l tag s = s := by
  cases h : (laneLink s l).asked with
  | none => exact wdGrant_of_notAsked tag h
  | some kind => simp only [wdGrant, h, if_neg ht]

theorem wdRefuse_of_tag {l tag : Nat} {s : State} (ht : (laneLink s l).askTag = tag) : wdRefuse l tag s = unanswered l s :=
  if_pos ht

theorem wdRefuse_of_otherTag {l tag : Nat} {s : State} (ht : (laneLink s l).askTag ≠ tag) : wdRefuse l tag s = s := if_neg ht

theorem unanswered_of_notAsked {l : Nat} {s : State} (h : (laneLink s l).asked = none) : unanswered l s = s := by
  simp only [unanswered, h]

theorem unanswered_cal {l : Nat} {s : State} (h : (laneLink s l).asked = some .cal) :
    unanswered l s = overdue l (endSlice l 2 (bump (ctr 8 (barnOf l) 14) (endAsk l s))) := by
  simp only [unanswered, h, bumpLink, endAsk]

theorem unanswered_swap {l : Nat} {s : State} (h : (laneLink s l).asked = some .swap) : unanswered l s = s := by
  simp only [unanswered, h]

theorem unanswered_force {l : Nat} {s : State} (h : (laneLink s l).asked = some .force) :
    unanswered l s = goOn l .force (endAsk l s) := by
  simp only [unanswered, h, endAsk]

end Sys2Proof.Machine
end

section
/-! SUPPORT. Rehoming (R265): what a request and an answer do. -/

namespace Sys2Proof.Machine

theorem exec_rehomeReq (l : Fin 1024) (tag : BitVec 16) (s : State) :
    exec (.rehomeReq l tag) s = .next (rehomeReq l tag.toNat s) := rfl
theorem exec_rehomeAck (l : Fin 1024) (answer : RehomeAnswer) (s : State) :
    exec (.rehomeAck l answer) s = .next (rehomeAck l answer.mtag.toNat answer.lastSeq.toNat s) := rfl

theorem rehomeReq_of_frames {l : Nat} {s : State} (tag : Nat) (h : laneFrames s l = true) :
    rehomeReq l tag s = abruptExit l (queueControl l 5 0 tag (laneLink s l).rxSeq s) := if_pos h

theorem rehomeReq_of_dark {l : Nat} {s : State} (tag : Nat) (h : laneFrames s l = false) :
    rehomeReq l tag s = sendControl l 5 0 tag (laneLink s l).rxSeq s := by
  rw [rehomeReq, h, if_neg Bool.false_ne_true]

/-- The packets of a stopped lane that the far end had are released as delivered. -/
def releaseOrphans (l lastSeq : Nat) (s : State) : State :=
  ((laneLink s l).orphans.filter fun r => !seqAfter r.lastSeq lastSeq).foldl (fun s r => deliver r s)
    (modLaneLink l (fun k => { k with orphans := [], stopped := k.stopped && laneState s l != .inService }) s)

/-- The packets of a stopped lane that the far end has not had. -/
def orphansAgain (s : State) (l lastSeq : Nat) : List PktInfo :=
  ((laneLink s l).orphans.filter fun r => seqAfter r.lastSeq lastSeq).filterMap fun r => r.info

theorem rehomeAck_ignored {l tag : Nat} {s : State} (lastSeq : Nat)
    (h : portOfLane s l = none ∨ (laneLink s l).orphans = [] ∨ (laneLink s l).rehomeTag ≠ tag) :
    rehomeAck l tag lastSeq s = s := by
  cases hp : portOfLane s l with
  | none => simp only [rehomeAck, hp]
  | some p =>
    have unasked : ¬((laneLink s l).orphans ≠ [] ∧ (laneLink s l).rehomeTag = tag) := by
      rintro ⟨orphans, same⟩
      rcases h with h | h | h
      · simp [hp] at h
      · exact orphans h
      · exact h same
    simp only [rehomeAck, hp, if_neg unasked]

theorem rehomeAck_taken {l p tag : Nat} {s : State} (lastSeq : Nat) (hp : portOfLane s l = some p)
    (ho : (laneLink s l).orphans ≠ []) (ht : (laneLink s l).rehomeTag = tag) :
    rehomeAck l tag lastSeq s = pump l ((releaseOrphans l lastSeq s).modLink fun x =>
      { x with resend := tset x.resend [] p (tget x.resend [] p ++ orphansAgain s l lastSeq) }) := by
  simp only [rehomeAck, hp]
  rw [if_pos ⟨ho, ht⟩]
  rfl

end Sys2Proof.Machine
end

section
/-! SUPPORT. Training (R266 to R268): start, failure, restart, and the end in service. -/

namespace Sys2Proof.Machine

theorem exec_trainingStart (l : Fin 1024) (s : State) : exec (.trainingStart l) s = .next (trainingStart l s) := rfl
theorem exec_trainFail (l : Fin 1024) (cause : TrainFailCause) (s : State) :
    exec (.trainFail l cause) s = .next (trainFail l cause s) := rfl
theorem exec_trainingRestart (l : Fin 1024) (s : State) : exec (.trainingRestart l) s = .next (trainingRestart l s) := rfl
theorem exec_trainingComplete (l : Fin 1024) (far : FarEnd) (s : State) :
    exec (.trainingComplete l far) s = .next (trainingComplete l far s) := rfl

/-! ### Rows that come in another state do nothing -/

theorem trainingStart_ignored {l : Nat} {s : State} (h : laneState s l ≠ .training ∨ (laneLink s l).trainStep ≠ 0) :
    trainingStart l s = s := by
  unfold trainingStart
  split
  · exact if_neg fun ⟨training, step, _⟩ => h.elim (· training) (· step)
  · rfl

theorem trainFail_ignored {l : Nat} {s : State} (cause : TrainFailCause)
    (h : laneState s l ≠ .training ∨ (laneLink s l).trainStep ≠ 1) : trainFail l cause s = s :=
  if_neg fun ⟨training, step⟩ => h.elim (· training) (· step)

theorem trainingRestart_ignored {l : Nat} {s : State} (h : laneState s l ≠ .training ∨ (laneLink s l).trainStep ≠ 2) :
    trainingRestart l s = s :=
  if_neg fun ⟨training, step⟩ => h.elim (· training) (· step)

theorem trainingComplete_ignored {l : Nat} {s : State} (far : FarEnd)
    (h : laneState s l ≠ .training ∨ (laneLink s l).trainStep ≠ 1) : trainingComplete l far s = s := by
  unfold trainingComplete
  split
  · rfl
  · exact if_neg fun ⟨training, step, _⟩ => h.elim (· training) (· step)

/-! ### Rows that come in their state -/

section
variable {l p : Nat} {s : State} (training : laneState s l = .training)
include training

theorem trainFail_fails (cause : TrainFailCause) (step : (laneLink s l).trainStep = 1) :
    trainFail l cause s =
      bump (ctr 8 (barnOf l) 10) (modLaneLink l (fun k => { k with trainStep := 2, trainCause := some cause }) s) :=
  if_pos ⟨training, step⟩

theorem trainingRestart_begins (step : (laneLink s l).trainStep = 2) : trainingRestart l s = beginTraining l s :=
  if_pos ⟨training, step⟩

variable (hp : portOfLane s l = some p)
include hp

omit training in
theorem beginTraining_of_port : beginTraining l s = sayCap l false (modLaneLink l (fun k =>
    { k with trainStep := 1, trainVer := (thePort s p).verMask, trainRate := (thePort s p).maxRate }) s) := by
  simp only [beginTraining, hp]

theorem trainingStart_begins (step : (laneLink s l).trainStep = 0) (en : (thePort s p).enabled = true)
    (up : barnUp s (barnOf l) = true) : trainingStart l s = beginTraining l s := by
  simp only [trainingStart, hp]
  exact if_pos ⟨training, step, en, up⟩

end

/-- A port with the capability settings that the training of a lane began with (R266, R274). -/
def trainingPort (s : State) (l p : Nat) : Port :=
  { thePort s p with verMask := (laneLink s l).trainVer, maxRate := (laneLink s l).trainRate }

section
variable {l p : Nat} {far : FarEnd} {s : State} (training : laneState s l = .training) (hp : portOfLane s l = some p)
  (step : (laneLink s l).trainStep = 1) (up : barnUp s (barnOf l) = true)
include training hp step up

theorem trainingComplete_of_otherShape (shape : sameShape (trainingPort s l p) p far = false) :
    trainingComplete l far s = trainFail l .portMismatch s := by
  simp only [trainingComplete, hp]
  rw [if_pos ⟨training, step, up⟩, if_pos]
  simpa [trainingPort] using shape

theorem trainingComplete_of_linkUp (shape : sameShape (trainingPort s l p) p far = true) (linkUp : (thePort s p).up = true) :
    trainingComplete l far s =
      if bothAllow (trainingPort s l p) far (thePort s p).v0 (thePort s p).rate && identityOk l far
      then trained l p (thePort s p).v0 (thePort s p).rate far s else s := by
  simp only [trainingComplete, hp]
  rw [if_pos ⟨training, step, up⟩, if_neg (by simpa [trainingPort] using shape), if_pos linkUp]
  simp only [Bool.and_eq_true, trainingPort]

theorem trainingComplete_of_noCommon (shape : sameShape (trainingPort s l p) p far = true)
    (linkDown : (thePort s p).up = false) (choice : negotiate (trainingPort s l p) far = none) :
    trainingComplete l far s = trainFail l .noCommon s := by
  simp only [trainingPort] at shape choice
  simp only [trainingComplete, hp]
  rw [if_pos ⟨training, step, up⟩, if_neg (by simp [shape]), if_neg (by simp [linkDown]), choice]

theorem trainingComplete_of_common {v0 : Bool} {rate : Nat} (shape : sameShape (trainingPort s l p) p far = true)
    (linkDown : (thePort s p).up = false) (choice : negotiate (trainingPort s l p) far = some (v0, rate)) :
    trainingComplete l far s = if identityOk l far then trained l p v0 rate far s else s := by
  simp only [trainingPort] at shape choice
  simp only [trainingComplete, hp]
  rw [if_pos ⟨training, step, up⟩, if_neg (by simp [shape]), if_neg (by simp [linkDown]), choice]

end

/-- What a lane that has trained learns of its far end, and the record of its training (R260, R261, R273, R395). -/
def learnFarEnd (l p : Nat) (far : FarEnd) (s : State) : State :=
  modPort p (fun x => { x with farId := far.endpointId.toNat, rtt := Nat.min 1023 far.rtt })
    (setSwing l (modLaneOpt l (fun o => { o with calAt := s.time.now }) (modLaneLink l (fun k =>
      { k with farTag := some far.tag.toNat, seenTag := far.tag.toNat, farDevice := far.deviceTag.toNat,
               farLane := far.lane.toNat }) s)))

/-- The first lane of a port that trains brings its link up, with credit for every class (R268, R270). -/
def bringLinkUp (l p : Nat) (v0 : Bool) (rate : Nat) (s : State) : State :=
  capturePort 1 p ((List.range 8).foldl (fun s c => giveCredit p c s)
    (joinService l (modPort p (fun x => { x with up := true, v0 := v0, rate := rate })
      (s.modLink fun k => { k with cellsIn := k.cellsIn.filter fun e => e.1 / 8 != p }))))

theorem sat_eq_min (bound n : Nat) : sat bound n = Nat.min bound n := by
  show (if n ≤ bound then n else bound) = min bound n
  split <;> omega

theorem trained_of_linkDown {l p : Nat} {s : State} (v0 : Bool) (rate : Nat) (far : FarEnd) (h : (thePort s p).up = false) :
    trained l p v0 rate far s =
      if v0 = true then latBegin p 3 (bringLinkUp l p v0 rate (learnFarEnd l p far s))
      else bringLinkUp l p v0 rate (learnFarEnd l p far s) := by
  simp only [trained, setSwing_thePort, modLaneOpt_thePort, modLaneLink_thePort, h, Bool.false_eq_true, if_false,
    modLaneLink_time, sat_eq_min, learnFarEnd, bringLinkUp]

end Sys2Proof.Machine
end

section
/-! SUPPORT. The commands LANE_RESET (R336) and PORT_CONFIG (R6, R204, R274): each refusal, and what an accepted request does. -/

namespace Sys2Proof.Machine

/-! ### LANE_RESET -/

section
variable {args : List Word} {s : State} (c : CmdRef)

theorem laneReset_of_noLane (h : 1024 ≤ argN args 1) : laneReset c args s = cmdRefuse St.badArgument 1 s := if_pos h

variable (lane : argN args 1 < 1024)
include lane

theorem laneReset_of_busyLane (h : laneState s (argN args 1) = .withdrawn ∨ laneState s (argN args 1) = .training) :
    laneReset c args s = cmdRefuse St.busy 0 s := by
  rw [laneReset, if_neg (by omega)]
  rcases h with h | h <;> simp only [h]

theorem laneReset_of_unusedLane
    (h : laneState s (argN args 1) = .flue ∨ laneState s (argN args 1) = .banked ∨ laneState s (argN args 1) = .down) :
    laneReset c args s = cmdRefuse St.badArgument 1 s := by
  rw [laneReset, if_neg (by omega)]
  rcases h with h | h | h <;> simp only [h]

variable {p : Nat} (serves : laneState s (argN args 1) = .inService) (hp : portOfLane s (argN args 1) = some p)
include serves hp

theorem laneReset_of_onlyLane (h : servingLanes s p = [argN args 1]) :
    laneReset c args s = cmdOk (setLane (argN args 1) .training (linkDown p s)) := by
  rw [laneReset, if_neg (by omega)]
  simp only [serves, hp]
  exact if_pos h

theorem laneReset_of_othersServe (h : servingLanes s p ≠ [argN args 1]) :
    laneReset c args s = (settleIdle (argN args 1) (askWithdraw (argN args 1) .force
      (modLaneOpt (argN args 1) (fun o => { o with resetCmd := some c }) (addDetached c .none s))), none) := by
  rw [laneReset, if_neg (by omega)]
  simp only [serves, hp]
  exact if_neg h

end

/-! ### PORT_CONFIG -/

/-- BASE and WIDTH name a port (R6). -/
def ShapeOk (args : List Word) : Prop :=
  argN args 1 < 1024 ∧ (argN args 2 = 1 ∨ argN args 2 = 2 ∨ argN args 2 = 4 ∨ argN args 2 = 8) ∧
    argN args 1 % argN args 2 = 0

/-- VER_MASK and MAX_RATE are in range, and v1 alone has its own rate (R274). -/
def RatesOk (args : List Word) : Prop :=
  1 ≤ argN args 4 ∧ argN args 4 ≤ 3 ∧ argN args 5 ≤ 2 ∧ (argN args 4 = 2 → argN args 5 = 2)

/-- No other configured port that overlaps the range is enabled. -/
def RangeClear (args : List Word) (s : State) : Prop :=
  ∀ q ∈ portsOver s (argN args 1) (argN args 2), (thePort s q).enabled = false

/-- An enabled port keeps its width. -/
def WidthKept (args : List Word) (s : State) : Prop :=
  (thePort s (argN args 1)).configured = true → (thePort s (argN args 1)).enabled = true →
    (thePort s (argN args 1)).width = argN args 2

/-- A bundle names a port that would be removed. -/
def SlotsName (args : List Word) (s : State) : Prop :=
  ∃ q ∈ portsOver s (argN args 1) (argN args 2), slotNames s q = true

/-- A port is to be enabled in a barn whose buffer is all scratchpad (R204). -/
def NoBuffer (args : List Word) (s : State) : Prop :=
  argN args 3 = 1 ∧ wholeScratch s (barnOf (argN args 1)) = true

/-- The other configured ports of the range are removed. -/
def clearRange (args : List Word) (s : State) : State :=
  (portsOver s (argN args 1) (argN args 2)).foldl (fun s q => removePort q s) s

/-- The port takes the settings of the request. -/
def setPort (args : List Word) (s : State) : State :=
  modPort (argN args 1) (fun x => { x with configured := true, width := argN args 2, enabled := argN args 3 == 1,
                                           verMask := argN args 4, maxRate := argN args 5 }) s

/-- A port is configured and enabled. -/
def portOn (s : State) (p : Nat) : Bool := (thePort s p).configured && (thePort s p).enabled

/-- What PORT_CONFIG does once no check refuses it. -/
def configurePort (args : List Word) (s : State) : State :=
  let en := argN args 3 == 1
  let t := clearRange args s
  let u := setPort args (if portOn s (argN args 1) && !en then portLanesTo (argN args 1) .down (linkDown (argN args 1) t) else t)
  if en && !portOn s (argN args 1) && barnUp u (barnOf (argN args 1)) then portLanesTo (argN args 1) .training u else u

@[simp] theorem fetched_RangeClear (i : Instr) (args : List Word) (s : State) :
    RangeClear args (fetched i s) ↔ RangeClear args s := by
  simp only [RangeClear, fetched_portsOver, fetched_thePort]
@[simp] theorem fetched_WidthKept (i : Instr) (args : List Word) (s : State) :
    WidthKept args (fetched i s) ↔ WidthKept args s := by
  simp only [WidthKept, fetched_thePort]
@[simp] theorem fetched_SlotsName (i : Instr) (args : List Word) (s : State) :
    SlotsName args (fetched i s) ↔ SlotsName args s := by
  simp only [SlotsName, fetched_portsOver, fetched_slotNames]
@[simp] theorem fetched_NoBuffer (i : Instr) (args : List Word) (s : State) :
    NoBuffer args (fetched i s) ↔ NoBuffer args s := by
  simp only [NoBuffer, fetched_wholeScratch]
@[simp] theorem fetched_portOn (i : Instr) (s : State) (p : Nat) : portOn (fetched i s) p = portOn s p := by
  simp only [portOn, fetched_thePort]
theorem clearRange_fetched (i : Instr) (args : List Word) (s : State) : clearRange args (fetched i s) =
    (portsOver s (argN args 1) (argN args 2)).foldl (fun s q => removePort q s) (fetched i s) := by
  rw [clearRange, fetched_portsOver]

section
variable {args : List Word} {s : State}

/-- PORT_CONFIG as its checks in their order: the words of the request one by one, then what stands in the device. -/
theorem portConfig_eq [Decidable (RangeClear args s)] [Decidable (WidthKept args s)] [Decidable (NoBuffer args s)]
    [Decidable (SlotsName args s)] :
    portConfig args s =
      if 1024 ≤ argN args 1 then cmdRefuse St.badArgument 1 s
      else if ¬(argN args 2 = 1 ∨ argN args 2 = 2 ∨ argN args 2 = 4 ∨ argN args 2 = 8) then cmdRefuse St.badArgument 2 s
      else if argN args 1 % argN args 2 ≠ 0 then cmdRefuse St.badArgument 1 s
      else if 1 < argN args 3 then cmdRefuse St.badArgument 3 s
      else if argN args 4 = 0 ∨ 3 < argN args 4 then cmdRefuse St.badArgument 4 s
      else if 2 < argN args 5 ∨ (argN args 4 = 2 ∧ argN args 5 < 2) then cmdRefuse St.badArgument 5 s
      else if ¬RangeClear args s then cmdRefuse St.badArgument 1 s
      else if ¬WidthKept args s then cmdRefuse St.badArgument 2 s
      else if holdsFlue s (argN args 1) (argN args 2) = true then cmdRefuse St.busy 0 s
      else if NoBuffer args s then cmdRefuse St.busy 0 s
      else if SlotsName args s then cmdRefuse St.busy 0 s
      else cmdOk (configurePort args s) := by
  have width : (!(argN args 2 == 1 || argN args 2 == 2 || argN args 2 == 4 || argN args 2 == 8)) = true ↔
      ¬(argN args 2 = 1 ∨ argN args 2 = 2 ∨ argN args 2 = 4 ∨ argN args 2 = 8) := by
    simp [and_assoc]
  have clear : ((portsOver s (argN args 1) (argN args 2)).any fun q => (thePort s q).enabled) = true ↔
      ¬RangeClear args s := by
    simp [RangeClear]
  have kept : ((thePort s (argN args 1)).configured = true ∧ (thePort s (argN args 1)).enabled = true ∧
      (thePort s (argN args 1)).width ≠ argN args 2) ↔ ¬WidthKept args s := by
    simp [WidthKept]
  have buffer : ((argN args 3 == 1) = true ∧ wholeScratch s (barnOf (argN args 1)) = true) ↔ NoBuffer args s := by
    simp [NoBuffer]
  have named : ((portsOver s (argN args 1) (argN args 2)).any fun q => slotNames s q) = true ↔ SlotsName args s := by
    simp [SlotsName]
  unfold portConfig
  simp only [width, clear, kept, buffer, named]
  rfl

theorem portConfig_of_noPort (h : 1024 ≤ argN args 1) : portConfig args s = cmdRefuse St.badArgument 1 s := if_pos h

theorem portConfig_of_badWidth (hp : argN args 1 < 1024)
    (h : ¬(argN args 2 = 1 ∨ argN args 2 = 2 ∨ argN args 2 = 4 ∨ argN args 2 = 8)) :
    portConfig args s = cmdRefuse St.badArgument 2 s := by
  classical rw [portConfig_eq, if_neg (by omega), if_pos h]

theorem portConfig_of_unaligned (hp : argN args 1 < 1024)
    (hw : argN args 2 = 1 ∨ argN args 2 = 2 ∨ argN args 2 = 4 ∨ argN args 2 = 8) (h : argN args 1 % argN args 2 ≠ 0) :
    portConfig args s = cmdRefuse St.badArgument 1 s := by
  classical rw [portConfig_eq, if_neg (by omega), if_neg (not_not.mpr hw), if_pos h]

/-- A request of a good shape is judged by the rest of its words. -/
theorem portConfig_of_shapeOk [Decidable (RangeClear args s)] [Decidable (WidthKept args s)] [Decidable (NoBuffer args s)]
    [Decidable (SlotsName args s)] (shape : ShapeOk args) :
    portConfig args s =
      if 1 < argN args 3 then cmdRefuse St.badArgument 3 s
      else if argN args 4 = 0 ∨ 3 < argN args 4 then cmdRefuse St.badArgument 4 s
      else if 2 < argN args 5 ∨ (argN args 4 = 2 ∧ argN args 5 < 2) then cmdRefuse St.badArgument 5 s
      else if ¬RangeClear args s then cmdRefuse St.badArgument 1 s
      else if ¬WidthKept args s then cmdRefuse St.badArgument 2 s
      else if holdsFlue s (argN args 1) (argN args 2) = true then cmdRefuse St.busy 0 s
      else if NoBuffer args s then cmdRefuse St.busy 0 s
      else if SlotsName args s then cmdRefuse St.busy 0 s
      else cmdOk (configurePort args s) := by
  obtain ⟨port, width, aligned⟩ := shape
  rw [portConfig_eq, if_neg (by omega), if_neg (not_not.mpr width), if_neg (not_not.mpr aligned)]

section
variable (shape : ShapeOk args)
include shape

theorem portConfig_of_badEnable (h : 1 < argN args 3) : portConfig args s = cmdRefuse St.badArgument 3 s := by
  classical rw [portConfig_of_shapeOk shape, if_pos h]

variable (en : argN args 3 ≤ 1)
include en

theorem portConfig_of_badVersions (h : argN args 4 = 0 ∨ 3 < argN args 4) :
    portConfig args s = cmdRefuse St.badArgument 4 s := by
  classical rw [portConfig_of_shapeOk shape, if_neg (by omega), if_pos h]

theorem portConfig_of_badRate (h1 : 1 ≤ argN args 4) (h3 : argN args 4 ≤ 3)
    (h : 2 < argN args 5 ∨ (argN args 4 = 2 ∧ argN args 5 < 2)) : portConfig args s = cmdRefuse St.badArgument 5 s := by
  classical rw [portConfig_of_shapeOk shape, if_neg (by omega), if_neg (by omega), if_pos h]

variable (rates : RatesOk args)
include rates

/-- A request whose words are all good is judged by what stands in the device. -/
theorem portConfig_of_ratesOk [Decidable (RangeClear args s)] [Decidable (WidthKept args s)] [Decidable (NoBuffer args s)]
    [Decidable (SlotsName args s)] :
    portConfig args s =
      if ¬RangeClear args s then cmdRefuse St.badArgument 1 s
      else if ¬WidthKept args s then cmdRefuse St.badArgument 2 s
      else if holdsFlue s (argN args 1) (argN args 2) = true then cmdRefuse St.busy 0 s
      else if NoBuffer args s then cmdRefuse St.busy 0 s
      else if SlotsName args s then cmdRefuse St.busy 0 s
      else cmdOk (configurePort args s) := by
  obtain ⟨one, three, two, alone⟩ := rates
  rw [portConfig_of_shapeOk shape, if_neg (by omega), if_neg (by omega), if_neg (by omega)]

theorem portConfig_of_takenRange (h : ¬RangeClear args s) : portConfig args s = cmdRefuse St.badArgument 1 s := by
  classical rw [portConfig_of_ratesOk shape en rates, if_pos h]

variable (clear : RangeClear args s)
include clear

theorem portConfig_of_otherWidth (h : ¬WidthKept args s) : portConfig args s = cmdRefuse St.badArgument 2 s := by
  classical rw [portConfig_of_ratesOk shape en rates, if_neg (not_not.mpr clear), if_pos h]

variable (kept : WidthKept args s)
include kept

theorem portConfig_of_busy (h : holdsFlue s (argN args 1) (argN args 2) = true ∨ NoBuffer args s ∨ SlotsName args s) :
    portConfig args s = cmdRefuse St.busy 0 s := by
  classical
  rw [portConfig_of_ratesOk shape en rates, if_neg (not_not.mpr clear), if_neg (not_not.mpr kept)]
  rcases h with flue | buffer | named
  · rw [if_pos flue]
  · rw [if_pos buffer, ite_self]
  · rw [if_pos named, ite_self, ite_self]

theorem portConfig_of_free (flue : holdsFlue s (argN args 1) (argN args 2) = false) (buffer : ¬NoBuffer args s)
    (named : ¬SlotsName args s) : portConfig args s = cmdOk (configurePort args s) := by
  classical
  rw [portConfig_of_ratesOk shape en rates, if_neg (not_not.mpr clear), if_neg (not_not.mpr kept), if_neg (by simp [flue]),
    if_neg buffer, if_neg named]

end

/-! ### What an accepted PORT_CONFIG does -/

section
variable {t : State}

section
variable (en : argN args 3 = 1) (cleared : clearRange args s = t)
include en cleared

theorem configurePort_of_newlyEnabled (off : portOn s (argN args 1) = false)
    (up : barnUp (setPort args t) (barnOf (argN args 1)) = true) :
    configurePort args s = portLanesTo (argN args 1) .training (setPort args t) := by
  simp [configurePort, en, cleared, off, up]

theorem configurePort_of_keptEnabled
    (h : portOn s (argN args 1) = true ∨ barnUp (setPort args t) (barnOf (argN args 1)) = false) :
    configurePort args s = setPort args t := by
  rcases h with on | down
  · simp [configurePort, en, cleared, on]
  · simp [configurePort, en, cleared, down]

end

section
variable (en : argN args 3 = 0) (cleared : clearRange args s = t)
include en cleared

theorem configurePort_of_newlyDisabled (on : portOn s (argN args 1) = true) :
    configurePort args s = setPort args (portLanesTo (argN args 1) .down (linkDown (argN args 1) t)) := by
  simp [configurePort, en, cleared, on]

theorem configurePort_of_keptDisabled (off : portOn s (argN args 1) = false) : configurePort args s = setPort args t := by
  simp [configurePort, en, cleared, off]

end

end

end

end Sys2Proof.Machine
end

section
/-! SUPPORT. The statement on withdrawal, rehoming, training and port configuration, command by command. -/

namespace Sys2Proof.Proofs

open Sys2Proof.Machine

/-- How a row or a command that gives one next state is settled: by what that state is. -/
theorem next_congr {t u : State} (h : t = u) : (Host.Outcome.next t : Host.Outcome State Fault Refusal) = .next u :=
  congrArg Host.Outcome.next h

/-! ### The two commands as accepted entries -/

section
variable {h : CmdHdr} {args : List Word} {s t : State} {status detail : Nat}

theorem exec_laneReset_refused (acc : accepted (.laneReset h args) s = true)
    (hb : laneReset (refOf (.laneReset h args) s) args (fetched (.laneReset h args) s) =
      cmdRefuse status detail (fetched (.laneReset h args) s)) :
    exec (.laneReset h args) s = .next (refusedEnd (.laneReset h args) s status detail) :=
  run_refused rfl acc (exec_laneReset h args s) hb

theorem exec_laneReset_ok (acc : accepted (.laneReset h args) s = true)
    (hb : laneReset (refOf (.laneReset h args) s) args (fetched (.laneReset h args) s) = cmdOk t) :
    exec (.laneReset h args) s = .next (okEnd (.laneReset h args) s [] t) :=
  run_ok rfl acc (exec_laneReset h args s) hb

theorem exec_laneReset_detached (acc : accepted (.laneReset h args) s = true)
    (hb : laneReset (refOf (.laneReset h args) s) args (fetched (.laneReset h args) s) = (t, none)) :
    exec (.laneReset h args) s = .next t :=
  run_detached rfl acc (exec_laneReset h args s) hb

theorem exec_portConfig_refused (acc : accepted (.portConfig h args) s = true)
    (hb : portConfig args (fetched (.portConfig h args) s) = cmdRefuse status detail (fetched (.portConfig h args) s)) :
    exec (.portConfig h args) s = .next (refusedEnd (.portConfig h args) s status detail) :=
  run_refused rfl acc (exec_portConfig h args s) hb

theorem exec_portConfig_ok (acc : accepted (.portConfig h args) s = true)
    (hb : portConfig args (fetched (.portConfig h args) s) = cmdOk t) :
    exec (.portConfig h args) s = .next (okEnd (.portConfig h args) s [] t) :=
  run_ok rfl acc (exec_portConfig h args s) hb

end

/-- Settles O39: each clause is the lemma that says what its row or command does in the state that the clause describes. -/
theorem withdrawalTrainingAndPorts : Obligations.WithdrawalTrainingAndPorts := by
  unfold Obligations.WithdrawalTrainingAndPorts
  refine ⟨?wdReq, ?answers, ?rehomeReq, ?rehomeAck, ?training, ?otherStates, ?trained, ?laneReset, ?portConfig⟩
  case wdReq =>
    intro l tag s mine alone granted
    refine ⟨fun away notMine => ?_, fun serves notMine last => ?_, fun serves notMine noPort => ?_,
      fun serves notMine others port => ?_, fun kind atOnce => ⟨fun serves => ?_, fun away => ?_⟩⟩
    · exact next_congr (wdReq_cal_of_notServing _ notMine away)
    · exact next_congr (wdReq_cal_of_lastServing _ notMine serves last)
    · exact next_congr (wdReq_cal_of_noPort _ notMine serves noPort)
    · exact next_congr ((wdReq_cal_of_othersServe _ notMine serves others port).trans (grantAndLeave_of_serving _ _ serves))
    · exact next_congr ((wdReq_of_grantAtOnce _ atOnce).trans (grantAndLeave_of_serving _ _ serves))
    · exact next_congr ((wdReq_of_grantAtOnce _ atOnce).trans (grantAndLeave_of_notServing _ _ away))
  case answers =>
    intro l tag reason s t waits
    refine ⟨fun none => ⟨?_, ?_⟩, fun other => ⟨?_, ?_⟩, fun same => ?_,
      fun kind asked same => ⟨fun inUse free => ?_, fun inUse force reserved => ?_, fun unused => ?_⟩,
      fun cal => ?_, fun swap => ?_, fun force => ⟨fun inUse free => ?_, fun inUse reserved => ?_, fun unused => ?_⟩⟩
    · exact next_congr (wdGrant_of_notAsked _ none)
    · exact next_congr (unanswered_of_notAsked none)
    · exact next_congr (wdGrant_of_otherTag other)
    · exact next_congr (wdRefuse_of_otherTag other)
    · exact next_congr (wdRefuse_of_tag same)
    · exact next_congr ((wdGrant_of_asked asked same).trans (goOn_withdraws inUse free))
    · subst force
      exact next_congr ((wdGrant_of_asked asked same).trans (goOn_takes inUse reserved))
    · exact next_congr ((wdGrant_of_asked asked same).trans (goOn_of_notInUse kind unused))
    · exact next_congr (unanswered_cal cal)
    · exact next_congr (unanswered_swap swap)
    · exact next_congr ((unanswered_force force).trans (goOn_withdraws inUse (.inr free)))
    · exact next_congr ((unanswered_force force).trans (goOn_takes inUse reserved))
    · exact next_congr ((unanswered_force force).trans (goOn_of_notInUse .force unused))
  case rehomeReq =>
    intro l tag s
    exact ⟨fun frames => next_congr (rehomeReq_of_frames _ frames), fun dark => next_congr (rehomeReq_of_dark _ dark)⟩
  case rehomeAck =>
    intro l tag q s k
    exact ⟨fun unasked => next_congr (rehomeAck_ignored _ unasked),
      fun p port orphans same => next_congr (rehomeAck_taken _ port orphans same)⟩
  case training =>
    intro l s p training port begins fails
    have begun : beginTraining l s = begins := beginTraining_of_port port
    refine ⟨fun step en up => ?_, fun cause step => ?_, fun step => ?_, fun far step up => ?_⟩
    · exact next_congr ((trainingStart_begins training port step en up).trans begun)
    · exact next_congr (trainFail_fails training cause step)
    · exact next_congr ((trainingRestart_begins training step).trans begun)
    · refine ⟨fun shape => ?_, fun shape down choice => ?_, fun v0 rate shape down choice => ?_, fun shape linkUp => ?_⟩
      · exact next_congr ((trainingComplete_of_otherShape training port step up shape).trans
          (trainFail_fails training .portMismatch step))
      · exact next_congr ((trainingComplete_of_noCommon training port step up shape down choice).trans
          (trainFail_fails training .noCommon step))
      · exact next_congr (trainingComplete_of_common training port step up shape down choice)
      · exact next_congr (trainingComplete_of_linkUp training port step up shape linkUp)
  case otherStates =>
    intro l far cause s
    refine ⟨fun other => ⟨?_, ?_, ?_, ?_⟩, fun step => ?_, fun step => ⟨?_, ?_⟩, fun step => ?_⟩
    · exact next_congr (trainingStart_ignored (.inl other))
    · exact next_congr (trainFail_ignored cause (.inl other))
    · exact next_congr (trainingRestart_ignored (.inl other))
    · exact next_congr (trainingComplete_ignored far (.inl other))
    · exact next_congr (trainingStart_ignored (.inr step))
    · exact next_congr (trainFail_ignored cause (.inr step))
    · exact next_congr (trainingComplete_ignored far (.inr step))
    · exact next_congr (trainingRestart_ignored (.inr step))
  case trained =>
    intro l p v0 rate far s down
    exact trained_of_linkDown v0 rate far down
  case laneReset =>
    intro h args s i l acc
    refine ⟨fun noLane => ?_, fun lane busy => ?_, fun lane unused => ?_,
      fun p lane serves port => ⟨fun only => ?_, fun others => ?_⟩⟩
    · exact exec_laneReset_refused acc (laneReset_of_noLane _ noLane)
    · exact exec_laneReset_refused acc (laneReset_of_busyLane _ lane (by simpa using busy))
    · exact exec_laneReset_refused acc (laneReset_of_unusedLane _ lane (by simpa using unused))
    · exact exec_laneReset_ok acc (laneReset_of_onlyLane _ lane (by simpa using serves) (by simpa using port)
        (by simpa using only))
    · exact exec_laneReset_detached acc (laneReset_of_othersServe _ lane (by simpa using serves) (by simpa using port)
        (by simpa using others))
  case portConfig =>
    intro h args s i p w shape rates clear same named whole acc
    refine ⟨fun noPort => ?_, fun port w1 w2 w4 w8 => ?_, fun port width unaligned => ?_, fun sh en => ?_,
      fun sh en versions => ?_, fun sh en one three rate => ?_, fun sh en ra =>
        ⟨fun taken => ?_, fun free width => ?_, fun free kept busy => ?_, fun free kept flue buffer unnamed => ?_⟩⟩
    · exact exec_portConfig_refused acc (portConfig_of_noPort noPort)
    · exact exec_portConfig_refused acc (portConfig_of_badWidth port (by omega))
    · exact exec_portConfig_refused acc (portConfig_of_unaligned port width unaligned)
    · exact exec_portConfig_refused acc (portConfig_of_badEnable sh en)
    · exact exec_portConfig_refused acc (portConfig_of_badVersions sh en versions)
    · exact exec_portConfig_refused acc (portConfig_of_badRate sh en one three rate)
    · exact exec_portConfig_refused acc (portConfig_of_takenRange sh en ra (mt (fetched_RangeClear i args s).mp taken))
    · exact exec_portConfig_refused acc (portConfig_of_otherWidth sh en ra ((fetched_RangeClear i args s).mpr free)
        (mt (fetched_WidthKept i args s).mp width))
    · refine exec_portConfig_refused acc (portConfig_of_busy sh en ra ((fetched_RangeClear i args s).mpr free)
        ((fetched_WidthKept i args s).mpr kept) ?_)
      rw [fetched_holdsFlue, fetched_NoBuffer, fetched_SlotsName]
      exact busy
    · intro was t conf
      have runs : portConfig args (fetched i s) = cmdOk (configurePort args (fetched i s)) :=
        portConfig_of_free sh en ra ((fetched_RangeClear i args s).mpr free) ((fetched_WidthKept i args s).mpr kept)
          ((fetched_holdsFlue i s p w).trans flue) (mt (fetched_NoBuffer i args s).mp buffer)
          (mt (fetched_SlotsName i args s).mp unnamed)
      have cleared : clearRange args (fetched i s) = t := clearRange_fetched i args s
      have wasOn : portOn (fetched i s) p = was := fetched_portOn i s p
      have ends {u : State} (hu : configurePort args (fetched i s) = u) : exec i s = .next (okEnd i s [] u) :=
        exec_portConfig_ok acc (runs.trans (congrArg cmdOk hu))
      refine ⟨fun en off up => ends ?_, fun en h => ends ?_, fun en on => ends ?_, fun en off => ends ?_⟩
      · exact configurePort_of_newlyEnabled en cleared (wasOn.trans off) up
      · exact configurePort_of_keptEnabled en cleared (h.imp_left wasOn.trans)
      · exact configurePort_of_newlyDisabled en cleared (wasOn.trans on)
      · exact configurePort_of_keptDisabled en cleared (wasOn.trans off)

end Sys2Proof.Proofs
end

section
/-! SUPPORT. The Floor's matching (R99): what a round of a plane picks, and what it adds to the rounds before it. -/

namespace Sys2Proof.Machine

/-! ### The one picked -/

theorem topClass_subset (l : List Request) : topClass l ⊆ l := List.filter_subset_self _

theorem pick_mem {ptr : Nat} {pos : Request → Nat} {l : List Request} {r : Request} (h : pick ptr pos l = some r) : r ∈ l := by
  obtain ⟨k, -, hk⟩ := Option.bind_eq_some_iff.mp h
  have candidate : r ∈ (if ((topClass l).filter fun r => r.old) = [] then topClass l else (topClass l).filter fun r => r.old) :=
    List.mem_of_getElem? hk
  split at candidate
  · exact topClass_subset l candidate
  · exact topClass_subset l (List.mem_of_mem_filter candidate)

theorem pick_filter {ptr : Nat} {pos : Request → Nat} {l : List Request} {q : Request → Bool} {r : Request}
    (h : pick ptr pos (l.filter q) = some r) : r ∈ l ∧ q r = true :=
  List.mem_filter.mp (pick_mem h)

/-- One answer for each key, each of its own key: the keys of the answers differ. -/
theorem nodup_keys_filterMap {key : Request → Nat} {g : Nat → Option Request} (own : ∀ k r, g k = some r → key r = k)
    {ks : List Nat} (distinct : ks.Nodup) : ((ks.filterMap g).map key).Nodup := by
  refine List.pairwise_map.mpr (List.pairwise_filterMap.mpr (distinct.imp fun {i j} ne a ha b hb => ?_))
  rwa [own i a ha, own j b hb]

/-! ### The crossings granted (R20) -/

theorem firstCross_subset (n : Nat) (l : List Request) : firstCross n l ⊆ l := by
  induction n generalizing l with
  | zero => exact List.nil_subset l
  | succ n ih =>
    rw [firstCross]
    split
    next r found =>
      obtain ⟨k, -, hk⟩ := Option.bind_eq_some_iff.mp found
      exact List.cons_subset.mpr ⟨List.mem_of_getElem? hk, fun _ h => List.erase_subset (ih _ h)⟩
    next => exact List.nil_subset l

theorem length_firstCross_le (n : Nat) (l : List Request) : (firstCross n l).length ≤ n := by
  induction n generalizing l with
  | zero => exact Nat.le_refl 0
  | succ n ih =>
    rw [firstCross]
    split
    · exact Nat.succ_le_succ (ih _)
    · exact Nat.zero_le _

/-- No request crosses the bridge from both halves. -/
theorem crosses_unique {a b : Nat} {r : Request} (ha : crosses a r = true) (hb : crosses b r = true) : a = b := by
  simp only [crosses, Bool.and_eq_true, beq_iff_eq] at ha hb
  exact ha.1.symm.trans hb.1

/-! ### Grants -/

/-- The request that a destination picks. -/
def pickedBy (pl : Plane) (free : List Request) (j : Nat) : Option Request :=
  pick (tget pl.gp 0 j) (fun r => r.src) (free.filter fun r => r.dst == j)

/-- What the destinations pick before the crossing capacity is looked at. -/
def wanted (pl : Plane) (free : List Request) : List Request := (List.range 16).filterMap (pickedBy pl free)

/-- The crossings that the remaining channels carry. -/
def crossingsCarried (pl : Plane) (room : Nat → Nat) (free : List Request) : List Request :=
  firstCross (room 0) ((wanted pl free).filter (crosses 0)) ++ firstCross (room 1) ((wanted pl free).filter (crosses 1))

/-- What a destination grants. -/
def grantBy (pl : Plane) (room : Nat → Nat) (free : List Request) (j : Nat) : Option Request :=
  ((wanted pl free).find? fun r => r.dst == j).bind fun r =>
    if (crosses 0 r || crosses 1 r) && !(crossingsCarried pl room free).contains r then
      pickedBy pl (free.filter fun q => !crosses 0 q && !crosses 1 q) j
    else some r

theorem grantsOf_eq (pl : Plane) (room : Nat → Nat) (free : List Request) :
    grantsOf pl room free = (List.range 16).filterMap (grantBy pl room free) := by
  unfold grantsOf
  refine List.filterMap_congr fun j _ => ?_
  unfold grantBy
  rw [show (List.range 16).filterMap (fun j => pick (tget pl.gp 0 j) (fun r => r.src) (free.filter fun r => r.dst == j)) =
    wanted pl free from rfl]
  cases (wanted pl free).find? fun r => r.dst == j <;> rfl

theorem pickedBy_some {pl : Plane} {free : List Request} {j : Nat} {r : Request} (h : pickedBy pl free j = some r) :
    r ∈ free ∧ r.dst = j := by
  obtain ⟨mem, dst⟩ := pick_filter h
  exact ⟨mem, by simpa using dst⟩

theorem wanted_subset (pl : Plane) (free : List Request) : wanted pl free ⊆ free := by
  intro r h
  obtain ⟨j, -, hj⟩ := List.mem_filterMap.mp h
  exact (pickedBy_some hj).1

/-- A destination grants a request for it; one that crosses the bridge is among those carried. -/
theorem grantBy_some {pl : Plane} {room : Nat → Nat} {free : List Request} {j : Nat} {r : Request}
    (h : grantBy pl room free j = some r) :
    r ∈ free ∧ r.dst = j ∧ (crosses 0 r = true ∨ crosses 1 r = true → r ∈ crossingsCarried pl room free) := by
  obtain ⟨w, found, hw⟩ := Option.bind_eq_some_iff.mp h
  split at hw
  next =>
    obtain ⟨mem, dst⟩ := pickedBy_some hw
    obtain ⟨inFree, within⟩ := List.mem_filter.mp mem
    simp only [Bool.and_eq_true, Bool.not_eq_true'] at within
    exact ⟨inFree, dst, by simp [within]⟩
  next kept =>
    obtain rfl := Option.some.inj hw
    refine ⟨wanted_subset pl free (List.mem_of_find?_eq_some found), by simpa using List.find?_some found, fun crossing => ?_⟩
    simpa [crossing] using kept

/-- The crossings carried from a half are no more than its room. -/
theorem crossingsCarried_from {pl : Plane} {room : Nat → Nat} {free : List Request} {half : Nat} {r : Request}
    (crossing : crosses half r = true) (h : r ∈ crossingsCarried pl room free) :
    r ∈ firstCross (room half) ((wanted pl free).filter (crosses half)) := by
  have from_ (k : Nat) (hk : r ∈ firstCross (room k) ((wanted pl free).filter (crosses k))) : half = k :=
    crosses_unique crossing (List.mem_filter.mp (firstCross_subset _ _ hk)).2
  rcases List.mem_append.mp h with h | h
  · rwa [from_ 0 h]
  · rwa [from_ 1 h]

/-! ### A round -/

/-- The requests between barns that no earlier round has matched. -/
def freeOf (reqs done : List Request) : List Request :=
  reqs.filter fun r => !(done.any fun d => d.src == r.src || d.dst == r.dst)

/-- The crossings that earlier rounds have left to a half. -/
def roomLeft (room : Nat → Nat) (done : List Request) (half : Nat) : Nat := room half - (done.filter (crosses half)).length

/-- The grants of a round. -/
def roundGrants (pl : Plane) (room : Nat → Nat) (reqs done : List Request) : List Request :=
  grantsOf pl (roomLeft room done) (freeOf reqs done)

theorem round_eq (pl : Plane) (room : Nat → Nat) (reqs done : List Request) : round pl room reqs done =
    (List.range 16).filterMap fun i =>
      pick (tget pl.ap 0 i) (fun r => r.dst) ((roundGrants pl room reqs done).filter fun r => r.src == i) := rfl

theorem round_src (pl : Plane) (room : Nat → Nat) (reqs done : List Request) :
    ((round pl room reqs done).map Request.src).Nodup := by
  rw [round_eq]
  exact nodup_keys_filterMap (fun i r h => by simpa using (pick_filter h).2) List.nodup_range

theorem round_nodup (pl : Plane) (room : Nat → Nat) (reqs done : List Request) : (round pl room reqs done).Nodup :=
  (round_src pl room reqs done).of_map _

theorem round_subset (pl : Plane) (room : Nat → Nat) (reqs done : List Request) :
    round pl room reqs done ⊆ roundGrants pl room reqs done := by
  intro r h
  obtain ⟨i, -, hi⟩ := List.mem_filterMap.mp h
  exact (pick_filter hi).1

theorem grants_dst (pl : Plane) (room : Nat → Nat) (free : List Request) :
    ((grantsOf pl room free).map Request.dst).Nodup := by
  rw [grantsOf_eq]
  exact nodup_keys_filterMap (fun j r h => (grantBy_some h).2.1) List.nodup_range

theorem grants_mem {pl : Plane} {room : Nat → Nat} {free : List Request} {r : Request} (h : r ∈ grantsOf pl room free) :
    r ∈ free ∧ (crosses 0 r = true ∨ crosses 1 r = true → r ∈ crossingsCarried pl room free) := by
  rw [grantsOf_eq] at h
  obtain ⟨j, -, hj⟩ := List.mem_filterMap.mp h
  obtain ⟨mem, -, carriedIf⟩ := grantBy_some hj
  exact ⟨mem, carriedIf⟩

theorem round_dst (pl : Plane) (room : Nat → Nat) (reqs done : List Request) :
    ((round pl room reqs done).map Request.dst).Nodup :=
  (List.nodup_map_iff_inj_on (round_nodup pl room reqs done)).mpr fun _ ha _ hb same =>
    List.inj_on_of_nodup_map (grants_dst _ _ _) (round_subset _ _ _ _ ha) (round_subset _ _ _ _ hb) same

/-- A round matches requests between barns that are still free. -/
theorem round_mem {pl : Plane} {room : Nat → Nat} {reqs done : List Request} {r : Request}
    (h : r ∈ round pl room reqs done) : r ∈ reqs ∧ ∀ d ∈ done, d.src ≠ r.src ∧ d.dst ≠ r.dst := by
  obtain ⟨mem, apart⟩ := List.mem_filter.mp (grants_mem (round_subset _ _ _ _ h)).1
  exact ⟨mem, by simpa using apart⟩

/-- What a round matches across the bridge from a half is no more than what earlier rounds have left to it. -/
theorem round_crossings (pl : Plane) (room : Nat → Nat) (reqs done : List Request) {half : Nat} (two : half < 2) :
    ((round pl room reqs done).filter (crosses half)).length ≤ roomLeft room done half := by
  have within : (round pl room reqs done).filter (crosses half) ⊆
      firstCross (roomLeft room done half) ((wanted pl (freeOf reqs done)).filter (crosses half)) := by
    intro r h
    obtain ⟨mem, crossing⟩ := List.mem_filter.mp h
    have : crosses 0 r = true ∨ crosses 1 r = true := by
      rcases (by omega : half = 0 ∨ half = 1) with rfl | rfl
      · exact .inl crossing
      · exact .inr crossing
    exact crossingsCarried_from crossing ((grants_mem (round_subset _ _ _ _ mem)).2 this)
  exact (((round_nodup pl room reqs done).filter _).subperm within).length_le.trans (length_firstCross_le _ _)

/-! ### The rounds together -/

/-- Matches of a plane: one to one, answers to requests, no more crossings from a half than its room. -/
structure Matching (room : Nat → Nat) (reqs l : List Request) : Prop where
  oneToOne : l.Pairwise fun a b => a.src ≠ b.src ∧ a.dst ≠ b.dst
  answers : l ⊆ reqs
  fits : ∀ half, half < 2 → (l.filter (crosses half)).length ≤ room half

theorem Matching.nil (room : Nat → Nat) (reqs : List Request) : Matching room reqs [] :=
  ⟨.nil, List.nil_subset reqs, fun _ _ => Nat.zero_le _⟩

/-- A round adds to a matching without taking a barn twice or overfilling the bridge. -/
theorem Matching.round {room : Nat → Nat} {reqs done : List Request} (h : Matching room reqs done) (pl : Plane) :
    Matching room reqs (done ++ round pl room reqs done) where
  oneToOne := List.pairwise_append.mpr ⟨h.oneToOne,
    (List.pairwise_map.mp (round_src pl room reqs done)).and (List.pairwise_map.mp (round_dst pl room reqs done)), fun d hd _ hr => (round_mem hr).2 d hd⟩
  answers := List.append_subset.mpr ⟨h.answers, fun _ hr => (round_mem hr).1⟩
  fits half two := by
    have before := h.fits half two
    have added := round_crossings pl room reqs done two
    rw [roomLeft] at added
    rw [List.filter_append, List.length_append]
    omega

theorem matchPlane_matching (s : State) (p : Nat) (reqs : List Request) :
    Matching (fun half => crossBudget s half p / 125) (reqs.filter fun r => r.plane == p && !r.held) (matchPlane s p reqs).1 := by
  have first := (Matching.nil (fun half => crossBudget s half p / 125) (reqs.filter fun r => r.plane == p && !r.held)).round
    (thePlane s p)
  rw [List.nil_append] at first
  exact (first.round (thePlane s p)).round (thePlane s p)

end Sys2Proof.Machine

namespace Sys2Proof.Proofs

open Sys2Proof.Machine

/-- Settles O14: the three rounds of a plane make a matching of its requests that are not held. -/
theorem floorMatchesAreOneToOne : Obligations.FloorMatchesAreOneToOne := by
  unfold Obligations.FloorMatchesAreOneToOne
  intro s p reqs
  obtain ⟨oneToOne, answers, fits⟩ := matchPlane_matching s p reqs
  refine ⟨oneToOne, fun r hr => ?_, fun half two => ?_⟩
  · simpa using List.mem_filter.mp (answers hr)
  · have room := fits half two
    rw [crossBudget] at room
    change 125 * ((matchPlane s p reqs).1.filter (crosses half)).length ≤ _
    omega

end Sys2Proof.Proofs
end

section
/-! SUPPORT. The trailer of a received packet (R22, R78, R400, R436): when it is left alone, and what it does by what has become of
the packet. -/

namespace Sys2Proof.Machine

/-- A trailer that the rule leaves alone: its packet is not judged, it repeats bytes of one that has ended, or its lane is lent to
a circuit. -/
def TrailerIgnored (s : State) (lane : Nat) (rest : List Byte) (r : RxPkt) : Prop :=
  r.disp = .unknown ∨ (r.ended = true ∧ rest ≠ []) ∨
    (r.ended = false ∧ laneState s lane = .flue ∧ (laneOpt s lane).draining = false)

/-- The record of a packet with the bytes its trailer brings. -/
def trailed (r : RxPkt) (rest : List Byte) : RxPkt := { r with bytes := r.bytes ++ rest, ended := true }

/-- The header that the bytes of a record spell. -/
def rxHeader (r : RxPkt) : Header := headerOfBytes (r.bytes.take 32)

/-- The packet that the bytes of a record spell passes its CRC-64. -/
def rxCrcOk (r : RxPkt) : Bool := crcOk (packetOf (rxHeader r) r.bytes)

/-- The record is grown and the packet counted on its barn and port (R400). -/
def countTrailer (lane port : Nat) (r : RxPkt) (s : State) : State :=
  bumpBy (ctr 4 (barnOf port) (port % 64)) (rxHeader r).pktBytes (bump (ctr 3 (barnOf port) (port % 64))
    (bumpBy (ctr 1 (barnOf port) 1) (rxHeader r).pktBytes (bumpIn (barnOf port) 0
      (modLaneLink lane (fun k => { k with rx := r :: k.rx.drop 1 }) s))))

/-- The record of the packet is closed. -/
def closeRx (lane : Nat) (s : State) : State := modLaneLink lane (fun k => { k with rx := k.rx.drop 1 }) s

/-- The source of a packet is learned if its header might teach and its CRC-64 holds (R78). -/
def learnFrom (port : Nat) (r : RxPkt) (s : State) : State :=
  if r.hdr.isSome && rxCrcOk r then teach port (rxHeader r) s else s

/-- The record holds a packet that goes no further. -/
def voidRx (lane : Nat) (s : State) : State := modRx lane (fun r => { r with disp := .dropped }) s

/-- What a trailer that is taken does, by what has become of its packet; `r` is the record with the trailer's bytes, `old` the bytes
fed before. -/
def takeTrailer (lane port old : Nat) (r : RxPkt) (s : State) : State :=
  let t := countTrailer lane port r s
  match r.disp with
  | .dropped => closeRx lane (learnFrom port r (feed lane port old true t))
  | .unknown => t
  | d =>
    if r.bytes.length ≠ (rxHeader r).pktBytes then
      closeRx lane (feed lane port old true (discardPkt r.pid (voidRx lane (if r.counted then t else bumpIn (barnOf port) 3 t))))
    else if d = .forwarded ∧ !rxCrcOk r then closeRx lane (feed lane port old true (failTransit port r (voidRx lane t)))
    else closeRx lane (learnFrom port r (verified (barnOf port) r.pid (feed lane port old true t)))

section
variable {lane port : Nat} {rest : List Byte} {s : State} {r : RxPkt} {rs : List RxPkt}

theorem trailerRx_of_noPort (h : portOfLane s lane = none) : trailerRx lane rest s = s := by
  simp only [trailerRx, h]

theorem trailerRx_of_noRecord (h : (laneLink s lane).rx = []) : trailerRx lane rest s = s := by
  cases hp : portOfLane s lane <;> simp only [trailerRx, hp, h]

theorem trailerRx_of_ignored (hr : (laneLink s lane).rx = r :: rs) (h : TrailerIgnored s lane rest r) :
    trailerRx lane rest s = s := by
  have stop : r.disp = .unknown ∨ (r.ended = true ∧ rest ≠ []) ∨
      ((!r.ended) = true ∧ laneState s lane = .flue ∧ (!(laneOpt s lane).draining) = true) := by
    simpa only [TrailerIgnored, Bool.not_eq_true'] using h
  cases hp : portOfLane s lane with
  | none => exact trailerRx_of_noPort hp
  | some port => simp only [trailerRx, hp, hr, if_pos stop]

theorem trailerRx_of_taken (hp : portOfLane s lane = some port) (hr : (laneLink s lane).rx = r :: rs)
    (h : ¬TrailerIgnored s lane rest r) :
    trailerRx lane rest s = takeTrailer lane port (held r false) (trailed r rest) s := by
  have go : ¬(r.disp = .unknown ∨ (r.ended = true ∧ rest ≠ []) ∨
      ((!r.ended) = true ∧ laneState s lane = .flue ∧ (!(laneOpt s lane).draining) = true)) := by
    simpa only [TrailerIgnored, Bool.not_eq_true'] using h
  simp only [trailerRx, hp, hr, if_neg go]
  rfl

end

section
variable {lane port old : Nat} {s : State} {r : RxPkt}

theorem takeTrailer_of_dropped (h : r.disp = .dropped) :
    takeTrailer lane port old r s = closeRx lane (learnFrom port r (feed lane port old true (countTrailer lane port r s))) := by
  simp only [takeTrailer, h]

/-- A packet that was taken for sending on or for the device is judged by its length, then by its CRC-64. -/
theorem takeTrailer_of_taken (h : r.disp = .forwarded ∨ r.disp = .terminated) :
    takeTrailer lane port old r s =
      let t := countTrailer lane port r s
      if r.bytes.length ≠ (rxHeader r).pktBytes then
        closeRx lane (feed lane port old true (discardPkt r.pid (voidRx lane (if r.counted then t else bumpIn (barnOf port) 3 t))))
      else if r.disp = .forwarded ∧ !rxCrcOk r then closeRx lane (feed lane port old true (failTransit port r (voidRx lane t)))
      else closeRx lane (learnFrom port r (verified (barnOf port) r.pid (feed lane port old true t))) := by
  rcases h with h | h <;> simp only [takeTrailer, h]

variable (h : r.disp = .forwarded ∨ r.disp = .terminated)
include h

theorem takeTrailer_of_otherLength (len : r.bytes.length ≠ (rxHeader r).pktBytes) :
    takeTrailer lane port old r s = closeRx lane (feed lane port old true (discardPkt r.pid (voidRx lane
      (if r.counted then countTrailer lane port r s else bumpIn (barnOf port) 3 (countTrailer lane port r s))))) :=
  (takeTrailer_of_taken h).trans (if_pos len)

variable (len : r.bytes.length = (rxHeader r).pktBytes)
include len

theorem takeTrailer_of_badTransit (fwd : r.disp = .forwarded) (bad : rxCrcOk r = false) :
    takeTrailer lane port old r s =
      closeRx lane (feed lane port old true (failTransit port r (voidRx lane (countTrailer lane port r s)))) := by
  rw [takeTrailer_of_taken h]
  exact (if_neg (not_not.mpr len)).trans (if_pos ⟨fwd, by simp [bad]⟩)

theorem takeTrailer_of_good (good : r.disp = .terminated ∨ rxCrcOk r = true) :
    takeTrailer lane port old r s = closeRx lane (learnFrom port r (verified (barnOf port) r.pid
      (feed lane port old true (countTrailer lane port r s)))) := by
  rw [takeTrailer_of_taken h]
  refine (if_neg (not_not.mpr len)).trans (if_neg ?_)
  rintro ⟨fwd, bad⟩
  rcases good with term | ok
  · simp [term] at fwd
  · simp [ok] at bad

end

end Sys2Proof.Machine

namespace Sys2Proof.Proofs

open Sys2Proof.Machine

/-- Settles O56: each clause is the lemma that says what a trailer does to a packet of that disposition. -/
theorem packetTrailers : Obligations.PacketTrailers := by
  unfold Obligations.PacketTrailers
  refine ⟨?ignored, ?taken⟩
  case ignored =>
    intro lane rest s h
    rcases h with noPort | noRecord | ⟨r, rs, rx, ignored⟩
    · exact next_congr (trailerRx_of_noPort noPort)
    · exact next_congr (trailerRx_of_noRecord noRecord)
    · exact next_congr (trailerRx_of_ignored rx ignored)
  case taken =>
    intro lane rest s port r rs hp rx judged once lent b r' h n good t done learned fed void answers
    have goes : ¬TrailerIgnored s lane rest r := by
      rintro (unknown | ⟨ended, more⟩ | ⟨live, flue, still⟩)
      · exact judged unknown
      · exact once.elim (by simp [ended]) more
      · rcases lent with ended | other | drains
        · simp [live] at ended
        · exact other flue
        · simp [still] at drains
    have runs {u : State} (hu : takeTrailer lane port (held r false) (trailed r rest) s = u) : answers u :=
      next_congr ((trailerRx_of_taken hp rx goes).trans hu)
    have learns (u : State) : learnFrom port (trailed r rest) u = learned u := by
      change (if (r.hdr.isSome && good) = true then _ else _) = if _ then _ else _
      simp only [Bool.and_eq_true]
      rfl
    have passed (kept : r.disp ≠ .dropped) : r.disp = .forwarded ∨ r.disp = .terminated := by
      cases d : r.disp <;> simp_all
    refine ⟨fun dropped => runs ?_, fun kept len => runs ?_, fun fwd len bad => runs ?_, fun kept len ok => runs ?_⟩
    · exact (takeTrailer_of_dropped (r := trailed r rest) dropped).trans (congrArg (closeRx lane) (learns _))
    · exact takeTrailer_of_otherLength (r := trailed r rest) (passed kept) len
    · exact takeTrailer_of_badTransit (r := trailed r rest) (.inl fwd) len fwd bad
    · exact (takeTrailer_of_good (r := trailed r rest) kept len ok).trans (congrArg (closeRx lane) (learns _))

end Sys2Proof.Proofs
end

section
/-! SUPPORT. What leaves the power controller's registers as they are (R410 to R434): every operation that a half reset is made
of, but for the two that switch its domains and its readiness; and so what a half reset does to them. One part for each file of the model. -/

namespace Sys2Proof.Machine

/-- A fold of operations that leave the power controller alone leaves it alone. -/
@[simp] theorem foldl_power {α : Type} {f : State → α → State} (h : ∀ s a, (f s a).power = s.power) (l : List α) (s : State) :
    (l.foldl f s).power = s.power := by
  induction l generalizing s with
  | nil => rfl
  | cons a l ih => rw [List.foldl_cons, ih, h]

@[simp] theorem ite_power (c : Prop) [Decidable c] (s t : State) :
    (if c then s else t).power = if c then s.power else t.power := apply_ite ..
@[simp] theorem ite_snd_power {α : Type} (c : Prop) [Decidable c] (p q : α × State) :
    (if c then p else q).2.power = if c then p.2.power else q.2.power := apply_ite (fun p : α × State => p.2.power) ..

theorem foldl_snd_power {α β : Type} {f : β × State → α → β × State} (h : ∀ p a, (f p a).2.power = p.2.power) (l : List α)
    (p : β × State) : (l.foldl f p).2.power = p.2.power := by
  induction l generalizing p with
  | nil => rfl
  | cons a l ih => rw [List.foldl_cons, ih, h]

/-- The state beside a value, of a pair that an equation names. -/
theorem power_snd {α : Type} {s t : State} {p : α × State} {a : α} (e : p = (a, t)) (h : p.2.power = s.power) :
    t.power = s.power := by
  rw [e] at h
  exact h

/-! ### Ops -/

@[simp] theorem modBarn_power (b : Nat) (f : Barn → Barn) (s : State) : (modBarn b f s).power = s.power := rfl
@[simp] theorem modLaneOpt_power (l : Nat) (f : LaneOpt → LaneOpt) (s : State) : (modLaneOpt l f s).power = s.power :=
  rfl
@[simp] theorem modLaneLink_power (l : Nat) (f : LaneLink → LaneLink) (s : State) :
    (modLaneLink l f s).power = s.power := rfl
@[simp] theorem modPort_power (p : Nat) (f : Port → Port) (s : State) : (modPort p f s).power = s.power := rfl
@[simp] theorem tookFree_power (s : State) : (State.tookFree s).power = s.power := rfl
@[simp] theorem emit_power (o : Output) (s : State) : (emit o s).power = s.power := rfl
@[simp] theorem bumpBy_power (id n : Nat) (s : State) : (bumpBy id n s).power = s.power := rfl
@[simp] theorem bump_power (id : Nat) (s : State) : (bump id s).power = s.power := rfl
@[simp] theorem hostWrite_power (a : Nat) (bytes : List Byte) (s : State) : (hostWrite a bytes s).power = s.power := rfl
@[simp] theorem localWrite_power (a : Nat) (bytes : List Byte) (s : State) : (localWrite a bytes s).power = s.power :=
  rfl
@[simp] theorem sendMsix_power (vec : Nat) (s : State) : (sendMsix vec s).power = s.power := by simp [sendMsix]

@[simp] theorem raiseInt_power (b vec : Nat) (s : State) : (raiseInt b vec s).power = s.power := by simp [raiseInt]

@[simp] theorem post_power (type : Nat) (body : List Word) (slot : Option (List Byte)) (s : State) :
    (post type body slot s).power = s.power := by
  simp [post]

@[simp] theorem captureAt_power (source detail stamp : Nat) (s : State) :
    (captureAt source detail stamp s).power = s.power := by
  simp [captureAt]

@[simp] theorem capture_power (source detail : Nat) (s : State) : (capture source detail s).power = s.power := by
  simp [capture]

@[simp] theorem sendFault_power (r : FaultRep) (count : Nat) (s : State) : (sendFault r count s).power = s.power := by
  simp [sendFault]

@[simp] theorem report_power (r : FaultRep) (s : State) : (report r s).power = s.power := by
  unfold report
  split
  · simp
  · simp

@[simp] theorem noteStatus_power (old new : State) : (noteStatus old new).power = new.power := by simp [noteStatus]

@[simp] theorem setResetCause_power (level cause : Nat) (h0 h1 : Bool) (s : State) :
    (setResetCause level cause h0 h1 s).power = s.power := State.modHearth_power _ _

/-! ### Routing -/

@[simp] theorem chooseMember_power (barn b bytes : Nat) (s : State) :
    (chooseMember barn b bytes s).2.power = s.power := by
  unfold chooseMember
  dsimp only
  split
  · rfl
  · simp

@[simp] theorem modEp_power (half : Nat) (f : Tab EpEntry → Tab EpEntry) (s : State) :
    (modEp half f s).power = s.power := rfl
@[simp] theorem noteParity_power (half : Nat) (t : TableKind) (l : List Nat) (s : State) :
    (noteParity half t l s).power = s.power := by
  simp [noteParity]

@[simp] theorem bumpIn_power (barn index : Nat) (s : State) : (bumpIn barn index s).power = s.power := rfl
@[simp] theorem bumpEg_power (barn index : Nat) (s : State) : (bumpEg barn index s).power = s.power := rfl
@[simp] theorem treeCopies_power (barn : Nat) (h : Header) (s : State) : (treeCopies barn h s).2.power = s.power := by
  simp only [treeCopies, ite_snd_power, bumpIn_power, noteParity_power, bumpBy_power, ite_self]

@[simp] theorem lookup_power (barn : Nat) (h : Header) (s : State) : (lookup barn h s).2.power = s.power := by
  have parity (half : Nat) (bads : List (TableKind × Nat)) (s : State) :
      (bads.foldl (fun s e => noteParity half e.1 [e.2] s) s).power = s.power := foldl_power (fun _ _ => noteParity_power ..) _ _
  unfold lookup
  extract_lets half v go
  have found (t : State) : (go t).2.power = t.power := by
    simp only [go]
    split
    · exact treeCopies_power ..
    · split
      · rw [bumpIn_power, parity]
      · split
        · rw [bumpIn_power, noteParity_power, parity]
        · split
          next none => rw [bumpIn_power, power_snd none (chooseMember_power ..), parity]
          next some => rw [power_snd some (chooseMember_power ..), parity]
  split
  · exact found s
  · split
    · exact found s
    · rw [found, bumpIn_power]
    · exact bumpIn_power ..

@[simp] theorem setLearnQ_power (half : Nat) (q : List LearnUpd) (s : State) : (setLearnQ half q s).power = s.power :=
  rfl

/-! ### Flits -/

@[simp] theorem putRaw_power (l : Nat) (f : List Byte) (s : State) : (putRaw l f s).power = s.power := rfl
@[simp] theorem putMarker_power (l : Nat) (s : State) : (putMarker l s).power = s.power := by
  unfold putMarker
  split <;> simp

@[simp] theorem markerDue_power (l : Nat) (s : State) : (markerDue l s).power = s.power := by simp [markerDue]

@[simp] theorem modLastRetry_power (l : Nat) (f : RetryPkt → RetryPkt) (s : State) :
    (modLastRetry l f s).power = s.power := rfl
@[simp] theorem openEntry_power (l port : Nat) (info : Option PktInfo) (kind : RetryKind) (s : State) :
    (openEntry l port info kind s).power = s.power := rfl
@[simp] theorem putSeq_power (l ftype : Nat) (fw1 : Word) (payload : List Byte) (s : State) :
    (putSeq l ftype fw1 payload s).power = s.power := by
  simp [putSeq]

@[simp] theorem abortTx_power (l : Nat) (s : State) : (abortTx l s).power = s.power := by
  unfold abortTx
  split
  · rfl
  · simp

@[simp] theorem flushCtl_power (l : Nat) (s : State) : (flushCtl l s).power = s.power := by
  unfold flushCtl
  split
  · rfl
  · dsimp only
    split
    · rfl
    · rw [putSeq_power, openEntry_power, foldl_power fun _ _ => emit_power .., modLaneLink_power]

@[simp] theorem queueControl_power (l msg kind mtag arg : Nat) (s : State) :
    (queueControl l msg kind mtag arg s).power = s.power := by
  simp [queueControl]

@[simp] theorem sendControl_power (l msg kind mtag arg : Nat) (s : State) :
    (sendControl l msg kind mtag arg s).power = s.power := by
  simp [sendControl]

@[simp] theorem flushPort_power (p : Nat) (s : State) : (flushPort p s).power = s.power := by simp [flushPort]

@[simp] theorem reportFibre_power (l : Nat) (s : State) : (reportFibre l s).power = s.power :=
  foldl_power (fun _ _ => emit_power ..) _ _

/-! ### MemOps -/

@[simp] theorem daWrite_power (da : Nat) (bytes : List Byte) (s : State) : (daWrite da bytes s).power = s.power := rfl
@[simp] theorem daZero_power (da n : Nat) (s : State) : (daZero da n s).power = s.power := rfl
@[simp] theorem cacheRange_power (access da n : Nat) (write : Bool) (s : State) :
    (cacheRange access da n write s).power = s.power := by
  simp [cacheRange]

@[simp] theorem memUE_power (da partition : Nat) (ctx : Option Nat) (s : State) :
    (memUE da partition ctx s).power = s.power := by
  unfold memUE
  dsimp only
  split <;> simp

/-! ### Spill -/

@[simp] theorem storeDesc_power (b h : Nat) (s : State) : (storeDesc b h s).power = s.power := by
  rw [storeDesc, daWrite_power]

@[simp] theorem storeSpillCell_power (b h : Nat) (bytes : List Byte) (s : State) :
    (storeSpillCell b h bytes s).power = s.power := by
  simp [storeSpillCell]

@[simp] theorem storeSpill_power (b : Nat) (before : Option Nat) (s : State) :
    (storeSpill b before s).power = s.power := by
  unfold storeSpill
  split <;> simp

/-! ### Tracing -/

@[simp] theorem ringPut_power (t : RingTarget) (off : Nat) (bytes : List Byte) (s : State) :
    (ringPut t off bytes s).power = s.power := by
  unfold ringPut
  split <;> simp

@[simp] theorem putTrace_power (b : Nat) (words : List Word) (s : State) : (putTrace b words s).power = s.power := by
  simp [putTrace]

@[simp] theorem traceCell_power (i : PktInfo) (e : TraceEnd) (t : Tag) (s : State) :
    (traceCell i e t s).power = s.power := by
  simp [traceCell]

@[simp] theorem traceInfo_power (i : PktInfo) (e : TraceEnd) (s : State) : (traceInfo i e s).power = s.power := by
  simp [traceInfo]

@[simp] theorem traceStored_power (x : Stored) (e : TraceEnd) (s : State) : (traceStored x e s).power = s.power := by
  simp [traceStored]

/-! ### Forward -/

@[simp] theorem giveCredit_power (p c : Nat) (s : State) : (giveCredit p c s).power = s.power := by simp [giveCredit]

@[simp] theorem updateWithheld_power (b : Nat) (s : State) : (updateWithheld b s).power = s.power := by
  simp [updateWithheld]

@[simp] theorem returnCredit_power (port : Option Nat) (c n : Nat) (s : State) :
    (returnCredit port c n s).power = s.power := by
  unfold returnCredit
  split <;> simp

@[simp] theorem chargeCells_power (port : Option Nat) (c n : Nat) (s : State) :
    (chargeCells port c n s).power = s.power := by
  unfold chargeCells
  split <;> simp

@[simp] theorem drawTag_power (b : Nat) (h : Header) (i : Nat) (spilled : Bool) (s : State) :
    (drawTag b h i spilled s).2.power = s.power := by
  simp [drawTag]

@[simp] theorem modInPkt_power (b pid : Nat) (f : InPkt → InPkt) (s : State) : (modInPkt b pid f s).power = s.power :=
  rfl
@[simp] theorem writeCell_power (b pid refs : Nat) (s : State) : (writeCell b pid refs s).power = s.power := by
  unfold writeCell
  split
  · simp
  · split <;> simp

@[simp] theorem writeCells_power (b pid refs n : Nat) (s : State) : (writeCells b pid refs n s).power = s.power := by
  induction n generalizing s with
  | zero => rfl
  | succ n ih => rw [writeCells, ih, writeCell_power]

@[simp] theorem enterVoqs_power (b tc : Nat) (copies : List (Nat × QEntry)) (s : State) :
    (enterVoqs b tc copies s).power = s.power := by
  simp [enterVoqs]

@[simp] theorem admitPkt_power (b : Nat) (info : PktInfo) (copies : List (Nat × QEntry)) (ended : Bool) (s : State) :
    (admitPkt b info copies ended s).power = s.power := by
  simp [admitPkt]

@[simp] theorem newPid_power (s : State) : (newPid s).power = s.power := rfl
@[simp] theorem originateTo_power (b : Nat) (h : Header) (payload : List Byte) (result : Option ResultRef)
    (copies : Nat → List (Nat × QEntry)) (s : State) :
    (originateTo b h payload result copies s).power = s.power := by
  unfold originateTo
  dsimp only
  split <;> simp

@[simp] theorem originate_power (b : Nat) (h : Header) (payload : List Byte) (result : Option ResultRef) (s : State) :
    (originate b h payload result s).power = s.power := by
  unfold originate
  dsimp only
  split
  next dropped => exact power_snd dropped (lookup_power ..)
  next toOne => rw [originateTo_power, power_snd toOne (lookup_power ..)]
  next toMany => rw [originateTo_power, power_snd toMany (lookup_power ..)]

@[simp] theorem releaseCell_power (b : Nat) (p : InPkt) (i : Nat) (s : State) :
    (releaseCell b p i s).power = s.power := by
  unfold releaseCell
  dsimp only
  split
  · rfl
  · simp

@[simp] theorem updateHolds_power (b : Nat) (s : State) : (updateHolds b s).power = s.power := by simp [updateHolds]

@[simp] theorem modStored_power (b pid : Nat) (f : Stored → Stored) (s : State) :
    (modStored b pid f s).power = s.power := rfl
@[simp] theorem freeStored_power (b pid : Nat) (s : State) : (freeStored b pid s).power = s.power := by
  unfold freeStored
  split <;> simp

@[simp] theorem killStored_power (b pid : Nat) (s : State) : (killStored b pid s).power = s.power := by
  unfold killStored
  split
  · simp
  · split <;> simp

@[simp] theorem dropRef_power (b pid port : Nat) (s : State) : (dropRef b pid port s).power = s.power := by
  unfold dropRef
  dsimp only
  split
  · rfl
  · simp

@[simp] theorem unassign_power (pid : Nat) (s : State) : (unassign pid s).power = s.power := rfl
@[simp] theorem purgeBarn_power (pid b : Nat) (s : State) : (purgeBarn pid b s).power = s.power := by
  unfold purgeBarn
  dsimp only
  split <;> simp

@[simp] theorem traceDiscard_power (pid : Nat) (s : State) : (traceDiscard pid s).power = s.power := by
  unfold traceDiscard
  dsimp only
  rw [foldl_power fun s e => ?ended, foldl_power fun s e => ?stored]
  case stored => split <;> simp
  case ended => split <;> simp

@[simp] theorem discardPkt_power (pid : Nat) (s : State) : (discardPkt pid s).power = s.power := by simp [discardPkt]

/-! ### Mailbox -/

@[simp] theorem modRing_power (r : Nat) (f : Ring → Ring) (s : State) : (modRing r f s).power = s.power := rfl
@[simp] theorem writeCompletion_power (c : CmdRef) (r : Reply) (s : State) : (writeCompletion c r s).power = s.power := by
  simp [writeCompletion]

@[simp] theorem endDetached_power (c : CmdRef) (r : Reply) (s : State) : (endDetached c r s).power = s.power := by
  unfold endDetached
  split
  · split <;> simp
  · simp

@[simp] theorem endWith_power (c : CmdRef) (status detail : Nat) (s : State) :
    (endWith c status detail s).power = s.power := by
  simp [endWith]

/-! ### Counters -/

@[simp] theorem tallyFlag_power (i : Nat) (s : State) : (tallyFlag i s).power = s.power := rfl
@[simp] theorem clearCounters_power (test : Nat → Nat → Bool) (s : State) : (clearCounters test s).power = s.power :=
  rfl

/-! ### CtxBase -/

@[simp] theorem modCtx_power (c : Nat) (f : Ctx → Ctx) (s : State) : (modCtx c f s).power = s.power := rfl
@[simp] theorem areaWrite_power (a : PoolArea) (k : Nat) (bytes : List Byte) (s : State) :
    (areaWrite a k bytes s).power = s.power := foldl_power (fun _ _ => daWrite_power ..) _ _
@[simp] theorem storeRet_power (c g : Nat) (s : State) : (storeRet c g s).power = s.power := by
  unfold storeRet
  dsimp only
  split <;> simp

/-! ### SwitchCore -/

@[simp] theorem dropQueued_power (p : Nat) (s : State) : (dropQueued p s).power = s.power := by
  unfold dropQueued
  refine foldl_power (fun s c => foldl_power (fun s pid => ?_) _ _) _ _
  split
  · simp
  · rfl

/-! ### Collectives -/

@[simp] theorem modUnit_power (u : Nat) (f : Unit → Unit) (s : State) : (modUnit u f s).power = s.power := rfl
@[simp] theorem bumpUnit_power (u i : Nat) (s : State) : (bumpUnit u i s).power = s.power := rfl
@[simp] theorem modOpen_power (c g : Nat) (f : OpenIdx → OpenIdx) (s : State) : (modOpen c g f s).power = s.power := rfl
@[simp] theorem bumpColl_power (i : Nat) (s : State) (x : Ctx) (n : Nat) : (bumpColl i s x n).power = s.power := rfl
@[simp] theorem send_power (b : Nat) (h : Header) (payload : List Byte) (result : Option ResultRef) (s : State) :
    (send b h payload result s).power = s.power := by
  simp [send]

@[simp] theorem sendNotice_power (c : Nat) (x : Ctx) (code reason sheaf : Nat) (detail : Word) (epoch : Nat)
    (payload : List Byte) (s : State) :
    (sendNotice c x code reason sheaf detail epoch payload s).power = s.power := by
  unfold sendNotice
  dsimp only
  split
  · rw [post_power, foldl_power fun _ _ => send_power ..]
  · exact foldl_power (fun _ _ => send_power ..) _ _

@[simp] theorem completeIndex_power (c g : Nat) (s : State) : (completeIndex c g s).power = s.power := by
  simp [completeIndex]

@[simp] theorem mapQueued_power (f : PktInfo → PktInfo) (s : State) : (mapQueued f s).power = s.power := rfl
@[simp] theorem voidResults_power (c : Nat) (x : Ctx) (s : State) : (voidResults c x s).power = s.power := rfl
@[simp] theorem abortCore_power (c reason : Nat) (o : Offence) (s : State) :
    (abortCore c reason o s).power = s.power := by
  unfold abortCore
  dsimp only
  split
  · split <;> simp
  · rfl

@[simp] theorem abortPlain_power (c reason : Nat) (s : State) : (abortPlain c reason s).power = s.power := by
  simp [abortPlain]

@[simp] theorem recallNamed_power (c reason n e log count : Nat) (gs : List Nat) (s : State) :
    (recallNamed c reason n e log count gs s).power = s.power := by
  simp [recallNamed]

@[simp] theorem recallRun_power (c reason : Nat) (u : Run) (s : State) : (recallRun c reason u s).power = s.power := by
  simp [recallRun]

@[simp] theorem recallUnit_power (c u : Nat) (s : State) : (recallUnit c u s).power = s.power := by simp [recallUnit]

@[simp] theorem fenceUnit_power (u cause : Nat) (s : State) : (fenceUnit u cause s).power = s.power := by
  unfold fenceUnit
  split
  · rfl
  · dsimp only
    rw [foldl_power fun _ _ => recallUnit_power ..]
    split
    · rw [foldl_power fun _ _ => abortPlain_power .., report_power, capture_power, modUnit_power]
    · rw [foldl_power fun _ _ => abortPlain_power .., foldl_power fun _ _ => abortPlain_power .., report_power, capture_power,
        modUnit_power]

@[simp] theorem settleFences_power (n : Nat) (s : State) : (settleFences n s).power = s.power := by
  induction n generalizing s with
  | zero => rfl
  | succ n ih =>
    rw [settleFences]
    split
    · rw [ih, fenceUnit_power]
    · rfl

@[simp] theorem abortCtx_power (c reason : Nat) (o : Offence) (s : State) : (abortCtx c reason o s).power = s.power := by
  rw [abortCtx, settleFences_power, abortCore_power]

@[simp] theorem modRet_power (c g : Nat) (f : Retained → Retained) (s : State) : (modRet c g f s).power = s.power := by
  simp [modRet]

@[simp] theorem resultLeaves_power (r : ResultRef) (s : State) : (resultLeaves r s).power = s.power := by
  unfold resultLeaves
  dsimp only
  split
  · simp
  · rfl

/-- The headers may be those of any members. -/
theorem foldl_send_power {α : Type} (b : Nat) (h : State → α → Header) (payload : List Byte) (result : Option ResultRef)
    (l : List α) (s : State) : (l.foldl (fun s a => send b (h s a) payload result s) s).power = s.power :=
  foldl_power (fun _ _ => send_power ..) l s

@[simp] theorem sendResult_power (c g : Nat) (payload : List Byte) (tally : Word) (s : State) :
    (sendResult c g payload tally s).power = s.power := by
  unfold sendResult
  extract_lets x k ref b before opened sent
  have open_ : opened.power = s.power := modOpen_power ..
  have left : sent.power = s.power := by
    simp only [sent]
    split
    · rw [foldl_send_power b (fun s m => resultHeader s c x (some m) k payload.length tally), open_]
    · rw [send_power, open_]
  split
  · rw [resultLeaves_power, left]
  · exact left

@[simp] theorem accumulate_power (u : Nat) (x : Ctx) (o : OpenIdx) (g : Nat) (s : State) :
    (accumulate u x o g s).power = s.power := by
  simp [accumulate]

@[simp] theorem sendPartial_power (c g : Nat) (payload : List Byte) (s : State) :
    (sendPartial c g payload s).power = s.power := by
  simp [sendPartial]

@[simp] theorem proceed_power (c g : Nat) (s : State) : (proceed c g s).power = s.power := by
  unfold proceed
  dsimp only
  split
  · rfl
  · split
    · rfl
    · simp only [ite_power, modOpen_power, bumpColl_power, sendResult_power, sendPartial_power, accumulate_power, storeRet_power,
        modCtx_power, ite_self]

/-! ### Sched -/

@[simp] theorem capturePort_power (kind port : Nat) (s : State) : (capturePort kind port s).power = s.power := by
  simp [capturePort]

@[simp] theorem latBegin_power (port cause : Nat) (s : State) : (latBegin port cause s).power = s.power := by
  simp [latBegin]

@[simp] theorem latEnd_power (port cause : Nat) (s : State) : (latEnd port cause s).power = s.power := by simp [latEnd]

@[simp] theorem settleSeeds_power (s : State) : (settleSeeds s).power = s.power := by simp [settleSeeds]

/-! ### Ingress -/

@[simp] theorem dropRx_power (lane : Nat) (s : State) : (dropRx lane s).power = s.power := by simp [dropRx]

@[simp] theorem dropAllRx_power (lane : Nat) (s : State) : (dropAllRx lane s).power = s.power := by simp [dropAllRx]

/-! ### Threshing -/

@[simp] theorem releaseHeld_power (s : State) : (releaseHeld s).power = s.power := by simp [releaseHeld]

@[simp] theorem endHarvest_power (h : Harvest) (status detail : Nat) (s : State) :
    (endHarvest h status detail s).power = s.power := by
  unfold endHarvest
  dsimp only
  split <;> simp

@[simp] theorem endNorm_power (m : Norm) (r : Reply) (s : State) : (endNorm m r s).power = s.power := by simp [endNorm]

/-! ### MemCmds -/

@[simp] theorem endMove_power (m : Move) (status detail : Nat) (s : State) :
    (endMove m status detail s).power = s.power := by
  simp [endMove]

@[simp] theorem partMove_power (m : Move) (bad : Option Nat) (s : State) : (partMove m bad s).power = s.power := by
  simp [partMove]

@[simp] theorem failMove_power (m : Move) (a : Nat) (s : State) : (failMove m a s).power = s.power := by simp [failMove]

@[simp] theorem modSilo_power (c : Nat) (f : Silo → Silo) (s : State) : (modSilo c f s).power = s.power := rfl
/-- The addresses of the bad bytes may be any. -/
theorem foldl_failMove_power (g : Move → Nat) (ms : List Move) (s : State) :
    (ms.foldl (fun s m => failMove m (g m) s) s).power = s.power := foldl_power (fun _ _ => failMove_power ..) ms s

@[simp] theorem siloDown_power (c : Nat) (s : State) : (siloDown c s).power = s.power := by
  rw [siloDown, foldl_failMove_power (siloSide c), modSilo_power]

@[simp] theorem siloFail_power (c : Nat) (s : State) : (siloFail c s).power = s.power := by simp [siloFail]

/-! ### LaneBase -/

@[simp] theorem setLane_power (l : Nat) (x : LaneState) (s : State) : (setLane l x s).power = s.power := by
  simp [setLane]

@[simp] theorem bumpLink_power (l i : Nat) (s : State) : (bumpLink l i s).power = s.power := rfl
@[simp] theorem askWithdraw_power (l : Nat) (kind : WdKind) (s : State) : (askWithdraw l kind s).power = s.power := by
  simp [askWithdraw]

@[simp] theorem dropSlice_power (l outcome : Nat) (s : State) : (dropSlice l outcome s).power = s.power := by
  unfold dropSlice
  split <;> simp

@[simp] theorem endCmd_power (c : Option CmdRef) (s : State) : (endCmd c s).power = s.power := by
  unfold endCmd
  split <;> simp

@[simp] theorem endCmds_power (cs : List CmdRef) (status detail : Nat) (s : State) :
    (endCmds cs status detail s).power = s.power := by
  simp [endCmds]

@[simp] theorem endLaneCmds_power (l : Nat) (s : State) : (endLaneCmds l s).power = s.power := by simp [endLaneCmds]

@[simp] theorem modLaser_power (i : Nat) (f : Laser → Laser) (s : State) : (modLaser i f s).power = s.power := rfl
@[simp] theorem setLaser_power (i st : Nat) (s : State) : (setLaser i st s).power = s.power := by simp [setLaser]

@[simp] theorem calSet_power (kind index : Nat) (v : Int) (s : State) : (calSet kind index v s).power = s.power := rfl

/-! ### Circuits -/

@[simp] theorem modCirc_power (c : Nat) (f : Circuit → Circuit) (s : State) : (modCirc c f s).power = s.power := rfl
@[simp] theorem circTo_power (c st : Nat) (s : State) : (circTo c st s).power = s.power := by simp [circTo]

@[simp] theorem bumpFlue_power (i : Nat) (s : State) : (bumpFlue i s).power = s.power := rfl
@[simp] theorem giveBack_power (l : Nat) (taken : Bool) (s : State) : (giveBack l taken s).power = s.power := by
  simp [giveBack]

@[simp] theorem freeCirc_power (c : Nat) (s : State) : (freeCirc c s).power = s.power := by simp [freeCirc]

@[simp] theorem tenths_power (m : Int) (s : State) : (tenths m s).2.power = s.power := by simp [tenths]

@[simp] theorem recordMeas_power (c : Nat) (ils : List Nat) (ms : List Int) (s : State) :
    (recordMeas c ils ms s).power = s.power := by
  cases ms with
  | nil => rfl
  | cons m rest => simp [recordMeas]

@[simp] theorem tuningFails_power (c : Nat) (m : FlueMeas) (s : State) : (tuningFails c m s).2.power = s.power := by
  simp [tuningFails]

@[simp] theorem switchOver_power (c : Nat) (s : State) : (switchOver c s).power = s.power := by simp [switchOver]

@[simp] theorem setupRefused_power (c : Nat) (r : Reply) (s : State) : (setupRefused c r s).power = s.power := by
  unfold setupRefused
  split <;> simp

@[simp] theorem finishSetup_power (c : Nat) (s : State) : (finishSetup c s).power = s.power := by
  unfold finishSetup
  dsimp only
  split
  · split
    · split
      next fails => rw [setupRefused_power, power_snd fails (tuningFails_power ..)]
      next passes => simp [power_snd passes (tuningFails_power ..)]
    · rfl
  · rfl

@[simp] theorem drained_power (l : Nat) (s : State) : (drained l s).power = s.power := by
  unfold drained
  dsimp only
  split <;> simp

/-! ### Lanes -/

@[simp] theorem movePath_power (old spare : Nat) (s : State) : (movePath old spare s).power = s.power := by
  rw [movePath, foldl_power fun _ _ => modLaneOpt_power ..]
  simp

@[simp] theorem checkSlice_power (x : Slice) (s : State) : (checkSlice x s).power = s.power := by simp [checkSlice]

@[simp] theorem wakeSlices_power (s : State) : (wakeSlices s).power = s.power := by simp [wakeSlices]

@[simp] theorem endSlice_power (l outcome : Nat) (s : State) : (endSlice l outcome s).power = s.power := by
  simp [endSlice]

@[simp] theorem skipSlice_power (l : Nat) (s : State) : (skipSlice l s).power = s.power := by simp [skipSlice]

@[simp] theorem relight_power (l : Nat) (s : State) : (relight l s).power = s.power := by simp [relight]

@[simp] theorem startPath_power (w : Swap) (s : State) : (startPath w s).power = s.power := by simp [startPath]

@[simp] theorem settleSwaps_power (s : State) : (settleSwaps s).power = s.power := by simp [settleSwaps]

@[simp] theorem leaveSwap_power (l : Nat) (s : State) : (leaveSwap l s).power = s.power := by simp [leaveSwap]

@[simp] theorem laneDown_power (l : Nat) (s : State) : (laneDown l s).power = s.power := by simp [laneDown]

@[simp] theorem unlinked_power (p : Nat) (s : State) : (unlinked p s).power = s.power := by simp [unlinked]

@[simp] theorem linkDown_power (p : Nat) (s : State) : (linkDown p s).power = s.power := by simp [linkDown]

@[simp] theorem untx_power (l : Nat) (s : State) : (untx l s).power = s.power := by
  unfold untx
  split
  · rfl
  · dsimp only
    split <;> rfl

@[simp] theorem requeueCtl_power (l : Nat) (rs : List RetryPkt) (s : State) : (requeueCtl l rs s).power = s.power :=
  foldl_power (fun _ _ => modLaneLink_power ..) _ _
@[simp] theorem askRehome_power (l : Nat) (s : State) : (askRehome l s).power = s.power := by simp [askRehome]

@[simp] theorem noteEmpty_power (p : Nat) (began : Bool) (s : State) : (noteEmpty p began s).power = s.power := by
  simp [noteEmpty]

@[simp] theorem leaveAbrupt_power (l : Nat) (served : Bool) (s : State) : (leaveAbrupt l served s).power = s.power := by
  unfold leaveAbrupt
  split
  · simp
  · split <;> simp

/-! ### Flue -/

@[simp] theorem dropDrain_power (l : Nat) (s : State) : (dropDrain l s).power = s.power := by simp [dropDrain]

@[simp] theorem cutSetup_power (c : Nat) (r : Reply) (s : State) : (cutSetup c r s).power = s.power := by
  simp [cutSetup]

/-! ### TimeCmds -/

@[simp] theorem freeBytes_power (n : Nat) (s : State) : (freeBytes n s).2.power = s.power :=
  foldl_snd_power (f := fun r _ => (r.1 ++ [BitVec.ofNat 8 (freeBelow r.2 256)], r.2.tookFree)) (fun _ _ => rfl) _ _

/-! ### Resets -/

@[simp] theorem laneReset1_power (l : Nat) (s : State) : (laneReset1 l s).power = s.power := by
  unfold laneReset1
  split
  · simp
  · split <;> simp

@[simp] theorem lanesReset_power (hit : Nat → Bool) (s : State) : (lanesReset hit s).power = s.power := by
  simp [lanesReset]

@[simp] theorem dropPartial_power (hit : Nat → Bool) (pid : Nat) (s : State) :
    (dropPartial hit pid s).power = s.power := by
  unfold dropPartial
  refine foldl_power (fun s b => ?_) _ _
  split
  · split <;> simp
  · rfl

@[simp] theorem dropCopy_power (b dst tc : Nat) (e : QEntry) (s : State) : (dropCopy b dst tc e s).power = s.power := by
  unfold dropCopy
  dsimp only
  split
  · rfl
  · simp

@[simp] theorem dropToward_power (hit : Nat → Bool) (s : State) : (dropToward hit s).power = s.power := by
  unfold dropToward
  exact foldl_power (fun _ _ => foldl_power (fun _ _ => foldl_power (fun _ _ => dropCopy_power ..) _ _) _ _) _ _

@[simp] theorem clearBarn_power (held : Bool) (b : Nat) (s : State) : (clearBarn held b s).power = s.power := rfl
@[simp] theorem untag_power (hit : Nat → Bool) (s : State) : (untag hit s).power = s.power := rfl
@[simp] theorem barnsReset_power (hit : Nat → Bool) (held : Bool) (s : State) :
    (barnsReset hit held s).power = s.power := by
  unfold barnsReset
  rw [settleSeeds_power, State.modCore_power, foldl_power fun _ _ => clearBarn_power .., dropToward_power,
    foldl_power fun _ _ => dropPartial_power .., lanesReset_power, untag_power]

@[simp] theorem contextsReset_power (h reason : Nat) (s : State) : (contextsReset h reason s).power = s.power := by
  unfold contextsReset
  rw [settleFences_power, foldl_power fun _ _ => modCtx_power .., foldl_power fun _ _ => abortPlain_power ..]

@[simp] theorem disturbChunk_power (d : List Word) (k j : Nat) (s : State) : (disturbChunk d k j s).power = s.power := by
  simp [disturbChunk]

@[simp] theorem harvestLost_power (hv : Harvest) (s : State) : (harvestLost hv s).power = s.power := by
  simp [harvestLost]

@[simp] theorem threshReset_power (h : Nat) (s : State) : (threshReset h s).power = s.power := by simp [threshReset]

@[simp] theorem kilnOff_power (h : Nat) (s : State) : (kilnOff h s).power = s.power := by simp [kilnOff]

@[simp] theorem tablesReset_power (h : Nat) (s : State) : (tablesReset h s).power = s.power := rfl
@[simp] theorem setupsReset_power (h : Nat) (s : State) : (setupsReset h s).power = s.power := by
  unfold setupsReset
  refine foldl_power (fun s e => ?_) _ _
  split <;> simp

/-! ### What a half reset does to them (R28, R333) -/

theorem setHalfPower_power (h : Nat) (x : Byte) (s : State) :
    (setHalfPower h x s).power = if h = 0 then { s.power with on0 := x } else { s.power with on1 := x } := rfl

theorem setReady_power (h : Nat) (x : Bool) (s : State) : (setReady h x s).power =
    if h = 0 then { s.power with ready0 := x, readyAt0 := if x then s.time.hearthPs else s.power.readyAt0 }
    else { s.power with ready1 := x, readyAt1 := if x then s.time.hearthPs else s.power.readyAt1 } := rfl

/-- A half reset takes the half out of service and leaves GRAN, TIME and FLUE of its domains on. -/
theorem halfReset_power (h cause : Nat) (s : State) : (halfReset h cause s).power =
    if h = 0 then { s.power with ready0 := false, on0 := 0xC4 } else { s.power with ready1 := false, on1 := 0xC4 } := by
  unfold halfReset
  extract_lets old hit barns contexts tables arbiters silos
  have off : barns.power = (setHalfPower h 0xC4 (setReady h false (setupsReset h s))).power := by
    simp only [barns, barnsReset_power, kilnOff_power]
  have kept : silos.power = barns.power := by
    simp only [silos, arbiters, tables, contexts, siloFail_power, tallyFlag_power, clearCounters_power, State.modMem_power,
      tablesReset_power, threshReset_power, contextsReset_power]
  rw [noteStatus_power, setResetCause_power, kept, off, setHalfPower_power, setReady_power, setupsReset_power]
  split <;> rfl

end Sys2Proof.Machine
end

section
/-! SUPPORT. What telling the host leaves as it was: completions, events, fault reports, captures, interrupts and changes of status
touch the Hearth, the logs, the capture store, counters, outputs and free values alone. With it, what a device reset leaves. -/

namespace Sys2Proof.Machine

/-- The second state is the first but for what telling the host about something changes. -/
def Tells (s t : State) : Prop :=
  t = { s with hearth := t.hearth, sec := t.sec, time := { s.time with store := t.time.store, lostSrc := t.time.lostSrc },
               count := t.count, out := t.out, free := t.free }

namespace Tells

theorem refl (s : State) : Tells s s := rfl

theorem trans {s t u : State} (h : Tells s t) (k : Tells t u) : Tells s u := by
  unfold Tells at h k ⊢
  exact k.trans (by rw [h])

theorem foldl {α : Type} {s0 : State} {f : State → α → State} (step : ∀ s a, Tells s (f s a)) (l : List α) {s : State}
    (h : Tells s0 s) : Tells s0 (l.foldl f s) := by
  induction l generalizing s with
  | nil => exact h
  | cons a l ih => exact ih (h.trans (step s a))

theorem ite {s t u : State} {c : Prop} [Decidable c] (h : Tells s t) (k : Tells s u) : Tells s (if c then t else u) := by
  split
  · exact h
  · exact k

/-! ### What stays as it was -/

section
variable {s t : State} (h : Tells s t)
include h

theorem routing : t.routing = s.routing := by rw [h]
theorem core : t.core = s.core := by rw [h]
theorem coll : t.coll = s.coll := by rw [h]
theorem sched : t.sched = s.sched := by rw [h]
theorem thresh : t.thresh = s.thresh := by rw [h]
theorem mem : t.mem = s.mem := by rw [h]
theorem optics : t.optics = s.optics := by rw [h]
theorem link : t.link = s.link := by rw [h]
theorem flue : t.flue = s.flue := by rw [h]
theorem kindle : t.kindle = s.kindle := by rw [h]
theorem jobs : t.jobs = s.jobs := by rw [h]
theorem power : t.power = s.power := by rw [h]
theorem refOk0 : t.time.refOk0 = s.time.refOk0 := by rw [h]
theorem refOk1 : t.time.refOk1 = s.time.refOk1 := by rw [h]
theorem refSwitched : t.time.refSwitched = s.time.refSwitched := by rw [h]
theorem timeState : t.time.state = s.time.state := by rw [h]

end

end Tells

/-! ### The operations that tell -/

theorem modHearth_tells (f : Hearth → Hearth) (s : State) : Tells s (s.modHearth f) := rfl
theorem modSec_tells (f : Sec → Sec) (s : State) : Tells s (s.modSec f) := rfl
theorem tookFree_tells (s : State) : Tells s s.tookFree := rfl
theorem emit_tells (o : Output) (s : State) : Tells s (emit o s) := rfl
theorem bump_tells (id : Nat) (s : State) : Tells s (bump id s) := rfl
theorem setResetCause_tells (level cause : Nat) (h0 h1 : Bool) (s : State) : Tells s (setResetCause level cause h0 h1 s) :=
  modHearth_tells _ s

theorem sendMsix_tells (vec : Nat) (s : State) : Tells s (sendMsix vec s) := .ite (modHearth_tells _ s) (emit_tells _ s)

theorem raiseInt_tells (b vec : Nat) (s : State) : Tells s (raiseInt b vec s) :=
  .ite (.refl s) (.ite (modHearth_tells _ s) ((modHearth_tells _ s).trans (sendMsix_tells vec _)))

theorem noteStatus_tells (old new : State) : Tells new (noteStatus old new) := .ite (.refl new) (raiseInt_tells 5 0 new)

theorem writeCompletion_tells (c : CmdRef) (r : Reply) (s : State) : Tells s (writeCompletion c r s) := by
  have expired (s : State) : Tells s (if r.status = St.expired then bump (ctr 0x14 0 4) s else s) := .ite (bump_tells _ s) (.refl s)
  unfold writeCompletion
  extract_lets ring entry addr written counted noted
  have hWritten : Tells s written := .ite (modHearth_tells _ s) (modHearth_tells _ s)
  have hCounted : Tells s counted := hWritten.trans (expired written)
  have hNoted : Tells s noted := hCounted.trans (.ite (modHearth_tells _ _) (.refl _))
  exact .ite (hNoted.trans ((modHearth_tells _ _).trans (raiseInt_tells ..))) (expired s)

theorem endDetached_tells (c : CmdRef) (r : Reply) (s : State) : Tells s (endDetached c r s) := by
  unfold endDetached
  split
  · exact .ite (modHearth_tells _ s) ((modHearth_tells _ s).trans (writeCompletion_tells c r _))
  · exact .refl s

theorem endWith_tells (c : CmdRef) (status detail : Nat) (s : State) : Tells s (endWith c status detail s) :=
  endDetached_tells c _ s

theorem endPending_tells (s : State) : Tells s (endPending s) := by
  unfold endPending
  split
  · exact (modHearth_tells _ s).trans (writeCompletion_tells _ _ _)
  · exact .refl s

theorem post_tells (type : Nat) (body : List Word) (slot : Option (List Byte)) (s : State) : Tells s (post type body slot s) :=
  .ite (modHearth_tells _ s) ((modHearth_tells _ s).trans (bump_tells _ _))

theorem hearthStart_tells (cause : Nat) (s : State) : Tells s (hearthStart cause s) := post_tells _ _ _ s

theorem captureAt_tells (source detail stamp : Nat) (s : State) : Tells s (captureAt source detail stamp s) :=
  .ite (.ite rfl rfl) (.refl s)

theorem capture_tells (source detail : Nat) (s : State) : Tells s (capture source detail s) :=
  (tookFree_tells s).trans (captureAt_tells _ _ _ _)

theorem sendFault_tells (r : FaultRep) (count : Nat) (s : State) : Tells s (sendFault r count s) :=
  (modSec_tells _ s).trans ((post_tells _ _ _ _).trans (capture_tells _ _ _))

theorem report_tells (r : FaultRep) (s : State) : Tells s (report r s) := by
  unfold report
  split
  · exact .ite (modSec_tells _ s) ((Tells.ite (.refl s) (sendFault_tells _ _ s)).trans ((modSec_tells _ _).trans (sendFault_tells _ _ _)))
  · exact (modSec_tells _ s).trans (sendFault_tells _ _ _)

theorem circuitsDark_tells (s : State) : Tells s (circuitsDark s) := .foldl (fun s _ => emit_tells _ s) _ (.refl s)

/-! ### RESET_CAUSE (R344) -/

@[simp] theorem raiseInt_resetCause (b vec : Nat) (s : State) : (raiseInt b vec s).hearth.resetCause = s.hearth.resetCause := by
  unfold raiseInt sendMsix
  split
  · rfl
  · dsimp only
    split
    · rfl
    · split <;> rfl

@[simp] theorem noteStatus_resetCause (old new : State) : (noteStatus old new).hearth.resetCause = new.hearth.resetCause := by
  unfold noteStatus
  split
  · rfl
  · exact raiseInt_resetCause ..

@[simp] theorem hearthStart_resetCause (cause : Nat) (s : State) : (hearthStart cause s).hearth.resetCause = s.hearth.resetCause := by
  unfold hearthStart post
  split <;> rfl

theorem bit_le (b : Bool) : bit b ≤ 1 := by
  cases b <;> decide

theorem fld_resetCause (level : Nat) {cause : Nat} (hc : cause < 16) (h0 h1 : Bool) (s : State) :
    fld (setResetCause level cause h0 h1 s).hearth.resetCause 27 24 = cause := by
  have b0 := bit_le h0
  have b1 := bit_le h1
  have at_ : (if s.time.state = 0 then 0 else secOf s.time.now % 65536) < 65536 := by
    split
    · decide
    · exact Nat.mod_lt _ (by decide)
  simp only [setResetCause, State.modHearth_hearth, fld, pack, packN, BitVec.toNat_ofNat]
  omega

/-! ### The device reset (R155, R219, R333) -/

/-- What a device reset ends before it clears the half domains. -/
def resetWork (s : State) : State := endAllWork (endPending (circuitsDark s))

theorem deviceReset_eq (level cause : Nat) (s : State) : deviceReset level cause s =
    noteStatus s (hearthStart 0 (domainsReset (setResetCause level cause false false (resetWork s)))) := rfl

@[simp] theorem domainsReset_mem (s : State) : (domainsReset s).mem = s.mem.afterReset := rfl
@[simp] theorem domainsReset_resetCause (s : State) : (domainsReset s).hearth.resetCause = s.hearth.resetCause := rfl

theorem deviceReset_tells (level cause : Nat) (s : State) :
    Tells (domainsReset (setResetCause level cause false false (resetWork s))) (deviceReset level cause s) := by
  rw [deviceReset_eq]
  exact (hearthStart_tells 0 _).trans (noteStatus_tells s _)

theorem deviceReset_resetCause (level : Nat) {cause : Nat} (hc : cause < 16) (s : State) :
    fld (deviceReset level cause s).hearth.resetCause 27 24 = cause := by
  rw [deviceReset_eq, noteStatus_resetCause, hearthStart_resetCause, domainsReset_resetCause, fld_resetCause level hc]

theorem endNorm_mem (m : Norm) (r : Reply) (s : State) : (endNorm m r s).mem = s.mem := (endDetached_tells _ r _).mem

/-- With no harvest running, ending the work of the half domains leaves their memory as it is. -/
theorem resetWork_mem {s : State} (idle : s.thresh.harvests = []) : (resetWork s).mem = s.mem := by
  have told : Tells s (endPending (circuitsDark s)) := (circuitsDark_tells s).trans (endPending_tells _)
  have noHarvest : (endPending (circuitsDark s)).thresh.harvests = [] := by rw [told.thresh, idle]
  have norms (l : List Norm) (r : Reply) (t : State) : (l.foldl (fun s m => endNorm m r s) t).mem = t.mem := by
    induction l generalizing t with
    | nil => rfl
    | cons m l ih => rw [List.foldl_cons, ih, endNorm_mem]
  unfold resetWork endAllWork
  dsimp only
  rw [noHarvest, List.foldl_nil, (Tells.foldl (fun s _ => endWith_tells _ _ _ s) _ (.refl _)).mem, norms, told.mem]

theorem deviceReset_mem {s : State} (level cause : Nat) (idle : s.thresh.harvests = []) :
    (deviceReset level cause s).mem = s.mem.afterReset := by
  rw [(deviceReset_tells level cause s).mem, domainsReset_mem, (setResetCause_tells ..).mem, resetWork_mem idle]

end Sys2Proof.Machine
end

section
/-! SUPPORT. Converter faults (R415), references (R298, R418), temperature (R430) and the channels of the bridge (R20): each row in
the states that the statement describes. -/

namespace Sys2Proof.Machine

/-! ### Converters (R415) -/

section
variable {s : State}

theorem converterFault_one_of_unpowered {h : Nat} (off : halfPowered s h = false) : converterFault h false s = s := by
  simp [converterFault, off]

theorem converterFault_one_of_powered {h : Nat} (on : halfPowered s h = true) :
    converterFault h false s = noteStatus s (setHalfPower h 0 (halfReset h 7 (convReport h s))) := by
  simp [converterFault, on]

theorem converterFault_both_of_unpowered (h : Nat) (off : halfPowered s 0 = false ∨ halfPowered s 1 = false) :
    converterFault h true s = s := by
  rcases off with off | off <;> simp [converterFault, off]

theorem converterFault_both_of_powered (h : Nat) (on0 : halfPowered s 0 = true) (on1 : halfPowered s 1 = true) :
    converterFault h true s = resetAndOff 7 (convReport 1 (convReport 0 s)) := by
  simp [converterFault, on0, on1]

end

/-- The faults of the last 10 min, with the one at hand. -/
def recentFaults (now : Nat) (l : List Nat) : List Nat := (l.filter fun t => decide (now < t + 600000000000000)) ++ [now]

theorem countConv_power (h : Nat) (s : State) : (countConv h s).power =
    if h = 0 then
      { s.power with conv0 := sat 65535 (s.power.conv0 + 1), convAt0 := recentFaults s.time.hearthPs s.power.convAt0,
                     stayOff0 := s.power.stayOff0 || decide (3 ≤ (recentFaults s.time.hearthPs s.power.convAt0).length) }
    else
      { s.power with conv1 := sat 65535 (s.power.conv1 + 1), convAt1 := recentFaults s.time.hearthPs s.power.convAt1,
                     stayOff1 := s.power.stayOff1 || decide (3 ≤ (recentFaults s.time.hearthPs s.power.convAt1).length) } := rfl

theorem convReport_power (h : Nat) (s : State) : (convReport h s).power = (countConv h s).power := by
  rw [convReport, report_power]
  rfl

theorem converterFault_power {h : Nat} {s : State} (on : halfPowered s h = true) : (converterFault h false s).power =
    (setHalfPower h 0 (halfReset h 7 (convReport h s))).power := by
  rw [converterFault_one_of_powered on, noteStatus_power]

/-- A converter fault of H0: its domains go off and it is out of service, the fault is counted, H1 goes on. -/
theorem converterFault0_power {s : State} (on : halfPowered s 0 = true) : (converterFault 0 false s).power =
    { (countConv 0 s).power with ready0 := false, on0 := 0 } := by
  rw [converterFault_power on, setHalfPower_power, halfReset_power, convReport_power]
  rfl

/-- A converter fault of H1: its domains go off and it is out of service, the fault is counted, H0 goes on. -/
theorem converterFault1_power {s : State} (on : halfPowered s 1 = true) : (converterFault 1 false s).power =
    { (countConv 1 s).power with ready1 := false, on1 := 0 } := by
  rw [converterFault_power on, setHalfPower_power, halfReset_power, convReport_power]
  rfl

@[simp] theorem setHalfPower_hearth (h : Nat) (x : Byte) (s : State) : (setHalfPower h x s).hearth = s.hearth := rfl

theorem halfReset_resetCause {cause : Nat} (h : Nat) (hc : cause < 16) (s : State) :
    fld (halfReset h cause s).hearth.resetCause 27 24 = cause := by
  unfold halfReset
  extract_lets
  rw [noteStatus_resetCause, fld_resetCause 2 hc]

theorem converterFault_resetCause {h : Nat} {s : State} (on : halfPowered s h = true) :
    fld (converterFault h false s).hearth.resetCause 27 24 = 7 := by
  rw [converterFault_one_of_powered on, noteStatus_resetCause, setHalfPower_hearth, halfReset_resetCause h (by decide)]

/-- The half is powered again: 100 ms have passed and nothing keeps it off. -/
def MayRepower (s : State) (h : Nat) : Prop :=
  halfPowered s h = false ∧ staysOff s h = false ∧ convWaited s h = true ∧ mayPower s = true

/-- The half has power again. -/
def repowered (h : Nat) (s : State) : State := noteStatus s (setHalfPower h 0xFF s)

/-- The half has power again and stays in reset, as its master reference is out of tolerance (R242). -/
def heldRepowered (h : Nat) (s : State) : State :=
  noteStatus (repowered h s) (((repowered h s).modPower fun p => { p with resetHeld := true }).modHearth fun x =>
    { x with selftest := pack [(24, 1), (23, h), (22, 1 - h)] })

theorem repowered_inReset (h : Nat) (s : State) : (repowered h s).power.inReset = s.power.inReset := by
  rw [repowered, noteStatus_power, setHalfPower_power]
  split <;> rfl

theorem repowered_powered (h : Nat) (s : State) : halfPowered (repowered h s) h = true := by
  rw [halfPowered, repowered, noteStatus_power, setHalfPower_power]
  split <;> rfl

section
variable {s : State} {h : Nat} {u : OpticsUp}

theorem converterRepower_of_not (no : ¬MayRepower s h) : converterRepower h u s = s := by
  refine if_neg fun yes => no ?_
  simp only [Bool.and_eq_true, Bool.not_eq_true'] at yes
  obtain ⟨⟨⟨may, off⟩, stays⟩, waited⟩ := yes
  exact ⟨off, stays, waited, may⟩

variable (may : MayRepower s h)
include may

/-- The half is powered; in a device reset it waits for the release, with a bad master it is held, otherwise it comes up. -/
theorem converterRepower_of_may : converterRepower h u s =
    if s.power.inReset then repowered h s
    else if (if h = 0 then u.ref0Ok else u.ref1Ok) then halfUpWith (powerUpOptics h u) h (repowered h s)
    else heldRepowered h s := by
  obtain ⟨off, stays, waited, powers⟩ := may
  have bad : masterBad u h (repowered h s) = !(if h = 0 then u.ref0Ok else u.ref1Ok) := by
    rw [masterBad, repowered_powered, Bool.true_and]
  rw [converterRepower, if_pos (by simp [off, stays, waited, powers])]
  change (if (repowered h s).power.inReset then repowered h s else if masterBad u h (repowered h s) then heldRepowered h s
    else halfUpWith (powerUpOptics h u) h (repowered h s)) = _
  rw [repowered_inReset, bad]
  cases (if h = 0 then u.ref0Ok else u.ref1Ok) <;> simp only [Bool.not_true, Bool.not_false, if_true, Bool.false_eq_true, if_false]

theorem converterRepower_of_reset (reset : s.power.inReset = true) : converterRepower h u s = repowered h s := by
  rw [converterRepower_of_may may, if_pos reset]

variable (up : s.power.inReset = false)
include up

theorem converterRepower_of_goodMaster (good : (if h = 0 then u.ref0Ok else u.ref1Ok) = true) :
    converterRepower h u s = halfUpWith (powerUpOptics h u) h (repowered h s) := by
  rw [converterRepower_of_may may, if_neg (by simp [up]), if_pos good]

theorem converterRepower_of_badMaster (bad : (if h = 0 then u.ref0Ok else u.ref1Ok) = false) :
    converterRepower h u s = heldRepowered h s := by
  rw [converterRepower_of_may may, if_neg (by simp [up]), if_neg (by simp [bad])]

end

/-! ### References (R298, R418) -/

theorem post_time (type : Nat) (body : List Word) (slot : Option (List Byte)) (s : State) :
    (post type body slot s).time = s.time := by
  unfold post
  split <;> rfl

theorem postOutcome_time (i code t : Nat) (s : State) : (postOutcome i code t s).time = s.time := by
  unfold postOutcome
  split
  · rfl
  · exact post_time ..

theorem kindleDrop_time (test : KEntry → Bool) (code : Nat) (s : State) : (kindleDrop test code s).time = s.time := by
  have each (l : List (Nat × KEntry)) (s : State) : (l.foldl (fun s e =>
      postOutcome e.1 code e.2.next (modK e.1 (fun k => { k with armed := false, outcome := code }) s)) s).time = s.time := by
    induction l generalizing s with
    | nil => rfl
    | cons e l ih =>
      rw [List.foldl_cons, ih]
      exact postOutcome_time ..
  exact each _ s

theorem setTimeState_tells (x : Nat) (s : State) : Tells (s.modTime fun t => { t with state := x }) (setTimeState x s) := by
  unfold setTimeState
  split
  next same =>
    subst same
    exact .refl s
  next => exact capture_tells 4 x _

/-- Time is lost: it is UNSET, and the references are as they were. -/
theorem loseTime_refs (s : State) : (loseTime s).time.refOk0 = s.time.refOk0 ∧ (loseTime s).time.refOk1 = s.time.refOk1 ∧
    (loseTime s).time.refSwitched = s.time.refSwitched ∧ (loseTime s).time.state = 0 := by
  unfold loseTime
  extract_lets unset dark
  have told : Tells _ unset := setTimeState_tells 0 _
  have pps : dark.time = { unset.time with ppsOut := dark.time.ppsOut } := by
    simp only [dark]
    split <;> rfl
  rw [kindleDrop_time, pps]
  exact ⟨told.refOk0, told.refOk1, told.refSwitched, told.timeState⟩

/-- A half's reference has failed. -/
def refGone (h : Nat) (s : State) : State :=
  (s.modTime fun t => if h = 0 then { t with refOk0 := false } else { t with refOk1 := false }).modTime
    fun t => { t with refSwitched := t.refOk0 || t.refOk1 }

/-- A half runs from the other reference: captured, counted and reported. -/
def switchRef (h : Nat) (s : State) : State := report (faultAt 0x0C01 2 h 0 0) (capture 5 h (bumpTime 0 s))

theorem switchRef_tells (h : Nat) (s : State) : Tells s (switchRef h s) :=
  (bump_tells _ s).trans ((capture_tells _ _ _).trans (report_tells _ _))

theorem refFail_eq (h : Nat) (s : State) : refFail h s =
    if (if h = 0 then s.time.refOk0 else s.time.refOk1) then
      if (refGone h s).time.refOk0 || (refGone h s).time.refOk1 then switchRef h (refGone h s) else loseTime (refGone h s)
    else s := rfl

theorem refFail_of_failed {h : Nat} {s : State} (failed : (if h = 0 then s.time.refOk0 else s.time.refOk1) = false) :
    refFail h s = s := by
  rw [refFail_eq, if_neg (by simp [failed])]

section
variable {h : Nat} {s : State} (ok : (if h = 0 then s.time.refOk0 else s.time.refOk1) = true)
include ok

theorem refFail_of_other (other : ((refGone h s).time.refOk0 || (refGone h s).time.refOk1) = true) :
    refFail h s = switchRef h (refGone h s) := by
  rw [refFail_eq, if_pos ok, if_pos other]

theorem refFail_of_last (none : ((refGone h s).time.refOk0 || (refGone h s).time.refOk1) = false) :
    refFail h s = loseTime (refGone h s) := by
  rw [refFail_eq, if_pos ok, if_neg (by simp [none])]

end

theorem refReturn1_eq (s : State) :
    refReturn 1 s = { s with time := { s.time with refOk1 := true, refSwitched := !s.time.refOk0 } } := by
  change ({ s with time := { s.time with refOk1 := true, refSwitched := !(s.time.refOk0 && true) } } : State) = _
  rw [Bool.and_true]

/-! ### Temperature (R430) -/

theorem exec_thermalSensorRead {l : List Nat} (n : l.length = 26) (persists : Bool) (s : State) :
    exec (.thermalSensorRead l persists) s = .next (sensorsRead l persists s) := if_pos n

theorem foldl_max_le {n : Nat} (l : List Nat) (a : Nat) : l.foldl Nat.max a ≤ n ↔ a ≤ n ∧ ∀ x ∈ l, x ≤ n := by
  induction l generalizing a with
  | nil => simp
  | cons x l ih => rw [List.foldl_cons, ih, List.forall_mem_cons, ← and_assoc, show Nat.max a x ≤ n ↔ a ≤ n ∧ x ≤ n from Nat.max_le]

/-- No reading is over a bound. -/
theorem hottest_le {n : Nat} (l : List Nat) : (hottest l).1 ≤ n ↔ ∀ x ∈ l, x ≤ n := by
  rw [hottest, foldl_max_le]
  exact and_iff_right (Nat.zero_le n)

/-- Some reading is over a bound. -/
theorem lt_hottest {n : Nat} (l : List Nat) : n < (hottest l).1 ↔ ∃ x ∈ l, n < x := by
  rw [← not_iff_not, not_lt, hottest_le]
  push Not
  rfl

/-- The temperatures of the Granary stacks as STACK_THERMAL_READ has left them. -/
def stackTemps (s : State) : List Nat := (List.range 8).map fun i => (tget s.mem.srcs {} i).temp

theorem forall_stackTemps {q : Nat → Prop} {s : State} :
    (∀ x ∈ stackTemps s, q x) ↔ ∀ i, i < 8 → q (tget s.mem.srcs {} i).temp := by
  simp [stackTemps]

theorem exists_stackTemps {q : Nat → Prop} {s : State} :
    (∃ x ∈ stackTemps s, q x) ↔ ∃ i, i < 8 ∧ q (tget s.mem.srcs {} i).temp := by
  simp [stackTemps]

/-- Some sensor is over its trip threshold. -/
def Hot (l : List Nat) (s : State) : Prop :=
  (∃ x ∈ l.take 18, 112 < x) ∨ (∃ x ∈ l.drop 18, 90 < x) ∨ ∃ i, i < 8 ∧ 110 < (tget s.mem.srcs {} i).temp

/-- What the readings trip on. -/
def tripOf (l : List Nat) (s : State) : Option (Nat × Nat × Nat) :=
  tripAt (hottest (l.take 18)) (hottest (l.drop 18)) (stackTemps s)

theorem tripOf_isSome (l : List Nat) (s : State) : (tripOf l s).isSome = true ↔ Hot l s := by
  rw [Hot, ← lt_hottest, ← lt_hottest, ← exists_stackTemps (q := fun x => 110 < x), ← lt_hottest, tripOf, tripAt]
  split
  next tj => simp [tj]
  next tj =>
    split
    next kiln => simp [kiln]
    next kiln => split <;> simp [*]

/-- The second state is the first but for the warnings that hold and the telling of them. -/
def Warned (s t : State) : Prop := Tells (s.modPower fun p => { p with warned := t.power.warned }) t

theorem Tells.modPower {s t : State} (h : Tells s t) (f : Power → Power) : Tells (s.modPower f) (t.modPower f) :=
  congrArg (State.modPower f) h

namespace Warned

theorem refl (s : State) : Warned s s := rfl

theorem trans {s t u : State} (h : Warned s t) (k : Warned t u) : Warned s u :=
  (Tells.modPower h fun p => { p with warned := u.power.warned }).trans k

theorem of_tells {s t : State} {w : List Nat} (h : Tells (s.modPower fun p => { p with warned := w }) t) : Warned s t := by
  have same : t.power.warned = w := by
    rw [h.power]
    rfl
  unfold Warned
  rwa [same]

theorem power {s t : State} (h : Warned s t) : t.power = { s.power with warned := t.power.warned } := Tells.power h

end Warned

theorem warnOn_warned (key sensor half value limit : Nat) (s : State) : Warned s (warnOn key sensor half value limit s) := by
  unfold warnOn
  split
  · exact .of_tells (report_tells _ _)
  · split
    · exact .of_tells (.refl _)
    · exact .refl s

/-- Every sensor is cool enough for a restart. -/
def Cool (l : List Nat) (s : State) : Prop :=
  (∀ x ∈ l.take 18, x ≤ 95) ∧ (∀ x ∈ l.drop 18, x ≤ 70) ∧ ∀ i, i < 8 → (tget s.mem.srcs {} i).temp ≤ 95

theorem cool_iff (l : List Nat) (s : State) : Cool l s ↔
    (hottest (l.take 18)).1 ≤ 95 ∧ (hottest (l.drop 18)).1 ≤ 70 ∧ (hottest (stackTemps s)).1 ≤ 95 := by
  rw [hottest_le, hottest_le, hottest_le, forall_stackTemps, Cool]

/-- The power controller holds the readings. -/
def sensed (l : List Nat) (s : State) : State :=
  s.modPower fun p =>
    { p with tempMax := sat 255 (hottest (l.take 18)).1, tempSensor := (hottest (l.take 18)).2,
             kilnMax := sat 255 (hottest (l.drop 18)).1,
             coolSince := if (hottest (l.take 18)).1 ≤ 95 ∧ (hottest (l.drop 18)).1 ≤ 70 ∧ (hottest (stackTemps s)).1 ≤ 95
               then some (p.coolSince.getD s.time.hearthPs) else none }

/-- The readings are held and warned of. -/
def sensedWarned (l : List Nat) (s : State) : State :=
  (List.range 8).foldl (fun s g => warnOn (1 + g) (18 + g) (g / 4) ((l.drop 18).getD g 0) 80 s)
    (warnOn 0 (hottest (l.take 18)).2 (sensorHalf (hottest (l.take 18)).2) (hottest (l.take 18)).1 100 (sensed l s))

theorem sensedWarned_warned (l : List Nat) (s : State) : Warned (sensed l s) (sensedWarned l s) := by
  have each (gs : List Nat) (t : State) :
      Warned t (gs.foldl (fun s g => warnOn (1 + g) (18 + g) (g / 4) ((l.drop 18).getD g 0) 80 s) t) := by
    induction gs generalizing t with
    | nil => exact .refl t
    | cons g gs ih => exact (warnOn_warned ..).trans (ih _)
  exact (warnOn_warned ..).trans (each _ _)

theorem sensorsRead_eq (l : List Nat) (persists : Bool) (s : State) : sensorsRead l persists s =
    match tripOf l s with
    | some x => if persists && !(sensedWarned l s).power.trip then thermalTrip x (sensedWarned l s) else sensedWarned l s
    | none => sensedWarned l s := rfl

theorem sensedWarned_power (l : List Nat) (s : State) :
    (sensedWarned l s).power = { (sensed l s).power with warned := (sensedWarned l s).power.warned } :=
  (sensedWarned_warned l s).power

theorem sensedWarned_trip (l : List Nat) (s : State) : (sensedWarned l s).power.trip = s.power.trip := by
  rw [sensedWarned_power]
  rfl

theorem sensedWarned_coolSince (l : List Nat) (s : State) [Decidable (Cool l s)] : (sensedWarned l s).power.coolSince =
    if Cool l s then some (s.power.coolSince.getD s.time.hearthPs) else none := by
  rw [sensedWarned_power]
  simp only [cool_iff]
  rfl

theorem sensorsRead_of_trip {l : List Nat} {persists : Bool} {s : State} (hot : Hot l s) (lasts : persists = true)
    (once : s.power.trip = false) : ∃ x, sensorsRead l persists s = thermalTrip x (sensedWarned l s) := by
  obtain ⟨x, found⟩ := Option.isSome_iff_exists.mp ((tripOf_isSome l s).mpr hot)
  refine ⟨x, ?_⟩
  rw [sensorsRead_eq, found]
  exact if_pos (by simp [lasts, sensedWarned_trip, once])

theorem sensorsRead_of_noTrip {l : List Nat} {persists : Bool} {s : State}
    (no : ¬Hot l s ∨ persists = false ∨ s.power.trip = true) : sensorsRead l persists s = sensedWarned l s := by
  rw [sensorsRead_eq]
  split
  next x found =>
    rcases no with cold | still
    · exact absurd ((tripOf_isSome l s).mp (by simp [found])) cold
    · exact if_neg (by rcases still with short | held <;> simp [sensedWarned_trip, *])
  next => rfl

/-! ### A device reset that leaves the half domains off (R412, R415, R430) -/

theorem domainsReset_ready (s : State) : (domainsReset s).power.ready0 = false ∧ (domainsReset s).power.ready1 = false := ⟨rfl, rfl⟩
theorem domainsReset_coll (s : State) : (domainsReset s).coll = [] := rfl

theorem deviceReset_ready (level cause : Nat) (s : State) :
    (deviceReset level cause s).power.ready0 = false ∧ (deviceReset level cause s).power.ready1 = false := by
  rw [(deviceReset_tells level cause s).power]
  exact domainsReset_ready _

theorem domainsOff_power (s : State) : (domainsOff s).power = { s.power with on0 := 0, on1 := 0 } := rfl
theorem domainsOff_coll (s : State) : (domainsOff s).coll = s.coll := rfl
theorem domainsOff_hearth (s : State) : (domainsOff s).hearth = s.hearth := rfl

/-- The half domains are off and out of service. -/
structure Down (p : Power) : Prop where
  on0 : p.on0 = 0
  on1 : p.on1 = 0
  ready0 : p.ready0 = false
  ready1 : p.ready1 = false

theorem Down.of_eq {p q : Power} (h : p = { q with on0 := 0, on1 := 0 }) (ready0 : q.ready0 = false) (ready1 : q.ready1 = false) :
    Down p := by
  subst h
  exact ⟨rfl, rfl, ready0, ready1⟩

theorem resetAndOff_down (cause : Nat) (s : State) : Down (resetAndOff cause s).power := by
  obtain ⟨ready0, ready1⟩ := deviceReset_ready 1 cause s
  refine .of_eq (q := (deviceReset 1 cause s).power) ?_ ready0 ready1
  rw [resetAndOff, noteStatus_power, domainsOff_power]

theorem resetAndOff_coll (cause : Nat) (s : State) : (resetAndOff cause s).coll = [] := by
  rw [resetAndOff, (noteStatus_tells _ _).coll, domainsOff_coll, (deviceReset_tells 1 cause s).coll, domainsReset_coll]

theorem resetAndOff_resetCause {cause : Nat} (hc : cause < 16) (s : State) :
    fld (resetAndOff cause s).hearth.resetCause 27 24 = cause := by
  rw [resetAndOff, noteStatus_resetCause, domainsOff_hearth, deviceReset_resetCause 1 hc]

/-- The trip is held and the pin asserted. -/
def assertTrip (s : State) : State := emit (.thermTrip true) (s.modPower fun p => { p with trip := true, coolSince := none })

theorem assertTrip_trip (s : State) : (assertTrip s).power.trip = true := rfl
theorem assertTrip_coll (s : State) : (assertTrip s).coll = s.coll := rfl
theorem assertTrip_hearth (s : State) : (assertTrip s).hearth = s.hearth := rfl
theorem assertTrip_down {s : State} (down : Down s.power) : Down (assertTrip s).power :=
  ⟨down.on0, down.on1, down.ready0, down.ready1⟩

theorem thermalTrip_eq (x : Nat × Nat × Nat) (s : State) :
    thermalTrip x s = assertTrip (resetAndOff 5 (report (powerFault 0x1105 3 x.1 x.2.1 x.2.2) s)) := rfl

theorem thermalTrip_trip (x : Nat × Nat × Nat) (s : State) : (thermalTrip x s).power.trip = true := by
  rw [thermalTrip_eq, assertTrip_trip]

theorem thermalTrip_down (x : Nat × Nat × Nat) (s : State) : Down (thermalTrip x s).power := by
  rw [thermalTrip_eq]
  exact assertTrip_down (resetAndOff_down 5 _)

theorem thermalTrip_coll (x : Nat × Nat × Nat) (s : State) : (thermalTrip x s).coll = [] := by
  rw [thermalTrip_eq, assertTrip_coll, resetAndOff_coll]

theorem thermalTrip_resetCause (x : Nat × Nat × Nat) (s : State) : fld (thermalTrip x s).hearth.resetCause 27 24 = 5 := by
  rw [thermalTrip_eq, assertTrip_hearth, resetAndOff_resetCause (by decide)]

/-! ### The restart after a trip (R430) -/

theorem thermRestart_of_not {u : OpticsUp} {s : State} (no : s.power.trip = false ∨ s.power.coolSince = none ∨
    mayPower (s.modPower fun p => { p with trip := false }) = false) : thermRestart u s = s := by
  unfold thermRestart
  rcases no with trip | hot | off
  · simp [trip]
  · simp [hot]
  · simp [off]

section
variable {u : OpticsUp} {s : State} {x : Nat} (trip : s.power.trip = true) (cool : s.power.coolSince = some x)
  (may : mayPower (s.modPower fun p => { p with trip := false }) = true)
include trip cool may

theorem thermRestart_of_cool : thermRestart u s = if x + 10000000000000 ≤ s.time.hearthPs then
    powerHalves u (emit (.thermTrip false) (s.modPower fun p => { p with trip := false })) else s := by
  simp [thermRestart, trip, cool, may]

end

/-! ### The channels of the bridge (R20) -/

/-- A channel is retired, counted and reported. -/
def retireChannel (h c : Nat) (timeout : Bool) (s : State) : State :=
  report { faultAt 0x0101 1 h 0 c with detail := [w32 c] } (bump (ctr 0x0A h 2)
    ((if timeout then bump (ctr 0x0A h 1) s else bumpBy (ctr 0x0A h 0) 3 s).modCore fun k =>
      { k with retired := k.retired ++ [512 * h + c] }))

/-- A spare takes over a role. -/
def useSpare (h i r : Nat) (s : State) : State :=
  bump (ctr 0x0A h 3) (s.modCore fun k => { k with sparesUsed := tset k.sparesUsed 0 (2 * h + i) (r + 1) })

theorem roleLost_cell (h : Nat) {r : Nat} (s : State) (cell : r < 500) :
    roleLost h r s = report { faultAt 0x0102 2 h (r / 125) r with detail := [w32 r] }
      (s.modCore fun k => { k with lost := tmod k.lost 0 (4 * h + r / 125) (· + 1) }) := if_pos cell

theorem roleLost_memory (h : Nat) {r : Nat} (s : State) (low : 504 ≤ r) (high : r < 508) : roleLost h r s = s := by
  rw [roleLost, if_neg (by omega), if_pos ⟨low, high⟩]

theorem roleLost_fatal (h : Nat) {r : Nat} (s : State) (cells : 500 ≤ r) (fatal : r < 504 ∨ 508 ≤ r) :
    roleLost h r s = halfReset h 6 (report { faultAt 0x0103 3 h 0 r with detail := [w32 r] } s) := by
  rw [roleLost, if_neg (by omega), if_neg (by omega)]

section
variable {h c : Nat} {timeout : Bool} {s : State}

theorem channelFail_ignored (no : halfReady s 0 = false ∨ halfReady s 1 = false ∨ chanRetired s h c = true) :
    channelFail h c timeout s = s := by
  refine if_pos ?_
  rcases no with off | off | retired
  · simp [show s.power.ready0 = false from off]
  · simp [show s.power.ready1 = false from off]
  · simp [retired]

variable (up0 : halfReady s 0 = true) (up1 : halfReady s 1 = true) (live : chanRetired s h c = false)
include up0 up1 live

theorem channelFail_taken : channelFail h c timeout s =
    match chanRole s h c, bridgeSpare (retireChannel h c timeout s) h with
    | none, _ => retireChannel h c timeout s
    | some r, some i => useSpare h i r (retireChannel h c timeout s)
    | some r, none => roleLost h r (retireChannel h c timeout s) := by
  rw [channelFail, if_neg (by simp [show s.power.ready0 = true from up0, show s.power.ready1 = true from up1, live])]
  rfl

theorem channelFail_of_noRole (role : chanRole s h c = none) : channelFail h c timeout s = retireChannel h c timeout s := by
  rw [channelFail_taken up0 up1 live, role]

theorem channelFail_of_spare {r i : Nat} (role : chanRole s h c = some r)
    (spare : bridgeSpare (retireChannel h c timeout s) h = some i) :
    channelFail h c timeout s = useSpare h i r (retireChannel h c timeout s) := by
  rw [channelFail_taken up0 up1 live, role, spare]

theorem channelFail_of_noSpare {r : Nat} (role : chanRole s h c = some r)
    (spare : bridgeSpare (retireChannel h c timeout s) h = none) :
    channelFail h c timeout s = roleLost h r (retireChannel h c timeout s) := by
  rw [channelFail_taken up0 up1 live, role, spare]

end
end Sys2Proof.Machine

namespace Sys2Proof.Proofs

open Sys2Proof.Machine

/-- Settles O54: each clause is the lemma that says what its row does in the states that the clause describes. -/
theorem convertersReferencesTemperatureBridge : Obligations.ConvertersReferencesTemperatureBridge := by
  unfold Obligations.ConvertersReferencesTemperatureBridge
  refine ⟨?oneHalf, ?count, ?bothHalves, ?repower, ?refFails, ?refReturns, ?sensors, ?restart, ?bridge⟩
  case oneHalf =>
    intro h s
    refine ⟨fun off => next_congr (converterFault_one_of_unpowered off), fun on => ⟨converterFault h false s, rfl, ?_⟩⟩
    have cause := converterFault_resetCause on
    rcases (by omega : h = 0 ∨ h = 1) with rfl | rfl
    · have power : (converterFault ((0 : Fin 2) : Nat) false s).power = _ := converterFault0_power on
      rw [countConv_power, if_pos rfl] at power
      rw [halfPowered, halfReady, power]
      exact ⟨rfl, rfl, fun _ => ⟨rfl, rfl, rfl, rfl, rfl⟩, fun other => absurd other (by decide), cause⟩
    · have power : (converterFault ((1 : Fin 2) : Nat) false s).power = _ := converterFault1_power on
      rw [countConv_power, if_neg Nat.one_ne_zero] at power
      rw [halfPowered, halfReady, power]
      exact ⟨rfl, rfl, fun other => absurd other (by decide), fun _ => ⟨rfl, rfl, rfl, rfl, rfl⟩, cause⟩
  case count =>
    intro s recent t
    have power := countConv_power 0 s
    rw [if_pos rfl] at power
    change t.power = _ at power
    rw [power]
    refine ⟨rfl, ?_, rfl⟩
    change (s.power.stayOff0 || decide (3 ≤ (recent ++ [s.time.hearthPs]).length)) = true ↔ _
    rw [Bool.or_eq_true, decide_eq_true_iff, List.length_append, List.length_singleton]
    exact or_congr Iff.rfl Nat.succ_le_succ_iff
  case bothHalves =>
    intro h s
    exact ⟨fun off => next_congr (converterFault_both_of_unpowered h off),
      fun on0 on1 => next_congr (converterFault_both_of_powered h on0 on1)⟩
  case repower =>
    intro h u s
    refine ⟨fun no => ?_, fun off stays waited may reset => ?_, fun off stays waited may up => ⟨fun good => ?_, fun bad => ?_⟩⟩
    · refine next_congr (converterRepower_of_not ?_)
      rintro ⟨off, stays, waited, may⟩
      simp [off, stays, waited, may] at no
    · exact next_congr (converterRepower_of_reset ⟨off, stays, waited, may⟩ reset)
    · exact next_congr (converterRepower_of_goodMaster ⟨off, stays, waited, may⟩ up (by simpa [Fin.val_eq_zero_iff] using good))
    · exact next_congr (converterRepower_of_badMaster ⟨off, stays, waited, may⟩ up (by simpa [Fin.val_eq_zero_iff] using bad))
  case refFails =>
    intro s
    refine ⟨fun failed => next_congr (refFail_of_failed failed), fun failed => next_congr (refFail_of_failed failed),
      fun ok0 ok1 => ⟨refFail 0 s, refFail 1 s, rfl, ?_⟩, fun ok0 bad1 => ⟨refFail 0 s, rfl, ?_⟩,
      fun bad0 ok1 => ⟨refFail 1 s, rfl, ?_⟩⟩
    · have run0 : refFail 0 s = _ := refFail_of_other ok0 ok1
      have run1 : refFail 1 s = _ := refFail_of_other ok1 (Bool.or_eq_true_iff.mpr (.inl ok0))
      have told0 := run0 ▸ switchRef_tells 0 (refGone 0 s)
      have told1 := run1 ▸ switchRef_tells 1 (refGone 1 s)
      exact ⟨told0.refOk0, told0.refOk1.trans ok1, told0.refSwitched.trans ok1, told0.timeState, rfl,
        told1.refOk0.trans ok0, told1.refOk1, told1.refSwitched.trans (Bool.or_eq_true_iff.mpr (.inl ok0)), told1.power⟩
    · obtain ⟨gone, _, switched, unset⟩ := loseTime_refs (refGone 0 s)
      rw [refFail_of_last (h := 0) ok0 bad1]
      exact ⟨gone, unset, switched.trans bad1⟩
    · obtain ⟨_, gone, switched, unset⟩ := loseTime_refs (refGone 1 s)
      have none : ((refGone 1 s).time.refOk0 || (refGone 1 s).time.refOk1) = false := Bool.or_eq_false_iff.mpr ⟨bad0, rfl⟩
      rw [refFail_of_last (h := 1) ok1 none]
      exact ⟨gone, unset, switched.trans none⟩
  case refReturns => exact fun s => ⟨rfl, next_congr (refReturn1_eq s)⟩
  case sensors =>
    intro l persists s n hot
    refine ⟨fun isHot lasts once => ?_, fun no => ⟨sensedWarned l s, ?_, ?_, ?_, sensedWarned_trip l s, ?_⟩⟩
    · obtain ⟨x, run⟩ := sensorsRead_of_trip isHot lasts once
      obtain ⟨on0, on1, ready0, ready1⟩ := thermalTrip_down x (sensedWarned l s)
      exact ⟨thermalTrip x (sensedWarned l s), (exec_thermalSensorRead n persists s).trans (next_congr run),
        thermalTrip_trip .., on0, on1, ready0, ready1, thermalTrip_coll .., thermalTrip_resetCause ..⟩
    · exact (exec_thermalSensorRead n persists s).trans (next_congr (sensorsRead_of_noTrip no))
    · classical
      rw [sensedWarned_coolSince]
      change _ ↔ Cool l s
      split <;> simp [*]
    · intro x since
      classical
      rw [sensedWarned_coolSince, since]
      split
      · exact .inr rfl
      · exact .inl rfl
    · have told : Tells _ (sensedWarned l s) := sensedWarned_warned l s
      rw [sensedWarned_power]
      exact ⟨rfl, rfl, rfl, rfl, told.mem, told.coll, told.routing, told.core⟩
  case restart =>
    intro u s t
    refine ⟨fun no => next_congr (thermRestart_of_not no), fun x trip cool may => ⟨fun early => ?_, fun late => ?_⟩⟩
    · exact next_congr ((thermRestart_of_cool trip cool may).trans (if_neg (by omega)))
    · exact next_congr ((thermRestart_of_cool trip cool may).trans (if_pos late))
  case bridge =>
    intro h c timeout s
    refine ⟨fun no => next_congr (channelFail_ignored no), fun up0 up1 live => ?_⟩
    intro a b
    refine ⟨fun role => ?_, fun r i role spare => ?_, fun r role spare => ?_⟩
    · exact next_congr (channelFail_of_noRole up0 up1 live role)
    · exact next_congr (channelFail_of_spare up0 up1 live role spare)
    · have lost := channelFail_of_noSpare (timeout := timeout) up0 up1 live role spare
      exact ⟨fun cell => next_congr (lost.trans (roleLost_cell _ _ cell)),
        fun low high => next_congr (lost.trans (roleLost_memory _ _ low high)),
        fun cells fatal => next_congr (lost.trans (roleLost_fatal _ _ cells fatal))⟩

end Sys2Proof.Proofs
end

section
/-! SUPPORT. Resets (R333 to R335, R340): the commands that ask for them, RESET_BEGIN, what a device reset leaves, barns and halves
that come back, and the release. -/

namespace Sys2Proof.Machine

/-! ### The commands (R155, R333, R340) -/

/-- The ACTIVE contexts of the device. -/
def activeCtxs (s : State) : List Nat := (s.coll.filter fun e => e.2.state == .active).map Prod.fst

/-- Contexts are aborted with RESET. -/
def abortReset (ks : List Nat) (s : State) : State := ks.foldl (fun s k => abortPlain k 9 s) s

/-- The circuits that are not closed are told of the reset. -/
def noticeCircuits (s : State) : State := (s.flue.filter fun e => e.2.state != 0).foldl (fun s e => flueNotice e.1 3 s.time.now s) s

theorem cmdDeviceReset_eq (c : CmdRef) (s : State) : cmdDeviceReset c s =
    (resetAsked .device s.core.nextPid c (settleFences 64 (noticeCircuits (abortReset (activeCtxs s) s))), none) := rfl

theorem cmdHalfReset_of_noHalf (c : CmdRef) {args : List Word} (s : State) (h : 1 < argN args 1) :
    cmdHalfReset c args s = cmdRefuse St.badArgument 1 s := if_pos h

theorem cmdHalfReset_of_half (c : CmdRef) {args : List Word} (s : State) (h : argN args 1 ≤ 1) : cmdHalfReset c args s =
    (resetAsked (.half (argN args 1)) s.core.nextPid c (settleFences 64 (abortReset (ctxsHit s (argN args 1)) s)), none) :=
  if_neg (by omega)

@[simp] theorem fetched_activeCtxs (i : Instr) (s : State) : activeCtxs (fetched i s) = activeCtxs s := by
  simp only [activeCtxs, fetched_coll]
@[simp] theorem fetched_ctxsHit (i : Instr) (s : State) (h : Nat) : ctxsHit (fetched i s) h = ctxsHit s h := by
  simp only [ctxsHit, fetched_coll]
@[simp] theorem fetched_barnInUse (i : Instr) (s : State) (b : Nat) : barnInUse (fetched i s) b = barnInUse s b := by
  simp only [barnInUse, fetched_coll]

section
variable {args : List Word} {s : State}

theorem cmdBarnReset_of_noBarn (h : 16 ≤ argN args 1) : cmdBarnReset args s = cmdRefuse St.badArgument 1 s := if_pos h

theorem cmdBarnReset_of_used (h : argN args 1 < 16) (used : barnInUse s (argN args 1) = true) :
    cmdBarnReset args s = cmdRefuse St.busy 0 s :=
  (if_neg (by omega)).trans (if_pos used)

theorem cmdBarnReset_of_unused (h : argN args 1 < 16) (unused : barnInUse s (argN args 1) = false) :
    cmdBarnReset args s = cmdOk (barnsReset (fun x => x == argN args 1) true s) :=
  (if_neg (by omega)).trans (if_neg (by simp [unused]))

end

/-! ### RESET_BEGIN (R333, R355) -/

/-- A packet of the reset's notices has not left, and less than 50 µs have passed. -/
def NoticesWait (s : State) : Prop := pidsLeft s s.power.pendPids = true ∧ s.time.now < s.power.pendAt + usU 50

/-- The reset that was asked for is no longer pending, and its command completes. -/
def pendingEnds (s : State) : State := endPending (s.modPower fun p => { p with pending := .none, pendPids := [] })

section
variable {s : State}

theorem resetBegin_of_waits (h : NoticesWait s) : resetBegin s = s := if_pos h

theorem resetBegin_of_goes (h : ¬NoticesWait s) : resetBegin s =
    match s.power.pending with
    | .none => s
    | .device => deviceReset 1 2 s
    | .half h => if halfPowered s h then halfReset h 2 (pendingEnds s) else pendingEnds s :=
  if_neg h

theorem resetBegin_of_none (h : s.power.pending = .none) : resetBegin s = s := by
  by_cases waits : NoticesWait s
  · exact resetBegin_of_waits waits
  · rw [resetBegin_of_goes waits, h]

theorem resetBegin_of_half {hf : Nat} (h : s.power.pending = .half hf) (goes : ¬NoticesWait s) :
    resetBegin s = if halfPowered s hf then halfReset hf 2 (pendingEnds s) else pendingEnds s := by
  rw [resetBegin_of_goes goes, h]

theorem resetBegin_of_device (h : s.power.pending = .device) (goes : ¬NoticesWait s) : resetBegin s = deviceReset 1 2 s := by
  rw [resetBegin_of_goes goes, h]

end

/-! ### What a device reset leaves (R28, R219, R242, R333) -/

theorem domainsReset_routing (s : State) : (domainsReset s).routing = State.reset.routing := rfl
theorem domainsReset_core (s : State) : (domainsReset s).core = State.reset.core := rfl
theorem domainsReset_sched (s : State) : (domainsReset s).sched = State.reset.sched := rfl
theorem domainsReset_thresh (s : State) : (domainsReset s).thresh = State.reset.thresh := rfl
theorem domainsReset_optics (s : State) : (domainsReset s).optics = State.reset.optics := rfl
theorem domainsReset_flue (s : State) : (domainsReset s).flue = [] := rfl
theorem domainsReset_kindle (s : State) : (domainsReset s).kindle = [] := rfl
theorem domainsReset_jobs (s : State) : (domainsReset s).jobs = State.reset.jobs := rfl
theorem domainsReset_timeState (s : State) : (domainsReset s).time.state = 0 := rfl
theorem domainsReset_inReset (s : State) : (domainsReset s).power.inReset = true := rfl
theorem domainsReset_link (s : State) :
    (domainsReset s).link = { State.reset.link with deviceTag := w32 (1 + freeBelow s (2 ^ 32 - 1)) } := rfl

theorem w32_ne_zero {n : Nat} (pos : 0 < n) (lt : n < 2 ^ 32) : w32 n ≠ 0 := by
  intro zero
  have := congrArg BitVec.toNat zero
  rw [w32, BitVec.toNat_ofNat, Nat.mod_eq_of_lt lt] at this
  exact absurd this (by simpa using pos.ne')

/-- DEVICE_TAG is not 0. -/
theorem domainsReset_deviceTag (s : State) : (domainsReset s).link.deviceTag ≠ 0 := by
  have below : freeBelow s (2 ^ 32 - 1) < 2 ^ 32 - 1 := Nat.mod_lt _ (by decide)
  rw [domainsReset_link]
  exact w32_ne_zero (by omega) (by omega)

/-- Of the memory a device reset leaves the contents of the Silo and the size of the Barn store. -/
theorem Mem.afterReset_eq (m : Mem) :
    m.afterReset = { State.reset.mem with bytes := m.afterReset.bytes, bsGib := m.afterReset.bsGib } := rfl

theorem Mem.afterReset_silo (m : Mem) : ∀ c ∈ m.afterReset.bytes, 0x200000000000 ≤ c.1 ∧ c.1 < 0x300000000000 := by
  intro c hc
  have inSilo := (List.mem_filter.mp hc).2
  rw [Bool.and_eq_true, decide_eq_true_iff, decide_eq_true_iff] at inSilo
  exact inSilo

/-! ### BARN_READY and HALF_READY (R333, R335) -/

section
variable {s : State}

theorem barnReady_of_held {b : Nat} (held : (theBarn s b).inReset = true) (up : halfReady s (halfOfBarn b) = true) :
    barnReady b s = lanesTrain (fun x => x == b) (modBarn b (fun x => { x with inReset := false }) s) := if_pos ⟨held, up⟩

theorem barnReady_of_not {b : Nat} (no : (theBarn s b).inReset = false ∨ halfReady s (halfOfBarn b) = false) :
    barnReady b s = s := by
  refine if_neg ?_
  rcases no with free | down <;> simp [*]

theorem halfUp_of_reset {h : Nat} (on : halfPowered s h = true) (down : halfReady s h = false) (up : s.power.inReset = false) :
    halfUp h s = halfUpWith (lightHalf h) h s := by
  rw [halfUp, if_pos (by simp [*])]

theorem halfUp_of_not {h : Nat} (no : halfPowered s h = false ∨ halfReady s h = true ∨ s.power.inReset = true) :
    halfUp h s = s := by
  refine if_neg ?_
  rcases no with off | ready | reset <;> simp [*]

/-! ### The release (R242, R344, R418) -/

variable {u : OpticsUp}

/-- A device reset without power loss may end: a half has power, nothing holds the reset and a reference is good. -/
def MayRelease (s : State) : Prop :=
  (halfPowered s 0 = true ∨ halfPowered s 1 = true) ∧ s.power.inReset = true ∧ s.power.resetHeld = false ∧
    (s.time.refOk0 = true ∨ s.time.refOk1 = true)

theorem resetRelease_of_not (no : ¬MayRelease s) : resetRelease u s = s := by
  refine if_neg ?_
  simpa only [MayRelease, Bool.not_eq_true'] using no

theorem resetRelease_of_may (may : MayRelease s) : resetRelease u s = releaseDevice u s := by
  refine if_pos ?_
  simpa only [MayRelease, Bool.not_eq_true'] using may

theorem releaseDevice_of_good (good0 : masterBad u 0 s = false) (good1 : masterBad u 1 s = false) : releaseDevice u s =
    noteStatus s (releaseHalf u 1 (releaseHalf u 0 (oneRef (s.modPower fun p => { p with resetHeld := false, inReset := false })))) :=
  if_neg (by simp [good0, good1])

theorem releaseDevice_power_of_bad (bad : masterBad u 0 s = true ∨ masterBad u 1 s = true) :
    (releaseDevice u s).power = { s.power with resetHeld := true } := by
  rw [releaseDevice, if_pos (by simpa using bad), noteStatus_power]
  rfl

end

end Sys2Proof.Machine

namespace Sys2Proof.Proofs

open Sys2Proof.Machine

/-- Settles O46: each clause is the lemma that says what its command or row does in the states that the clause describes. -/
theorem resets : Obligations.Resets := by
  unfold Obligations.Resets
  refine ⟨?deviceReset, ?halfReset, ?resetBegin, ?deviceLeft, ?barnReset, ?barnReady, ?halfReady, ?release⟩
  case deviceReset =>
    intro h args s i a b x sent acc
    refine run_detached rfl acc (exec_deviceReset h args s) ?_
    rw [cmdDeviceReset_eq, fetched_core, fetched_activeCtxs]
    rfl
  case halfReset =>
    intro h args s i a x sent acc
    refine ⟨fun noHalf => ?_, fun half => ?_⟩
    · exact run_refused rfl acc (exec_halfReset h args s) (cmdHalfReset_of_noHalf _ _ noHalf)
    · refine run_detached rfl acc (exec_halfReset h args s) ?_
      rw [cmdHalfReset_of_half _ _ half, fetched_core, fetched_ctxsHit]
      rfl
  case resetBegin =>
    intro s waits
    refine ⟨fun still => next_congr ?_, fun hf half goes => next_congr (resetBegin_of_half half goes)⟩
    rcases still with none | waits
    · exact resetBegin_of_none none
    · exact resetBegin_of_waits waits
  case deviceLeft =>
    intro s device goes
    have run : resetBegin s = deviceReset 1 2 s := by
      refine resetBegin_of_device device ?_
      rintro ⟨left, early⟩
      rcases goes with gone | late
      · simp [gone] at left
      · omega
    have told := deviceReset_tells 1 2 s
    obtain ⟨ready0, ready1⟩ := deviceReset_ready 1 2 s
    refine ⟨deviceReset 1 2 s, next_congr run, told.routing.trans (domainsReset_routing _), told.core.trans (domainsReset_core _),
      told.sched.trans (domainsReset_sched _), told.coll.trans (domainsReset_coll _), told.thresh.trans (domainsReset_thresh _),
      told.optics.trans (domainsReset_optics _), told.flue.trans (domainsReset_flue _),
      told.kindle.trans (domainsReset_kindle _), told.jobs.trans (domainsReset_jobs _), ?mem, ?silo, deviceReset_mem 1 2, ?link, ?tag,
      ready0, ready1, ?held, told.timeState.trans (domainsReset_timeState _), (deviceReset_keeps 1 2 s (Keeps.refl s)).pending⟩
    case mem =>
      rw [told.mem, domainsReset_mem]
      exact Mem.afterReset_eq _
    case silo =>
      rw [told.mem, domainsReset_mem]
      exact Mem.afterReset_silo _
    case link => rw [told.link, domainsReset_link]
    case tag =>
      rw [told.link]
      exact domainsReset_deviceTag _
    case held => rw [told.power, domainsReset_inReset]
  case barnReset =>
    intro h args s i acc
    refine ⟨fun noBarn => ?_, fun barn used => ?_, fun barn unused => ?_⟩
    · exact run_refused rfl acc (exec_barnReset h args s) (cmdBarnReset_of_noBarn noBarn)
    · exact run_refused rfl acc (exec_barnReset h args s) (cmdBarnReset_of_used barn ((fetched_barnInUse i s _).trans used))
    · exact run_ok rfl acc (exec_barnReset h args s) (cmdBarnReset_of_unused barn ((fetched_barnInUse i s _).trans unused))
  case barnReady =>
    intro b s
    exact ⟨fun held up => next_congr (barnReady_of_held held up), fun no => next_congr (barnReady_of_not no)⟩
  case halfReady =>
    intro h s
    exact ⟨fun on down up => next_congr (halfUp_of_reset on down up), fun no => next_congr (halfUp_of_not no)⟩
  case release =>
    intro u s may
    refine ⟨fun no => next_congr (resetRelease_of_not no),
      fun yes good0 good1 => next_congr ((resetRelease_of_may yes).trans (releaseDevice_of_good good0 good1)),
      fun yes bad => ⟨releaseDevice u s, next_congr (resetRelease_of_may yes), ?_⟩⟩
    rw [releaseDevice_power_of_bad bad]
    exact ⟨rfl, rfl, rfl⟩

end Sys2Proof.Proofs
end

section
/-! SUPPORT. HOP_LIMIT (R36, R371): the bits that marking and forwarding change of a header, the settings that every packet of
the device's own takes from the Hearth, and what the judgement of a header answers with each HOP_LIMIT. -/

namespace Sys2Proof.Machine

/-! ### The bits of W0 that change on the way (R35, R36) -/

theorem fld_low (w : Word) (n : Nat) : fld w n 0 = w.toNat % 2 ^ (n + 1) := by
  simp [fld]

theorem bitAt_eq_getLsbD (w : Word) (i : Nat) : bitAt w i = w.getLsbD i := by
  rw [bitAt, BitVec.getLsbD, Nat.testBit_eq_decide_div_mod_eq]

@[simp] theorem withEpoch_hopLimit (h : Header) (e : Bool) : (h.withEpoch e).hopLimit = h.hopLimit := by
  simp only [Header.withEpoch, Header.hopLimit, fld_low, BitVec.toNat_or, BitVec.toNat_and, Nat.and_mod_two_pow,
    Nat.or_mod_two_pow]
  have low : h.w0.toNat % 256 &&& 255 = h.w0.toNat % 256 := (Nat.and_two_pow_sub_one_eq_mod _ 8).trans (Nat.mod_mod _ _)
  cases e <;> simp [pack, packN, bit, low]

@[simp] theorem withEpoch_mc (h : Header) (e : Bool) : (h.withEpoch e).mc = h.mc := by
  simp only [Header.withEpoch, Header.mc, bitAt_eq_getLsbD, BitVec.getLsbD_or, BitVec.getLsbD_and]
  cases e <;> simp [pack, packN, bit]

@[simp] theorem markEpoch_hopLimit (s : State) (h : Header) : (markEpoch s h).hopLimit = h.hopLimit := by
  unfold markEpoch
  split <;> simp

theorem decHop_hopLimit (h : Header) : h.decHop.hopLimit = h.hopLimit - 1 := by
  have small : h.hopLimit < 2 ^ 8 := Nat.mod_lt _ (by decide)
  simp only [Header.decHop, Header.hopLimit, fld_low, w32, BitVec.toNat_or, BitVec.toNat_and, BitVec.toNat_ofNat,
    Nat.and_mod_two_pow, Nat.or_mod_two_pow] at small ⊢
  simp
  omega

theorem decHop_above (h : Header) : h.decHop.w0 >>> 8 = h.w0 >>> 8 := by
  have small : h.hopLimit < 2 ^ 8 := Nat.mod_lt _ (by decide)
  have low : (w32 (h.hopLimit - 1)).toNat >>> 8 = 0 := by
    simp only [w32, BitVec.toNat_ofNat, Nat.shiftRight_eq_div_pow]
    omega
  have high : h.w0.toNat >>> 8 % 2 ^ 24 = h.w0.toNat >>> 8 := by
    rw [Nat.shiftRight_eq_div_pow]
    omega
  apply BitVec.eq_of_toNat_eq
  simp only [Header.decHop, BitVec.toNat_ushiftRight, BitVec.toNat_or, BitVec.toNat_and, Nat.shiftRight_or_distrib,
    Nat.shiftRight_and_distrib, low, Nat.or_zero]
  exact (Nat.and_two_pow_sub_one_eq_mod _ 24).trans high

theorem originW0_hopLimit (s : State) (kind tc : Nat) (mc : Bool) (p : Nat) :
    fld (originW0 s kind tc mc p) 7 0 = s.hearth.hopLimit % 256 := by
  simp only [originW0, fld_low, pack, packN, BitVec.toNat_ofNat]
  omega

/-! ### The settings that the device's own packets take (R39, R371) -/

/-- The endpoint ID of the device and the HOP_LIMIT its packets set out with. -/
def ownSettings (s : State) : Option Nat × Nat := (s.hearth.endpointId, s.hearth.hopLimit)

theorem foldl_ownSettings {α : Type} {f : State → α → State} (h : ∀ s a, ownSettings (f s a) = ownSettings s) (l : List α)
    (s : State) : ownSettings (l.foldl f s) = ownSettings s := by
  induction l generalizing s with
  | nil => rfl
  | cons a l ih => rw [List.foldl_cons, ih, h]

theorem modSec_ownSettings (f : Sec → Sec) (s : State) : ownSettings (s.modSec f) = ownSettings s := rfl

theorem sendMsix_ownSettings (vec : Nat) (s : State) : ownSettings (sendMsix vec s) = ownSettings s := by
  unfold sendMsix
  split <;> rfl

theorem raiseInt_ownSettings (b vec : Nat) (s : State) : ownSettings (raiseInt b vec s) = ownSettings s := by
  unfold raiseInt
  dsimp only
  split
  · rfl
  · split
    · rfl
    · exact sendMsix_ownSettings vec _

theorem writeCompletion_ownSettings (c : CmdRef) (r : Reply) (s : State) :
    ownSettings (writeCompletion c r s) = ownSettings s := by
  have expired (s : State) : ownSettings (if r.status = St.expired then bump (ctr 0x14 0 4) s else s) = ownSettings s := by
    split <;> rfl
  unfold writeCompletion
  extract_lets ring entry addr written counted noted
  have ofNoted : ownSettings noted = ownSettings counted := by
    unfold noted
    split <;> rfl
  have ofWritten : ownSettings written = ownSettings s := by
    unfold written
    split <;> rfl
  split
  · rw [raiseInt_ownSettings]
    exact ofNoted.trans ((expired written).trans ofWritten)
  · exact expired s

theorem post_ownSettings (type : Nat) (body : List Word) (slot : Option (List Byte)) (s : State) :
    ownSettings (post type body slot s) = ownSettings s := by
  unfold post
  split <;> rfl

theorem capture_ownSettings (source detail : Nat) (s : State) : ownSettings (capture source detail s) = ownSettings s := by
  unfold capture captureAt
  split
  · split <;> rfl
  · rfl

theorem sendFault_ownSettings (r : FaultRep) (count : Nat) (s : State) : ownSettings (sendFault r count s) = ownSettings s := by
  rw [sendFault, capture_ownSettings, post_ownSettings, modSec_ownSettings]

theorem report_ownSettings (r : FaultRep) (s : State) : ownSettings (report r s) = ownSettings s := by
  unfold report
  split
  · split
    · rfl
    · dsimp only
      split
      · exact sendFault_ownSettings r 1 _
      · exact (sendFault_ownSettings r 1 _).trans (sendFault_ownSettings _ _ s)
  · exact sendFault_ownSettings r 1 _

theorem noteParity_ownSettings (half : Nat) (t : TableKind) (l : List Nat) (s : State) :
    ownSettings (noteParity half t l s) = ownSettings s := by
  refine foldl_ownSettings (fun s i => ?_) l s
  rw [report_ownSettings]
  rfl

theorem noteAdmit_ownSettings (port x : Nat) (s : State) : ownSettings (noteAdmit port x s) = ownSettings s :=
  foldl_ownSettings (fun _ _ => noteParity_ownSettings _ _ _ _) _ s

theorem police_ownSettings (port : Nat) (h : Header) (s : State) : ownSettings (police port h s).2 = ownSettings s := by
  unfold police
  dsimp only
  split
  · split
    · rfl
    · split <;> rfl
  · rfl

/-- Marking a header changes nothing of where it is addressed (R35, R39). -/
theorem toSelf_markEpoch {s t : State} (h : Header) (same : ownSettings t = ownSettings s) :
    toSelf t (markEpoch t h) = toSelf s h := by
  have id : t.hearth.endpointId = s.hearth.endpointId := congrArg Prod.fst same
  unfold toSelf markEpoch
  rw [id]
  split
  · rfl
  · rw [withEpoch_mc]
    rfl

/-! ### The judgement of a header, by its HOP_LIMIT (R36, R436) -/

/-- Only a packet whose HOP_LIMIT was not 0 is forwarded, with the header that the decrement leaves. -/
theorem judge_forwarded {port : Nat} {h : Header} {pid : Nat} {s : State} (fwd : (judge port h pid s).1.disp = .forwarded) :
    h.hopLimit ≠ 0 ∧ (judge port h pid s).1.hdr = (markEpoch (police port h (noteAdmit port h.partition s)).2 h).decHop := by
  revert fwd
  unfold judge
  dsimp only
  split
  · simp
  · split
    · simp
    · split
      · simp
      · split
        · simp
        · rw [markEpoch_hopLimit]
          split
          · simp
          · rename_i hop
            split <;> simp [hop]

section
variable {port : Nat} {h : Header} {pid : Nat} {s : State} (sound : headerDrop s h = none)
  (admitted : admits (noteAdmit port h.partition s) port h.partition = true)
  (policed : (police port h (noteAdmit port h.partition s)).1 = true)
include sound admitted policed

theorem judge_toSelf (own : toSelf s h = true) : (judge port h pid s).1.disp = .terminated := by
  have own' := (toSelf_markEpoch h ((police_ownSettings port h _).trans (noteAdmit_ownSettings port h.partition s))).trans own
  unfold judge
  simp only [sound, admitted, policed, own', Bool.not_true, Bool.false_eq_true, if_false, if_true]

theorem judge_of_hopLimit_zero (far : toSelf s h = false) (hop : h.hopLimit = 0) :
    judge port h pid s = ({ disp := .dropped, teaches := true, hdr := h, copies := [] },
      bumpIn (barnOf port) 6 (police port h (noteAdmit port h.partition s)).2) := by
  have far' := (toSelf_markEpoch h ((police_ownSettings port h _).trans (noteAdmit_ownSettings port h.partition s))).trans far
  unfold judge
  simp only [sound, admitted, policed, far', markEpoch_hopLimit, hop, Bool.not_true, Bool.false_eq_true, if_false, if_true]

end

/-! ### DEVICE_CONFIG (R371) -/

theorem deviceConfig_of_range {args : List Word} (s : State) (lo : 1 ≤ argN args 1) (hi : argN args 1 ≤ 255) :
    deviceConfig args s = cmdOk (s.modHearth fun h => { h with hopLimit := argN args 1 }) := if_neg (by omega)

theorem deviceConfig_of_outside {args : List Word} (s : State) (out : argN args 1 < 1 ∨ 255 < argN args 1) :
    deviceConfig args s = cmdRefuse St.badArgument 1 s := if_pos out

end Sys2Proof.Machine

namespace Sys2Proof.Proofs

open Sys2Proof.Machine

/-- Settles O7: the bits of W0, the judgement by HOP_LIMIT, and DEVICE_CONFIG as an accepted entry. -/
theorem hopLimit : Obligations.HopLimit := by
  unfold Obligations.HopLimit
  refine ⟨fun h _ => ⟨decHop_hopLimit h, rfl, decHop_above h⟩, ?forwarded, ?judged,
    fun s kind tc mc p _ _ _ => originW0_hopLimit s kind tc mc p, fun _ _ _ _ _ _ _ _ _ _ _ _ => rfl, ?sets, ?refuses, rfl⟩
  case forwarded =>
    intro port h pid s fwd
    obtain ⟨hop, hdr⟩ := judge_forwarded fwd
    exact ⟨hop, by rw [hdr, decHop_hopLimit, markEpoch_hopLimit]⟩
  case judged =>
    intro port h pid s a sound admitted policed
    refine ⟨judge_toSelf sound admitted policed, fun far hop => ?_⟩
    rw [judge_of_hopLimit_zero sound admitted policed far hop]
    exact ⟨rfl, rfl⟩
  case sets =>
    intro h args s i acc lo hi
    refine ⟨_, run_ok rfl acc (exec_deviceConfig h args s) (deviceConfig_of_range _ lo hi), ?_⟩
    exact congrArg Prod.snd (writeCompletion_ownSettings ..)
  case refuses =>
    intro h args s i acc out
    refine ⟨_, run_refused rfl acc (exec_deviceConfig h args s) (deviceConfig_of_outside _ out), ?_⟩
    exact (congrArg Prod.snd (writeCompletion_ownSettings ..)).trans (fetched_hearth_hopLimit i s)

end Sys2Proof.Proofs
end

section
/-! SUPPORT. What a sink does with a packet (R88, R118, R150), and a bad contribution (R53, R140). -/

namespace Sys2Proof.Machine

/-! ### The turn of a packet at its sink -/

section
variable {p : Packet} {act : State → State} {s : State}

theorem atSink_of_waiting (wait : sinkTurn p s = false) : atSink p act s = notTaken p s := by
  simp [atSink, wait]

variable (turn : sinkTurn p s = true)
include turn

theorem atSink_of_void (void : sunkVoid p s = true) : atSink p act s = dropSunk p s := by
  simp [atSink, turn, void]

theorem atSink_of_taken (sound : sunkVoid p s = false) : atSink p act s = act (releaseSink p s) := by
  simp [atSink, turn, sound]

end

/-! ### A bad contribution -/

/-- R140 answers a bad contribution with RESEND: its context is ACTIVE and of its partition, it comes from the endpoint of the member
it names, and its index lies in the window, is not complete and lacks the member. -/
def AnswersBad (x : Ctx) (h : Header) : Prop :=
  x.state = .active ∧ ctxPartition x = h.partition ∧ h.member < ctxCount x ∧ memberAt x h.member h.collEpoch = h.srcId ∧
    epochDist x h.collEpoch < 2 ∧ h.sheafNo < ctxN x ∧ x.front ≤ indexOf x (epochDist x h.collEpoch) h.sheafNo ∧
    indexOf x (epochDist x h.collEpoch) h.sheafNo < x.front + ctxDepth x ∧
    isComplete x (indexOf x (epochDist x h.collEpoch) h.sheafNo) = false ∧
    lacks x (indexOf x (epochDist x h.collEpoch) h.sheafNo) h.member = true

section
variable {reason : Nat} {h : Header} {s : State}

theorem badContribution_of_answered (answered : AnswersBad (theCtx s h.ctxId) h) : badContribution reason h s =
    sendResend h.ctxId (theCtx s h.ctxId) reason h.member h.sheafNo h.collEpoch s :=
  if_pos (by simpa only [AnswersBad, Bool.not_eq_true'] using answered)

theorem badContribution_of_unanswered (unanswered : ¬AnswersBad (theCtx s h.ctxId) h) : badContribution reason h s = s :=
  if_neg (by simpa only [AnswersBad, Bool.not_eq_true'] using unanswered)

end

/-- A contribution whose CRC-64 fails, once its sink takes it over. -/
theorem sheafArrival_of_badCrc {port : Nat} {p : Packet} {ue : Option (Option (Fin 1024))} {s : State} (gen : p.hdr.ver < 2)
    (kind : p.hdr.kind = 4) (fits : payloadFits p = true) (bad : crcOk p = false) (turn : sinkTurn p s = true)
    (sound : sunkVoid p s = false) : sheafArrival port p ue s =
      let u := releaseSink p s
      badContribution 1 p.hdr (termCrcFail port p (bumpColl 5 u (theCtx u p.hdr.ctxId) p.hdr.sheafNo)) := by
  rw [sheafArrival, if_pos ⟨gen, kind, fits⟩, atSink_of_taken turn sound]
  simp only [bad, Bool.false_eq_true, if_false]

/-- The report on a contribution names its context (R379). -/
theorem termCrcFail_of_sheaf {port : Nat} {p : Packet} {s : State} (kind : p.hdr.kind = 4) : termCrcFail port p s =
    report { faultAt 0x0201 1 (halfOf port) (barnOf port) port with partition := p.hdr.partition, ctx := some p.hdr.ctxId } s := by
  simp [termCrcFail, kind, Kind.sheaf]

end Sys2Proof.Machine

namespace Sys2Proof.Proofs

open Sys2Proof.Machine

/-- Settles O23: the sink counts and reports the contribution, and R140 decides whether its member is asked again. -/
theorem badContribution : Obligations.BadContribution := by
  unfold Obligations.BadContribution
  intro port pkt s gen kind fits bad turn sound ue h u t x d g answered
  have runs : exec (.sheafArrival port ⟨pkt, ue⟩) s = .next (Machine.badContribution 1 h t) :=
    next_congr ((sheafArrival_of_badCrc gen kind fits bad turn sound).trans
      (congrArg (Machine.badContribution 1 h) (termCrcFail_of_sheaf kind)))
  exact ⟨fun yes => runs.trans (next_congr (badContribution_of_answered yes)),
    fun no => runs.trans (next_congr (badContribution_of_unanswered no))⟩

end Sys2Proof.Proofs
end

section
/-! SUPPORT. The packets that the device terminates (R43, R49, R53 to R58, R438): which a row takes, and what their sink does with
each. -/

namespace Sys2Proof.Machine

/-! ### Which packets a row takes (R58) -/

/-- The rows of terminated packets look only at packets of versions 0 and 1, not multicast, with the length their header says. -/
structure Terminates (p : Packet) : Prop where
  gen : p.hdr.ver < 2
  single : p.hdr.mc = false
  fits : payloadFits p = true

theorem not_terminates {p : Packet} (h : 2 ≤ p.hdr.ver ∨ p.hdr.mc = true ∨ payloadFits p = false) : ¬Terminates p := by
  rintro ⟨gen, single, fits⟩
  simp [single, fits] at h
  omega

/-- The check that TERM_WRITE, TERM_READ and CONTROL_PKT make, each for its kind. -/
theorem takes_iff (p : Packet) (k : Nat) :
    (p.hdr.ver < 2 ∧ p.hdr.kind = k ∧ (!p.hdr.mc) = true ∧ payloadFits p = true) ↔ Terminates p ∧ p.hdr.kind = k := by
  rw [Bool.not_eq_true']
  exact ⟨fun ⟨gen, kind, single, fits⟩ => ⟨⟨gen, single, fits⟩, kind⟩,
    fun ⟨⟨gen, single, fits⟩, kind⟩ => ⟨gen, kind, single, fits⟩⟩

theorem takesUnexpected_iff (p : Packet) (s : State) :
    (p.hdr.ver < 2 ∧ (!p.hdr.mc) = true ∧ payloadFits p = true ∧ answersNothing s p.hdr = true) ↔
      Terminates p ∧ answersNothing s p.hdr = true := by
  rw [Bool.not_eq_true']
  exact ⟨fun ⟨gen, single, fits, stray⟩ => ⟨⟨gen, single, fits⟩, stray⟩,
    fun ⟨⟨gen, single, fits⟩, stray⟩ => ⟨gen, single, fits, stray⟩⟩

/-- What CONTROL_PKT does once its sink takes the packet. -/
def controlTaken (p : Packet) (port : Nat) (s : State) : State :=
  if crcOk p then post 0x03 (packetBody p.hdr p.hdr.pktBytes) (some p.wire) s else termCrcFail port p s

/-- What TERM_UNEXPECTED does once its sink takes the packet. -/
def unexpectedTaken (p : Packet) (port : Nat) (s : State) : State :=
  if crcOk p then bumpIn (barnOf port) 32 s else termCrcFail port p s

section
variable {port : Nat} {p : Packet} {ue : Bool} {s : State}

theorem termWrite_of_other (h : ¬(Terminates p ∧ p.hdr.kind = 0)) : termWrite port p s = s :=
  if_neg fun c => h ((takes_iff p 0).mp c)

theorem termRead_of_other (h : ¬(Terminates p ∧ p.hdr.kind = 2)) : termRead port p ue s = s :=
  if_neg fun c => h ((takes_iff p 2).mp c)

theorem controlPkt_of_other (h : ¬(Terminates p ∧ p.hdr.kind = 6)) : controlPkt port p s = s :=
  if_neg fun c => h ((takes_iff p 6).mp c)

theorem termUnexpected_of_other (h : ¬(Terminates p ∧ answersNothing s p.hdr = true)) : termUnexpected port p s = s :=
  if_neg fun c => h ((takesUnexpected_iff p s).mp c)

variable (h : Terminates p)
include h

theorem termWrite_of_kind (kind : p.hdr.kind = 0) : termWrite port p s = atSink p (writeTaken port p) s :=
  if_pos ((takes_iff p 0).mpr ⟨h, kind⟩)

theorem termRead_of_kind (kind : p.hdr.kind = 2) : termRead port p ue s = atSink p (readTaken port p ue (sunkTime p s)) s :=
  if_pos ((takes_iff p 2).mpr ⟨h, kind⟩)

theorem controlPkt_of_kind (kind : p.hdr.kind = 6) : controlPkt port p s = atSink p (controlTaken p port) s :=
  if_pos ((takes_iff p 6).mpr ⟨h, kind⟩)

theorem termUnexpected_of_answersNothing (stray : answersNothing s p.hdr = true) :
    termUnexpected port p s = atSink p (unexpectedTaken p port) s :=
  if_pos ((takesUnexpected_iff p s).mpr ⟨h, stray⟩)

end

/-- Where the sink does the same whatever the row's own work is, each of the four rows does that with a packet of its kind. -/
theorem terminated_rows {p : Packet} (h : Terminates p) (port : Nat) (s : State) {t : State}
    (sunk : ∀ act : State → State, atSink p act s = t) :
    (p.hdr.kind = 0 → termWrite port p s = t) ∧ (∀ ue, p.hdr.kind = 2 → termRead port p ue s = t) ∧
    (p.hdr.kind = 6 → controlPkt port p s = t) ∧ (answersNothing s p.hdr = true → termUnexpected port p s = t) :=
  ⟨fun kind => (termWrite_of_kind h kind).trans (sunk _), fun _ kind => (termRead_of_kind h kind).trans (sunk _),
    fun kind => (controlPkt_of_kind h kind).trans (sunk _), fun stray => (termUnexpected_of_answersNothing h stray).trans (sunk _)⟩

/-! ### A WRITE taken (R43, R54, R55) -/

theorem writeDone_of_quiet {b : Nat} {h : Header} {st : Nat} {s : State} (quiet : h.ackReq = false) : writeDone b h st s = s := by
  simp [writeDone, quiet]

section
variable {port : Nat} {p : Packet} {s : State}

theorem writeTaken_of_badCrc (bad : crcOk p = false) :
    writeTaken port p s = writeDone (sinkFor s p.hdr).1 p.hdr 1 (termCrcFail port p s) := by
  simp [writeTaken, bad, Ans.nakCheck]

variable (good : crcOk p = true)
include good

theorem writeTaken_of_granted (granary : p.hdr.remoteAddr < granarySize)
    (ok : granaryCheck s p.hdr.partition p.hdr.remoteAddr (16 * p.hdr.len) true = 0) :
    writeTaken port p s = writeDone (sinkFor s p.hdr).1 p.hdr 0
      (cacheRange p.hdr.hint p.hdr.remoteAddr (16 * p.hdr.len) true (daWrite p.hdr.remoteAddr p.payload s)) := by
  simp [writeTaken, good, granary, ok, Ans.ok]

theorem writeTaken_of_refused (granary : p.hdr.remoteAddr < granarySize)
    (no : granaryCheck s p.hdr.partition p.hdr.remoteAddr (16 * p.hdr.len) true ≠ 0) :
    writeTaken port p s = writeDone (sinkFor s p.hdr).1 p.hdr
      (granaryCheck s p.hdr.partition p.hdr.remoteAddr (16 * p.hdr.len) true) s := by
  simp [writeTaken, good, granary, no, Ans.ok]

theorem writeTaken_of_elsewhere (beyond : granarySize ≤ p.hdr.remoteAddr) :
    writeTaken port p s = writeDone (sinkFor s p.hdr).1 p.hdr (if p.hdr.remoteAddr / 2 ^ 56 = 1 then 2 else 3) s := by
  have outside : ¬p.hdr.remoteAddr < granarySize := by omega
  rw [writeTaken]
  simp only [good, Bool.not_true, Bool.false_eq_true, if_false, outside]
  rfl

end

/-! ### A READ taken (R43, R54 to R56, R151, R377) -/

/-- Context space lies beyond the Granary (R45, R54). -/
theorem outside_of_context {a : Nat} (ctx : a / 2 ^ 56 = 1) : ¬a < granarySize := by
  unfold granarySize
  omega

section
variable {port : Nat} {p : Packet} {ue : Bool} {instant : Nat} {s : State}

theorem readTaken_of_badCrc (bad : crcOk p = false) : readTaken port p ue instant s = termCrcFail port p s := by
  simp [readTaken, bad]

variable (good : crcOk p = true)
include good

theorem readTaken_of_empty (empty : p.hdr.len = 0) :
    readTaken port p ue instant s = readData (sinkFor s p.hdr).1 p.hdr 3 [] s := by
  simp [readTaken, good, empty, Ans.refusedRange]

variable (asked : p.hdr.len ≠ 0)
include asked

theorem readTaken_of_elsewhere (beyond : granarySize ≤ p.hdr.remoteAddr) (notCtx : p.hdr.remoteAddr / 2 ^ 56 ≠ 1) :
    readTaken port p ue instant s = readData (sinkFor s p.hdr).1 p.hdr 3 [] s := by
  have outside : ¬p.hdr.remoteAddr < granarySize := by omega
  simp only [readTaken, good, asked, outside, notCtx, Bool.not_true, Bool.false_eq_true, if_false, Ans.refusedRange]

section
variable (granary : p.hdr.remoteAddr < granarySize)
include granary

theorem readTaken_of_refused (no : granaryCheck s p.hdr.partition p.hdr.remoteAddr (16 * p.hdr.len) false ≠ 0) :
    readTaken port p ue instant s = readData (sinkFor s p.hdr).1 p.hdr
      (granaryCheck s p.hdr.partition p.hdr.remoteAddr (16 * p.hdr.len) false) [] s := by
  simp [readTaken, good, asked, granary, no, Ans.ok]

variable (ok : granaryCheck s p.hdr.partition p.hdr.remoteAddr (16 * p.hdr.len) false = 0)
include ok

theorem readTaken_of_uncorrectable :
    readTaken port p true instant s = readData (sinkFor s p.hdr).1 p.hdr 1 [] (memUE p.hdr.remoteAddr p.hdr.partition none s) := by
  simp [readTaken, good, asked, granary, ok, Ans.ok, Ans.nakCheck]

theorem readTaken_of_granted :
    readTaken port p false instant s = readData (sinkFor s p.hdr).1 p.hdr 0 (daRead s p.hdr.remoteAddr (16 * p.hdr.len))
      (cacheRange p.hdr.hint p.hdr.remoteAddr (16 * p.hdr.len) false s) := by
  simp [readTaken, good, asked, granary, ok, Ans.ok]

end

section
variable (ctx : p.hdr.remoteAddr / 2 ^ 56 = 1)
include ctx

theorem readTaken_of_contextRefused {st : Nat} (no : ctxReadCheck s instant p.hdr = (st, none)) :
    readTaken port p ue instant s = readData (sinkFor s p.hdr).1 p.hdr st [] s := by
  simp only [readTaken, good, asked, outside_of_context ctx, ctx, no, Bool.not_true, Bool.false_eq_true, if_false, if_true]

variable {st : Nat} {r : Retained} (kept : ctxReadCheck s instant p.hdr = (st, some r))
include kept

theorem readTaken_of_contextRead :
    readTaken port p false instant s = readData (sinkFor s p.hdr).1 p.hdr st r.payload s := by
  simp only [readTaken, good, asked, outside_of_context ctx, ctx, kept, Bool.not_true, Bool.false_eq_true, if_false, if_true]

theorem readTaken_of_contextUncorrectable :
    readTaken port p true instant s = recallRun (p.hdr.remoteAddr / 2 ^ 44 % 4096) 1 { first := r.index, log := 0, count := 1 }
      (readData (sinkFor s p.hdr).1 p.hdr 1 [] s) := by
  simp only [readTaken, good, asked, outside_of_context ctx, ctx, kept, Bool.not_true, Bool.false_eq_true, if_false, if_true]
  rfl

end

end

/-! ### The checks of an access to the Granary (R55) -/

section
variable {s : State} {partition a n : Nat} {wr : Bool}

theorem granaryCheck_of_misshapen (h : n = 0 ∨ a % 16 ≠ 0) : granaryCheck s partition a n wr = 3 := if_pos h

variable (size : n ≠ 0) (aligned : a % 16 = 0)
include size aligned

theorem granaryCheck_of_noWindow (h : windowAt s a = none) : granaryCheck s partition a n wr = 2 := by
  simp [granaryCheck, size, aligned, h, Ans.refusedPermission]

theorem granaryCheck_of_window {k : Nat} {w : Window} (h : windowAt s a = some (k, w)) :
    granaryCheck s partition a n wr = if w.partition ≠ partition ∨ (if wr then w.wr else w.rd) = false then 2
      else if w.base + w.size < a + n then 3 else 0 := by
  simp only [granaryCheck, size, aligned, h, ne_eq, not_true, or_self, if_false]
  rfl

end

end Sys2Proof.Machine

namespace Sys2Proof.Proofs

open Sys2Proof.Machine

/-- Settles O57: which packets the rows take, the turn at the sink, and what a WRITE, a READ, a CONTROL packet and a stray one do. -/
theorem terminatedPackets : Obligations.TerminatedPackets := by
  unfold Obligations.TerminatedPackets
  refine ⟨?ignored, ?waiting, ?voided, ?taken, ?check, rfl, fun _ _ _ _ quiet => writeDone_of_quiet quiet,
    fun m a bytes k => tget_memWrite_any bytes m a k⟩
  case ignored =>
    intro port p s
    refine ⟨fun h => ?_, fun h => ?_, fun ue h => ?_, fun h => ?_, fun h => ?_⟩
    · have no := not_terminates h
      exact ⟨next_congr (termWrite_of_other (no ·.1)), fun ue => next_congr (termRead_of_other (no ·.1)),
        next_congr (controlPkt_of_other (no ·.1)), next_congr (termUnexpected_of_other (no ·.1))⟩
    · exact next_congr (termWrite_of_other (h ·.2))
    · exact next_congr (termRead_of_other (h ·.2))
    · exact next_congr (controlPkt_of_other (h ·.2))
    · exact next_congr (termUnexpected_of_other fun c => by simp [h] at c)
  case waiting =>
    intro port p s gen single fits wait
    obtain ⟨write, read, control, stray⟩ := terminated_rows ⟨gen, single, fits⟩ port s fun _ => atSink_of_waiting wait
    exact ⟨fun k => next_congr (write k), fun ue k => next_congr (read ue k), fun k => next_congr (control k),
      fun k => next_congr (stray k)⟩
  case voided =>
    intro port p s gen single fits turn void
    obtain ⟨write, read, control, stray⟩ := terminated_rows ⟨gen, single, fits⟩ port s fun _ => atSink_of_void turn void
    exact ⟨fun k => next_congr (write k), fun ue k => next_congr (read ue k), fun k => next_congr (control k),
      fun k => next_congr (stray k)⟩
  case taken =>
    intro port p s gen single fits turn sound h t b a n st rd bad
    have takes : Terminates p := ⟨gen, single, fits⟩
    have sinks (act : State → State) : atSink p act s = act t := atSink_of_taken turn sound
    have write (kind : h.kind = 0) {u : State} (e : writeTaken port p t = u) : exec (.termWrite port p) s = .next u :=
      next_congr ((termWrite_of_kind takes kind).trans ((sinks _).trans e))
    have read (kind : h.kind = 2) {ue : Bool} {u : State} (e : readTaken port p ue (sunkTime p s) t = u) :
        exec (.termRead port p ue) s = .next u :=
      next_congr ((termRead_of_kind takes kind).trans ((sinks _).trans e))
    refine ⟨fun k crc => write k (writeTaken_of_badCrc crc), fun k crc granary => ⟨fun ok => ?_, fun no => ?_⟩,
      fun k crc beyond => write k (writeTaken_of_elsewhere crc beyond), fun k crc ue => read k (readTaken_of_badCrc crc),
      fun k crc empty ue => read k (readTaken_of_empty crc empty), fun k crc asked granary => ⟨fun no ue => ?_, fun ok => ⟨?_, ?_⟩⟩,
      fun k crc asked ctx => ⟨fun u ue no => ?_, fun u r kept => ⟨?_, ?_⟩⟩,
      fun k crc asked beyond notCtx ue => read k (readTaken_of_elsewhere crc asked beyond notCtx),
      fun k => next_congr ((controlPkt_of_kind takes k).trans (sinks _)),
      fun stray => next_congr ((termUnexpected_of_answersNothing takes stray).trans (sinks _))⟩
    · exact write k (writeTaken_of_granted crc granary ok)
    · exact write k (writeTaken_of_refused crc granary no)
    · exact read k (readTaken_of_refused crc asked granary no)
    · exact read k (readTaken_of_uncorrectable crc asked granary ok)
    · exact read k (readTaken_of_granted crc asked granary ok)
    · exact read k (readTaken_of_contextRefused crc asked ctx no)
    · exact read k (readTaken_of_contextRead crc asked ctx kept)
    · exact read k (readTaken_of_contextUncorrectable crc asked ctx kept)
  case check =>
    intro s partition a n wr
    exact ⟨granaryCheck_of_misshapen, granaryCheck_of_noWindow, fun k w size aligned => granaryCheck_of_window size aligned⟩

end Sys2Proof.Proofs
end

section
/-! SUPPORT. The header that the record of a dropped packet keeps (R35, R36, R436). -/

namespace Sys2Proof.Machine

/-! ### A packet to be forwarded that arrives with HOP_LIMIT 0 and unmarked -/

/-- The device with its first half ready, and port 8 up on lane 8. -/
def openPort : State :=
  { State.reset with
    power := { State.reset.power with ready0 := true },
    link := { State.reset.link with ports := [(8, { configured := true, width := 1, up := true })] } }

/-- A WRITE of version 1 in partition 0 to the ID 0x000009 with LEN 1, HOP_LIMIT 0 and EPOCH_SET 0. -/
def spentHeader : Header := ⟨pack [(30, 1)], pack [(8, 9)], pack [(8, 7)], pack [(23, 1)], 0, 0, 0, 0⟩

/-- The record that PACKET_HEADER_RX opens for that packet. -/
def spentRecord : RxPkt :=
  { hdr := none, bytes := spentHeader.bytes, ended := false, disp := .unknown, counted := false, pid := 0, copies := [],
    tIn := openPort.time.now, parse := 0 }

/-- The header that the first record of a lane holds after a step. -/
def recordedHeader (lane : Nat) : Host.Outcome State Fault Refusal → Option Header
  | .next t => (laneLink t lane).rx.head?.bind RxPkt.hdr
  | _ => none

theorem openPort_takes : portOfLane openPort 8 = some 8 ∧ openRecord openPort 8 spentHeader = some spentRecord ∧
    isTime spentHeader = false ∧ takesPackets openPort 8 8 = true := by decide +kernel

/-- The header passes R59, admission and the policer, and is to be forwarded with HOP_LIMIT 0. -/
theorem spentHeader_passes :
    let a := noteAdmit 8 spentHeader.partition (newPid (markParity (halfOf 8) [] openPort))
    headerDrop openPort spentHeader = none ∧ admits a 8 spentHeader.partition = true ∧ (police 8 spentHeader a).1 = true ∧
      toSelf openPort spentHeader = false ∧ spentHeader.hopLimit = 0 := by decide +kernel

/-- The record of the dropped packet holds the header as it arrived. -/
theorem recordedHeader_packetHeaderRx :
    recordedHeader 8 (exec (.packetHeaderRx 8 ⟨spentHeader, []⟩) openPort) = some spentHeader := by decide +kernel

/-- An unmarked header is not the same once it is marked (R35). -/
theorem markEpoch_spentHeader : markEpoch openPort spentHeader ≠ spentHeader := by decide +kernel

end Sys2Proof.Machine

namespace Sys2Proof.Proofs

open Sys2Proof.Machine

/-- Refutes O55: the statement has the record of a packet dropped with HOP_LIMIT 0 keep the header marked with its epoch; the model
keeps the header as it arrived, and the two differ where EPOCH_SET is 0. The drop and its count are as stated, and nothing
reads more of that header than that it is there, so the statement says too much of a record of the model's own (log entry 47). -/
theorem not_packetHeaders : ¬ Obligations.PacketHeaders := by
  unfold Obligations.PacketHeaders
  rintro ⟨-, judged, -⟩
  obtain ⟨port, record, notTime, takes⟩ := openPort_takes
  obtain ⟨sound, admitted, policed, far, spent⟩ := spentHeader_passes
  obtain ⟨-, -, passed⟩ := judged 8 spentHeader [] openPort 8 spentRecord port record notTime takes
  obtain ⟨-, -, -, expired, -⟩ := passed sound admitted
  have claimed := congrArg (recordedHeader 8) (expired policed far spent)
  have marked : recordedHeader 8 (exec (.packetHeaderRx 8 ⟨spentHeader, []⟩) openPort) = some (markEpoch openPort spentHeader) :=
    claimed.trans (by decide +kernel)
  exact markEpoch_spentHeader (Option.some.inj (marked.symm.trans recordedHeader_packetHeaderRx))

end Sys2Proof.Proofs
end

section
/-! SUPPORT. ROUTE_WRITE (R64, R65, R68, R85): the images that a command takes from host memory, and what their installing changes of
the two versions. -/

namespace Sys2Proof.Machine

/-! ### After the fetch of an entry -/

@[simp] theorem fetched_idleVersion (i : Instr) (s : State) : idleVersion (fetched i s) = idleVersion s := by
  simp only [idleVersion, fetched_routing]
@[simp] theorem fetched_explOf (i : Instr) (s : State) (v : Version) : explOf (fetched i s) v = explOf s v := by
  simp only [explOf, fetched_routing]
@[simp] theorem fetched_podsOf (i : Instr) (s : State) (v : Version) : podsOf (fetched i s) v = podsOf s v := by
  simp only [podsOf, fetched_routing]

/-! ### Images in host memory -/

theorem length_hostNums (s : State) (k a n : Nat) : (hostNums s k a n).length = n := by
  rw [hostNums, List.length_map, List.length_range]

theorem getD_map_hostNums {α : Type} (f : Nat → α) (d : α) (s : State) (k a : Nat) {j n : Nat} (h : j < n) :
    ((hostNums s k a n).map f).getD j d = f (ofLe (hostRead s (a + k * j) k)) := by
  simp [hostNums, List.getD_eq_getElem?_getD, h]

theorem forall_mem_map_hostNums {α : Type} {f : Nat → α} {p : α → Prop} {s : State} {k a n : Nat} :
    (∀ e ∈ (hostNums s k a n).map f, p e) ↔ ∀ j < n, p (f (ofLe (hostRead s (a + k * j) k))) := by
  simp [hostNums]

/-- What a table reads after the images of a command are written to consecutive entries. -/
theorem tget_putAll_hostNums {α : Type} [DecidableEq α] (f : Nat → α) (d : α) (s : State) (k a first n : Nat) (t : Tab α) (j : Nat) :
    tget (putAll d first ((hostNums s k a n).map f) t) d j =
      if first ≤ j ∧ j < first + n then f (ofLe (hostRead s (a + k * (j - first)) k)) else tget t d j := by
  rw [tget_putAll, List.length_map, length_hostNums]
  split
  · exact getD_map_hostNums f d s k a (by omega)
  · rfl

/-! ### The versions -/

theorem Version.other_ne (v : Version) : v.other ≠ v := by cases v <;> decide

theorem active_ne_idleVersion (s : State) : s.routing.active ≠ idleVersion s := (Version.other_ne _).symm

theorem explOf_modExpl_same (v : Version) (f : Tab Explicit → Tab Explicit) (s : State) :
    explOf (modExpl v f s) v = f (explOf s v) := by cases v <;> rfl
theorem explOf_modExpl_other {v w : Version} (h : w ≠ v) (f : Tab Explicit → Tab Explicit) (s : State) :
    explOf (modExpl v f s) w = explOf s w :=
  match v, w with
  | .a, .b | .b, .a => rfl
  | .a, .a | .b, .b => absurd rfl h
theorem podsOf_modExpl (v w : Version) (f : Tab Explicit → Tab Explicit) (s : State) :
    podsOf (modExpl v f s) w = podsOf s w := by cases v <;> rfl
theorem modExpl_eq (v : Version) (f : Tab Explicit → Tab Explicit) (s : State) :
    modExpl v f s = { s with routing := { s.routing with
      explA := (modExpl v f s).routing.explA, explB := (modExpl v f s).routing.explB } } := by cases v <;> rfl

theorem podsOf_modPods_same (v : Version) (f : Tab Pod → Tab Pod) (s : State) :
    podsOf (modPods v f s) v = f (podsOf s v) := by cases v <;> rfl
theorem podsOf_modPods_other {v w : Version} (h : w ≠ v) (f : Tab Pod → Tab Pod) (s : State) :
    podsOf (modPods v f s) w = podsOf s w :=
  match v, w with
  | .a, .b | .b, .a => rfl
  | .a, .a | .b, .b => absurd rfl h
theorem explOf_modPods (v w : Version) (f : Tab Pod → Tab Pod) (s : State) :
    explOf (modPods v f s) w = explOf s w := by cases v <;> rfl
theorem modPods_eq (v : Version) (f : Tab Pod → Tab Pod) (s : State) :
    modPods v f s = { s with routing := { s.routing with
      podA := (modPods v f s).routing.podA, podB := (modPods v f s).routing.podB } } := by cases v <;> rfl

@[simp] theorem explOf_clearParity (t : TableKind) (hit : Nat → Bool) (s : State) (v : Version) :
    explOf (clearParity t hit s) v = explOf s v := rfl
@[simp] theorem podsOf_clearParity (t : TableKind) (hit : Nat → Bool) (s : State) (v : Version) :
    podsOf (clearParity t hit s) v = podsOf s v := rfl

/-! ### ROUTE_WRITE -/

/-- The explicit form of ROUTE_WRITE: the images stand in the version that is not active, and their parity marks are gone. -/
def installExpl (args : List Word) (s : State) : State :=
  clearParity (explKind (idleVersion s)) (inRange (argN args 2) (argN args 3))
    (modExpl (idleVersion s) (putAll {} (argN args 2) ((hostNums s 8 (arg64 args 4) (argN args 3)).map explicitOf)) s)

/-- The pod form of ROUTE_WRITE. -/
def installPods (args : List Word) (s : State) : State :=
  clearParity (podKind (idleVersion s)) (inRange (argN args 2) (argN args 3))
    (modPods (idleVersion s) (putAll {} (argN args 2) ((hostNums s 4 (arg64 args 4) (argN args 3)).map podOfImg)) s)

theorem installExpl_eq (args : List Word) (s : State) : installExpl args s = { s with routing := { s.routing with
    explA := (installExpl args s).routing.explA, explB := (installExpl args s).routing.explB,
    parity := (installExpl args s).routing.parity } } := by
  rw [installExpl, modExpl_eq]
  rfl

theorem installPods_eq (args : List Word) (s : State) : installPods args s = { s with routing := { s.routing with
    podA := (installPods args s).routing.podA, podB := (installPods args s).routing.podB,
    parity := (installPods args s).routing.parity } } := by
  rw [installPods, modPods_eq]
  rfl

theorem tget_explOf_installExpl (args : List Word) (s : State) (j : Nat) :
    tget (explOf (installExpl args s) (idleVersion s)) {} j =
      if argN args 2 ≤ j ∧ j < argN args 2 + argN args 3 then
        explicitOf (ofLe (hostRead s (arg64 args 4 + 8 * (j - argN args 2)) 8))
      else tget (explOf s (idleVersion s)) {} j := by
  rw [installExpl, explOf_clearParity, explOf_modExpl_same, tget_putAll_hostNums]

theorem tget_podsOf_installPods (args : List Word) (s : State) (j : Nat) :
    tget (podsOf (installPods args s) (idleVersion s)) {} j =
      if argN args 2 ≤ j ∧ j < argN args 2 + argN args 3 then
        podOfImg (ofLe (hostRead s (arg64 args 4 + 4 * (j - argN args 2)) 4))
      else tget (podsOf s (idleVersion s)) {} j := by
  rw [installPods, podsOf_clearParity, podsOf_modPods_same, tget_putAll_hostNums]

theorem podsOf_installExpl (args : List Word) (s : State) (v : Version) : podsOf (installExpl args s) v = podsOf s v := by
  rw [installExpl, podsOf_clearParity, podsOf_modExpl]
theorem explOf_installPods (args : List Word) (s : State) (v : Version) : explOf (installPods args s) v = explOf s v := by
  rw [installPods, explOf_clearParity, explOf_modPods]
theorem explOf_installExpl_active (args : List Word) (s : State) :
    explOf (installExpl args s) s.routing.active = explOf s s.routing.active := by
  rw [installExpl, explOf_clearParity, explOf_modExpl_other (active_ne_idleVersion s)]
theorem podsOf_installPods_active (args : List Word) (s : State) :
    podsOf (installPods args s) s.routing.active = podsOf s s.routing.active := by
  rw [installPods, podsOf_clearParity, podsOf_modPods_other (active_ne_idleVersion s)]

section
variable {args : List Word} {s : State} (c : CmdRef)

theorem routeWrite_of_sealed (h : nonActiveNow s = .sealedV) : routeWrite c args s = cmdRefuse St.tableSealed 0 s := by
  simp only [routeWrite, h]

theorem routeWrite_of_draining (h : nonActiveNow s = .draining) : routeWrite c args s = cmdRefuse St.tableDraining 0 s := by
  simp only [routeWrite, h]

variable (opened : nonActiveNow s = .opened)
include opened

theorem routeWrite_of_explicit (form : argN args 1 = 0) (low : argN args 2 < 65536) (nonempty : 1 ≤ argN args 3)
    (fits : argN args 2 + argN args 3 ≤ 65536)
    (ok : ∀ e ∈ (hostNums s 8 (arg64 args 4) (argN args 3)).map explicitOf, explicitOk e = true) :
    routeWrite c args s = cmdDetach c (installExpl args s) := by
  simp only [routeWrite, opened, form, if_true]
  rw [if_neg (by omega), if_neg (by omega), if_neg (by omega), if_pos (List.all_eq_true.mpr ok)]
  rfl

theorem routeWrite_of_pods (form : argN args 1 = 1) (low : argN args 2 < 256) (nonempty : 1 ≤ argN args 3)
    (fits : argN args 2 + argN args 3 ≤ 256)
    (ok : ∀ d ∈ (hostNums s 4 (arg64 args 4) (argN args 3)).map podOfImg, podOk d = true) :
    routeWrite c args s = cmdDetach c (installPods args s) := by
  simp only [routeWrite, opened, form, Nat.one_ne_zero, if_false]
  rw [if_neg (by omega), if_neg (by omega), if_neg (by omega), if_pos (List.all_eq_true.mpr ok)]
  rfl

end

end Sys2Proof.Machine

namespace Sys2Proof.Proofs

open Sys2Proof.Machine

/-- Settles O9: ROUTE_WRITE detaches with its images installed, and what the installing of either form leaves is the lemma about it. -/
theorem routeWriteInstallsImages : Obligations.RouteWriteInstallsImages := by
  unfold Obligations.RouteWriteInstallsImages
  refine ⟨?explicit, ?pods⟩
  case explicit =>
    intro h args s i acc opened form low nonempty fits ok
    have runs := run_detached rfl acc (exec_routeWrite h args s)
      (routeWrite_of_explicit _ opened form low nonempty fits (forall_mem_map_hostNums.mpr ok))
    have installed := tget_explOf_installExpl args (fetched i s)
    have pods := podsOf_installExpl args (fetched i s)
    have active := explOf_installExpl_active args (fetched i s)
    have frame := installExpl_eq args (fetched i s)
    simp only [fetched_idleVersion, fetched_explOf, fetched_podsOf, fetched_routing] at installed pods active frame
    exact ⟨_, runs, installed, pods _, active, pods _, frame⟩
  case pods =>
    intro h args s i acc opened form low nonempty fits ok
    have runs := run_detached rfl acc (exec_routeWrite h args s)
      (routeWrite_of_pods _ opened form low nonempty fits (forall_mem_map_hostNums.mpr ok))
    have installed := tget_podsOf_installPods args (fetched i s)
    have expl := explOf_installPods args (fetched i s)
    have active := podsOf_installPods_active args (fetched i s)
    have frame := installPods_eq args (fetched i s)
    simp only [fetched_idleVersion, fetched_explOf, fetched_podsOf, fetched_routing] at installed expl active frame
    exact ⟨_, runs, installed, expl _, expl _, active, frame⟩

end Sys2Proof.Proofs
end

section
/-! SUPPORT. The route versions (R68 to R72, R85): each refusal of their commands, and what sealing, unsealing, a flip and ROUTE_CONFIG
do. -/

namespace Sys2Proof.Machine

/-! ### Counters and captures -/

/-- Counting at a counter changes only it. -/
theorem counter_bumpBy (id n c : Nat) (s : State) :
    counter (bumpBy id n s) c = if id = c then counter s id + BitVec.ofNat 64 n else counter s c :=
  tget_tmod s.count.counters 0 id c fun v => v + BitVec.ofNat 64 n

theorem counter_bump (id c : Nat) (s : State) : counter (bump id s) c = if id = c then counter s id + 1 else counter s c :=
  counter_bumpBy id 1 c s

theorem counter_bumpBy_same (id n : Nat) (s : State) : counter (bumpBy id n s) id = counter s id + BitVec.ofNat 64 n := by
  rw [counter_bumpBy, if_pos rfl]

theorem counter_bumpBy_other {id c : Nat} (n : Nat) (s : State) (h : c ≠ id) : counter (bumpBy id n s) c = counter s c := by
  rw [counter_bumpBy, if_neg h.symm]

@[simp] theorem counter_modRouting (f : Routing → Routing) (s : State) (c : Nat) : counter (s.modRouting f) c = counter s c := rfl

/-- A capture changes only the store, the sources that have lost one, and the count of those. -/
theorem captureAt_eq (source detail stamp : Nat) (s : State) : captureAt source detail stamp s = { s with
    time := { s.time with store := (captureAt source detail stamp s).time.store,
                          lostSrc := (captureAt source detail stamp s).time.lostSrc },
    count := (captureAt source detail stamp s).count } := by
  unfold captureAt
  split
  · split <;> rfl
  · rfl

theorem captureAt_store {source : Nat} (detail stamp : Nat) {s : State} (on : s.time.captureMask.getLsbD source = true)
    (room : s.time.store.length < 4096) : (captureAt source detail stamp s).time.store =
      s.time.store ++ [⟨source, s.time.lostSrc.contains source, detail, stamp⟩] := by
  rw [captureAt, if_pos on, if_pos room]
  rfl

/-- Of the counters a capture changes only that of the records lost of its source. -/
theorem counter_captureAt {source c : Nat} (detail stamp : Nat) (s : State) (h : c ≠ ctr 0x13 0 source) :
    counter (captureAt source detail stamp s) c = counter s c := by
  unfold captureAt
  split
  · split
    · rfl
    · exact counter_bumpBy_other 1 _ h
  · rfl

/-! ### ROUTE_SEAL (R68, R72) -/

@[simp] theorem fetched_versionCrc (i : Instr) (s : State) (v : Version) : versionCrc (fetched i s) v = versionCrc s v := by
  simp only [versionCrc, fetched_explOf, fetched_podsOf]

/-- The writes of the version that are still pending end, and it is frozen. -/
def sealVersion (s : State) : State := (endAll 0x0301 s).modRouting fun r => { r with nonActive := .sealedV }

section
variable {s : State}

theorem routeSeal_of_opened (h : nonActiveNow s = .opened) :
    routeSeal s = cmdOkWith [w32 (versionCrc s (idleVersion s))] (sealVersion s) := by
  simp only [routeSeal, h, sealVersion]

theorem routeSeal_of_sealed (h : nonActiveNow s = .sealedV) : routeSeal s = cmdRefuse St.tableSealed 0 s := by
  simp only [routeSeal, h]

theorem routeSeal_of_draining (h : nonActiveNow s = .draining) : routeSeal s = cmdRefuse St.tableDraining 0 s := by
  simp only [routeSeal, h]

/-! ### ROUTE_UNSEAL and ROUTE_COMMIT (R68 to R71) -/

@[simp] theorem fetched_commitArmed (i : Instr) (s : State) : commitArmed (fetched i s) = commitArmed s := by
  simp only [commitArmed, fetched_kindle]

theorem routeUnseal_of_armed (h : commitArmed s = true) : routeUnseal s = cmdRefuse St.busy 0 s := if_pos h

theorem routeCommit_of_armed (h : commitArmed s = true) : routeCommit s = cmdRefuse St.busy 0 s := if_pos h

section
variable (unarmed : commitArmed s = false)
include unarmed

theorem routeUnseal_of_sealed (h : nonActiveNow s = .sealedV) :
    routeUnseal s = cmdOk (s.modRouting fun r => { r with nonActive := .opened }) := by
  rw [routeUnseal, if_neg (by simp [unarmed]), if_pos h]

theorem routeUnseal_of_notSealed (h : nonActiveNow s ≠ .sealedV) : routeUnseal s = cmdRefuse St.tableNotSealed 0 s := by
  rw [routeUnseal, if_neg (by simp [unarmed]), if_neg h]

theorem routeCommit_of_sealed (h : nonActiveNow s = .sealedV) :
    routeCommit s = cmdOkWith (timeWords s.time.now) (flip s.time.now s) := by
  rw [routeCommit, if_neg (by simp [unarmed]), if_pos h]

theorem routeCommit_of_notSealed (h : nonActiveNow s ≠ .sealedV) : routeCommit s = cmdRefuse St.tableNotSealed 0 s := by
  rw [routeCommit, if_neg (by simp [unarmed]), if_neg h]

end

end

/-! ### A flip (R69, R70) -/

section
variable (tf : Nat) (s : State)

theorem flip_eq : flip tf s = { s with
    routing := (flip tf s).routing, count := (flip tf s).count,
    time := { s.time with store := (flip tf s).time.store, lostSrc := (flip tf s).time.lostSrc } } := by
  rw [flip, captureAt_eq]
  rfl

theorem flip_routing : (flip tf s).routing = { s.routing with
    active := s.routing.active.other, nonActive := .draining, drainEnd := tf + s.routing.drainUs * 256000 } :=
  (captureAt_tells ..).routing

/-- ROUTE_FLIP is counted once in either half. -/
theorem counter_flip {half : Nat} (h : half < 2) : counter (flip tf s) (ctr 0x0B half 9) = counter s (ctr 0x0B half 9) + 1 := by
  rw [flip, counter_captureAt _ _ _ (by unfold ctr; omega)]
  rcases (by omega : half = 0 ∨ half = 1) with rfl | rfl
  · rw [counter_bump, if_neg (by decide), counter_bump, if_pos rfl, counter_modRouting]
  · rw [counter_bump, if_pos rfl, counter_bump, if_neg (by decide), counter_modRouting]

theorem flip_store (on : s.time.captureMask.getLsbD 20 = true) (room : s.time.store.length < 4096) :
    (flip tf s).time.store =
      s.time.store ++ [⟨20, s.time.lostSrc.contains 20, if s.routing.active = .a then 1 else 0, tf⟩] := by
  have toB : bit (idleVersion s == .b) = if s.routing.active = .a then 1 else 0 := by
    rw [idleVersion]
    cases s.routing.active <;> rfl
  rw [flip, captureAt_store _ _ (by exact on) (by exact room), toB]
  rfl

end

/-! ### ROUTE_CONFIG (R70, R80, R81) -/

/-- The settings of ROUTE_CONFIG are in force. -/
def configRoutes (args : List Word) (s : State) : State :=
  s.modRouting fun r => { r with drainUs := argN args 1, ageS := argN args 2, evictRandom := argN args 3 == 1 }

section
variable {args : List Word} {s : State}

theorem routeConfig_of_badDrain (h : ¬(1 ≤ argN args 1 ∧ argN args 1 ≤ 10000)) :
    routeConfig args s = cmdRefuse St.badArgument 1 s := if_pos (by omega)

variable (drain : 1 ≤ argN args 1 ∧ argN args 1 ≤ 10000)
include drain

theorem routeConfig_of_badAge (h : 32767 < argN args 2) : routeConfig args s = cmdRefuse St.badArgument 2 s := by
  rw [routeConfig, if_neg (by omega), if_pos h]

variable (age : argN args 2 ≤ 32767)
include age

theorem routeConfig_of_badMode (h : 1 < argN args 3) : routeConfig args s = cmdRefuse St.badArgument 3 s := by
  rw [routeConfig, if_neg (by omega), if_neg (by omega), if_pos h]

theorem routeConfig_of_range (h : argN args 3 ≤ 1) : routeConfig args s = cmdOk (configRoutes args s) := by
  rw [routeConfig, if_neg (by omega), if_neg (by omega), if_neg (by omega)]
  rfl

end

end Sys2Proof.Machine

namespace Sys2Proof.Proofs

open Sys2Proof.Machine

/-- Settles O10: each clause is the lemma that says what its command does with a version in the state that the clause describes. -/
theorem routeVersions : Obligations.RouteVersions := by
  unfold Obligations.RouteVersions
  refine ⟨?sealing, ?unsealing, ?committing, ?configuring, ?notOpen, ?notSealed, ?badConfig⟩
  case sealing =>
    intro h args s i acc opened
    have runs := run_ok rfl acc (exec_routeSeal h args s) (routeSeal_of_opened opened)
    rw [fetched_versionCrc, fetched_idleVersion] at runs
    exact runs
  case unsealing =>
    intro h args s i acc unarmed isSealed
    exact run_ok rfl acc (exec_routeUnseal h args s) (routeUnseal_of_sealed ((fetched_commitArmed i s).trans unarmed) isSealed)
  case committing =>
    intro h args s i acc unarmed isSealed
    have runs := run_ok rfl acc (exec_routeCommit h args s)
      (routeCommit_of_sealed ((fetched_commitArmed i s).trans unarmed) isSealed)
    have routing := flip_routing s.time.now (fetched i s)
    have store := flip_store s.time.now (fetched i s)
    have counts (half : Nat) (two : half < 2) := counter_flip s.time.now (fetched i s) two
    have frame := flip_eq s.time.now (fetched i s)
    rw [fetched_time] at runs store frame
    simp only [fetched_routing] at routing store
    simp only [counter, fetched_count] at counts
    exact ⟨_, runs, routing, counts, store, frame⟩
  case configuring =>
    intro h args s i acc low high age mode
    exact run_ok rfl acc (exec_routeConfig h args s) (routeConfig_of_range ⟨low, high⟩ age mode)
  case notOpen =>
    rintro h args i s (rfl | rfl) acc
    · exact ⟨fun isSealed => run_refused rfl acc (exec_routeWrite h args s) (routeWrite_of_sealed _ isSealed),
        fun drains => run_refused rfl acc (exec_routeWrite h args s) (routeWrite_of_draining _ drains)⟩
    · exact ⟨fun isSealed => run_refused rfl acc (exec_routeSeal h args s) (routeSeal_of_sealed isSealed),
        fun drains => run_refused rfl acc (exec_routeSeal h args s) (routeSeal_of_draining drains)⟩
  case notSealed =>
    rintro h args i s (rfl | rfl) acc
    · exact ⟨fun armed => run_refused rfl acc (exec_routeUnseal h args s)
          (routeUnseal_of_armed ((fetched_commitArmed _ s).trans armed)),
        fun unarmed no => run_refused rfl acc (exec_routeUnseal h args s)
          (routeUnseal_of_notSealed ((fetched_commitArmed _ s).trans unarmed) no)⟩
    · exact ⟨fun armed => run_refused rfl acc (exec_routeCommit h args s)
          (routeCommit_of_armed ((fetched_commitArmed _ s).trans armed)),
        fun unarmed no => run_refused rfl acc (exec_routeCommit h args s)
          (routeCommit_of_notSealed ((fetched_commitArmed _ s).trans unarmed) no)⟩
  case badConfig =>
    intro h args s i dOk acc
    have refused {d : Nat} (hb : routeConfig args (fetched i s) = cmdRefuse St.badArgument d (fetched i s)) :
        exec i s = .next (refusedEnd i s St.badArgument d) := run_refused rfl acc (exec_routeConfig h args s) hb
    exact ⟨fun bad => refused (routeConfig_of_badDrain bad), fun drain bad => refused (routeConfig_of_badAge drain bad),
      fun drain age bad => refused (routeConfig_of_badMode drain age bad)⟩

end Sys2Proof.Proofs
end

section
/-! SUPPORT. The commands on the endpoint table (R62, R63, R82, R85): which way a static image takes, each refusal, and what an
accepted command does. -/

namespace Sys2Proof.Machine

/-! ### One static image -/

theorem argMin_mem {f : Nat → Nat} {l : List Nat} {a : Nat} (h : argMin f l = some a) : a ∈ l := by
  induction l generalizing a with
  | nil => cases h
  | cons b r ih =>
    unfold argMin at h
    split at h
    · exact Option.some.inj h ▸ List.mem_cons_self
    · next least =>
      split at h
      · exact Option.some.inj h ▸ List.mem_cons_of_mem _ (ih least)
      · exact Option.some.inj h ▸ List.mem_cons_self

theorem epFind_mem {t : Tab EpEntry} {id k : Nat} {static : Bool} (h : epFind t id static = some k) : k ∈ waysOf id :=
  List.mem_of_find?_eq_some h

/-- A static image takes a way of its ID's set. -/
theorem staticWay_mem {now16 id k : Nat} {t : Tab EpEntry} (h : staticWay now16 t id = some k) : k ∈ waysOf id := by
  unfold staticWay at h
  split at h
  · next own => exact Option.some.inj h ▸ epFind_mem own
  · split at h
    · next learned => exact Option.some.inj h ▸ epFind_mem learned
    · split at h
      · next free => exact Option.some.inj h ▸ List.mem_of_find?_eq_some free
      · exact List.mem_of_mem_filter (argMin_mem h)

section
variable {now16 : Nat} {e : EpEntry} {w w' : Tab EpEntry × List Nat} (put : putStatic now16 e w = some w')
include put

theorem putStatic_of_valid (valid : e.valid = true) : ∃ k ∈ waysOf e.id,
    tget w'.1 {} k = { valid := true, static := true, id := e.id, bundle := e.bundle, stamp := 0 } ∧
    ∀ j, j ≠ k → tget w'.1 {} j = tget w.1 {} j := by
  rw [putStatic, if_pos valid] at put
  obtain ⟨k, way, rfl⟩ := Option.map_eq_some_iff.mp put
  refine ⟨k, staticWay_mem way, ?_, fun j other => ?_⟩
  · rw [tget_tset_any, if_pos rfl]
  · rw [tget_tset_any, if_neg other.symm]

theorem putStatic_of_invalid (invalid : e.valid = false) (j : Nat) :
    tget w'.1 {} j = if epFind w.1 e.id true = some j then {} else tget w.1 {} j := by
  rw [putStatic, if_neg (by simp [invalid])] at put
  cases found : epFind w.1 e.id true with
  | none =>
    simp only [found, Option.some.injEq] at put
    rw [put, if_neg (by simp)]
  | some k =>
    simp only [found, Option.some.injEq] at put
    rw [← put, tget_tset_any]
    simp only [Option.some.injEq]

end

/-! ### ENDPOINT_WRITE -/

/-- The images that ENDPOINT_WRITE takes from host memory. -/
def endpointImages (args : List Word) (s : State) : List EpEntry :=
  (hostNums s 8 (arg64 args 2) (argN args 1)).map epOfImg

/-- The images of ENDPOINT_WRITE applied in order to a half's table, with the indices written. -/
def putImages (args : List Word) (s : State) (half : Nat) : Option (Tab EpEntry × List Nat) :=
  putStatics (secOf s.time.now % 65536) (endpointImages args s) (epOf s half, [])

/-- Both halves' tables are replaced, and the parity marks of the entries written are gone. -/
def writeStatics (t0 t1 : Tab EpEntry × List Nat) (s : State) : State :=
  (clearEpParity 1 t1.2 (clearEpParity 0 t0.2 s)).modRouting fun r => { r with ep0 := t0.1, ep1 := t1.1 }

theorem clearEpParity_eq (half : Nat) (l : List Nat) (s : State) :
    clearEpParity half l s = { s with routing := { s.routing with parity := (clearEpParity half l s).routing.parity } } := by
  induction l generalizing s with
  | nil => rfl
  | cons i l ih => exact ih (unmark half .endpoint i s)

theorem writeStatics_eq (t0 t1 : Tab EpEntry × List Nat) (s : State) : writeStatics t0 t1 s = { s with
    routing := { s.routing with ep0 := t0.1, ep1 := t1.1, parity := (writeStatics t0 t1 s).routing.parity } } := by
  rw [writeStatics, clearEpParity_eq, clearEpParity_eq 0]
  rfl

@[simp] theorem fetched_putImages (i : Instr) (args : List Word) (s : State) (half : Nat) : putImages args (fetched i s) half =
    putStatics (secOf s.time.now % 65536) ((hostNums (fetched i s) 8 (arg64 args 2) (argN args 1)).map epOfImg) (epOf s half, []) := by
  simp only [putImages, endpointImages, fetched_time, epOf, fetched_routing]

section
variable {args : List Word} {s : State} (c : CmdRef)

theorem endpointWrite_of_badCount (h : argN args 1 < 1 ∨ 32768 < argN args 1) :
    endpointWrite c args s = cmdRefuse St.badArgument 1 s := if_pos h

variable (count : 1 ≤ argN args 1 ∧ argN args 1 ≤ 32768)
include count

/-- A write of a good count, by its images and by what they make of the two tables. -/
theorem endpointWrite_of_count : endpointWrite c args s =
    if ((endpointImages args s).any fun e => !e.static || genExt e.id != 0) = true then cmdRefuse St.badArgument 2 s
    else match putImages args s 0, putImages args s 1 with
      | some t0, some t1 => if 32768 < staticCount t0.1 then cmdRefuse St.tableFull 0 s else cmdDetach c (writeStatics t0 t1 s)
      | _, _ => cmdRefuse St.tableFull 0 s :=
  if_neg (by omega)

theorem endpointWrite_of_badImage (h : ∃ e ∈ endpointImages args s, e.static = false ∨ genExt e.id ≠ 0) :
    endpointWrite c args s = cmdRefuse St.badArgument 2 s := by
  rw [endpointWrite_of_count c count, if_pos (by simpa using h)]

variable (images : ∀ e ∈ endpointImages args s, e.static = true ∧ genExt e.id = 0)
include images

theorem endpointWrite_of_goodImages : endpointWrite c args s =
    match putImages args s 0, putImages args s 1 with
    | some t0, some t1 => if 32768 < staticCount t0.1 then cmdRefuse St.tableFull 0 s else cmdDetach c (writeStatics t0 t1 s)
    | _, _ => cmdRefuse St.tableFull 0 s := by
  rw [endpointWrite_of_count c count, if_neg (by simpa using images)]

theorem endpointWrite_of_fullSet (h : putImages args s 0 = none ∨ putImages args s 1 = none) :
    endpointWrite c args s = cmdRefuse St.tableFull 0 s := by
  rw [endpointWrite_of_goodImages c count images]
  rcases h with h | h
  · simp only [h]
  · rw [h]
    cases putImages args s 0 <;> rfl

variable {t0 t1 : Tab EpEntry × List Nat} (put0 : putImages args s 0 = some t0) (put1 : putImages args s 1 = some t1)
include put0 put1

theorem endpointWrite_of_fullTable (h : 32768 < staticCount t0.1) : endpointWrite c args s = cmdRefuse St.tableFull 0 s := by
  rw [endpointWrite_of_goodImages c count images, put0, put1]
  exact if_pos h

theorem endpointWrite_of_room (h : staticCount t0.1 ≤ 32768) : endpointWrite c args s = cmdDetach c (writeStatics t0 t1 s) := by
  rw [endpointWrite_of_goodImages c count images, put0, put1]
  exact if_neg (by omega)

end

/-! ### ENDPOINT_FLUSH (R82) -/

/-- The entries that a form of ENDPOINT_FLUSH means: those of an ID, those of a bundle, or all. -/
def flushTest (args : List Word) (e : EpEntry) : Bool :=
  if argN args 1 = 0 then e.id == argN args 2 else if argN args 1 = 1 then e.bundle == argN args 2 else true

/-- Exactly the learned entries that pass the test go. -/
theorem flushLearned_eq (test : EpEntry → Bool) (s : State) : flushLearned test s = s.modRouting fun r => { r with
    ep0 := r.ep0.filter fun e => !(!e.2.static && test e.2), ep1 := r.ep1.filter fun e => !(!e.2.static && test e.2) } := by
  simp only [flushLearned, Bool.not_and, Bool.not_not]

section
variable {args : List Word} {s : State}

theorem endpointFlush_of_badForm (h : 2 < argN args 1) : endpointFlush args s = cmdRefuse St.badArgument 1 s := by
  obtain ⟨k, form⟩ : ∃ k, argN args 1 = k + 3 := ⟨argN args 1 - 3, by omega⟩
  simp only [endpointFlush, form]

theorem endpointFlush_of_badId (form : argN args 1 = 0) (h : 2 ^ 24 ≤ argN args 2) :
    endpointFlush args s = cmdRefuse St.badArgument 2 s := by
  simp only [endpointFlush, form, if_pos h]

theorem endpointFlush_of_badBundle (form : argN args 1 = 1) (h : 1024 ≤ argN args 2) :
    endpointFlush args s = cmdRefuse St.badArgument 2 s := by
  simp only [endpointFlush, form, if_pos h]

theorem endpointFlush_of_range (form : argN args 1 ≤ 2) (id : argN args 1 = 0 → argN args 2 < 2 ^ 24)
    (bundle : argN args 1 = 1 → argN args 2 < 1024) : endpointFlush args s = cmdOk (flushLearned (flushTest args) s) := by
  rcases (by omega : argN args 1 = 0 ∨ argN args 1 = 1 ∨ argN args 1 = 2) with form | form | form
  · have test : flushTest args = fun e => e.id == argN args 2 := by simp [funext_iff, flushTest, form]
    simp only [endpointFlush, form, if_neg (Nat.not_le.mpr (id form)), test]
  · have test : flushTest args = fun e => e.bundle == argN args 2 := by simp [funext_iff, flushTest, form]
    simp only [endpointFlush, form, if_neg (Nat.not_le.mpr (bundle form)), test]
  · have test : flushTest args = fun _ => true := by simp [funext_iff, flushTest, form]
    simp only [endpointFlush, form, test]

end

end Sys2Proof.Machine
end

section
/-! SUPPORT. BUNDLE_WRITE and TREE_WRITE (R66, R67, R76, R324, R329): each refusal, the record that is written, and the deficit counters
of the slots that join. -/

namespace Sys2Proof.Machine

/-! ### Tables that a fold writes -/

/-- A table whose entries below `n` are written one by one. -/
theorem tget_foldl_range_tset {α : Type} [DecidableEq α] (d : α) (f : Nat → α) (t : Tab α) (n k : Nat) :
    tget ((List.range n).foldl (fun t i => tset t d i (f i)) t) d k = if k < n then f k else tget t d k := by
  induction n with
  | zero => rfl
  | succ n ih =>
    rw [List.range_succ, List.foldl_append, List.foldl_cons, List.foldl_nil, tget_tset_any, ih]
    by_cases same : n = k
    · rw [if_pos same, if_pos (by omega), same]
    · rw [if_neg same]
      exact if_congr (by omega) rfl rfl

/-- A key that no step of a fold writes. -/
theorem tget_foldl_of_same {α β : Type} (d : α) (k : Nat) {f : Tab α → β → Tab α} {l : List β}
    (same : ∀ t, ∀ b ∈ l, tget (f t b) d k = tget t d k) (t : Tab α) : tget (l.foldl f t) d k = tget t d k := by
  induction l generalizing t with
  | nil => rfl
  | cons b l ih =>
    rw [List.foldl_cons, ih fun t c hc => same t c (List.mem_cons_of_mem _ hc), same t b List.mem_cons_self]

/-! ### BUNDLE_WRITE -/

@[simp] theorem fetched_theBundle (i : Instr) (s : State) (b : Nat) : theBundle (fetched i s) b = theBundle s b := by
  simp only [theBundle, fetched_routing]
@[simp] theorem fetched_eligible (i : Instr) (s : State) (b : Nat) : eligible (fetched i s) b = eligible s b := by
  rw [fetched_eq]
  rfl

/-- The record that BUNDLE_WRITE writes. -/
def newBundle (args : List Word) : Bundle :=
  { valid := bitAt (arg args 2) 15, learn := bitAt (arg args 2) 14, count := fld (arg args 2) 6 0,
    slots := (List.range 64).foldl (fun t i => tset t {} i (slotOf args i)) [] }

theorem newBundle_slots (args : List Word) {k : Nat} (h : k < 64) : tget (newBundle args).slots {} k = slotOf args k :=
  (tget_foldl_range_tset ..).trans (if_pos h)

/-- The slots of a bundle in the set E that a new record leaves with their port. -/
def keptSlots (s : State) (b : Nat) (new : Bundle) : List Nat :=
  (eligible s b).filter fun i => (tget (theBundle s b).slots {} i).port == (tget new.slots {} i).port

/-- The record of a bundle is replaced, and its parity marks are gone. -/
def putBundle (b : Nat) (new : Bundle) (s : State) : State :=
  clearParity .bundle (· == b) (s.modRouting fun r => { r with bundles := tset r.bundles {} b new })

/-- The record of a bundle is replaced, and the slots that join the set E take their deficit counters. -/
def replaceBundle (b : Nat) (new : Bundle) (s : State) : State := joinSlots (keptSlots s b new) b (putBundle b new s)

section
variable {args : List Word} {s : State}

theorem bundleWrite_of_noBundle (h : 1024 ≤ argN args 1) : bundleWrite args s = cmdRefuse St.badArgument 1 s := if_pos h

variable (bundle : argN args 1 < 1024)
include bundle

theorem bundleWrite_of_badCount (h : 64 < fld (arg args 2) 6 0) : bundleWrite args s = cmdRefuse St.badArgument 2 s := by
  rw [bundleWrite, if_neg (by omega), if_pos h]

variable (count : fld (arg args 2) 6 0 ≤ 64)
include count

/-- A record of a good count, by its first slot that breaks a rule. -/
theorem bundleWrite_of_count : bundleWrite args s =
    match (List.range (fld (arg args 2) 6 0)).find? fun k => slotBad s (argN args 1) (slotOf args k) with
    | some k => cmdRefuse St.badArgument (3 + k / 2) s
    | none => cmdOk (replaceBundle (argN args 1) (newBundle args) s) := by
  rw [bundleWrite, if_neg (by omega), if_neg (by omega)]
  rfl

theorem bundleWrite_of_badSlot {k : Nat} (used : k < fld (arg args 2) 6 0)
    (bad : slotBad s (argN args 1) (slotOf args k) = true)
    (first : ∀ j, j < k → slotBad s (argN args 1) (slotOf args j) = false) :
    bundleWrite args s = cmdRefuse St.badArgument (3 + k / 2) s := by
  have found : (List.range (fld (arg args 2) 6 0)).find? (fun k => slotBad s (argN args 1) (slotOf args k)) = some k := by
    simpa [List.find?_range_eq_some, bad, used] using first
  rw [bundleWrite_of_count bundle count, found]

theorem bundleWrite_of_goodSlots (good : ∀ k, k < fld (arg args 2) 6 0 → slotBad s (argN args 1) (slotOf args k) = false) :
    bundleWrite args s = cmdOk (replaceBundle (argN args 1) (newBundle args) s) := by
  have none : (List.range (fld (arg args 2) 6 0)).find? (fun k => slotBad s (argN args 1) (slotOf args k)) = none := by
    simpa using good
  rw [bundleWrite_of_count bundle count, none]

end

section
variable (b : Nat) (new : Bundle) (s : State)

theorem replaceBundle_eq : replaceBundle b new s = { s with routing := { s.routing with
    bundles := (replaceBundle b new s).routing.bundles, defs := (replaceBundle b new s).routing.defs,
    parity := (replaceBundle b new s).routing.parity } } := rfl

theorem theBundle_replaceBundle (j : Nat) : theBundle (replaceBundle b new s) j = if b = j then new else theBundle s j :=
  tget_tset_any ..

/-- The deficit counters that change are those of the slots that join (R76). -/
theorem joinSlots_defs {before : List Nat} {j : Nat} (h : tget (joinSlots before b s).routing.defs 0 j ≠ tget s.routing.defs 0 j) :
    ∃ barn k, barn < 16 ∧ j = defKey barn b k ∧ k ∈ eligible s b ∧ k ∉ before := by
  by_contra none
  refine h (tget_foldl_of_same 0 j (fun t barn low => tget_foldl_of_same 0 j (fun t k joins => ?_) t) s.routing.defs)
  obtain ⟨eligible, fresh⟩ := List.mem_filter.mp joins
  rw [tget_tset_any, if_neg]
  exact fun key => none ⟨barn, k, List.mem_range.mp low, key.symm, eligible, by simpa using fresh⟩

theorem replaceBundle_defs {j : Nat} (h : tget (replaceBundle b new s).routing.defs 0 j ≠ tget s.routing.defs 0 j) :
    ∃ barn k, barn < 16 ∧ j = defKey barn b k ∧ k ∈ eligible (replaceBundle b new s) b ∧
      ¬(k ∈ eligible s b ∧ (tget (theBundle s b).slots {} k).port = (tget new.slots {} k).port) := by
  obtain ⟨barn, k, low, key, joins, fresh⟩ := joinSlots_defs b (putBundle b new s) h
  exact ⟨barn, k, low, key, joins, by simpa [keptSlots] using fresh⟩

end

/-! ### TREE_WRITE -/

@[simp] theorem fetched_thePart (i : Instr) (s : State) (p : Nat) : thePart (fetched i s) p = thePart s p := by
  simp only [thePart, fetched_jobs]

/-- The record that TREE_WRITE writes. -/
def newTree (args : List Word) : Tree :=
  { valid := bitAt (arg args 2) 31, partition := fld (arg args 2) 11 0, mask := maskOf args 3 }

/-- The record that TREE_WRITE replaces. -/
def oldTree (args : List Word) (s : State) : Tree := tget s.routing.trees {} (argN args 1)

/-- How many trees more TREE_WRITE charges to the partition of its record. -/
def extraTrees (args : List Word) (s : State) : Nat :=
  bit (newTree args).valid - bit ((oldTree args s).valid && (oldTree args s).partition == (newTree args).partition)

/-- The status with which the partition of the record refuses it. -/
def treeRefusal (args : List Word) (s : State) : Option (Nat × Nat) :=
  if (newTree args).partition ≠ 0 ∧ ((thePart s (newTree args).partition).state = 2 ∨ 0 < extraTrees args s) then
    quotaRefusal s (newTree args).partition 1 (extraTrees args s)
  else none

/-- The record of a tree is replaced, and its parity marks are gone. -/
def putTree (n : Nat) (new : Tree) (s : State) : State :=
  clearParity .tree (· == n) (s.modRouting fun r => { r with trees := tset r.trees {} n new })

theorem extraTrees_of_new {args : List Word} {s : State} (valid : (newTree args).valid = true)
    (other : (oldTree args s).valid = false ∨ (oldTree args s).partition ≠ (newTree args).partition) : extraTrees args s = 1 := by
  rcases other with invalid | other
  · simp [extraTrees, valid, invalid, bit]
  · simp [extraTrees, valid, other, bit]

theorem extraTrees_le_one (args : List Word) (s : State) : extraTrees args s ≤ 1 := by
  have : bit (newTree args).valid ≤ 1 := by cases (newTree args).valid <;> decide
  rw [extraTrees]
  omega

theorem extraTrees_of_same {args : List Word} {s : State}
    (same : (oldTree args s).valid = true ∧ (oldTree args s).partition = (newTree args).partition) : extraTrees args s = 0 := by
  cases valid : (newTree args).valid <;> simp [extraTrees, valid, same, bit]

theorem extraTrees_of_invalid {args : List Word} {s : State} (invalid : (newTree args).valid = false) : extraTrees args s = 0 := by
  simp [extraTrees, invalid, bit]

section
variable {args : List Word} {s : State}

theorem treeWrite_of_noTree (h : 16384 ≤ argN args 1) : treeWrite args s = cmdRefuse St.badArgument 1 s := if_pos h

section
variable (tree : argN args 1 < 16384)
include tree

theorem treeWrite_of_tree : treeWrite args s =
    match treeRefusal args s with
    | some (status, detail) => cmdRefuse status detail s
    | none => cmdOk (putTree (argN args 1) (newTree args) s) :=
  if_neg (by omega)

theorem treeWrite_of_refused {status detail : Nat} (h : treeRefusal args s = some (status, detail)) :
    treeWrite args s = cmdRefuse status detail s := by
  rw [treeWrite_of_tree tree, h]

theorem treeWrite_of_permitted (h : treeRefusal args s = none) :
    treeWrite args s = cmdOk (putTree (argN args 1) (newTree args) s) := by
  rw [treeWrite_of_tree tree, h]

end

theorem treeRefusal_of_shared (h : (newTree args).partition = 0) : treeRefusal args s = none := if_neg fun own => own.1 h

/-- A record that charges its partition to no further tree is not refused unless the partition retires. -/
theorem treeRefusal_of_noExtra (lives : (thePart s (newTree args).partition).state ≠ 2) (h : extraTrees args s = 0) :
    treeRefusal args s = none :=
  if_neg (by simp [lives, h])

variable (own : (newTree args).partition ≠ 0)
include own

theorem treeRefusal_of_retiring (h : (thePart s (newTree args).partition).state = 2) :
    treeRefusal args s = some (St.partitionRetiring, 1) := by
  rw [treeRefusal, if_pos ⟨own, .inl h⟩, quotaRefusal, if_neg own, if_pos h]
  rfl

variable (lives : (thePart s (newTree args).partition).state ≠ 2) (extra : extraTrees args s = 1)
include lives extra

theorem treeRefusal_of_extra : treeRefusal args s =
    if (thePart s (newTree args).partition).state ≠ 1 ∨
        limitOf (thePart s (newTree args).partition) 1 ≤ chargeOf s (newTree args).partition 1 then some (St.quotaExceeded, 1)
    else none := by
  rw [treeRefusal, if_pos ⟨own, .inr (by omega)⟩, quotaRefusal, if_neg own, if_neg lives, extra]
  simp only [Nat.lt_succ_iff, St.quotaExceeded]

end

section
variable {args : List Word} {s : State}

/-- A record is permitted in partition 0, and in an ACTIVE partition that has room for it or holds the tree already, or where it takes
nothing. -/
theorem treeRefusal_of_room (h : (newTree args).partition = 0 ∨ ((thePart s (newTree args).partition).state = 1 ∧
      (chargeOf s (newTree args).partition 1 < limitOf (thePart s (newTree args).partition) 1 ∨ (newTree args).valid = false ∨
        ((oldTree args s).valid = true ∧ (oldTree args s).partition = (newTree args).partition)))) :
    treeRefusal args s = none := by
  by_cases own : (newTree args).partition = 0
  · exact treeRefusal_of_shared own
  obtain ⟨active, room⟩ := h.resolve_left own
  have lives : (thePart s (newTree args).partition).state ≠ 2 := by omega
  have small := extraTrees_le_one args s
  rcases (by omega : extraTrees args s = 0 ∨ extraTrees args s = 1) with extra | extra
  · exact treeRefusal_of_noExtra lives extra
  · rcases room with room | invalid | same
    · rw [treeRefusal_of_extra own lives extra, if_neg (by omega)]
    · exact treeRefusal_of_noExtra lives (extraTrees_of_invalid invalid)
    · exact treeRefusal_of_noExtra lives (extraTrees_of_same same)

end

@[simp] theorem fetched_extraTrees (i : Instr) (args : List Word) (s : State) :
    extraTrees args (fetched i s) = extraTrees args s := by
  simp only [extraTrees, oldTree, fetched_routing]
@[simp] theorem fetched_chargeOf (i : Instr) (s : State) (p r : Nat) : chargeOf (fetched i s) p r = chargeOf s p r := by
  rw [fetched_eq]
  rfl
@[simp] theorem fetched_treeRefusal (i : Instr) (args : List Word) (s : State) :
    treeRefusal args (fetched i s) = treeRefusal args s := by
  simp only [treeRefusal, fetched_thePart, fetched_extraTrees, quotaRefusal, fetched_chargeOf]

theorem tget_trees_putTree (n : Nat) (new : Tree) (s : State) (j : Nat) :
    tget (putTree n new s).routing.trees {} j = if j = n then new else tget s.routing.trees {} j :=
  (tget_tset_any ..).trans (if_congr eq_comm rfl rfl)

theorem putTree_eq (n : Nat) (new : Tree) (s : State) : putTree n new s = { s with routing := { s.routing with
    trees := (putTree n new s).routing.trees, parity := (putTree n new s).routing.parity } } := rfl

end Sys2Proof.Machine

namespace Sys2Proof.Proofs

open Sys2Proof.Machine

/-- Settles O11: each clause is the lemma that says what its command does with the operands that the clause describes. -/
theorem endpointsBundlesTrees : Obligations.EndpointsBundlesTrees := by
  unfold Obligations.EndpointsBundlesTrees
  refine ⟨?endpointWrite, fun n e es w => ⟨rfl, rfl⟩, fun n e w w' put => ⟨putStatic_of_valid put, putStatic_of_invalid put⟩,
    ?endpointRefused, ?flush, ?flushRefused, ?bundleWrite, ?bundleRefused, ?treeWrite⟩
  case endpointWrite =>
    intro h args s t0 t1 i es acc low high images put0 put1 room
    have runs := run_detached rfl acc (exec_endpointWrite h args s) (endpointWrite_of_room _ ⟨low, high⟩ images
      ((fetched_putImages i args s 0).trans put0) ((fetched_putImages i args s 1).trans put1) room)
    have frame := writeStatics_eq t0 t1 (fetched i s)
    rw [fetched_routing] at frame
    exact ⟨_, runs, frame⟩
  case endpointRefused =>
    intro h args s i es acc
    have refused {st d : Nat} (hb : endpointWrite (refOf i s) args (fetched i s) = cmdRefuse st d (fetched i s)) :
        exec i s = .next (refusedEnd i s st d) := run_refused rfl acc (exec_endpointWrite h args s) hb
    refine ⟨fun bad => refused (endpointWrite_of_badCount _ bad), fun low high =>
      ⟨fun bad => refused (endpointWrite_of_badImage _ ⟨low, high⟩ bad), fun images => ⟨fun full => refused ?_,
        fun t0 t1 put0 put1 full => refused ?_⟩⟩⟩
    · exact endpointWrite_of_fullSet _ ⟨low, high⟩ images (full.imp (fetched_putImages i args s 0).trans
        (fetched_putImages i args s 1).trans)
    · exact endpointWrite_of_fullTable _ ⟨low, high⟩ images ((fetched_putImages i args s 0).trans put0)
        ((fetched_putImages i args s 1).trans put1) full
  case flush =>
    intro h args s i acc form id bundle
    have runs := run_ok rfl acc (exec_endpointFlush h args s) (endpointFlush_of_range form id bundle)
    rw [flushLearned_eq] at runs
    exact runs
  case flushRefused =>
    intro h args s i acc
    have refused {d : Nat} (hb : endpointFlush args (fetched i s) = cmdRefuse St.badArgument d (fetched i s)) :
        exec i s = .next (refusedEnd i s St.badArgument d) := run_refused rfl acc (exec_endpointFlush h args s) hb
    exact ⟨fun bad => refused (endpointFlush_of_badForm bad), fun form bad => refused (endpointFlush_of_badId form bad),
      fun form bad => refused (endpointFlush_of_badBundle form bad)⟩
  case bundleWrite =>
    intro h args s i n acc bundle count good
    have runs := run_ok rfl acc (exec_bundleWrite h args s) (bundleWrite_of_goodSlots bundle count good)
    have record := theBundle_replaceBundle n (newBundle args) (fetched i s)
    have own : theBundle (replaceBundle n (newBundle args) (fetched i s)) n = newBundle args := (record n).trans (if_pos rfl)
    have joins (j : Nat) := replaceBundle_defs n (newBundle args) (fetched i s) (j := j)
    have frame := replaceBundle_eq n (newBundle args) (fetched i s)
    simp only [fetched_eligible, fetched_theBundle, fetched_routing] at record joins frame
    refine ⟨_, runs, ?_⟩
    rw [own]
    exact ⟨rfl, rfl, rfl, fun k low => newBundle_slots args low, fun b other => (record b).trans (if_neg other.symm), joins, frame⟩
  case bundleRefused =>
    intro h args s i acc
    have refused {d : Nat} (hb : bundleWrite args (fetched i s) = cmdRefuse St.badArgument d (fetched i s)) :
        exec i s = .next (refusedEnd i s St.badArgument d) := run_refused rfl acc (exec_bundleWrite h args s) hb
    exact ⟨fun bad => refused (bundleWrite_of_noBundle bad), fun bundle bad => refused (bundleWrite_of_badCount bundle bad),
      fun bundle count k used bad first => refused (bundleWrite_of_badSlot bundle count used bad first)⟩
  case treeWrite =>
    intro h args s i p old acc
    have refused {st : Nat} (tree : argN args 1 < 16384) (no : treeRefusal args s = some (st, 1)) :
        exec i s = .next (refusedEnd i s st 1) :=
      run_refused rfl acc (exec_treeWrite h args s) (treeWrite_of_refused tree ((fetched_treeRefusal i args s).trans no))
    refine ⟨fun noTree => run_refused rfl acc (exec_treeWrite h args s) (treeWrite_of_noTree noTree),
      fun tree own retires => refused tree (treeRefusal_of_retiring own retires),
      fun tree own absent lives valid other => refused tree ?_, fun tree own active valid other full => refused tree ?_,
      fun tree room => ?_⟩
    · exact (treeRefusal_of_extra own lives (extraTrees_of_new valid other)).trans (if_pos (.inl absent))
    · have lives : (thePart s p).state ≠ 2 := by omega
      exact (treeRefusal_of_extra own lives (extraTrees_of_new valid other)).trans (if_pos (.inr full))
    · have permitted : treeRefusal args s = none := treeRefusal_of_room room
      have runs := run_ok rfl acc (exec_treeWrite h args s)
        (treeWrite_of_permitted tree ((fetched_treeRefusal i args s).trans permitted))
      have trees := tget_trees_putTree (argN args 1) (newTree args) (fetched i s)
      have frame := putTree_eq (argN args 1) (newTree args) (fetched i s)
      simp only [fetched_routing] at trees frame
      exact ⟨_, runs, trees, frame⟩

end Sys2Proof.Proofs
end

section
/-! SUPPORT. Learning (R78, R79, R81): what a learning update does by the entries of its ID and by the ways of its set. -/

namespace Sys2Proof.Machine

/-! ### What the operations of learning change -/

theorem setLearnQ_eq (half : Nat) (q : List LearnUpd) (s : State) : setLearnQ half q s = { s with routing := { s.routing with
    learnQ0 := (setLearnQ half q s).routing.learnQ0, learnQ1 := (setLearnQ half q s).routing.learnQ1 } } := by
  simp only [setLearnQ, State.modRouting]
  split <;> rfl

theorem modEp_eq (half : Nat) (f : Tab EpEntry → Tab EpEntry) (s : State) : modEp half f s = { s with
    routing := { s.routing with ep0 := (modEp half f s).routing.ep0, ep1 := (modEp half f s).routing.ep1 } } := by
  simp only [modEp, State.modRouting]
  split <;> rfl

theorem putEp_moves (half i : Nat) (e : EpEntry) (s : State) : (putEp half i e s).routing.moves = s.routing.moves := by
  rw [putEp, modEp_eq]
  rfl

/-! ### The state in which an update is applied -/

/-- An update has been taken from its half's queue and counted. -/
def tookUpdate (half : Nat) (rest : List LearnUpd) (s : State) : State := bump (ctr 0x0B half 5) (setLearnQ half rest s)

theorem tookUpdate_eq (half : Nat) (rest : List LearnUpd) (s : State) : tookUpdate half rest s = { s with
    routing := { s.routing with learnQ0 := (setLearnQ half rest s).routing.learnQ0,
                                learnQ1 := (setLearnQ half rest s).routing.learnQ1 },
    count := (tookUpdate half rest s).count } := by
  rw [tookUpdate, setLearnQ_eq]
  rfl

@[simp] theorem tookUpdate_epOf (half : Nat) (rest : List LearnUpd) (s : State) (h : Nat) :
    epOf (tookUpdate half rest s) h = epOf s h := by rw [tookUpdate_eq]; rfl
@[simp] theorem tookUpdate_parityBad (half : Nat) (rest : List LearnUpd) (s : State) (h : Nat) (t : TableKind) (i : Nat) :
    parityBad (tookUpdate half rest s) h t i = parityBad s h t i := by rw [tookUpdate_eq]; rfl
@[simp] theorem tookUpdate_time (half : Nat) (rest : List LearnUpd) (s : State) : (tookUpdate half rest s).time = s.time := by
  rw [tookUpdate_eq]
@[simp] theorem tookUpdate_moves (half : Nat) (rest : List LearnUpd) (s : State) :
    (tookUpdate half rest s).routing.moves = s.routing.moves := by rw [tookUpdate_eq]
@[simp] theorem tookUpdate_evictRandom (half : Nat) (rest : List LearnUpd) (s : State) :
    (tookUpdate half rest s).routing.evictRandom = s.routing.evictRandom := by rw [tookUpdate_eq]

/-! ### One update -/

/-- The learned entry that an update makes. -/
def learnedNow (u : LearnUpd) (s : State) : EpEntry :=
  { valid := true, static := false, id := u.id, bundle := u.bundle, stamp := secOf s.time.now % 65536 }

/-- The instants of an ID's moves within the last second, the present one first. -/
def recentMoves (half : Nat) (u : LearnUpd) (s : State) : List Nat :=
  u.at_ :: (tget s.routing.moves [] (moveKey half u.id)).filter fun x => decide (u.at_ < x + secU 1)

/-- A learned entry of `s` moves to the bundle of an update, in the state `t` in which the update has been taken. -/
def moveEntry (half k : Nat) (u : LearnUpd) (s t : State) : State :=
  (bump (ctr 0x0B half 1) (putEp half k
    { tget (epOf s half) {} k with bundle := u.bundle, stamp := secOf s.time.now % 65536 } t)).modRouting
    fun x => { x with moves := tset x.moves [] (moveKey half u.id) (recentMoves half u s) }

/-- A set without a learned way gives none up. -/
theorem evictWay_nil (s : State) (t : Tab EpEntry) : evictWay s t [] = none := by
  unfold evictWay
  split <;> rfl

theorem learnUpdate_of_empty {half : Nat} {s : State} (h : learnQ s half = []) : learnUpdate half s = s := by
  simp only [learnUpdate, h]

section
variable {half : Nat} {s : State} {u : LearnUpd} {rest : List LearnUpd}

/-- An entry of a set without a parity failure is found as it stands. -/
theorem epFind_filter_of_sound {id : Nat} (sound : ∀ k ∈ waysOf id, parityBad s half .endpoint k = false) (t : Tab EpEntry)
    (static : Bool) : (epFind t id static).filter (fun k => !parityBad s half .endpoint k) = epFind t id static := by
  cases found : epFind t id static with
  | none => rfl
  | some k => simp [Option.filter, sound k (epFind_mem found)]

/-- In a set without a parity failure the free ways are those that are not in use. -/
theorem find?_wayFree_of_sound {id : Nat} (sound : ∀ k ∈ waysOf id, parityBad s half .endpoint k = false) :
    (waysOf id).find? (wayFree s half) = (waysOf id).find? fun k => !(tget (epOf s half) {} k).valid :=
  List.find?_congr fun k hk => by simp [wayFree, sound k hk]

variable (queue : learnQ s half = u :: rest) (sound : ∀ k ∈ waysOf u.id, parityBad s half .endpoint k = false)
include queue sound

/-- An update in a set without a parity failure, by what is found for its ID. -/
theorem learnUpdate_of_sound : learnUpdate half s =
    let t := tookUpdate half rest s
    match epFind (epOf s half) u.id true with
    | some k => if (tget (epOf s half) {} k).bundle = u.bundle then t else bump (ctr 0x0B half 0) t
    | none =>
      match epFind (epOf s half) u.id false with
      | some k =>
        if (tget (epOf s half) {} k).bundle = u.bundle then
          putEp half k { tget (epOf s half) {} k with stamp := secOf s.time.now % 65536 } t
        else if 16 < (recentMoves half u s).length then
          report (unstable half k u.id (tget (epOf s half) {} k).bundle u.bundle) (moveEntry half k u s t)
        else moveEntry half k u s t
      | none =>
        match (waysOf u.id).find? fun k => !(tget (epOf s half) {} k).valid with
        | some k => insertEp half k (learnedNow u s) t
        | none =>
          match evictWay t (epOf s half) ((waysOf u.id).filter fun k => !(tget (epOf s half) {} k).static) with
          | some k => bump (ctr 0x0B half 3) (insertEp half k (learnedNow u s) (if s.routing.evictRandom then t.tookFree else t))
          | none => bump (ctr 0x0B half 4) t := by
  have sound' : ∀ k ∈ waysOf u.id, parityBad (tookUpdate half rest s) half .endpoint k = false := by simpa using sound
  have tables : epOf (setLearnQ half rest s) half = epOf s half := tookUpdate_epOf half rest s half
  have time : (setLearnQ half rest s).time = s.time := tookUpdate_time half rest s
  have took : bump (ctr 0x0B half 5) (setLearnQ half rest s) = tookUpdate half rest s := rfl
  have moves (k : Nat) (e : EpEntry) :
      (bump (ctr 0x0B half 1) (putEp half k e (tookUpdate half rest s))).routing.moves = s.routing.moves :=
    (putEp_moves half k e _).trans (tookUpdate_moves half rest s)
  simp only [learnUpdate, queue, learn, tables, time, took, moves, epFind_filter_of_sound sound', find?_wayFree_of_sound sound',
    tookUpdate_epOf, tookUpdate_evictRandom, moveEntry, recentMoves, learnedNow] <;> rfl

theorem learnUpdate_of_static {k : Nat} (static : epFind (epOf s half) u.id true = some k) : learnUpdate half s =
    if (tget (epOf s half) {} k).bundle = u.bundle then tookUpdate half rest s
    else bump (ctr 0x0B half 0) (tookUpdate half rest s) := by
  rw [learnUpdate_of_sound queue sound, static]

variable (noStatic : epFind (epOf s half) u.id true = none)
include noStatic

section
variable {k : Nat} (learned : epFind (epOf s half) u.id false = some k)
include learned

theorem learnUpdate_of_sameBundle (same : (tget (epOf s half) {} k).bundle = u.bundle) : learnUpdate half s =
    putEp half k { tget (epOf s half) {} k with stamp := secOf s.time.now % 65536 } (tookUpdate half rest s) := by
  rw [learnUpdate_of_sound queue sound, noStatic, learned]
  exact if_pos same

theorem learnUpdate_of_otherBundle (other : (tget (epOf s half) {} k).bundle ≠ u.bundle) : learnUpdate half s =
    if 16 < (recentMoves half u s).length then
      report (unstable half k u.id (tget (epOf s half) {} k).bundle u.bundle) (moveEntry half k u s (tookUpdate half rest s))
    else moveEntry half k u s (tookUpdate half rest s) := by
  rw [learnUpdate_of_sound queue sound, noStatic, learned]
  exact if_neg other

end

variable (noLearned : epFind (epOf s half) u.id false = none)
include noLearned

theorem learnUpdate_of_freeWay {k : Nat} (free : (waysOf u.id).find? (fun k => !(tget (epOf s half) {} k).valid) = some k) :
    learnUpdate half s = insertEp half k (learnedNow u s) (tookUpdate half rest s) := by
  rw [learnUpdate_of_sound queue sound, noStatic, noLearned, free]

variable (used : ∀ k ∈ waysOf u.id, (tget (epOf s half) {} k).valid = true)
include used

/-- An update for an ID without an entry whose set is full. -/
theorem learnUpdate_of_fullSet : learnUpdate half s =
    match evictWay (tookUpdate half rest s) (epOf s half) ((waysOf u.id).filter fun k => !(tget (epOf s half) {} k).static) with
    | some k => bump (ctr 0x0B half 3) (insertEp half k (learnedNow u s)
        (if s.routing.evictRandom then (tookUpdate half rest s).tookFree else tookUpdate half rest s))
    | none => bump (ctr 0x0B half 4) (tookUpdate half rest s) := by
  have noFree : (waysOf u.id).find? (fun k => !(tget (epOf s half) {} k).valid) = none := by simpa using used
  rw [learnUpdate_of_sound queue sound, noStatic, noLearned, noFree]

theorem learnUpdate_of_eviction {k : Nat} (evicted : evictWay (tookUpdate half rest s) (epOf s half)
      ((waysOf u.id).filter fun k => !(tget (epOf s half) {} k).static) = some k) : learnUpdate half s =
    bump (ctr 0x0B half 3) (insertEp half k (learnedNow u s)
      (if s.routing.evictRandom then (tookUpdate half rest s).tookFree else tookUpdate half rest s)) := by
  rw [learnUpdate_of_fullSet queue sound noStatic noLearned used, evicted]

theorem learnUpdate_of_allStatic (static : ∀ k ∈ waysOf u.id, (tget (epOf s half) {} k).static = true) :
    learnUpdate half s = bump (ctr 0x0B half 4) (tookUpdate half rest s) := by
  have noWay : (waysOf u.id).filter (fun k => !(tget (epOf s half) {} k).static) = [] := by simpa using static
  rw [learnUpdate_of_fullSet queue sound noStatic noLearned used, noWay, evictWay_nil]

end

end Sys2Proof.Machine
end

section
/-! SUPPORT. Ageing and the end of the drain window (R70, R80). -/

namespace Sys2Proof.Machine

/-- A change of the endpoint table of a half is a change of that half's table only. -/
theorem epOf_modEp (half other : Nat) (f : Tab EpEntry → Tab EpEntry) (s : State) :
    epOf (modEp half f s) other = if half = 0 ↔ other = 0 then f (epOf s other) else epOf s other := by
  by_cases h : half = 0
  · by_cases o : other = 0 <;> simp [epOf, modEp, h, o]
  · by_cases o : other = 0 <;> simp [epOf, modEp, h, o]

theorem epOf_modEp_same (half : Nat) (f : Tab EpEntry → Tab EpEntry) (s : State) : epOf (modEp half f s) half = f (epOf s half) := by
  rw [epOf_modEp, if_pos Iff.rfl]

theorem epOf_modEp_other (half : Fin 2) (f : Tab EpEntry → Tab EpEntry) (s : State) :
    epOf (modEp half f s) (1 - half.val) = epOf s (1 - half.val) := by
  rw [epOf_modEp, if_neg (by omega)]

/-- The learned entries of a half that have reached AGE_S are gone, and counted. -/
def removeAged (half : Nat) (s : State) : State :=
  bumpBy (ctr 0x0B half 6) ((epOf s half).filter fun e => aged s e.2).length (modEp half (fun t => t.filter fun e => !aged s e.2) s)

theorem ageingVisit_of_never (half : Nat) {s : State} (h : s.routing.ageS = 0) : ageingVisit half s = s := if_pos h

theorem ageingVisit_of_age (half : Nat) {s : State} (h : s.routing.ageS ≠ 0) : ageingVisit half s = removeAged half s := if_neg h

section
variable (half : Fin 2) (s : State)

theorem removeAged_eq : removeAged half s = { s with
    routing := { s.routing with ep0 := (removeAged half s).routing.ep0, ep1 := (removeAged half s).routing.ep1 },
    count := (removeAged half s).count } := by
  rw [removeAged, modEp_eq]
  rfl

theorem epOf_removeAged : epOf (removeAged half s) half = (epOf s half).filter fun e => !aged s e.2 := epOf_modEp_same ..

theorem epOf_removeAged_other : epOf (removeAged half s) (1 - half.val) = epOf s (1 - half.val) := epOf_modEp_other ..

theorem counter_modEp (half : Nat) (f : Tab EpEntry → Tab EpEntry) (s : State) (c : Nat) : counter (modEp half f s) c = counter s c := by
  rw [modEp_eq]
  rfl

theorem counter_removeAged : counter (removeAged half s) (ctr 0x0B half 6) =
    counter s (ctr 0x0B half 6) + BitVec.ofNat 64 ((epOf s half).filter fun e => aged s e.2).length := by
  rw [removeAged, counter_bumpBy_same, counter_modEp]

theorem counter_removeAged_other {c : Nat} (h : c ≠ ctr 0x0B half 6) : counter (removeAged half s) c = counter s c := by
  rw [removeAged, counter_bumpBy_other _ _ h, counter_modEp]

end

section
variable {s : State} (drains : s.routing.nonActive = .draining)
include drains

theorem nonActiveNow_of_ended (ended : s.routing.drainEnd ≤ s.time.now) : nonActiveNow s = .opened := if_pos ⟨drains, ended⟩

theorem nonActiveNow_of_runs (runs : s.time.now < s.routing.drainEnd) : nonActiveNow s = .draining :=
  (if_neg fun ended => Nat.not_le.mpr runs ended.2).trans drains

theorem drainWindowEnd_of_ended (ended : s.routing.drainEnd ≤ s.time.now) :
    drainWindowEnd s = s.modRouting fun r => { r with nonActive := .opened } := if_pos (nonActiveNow_of_ended drains ended)

theorem drainWindowEnd_of_runs (runs : s.time.now < s.routing.drainEnd) : drainWindowEnd s = s :=
  if_neg (by simp [nonActiveNow_of_runs drains runs])

end

end Sys2Proof.Machine
end

section
/-! SUPPORT. Parity repair (R84): the marks of failing entries, what one read of a failing entry does, and the copies that become
absent. -/

namespace Sys2Proof.Machine

/-! ### Marks -/

theorem parityBad_of_isDead {s : State} {half i : Nat} {k : TableKind} (h : isDead s half k i = true) :
    parityBad s half k i = true := by
  obtain ⟨m, hm, dead⟩ := List.any_eq_true.mp h
  exact List.any_eq_true.mpr ⟨m, hm, (Bool.and_eq_true_iff.mp dead).1⟩

theorem parityBad_unmark (half : Nat) (k : TableKind) (i : Nat) (s : State) : parityBad (unmark half k i s) half k i = false := by
  refine List.any_eq_false.mpr fun m hm => ?_
  simpa only [Bool.not_eq_true', Bool.not_eq_true] using (List.mem_filter.mp hm).2

theorem parityBad_markParity (half : Nat) (k : TableKind) (i : Nat) (s : State) :
    parityBad (markParity half [(k, i)] s) half k i = true := by
  simp only [markParity, List.foldl_cons, List.foldl_nil]
  split
  · assumption
  · simp [parityBad]

theorem markParity_eq (half : Nat) (k : TableKind) (i : Nat) (s : State) : markParity half [(k, i)] s = { s with
    routing := { s.routing with parity := (markParity half [(k, i)] s).routing.parity } } := by
  simp only [markParity, List.foldl_cons, List.foldl_nil]
  split <;> rfl

/-! ### One read of a failing entry -/

/-- A failing entry that is not marked yet is counted and reported. -/
def noteFailure (half : Nat) (k : TableKind) (n : Nat) (s : State) : State :=
  if parityBad s half k n then s else report (parityFault half n false) (bump (ctr 0x0B half 7) s)

theorem noteFailure_tells (half : Nat) (k : TableKind) (n : Nat) (s : State) : Tells s (noteFailure half k n s) :=
  .ite (.refl s) ((bump_tells _ s).trans (report_tells _ _))

/-- An entry of a half is a learned one. -/
def isLearned (s : State) (half : Nat) (k : TableKind) (n : Nat) : Bool :=
  k == .endpoint && (tget (epOf s half) {} n).valid && !(tget (epOf s half) {} n).static

/-- A copy becomes absent: it is invalid, and its mark says that neither half can repair it. -/
def makeAbsent (k : TableKind) (s : State) (c : Nat × Nat) : State :=
  (invalidate c.1 k c.2 (unmark c.1 k c.2 s)).modRouting fun r =>
    { r with parity := { half := c.1, table := k, index := c.2, noted := true, dead := true } :: r.parity }

/-- Both copies of an entry become absent. -/
def loseEntry (half : Nat) (k : TableKind) (n : Nat) (s : State) : State := (copiesOf s half k n).foldl (makeAbsent k) s

section
variable {half : Nat} {k : TableKind} {n : Nat} {s : State}

@[simp] theorem noteFailure_epOf (h : Nat) : epOf (noteFailure half k n s) h = epOf s h := by
  simp only [epOf, (noteFailure_tells half k n s).routing]
@[simp] theorem noteFailure_isLearned : isLearned (noteFailure half k n s) half k n = isLearned s half k n := by
  simp only [isLearned, noteFailure_epOf]
@[simp] theorem noteFailure_isDead : isDead (noteFailure half k n s) half k n = isDead s half k n := by
  simp only [isDead, (noteFailure_tells half k n s).routing]
@[simp] theorem noteFailure_copiesOf : copiesOf (noteFailure half k n s) half k n = copiesOf s half k n := by
  simp only [copiesOf, noteFailure_epOf]

theorem parityRepair_eq (otherFails : Bool) : parityRepair half k n otherFails s =
    let u := noteFailure half k n s
    if isLearned s half k n then putEp half n {} u
    else if otherFails then report (parityFault half n true) (bump (ctr 0x0B half 8) (loseEntry half k n u))
    else if isDead s half k n then u
    else unmark half k n u := by
  simp only [← noteFailure_isLearned (s := s), ← noteFailure_isDead (s := s)]
  rfl

theorem parityRepair_of_learned (otherFails : Bool) (learned : isLearned s half k n = true) :
    parityRepair half k n otherFails s = putEp half n {} (noteFailure half k n s) := by
  rw [parityRepair_eq]
  exact if_pos learned

variable (kept : isLearned s half k n = false)
include kept

theorem parityRepair_of_goodCopy : parityRepair half k n false s =
    if isDead s half k n then noteFailure half k n s else unmark half k n (noteFailure half k n s) := by
  rw [parityRepair_eq]
  simp only [kept, Bool.false_eq_true, if_false]

theorem parityRepair_of_noCopy : parityRepair half k n true s =
    report (parityFault half n true) (bump (ctr 0x0B half 8) (loseEntry half k n (noteFailure half k n s))) := by
  rw [parityRepair_eq]
  simp only [kept, Bool.false_eq_true, if_false, if_true]

end

/-! ### What an absent copy changes -/

/-- The second state is the first but for parity marks and the entries of the tables that both halves hold. -/
def SameButTables (s t : State) : Prop := t = { s with routing := { s.routing with
  parity := t.routing.parity, bundles := t.routing.bundles, trees := t.routing.trees, explA := t.routing.explA,
  explB := t.routing.explB, podA := t.routing.podA, podB := t.routing.podB, ep0 := t.routing.ep0, ep1 := t.routing.ep1 } }

theorem SameButTables.trans {s t u : State} (h : SameButTables s t) (g : SameButTables t u) : SameButTables s u := by
  unfold SameButTables at h g ⊢
  exact g.trans (by rw [h])

theorem SameButTables.foldl {α : Type} {f : State → α → State} (step : ∀ s a, SameButTables s (f s a)) (l : List α) (s : State) :
    SameButTables s (l.foldl f s) := by
  induction l generalizing s with
  | nil => rfl
  | cons a l ih => exact (step s a).trans (ih _)

/-- Stated for any change of the trees: the 1,024 bits of an empty tree's mask are then not evaluated. -/
theorem modTrees_sameButTables (f : Tab Tree → Tab Tree) (s : State) :
    SameButTables s (s.modRouting fun r => { r with trees := f r.trees }) := rfl

theorem invalidate_sameButTables (half : Nat) (k : TableKind) (n : Nat) (s : State) : SameButTables s (invalidate half k n s) := by
  cases k with
  | endpoint =>
    rw [invalidate, modEp_eq]
    rfl
  | tree => exact modTrees_sameButTables (fun t => tset t {} n {}) s
  | _ => rfl

theorem makeAbsent_sameButTables (k : TableKind) (s : State) (c : Nat × Nat) : SameButTables s (makeAbsent k s c) :=
  have marks (f : Routing → List ParityMark) (s : State) : SameButTables s (s.modRouting fun r => { r with parity := f r }) := rfl
  ((marks _ s).trans (invalidate_sameButTables c.1 k c.2 _)).trans (marks _ _)

section
variable (k : TableKind) (s : State) (c : Nat × Nat)

theorem makeAbsent_tables :
    (makeAbsent k s c).routing.bundles = (if k = .bundle then tset s.routing.bundles {} c.2 {} else s.routing.bundles) ∧
    (makeAbsent k s c).routing.trees = (if k = .tree then tset s.routing.trees {} c.2 {} else s.routing.trees) ∧
    (makeAbsent k s c).routing.explA = (if k = .explicitA then tset s.routing.explA {} c.2 {} else s.routing.explA) ∧
    (makeAbsent k s c).routing.explB = (if k = .explicitB then tset s.routing.explB {} c.2 {} else s.routing.explB) ∧
    (makeAbsent k s c).routing.podA = (if k = .podA then tset s.routing.podA {} c.2 {} else s.routing.podA) ∧
    (makeAbsent k s c).routing.podB = (if k = .podB then tset s.routing.podB {} c.2 {} else s.routing.podB) := by
  cases k with
  | endpoint =>
    rw [makeAbsent, invalidate, modEp_eq]
    exact ⟨rfl, rfl, rfl, rfl, rfl, rfl⟩
  | tree => simp only [makeAbsent, invalidate, State.modRouting_routing, reduceCtorEq, if_false, if_true, unmark, and_self]
  | _ => exact ⟨rfl, rfl, rfl, rfl, rfl, rfl⟩

theorem makeAbsent_endpoints (h : k ≠ .endpoint) :
    (makeAbsent k s c).routing.ep0 = s.routing.ep0 ∧ (makeAbsent k s c).routing.ep1 = s.routing.ep1 := by
  cases k with
  | endpoint => exact absurd rfl h
  | tree => simp only [makeAbsent, invalidate, State.modRouting_routing, unmark, and_self]
  | _ => exact ⟨rfl, rfl⟩

theorem makeAbsent_parity : (makeAbsent k s c).routing.parity =
    { half := c.1, table := k, index := c.2, noted := true, dead := true } ::
      s.routing.parity.filter fun m => !(m.half == c.1 && m.table == k && m.index == c.2) := by
  cases k with
  | endpoint =>
    rw [makeAbsent, invalidate, modEp_eq]
    rfl
  | tree => simp only [makeAbsent, invalidate, State.modRouting_routing, unmark]
  | _ => rfl

end

/-! ### The tables after both copies of an entry are lost -/

/-- The entry that a table of one kind holds at an index is empty in the second state; nothing else of the tables that both halves
share is another. -/
structure Cleared (k : TableKind) (n : Nat) (s t : State) : Prop where
  bundles : ∀ j, theBundle t j = if k = .bundle ∧ j = n then {} else theBundle s j
  trees : ∀ j, tget t.routing.trees {} j = if k = .tree ∧ j = n then {} else tget s.routing.trees {} j
  explA : ∀ j, tget (explOf t .a) {} j = if k = .explicitA ∧ j = n then {} else tget (explOf s .a) {} j
  explB : ∀ j, tget (explOf t .b) {} j = if k = .explicitB ∧ j = n then {} else tget (explOf s .b) {} j
  podA : ∀ j, tget (podsOf t .a) {} j = if k = .podA ∧ j = n then {} else tget (podsOf s .a) {} j
  podB : ∀ j, tget (podsOf t .b) {} j = if k = .podB ∧ j = n then {} else tget (podsOf s .b) {} j
  endpoints : k ≠ .endpoint → t.routing.ep0 = s.routing.ep0 ∧ t.routing.ep1 = s.routing.ep1

theorem ite_same_twice {α : Type} (p : Prop) [Decidable p] (a b : α) : (if p then a else if p then a else b) = if p then a else b := by
  split <;> rfl

theorem Cleared.trans {k : TableKind} {n : Nat} {s t u : State} (h : Cleared k n s t) (g : Cleared k n t u) : Cleared k n s u where
  bundles j := by rw [g.bundles, h.bundles, ite_same_twice]
  trees j := by rw [g.trees, h.trees, ite_same_twice]
  explA j := by rw [g.explA, h.explA, ite_same_twice]
  explB j := by rw [g.explB, h.explB, ite_same_twice]
  podA j := by rw [g.podA, h.podA, ite_same_twice]
  podB j := by rw [g.podB, h.podB, ite_same_twice]
  endpoints other := ⟨(g.endpoints other).1.trans (h.endpoints other).1, (g.endpoints other).2.trans (h.endpoints other).2⟩

/-- A table of which one entry may be emptied. -/
theorem tget_ite_tset {α : Type} [DecidableEq α] {d : α} {t u : Tab α} {p : Prop} [Decidable p] {m n : Nat}
    (h : u = if p then tset t d m d else t) (same : p → m = n) (j : Nat) :
    tget u d j = if p ∧ j = n then d else tget t d j := by
  subst h
  by_cases hp : p
  · rw [if_pos hp, tget_tset_any, same hp]
    exact if_congr (by simp [hp, eq_comm]) rfl rfl
  · rw [if_neg hp, if_neg (fun both => hp both.1)]

theorem makeAbsent_cleared {k : TableKind} {n : Nat} (s : State) {c : Nat × Nat} (same : k ≠ .endpoint → c.2 = n) :
    Cleared k n s (makeAbsent k s c) := by
  obtain ⟨bundles, trees, explA, explB, podA, podB⟩ := makeAbsent_tables k s c
  exact {
    bundles := tget_ite_tset bundles fun kind => same (by rw [kind]; decide)
    trees := tget_ite_tset trees fun kind => same (by rw [kind]; decide)
    explA := tget_ite_tset explA fun kind => same (by rw [kind]; decide)
    explB := tget_ite_tset explB fun kind => same (by rw [kind]; decide)
    podA := tget_ite_tset podA fun kind => same (by rw [kind]; decide)
    podB := tget_ite_tset podB fun kind => same (by rw [kind]; decide)
    endpoints := makeAbsent_endpoints k s c }

theorem Cleared.foldl {k : TableKind} {n : Nat} {s t : State} (h : Cleared k n s t) {l : List (Nat × Nat)}
    (same : k ≠ .endpoint → ∀ c ∈ l, c.2 = n) : Cleared k n s (l.foldl (makeAbsent k) t) := by
  induction l generalizing t with
  | nil => exact h
  | cons c l ih =>
    exact ih (h.trans (makeAbsent_cleared t fun other => same other c List.mem_cons_self))
      fun other b hb => same other b (List.mem_cons_of_mem _ hb)

theorem loseEntry_cleared (half : Nat) (k : TableKind) (n : Nat) (s : State) : Cleared k n s (loseEntry half k n s) := by
  refine (makeAbsent_cleared s fun _ => rfl : Cleared k n s (makeAbsent k s (half, n))).foldl fun other c hc => ?_
  rw [if_neg other] at hc
  rw [List.mem_singleton.mp hc]

theorem loseEntry_sameButTables (half : Nat) (k : TableKind) (n : Nat) (s : State) : SameButTables s (loseEntry half k n s) :=
  .foldl (makeAbsent_sameButTables k) _ s

/-! ### The copies after both are lost -/

/-- A copy of an entry is marked as one that neither half can repair, and in the endpoint table its way is empty. -/
def Absent (k : TableKind) (c : Nat × Nat) (s : State) : Prop :=
  isDead s c.1 k c.2 = true ∧ (k = .endpoint → tget (epOf s c.1) {} c.2 = {})

theorem tget_epOf_makeAbsent (s : State) (c : Nat × Nat) (half j : Nat) : tget (epOf (makeAbsent .endpoint s c) half) {} j =
    if (c.1 = 0 ↔ half = 0) ∧ c.2 = j then {} else tget (epOf s half) {} j := by
  have table : epOf (makeAbsent .endpoint s c) half =
      if c.1 = 0 ↔ half = 0 then tset (epOf s half) {} c.2 {} else epOf s half := epOf_modEp ..
  by_cases own : c.1 = 0 ↔ half = 0
  · rw [table, if_pos own, tget_tset_any]
    exact if_congr (by simp [own]) rfl rfl
  · rw [table, if_neg own, if_neg (fun both => own both.1)]

theorem absent_makeAbsent_self (k : TableKind) (s : State) (c : Nat × Nat) : Absent k c (makeAbsent k s c) := by
  refine ⟨?_, ?_⟩
  · rw [isDead, makeAbsent_parity, List.any_cons]
    simp
  · rintro rfl
    rw [tget_epOf_makeAbsent, if_pos ⟨Iff.rfl, rfl⟩]

/-- A copy that is absent stays so when another becomes absent. -/
theorem Absent.makeAbsent {k : TableKind} {b : Nat × Nat} {s : State} (h : Absent k b s) (c : Nat × Nat) :
    Absent k b (makeAbsent k s c) := by
  obtain ⟨dead, empty⟩ := h
  refine ⟨?_, ?_⟩
  · by_cases same : b = c
    · exact same ▸ (absent_makeAbsent_self k s c).1
    · obtain ⟨m, hm, marks⟩ := List.any_eq_true.mp dead
      rw [isDead, makeAbsent_parity]
      refine List.any_eq_true.mpr ⟨m, List.mem_cons_of_mem _ (List.mem_filter.mpr ⟨hm, ?_⟩), marks⟩
      simp only [Bool.and_eq_true, beq_iff_eq] at marks
      obtain ⟨⟨⟨half, -⟩, index⟩, -⟩ := marks
      rw [Bool.not_eq_true', ← Bool.not_eq_true]
      intro atC
      simp only [Bool.and_eq_true, beq_iff_eq] at atC
      obtain ⟨⟨half', -⟩, index'⟩ := atC
      exact same (Prod.ext (half.symm.trans half') (index.symm.trans index'))
  · rintro rfl
    rw [tget_epOf_makeAbsent, empty rfl, ite_self]

theorem absent_foldl {k : TableKind} {l : List (Nat × Nat)} {c : Nat × Nat} {s : State} (h : c ∈ l ∨ Absent k c s) :
    Absent k c (l.foldl (makeAbsent k) s) := by
  induction l generalizing s with
  | nil => exact h.resolve_left List.not_mem_nil
  | cons b l ih =>
    refine ih ?_
    rcases h with h | h
    · rcases List.mem_cons.mp h with rfl | h
      · exact .inr (absent_makeAbsent_self k s c)
      · exact .inl h
    · exact .inr (h.makeAbsent b)

theorem absent_loseEntry {half : Nat} {k : TableKind} {n : Nat} {s : State} {c : Nat × Nat} (h : c ∈ copiesOf s half k n) :
    Absent k c (loseEntry half k n s) := absent_foldl (.inl h)

end Sys2Proof.Machine

namespace Sys2Proof.Proofs

open Sys2Proof.Machine

/-- Settles O12: each clause is the lemma that says what its row does in the states that the clause describes. -/
theorem learningAgeingDrainingRepair : Obligations.LearningAgeingDrainingRepair := by
  unfold Obligations.LearningAgeingDrainingRepair
  refine ⟨fun half s empty => next_congr (learnUpdate_of_empty empty), ?learn,
    fun half s never => next_congr (ageingVisit_of_never half never), ?age,
    fun s drains ended => next_congr (drainWindowEnd_of_ended drains ended),
    fun s drains runs => next_congr (drainWindowEnd_of_runs drains runs), ?repair, ?fails, ?empty⟩
  case learn =>
    intro half s u rest queue sound t old now16 new
    refine ⟨fun k static => ?_, fun noStatic k learned => ⟨fun same => ?_, fun other => ?_⟩, fun noStatic noLearned =>
      ⟨fun k free => ?_, fun used => ⟨fun k evicted => ?_, fun statics => ?_⟩⟩⟩
    · exact next_congr (learnUpdate_of_static queue sound static)
    · exact next_congr (learnUpdate_of_sameBundle queue sound noStatic learned same)
    · exact next_congr (learnUpdate_of_otherBundle queue sound noStatic learned other)
    · exact next_congr (learnUpdate_of_freeWay queue sound noStatic noLearned free)
    · exact next_congr (learnUpdate_of_eviction queue sound noStatic noLearned used evicted)
    · exact next_congr (learnUpdate_of_allStatic queue sound noStatic noLearned used statics)
  case age =>
    intro half s ages
    exact ⟨removeAged half s, next_congr (ageingVisit_of_age half ages), epOf_removeAged half s, epOf_removeAged_other half s,
      counter_removeAged half s, fun c other => counter_removeAged_other half s other, removeAged_eq half s⟩
  case repair =>
    intro half k n other s u learned
    refine ⟨fun isL => next_congr (parityRepair_of_learned other isL), fun kept copy => ?_, fun kept copy => ?_⟩
    · subst copy
      exact next_congr (parityRepair_of_goodCopy kept)
    · subst copy
      have tells : Tells s u := noteFailure_tells half k n s
      obtain ⟨bundles, trees, explA, explB, podA, podB, endpoints⟩ := loseEntry_cleared half k n u
      simp only [theBundle, explOf, podsOf, tells.routing] at bundles trees explA explB podA podB endpoints
      refine ⟨loseEntry half k n u, next_congr (parityRepair_of_noCopy kept), fun c hc => ?_, bundles, trees, explA, explB,
        podA, podB, endpoints, loseEntry_sameButTables half k n u⟩
      obtain ⟨dead, empty⟩ : Absent k c (loseEntry half k n u) := absent_loseEntry (noteFailure_copiesOf.symm ▸ hc)
      exact ⟨parityBad_of_isDead dead, dead, fun kind _ => empty kind⟩
  case fails =>
    intro half k n s
    exact ⟨markParity half [(k, n)] s, rfl, parityBad_markParity half k n s, markParity_eq half k n s⟩
  case empty =>
    intro half n s
    exact ⟨epOf_modEp_same .., parityBad_unmark ..⟩

end Sys2Proof.Proofs
end

section
/-! SUPPORT. The reads of the routing tables and of a barn's queues and cells (R63, R71, R84, R91, R114), and the rows that end a
detached write (R63, R74, R355): each refusal, and what goes to host memory. -/

namespace Sys2Proof.Machine

/-! ### ROUTE_READ -/

/-- The entries of the table that ROUTE_READ names. -/
def routeTableSize (args : List Word) : Nat := if argN args 2 = 0 then 65536 else 256

section
variable {args : List Word} {s : State}

theorem routeRead_of_badVersion (h : 1 < argN args 1) : routeRead args s = cmdRefuse St.badArgument 1 s := if_pos h

variable (version : argN args 1 ≤ 1)
include version

theorem routeRead_of_badTable (h : 1 < argN args 2) : routeRead args s = cmdRefuse St.badArgument 2 s := by
  rw [routeRead, if_neg (by omega), if_pos h]

section
variable (table : argN args 2 ≤ 1)
include table

theorem routeRead_of_badFirst (h : routeTableSize args ≤ argN args 3) : routeRead args s = cmdRefuse St.badArgument 3 s := by
  rw [routeRead, if_neg (by omega), if_neg (by omega)]
  exact if_pos h

theorem routeRead_of_badCount (first : argN args 3 < routeTableSize args)
    (h : argN args 4 < 1 ∨ routeTableSize args < argN args 3 + argN args 4) : routeRead args s = cmdRefuse St.badArgument 4 s := by
  rw [routeRead, if_neg (by omega), if_neg (by omega)]
  exact (if_neg (Nat.not_le.mpr first)).trans (if_pos h)

end

theorem routeRead_of_explicit (table : argN args 2 = 0) (nonempty : 1 ≤ argN args 4) (fits : argN args 3 + argN args 4 ≤ 65536) :
    routeRead args s = cmdOk (hostWrite (arg64 args 5) ((List.range (argN args 4)).flatMap fun k =>
      leBytes 8 (explicitImg (explShown s (versionOf (argN args 1 == 1)) (argN args 3 + k)))) s) := by
  simp only [routeRead, table, if_true]
  rw [if_neg (by omega), if_neg (by omega), if_neg (by omega), if_neg (by omega)]

theorem routeRead_of_pods (table : argN args 2 = 1) (nonempty : 1 ≤ argN args 4) (fits : argN args 3 + argN args 4 ≤ 256) :
    routeRead args s = cmdOk (hostWrite (arg64 args 5) ((List.range (argN args 4)).flatMap fun k =>
      leBytes 4 (podImg (podShown s (versionOf (argN args 1 == 1)) (argN args 3 + k)))) s) := by
  simp only [routeRead, table, Nat.one_ne_zero, if_false]
  rw [if_neg (by omega), if_neg (by omega), if_neg (by omega), if_neg (by omega)]

end

/-! ### ENDPOINT_READ -/

section
variable {args : List Word} {s : State}

theorem endpointRead_of_badHalf (h : 1 < argN args 1) : endpointRead args s = cmdRefuse St.badArgument 1 s := if_pos h

variable (half : argN args 1 ≤ 1)
include half

theorem endpointRead_of_badFirst (h : 32768 ≤ argN args 2) : endpointRead args s = cmdRefuse St.badArgument 2 s := by
  rw [endpointRead, if_neg (by omega), if_pos h]

theorem endpointRead_of_badCount (first : argN args 2 < 32768) (h : argN args 3 < 1 ∨ 32768 < argN args 2 + argN args 3) :
    endpointRead args s = cmdRefuse St.badArgument 3 s := by
  rw [endpointRead, if_neg (by omega), if_neg (by omega), if_pos h]

theorem endpointRead_of_range (nonempty : 1 ≤ argN args 3) (fits : argN args 2 + argN args 3 ≤ 32768) : endpointRead args s =
    cmdOk (hostWrite (arg64 args 4) ((List.range (8 * argN args 3)).flatMap fun k =>
      leBytes 8 (epImg (epShown s (argN args 1) (8 * argN args 2 + k)))) s) := by
  rw [endpointRead, if_neg (by omega), if_neg (by omega), if_neg (by omega)]

end

/-! ### CORE_QUEUE_READ -/

@[simp] theorem fetched_theBarn (i : Instr) (s : State) (b : Nat) : theBarn (fetched i s) b = theBarn s b := by
  simp only [theBarn, fetched_core]

section
variable {args : List Word} {s : State}

theorem coreQueueRead_of_noBarn (h : 16 ≤ argN args 1) : coreQueueRead args s = cmdRefuse St.badArgument 1 s := if_pos h

variable (barn : argN args 1 < 16)
include barn

theorem coreQueueRead_of_badForm (h : 1 < argN args 2) : coreQueueRead args s = cmdRefuse St.badArgument 2 s := by
  obtain ⟨k, form⟩ : ∃ k, argN args 2 = k + 2 := ⟨argN args 2 - 2, by omega⟩
  rw [coreQueueRead, if_neg (by omega)]
  simp only [form]

section
variable (form : argN args 2 = 0)
include form

theorem coreQueueRead_of_badQueue (h : 643 ≤ argN args 3) : coreQueueRead args s = cmdRefuse St.badArgument 3 s := by
  rw [coreQueueRead, if_neg (by omega), form]
  exact if_pos h

theorem coreQueueRead_of_queue (h : argN args 3 < 643) :
    coreQueueRead args s = cmdOk (hostWrite (arg64 args 4) (queueBytes s (argN args 1) (argN args 3)) s) := by
  rw [coreQueueRead, if_neg (by omega), form]
  exact if_neg (by omega)

end

variable (form : argN args 2 = 1)
include form

theorem coreQueueRead_of_badFirst (h : (theBarn s (argN args 1)).bufCells ≤ argN args 3) :
    coreQueueRead args s = cmdRefuse St.badArgument 3 s := by
  rw [coreQueueRead, if_neg (by omega), form]
  exact if_pos h

theorem coreQueueRead_of_badCount (first : argN args 3 < (theBarn s (argN args 1)).bufCells)
    (h : argN args 4 < 1 ∨ (theBarn s (argN args 1)).bufCells < argN args 3 + argN args 4) :
    coreQueueRead args s = cmdRefuse St.badArgument 4 s := by
  rw [coreQueueRead, if_neg (by omega), form]
  exact (if_neg (by omega)).trans (if_pos h)

theorem coreQueueRead_of_cells (nonempty : 1 ≤ argN args 4) (fits : argN args 3 + argN args 4 ≤ (theBarn s (argN args 1)).bufCells) :
    coreQueueRead args s = cmdOk (hostWrite (arg64 args 5) ((List.range (argN args 4)).flatMap fun k =>
      leBytes 8 (cellImg (tget (theBarn s (argN args 1)).cells {} (argN args 3 + k)))) s) := by
  rw [coreQueueRead, if_neg (by omega), form]
  exact (if_neg (by omega)).trans (if_neg (by omega))

end

/-! ### Rows that end a detached command -/

theorem endOldest_of_none {op : Nat} (status detail : Nat) {s : State} (h : ∀ x ∈ s.hearth.detached, x.cmd.opcode ≠ op) :
    endOldest op status detail s = s := by
  have none : (s.hearth.detached.find? fun d => d.cmd.opcode == op) = none := by simpa using h
  simp only [endOldest, none]

theorem endOldest_of_found {op : Nat} (status detail : Nat) {s : State} {d : Detached}
    (h : (s.hearth.detached.find? fun d => d.cmd.opcode == op) = some d) :
    endOldest op status detail s = endWith d.cmd status detail s := by
  simp only [endOldest, h]

theorem spillPlaced_of_none {s : State} (h : ∀ x ∈ s.hearth.detached, ∀ g m, x.work ≠ .spill g m) : spillPlaced s = s := by
  unfold spillPlaced
  split
  · next found =>
    obtain ⟨d, hd, spills⟩ := List.exists_of_findSome?_eq_some found
    split at spills
    · next work => exact absurd work (h d hd _ _)
    · cases spills
  · rfl

end Sys2Proof.Machine
end

section
/-! SUPPORT. The status records (R222, R244, R321, R373, R434). -/

namespace Sys2Proof.Machine

/-! ### TIME_STATUS_READ (R321) -/

theorem floor_ne_of_den_ne_one {q : Rat} (h : q.den ≠ 1) : (q.floor : Rat) ≠ q :=
  fun whole => h (whole ▸ Rat.den_intCast q.floor)

/-- A value in whole units is less than one unit off. -/
theorem toUnits_near (q : Rat) (s : State) :
    ∃ (r : Int) (n : Nat), toUnits q s = (r, { s with free := n }) ∧ (r : Rat) - 1 < q ∧ q < (r : Rat) + 1 := by
  have low : (q.floor : Rat) ≤ q := Int.floor_le q
  have high : q < (q.floor : Rat) + 1 := Int.lt_floor_add_one q
  by_cases whole : q.den = 1
  · have same : (q.num : Rat) = q := Rat.coe_int_num_of_den_eq_one whole
    exact ⟨q.num, s.free, if_pos whole, by linarith, by linarith⟩
  · have strict : (q.floor : Rat) < q := lt_of_le_of_ne low (floor_ne_of_den_ne_one whole)
    have least : (0 : Rat) ≤ (freeBelow s 2 : Nat) := Nat.cast_nonneg _
    have most : ((freeBelow s 2 : Nat) : Rat) ≤ 1 := by exact_mod_cast Nat.lt_succ_iff.mp (Nat.mod_lt _ two_pos)
    exact ⟨q.floor + (freeBelow s 2 : Nat), s.free + 1, if_neg whole, by push_cast; linarith, by push_cast; linarith⟩

/-- The words of the time status record, with its RATE. -/
def timeRecord (r : Int) (t : TimeSt) : List Word :=
  [pack [(29, t.state), (27, t.srcKind), (26, bit t.stepRefused), (25, bit t.refSwitched), (15, t.srcPort)], w32i t.lastOffset] ++
    w64 (BitVec.ofInt 64 t.pending).toNat ++
    [w32i r, w32i t.pathDelay, w32 t.offsets, pack [(16, t.stepCount), (0, t.refusedCount)]]

theorem timeStatusRead_of_units {args : List Word} {s : State} {r : Int} {n : Nat}
    (h : toUnits (s.time.rate * 1000000000000) s = (r, { s with free := n })) : timeStatusRead args s =
      cmdOk (hostWrite (arg64 args 1) (wordsLe (timeRecord r s.time)) { s with free := n }) := by
  simp only [timeStatusRead, h, timeRecord]

@[simp] theorem fetched_fwSlot (i : Instr) (s : State) (k : Nat) : fwSlot (fetched i s) k = fwSlot s k := by
  simp only [fwSlot, fetched_hearth_slots]

end Sys2Proof.Machine
end

section
/-! SUPPORT. The attestation report, and the reads of the tag area, the calibration records and the fault logs (R380, R381, R391 to
R393, R395). -/

namespace Sys2Proof.Machine

/-! ### Lengths of byte strings -/

theorem length_leBytes (n v : Nat) : (leBytes n v).length = n := by
  induction n generalizing v with
  | zero => rfl
  | succ n ih => rw [leBytes, List.length_cons, ih]

theorem length_beBytes (n v : Nat) : (beBytes n v).length = n := by rw [beBytes, List.length_reverse, length_leBytes]

theorem length_shaStep (kw : Nat) (v : List Nat) : (shaStep kw v).length = v.length := by
  unfold shaStep
  split
  · simp only [List.length_cons, List.length_nil]
  · rfl

theorem length_shaRounds (n : Nat) (win v : List Nat) : (shaRounds n win v).length = v.length := by
  induction n generalizing win v with
  | zero => rfl
  | succ n ih => rw [shaRounds, ih, length_shaStep]

theorem length_shaBlocks (n : Nat) (v : List Nat) (l : List Byte) : (shaBlocks n v l).length = v.length := by
  induction n generalizing v l with
  | zero => rfl
  | succ n ih => rw [shaBlocks, ih, List.length_zipWith, length_shaRounds, Nat.min_self]

theorem length_wordsAt (n x : Nat) : (wordsAt n x).length = n := by
  induction n with
  | zero => rfl
  | succ n ih => rw [wordsAt, List.length_cons, ih]

/-- A digest is the hash value after some blocks, four bytes to a word. -/
theorem sha256_eq (l : List Byte) : ∃ n blocks, sha256 l = (shaBlocks n shaIv blocks).flatMap fun x => beBytes 4 x := ⟨_, _, rfl⟩

theorem length_sha256 (l : List Byte) : (sha256 l).length = 32 := by
  obtain ⟨n, blocks, eq⟩ := sha256_eq l
  have words : (shaBlocks n shaIv blocks).length = 8 := (length_shaBlocks ..).trans (length_wordsAt ..)
  rw [eq, List.length_flatMap]
  simp only [length_beBytes, List.map_const', List.sum_replicate, words]
  rfl

/-! ### ATTEST_REPORT -/

theorem freeBytes_eq (n : Nat) (s : State) : (freeBytes n s).1.length = n ∧ (freeBytes n s).2 = { s with free := s.free + n } := by
  induction n with
  | zero => exact ⟨rfl, rfl⟩
  | succ n ih =>
    obtain ⟨length, state⟩ := ih
    have next : freeBytes (n + 1) s =
        ((freeBytes n s).1 ++ [BitVec.ofNat 8 (freeBelow (freeBytes n s).2 256)], (freeBytes n s).2.tookFree) := by
      rw [freeBytes, List.range_succ, List.foldl_append]
      rfl
    rw [next, state]
    exact ⟨by rw [List.length_append, length, List.length_singleton], rfl⟩

/-- M_FW is 32 bytes, and takes nothing but free values; it is the digest of the running image where the image is given. -/
theorem measureFw_eq (s : State) : ∃ m n, measureFw s = (m, { s with free := n }) ∧ m.length = 32 ∧
    ((fwSlot s s.hearth.bootSlot).image ≠ [] → m = sha256 (fwSlot s s.hearth.bootSlot).image) := by
  by_cases given : (fwSlot s s.hearth.bootSlot).image = []
  · obtain ⟨length, state⟩ := freeBytes_eq 32 s
    refine ⟨(freeBytes 32 s).1, s.free + 32, ?_, length, fun no => absurd given no⟩
    rw [measureFw, if_pos given, ← state]
  · refine ⟨sha256 (fwSlot s s.hearth.bootSlot).image, s.free, ?_, length_sha256 _, fun _ => rfl⟩
    rw [measureFw, if_neg given]

theorem drawKey_range (s : State) : 1 ≤ drawKey s ∧ drawKey s < p256N := by
  have : freeBelow s (p256N - 1) < p256N - 1 := Nat.mod_lt _ (by decide)
  exact ⟨Nat.le_add_right .., by unfold drawKey; omega⟩

/-- The bytes of the report that are signed, with M_FW. -/
def attestMessage (args : List Word) (mfw : List Byte) (s : State) : List Byte :=
  attestHead (argWords args 1 8) s ++ mfw ++ sha256 (configImage s) ++ sha256 (tagArea s) ++ identityKey s

theorem attestReport_of_noIdentity (args : List Word) {s : State} (h : s.sec.life = 0 ∨ s.sec.life = 3) :
    attestReport args s = cmdRefuse St.lifecycleRefused 1 s := if_pos h

theorem attestReport_of_identity (args : List Word) {s : State} (h : ¬(s.sec.life = 0 ∨ s.sec.life = 3)) {m : List Byte} {n : Nat}
    (measured : measureFw s = (m, { s with free := n })) : attestReport args s =
      cmdOk (hostWrite (arg64 args 9) (attestMessage args m s ++
        ecdsaSign (s.sec.identity.getD 0) (drawKey { s with free := n }) (attestMessage args m s)) { s with free := n + 1 }) := by
  rw [attestReport, if_neg h, measured]
  rfl

@[simp] theorem fetched_isBase (i : Instr) (s : State) (p : Nat) : isBase (fetched i s) p = isBase s p := by
  simp only [isBase, fetched_link]
@[simp] theorem fetched_configImage (i : Instr) (s : State) : configImage (fetched i s) = configImage s := by
  simp only [configImage, fetched_sec, fetched_jobs, fetched_isBase, portPartition, theWindow, fetched_mem]

theorem attestMessage_fetched (i : Instr) (args : List Word) (mfw : List Byte) (s : State) : attestMessage args mfw (fetched i s) =
    attestHead (argWords args 1 8) (fetched i s) ++ mfw ++ sha256 (configImage s) ++ sha256 (memRead s.sec.tag 0 512) ++
      identityKey s := by
  rw [attestMessage, fetched_configImage, tagArea, identityKey, fetched_sec]
  rfl

/-! ### TAG_READ -/

section
variable {args : List Word} {s : State}

theorem tagRead_of_badOffset (h : argN args 1 % 4 ≠ 0 ∨ 512 ≤ argN args 1) : tagRead args s = cmdRefuse St.badArgument 1 s := by
  rw [tagRead, tagRangeBad, if_pos h]

variable (aligned : argN args 1 % 4 = 0) (low : argN args 1 < 512)
include aligned low

theorem tagRead_of_badLength (h : argN args 2 % 4 ≠ 0 ∨ argN args 2 < 4 ∨ 512 - argN args 1 < argN args 2) :
    tagRead args s = cmdRefuse St.badArgument 2 s := by
  rw [tagRead, tagRangeBad, if_neg (by omega), if_pos h]

theorem tagRead_of_range (h : argN args 2 % 4 = 0) (nonempty : 4 ≤ argN args 2) (fits : argN args 1 + argN args 2 ≤ 512) :
    tagRead args s = cmdOk (hostWrite (arg64 args 3) (memRead s.sec.tag (argN args 1) (argN args 2)) s) := by
  rw [tagRead, tagRangeBad, if_neg (by omega), if_neg (by omega)]

end

/-! ### CAL_USER_READ -/

@[simp] theorem fetched_calGet (i : Instr) (s : State) (kind k : Nat) : calGet (fetched i s) kind k = calGet s kind k := by
  simp only [calGet, fetched_sec]

theorem calCount_of_kind {kind : Nat} (h : kind ≤ 4) :
    calCount kind = if kind = 0 then 16 else if kind = 1 ∨ kind = 4 then 80 else 1024 := by
  interval_cases kind <;> rfl

section
variable {args : List Word} {s : State}

theorem calUserRead_of_badKind (h : 4 < argN args 1) : calUserRead args s = cmdRefuse St.badArgument 1 s := if_pos h

variable (kind : argN args 1 ≤ 4)
include kind

theorem calUserRead_of_badFirst (h : calCount (argN args 1) ≤ argN args 2) :
    calUserRead args s = cmdRefuse St.badArgument 2 s := by
  rw [calUserRead, if_neg (by omega), if_pos h]

theorem calUserRead_of_badCount (first : argN args 2 < calCount (argN args 1))
    (h : argN args 3 < 1 ∨ calCount (argN args 1) < argN args 2 + argN args 3) :
    calUserRead args s = cmdRefuse St.badArgument 3 s := by
  rw [calUserRead, if_neg (by omega), if_neg (by omega), if_pos h]

theorem calUserRead_of_range (nonempty : 1 ≤ argN args 3) (fits : argN args 2 + argN args 3 ≤ calCount (argN args 1)) :
    calUserRead args s = cmdOk (hostWrite (arg64 args 4)
      (wordsLe ((List.range (argN args 3)).map fun k => w32i (calGet s (argN args 1) (argN args 2 + k)))) s) := by
  rw [calUserRead, if_neg (by omega), if_neg (by omega), if_neg (by omega)]

end

/-! ### FAULT_LOG_READ -/

/-- The log that FAULT_LOG_READ names. -/
def faultLog (args : List Word) (s : State) : List LogEntry := if argN args 1 = 0 then s.sec.volLog else s.sec.persLog

/-- The entries that the log named can hold. -/
def faultLogSize (args : List Word) : Nat := if argN args 1 = 0 then 1024 else 256

/-- The 64 bytes that one place of a log reads as; an entry that is not there reads 0. -/
def logBytes (log : List LogEntry) (k : Nat) : List Byte :=
  match log[k]? with
  | some e => logImg e
  | none => List.replicate 64 0

section
variable {args : List Word} {s : State}

theorem faultLogRead_of_noLog (h : 1 < argN args 1) : faultLogRead args s = cmdRefuse St.badArgument 1 s := if_pos h

variable (log : argN args 1 ≤ 1)
include log

theorem faultLogRead_of_badFirst (h : faultLogSize args ≤ argN args 2) : faultLogRead args s = cmdRefuse St.badArgument 2 s :=
  (if_neg (by omega)).trans (if_pos h)

theorem faultLogRead_of_badCount (first : argN args 2 < faultLogSize args)
    (h : argN args 3 < 1 ∨ faultLogSize args < argN args 2 + argN args 3) :
    faultLogRead args s = cmdRefuse St.badArgument 3 s :=
  (if_neg (by omega)).trans ((if_neg (Nat.not_le.mpr first)).trans (if_pos h))

theorem faultLogRead_of_range (nonempty : 1 ≤ argN args 3) (fits : argN args 2 + argN args 3 ≤ faultLogSize args) :
    faultLogRead args s = cmdOk (hostWrite (arg64 args 4)
      ((List.range (argN args 3)).flatMap fun k => logBytes (faultLog args s) (argN args 2 + k)) s) :=
  (if_neg (by omega)).trans ((if_neg (show ¬faultLogSize args ≤ argN args 2 by omega)).trans
    (if_neg (show ¬(argN args 3 < 1 ∨ faultLogSize args < argN args 2 + argN args 3) by omega)))

end

end Sys2Proof.Machine

namespace Sys2Proof.Proofs

open Sys2Proof.Machine

/-- Settles O59: each clause is the lemma that says what its read or its row does with the operands that the clause describes. -/
theorem otherReadsAndEnds : Obligations.OtherReadsAndEnds := by
  unfold Obligations.OtherReadsAndEnds
  refine ⟨?routeRead, ?endpointRead, ?coreQueueRead, ?memStatus, ?kilnStatus, ?timeStatus, ?powerStatus, ?fwStatus, ?attest,
    ?tagRead, ?calUserRead, ?faultLogRead, ?ends⟩
  case routeRead =>
    intro h args s i first n v f acc
    have refused {d : Nat} (hb : routeRead args f = cmdRefuse St.badArgument d f) :
        exec i s = .next (refusedEnd i s St.badArgument d) := run_refused rfl acc (exec_routeRead h args s) hb
    refine ⟨fun bad => refused (routeRead_of_badVersion bad), fun version bad => refused (routeRead_of_badTable version bad),
      fun version table => ⟨fun bad => refused (routeRead_of_badFirst version table bad),
        fun low bad => refused (routeRead_of_badCount version table low bad)⟩,
      fun version table nonempty fits => run_ok rfl acc (exec_routeRead h args s) (routeRead_of_explicit version table nonempty fits),
      fun version table nonempty fits => run_ok rfl acc (exec_routeRead h args s) (routeRead_of_pods version table nonempty fits)⟩
  case endpointRead =>
    intro h args s i first n f acc
    have refused {d : Nat} (hb : endpointRead args f = cmdRefuse St.badArgument d f) :
        exec i s = .next (refusedEnd i s St.badArgument d) := run_refused rfl acc (exec_endpointRead h args s) hb
    exact ⟨fun bad => refused (endpointRead_of_badHalf bad), fun half bad => refused (endpointRead_of_badFirst half bad),
      fun half low bad => refused (endpointRead_of_badCount half low bad),
      fun half nonempty fits => run_ok rfl acc (exec_endpointRead h args s) (endpointRead_of_range half nonempty fits)⟩
  case coreQueueRead =>
    intro h args s i b n f acc
    have refused {d : Nat} (hb : coreQueueRead args f = cmdRefuse St.badArgument d f) :
        exec i s = .next (refusedEnd i s St.badArgument d) := run_refused rfl acc (exec_coreQueueRead h args s) hb
    have cells : (theBarn f b).bufCells = (theBarn s b).bufCells := by rw [fetched_theBarn]
    refine ⟨fun bad => refused (coreQueueRead_of_noBarn bad), fun barn bad => refused (coreQueueRead_of_badForm barn bad),
      fun barn form bad => refused (coreQueueRead_of_badQueue barn form bad),
      fun barn form bad => refused (coreQueueRead_of_badFirst barn form (cells.trans_le bad)),
      fun barn form low bad => refused (coreQueueRead_of_badCount barn form (low.trans_eq cells.symm) (cells ▸ bad)),
      fun barn form low => run_ok rfl acc (exec_coreQueueRead h args s) (coreQueueRead_of_queue barn form low),
      fun barn form nonempty fits => run_ok rfl acc (exec_coreQueueRead h args s)
        (coreQueueRead_of_cells barn form nonempty (fits.trans_eq cells.symm))⟩
  case memStatus =>
    intro h args s i f acc
    exact run_ok rfl acc (exec_memStatusRead h args s) rfl
  case kilnStatus =>
    intro h args s i f acc
    exact run_ok rfl acc (exec_kilnStatusRead h args s) rfl
  case timeStatus =>
    intro h args s i t acc
    obtain ⟨r, n, units, low, high⟩ := toUnits_near ((fetched i s).time.rate * 1000000000000) (fetched i s)
    have runs := run_ok rfl acc (exec_timeStatusRead h args s) (timeStatusRead_of_units units)
    rw [fetched_time] at low high
    rw [show timeRecord r (fetched i s).time = timeRecord r t by rw [fetched_time]] at runs
    exact ⟨r, n, low, high, runs⟩
  case powerStatus =>
    intro h args s i t acc
    exact ⟨run_ok rfl acc (exec_powerStatusRead h args s) rfl, rfl, (congrArg Power.on0 (fetched_power i s) :),
      (congrArg Power.on1 (fetched_power i s) :), (congrArg Power.trip (fetched_power i s) :)⟩
  case fwStatus =>
    intro h args s i x acc
    have runs := run_ok rfl acc (exec_fwStatusRead h args s) (rfl : fwStatusRead (fetched i s) = _)
    simp only [fetched_fwSlot, fetched_hearth_bootSlot, fetched_hearth_fwVersion, fetched_sec] at runs
    exact runs
  case attest =>
    intro h args s i acc
    refine ⟨fun no => ?_, fun made kept => ?_⟩
    · exact run_refused rfl acc (exec_attestReport h args s) (attestReport_of_noIdentity args ((fetched_sec i s).symm ▸ no))
    · have identity : ¬((fetched i s).sec.life = 0 ∨ (fetched i s).sec.life = 3) := by
        rw [fetched_sec]
        exact fun no => no.elim made kept
      obtain ⟨m, n, measured, length, digest⟩ := measureFw_eq (fetched i s)
      obtain ⟨pos, below⟩ := drawKey_range { fetched i s with free := n }
      have runs := run_ok rfl acc (exec_attestReport h args s) (attestReport_of_identity args identity measured)
      rw [attestMessage_fetched, show (fetched i s).sec.identity = s.sec.identity by rw [fetched_sec]] at runs
      rw [fetched_fwSlot, fetched_hearth_bootSlot] at digest
      exact ⟨m, _, n + 1, digest, length, pos, below, runs⟩
  case tagRead =>
    intro h args s i off n acc
    have refused {d : Nat} (hb : tagRead args (fetched i s) = cmdRefuse St.badArgument d (fetched i s)) :
        exec i s = .next (refusedEnd i s St.badArgument d) := run_refused rfl acc (exec_tagRead h args s) hb
    refine ⟨fun bad => refused (tagRead_of_badOffset bad), fun aligned low bad => refused (tagRead_of_badLength aligned low bad),
      fun aligned whole nonempty fits => ?_⟩
    have runs := run_ok rfl acc (exec_tagRead h args s) (tagRead_of_range aligned (by omega) whole nonempty fits)
    rw [fetched_sec] at runs
    exact runs
  case calUserRead =>
    intro h args s i kind count first n acc
    have refused {d : Nat} (hb : calUserRead args (fetched i s) = cmdRefuse St.badArgument d (fetched i s)) :
        exec i s = .next (refusedEnd i s St.badArgument d) := run_refused rfl acc (exec_calUserRead h args s) hb
    have size (k : kind ≤ 4) : calCount kind = count := calCount_of_kind k
    refine ⟨fun bad => refused (calUserRead_of_badKind bad),
      fun k bad => refused (calUserRead_of_badFirst k ((size k).trans_le bad)),
      fun k low bad => refused (calUserRead_of_badCount k (low.trans_eq (size k).symm) ((size k).symm ▸ bad)),
      fun k nonempty fits => ?_⟩
    have runs := run_ok rfl acc (exec_calUserRead h args s) (calUserRead_of_range k nonempty (fits.trans_eq (size k).symm))
    simp only [fetched_calGet] at runs
    exact runs
  case faultLogRead =>
    intro h args s i log cap first n acc
    have refused {d : Nat} (hb : faultLogRead args (fetched i s) = cmdRefuse St.badArgument d (fetched i s)) :
        exec i s = .next (refusedEnd i s St.badArgument d) := run_refused rfl acc (exec_faultLogRead h args s) hb
    refine ⟨fun bad => refused (faultLogRead_of_noLog bad), fun named bad => refused (faultLogRead_of_badFirst named bad),
      fun named low bad => refused (faultLogRead_of_badCount named low bad), fun named nonempty fits => ?_⟩
    have runs := run_ok rfl acc (exec_faultLogRead h args s) (faultLogRead_of_range named nonempty fits)
    rw [faultLog, fetched_sec] at runs
    exact runs
  case ends =>
    intro s
    exact ⟨fun none => next_congr (endOldest_of_none _ _ none), fun d found => next_congr (endOldest_of_found _ _ found),
      fun none => next_congr (endOldest_of_none _ _ none), fun d found => next_congr (endOldest_of_found _ _ found),
      fun none => next_congr (spillPlaced_of_none none)⟩

end Sys2Proof.Proofs
end

section
/-! SUPPORT. The switch core's commands (R90, R99, R102, R105, R109, R112, R115): each refusal, and what an accepted command does. -/

namespace Sys2Proof.Machine

/-! ### After the fetch of an entry -/

@[simp] theorem fetched_insidePort (i : Instr) (s : State) (p : Nat) : insidePort (fetched i s) p = insidePort s p := by
  simp only [insidePort, fetched_portOfLane]
@[simp] theorem fetched_barnPortEnabled (i : Instr) (s : State) (b : Nat) :
    barnPortEnabled (fetched i s) b = barnPortEnabled s b := by
  simp only [barnPortEnabled, fetched_link]
@[simp] theorem fetched_holdsSpill (i : Instr) (s : State) : holdsSpill (fetched i s) = holdsSpill s := by
  simp only [holdsSpill, fetched_core]
@[simp] theorem fetched_spillFits (i : Instr) (s : State) (g : Nat) : spillFits (fetched i s) g = spillFits s g := by
  rw [fetched_eq]
  rfl
@[simp] theorem fetched_creditFits_withSpill (i : Instr) (g : Nat) (m : BitVec 8) (s : State) (b : Nat) :
    creditFits (withSpill g m (fetched i s)) b = creditFits (withSpill g m s) b := by
  rw [fetched_eq]
  rfl
@[simp] theorem fetched_thePlane (i : Instr) (s : State) (p : Nat) : thePlane (fetched i s) p = thePlane s p := by
  simp only [thePlane, fetched_core]

/-! ### CORE_BUF -/

/-- The packet buffer that CORE_BUF names is in range. -/
def BufOk (args : List Word) : Prop := 16384 ≤ argN args 2 ∧ argN args 2 ≤ 49152 ∧ argN args 2 % 4096 = 0

/-- The egress account that CORE_BUF names is in range. -/
def EgOk (args : List Word) : Prop := 4096 ≤ argN args 3 ∧ argN args 3 + 8192 ≤ argN args 2 ∧ argN args 3 % 1024 = 0

/-- The reserve of class 7 that CORE_BUF names is in range. -/
def C7Ok (args : List Word) : Prop := 512 ≤ argN args 4 ∧ argN args 4 ≤ 4096

/-- The limit of class `k` that CORE_BUF names is in range. -/
def MaxOk (args : List Word) (k : Nat) : Prop := 1024 ≤ argN args (5 + k) ∧ argN args (5 + k) ≤ argN args 3

/-- CORE_BUF moves the division of its barn. -/
def divisionMoves (args : List Word) (s : State) : Bool :=
  argN args 2 != (theBarn s (argN args 1)).bufCells || argN args 3 != (theBarn s (argN args 1)).egCells

/-- The division and the limits of CORE_BUF are in force; the cache is empty where the division has moved. -/
def divided (args : List Word) (moved : Bool) (s : State) : State :=
  modBarn (argN args 1) (fun x => { x with
    bufCells := argN args 2, egCells := argN args 3, egC7Reserve := argN args 4,
    egClassMax := [argN args 5, argN args 6, argN args 7, argN args 8, argN args 9, argN args 10, argN args 11],
    cache := if moved then [] else x.cache }) s

/-- The division of CORE_BUF leaves the Loft's other parts their room, and the barn's allowances theirs (R90, R105). -/
def DivisionFits (args : List Word) (s t : State) : Prop :=
  argN args 2 + (theBarn s (argN args 1)).stageCells + (theBarn s (argN args 1)).scratchCells + 4096 ≤ 65536 ∧
    creditOk t (argN args 1) = true

@[simp] theorem fetched_divisionMoves (i : Instr) (args : List Word) (s : State) :
    divisionMoves args (fetched i s) = divisionMoves args s := by
  simp only [divisionMoves, fetched_theBarn]

section
variable {args : List Word} {s : State}

theorem coreBuf_of_noBarn (h : 16 ≤ argN args 1) : coreBuf args s = cmdRefuse St.badArgument 1 s := if_pos h

variable (barn : argN args 1 < 16)
include barn

theorem coreBuf_of_badBuf (h : ¬BufOk args) : coreBuf args s = cmdRefuse St.badArgument 2 s := by
  unfold BufOk at h
  rw [coreBuf, if_neg (by omega), if_pos (by omega)]

variable (buf : BufOk args)
include buf

theorem coreBuf_of_badEg (h : ¬EgOk args) : coreBuf args s = cmdRefuse St.badArgument 3 s := by
  unfold BufOk at buf
  unfold EgOk at h
  rw [coreBuf, if_neg (by omega), if_neg (by omega), if_pos (by omega)]

variable (eg : EgOk args)
include eg

theorem coreBuf_of_badC7 (h : ¬C7Ok args) : coreBuf args s = cmdRefuse St.badArgument 4 s := by
  unfold BufOk at buf
  unfold EgOk at eg
  unfold C7Ok at h
  rw [coreBuf, if_neg (by omega), if_neg (by omega), if_neg (by omega), if_pos (by omega)]

variable (c7 : C7Ok args)
include c7

/-- A division in range, by the first limit that is not. -/
theorem coreBuf_of_division : coreBuf args s =
    match (List.range 7).find? fun k => decide (argN args (5 + k) < 1024 ∨ argN args 3 < argN args (5 + k)) with
    | some k => cmdRefuse St.badArgument (5 + k) s
    | none =>
      if 65536 < argN args 2 + (theBarn s (argN args 1)).stageCells + (theBarn s (argN args 1)).scratchCells + 4096 then
        cmdRefuse St.badArgument 2 s
      else if !creditOk (divided args (divisionMoves args s) s) (argN args 1) then cmdRefuse St.badArgument 2 s
      else if divisionMoves args s && barnPortEnabled s (argN args 1) then cmdRefuse St.busy 0 s
      else cmdOk (updateHolds (argN args 1) (divided args (divisionMoves args s) s)) := by
  unfold BufOk at buf
  unfold EgOk at eg
  unfold C7Ok at c7
  rw [coreBuf, if_neg (by omega), if_neg (by omega), if_neg (by omega), if_neg (by omega)]
  rfl

theorem coreBuf_of_badMax {k : Nat} (class_ : k < 7) (bad : ¬MaxOk args k) (first : ∀ j, j < k → MaxOk args j) :
    coreBuf args s = cmdRefuse St.badArgument (5 + k) s := by
  unfold MaxOk at bad first
  have found : (List.range 7).find? (fun k => decide (argN args (5 + k) < 1024 ∨ argN args 3 < argN args (5 + k))) = some k := by
    rw [List.find?_range_eq_some]
    refine ⟨decide_eq_true (by omega), List.mem_range.mpr class_, fun j before => ?_⟩
    have := first j before
    simpa using this
  rw [coreBuf_of_division barn buf eg c7, found]

variable (max : ∀ k, k < 7 → MaxOk args k)
include max

/-- A division whose values are all in range, by the sums that it must meet. -/
theorem coreBuf_of_ranges : coreBuf args s =
    if 65536 < argN args 2 + (theBarn s (argN args 1)).stageCells + (theBarn s (argN args 1)).scratchCells + 4096 then
      cmdRefuse St.badArgument 2 s
    else if !creditOk (divided args (divisionMoves args s) s) (argN args 1) then cmdRefuse St.badArgument 2 s
    else if divisionMoves args s && barnPortEnabled s (argN args 1) then cmdRefuse St.busy 0 s
    else cmdOk (updateHolds (argN args 1) (divided args (divisionMoves args s) s)) := by
  unfold MaxOk at max
  have none : (List.range 7).find? (fun k => decide (argN args (5 + k) < 1024 ∨ argN args 3 < argN args (5 + k))) = none := by
    simpa using max
  rw [coreBuf_of_division barn buf eg c7, none]

theorem coreBuf_of_noRoom (h : ¬DivisionFits args s (divided args (divisionMoves args s) s)) :
    coreBuf args s = cmdRefuse St.badArgument 2 s := by
  rw [coreBuf_of_ranges barn buf eg c7 max]
  split
  · rfl
  · next room => exact if_pos (by simpa using fun credit => h ⟨Nat.not_lt.mp room, credit⟩)

variable (fits : DivisionFits args s (divided args (divisionMoves args s) s))
include fits

theorem coreBuf_of_enabledPort (moves : divisionMoves args s = true) (enabled : barnPortEnabled s (argN args 1) = true) :
    coreBuf args s = cmdRefuse St.busy 0 s := by
  obtain ⟨room, credit⟩ := fits
  rw [coreBuf_of_ranges barn buf eg c7 max, if_neg (Nat.not_lt.mpr room), if_neg (by simp [credit]), if_pos (by simp [moves, enabled])]

theorem coreBuf_of_fits (quiet : divisionMoves args s = true → barnPortEnabled s (argN args 1) = false) :
    coreBuf args s = cmdOk (updateHolds (argN args 1) (divided args (divisionMoves args s) s)) := by
  obtain ⟨room, credit⟩ := fits
  rw [coreBuf_of_ranges barn buf eg c7 max, if_neg (Nat.not_lt.mpr room), if_neg (by simp [credit]), if_neg (by simpa using quiet)]

end

/-! ### CORE_CREDIT -/

/-- The allowance of CORE_CREDIT is in force. -/
def withAllow (args : List Word) (s : State) : State :=
  s.modCore fun k => { k with allow := tset k.allow 0 (argN args 1 * 8 + argN args 2) (argN args 3) }

section
variable {args : List Word} {s : State}

theorem coreCredit_of_noPort (h : ¬(argN args 1 < 1024 ∧ insidePort s (argN args 1) = false)) :
    coreCredit args s = cmdRefuse St.badArgument 1 s := by
  refine if_pos ?_
  by_contra port
  exact h (by simpa using port)

variable (port : argN args 1 < 1024 ∧ insidePort s (argN args 1) = false)
include port

theorem coreCredit_of_port : coreCredit args s =
    if 8 ≤ argN args 2 then cmdRefuse St.badArgument 2 s
    else if 8388607 < argN args 3 then cmdRefuse St.badArgument 3 s
    else if creditOk (withAllow args s) (barnOf (argN args 1)) then cmdOk (giveCredit (argN args 1) (argN args 2) (withAllow args s))
    else cmdRefuse St.badArgument 3 s :=
  if_neg (by simp [port])

theorem coreCredit_of_noClass (h : 8 ≤ argN args 2) : coreCredit args s = cmdRefuse St.badArgument 2 s :=
  (coreCredit_of_port port).trans (if_pos h)

variable (class_ : argN args 2 < 8)
include class_

theorem coreCredit_of_badAllowance (h : 8388607 < argN args 3 ∨ creditOk (withAllow args s) (barnOf (argN args 1)) = false) :
    coreCredit args s = cmdRefuse St.badArgument 3 s := by
  rw [coreCredit_of_port port, if_neg (by omega)]
  split
  · rfl
  · next range => exact if_neg (by simp [h.resolve_left range])

theorem coreCredit_of_fits (range : argN args 3 ≤ 8388607) (fits : creditOk (withAllow args s) (barnOf (argN args 1)) = true) :
    coreCredit args s = cmdOk (giveCredit (argN args 1) (argN args 2) (withAllow args s)) := by
  rw [coreCredit_of_port port, if_neg (by omega), if_neg (by omega), if_pos fits]

end

/-! ### CORE_SPILL and SPILL_REGION_PLACED -/

/-- The spill area that CORE_SPILL names fits the pool, and with it the allowances fit every barn. -/
def SpillAreaFits (args : List Word) (s : State) : Prop :=
  spillFits s (argN args 1) = true ∧ ∀ b, b < 16 → creditFits (withSpill (argN args 1) (BitVec.ofNat 8 (argN args 2)) s) b = true

/-- What keeps CORE_SPILL waiting: a spill area without the Granary, another size while cells are spilled. -/
def SpillBusy (args : List Word) (s : State) : Prop :=
  (argN args 1 ≠ 0 ∧ s.mem.granary ≠ .inService) ∨ (argN args 1 ≠ s.core.spillGib ∧ holdsSpill s = true)

theorem fetched_SpillAreaFits (i : Instr) (args : List Word) (s : State) :
    SpillAreaFits args (fetched i s) ↔ SpillAreaFits args s := by
  simp only [SpillAreaFits, fetched_spillFits, fetched_creditFits_withSpill]

theorem fetched_SpillBusy (i : Instr) (args : List Word) (s : State) : SpillBusy args (fetched i s) ↔ SpillBusy args s := by
  simp only [SpillBusy, fetched_mem, fetched_core, fetched_holdsSpill]

section
variable {args : List Word} {s : State} (c : CmdRef)

theorem coreSpill_of_badSize (h : 64 < argN args 1 ∨ argN args 1 % 8 ≠ 0) : coreSpill c args s = cmdRefuse St.badArgument 1 s :=
  if_pos h

variable (low : argN args 1 ≤ 64) (whole : argN args 1 % 8 = 0)
include low whole

theorem coreSpill_of_badMask (h : 127 < argN args 2) : coreSpill c args s = cmdRefuse St.badArgument 2 s := by
  rw [coreSpill, if_neg (by omega), if_pos h]

variable (mask : argN args 2 ≤ 127)
include mask

theorem coreSpill_of_noRoom (h : ¬SpillAreaFits args s) : coreSpill c args s = cmdRefuse St.badArgument 1 s := by
  rw [coreSpill, if_neg (by omega), if_neg (by omega)]
  split
  · rfl
  · next room =>
    refine if_pos ?_
    by_contra good
    exact h ⟨by simpa using room, by simpa using good⟩

variable (fits : SpillAreaFits args s)
include fits

/-- A spill area that fits, by what keeps it waiting. -/
theorem coreSpill_of_fits : coreSpill c args s =
    if argN args 1 ≠ 0 ∧ s.mem.granary ≠ .inService then cmdRefuse St.busy 0 s
    else if argN args 1 ≠ s.core.spillGib ∧ holdsSpill s then cmdRefuse St.busy 0 s
    else (addDetached c (.spill (argN args 1) (BitVec.ofNat 8 (argN args 2))) s, none) := by
  obtain ⟨room, credit⟩ := fits
  rw [coreSpill, if_neg (by omega), if_neg (by omega), if_neg (by simp [room]), if_neg (by simpa using credit)]

theorem coreSpill_of_busy (h : SpillBusy args s) : coreSpill c args s = cmdRefuse St.busy 0 s := by
  rw [coreSpill_of_fits c low whole mask fits]
  split
  · rfl
  · next served => exact if_pos (h.resolve_left served)

theorem coreSpill_of_free (h : ¬SpillBusy args s) :
    coreSpill c args s = (addDetached c (.spill (argN args 1) (BitVec.ofNat 8 (argN args 2))) s, none) := by
  obtain ⟨served, empty⟩ := not_or.mp h
  rw [coreSpill_of_fits c low whole mask fits, if_neg served, if_neg empty]

end

/-- What a detached CORE_SPILL asks for. -/
def spillAsked (d : Detached) : Option (CmdRef × Nat × BitVec 8) :=
  match d.work with
  | .spill g m => some (d.cmd, g, m)
  | _ => none

theorem spillAsked_of_other {d : Detached} (h : ∀ g m, d.work ≠ .spill g m) : spillAsked d = none := by
  unfold spillAsked
  split
  · next work => exact absurd work (h _ _)
  · rfl

theorem spillPlaced_eq (s : State) : spillPlaced s = (s.hearth.detached.findSome? spillAsked).elim s fun x =>
    if x.2.1 ≠ s.core.spillGib ∧ holdsSpill s then s else endWith x.1 St.ok 0 (withSpill x.2.1 x.2.2 s) := by
  change (match s.hearth.detached.findSome? spillAsked with
    | some (c, g, m) => _
    | none => _) = _
  cases s.hearth.detached.findSome? spillAsked <;> rfl

section
variable {s : State} {l r : List Detached} {c : CmdRef} {g : Nat} {m : BitVec 8} {muted : Bool}
  (oldest : s.hearth.detached = l ++ ⟨c, .spill g m, muted⟩ :: r) (first : ∀ d ∈ l, ∀ g m, d.work ≠ .spill g m)
include oldest first

/-- SPILL_REGION_PLACED looks at the oldest CORE_SPILL that has detached. -/
theorem spillPlaced_of_oldest :
    spillPlaced s = if g ≠ s.core.spillGib ∧ holdsSpill s then s else endWith c St.ok 0 (withSpill g m s) := by
  have others : l.findSome? spillAsked = none := List.findSome?_eq_none_iff.mpr fun d hd => spillAsked_of_other (first d hd)
  rw [spillPlaced_eq, oldest, List.findSome?_append, others]
  rfl

theorem spillPlaced_of_settled (h : g = s.core.spillGib ∨ holdsSpill s = false) :
    spillPlaced s = endWith c St.ok 0 (withSpill g m s) :=
  (spillPlaced_of_oldest oldest first).trans (if_neg (by rcases h with h | h <;> simp [h]))

theorem spillPlaced_of_spilled (size : g ≠ s.core.spillGib) (h : holdsSpill s = true) : spillPlaced s = s :=
  (spillPlaced_of_oldest oldest first).trans (if_pos ⟨size, h⟩)

end

/-! ### FLOOR_CONFIG and FLOOR_PLANE_RESTORE -/

section
variable {args : List Word} {s : State}

theorem floorConfig_of_badLimit (h : argN args 1 < 1 ∨ 255 < argN args 1) : floorConfig args s = cmdRefuse St.badArgument 1 s :=
  if_pos h

theorem floorConfig_of_limit (low : 1 ≤ argN args 1) (high : argN args 1 ≤ 255) :
    floorConfig args s = cmdOk (s.modCore fun k => { k with waitLimit := argN args 1 }) :=
  if_neg (by omega)

variable (c : CmdRef)

theorem floorPlaneRestore_of_notFenced (h : 4 ≤ argN args 1 ∨ (thePlane s (argN args 1)).fenced = false) :
    floorPlaneRestore c args s = cmdRefuse St.badArgument 1 s :=
  if_pos (by simpa using h)

variable (plane : argN args 1 < 4) (fenced : (thePlane s (argN args 1)).fenced = true)
include plane fenced

theorem floorPlaneRestore_of_testing (h : (thePlane s (argN args 1)).testing = true) :
    floorPlaneRestore c args s = cmdRefuse St.busy 0 s := by
  rw [floorPlaneRestore, if_neg (by simp [plane, fenced]), if_pos h]

theorem floorPlaneRestore_of_fenced (h : (thePlane s (argN args 1)).testing = false) : floorPlaneRestore c args s =
    (addDetached c (.plane (argN args 1)) (modPlane (argN args 1) (fun x => { x with testing := true }) s), none) := by
  rw [floorPlaneRestore, if_neg (by simp [plane, fenced]), if_neg (by simp [h])]

end

end Sys2Proof.Machine

namespace Sys2Proof.Proofs

open Sys2Proof.Machine

/-- Settles O13: each clause is the lemma that says what its command does with the operands that the clause describes. -/
theorem switchCoreSettings : Obligations.SwitchCoreSettings := by
  unfold Obligations.SwitchCoreSettings
  refine ⟨?coreBuf, ?coreCredit, ?coreSpill,
    fun s l c g m muted r oldest first => ⟨fun settled => next_congr (spillPlaced_of_settled oldest first settled),
      fun size spilled => next_congr (spillPlaced_of_spilled oldest first size spilled)⟩, ?floorConfig, ?floorPlaneRestore⟩
  case coreBuf =>
    intro h args s i b moved t bufOk egOk c7Ok maxOk fits acc
    have refused {st d : Nat} (hb : coreBuf args (fetched i s) = cmdRefuse st d (fetched i s)) :
        exec i s = .next (refusedEnd i s st d) := run_refused rfl acc (exec_coreBuf h args s) hb
    have sums : DivisionFits args (fetched i s) (divided args (divisionMoves args (fetched i s)) (fetched i s)) ↔ fits := by
      rw [fetched_divisionMoves, DivisionFits, fetched_theBarn]
      rfl
    have moves : divisionMoves args (fetched i s) = moved := fetched_divisionMoves i args s
    have enabled : barnPortEnabled (fetched i s) b = barnPortEnabled s b := fetched_barnPortEnabled i s b
    refine ⟨fun none => refused (coreBuf_of_noBarn none), fun barn bad => refused (coreBuf_of_badBuf barn bad),
      fun barn buf bad => refused (coreBuf_of_badEg barn buf bad),
      fun barn buf eg bad => refused (coreBuf_of_badC7 barn buf eg bad),
      fun barn buf eg c7 k class_ bad first => refused (coreBuf_of_badMax barn buf eg c7 class_ bad first),
      fun barn buf eg c7 max => ⟨fun none => refused (coreBuf_of_noRoom barn buf eg c7 max (sums.not.mpr none)),
        fun room moved on => refused (coreBuf_of_enabledPort barn buf eg c7 max (sums.mpr room) (moves.trans moved)
          (enabled.trans on)), fun room quiet => ?_⟩⟩
    have runs := run_ok rfl acc (exec_coreBuf h args s) (coreBuf_of_fits barn buf eg c7 max (sums.mpr room)
      fun moved => enabled.trans (quiet (moves.symm.trans moved)))
    rw [moves] at runs
    exact runs
  case coreCredit =>
    intro h args s i t portOk acc
    have refused {d : Nat} (hb : coreCredit args (fetched i s) = cmdRefuse St.badArgument d (fetched i s)) :
        exec i s = .next (refusedEnd i s St.badArgument d) := run_refused rfl acc (exec_coreCredit h args s) hb
    have port : (argN args 1 < 1024 ∧ insidePort (fetched i s) (argN args 1) = false) ↔ portOk := by rw [fetched_insidePort]
    exact ⟨fun none => refused (coreCredit_of_noPort (port.not.mpr none)),
      fun base none => refused (coreCredit_of_noClass (port.mpr base) none),
      fun base class_ bad => refused (coreCredit_of_badAllowance (port.mpr base) class_ bad),
      fun base class_ range fits => run_ok rfl acc (exec_coreCredit h args s)
        (coreCredit_of_fits (port.mpr base) class_ range fits)⟩
  case coreSpill =>
    intro h args s i g m fits acc
    have refused {st d : Nat} (hb : coreSpill (refOf i s) args (fetched i s) = cmdRefuse st d (fetched i s)) :
        exec i s = .next (refusedEnd i s st d) := run_refused rfl acc (exec_coreSpill h args s) hb
    have room : SpillAreaFits args (fetched i s) ↔ fits := fetched_SpillAreaFits i args s
    have busy : SpillBusy args (fetched i s) ↔ SpillBusy args s := fetched_SpillBusy i args s
    refine ⟨fun bad => refused (coreSpill_of_badSize _ bad), fun low whole bad => refused (coreSpill_of_badMask _ low whole bad),
      fun low whole mask none => refused (coreSpill_of_noRoom _ low whole mask (room.not.mpr none)),
      fun low whole mask area waits => refused (coreSpill_of_busy _ low whole mask (room.mpr area) (busy.mpr waits)),
      fun low whole mask area served empty => run_detached rfl acc (exec_coreSpill h args s)
        (coreSpill_of_free _ low whole mask (room.mpr area) (busy.not.mpr ?_))⟩
    rintro (⟨asked, out⟩ | ⟨size, spilled⟩)
    · exact out (served asked)
    · simp [empty size] at spilled
  case floorConfig =>
    intro h args s i acc
    exact ⟨fun bad => run_refused rfl acc (exec_floorConfig h args s) (floorConfig_of_badLimit bad),
      fun low high => run_ok rfl acc (exec_floorConfig h args s) (floorConfig_of_limit low high)⟩
  case floorPlaneRestore =>
    intro h args s i p acc
    have refused {st d : Nat} (hb : floorPlaneRestore (refOf i s) args (fetched i s) = cmdRefuse st d (fetched i s)) :
        exec i s = .next (refusedEnd i s st d) := run_refused rfl acc (exec_floorPlaneRestore h args s) hb
    have same : thePlane (fetched i s) p = thePlane s p := fetched_thePlane i s p
    rw [← same]
    exact ⟨fun no => refused (floorPlaneRestore_of_notFenced _ no),
      fun plane fenced testing => refused (floorPlaneRestore_of_testing _ plane fenced testing),
      fun plane fenced idle => run_detached rfl acc (exec_floorPlaneRestore h args s)
        (floorPlaneRestore_of_fenced _ plane fenced idle)⟩

end Sys2Proof.Proofs
end

section
/-! SUPPORT. The Floor's rows (R97 to R99, R102): WAIT, the bundle that a match sends, and what becomes of it. -/

namespace Sys2Proof.Machine

/-! ### Barns after a change -/

theorem theBarn_modBarn (b j : Nat) (f : Barn → Barn) (s : State) :
    theBarn (modBarn b f s) j = if b = j then f (theBarn s b) else theBarn s j := tget_tmod ..
@[simp] theorem theBarn_modBarn_same (b : Nat) (f : Barn → Barn) (s : State) :
    theBarn (modBarn b f s) b = f (theBarn s b) := by rw [theBarn_modBarn, if_pos rfl]
@[simp] theorem theBarn_bumpBy (id n : Nat) (s : State) (b : Nat) : theBarn (bumpBy id n s) b = theBarn s b := rfl
@[simp] theorem theBarn_bump (id : Nat) (s : State) (b : Nat) : theBarn (bump id s) b = theBarn s b := rfl

/-! ### WAIT (R99) -/

/-- One more for WAIT of a VOQ, named by its barn and its key there. -/
def raiseWait (k : Nat × Nat) (s : State) : State := modBarn k.1 (fun x => { x with wait := tmod x.wait 0 k.2 (· + 1) }) s

theorem wait_raiseWait (k : Nat × Nat) (s : State) (b key : Nat) :
    tget (theBarn (raiseWait k s) b).wait 0 key = tget (theBarn s b).wait 0 key + if k = (b, key) then 1 else 0 := by
  obtain ⟨c, l⟩ := k
  rw [raiseWait, theBarn_modBarn]
  by_cases barn : c = b
  · subst barn
    by_cases same : l = key <;> simp [tget_tmod, same]
  · simp [barn]

theorem wait_foldl_raiseWait {ks : List (Nat × Nat)} (distinct : ks.Nodup) (s : State) (b key : Nat) :
    tget (theBarn (ks.foldl (fun s k => raiseWait k s) s) b).wait 0 key =
      tget (theBarn s b).wait 0 key + if (b, key) ∈ ks then 1 else 0 := by
  induction ks generalizing s with
  | nil => simp
  | cons k ks ih =>
    obtain ⟨fresh, distinct⟩ := List.nodup_cons.mp distinct
    rw [List.foldl_cons, ih distinct, wait_raiseWait]
    by_cases same : k = (b, key)
    · subst same
      simp [fresh]
    · simp [same, Ne.symm same]

theorem wait_updateWait (reqs : List Request) (s : State) (b key : Nat) :
    tget (theBarn (updateWait reqs s) b).wait 0 key = tget (theBarn s b).wait 0 key +
      if ∃ r ∈ reqs, r.src = b ∧ 8 * r.dst + r.tc = key then 1 else 0 := by
  refine (wait_foldl_raiseWait (List.nodup_dedup _) s b key).trans ?_
  simp only [List.mem_dedup, List.mem_map, Prod.mk.injEq]

/-! ### A match (R97, R98) -/

/-- The rotation of a VOQ's requests goes on from the plane that it matched. -/
def rotated (r : Request) (s : State) : State :=
  modBarn r.src (fun x => { x with planeRot := tset x.planeRot 0 (8 * r.dst + r.tc) ((r.plane + 1) % 4) }) s

theorem theBarn_rotated (r : Request) (s : State) : theBarn (rotated r s) r.src = { theBarn s r.src with
    planeRot := tset (theBarn s r.src).planeRot 0 (8 * r.dst + r.tc) ((r.plane + 1) % 4) } :=
  theBarn_modBarn_same ..

/-- The cells that a match sends. -/
def nextCells (r : Request) (s : State) : List (Nat × Nat) := (offers (theBarn s r.src) (8 * r.dst + r.tc)).take 16

theorem offersFrom_planeRot (brn : Barn) (rot : Tab Nat) (first : Bool) (q : List QEntry) :
    offersFrom { brn with planeRot := rot } first q = offersFrom brn first q := by
  induction q generalizing first with
  | nil => rfl
  | cons e q ih => simp only [offersFrom, ih]

theorem nextCells_rotated (r : Request) (s : State) : nextCells r (rotated r s) = nextCells r s := by
  simp only [nextCells, offers, theBarn_rotated, offersFrom_planeRot]

theorem transfer_of_empty {r : Request} {s : State} (h : nextCells r s = []) :
    transfer r s = bump (ctr 9 r.plane 2) (rotated r s) :=
  if_pos ((nextCells_rotated r s).trans h)

/-- The sender of a bundle whose cells all pass their check. -/
theorem transfer_of_sound {r : Request} {s : State} (some_ : nextCells r s ≠ [])
    (sound : readChecked r.src (nextCells r s) (rotated r s) = (nextCells r s, rotated r s)) :
    tget (theBarn (transfer r s) r.src).wait 0 (8 * r.dst + r.tc) = 0 ∧
      (theBarn (transfer r s) r.src).unacked = (theBarn s r.src).unacked ++
        [{ plane := r.plane, src := r.src, dst := r.dst, tc := r.tc, parts := groupCells (nextCells r s) }] := by
  unfold transfer
  extract_lets key t next
  have cells : next = nextCells r s := nextCells_rotated r s
  have barn : theBarn t r.src = _ := theBarn_rotated r s
  rw [cells, if_neg some_, show readChecked r.src (nextCells r s) t = (nextCells r s, t) from sound]
  simp only [if_neg some_, theBarn_bumpBy, theBarn_bump, theBarn_modBarn_same, tget_tset_any, barn]
  exact ⟨if_pos rfl, trivial⟩

/-! ### The fate of a bundle (R102) -/

/-- The oldest bundle in flight from a barn to another on a plane. -/
def inFlightTo (plane src dst : Nat) (s : State) : Option CellBundle :=
  (theBarn s src).unacked.find? fun u => u.plane == plane && u.dst == dst

section
variable {plane src dst : Nat} {s : State}

theorem bundleArrival_of_found {u : CellBundle} (found : inFlightTo plane src dst s = some u) (up : barnUp s dst = true) (ok : Bool) :
    bundleArrival plane src dst ok s = if ok then bundleOk u s else bundleFail u s := by
  unfold inFlightTo at found
  simp [bundleArrival, found, up]

theorem bundleTimeout_of_found {u : CellBundle} (found : inFlightTo plane src dst s = some u) (up : barnUp s dst = true) :
    bundleTimeout plane src dst s = bundleFail u s := by
  unfold inFlightTo at found
  simp [bundleTimeout, found, up]

theorem bundleArrival_of_none (none : inFlightTo plane src dst s = none ∨ barnUp s dst = false) (ok : Bool) :
    bundleArrival plane src dst ok s = s := by
  unfold bundleArrival
  split
  · rfl
  · next found => simp [none.resolve_left (by simp [inFlightTo, found])]

theorem bundleTimeout_of_none (none : inFlightTo plane src dst s = none ∨ barnUp s dst = false) :
    bundleTimeout plane src dst s = s := by
  unfold bundleTimeout
  split
  · rfl
  · next found => simp [none.resolve_left (by simp [inFlightTo, found])]

end

section
variable {plane : Fin 4} {src dst : Fin 16} {s t : State}

theorem exec_cellBundleArrival_eq {ok : Bool} (h : bundleArrival plane src dst ok s = t) :
    exec (.cellBundleArrival plane src dst ok) s = .next (floorFatal (settleSeeds (pumpAll t))) := h ▸ rfl
theorem exec_bundleAckTimeout_eq (h : bundleTimeout plane src dst s = t) :
    exec (.bundleAckTimeout plane src dst) s = .next (floorFatal (settleSeeds (pumpAll t))) := h ▸ rfl

end

section
variable (u : CellBundle) (s : State)

/-- A failure with none on its plane within the last millisecond is noted. -/
theorem bundleFail_of_first (old : ∀ t ∈ (thePlane s u.plane).failures, t + 256000000 ≤ s.time.now) :
    bundleFail u s = modPlane u.plane (fun x => { x with failures := [s.time.now] }) (bump (ctr 9 u.plane 3) (requeue u s)) :=
  if_pos (List.filter_eq_nil_iff.mpr fun t ht recent => Nat.not_le.mpr (of_decide_eq_true recent) (old t ht))

theorem bundleFail_of_second (recent : ∃ t ∈ (thePlane s u.plane).failures, s.time.now < t + 256000000) :
    bundleFail u s = fencePlane u.plane (bump (ctr 9 u.plane 3) (requeue u s)) := by
  obtain ⟨t, failed, late⟩ := recent
  exact if_neg (List.ne_nil_of_mem (List.mem_filter.mpr ⟨failed, decide_eq_true late⟩))

/-- The cells that a bundle returns to an entry of its VOQ. -/
def reoffered (e : QEntry) : QEntry :=
  match u.parts.find? fun t => t.pid == e.pid with
  | some t => { e with resend := (List.range 32).filter fun i => t.cells.contains i || e.resend.contains i }
  | none => e

theorem theBarn_requeue : theBarn (requeue u s) u.src = { theBarn s u.src with
    unacked := (theBarn s u.src).unacked.erase u,
    voqs := tmod (theBarn s u.src).voqs [] (8 * u.dst + u.tc) fun q => q.map (reoffered u) } :=
  theBarn_modBarn_same ..

theorem voq_requeue : tget (theBarn (requeue u s) u.src).voqs [] (8 * u.dst + u.tc) =
    (tget (theBarn s u.src).voqs [] (8 * u.dst + u.tc)).map (reoffered u) := by
  rw [theBarn_requeue, tget_tmod, if_pos rfl]

variable {u} in
theorem reoffered_of_part {e : QEntry} {t : BundlePart} (part : (u.parts.find? fun t => t.pid == e.pid) = some t) :
    reoffered u e = { e with resend := (List.range 32).filter fun i => t.cells.contains i || e.resend.contains i } := by
  simp only [reoffered, part]

end

/-! ### The loop-back test of a plane (R102) -/

theorem planeTestDone_of_idle {p : Nat} {s : State} (pass : Bool) (h : (thePlane s p).testing = false) :
    planeTestDone p pass s = s :=
  if_neg (by simp [h])

theorem planeTestDone_of_testing {p : Nat} {s : State} {d : Detached} (pass : Bool) (h : (thePlane s p).testing = true)
    (asked : (s.hearth.detached.find? fun d => d.work == .plane p) = some d) :
    planeTestDone p pass s = endWith d.cmd (if pass then St.ok else St.testFailed) 0
      (modPlane p (fun x => { x with testing := false, fenced := x.fenced && !pass }) s) := by
  rw [planeTestDone, if_pos h]
  simp only [modPlane, State.modCore_hearth, asked]

end Sys2Proof.Machine

namespace Sys2Proof.Proofs

open Sys2Proof.Machine

/-- Settles O15: each clause is the lemma that says what its row does in the states that the clause describes. -/
theorem floorRows : Obligations.FloorRows := by
  unfold Obligations.FloorRows
  refine ⟨fun s => rfl, wait_updateWait, fun r s => ⟨transfer_of_empty, transfer_of_sound⟩, ?fate,
    fun u s => ⟨bundleFail_of_first u s, bundleFail_of_second u s⟩, ?requeue, fun p s => rfl, ?noFate,
    fun plane pass s d testing asked => next_congr (planeTestDone_of_testing pass testing asked),
    fun plane pass s idle => next_congr (planeTestDone_of_idle pass idle)⟩
  case fate =>
    intro plane src dst ok s u found up
    exact ⟨exec_cellBundleArrival_eq (bundleArrival_of_found found up ok), exec_bundleAckTimeout_eq (bundleTimeout_of_found found up)⟩
  case requeue =>
    intro u s
    refine ⟨congrArg Barn.unacked (theBarn_requeue u s), fun e queued t part => ?_⟩
    rw [voq_requeue]
    refine ⟨_, List.mem_map_of_mem queued, ?_⟩
    rw [reoffered_of_part part]
    exact ⟨rfl, fun c low => by simp [low]⟩
  case noFate =>
    intro plane src dst ok s none
    exact ⟨exec_cellBundleArrival_eq (bundleArrival_of_none none ok), exec_bundleAckTimeout_eq (bundleTimeout_of_none none)⟩

end Sys2Proof.Proofs
end

section
/-! SUPPORT. The Gleaner (R113, R114) and spill refill (R111): the handles that an audit looks at, its verdict on each, and what a
refill reads back. -/

namespace Sys2Proof.Machine

/-! ### What an operation leaves of a barn -/

@[simp] theorem giveCredit_core (p c : Nat) (s : State) : (giveCredit p c s).core = s.core := by
  unfold giveCredit
  split <;> rfl

@[simp] theorem theBarn_reclaim (c : CellRec) (s : State) (b : Nat) : theBarn (reclaim c s) b = theBarn s b := by
  unfold reclaim returnCredit theBarn
  split
  · rfl
  · rw [giveCredit_core]
    rfl

/-- Renewing the holds of a barn changes its holds alone. -/
theorem theBarn_updateHolds (b : Nat) (s : State) :
    ∃ group own, theBarn (updateHolds b s) b = { theBarn s b with egHoldGroup := group, egHold := own } := by
  unfold updateHolds
  extract_lets o low group own t n
  have told : Tells t ((List.range 8).foldl (fun s c => if egHeld n c && !egHeld o c then bumpEg b (24 + c) s else s) t) :=
    .foldl (fun s _ => .ite (bump_tells _ s) (.refl s)) _ (.refl t)
  have held := theBarn_modBarn_same b (fun x => { x with egHoldGroup := group, egHold := own }) s
  refine ⟨group, own, ?_⟩
  rw [theBarn, told.core]
  exact held

@[simp] theorem cells_updateHolds (b : Nat) (s : State) : (theBarn (updateHolds b s) b).cells = (theBarn s b).cells := by
  obtain ⟨group, own, barn⟩ := theBarn_updateHolds b s
  rw [barn]

/-! ### The verdict on a handle (R114) -/

/-- What an audit finds of a handle: on the free list with a holder, in use with another count, in use without holders and so already
once before or not, neither in use nor on the list, or nothing to act on. -/
inductive Verdict where
  | claim
  | recount
  | reclaim
  | mark
  | putBack
  | sound

/-- The verdict on a handle, by whether it is on the free list, in use, and a candidate, its holders, and its REFS. -/
def verdict (onList inuse candidate : Bool) (n refs : Nat) : Verdict :=
  if onList ∧ 1 ≤ n then .claim
  else if inuse ∧ !onList ∧ 1 ≤ n then if n = refs then .sound else .recount
  else if inuse ∧ !onList then if candidate then .reclaim else .mark
  else if !inuse ∧ !onList ∧ n = 0 then .putBack
  else .sound

section
variable {onList inuse candidate : Bool} {n refs : Nat}

theorem verdict_claim (listed : onList = true) (held : 1 ≤ n) : verdict onList inuse candidate n refs = .claim := by
  simp [verdict, listed, held]

theorem verdict_recount (used : inuse = true) (off : onList = false) (held : 1 ≤ n) (differs : n ≠ refs) :
    verdict onList inuse candidate n refs = .recount := by
  simp [verdict, used, off, held, differs]

theorem verdict_mark (used : inuse = true) (off : onList = false) (free : n = 0) (new : candidate = false) :
    verdict onList inuse candidate n refs = .mark := by
  simp [verdict, used, off, free, new]

theorem verdict_reclaim (used : inuse = true) (off : onList = false) (free : n = 0) (again : candidate = true) :
    verdict onList inuse candidate n refs = .reclaim := by
  simp [verdict, used, off, free, again]

theorem verdict_putBack (unused : inuse = false) (off : onList = false) (free : n = 0) :
    verdict onList inuse candidate n refs = .putBack := by
  simp [verdict, unused, off, free]

end

/-- A table in which one cell has been written. -/
theorem tget_of_eq_tset {t u : Tab CellRec} {h : Nat} {c : CellRec} (e : u = tset t {} h c) :
    tget u {} h = c ∧ ∀ k, k ≠ h → tget u {} k = tget t {} k := by
  subst e
  exact ⟨(tget_tset_any ..).trans (if_pos rfl), fun k other => (tget_tset_any ..).trans (if_neg other.symm)⟩

/-! ### A Loft handle -/

/-- The verdict on a Loft handle. -/
def handleVerdict (brn : Barn) (h : Nat) : Verdict :=
  verdict (onFreeList brn.cells brn.lostFree brn.doubleFree h) (tget brn.cells {} h).inuse (brn.cand.contains h) (holders brn h)
    (tget brn.cells {} h).refs

/-- A Loft handle is no candidate any more. -/
def clearMark (b h : Nat) (s : State) : State := modBarn b (fun x => { x with cand := x.cand.filter (· != h) }) s

/-- What an audit does to a Loft handle on a verdict, before it is counted and reported. -/
def handleMended (b h : Nat) (s : State) : Verdict → State
  | .claim => clearMark b h (modBarn b (fun x => { x with
      doubleFree := x.doubleFree.filter (· != h), cells := tmod x.cells {} h fun c => { c with inuse := true } }) s)
  | .recount => clearMark b h (modBarn b (fun x => { x with
      cells := tmod x.cells {} h fun c => { c with refs := holders (theBarn s b) h } }) s)
  | .reclaim => reclaim (tget (theBarn s b).cells {} h) (clearMark b h (updateHolds b (modBarn b (fun x => { x with
      cells := tset x.cells {} h {}, leftEg := x.leftEg.filter (· != h) }) s)))
  | .mark => modBarn b (fun x => { x with cand := h :: x.cand }) s
  | .putBack => clearMark b h (modBarn b (fun x => { x with lostFree := x.lostFree.filter (· != h) }) s)
  | .sound => clearMark b h s

/-- The event of R114 that a verdict is counted and reported as. -/
def verdictEvent (b h : Nat) (v : Verdict) (s : State) : State :=
  match v with
  | .claim => gleanEvent b h 2 s
  | .recount => gleanEvent b h 0 s
  | .reclaim => gleanEvent b h 1 s
  | .putBack => gleanEvent b h 3 s
  | .mark | .sound => s

theorem auditHandle_eq (b h : Nat) (s : State) : auditHandle b h s =
    verdictEvent b h (handleVerdict (theBarn s b) h) (handleMended b h s (handleVerdict (theBarn s b) h)) := by
  unfold auditHandle handleVerdict verdict
  dsimp only
  split_ifs <;> rfl

section
variable (b h : Nat) (s : State)

theorem cells_claimed : (theBarn (handleMended b h s .claim) b).cells =
    tset (theBarn s b).cells {} h { tget (theBarn s b).cells {} h with inuse := true } := by
  simp only [handleMended, clearMark, theBarn_modBarn_same, tmod]

theorem doubleFree_claimed : h ∉ (theBarn (handleMended b h s .claim) b).doubleFree := by
  simp [handleMended, clearMark]

theorem cells_recounted : (theBarn (handleMended b h s .recount) b).cells =
    tset (theBarn s b).cells {} h { tget (theBarn s b).cells {} h with refs := holders (theBarn s b) h } := by
  simp only [handleMended, clearMark, theBarn_modBarn_same, tmod]

theorem cells_reclaimed : (theBarn (handleMended b h s .reclaim) b).cells = tset (theBarn s b).cells {} h {} := by
  simp only [handleMended, clearMark, theBarn_reclaim, theBarn_modBarn_same, cells_updateHolds]

theorem cells_putBack : (theBarn (handleMended b h s .putBack) b).cells = (theBarn s b).cells := by
  simp only [handleMended, clearMark, theBarn_modBarn_same]

theorem lostFree_putBack : h ∉ (theBarn (handleMended b h s .putBack) b).lostFree := by
  simp [handleMended, clearMark]

end

/-! ### A spill handle -/

/-- The verdict on a spill handle. -/
def spillVerdict (brn : Barn) (h : Nat) : Verdict :=
  verdict (onFreeList brn.spill brn.spillLost brn.spillDouble h) (tget brn.spill {} h).inuse (brn.spillCand.contains h)
    (spillHolders brn h) (tget brn.spill {} h).refs

/-- A spill handle is no candidate any more. -/
def clearSpillMark (b h : Nat) (s : State) : State := modBarn b (fun x => { x with spillCand := x.spillCand.filter (· != h) }) s

/-- What an audit does to a spill handle on a verdict, before it is counted and reported. -/
def spillMended (b h : Nat) (s : State) : Verdict → State
  | .claim => clearSpillMark b h (modBarn b (fun x => { x with
      spillDouble := x.spillDouble.filter (· != h), spill := tmod x.spill {} h fun c => { c with inuse := true } }) s)
  | .recount => clearSpillMark b h (modBarn b (fun x => { x with
      spill := tmod x.spill {} h fun c => { c with refs := spillHolders (theBarn s b) h } }) s)
  | .reclaim => reclaim (tget (theBarn s b).spill {} h)
      (clearSpillMark b h (modBarn b (fun x => { x with spill := tset x.spill {} h {} }) s))
  | .mark => modBarn b (fun x => { x with spillCand := h :: x.spillCand }) s
  | .putBack => clearSpillMark b h (modBarn b (fun x => { x with spillLost := x.spillLost.filter (· != h) }) s)
  | .sound => clearSpillMark b h s

theorem auditSpill_eq (b h : Nat) (s : State) : auditSpill b h s =
    verdictEvent b h (spillVerdict (theBarn s b) h) (spillMended b h s (spillVerdict (theBarn s b) h)) := by
  unfold auditSpill spillVerdict verdict
  dsimp only
  split_ifs <;> rfl

section
variable (b h : Nat) (s : State)

theorem spill_claimed : (theBarn (spillMended b h s .claim) b).spill =
    tset (theBarn s b).spill {} h { tget (theBarn s b).spill {} h with inuse := true } := by
  simp only [spillMended, clearSpillMark, theBarn_modBarn_same, tmod]

theorem spillDouble_claimed : h ∉ (theBarn (spillMended b h s .claim) b).spillDouble := by
  simp [spillMended, clearSpillMark]

theorem spill_recounted : (theBarn (spillMended b h s .recount) b).spill =
    tset (theBarn s b).spill {} h { tget (theBarn s b).spill {} h with refs := spillHolders (theBarn s b) h } := by
  simp only [spillMended, clearSpillMark, theBarn_modBarn_same, tmod]

theorem spill_reclaimed : (theBarn (spillMended b h s .reclaim) b).spill = tset (theBarn s b).spill {} h {} := by
  simp only [spillMended, clearSpillMark, theBarn_reclaim, theBarn_modBarn_same]

theorem spill_putBack : (theBarn (spillMended b h s .putBack) b).spill = (theBarn s b).spill := by
  simp only [spillMended, clearSpillMark, theBarn_modBarn_same]

theorem spillLost_putBack : h ∉ (theBarn (spillMended b h s .putBack) b).spillLost := by
  simp [spillMended, clearSpillMark]

end

/-! ### The handles that an audit looks at (R113) -/

theorem tget_of_unlisted {α : Type} {t : Tab α} {d : α} {k : Nat} (h : k ∉ t.map Prod.fst) : tget t d k = d := by
  induction t with
  | nil => rfl
  | cons e t ih =>
    obtain ⟨other, rest⟩ := not_or.mp (mt List.mem_cons.mpr h)
    rw [tget, if_neg (Ne.symm other), ih rest]

/-- The holders of a handle among the queue entries of one packet. -/
def packetHolders (brn : Barn) (h : Nat) (p : InPkt) : Nat :=
  ((List.range p.handles.length).map fun i => if p.handles[i]? = some h then
    ((brn.voqs.map fun q => (q.2.filter fun e => e.pid == p.info.pid && !e.acked.contains i).length).sum) else 0).sum

/-- The holders of a handle among the ports or sinks of one stored packet. -/
def storedHolders (x : Stored) : Nat := if x.sink ≠ 0 ∨ !x.linked then 1 else ((List.range 64).filter fun n => x.mask.getLsbD n).length

theorem holders_eq (brn : Barn) (h : Nat) : holders brn h =
    ((brn.inPkts.filter fun p => !p.spilled).map (packetHolders brn h)).sum +
      ((brn.stored.filter fun x => x.handles.any fun k => k.2 == h).map storedHolders).sum := rfl

theorem spillHolders_eq (brn : Barn) (h : Nat) :
    spillHolders brn h = ((brn.inPkts.filter fun p => p.spilled).map (packetHolders brn h)).sum := rfl

theorem packetHolders_of_absent {brn : Barn} {h : Nat} {p : InPkt} (absent : h ∉ p.handles) : packetHolders brn h p = 0 := by
  refine List.sum_eq_zero fun n hn => ?_
  obtain ⟨i, -, rfl⟩ := List.mem_map.mp hn
  exact if_neg fun held => absent (List.mem_of_getElem? held)

theorem sum_packetHolders_of_absent {brn : Barn} {h : Nat} {l : List InPkt} (absent : h ∉ l.flatMap fun p => p.handles) :
    (l.map (packetHolders brn h)).sum = 0 := by
  refine List.sum_eq_zero fun n hn => ?_
  obtain ⟨p, hp, rfl⟩ := List.mem_map.mp hn
  exact packetHolders_of_absent fun held => absent (List.mem_flatMap.mpr ⟨p, hp, held⟩)

/-- The handles of the packet buffer that an audit looks at. -/
def auditedHandles (brn : Barn) : List Nat :=
  (brn.cells.map Prod.fst ++ brn.lostFree ++ brn.doubleFree ++ brn.cand ++
    (brn.inPkts.filter fun p => !p.spilled).flatMap (fun p => p.handles) ++
    brn.stored.flatMap fun x => x.handles.map Prod.snd).dedup

/-- The spill handles that an audit looks at. -/
def auditedSpill (brn : Barn) : List Nat :=
  (brn.spill.map Prod.fst ++ brn.spillLost ++ brn.spillDouble ++ brn.spillCand ++
    (brn.inPkts.filter fun p => p.spilled).flatMap fun p => p.handles).dedup

theorem gleanerAudit_eq (b : Nat) (s : State) : gleanerAudit b s =
    (auditedSpill (theBarn s b)).foldl (fun s h => auditSpill b h s)
      ((auditedHandles (theBarn s b)).foldl (fun s h => auditHandle b h s) s) := rfl

/-- A handle that an audit leaves out is free, on the free list, held by nothing and no candidate. -/
theorem free_of_not_audited {brn : Barn} {h : Nat} (out : h ∉ auditedHandles brn) :
    (tget brn.cells {} h).inuse = false ∧ h ∉ brn.lostFree ∧ h ∉ brn.doubleFree ∧ h ∉ brn.cand ∧ holders brn h = 0 := by
  simp only [auditedHandles, List.mem_dedup, List.mem_append, not_or] at out
  obtain ⟨⟨⟨⟨⟨cells, lost⟩, double⟩, cand⟩, packets⟩, stored⟩ := out
  have none : (brn.stored.filter fun x => x.handles.any fun k => k.2 == h) = [] := by
    refine List.filter_eq_nil_iff.mpr fun x hx held => stored ?_
    obtain ⟨k, hk, same⟩ := List.any_eq_true.mp held
    exact List.mem_flatMap.mpr ⟨x, hx, List.mem_map.mpr ⟨k, hk, beq_iff_eq.mp same⟩⟩
  refine ⟨by rw [tget_of_unlisted cells], lost, double, cand, ?_⟩
  rw [holders_eq, sum_packetHolders_of_absent packets, none]
  rfl

theorem free_of_not_auditedSpill {brn : Barn} {h : Nat} (out : h ∉ auditedSpill brn) :
    (tget brn.spill {} h).inuse = false ∧ h ∉ brn.spillLost ∧ h ∉ brn.spillDouble ∧ h ∉ brn.spillCand ∧
      spillHolders brn h = 0 := by
  simp only [auditedSpill, List.mem_dedup, List.mem_append, not_or] at out
  obtain ⟨⟨⟨⟨cells, lost⟩, double⟩, cand⟩, packets⟩ := out
  exact ⟨by rw [tget_of_unlisted cells], lost, double, cand, (spillHolders_eq brn h).trans (sum_packetHolders_of_absent packets)⟩

/-! ### Spill refill (R111) -/

/-- Cell `k` of a spilled packet fails its check. -/
def refillBad (brn : Barn) (p : InPkt) (k : Nat) : Bool := cellBad brn.spill p.info.bytes k (p.handles.getD k 65535)

section
variable {b : Nat} {s : State}

theorem spillRefill_of_none (h : refillNext (theBarn s b) = none) : spillRefill b s = s := by
  rw [spillRefill, h]

variable {p : InPkt} (next : refillNext (theBarn s b) = some p)
include next

theorem spillRefill_of_full (h : eligibleLimit s b < eligibleCells s b + p.handles.length) : spillRefill b s = s := by
  rw [spillRefill, next]
  exact if_pos h

variable (room : eligibleCells s b + p.handles.length ≤ eligibleLimit s b)
include room

/-- A refill with room, by the first cell that fails its check. -/
theorem spillRefill_of_room : spillRefill b s =
    match (List.range p.handles.length).find? (refillBad (theBarn s b) p) with
    | some k => cellFail b (p.handles.getD k 65535 % 65536) p.info.pid s
    | none => (List.range p.handles.length).foldl (fun s k => refillCell b p k s)
      (modInPkt b p.info.pid (fun q => { q with handles := [], spilled := false, refilled := true }) s) := by
  rw [spillRefill, next]
  exact (if_neg (Nat.not_lt.mpr room)).trans rfl

theorem spillRefill_of_good (good : ∀ k, k < p.handles.length → refillBad (theBarn s b) p k = false) : spillRefill b s =
    (List.range p.handles.length).foldl (fun s k => refillCell b p k s)
      (modInPkt b p.info.pid (fun q => { q with handles := [], spilled := false, refilled := true }) s) := by
  have none : (List.range p.handles.length).find? (refillBad (theBarn s b) p) = none := by simpa using good
  rw [spillRefill_of_room next room, none]

theorem spillRefill_of_bad {k : Nat} (cell : k < p.handles.length) (bad : refillBad (theBarn s b) p k = true)
    (first : ∀ j, j < k → refillBad (theBarn s b) p j = false) :
    spillRefill b s = cellFail b (p.handles.getD k 65535 % 65536) p.info.pid s := by
  have found : (List.range p.handles.length).find? (refillBad (theBarn s b) p) = some k := by
    rw [List.find?_range_eq_some]
    exact ⟨bad, List.mem_range.mpr cell, fun j before => by simp [first j before]⟩
  rw [spillRefill_of_room next room, found]

end

end Sys2Proof.Machine

namespace Sys2Proof.Proofs

open Sys2Proof.Machine

/-- Settles O16: an audit acts on each handle by its verdict, and a refill by the first cell that fails its check. -/
theorem gleanerAndRefill : Obligations.GleanerAndRefill := by
  unfold Obligations.GleanerAndRefill
  refine ⟨?audit, fun b s down => next_congr (if_neg (by simp [down])), ?handle, ?spill,
    fun b s none => next_congr (spillRefill_of_none none), fun b s p next full => next_congr (spillRefill_of_full next full),
    fun b s p next room => ⟨fun good => next_congr (spillRefill_of_good next room good),
      fun k cell bad first => next_congr (spillRefill_of_bad next room cell bad first)⟩⟩
  case audit =>
    intro b s up
    exact ⟨auditedHandles (theBarn s b), auditedSpill (theBarn s b), List.nodup_dedup _, List.nodup_dedup _,
      next_congr ((if_pos up).trans (gleanerAudit_eq b s)), fun h out => free_of_not_audited out, fun h out => free_of_not_auditedSpill out⟩
  case handle =>
    intro b h s brn c n onList others
    have runs {v : Verdict} (is : handleVerdict brn h = v) : auditHandle b h s = verdictEvent b h v (handleMended b h s v) := by
      rw [← is]
      exact auditHandle_eq b h s
    refine ⟨fun used off held differs => ⟨_, runs (verdict_recount used off held differs), tget_of_eq_tset (cells_recounted b h s)⟩,
      fun used off free new => runs (verdict_mark used off free new),
      fun used off free again => ⟨_, runs (verdict_reclaim used off free again), tget_of_eq_tset (cells_reclaimed b h s)⟩,
      fun listed held => ?_,
      fun unused off free => ⟨_, runs (verdict_putBack unused off free), lostFree_putBack b h s, cells_putBack b h s⟩⟩
    obtain ⟨own, rest⟩ := tget_of_eq_tset (cells_claimed b h s)
    exact ⟨_, runs (verdict_claim listed held), own, doubleFree_claimed b h s, rest⟩
  case spill =>
    intro b h s brn c n onList others
    have runs {v : Verdict} (is : spillVerdict brn h = v) : auditSpill b h s = verdictEvent b h v (spillMended b h s v) := by
      rw [← is]
      exact auditSpill_eq b h s
    refine ⟨fun used off held differs => ⟨_, runs (verdict_recount used off held differs), tget_of_eq_tset (spill_recounted b h s)⟩,
      fun used off free new => runs (verdict_mark used off free new),
      fun used off free again => ⟨_, runs (verdict_reclaim used off free again), tget_of_eq_tset (spill_reclaimed b h s)⟩,
      fun listed held => ?_,
      fun unused off free => ⟨_, runs (verdict_putBack unused off free), spillLost_putBack b h s, spill_putBack b h s⟩⟩
    obtain ⟨own, rest⟩ := tget_of_eq_tset (spill_claimed b h s)
    exact ⟨_, runs (verdict_claim listed held), own, spillDouble_claimed b h s, rest⟩

end Sys2Proof.Proofs
end

section
/-! SUPPORT. The scheduler of a port (R95, R118, R121, R327, R377): what it selects, and what becomes of the packet selected. -/

namespace Sys2Proof.Machine

/-! ### What is selected (R118) -/

theorem shaperPasses_iff (s : State) (p c : Nat) : shaperPasses s p c = true ↔
    (tget s.sched.shapers {} (p * 8 + c)).prof.en = false ∨ 0 ≤ (tget s.sched.shapers {} (p * 8 + c)).tokens := by
  simp only [shaperPasses, Bool.or_eq_true, Bool.not_eq_true', decide_eq_true_eq]
  rfl

/-- The head of a class may be selected. -/
def selectable (s : State) (p c : Nat) (x : Stored) : Bool := headEligible s p c x && shaperPasses s p c

theorem selectFrom_succ (s : State) (p c : Nat) : selectFrom s p (c + 1) =
    (egHead s p c).elim (selectFrom s p c) fun x => if selectable s p c x then some x else selectFrom s p c := by
  rw [selectFrom]
  cases egHead s p c <;> rfl

/-- The packet selected heads a class whose head may be selected, and no higher class has such a head. -/
theorem selectFrom_some {s : State} {p n : Nat} {x : Stored} (h : selectFrom s p n = some x) :
    ∃ c, c < n ∧ egHead s p c = some x ∧ selectable s p c x = true ∧
      ∀ d y, c < d → d < n → egHead s p d = some y → selectable s p d y = false := by
  induction n with
  | zero => cases h
  | succ n ih =>
    have lower (passed : ∀ y, egHead s p n = some y → selectable s p n y = false) (h : selectFrom s p n = some x) :
        ∃ c, c < n + 1 ∧ egHead s p c = some x ∧ selectable s p c x = true ∧
          ∀ d y, c < d → d < n + 1 → egHead s p d = some y → selectable s p d y = false := by
      obtain ⟨c, low, head, may, highest⟩ := ih h
      refine ⟨c, by omega, head, may, fun d y above below other => ?_⟩
      rcases Nat.lt_succ_iff_lt_or_eq.mp below with below | rfl
      · exact highest d y above below other
      · exact passed y other
    rw [selectFrom_succ] at h
    cases head : egHead s p n with
    | none => exact lower (by simp [head]) (by simpa [head] using h)
    | some y =>
      cases may : selectable s p n y with
      | true =>
        obtain rfl : y = x := by simpa [head, may] using h
        exact ⟨n, by omega, head, may, fun d z above below => absurd above (by omega)⟩
      | false => exact lower (by simp [head, may]) (by simpa [head, may] using h)

/-! ### A selection -/

section
variable {p : Nat} {s : State}

theorem egressSelect_of_idle (parityFails : Bool)
    (idle : (thePort s p).up = false ∨ barnUp s (barnOf p) = false ∨ laneFree s p = false ∨ selectFrom s p 8 = none) :
    egressSelect p parityFails s = s := by
  unfold egressSelect
  extract_lets b
  split
  · next serves =>
    simp only [Bool.and_eq_true] at serves
    obtain ⟨⟨up, barn⟩, free⟩ := serves
    have none : selectFrom s p 8 = none := by simpa [up, show barnUp s (barnOf p) = true from barn, free] using idle
    rw [none]
  · rfl

/-- The state in which a selected packet is judged: its shaper is debited, and failing admission entries are counted. -/
def selected (p : Nat) (x : Stored) (s : State) : State := noteAdmit p x.info.hdr.partition (debit p x.info.hdr s)

/-- The end of tracing of a packet that is dropped at its port. -/
def droppedAt (p : Nat) : TraceEnd := { outcome := 1, outPort := p, barn := barnOf p }

variable {x : Stored} (up : (thePort s p).up = true) (barn : barnUp s (barnOf p) = true) (free : laneFree s p = true)
  (head : selectFrom s p 8 = some x)
include up barn free head

theorem egressSelect_of_parity : egressSelect p true s = parityDrop (barnOf p) x s := by
  simp [egressSelect, up, barn, free, head]

/-- A selected packet whose parity is sound, by what keeps it from being sent. -/
theorem egressSelect_of_sound : egressSelect p false s =
    if x.info.result.any fun r => r.void then
      dropRef (barnOf p) x.info.pid p (traceStored x (droppedAt p) (selected p x s))
    else if !admitsOut (selected p x s) p x.info.inPort.isNone x.info.hdr then
      noteDropped x.info.pid (dropRef (barnOf p) x.info.pid p (traceStored x (droppedAt p) (bumpEg (barnOf p) 5 (selected p x s))))
    else (badStored (selected p x s) (barnOf p) x).elim (dispatch p x (selected p x s)) fun k =>
      cellFail (barnOf p) k x.info.pid (selected p x s) := by
  unfold egressSelect
  simp only [up, barn, free, head, Bool.and_self, if_true, Bool.false_eq_true, if_false]
  unfold selected droppedAt
  refine if_congr Iff.rfl rfl (if_congr Iff.rfl rfl ?_)
  split
  · next bad => rw [bad, Option.elim_some]
  · next good => rw [good, Option.elim_none]

theorem egressSelect_of_void {r : ResultRef} (result : x.info.result = some r) (void : r.void = true) : egressSelect p false s =
    dropRef (barnOf p) x.info.pid p (traceStored x (droppedAt p) (selected p x s)) := by
  rw [egressSelect_of_sound up barn free head, if_pos (by simp [result, void])]

variable (plain : x.info.result = none)
include plain

theorem egressSelect_of_notAdmitted (out : admitsOut (selected p x s) p x.info.inPort.isNone x.info.hdr = false) :
    egressSelect p false s = noteDropped x.info.pid (dropRef (barnOf p) x.info.pid p
      (traceStored x (droppedAt p) (bumpEg (barnOf p) 5 (selected p x s)))) := by
  rw [egressSelect_of_sound up barn free head, if_neg (by simp [plain]), if_pos (by simp [out])]

variable (out : admitsOut (selected p x s) p x.info.inPort.isNone x.info.hdr = true)
include out

theorem egressSelect_of_badCell {k : Nat} (bad : badStored (selected p x s) (barnOf p) x = some k) :
    egressSelect p false s = cellFail (barnOf p) k x.info.pid (selected p x s) := by
  rw [egressSelect_of_sound up barn free head, if_neg (by simp [plain]), if_neg (by simp [out]), bad, Option.elim_some]

theorem egressSelect_of_admitted (good : badStored (selected p x s) (barnOf p) x = none) :
    egressSelect p false s = dispatch p x (selected p x s) := by
  rw [egressSelect_of_sound up barn free head, if_neg (by simp [plain]), if_neg (by simp [out]), good, Option.elim_none]

end

/-! ### EGRESS_SELECT -/

/-- The lane of a port's TIME packets has gone on. -/
def timeGone (p : Nat) (s : State) : State :=
  match timeLane s p with
  | some l => pump l (timeFlush p s)
  | none => s

section
variable {p : Nat} {s : State} (parityFails : Bool)

theorem portSelect_of_timeWaits (h : tget (timeGone p s).link.timeQ [] p ≠ []) : portSelect p parityFails s = timeGone p s :=
  if_neg h

theorem portSelect_of_noTime (h : tget (timeGone p s).link.timeQ [] p = []) :
    portSelect p parityFails s = settleSeeds (egressSelect p parityFails (timeGone p s)) :=
  if_pos h

end

end Sys2Proof.Machine

namespace Sys2Proof.Proofs

open Sys2Proof.Machine

/-- Settles O19: a selection is the highest class whose head may be selected, and each end of the packet selected is the lemma that
names what decides it. -/
theorem portScheduler : Obligations.PortScheduler := by
  unfold Obligations.PortScheduler
  refine ⟨?selects, ?row, fun p pf s idle => egressSelect_of_idle pf idle, ?ends, fun p s x => rfl⟩
  case selects =>
    intro s p n x h
    obtain ⟨c, low, head, may, highest⟩ := selectFrom_some h
    obtain ⟨eligible, passes⟩ := Bool.and_eq_true_iff.mp may
    exact ⟨c, low, head, eligible, (shaperPasses_iff s p c).mp passes, highest⟩
  case row =>
    intro p s v pf
    exact ⟨fun waits => next_congr (portSelect_of_timeWaits pf waits), fun none => next_congr (portSelect_of_noTime pf none)⟩
  case ends =>
    intro p s x up barn free head u out gone
    exact ⟨fun plain admitted good => egressSelect_of_admitted up barn free head plain admitted good,
      fun plain admitted k bad => egressSelect_of_badCell up barn free head plain admitted bad,
      fun plain no => egressSelect_of_notAdmitted up barn free head plain no,
      fun r result void => egressSelect_of_void up barn free head result void,
      egressSelect_of_parity up barn free head⟩

end Sys2Proof.Proofs
end

section
/-! SUPPORT. The scheduling commands (R120, R122, R124, R130): each refusal, and what an entry that is taken stores and leaves to the
next refill instant. -/

namespace Sys2Proof.Machine

/-! ### The operands -/

theorem portBase_iff (s : State) (p : Nat) : portBase s p = true ↔ p < 1024 ∧ (thePort s p).configured = true := by
  rw [portBase, Bool.and_eq_true, decide_eq_true_eq]

@[simp] theorem fetched_portBase (i : Instr) (s : State) (p : Nat) : portBase (fetched i s) p = portBase s p := by
  simp only [portBase, fetched_thePort]

/-- The ranges of R120 bind an enabled entry only. -/
theorem profileOk_iff (pr : Profile) : profileOk pr = true ↔
    (pr.en = true → 1 ≤ pr.rate ∧ pr.rate ≤ 204800 ∧ 4136 ≤ pr.burst ∧ pr.rate ≤ pr.burst) := by
  cases en : pr.en <;> simp [profileOk, en, and_assoc]

/-- The keys of a port's classes that a mask names. -/
def maskKeys (port mask : Nat) : List Nat := (maskClasses mask).map fun c => clsKey port c

theorem maskKeys_lt {port mask k : Nat} (base : port < 1024) (h : k ∈ maskKeys port mask) : k < 8192 := by
  obtain ⟨c, hc, rfl⟩ := List.mem_map.mp h
  have : c < 8 := List.mem_range.mp (List.mem_filter.mp hc).1
  unfold clsKey
  omega

/-! ### The profiles of a bank -/

/-- The same profile stored at some keys of a bank. -/
def storeProfiles (bank : Nat) (ks : List Nat) (pr : Profile) (t : Tab Profile) : Tab Profile :=
  ks.foldl (fun t k => tset t {} (8192 * bank + k) pr) t

theorem tget_storeProfiles (bank : Nat) (ks : List Nat) (pr : Profile) (t : Tab Profile) (j : Nat) :
    tget (storeProfiles bank ks pr t) {} j = if ∃ k ∈ ks, 8192 * bank + k = j then pr else tget t {} j := by
  induction ks generalizing t with
  | nil => simp [storeProfiles]
  | cons k ks ih =>
    have next : storeProfiles bank (k :: ks) pr t = storeProfiles bank ks pr (tset t {} (8192 * bank + k) pr) := rfl
    rw [next, ih, tget_tset_any]
    by_cases later : ∃ k ∈ ks, 8192 * bank + k = j
    · rw [if_pos later, if_pos (later.imp fun _ h => ⟨List.mem_cons_of_mem _ h.1, h.2⟩)]
    · rw [if_neg later]
      exact if_congr (by simp [later]) rfl rfl

/-- Keys below 8,192 of two banks never meet. -/
theorem tget_storeProfiles_key {bank : Nat} {ks : List Nat} (low : ∀ k ∈ ks, k < 8192) (pr : Profile) (t : Tab Profile) {k : Nat}
    (hk : k < 8192) (b : Nat) : tget (storeProfiles bank ks pr t) {} (8192 * b + k) =
      if b = bank ∧ k ∈ ks then pr else tget t {} (8192 * b + k) := by
  rw [tget_storeProfiles]
  refine if_congr ⟨fun ⟨j, hj, eq⟩ => ?_, fun ⟨same, hk⟩ => ⟨k, hk, by rw [same]⟩⟩ rfl rfl
  have := low j hj
  obtain ⟨rfl, rfl⟩ : b = bank ∧ k = j := by omega
  exact ⟨rfl, hj⟩

/-! ### SHAPER_WRITE -/

/-- The shapers that wait for the next refill instant once some are to wait too. -/
def addWaiting (waiting ks : List Nat) : List Nat := waiting ++ ks.filter fun k => !waiting.contains k

theorem mem_addWaiting (waiting ks : List Nat) (k : Nat) : k ∈ addWaiting waiting ks ↔ k ∈ waiting ∨ k ∈ ks := by
  by_cases already : k ∈ waiting <;> simp [addWaiting, already]

/-- SHAPER_WRITE has stored its profile, and the shapers of the active bank wait for it. -/
def storeShapers (bank : Nat) (ks : List Nat) (pr : Profile) (d : Sched) : Sched :=
  { d with profiles := storeProfiles bank ks pr d.profiles,
           shaperPend := if bank = d.bank then addWaiting d.shaperPend ks else d.shaperPend }

section
variable {args : List Word} {s : State}

theorem shaperWrite_of_noBase (h : ¬portBase s (argN args 1) = true) : shaperWrite args s = cmdRefuse St.badArgument 1 s :=
  if_pos (by simpa using h)

variable (base : portBase s (argN args 1) = true)
include base

theorem shaperWrite_of_badMask (h : 255 < argN args 2) : shaperWrite args s = cmdRefuse St.badArgument 2 s := by
  rw [shaperWrite, if_neg (by simp [base]), if_pos h]

variable (mask : argN args 2 ≤ 255)
include mask

theorem shaperWrite_of_badBank (h : 3 < argN args 3) : shaperWrite args s = cmdRefuse St.badArgument 3 s := by
  rw [shaperWrite, if_neg (by simp [base]), if_neg (by omega), if_pos h]

variable (bank : argN args 3 ≤ 3)
include bank

theorem shaperWrite_of_badProfile (h : ¬profileOk (profileOf (arg64 args 4)) = true) :
    shaperWrite args s = cmdRefuse St.badArgument 4 s := by
  rw [shaperWrite, if_neg (by simp [base]), if_neg (by omega), if_neg (by omega), if_pos (by simpa using h)]

theorem shaperWrite_of_good (h : profileOk (profileOf (arg64 args 4)) = true) : shaperWrite args s =
    cmdOk (s.modSched (storeShapers (argN args 3) (maskKeys (argN args 1) (argN args 2)) (profileOf (arg64 args 4)))) := by
  rw [shaperWrite, if_neg (by simp [base]), if_neg (by omega), if_neg (by omega), if_neg (by simp [h])]
  rfl

end

/-! ### SHAPER_BANK_SET and POLICER_WRITE -/

section
variable {args : List Word} {s : State}

theorem shaperBankSet_of_badBank (h : 3 < argN args 1) : shaperBankSet args s = cmdRefuse St.badArgument 1 s := if_pos h

theorem shaperBankSet_of_bank (h : argN args 1 ≤ 3) :
    shaperBankSet args s = cmdOk (s.modSched fun d => { d with bankPend := some (argN args 1) }) := if_neg (by omega)

theorem policerWrite_of_noBase (h : ¬portBase s (argN args 1) = true) : policerWrite args s = cmdRefuse St.badArgument 1 s :=
  if_pos (by simpa using h)

variable (base : portBase s (argN args 1) = true)
include base

theorem policerWrite_of_badMask (h : 255 < argN args 2) : policerWrite args s = cmdRefuse St.badArgument 2 s := by
  rw [policerWrite, if_neg (by simp [base]), if_pos h]

variable (mask : argN args 2 ≤ 255)
include mask

theorem policerWrite_of_badProfile (h : ¬profileOk (profileOf (arg64 args 3)) = true) :
    policerWrite args s = cmdRefuse St.badArgument 3 s := by
  rw [policerWrite, if_neg (by simp [base]), if_neg (by omega), if_pos (by simpa using h)]

theorem policerWrite_of_good (h : profileOk (profileOf (arg64 args 3)) = true) : policerWrite args s =
    cmdOk (s.modSched fun d => { d with policerPend := d.policerPend ++ (maskClasses (argN args 2)).map fun c =>
      (clsKey (argN args 1) c, profileOf (arg64 args 3)) }) := by
  rw [policerWrite, if_neg (by simp [base]), if_neg (by omega), if_neg (by simp [h])]

end

end Sys2Proof.Machine

namespace Sys2Proof.Proofs

open Sys2Proof.Machine

/-- Settles O17: each clause is the lemma that says what its command does with the operands that the clause describes. -/
theorem schedulingCommands : Obligations.SchedulingCommands := by
  unfold Obligations.SchedulingCommands
  refine ⟨?shaperWrite, ?bankSet, ?policerWrite⟩
  case shaperWrite =>
    intro h args s i base pr prOk ks acc
    have refused {d : Nat} (hb : shaperWrite args (fetched i s) = cmdRefuse St.badArgument d (fetched i s)) :
        exec i s = .next (refusedEnd i s St.badArgument d) := run_refused rfl acc (exec_shaperWrite h args s) hb
    have isBase : portBase (fetched i s) (argN args 1) = true ↔ base := by rw [fetched_portBase, portBase_iff]
    have isOk : profileOk pr = true ↔ prOk := profileOk_iff pr
    refine ⟨fun hb mask bank ok => ?_, fun no => refused (shaperWrite_of_noBase (mt isBase.mp no)),
      fun hb bad => refused (shaperWrite_of_badMask (isBase.mpr hb) bad),
      fun hb mask bad => refused (shaperWrite_of_badBank (isBase.mpr hb) mask bad),
      fun hb mask bank bad => refused (shaperWrite_of_badProfile (isBase.mpr hb) mask bank (mt isOk.mp bad))⟩
    refine ⟨_, run_ok rfl acc (exec_shaperWrite h args s) (shaperWrite_of_good (isBase.mpr hb) mask bank (isOk.mpr ok)), ?_⟩
    simp only [State.modSched, storeShapers, fetched_sched]
    refine ⟨fun k hk b => ?_, fun other => if_neg other, fun same k => ?_, trivial⟩
    · exact tget_storeProfiles_key (fun _ => maskKeys_lt hb.1) pr _ hk b
    · rw [if_pos same]
      exact mem_addWaiting ..
  case bankSet =>
    intro h args s i acc
    exact ⟨fun bank => run_ok rfl acc (exec_shaperBankSet h args s) (shaperBankSet_of_bank bank),
      fun bad => run_refused rfl acc (exec_shaperBankSet h args s) (shaperBankSet_of_badBank bad)⟩
  case policerWrite =>
    intro h args s i base pr prOk acc
    have refused {d : Nat} (hb : policerWrite args (fetched i s) = cmdRefuse St.badArgument d (fetched i s)) :
        exec i s = .next (refusedEnd i s St.badArgument d) := run_refused rfl acc (exec_policerWrite h args s) hb
    have isBase : portBase (fetched i s) (argN args 1) = true ↔ base := by rw [fetched_portBase, portBase_iff]
    have isOk : profileOk pr = true ↔ prOk := profileOk_iff pr
    exact ⟨fun hb mask ok =>
        run_ok rfl acc (exec_policerWrite h args s) (policerWrite_of_good (isBase.mpr hb) mask (isOk.mpr ok)),
      fun no => refused (policerWrite_of_noBase (mt isBase.mp no)),
      fun hb bad => refused (policerWrite_of_badMask (isBase.mpr hb) bad),
      fun hb mask bad => refused (policerWrite_of_badProfile (isBase.mpr hb) mask (mt isOk.mp bad))⟩

end Sys2Proof.Proofs
end

section
/-! SUPPORT. The refill instant (R119, R122 to R124): one bucket, a table of buckets, and the instant as a whole. -/

namespace Sys2Proof.Machine

/-! ### One bucket -/

@[simp] theorem refill_prof (b : Bucket) : (refill b).prof = b.prof := by
  unfold refill
  split <;> rfl

theorem refill_of_enabled {b : Bucket} (h : b.prof.en = true) :
    refill b = { b with tokens := min (b.tokens + b.prof.rate) b.prof.burst } := if_pos h

theorem refill_tokens_le {b : Bucket} (h : b.prof.en = true) : (refill b).tokens ≤ b.prof.burst := by
  rw [refill_of_enabled h]
  exact min_le_right ..

/-- A bucket that takes an enabled profile and is refilled: at BURST where the profile enables it, and with the new RATE where it was
enabled before. -/
theorem refill_rebucket {new : Profile} (h : new.en = true) (old : Bucket) : refill (rebucket new old) =
    { prof := new, tokens := if old.prof.en then min (old.tokens + new.rate) new.burst else new.burst } := by
  rw [refill_of_enabled h, rebucket, if_pos h]
  cases old.prof.en
  · simp
  · rfl

/-! ### A table of buckets -/

theorem mem_mapBuckets {f : Bucket → Bucket} {t : Tab Bucket} {e : Nat × Bucket} (h : e ∈ mapBuckets f t) : ∃ b, e.2 = f b := by
  obtain ⟨a, -, rfl⟩ := List.mem_map.mp (List.mem_filter.mp h).1
  exact ⟨a.2, rfl⟩

/-- An enabled bucket stays listed when its table is refilled. -/
theorem tget_mapBuckets_refill {t : Tab Bucket} {k : Nat} (h : (tget t {} k).prof.en = true) :
    tget (mapBuckets refill t) {} k = refill (tget t {} k) := by
  induction t with
  | nil => exact absurd h Bool.false_ne_true
  | cons e t ih =>
    obtain ⟨j, b⟩ := e
    have step : mapBuckets refill ((j, b) :: t) =
        if refill b != {} then (j, refill b) :: mapBuckets refill t else mapBuckets refill t := List.filter_cons
    rw [step]
    by_cases here : j = k
    · have found : tget ((j, b) :: t) {} k = b := if_pos here
      rw [found] at h ⊢
      have listed : refill b ≠ {} := fun gone => by
        rw [← refill_prof, gone] at h
        exact Bool.false_ne_true h
      rw [if_pos (bne_iff_ne.mpr listed)]
      exact if_pos here
    · have past : tget ((j, b) :: t) {} k = tget t {} k := if_neg here
      rw [past] at h ⊢
      split
      · exact (if_neg here).trans (ih h)
      · exact ih h

/-- No enabled bucket of a refilled table holds more than BURST. -/
theorem tokens_le_of_mem_refilled {t : Tab Bucket} {e : Nat × Bucket} (h : e ∈ mapBuckets refill t) (en : e.2.prof.en = true) :
    e.2.tokens ≤ e.2.prof.burst := by
  obtain ⟨b, eq⟩ := mem_mapBuckets h
  rw [eq, refill_prof] at en ⊢
  exact refill_tokens_le en

/-! ### The instant -/

/-- What a refill instant does beside the buckets: the bank that waits is in force, and nothing waits. -/
theorem refillInstant_eq (d : Sched) : refillInstant d = { d with
    shapers := (refillInstant d).shapers, policers := (refillInstant d).policers,
    bank := d.bankPend.getD d.bank, bankPend := none, shaperPend := [], policerPend := [] } := by
  cases h : d.bankPend with
  | none => simp only [refillInstant, h, Option.getD_none]
  | some b => simp only [refillInstant, h, Option.getD_some, applyBank]

/-- Every bucket that is listed after a refill instant has been refilled. -/
theorem refillInstant_refills (d : Sched) :
    ∃ t u, (refillInstant d).shapers = mapBuckets refill t ∧ (refillInstant d).policers = mapBuckets refill u := ⟨_, _, rfl, rfl⟩

theorem tokens_le_of_mem_refillInstant {d : Sched} {e : Nat × Bucket}
    (h : e ∈ (refillInstant d).shapers ++ (refillInstant d).policers) (en : e.2.prof.en = true) : e.2.tokens ≤ e.2.prof.burst := by
  obtain ⟨t, u, shapers, policers⟩ := refillInstant_refills d
  rcases List.mem_append.mp h with shaper | policer
  · exact tokens_le_of_mem_refilled (shapers ▸ shaper) en
  · exact tokens_le_of_mem_refilled (policers ▸ policer) en

section
variable {d : Sched} (bank : d.bankPend = none)
include bank

theorem refillInstant_of_nothingWaits (shapers : d.shaperPend = []) (policers : d.policerPend = []) :
    refillInstant d = { d with shapers := mapBuckets refill d.shapers, policers := mapBuckets refill d.policers } := by
  unfold refillInstant
  rw [bank]
  simp only [shapers, policers, List.foldl_nil]
  rw [← bank, ← shapers, ← policers]

theorem shapers_refillInstant_of_oneWaits {k : Nat} (waits : d.shaperPend = [k]) : (refillInstant d).shapers =
    mapBuckets refill (tmod d.shapers {} k fun b => rebucket (tget d.profiles {} (8192 * d.bank + k)) b) := by
  unfold refillInstant
  rw [bank]
  simp only [waits, List.foldl_cons, List.foldl_nil]

end

/-! ### REFILL_INSTANT -/

/-- Device time is at a refill instant that has not been carried out. -/
def RefillDue (s : State) : Prop := s.time.now % 131072 = 0 ∧ s.sched.refilled ≠ some s.time.now

theorem refillDue_iff (s : State) : (onGrid s.time.now && s.sched.refilled != some s.time.now) = true ↔ RefillDue s := by
  rw [Bool.and_eq_true, bne_iff_ne, onGrid, beq_iff_eq, RefillDue]

theorem refillNow_of_notDue {s : State} (h : ¬RefillDue s) : refillNow s = s := if_neg (mt (refillDue_iff s).mp h)

theorem refillNow_of_due {s : State} (h : RefillDue s) :
    refillNow s = s.modSched fun d => { refillInstant d with refilled := some s.time.now } := if_pos ((refillDue_iff s).mpr h)

theorem exec_refillInstant (s : State) : exec .refillInstant s = .next (refillNow s) := rfl

end Sys2Proof.Machine

namespace Sys2Proof.Proofs

open Sys2Proof.Machine

/-- Settles O18: where it is due the row is a refill instant, which refills every bucket that it leaves listed. -/
theorem refillInstant : Obligations.RefillInstant := by
  unfold Obligations.RefillInstant
  intro due
  refine ⟨fun s no => ?notDue, fun s isDue bank shapers policers => ?nothingWaits, ?oneWaits, fun s isDue => ?whole⟩
  case notDue => exact next_congr (refillNow_of_notDue no)
  case nothingWaits =>
    rw [exec_refillInstant, refillNow_of_due isDue, State.modSched, State.modSched,
      refillInstant_of_nothingWaits bank shapers policers]
  case oneWaits =>
    intro s k isDue bank waits new old enabled
    have inForce : tget (tmod s.sched.shapers {} k fun b => rebucket new b) {} k = rebucket new old := by
      rw [tget_tmod, if_pos rfl]
    have runs : (rebucket new old).prof.en = true := enabled
    refine ⟨_, next_congr (refillNow_of_due isDue), ?_⟩
    show tget (Machine.refillInstant s.sched).shapers {} k = _
    rw [shapers_refillInstant_of_oneWaits bank waits, tget_mapBuckets_refill (inForce ▸ runs)]
    exact (congrArg refill inForce).trans (refill_rebucket enabled old)
  case whole =>
    refine ⟨_, next_congr (refillNow_of_due isDue), rfl, ?_⟩
    have eq := refillInstant_eq s.sched
    exact ⟨(congrArg Sched.bank eq :), (congrArg Sched.bankPend eq :), (congrArg Sched.shaperPend eq :),
      (congrArg Sched.policerPend eq :), (congrArg Sched.profiles eq :), (congrArg Sched.lat eq :), rfl,
      fun e listed => tokens_le_of_mem_refillInstant listed⟩

end Sys2Proof.Proofs
end

section
/-! SUPPORT. The reads of a range of a table: one shape for them all, and which entries each of them shows (R130, R158, R186, R187,
R195, R243, R273, R293, R321, R340). -/

namespace Sys2Proof.Machine

/-! ### A read of a range -/

/-- The read of a range of a table of `bound` entries in state `s`: what entry `k` shows goes to host memory, written in the state `t`
that the reading leaves. -/
def rangeRead (bound : Nat) (shown : Nat → List Byte) (args : List Word) (s t : State) : Res :=
  if bound ≤ argN args 1 then cmdRefuse St.badArgument 1 s
  else if argN args 2 < 1 ∨ bound < argN args 1 + argN args 2 then cmdRefuse St.badArgument 2 s
  else cmdOk (hostWrite (arg64 args 3) ((List.range (argN args 2)).flatMap fun k => shown (argN args 1 + k)) t)

section
variable {bound : Nat} (shown : Nat → List Byte) {args : List Word} (s t : State)

theorem rangeRead_of_badFirst (h : bound ≤ argN args 1) : rangeRead bound shown args s t = cmdRefuse St.badArgument 1 s :=
  if_pos h

theorem rangeRead_of_badCount (first : argN args 1 < bound) (h : argN args 2 < 1 ∨ bound < argN args 1 + argN args 2) :
    rangeRead bound shown args s t = cmdRefuse St.badArgument 2 s :=
  (if_neg (Nat.not_le.mpr first)).trans (if_pos h)

theorem rangeRead_of_range (nonempty : 1 ≤ argN args 2) (fits : argN args 1 + argN args 2 ≤ bound) :
    rangeRead bound shown args s t =
      cmdOk (hostWrite (arg64 args 3) ((List.range (argN args 2)).flatMap fun k => shown (argN args 1 + k)) t) := by
  rw [rangeRead, if_neg (by omega), if_neg (by omega)]

end

/-- An accepted entry whose work is the read of a range refuses a first entry beyond the table, then a count outside it, and
otherwise ends OK with the entries in host memory. -/
theorem run_rangeRead (bound : Nat) (shown : Nat → List Byte) (t : State) {i : Instr} {m : MailCmd} (hm : mailCmd i = some m)
    {s : State} (h : accepted i s = true) {body : CmdRef → State → Res}
    (he : exec i s = runMailbox m.spec (fun _ => m.len) body m.hdr m.args s)
    (hb : body (refOf i s) (fetched i s) = rangeRead bound shown m.args (fetched i s) t) :
    (bound ≤ argN m.args 1 → exec i s = .next (refusedEnd i s St.badArgument 1)) ∧
    (argN m.args 1 < bound → argN m.args 2 < 1 ∨ bound < argN m.args 1 + argN m.args 2 →
      exec i s = .next (refusedEnd i s St.badArgument 2)) ∧
    (1 ≤ argN m.args 2 → argN m.args 1 + argN m.args 2 ≤ bound → exec i s = .next (okEnd i s [] (hostWrite (arg64 m.args 3)
      ((List.range (argN m.args 2)).flatMap fun k => shown (argN m.args 1 + k)) t))) :=
  ⟨fun bad => run_refused hm h he (hb.trans (rangeRead_of_badFirst shown _ t bad)),
    fun first bad => run_refused hm h he (hb.trans (rangeRead_of_badCount shown _ t first bad)),
    fun nonempty fits => run_ok hm h he (hb.trans (rangeRead_of_range shown _ t nonempty fits))⟩

/-! ### What each read shows -/

@[simp] theorem fetched_theCtx (i : Instr) (s : State) (c : Nat) : theCtx (fetched i s) c = theCtx s c := by
  simp only [theCtx, fetched_coll]
@[simp] theorem fetched_theUnit (i : Instr) (s : State) (u : Nat) : theUnit (fetched i s) u = theUnit s u := by
  simp only [theUnit, fetched_thresh]
@[simp] theorem fetched_theWindow (i : Instr) (s : State) (w : Nat) : theWindow (fetched i s) w = theWindow s w := by
  simp only [theWindow, fetched_mem]
@[simp] theorem fetched_theSeed (i : Instr) (s : State) (k : Nat) : theSeed (fetched i s) k = theSeed s k := by
  simp only [theSeed, fetched_jobs]

/-- PORT_SCHED_READ checks its range at once and then finds the word at fault; it comes to the same refusals in the same order. -/
theorem portSchedRead_eq (args : List Word) (s : State) : portSchedRead args s = rangeRead 1024 (schedImage s) args s s := by
  by_cases good : rangeIn (argN args 1) (argN args 2) 1024 = true
  · obtain ⟨nonempty, fits⟩ : 1 ≤ argN args 2 ∧ argN args 1 + argN args 2 ≤ 1024 := by simpa [rangeIn] using good
    rw [rangeRead_of_range _ _ _ nonempty fits, portSchedRead, if_neg (by simp [good])]
  · have bad : argN args 2 < 1 ∨ 1024 < argN args 1 + argN args 2 := by
      simp only [rangeIn, Bool.and_eq_true, decide_eq_true_eq] at good
      omega
    rw [portSchedRead, if_pos (by simpa using good)]
    by_cases first : argN args 1 < 1024
    · rw [rangeRead_of_badCount _ _ _ first bad, if_pos first]
    · rw [rangeRead_of_badFirst _ _ _ (Nat.not_lt.mp first), if_neg first]

/-- The readings of a range of lanes are taken, lane by lane. -/
def sampleLanes (first n : Nat) (s : State) : State := ((List.range n).map (first + ·)).foldl (fun s k => sampleLane k s) s

theorem laneStatusRead_eq (args : List Word) (s : State) : laneStatusRead args s =
    rangeRead 1024 (fun k => leBytes 8 (laneWord (sampleLanes (argN args 1) (argN args 2) s) k)) args s
      (sampleLanes (argN args 1) (argN args 2) s) := by
  simp only [laneStatusRead, List.flatMap_map]
  rfl

end Sys2Proof.Machine

namespace Sys2Proof.Proofs

open Sys2Proof.Machine

/-- Settles O58: each command is the read of a range of its table, and LANE_STATUS_READ shows the lanes as they are after the readings. -/
theorem rangeReads : Obligations.RangeReads := by
  unfold Obligations.RangeReads
  refine ⟨?portSched, ?ctxStatus, ?tuStatus, ?harvestGroup, ?memWindow, ?laneStatus, ?linkStatus, ?flueStatus, ?kindle, ?partStatus,
    ?seed, fun k s => rfl⟩
  case portSched =>
    intro h args s i first n acc
    exact run_rangeRead 1024 (schedImage (fetched i s)) (fetched i s) rfl acc
      (exec_portSchedRead h args s) (portSchedRead_eq args (fetched i s))
  case ctxStatus =>
    intro h args s i first n acc
    have runs := run_rangeRead 4096 (fun k => wordsLe (ctxStatus (theCtx (fetched i s) k))) (fetched i s) rfl acc
      (exec_ctxStatusRead h args s) rfl
    simp only [fetched_theCtx] at runs
    exact runs
  case tuStatus =>
    intro h args s i first n acc
    have runs := run_rangeRead 64 (fun k => wordsLe (unitStatus k (theUnit (fetched i s) k))) (fetched i s) rfl acc
      (exec_tuStatusRead h args s) rfl
    simp only [fetched_theUnit] at runs
    exact runs
  case harvestGroup =>
    intro h args s i first n acc
    have runs := run_rangeRead 1024 (fun k => wordsLe (padTo 0 20 (tget (fetched i s).thresh.groups [] k))) (fetched i s) rfl acc
      (exec_harvestGroupRead h args s) rfl
    simp only [fetched_thresh] at runs
    exact runs
  case memWindow =>
    intro h args s i first n acc
    have runs := run_rangeRead 1024 (fun k => windowImg (theWindow (fetched i s) k)) (fetched i s) rfl acc
      (exec_memWindowRead h args s) rfl
    simp only [fetched_theWindow] at runs
    exact runs
  case laneStatus =>
    intro h args s i first n t acc
    exact run_rangeRead 1024 (fun k => leBytes 8 (laneWord t k)) t rfl acc
      (exec_laneStatusRead h args s) (laneStatusRead_eq args (fetched i s))
  case linkStatus =>
    intro h args s i first n acc
    exact run_rangeRead 1024 (fun k => leBytes 8 (linkWord (fetched i s) k)) (fetched i s) rfl acc
      (exec_linkStatusRead h args s) rfl
  case flueStatus =>
    intro h args s i first n acc
    exact run_rangeRead 128 (fun k => leBytes 8 (circWord (fetched i s) k)) (fetched i s) rfl acc
      (exec_flueStatusRead h args s) rfl
  case kindle =>
    intro h args s i first n acc
    exact run_rangeRead 256 (kindleImg (fetched i s)) (fetched i s) rfl acc
      (exec_kindleRead h args s) rfl
  case partStatus =>
    intro h args s i first n acc
    exact run_rangeRead 4096 (fun k => wordsLe (partStatus (fetched i s) k)) (fetched i s) rfl acc
      (exec_partStatusRead h args s) rfl
  case seed =>
    intro h args s i first n acc
    have runs := run_rangeRead 64 (fun k => seedImg (theSeed (fetched i s) k)) (fetched i s) rfl acc
      (exec_seedRead h args s) rfl
    simp only [fetched_theSeed] at runs
    exact runs

end Sys2Proof.Proofs
end

section
/-! SUPPORT. A step: the command at the front of the queue, the entry of a ring, and a reference cycle (R119, R298, R350, R351, R356,
R374, R417). -/

namespace Sys2Proof.Machine

/-! ### What a step runs -/

section
variable {s : State}

theorem step_of_front {c : Instr} {rest : List Instr} (h : s.pending = c :: rest) : step s = exec c { s with pending := rest } := by
  rw [step, h]

variable (queue : s.pending = [])
include queue

theorem step_of_entry {r : Fin 4} {i : Instr} (served : servedRing s = some r) (entry : entryCommand s r = some i) :
    step s = exec i (entryTook s) := by
  rw [step, queue]
  simp only [idle, served, entry]

theorem step_of_unknownEntry {r : Fin 4} (served : servedRing s = some r) (entry : entryCommand s r = none) :
    step s = .next (unknownEntry r s) := by
  rw [step, queue]
  simp only [idle, served, entry]

theorem step_of_noEntry (served : servedRing s = none) : step s = .next (tick s) := by
  rw [step, queue]
  simp only [idle, served]

end

/-! ### A reference cycle -/

theorem timeRuns_iff (s : State) : timeRuns s = true ↔
    (s.time.refOk0 = true ∨ s.time.refOk1 = true) ∧ (s.power.on0 ≠ 0 ∨ s.power.on1 ≠ 0) := by
  simp only [timeRuns, Bool.and_eq_true, Bool.or_eq_true, bne_iff_ne]

theorem settleDrains_of_none {s : State} (h : ∀ e ∈ s.optics.lanes, e.2.draining = false) : settleDrains s = s := by
  have none : (s.optics.lanes.filter fun e => e.2.draining) = [] := List.filter_eq_nil_iff.mpr fun e he => by simp [h e he]
  rw [settleDrains, none, List.foldl_nil]

theorem settleRetirements_of_none {s : State} (h : s.jobs.retiring = []) : settleRetirements s = s := by
  rw [settleRetirements, h, List.filter_nil, List.foldl_nil]

/-- Device time after a cycle: it has run where a time engine runs. -/
def cycledTime (s : State) : TimeSt := if timeRuns s then runTime s.time else s.time

/-- The buckets after a cycle: refilled where device time has passed a refill instant. -/
def cycledSched (s : State) : Sched :=
  if s.time.now / 131072 < (cycledTime s).now / 131072 then
    { refillInstant s.sched with refilled := some (131072 * ((cycledTime s).now / 131072)) }
  else s.sched

theorem refillPassed_modTime (s : State) (f : TimeSt → TimeSt) : refillPassed s.time.now (s.modTime f) =
    { s with time := f s.time, sched := if s.time.now / 131072 < (f s.time).now / 131072 then
      { refillInstant s.sched with refilled := some (131072 * ((f s.time).now / 131072)) } else s.sched } := by
  by_cases passed : s.time.now / 131072 < (f s.time).now / 131072
  · rw [if_pos passed]
    exact if_pos passed
  · rw [if_neg passed]
    exact if_neg passed

/-- With no lane draining and no retirement waiting, a cycle is the running of the two time bases and a refill instant that device
time has passed. -/
theorem tick_eq {s : State} (drains : ∀ e ∈ s.optics.lanes, e.2.draining = false) (retires : s.jobs.retiring = []) :
    tick s = runHearthTime { s with time := cycledTime s, sched := cycledSched s } := by
  have cycled : (if timeRuns s then settleDrains (refillPassed s.time.now (s.modTime runTime)) else s) =
      { s with time := cycledTime s, sched := cycledSched s } := by
    unfold cycledSched cycledTime
    split
    · rw [refillPassed_modTime]
      exact settleDrains_of_none drains
    · rw [if_neg (lt_irrefl _)]
  rw [tick, cycled]
  exact settleRetirements_of_none retires

/-- The Hearth's own time base runs by 6.4 ns within 1 % (R417). -/
theorem runHearthTime_eq (s : State) : ∃ ps, runHearthTime s = { s with time := { s.time with hearthPs := ps }, free := s.free + 1 } ∧
    s.time.hearthPs + 6336 ≤ ps ∧ ps ≤ s.time.hearthPs + 6464 := by
  have : freeBelow s 129 < 129 := Nat.mod_lt _ (by decide)
  exact ⟨s.time.hearthPs + 6336 + freeBelow s 129, rfl, by omega, by omega⟩

theorem cycledTime_hearthPs (s : State) : (cycledTime s).hearthPs = s.time.hearthPs := by
  unfold cycledTime
  split <;> rfl

theorem cycledTime_of_stopped {s : State} (h : ¬timeRuns s = true) : cycledTime s = s.time := if_neg h

theorem cycledTime_of_running {s : State} (h : timeRuns s = true) : cycledTime s = runTime s.time := if_pos h

/-- Device time with its part below a unit runs by 6.4 ns at its rate (R298). -/
theorem runTime_exact {t : TimeSt} (sub : 0 ≤ t.sub) (rate : -1 ≤ t.rate) : 0 ≤ (runTime t).sub ∧ (runTime t).sub < 1 ∧
    ((runTime t).now : Rat) + (runTime t).sub = t.now + t.sub + 32 / 5 * 256 * (1 + t.rate) := by
  have length : cycleLen t.rate = 32 / 5 * 256 * (1 + t.rate) := by
    unfold cycleLen
    ring
  have forward : 0 ≤ t.sub + cycleLen t.rate := by
    rw [length]
    linarith
  have whole : (((t.sub + cycleLen t.rate).floor.toNat : Nat) : Rat) = ((t.sub + cycleLen t.rate).floor : Rat) := by
    exact_mod_cast Int.toNat_of_nonneg (Int.floor_nonneg.mpr forward)
  have low : ((t.sub + cycleLen t.rate).floor : Rat) ≤ t.sub + cycleLen t.rate := Int.floor_le _
  have high : t.sub + cycleLen t.rate < ((t.sub + cycleLen t.rate).floor : Rat) + 1 := Int.lt_floor_add_one _
  simp only [runTime, Nat.cast_add, whole]
  exact ⟨by linarith, by linarith, by linarith⟩

end Sys2Proof.Machine

namespace Sys2Proof.Proofs

open Sys2Proof.Machine

/-- Settles O4: the front of the queue, the entry of a ring, and the reference cycle as the running of its time bases. -/
theorem stepRunsFront : Obligations.StepRunsFront := by
  unfold Obligations.StepRunsFront
  refine ⟨fun c rest s => step_of_front,
    fun s r queue served => ⟨fun i => step_of_entry queue served, step_of_unknownEntry queue served⟩,
    fun s queue served drains retires => ?_⟩
  obtain ⟨ps, runs, low, high⟩ := runHearthTime_eq { s with time := cycledTime s, sched := cycledSched s }
  rw [← tick_eq drains retires] at runs
  rw [cycledTime_hearthPs] at low high
  refine ⟨_, (step_of_noEntry queue served).trans (next_congr runs), rfl, ?same, ?passed, low, high, ?stopped, ?running⟩
  case same =>
    intro same
    exact if_neg (same.le.not_gt)
  case passed =>
    intro passed
    exact if_pos passed
  case stopped =>
    intro off
    have stops : ¬timeRuns s = true := by
      rw [timeRuns_iff]
      rintro ⟨ref, on⟩
      rcases off with ⟨no0, no1⟩ | ⟨off0, off1⟩
      · simp [no0, no1] at ref
      · simp [off0, off1] at on
    simp only [cycledTime_of_stopped stops]
  case running =>
    intro ref on sub rate
    simp only [cycledTime_of_running ((timeRuns_iff s).mpr ⟨ref, on⟩)]
    exact ⟨rfl, runTime_exact sub rate⟩

end Sys2Proof.Proofs
end

section
/-! SUPPORT. The commands on collective contexts (R134, R150, R152, R159, R329, R439, R440): each refusal, and what a command that runs
does. -/

namespace Sys2Proof.Machine

/-! ### A context that exists (R132) -/

theorem ctxUsed_iff {x : Ctx} : ctxUsed x = true ↔ x.state ≠ .free := bne_iff_ne

/-- A command on the context `c` that needs no more of it than that it exists does `work`. -/
def onCtx (c : Nat) (work : Res) (s : State) : Res :=
  if 4096 ≤ c then cmdRefuse St.badArgument 1 s else if !ctxUsed (theCtx s c) then cmdRefuse St.ctxNotFound 0 s else work

section
variable {c : Nat} {work : Res} {s : State}

theorem onCtx_of_badCtx (h : 4096 ≤ c) : onCtx c work s = cmdRefuse St.badArgument 1 s := if_pos h

variable (low : c < 4096)
include low

theorem onCtx_of_free (h : (theCtx s c).state = .free) : onCtx c work s = cmdRefuse St.ctxNotFound 0 s := by
  rw [onCtx, if_neg (Nat.not_le.mpr low), if_pos (by simp [ctxUsed, h])]

theorem onCtx_of_used (h : (theCtx s c).state ≠ .free) : onCtx c work s = work := by
  rw [onCtx, if_neg (Nat.not_le.mpr low), if_neg (by simp [ctxUsed_iff.mpr h])]

end

/-- An accepted entry that needs of its context no more than that it exists refuses a number of none, then a FREE context. -/
theorem run_onCtx {i : Instr} {m : MailCmd} (hm : mailCmd i = some m) {s : State} (h : accepted i s = true)
    {body : CmdRef → State → Res} (he : exec i s = runMailbox m.spec (fun _ => m.len) body m.hdr m.args s) {work : Res}
    (hb : body (refOf i s) (fetched i s) = onCtx (argN m.args 1) work (fetched i s)) :
    (4096 ≤ argN m.args 1 → exec i s = .next (refusedEnd i s St.badArgument 1)) ∧
    (argN m.args 1 < 4096 → (theCtx s (argN m.args 1)).state = .free → exec i s = .next (refusedEnd i s St.ctxNotFound 0)) :=
  ⟨fun bad => run_refused hm h he (hb.trans (onCtx_of_badCtx bad)),
    fun low free => run_refused hm h he (hb.trans (onCtx_of_free low (by rwa [fetched_theCtx])))⟩

/-! ### CTX_ABORT, CTX_DESTROY and CTX_READ (R150, R159) -/

theorem ctxAbort_eq (args : List Word) (s : State) : ctxAbort args s =
    onCtx (argN args 1) (cmdOk (abortCtx (argN args 1) 7 (plainOffence s (theCtx s (argN args 1))) s)) s := rfl

/-- An abort of a context that is not ACTIVE lets fences that waited for it take effect, and does nothing else. -/
theorem abortCtx_of_notActive {c : Nat} (reason : Nat) (o : Offence) {s : State} (h : (theCtx s c).state ≠ .active) :
    abortCtx c reason o s = settleFences 64 s :=
  congrArg (settleFences 64) (if_neg h)

/-- What CTX_DESTROY does with a context that exists. -/
def destroyWork (c : Nat) (s : State) : Res :=
  if (theCtx s c).state = .retiring then cmdRefuse St.partitionRetiring 0 s
  else if (theCtx s c).state = .active then cmdRefuse St.busy 0 s
  else cmdOk (modCtx c (fun _ => {}) (stripResults c s))

theorem ctxDestroy_eq (args : List Word) (s : State) :
    ctxDestroy args s = onCtx (argN args 1) (destroyWork (argN args 1) s) s := rfl

section
variable {args : List Word} {s : State} (low : argN args 1 < 4096)
include low

theorem ctxDestroy_of_retiring (h : (theCtx s (argN args 1)).state = .retiring) :
    ctxDestroy args s = cmdRefuse St.partitionRetiring 0 s := by
  rw [ctxDestroy_eq, onCtx_of_used low (by simp [h]), destroyWork, if_pos h]

theorem ctxDestroy_of_active (h : (theCtx s (argN args 1)).state = .active) : ctxDestroy args s = cmdRefuse St.busy 0 s := by
  rw [ctxDestroy_eq, onCtx_of_used low (by simp [h]), destroyWork, if_neg (by simp [h]), if_pos h]

theorem ctxDestroy_of_aborted (h : (theCtx s (argN args 1)).state = .aborted) :
    ctxDestroy args s = cmdOk (modCtx (argN args 1) (fun _ => {}) (stripResults (argN args 1) s)) := by
  rw [ctxDestroy_eq, onCtx_of_used low (by simp [h]), destroyWork, if_neg (by simp [h]), if_neg (by simp [h])]

end

theorem ctxRead_eq (args : List Word) (s : State) : ctxRead args s = onCtx (argN args 1)
    (cmdOk (hostWrite (arg64 args 2)
      (wordsLe (theCtx s (argN args 1)).desc ++ wordsLe ((theCtx s (argN args 1)).given.map w32)) s)) s := rfl

/-! ### CTX_REARM (R159, R329) -/

/-- The member table with which CTX_REARM starts a context. -/
def rearmMembers (args : List Word) (s : State) : List Nat :=
  if argN args 3 = 1 then membersOf s (arg64 args 4) (ctxCount (theCtx s (argN args 1))) else (theCtx s (argN args 1)).members

/-- What CTX_REARM does with a context that exists. -/
def rearmWork (args : List Word) (s : State) : Res :=
  let x := theCtx s (argN args 1)
  if x.state = .retiring then cmdRefuse St.partitionRetiring 0 s
  else if x.state = .active ∧ x.opens ≠ [] then cmdRefuse St.busy 0 s
  else cmdOk (settleFences 64 (modCtx (argN args 1) (rearmed (argN args 2) (rearmMembers args s)) (stripResults (argN args 1) s)))

section
variable {args : List Word} {s : State} (low : argN args 1 < 4096) (epoch : argN args 2 ≤ 65535) (form : argN args 3 ≤ 1)
include low epoch form

theorem ctxRearm_of_range : ctxRearm args s = onCtx (argN args 1) (rearmWork args s) s := by
  rw [onCtx, if_neg (Nat.not_le.mpr low)]
  exact (if_neg (Nat.not_le.mpr low)).trans ((if_neg (Nat.not_lt.mpr epoch)).trans (if_neg (Nat.not_lt.mpr form)))

theorem ctxRearm_of_free (h : (theCtx s (argN args 1)).state = .free) : ctxRearm args s = cmdRefuse St.ctxNotFound 0 s := by
  rw [ctxRearm_of_range low epoch form, onCtx_of_free low h]

theorem ctxRearm_of_retiring (h : (theCtx s (argN args 1)).state = .retiring) :
    ctxRearm args s = cmdRefuse St.partitionRetiring 0 s := by
  rw [ctxRearm_of_range low epoch form, onCtx_of_used low (by simp [h])]
  exact if_pos h

theorem ctxRearm_of_open (active : (theCtx s (argN args 1)).state = .active) (h : (theCtx s (argN args 1)).opens ≠ []) :
    ctxRearm args s = cmdRefuse St.busy 0 s := by
  rw [ctxRearm_of_range low epoch form, onCtx_of_used low (by simp [active])]
  exact (if_neg (by simp [active])).trans (if_pos ⟨active, h⟩)

theorem ctxRearm_of_idle (h : (theCtx s (argN args 1)).state = .aborted ∨
    ((theCtx s (argN args 1)).state = .active ∧ (theCtx s (argN args 1)).opens = [])) :
    ctxRearm args s = cmdOk (settleFences 64 (modCtx (argN args 1) (rearmed (argN args 2) (rearmMembers args s))
      (stripResults (argN args 1) s))) := by
  have idle : ¬((theCtx s (argN args 1)).state = .active ∧ (theCtx s (argN args 1)).opens ≠ []) := by
    rintro ⟨active, opens⟩
    simp [active, opens] at h
  have known : (theCtx s (argN args 1)).state ≠ .free ∧ (theCtx s (argN args 1)).state ≠ .retiring := by
    rcases h with h | ⟨h, -⟩ <;> simp [h]
  rw [ctxRearm_of_range low epoch form, onCtx_of_used low known.1]
  exact (if_neg known.2).trans (if_neg idle)

end

/-! ### CTX_SUBSTITUTE (R152) -/

/-- The context holds the substitution that CTX_SUBSTITUTE asks for. -/
def holdSub (args : List Word) (s : State) : State :=
  modCtx (argN args 1) (fun x => settleSub { x with sub := some ⟨argN args 2, argN args 3, argN args 4⟩ }) s

/-- The notice of a substitution goes to every member. -/
def tellSub (args : List Word) (s : State) : State :=
  let x := theCtx (holdSub args s) (argN args 1)
  sendNotice (argN args 1) x 4 1 0 (memberDetail (some (argN args 2))) (argN args 4)
    (wordsBe [pack [(8, memberAt (theCtx s (argN args 1)) (argN args 2) (argN args 4))], pack [(8, argN args 3)],
      w32 (digestAt x (argN args 4)), 0]) (holdSub args s)

/-- What CTX_SUBSTITUTE does with a context that exists. -/
def substituteWork (args : List Word) (s : State) : Res :=
  let x := theCtx s (argN args 1)
  if ctxCount x ≤ argN args 2 then cmdRefuse St.badArgument 2 s
  else if x.state = .retiring then cmdRefuse St.partitionRetiring 0 s
  else if x.state = .aborted then cmdRefuse St.busy 0 s
  else if epochStarted x (argN args 4) then cmdRefuse St.epochStarted 0 s
  else if x.sub.isSome then cmdRefuse St.busy 0 s
  else cmdOk (tellSub args s)

section
variable {args : List Word} {s : State} (low : argN args 1 < 4096) (member : argN args 2 < 1024) (newId : argN args 3 < 2 ^ 24)
  (epoch : argN args 4 ≤ 65535)
include low member newId epoch

theorem ctxSubstitute_of_range : ctxSubstitute args s = onCtx (argN args 1) (substituteWork args s) s := by
  rw [onCtx, if_neg (Nat.not_le.mpr low)]
  exact (if_neg (Nat.not_le.mpr low)).trans ((if_neg (Nat.not_le.mpr member)).trans
    ((if_neg (Nat.not_le.mpr newId)).trans (if_neg (Nat.not_lt.mpr epoch))))

theorem ctxSubstitute_of_free (h : (theCtx s (argN args 1)).state = .free) :
    ctxSubstitute args s = cmdRefuse St.ctxNotFound 0 s := by
  rw [ctxSubstitute_of_range low member newId epoch, onCtx_of_free low h]

variable (belongs : argN args 2 < ctxCount (theCtx s (argN args 1)))
include belongs

theorem ctxSubstitute_of_retiring (h : (theCtx s (argN args 1)).state = .retiring) :
    ctxSubstitute args s = cmdRefuse St.partitionRetiring 0 s := by
  rw [ctxSubstitute_of_range low member newId epoch, onCtx_of_used low (by simp [h])]
  exact (if_neg (Nat.not_le.mpr belongs)).trans (if_pos h)

theorem ctxSubstitute_of_aborted (h : (theCtx s (argN args 1)).state = .aborted) :
    ctxSubstitute args s = cmdRefuse St.busy 0 s := by
  rw [ctxSubstitute_of_range low member newId epoch, onCtx_of_used low (by simp [h])]
  exact (if_neg (Nat.not_le.mpr belongs)).trans ((if_neg (by simp [h])).trans (if_pos h))

variable (active : (theCtx s (argN args 1)).state = .active)
include active

/-- On an ACTIVE context the epoch decides, then a substitution that is held already. -/
theorem ctxSubstitute_of_active : ctxSubstitute args s =
    if epochStarted (theCtx s (argN args 1)) (argN args 4) = true then cmdRefuse St.epochStarted 0 s
    else if (theCtx s (argN args 1)).sub.isSome = true then cmdRefuse St.busy 0 s else cmdOk (tellSub args s) := by
  rw [ctxSubstitute_of_range low member newId epoch, onCtx_of_used low (by simp [active])]
  exact (if_neg (Nat.not_le.mpr belongs)).trans ((if_neg (by simp [active])).trans (if_neg (by simp [active])))

end

/-! ### CTX_BRANCH_READ and CTX_RESEND_BRANCH (R439, R440) -/

section
variable {args : List Word} {s : State}

theorem ctxBranchRead_of_refused {st d : Nat} (h : branchCheck args s = some (st, d)) :
    ctxBranchRead args s = cmdRefuse st d s := by
  simp only [ctxBranchRead, h]

theorem ctxResendBranch_of_refused (bad : List Nat) {st d : Nat} (h : branchCheck args s = some (st, d)) :
    ctxResendBranch args bad s = cmdRefuse st d s := by
  simp only [ctxResendBranch, h]

theorem branchCheck_of_badCtx (h : 4096 ≤ argN args 1) : branchCheck args s = some (St.badArgument, 1) := if_pos h

variable (low : argN args 1 < 4096)
include low

theorem branchCheck_of_badEpoch (h : 65535 < argN args 2) : branchCheck args s = some (St.badArgument, 2) :=
  (if_neg (Nat.not_le.mpr low)).trans (if_pos h)

variable (epoch : argN args 2 ≤ 65535)
include epoch

theorem branchCheck_of_badRange (h : argN args 4 < argN args 3) : branchCheck args s = some (St.badArgument, 4) :=
  (if_neg (Nat.not_le.mpr low)).trans ((if_neg (Nat.not_lt.mpr epoch)).trans (if_pos h))

variable (range : argN args 3 ≤ argN args 4)
include range

/-- With a good epoch and range the context decides, then the number of its sheaves. -/
theorem branchCheck_of_range : branchCheck args s =
    if !ctxUsed (theCtx s (argN args 1)) then some (St.ctxNotFound, 0)
    else if (theCtx s (argN args 1)).state = .retiring then some (St.partitionRetiring, 0)
    else if ctxN (theCtx s (argN args 1)) ≤ argN args 3 then some (St.badArgument, 3)
    else if ctxN (theCtx s (argN args 1)) ≤ argN args 4 then some (St.badArgument, 4)
    else none :=
  (if_neg (Nat.not_le.mpr low)).trans ((if_neg (Nat.not_lt.mpr epoch)).trans (if_neg (Nat.not_lt.mpr range)))

theorem branchCheck_of_free (h : (theCtx s (argN args 1)).state = .free) : branchCheck args s = some (St.ctxNotFound, 0) := by
  rw [branchCheck_of_range low epoch range, if_pos (by simp [ctxUsed, h])]

theorem branchCheck_of_retiring (h : (theCtx s (argN args 1)).state = .retiring) :
    branchCheck args s = some (St.partitionRetiring, 0) := by
  rw [branchCheck_of_range low epoch range, if_neg (by simp [ctxUsed, h]), if_pos h]

theorem branchCheck_of_answering (sheaves : argN args 4 < ctxN (theCtx s (argN args 1)))
    (h : (theCtx s (argN args 1)).state = .active ∨ (theCtx s (argN args 1)).state = .aborted) : branchCheck args s = none := by
  have known : (theCtx s (argN args 1)).state ≠ .free ∧ (theCtx s (argN args 1)).state ≠ .retiring := by
    rcases h with h | h <;> simp [h]
  rw [branchCheck_of_range low epoch range, if_neg (by simp [ctxUsed_iff.mpr known.1]), if_neg known.2, if_neg (by omega),
    if_neg (by omega)]

end

/-- The retained results that a branch command is about. -/
def branchResults (args : List Word) (s : State) : List Retained :=
  branchSlots s (theCtx s (argN args 1)) (argN args 2) (argN args 3) (argN args 4)

section
variable {args : List Word} {s : State} (passed : branchCheck args s = none)
include passed

theorem ctxBranchRead_of_passed : ctxBranchRead args s =
    cmdOkWith [w32 (branchResults args s).length] (hostWrite (arg64 args 5) (leBytes 128
      (if branchResults args s = [] then (0 : BitVec 1024)
        else (branchResults args s).foldl (fun m r => m &&& r.delivered) (BitVec.allOnes 1024)).toNat) s) := by
  simp only [ctxBranchRead, passed]
  rfl

theorem ctxResendBranch_of_passed (bad : List Nat) : ctxResendBranch args bad s =
    cmdOkWith [w32 (argN args 4 - argN args 3 + 1 - ((branchResults args s).filter fun r => !bad.contains r.index).length)]
      ((branchResults args s).foldl (fun s r => resendVerified (argN args 1) (maskOf args 5) bad r s) s) := by
  simp only [ctxResendBranch, passed]
  rfl

end

/-! ### CTX_CREATE (R134, R198, R199, R324, R329) -/

/-- The context that the image of a CTX_CREATE describes. -/
def imageCtx (args : List Word) (s : State) : Ctx := ctxFrom s (arg64 args 1)

/-- The number that the image gives it. -/
def imageNo (args : List Word) (s : State) : Nat := fld (dw (imageCtx args s) 0) 31 20

/-- An ACCUMULATE context adds into a window that its partition may write. -/
def WindowOk (args : List Word) (s : State) : Prop :=
  ctxOut (imageCtx args s) = 1 → (windowFor s (ctxPartition (imageCtx args s)) (ctxAccAddr (imageCtx args s))
    (accSize (imageCtx args s)) false true).isSome = true

/-- The quota on contexts stands against the creation. -/
def contextQuota (args : List Word) (s : State) : Option (Nat × Nat) := quotaRefusal s (ctxPartition (imageCtx args s)) 0 1

/-- The quota on Granary space stands against it. -/
def granaryQuota (args : List Word) (s : State) : Option (Nat × Nat) :=
  quotaRefusal s (ctxPartition (imageCtx args s)) 3 (mibs (ctxRetSpace (imageCtx args s)))

/-- The context takes its places, if there is room for it. -/
def createPlaced (args : List Word) (s : State) : Res :=
  match if stagingFits s (imageCtx args s) then placed s (imageCtx args s) else none with
  | some x => cmdOk (modCtx (imageNo args s) (fun _ => x) s)
  | none => cmdRefuse St.stagingFull 0 s

/-- What CTX_CREATE does once the window is found: its quotas, then its places. -/
def createCharged (args : List Word) (s : State) : Res :=
  match contextQuota args s with
  | some (st, d) => cmdRefuse st d s
  | none =>
    match granaryQuota args s with
    | some (st, d) => cmdRefuse st d s
    | none => createPlaced args s

/-- CTX_CREATE as its checks in their order: the context and its image, then what stands in the device. -/
theorem ctxCreate_eq (args : List Word) (s : State) : ctxCreate args s =
    if ctxUsed (theCtx s (imageNo args s)) then cmdRefuse St.ctxInUse 0 s
    else if !descOk (imageCtx args s) then cmdRefuse St.badArgument 1 s
    else if (thePart s (ctxPartition (imageCtx args s))).state = 2 then cmdRefuse St.partitionRetiring 0 s
    else if !treeOk s (imageCtx args s) then cmdRefuse St.badArgument 1 s
    else if s.mem.granary ≠ .inService then cmdRefuse St.busy 0 s
    else if ctxOut (imageCtx args s) = 1 ∧ (windowFor s (ctxPartition (imageCtx args s)) (ctxAccAddr (imageCtx args s))
      (accSize (imageCtx args s)) false true).isNone then cmdRefuse St.refusedPermission 0 s
    else createCharged args s := rfl

section
variable {args : List Word} {s : State}

theorem ctxCreate_of_inUse (h : (theCtx s (imageNo args s)).state ≠ .free) : ctxCreate args s = cmdRefuse St.ctxInUse 0 s :=
  if_pos (ctxUsed_iff.mpr h)

variable (free : (theCtx s (imageNo args s)).state = .free)
include free

theorem ctxCreate_of_badDesc (h : descOk (imageCtx args s) = false) : ctxCreate args s = cmdRefuse St.badArgument 1 s := by
  rw [ctxCreate_eq, if_neg (by simp [ctxUsed, free]), if_pos (by simp [h])]

variable (desc : descOk (imageCtx args s) = true)
include desc

theorem ctxCreate_of_retiring (h : (thePart s (ctxPartition (imageCtx args s))).state = 2) :
    ctxCreate args s = cmdRefuse St.partitionRetiring 0 s := by
  rw [ctxCreate_eq, if_neg (by simp [ctxUsed, free]), if_neg (by simp [desc]), if_pos h]

variable (lives : (thePart s (ctxPartition (imageCtx args s))).state ≠ 2)
include lives

theorem ctxCreate_of_badTree (h : treeOk s (imageCtx args s) = false) : ctxCreate args s = cmdRefuse St.badArgument 1 s := by
  rw [ctxCreate_eq, if_neg (by simp [ctxUsed, free]), if_neg (by simp [desc]), if_neg lives, if_pos (by simp [h])]

variable (tree : treeOk s (imageCtx args s) = true)
include tree

theorem ctxCreate_of_granaryOut (h : s.mem.granary ≠ .inService) : ctxCreate args s = cmdRefuse St.busy 0 s := by
  rw [ctxCreate_eq, if_neg (by simp [ctxUsed, free]), if_neg (by simp [desc]), if_neg lives, if_neg (by simp [tree]), if_pos h]

variable (granary : s.mem.granary = .inService)
include granary

theorem ctxCreate_of_noWindow (h : ¬WindowOk args s) : ctxCreate args s = cmdRefuse St.refusedPermission 0 s := by
  obtain ⟨accumulates, missing⟩ := Classical.not_imp.mp h
  rw [ctxCreate_eq, if_neg (by simp [ctxUsed, free]), if_neg (by simp [desc]), if_neg lives, if_neg (by simp [tree]),
    if_neg (by simp [granary]), if_pos ⟨accumulates, by simpa using missing⟩]

variable (window : WindowOk args s)
include window

theorem ctxCreate_of_window : ctxCreate args s = createCharged args s := by
  have found : ¬(ctxOut (imageCtx args s) = 1 ∧ (windowFor s (ctxPartition (imageCtx args s)) (ctxAccAddr (imageCtx args s))
      (accSize (imageCtx args s)) false true).isNone = true) := by
    rintro ⟨accumulates, missing⟩
    have there := window accumulates
    rw [Option.isNone_iff_eq_none.mp missing] at there
    cases there
  rw [ctxCreate_eq, if_neg (by simp [ctxUsed, free]), if_neg (by simp [desc]), if_neg lives, if_neg (by simp [tree]),
    if_neg (by simp [granary]), if_neg found]

end

section
variable {args : List Word} {s : State}

theorem createCharged_of_contextQuota {st d : Nat} (h : contextQuota args s = some (st, d)) :
    createCharged args s = cmdRefuse st d s := by
  simp only [createCharged, h]

variable (contexts : contextQuota args s = none)
include contexts

theorem createCharged_of_granaryQuota {st d : Nat} (h : granaryQuota args s = some (st, d)) :
    createCharged args s = cmdRefuse st d s := by
  simp only [createCharged, contexts, h]

variable (space : granaryQuota args s = none)
include space

theorem createCharged_of_quotas : createCharged args s = createPlaced args s := by
  simp only [createCharged, contexts, space]

end

section
variable {args : List Word} {s : State}

theorem createPlaced_of_noRoom (h : stagingFits s (imageCtx args s) = false ∨ placed s (imageCtx args s) = none) :
    createPlaced args s = cmdRefuse St.stagingFull 0 s := by
  rcases h with h | h <;> simp [createPlaced, h]

theorem createPlaced_of_room {x : Ctx} (fits : stagingFits s (imageCtx args s) = true) (h : placed s (imageCtx args s) = some x) :
    createPlaced args s = cmdOk (modCtx (imageNo args s) (fun _ => x) s) := by
  simp [createPlaced, fits, h]

end

/-- A context that has its places is the one described, with the first rows of its staging store and of its retention space. -/
theorem exists_rows_of_placed {s : State} {x : Ctx} (h : (placed s x).isSome = true) :
    ∃ a b, placed s x = some { x with storeRow := some a, retRow := some b } := by
  obtain ⟨y, hy⟩ := Option.isSome_iff_exists.mp h
  obtain ⟨a, -, kept⟩ := Option.bind_eq_some_iff.mp hy
  obtain ⟨b, -, rfl⟩ := Option.map_eq_some_iff.mp kept
  exact ⟨a, b, hy⟩

end Sys2Proof.Machine

namespace Sys2Proof.Proofs

open Sys2Proof.Machine

/-- Settles O20: each clause is the lemma that says what its command does with a context in the state that the clause describes. -/
theorem contextCommands : Obligations.ContextCommands := by
  unfold Obligations.ContextCommands
  refine ⟨?create, ?abort, ?rearm, fun e members x => ⟨rfl, rfl, rfl, rfl, rfl, rfl, rfl, rfl⟩, ?substitute, ?destroy, ?read,
    ?branchRead, ?resendBranch⟩
  case create =>
    intro h args s i f x acc free desc lives tree granary window contexts space fits room
    obtain ⟨a, b, rows⟩ := exists_rows_of_placed room
    refine ⟨a, b, rows, run_ok rfl acc (exec_ctxCreate h args s) ?_⟩
    calc ctxCreate args f
      _ = createCharged args f := ctxCreate_of_window ((congrArg Ctx.state (fetched_theCtx i s _)).trans free) desc
            ((congrArg Part.state (fetched_thePart i s _)).trans_ne lives) tree ((fetched_mem i s).symm ▸ granary) window
      _ = createPlaced args f := createCharged_of_quotas contexts space
      _ = _ := createPlaced_of_room fits rows
  case abort =>
    intro h args s i acc low used
    have runs := run_ok rfl acc (exec_ctxAbort h args s)
      ((ctxAbort_eq args _).trans (onCtx_of_used low (by rwa [fetched_theCtx])))
    refine ⟨by rwa [fetched_theCtx] at runs, fun idle => ?_⟩
    rwa [abortCtx_of_notActive _ _ (by rwa [fetched_theCtx])] at runs
  case rearm =>
    intro h args s i x members acc low epoch form idle
    have runs := run_ok rfl acc (exec_ctxRearm h args s) (ctxRearm_of_idle low epoch form (by rwa [fetched_theCtx]))
    rwa [rearmMembers, fetched_theCtx] at runs
  case substitute =>
    intro h args s i x acc low newId epoch active belongs member fresh unheld
    refine ⟨holdSub args (fetched i s), tellSub args (fetched i s), ?_, rfl, ?_⟩
    · refine run_ok rfl acc (exec_ctxSubstitute h args s) ((ctxSubstitute_of_active low member newId epoch
        (by rwa [fetched_theCtx]) (by rwa [fetched_theCtx])).trans ?_)
      rw [fetched_theCtx, if_neg (by simp [x, fresh]), if_neg (by simp [x, unheld])]
      rfl
    · rw [tellSub, fetched_theCtx]
  case destroy =>
    intro h args s i acc low aborted
    exact run_ok rfl acc (exec_ctxDestroy h args s) (ctxDestroy_of_aborted low (by rwa [fetched_theCtx]))
  case read =>
    intro h args s i x acc low used
    have runs := run_ok rfl acc (exec_ctxRead h args s) ((ctxRead_eq args _).trans (onCtx_of_used low (by rwa [fetched_theCtx])))
    rwa [fetched_theCtx] at runs
  case branchRead =>
    intro h args s i x l acc low epoch range sheaves answering
    have runs := run_ok rfl acc (exec_ctxBranchRead h args s) (ctxBranchRead_of_passed
      (branchCheck_of_answering low epoch range (by rwa [fetched_theCtx]) (by rwa [fetched_theCtx])))
    rwa [branchResults, fetched_theCtx] at runs
  case resendBranch =>
    intro h bad args s i x l acc low epoch range sheaves answering
    have runs := run_ok rfl acc (exec_ctxResendBranch ⟨h, bad⟩ args s) (ctxResendBranch_of_passed
      (branchCheck_of_answering low epoch range (by rwa [fetched_theCtx]) (by rwa [fetched_theCtx])) bad)
    rw [branchResults, fetched_theCtx] at runs
    exact runs

/-- Settles O21: each clause is the lemma that says which check of its command refuses it in the state that the clause describes. -/
theorem contextRefusals : Obligations.ContextRefusals := by
  unfold Obligations.ContextRefusals
  refine ⟨?create, ?existing, ?rearm, ?destroy, ?substitute, ?branches⟩
  case create =>
    intro h args s i f x live fits window acc
    have refused {st d : Nat} (hb : ctxCreate args f = cmdRefuse st d f) : exec i s = .next (refusedEnd i s st d) :=
      run_refused rfl acc (exec_ctxCreate h args s) hb
    have ctx : theCtx f (imageNo args f) = theCtx s (imageNo args f) := fetched_theCtx i s _
    have part : thePart f (ctxPartition x) = thePart s (ctxPartition x) := fetched_thePart i s _
    have mem : f.mem = s.mem := fetched_mem i s
    refine ⟨fun used => refused (ctxCreate_of_inUse (ctx ▸ used)), fun vacant => ?_⟩
    have free : (theCtx f (imageNo args f)).state = .free := ctx ▸ vacant
    have lives (l : live) : (thePart f (ctxPartition x)).state ≠ 2 := part ▸ l
    refine ⟨fun bad => refused (ctxCreate_of_badDesc free bad),
      fun desc retires => refused (ctxCreate_of_retiring free desc (part ▸ not_not.mp retires)),
      fun desc l bad => refused (ctxCreate_of_badTree free desc (lives l) bad), ?granaryOut, ?noWindow, ?charged⟩
    case granaryOut =>
      rintro ⟨desc, l, tree⟩ out
      exact refused (ctxCreate_of_granaryOut free desc (lives l) tree (mem ▸ out))
    case noWindow =>
      rintro ⟨desc, l, tree⟩ granary missing
      exact refused (ctxCreate_of_noWindow free desc (lives l) tree (mem ▸ granary) missing)
    case charged =>
      rintro ⟨desc, l, tree⟩ granary found
      have charged : ctxCreate args f = createCharged args f :=
        ctxCreate_of_window free desc (lives l) tree (mem ▸ granary) found
      exact ⟨fun st d exceeds => refused (charged.trans (createCharged_of_contextQuota exceeds)),
        fun contexts => ⟨fun st d exceeds =>
            refused (charged.trans (createCharged_of_granaryQuota contexts exceeds)),
          fun space full => refused (charged.trans ((createCharged_of_quotas contexts space).trans (createPlaced_of_noRoom full)))⟩⟩
  case existing =>
    rintro h args i s (rfl | rfl | rfl) acc
    · exact run_onCtx rfl acc (exec_ctxAbort h args s) (ctxAbort_eq args _)
    · exact run_onCtx rfl acc (exec_ctxDestroy h args s) (ctxDestroy_eq args _)
    · exact run_onCtx rfl acc (exec_ctxRead h args s) (ctxRead_eq args _)
  case rearm =>
    intro h args s i x acc low epoch form
    have refused {st : Nat} (hb : ctxRearm args (fetched i s) = cmdRefuse st 0 (fetched i s)) :
        exec i s = .next (refusedEnd i s st 0) := run_refused rfl acc (exec_ctxRearm h args s) hb
    have ctx : theCtx (fetched i s) (argN args 1) = x := fetched_theCtx i s _
    exact ⟨fun free => refused (ctxRearm_of_free low epoch form (ctx ▸ free)),
      fun retires => refused (ctxRearm_of_retiring low epoch form (ctx ▸ retires)),
      fun active opens => refused (ctxRearm_of_open low epoch form (ctx ▸ active) (ctx ▸ opens))⟩
  case destroy =>
    intro h args s i acc low
    exact ⟨fun retires => run_refused rfl acc (exec_ctxDestroy h args s) (ctxDestroy_of_retiring low (by rwa [fetched_theCtx])),
      fun active => run_refused rfl acc (exec_ctxDestroy h args s) (ctxDestroy_of_active low (by rwa [fetched_theCtx]))⟩
  case substitute =>
    intro h args s i x acc low member newId epoch
    have refused {st : Nat} (hb : ctxSubstitute args (fetched i s) = cmdRefuse st 0 (fetched i s)) :
        exec i s = .next (refusedEnd i s st 0) := run_refused rfl acc (exec_ctxSubstitute h args s) hb
    have ctx : theCtx (fetched i s) (argN args 1) = x := fetched_theCtx i s _
    refine ⟨fun free => refused (ctxSubstitute_of_free low member newId epoch (ctx ▸ free)), fun _ counted => ?_⟩
    have belongs : argN args 2 < ctxCount (theCtx (fetched i s) (argN args 1)) := ctx ▸ counted
    have judged (active : x.state = .active) := ctxSubstitute_of_active low member newId epoch belongs (ctx ▸ active)
    rw [ctx] at judged
    exact ⟨fun retires => refused (ctxSubstitute_of_retiring low member newId epoch belongs (ctx ▸ retires)),
      fun aborted => refused (ctxSubstitute_of_aborted low member newId epoch belongs (ctx ▸ aborted)),
      fun active started => refused ((judged active).trans (if_pos started)),
      fun active fresh held => refused ((judged active).trans ((if_neg (by simp [fresh])).trans (if_pos held)))⟩
  case branches =>
    intro h bad args i s which acc x
    have refused {st d : Nat} (no : branchCheck args (fetched i s) = some (st, d)) : exec i s = .next (refusedEnd i s st d) := by
      rcases which with rfl | rfl
      · exact run_refused rfl acc (exec_ctxBranchRead h args s) (ctxBranchRead_of_refused no)
      · exact run_refused rfl acc (exec_ctxResendBranch ⟨h, bad⟩ args s) (ctxResendBranch_of_refused bad no)
    have ctx : theCtx (fetched i s) (argN args 1) = x := fetched_theCtx i s _
    exact ⟨fun noCtx => refused (branchCheck_of_badCtx noCtx), fun low noEpoch => refused (branchCheck_of_badEpoch low noEpoch),
      fun low epoch noRange => refused (branchCheck_of_badRange low epoch noRange),
      fun low epoch range => ⟨fun free => refused (branchCheck_of_free low epoch range (ctx ▸ free)),
        fun retires => refused (branchCheck_of_retiring low epoch range (ctx ▸ retires))⟩⟩

end Sys2Proof.Proofs
end

section
/-! SUPPORT. Contributions (R138, R139): the rows of the arrival table in their order, and what an accepted contribution leaves. -/

namespace Sys2Proof.Machine

/-! ### A context and its open indices after a change -/

@[simp] theorem theCtx_modCtx (c : Nat) (f : Ctx → Ctx) (s : State) : theCtx (modCtx c f s) c = f (theCtx s c) :=
  (tget_tmod s.coll {} c c f).trans (if_pos rfl)

@[simp] theorem bumpUnit_theCtx (u i : Nat) (s : State) (c : Nat) : theCtx (bumpUnit u i s) c = theCtx s c := rfl

/-- A change of an open index changes what is found at it. -/
theorem openOf_modOpen (c g : Nat) (f : OpenIdx → OpenIdx) (s : State) :
    openOf (theCtx (modOpen c g f s) c) g = (openOf (theCtx s c) g).map f := by
  have keys : ((fun o : Nat × OpenIdx => o.1 == g) ∘ fun o => if o.1 == g then (g, f o.2) else o) = fun o => o.1 == g := by
    funext o
    by_cases h : o.1 = g <;> simp [h]
  rw [modOpen, theCtx_modCtx, openOf, openOf, List.find?_map, keys]
  cases h : (theCtx s c).opens.find? fun o => o.1 == g with
  | none => rfl
  | some o =>
    have key : o.1 = g := by simpa using List.find?_some h
    simp [key]

/-- A new open index is found at its place where none was. -/
theorem openOf_append {x : Ctx} {g : Nat} (h : openOf x g = none) (o : OpenIdx) :
    openOf { x with opens := x.opens ++ [(g, o)] } g = some o := by
  simp only [openOf, Option.map_eq_none_iff] at h
  simp [openOf, List.find?_append, h]

/-! ### A contribution is reduced into its index (R165) -/

/-- A contribution whose elements overflow is counted against its unit. -/
def countOverflow (x : Ctx) (payload : List Byte) (u : Nat) (s : State) : State :=
  if (elemsOf (ctxInType x) (ctxS x) payload).2 then bumpUnit u 5 s else s

theorem countOverflow_eq (x : Ctx) (payload : List Byte) (u : Nat) (s : State) :
    countOverflow x payload u s = { s with count := (countOverflow x payload u s).count } := by
  unfold countOverflow
  split <;> rfl

@[simp] theorem countOverflow_theCtx (x : Ctx) (payload : List Byte) (u : Nat) (s : State) (c : Nat) :
    theCtx (countOverflow x payload u s) c = theCtx s c := by
  rw [countOverflow_eq]
  rfl

/-- The index that a first contribution opens on a unit. -/
def openedBy (h : Header) (payload : List Byte) (u now : Nat) : OpenIdx :=
  { contribs := [⟨h.member, payload, false⟩], unit := u, faulty := [], firstAt := now, stallAt := now, phase := .reducing,
    formed := none }

/-- An open index with a further contribution behind those that it holds. -/
def OpenIdx.withContrib (h : Header) (payload : List Byte) (o : OpenIdx) : OpenIdx :=
  { o with contribs := o.contribs ++ [⟨h.member, payload, false⟩] }

/-- A further contribution stands in its index. -/
def addContrib (c g : Nat) (h : Header) (payload : List Byte) (s : State) : State := modOpen c g (.withContrib h payload) s

section
variable {c g : Nat} {h : Header} {payload : List Byte} {s : State}

theorem accept_of_open {o : OpenIdx} (found : openOf (theCtx s c) g = some o) : accept c g h payload s =
    countOverflow (theCtx s c) payload ((primaryOf (addContrib c g h payload s) o).getD o.unit) (addContrib c g h payload s) := by
  simp only [accept, found]
  rfl

section
variable (fresh : openOf (theCtx s c) g = none)
include fresh

theorem accept_of_noUnit (noUnit : substitute s (placedUnit (theCtx s c) h.sheafNo) = none) :
    accept c g h payload s = abortCtx c 6 (plainOffence s (theCtx s c)) s := by
  simp only [accept, fresh, noUnit]

theorem accept_of_unit {u : Nat} (serves : substitute s (placedUnit (theCtx s c) h.sheafNo) = some u) :
    accept c g h payload s = countOverflow (theCtx s c) payload u
      (modCtx c (fun x => { x with opens := x.opens ++ [(g, openedBy h payload u s.time.now)] }) s) := by
  simp only [accept, fresh, serves]
  rfl

end

/-- The contributions that an index holds, none where it is not open. -/
def contribsOf (x : Ctx) (g : Nat) : List Contrib := (openOf x g).elim [] OpenIdx.contribs

/-- An accepted contribution stands last in its index, and touches no more than its context and the counters. -/
theorem accept_effect (room : (openOf (theCtx s c) g).isSome = true ∨
      (substitute s (placedUnit (theCtx s c) h.sheafNo)).isSome = true) :
    accept c g h payload s = { s with coll := (accept c g h payload s).coll, count := (accept c g h payload s).count } ∧
    ∃ o, openOf (theCtx (accept c g h payload s) c) g = some o ∧
      o.contribs = contribsOf (theCtx s c) g ++ [⟨h.member, payload, false⟩] := by
  cases found : openOf (theCtx s c) g with
  | some o =>
    rw [accept_of_open found]
    refine ⟨?_, o.withContrib h payload, ?_, ?_⟩
    · rw [countOverflow_eq]
      rfl
    · rw [countOverflow_theCtx, addContrib, openOf_modOpen, found, Option.map_some]
    · rw [contribsOf, found, Option.elim_some, OpenIdx.withContrib]
  | none =>
    obtain ⟨u, serves⟩ := Option.isSome_iff_exists.mp (room.resolve_left (by simp [found]))
    rw [accept_of_unit found serves]
    refine ⟨?_, openedBy h payload u s.time.now, ?_, ?_⟩
    · rw [countOverflow_eq]
      rfl
    · rw [countOverflow_theCtx, theCtx_modCtx, openOf_append found]
    · rw [contribsOf, found, Option.elim_none, openedBy, List.nil_append]

end

/-! ### The arrival table (R139) -/

/-- The epoch distance of a contribution from the front of its context (R138). -/
def arrivalDist (p : Packet) (s : State) : Nat := epochDist (theCtx s p.hdr.ctxId) p.hdr.collEpoch

/-- The index that a contribution names. -/
def arrivalIndex (p : Packet) (s : State) : Nat := indexOf (theCtx s p.hdr.ctxId) (arrivalDist p s) p.hdr.sheafNo

/-- The rows on an index that the context may hold: the window, what is complete, what is there already, what is accepted. -/
def indexRows (p : Packet) (s : State) : State :=
  let x := theCtx s p.hdr.ctxId
  if x.front + ctxDepth x ≤ arrivalIndex p s then sendResend p.hdr.ctxId x 4 p.hdr.member p.hdr.sheafNo p.hdr.collEpoch s
  else if isComplete x (arrivalIndex p s) then bumpColl 3 s x p.hdr.sheafNo
  else if !lacks x (arrivalIndex p s) p.hdr.member then bumpColl 4 s x p.hdr.sheafNo
  else accept p.hdr.ctxId (arrivalIndex p s) p.hdr p.payload s

/-- The rows on a contribution of a member that is not too old: those that abort the context, then those on its index. -/
def streamRows (p : Packet) (s : State) : State :=
  let x := theCtx s p.hdr.ctxId
  if 2 ≤ arrivalDist p s then abortCtx p.hdr.ctxId 4 (offenceOf x p.hdr) s
  else if p.hdr.w6.toNat ≠ digestAt x p.hdr.collEpoch then abortCtx p.hdr.ctxId 1 (offenceOf x p.hdr) s
  else if p.hdr.len ≠ ctxS x / 16 then abortCtx p.hdr.ctxId 2 (offenceOf x p.hdr) s
  else if ctxN x ≤ p.hdr.sheafNo then abortCtx p.hdr.ctxId 3 (offenceOf x p.hdr) s
  else indexRows p s

/-- A contribution is older than the front of its context. -/
def Stale (p : Packet) (s : State) : Prop :=
  32768 ≤ arrivalDist p s ∨ (arrivalDist p s = 0 ∧ arrivalIndex p s < (theCtx s p.hdr.ctxId).front)

/-- A contribution does not come from the endpoint of the member that it names. -/
def Stranger (p : Packet) (s : State) : Prop :=
  ctxCount (theCtx s p.hdr.ctxId) ≤ p.hdr.member ∨ memberAt (theCtx s p.hdr.ctxId) p.hdr.member p.hdr.collEpoch ≠ p.hdr.srcId

section
variable {p : Packet} {s : State}

theorem arrive_of_notActive (h : (theCtx s p.hdr.ctxId).state ≠ .active) :
    arrive p s = bumpColl 0 s (theCtx s p.hdr.ctxId) p.hdr.sheafNo := if_pos h

section
variable (active : ¬(theCtx s p.hdr.ctxId).state ≠ .active)
include active

theorem arrive_of_otherPartition (h : p.hdr.partition ≠ ctxPartition (theCtx s p.hdr.ctxId)) :
    arrive p s = bumpColl 1 s (theCtx s p.hdr.ctxId) p.hdr.sheafNo := (if_neg active).trans (if_pos h)

variable (own : ¬p.hdr.partition ≠ ctxPartition (theCtx s p.hdr.ctxId))
include own

theorem arrive_of_stranger (h : Stranger p s) : arrive p s = bumpColl 2 s (theCtx s p.hdr.ctxId) p.hdr.sheafNo :=
  (if_neg active).trans ((if_neg own).trans (if_pos h))

variable (member : ¬Stranger p s)
include member

theorem arrive_of_stale (h : Stale p s) : arrive p s = bumpColl 3 s (theCtx s p.hdr.ctxId) p.hdr.sheafNo :=
  (if_neg active).trans ((if_neg own).trans ((if_neg member).trans (if_pos h)))

theorem arrive_of_stream (h : ¬Stale p s) : arrive p s = streamRows p s :=
  (if_neg active).trans ((if_neg own).trans ((if_neg member).trans (if_neg h)))

end

theorem streamRows_of_farEpoch (h : 2 ≤ arrivalDist p s) :
    streamRows p s = abortCtx p.hdr.ctxId 4 (offenceOf (theCtx s p.hdr.ctxId) p.hdr) s := if_pos h

section
variable (near : ¬2 ≤ arrivalDist p s)
include near

theorem streamRows_of_otherDigest (h : p.hdr.w6.toNat ≠ digestAt (theCtx s p.hdr.ctxId) p.hdr.collEpoch) :
    streamRows p s = abortCtx p.hdr.ctxId 1 (offenceOf (theCtx s p.hdr.ctxId) p.hdr) s := (if_neg near).trans (if_pos h)

variable (digest : ¬p.hdr.w6.toNat ≠ digestAt (theCtx s p.hdr.ctxId) p.hdr.collEpoch)
include digest

theorem streamRows_of_otherLength (h : p.hdr.len ≠ ctxS (theCtx s p.hdr.ctxId) / 16) :
    streamRows p s = abortCtx p.hdr.ctxId 2 (offenceOf (theCtx s p.hdr.ctxId) p.hdr) s :=
  (if_neg near).trans ((if_neg digest).trans (if_pos h))

variable (length : ¬p.hdr.len ≠ ctxS (theCtx s p.hdr.ctxId) / 16)
include length

theorem streamRows_of_noSheaf (h : ctxN (theCtx s p.hdr.ctxId) ≤ p.hdr.sheafNo) :
    streamRows p s = abortCtx p.hdr.ctxId 3 (offenceOf (theCtx s p.hdr.ctxId) p.hdr) s :=
  (if_neg near).trans ((if_neg digest).trans ((if_neg length).trans (if_pos h)))

theorem streamRows_of_sheaf (h : ¬ctxN (theCtx s p.hdr.ctxId) ≤ p.hdr.sheafNo) : streamRows p s = indexRows p s :=
  (if_neg near).trans ((if_neg digest).trans ((if_neg length).trans (if_neg h)))

end

theorem indexRows_of_beyond (h : (theCtx s p.hdr.ctxId).front + ctxDepth (theCtx s p.hdr.ctxId) ≤ arrivalIndex p s) :
    indexRows p s = sendResend p.hdr.ctxId (theCtx s p.hdr.ctxId) 4 p.hdr.member p.hdr.sheafNo p.hdr.collEpoch s := if_pos h

section
variable (window : ¬(theCtx s p.hdr.ctxId).front + ctxDepth (theCtx s p.hdr.ctxId) ≤ arrivalIndex p s)
include window

theorem indexRows_of_complete (h : isComplete (theCtx s p.hdr.ctxId) (arrivalIndex p s) = true) :
    indexRows p s = bumpColl 3 s (theCtx s p.hdr.ctxId) p.hdr.sheafNo := (if_neg window).trans (if_pos h)

variable (due : ¬isComplete (theCtx s p.hdr.ctxId) (arrivalIndex p s) = true)
include due

theorem indexRows_of_duplicate (h : lacks (theCtx s p.hdr.ctxId) (arrivalIndex p s) p.hdr.member = false) :
    indexRows p s = bumpColl 4 s (theCtx s p.hdr.ctxId) p.hdr.sheafNo :=
  (if_neg window).trans ((if_neg due).trans (if_pos (by simp [h])))

theorem indexRows_of_lacking (h : ¬lacks (theCtx s p.hdr.ctxId) (arrivalIndex p s) p.hdr.member = false) :
    indexRows p s = accept p.hdr.ctxId (arrivalIndex p s) p.hdr p.payload s :=
  (if_neg window).trans ((if_neg due).trans (if_neg (by simp [h])))

end

end

/-! ### SHEAF_ARRIVAL -/

/-- What SHEAF_ARRIVAL does once its sink takes the packet. -/
def sheafTaken (port : Nat) (p : Packet) (ue : Option (Option (Fin 1024))) (s : State) : State :=
  if crcOk p then stagingReads p.hdr ue (arrive p s)
  else badContribution 1 p.hdr (termCrcFail port p (bumpColl 5 s (theCtx s p.hdr.ctxId) p.hdr.sheafNo))

theorem sheafArrival_of_kind {p : Packet} (gen : p.hdr.ver < 2) (kind : p.hdr.kind = 4) (fits : payloadFits p = true) (port : Nat)
    (ue : Option (Option (Fin 1024))) (s : State) : sheafArrival port p ue s = atSink p (sheafTaken port p ue) s :=
  if_pos ⟨gen, kind, fits⟩

theorem sheafTaken_of_goodCrc {p : Packet} (good : crcOk p = true) (port : Nat) (ue : Option (Option (Fin 1024))) (s : State) :
    sheafTaken port p ue s = stagingReads p.hdr ue (arrive p s) := if_pos good

end Sys2Proof.Machine

namespace Sys2Proof.Proofs

open Sys2Proof.Machine

/-- Settles O22: the turn at the sink, the reads of staging after the arrival, and each row of the table as the lemma about it. -/
theorem contributionArrival : Obligations.ContributionArrival := by
  unfold Obligations.ContributionArrival
  intro port pkt s gen kind fits good i h c u x d g r1 r2 r3 r4 r5 r6 r7 r8 r9 r10 r11 room
  have rows (ue : Option (Option (Fin 1024))) {t : State} (e : atSink pkt (sheafTaken port pkt ue) s = t) :
      exec (.sheafArrival port ⟨pkt, ue⟩) s = .next t := next_congr ((sheafArrival_of_kind gen kind fits port ue s).trans e)
  refine ⟨fun wait ue => rows ue (atSink_of_waiting wait), fun turn void ue => rows ue (atSink_of_void turn void),
    fun turn sound => ?reads, fun turn sound => ?table⟩
  case reads =>
    have taken (ue : Option (Option (Fin 1024))) : exec (.sheafArrival port ⟨pkt, ue⟩) s = .next (stagingReads h ue (arrive pkt u)) :=
      rows ue ((atSink_of_taken turn sound).trans (sheafTaken_of_goodCrc good port ue u))
    intro t runs
    obtain rfl : arrive pkt u = t := Host.Outcome.next.inj ((taken none).symm.trans runs)
    exact ⟨taken (some none), fun m => taken (some (some m))⟩
  case table =>
    have arrives {t : State} (e : arrive pkt u = t) : exec i s = .next t :=
      rows none ((atSink_of_taken turn sound).trans ((sheafTaken_of_goodCrc good port none u).trans e))
    refine ⟨fun h1 => arrives (arrive_of_notActive h1), fun h1 h2 => arrives (arrive_of_otherPartition h1 h2),
      fun h1 h2 h3 => arrives (arrive_of_stranger h1 h2 h3), fun h1 h2 h3 h4 => arrives (arrive_of_stale h1 h2 h3 h4),
      fun h1 h2 h3 h4 => ?_⟩
    have streams {t : State} (e : streamRows pkt u = t) : exec i s = .next t := arrives ((arrive_of_stream h1 h2 h3 h4).trans e)
    refine ⟨fun h5 => streams (streamRows_of_farEpoch h5), fun h5 h6 => streams (streamRows_of_otherDigest h5 h6),
      fun h5 h6 h7 => streams (streamRows_of_otherLength h5 h6 h7), fun h5 h6 h7 h8 => streams (streamRows_of_noSheaf h5 h6 h7 h8),
      fun h5 h6 h7 h8 => ?_⟩
    have indexed {t : State} (e : indexRows pkt u = t) : exec i s = .next t := streams ((streamRows_of_sheaf h5 h6 h7 h8).trans e)
    refine ⟨fun h9 => indexed (indexRows_of_beyond h9), fun h9 h10 => indexed (indexRows_of_complete h9 h10),
      fun h9 h10 h11 => indexed (indexRows_of_duplicate h9 h10 h11), fun h9 h10 h11 full => ?noUnit, fun h9 h10 h11 there => ?accepted⟩
    case noUnit =>
      obtain ⟨closed, noUnit⟩ := not_or.mp full
      exact indexed ((indexRows_of_lacking h9 h10 h11).trans
        (accept_of_noUnit (Option.not_isSome_iff_eq_none.mp closed) (Option.not_isSome_iff_eq_none.mp noUnit)))
    case accepted =>
      obtain ⟨frame, o, found, contribs⟩ := accept_effect (payload := pkt.payload) there
      refine ⟨_, indexed (indexRows_of_lacking h9 h10 h11), frame, o, found, contribs.trans ?_⟩
      unfold contribsOf
      cases openOf x g <;> rfl

end Sys2Proof.Proofs
end

section
/-! SUPPORT. Results (R142, R143, R176): how an index forms its result, how a comparison ends, and the wait for a retention slot. -/

namespace Sys2Proof.Machine

/-! ### RESULT_FORMED (R142, R169, R176) -/

/-- The payload of an index's result with what its conversion met; what an accumulation region takes is not formed here. -/
def convertedIndex (x : Ctx) (g : Nat) (o : OpenIdx) : List Byte × ConvFlags :=
  if ctxOut x = 1 then ([], {}) else convertAll (ctxOutType x) (roundingDraw x g) (reduceIndex x o)

/-- The result that an index forms, not yet witnessed. -/
def formedOf (s : State) (c g : Nat) (o : OpenIdx) : Formed :=
  let x := theCtx s c
  let payload := (convertedIndex x g o).1
  let tally := tallyWord false (ctxCount x) (epochOf x g)
  ⟨payload, packetCrc (resultHeader s c x none (sheafOf x g) payload.length tally) payload, tally⟩

/-- A unit counts a result, and what of it was saturated or not a number. -/
def countResult (u : Nat) (flags : ConvFlags) (s : State) : State :=
  let s := bumpUnit u 0 s
  let s := if flags.sat then bumpUnit u 6 s else s
  if flags.nan then bumpUnit u 7 s else s

/-- The result of an index stands in it, and its unit has counted it. -/
def formOn (u c g : Nat) (o : OpenIdx) (s : State) : State :=
  modOpen c g (fun k => { k with formed := some (formedOf s c g o) }) (countResult u (convertedIndex (theCtx s c) g o).2 s)

theorem formResult_of_closed {c g : Nat} {s : State} (h : openOf (theCtx s c) g = none) : formResult c g s = s := by
  simp only [formResult, h]

section
variable {c g : Nat} {s : State} {o : OpenIdx} (active : (theCtx s c).state = .active) (found : openOf (theCtx s c) g = some o)
  (reducing : o.phase = .reducing) (whole : o.contribs.length = ctxCount (theCtx s c))
include active found reducing whole

theorem formResult_of_noUnit (h : primaryOf s o = none) : formResult c g s = abortCtx c 5 (plainOffence s (theCtx s c)) s := by
  simp only [formResult, found, active, reducing, whole, h, and_self, if_true]

theorem formResult_of_unit {u : Nat} (h : primaryOf s o = some u) : formResult c g s =
    if winnowed (ctxWinnow (theCtx s c)) (sheafOf (theCtx s c) g) (epochOf (theCtx s c) g) = true then
      if (rolesOf (formOn u c g o s) o.unit o.faulty).length < 2 then
        proceed c g (bumpColl 17 (formOn u c g o s) (theCtx s c) (sheafOf (theCtx s c) g))
      else modOpen c g (fun o => { o with phase := .winnowing }) (formOn u c g o s)
    else proceed c g (formOn u c g o s) := by
  simp only [formResult, found, active, reducing, whole, h, and_self, if_true]
  rfl

end

/-! ### WINNOW_COMPARE (R176) -/

theorem winnowCompare_of_closed {c g : Nat} {s : State} (v : WinnowVerdict) (h : openOf (theCtx s c) g = none) :
    winnowCompare c g v s = s := by
  simp only [winnowCompare, h]

section
variable {c g p w : Nat} {rest : List Nat} {s : State} {o : OpenIdx} (active : (theCtx s c).state = .active)
  (found : openOf (theCtx s c) g = some o) (winnowing : o.phase = .winnowing) (roles : rolesOf s o.unit o.faulty = p :: w :: rest)
include active found winnowing roles

theorem winnowCompare_equal : winnowCompare c g .equal s =
    proceed c g (agreed c w (agreed c p (setWitnessed c g (bumpUnit p 2 s)))) := by
  simp only [winnowCompare, found, active, winnowing, roles, and_self, if_true]

theorem winnowCompare_unresolved : winnowCompare c g .unresolved s = unresolved c g p (p :: w :: rest) s := by
  simp only [winnowCompare, found, active, winnowing, roles, and_self, if_true]

section
variable (pair : rest = [])
include pair

theorem winnowCompare_witnessRight_of_pair : winnowCompare c g .witnessRight s = unresolved c g p (p :: w :: rest) s := by
  simp only [winnowCompare, found, active, winnowing, roles, pair, and_self, if_true]

theorem winnowCompare_primaryRight_of_pair : winnowCompare c g .primaryRight s = unresolved c g p (p :: w :: rest) s := by
  simp only [winnowCompare, found, active, winnowing, roles, pair, and_self, if_true]

end

section
variable (referee : rest ≠ [])
include referee

theorem winnowCompare_witnessRight_of_referee : winnowCompare c g .witnessRight s = proceed c g (agreed c w
    (modOpen c g (fun o => { o with faulty := o.faulty ++ [p] }) (outvote p c g (bumpUnit p 3 (setWitnessed c g s))))) := by
  simp only [winnowCompare, found, active, winnowing, roles, referee, and_self, if_true, if_false]

theorem winnowCompare_primaryRight_of_referee : winnowCompare c g .primaryRight s =
    proceed c g (agreed c p (outvote w c g (bumpUnit p 3 (setWitnessed c g s)))) := by
  simp only [winnowCompare, found, active, winnowing, roles, referee, and_self, if_true, if_false]

end

end

/-! ### RETAIN_STALL_RESUME (R143) -/

section
variable {c g : Nat} {rest : List Nat} {s : State}
  (waits : sortNat (((theCtx s c).opens.filter fun o => o.2.phase == .waitSlot).map Prod.fst) = g :: rest)
include waits

theorem retainResume_of_slot (h : (theCtx s c).retained.length < ctxRetSlots (theCtx s c)) : retainResume c s = proceed c g s := by
  simp only [retainResume, waits, h, if_true]

theorem retainResume_of_full (h : ctxRetSlots (theCtx s c) ≤ (theCtx s c).retained.length) : retainResume c s = s := by
  simp only [retainResume, waits, Nat.not_lt.mpr h, if_false]

end

end Sys2Proof.Machine

namespace Sys2Proof.Proofs

open Sys2Proof.Machine

/-- Settles O24: each clause is the lemma that says what its row does with an index in the state that the clause describes. -/
theorem resultRows : Obligations.ResultRows := by
  unfold Obligations.ResultRows
  refine ⟨?closed, ?formed, ?compared, fun c g p roles s => ⟨_, rfl⟩, ?resumed⟩
  case closed =>
    intro c g s closed
    exact ⟨next_congr (formResult_of_closed closed), fun v => next_congr (congrArg settleWinnow (winnowCompare_of_closed v closed))⟩
  case formed =>
    intro c g s o u x out tally formed v0 v1 v t active found reducing whole
    refine ⟨fun noUnit => next_congr (formResult_of_noUnit active found reducing whole noUnit), fun primary => ?_⟩
    have forms := formResult_of_unit active found reducing whole primary
    exact ⟨fun plain => next_congr (forms.trans (if_neg (by simp [x, plain]))),
      fun compares two => next_congr (forms.trans ((if_pos compares).trans (if_neg (Nat.not_lt.mpr two)))),
      fun compares alone => next_congr (forms.trans ((if_pos compares).trans (if_pos alone)))⟩
  case compared =>
    intro c g s o p w rest active found winnowing roles undecided
    have ends {v : WinnowVerdict} {t : State} (e : winnowCompare c g v s = t) :
        exec (.winnowCompare c g v) s = .next (settleWinnow t) := next_congr (congrArg settleWinnow e)
    exact ⟨ends (winnowCompare_equal active found winnowing roles), ends (winnowCompare_unresolved active found winnowing roles),
      fun pair => ⟨ends (winnowCompare_witnessRight_of_pair active found winnowing roles pair),
        ends (winnowCompare_primaryRight_of_pair active found winnowing roles pair)⟩,
      fun referee => ⟨ends (winnowCompare_witnessRight_of_referee active found winnowing roles referee),
        ends (winnowCompare_primaryRight_of_referee active found winnowing roles referee)⟩⟩
  case resumed =>
    intro c s g rest waits
    exact ⟨fun slot => next_congr (retainResume_of_slot waits slot), fun full => next_congr (retainResume_of_full waits full)⟩

end Sys2Proof.Proofs
end

section
/-! SUPPORT. The record of a retained result in the retention space, after an acknowledgement (R144, R199). -/

namespace Sys2Proof.Machine

/-! ### An acknowledged result of an ACTIVE context that has its places in the pool -/

/-- A released result of sheaf 0 that no member has acknowledged. -/
def keptResult : Retained :=
  { index := 0, epoch := 0, sheaf := 0, payload := List.replicate 16 0, crc := 0, tally := 0, acked := [], naks := [],
    releasedAt := 0, delivered := 0, unit := 0, waiting := false, upPartial := false, left := true, slot := 0 }

/-- A RETURN context of partition 5, of the members 0x000009 and 0x00000A, with its staging store in row 0 of the pool and its retention
space from row 1 on. -/
def keepingCtx : Ctx :=
  { state := .active, members := [9, 10], given := [9, 10], released := 65535, front := 1, retained := [keptResult],
    storeRow := some 0, retRow := some 1,
    desc := [pack [(8, 5), (2, 3)], pack [(9, 2)], 2, 15, 0, 0x3F800000, 0, 0, 1000, pack [(12, 64)]] ++ List.replicate 14 0 }

/-- The device with that context as context 0. -/
def keepingState : State := { State.reset with coll := [(0, keepingCtx)] }

/-- The header of an acknowledgement of sheaf 0 of context 0 by the endpoint 0x000009. -/
def ackHeader : Header := ⟨pack [(30, 1), (26, 1), (8, 5), (0, 8)], 0, pack [(8, 9)], 0, 0, 0, pack [(0, 1)], 0⟩

/-- That acknowledgement. -/
def anAcknowledgement : Packet := ⟨ackHeader, [], packetCrc ackHeader []⟩

/-- The memory of the device after a step. -/
def memoryAfter : Host.Outcome State Fault Refusal → Option (List Host.Cell)
  | .next t => some t.mem.bytes
  | _ => none

/-- It is an acknowledgement that a sink takes at once. -/
theorem anAcknowledgement_taken :
    let h := ackHeader
    h.ver < 2 ∧ h.kind = 1 ∧ h.ackReq = true ∧ h.status = 0 ∧ payloadFits anAcknowledgement = true ∧
      crcOk anAcknowledgement = true ∧ sinkTurn anAcknowledgement keepingState = true ∧
      sunkVoid anAcknowledgement keepingState = false := by decide +kernel

/-- It names the retained result, comes from member 0, and the context answers. -/
theorem anAcknowledgement_names :
    let x := theCtx (releaseSink anAcknowledgement keepingState) ackHeader.ctxId
    retNamed (sunkTime anAcknowledgement keepingState) x ackHeader = some keptResult ∧
      memberOf x ackHeader.srcId ackHeader.collEpoch = some 0 ∧ answers x = true := by decide +kernel

/-- RESULT_ACK writes the acknowledgement bitmap of the result's record into the retention space. -/
theorem memoryAfter_resultAck : memoryAfter (exec (.resultAck 0 anAcknowledgement) keepingState) ≠
    some (releaseSink anAcknowledgement keepingState).mem.bytes := by decide +kernel

end Sys2Proof.Machine

namespace Sys2Proof.Proofs

open Sys2Proof.Machine

/-- Refutes O25: the statement has an acknowledgement change the table of contexts alone, but the model also lays the result's record
with its acknowledgement bitmap into the retention space (R199), so that memory changes wherever the context has its places in the pool,
as every context that CTX_CREATE makes has. -/
theorem not_acknowledgementsAndNaks : ¬ Obligations.AcknowledgementsAndNaks := by
  unfold Obligations.AcknowledgementsAndNaks
  intro claims
  obtain ⟨gen, kind, ackReq, status, fits, good, turn, sound⟩ := anAcknowledgement_taken
  obtain ⟨named, member, answering⟩ := anAcknowledgement_names
  obtain ⟨-, -, -, kept⟩ := claims 0 anAcknowledgement keepingState false gen kind ackReq fits
  obtain ⟨acknowledged, -⟩ := kept turn sound good keptResult 0 named member answering
  obtain ⟨t, runs, frame, -⟩ := acknowledged status
  have same : t.mem.bytes = (releaseSink anAcknowledgement keepingState).mem.bytes := by rw [frame]
  exact memoryAfter_resultAck ((congrArg memoryAfter runs).trans (congrArg some same))

end Sys2Proof.Proofs
end

section
/-! SUPPORT. The timers of a context (R141, R144, R151, R198, R377): when each acts, and the oldest index that a barn stages. -/

namespace Sys2Proof.Machine

/-! ### The least of a list -/

/-- Only of an empty list there is no least. -/
theorem eq_nil_of_argMin {f : Nat → Nat} {l : List Nat} (h : argMin f l = none) : l = [] := by
  cases l with
  | nil => rfl
  | cons a r =>
    unfold argMin at h
    split at h
    · cases h
    · split at h <;> cases h

/-- No value is below that of the least. -/
theorem argMin_le {f : Nat → Nat} {l : List Nat} {a b : Nat} (h : argMin f l = some a) (mem : b ∈ l) : f a ≤ f b := by
  induction l generalizing a with
  | nil => cases mem
  | cons d r ih =>
    unfold argMin at h
    split at h
    · next empty =>
      obtain rfl := Option.some.inj h
      obtain rfl : b = d := by simpa [eq_nil_of_argMin empty] using mem
      exact le_rfl
    · next e least =>
      have below (tail : b ∈ r) : f e ≤ f b := ih least tail
      split at h
      all_goals
        obtain rfl := Option.some.inj h
        rcases List.mem_cons.mp mem with rfl | tail
      · omega
      · exact below tail
      · exact le_rfl
      · have := below tail
        omega

/-! ### STALL_TIMER (R141) -/

/-- The stall of an open index is over, and members are missing. -/
def StallDue (s : State) (x : Ctx) (o : OpenIdx) : Prop :=
  x.state = .active ∧ ctxStallUs x ≠ 0 ∧ missing x o ≠ [] ∧ o.stallAt + ctxStallUs x * 256000 ≤ s.time.now

section
variable {c g : Nat} {s : State} {o : OpenIdx} (found : openOf (theCtx s c) g = some o)
include found

theorem stallTimer_of_due (due : StallDue s (theCtx s c) o) : stallTimer c g s =
    let x := theCtx s c
    modOpen c g (fun o => { o with stallAt := o.stallAt + ctxStallUs x * 256000 })
      (capture 14 c (post 0x05 [pack [(20, c)], w32 (sheafOf x g), pack [(16, epochOf x g)], w32 (missing x o).length,
          0, 0, 0, 0, 0] (some (memberBits (missing x o)))
        ((missing x o).foldl (fun s m => sendResend c x 3 m (sheafOf x g) (epochOf x g) s) s))) := by
  simp only [stallTimer, found]
  exact if_pos due

theorem stallTimer_of_notDue (idle : ¬StallDue s (theCtx s c) o) : stallTimer c g s = s := by
  simp only [stallTimer, found]
  exact if_neg idle

end

/-! ### RETAIN_EXPIRED and RETENTION_SCRUB (R144, R151, R312) -/

/-- The end of the retention interval of a result. -/
def retainEnd (x : Ctx) (r : Retained) : Nat := r.releasedAt + ctxRetainUs x * 256000

section
variable {c g : Nat} {s : State} {r : Retained} (found : retOf (theCtx s c) g = some r)
include found

theorem retainExpired_of_running (h : s.time.now < retainEnd (theCtx s c) r) : retainExpired c g s = s := by
  simp only [retainExpired, found]
  exact if_neg fun ⟨_, _, _, past, _⟩ => Nat.not_le.mpr h past

theorem retainExpired_of_sunk (h : sunkBefore s (retainEnd (theCtx s c) r) = true) : retainExpired c g s = s := by
  simp only [retainExpired, found]
  refine if_neg fun ⟨_, _, _, _, unsunk⟩ => ?_
  rw [Bool.not_eq_true'] at unsunk
  exact Bool.false_ne_true (unsunk.symm.trans h)

theorem retentionScrub_of_sound : retentionScrub c g false s = s := by
  simp [retentionScrub, found]

variable (left : r.left = true) (answering : answers (theCtx s c) = true)
include left answering

theorem retainExpired_of_past (timed : ctxRetainUs (theCtx s c) ≠ 0) (past : retainEnd (theCtx s c) r ≤ s.time.now)
    (unsunk : sunkBefore s (retainEnd (theCtx s c) r) = false) :
    retainExpired c g s = bumpColl 7 (freeSlot c g s) (theCtx s c) r.sheaf := by
  simp only [retainExpired, found]
  exact if_pos ⟨left, answering, timed, past, (Bool.not_eq_true' _).mpr unsunk⟩

theorem retentionScrub_of_failing : retentionScrub c g true s = recallRun c 1 ⟨g, 0, 1⟩ s := by
  simp only [retentionScrub, found]
  exact if_pos ⟨left, answering, trivial⟩

end

/-! ### STAGING_MOVE (R198, R377) -/

/-- The open indices of which a barn stages contributions, each with its context. -/
def stagedOpens (s : State) (b : Nat) : List (Nat × Nat × OpenIdx) :=
  s.coll.flatMap fun e => (e.2.opens.filter fun o => decide (0 < stagedCells s b e.2 o)).map fun o => (e.1, o)

/-- The instant of the first contribution of an open index, 0 of none. -/
def firstAtOf (k : Option (Nat × Nat × OpenIdx)) : Nat := k.elim 0 fun k => k.2.2.firstAt

/-- An index older than every other of a list is the one found. -/
theorem argMin_firstAt {l : List (Nat × Nat × OpenIdx)} {k : Nat × Nat × OpenIdx} (mem : k ∈ l)
    (oldest : ∀ j ∈ l, j = k ∨ k.2.2.firstAt < j.2.2.firstAt) :
    ∃ i, argMin (fun i => firstAtOf l[i]?) (List.range l.length) = some i ∧ l[i]? = some k := by
  obtain ⟨n, low, at_⟩ := List.mem_iff_getElem.mp mem
  cases least : argMin (fun i => firstAtOf l[i]?) (List.range l.length) with
  | none => simp [List.range_eq_nil.mp (eq_nil_of_argMin least)] at low
  | some i =>
    have bound : i < l.length := List.mem_range.mp (argMin_mem least)
    have le := argMin_le least (List.mem_range.mpr low)
    simp only [firstAtOf, List.getElem?_eq_getElem, bound, low, at_, Option.elim_some] at le
    refine ⟨i, rfl, (List.getElem?_eq_getElem bound).trans (congrArg some ?_)⟩
    exact (oldest _ (List.getElem_mem bound)).resolve_right (Nat.not_lt.mpr le)

/-- The contributions of an open index move to the staging store. -/
def moveToStore (k : Nat × Nat × OpenIdx) (s : State) : State :=
  modOpen k.1 k.2.1 (fun o => { o with contribs := o.contribs.map fun q => { q with inStore := true } }) s

theorem stagingMove_of_room {b : Nat} {s : State} (ue : Option (Fin 4096 × Nat × Fin 1024)) (h : 1024 ≤ stagingFree s b) :
    stagingMove b ue s = s := if_pos h

/-- With too little room the oldest index that the barn stages moves, and a contribution of it that reads in error is dealt with. -/
theorem stagingMove_of_oldest {b : Nat} {s : State} {k : Nat × Nat × OpenIdx} (short : stagingFree s b < 1024)
    (mem : k ∈ stagedOpens s b) (oldest : ∀ j ∈ stagedOpens s b, j = k ∨ k.2.2.firstAt < j.2.2.firstAt)
    (ue : Option (Fin 4096 × Nat × Fin 1024)) : stagingMove b ue s = ue.elim (moveToStore k s) fun q =>
      if q.1.val = k.1 ∧ q.2.1 = k.2.1 then stagedUE q.1 q.2.1 q.2.2 (moveToStore k s) else moveToStore k s := by
  obtain ⟨i, least, found⟩ := argMin_firstAt mem oldest
  refine (if_neg (Nat.not_le.mpr short)).trans ?_
  simp only [stagedOpens, firstAtOf] at least found
  simp only [least, found]
  cases ue <;> rfl

/-- A staged contribution that reads in error is removed, its index is reduced again, and its member is asked again where the index lies
in the window. -/
theorem stagedUE_of_staged {c g m : Nat} {s : State} {o : OpenIdx} (found : openOf (theCtx s c) g = some o)
    (active : (theCtx s c).state = .active) (phase : o.phase = .reducing ∨ o.phase = .winnowing)
    (there : lacks (theCtx s c) g m = false) (low : (theCtx s c).front ≤ g)
    (window : g < (theCtx s c).front + ctxDepth (theCtx s c)) : stagedUE c g m s =
      let x := theCtx s c
      sendResend c x 1 m (sheafOf x g) (epochOf x g)
        (modOpen c g (fun o => { o with contribs := o.contribs.filter (fun k => k.member != m), phase := .reducing, formed := none })
          (loftUE (feedingBarn s x (sheafOf x g)) c x s)) := by
  simp only [stagedUE, found]
  exact (if_pos ⟨active, phase, (Bool.not_eq_true' _).mpr there⟩).trans (if_pos ⟨low, window⟩)

end Sys2Proof.Machine

namespace Sys2Proof.Proofs

open Sys2Proof.Machine

/-- Settles O26: each clause is the lemma that says what its row does with an index, a result or a barn in that state. -/
theorem contextTimers : Obligations.ContextTimers := by
  unfold Obligations.ContextTimers
  refine ⟨?stalled, ?stallIdle, ?expiry, ?scrub, fun b s room ue => next_congr (stagingMove_of_room ue room), ?move, ?badRead⟩
  case stalled =>
    intro c g s o x active found timed lacking due
    exact next_congr (stallTimer_of_due found ⟨active, timed, lacking, due⟩)
  case stallIdle =>
    intro c g s o x found idle
    refine next_congr (stallTimer_of_notDue found fun ⟨active, timed, lacking, due⟩ => ?_)
    rcases idle with h | h | h | h
    · exact h active
    · exact timed h
    · exact lacking h
    · exact Nat.not_le.mpr h due
  case expiry =>
    intro c g s r x found left answering timed
    exact ⟨fun _ sunk => next_congr (retainExpired_of_sunk found sunk),
      fun past unsunk => next_congr (retainExpired_of_past found left answering timed past unsunk),
      fun runs => next_congr (retainExpired_of_running found runs)⟩
  case scrub =>
    intro c g s r found left answering
    exact ⟨next_congr (retentionScrub_of_failing found left answering), next_congr (retentionScrub_of_sound found)⟩
  case move =>
    intro b s k staged short mem oldest t
    exact ⟨next_congr (stagingMove_of_oldest short mem oldest none),
      fun c g m => next_congr (stagingMove_of_oldest short mem oldest (some (c, g, m)))⟩
  case badRead =>
    intro c g m s o x found active phase there t low window
    exact stagedUE_of_staged found active phase there low window

end Sys2Proof.Proofs
end

section
/-! SUPPORT. Relay contexts (R156, R157, R438): which contexts take an upstream result or a notice, and what the two rows do. -/

namespace Sys2Proof.Machine

/-! ### The relays of an upstream context -/

theorem mem_relaysOf {s : State} {src up c : Nat} : c ∈ relaysOf s src up ↔
    ∃ x, (c, x) ∈ s.coll ∧ x.state ≠ .free ∧ ctxOut x = 2 ∧ ctxUpDst x = src ∧ ctxUpCtx x = up := by
  simp [relaysOf, ctxUsed, and_assoc]

theorem mem_takersOf {s : State} {src up c : Nat} :
    c ∈ takersOf s src up ↔ c ∈ relaysOf s src up ∧ (theCtx s c).state = .active := by
  simp [takersOf]

/-! ### RELAY_RESULT_RX (R156) -/

/-- What RELAY_RESULT_RX does once its sink takes the packet. -/
def relayResultTaken (port : Nat) (p : Packet) (s : State) : State :=
  if !crcOk p then termCrcFail port p s
  else match takersOf s p.hdr.srcId p.hdr.ctxId with
    | [] => bumpColl 8 s (theCtx s p.hdr.ctxId) p.hdr.sheafNo
    | cs => cs.foldl (fun s c => relayTakes c p s) s

section
variable {port : Nat} {p : Packet} {s : State}

theorem relayResult_of_kind (gen : p.hdr.ver < 2) (kind : p.hdr.kind = 5) (single : p.hdr.mc = false)
    (fits : payloadFits p = true) : relayResult port p s = atSink p (relayResultTaken port p) s :=
  if_pos ⟨gen, kind, (Bool.not_eq_true' _).mpr single, fits⟩

theorem relayResultTaken_of_badCrc (bad : crcOk p = false) : relayResultTaken port p s = termCrcFail port p s :=
  if_pos ((Bool.not_eq_true' _).mpr bad)

theorem relayResultTaken_of_goodCrc (good : crcOk p = true) : relayResultTaken port p s =
    if takersOf s p.hdr.srcId p.hdr.ctxId = [] then bumpColl 8 s (theCtx s p.hdr.ctxId) p.hdr.sheafNo
    else (takersOf s p.hdr.srcId p.hdr.ctxId).foldl (fun s c => relayTakes c p s) s := by
  rw [relayResultTaken, if_neg (by simp [good])]
  cases takersOf s p.hdr.srcId p.hdr.ctxId <;> rfl

/-! ### UPSTREAM_NOTICE_RX (R157, R438) -/

/-- The relays that a notice reaches: a RESEND that names a member reaches the relay that is that member. -/
def noticeReaches (h : Header) (s : State) : List Nat :=
  (relaysOf s h.srcId h.ctxId).filter fun c => h.code != 2 || !bitAt h.w6 31 || fld h.w6 19 10 == ctxUpMember (theCtx s c)

/-- What UPSTREAM_NOTICE_RX does once its sink takes the packet. -/
def upstreamNoticeTaken (port : Nat) (p : Packet) (s : State) : State :=
  if !crcOk p then termCrcFail port p s
  else if fromRelay s p.hdr then abortCtx p.hdr.ctxId 0x0B (plainOffence s (theCtx s p.hdr.ctxId)) s
  else if 1 ≤ p.hdr.code ∧ p.hdr.code ≤ 3 ∧ relaysOf s p.hdr.srcId p.hdr.ctxId ≠ [] then
    (noticeReaches p.hdr s).foldl (fun s c => relayNotice c p.hdr s) s
  else bumpIn (barnOf port) 32 s

theorem upstreamNotice_of_kind (gen : p.hdr.ver < 2) (kind : p.hdr.kind = 8) (fits : payloadFits p = true) :
    upstreamNotice port p s = atSink p (upstreamNoticeTaken port p) s :=
  if_pos ⟨gen, kind, fits⟩

theorem upstreamNoticeTaken_of_badCrc (bad : crcOk p = false) : upstreamNoticeTaken port p s = termCrcFail port p s :=
  if_pos ((Bool.not_eq_true' _).mpr bad)

variable (good : crcOk p = true)
include good

theorem upstreamNoticeTaken_of_fromRelay (relay : fromRelay s p.hdr = true) : upstreamNoticeTaken port p s =
    abortCtx p.hdr.ctxId 0x0B (plainOffence s (theCtx s p.hdr.ctxId)) s := by
  rw [upstreamNoticeTaken, if_neg (by simp [good]), if_pos relay]

variable (other : fromRelay s p.hdr = false)
include other

theorem upstreamNoticeTaken_of_relays (low : 1 ≤ p.hdr.code) (high : p.hdr.code ≤ 3)
    (relays : relaysOf s p.hdr.srcId p.hdr.ctxId ≠ []) :
    upstreamNoticeTaken port p s = (noticeReaches p.hdr s).foldl (fun s c => relayNotice c p.hdr s) s := by
  rw [upstreamNoticeTaken, if_neg (by simp [good]), if_neg (by simp [other]), if_pos ⟨low, high, relays⟩]

theorem upstreamNoticeTaken_of_unexpected (h : p.hdr.code = 0 ∨ 3 < p.hdr.code ∨ relaysOf s p.hdr.srcId p.hdr.ctxId = []) :
    upstreamNoticeTaken port p s = bumpIn (barnOf port) 32 s := by
  have stray : ¬(1 ≤ p.hdr.code ∧ p.hdr.code ≤ 3 ∧ relaysOf s p.hdr.srcId p.hdr.ctxId ≠ []) := by
    rintro ⟨low, high, relays⟩
    rcases h with h | h | h
    · omega
    · omega
    · exact relays h
  rw [upstreamNoticeTaken, if_neg (by simp [good]), if_neg (by simp [other]), if_neg stray]

end

/-! ### A notice at one relay -/

section
variable {c : Nat} {h : Header} {s : State}

theorem relayNotice_of_abort (code : h.code = 1) : relayNotice c h s = abortCtx c 0x0C (plainOffence s (theCtx s c)) s := by
  simp only [relayNotice, code]

theorem relayNotice_of_resend (code : h.code = 2) : relayNotice c h s = relayResend c h s := by
  simp only [relayNotice, code]

theorem relayNotice_of_recall (code : h.code = 3) : relayNotice c h s = relayRecall c h s := by
  simp only [relayNotice, code]

end

end Sys2Proof.Machine

namespace Sys2Proof.Proofs

open Sys2Proof.Machine

/-- Settles O27: which contexts are relays and takers, the turn at the sink, and each row with a packet taken. -/
theorem relayRows : Obligations.RelayRows := by
  unfold Obligations.RelayRows
  refine ⟨fun s src up c => mem_takersOf, fun s src up c => mem_relaysOf, ?results, ?notices,
    fun c h s => ⟨relayNotice_of_abort, relayNotice_of_resend, relayNotice_of_recall⟩⟩
  case results =>
    intro port pkt s gen kind single fits u takers
    have row {t : State} (e : atSink pkt (relayResultTaken port pkt) s = t) : exec (.relayResultRx port pkt) s = .next t :=
      next_congr ((relayResult_of_kind gen kind single fits).trans e)
    exact ⟨fun wait => row (atSink_of_waiting wait),
      fun turn sound bad => row ((atSink_of_taken turn sound).trans (relayResultTaken_of_badCrc bad)),
      fun turn sound good => row ((atSink_of_taken turn sound).trans (relayResultTaken_of_goodCrc good))⟩
  case notices =>
    intro port pkt s gen kind fits h u relays
    have row {t : State} (e : atSink pkt (upstreamNoticeTaken port pkt) s = t) :
        exec (.upstreamNoticeRx port pkt) s = .next t := next_congr ((upstreamNotice_of_kind gen kind fits).trans e)
    refine ⟨fun wait => row (atSink_of_waiting wait),
      fun turn sound bad => row ((atSink_of_taken turn sound).trans (upstreamNoticeTaken_of_badCrc bad)), fun turn sound good => ?_⟩
    have taken {t : State} (e : upstreamNoticeTaken port pkt u = t) : exec (.upstreamNoticeRx port pkt) s = .next t :=
      row ((atSink_of_taken turn sound).trans e)
    exact ⟨fun relay => taken (upstreamNoticeTaken_of_fromRelay good relay),
      fun other low high there => taken (upstreamNoticeTaken_of_relays good other low high there),
      fun other stray => taken (upstreamNoticeTaken_of_unexpected good other stray)⟩

end Sys2Proof.Proofs
end

section
/-! SUPPORT. Integer elements and their reduction (R167): the number that an element's bytes spell, and how far a sum can grow. -/

namespace Sys2Proof.Machine

/-! ### Elements -/

theorem ofLe_lt (l : List Byte) : ofLe l < 2 ^ (8 * l.length) := by
  induction l with
  | nil => simp [ofLe]
  | cons b r ih =>
    have grows : 2 ^ (8 * (b :: r).length) = 256 * 2 ^ (8 * r.length) := by
      rw [List.length_cons, Nat.mul_succ, Nat.pow_add, Nat.mul_comm]
    have low : b.toNat < 256 := b.isLt
    rw [ofLe, grows]
    omega

/-- The bytes of an element of `w` bytes spell a number of as many bits, even where the payload ends before it. -/
theorem ofLe_take_lt (l : List Byte) (w : Nat) : ofLe (l.take w) < 2 ^ (8 * w) :=
  (ofLe_lt _).trans_le (Nat.pow_le_pow_right (by decide) (Nat.mul_le_mul_left 8 (List.length_take_le w l)))

/-- A number of `n` bits read as two's complement. -/
theorem toInt_ofNat_of_lt {n v : Nat} (pos : 0 < n) (fits : v < 2 ^ n) :
    (BitVec.ofNat n v).toInt = if v < 2 ^ (n - 1) then (v : Int) else (v : Int) - (2 ^ n : Nat) := by
  have halves := Nat.two_pow_pred_add_two_pow_pred pos
  have below : 2 * v < 2 ^ n ↔ v < 2 ^ (n - 1) := by omega
  rw [BitVec.toInt_eq_toNat_cond, BitVec.toNat_ofNat, Nat.mod_eq_of_lt fits]
  simp only [below]

theorem elemBits_pos_of_isInt {code : Nat} (h : isInt code = true) : 0 < 8 * (elemBits code / 8) := by
  obtain rfl | rfl : code = 10 ∨ code = 11 := by simpa [isInt] using h
  · decide
  · decide

theorem isBlock_of_isInt {code : Nat} (h : isInt code = true) : isBlock code = false := by
  obtain rfl | rfl : code = 10 ∨ code = 11 := by simpa [isInt] using h
  · rfl
  · rfl

/-- An element of an integer type is its bytes as a signed number. -/
theorem elemsOf_getElem?_of_isInt {code : Nat} (h : isInt code = true) (size : Nat) (p : List Byte) {k : Nat}
    (inside : k < elemsIn code size) : (elemsOf code size p).1[k]? = some (BitVec.ofNat (8 * (elemBits code / 8))
      (ofLe ((p.drop (elemBits code / 8 * k)).take (elemBits code / 8)))).toInt := by
  rw [toInt_ofNat_of_lt (elemBits_pos_of_isInt h) (ofLe_take_lt _ _)]
  simp [elemsOf, isBlock_of_isInt h, h, inside]

/-! ### Two elements: each is extended with its sign into the accumulator -/

theorem combine_sum (a b : Int) : combine 0 true a b = a + b := rfl

theorem combine_and {w : Nat} (fits : w ≤ 48) (x y : BitVec w) : combine 4 true x.toInt y.toInt = (x &&& y).toInt := by
  calc combine 4 true x.toInt y.toInt
    _ = (x.signExtend 48 &&& y.signExtend 48).toInt := rfl
    _ = ((x &&& y).signExtend 48).toInt := by rw [BitVec.signExtend_and]
    _ = (x &&& y).toInt := BitVec.toInt_signExtend_of_le fits

theorem combine_or {w : Nat} (fits : w ≤ 48) (x y : BitVec w) : combine 5 true x.toInt y.toInt = (x ||| y).toInt := by
  calc combine 5 true x.toInt y.toInt
    _ = (x.signExtend 48 ||| y.signExtend 48).toInt := rfl
    _ = ((x ||| y).signExtend 48).toInt := by rw [BitVec.signExtend_or]
    _ = (x ||| y).toInt := BitVec.toInt_signExtend_of_le fits

/-! ### Sums -/

/-- Every number of the list is a sum of at most `n` numbers of 32 bits. -/
def SumsOf (n : Nat) (l : List Int) : Prop := ∀ v ∈ l, -(n * 2 ^ 31) ≤ v ∧ v ≤ n * 2 ^ 31

theorem SumsOf.mono {m n : Nat} (le : m ≤ n) {l : List Int} (h : SumsOf m l) : SumsOf n l := by
  intro v mem
  have := h v mem
  omega

theorem SumsOf.add {m n : Nat} {a b : List Int} (ha : SumsOf m a) (hb : SumsOf n b) :
    SumsOf (m + n) (List.zipWith (combine 0 true) a b) := by
  intro v mem
  rw [← List.map_uncurry_zip_eq_zipWith, List.mem_map] at mem
  obtain ⟨⟨x, y⟩, pair, rfl⟩ := mem
  obtain ⟨hx, hy⟩ := List.of_mem_zip pair
  have := ha x hx
  have := hb y hy
  simp only [Function.uncurry, combine_sum]
  omega

theorem SumsOf.foldl {r : List (List Int)} (hr : ∀ c ∈ r, SumsOf 1 c) {n : Nat} {a : List Int} (ha : SumsOf n a) :
    SumsOf (n + r.length) (r.foldl (fun acc c => List.zipWith (combine 0 true) acc c) a) := by
  induction r generalizing n a with
  | nil => exact ha
  | cons c r ih =>
    obtain ⟨hc, hr⟩ := List.forall_mem_cons.mp hr
    rw [List.length_cons, Nat.add_comm r.length, ← Nat.add_assoc]
    exact ih hr (ha.add hc)

theorem SumsOf.reduceAll {l : List (List Int)} (hl : ∀ c ∈ l, SumsOf 1 c) : SumsOf l.length (reduceAll 0 true l) := by
  cases l with
  | nil => exact fun v mem => absurd mem List.not_mem_nil
  | cons a r =>
    obtain ⟨ha, hr⟩ := List.forall_mem_cons.mp hl
    rw [List.length_cons, Nat.add_comm]
    exact SumsOf.foldl hr ha

end Sys2Proof.Machine

namespace Sys2Proof.Proofs

open Sys2Proof.Machine

/-- Settles O8: the element as its bits, each operation on two elements, and the sum of 1,024 contributions by induction over them. -/
theorem integerReduction : Obligations.IntegerReduction := by
  unfold Obligations.IntegerReduction
  refine ⟨fun code size p k int inside => elemsOf_getElem?_of_isInt int size p inside, fun a b => ⟨combine_sum a b, rfl, rfl⟩,
    fun w x y fits => ⟨combine_and fits x y, combine_or fits x y⟩, ?sums⟩
  case sums =>
    intro l few words v mem
    have ones : ∀ c ∈ l, SumsOf 1 c := fun c hc v hv => by
      have := words c hc v hv
      omega
    have := (SumsOf.reduceAll ones).mono few v mem
    omega

end Sys2Proof.Proofs
end

section
/-! SUPPORT. What sending packets and aborting contexts leave as it was (R39, R52, R60, R91, R150): the routing tables, the core, the
memory, the links and the contexts change, and what telling the host changes; the threshing units and harvests do not. -/

namespace Sys2Proof.Machine

/-- The second state is the first but for what sending packets, for contexts or otherwise, changes. -/
def Sends (s t : State) : Prop :=
  t = { s with routing := t.routing, core := t.core, coll := t.coll, mem := t.mem, link := t.link, hearth := t.hearth, sec := t.sec,
               time := { s.time with store := t.time.store, lostSrc := t.time.lostSrc }, count := t.count, out := t.out, free := t.free }

theorem Tells.sends {s t : State} (h : Tells s t) : Sends s t := by
  unfold Tells at h
  unfold Sends
  rw [h]

namespace Sends

theorem refl (s : State) : Sends s s := rfl

theorem trans {s t u : State} (h : Sends s t) (k : Sends t u) : Sends s u := by
  unfold Sends at h k ⊢
  exact k.trans (by rw [h])

theorem foldl {α : Type} {f : State → α → State} (step : ∀ s a, Sends s (f s a)) (l : List α) (s : State) :
    Sends s (l.foldl f s) := by
  induction l generalizing s with
  | nil => exact refl s
  | cons a l ih => exact (step s a).trans (ih _)

theorem ite {s t u : State} {c : Prop} [Decidable c] (h : Sends s t) (k : Sends s u) : Sends s (if c then t else u) := by
  split
  · exact h
  · exact k

theorem ite_snd {α : Type} {s : State} {p q : α × State} {c : Prop} [Decidable c] (h : Sends s p.2) (k : Sends s q.2) :
    Sends s (if c then p else q).2 := by
  split
  · exact h
  · exact k

/-- The state beside a value, of a pair that an equation names. -/
theorem snd {α : Type} {s t : State} {p : α × State} {a : α} (e : p = (a, t)) (h : Sends s p.2) : Sends s t := by
  rw [e] at h
  exact h

theorem thresh {s t : State} (h : Sends s t) : t.thresh = s.thresh := by rw [h]

end Sends

/-! ### Single changes -/

theorem modRouting_sends (f : Routing → Routing) (s : State) : Sends s (s.modRouting f) := rfl
theorem modCore_sends (f : Core → Core) (s : State) : Sends s (s.modCore f) := rfl
theorem modColl_sends (f : Tab Ctx → Tab Ctx) (s : State) : Sends s (s.modColl f) := rfl
theorem modMem_sends (f : Mem → Mem) (s : State) : Sends s (s.modMem f) := rfl
theorem modLink_sends (f : Link → Link) (s : State) : Sends s (s.modLink f) := rfl
theorem modCount_sends (f : Count → Count) (s : State) : Sends s (s.modCount f) := rfl
theorem tookFree_sends (s : State) : Sends s s.tookFree := rfl

theorem modBarn_sends (b : Nat) (f : Barn → Barn) (s : State) : Sends s (modBarn b f s) := modCore_sends _ s
theorem modCtx_sends (c : Nat) (f : Ctx → Ctx) (s : State) : Sends s (modCtx c f s) := modColl_sends _ s
theorem bumpBy_sends (id n : Nat) (s : State) : Sends s (bumpBy id n s) := modCount_sends _ s
theorem bump_sends (id : Nat) (s : State) : Sends s (bump id s) := bumpBy_sends id 1 s
theorem bumpIn_sends (b i : Nat) (s : State) : Sends s (bumpIn b i s) := bump_sends _ s
theorem daWrite_sends (da : Nat) (bytes : List Byte) (s : State) : Sends s (daWrite da bytes s) := modMem_sends _ s
theorem storeDesc_sends (b h : Nat) (s : State) : Sends s (storeDesc b h s) := daWrite_sends _ _ s
theorem storeSpillCell_sends (b h : Nat) (bytes : List Byte) (s : State) : Sends s (storeSpillCell b h bytes s) :=
  (daWrite_sends _ _ s).trans (storeDesc_sends b h _)

/-! ### The lookup (R60, R75, R84) -/

theorem noteParity_sends (half : Nat) (t : TableKind) (l : List Nat) (s : State) : Sends s (noteParity half t l s) :=
  .foldl (fun s _ => (modRouting_sends _ s).trans ((bump_sends _ _).trans (report_tells _ _).sends)) l s

theorem treeCopies_sends (barn : Nat) (h : Header) (s : State) : Sends s (treeCopies barn h s).2 :=
  .ite_snd ((noteParity_sends ..).trans (bumpIn_sends ..)) (.ite_snd (bumpIn_sends ..) (.ite_snd (bumpIn_sends ..) (bumpBy_sends ..)))

theorem chooseMember_sends (barn b bytes : Nat) (s : State) : Sends s (chooseMember barn b bytes s).2 := by
  unfold chooseMember
  dsimp only
  split
  · exact .refl s
  · exact .ite ((modRouting_sends _ s).trans (modRouting_sends _ _)) (modRouting_sends _ s)

theorem lookup_sends (barn : Nat) (h : Header) (s : State) : Sends s (lookup barn h s).2 := by
  unfold lookup
  extract_lets half v go
  have parity (bads : List (TableKind × Nat)) (s : State) : Sends s (bads.foldl (fun s e => noteParity half e.1 [e.2] s) s) :=
    .foldl (fun s _ => noteParity_sends _ _ _ s) bads s
  have found (t : State) : Sends t (go t).2 := by
    simp only [go]
    split
    · exact treeCopies_sends barn h t
    · refine (parity (route t half v h.dstId).2 t).trans ?_
      split
      · exact bumpIn_sends ..
      · split
        · exact (noteParity_sends ..).trans (bumpIn_sends ..)
        · split
          next none => exact (Sends.snd none (chooseMember_sends ..)).trans (bumpIn_sends ..)
          next some => exact .snd some (chooseMember_sends ..)
  split
  · exact found s
  · split
    · exact found s
    · exact (bumpIn_sends barn 9 s).trans (found _)
    · exact bumpIn_sends ..

/-! ### Entering the core (R91, R93, R105, R110) -/

theorem giveCredit_sends (p c : Nat) (s : State) : Sends s (giveCredit p c s) := .ite (.refl s) (modLink_sends _ s)

theorem updateWithheld_sends (b : Nat) (s : State) : Sends s (updateWithheld b s) :=
  .ite (modBarn_sends b _ s) (.ite ((modBarn_sends b _ s).trans
    (.foldl (fun s p => .foldl (fun s c => giveCredit_sends p c s) _ s) _ _)) (.refl s))

theorem chargeCells_sends (port : Option Nat) (c n : Nat) (s : State) : Sends s (chargeCells port c n s) := by
  unfold chargeCells
  split
  · exact .refl s
  · exact (modCore_sends _ s).trans (modLink_sends _ _)

theorem drawTag_sends (b : Nat) (h : Header) (i : Nat) (spilled : Bool) (s : State) : Sends s (drawTag b h i spilled s).2 :=
  .ite_snd (.ite_snd (.ite_snd (tookFree_sends s) ((tookFree_sends s).trans (bump_sends _ _))) (tookFree_sends s)) (.refl s)

theorem storeSpill_sends (b : Nat) (before : Option Nat) (s : State) : Sends s (storeSpill b before s) := by
  cases before with
  | none => exact .refl s
  | some h => exact storeDesc_sends b h s

theorem writeCell_sends (b pid refs : Nat) (s : State) : Sends s (writeCell b pid refs s) := by
  unfold writeCell
  split
  · exact .refl s
  · extract_lets i rec0 handle drawn
    exact (tookFree_sends s).trans ((drawTag_sends ..).trans ((modBarn_sends ..).trans
      ((Sends.ite ((storeSpillCell_sends ..).trans (storeSpill_sends ..)) (.refl _)).trans ((modBarn_sends ..).trans
        ((Sends.ite (bump_sends _ _) (.refl _)).trans (chargeCells_sends ..))))))

theorem writeCells_sends (b pid refs n : Nat) (s : State) : Sends s (writeCells b pid refs n s) := by
  induction n generalizing s with
  | zero => exact .refl s
  | succ n ih => exact (writeCell_sends b pid refs s).trans (ih _)

theorem enterVoqs_sends (b tc : Nat) (copies : List (Nat × QEntry)) (s : State) : Sends s (enterVoqs b tc copies s) :=
  (modBarn_sends b _ s).trans (updateWithheld_sends b _)

theorem admitPkt_sends (b : Nat) (info : PktInfo) (copies : List (Nat × QEntry)) (ended : Bool) (s : State) :
    Sends s (admitPkt b info copies ended s) :=
  (modBarn_sends b _ s).trans ((Sends.ite (bumpIn_sends ..) (.refl _)).trans ((writeCells_sends ..).trans (enterVoqs_sends ..)))

/-! ### Sending (R39, R52, R147) -/

theorem originateTo_sends (b : Nat) (h : Header) (payload : List Byte) (result : Option ResultRef)
    (copies : Nat → List (Nat × QEntry)) (s : State) : Sends s (originateTo b h payload result copies s) := by
  unfold originateTo
  dsimp only
  split
  · exact .refl s
  · exact (modCore_sends _ s).trans (admitPkt_sends ..)

theorem originate_sends (b : Nat) (h : Header) (payload : List Byte) (result : Option ResultRef) (s : State) :
    Sends s (originate b h payload result s) := by
  unfold originate
  dsimp only
  split
  next dropped => exact .snd dropped (lookup_sends ..)
  next toOne => exact (Sends.snd toOne (lookup_sends ..)).trans (originateTo_sends ..)
  next toMany => exact (Sends.snd toMany (lookup_sends ..)).trans (originateTo_sends ..)

theorem send_sends (b : Nat) (h : Header) (payload : List Byte) (result : Option ResultRef) (s : State) :
    Sends s (send b h payload result s) :=
  .ite (originateTo_sends ..) (originate_sends ..)

theorem sendNotice_sends (c : Nat) (x : Ctx) (code reason sheaf : Nat) (detail : Word) (epoch : Nat) (payload : List Byte)
    (s : State) : Sends s (sendNotice c x code reason sheaf detail epoch payload s) := by
  have sent (b : Nat) (hs : List Header) : Sends s (hs.foldl (fun s h => send b h payload none s) s) :=
    .foldl (fun s _ => send_sends _ _ _ _ s) hs s
  exact .ite ((sent _ _).trans (post_tells ..).sends) (sent _ _)

/-! ### Aborts (R150) -/

theorem abortCore_sends (c reason : Nat) (o : Offence) (s : State) : Sends s (abortCore c reason o s) := by
  have told (detail : Nat) (x : Ctx) (n : Nat) (s : State) : Sends s (bumpColl 11 (capture 12 detail s) x n) :=
    (capture_tells _ _ s).sends.trans (bump_sends _ _)
  have aborted (x : Ctx) (f : Ctx → Ctx) (code n : Nat) (d : Word) (e : Nat) (body : List Byte) (detail : Nat) :
      Sends s (bumpColl 11 (capture 12 detail (sendNotice c x code reason n d e body (modCtx c f (voidResults c x s)))) x n) :=
    (modCore_sends _ s).trans ((modCtx_sends c f _).trans ((sendNotice_sends ..).trans (told ..)))
  exact .ite (.ite ((aborted ..).trans (send_sends ..)) (aborted ..)) (.refl s)

theorem abortPlain_sends (c reason : Nat) (s : State) : Sends s (abortPlain c reason s) := abortCore_sends ..

end Sys2Proof.Machine
end

section
/-! SUPPORT. Threshing units (R173, R175, R176, R183, R185, R187): the two commands on them, the end of a self-test, what a fence leaves
of the units, and the work that a residue fault passes on. -/

namespace Sys2Proof.Machine

/-! ### A unit after a change -/

theorem theUnit_modUnit (u v : Nat) (f : Unit → Unit) (s : State) :
    theUnit (modUnit u f s) v = if u = v then f (theUnit s u) else theUnit s v := tget_tmod ..

theorem theUnit_modUnit_same (u : Nat) (f : Unit → Unit) (s : State) : theUnit (modUnit u f s) u = f (theUnit s u) := by
  rw [theUnit_modUnit, if_pos rfl]

theorem theUnit_modUnit_other {u v : Nat} (other : v ≠ u) (f : Unit → Unit) (s : State) :
    theUnit (modUnit u f s) v = theUnit s v := by
  rw [theUnit_modUnit, if_neg other.symm]

theorem Sends.theUnit {s t : State} (h : Sends s t) (u : Nat) : theUnit t u = theUnit s u := by
  simp only [Machine.theUnit, h.thresh]

/-! ### TU_FENCE, TU_UNFENCE and UNIT_SELFTEST_DONE (R187) -/

section
variable {args : List Word} {s : State}

theorem tuFence_of_badUnit (h : 64 ≤ argN args 1) : tuFence args s = cmdRefuse St.badArgument 1 s := if_pos h

theorem tuFence_of_unit (h : argN args 1 < 64) :
    tuFence args s = cmdOk (settleWinnow (settleFences 64 (fenceUnit (argN args 1) 3 s))) := if_neg (Nat.not_le.mpr h)

variable (c : CmdRef)

theorem tuUnfence_of_badUnit (h : 64 ≤ argN args 1) : tuUnfence c args s = cmdRefuse St.badArgument 1 s := if_pos h

variable (unit : argN args 1 < 64)
include unit

theorem tuUnfence_of_testing (h : (theUnit s (argN args 1)).state = 2) : tuUnfence c args s = cmdRefuse St.busy 0 s :=
  (if_neg (Nat.not_le.mpr unit)).trans (if_pos h)

theorem tuUnfence_of_inService (h : (theUnit s (argN args 1)).state = 0) : tuUnfence c args s = cmdOk s :=
  (if_neg (Nat.not_le.mpr unit)).trans ((if_neg (by simp [h])).trans (if_pos h))

theorem tuUnfence_of_fenced (h : (theUnit s (argN args 1)).state = 1) : tuUnfence c args s =
    (addDetached c (.unit (argN args 1)) (modUnit (argN args 1) (fun x => { x with state := 2 }) s), none) :=
  (if_neg (Nat.not_le.mpr unit)).trans ((if_neg (by simp [h])).trans (if_neg (by simp [h])))

end

section
variable {u : Nat} {s : State} {d : Detached} (tests : (s.hearth.detached.find? fun d => d.work == .unit u) = some d)
include tests

theorem selftestDone_of_passed (h : (theUnit s u).state = 2) : selftestDone u true s =
    endWith d.cmd St.ok 0 (modUnit u (fun x => { x with state := 0, cause := 0 }) s) := by
  simp only [selftestDone, tests, h, if_true]

theorem selftestDone_of_failed (h : (theUnit s u).state = 2) : selftestDone u false s =
    endWith d.cmd St.testFailed 0 (modUnit u (fun x => { x with state := 1, cause := 4 }) s) := by
  simp only [selftestDone, tests, h, if_true, Bool.false_eq_true, if_false]

theorem selftestDone_of_notTesting (pass : Bool) (h : (theUnit s u).state ≠ 2) :
    selftestDone u pass s = endWith d.cmd St.testFailed 0 s := by
  simp only [selftestDone, tests, h, if_false]

end

/-! ### A fence (R175) -/

/-- A unit is marked as fenced: its cause, and the second it was fenced in. -/
def markFenced (u cause : Nat) (s : State) : State :=
  modUnit u (fun x => { x with state := 1, cause := cause, fenceS := secOf s.time.now % 65536, faultAt := [], waitOn := none }) s

/-- The marked fence is captured and reported. -/
def tellFence (u cause : Nat) (s : State) : State :=
  report { faultAt 0x0701 2 (halfOfBarn (barnOfUnit u)) u 0 with detail := [w32 cause] } (capture 15 u (markFenced u cause s))

/-- The contexts with an open index on the fenced unit are aborted, and where its stack has no unit left in service, those placed on
the stack. -/
def abortFenced (u cause : Nat) (s : State) : State :=
  let s := (ctxsOnUnit s u).foldl (fun s c => abortPlain c 6 s) (tellFence u cause s)
  if (cyc (8 * (u / 8)) 8 0).any fun v => unitUp s v then s
  else (ctxsOnStack s (u / 8)).foldl (fun s c => abortPlain c 6 s) s

theorem fenceUnit_of_notFenced {u : Nat} (cause : Nat) {s : State} (h : (theUnit s u).state ≠ 1) : fenceUnit u cause s =
    ((abortFenced u cause s).coll.map Prod.fst).foldl (fun s c => recallUnit c u s) (abortFenced u cause s) := if_neg h

/-- After the mark, a fence up to its recalls changes no unit. -/
theorem abortFenced_sends (u cause : Nat) (s : State) : Sends (markFenced u cause s) (abortFenced u cause s) := by
  have aborts (l : List Nat) (t : State) : Sends t (l.foldl (fun s c => abortPlain c 6 s) t) :=
    .foldl (fun s c => abortPlain_sends c 6 s) l t
  have told : Sends (markFenced u cause s) (tellFence u cause s) := ((capture_tells _ _ _).trans (report_tells _ _)).sends
  have onUnit := told.trans (aborts (ctxsOnUnit s u) _)
  exact .ite onUnit (onUnit.trans (aborts _ _))

/-! ### The count of residue faults (R173) -/

theorem residueCount_residue (u : Nat) (s : State) :
    (theUnit (residueCount u s).2 u).residue = sat (2 ^ 32 - 1) ((theUnit s u).residue + 1) :=
  congrArg Unit.residue (theUnit_modUnit_same u _ s)

theorem residueCount_second_iff (u : Nat) (s : State) :
    (residueCount u s).1 = true ↔ ∃ t ∈ (theUnit s u).faultAt, s.time.now < t + secU 60 := by
  simp [residueCount, List.filter_eq_nil_iff]

/-! ### A fault in work on an index (R173) -/

section
variable {u c g : Nat} {o : OpenIdx} {s : State}

theorem redoIndex_of_noWitness (redoFaults : Bool) (h : o.faulty ≠ [] ∨ (rolesOf s o.unit o.faulty)[1]? = none) :
    redoIndex u c g o redoFaults s = abortCtx c 5 (plainOffence s (theCtx s c)) (faultOn u c g s) := by
  have none_ : (if o.faulty = [] then (rolesOf s o.unit o.faulty)[1]? else none) = none := by
    rcases h with h | h
    · exact if_neg h
    · rw [h, ite_self]
  simp only [redoIndex, none_]

section
variable {w : Nat} (first : o.faulty = []) (witness : (rolesOf s o.unit o.faulty)[1]? = some w)
include first witness

theorem redoIndex_passes : redoIndex u c g o false s =
    modOpen c g (fun o => { o with faulty := o.faulty ++ [u] }) (faultOn u c g s) := by
  simp only [redoIndex, if_pos first, witness, Bool.false_eq_true, if_false]

theorem redoIndex_of_witnessFaults : redoIndex u c g o true s =
    abortCtx c 5 (plainOffence (faultOn u c g s) (theCtx s c)) (faultOn w c g (faultOn u c g s)) := by
  simp only [redoIndex, if_pos first, witness, if_true]

end

section
variable (active : (theCtx s c).state = .active) (found : openOf (theCtx s c) g = some o)
include active found

theorem residueIndex_of_primary (redoFaults : Bool) (reducing : o.phase = .reducing) (primary : primaryOf s o = some u) :
    residueIndex u c g redoFaults s = redoIndex u c g o redoFaults s := by
  simp only [residueIndex, found, active, reducing, primary, and_self, if_true]

theorem residueAdd_of_primary (redoFaults : Bool) (accumulates : ctxOut (theCtx s c) = 1) (stays : o.phase ≠ .leaving)
    (primary : primaryOf s o = some u) : residueAdd u c g redoFaults s = redoIndex u c g o redoFaults s := by
  simp only [residueAdd, found]
  exact if_pos ⟨active, accumulates, stays, primary⟩

theorem residueWinnow_of_role (winnowing : o.phase = .winnowing) (role : u ∈ (rolesOf s o.unit o.faulty).drop 1) :
    let t := modOpen c g (fun o => { o with faulty := o.faulty ++ [u] }) (faultOn u c g s)
    residueWinnow u c g s = if (rolesOf t o.unit (o.faulty ++ [u])).length < 2 then
      proceed c g (bumpColl 17 t (theCtx s c) (sheafOf (theCtx s c) g)) else t := by
  simp only [residueWinnow, found]
  exact if_pos ⟨active, winnowing, List.contains_iff_mem.mpr role⟩

end

end

/-- A residue fault of the unit that reduces, converts or adds an index has the index done again. -/
theorem residueFault_of_primary {u : Nat} {c : Fin 4096} {g : Nat} {o : OpenIdx} {s : State} {work : ResidueWork}
    (active : (theCtx s c).state = .active) (found : openOf (theCtx s c) g = some o) (primary : primaryOf s o = some u)
    (works : ((work = .index c g ∨ work = .conversion c g) ∧ o.phase = .reducing) ∨
      (work = .addition c g ∧ ctxOut (theCtx s c) = 1 ∧ o.phase ≠ .leaving)) (redoFaults : Bool) :
    residueFault u work redoFaults s = settleWinnow (redoIndex u c g o redoFaults s) := by
  rcases works with ⟨rfl | rfl, reducing⟩ | ⟨rfl, accumulates, stays⟩
  · exact congrArg settleWinnow (residueIndex_of_primary active found redoFaults reducing primary)
  · exact congrArg settleWinnow (residueIndex_of_primary active found redoFaults reducing primary)
  · exact congrArg settleWinnow (residueAdd_of_primary active found redoFaults accumulates stays primary)

/-! ### A fault in a chunk or in a norm pass (R183, R185) -/

section
variable {u : Nat} {s : State}

theorem faultWork_once : faultWork u false s = (u, settleFences 64 (faultFree u s)) := rfl

theorem faultWork_of_noWitness (h : (firstRoles s u)[1]? = none) : faultWork u true s = (u, settleFences 64 (faultFree u s)) := by
  simp only [faultWork, if_true, h]

theorem faultWork_of_witness {w : Nat} (h : (firstRoles s u)[1]? = some w) :
    faultWork u true s = (w, settleFences 64 (faultFree w (faultFree u s))) := by
  simp only [faultWork, if_true, h]

variable (redoFaults : Bool) (up : unitUp s u = true)
include up

theorem residueChunk_of_open {id k j : Nat} {h : Harvest} (chunk : openChunk s id k j = some h) :
    let t := faultWork u redoFaults s
    residueChunk u id k j redoFaults s = t.2.modThresh fun x => { x with harvests := x.harvests.map fun y =>
      if y.cmd == h.cmd then { y with redo := (h.redo.filter fun e => e.1 != (k, j)) ++ [((k, j), t.1)] } else y } := by
  simp only [residueChunk, chunk, Option.filter_some, up, if_true]

theorem residueNorm_of_running {i : Nat} (runs : (s.thresh.norms[i]?).isSome = true) :
    residueNorm u i redoFaults s = (faultWork u redoFaults s).2 := by
  rw [residueNorm, if_pos (by rw [runs, up, Bool.and_self])]

end

end Sys2Proof.Machine

namespace Sys2Proof.Proofs

open Sys2Proof.Machine

/-- Settles O28: each clause is the lemma about its command, its row or the operation that it names; a fence changes only its own unit,
as the capture, the report and the aborts that follow its mark change none. -/
theorem units : Obligations.Units := by
  unfold Obligations.Units
  refine ⟨?fence, ?unfence, ?selftest, ?index, ?winnow, ?chunk, ?norm, ?work, ?count, ?fenced⟩
  case fence =>
    intro h args s i acc
    exact ⟨fun unit => run_ok rfl acc (exec_tuFence h args s) (tuFence_of_unit unit),
      fun bad => run_refused rfl acc (exec_tuFence h args s) (tuFence_of_badUnit bad)⟩
  case unfence =>
    intro h args s i acc
    have run := exec_tuUnfence h args s
    refine ⟨fun bad => run_refused rfl acc run (tuUnfence_of_badUnit _ bad), fun unit state => ?_, fun unit state => ?_,
      fun unit state => ?_⟩ <;> rw [← fetched_theUnit i] at state
    · exact run_ok rfl acc run (tuUnfence_of_inService _ unit state)
    · exact run_detached rfl acc run (tuUnfence_of_fenced _ unit state)
    · exact run_refused rfl acc run (tuUnfence_of_testing _ unit state)
  case selftest =>
    intro u s d tests
    exact ⟨fun testing => ⟨next_congr (selftestDone_of_passed tests testing), next_congr (selftestDone_of_failed tests testing)⟩,
      fun pass other => next_congr (selftestDone_of_notTesting tests pass other)⟩
  case index =>
    intro u c g s o i x found works active primary
    have faults (redo : Bool) : exec (.residueFault u i redo) s = .next (settleWinnow (redoIndex u c g o redo s)) :=
      next_congr (residueFault_of_primary active found primary works redo)
    exact ⟨fun w first witness => ⟨(faults false).trans (next_congr (congrArg settleWinnow (redoIndex_passes first witness))),
        (faults true).trans (next_congr (congrArg settleWinnow (redoIndex_of_witnessFaults first witness)))⟩,
      fun redo noWitness => (faults redo).trans (next_congr (congrArg settleWinnow (redoIndex_of_noWitness redo noWitness)))⟩
  case winnow =>
    intro u c g redo s o x t active found winnowing role
    exact next_congr (congrArg settleWinnow (residueWinnow_of_role active found winnowing role))
  case chunk =>
    intro u id k j redo s h chunk up t
    exact next_congr (congrArg settleWinnow (residueChunk_of_open redo up chunk))
  case norm =>
    intro u n redo s runs up
    exact next_congr (congrArg settleWinnow (residueNorm_of_running redo up runs))
  case work => exact fun u s => ⟨faultWork_once, faultWork_of_noWitness, fun w => faultWork_of_witness⟩
  case count => exact fun u s => ⟨residueCount_residue u s, residueCount_second_iff u s, fun c g => rfl, rfl⟩
  case fenced =>
    intro u cause s unfenced
    have own : theUnit (abortFenced u cause s) u = _ :=
      ((abortFenced_sends u cause s).theUnit u).trans (theUnit_modUnit_same ..)
    refine ⟨abortFenced u cause s, fenceUnit_of_notFenced cause unfenced, ?_, ?_, ?_, fun v other =>
      ((abortFenced_sends u cause s).theUnit v).trans (theUnit_modUnit_other other ..)⟩ <;> rw [own]

end Sys2Proof.Proofs
end

section
/-! SUPPORT. The commands on parameter groups, harvests and norm passes (R179, R180, R184, R185, R187): each refusal, and what a command
that passes its checks starts or ends. -/

namespace Sys2Proof.Machine

/-! ### After the fetch of an entry -/

@[simp] theorem fetched_groupWord (i : Instr) (s : State) (k n : Nat) : groupWord (fetched i s) k n = groupWord s k n := by
  simp only [groupWord, fetched_thresh]
@[simp] theorem fetched_grpValid (i : Instr) (s : State) (k : Nat) : grpValid (fetched i s) k = grpValid s k := by
  simp only [grpValid, fetched_groupWord]
@[simp] theorem fetched_groupBusy (i : Instr) (s : State) (k : Nat) : groupBusy (fetched i s) k = groupBusy s k := by
  simp only [groupBusy, fetched_thresh]
@[simp] theorem fetched_grpG (i : Instr) (s : State) (k : Nat) : grpG (fetched i s) k = grpG s k := by
  simp only [grpG, groupNum, fetched_groupWord]
@[simp] theorem fetched_grpLen (i : Instr) (s : State) (k : Nat) : grpLen (fetched i s) k = grpLen s k := by
  simp only [grpLen, groupNum, fetched_groupWord]
@[simp] theorem fetched_windowFor (i : Instr) (s : State) (p o n : Nat) (rd wr : Bool) :
    windowFor (fetched i s) p o n rd wr = windowFor s p o n rd wr := by
  rw [fetched_eq]
  rfl
@[simp] theorem fetched_inWindows (i : Instr) (s : State) (p : Nat) (l : List (Nat × Nat)) :
    inWindows (fetched i s) p l = inWindows s p l := by
  simp only [inWindows, fetched_windowFor]
@[simp] theorem fetched_gradConflict (i : Instr) (s : State) (p : Nat) (ks : List Nat) :
    gradConflict (fetched i s) p ks = gradConflict s p ks := by
  simp only [gradConflict, fetched_coll, fetched_grpG, fetched_grpLen]
@[simp] theorem fetched_groupArrays (i : Instr) (s : State) (k : Nat) : groupArrays (fetched i s) k = groupArrays s k := by
  rw [fetched_eq]
  rfl
@[simp] theorem fetched_outRange (i : Instr) (s : State) (d : List Word) (k : Nat) :
    outRange (fetched i s) d k = outRange s d k := by
  rw [fetched_eq]
  rfl
@[simp] theorem fetched_runOk (i : Instr) (s : State) (d : List Word) : runOk (fetched i s) d = runOk s d := by
  simp only [runOk, funext (fetched_grpValid i s)]

/-! ### HARVEST_GROUP_WRITE (R179) -/

/-- The records that HARVEST_GROUP_WRITE finds in host memory. -/
def givenRecords (args : List Word) (s : State) : List (List Word) :=
  (List.range (argN args 2)).map fun k => (hostNums s 4 (arg64 args 3 + 80 * k) 20).map w32

/-- They stand in their groups, reserved bits 0. -/
def putGroups (args : List Word) (s : State) : State :=
  s.modThresh fun t => { t with groups := putAll [] (argN args 1) ((givenRecords args s).map keepRecord) t.groups }

section
variable {args : List Word} {s : State}

theorem tget_groups_putGroups (k : Nat) : tget (putGroups args s).thresh.groups [] k =
    if argN args 1 ≤ k ∧ k < argN args 1 + argN args 2 then keepRecord ((givenRecords args s).getD (k - argN args 1) [])
    else tget s.thresh.groups [] k := by
  have count : ((givenRecords args s).map keepRecord).length = argN args 2 := by simp [givenRecords]
  rw [putGroups, State.modThresh_thresh, tget_putAll, count]
  refine if_ctx_congr Iff.rfl (fun inside => ?_) fun _ => rfl
  have listed : k - argN args 1 < (givenRecords args s).length := by
    rw [List.length_map] at count
    omega
  simp [List.getD_eq_getElem?_getD, listed]

theorem groupWrite_of_badFirst (h : 1024 ≤ argN args 1) : groupWrite args s = cmdRefuse St.badArgument 1 s := if_pos h

theorem groupWrite_of_badCount (first : argN args 1 < 1024) (h : argN args 2 < 1 ∨ 1024 < argN args 1 + argN args 2) :
    groupWrite args s = cmdRefuse St.badArgument 2 s :=
  (if_neg (Nat.not_le.mpr first)).trans (if_pos h)

variable (nonempty : 1 ≤ argN args 2) (fits : argN args 1 + argN args 2 ≤ 1024)
include nonempty fits

/-- On a good range the records decide, then whether a running harvest uses one of the groups. -/
theorem groupWrite_of_range : groupWrite args s =
    if (givenRecords args s).any (fun r => !recordOk r) then cmdRefuse St.badArgument 3 s
    else if (List.range (argN args 2)).any (fun k => groupBusy s (argN args 1 + k)) then cmdRefuse St.busy 0 s
    else cmdOk (putGroups args s) :=
  (if_neg (by omega)).trans (if_neg (by omega))

theorem groupWrite_of_badRecord (h : ∃ r ∈ givenRecords args s, recordOk r = false) :
    groupWrite args s = cmdRefuse St.badArgument 3 s := by
  rw [groupWrite_of_range nonempty fits, if_pos (by simpa [List.any_eq_true] using h)]

variable (good : ∀ r ∈ givenRecords args s, recordOk r = true)
include good

theorem groupWrite_of_busy (h : ∃ k, k < argN args 2 ∧ groupBusy s (argN args 1 + k) = true) :
    groupWrite args s = cmdRefuse St.busy 0 s := by
  rw [groupWrite_of_range nonempty fits, if_neg (by simpa [List.any_eq_true] using good),
    if_pos (by simpa [List.any_eq_true] using h)]

theorem groupWrite_of_free (h : ∀ k, k < argN args 2 → groupBusy s (argN args 1 + k) = false) :
    groupWrite args s = cmdOk (putGroups args s) := by
  rw [groupWrite_of_range nonempty fits, if_neg (by simpa [List.any_eq_true] using good),
    if_neg (by simpa [List.any_eq_true] using h)]

end

/-! ### HARVEST_RUN (R180, R184) -/

/-- The run descriptor that HARVEST_RUN finds in host memory. -/
def givenRun (args : List Word) (s : State) : List Word := (hostNums s 4 (arg64 args 1) 12).map w32

/-- The arrays of a run, and its output where there is one, lie in windows of its partition. -/
def RunInside (s : State) (d : List Word) : Prop :=
  inWindows s (runPartition d) ((runGroups d).flatMap (groupArrays s)) = true ∧
    (runCopy d = true → inWindows s (runPartition d) ((runGroups d).map (outRange s d)) = true)

/-- The tree of a run is one of its partition's. -/
def RunTree (s : State) (d : List Word) : Prop :=
  (tget s.routing.trees {} (runTree d)).valid = true ∧ (tget s.routing.trees {} (runTree d)).partition = runPartition d

/-- The harvest that a run descriptor starts. -/
def startedHarvest (c : CmdRef) (d : List Word) (s : State) : Harvest :=
  { id := runId d, desc := d, b1b2 := (runGroups d).map fun k => (k, startPowers s k),
    recs := (runGroups d).map fun k => (k, tget s.thresh.groups [] k), redo := [], written := [], witnessed := 0, nonfinite := 0,
    cmd := c }

theorem fetched_runInside (i : Instr) (s : State) (d : List Word) : RunInside (fetched i s) d ↔ RunInside s d := by
  simp only [RunInside, fetched_inWindows, funext (fetched_groupArrays i s), funext (fetched_outRange i s d)]

theorem fetched_runTree (i : Instr) (s : State) (d : List Word) : RunTree (fetched i s) d ↔ RunTree s d := by
  simp only [RunTree, fetched_routing]

theorem fetched_startedHarvest (i : Instr) (s : State) (c : CmdRef) (d : List Word) :
    startedHarvest c d (fetched i s) = startedHarvest c d s := by
  rw [fetched_eq]
  rfl

/-- What HARVEST_RUN does with a descriptor whose fields are good. -/
def runChecked (c : CmdRef) (d : List Word) (s : State) : Res :=
  let t := tget s.routing.trees {} (runTree d)
  if !inWindows s (runPartition d) ((runGroups d).flatMap (groupArrays s)) ∨
      (runCopy d ∧ !inWindows s (runPartition d) ((runGroups d).map (outRange s d))) then cmdRefuse St.refusedPermission 0 s
  else if !(t.valid && t.partition == runPartition d) then cmdRefuse St.badArgument 1 s
  else if 4 ≤ s.thresh.harvests.length ∨ gradConflict s (runPartition d) (runGroups d) then cmdRefuse St.busy 0 s
  else cmdDetach c (s.modThresh fun t => { t with harvests := t.harvests ++ [startedHarvest c d s] })

section
variable (c : CmdRef) {args : List Word} {s : State}

theorem harvestRun_of_retiring (h : (thePart s (runPartition (givenRun args s))).state = 2) :
    harvestRun c args s = cmdRefuse St.partitionRetiring 0 s := if_pos h

variable (lives : (thePart s (runPartition (givenRun args s))).state ≠ 2)
include lives

theorem harvestRun_of_badRun (h : runOk s (givenRun args s) = false) : harvestRun c args s = cmdRefuse St.badArgument 1 s :=
  (if_neg lives).trans (if_pos (by simpa [givenRun] using h))

theorem harvestRun_of_run (ok : runOk s (givenRun args s) = true) : harvestRun c args s = runChecked c (givenRun args s) s :=
  (if_neg lives).trans (if_neg (by simpa [givenRun] using ok))

end

section
variable (c : CmdRef) {d : List Word} {s : State}

theorem runChecked_of_outside (h : ¬RunInside s d) : runChecked c d s = cmdRefuse St.refusedPermission 0 s :=
  if_pos (by simpa [RunInside, -not_and, not_and_or] using h)

variable (inside : RunInside s d)
include inside

theorem runChecked_of_inside : runChecked c d s =
    if !((tget s.routing.trees {} (runTree d)).valid && (tget s.routing.trees {} (runTree d)).partition == runPartition d) then
      cmdRefuse St.badArgument 1 s
    else if 4 ≤ s.thresh.harvests.length ∨ gradConflict s (runPartition d) (runGroups d) = true then cmdRefuse St.busy 0 s
    else cmdDetach c (s.modThresh fun t => { t with harvests := t.harvests ++ [startedHarvest c d s] }) :=
  if_neg (by simpa [RunInside] using inside)

theorem runChecked_of_otherTree (h : ¬RunTree s d) : runChecked c d s = cmdRefuse St.badArgument 1 s :=
  (runChecked_of_inside c inside).trans (if_pos (by simpa [RunTree, -not_and, not_and_or] using h))

variable (tree : RunTree s d)
include tree

theorem runChecked_of_busy (h : 4 ≤ s.thresh.harvests.length ∨ gradConflict s (runPartition d) (runGroups d) = true) :
    runChecked c d s = cmdRefuse St.busy 0 s :=
  (runChecked_of_inside c inside).trans ((if_neg (by simpa [RunTree] using tree)).trans (if_pos h))

theorem runChecked_of_free (room : s.thresh.harvests.length < 4)
    (apart : gradConflict s (runPartition d) (runGroups d) = false) : runChecked c d s =
      cmdDetach c (s.modThresh fun t => { t with harvests := t.harvests ++ [startedHarvest c d s] }) :=
  (runChecked_of_inside c inside).trans ((if_neg (by simpa [RunTree] using tree)).trans (if_neg (by simp [room, apart])))

end

/-! ### HARVEST_ABORT (R187) -/

section
variable {args : List Word} {s : State}

theorem harvestAbort_of_notRunning (h : ∀ x ∈ s.thresh.harvests, x.id ≠ argN args 1) :
    harvestAbort args s = cmdRefuse St.badArgument 1 s := by
  have none_ : (s.thresh.harvests.find? fun x => decide (x.id = argN args 1)) = none := by simpa using h
  simp only [harvestAbort, none_]

theorem harvestAbort_of_running {x : Harvest} (h : (s.thresh.harvests.find? fun x => decide (x.id = argN args 1)) = some x) :
    harvestAbort args s = cmdOk (endHarvest x St.aborted 1 s) := by
  simp only [harvestAbort, h]

end

/-! ### NORM_PASS (R184, R185) -/

/-- The groups that NORM_PASS names. -/
def passGroups (args : List Word) : List Nat := (List.range (argN args 3)).map (argN args 2 + ·)

/-- Their gradients lie in windows of the partition it names. -/
def PassInside (args : List Word) (s : State) : Prop :=
  inWindows s (argN args 1) ((passGroups args).map fun k => (grpG s k, 4 * grpLen s k)) = true

/-- What NORM_PASS does with groups in range of a partition that does not retire. -/
def passChecked (c : CmdRef) (args : List Word) (s : State) : Res :=
  if (passGroups args).any fun k => !grpValid s k then cmdRefuse St.badArgument 2 s
  else if !inWindows s (argN args 1) ((passGroups args).map fun k => (grpG s k, 4 * grpLen s k)) then
    cmdRefuse St.refusedPermission 0 s
  else if 4 ≤ s.thresh.norms.length ∨ gradConflict s (argN args 1) (passGroups args) then cmdRefuse St.busy 0 s
  else cmdDetach c (s.modThresh fun t => { t with norms := t.norms ++ [⟨argN args 1, argN args 2, argN args 3, c⟩] })

theorem fetched_passInside (i : Instr) (args : List Word) (s : State) : PassInside args (fetched i s) ↔ PassInside args s := by
  simp only [PassInside, fetched_inWindows, fetched_grpG, fetched_grpLen]

section
variable (c : CmdRef) {args : List Word} {s : State} (partition : argN args 1 < 4096) (first : argN args 2 < 1024)
  (nonempty : 1 ≤ argN args 3) (fits : argN args 2 + argN args 3 ≤ 1024)
include partition first nonempty fits

/-- On arguments in range the partition decides. -/
theorem normPass_of_range : normPass c args s =
    if (thePart s (argN args 1)).state = 2 then cmdRefuse St.partitionRetiring 0 s else passChecked c args s :=
  (if_neg (Nat.not_le.mpr partition)).trans ((if_neg (Nat.not_le.mpr first)).trans (if_neg (by omega)))

theorem normPass_of_retiring (h : (thePart s (argN args 1)).state = 2) : normPass c args s = cmdRefuse St.partitionRetiring 0 s :=
  (normPass_of_range c partition first nonempty fits).trans (if_pos h)

theorem normPass_of_living (h : (thePart s (argN args 1)).state ≠ 2) : normPass c args s = passChecked c args s :=
  (normPass_of_range c partition first nonempty fits).trans (if_neg h)

end

section
variable (c : CmdRef) {args : List Word} {s : State}

theorem passChecked_of_invalid (h : ∃ k ∈ passGroups args, grpValid s k = false) :
    passChecked c args s = cmdRefuse St.badArgument 2 s := if_pos (by simpa [List.any_eq_true] using h)

variable (valid : ∀ k ∈ passGroups args, grpValid s k = true)
include valid

theorem passChecked_of_valid : passChecked c args s =
    if !inWindows s (argN args 1) ((passGroups args).map fun k => (grpG s k, 4 * grpLen s k)) then
      cmdRefuse St.refusedPermission 0 s
    else if 4 ≤ s.thresh.norms.length ∨ gradConflict s (argN args 1) (passGroups args) = true then cmdRefuse St.busy 0 s
    else cmdDetach c (s.modThresh fun t => { t with norms := t.norms ++ [⟨argN args 1, argN args 2, argN args 3, c⟩] }) :=
  if_neg (by simpa [List.any_eq_true] using valid)

theorem passChecked_of_outside (h : ¬PassInside args s) : passChecked c args s = cmdRefuse St.refusedPermission 0 s :=
  (passChecked_of_valid c valid).trans (if_pos (by simpa [PassInside] using h))

variable (inside : PassInside args s)
include inside

theorem passChecked_of_busy (h : 4 ≤ s.thresh.norms.length ∨ gradConflict s (argN args 1) (passGroups args) = true) :
    passChecked c args s = cmdRefuse St.busy 0 s :=
  (passChecked_of_valid c valid).trans ((if_neg (by simpa [PassInside] using inside)).trans (if_pos h))

theorem passChecked_of_free (room : s.thresh.norms.length < 4) (apart : gradConflict s (argN args 1) (passGroups args) = false) :
    passChecked c args s =
      cmdDetach c (s.modThresh fun t => { t with norms := t.norms ++ [⟨argN args 1, argN args 2, argN args 3, c⟩] }) :=
  (passChecked_of_valid c valid).trans ((if_neg (by simpa [PassInside] using inside)).trans (if_neg (by simp [room, apart])))

end

end Sys2Proof.Machine

namespace Sys2Proof.Proofs

open Sys2Proof.Machine

/-- Settles O29: each clause is the lemma that says what its command does in the state that the clause describes. -/
theorem harvestCommands : Obligations.HarvestCommands := by
  unfold Obligations.HarvestCommands
  refine ⟨?groupWrite, ?run, ?abort, ?normPass⟩
  case groupWrite =>
    intro h args s i rs acc
    have run := exec_harvestGroupWrite h args s
    refine ⟨fun bad => run_refused rfl acc run (groupWrite_of_badFirst bad),
      fun first bad => run_refused rfl acc run (groupWrite_of_badCount first bad), fun nonempty fits => ⟨fun good free => ?_,
        fun bad => run_refused rfl acc run (groupWrite_of_badRecord nonempty fits bad), fun good busy => ?_⟩⟩
    · refine ⟨putGroups args (fetched i s), run_ok rfl acc run (groupWrite_of_free nonempty fits good ?_), fun k => ?_, ?_⟩
      · simpa only [fetched_groupBusy] using free
      · rw [tget_groups_putGroups, fetched_thresh]
        rfl
      · rw [putGroups, State.modThresh, fetched_thresh]
    · refine run_refused rfl acc run (groupWrite_of_busy nonempty fits good ?_)
      simpa only [fetched_groupBusy] using busy
  case run =>
    intro h args s i d p ks inside tree acc
    have run := exec_harvestRun h args s
    have part : (thePart (fetched i s) p).state = (thePart s p).state := congrArg Part.state (fetched_thePart i s p)
    have fields : runOk (fetched i s) d = runOk s d := fetched_runOk i s d
    refine ⟨fun retiring => run_refused rfl acc run (harvestRun_of_retiring _ (part.trans retiring)),
      fun lives bad => run_refused rfl acc run (harvestRun_of_badRun _ (part.trans_ne lives) (fields.trans bad)), fun lives ok => ?_⟩
    have checked := harvestRun_of_run (refOf i s) (part.trans_ne lives) (fields.trans ok)
    have refuses {st w : Nat} (e : runChecked (refOf i s) d (fetched i s) = cmdRefuse st w (fetched i s)) :
        exec i s = .next (refusedEnd i s st w) := run_refused rfl acc run (checked.trans e)
    have within (e : inside) : RunInside (fetched i s) d := (fetched_runInside i s d).mpr e
    have owned (e : tree) : RunTree (fetched i s) d := (fetched_runTree i s d).mpr e
    refine ⟨fun out => refuses (runChecked_of_outside _ ((fetched_runInside i s d).not.mpr out)),
      fun ins other => refuses (runChecked_of_otherTree _ (within ins) ((fetched_runTree i s d).not.mpr other)),
      fun ins own busy => refuses (runChecked_of_busy _ (within ins) (owned own) (by rwa [fetched_thresh, fetched_gradConflict])),
      fun ins own room apart => ?_⟩
    have starts := runChecked_of_free (refOf i s) (within ins) (owned own) (by rwa [fetched_thresh]) (by rwa [fetched_gradConflict])
    rw [fetched_startedHarvest] at starts
    exact run_detached rfl acc run (checked.trans starts)
  case abort =>
    intro h args s i acc
    have run := exec_harvestAbort h args s
    refine ⟨fun notRunning => run_refused rfl acc run (harvestAbort_of_notRunning ?_),
      fun x running => run_ok rfl acc run (harvestAbort_of_running ?_)⟩
    · rwa [fetched_thresh]
    · rwa [fetched_thresh]
  case normPass =>
    intro h args s i ks inside acc partition first nonempty fits
    have run := exec_normPass h args s
    have part : (thePart (fetched i s) (argN args 1)).state = (thePart s (argN args 1)).state :=
      congrArg Part.state (fetched_thePart i s _)
    refine ⟨fun retiring => run_refused rfl acc run
      (normPass_of_retiring _ partition first nonempty fits (part.trans retiring)), fun lives => ?_⟩
    have checked := normPass_of_living (refOf i s) partition first nonempty fits (part.trans_ne lives)
    have refuses {st w : Nat} (e : passChecked (refOf i s) args (fetched i s) = cmdRefuse st w (fetched i s)) :
        exec i s = .next (refusedEnd i s st w) := run_refused rfl acc run (checked.trans e)
    have within (e : inside) : PassInside args (fetched i s) := (fetched_passInside i args s).mpr e
    refine ⟨fun ⟨k, named, invalid⟩ => refuses (passChecked_of_invalid _ ⟨k, named, (fetched_grpValid i s k).trans invalid⟩),
      fun valid => ?_⟩
    have known : ∀ k ∈ passGroups args, grpValid (fetched i s) k = true :=
      fun k named => (fetched_grpValid i s k).trans (valid k named)
    exact ⟨fun out => refuses (passChecked_of_outside _ known ((fetched_passInside i args s).not.mpr out)),
      fun ins busy => refuses (passChecked_of_busy _ known (within ins) (by rwa [fetched_thresh, fetched_gradConflict])),
      fun ins room apart => run_detached rfl acc run (checked.trans
        (passChecked_of_free _ known (within ins) (by rwa [fetched_thresh]) (by rwa [fetched_gradConflict])))⟩

end Sys2Proof.Proofs
end

section
/-! SUPPORT. Harvest chunks and the ends of norm passes (R175, R176, R181 to R183, R185): the unit that computes a chunk, what a chunk
comes to, one parameter's update, and the end of a norm pass. -/

namespace Sys2Proof.Machine

/-! ### The units that roles fall to (R175) -/

theorem mem_cyc_bounds {base size start v : Nat} (h : v ∈ cyc base size start) : base ≤ v ∧ v < base + size := by
  simp only [cyc, List.mem_map, List.mem_range] at h
  obtain ⟨i, inside, rfl⟩ := h
  have := Nat.mod_lt (start + i) (Nat.zero_lt_of_lt inside)
  omega

theorem roleUnit_up {s : State} {t n w : Nat} {excl down : List Nat} (h : roleUnit s t n excl down = some w) :
    w < 64 ∧ unitUp s w = true := by
  obtain ⟨stack, mem, found⟩ := List.exists_of_findSome?_eq_some h
  obtain ⟨-, low⟩ := mem_cyc_bounds (List.mem_of_mem_filter mem)
  obtain ⟨-, high⟩ := mem_cyc_bounds (List.mem_of_find?_eq_some found)
  have up := List.find?_some found
  exact ⟨by omega, (Bool.and_eq_true_iff.mp up).1⟩

/-- The witness of a unit is a unit in service. -/
theorem witness_up {s : State} {u w : Nat} (h : (firstRoles s u)[1]? = some w) : w < 64 ∧ unitUp s w = true := by
  unfold firstRoles at h
  dsimp only at h
  split at h
  · simp at h
  · next v found =>
    obtain rfl : v = w := by simpa using h
    exact roleUnit_up found

/-! ### The unit that computes a chunk (R175, R183) -/

section
variable {h : Harvest} {k j : Nat} {s : State}

/-- The witness that a chunk's redo falls to. -/
def redoWitness (h : Harvest) (k j : Nat) (s : State) : Option Nat :=
  (h.redo.find? fun e => e.1 == (k, j)).bind fun e => (firstRoles s e.2)[1]?

theorem chunkUnit_of_redo {w : Nat} (e : redoWitness h k j s = some w) : chunkUnit h k j s = some w := by
  unfold redoWitness at e
  simp only [chunkUnit, e]

theorem chunkUnit_of_noRedo (e : redoWitness h k j s = none) : chunkUnit h k j s =
    ((List.range 64).filter (unitUp s))[freeBelow s ((List.range 64).filter (unitUp s)).length]? := by
  unfold redoWitness at e
  simp only [chunkUnit, e]

theorem chunkUnit_up {u : Nat} (e : chunkUnit h k j s = some u) : u < 64 ∧ unitUp s u = true := by
  cases redo : redoWitness h k j s with
  | some w =>
    obtain rfl : w = u := Option.some.inj ((chunkUnit_of_redo redo).symm.trans e)
    obtain ⟨r, -, witness⟩ := Option.bind_eq_some_iff.mp redo
    exact witness_up witness
  | none =>
    rw [chunkUnit_of_noRedo redo] at e
    simpa using List.mem_of_getElem? e

theorem exists_chunkUnit {v : Nat} (low : v < 64) (up : unitUp s v = true) : ∃ u, chunkUnit h k j s = some u := by
  cases redo : redoWitness h k j s with
  | some w => exact ⟨w, chunkUnit_of_redo redo⟩
  | none =>
    have some_ : v ∈ (List.range 64).filter (unitUp s) := List.mem_filter.mpr ⟨List.mem_range.mpr low, up⟩
    have pick := Nat.mod_lt (Config.freeValue s.free) (List.length_pos_of_mem some_)
    exact ⟨_, (chunkUnit_of_noRedo redo).trans (List.getElem?_eq_getElem pick)⟩

end

/-! ### HARVEST_CHUNK (R176, R181 to R183) -/

theorem harvestChunk_of_idle {id k j : Nat} (ev : ChunkEvent) {s : State}
    (h : openChunk s id k j = none ∨ ∀ v, v < 64 → unitUp s v = false) : harvestChunk id k j ev s = s := by
  have idle : ((openChunk s id k j).bind fun h => (chunkUnit h k j s).map fun u => (h, u)) = none := by
    rcases h with closed | down
    · rw [closed, Option.bind_none]
    · refine Option.bind_eq_none_iff.mpr fun h _ => Option.map_eq_none_iff.mpr (Option.eq_none_iff_forall_ne_some.mpr fun u e => ?_)
      obtain ⟨low, up⟩ := chunkUnit_up e
      exact absurd up (by simp [down u low])
  simp only [harvestChunk, idle]

/-- A chunk is witnessed: it is selected, and its unit has a witness. -/
def chunkWitnessed (h : Harvest) (id j u : Nat) (s : State) : Bool :=
  winnowed (runWinnow h.desc) j id && decide (2 ≤ (firstRoles s u).length)

section
variable {id k j u : Nat} {h : Harvest} {s : State} (chunk : openChunk s id k j = some h) (unit : chunkUnit h k j s = some u)
include chunk unit

theorem openChunk_bind_chunkUnit : ((openChunk s id k j).bind fun h => (chunkUnit h k j s).map fun u => (h, u)) = some (h, u) := by
  rw [chunk, Option.bind_some, unit, Option.map_some]

theorem harvestChunk_written : harvestChunk id k j .written s = writeChunk u (chunkWitnessed h id j u s) h k j
    (if chunkWitnessed h id j u s then bumpUnit u 2 s.tookFree else s.tookFree) := by
  simp only [harvestChunk, openChunk_bind_chunkUnit chunk unit]
  rfl

theorem harvestChunk_outvoted {w r : Nat} {rest : List Nat} (primary : Bool) (roles : firstRoles s u = u :: w :: r :: rest)
    (selected : winnowed (runWinnow h.desc) j id = true) :
    harvestChunk id k j (.outvoted primary) s = settleWinnow (settleFences 64 (fenceUnit (if primary then u else w) 2
      (modUnit (if primary then u else w) (fun x => { x with outvoted := sat (2 ^ 32 - 1) (x.outvoted + 1) })
        (writeChunk u true h k j (bumpUnit u 3 s.tookFree))))) := by
  have later : firstRoles s.tookFree u = u :: w :: r :: rest := roles
  simp only [harvestChunk, openChunk_bind_chunkUnit chunk unit, later, selected, if_true]

/-- The units of a chunk that nobody can decide are reported, and the run stops. -/
theorem harvestChunk_unresolved (witnessed : chunkWitnessed h id j u s = true) :
    ∃ v, harvestChunk id k j .unresolved s = endHarvest h St.arithFault 0 v ∧ Tells s v := by
  simp only [harvestChunk, openChunk_bind_chunkUnit chunk unit]
  refine ⟨_, if_pos witnessed, ?_⟩
  exact .foldl (fun _ _ => report_tells _ _) _ ((tookFree_tells s).trans (bump_tells _ _))

theorem harvestChunk_uncorrectable {a : Nat} (reads : inChunk s k j a = true) : harvestChunk id k j (.uncorrectable a) s =
    endHarvest h St.memFault (memDetail a) (memUE a (runPartition h.desc) none s.tookFree) := by
  simp only [harvestChunk, openChunk_bind_chunkUnit chunk unit]
  exact if_pos reads

end

/-! ### One parameter (R181) -/

theorem updateParam_of_skipped {hy : Hyper} (w : Nat) {g : Nat} (m v : Nat) (bad : finite32 g = false) (skips : hy.skip = true) :
    updateParam hy w g m v = ⟨w, m, v, g, true⟩ := if_pos (by rw [bad, skips]; rfl)

/-- A parameter that is updated is not counted, and its gradient is left or cleared, whatever the rule. -/
theorem updateParam_of_updated {hy : Hyper} (w : Nat) {g : Nat} (m v : Nat) (h : finite32 g = true ∨ hy.skip = false) :
    (updateParam hy w g m v).nonfinite = false ∧ (updateParam hy w g m v).g = if hy.clear then 0 else g := by
  have updated : ¬((!finite32 g && hy.skip) = true) := by
    rcases h with h | h <;> simp [h]
  rw [updateParam]
  dsimp only
  rw [if_neg updated]
  split <;> exact ⟨rfl, rfl⟩

/-! ### NORM_PASS_DONE (R185) -/

section
variable {i : Nat} {s : State}

theorem normDone_of_none (ue : Option Nat) (h : s.thresh.norms[i]? = none) : normDone i ue s = s := by
  simp only [normDone, h]

variable {m : Norm} (runs : s.thresh.norms[i]? = some m)
include runs

theorem normDone_of_error (a : Nat) :
    normDone i (some a) s = endNorm m ⟨St.memFault, w32 (memDetail a), []⟩ (memUE a m.partition none s) := by
  simp only [normDone, runs]

theorem normDone_of_sums :
    let ks := (List.range m.count).map (m.first + ·)
    let t := cacheAll false (ks.map fun k => (grpG s k, 4 * grpLen s k)) s
    normDone i none s = endNorm m ⟨St.ok, 0, w64 (sumSq t ks) ++ [w32 (sat (2 ^ 32 - 1) ((ks.map (badGrads t)).sum))] ++
      w64 ((ks.map (grpLen t)).sum)⟩ t := by
  simp only [normDone, runs]

end

end Sys2Proof.Machine

namespace Sys2Proof.Proofs

open Sys2Proof.Machine

/-- Settles O30: the unit of a chunk is one in service, as the witness of a redo is; each row is the lemma about what it comes to. -/
theorem harvestRows : Obligations.HarvestRows := by
  unfold Obligations.HarvestRows
  refine ⟨fun id k j ev s idle => next_congr (harvestChunk_of_idle ev idle), ?unit, ?chunk,
    fun hy w g m v bad skips => updateParam_of_skipped w m v bad skips, ?updated, ?norm,
    fun n ue s none_ => next_congr (normDone_of_none ue none_)⟩
  case unit =>
    rintro h k j s ⟨v, low, up⟩
    obtain ⟨u, unit⟩ := exists_chunkUnit (h := h) (k := k) (j := j) low up
    refine ⟨u, unit, (chunkUnit_up unit).2, fun v w redo witness => ?_⟩
    have again : redoWitness h k j s = some w := by rw [redoWitness, redo, Option.bind_some, witness]
    exact Option.some.inj (unit.symm.trans (chunkUnit_of_redo again))
  case chunk =>
    intro id k j s h u chunk unit t wit
    refine ⟨next_congr (harvestChunk_written chunk unit),
      fun w r rest primary roles selected => next_congr (harvestChunk_outvoted chunk unit primary roles selected),
      fun witnessed => ?_, fun a reads => next_congr (harvestChunk_uncorrectable chunk unit reads)⟩
    obtain ⟨v, ends, tells⟩ := harvestChunk_unresolved chunk unit witnessed
    exact ⟨v, next_congr ends, congrArg Thresh.harvests tells.thresh⟩
  case updated =>
    intro hy w g m v h
    obtain ⟨uncounted, left⟩ := updateParam_of_updated (hy := hy) w m v h
    exact ⟨uncounted, fun clears => left.trans (if_pos clears), fun keeps => left.trans (if_neg (by simp [keeps]))⟩
  case norm =>
    intro n s m runs ks t
    exact ⟨next_congr (normDone_of_sums runs), fun a => next_congr (normDone_of_error runs a)⟩

end Sys2Proof.Proofs
end

section
/-! SUPPORT. The device address map (R189 to R191, R193): the tier, the channel and the home barn of an address. -/

namespace Sys2Proof.Machine

/-! ### The tiers -/

theorem tierOf_of_granary {a : Nat} (h : a < 0x9000000000) : tierOf a = some 0 := if_pos h

theorem tierOf_of_barnStore {a : Nat} (low : bsBase ≤ a) (high : a < bsBase + 0x018000000000) : tierOf a = some 1 := by
  have beyond : ¬a < granarySize := by
    unfold granarySize
    unfold bsBase at low
    omega
  rw [tierOf, if_neg beyond, if_pos ⟨low, high⟩]

theorem tierOf_of_silo {a : Nat} (low : siloBase 0 ≤ a) (high : a < siloBase 2) : tierOf a = some 2 := by
  have beyond : ¬a < granarySize := by
    unfold granarySize
    unfold siloBase at low
    omega
  have other : ¬(bsBase ≤ a ∧ a < bsBase + 0x018000000000) := by
    unfold bsBase
    unfold siloBase at low
    omega
  rw [tierOf, if_neg beyond, if_neg other, if_pos ⟨low, high⟩]

/-! ### The channels -/

/-- Stack, channel and the address there give a Granary offset back. -/
theorem granAddr_inverse (o : Nat) :
    o = granAddr o / 4096 * 2 ^ 20 + chanOf o * 2 ^ 15 + stackOf o * 2 ^ 12 + granAddr o % 4096 := by
  unfold granAddr chanOf stackOf
  omega

theorem granAddr_eq (o : Nat) : granAddr o = o / 2 ^ 20 * 4096 + o % 4096 := by
  unfold granAddr
  omega

theorem bsAddr_of_granule (g : Nat) {r : Nat} (h : r < 4096) : bsAddr (4096 * g + r) = 4096 * (g / 12) + r := by
  unfold bsAddr
  omega

/-! ### The homes -/

theorem homeBarn_of_granary (s : State) {a : Nat} (h : a < 0x9000000000) : homeBarn s a = granHome a := by
  simp only [homeBarn, tierOf_of_granary h]

section
variable {s : State} {a : Nat}

/-- The home of granule g of half hf of the Barn store (R193). -/
theorem homeBarn_of_barnStore (tier : tierOf a = some 1) {hf g r : Nat} (at_ : a - bsBase = hf * (12 * bsChan s) + (4096 * g + r))
    (inHalf : 4096 * g + r < 12 * bsChan s) (offset : r < 4096) :
    homeBarn s a = 2 * ((12 * hf + g % 12) / 3) + g / 12 % 2 := by
  have half : (hf * (12 * bsChan s) + (4096 * g + r)) / (12 * bsChan s) = hf := by
    rw [Nat.mul_comm hf, Nat.mul_add_div (by omega), Nat.div_eq_of_lt inHalf, Nat.add_zero]
  have granule : (4096 * g + r) / 4096 = g := by omega
  simp only [homeBarn, tier, at_, half, Nat.add_sub_cancel_left, granule]

/-- The home of granule g of a Silo port (R193). -/
theorem homeBarn_of_silo (tier : tierOf a = some 2) {c g r : Nat} (port : siloOf a = c)
    (at_ : a - siloBase c = 4096 * g + r) (offset : r < 4096) : homeBarn s a = 8 * c + g % 8 := by
  have granule : (4096 * g + r) / 4096 = g := by omega
  simp only [homeBarn, tier, port, at_, granule]

end

end Sys2Proof.Machine

namespace Sys2Proof.Proofs

open Sys2Proof.Machine

/-- Settles O31: the home of an address in each tier is the lemma about the tier; the rest is the arithmetic of granules. -/
theorem homesOfGranules : Obligations.HomesOfGranules := by
  unfold Obligations.HomesOfGranules
  refine ⟨fun s a => homeBarn_of_granary s, fun o _ => ⟨rfl, rfl, granAddr_eq o, granAddr_inverse o⟩, ?channel, ?barnStore, ?silo⟩
  case channel =>
    intro g r offset
    rw [bsAddr_of_granule g offset]
    exact ⟨rfl, by omega⟩
  case barnStore =>
    intro s hf g r _ most half granule offset
    have size : bsChan s = s.mem.bsGib * 2 ^ 30 := rfl
    rw [← size]
    have inHalf : 4096 * g + r < 12 * bsChan s := by omega
    have inTier : hf * (12 * bsChan s) + (4096 * g + r) < 0x018000000000 := by
      obtain rfl | rfl : hf = 0 ∨ hf = 1 := by omega
      all_goals omega
    refine homeBarn_of_barnStore (tierOf_of_barnStore ?_ ?_) ?_ inHalf offset <;> unfold bsBase <;> omega
  case silo =>
    intro s c g r port granule offset
    refine homeBarn_of_silo (tierOf_of_silo ?_ ?_) ?_ ?_ offset <;> simp only [siloOf, siloBase] <;> omega

end Sys2Proof.Proofs
end

section
/-! SUPPORT. The commands that divide and map memory (R195, R196, R200, R203 to R205, R223): each refusal, and what a command that passes
its checks stores. -/

namespace Sys2Proof.Machine

/-! ### After the fetch of an entry -/

@[simp] theorem fetched_poolBase (i : Instr) (s : State) : poolBase (fetched i s) = poolBase s := by
  simp only [poolBase, fetched_mem]
@[simp] theorem fetched_overlapsScrub (i : Instr) (s : State) (base size : Nat) :
    overlapsScrub (fetched i s) base size = overlapsScrub s base size := by
  simp only [overlapsScrub, fetched_jobs]
@[simp] theorem fetched_heldRanges (i : Instr) (s : State) : heldRanges (fetched i s) = heldRanges s := by
  rw [fetched_eq]
  rfl
@[simp] theorem fetched_windowInUse (i : Instr) (s : State) (w : Window) : windowInUse (fetched i s) w = windowInUse s w := by
  simp only [windowInUse, fetched_heldRanges]
@[simp] theorem fetched_spillWanted (i : Instr) (s : State) : spillWanted (fetched i s) = spillWanted s := by
  simp only [spillWanted, pendingSpills, fetched_core, fetched_hearth_detached]
@[simp] theorem fetched_accIn (i : Instr) (s : State) (b : Nat) : accIn (fetched i s) b = accIn s b := by
  simp only [accIn, fetched_coll]
@[simp] theorem fetched_stagedIn (i : Instr) (s : State) (b : Nat) : stagedIn (fetched i s) b = stagedIn s b := by
  rw [fetched_eq]
  rfl

/-! ### The operands of a window -/

theorem takesFrom_iff (old new : Window) : takesFrom old new = true ↔
    new.valid = false ∨ new.base ≠ old.base ∨ new.size < old.size ∨ new.partition ≠ old.partition ∨
      (old.rd = true ∧ new.rd = false) ∨ (old.wr = true ∧ new.wr = false) := by
  rw [ne_comm (a := new.base), ne_comm (a := new.partition)]
  simp [takesFrom, or_assoc]

theorem windowInUse_iff (s : State) (w : Window) :
    windowInUse s w = true ↔ ∃ r ∈ heldRanges s, overlaps w.base w.size r.1 r.2 = true := List.any_eq_true

/-- The range of a window is a whole number of MiB below the pool, the Granary is in service, and neither a scrub nor another valid
window touches the range (R195). -/
structure WindowFits (s : State) (i : Nat) (w : Window) : Prop where
  owned : w.partition ≠ 0
  base : w.base % 2 ^ 20 = 0
  size : w.size % 2 ^ 20 = 0
  nonempty : 2 ^ 20 ≤ w.size
  belowPool : w.base + w.size ≤ poolBase s
  granary : s.mem.granary = .inService
  unscrubbed : overlapsScrub s w.base w.size = false
  apart : ∀ e ∈ s.mem.windows, e.1 ≠ i → e.2.valid = true → overlaps w.base w.size e.2.base e.2.size = false

theorem windowPlace_of_fits {s : State} {i : Nat} {w : Window} (h : WindowFits s i w) : windowPlace s i w = none := by
  have alone : (s.mem.windows.filter fun e => e.1 != i && e.2.valid && overlaps w.base w.size e.2.base e.2.size) = [] := by
    rw [List.filter_eq_nil_iff]
    intro e listed hit
    obtain ⟨⟨other, valid⟩, meets⟩ : (e.1 ≠ i ∧ e.2.valid = true) ∧ overlaps w.base w.size e.2.base e.2.size = true := by
      simpa using hit
    exact Bool.false_ne_true ((h.apart e listed other valid).symm.trans meets)
  refine (if_neg (not_or.mpr ⟨h.owned, not_not.mpr h.base⟩)).trans
    ((if_neg (not_or.mpr ⟨not_not.mpr h.size, Nat.not_lt.mpr h.nonempty⟩)).trans
      ((if_neg (Nat.not_lt.mpr h.belowPool)).trans ((if_neg (not_not.mpr h.granary)).trans ?_)))
  simp [alone, h.unscrubbed]

theorem fetched_windowFits (j : Instr) {s : State} {i : Nat} {w : Window} (h : WindowFits s i w) : WindowFits (fetched j s) i w := by
  obtain ⟨owned, base, size, nonempty, belowPool, granary, unscrubbed, apart⟩ := h
  refine ⟨owned, base, size, nonempty, ?_, ?_, ?_, ?_⟩
  · rwa [fetched_poolBase]
  · rwa [fetched_mem]
  · rwa [fetched_overlapsScrub]
  · rwa [fetched_mem]

/-- Of an ACTIVE partition with room, nothing is refused. -/
theorem quotaRefusal_of_room {s : State} {p res n : Nat} (active : (thePart s p).state = 1)
    (room : chargeOf s p res + n ≤ limitOf (thePart s p) res) : quotaRefusal s p res n = none := by
  have full : ¬limitOf (thePart s p) res < chargeOf s p res + n := Nat.not_lt.mpr room
  simp [quotaRefusal, active, full]

/-! ### MEM_WINDOW_WRITE (R195) -/

/-- MEM_WINDOW_WRITE has stored its entry, whose copies no longer fail. -/
def storeWindow (args : List Word) (s : State) : State :=
  clearParity .window (· == argN args 1) (s.modMem fun m =>
    { m with windows := tset m.windows {} (argN args 1) (windowOfWords args 2) })

theorem theWindow_storeWindow (args : List Word) (s : State) (k : Nat) :
    theWindow (storeWindow args s) k = if k = argN args 1 then windowOfWords args 2 else theWindow s k :=
  (tget_tset_any ..).trans (if_congr eq_comm rfl rfl)

/-- A write to a valid entry that its partition's retirement or running work forbids. -/
def WindowKept (args : List Word) (s : State) : Prop :=
  let old := theWindow s (argN args 1)
  old.valid = true ∧ ((thePart s old.partition).state = 2 ∨ (takesFrom old (windowOfWords args 2) = true ∧ windowInUse s old = true))

section
variable {args : List Word} {s : State}

theorem windowWrite_of_noEntry (h : 1024 ≤ argN args 1) : windowWrite args s = cmdRefuse St.badArgument 1 s := if_pos h

variable (entry : argN args 1 < 1024)
include entry

theorem windowWrite_of_misplaced {st d : Nat} (valid : (windowOfWords args 2).valid = true)
    (place : windowPlace s (argN args 1) (windowOfWords args 2) = some (st, d)) : windowWrite args s = cmdRefuse st d s := by
  rw [windowWrite, if_neg (Nat.not_le.mpr entry)]
  simp only [valid, if_true, place]

variable (place : (windowOfWords args 2).valid = false ∨ windowPlace s (argN args 1) (windowOfWords args 2) = none)
include place

omit entry in
theorem ite_windowPlace_eq_none :
    (if (windowOfWords args 2).valid = true then windowPlace s (argN args 1) (windowOfWords args 2) else none) = none := by
  split
  · next valid => exact place.resolve_left (by simp [valid])
  · rfl

theorem windowWrite_of_kept (kept : WindowKept args s) : windowWrite args s = cmdRefuse St.busy 0 s := by
  rw [windowWrite, if_neg (Nat.not_le.mpr entry)]
  simp only [ite_windowPlace_eq_none place]
  exact if_pos kept

theorem windowWrite_of_room (free : ¬WindowKept args s) (room : (windowOfWords args 2).valid = true →
      ∀ n ≤ mibs (windowOfWords args 2).size, quotaRefusal s (windowOfWords args 2).partition 3 n = none) :
    windowWrite args s = cmdOk (storeWindow args s) := by
  rw [windowWrite, if_neg (Nat.not_le.mpr entry)]
  simp only [ite_windowPlace_eq_none place]
  refine (if_neg free).trans ?_
  have charged {c : Prop} [Decidable c] {n : Nat} (few : n ≤ mibs (windowOfWords args 2).size) :
      (if (windowOfWords args 2).valid = true ∧ c then quotaRefusal s (windowOfWords args 2).partition 3 n else none) = none :=
    ite_eq_right_iff.mpr fun taken => room taken.1 n few
  rw [charged (Nat.sub_le ..)]
  rfl

end

/-! ### MEM_POOL (R196) -/

/-- The size in GiB that MEM_POOL gives is one that the pool can have (R196). -/
def PoolSize (args : List Word) : Prop := 8 ≤ argN args 1 ∧ argN args 1 ≤ 256 ∧ argN args 1 % 8 = 0

/-- Every valid window ends below a pool of that size. -/
def PoolClear (args : List Word) (s : State) : Prop :=
  ∀ e ∈ s.mem.windows, e.2.valid = true → e.2.base + e.2.size ≤ 0x9000000000 - argN args 1 * 2 ^ 30

/-- The pool holds something: a spill area, in force or asked for, or a context. -/
def PoolHolds (s : State) : Prop := spillWanted s ≠ 0 ∨ ∃ e ∈ s.coll, ctxUsed e.2 = true

theorem poolHolds_iff (s : State) : PoolHolds s ↔ (spillWanted s ≠ 0 ∨ (s.coll.any fun e => ctxUsed e.2) = true) := by
  rw [PoolHolds, List.any_eq_true]

theorem not_poolClear_iff (args : List Word) (s : State) : ¬PoolClear args s ↔ (s.mem.windows.any fun e =>
    e.2.valid && decide (granarySize - argN args 1 * gib < e.2.base + e.2.size)) = true := by
  simp only [PoolClear, List.any_eq_true, Bool.and_eq_true, decide_eq_true_eq, not_forall, Nat.not_le, exists_prop]
  rfl

theorem spillWanted_of_none {s : State} (size : s.core.spillGib = 0) (pending : pendingSpills s = []) : spillWanted s = 0 := by
  rw [spillWanted, pending, size, List.foldl_nil]

theorem fetched_poolHolds (i : Instr) (s : State) : PoolHolds (fetched i s) ↔ PoolHolds s := by
  simp only [PoolHolds, fetched_spillWanted, fetched_coll]

theorem fetched_poolClear (i : Instr) (args : List Word) (s : State) : PoolClear args (fetched i s) ↔ PoolClear args s := by
  simp only [PoolClear, fetched_mem]

section
variable {args : List Word} {s : State}

theorem memPool_of_badSize (h : ¬PoolSize args) : memPool args s = cmdRefuse St.badArgument 1 s :=
  if_pos (by unfold PoolSize at h; omega)

variable (size : PoolSize args)
include size

theorem memPool_of_size : memPool args s =
    if (s.mem.windows.any fun e => e.2.valid && decide (granarySize - argN args 1 * gib < e.2.base + e.2.size)) = true then
      cmdRefuse St.badArgument 1 s
    else if spillWanted s ≠ 0 ∨ (s.coll.any fun e => ctxUsed e.2) = true then cmdRefuse St.busy 0 s
    else cmdOk (s.modMem fun m => { m with poolGib := argN args 1 }) :=
  if_neg (by unfold PoolSize at size; omega)

theorem memPool_of_windowAbove (h : ¬PoolClear args s) : memPool args s = cmdRefuse St.badArgument 1 s :=
  (memPool_of_size size).trans (if_pos ((not_poolClear_iff args s).mp h))

variable (clear : PoolClear args s)
include clear

theorem memPool_of_holds (h : PoolHolds s) : memPool args s = cmdRefuse St.busy 0 s :=
  (memPool_of_size size).trans ((if_neg (mt (not_poolClear_iff args s).mpr (not_not.mpr clear))).trans
    (if_pos ((poolHolds_iff s).mp h)))

theorem memPool_of_empty (h : ¬PoolHolds s) : memPool args s = cmdOk (s.modMem fun m => { m with poolGib := argN args 1 }) :=
  (memPool_of_size size).trans ((if_neg (mt (not_poolClear_iff args s).mpr (not_not.mpr clear))).trans
    (if_neg (mt (poolHolds_iff s).mpr h)))

end

/-! ### MEM_LOFT (R200) -/

/-- A barn has room for the staging cells that MEM_LOFT gives it. -/
def LoftFits (args : List Word) (s : State) : Prop :=
  4096 ≤ argN args 2 ∧ argN args 2 % 1024 = 0 ∧
    argN args 2 + (theBarn s (argN args 1)).bufCells + (theBarn s (argN args 1)).scratchCells + 4096 ≤ 65536

/-- The barn has the given staging cells, and an empty cache where they move. -/
def setStaging (args : List Word) (s : State) : State :=
  modBarn (argN args 1) (fun x =>
    { x with stageCells := argN args 2, cache := if argN args 2 = x.stageCells then x.cache else [] }) s

theorem fetched_loftFits (i : Instr) (args : List Word) (s : State) : LoftFits args (fetched i s) ↔ LoftFits args s := by
  simp only [LoftFits, fetched_theBarn]

section
variable {args : List Word} {s : State}

theorem memLoft_of_noBarn (h : 16 ≤ argN args 1) : memLoft args s = cmdRefuse St.badArgument 1 s := if_pos h

variable (barn : argN args 1 < 16)
include barn

theorem memLoft_of_noRoom (h : ¬LoftFits args s) : memLoft args s = cmdRefuse St.badArgument 2 s :=
  (if_neg (Nat.not_le.mpr barn)).trans (if_pos (by unfold LoftFits at h; omega))

variable (fits : LoftFits args s)
include fits

theorem memLoft_of_fits : memLoft args s =
    if accIn s (argN args 1) = true then cmdRefuse St.busy 0 s else cmdOk (setStaging args s) :=
  (if_neg (Nat.not_le.mpr barn)).trans (if_neg (by unfold LoftFits at fits; omega))

theorem memLoft_of_accumulators (h : accIn s (argN args 1) = true) : memLoft args s = cmdRefuse St.busy 0 s :=
  (memLoft_of_fits barn fits).trans (if_pos h)

theorem memLoft_of_free (h : accIn s (argN args 1) = false) : memLoft args s = cmdOk (setStaging args s) :=
  (memLoft_of_fits barn fits).trans (if_neg (by simp [h]))

end

/-! ### MEM_SCRATCH (R204) -/

/-- The scratchpad that MEM_SCRATCH gives a barn leaves its buffer, its staging cells and 4,096 cells of cache. -/
def ScratchFits (args : List Word) (s : State) : Prop :=
  argN args 2 + (theBarn s (argN args 1)).bufCells + (theBarn s (argN args 1)).stageCells + 4096 ≤ 65536

/-- Something is in a barn, which then cannot be scratchpad as a whole. -/
def BarnHolds (s : State) (b : Nat) : Prop :=
  barnPortEnabled s b = true ∨ accIn s b = true ∨ stagedIn s b = true ∨ (theBarn s b).cells ≠ []

/-- The barn has the given scratchpad: cells that it gives up are zeroed, and of a cache that loses cells the lines stay that fit. -/
def setScratch (args : List Word) (s : State) : State :=
  let b := argN args 1
  let n := argN args 2
  let old := (theBarn s b).scratchCells
  modBarn b (fun x => { x with scratchCells := n, cache := if old < n then fitLines { x with scratchCells := n } else x.cache })
    (if n < old then daZero (0x300000000000 + b * 0x1000000 + n * 256) ((old - n) * 256) s else s)

theorem fetched_scratchFits (i : Instr) (args : List Word) (s : State) : ScratchFits args (fetched i s) ↔ ScratchFits args s := by
  simp only [ScratchFits, fetched_theBarn]

theorem fetched_barnHolds (i : Instr) (s : State) (b : Nat) : BarnHolds (fetched i s) b ↔ BarnHolds s b := by
  simp only [BarnHolds, fetched_barnPortEnabled, fetched_accIn, fetched_stagedIn, fetched_theBarn]

/-- Only what the changes make of the barn as it is matters. -/
theorem modBarn_congr {b : Nat} {f g : Barn → Barn} {s : State} (h : f (theBarn s b) = g (theBarn s b)) :
    modBarn b f s = modBarn b g s := by
  simp only [modBarn, State.modCore, tmod]
  rw [show f (tget s.core.barns {} b) = g (tget s.core.barns {} b) from h]

@[simp] theorem theBarn_daZero (a n : Nat) (s : State) (b : Nat) : theBarn (daZero a n s) b = theBarn s b := rfl

section
variable {args : List Word} {s : State}

theorem memScratch_of_noBarn (h : 16 ≤ argN args 1) : memScratch args s = cmdRefuse St.badArgument 1 s := if_pos h

variable (barn : argN args 1 < 16)
include barn

theorem memScratch_of_noRoom (some_ : argN args 2 ≠ 0) (part : argN args 2 ≠ 65536) (h : ¬ScratchFits args s) :
    memScratch args s = cmdRefuse St.badArgument 2 s :=
  (if_neg (Nat.not_le.mpr barn)).trans (if_pos ⟨some_, part, Nat.not_le.mp h⟩)

theorem memScratch_of_holds (whole : argN args 2 = 65536) (h : BarnHolds s (argN args 1)) :
    memScratch args s = cmdRefuse St.busy 0 s :=
  (if_neg (Nat.not_le.mpr barn)).trans ((if_neg fun ⟨_, part, _⟩ => part whole).trans (if_pos ⟨whole, h⟩))

theorem memScratch_of_good (h : argN args 2 = 0 ∨ ScratchFits args s ∨ argN args 2 = 65536 ∧ ¬BarnHolds s (argN args 1)) :
    memScratch args s = cmdOk (setScratch args s) := by
  have sized : ¬(argN args 2 ≠ 0 ∧ argN args 2 ≠ 65536 ∧
      65536 < argN args 2 + (theBarn s (argN args 1)).bufCells + (theBarn s (argN args 1)).stageCells + 4096) := by
    unfold ScratchFits at h
    omega
  have free : ¬(argN args 2 = 65536 ∧ BarnHolds s (argN args 1)) := fun ⟨whole, holds⟩ => by
    rcases h with none_ | fits | ⟨_, empty⟩
    · omega
    · unfold ScratchFits at fits
      omega
    · exact empty holds
  refine (if_neg (Nat.not_le.mpr barn)).trans ((if_neg sized).trans ((if_neg free).trans (congrArg cmdOk (modBarn_congr ?_))))
  split <;> rfl

end

/-! ### MEM_HINT_WRITE (R203) -/

/-- The entry that MEM_HINT_WRITE gives. -/
def givenHint (args : List Word) : HintEntry :=
  ⟨nfld (arg64 args 2) 63 63 == 1, nfld (arg64 args 2) 62 61, nfld (arg64 args 2) 47 0, nfld (arg64 args 4) 47 0⟩

/-- It stands in its place, whose copies no longer fail. -/
def storeHint (args : List Word) (s : State) : State :=
  clearParity .hint (· == argN args 1) (s.modMem fun m => { m with hints := tset m.hints {} (argN args 1) (givenHint args) })

theorem hints_storeHint (args : List Word) (s : State) (k : Nat) : tget (storeHint args s).mem.hints {} k =
    if k = argN args 1 then givenHint args else tget s.mem.hints {} k :=
  (tget_tset_any ..).trans (if_congr eq_comm rfl rfl)

theorem hintWrite_of_good {args : List Word} {s : State} (entry : argN args 1 < 256)
    (good : (givenHint args).valid = true → (givenHint args).base % 2 ^ 20 = 0 ∧ (givenHint args).size % 2 ^ 20 = 0 ∧
      inOneTier (givenHint args).base 0 = true ∧ inOneTier (givenHint args).base (givenHint args).size = true) :
    hintWrite args s = cmdOk (storeHint args s) := by
  have base : ¬((givenHint args).valid = true ∧ ((givenHint args).base % mib ≠ 0 ∨ (!inOneTier (givenHint args).base 0) = true)) :=
    fun ⟨valid, bad⟩ => by
      obtain ⟨aligned, -, inside, -⟩ := good valid
      exact bad.elim (· aligned) (by simp [inside])
  have size : ¬((givenHint args).valid = true ∧
      ((givenHint args).size % mib ≠ 0 ∨ (!inOneTier (givenHint args).base (givenHint args).size) = true)) := fun ⟨valid, bad⟩ => by
    obtain ⟨-, aligned, -, inside⟩ := good valid
    exact bad.elim (· aligned) (by simp [inside])
  exact (if_neg (Nat.not_le.mpr entry)).trans ((if_neg base).trans (if_neg size))

/-! ### MEM_BAR2_MAP (R205) and MEM_ARB_CONFIG (R208, R211) -/

section
variable {args : List Word} {s : State}

theorem bar2Map_of_granary (target : argN args 1 = 0) (aligned : arg64 args 2 % bar2Size = 0)
    (below : arg64 args 2 + bar2Size ≤ poolBase s) :
    bar2Map args s = cmdOk (s.modMem fun m => { m with bar2 := some (arg64 args 2) }) := by
  simp only [bar2Map, target]
  exact if_neg (not_or.mpr ⟨not_not.mpr aligned, Nat.not_lt.mpr below⟩)

theorem bar2Map_of_loft (target : argN args 1 = 1) : bar2Map args s = cmdOk (s.modMem fun m => { m with bar2 := none }) := by
  simp only [bar2Map, target]

theorem arbConfig_of_good (burst : 1 ≤ argN args 1 ∧ argN args 1 ≤ 256) (wait : 1 ≤ argN args 2 ∧ argN args 2 ≤ 255)
    (watchdog : 2 ≤ argN args 3 ∧ argN args 3 ≤ 1000) : arbConfig args s =
      cmdOk (s.modMem fun m => { m with burstLimit := argN args 1, waitLimit := argN args 2, wdUs := argN args 3 }) :=
  (if_neg (by omega)).trans ((if_neg (by omega)).trans (if_neg (by omega)))

end

end Sys2Proof.Machine

namespace Sys2Proof.Proofs

open Sys2Proof.Machine

/-- Settles O32: each clause is the lemma that says what its command does with the operands that the clause describes. -/
theorem memoryMapCommands : Obligations.MemoryMapCommands := by
  unfold Obligations.MemoryMapCommands
  refine ⟨?window, ?windowRefused, ?poolRefused, ?loftRefused, ?scratchRefused, ?pool, ?loft, ?scratch, ?hint, ?bar2, ?arb⟩
  case window =>
    intro h args s i w acc entry good free
    have placed : w.valid = false ∨ windowPlace (fetched i s) (argN args 1) w = none := by
      cases valid : w.valid with
      | false => exact .inl rfl
      | true =>
        obtain ⟨owned, base, size, nonempty, below, granary, unscrubbed, apart, -, -⟩ := good valid
        exact .inr (windowPlace_of_fits (fetched_windowFits i ⟨owned, base, size, nonempty, below, granary, unscrubbed, apart⟩))
    have unkept : ¬WindowKept args (fetched i s) := by
      simp only [WindowKept, fetched_theWindow, fetched_thePart, fetched_windowInUse]
      rintro ⟨valid, retires | ⟨-, used⟩⟩
      · exact (free valid).1 retires
      · exact Bool.false_ne_true ((free valid).2.symm.trans used)
    have room (valid : w.valid = true) (n : Nat) (few : n ≤ mibs w.size) : quotaRefusal (fetched i s) w.partition 3 n = none := by
      obtain ⟨-, -, -, -, -, -, -, -, active, room⟩ := good valid
      apply quotaRefusal_of_room
      · rwa [fetched_thePart]
      · rw [fetched_thePart, fetched_chargeOf]
        omega
    refine ⟨storeWindow args (fetched i s),
      run_ok rfl acc (exec_memWindowWrite h args s) (windowWrite_of_room entry placed unkept room), fun k => ?_, ?_⟩
    · rw [theWindow_storeWindow, fetched_theWindow]
    · simp only [storeWindow, clearParity, State.modRouting, State.modMem, fetched_mem, fetched_routing]
  case windowRefused =>
    intro h args s i w old acc
    have refused {st d : Nat} (hb : windowWrite args (fetched i s) = cmdRefuse st d (fetched i s)) :
        exec i s = .next (refusedEnd i s st d) := run_refused rfl acc (exec_memWindowWrite h args s) hb
    refine ⟨fun no => refused (windowWrite_of_noEntry no),
      fun entry valid st d place => refused (windowWrite_of_misplaced entry valid place),
      fun entry place valid kept => refused (windowWrite_of_kept entry place ?_), takesFrom_iff old w, windowInUse_iff s old⟩
    simp only [WindowKept, fetched_theWindow, fetched_thePart, fetched_windowInUse]
    exact ⟨valid, kept.imp_right And.symm⟩
  case poolRefused =>
    intro h args s i range clear acc
    have refused {st d : Nat} (hb : memPool args (fetched i s) = cmdRefuse st d (fetched i s)) :
        exec i s = .next (refusedEnd i s st d) := run_refused rfl acc (exec_memPool h args s) hb
    refine ⟨fun bad => refused ?_,
      fun size apart holds => refused (memPool_of_holds size ((fetched_poolClear i args s).mpr apart)
        ((fetched_poolHolds i s).mpr holds))⟩
    by_cases size : PoolSize args
    · exact memPool_of_windowAbove size (mt (fetched_poolClear i args s).mp (bad.resolve_left (not_not.mpr size)))
    · exact memPool_of_badSize size
  case loftRefused =>
    intro h args s i n x acc
    have refused {st d : Nat} (hb : memLoft args (fetched i s) = cmdRefuse st d (fetched i s)) :
        exec i s = .next (refusedEnd i s st d) := run_refused rfl acc (exec_memLoft h args s) hb
    exact ⟨fun no => refused (memLoft_of_noBarn no),
      fun barn bad => refused (memLoft_of_noRoom barn (mt (fetched_loftFits i args s).mp fun ⟨least, whole, room⟩ =>
        bad.elim (Nat.not_lt.mpr least) (·.elim (· whole) (Nat.not_lt.mpr room)))),
      fun barn least whole room held => refused (memLoft_of_accumulators barn
        ((fetched_loftFits i args s).mpr ⟨least, whole, room⟩) ((fetched_accIn ..).trans held))⟩
  case scratchRefused =>
    intro h args s i b n x acc
    have refused {st d : Nat} (hb : memScratch args (fetched i s) = cmdRefuse st d (fetched i s)) :
        exec i s = .next (refusedEnd i s st d) := run_refused rfl acc (exec_memScratch h args s) hb
    exact ⟨fun no => refused (memScratch_of_noBarn no),
      fun barn some_ part full => refused (memScratch_of_noRoom barn some_ part
        (mt (fetched_scratchFits i args s).mp (Nat.not_le.mpr full))),
      fun barn whole holds => refused (memScratch_of_holds barn whole ((fetched_barnHolds i s b).mpr holds))⟩
  case pool =>
    intro h args s i acc least most whole clear size pending unused
    have empty : ¬PoolHolds s := by
      rintro (spills | ⟨e, listed, used⟩)
      · exact spills (spillWanted_of_none size pending)
      · exact Bool.false_ne_true ((unused e listed).symm.trans used)
    exact run_ok rfl acc (exec_memPool h args s) (memPool_of_empty ⟨least, most, whole⟩ ((fetched_poolClear i args s).mpr clear)
      (mt (fetched_poolHolds i s).mp empty))
  case loft =>
    intro h args s i b n acc barn least whole room free
    exact run_ok rfl acc (exec_memLoft h args s) (memLoft_of_free barn ((fetched_loftFits i args s).mpr ⟨least, whole, room⟩)
      ((fetched_accIn ..).trans free))
  case scratch =>
    intro h args s i b n old whole acc barn good
    have runs := run_ok rfl acc (exec_memScratch h args s) (memScratch_of_good barn (s := fetched i s) ?_)
    · simpa only [setScratch, fetched_theBarn] using runs
    · rw [fetched_scratchFits, fetched_barnHolds]
      refine good.imp_right (Or.imp_right fun ⟨all, port, acc_, staged, cells⟩ => ⟨all, ?_⟩)
      rintro (enabled | held | stages | stored)
      · exact Bool.false_ne_true (port.symm.trans enabled)
      · exact Bool.false_ne_true (acc_.symm.trans held)
      · exact Bool.false_ne_true (staged.symm.trans stages)
      · exact stored cells
  case hint =>
    intro h args s i base size valid acc entry good
    refine ⟨storeHint args (fetched i s), run_ok rfl acc (exec_memHintWrite h args s) (hintWrite_of_good entry good),
      fun k => ?_, ?_⟩
    · rw [hints_storeHint, fetched_mem]
      rfl
    · simp only [storeHint, clearParity, State.modRouting, State.modMem, fetched_mem, fetched_routing]
  case bar2 =>
    intro h args s i acc
    exact ⟨fun target aligned below => run_ok rfl acc (exec_memBar2Map h args s)
        (bar2Map_of_granary target aligned ((fetched_poolBase i s).symm ▸ below)),
      fun target => run_ok rfl acc (exec_memBar2Map h args s) (bar2Map_of_loft target)⟩
  case arb =>
    intro h args s i acc burst1 burst2 wait1 wait2 watchdog1 watchdog2
    exact run_ok rfl acc (exec_memArbConfig h args s)
      (arbConfig_of_good ⟨burst1, burst2⟩ ⟨wait1, wait2⟩ ⟨watchdog1, watchdog2⟩)

end Sys2Proof.Proofs
end

section
/-! SUPPORT. The service commands of the memory tiers (R206, R213, R218, R220, R329): each refusal, and what a command that passes its
checks sets or begins. -/

namespace Sys2Proof.Machine

/-! ### After the fetch of an entry -/

@[simp] theorem fetched_populatedEnd (i : Instr) (s : State) (a : Nat) : populatedEnd (fetched i s) a = populatedEnd s a := by
  rw [fetched_eq]
  rfl
@[simp] theorem fetched_coveredTo (i : Instr) (s : State) (n a b : Nat) : coveredTo (fetched i s) n a b = coveredTo s n a b := by
  induction n generalizing a with
  | zero => rfl
  | succ n ih => simp only [coveredTo, fetched_populatedEnd, ih]
@[simp] theorem fetched_populated (i : Instr) (s : State) (a n : Nat) : populated (fetched i s) a n = populated s a n := by
  simp only [populated, fetched_populatedEnd, fetched_coveredTo]
@[simp] theorem fetched_windowAt (i : Instr) (s : State) (o : Nat) : windowAt (fetched i s) o = windowAt s o := by
  simp only [windowAt, parityBad, liveHalf, fetched_mem, fetched_routing, fetched_power]
@[simp] theorem fetched_covered (i : Instr) (s : State) (p : Nat) (wr : Bool) (fuel a b : Nat) :
    covered (fetched i s) p wr fuel a b = covered s p wr fuel a b := by
  induction fuel generalizing a with
  | zero => rfl
  | succ fuel ih => simp only [covered, fetched_windowAt, ih]
@[simp] theorem fetched_sideOk (i : Instr) (s : State) (p : Nat) (wr : Bool) (a n : Nat) :
    sideOk (fetched i s) p wr a n = sideOk s p wr a n := by
  simp only [sideOk, fetched_covered]
@[simp] theorem fetched_tierReady (i : Instr) (s : State) (a : Nat) : tierReady (fetched i s) a = tierReady s a := by
  simp only [tierReady, fetched_mem]
@[simp] theorem fetched_moveTouches (i : Instr) (s : State) (tier : Nat) : moveTouches (fetched i s) tier = moveTouches s tier := by
  simp only [moveTouches, fetched_mem]
@[simp] theorem fetched_tierState (i : Instr) (s : State) (t : Nat) : tierState (fetched i s) t = tierState s t := by
  simp only [tierState, fetched_mem]

/-! ### MEM_MOVE (R206) -/

/-- The move that MEM_MOVE asks for. -/
def givenMove (c : CmdRef) (args : List Word) : Move :=
  ⟨argN args 1, arg64 args 2, arg64 args 4, arg64 args 6, argN args 8, argN args 9, c⟩

/-- Its partition and hints are in range, its ranges aligned and populated. -/
structure MoveRanges (args : List Word) (s : State) : Prop where
  partition : argN args 1 < 4096
  src : arg64 args 2 % 16 = 0
  dst : arg64 args 4 % 16 = 0
  len : arg64 args 6 % 16 = 0
  srcThere : populated s (arg64 args 2) (arg64 args 6) = true
  dstThere : populated s (arg64 args 4) (arg64 args 6) = true
  rdHint : argN args 8 ≤ 3
  wrHint : argN args 9 ≤ 3

/-- Its partition may read its source and write its destination. -/
def MovePermitted (args : List Word) (s : State) : Prop :=
  sideOk s (argN args 1) false (arg64 args 2) (arg64 args 6) = true ∧ sideOk s (argN args 1) true (arg64 args 4) (arg64 args 6) = true

/-- There is room for one more move, and both its tiers are in service. -/
def MoveReady (args : List Word) (s : State) : Prop :=
  s.mem.moves.length < 16 ∧ tierReady s (arg64 args 2) = true ∧ tierReady s (arg64 args 4) = true

section
variable (c : CmdRef) {args : List Word} {s : State} (ranges : MoveRanges args s)
include ranges

/-- On good ranges the partition, its permissions and the tiers decide, in this order. -/
theorem memMove_of_ranges : memMove c args s =
    if (thePart s (argN args 1)).state = 2 then cmdRefuse St.partitionRetiring 0 s
    else if (!sideOk s (argN args 1) false (arg64 args 2) (arg64 args 6)) = true ∨
        (!sideOk s (argN args 1) true (arg64 args 4) (arg64 args 6)) = true then cmdRefuse St.refusedPermission 0 s
    else if 16 ≤ s.mem.moves.length ∨ (!tierReady s (arg64 args 2)) = true ∨ (!tierReady s (arg64 args 4)) = true then
      cmdRefuse St.busy 0 s
    else cmdDetach c (s.modMem fun x => { x with moves := x.moves ++ [givenMove c args] }) := by
  obtain ⟨partition, src, dst, len, srcThere, dstThere, rdHint, wrHint⟩ := ranges
  refine (if_neg (Nat.not_le.mpr partition)).trans ((if_neg ?_).trans ((if_neg ?_).trans ((if_neg (not_not.mpr len)).trans
    ((if_neg (Nat.not_lt.mpr rdHint)).trans (if_neg (Nat.not_lt.mpr wrHint))))))
  · simp [src, srcThere]
  · simp [dst, dstThere]

theorem memMove_of_retiring (h : (thePart s (argN args 1)).state = 2) : memMove c args s = cmdRefuse St.partitionRetiring 0 s :=
  (memMove_of_ranges c ranges).trans (if_pos h)

variable (lives : (thePart s (argN args 1)).state ≠ 2)
include lives

theorem memMove_of_notPermitted (h : ¬MovePermitted args s) : memMove c args s = cmdRefuse St.refusedPermission 0 s :=
  (memMove_of_ranges c ranges).trans ((if_neg lives).trans
    (if_pos (by simpa [MovePermitted, -not_and, not_and_or] using h)))

variable (permitted : MovePermitted args s)
include permitted

theorem memMove_of_permitted : memMove c args s =
    if 16 ≤ s.mem.moves.length ∨ (!tierReady s (arg64 args 2)) = true ∨ (!tierReady s (arg64 args 4)) = true then
      cmdRefuse St.busy 0 s
    else cmdDetach c (s.modMem fun x => { x with moves := x.moves ++ [givenMove c args] }) :=
  (memMove_of_ranges c ranges).trans ((if_neg lives).trans (if_neg (by simpa [MovePermitted] using permitted)))

theorem memMove_of_notReady (h : ¬MoveReady args s) : memMove c args s = cmdRefuse St.busy 0 s :=
  (memMove_of_permitted c ranges lives permitted).trans (if_pos (by simpa [MoveReady, -not_and, not_and_or] using h))

theorem memMove_of_ready (h : MoveReady args s) :
    memMove c args s = cmdDetach c (s.modMem fun x => { x with moves := x.moves ++ [givenMove c args] }) :=
  (memMove_of_permitted c ranges lives permitted).trans (if_neg (by simpa [MoveReady] using h))

end

/-! ### MEM_THERMAL (R213) -/

section
variable {args : List Word} {s : State}

theorem memThermal_of_badMode (h : 1 < argN args 1) : memThermal args s = cmdRefuse St.badArgument 1 s := if_pos h

variable (mode : argN args 1 ≤ 1)
include mode

theorem memThermal_of_badThr (h : argN args 2 < 75 ∨ 95 < argN args 2) : memThermal args s = cmdRefuse St.badArgument 2 s :=
  (if_neg (Nat.not_lt.mpr mode)).trans (if_pos h)

theorem memThermal_of_good (low : 75 ≤ argN args 2) (high : argN args 2 ≤ 95) : memThermal args s =
    cmdOk (s.modMem fun m => { m with forerunner := argN args 1 == 1, thr := argN args 2 }) :=
  (if_neg (Nat.not_lt.mpr mode)).trans (if_neg (by omega))

end

/-! ### MEM_HOLD (R220) -/

/-- Nothing is on the Granary: no port is enabled, no window valid, and the pool holds nothing. -/
def GranaryClear (s : State) : Prop :=
  (∀ e ∈ s.link.ports, e.2.configured = true → e.2.enabled = false) ∧ (∀ e ∈ s.mem.windows, e.2.valid = false) ∧
    spillWanted s = 0 ∧ ∀ e ∈ s.coll, ctxUsed e.2 = false

theorem granaryClear_iff (s : State) : GranaryClear s ↔
    ¬((s.link.ports.any fun e => e.2.configured && e.2.enabled) = true ∨ (s.mem.windows.any fun e => e.2.valid) = true ∨
      spillWanted s ≠ 0 ∨ (s.coll.any fun e => ctxUsed e.2) = true) := by
  simp [GranaryClear, not_or]

theorem fetched_granaryClear (i : Instr) (s : State) : GranaryClear (fetched i s) ↔ GranaryClear s := by
  simp only [GranaryClear, fetched_link, fetched_mem, fetched_coll, fetched_spillWanted]

section
variable {args : List Word} {s : State}

theorem memHold_of_noTier (h : 2 < argN args 1) : memHold args s = cmdRefuse St.badArgument 1 s := by
  rw [memHold]
  split
  · omega
  · omega
  · omega
  · rfl

theorem memHold_silo (h : argN args 1 = 2) : memHold args s = cmdRefuse St.busy 0 s := by
  simp only [memHold, h]

section
variable (tier : argN args 1 = 0)
include tier

theorem memHold_granary_held (held : s.mem.granary = .held) : memHold args s = cmdOk s := by
  simp only [memHold, tier, held, if_true]

theorem memHold_granary_inUse (unheld : s.mem.granary ≠ .held) (h : s.mem.granary ≠ .inService ∨ ¬GranaryClear s) :
    memHold args s = cmdRefuse St.busy 0 s := by
  rw [granaryClear_iff, not_not] at h
  simp only [memHold, tier]
  exact (if_neg unheld).trans (if_pos h)

theorem memHold_granary_clear (serves : s.mem.granary = .inService) (clear : GranaryClear s) :
    memHold args s = cmdOk (s.modMem fun m => { m with granary := .held }) := by
  rw [granaryClear_iff] at clear
  simp only [memHold, tier]
  exact (if_neg (by simp [serves])).trans (if_neg (not_or.mpr ⟨not_not.mpr serves, clear⟩))

end

variable (tier : argN args 1 = 1)
include tier

theorem memHold_barnStore_held (held : s.mem.barnStore = .held) : memHold args s = cmdOk s := by
  simp only [memHold, tier, held, if_true]

theorem memHold_barnStore_inUse (unheld : s.mem.barnStore ≠ .held) (h : s.mem.barnStore ≠ .inService ∨ moveTouches s 1 = true) :
    memHold args s = cmdRefuse St.busy 0 s := by
  simp only [memHold, tier]
  exact (if_neg unheld).trans (if_pos h)

theorem memHold_barnStore_clear (serves : s.mem.barnStore = .inService) (clear : moveTouches s 1 = false) :
    memHold args s = cmdOk (s.modMem fun m => { m with barnStore := .held }) := by
  simp only [memHold, tier]
  exact (if_neg (by simp [serves])).trans (if_neg (by simp [serves, clear]))

end

/-! ### MEM_RELEASE (R220) -/

section
variable (c : CmdRef) {args : List Word} {s : State}

theorem memRelease_of_noTier (h : 2 ≤ argN args 1) : memRelease c args s = cmdRefuse St.badArgument 1 s := if_pos h

variable (tier : argN args 1 < 2)
include tier

theorem memRelease_of_busy (h : tierState s (argN args 1) = .releasing ∨ s.mem.marginCmd ≠ none) :
    memRelease c args s = cmdRefuse St.busy 0 s :=
  (if_neg (Nat.not_le.mpr tier)).trans (if_pos (h.imp_right Option.isSome_iff_ne_none.mpr))

variable (still : tierState s (argN args 1) ≠ .releasing) (idle : s.mem.marginCmd = none)
include still idle

theorem memRelease_of_idle : memRelease c args s =
    if tierState s (argN args 1) ≠ .held then cmdRefuse St.badArgument 1 s
    else cmdDetach c ((setTier (argN args 1) .releasing s).modMem fun m =>
      { m with releaseCmds := m.releaseCmds ++ [(argN args 1, c)] }) :=
  (if_neg (Nat.not_le.mpr tier)).trans (if_neg (by simp [still, idle]))

theorem memRelease_of_notHeld (h : tierState s (argN args 1) ≠ .held) : memRelease c args s = cmdRefuse St.badArgument 1 s :=
  (memRelease_of_idle c tier still idle).trans (if_pos h)

theorem memRelease_of_held (h : tierState s (argN args 1) = .held) : memRelease c args s =
    cmdDetach c ((setTier (argN args 1) .releasing s).modMem fun m =>
      { m with releaseCmds := m.releaseCmds ++ [(argN args 1, c)] }) :=
  (memRelease_of_idle c tier still idle).trans (if_neg (not_not.mpr h))

end

/-! ### MEM_MARGIN (R220) -/

/-- The channels that MEM_MARGIN names are those of held tiers, and no margining runs. -/
def MarginFree (args : List Word) (s : State) : Prop :=
  (argN args 1 < 256 → s.mem.granary = .held) ∧ (256 < argN args 1 + argN args 2 → s.mem.barnStore = .held) ∧ s.mem.marginCmd = none

theorem marginFree_iff (args : List Word) (s : State) : MarginFree args s ↔
    ¬((argN args 1 < 256 ∧ s.mem.granary ≠ .held) ∨ (256 < argN args 1 + argN args 2 ∧ s.mem.barnStore ≠ .held) ∨
      s.mem.marginCmd.isSome = true) := by
  simp [MarginFree, not_or]

theorem fetched_marginFree (i : Instr) (args : List Word) (s : State) : MarginFree args (fetched i s) ↔ MarginFree args s := by
  simp only [MarginFree, fetched_mem]

section
variable (c : CmdRef) {args : List Word} {s : State}

theorem memMargin_of_noChannel (h : 280 ≤ argN args 1) : memMargin c args s = cmdRefuse St.badArgument 1 s := if_pos h

theorem memMargin_of_badCount (first : argN args 1 < 280) (h : argN args 2 < 1 ∨ 280 < argN args 1 + argN args 2) :
    memMargin c args s = cmdRefuse St.badArgument 2 s :=
  (if_neg (Nat.not_le.mpr first)).trans (if_pos h)

variable (nonempty : 1 ≤ argN args 2) (fits : argN args 1 + argN args 2 ≤ 280)
include nonempty fits

theorem memMargin_of_busy (h : ¬MarginFree args s) : memMargin c args s = cmdRefuse St.busy 0 s :=
  (if_neg (by omega)).trans ((if_neg (by omega)).trans (if_pos (not_not.mp (mt (marginFree_iff args s).mpr h))))

theorem memMargin_of_free (h : MarginFree args s) : memMargin c args s = cmdDetach c (s.modMem fun m =>
    { m with marginCmd := some c, marginAddr := arg64 args 3, marginFirst := argN args 1, marginCount := argN args 2 }) :=
  (if_neg (by omega)).trans ((if_neg (by omega)).trans (if_neg ((marginFree_iff args s).mp h)))

end

/-! ### MEM_SILO_DETACH (R218) -/

/-- A running move touches a Silo port. -/
def SiloTouched (s : State) (c : Nat) : Prop := ∃ m ∈ s.mem.moves, inSilo c m.src m.len = true ∨ inSilo c m.dst m.len = true

theorem siloTouched_iff (s : State) (c : Nat) :
    SiloTouched s c ↔ (s.mem.moves.any fun m => inSilo c m.src m.len || inSilo c m.dst m.len) = true := by
  simp only [SiloTouched, List.any_eq_true, Bool.or_eq_true]

theorem fetched_siloTouched (i : Instr) (s : State) (c : Nat) : SiloTouched (fetched i s) c ↔ SiloTouched s c := by
  simp only [SiloTouched, fetched_mem]

section
variable {args : List Word} {s : State}

theorem siloDetach_of_noPort (h : 2 ≤ argN args 1) : siloDetach args s = cmdRefuse St.badArgument 1 s := if_pos h

variable (port : argN args 1 < 2)
include port

theorem siloDetach_of_touched (h : SiloTouched s (argN args 1)) : siloDetach args s = cmdRefuse St.busy 0 s :=
  (if_neg (Nat.not_le.mpr port)).trans (if_pos ((siloTouched_iff ..).mp h))

theorem siloDetach_of_untouched (h : ¬SiloTouched s (argN args 1)) : siloDetach args s =
    cmdOk (modSilo (argN args 1) (fun x => { x with up := false, detached := true }) s) :=
  (if_neg (Nat.not_le.mpr port)).trans (if_neg (mt (siloTouched_iff ..).mpr h))

end

end Sys2Proof.Machine

namespace Sys2Proof.Proofs

open Sys2Proof.Machine

/-- Settles O33: each clause is the lemma that says what its command does in the state that the clause describes. -/
theorem memoryServiceCommands : Obligations.MemoryServiceCommands := by
  unfold Obligations.MemoryServiceCommands
  refine ⟨?move, ?thermal, ?hold, ?release, ?margin, ?silo⟩
  case move =>
    intro h args s i p src dst len acc partition srcAligned dstAligned lenAligned srcThere dstThere rdHint wrHint
    have run := exec_memMove h args s
    have ranges : MoveRanges args (fetched i s) := ⟨partition, srcAligned, dstAligned, lenAligned,
      (fetched_populated ..).trans srcThere, (fetched_populated ..).trans dstThere, rdHint, wrHint⟩
    have permitted : MovePermitted args (fetched i s) ↔ sideOk s p false src len = true ∧ sideOk s p true dst len = true := by
      simp only [MovePermitted, fetched_sideOk, p, src, dst, len]
    have ready : MoveReady args (fetched i s) ↔
        s.mem.moves.length < 16 ∧ tierReady s src = true ∧ tierReady s dst = true := by
      simp only [MoveReady, fetched_tierReady, fetched_mem, src, dst]
    rw [← fetched_thePart i]
    refine ⟨fun retires => run_refused rfl acc run (memMove_of_retiring _ ranges retires), fun lives bad => ?_,
      fun lives may reach => ?_⟩
    · refine run_refused rfl acc run (memMove_of_notPermitted _ ranges lives (mt permitted.mp ?_))
      rintro ⟨read, write⟩
      simp [read, write] at bad
    · have allowed := permitted.mpr ⟨may, reach⟩
      refine ⟨fun busy => run_refused rfl acc run (memMove_of_notReady _ ranges lives allowed (mt ready.mp ?_)),
        fun room srcReady dstReady => run_detached rfl acc run
          (memMove_of_ready _ ranges lives allowed (ready.mpr ⟨room, srcReady, dstReady⟩))⟩
      rintro ⟨room, srcReady, dstReady⟩
      exact busy.elim (Nat.not_le.mpr room) (by simp [srcReady, dstReady])
  case thermal =>
    intro h args s i acc
    have run := exec_memThermal h args s
    exact ⟨fun mode low high => run_ok rfl acc run (memThermal_of_good mode low high),
      fun bad => run_refused rfl acc run (memThermal_of_badMode bad),
      fun mode bad => run_refused rfl acc run (memThermal_of_badThr mode bad)⟩
  case hold =>
    intro h args s i clear acc
    have run := exec_memHold h args s
    have same := fetched_mem i s
    refine ⟨fun tier => ⟨fun held => ?_, fun serves free => ?_, fun unheld bad => ?_⟩,
      fun tier => ⟨fun held => ?_, fun serves free => ?_, fun unheld bad => ?_⟩,
      fun tier => run_refused rfl acc run (memHold_silo tier), fun bad => run_refused rfl acc run (memHold_of_noTier bad)⟩
    · exact run_ok rfl acc run (memHold_granary_held tier (same ▸ held))
    · exact run_ok rfl acc run (memHold_granary_clear tier (same ▸ serves) ((fetched_granaryClear i s).mpr free))
    · exact run_refused rfl acc run (memHold_granary_inUse tier (same ▸ unheld)
        (bad.imp (same ▸ ·) (mt (fetched_granaryClear i s).mp)))
    · exact run_ok rfl acc run (memHold_barnStore_held tier (same ▸ held))
    · exact run_ok rfl acc run (memHold_barnStore_clear tier (same ▸ serves) ((fetched_moveTouches ..).trans free))
    · exact run_refused rfl acc run (memHold_barnStore_inUse tier (same ▸ unheld)
        (bad.imp (same ▸ ·) (fetched_moveTouches i s 1).trans))
  case release =>
    intro h args s i acc
    have run := exec_memRelease h args s
    rw [← fetched_tierState i, ← fetched_mem i]
    exact ⟨fun bad => run_refused rfl acc run (memRelease_of_noTier _ bad),
      fun tier busy => run_refused rfl acc run (memRelease_of_busy _ tier busy), fun tier still idle =>
        ⟨fun bad => run_refused rfl acc run (memRelease_of_notHeld _ tier still idle bad),
          fun held => run_detached rfl acc run (memRelease_of_held _ tier still idle held)⟩⟩
  case margin =>
    intro h args s i n held acc
    have run := exec_memMargin h args s
    have free : MarginFree args (fetched i s) ↔ held := fetched_marginFree i args s
    exact ⟨fun bad => run_refused rfl acc run (memMargin_of_noChannel _ bad),
      fun first bad => run_refused rfl acc run (memMargin_of_badCount _ first bad), fun nonempty fits =>
        ⟨fun ok => run_detached rfl acc run (memMargin_of_free _ nonempty fits (free.mpr ok)),
          fun no => run_refused rfl acc run (memMargin_of_busy _ nonempty fits (mt free.mp no))⟩⟩
  case silo =>
    intro h args s i c touched acc
    have run := exec_memSiloDetach h args s
    have touches : SiloTouched (fetched i s) c ↔ touched := fetched_siloTouched i s c
    exact ⟨fun bad => run_refused rfl acc run (siloDetach_of_noPort bad),
      fun port is => run_refused rfl acc run (siloDetach_of_touched port (touches.mpr is)),
      fun port no => run_ok rfl acc run (siloDetach_of_untouched port (mt touches.mp no))⟩

end Sys2Proof.Proofs
end

section
/-! SUPPORT. A stack's temperature that leaves its level as it was (R213, R214, R430). -/

namespace Sys2Proof.Machine

/-- A reading that keeps the level of its source is stored, and beside that only the cool time may end. -/
theorem thermalRead_of_sameLevel {i temp : Nat} {s : State}
    (same : levelAt (thermalLimits s i) (theSrc s i).level temp = (theSrc s i).level) : thermalRead i temp s =
      coolEnds i temp (modSrc i (fun x => { x with temp := sat 255 temp, level := (theSrc s i).level }) s) := by
  simp only [thermalRead, same, if_true]

/-- A stack above 95 °C ends the cool time. -/
theorem coolEnds_coolSince {i temp : Nat} (stack : i < 8) (hot : 95 < temp) (s : State) :
    (coolEnds i temp s).power.coolSince = none := by
  rw [coolEnds, if_pos ⟨stack, hot⟩, State.modPower_power]

@[simp] theorem modSrc_power (i : Nat) (f : MemSrc → MemSrc) (s : State) : (modSrc i f s).power = s.power := rfl

/-- Stack 0 has entered level 2 and cooled down to 94 °C, which is not 2 °C below the limit of 95 °C; every sensor is cool, and the
time that a restart would need is running. -/
def coolingState : State :=
  { State.reset with
    mem := { State.reset.mem with srcs := [(0, { temp := 94, level := 2 })] },
    power := { State.reset.power with coolSince := some 0 } }

/-- At 96 °C it stays at level 2. -/
theorem levelAt_coolingState : levelAt (thermalLimits coolingState 0) (theSrc coolingState 0).level 96 =
    (theSrc coolingState 0).level := by decide

end Sys2Proof.Machine

namespace Sys2Proof.Proofs

open Sys2Proof.Machine

/-- Refutes O34: the statement has a temperature that keeps its source's level change that source alone, but a stack above 95 °C also
ends the cool time that a restart needs (R430, log entry 134). Stack 0, at level 2 and 94 °C while the cool time runs, is read at
96 °C: it stays at level 2, and the cool time is gone. -/
theorem not_memoryRows : ¬ Obligations.MemoryRows := by
  unfold Obligations.MemoryRows
  rintro ⟨-, -, -, -, -, -, -, -, -, thermal, -⟩
  obtain ⟨t, runs, -, -, frame, -⟩ := thermal 0 96 coolingState
  have read : thermalRead 0 96 coolingState = t := Host.Outcome.next.inj runs
  have gone : t.power.coolSince = none := by
    rw [← read, thermalRead_of_sameLevel levelAt_coolingState]
    exact coolEnds_coolSince (by decide) (by decide) _
  have kept : t.power.coolSince = some 0 := by
    rw [frame levelAt_coolingState, modSrc_power]
    rfl
  exact Option.some_ne_none 0 (kept.symm.trans gone)

end Sys2Proof.Proofs
end

section
/-! SUPPORT. The optical commands (R228, R229, R235, R237, R245): each refusal, and what a command that passes its checks sets or
begins. -/

namespace Sys2Proof.Machine

/-! ### After the fetch of an entry -/

@[simp] theorem fetched_sweepNow (i : Instr) (s : State) : sweepNow (fetched i s) = sweepNow s := by
  simp only [sweepNow, fetched_optics, fetched_time]
@[simp] theorem fetched_theLaser (i : Instr) (s : State) (k : Nat) : theLaser (fetched i s) k = theLaser s k := by
  simp only [theLaser, fetched_optics]
@[simp] theorem fetched_working (i : Instr) (s : State) (k : Nat) : working (fetched i s) k = working s k := by
  simp only [working, fetched_theLaser]
@[simp] theorem fetched_freeSpare (i : Instr) (s : State) (h : Nat) : freeSpare (fetched i s) h = freeSpare s h := by
  simp only [freeSpare, fetched_theLaser, fetched_optics]

/-! ### CAL_CONFIG (R228) -/

/-- The sweep's period from the next sweep on, and the enable at once. -/
def setSweep (args : List Word) (s : State) : State :=
  s.modOptics fun o =>
    { o with sweepS := sweepNow s, calEnable := argN args 2 == 1,
             sweepPend := if argN args 1 = sweepNow s then none
               else some (argN args 1, secU ((secOf s.time.now / sweepNow s + 1) * sweepNow s)),
             slices := if argN args 2 = 1 then o.slices else o.slices.filter fun e => !e.2.waits || e.2.cmds != [] }

section
variable {args : List Word} {s : State}

theorem calConfig_of_badPeriod (h : argN args 1 < 60 ∨ 900 < argN args 1) : calConfig args s = cmdRefuse St.badArgument 1 s :=
  if_pos h

variable (low : 60 ≤ argN args 1) (high : argN args 1 ≤ 900)
include low high

theorem calConfig_of_badEnable (h : 1 < argN args 2) : calConfig args s = cmdRefuse St.badArgument 2 s :=
  (if_neg (by omega)).trans (if_pos h)

theorem calConfig_of_good (h : argN args 2 ≤ 1) : calConfig args s = cmdOk (setSweep args s) :=
  (if_neg (by omega)).trans (if_neg (by omega))

end

/-! ### CAL_LANE (R229) -/

/-- A slice of a barn is in progress. -/
def SliceRuns (s : State) (b : Nat) : Prop := ∃ e ∈ s.optics.slices, e.1 = b ∧ e.2.waits = false

theorem sliceRuns_iff (s : State) (b : Nat) :
    SliceRuns s b ↔ (s.optics.slices.any fun e => e.1 == b && !e.2.waits) = true := by
  simp only [SliceRuns, List.any_eq_true, Bool.and_eq_true, beq_iff_eq, Bool.not_eq_true']

theorem fetched_sliceRuns (i : Instr) (s : State) (b : Nat) : SliceRuns (fetched i s) b ↔ SliceRuns s b := by
  simp only [SliceRuns, fetched_optics]

/-- A lane has a slice, in progress or waiting. -/
def HasSlice (s : State) (l : Nat) : Prop := ∃ e ∈ s.optics.slices, e.2.lane = l

theorem hasSlice_iff (s : State) (l : Nat) : HasSlice s l ↔ (s.optics.slices.any fun e => e.2.lane == l) = true := by
  simp only [HasSlice, List.any_eq_true, beq_iff_eq]

theorem fetched_hasSlice (i : Instr) (s : State) (l : Nat) : HasSlice (fetched i s) l ↔ HasSlice s l := by
  simp only [HasSlice, fetched_optics]

/-- A command joins the slice of a lane. -/
def joinSlice (l : Nat) (c : CmdRef) (s : State) : State :=
  s.modOptics fun o =>
    { o with slices := o.slices.map fun e => if e.2.lane = l then (e.1, { e.2 with cmds := e.2.cmds ++ [c] }) else e }

section
variable (c : CmdRef) {args : List Word} (test : SliceTest) {s : State}

theorem calLane_of_badLane (h : 1024 ≤ argN args 1 ∨ laneState s (argN args 1) = .flue) :
    calLane c args test s = cmdRefuse St.badArgument 1 s := if_pos h

variable (lane : argN args 1 < 1024) (own : laneState s (argN args 1) ≠ .flue)
include lane own

theorem calLane_of_busy (h : SliceRuns s (barnOf (argN args 1))) : calLane c args test s = cmdRefuse St.busy 0 s :=
  (if_neg (not_or.mpr ⟨Nat.not_le.mpr lane, own⟩)).trans (if_pos ((sliceRuns_iff ..).mp h))

variable (idle : ¬SliceRuns s (barnOf (argN args 1)))
include idle

theorem calLane_of_idle : calLane c args test s =
    if (s.optics.slices.any fun e => e.2.lane == argN args 1) = true then
      (joinSlice (argN args 1) c (addDetached c .none s), none)
    else (beginSlice (barnOf (argN args 1)) ⟨argN args 1, false, some test, [c]⟩ (addDetached c .none s), none) :=
  (if_neg (not_or.mpr ⟨Nat.not_le.mpr lane, own⟩)).trans (if_neg (mt (sliceRuns_iff ..).mpr idle))

theorem calLane_joins (h : HasSlice s (argN args 1)) :
    calLane c args test s = (joinSlice (argN args 1) c (addDetached c .none s), none) :=
  (calLane_of_idle c test lane own idle).trans (if_pos ((hasSlice_iff ..).mp h))

theorem calLane_begins (h : ¬HasSlice s (argN args 1)) : calLane c args test s =
    (beginSlice (barnOf (argN args 1)) ⟨argN args 1, false, some test, [c]⟩ (addDetached c .none s), none) :=
  (calLane_of_idle c test lane own idle).trans (if_neg (mt (hasSlice_iff ..).mpr h))

end

/-! ### LANE_BANK (R245) -/

section
variable (c : CmdRef) {args : List Word} {s : State}

theorem laneBank_of_badLane (h : 1024 ≤ argN args 1 ∨ laneState s (argN args 1) = .flue) :
    laneBank c args s = cmdRefuse St.badArgument 1 s := if_pos h

variable (lane : argN args 1 < 1024)
include lane

theorem laneBank_withdraws (h : InUse s (argN args 1)) : laneBank c args s =
    (settleIdle (argN args 1) (askWithdraw (argN args 1) .force
      (modLaneOpt (argN args 1) (fun o => { o with bankCmd := some c }) (addDetached c .none s))), none) := by
  rcases h with h | h <;> simp [laneBank, h, Nat.not_le.mpr lane]

theorem laneBank_of_banked (h : laneState s (argN args 1) = .banked) : laneBank c args s = cmdOk s := by
  simp [laneBank, h, Nat.not_le.mpr lane]

theorem laneBank_of_unused (h : laneState s (argN args 1) = .down ∨ laneState s (argN args 1) = .training) :
    laneBank c args s = cmdOk (bankLane (argN args 1) 5 s) := by
  rcases h with h | h <;> simp [laneBank, h, Nat.not_le.mpr lane]

end

/-! ### LANE_UNBANK (R235) -/

section
variable (c : CmdRef) {args : List Word} {s : State}

theorem laneUnbank_of_notBanked (h : 1024 ≤ argN args 1 ∨ laneState s (argN args 1) ≠ .banked) :
    laneUnbank c args s = cmdRefuse St.badArgument 1 s := if_pos h

variable (lane : argN args 1 < 1024) (banked : laneState s (argN args 1) = .banked)
include lane banked

theorem laneUnbank_of_recovering (h : (laneOpt s (argN args 1)).recovering = true) :
    laneUnbank c args s = cmdRefuse St.busy 0 s :=
  (if_neg (by simp [lane, banked])).trans (if_pos h)

theorem laneUnbank_recovers (h : (laneOpt s (argN args 1)).recovering = false) : laneUnbank c args s =
    (addDetached c .none (modLaneOpt (argN args 1) (fun o =>
      { o with recovering := true, lockFails := 0, excluded := [], unbankCmd := some c }) s), none) :=
  (if_neg (by simp [lane, banked])).trans (if_neg (by simp [h]))

end

/-! ### KILN_SWAP (R237) -/

/-- A swap to a spare runs in a half. -/
def SwapRuns (s : State) (h : Nat) : Prop := ∃ e ∈ s.optics.swaps, e.1 = h ∧ e.2.spare ≠ 127 ∧ e.2.started = true

theorem swapRuns_iff (s : State) (h : Nat) :
    SwapRuns s h ↔ (s.optics.swaps.any fun e => e.1 == h && e.2.spare != 127 && e.2.started) = true := by
  simp only [SwapRuns, List.any_eq_true, Bool.and_eq_true, beq_iff_eq, bne_iff_ne, and_assoc]

theorem fetched_swapRuns (i : Instr) (s : State) (h : Nat) : SwapRuns (fetched i s) h ↔ SwapRuns s h := by
  simp only [SwapRuns, fetched_optics]

/-- A laser works: it is lit as a working laser, or it is being swapped. -/
def LaserWorks (s : State) (k : Nat) : Prop := working s k = true ∨ SwapRuns s (laserHalf k) ∧ (theLaser s k).state = 3

theorem laserWorks_iff (s : State) (k : Nat) : LaserWorks s k ↔ ¬(!working s k &&
    !((s.optics.swaps.any fun e => e.1 == laserHalf k && e.2.spare != 127 && e.2.started) && (theLaser s k).state == 3)) = true := by
  rw [LaserWorks, swapRuns_iff, ← Bool.not_or, Bool.not_eq_true', Bool.not_eq_false, Bool.or_eq_true, Bool.and_eq_true, beq_iff_eq]

theorem fetched_laserWorks (i : Instr) (s : State) (k : Nat) : LaserWorks (fetched i s) k ↔ LaserWorks s k := by
  simp only [LaserWorks, fetched_swapRuns, fetched_working, fetched_theLaser]

/-- A swap of a laser has not started yet. -/
def SwapPending (s : State) (k : Nat) : Prop := ∃ e ∈ s.optics.swaps, e.2.laser = k ∧ e.2.started = false

theorem swapPending_iff (s : State) (k : Nat) :
    SwapPending s k ↔ (s.optics.swaps.any fun e => e.2.laser == k && !e.2.started) = true := by
  simp only [SwapPending, List.any_eq_true, Bool.and_eq_true, beq_iff_eq, Bool.not_eq_true']

theorem fetched_swapPending (i : Instr) (s : State) (k : Nat) : SwapPending (fetched i s) k ↔ SwapPending s k := by
  simp only [SwapPending, fetched_optics]

/-- A command joins the pending swap of a laser. -/
def joinSwap (k : Nat) (c : CmdRef) (s : State) : State :=
  s.modOptics fun o =>
    { o with swaps := o.swaps.map fun e =>
        if e.2.laser = k ∧ !e.2.started then (e.1, { e.2 with cmds := e.2.cmds ++ [c] }) else e }

section
variable (c : CmdRef) {args : List Word} {s : State}

theorem kilnSwap_of_badLaser (h : 80 ≤ argN args 1 ∨ ¬LaserWorks s (argN args 1)) :
    kilnSwap c args s = cmdRefuse St.badArgument 1 s :=
  if_pos (h.imp_right fun bad => not_not.mp (mt (laserWorks_iff ..).mpr bad))

variable (laser : argN args 1 < 80) (works : LaserWorks s (argN args 1))
include laser works

theorem kilnSwap_of_running (h : SwapRuns s (laserHalf (argN args 1))) : kilnSwap c args s = cmdRefuse St.busy 0 s :=
  (if_neg (not_or.mpr ⟨Nat.not_le.mpr laser, (laserWorks_iff ..).mp works⟩)).trans (if_pos ((swapRuns_iff ..).mp h))

variable (idle : ¬SwapRuns s (laserHalf (argN args 1)))
include idle

theorem kilnSwap_of_idle : kilnSwap c args s =
    if (s.optics.swaps.any fun e => e.2.laser == argN args 1 && !e.2.started) = true then
      (joinSwap (argN args 1) c (addDetached c .none s), none)
    else (freeSpare s (laserHalf (argN args 1))).elim (cmdRefuse St.noSpare (laserHalf (argN args 1)) s) fun sp =>
      (queueSwap (argN args 1) sp [c] (addDetached c .none s), none) := by
  refine (if_neg (not_or.mpr ⟨Nat.not_le.mpr laser, (laserWorks_iff ..).mp works⟩)).trans
    ((if_neg (mt (swapRuns_iff ..).mpr idle)).trans ?_)
  cases freeSpare s (laserHalf (argN args 1)) <;> rfl

theorem kilnSwap_joins (h : SwapPending s (argN args 1)) :
    kilnSwap c args s = (joinSwap (argN args 1) c (addDetached c .none s), none) :=
  (kilnSwap_of_idle c laser works idle).trans (if_pos ((swapPending_iff ..).mp h))

variable (fresh : ¬SwapPending s (argN args 1))
include fresh

theorem kilnSwap_of_noSpare (h : freeSpare s (laserHalf (argN args 1)) = none) :
    kilnSwap c args s = cmdRefuse St.noSpare (laserHalf (argN args 1)) s := by
  rw [kilnSwap_of_idle c laser works idle, if_neg (mt (swapPending_iff ..).mpr fresh), h, Option.elim_none]

theorem kilnSwap_queues {sp : Nat} (h : freeSpare s (laserHalf (argN args 1)) = some sp) :
    kilnSwap c args s = (queueSwap (argN args 1) sp [c] (addDetached c .none s), none) := by
  rw [kilnSwap_of_idle c laser works idle, if_neg (mt (swapPending_iff ..).mpr fresh), h, Option.elim_some]

end

end Sys2Proof.Machine

namespace Sys2Proof.Proofs

open Sys2Proof.Machine

/-- Settles O35: each clause is the lemma that says what its command does in the state that the clause describes. -/
theorem opticalCommands : Obligations.OpticalCommands := by
  unfold Obligations.OpticalCommands
  refine ⟨?config, ?lane, ?bank, ?unbank, ?swap⟩
  case config =>
    intro h args s i now acc
    have run := exec_calConfig h args s
    have set : setSweep args (fetched i s) = (fetched i s).modOptics fun o =>
        { o with sweepS := now, calEnable := argN args 2 == 1,
                 sweepPend := if argN args 1 = now then none
                   else some (argN args 1, secU ((secOf s.time.now / now + 1) * now)),
                 slices := if argN args 2 = 1 then o.slices else o.slices.filter fun e => !e.2.waits || e.2.cmds != [] } := by
      simp only [setSweep, fetched_sweepNow, fetched_time, now]
    exact ⟨fun low high en => run_ok rfl acc run ((calConfig_of_good low high en).trans (congrArg cmdOk set)),
      fun bad => run_refused rfl acc run (calConfig_of_badPeriod bad),
      fun low high bad => run_refused rfl acc run (calConfig_of_badEnable low high bad)⟩
  case lane =>
    intro h args test s i l busy acc
    have run := exec_calLane h args test s
    have runs : SliceRuns (fetched i s) (barnOf l) ↔ busy := fetched_sliceRuns ..
    have has := fetched_hasSlice i s l
    rw [← fetched_laneState i]
    refine ⟨fun bad => run_refused rfl acc run (calLane_of_badLane _ _ bad),
      fun lane own is => run_refused rfl acc run (calLane_of_busy _ _ lane own (runs.mpr is)),
      fun lane own no listed => run_detached rfl acc run (calLane_joins _ _ lane own (mt runs.mp no) (has.mpr listed)),
      fun lane own no unlisted => run_detached rfl acc run (calLane_begins _ _ lane own (mt runs.mp no) (mt has.mp ?_))⟩
    rintro ⟨e, mem, same⟩
    exact unlisted e mem same
  case bank =>
    intro h args s i l acc
    have run := exec_laneBank h args s
    rw [← fetched_laneState i]
    exact ⟨fun bad => run_refused rfl acc run (laneBank_of_badLane _ bad),
      fun lane used => run_detached rfl acc run (laneBank_withdraws _ lane used),
      fun lane banked => run_ok rfl acc run (laneBank_of_banked _ lane banked),
      fun lane unused => run_ok rfl acc run (laneBank_of_unused _ lane unused)⟩
  case unbank =>
    intro h args s i l acc
    have run := exec_laneUnbank h args s
    rw [← fetched_laneState i, ← fetched_laneOpt i]
    exact ⟨fun bad => run_refused rfl acc run (laneUnbank_of_notBanked _ bad),
      fun lane banked busy => run_refused rfl acc run (laneUnbank_of_recovering _ lane banked busy),
      fun lane banked idle => run_detached rfl acc run (laneUnbank_recovers _ lane banked idle)⟩
  case swap =>
    intro h args s i k running works acc
    have run := exec_kilnSwap h args s
    have runs : SwapRuns (fetched i s) (laserHalf k) ↔ running := fetched_swapRuns ..
    have work : LaserWorks (fetched i s) k ↔ works := fetched_laserWorks ..
    have pending := fetched_swapPending i s k
    rw [← fetched_freeSpare i]
    refine ⟨fun bad => run_refused rfl acc run (kilnSwap_of_badLaser _ (bad.imp_right (mt work.mp))),
      fun laser ok is => run_refused rfl acc run (kilnSwap_of_running _ laser (work.mpr ok) (runs.mpr is)),
      fun laser ok no waits => run_detached rfl acc run
        (kilnSwap_joins _ laser (work.mpr ok) (mt runs.mp no) (pending.mpr waits)),
      fun laser ok no started => ?_⟩
    have fresh : ¬SwapPending (fetched i s) k := by
      rw [pending]
      rintro ⟨e, mem, same, waits⟩
      simp [started e mem same] at waits
    exact ⟨fun none => run_refused rfl acc run (kilnSwap_of_noSpare _ laser (work.mpr ok) (mt runs.mp no) fresh none),
      fun sp found => run_detached rfl acc run (kilnSwap_queues _ laser (work.mpr ok) (mt runs.mp no) fresh found)⟩

end Sys2Proof.Proofs
end

section
/-! SUPPORT. Retry timers, exits, markers and alignment slots of a lane (R231, R249, R254, R257, R259, R261, R262, R281): what each row
does in the states that it acts in, and that it does nothing in the others. -/

namespace Sys2Proof.Machine

/-! ### Retry timers (R257) -/

theorem nakResend_of_discarding {l : Nat} {s : State} (h : (laneLink s l).discarding = true) : nakResend l s = sayNak l s := if_pos h

theorem nakResend_of_inOrder {l : Nat} {s : State} (h : (laneLink s l).discarding = false) : nakResend l s = s :=
  if_neg (by simp [h])

/-- A replay of a lane: counted as one of its first SEQ, and put out. -/
def startReplay (l : Nat) (s : State) : State :=
  let k := laneLink s l
  let first := (k.txAcked + 1) % 4096
  emit (.replay l first) (bumpLink l 3 (modLaneLink l (fun x =>
    { x with replaySeq := first, replays := if k.replaySeq = first then k.replays + 1 else 1 }) s))

theorem replayTimeout_replays {l : Nat} {s : State} (sending : sends s l = true) (h : 0 < outstanding (laneLink s l)) :
    replayTimeout l s = (flitsFrom (laneLink s l)).foldl
      (fun s f => putRaw l (remakeFlit (markerDue l s) l f) (markerDue l s)) (startReplay l s) :=
  (if_pos sending).trans (if_pos h)

theorem replayTimeout_ignored {l : Nat} {s : State} (h : sends s l = false ∨ outstanding (laneLink s l) = 0) :
    replayTimeout l s = s := by
  by_cases sending : sends s l = true
  · exact (if_pos sending).trans (if_neg (Nat.not_lt.mpr (h.resolve_left (by simp [sending])).le))
  · exact if_neg sending

/-- What a flit sent again is made of: its type, SEQ, second word and payload. -/
theorem remakeFlit_eq (s : State) (l : Nat) (f : List Byte) : remakeFlit s l f =
    makeFlit s l (fld (flitWord f 0) 31 29) (fld (flitWord f 0) 28 17) (flitWord f 1) ((f.drop 12).take 240) := rfl

/-! ### Abrupt exits (R231, R249, R259, R281) -/

/-- The uncorrectable codeword pairs of a lane within the last millisecond. -/
def recentPairs (s : State) (l : Nat) : Nat :=
  ((laneLink s l).uncorrAt.filter fun t => decide (s.time.now < t + 256000000)).length

section
variable {l : Nat} {s : State}

theorem retryExhausted_exits (serves : laneState s l = .inService) (h : 8 ≤ (laneLink s l).replays) :
    retryExhausted l s = abruptExit l (bumpLink l 4 s) := if_pos ⟨serves, h⟩

theorem retryExhausted_ignored (h : laneState s l ≠ .inService ∨ (laneLink s l).replays < 8) : retryExhausted l s = s :=
  if_neg fun ⟨serves, many⟩ => h.elim (· serves) (Nat.not_lt.mpr many)

theorem fecExit_exits (serves : laneState s l = .inService) (h : 16 < recentPairs s l) :
    fecExit l s = abruptExit l (bumpLink l 5 s) := if_pos ⟨serves, h⟩

theorem fecExit_ignored (h : laneState s l ≠ .inService ∨ recentPairs s l ≤ 16) : fecExit l s = s :=
  if_neg fun ⟨serves, many⟩ => h.elim (· serves) (Nat.not_le.mpr many)

theorem frameLoss_of_serving (dark : Bool) (h : laneState s l = .inService) :
    frameLoss l dark s = abruptExit l (bumpLink l 6 s) := by
  simp only [frameLoss, h]

theorem frameLoss_of_circuit (dark : Bool) (h : laneState s l = .flue) : frameLoss l dark s = drainLost l s := by
  simp only [frameLoss, h]

theorem frameLoss_of_unused (dark : Bool) (h : laneState s l = .down ∨ laneState s l = .training ∨ laneState s l = .banked) :
    frameLoss l dark s = s := by
  rcases h with h | h | h <;> simp only [frameLoss, h]

/-- A withdrawn lane leaves while it still drains, and as its own slice loses its light. -/
theorem frameLoss_of_withdrawn (dark : Bool) (h : laneState s l = .withdrawn) : frameLoss l dark s =
    if (!laneIdle s l || (dark && (sliceOn s l).isSome)) = true then abruptExit l (bumpLink l 6 s) else s := by
  simp only [frameLoss, h]

theorem frameLoss_of_draining (dark : Bool) (h : laneState s l = .withdrawn) (busy : laneIdle s l = false) :
    frameLoss l dark s = abruptExit l (bumpLink l 6 s) :=
  (frameLoss_of_withdrawn dark h).trans (if_pos (by simp [busy]))

theorem lossOfSignal_of_slice (h : laneState s l = .withdrawn) (slice : (sliceOn s l).isSome = true) :
    frameLoss l true s = abruptExit l (bumpLink l 6 s) :=
  (frameLoss_of_withdrawn true h).trans (if_pos (by simp [slice]))

theorem frameLoss_of_drained (h : laneState s l = .withdrawn) (idle : laneIdle s l = true) : frameLoss l false s = s :=
  (frameLoss_of_withdrawn false h).trans (if_neg (by simp [idle]))

theorem lossOfSignal_of_drained (h : laneState s l = .withdrawn) (idle : laneIdle s l = true) (slice : sliceOn s l = none) :
    frameLoss l true s = s :=
  (frameLoss_of_withdrawn true h).trans (if_neg (by simp [idle, slice]))

end

/-! ### Markers (R261) -/

theorem markerSend_sends {l : Nat} {s : State} (h : sends s l = true) : markerSend l s =
    putMarker l (modLaneLink l (fun k => { k with crRot := (k.crRot + (1024 - k.slots)) % 8 }) s) := if_pos h

theorem markerSend_ignored {l : Nat} {s : State} (h : sends s l = false) : markerSend l s = s := if_neg (by simp [h])

theorem putMarker_of_port {l p : Nat} {s : State} (h : portOfLane s l = some p) : putMarker l s =
    modLaneLink l (fun k => { k with markerCount := (k.markerCount + 1) % 2 ^ 32, slots := 0 })
      (emit (.marker l (markerWords s l p)) (putRaw l (makeFlit s l 3 0 0 (wordsBe (markerWords s l p))) s)) := by
  simp only [putMarker, h]

/-! ### Alignment slots (R233, R262) -/

theorem exec_alignmentSlotRx (l : Fin 1024) {bytes : List Byte} (s : State) (h : bytes.length = 256) :
    exec (.alignmentSlotRx l bytes) s = .next (alignmentSlot l bytes s) := if_pos h

theorem listens_iff (s : State) (l : Nat) : listens s l = true ↔ laneFrames s l = true ∨ laneState s l = .training := by
  simp only [listens, Bool.or_eq_true, beq_iff_eq]

theorem mem_fibreLanes {l m : Nat} : m ∈ fibreLanes l ↔ l / 8 * 8 ≤ m ∧ m < l / 8 * 8 + 8 := by
  simp only [fibreLanes, List.mem_map, List.mem_range]
  constructor
  · rintro ⟨k, below, rfl⟩
    omega
  · rintro ⟨low, high⟩
    exact ⟨m - l / 8 * 8, by omega, by omega⟩

/-- The far end's fibre status is kept. -/
def keepStatus (l : Nat) (bytes : List Byte) (s : State) : State :=
  modLaneLink l (fun k => { k with farStatus := (List.range 8).map fun k => flitWord bytes (5 + k) }) (countSlot l s)

/-- TX_FAULT of the lane of index `k` of the fibre, as an alignment slot has it. -/
def slotFault (bytes : List Byte) (k : Nat) : Bool := bitAt (flitWord bytes (5 + k)) 25

/-- What the entry of lane `m` in an alignment slot calls for. -/
def judgeFault (bytes : List Byte) (m : Nat) (s : State) : State :=
  if (slotFault bytes (m % 8) && (laneState s m == .inService || laneState s m == .withdrawn)) = true then wrongLock m 1 false s else s

theorem judgeFault_of_clear {bytes : List Byte} {m : Nat} (s : State) (h : slotFault bytes (m % 8) = false) :
    judgeFault bytes m s = s := if_neg (by simp [h])

theorem judgeFault_of_faulty {bytes : List Byte} {m : Nat} {s : State} (h : slotFault bytes (m % 8) = true)
    (used : InUse s m) : judgeFault bytes m s = wrongLock m 1 false s := if_pos (by simpa [h, InUse] using used)

/-- Lanes whose entries are clear leave the state as it is. -/
theorem judgeFaults_of_clear {bytes : List Byte} (ms : List Nat) (s : State) (h : ∀ m ∈ ms, slotFault bytes (m % 8) = false) :
    ms.foldl (fun s m => judgeFault bytes m s) s = s := by
  induction ms with
  | nil => rfl
  | cons m ms ih =>
    rw [List.foldl_cons, judgeFault_of_clear s (h m List.mem_cons_self)]
    exact ih fun x hx => h x (List.mem_cons_of_mem m hx)

/-- Where the entry of one lane alone is not clear, that lane alone is judged. -/
theorem judgeFaults_of_one {bytes : List Byte} {m : Nat} {ms : List Nat} (s : State) (listed : m ∈ ms) (once : ms.Nodup)
    (h : ∀ x ∈ ms, x ≠ m → slotFault bytes (x % 8) = false) :
    ms.foldl (fun s m => judgeFault bytes m s) s = judgeFault bytes m s := by
  obtain ⟨before, after, rfl⟩ := List.append_of_mem listed
  obtain ⟨-, rest, apart⟩ := List.nodup_append.mp once
  have notAfter : m ∉ after := (List.nodup_cons.mp rest).1
  rw [List.foldl_append, List.foldl_cons, judgeFaults_of_clear before, judgeFaults_of_clear after]
  · exact fun x hx => h x (by simp [hx]) fun same => notAfter (same ▸ hx)
  · exact fun x hx => h x (by simp [hx]) (apart x hx m List.mem_cons_self)

theorem fibreLanes_nodup (l : Nat) : (fibreLanes l).Nodup :=
  List.nodup_range.map fun _ _ h => Nat.add_left_cancel h

section
variable {l : Nat} {bytes : List Byte} {s : State}

theorem alignmentSlot_of_deaf (h : listens s l = false) : alignmentSlot l bytes s = s := if_pos (by simp [h])

variable (hears : listens s l = true)
include hears

theorem alignmentSlot_of_badCrc (h : flitCrcOk bytes = false) : alignmentSlot l bytes s = countSlot l s :=
  (if_neg (by simp [hears])).trans (if_neg (by simp [h]))

theorem alignmentSlot_of_goodCrc (h : flitCrcOk bytes = true) : alignmentSlot l bytes s =
    (fibreLanes l).foldl (fun s m => judgeFault bytes m s) (keepStatus l bytes s) := by
  refine (if_neg (by simp [hears])).trans ((if_pos h).trans ?_)
  refine congrArg (fun f => (fibreLanes l).foldl f (keepStatus l bytes s)) (funext fun t => funext fun m => ?_)
  have entry : ((List.range 8).map fun k => flitWord bytes (5 + k)).getD (m % 8) 0 = flitWord bytes (5 + m % 8) := by
    simp [List.getD_eq_getElem?_getD, List.getElem?_range (Nat.mod_lt m (by decide : 8 > 0))]
  rw [judgeFault, slotFault, entry]

variable (good : flitCrcOk bytes = true)
include good

theorem alignmentSlot_of_clear (h : ∀ k, k < 8 → slotFault bytes k = false) : alignmentSlot l bytes s = keepStatus l bytes s :=
  (alignmentSlot_of_goodCrc hears good).trans (judgeFaults_of_clear _ _ fun m _ => h (m % 8) (Nat.mod_lt m (by decide)))

theorem alignmentSlot_of_oneFault {k : Nat} (below : k < 8) (h : ∀ j, j < 8 → (slotFault bytes j = true ↔ j = k))
    (used : InUse s (l / 8 * 8 + k)) :
    alignmentSlot l bytes s = wrongLock (l / 8 * 8 + k) 1 false (keepStatus l bytes s) := by
  rw [alignmentSlot_of_goodCrc hears good, judgeFaults_of_one (m := l / 8 * 8 + k) _ (mem_fibreLanes.mpr (by omega))
    (fibreLanes_nodup l), judgeFault_of_faulty ((h _ (by omega)).mpr (by omega)) (s := keepStatus l bytes s) used]
  intro x hx other
  obtain ⟨low, high⟩ := mem_fibreLanes.mp hx
  exact Bool.eq_false_iff.mpr fun faulty => other (by have := (h _ (by omega)).mp faulty; omega)

end

/-! ### TX_FAULT (R262) -/

/-- A lane reads its receive ring while another lane of its fibre is framed. -/
def FibreFrames (s : State) (l : Nat) : Prop :=
  (laneFrames s l = true ∨ laneState s l = .training) ∧
    ∃ m, l / 8 * 8 ≤ m ∧ m < l / 8 * 8 + 8 ∧ m ≠ l ∧ laneFrames s m = true

theorem fibreFrames_iff (s : State) (l : Nat) :
    FibreFrames s l ↔ (listens s l && (fibreLanes l).any fun m => m != l && laneFrames s m) = true := by
  simp only [FibreFrames, Bool.and_eq_true, listens_iff, List.any_eq_true, mem_fibreLanes, bne_iff_ne, and_assoc]

theorem txFault_reported {l : Nat} {s : State} (h : FibreFrames s l) :
    txFault l s = reportFibre l (modLaneLink l (fun k => { k with txFault := true }) s) := if_pos ((fibreFrames_iff s l).mp h)

theorem txFault_ignored {l : Nat} {s : State} (h : ¬FibreFrames s l) : txFault l s = s :=
  if_neg (mt (fibreFrames_iff s l).mpr h)

/-! ### Underrun (R254) -/

/-- How a packet that a lane cuts off ends in its trace. -/
def cutOff (l : Nat) (t : Tx) : TraceEnd :=
  { outcome := 3, outPort := t.port, barn := barnOf l, cut := t.cut, selected := some t.selAt, out := some t.outAt }

section
variable {l : Nat} {t : Tx} {s : State}

theorem underrunAbort_of_noPacket (h : (laneLink s l).tx = none) : underrunAbort l s = s := by
  simp only [underrunAbort, h]

variable (sending : (laneLink s l).tx = some t)
include sending

theorem underrunAbort_of_fed (h : t.abort = true ∨ t.sent = 0 ∨
    ∀ x, storedPkt s (barnOf l) t.pid = some x → t.sent < flitsReady x) : underrunAbort l s = s := by
  simp only [underrunAbort, sending]
  refine if_neg fun ⟨going, begun, dry⟩ => ?_
  obtain ⟨x, stored, short⟩ := (Option.any_eq_true ..).mp dry
  rcases h with aborts | unsent | fed
  · simp [aborts] at going
  · omega
  · exact Nat.not_le.mpr (fed x stored) (of_decide_eq_true short)

theorem underrunAbort_of_dry {x : Stored} (going : t.abort = false) (begun : 0 < t.sent)
    (stored : storedPkt s (barnOf l) t.pid = some x) (dry : flitsReady x ≤ t.sent) : underrunAbort l s =
    settleIdle l (pump l (dropRef (barnOf l) t.pid t.port (abortTx l (bumpEg (barnOf l) 4 (traceStored x (cutOff l t) s))))) := by
  simp only [underrunAbort, sending, stored]
  exact if_pos (by simp [going, begun, dry])

end

end Sys2Proof.Machine

namespace Sys2Proof.Proofs

open Sys2Proof.Machine

/-- Settles O38: each clause is the lemma that says what its row does in the state that the clause describes. -/
theorem laneTimersAndExits : Obligations.LaneTimersAndExits := by
  unfold Obligations.LaneTimersAndExits
  refine ⟨?nak, ?replay, fun s l f => remakeFlit_eq s l f, ?serving, ?notDue, ?withdrawn, ?others, ?marker,
    fun l p s port => putMarker_of_port port, ?alignment, ?txFault, ?underrun⟩
  case nak =>
    intro l s
    exact ⟨fun discards => next_congr (nakResend_of_discarding discards), fun inOrder => next_congr (nakResend_of_inOrder inOrder)⟩
  case replay =>
    intro l s k first
    exact ⟨fun sending some => next_congr (replayTimeout_replays sending some),
      fun idle => next_congr (replayTimeout_ignored idle)⟩
  case serving =>
    intro l s serves
    exact ⟨fun many => next_congr (retryExhausted_exits serves many), fun many => next_congr (fecExit_exits serves many),
      next_congr (frameLoss_of_serving false serves), next_congr (frameLoss_of_serving true serves)⟩
  case notDue =>
    intro l s
    exact ⟨fun few => next_congr (retryExhausted_ignored few), fun few => next_congr (fecExit_ignored few)⟩
  case withdrawn =>
    intro l s away
    exact ⟨fun busy => next_congr (frameLoss_of_draining false away busy), fun idle => next_congr (frameLoss_of_drained away idle),
      fun leaves => next_congr (leaves.elim (frameLoss_of_draining true away) (lossOfSignal_of_slice away)),
      fun idle noSlice => next_congr (lossOfSignal_of_drained away idle noSlice)⟩
  case others =>
    intro l s
    exact ⟨fun lent => ⟨next_congr (frameLoss_of_circuit false lent), next_congr (frameLoss_of_circuit true lent)⟩,
      fun unused => ⟨next_congr (frameLoss_of_unused false unused), next_congr (frameLoss_of_unused true unused)⟩⟩
  case marker =>
    intro l s
    exact ⟨fun sending => next_congr (markerSend_sends sending), fun silent => next_congr (markerSend_ignored silent)⟩
  case alignment =>
    intro l bytes s whole r hears
    have listen : listens s l = true ↔ hears := listens_iff s l
    have crc : flitCrcOk bytes = true ↔ crc32 (bytes.take 252) = ofBe (bytes.drop 252) := beq_iff_eq
    rw [exec_alignmentSlotRx l s whole]
    exact ⟨fun deaf => next_congr (alignmentSlot_of_deaf (Bool.eq_false_iff.mpr (mt listen.mp deaf))),
      fun hear bad => next_congr (alignmentSlot_of_badCrc (listen.mpr hear) (Bool.eq_false_iff.mpr (mt crc.mp bad))),
      fun hear good => ⟨fun clear => next_congr (alignmentSlot_of_clear (listen.mpr hear) (crc.mpr good) clear),
        fun k below one used => next_congr (alignmentSlot_of_oneFault (listen.mpr hear) (crc.mpr good) below one used)⟩⟩
  case txFault =>
    intro l s others
    exact ⟨fun frames => next_congr (txFault_reported frames), fun dark => next_congr (txFault_ignored dark)⟩
  case underrun =>
    intro l s
    exact ⟨fun none => next_congr (underrunAbort_of_noPacket none), fun t sending =>
      ⟨fun fed => next_congr (underrunAbort_of_fed sending fed),
        fun x going begun stored dry => next_congr (underrunAbort_of_dry sending going begun stored dry)⟩⟩

end Sys2Proof.Proofs
end

section
/-! SUPPORT. Slices, rings and the Kiln at work (R226, R228, R229, R231, R235 to R237, R239, R240, R269): what each row does in the
states that it acts in, and that it does nothing in the others. -/

namespace Sys2Proof.Machine

/-! ### CAL_SLICE_START (R228, R229, R240) -/

theorem sliceNow_iff (s : State) (b j : Nat) : sliceNow s b j = true ↔
    s.time.stepped ≤ sliceAt s b j ∧ sliceAt s b j ≤ s.time.now ∧ s.time.now < sliceAt s b j + 1639 := by
  simp only [sliceNow, reached, Bool.and_eq_true, decide_eq_true_eq, and_assoc]
  rfl

/-- Slice `j` of a barn is due in this sweep. -/
def SliceTurn (s : State) (b j : Nat) : Prop :=
  sliceNow s b j = true ∧ tget s.optics.lastSlice 0 (64 * b + j) ≠ sweepNo s + 1

/-- Slice `j` of a barn has had its turn in this sweep. -/
def markSlice (b j : Nat) (s : State) : State :=
  s.modOptics fun o => { o with lastSlice := tset o.lastSlice 0 (64 * b + j) (sweepNo s + 1) }

/-- The test of the free spares, which the first slice of a half's first barn makes. -/
def spareTest (b j : Nat) (test : SliceTest) (s : State) : State := if j = 0 ∧ b % 8 = 0 then testSpares b test.spareFails s else s

/-- A barn is not free for a slice of a lane: one is in progress, or one of the lane waits. -/
def BarnTaken (s : State) (b l : Nat) : Prop := ∃ e ∈ s.optics.slices, e.1 = b ∧ (e.2.waits = false ∨ e.2.lane = l)

theorem barnTaken_iff (s : State) (b l : Nat) :
    BarnTaken s b l ↔ (s.optics.slices.any fun e => e.1 == b && (!e.2.waits || e.2.lane == l)) = true := by
  simp only [BarnTaken, List.any_eq_true, Bool.and_eq_true, Bool.or_eq_true, beq_iff_eq, Bool.not_eq_true']

section
variable {b j : Nat} (test : SliceTest) {s : State}

theorem calSliceStart_of_otherTime (h : ¬SliceTurn s b j) : calSliceStart b j test s = s := if_neg h

variable (turn : SliceTurn s b j)
include turn

theorem calSliceStart_of_off (h : s.optics.calEnable = false ∨ barnUp (markSlice b j s) b = false) :
    calSliceStart b j test s = overdue (sliceLane b j) (markSlice b j s) :=
  (if_pos turn).trans (congrArg (overdue _) (if_neg fun on => by
    obtain ⟨enabled, up⟩ := Bool.and_eq_true_iff.mp on
    exact h.elim (Bool.eq_false_iff.mp · enabled) (Bool.eq_false_iff.mp · up)))

variable (enabled : s.optics.calEnable = true) (up : barnUp (markSlice b j s) b = true)
include enabled up

theorem calSliceStart_of_on : calSliceStart b j test s = overdue (sliceLane b j)
    (if ((spareTest b j test (markSlice b j s)).optics.slices.any fun e => e.1 == b && (!e.2.waits || e.2.lane == sliceLane b j)) = true
      then spareTest b j test (markSlice b j s)
      else beginSlice b ⟨sliceLane b j, false, some test, []⟩ (spareTest b j test (markSlice b j s))) :=
  (if_pos turn).trans (congrArg (overdue _) (if_pos (Bool.and_eq_true_iff.mpr ⟨enabled, up⟩)))

theorem calSliceStart_of_taken (h : BarnTaken (spareTest b j test (markSlice b j s)) b (sliceLane b j)) :
    calSliceStart b j test s = overdue (sliceLane b j) (spareTest b j test (markSlice b j s)) := by
  rw [calSliceStart_of_on test turn enabled up, if_pos ((barnTaken_iff ..).mp h)]

theorem calSliceStart_begins (h : ¬BarnTaken (spareTest b j test (markSlice b j s)) b (sliceLane b j)) :
    calSliceStart b j test s = overdue (sliceLane b j)
      (beginSlice b ⟨sliceLane b j, false, some test, []⟩ (spareTest b j test (markSlice b j s))) := by
  rw [calSliceStart_of_on test turn enabled up, if_neg (mt (barnTaken_iff ..).mpr h)]

end

/-! ### LOCK_LOST (R226) -/

theorem lockLost_of_inUse {l : Nat} {s : State} (rx : Bool) (h : InUse s l) : lockLost l rx s = wrongLock l 2 rx s := if_pos h

theorem lockLost_of_notInUse {l : Nat} {s : State} (rx : Bool) (h : ¬InUse s l) : lockLost l rx s = s := if_neg h

/-! ### LASER_READING (R236, R239) -/

@[simp] theorem theLaser_modLaser (k : Nat) (f : Laser → Laser) (s : State) : theLaser (modLaser k f s) k = f (theLaser s k) := by
  rw [theLaser, modLaser, State.modOptics_optics, tget_tmod, if_pos rfl, theLaser]

/-- A laser is lit: it works, warns, or is being swapped. -/
def Lit (s : State) (k : Nat) : Prop := (theLaser s k).state = 1 ∨ (theLaser s k).state = 2 ∨ (theLaser s k).state = 3

/-- The readings that count once one more has been taken. -/
def readingsWith (s : State) (k : Nat) (r : Int) : List Int := lastN 16 ((theLaser s k).readings ++ [r - calGet s 4 k])

theorem readingsWith_ne_nil (s : State) (k : Nat) (r : Int) : readingsWith s k r ≠ [] := by
  simp only [readingsWith, lastN, ne_eq, List.drop_eq_nil_iff, List.length_append, List.length_singleton]
  omega

/-- The mean of some readings is a whole number. -/
def wholeMean (rs : List Int) : Bool := rs.sum % (rs.length : Int) == 0

theorem wholeMean_iff (rs : List Int) : wholeMean rs = true ↔ rs.sum % (rs.length : Int) = 0 := beq_iff_eq

/-- What rounds a mean up: nothing where it is a whole number, and a free choice otherwise. -/
def roundUp (s : State) (rs : List Int) : Int := if wholeMean rs then 0 else (freeBelow s 2 : Nat)

/-- The fade of some readings, as the device reads it. -/
def meanFade (s : State) (rs : List Int) : Int := rs.sum / (rs.length : Int) + roundUp s rs

/-- A number's quotient, or the next one where the division leaves a rest, lies within one of its exact ratio. -/
theorem quotient_between {n a up : Int} (pos : 0 < n) (h : up = 0 ∨ up = 1 ∧ a % n ≠ 0) :
    a < n * (a / n + up + 1) ∧ n * (a / n + up - 1) < a := by
  have split := Int.emod_add_mul_ediv a n
  have low := Int.emod_nonneg a pos.ne'
  have high := Int.emod_lt_of_pos a pos
  rcases h with rfl | ⟨rfl, rest⟩ <;> simp only [mul_add, mul_sub, mul_one, mul_zero] <;> omega

theorem roundUp_bit (s : State) (rs : List Int) : roundUp s rs = 0 ∨ roundUp s rs = 1 ∧ rs.sum % (rs.length : Int) ≠ 0 := by
  have below : freeBelow s 2 < 2 := Nat.mod_lt _ (by decide)
  rw [roundUp]
  split
  case isTrue => exact .inl rfl
  case isFalse rest =>
    rcases Nat.le_one_iff_eq_zero_or_eq_one.mp (Nat.le_of_lt_succ below) with zero | one
    · exact .inl (by rw [zero]; rfl)
    · exact .inr ⟨by rw [one]; rfl, mt (wholeMean_iff rs).mpr rest⟩

theorem meanFade_between (s : State) {rs : List Int} (h : rs ≠ []) :
    rs.sum < (rs.length : Int) * (meanFade s rs + 1) ∧ (rs.length : Int) * (meanFade s rs - 1) < rs.sum :=
  quotient_between (by simpa using List.length_pos_iff.mpr h) (roundUp_bit s rs)

theorem meanFade_exact (s : State) {rs : List Int} (h : rs.sum % (rs.length : Int) = 0) :
    rs.sum = (rs.length : Int) * meanFade s rs := by
  rw [meanFade, roundUp, if_pos ((wholeMean_iff rs).mpr h), add_zero, Int.mul_ediv_cancel_of_emod_eq_zero h]

/-- A reading enters the readings and the fade of its laser; a mean that is rounded takes a free value. -/
def takeReading (k : Nat) (r : Int) (s : State) : State :=
  let rs := readingsWith s k r
  modLaser k (fun x => { x with readings := rs, fade := clampI (-32768) 32767 (meanFade s rs) })
    (if wholeMean rs then s else s.tookFree)

theorem takeReading_eq (k : Nat) (r : Int) (s : State) : takeReading k r s =
    { s with optics := { s.optics with lasers := (takeReading k r s).optics.lasers }, free := (takeReading k r s).free } := by
  by_cases h : wholeMean (readingsWith s k r) = true <;> simp only [takeReading, h] <;> rfl

@[simp] theorem takeReading_swaps (k : Nat) (r : Int) (s : State) : (takeReading k r s).optics.swaps = s.optics.swaps := by
  rw [takeReading_eq]

@[simp] theorem theLaser_takeReading (k : Nat) (r : Int) (s : State) : theLaser (takeReading k r s) k =
    { theLaser s k with readings := readingsWith s k r, fade := clampI (-32768) 32767 (meanFade s (readingsWith s k r)) } := by
  rw [takeReading, theLaser_modLaser]
  split <;> rfl

section
variable {k : Nat} {r : Int} {s : State}

theorem laserReading_of_unlit (h : ¬Lit s k) : laserReading k r s = s := if_neg h

variable (lit : Lit s k)
include lit

theorem laserReading_of_lit : laserReading k r s =
    if r - calGet s 4 k ≤ -600 then
      (s.optics.swaps.find? fun e => e.2.started && e.2.spare == k && (theLaser s k).state == 3).elim
        (laserFails k (takeReading k r s)) fun e => spareFails e.1 e.2 (takeReading k r s)
    else if (theLaser s k).state = 3 then takeReading k r s
    else actOnFade k (theLaser s k).readings (readingsWith s k r) (takeReading k r s) := by
  have cases (o : Option (Nat × Swap)) : (match o with
      | some (h, w) => spareFails h w (takeReading k r s)
      | none => laserFails k (takeReading k r s)) =
      o.elim (laserFails k (takeReading k r s)) fun e => spareFails e.1 e.2 (takeReading k r s) := by
    cases o <;> simp only [Option.elim_none, Option.elim_some]
  rw [← takeReading_swaps k r s, ← cases, laserReading]
  exact (if_pos lit).trans (ite_congr rfl (fun _ => rfl) fun _ => ite_congr rfl (fun _ => rfl) fun _ => rfl)

theorem laserReading_of_bright (h : -600 < r - calGet s 4 k) : laserReading k r s =
    if (theLaser s k).state = 3 then takeReading k r s
    else actOnFade k (theLaser s k).readings (readingsWith s k r) (takeReading k r s) :=
  (laserReading_of_lit lit).trans (if_neg (Int.not_le.mpr h))

variable (dark : r - calGet s 4 k ≤ -600)
include dark

theorem laserReading_laserFails
    (h : (theLaser s k).state ≠ 3 ∨ ∀ e ∈ s.optics.swaps, e.2.started = true → e.2.spare ≠ k) :
    laserReading k r s = laserFails k (takeReading k r s) := by
  have unpromised : (s.optics.swaps.find? fun e => e.2.started && e.2.spare == k && (theLaser s k).state == 3) = none := by
    rw [List.find?_eq_none]
    intro e mem promised
    simp only [Bool.and_eq_true, beq_iff_eq] at promised
    obtain ⟨⟨started, spare⟩, swapping⟩ := promised
    exact h.elim (· swapping) fun others => others e mem started spare
  rw [laserReading_of_lit lit, if_pos dark, unpromised, Option.elim_none]

theorem laserReading_spareFails {h : Nat} {w : Swap} (swapping : (theLaser s k).state = 3)
    (found : (s.optics.swaps.find? fun e => e.2.started && e.2.spare == k) = some (h, w)) :
    laserReading k r s = spareFails h w (takeReading k r s) := by
  have promised : (s.optics.swaps.find? fun e => e.2.started && e.2.spare == k && (theLaser s k).state == 3) = some (h, w) := by
    simpa only [swapping, beq_self_eq_true, Bool.and_true] using found
  rw [laserReading_of_lit lit, if_pos dark, promised, Option.elim_some]

end

/-! ### KILN_SWAP_START (R237) -/

/-- The oldest swap of a half that has not started. -/
def nextSwap (s : State) (h : Nat) : Option (Nat × Swap) := s.optics.swaps.find? fun x => x.1 == h && !x.2.started

/-- A slice is in progress in a barn that a Kiln group serves. -/
def GroupSliced (s : State) (g : Nat) : Prop := ∃ x ∈ s.optics.slices, x.2.waits = false ∧ x.1 / 2 = g

theorem groupSliced_iff (s : State) (g : Nat) :
    GroupSliced s g ↔ (s.optics.slices.any fun e => !e.2.waits && e.1 / 2 == g) = true := by
  simp only [GroupSliced, List.any_eq_true, Bool.and_eq_true, beq_iff_eq, Bool.not_eq_true']

section
variable {h : Nat} {s : State}

/-- The order of the checks on a swap makes no difference. -/
theorem swapRuns_iff_started :
    SwapRuns s h ↔ (s.optics.swaps.any fun e => e.1 == h && e.2.started && e.2.spare != 127) = true := by
  simp only [swapRuns_iff, Bool.and_right_comm]

theorem kilnSwapStart_of_running (runs : SwapRuns s h) : kilnSwapStart h s = s := if_pos (swapRuns_iff_started.mp runs)

variable (idle : ¬SwapRuns s h)
include idle

theorem kilnSwapStart_of_idle : kilnSwapStart h s = (nextSwap s h).elim s fun e =>
    if (s.optics.slices.any fun x => !x.2.waits && x.1 / 2 == laserGroup s e.2.laser) = true then s
    else startSwap h e.2 (bumpKiln e.2.laser 1 s) := by
  refine (if_neg (mt swapRuns_iff_started.mpr idle)).trans ?_
  rw [← nextSwap]
  cases nextSwap s h <;> rfl

theorem kilnSwapStart_of_noneWaits (noneWaits : nextSwap s h = none) : kilnSwapStart h s = s := by
  rw [kilnSwapStart_of_idle idle, noneWaits, Option.elim_none]

variable {e : Nat × Swap} (next : nextSwap s h = some e)
include next

theorem kilnSwapStart_of_sliced (sliced : GroupSliced s (laserGroup s e.2.laser)) : kilnSwapStart h s = s := by
  rw [kilnSwapStart_of_idle idle, next, Option.elim_some, if_pos ((groupSliced_iff ..).mp sliced)]

theorem kilnSwapStart_starts (free : ¬GroupSliced s (laserGroup s e.2.laser)) :
    kilnSwapStart h s = startSwap h e.2 (bumpKiln e.2.laser 1 s) := by
  rw [kilnSwapStart_of_idle idle, next, Option.elim_some, if_neg (mt (groupSliced_iff ..).mpr free)]

end

/-! ### SHORT_RETRAIN: how it ends by the lane's state (R231, R235, R264, R269) -/

/-- The capability words of a retraining's end are exchanged, the far end's DONE among them. -/
def exchangeDone (l : Nat) (done : Bool) (s : State) : State :=
  sayCap l true (modLaneLink l (fun k => { k with txDone := true, rxDone := done }) s)

@[simp] theorem exchangeDone_laneOpt (l m : Nat) (done : Bool) (s : State) : laneOpt (exchangeDone l done s) m = laneOpt s m := rfl
@[simp] theorem exchangeDone_laneState (l m : Nat) (done : Bool) (s : State) : laneState (exchangeDone l done s) m = laneState s m := rfl
@[simp] theorem exchangeDone_sliceOn (l m : Nat) (done : Bool) (s : State) : sliceOn (exchangeDone l done s) m = sliceOn s m := rfl
@[simp] theorem exchangeDone_swapOn (l m : Nat) (done : Bool) (s : State) : swapOn (exchangeDone l done s) m = swapOn s m := rfl

theorem laneLink_modLaneLink (l : Nat) (f : LaneLink → LaneLink) (s : State) : laneLink (modLaneLink l f s) l = f (laneLink s l) := by
  rw [laneLink, modLaneLink, State.modLink_link, tget_tmod, if_pos rfl, laneLink]

@[simp] theorem exchangeDone_shortFails (l : Nat) (done : Bool) (s : State) :
    (laneLink (exchangeDone l done s) l).shortFails = (laneLink s l).shortFails :=
  (congrArg LaneLink.shortFails (laneLink_modLaneLink l (fun k => { k with txDone := true, rxDone := done }) s) :)

section
variable {l : Nat} {r : RetrainEnd} {done : Bool} {res : Nat} {s : State}

theorem shortRetrain_ignored (h : retrains s l = false ∨ checkEnded r = false) : shortRetrain l r done res s = s :=
  if_pos (by simpa using h)

variable (ended : checkEnded r = true)
include ended

/-- A recovering lane. -/
theorem shortRetrain_of_recovering (banked : laneState s l = .banked) (recovering : (laneOpt s l).recovering = true) :
    shortRetrain l r done res s =
      if (retrainOk r && !done) = true then exchangeDone l done s else recoverStep l r res (exchangeDone l done s) := by
  have due : retrains s l = true := by simp [retrains, banked, recovering]
  rw [shortRetrain, if_neg (by simp [due, ended]), ← exchangeDone]
  simp only [exchangeDone_laneState, banked, exchangeDone_laneOpt, recovering, if_true]

/-- A lane of a slice in progress. -/
theorem shortRetrain_of_slice {b : Nat} {x : Slice} (withdrawn : laneState s l = .withdrawn) (idle : laneIdle s l = true)
    (slice : sliceOn s l = some (b, x)) : shortRetrain l r done res s =
      if (retrainOk r && !done) = true ∧ sliceFails x = 0 then exchangeDone l done s
      else sliceEnds b x r (exchangeDone l done s) := by
  have due : retrains s l = true := by simp [retrains, withdrawn, idle]
  rw [shortRetrain, if_neg (by simp [due, ended]), ← exchangeDone]
  simp only [exchangeDone_laneState, withdrawn, exchangeDone_sliceOn, slice]

variable (due : retrains s l = true)
include due

/-- A lane in training, or one withdrawn for the far end or a command. -/
theorem shortRetrain_of_plain
    (h : laneState s l = .training ∨ laneState s l = .withdrawn ∧ sliceOn s l = none ∧ swapOn s l = none) :
    shortRetrain l r done res s =
      if (retrainOk r && !done) = true then exchangeDone l done s else plainEnds l r (exchangeDone l done s) := by
  rw [shortRetrain, if_neg (by simp [due, ended]), ← exchangeDone]
  rcases h with training | ⟨withdrawn, slice, swap⟩
  · simp only [exchangeDone_laneState, training]
  · simp only [exchangeDone_laneState, withdrawn, exchangeDone_sliceOn, slice, exchangeDone_swapOn, swap]

/-- A lane that has trained waits for the far end's DONE. -/
theorem shortRetrain_waits (ok : retrainOk r = true) (notDone : done = false) (away : laneState s l ≠ .withdrawn) :
    shortRetrain l r done res s = exchangeDone l done s := by
  have waits : (retrainOk r && !done) = true := by simp [ok, notDone]
  rw [shortRetrain, if_neg (by simp [due, ended]), ← exchangeDone]
  cases h : laneState s l <;> simp only [exchangeDone_laneState, h, waits, if_true]
  exact absurd h away

end

/-! ### SHORT_RETRAIN: one attempt of a recovery (R235) -/

@[simp] theorem laneOpt_modLaneOpt (l : Nat) (f : LaneOpt → LaneOpt) (s : State) : laneOpt (modLaneOpt l f s) l = f (laneOpt s l) := by
  rw [laneOpt, modLaneOpt, State.modOptics_optics, tget_tmod, if_pos rfl, laneOpt]

/-- The resonances tried once one more has been. -/
def triedWith (s : State) (l res : Nat) : List Nat :=
  if (laneOpt s l).excluded.contains res then (laneOpt s l).excluded else (laneOpt s l).excluded ++ [res]

/-- The ring that has failed to lock is the one that recovers. -/
def noteRing (l : Nat) (r : RetrainEnd) (s : State) : State := match r with
  | .failed rx => modLaneOpt l (fun o => { o with rxRing := rx }) s
  | _ => s

@[simp] theorem noteRing_lockFails (l : Nat) (r : RetrainEnd) (s : State) :
    (laneOpt (noteRing l r s) l).lockFails = (laneOpt s l).lockFails := by
  cases r <;> simp [noteRing]

/-- An attempt fails: it counts, and its resonance is excluded. -/
def failAttempt (l : Nat) (r : RetrainEnd) (res : Nat) (s : State) : State :=
  modLaneOpt l (fun o => { o with lockFails := o.lockFails + 1, excluded := triedWith s l res }) (noteRing l r s)

theorem failAttempt_lockFails (l : Nat) (r : RetrainEnd) (res : Nat) (s : State) :
    (laneOpt (failAttempt l r res s) l).lockFails = (laneOpt s l).lockFails + 1 := by
  simp [failAttempt]

/-- A recovery is given up: the report names its ring and the resonances tried. -/
def giveUp (l : Nat) (tried : List Nat) (s : State) : State :=
  report { laneFault 0x0904 2 l with detail := w32 (bit (laneOpt s l).rxRing) :: tried.map w32 }
    (modLaneOpt l (fun o => { o with recovering := false, unbankCmd := none }) s)

section
variable {l : Nat} {r : RetrainEnd} {res : Nat} {s : State}

theorem recoverStep_recovers (ok : retrainOk r = true) (fresh : res ∉ (laneOpt s l).excluded) : recoverStep l r res s =
    endCmd (laneOpt s l).unbankCmd (restoreLane l (modLaneOpt l (fun o => { o with unbankCmd := none }) s)) :=
  if_pos (by simpa [ok] using fresh)

variable (lost : retrainOk r = false ∨ res ∈ (laneOpt s l).excluded)
include lost

theorem recoverStep_of_lost : recoverStep l r res s =
    if (laneOpt (failAttempt l r res s) l).lockFails < 3 then failAttempt l r res s
    else (laneOpt s l).unbankCmd.elim (giveUp l (triedWith s l res) (failAttempt l r res s)) fun c =>
      endWith c 0x0A 0 (giveUp l (triedWith s l res) (failAttempt l r res s)) := by
  have ring : (laneOpt (modLaneOpt l (fun o => { o with recovering := false, unbankCmd := none }) (failAttempt l r res s)) l).rxRing =
      (laneOpt (failAttempt l r res s) l).rxRing := by
    rw [laneOpt_modLaneOpt]
  have failed : ¬(retrainOk r = true ∧ (!(laneOpt s l).excluded.contains res) = true) := by
    rintro ⟨ok, fresh⟩
    rcases lost with no | tried
    · simp [ok] at no
    · simp [tried] at fresh
  refine (if_neg failed).trans ?_
  simp only [giveUp, ← ring]
  cases (laneOpt s l).unbankCmd <;> rfl

theorem recoverStep_tries_again (h : (laneOpt s l).lockFails < 2) : recoverStep l r res s = failAttempt l r res s := by
  rw [recoverStep_of_lost lost, if_pos (by rw [failAttempt_lockFails]; omega)]

variable (third : 2 ≤ (laneOpt s l).lockFails)
include third

theorem recoverStep_gives_up : recoverStep l r res s =
    (laneOpt s l).unbankCmd.elim (giveUp l (triedWith s l res) (failAttempt l r res s)) fun c =>
      endWith c 0x0A 0 (giveUp l (triedWith s l res) (failAttempt l r res s)) := by
  rw [recoverStep_of_lost lost, if_neg (by rw [failAttempt_lockFails]; omega)]

end

/-! ### SHORT_RETRAIN: the end of a slice (R231, R240, R241) -/

theorem sliceOn_lane {s : State} {l b : Nat} {x : Slice} (h : sliceOn s l = some (b, x)) : x.lane = l := by
  have found := List.find?_some h
  simp only [Bool.and_eq_true, beq_iff_eq] at found
  exact found.1

/-- The barn reference test of a slice, where it has tests. -/
def refTest (b : Nat) (x : Slice) (s : State) : State := match x.test with
  | some t => barnRef b t.barnRef s
  | none => s

/-- A lane has completed its calibration. -/
def calibrated (l : Nat) (s : State) : State :=
  bumpLink l 13 (modLaneOpt l (fun o => { o with lastCal := secOf s.time.now % 65536, calAt := s.time.now }) s)

section
variable {b : Nat} {x : Slice} {r : RetrainEnd} {s : State}

theorem sliceEnds_of_failedTests (h : 0 < sliceFails x) : sliceEnds b x r s =
    report (laneFault 0x0904 2 x.lane) (bankLane x.lane 3 (bumpBy (ctr 8 b 18) (sliceFails x) (refTest b x s))) := if_pos h

variable (passed : sliceFails x = 0)
include passed

theorem sliceEnds_of_notTrained (h : retrainOk r = false) :
    sliceEnds b x r s = wrongLock x.lane 1 (retrainRx r) (refTest b x s) :=
  (if_neg (by omega)).trans (if_pos (by simp [h]))

theorem sliceEnds_of_trained (h : retrainOk r = true) : sliceEnds b x r s =
    endSlice x.lane 0 (joinService x.lane (setSwing x.lane (calibrated x.lane (refTest b x s)))) :=
  (if_neg (by omega)).trans (if_neg (by simp [h]))

end

/-! ### SHORT_RETRAIN: a failed short retraining (R269) -/

theorem shortFail_again {l : Nat} {s : State} (h : (laneLink s l).shortFails < 2) :
    shortFail l s = modLaneLink l (fun x => { x with shortFails := x.shortFails + 1 }) s := if_pos (by omega)

theorem shortFail_trainsFully {l : Nat} {s : State} (h : 2 ≤ (laneLink s l).shortFails) (training : laneState s l = .training) :
    shortFail l s = modLaneLink l (fun x => { x with shortFails := 0, trainStep := 0 }) s := by
  rw [shortFail, if_neg (by omega), training]
  rfl

end Sys2Proof.Machine

namespace Sys2Proof.Proofs

open Sys2Proof.Machine

/-- Settles O36: each clause is the lemma that says what its row does in the state that the clause describes. -/
theorem opticalRows : Obligations.OpticalRows := by
  unfold Obligations.OpticalRows
  refine ⟨?slice, ?lockLost, ?reading, ?swapStart, ?retrain⟩
  case slice =>
    intro b j test s l turn m
    refine ⟨sliceNow_iff s b j, fun other => next_congr (calSliceStart_of_otherTime test other),
      fun due off => next_congr (calSliceStart_of_off test due off), fun due enabled up => ?_⟩
    intro v busy
    refine ⟨fun taken => ?_, fun free => ?_⟩
    · exact next_congr (calSliceStart_of_taken test due enabled up taken)
    · exact next_congr (calSliceStart_begins test due enabled up free)
  case lockLost =>
    intro l rx s
    exact ⟨fun used => next_congr (lockLost_of_inUse rx used),
      fun serves away => next_congr (lockLost_of_notInUse rx (not_or.mpr ⟨serves, away⟩))⟩
  case reading =>
    intro k r s
    refine ⟨fun one two three => next_congr (laserReading_of_unlit ?_), fun lit => ?_⟩
    · exact not_or.mpr ⟨one, not_or.mpr ⟨two, three⟩⟩
    intro v old rs
    obtain ⟨below, above⟩ := meanFade_between s (readingsWith_ne_nil s k r)
    have laser := theLaser_takeReading k r s
    refine ⟨takeReading k r s, meanFade s (readingsWith s k r), congrArg Laser.readings laser, congrArg Laser.fade laser, below, above,
      meanFade_exact s, takeReading_eq k r s, fun bright => ?_, fun dark unpromised => ?_, fun h w dark swapping promised => ?_⟩
    · exact next_congr (laserReading_of_bright lit bright)
    · exact next_congr (laserReading_laserFails lit dark unpromised)
    · exact next_congr (laserReading_spareFails lit dark swapping promised)
  case swapStart =>
    intro f s
    refine ⟨fun ⟨e, mem, half, started, spare⟩ => ?_, fun allRun => ?_, fun e idle next => ?_⟩
    · exact next_congr (kilnSwapStart_of_running ⟨e, mem, half, spare, started⟩)
    · refine next_congr (kilnSwapStart_of_noneWaits ?_ (List.find?_eq_none.mpr fun e mem waits => ?_))
      · rintro ⟨e, mem, half, spare, -⟩
        exact spare (allRun e mem half).2
      · simp only [Bool.and_eq_true, beq_iff_eq, Bool.not_eq_true'] at waits
        obtain ⟨half, waits⟩ := waits
        exact Bool.eq_false_iff.mp waits (allRun e mem half).1
    · have still : ¬SwapRuns s f := by
        rintro ⟨x, mem, half, spare, started⟩
        exact spare (idle x mem half started)
      refine ⟨fun sliced => next_congr (kilnSwapStart_of_sliced still next sliced),
        fun free => next_congr (kilnSwapStart_starts still next ?_)⟩
      rintro ⟨x, mem, runs, group⟩
      exact free x mem runs group
  case retrain =>
    intro l r matched res s i k tried
    refine ⟨fun no => next_congr (shortRetrain_ignored no),
      fun due ended ok notDone away => next_congr (shortRetrain_waits ended due ok notDone away), ?recovery, ?slice, ?plain⟩
    case recovery =>
      intro banked recovering ended
      have attempt := shortRetrain_of_recovering (done := matched) (res := res) ended banked recovering
      refine ⟨fun ok done fresh => next_congr (attempt.trans ((if_neg (by simp [done])).trans (recoverStep_recovers ok fresh))),
        fun lost => ?_⟩
      intro f
      have goesOn : ¬(retrainOk r && !matched) = true := by
        rcases lost with no | ⟨done, -⟩
        · simp [no]
        · simp [done]
      have failed : retrainOk r = false ∨ res ∈ (laneOpt k l).excluded := lost.imp_right And.right
      have failure : f = failAttempt l r res k := by
        cases r <;> rfl
      refine ⟨fun few => ?_, fun third => ?_⟩
      · exact next_congr (attempt.trans ((if_neg goesOn).trans ((recoverStep_tries_again failed few).trans failure.symm)))
      · intro g
        have given : g = giveUp l tried (failAttempt l r res k) := by
          rw [← failure]
          rfl
        have ends := (attempt.trans (if_neg goesOn)).trans (recoverStep_gives_up failed third)
        refine ⟨fun c asked => next_congr (ends.trans ?_), fun unasked => next_congr (ends.trans ?_)⟩
        · rw [exchangeDone_laneOpt, asked, given]
          rfl
        · rw [exchangeDone_laneOpt, unasked, given]
          rfl
    case slice =>
      intro b x withdrawn idle slice ended u
      have judged := shortRetrain_of_slice (done := matched) (res := res) ended withdrawn idle slice
      have lane : x.lane = l := sliceOn_lane slice
      have tested : u = refTest b x k := rfl
      refine ⟨fun fails => ?_, fun passed ok notDone => ?_, fun passed ok done => ?_, fun passed lost => ?_⟩
      · rw [tested, ← lane]
        exact next_congr (judged.trans ((if_neg (by omega)).trans (sliceEnds_of_failedTests fails)))
      · exact next_congr (judged.trans (if_pos ⟨by simp [ok, notDone], passed⟩))
      · rw [tested, ← lane]
        exact next_congr (judged.trans ((if_neg (by simp [done])).trans (sliceEnds_of_trained passed ok)))
      · rw [tested, ← lane]
        exact next_congr (judged.trans ((if_neg (by simp [lost])).trans (sliceEnds_of_notTrained passed lost)))
    case plain =>
      intro due state
      refine ⟨fun a b is inEnough outEnough => ?_, fun is => ?_, fun rx is few => ?_, fun rx is third training => ?_⟩ <;> subst is
      · have ended : checkEnded (.trained a b) = true := by simp [checkEnded, inEnough, outEnough]
        refine next_congr ((shortRetrain_of_plain ended due state).trans ?_)
        cases matched <;> rfl
      · exact next_congr (shortRetrain_of_plain rfl due state)
      · exact next_congr ((shortRetrain_of_plain rfl due state).trans (shortFail_again (by rwa [exchangeDone_shortFails])))
      · exact next_congr ((shortRetrain_of_plain rfl due state).trans
          (shortFail_trainsFully (by rwa [exchangeDone_shortFails]) training))

end Sys2Proof.Proofs
end

section
/-! SUPPORT. A flit slot (R251, R252, R256, R257, R260, R263, R270, R377): how a slot is judged, what of a flit with the learned tag is
taken up before its type is looked at, what each type then does, and the three operations of the retry protocol and of credit. -/

namespace Sys2Proof.Machine

/-! ### Errors, acknowledgements and credit (R257, R270) -/

section
variable {l : Nat} {s : State}

theorem nakError_of_discarding (h : (laneLink s l).discarding = true) : nakError l s = s := if_pos h

theorem nakError_of_inOrder (h : (laneLink s l).discarding = false) :
    nakError l s = sayNak l (modLaneLink l (fun k => { k with discarding := true }) s) := if_neg (by simp [h])

/-- How far an acknowledgement lies after the last one of a lane. -/
def ackAdvance (s : State) (l a : Nat) : Nat := (a + 4096 - (laneLink s l).txAcked) % 4096

theorem ackUpTo_ignored {a : Nat} (h : ackAdvance s l a = 0 ∨ outstanding (laneLink s l) < ackAdvance s l a) : ackUpTo l a s = s :=
  if_neg fun ⟨later, within⟩ => h.elim (Nat.ne_of_gt later) (Nat.not_lt.mpr within)

theorem ackUpTo_releases {a : Nat} (later : 0 < ackAdvance s l a) (within : ackAdvance s l a ≤ outstanding (laneLink s l)) :
    ackUpTo l a s = settleIdle l (pump l (((laneLink s l).retry.filter fun p => !staysIn a p).foldl (fun s p => deliver p s)
      (modLaneLink l (fun k =>
        { k with txAcked := a, replaySeq := 4096, replays := 0, retry := k.retry.filter (staysIn a) }) s))) :=
  if_pos ⟨later, within⟩

end

/-- How far a carried limit lies after the one that a class of a port has. -/
def limitAdvance (s : State) (p c v : Nat) : Nat := (v + 2 ^ 24 - tget s.link.crLimit 0 (clsKey p c)) % 2 ^ 24

theorem takeCredit_later {p c v : Nat} {s : State} (h : limitAdvance s p c v < 2 ^ 23) :
    tget (takeCredit p c v s).link.crLimit 0 (clsKey p c) = v := by
  have taken : takeCredit p c v s = s.modLink fun k => { k with crLimit := tset k.crLimit 0 (clsKey p c) v } := if_pos h
  rw [taken, State.modLink_link, tget_tset_any, if_pos rfl]

theorem takeCredit_older {p c v : Nat} {s : State} (h : 2 ^ 23 ≤ limitAdvance s p c v) : takeCredit p c v s = s :=
  if_neg (Nat.not_lt.mpr h)

/-! ### Flits in sequence (R257) -/

section
variable {l seq : Nat} {act : State → State} {s : State}

theorem sequenced_inOrder (h : seq = ((laneLink s l).rxSeq + 1) % 4096) : sequenced l seq act s =
    act (modLaneLink l (fun k => { k with rxSeq := seq, nak := false, discarding := false }) s) := if_pos h

theorem sequenced_outOfOrder (h : seq ≠ ((laneLink s l).rxSeq + 1) % 4096) : sequenced l seq act s = nakError l s := if_neg h

end

/-! ### What each type of flit does (R252, R253, R256, R260, R263) -/

/-- The type of a flit (R252). -/
abbrev flitType (bytes : List Byte) : Nat := fld (flitWord bytes 0) 31 29

/-- What every flit carries is taken up: its ACK, its NAK bit and its credit, in that order. -/
def takeUp (l p : Nat) (bytes : List Byte) (s : State) : State :=
  let w0 := flitWord bytes 0
  let w2 := flitWord bytes 2
  let a := ackUpTo l (fld w0 16 5) s
  takeCredit p (fld w2 26 24) (fld w2 23 0) (if bitAt w0 4 = true then replay l a else a)

section
variable {l p : Nat} {bytes : List Byte} {s : State}

theorem goodFlit_of_data (h : flitType bytes = 1) : goodFlit l p bytes s = sequenced l (fld (flitWord bytes 0) 28 17)
    (dataFlit l (flitWord bytes 1) ((bytes.drop 12).take 240)) (takeUp l p bytes s) := by
  simp only [goodFlit, takeUp, h]

theorem goodFlit_of_control (h : flitType bytes = 2) : goodFlit l p bytes s = sequenced l (fld (flitWord bytes 0) 28 17)
    (fun s => (ctlOf bytes).foldl (fun s m => actCtl l m s) s) (takeUp l p bytes s) := by
  simp only [goodFlit, takeUp, h]

theorem goodFlit_of_marker (h : flitType bytes = 3) (same : markerBad (laneLink (takeUp l p bytes s) l) bytes = false) :
    goodFlit l p bytes s = modPort p (fun x => { x with farId := fld (flitWord bytes 4) 31 8 }) (takeUp l p bytes s) := by
  rw [takeUp] at same
  simp only [goodFlit, takeUp, h, same, Bool.false_eq_true, if_false]

theorem goodFlit_of_otherMarker (h : flitType bytes = 3) (differs : markerBad (laneLink (takeUp l p bytes s) l) bytes = true) :
    goodFlit l p bytes s = tagMismatch l (takeUp l p bytes s) := by
  rw [takeUp] at differs
  simp only [goodFlit, takeUp, h, differs, if_true]

theorem goodFlit_of_time (h : flitType bytes = 4) : goodFlit l p bytes s = timeFlit l bytes (takeUp l p bytes s) := by
  simp only [goodFlit, takeUp, h]

theorem goodFlit_of_other (h : flitType bytes = 0 ∨ 5 ≤ flitType bytes) : goodFlit l p bytes s = takeUp l p bytes s := by
  rw [flitType] at h
  unfold goodFlit
  dsimp only
  split
  · omega
  · omega
  · omega
  · omega
  · rfl

end

/-! ### How a slot is judged (R247, R252, R257, R260, R377) -/

theorem exec_flitRx (l : Fin 1024) {bytes : List Byte} (outcome : FlitEnd) (s : State) (h : bytes.length = 256) :
    exec (.flitRx l bytes outcome) s = .next (flitRx l bytes outcome s) := if_pos h

/-- A slot is counted, and the codewords corrected in it. -/
def takeSlot (l n : Nat) (s : State) : State := bumpBy (ctr 8 (barnOf l) 0) n (countSlot l s)

/-- The slot's flit shows its LANE_TAG. -/
def seeTag (l n : Nat) (bytes : List Byte) (s : State) : State :=
  modLaneLink l (fun k => { k with seenTag := fld (flitWord bytes 0) 3 0 }) (takeSlot l n s)

theorem laneLink_seeTag (l n : Nat) (bytes : List Byte) (s : State) : laneLink (seeTag l n bytes s) l =
    { laneLink s l with rxPos := (laneLink s l).rxPos + 1, seenTag := fld (flitWord bytes 0) 3 0 } := by
  have counted : laneLink (takeSlot l n s) l = { laneLink s l with rxPos := (laneLink s l).rxPos + 1 } :=
    laneLink_modLaneLink l (fun k => { k with rxPos := k.rxPos + 1 }) s
  rw [seeTag, laneLink_modLaneLink, counted]

/-- The lane has learned another tag than the flit's. -/
def OtherTag (s : State) (l : Nat) (bytes : List Byte) : Prop :=
  ∃ t, (laneLink s l).farTag = some t ∧ t ≠ fld (flitWord bytes 0) 3 0

theorem otherTag_iff (s : State) (l n : Nat) (bytes : List Byte) : OtherTag s l bytes ↔
    ((laneLink (seeTag l n bytes s) l).farTag.any fun t => t != (laneLink (seeTag l n bytes s) l).seenTag) = true := by
  rw [laneLink_seeTag]
  simp only [OtherTag, Option.any_eq_true, bne_iff_ne]

theorem not_otherTag {s : State} {l : Nat} {bytes : List Byte}
    (h : (laneLink s l).farTag = none ∨ (laneLink s l).farTag = some (fld (flitWord bytes 0) 3 0)) : ¬OtherTag s l bytes := by
  rintro ⟨t, learned, other⟩
  rcases h with unlearned | same
  · exact Option.some_ne_none t (learned.symm.trans unlearned)
  · exact other (Option.some.inj (learned.symm.trans same))

/-- What a slot does whose codewords are all good or corrected: its flit's CRC-32, its tag and the read that its NAK bit calls for
decide in turn. -/
def judgeFlit (l p n : Nat) (bytes : List Byte) (outcome : FlitEnd) (s : State) : State :=
  if !flitCrcOk bytes then
    let t := bumpLink l 2 (takeSlot l n s)
    nakError l (if flitType bytes = 4 then bumpIn (barnOf l) 19 t else t)
  else
    let t := seeTag l n bytes s
    if (laneLink t l).farTag.any fun x => x != (laneLink t l).seenTag then tagMismatch l t
    else if outcome = .retryUe ∧ bitAt (flitWord bytes 0) 4 then retryUe l (ackUpTo l (fld (flitWord bytes 0) 16 5) t)
    else goodFlit l p bytes t

section
variable {l p : Nat} {bytes : List Byte} {s : State}

theorem flitRx_of_deaf (outcome : FlitEnd) (h : portOfLane s l = none ∨ sends s l = false) : flitRx l bytes outcome s = s := by
  unfold flitRx
  split
  · rfl
  · next p port => exact if_neg (by simpa [port] using h)

section
variable (port : portOfLane s l = some p) (sending : sends s l = true)
include port sending

theorem flitRx_of_uncorrectable : flitRx l bytes .uncorrectable s = nakError l (countSlot l (badPair l s)) := by
  unfold flitRx
  rw [port]
  exact (if_pos sending).trans (if_pos rfl)

theorem flitRx_of_clean (n : Nat) : flitRx l bytes (.clean n) s = judgeFlit l p n bytes (.clean n) s := by
  unfold flitRx
  rw [port]
  exact (if_pos sending).trans (if_neg nofun)

theorem flitRx_of_retryUe : flitRx l bytes .retryUe s = judgeFlit l p 0 bytes .retryUe s := by
  unfold flitRx
  rw [port]
  exact (if_pos sending).trans (if_neg nofun)

end

variable {n : Nat} {outcome : FlitEnd}

theorem judgeFlit_of_badCrc (h : flitCrcOk bytes = false) : judgeFlit l p n bytes outcome s =
    nakError l (if flitType bytes = 4 then bumpIn (barnOf l) 19 (bumpLink l 2 (takeSlot l n s)) else bumpLink l 2 (takeSlot l n s)) :=
  if_pos (by simp [h])

variable (good : flitCrcOk bytes = true)
include good

theorem judgeFlit_of_otherTag (h : OtherTag s l bytes) : judgeFlit l p n bytes outcome s = tagMismatch l (seeTag l n bytes s) :=
  (if_neg (by simp [good])).trans (if_pos ((otherTag_iff s l n bytes).mp h))

variable (known : ¬OtherTag s l bytes)
include known

theorem judgeFlit_of_unreadable (nak : bitAt (flitWord bytes 0) 4 = true) : judgeFlit l p n bytes .retryUe s =
    retryUe l (ackUpTo l (fld (flitWord bytes 0) 16 5) (seeTag l n bytes s)) :=
  (if_neg (by simp [good])).trans ((if_neg (mt (otherTag_iff s l n bytes).mpr known)).trans (if_pos ⟨rfl, nak⟩))

theorem judgeFlit_takes (h : outcome ≠ .retryUe ∨ bitAt (flitWord bytes 0) 4 = false) :
    judgeFlit l p n bytes outcome s = goodFlit l p bytes (seeTag l n bytes s) :=
  (if_neg (by simp [good])).trans ((if_neg (mt (otherTag_iff s l n bytes).mpr known)).trans (if_neg fun ⟨unread, nak⟩ =>
    h.elim (· unread) (Bool.eq_false_iff.mp · nak)))

end

end Sys2Proof.Machine

namespace Sys2Proof.Proofs

open Sys2Proof.Machine

/-- Settles O37: a slot is judged by the state of its lane, its codewords, its CRC and its tag in turn, and a flit that passes acts by
its type on what taking it up leaves. -/
theorem flitReception : Obligations.FlitReception := by
  unfold Obligations.FlitReception
  refine ⟨?deaf, ?slot, fun l s => ⟨nakError_of_discarding, nakError_of_inOrder⟩,
    fun l a s => ⟨ackUpTo_ignored, ackUpTo_releases⟩, ?credit⟩
  case deaf =>
    intro l bytes unc s whole noLink
    exact (exec_flitRx l unc s whole).trans (next_congr (flitRx_of_deaf unc noLink))
  case credit =>
    intro p c v s
    have key : clsKey p c = 8 * p + c := by rw [clsKey, Nat.mul_comm]
    rw [← key]
    exact ⟨takeCredit_later, takeCredit_older⟩
  case slot =>
    intro l bytes s p whole port sending w0 crc slot r seen
    have clean (n : Nat) : exec (.flitRx l bytes (.clean n)) s = .next (judgeFlit l p n bytes (.clean n) s) :=
      (exec_flitRx l _ s whole).trans (next_congr (flitRx_of_clean port sending n))
    have unread : exec (.flitRx l bytes .retryUe) s = .next (judgeFlit l p 0 bytes .retryUe s) :=
      (exec_flitRx l _ s whole).trans (next_congr (flitRx_of_retryUe port sending))
    refine ⟨(exec_flitRx l _ s whole).trans (next_congr (flitRx_of_uncorrectable port sending)), fun n bad => ?_,
      fun n t good learned other => ?_, fun n good tag => ?_⟩
    · exact (clean n).trans (next_congr (judgeFlit_of_badCrc bad))
    · exact (clean n).trans (next_congr (judgeFlit_of_otherTag good ⟨t, learned, other⟩))
    · intro a
      have known : ¬OtherTag s l bytes := not_otherTag tag
      have acts : exec (.flitRx l bytes (.clean n)) s = .next (goodFlit l p bytes (seen n)) :=
        (clean n).trans (next_congr (judgeFlit_takes good known (.inl nofun)))
      refine ⟨fun nak => unread.trans (next_congr (judgeFlit_of_unreadable good known nak)), fun noNak => ?_, ?_⟩
      · rw [unread, clean 0, judgeFlit_takes good known (.inr noNak), judgeFlit_takes good known (.inr noNak)]
      · intro b c next took
        refine ⟨fun data inOrder => ?_, fun control inOrder => ?_, fun counted outOfOrder => ?_, fun marker same => ?_,
          fun marker differs => ?_, fun time => ?_, fun other => ?_⟩
        · exact acts.trans (next_congr ((goodFlit_of_data data).trans (sequenced_inOrder inOrder)))
        · exact acts.trans (next_congr ((goodFlit_of_control control).trans (sequenced_inOrder inOrder)))
        · rcases counted with data | control
          · exact acts.trans (next_congr ((goodFlit_of_data data).trans (sequenced_outOfOrder outOfOrder)))
          · exact acts.trans (next_congr ((goodFlit_of_control control).trans (sequenced_outOfOrder outOfOrder)))
        · exact acts.trans (next_congr (goodFlit_of_marker marker same))
        · exact acts.trans (next_congr (goodFlit_of_otherMarker marker differs))
        · exact acts.trans (next_congr (goodFlit_of_time time))
        · exact acts.trans (next_congr (goodFlit_of_other other))

end Sys2Proof.Proofs
end

section
/-! SUPPORT. The invariant along a step (R381, R382, R385, R389), and that no command faults: one whose operands spell no command is
refused, and every other one runs (R355, R360). -/

namespace Sys2Proof.Machine

/-! ### What a step keeps -/

theorem KeepsOut.weaken {s u : State} {o : Host.Outcome State Fault Refusal} (h : Keeps s u) (k : KeepsOut u o) : KeepsOut s o := by
  cases o with
  | next t => exact h.trans k
  | fault | refused => trivial

/-- Taking a command from the queue changes the queue alone. -/
theorem inv_of_dequeued {s : State} (rest : List Instr) (h : Inv s) : Inv { s with pending := rest } :=
  ⟨⟨h.mem.bytes, h.mem.host, h.mem.area, h.mem.tag⟩, h.sec⟩

theorem idle_keeps (s : State) : KeepsOut s (idle s) := by
  unfold idle
  split
  · exact tick_keeps s (.refl s)
  · split
    · exact .weaken (entryTook_keeps s (.refl s)) (exec_keeps _ _)
    · exact unknownEntry_keeps _ s (.refl s)

/-- A step keeps the invariant, and lets the security state only rise. -/
theorem inv_of_step {s t : State} (inv : Inv s) (h : step s = .next t) : Inv t ∧ SecRises s.sec t.sec := by
  cases queue : s.pending with
  | nil =>
    have kept : KeepsOut s (step s) := by
      rw [step, queue]
      exact idle_keeps s
    rw [h] at kept
    exact ⟨kept.inv inv, kept.rises⟩
  | cons c rest =>
    have kept : KeepsOut { s with pending := rest } (step s) := by
      rw [step_of_front queue]
      exact exec_keeps c _
    rw [h] at kept
    exact ⟨kept.inv (inv_of_dequeued rest inv), kept.rises⟩

/-! ### Commands run or are refused -/

/-- A command ends in a next state where its term is well formed, and is refused where it is not. -/
def EndsByForm (c : Instr) (s : State) : Prop :=
  (c.wf = true → ∃ t, exec c s = .next t) ∧ (c.wf = false → exec c s = .refused .illFormed)

/-- A command with one check of its form. -/
theorem endsByForm_of_check {c : Instr} {s t : State} {ok : Prop} [Decidable ok] (form : c.wf = true ↔ ok)
    (h : exec c s = if ok then .next t else .refused .illFormed) : EndsByForm c s :=
  ⟨fun good => ⟨t, h.trans (if_pos (form.mp good))⟩, fun bad => h.trans (if_neg (mt form.mpr (by simp [bad])))⟩

/-- A command without one. -/
theorem endsByForm_of_next {c : Instr} {s t : State} (form : c.wf = true) (h : exec c s = .next t) : EndsByForm c s :=
  ⟨fun _ => ⟨t, h⟩, fun bad => absurd form (by simp [bad])⟩

/-- An entry of a mailbox ring is well formed exactly where its block fits its header (R352). -/
theorem wf_of_mailCmd {c : Instr} {m : MailCmd} (hm : mailCmd c = some m) : c.wf = m.hdr.argsOk m.args := by
  cases c <;> cases hm <;> rfl

theorem endsByForm_of_entry {c : Instr} {m : MailCmd} (hm : mailCmd c = some m) (s : State) : EndsByForm c s := by
  obtain ⟨body, runs⟩ := exec_mail hm s
  exact endsByForm_of_check (by rw [wf_of_mailCmd hm]) runs

/-- Of the rows that are no entries, the accesses to BAR2, the flits, the alignment slots and the thermal readings have operands to
check. -/
theorem endsByForm_of_row {c : Instr} (hm : mailCmd c = none) (s : State) : EndsByForm c s := by
  cases c <;> cases hm
  case bar2Write | bar2Read | flitRx | alignmentSlotRx | thermalSensorRead => exact endsByForm_of_check decide_eq_true_iff rfl
  all_goals exact endsByForm_of_next rfl rfl

theorem endsByForm (c : Instr) (s : State) : EndsByForm c s := by
  cases hm : mailCmd c with
  | none => exact endsByForm_of_row hm s
  | some m => exact endsByForm_of_entry hm s

theorem exec_ne_fault (c : Instr) (s : State) (f : Fault) : exec c s ≠ .fault f := by
  obtain ⟨runs, refused⟩ := endsByForm c s
  cases form : c.wf with
  | true =>
    obtain ⟨t, h⟩ := runs form
    rw [h]
    exact nofun
  | false =>
    rw [refused form]
    exact nofun

theorem step_ne_fault (s : State) (f : Fault) : step s ≠ .fault f := by
  unfold step idle
  split
  · split
    · exact nofun
    · split
      · exact exec_ne_fault _ _ f
      · exact nofun
  · exact exec_ne_fault _ _ f

/-- The command at the front of the queue runs and leaves the rest of it, or is refused. -/
theorem step_of_form {c : Instr} {rest : List Instr} {s : State} (queue : s.pending = c :: rest) :
    (c.wf = true → ∃ t, step s = .next t ∧ t.pending = rest) ∧ (c.wf = false → step s = .refused .illFormed) := by
  rw [step_of_front queue]
  obtain ⟨runs, refused⟩ := endsByForm c { s with pending := rest }
  refine ⟨fun form => ?_, refused⟩
  obtain ⟨t, h⟩ := runs form
  have kept := exec_keeps c { s with pending := rest }
  rw [h] at kept
  exact ⟨t, h, kept.pending⟩

end Sys2Proof.Machine

namespace Sys2Proof.Proofs

open Sys2Proof.Machine

/-- Settles O1: memories are empty but for zeros, and the security state is that of FIELD with one owner. -/
theorem resetHoldsInvariant : Obligations.ResetHoldsInvariant where
  mem := by constructor <;> decide
  sec := by constructor <;> decide

/-- Settles O2: a step is a command, a reference cycle or the taking up of an entry, and each keeps the invariant. -/
theorem stepKeepsInvariant : Obligations.StepKeepsInvariant := fun _ _ => inv_of_step

/-- Settles O3: a command ends by the form of its operands, and keeps the rest of the queue. -/
theorem everyWellFormedCommandRuns : Obligations.EveryWellFormedCommandRuns :=
  ⟨fun _ _ _ => step_of_form, step_ne_fault⟩

end Sys2Proof.Proofs
end

section
/-! SUPPORT. Flue circuits (R278 to R291): what each change leaves of a circuit, the commands on circuits with their refusals, and the
rows of a standing circuit. -/

namespace Sys2Proof.Machine

/-- An accepted entry whose work ends with a reply. -/
theorem run_replied {i : Instr} {m : MailCmd} (hm : mailCmd i = some m) {s t : State} (h : accepted i s = true)
    {body : CmdRef → State → Res} (he : exec i s = runMailbox m.spec (fun _ => m.len) body m.hdr m.args s) {r : Reply}
    (hb : body (refOf i s) (fetched i s) = (t, some r)) : exec i s = .next (writeCompletion (refOf i s) r t) := by
  obtain ⟨ha, hs, hc, hl⟩ := accepted_runs hm h
  simp only [refOf, fetched, hm] at hb ⊢
  rw [he, runMailbox_runs ha hs hc hl, hb]

/-! ### What telling and sending leave of circuits and of device time -/

theorem Tells.now {s t : State} (h : Tells s t) : t.time.now = s.time.now := by rw [h]
theorem Sends.now {s t : State} (h : Sends s t) : t.time.now = s.time.now := by rw [h]
theorem Sends.flue {s t : State} (h : Sends s t) : t.flue = s.flue := by rw [h]

theorem theCirc_of_flue {s t : State} (h : t.flue = s.flue) (c : Nat) : theCirc t c = theCirc s c := by simp only [theCirc, h]

theorem Tells.theCirc {s t : State} (h : Tells s t) (c : Nat) : theCirc t c = theCirc s c := theCirc_of_flue h.flue c
theorem Sends.theCirc {s t : State} (h : Sends s t) (c : Nat) : theCirc t c = theCirc s c := theCirc_of_flue h.flue c

theorem flueNotice_sends (c reason t : Nat) (s : State) : Sends s (flueNotice c reason t s) :=
  (send_sends ..).trans (send_sends ..)

/-! ### A circuit after a change -/

theorem modCirc_theCirc (c d : Nat) (f : Circuit → Circuit) (s : State) :
    theCirc (modCirc c f s) d = if c = d then f (theCirc s c) else theCirc s d := tget_tmod ..

@[simp] theorem modCirc_theCirc_same (c : Nat) (f : Circuit → Circuit) (s : State) :
    theCirc (modCirc c f s) c = f (theCirc s c) := by rw [modCirc_theCirc, if_pos rfl]

@[simp] theorem modCirc_time (c : Nat) (f : Circuit → Circuit) (s : State) : (modCirc c f s).time = s.time := rfl

theorem circTo_theCirc (c d st : Nat) (s : State) :
    theCirc (circTo c st s) d = if c = d then { theCirc s c with state := st } else theCirc s d := by
  unfold circTo
  split
  next same =>
    split
    next here => subst here; rw [← same]
    next => rfl
  next => rw [(capture_tells ..).theCirc, modCirc_theCirc]

@[simp] theorem circTo_theCirc_same (c st : Nat) (s : State) : theCirc (circTo c st s) c = { theCirc s c with state := st } := by
  rw [circTo_theCirc, if_pos rfl]

@[simp] theorem circTo_now (c st : Nat) (s : State) : (circTo c st s).time.now = s.time.now := by
  unfold circTo
  split
  · rfl
  · exact (capture_tells ..).now

@[simp] theorem emit_theCirc (o : Output) (c : Nat) (s : State) : theCirc (emit o s) c = theCirc s c := rfl
@[simp] theorem emit_now (o : Output) (s : State) : (emit o s).time.now = s.time.now := rfl
@[simp] theorem bumpFlue_theCirc (i c : Nat) (s : State) : theCirc (bumpFlue i s) c = theCirc s c := rfl
@[simp] theorem bumpFlue_now (i : Nat) (s : State) : (bumpFlue i s).time.now = s.time.now := rfl
@[simp] theorem flueNotice_theCirc (c reason t d : Nat) (s : State) : theCirc (flueNotice c reason t s) d = theCirc s d :=
  (flueNotice_sends ..).theCirc d
@[simp] theorem report_theCirc (r : FaultRep) (c : Nat) (s : State) : theCirc (report r s) c = theCirc s c :=
  (report_tells ..).theCirc c
@[simp] theorem report_now (r : FaultRep) (s : State) : (report r s).time.now = s.time.now := (report_tells ..).now

/-- A switch-over makes a circuit LIVE at this instant, with its next retune 600 s later, and leaves the others (R285, R286). -/
theorem switchOver_theCirc (c d : Nat) (s : State) : theCirc (switchOver c s) d =
    if c = d then { theCirc s c with state := 3, since := s.time.now, nextAt := s.time.now + retuneGap, retunes := 0,
                                     connectPend := false, noticeAt := none }
    else theCirc s d := by
  simp only [switchOver, emit_theCirc, circTo_theCirc, modCirc_theCirc, if_true]
  split <;> rfl

/-! ### What a measurement leaves of a circuit (R282, R293) -/

/-- Two records of a circuit differ at most in its largest loss and its smallest margin. -/
def Remeasured (x y : Circuit) : Prop := ∃ il v, y = { x with ilMax := il, marginMin := v }

theorem tenths_tells (m : Int) (s : State) : Tells s (tenths m s).2 := by
  unfold tenths
  dsimp only
  split <;> split <;> rfl

/-- With a margin measured, the record takes a loss and a margin. -/
theorem recordMeas_cons (c : Nat) (ils : List Nat) (m : Int) (rest : List Int) (s : State) : ∃ il v u, Tells s u ∧
    recordMeas c ils (m :: rest) s = modCirc c (fun x => { x with ilMax := il, marginMin := v }) u := by
  have told := tenths_tells (rest.foldl (fun a b => if b < a then b else a) m) s
  exact ⟨_, _, _, .ite told (told.trans (tookFree_tells _)), rfl⟩

theorem recordMeas_now (c : Nat) (ils : List Nat) (ms : List Int) (s : State) :
    (recordMeas c ils ms s).time.now = s.time.now := by
  cases ms with
  | nil => rfl
  | cons m rest =>
    obtain ⟨il, v, u, told, eq⟩ := recordMeas_cons c ils m rest s
    rw [eq, modCirc_time, told.now]

theorem recordMeas_remeasured (c : Nat) (ils : List Nat) (ms : List Int) (s : State) :
    Remeasured (theCirc s c) (theCirc (recordMeas c ils ms s) c) := by
  cases ms with
  | nil => exact ⟨_, _, rfl⟩
  | cons m rest =>
    obtain ⟨il, v, u, told, eq⟩ := recordMeas_cons c ils m rest s
    exact ⟨il, v, by rw [eq, modCirc_theCirc_same, told.theCirc]⟩

/-- A tuning records its measurement, and tells the host of a path whose loss is too large. -/
theorem tuningFails_remeasured (c : Nat) (m : FlueMeas) (s : State) :
    Remeasured (theCirc s c) (theCirc (tuningFails c m s).2 c) := by
  have measured := recordMeas_remeasured c [m.ilAB, m.ilBA] [marginAB s (theCirc s c) m, marginBA s (theCirc s c) m] s
  unfold tuningFails
  dsimp only
  split
  · exact ⟨_, _, rfl⟩
  · split
    · exact ⟨_, _, rfl⟩
    · split
      · rwa [report_theCirc]
      · split
        · rwa [report_theCirc]
        · split
          · rwa [(tenths_tells ..).theCirc, (tenths_tells ..).theCirc]
          · exact measured

theorem tuningFails_theCirc {c : Nat} {m : FlueMeas} {s u : State} {r : Option Reply} (h : tuningFails c m s = (r, u)) :
    Remeasured (theCirc s c) (theCirc u c) := by
  have := tuningFails_remeasured c m s
  rwa [h] at this

/-! ### After the fetch of an entry -/

@[simp] theorem fetched_theCirc (i : Instr) (s : State) (c : Nat) : theCirc (fetched i s) c = theCirc s c :=
  theCirc_of_flue (fetched_flue i s) c
@[simp] theorem fetched_reservedBy (i : Instr) (s : State) (l : Nat) : reservedBy (fetched i s) l = reservedBy s l := by
  simp only [reservedBy, fetched_flue]
@[simp] theorem fetched_downAndFree (i : Instr) (s : State) (l : Nat) : downAndFree (fetched i s) l = downAndFree s l := by
  simp only [downAndFree, fetched_laneState, fetched_reservedBy, fetched_portOfLane, fetched_thePort]
@[simp] theorem fetched_takeable (i : Instr) (s : State) (l : Nat) : takeable (fetched i s) l = takeable s l := by
  simp only [takeable, fetched_laneState, fetched_reservedBy, fetched_portOfLane, fetched_thePort, fetched_servingLanes]
@[simp] theorem fetched_chooseK (i : Instr) (s : State) (fa fb mask : Nat) (take : Bool) :
    chooseK (fetched i s) fa fb mask take = chooseK s fa fb mask take := by
  simp only [chooseK, fetched_downAndFree, fetched_takeable]
@[simp] theorem fetched_circReady (i : Instr) (s : State) (x : Circuit) : circReady (fetched i s) x = circReady s x := by
  simp only [circReady, halfReady, fetched_power]
@[simp] theorem fetched_circState (i : Instr) (s : State) (c : Nat) : circState (fetched i s) c = circState s c := by
  simp only [circState, fetched_theCirc, fetched_circReady, fetched_time]

/-! ### FLUE_OPEN (R280, R281, R329) -/

/-- The request descriptor that FLUE_OPEN names. -/
def flueRequest (args : List Word) (s : State) : List Word := wordsOf (hostRead s (arg64 args 1) 32)

/-- The circuit and the wavelengths that a request descriptor names. -/
def askedCirc (f : List Word) : Nat := fld (f.getD 0 0) 31 25
def askedMask (f : List Word) : Nat := fld (f.getD 0 0) 10 3

/-- A request that can be served: two fibres, a wavelength, losses of at most 4.0 dB, a lead of at most 100 ms, ends of this
generation. -/
def RequestFits (f : List Word) : Prop :=
  (circOf f).fibreA ≠ (circOf f).fibreB ∧ askedMask f ≠ 0 ∧ (circOf f).outLossA ≤ 40 ∧ (circOf f).outLossB ≤ 40 ∧
    (circOf f).leadMs ≤ 100 ∧ genExt (circOf f).endA = 0 ∧ genExt (circOf f).endB = 0

/-- The record of a circuit whose setup begins at a wavelength. -/
def setupCirc (c : CmdRef) (f : List Word) (m : FlueMeas) (k : Nat) (s : State) : Circuit :=
  { circOf f with k := k, takenA := !downAndFree s (8 * (circOf f).fibreA + k), takenB := !downAndFree s (8 * (circOf f).fibreB + k),
                  cmd := some c, meas := some m, connectPend := bitAt (f.getD 0 0) 1 }

/-- A setup begins: its lanes are reserved and taken. -/
def beginSetup (c : CmdRef) (i : Nat) (x : Circuit) (s : State) : State :=
  finishSetup i (takeLane (circLaneB x) (takeLane (circLaneA x) (addDetached c .none (circTo i 1 (modCirc i (fun _ => x) s)))))

section
variable (c : CmdRef) {args : List Word} (m : FlueMeas) {s : State}

theorem flueOpen_of_used (h : (theCirc s (askedCirc (flueRequest args s))).state ≠ 0) :
    flueOpen c args m s = openRefused St.busy 0 s := if_pos h

variable (unused : (theCirc s (askedCirc (flueRequest args s))).state = 0)
include unused

theorem flueOpen_of_badRequest (h : ¬RequestFits (flueRequest args s)) : flueOpen c args m s = openRefused St.badArgument 1 s := by
  refine (if_neg (not_not.mpr unused)).trans (if_pos ?_)
  by_contra good
  simp only [not_or, Nat.not_lt, ne_eq, not_not] at good
  exact h good

variable (fits : RequestFits (flueRequest args s))
include fits

theorem flueOpen_of_fit : flueOpen c args m s =
    if (thePart s (circOf (flueRequest args s)).partition).state = 2 then openRefused St.partitionRetiring 0 s
    else if (wholeScratch s (barnOf (8 * (circOf (flueRequest args s)).fibreA)) ||
      wholeScratch s (barnOf (8 * (circOf (flueRequest args s)).fibreB))) = true then openRefused St.busy 0 s
    else (chooseK s (circOf (flueRequest args s)).fibreA (circOf (flueRequest args s)).fibreB (askedMask (flueRequest args s))
        (bitAt ((flueRequest args s).getD 0 0) 2)).elim (openRefused St.noWavelength 0 s) fun k =>
      (beginSetup c (askedCirc (flueRequest args s)) (setupCirc c (flueRequest args s) m k s) s, none) := by
  have good : ¬((circOf (flueRequest args s)).fibreA = (circOf (flueRequest args s)).fibreB ∨ askedMask (flueRequest args s) = 0 ∨
      40 < (circOf (flueRequest args s)).outLossA ∨ 40 < (circOf (flueRequest args s)).outLossB ∨
      100 < (circOf (flueRequest args s)).leadMs ∨ genExt (circOf (flueRequest args s)).endA ≠ 0 ∨
      genExt (circOf (flueRequest args s)).endB ≠ 0) := by
    simp only [not_or, Nat.not_lt, ne_eq, not_not]
    exact fits
  refine (if_neg (not_not.mpr unused)).trans ((if_neg good).trans (ite_congr rfl (fun _ => rfl) fun _ => ite_congr rfl (fun _ => rfl) fun _ => ?_))
  show (match chooseK s (circOf (flueRequest args s)).fibreA (circOf (flueRequest args s)).fibreB (askedMask (flueRequest args s))
    (bitAt ((flueRequest args s).getD 0 0) 2) with
    | none => openRefused St.noWavelength 0 s
    | some k => (beginSetup c (askedCirc (flueRequest args s)) (setupCirc c (flueRequest args s) m k s) s, none)) = _
  split <;> simp only [*, Option.elim_none, Option.elim_some]

theorem flueOpen_of_retiring (h : (thePart s (circOf (flueRequest args s)).partition).state = 2) :
    flueOpen c args m s = openRefused St.partitionRetiring 0 s := (flueOpen_of_fit c m unused fits).trans (if_pos h)

variable (part : (thePart s (circOf (flueRequest args s)).partition).state ≠ 2)
include part

theorem flueOpen_of_scratch (h : wholeScratch s (barnOf (8 * (circOf (flueRequest args s)).fibreA)) = true ∨
    wholeScratch s (barnOf (8 * (circOf (flueRequest args s)).fibreB)) = true) : flueOpen c args m s = openRefused St.busy 0 s :=
  (flueOpen_of_fit c m unused fits).trans ((if_neg part).trans (if_pos (Bool.or_eq_true_iff.mpr h)))

variable (clearA : wholeScratch s (barnOf (8 * (circOf (flueRequest args s)).fibreA)) = false)
  (clearB : wholeScratch s (barnOf (8 * (circOf (flueRequest args s)).fibreB)) = false)
include clearA clearB

theorem flueOpen_of_clear : flueOpen c args m s =
    (chooseK s (circOf (flueRequest args s)).fibreA (circOf (flueRequest args s)).fibreB (askedMask (flueRequest args s))
        (bitAt ((flueRequest args s).getD 0 0) 2)).elim (openRefused St.noWavelength 0 s) fun k =>
      (beginSetup c (askedCirc (flueRequest args s)) (setupCirc c (flueRequest args s) m k s) s, none) :=
  (flueOpen_of_fit c m unused fits).trans ((if_neg part).trans (if_neg (by simp [clearA, clearB])))

theorem flueOpen_of_noWavelength (h : chooseK s (circOf (flueRequest args s)).fibreA (circOf (flueRequest args s)).fibreB
    (askedMask (flueRequest args s)) (bitAt ((flueRequest args s).getD 0 0) 2) = none) :
    flueOpen c args m s = openRefused St.noWavelength 0 s := by
  rw [flueOpen_of_clear c m unused fits part clearA clearB, h, Option.elim_none]

theorem flueOpen_begins {k : Nat} (h : chooseK s (circOf (flueRequest args s)).fibreA (circOf (flueRequest args s)).fibreB
    (askedMask (flueRequest args s)) (bitAt ((flueRequest args s).getD 0 0) 2) = some k) : flueOpen c args m s =
    (beginSetup c (askedCirc (flueRequest args s)) (setupCirc c (flueRequest args s) m k s) s, none) := by
  rw [flueOpen_of_clear c m unused fits part clearA clearB, h, Option.elim_some]

end

/-! ### The end of a setup (R281, R283, R285) -/

section
variable {c : Nat} {m : FlueMeas} {cmd : CmdRef} {s : State} (hcmd : (theCirc s c).cmd = some cmd)
  (hmeas : (theCirc s c).meas = some m)
include hcmd hmeas

theorem finishSetup_of_waiting (h : (theCirc s c).state ≠ 1 ∨ circDrained s (theCirc s c) = false) : finishSetup c s = s := by
  simp only [finishSetup, hcmd, hmeas]
  exact if_neg fun ⟨st, dr⟩ => h.elim (· st) (by simp [dr])

variable (setup : (theCirc s c).state = 1) (drains : circDrained s (theCirc s c) = true) {u : State}
include setup drains

theorem finishSetup_of_open {r : Reply} (h : tuningFails c m s = (some r, u)) :
    finishSetup c s = endDetached cmd r (bump (ctr 0x11 0 5) (freeCirc c u)) := by
  obtain ⟨il, v, kept⟩ := tuningFails_theCirc h
  have ucmd : (theCirc u c).cmd = some cmd := by rw [kept, ← hcmd]
  simp only [finishSetup, hcmd, hmeas, setup, drains, h, setupRefused, ucmd]
  rfl

theorem finishSetup_of_closed (h : tuningFails c m s = (none, u)) :
    let v := bump (ctr 0x11 0 4) (circTo c 2 (modCirc c (fun x => { x with since := u.time.now, cmd := none, meas := none }) u))
    finishSetup c s = endDetached cmd ⟨0, 0, [w32 (theCirc s c).k]⟩ (if (theCirc s c).connectPend then switchOver c v else v) := by
  simp only [finishSetup, hcmd, hmeas, setup, drains, h]
  rfl

end

/-! ### FLUE_SWITCH and FLUE_CLOSE (R283, R286, R291) -/

/-- A circuit is being set up: its FLUE_OPEN has not completed. -/
def InSetup (s : State) (c : Nat) : Prop := circState s c = 1 ∧ (theCirc s c).cmd.isSome = true

theorem connectCirc_of_other {c : Nat} {s : State} (not1 : circState s c ≠ 1) (not2 : circState s c ≠ 2) :
    connectCirc c s = (2, s) := by
  unfold connectCirc
  split
  next two => exact absurd two not2
  next one => exact absurd one not1
  next => rfl

section
variable {args : List Word} {s : State}

theorem flueSwitch_of_noConnect (h : 128 ≤ argN args 1 ∨
    (circState s (argN args 1) ≠ 1 ∧ circState s (argN args 1) ≠ 2) ∨ InSetup s (argN args 1)) :
    flueSwitch args s = cmdRefuse St.badArgument 1 s := by
  by_cases big : 128 ≤ argN args 1
  · exact if_pos big
  · refine (if_neg big).trans ?_
    rcases h.resolve_left big with ⟨not1, not2⟩ | ⟨one, open_⟩
    · simp only [connectCirc_of_other not1 not2]
    · simp only [connectCirc, one, open_, if_true]

variable (circ : argN args 1 < 128)
include circ

theorem flueSwitch_of_ready (h : circState s (argN args 1) = 2) : flueSwitch args s = cmdOk (switchOver (argN args 1) s) := by
  refine (if_neg (Nat.not_le.mpr circ)).trans ?_
  simp only [connectCirc, h]

theorem flueSwitch_of_retuned (h : circState s (argN args 1) = 1) (stands : ¬InSetup s (argN args 1)) :
    flueSwitch args s = cmdOk (modCirc (argN args 1) (fun x => { x with connectPend := true }) s) := by
  have done : ¬(theCirc s (argN args 1)).cmd.isSome = true := fun open_ => stands ⟨h, open_⟩
  refine (if_neg (Nat.not_le.mpr circ)).trans ?_
  simp only [connectCirc, h, if_neg done]

omit circ in
theorem flueClose_of_noCirc (h : 128 ≤ argN args 1 ∨ (theCirc s (argN args 1)).state = 0) :
    flueClose args s = cmdRefuse St.badArgument 1 s := if_pos h

theorem flueClose_of_used (used : (theCirc s (argN args 1)).state ≠ 0) : flueClose args s = cmdOk (closeCirc (argN args 1) s) :=
  if_neg (not_or.mpr ⟨Nat.not_le.mpr circ, used⟩)

end

theorem closeCirc_of_setup {c : Nat} {s : State} (h : (theCirc s c).cmd.isSome = true) :
    closeCirc c s = cutSetup c ⟨0x17, 0, []⟩ s := if_pos h

theorem closeCirc_of_dark {c : Nat} {s : State} (done : (theCirc s c).cmd = none) (h : (theCirc s c).state < 3) :
    closeCirc c s = freeCirc c s := by
  simp only [closeCirc, done, Option.isSome_none, Bool.false_eq_true, if_false, if_neg (Nat.not_le.mpr h)]

theorem closeCirc_of_lit {c : Nat} {s : State} (done : (theCirc s c).cmd = none) (h : 3 ≤ (theCirc s c).state) :
    closeCirc c s = freeCirc c (flueNotice c 3 s.time.now (emit (.light c false) s)) := by
  simp only [closeCirc, done, Option.isSome_none, Bool.false_eq_true, if_false, if_pos h]

end Sys2Proof.Machine

namespace Sys2Proof.Proofs

open Sys2Proof.Machine

/-- Settles O40: each clause is the lemma that says what its command, or the end of a setup, does with a circuit in that state. -/
theorem flueCommands : Obligations.FlueCommands := by
  unfold Obligations.FlueCommands
  refine ⟨?open_, ?setup, ?switch, ?close, ?switched⟩
  case open_ =>
    intro h args m s i f f0 c x mask no fits acc
    have run := exec_flueOpen h args m s
    rw [← fetched_theCirc i, ← fetched_thePart i, ← fetched_wholeScratch i s (barnOf (8 * x.fibreA)),
      ← fetched_wholeScratch i s (barnOf (8 * x.fibreB)), ← fetched_chooseK i]
    refine ⟨fun used => run_replied rfl acc run (flueOpen_of_used _ _ used),
      fun unused bad => run_replied rfl acc run (flueOpen_of_badRequest _ _ unused bad),
      fun unused good retires => run_replied rfl acc run (flueOpen_of_retiring _ _ unused good retires),
      fun unused good part full => run_replied rfl acc run (flueOpen_of_scratch _ _ unused good part full),
      fun unused good part clearA clearB => ⟨fun none => ?_, fun k some => ?_⟩⟩
    · exact run_replied rfl acc run (flueOpen_of_noWavelength _ _ unused good part clearA clearB none)
    · intro y
      have record : setupCirc (refOf i s) f m k (fetched i s) = y := by
        simp only [setupCirc, fetched_downAndFree]
        rfl
      refine run_detached rfl acc run ((flueOpen_begins _ _ unused good part clearA clearB some).trans ?_)
      exact congrArg (fun x => (beginSetup (refOf i s) c x (fetched i s), none)) record
  case setup =>
    intro c m cmd s hcmd hmeas
    exact ⟨finishSetup_of_waiting hcmd hmeas, fun setup drains =>
      ⟨fun _ _ => finishSetup_of_open hcmd hmeas setup drains, fun _ => finishSetup_of_closed hcmd hmeas setup drains⟩⟩
  case switch =>
    intro h args s i c setup acc
    have run := exec_flueSwitch h args s
    have same : InSetup (fetched i s) c ↔ setup := by rw [InSetup, fetched_circState, fetched_theCirc]
    rw [← same, ← fetched_circState i]
    exact ⟨fun bad => run_refused rfl acc run (flueSwitch_of_noConnect bad),
      fun circ ready => run_ok rfl acc run (flueSwitch_of_ready circ ready),
      fun circ one stands => run_ok rfl acc run (flueSwitch_of_retuned circ one stands)⟩
  case close =>
    intro h args s i c acc
    have run := exec_flueClose h args s
    have closes (circ : c < 128) (used : (theCirc (fetched i s) c).state ≠ 0) :
        exec i s = .next (okEnd i s [] (closeCirc c (fetched i s))) := run_ok rfl acc run (flueClose_of_used circ used)
    rw [← fetched_theCirc i]
    refine ⟨fun bad => run_refused rfl acc run (flueClose_of_noCirc bad), fun circ dark done => ?_, fun circ lit done => ?_,
      fun circ used open_ => ?_⟩
    · rw [closes circ (by omega), closeCirc_of_dark done (by omega)]
    · rw [closes circ (by omega), closeCirc_of_lit done lit, fetched_time]
    · rw [closes circ used, closeCirc_of_setup open_]
  case switched =>
    intro c s t
    have here := switchOver_theCirc c c s
    rw [if_pos rfl] at here
    refine ⟨by rw [here], by rw [here], ?_, by rw [here], fun d other => (switchOver_theCirc c d s).trans (if_neg (Ne.symm other))⟩
    rw [here]
    rfl

end Sys2Proof.Proofs
end

section
/-! SUPPORT. The rows of a standing circuit (R284, R287 to R290): when each acts, and what a retune leaves of its circuit. -/

namespace Sys2Proof.Machine

/-! ### FLUE_READY_RETUNE (R284, R287) -/

section
variable {c : Nat} {m : FlueMeas} {s : State}

theorem readyRetune_ignored (h : (theCirc s c).state ≠ 2 ∨ circState s c ≠ 1) : readyRetune c m s = s :=
  if_neg fun ⟨ready, due⟩ => h.elim (· ready) (· due)

variable (ready : (theCirc s c).state = 2) (due : circState s c = 1) {u : State}
include ready due

theorem readyRetune_of_open {r : Reply} (h : tuningFails c m (circTo c 1 s) = (some r, u)) : readyRetune c m s =
    circTo c 5 (modCirc c (fun x => { x with connectPend := false, darkA := true, darkB := true }) u) := by
  refine (if_pos ⟨ready, due⟩).trans ?_
  simp only [h]

theorem readyRetune_of_closed (h : tuningFails c m (circTo c 1 s) = (none, u)) :
    let v := circTo c 2 (modCirc c (fun x => { x with since := u.time.now }) u)
    readyRetune c m s = if (theCirc v c).connectPend = true then switchOver c v else v := by
  refine (if_pos ⟨ready, due⟩).trans ?_
  simp only [h]

end

/-! ### FLUE_RETUNE_NOTICE (R288, R290) -/

section
variable {c : Nat} {s : State}

theorem retuneNotice_sent (live : (theCirc s c).state = 3) (once : (theCirc s c).noticeAt ≠ some (theCirc s c).nextAt)
    (due : (theCirc s c).nextAt ≤ s.time.now + usU (1000 * (theCirc s c).leadMs)) (ready : circReady s (theCirc s c) = true) :
    retuneNotice c s =
      flueNotice c 1 (theCirc s c).nextAt (modCirc c (fun x => { x with noticeAt := some (theCirc s c).nextAt }) s) :=
  if_pos ⟨live, once, due, ready⟩

theorem retuneNotice_ignored (h : (theCirc s c).state ≠ 3 ∨ (theCirc s c).noticeAt = some (theCirc s c).nextAt ∨
    s.time.now + usU (1000 * (theCirc s c).leadMs) < (theCirc s c).nextAt ∨ circReady s (theCirc s c) = false) :
    retuneNotice c s = s := by
  refine if_neg fun ⟨live, once, due, ready⟩ => ?_
  rcases h with other | sent | early | down
  · exact other live
  · exact once sent
  · exact absurd due (Nat.not_le.mpr early)
  · simp [down] at ready

end

/-! ### FLUE_RETUNE (R288, R289) -/

theorem liveRetune_ignored {c : Nat} {m : FlueMeas} {s : State} (h : (theCirc s c).state ≠ 3 ∨ circState s c ≠ 4) :
    liveRetune c m s = s :=
  if_neg fun ⟨live, due⟩ => h.elim (· live) (· due)

/-- A retune begins: the circuit is RETUNING, its light is off. -/
def retuneBegins (c : Nat) (s : State) : State := bumpFlue 0 (emit (.light c false) (circTo c 4 s))

/-- A retune up to its outcome: what the directions show is counted and recorded. -/
def retuneSeen (c : Nat) (m : FlueMeas) (s : State) : State :=
  let x := theCirc s c
  let a := dirOutcome m.lightA m.lockA
  let b := dirOutcome m.lightB m.lockB
  let dark := bit (a == 1) + bit (b == 1)
  let s := if dark = 0 then s else bumpBy (ctr 0x11 0 2) dark s
  let ms := (if a = 0 then [marginAB s x m] else []) ++ (if b = 0 then [marginBA s x m] else [])
  let s := recordMeas c ((if a = 0 then [m.ilAB] else []) ++ (if b = 0 then [m.ilBA] else [])) ms s
  let s := if ms.any (fun v => decide (v < 50)) then report (flueFault 0x0B03 1 c x.fibreA 0) (bumpFlue 1 s) else s
  modCirc c (fun x => { x with retunes := x.retunes + 1 }) s

/-- A retune that fails: the circuit is FAILED with its dark sides marked, its ends are told, the rings are reported. -/
def retuneFails (c : Nat) (a b : Nat) (x : Circuit) (s : State) : State :=
  let s := circTo c 5 (modCirc c (fun x => { x with darkA := a == 2, darkB := b == 2, nextAt := 0 }) s)
  let s := flueNotice c 2 s.time.now (if a = 2 ∧ b = 2 then s else emit (.light c true) s)
  ringFails c x.fibreB (circLaneB x) b (ringFails c x.fibreA (circLaneA x) a s)

/-- A retune that holds: the circuit is LIVE, with its next retune on the grid. -/
def retuneHolds (c : Nat) (x : Circuit) (s : State) : State :=
  emit (.light c true) (circTo c 3
    (modCirc c (fun y => { y with nextAt := y.since + ((s.time.now - x.since) / retuneGap + 1) * retuneGap }) s))

theorem liveRetune_eq {c : Nat} {m : FlueMeas} {s : State} (live : (theCirc s c).state = 3) (due : circState s c = 4) :
    liveRetune c m s =
      if dirOutcome m.lightA m.lockA = 2 ∨ dirOutcome m.lightB m.lockB = 2 then
        retuneFails c (dirOutcome m.lightA m.lockA) (dirOutcome m.lightB m.lockB) (theCirc (retuneBegins c s) c) (retuneSeen c m (retuneBegins c s))
      else retuneHolds c (theCirc (retuneBegins c s) c) (retuneSeen c m (retuneBegins c s)) := by
  unfold liveRetune
  rw [if_pos ⟨live, due⟩]
  rfl

@[simp] theorem retuneBegins_theCirc (c : Nat) (s : State) : theCirc (retuneBegins c s) c = { theCirc s c with state := 4 } := by
  rw [retuneBegins, bumpFlue_theCirc, emit_theCirc, circTo_theCirc_same]

@[simp] theorem retuneBegins_now (c : Nat) (s : State) : (retuneBegins c s).time.now = s.time.now := by
  rw [retuneBegins, bumpFlue_now, emit_now, circTo_now]

/-- What is seen of a retune counts it and records its measurement. -/
theorem retuneSeen_spec (c : Nat) (m : FlueMeas) (s : State) : (retuneSeen c m s).time.now = s.time.now ∧
    ∃ il v, theCirc (retuneSeen c m s) c =
      { theCirc s c with ilMax := il, marginMin := v, retunes := (theCirc s c).retunes + 1 } := by
  unfold retuneSeen
  extract_lets x a b dark counted ms measured told
  have hCounted : Tells s counted := .ite (.refl _) rfl
  have hTold : Tells measured told := .ite ((bump_tells _ _).trans (report_tells _ _)) (.refl _)
  obtain ⟨il, v, cMeasured⟩ : Remeasured (theCirc counted c) (theCirc measured c) := recordMeas_remeasured ..
  refine ⟨?_, il, v, ?_⟩
  · rw [modCirc_time, hTold.now, recordMeas_now, hCounted.now]
  · rw [modCirc_theCirc_same, hTold.theCirc, cMeasured, hCounted.theCirc]

@[simp] theorem ringFails_theCirc (c fibre ring d e : Nat) (s : State) : theCirc (ringFails c fibre ring d s) e = theCirc s e := by
  unfold ringFails
  split
  · exact report_theCirc ..
  · rfl

theorem retuneFails_theCirc (c a b : Nat) (x : Circuit) (s : State) : theCirc (retuneFails c a b x s) c =
    { theCirc s c with state := 5, darkA := a == 2, darkB := b == 2, nextAt := 0 } := by
  simp only [retuneFails, ringFails_theCirc, flueNotice_theCirc]
  split <;> simp only [emit_theCirc, circTo_theCirc_same, modCirc_theCirc_same]

theorem retuneHolds_theCirc (c : Nat) (x : Circuit) (s : State) : theCirc (retuneHolds c x s) c =
    { theCirc s c with
      state := 3, nextAt := (theCirc s c).since + ((s.time.now - x.since) / retuneGap + 1) * retuneGap } := by
  simp only [retuneHolds, emit_theCirc, circTo_theCirc_same, modCirc_theCirc_same]

/-- A ring fails where it has light and does not lock. -/
theorem dirOutcome_beq (light lock : Bool) : (dirOutcome light lock == 2) = (light && !lock) := by
  cases light <;> cases lock <;> rfl

section
variable {c : Nat} (m : FlueMeas) {s : State} (live : (theCirc s c).state = 3) (due : circState s c = 4)
include live due

theorem liveRetune_of_locked (a : (m.lightA && !m.lockA) = false) (b : (m.lightB && !m.lockB) = false) :
    ∃ il v, theCirc (liveRetune c m s) c = { theCirc s c with
      state := 3, ilMax := il, marginMin := v, retunes := (theCirc s c).retunes + 1,
      nextAt := (theCirc s c).since + ((s.time.now - (theCirc s c).since) / retuneGap + 1) * retuneGap } := by
  obtain ⟨now, il, v, seen⟩ := retuneSeen_spec c m (retuneBegins c s)
  rw [← dirOutcome_beq, beq_eq_false_iff_ne] at a b
  refine ⟨il, v, ?_⟩
  rw [liveRetune_eq live due, if_neg (not_or.mpr ⟨a, b⟩), retuneHolds_theCirc, seen, now, retuneBegins_now, retuneBegins_theCirc]

theorem liveRetune_of_unlocked (h : (m.lightA && !m.lockA) = true ∨ (m.lightB && !m.lockB) = true) :
    ∃ il v, theCirc (liveRetune c m s) c = { theCirc s c with
      state := 5, ilMax := il, marginMin := v, retunes := (theCirc s c).retunes + 1, darkA := m.lightA && !m.lockA,
      darkB := m.lightB && !m.lockB, nextAt := 0 } := by
  obtain ⟨-, il, v, seen⟩ := retuneSeen_spec c m (retuneBegins c s)
  rw [← dirOutcome_beq, ← dirOutcome_beq, beq_iff_eq, beq_iff_eq] at h
  refine ⟨il, v, ?_⟩
  rw [liveRetune_eq live due, if_pos h, retuneFails_theCirc, seen, dirOutcome_beq, dirOutcome_beq, retuneBegins_theCirc]

end

/-! ### FLUE_LOS (R289) -/

theorem flueLos_of_live {c : Nat} {s : State} (h : circState s c = 3) :
    flueLos c s = capture 18 c (bump (ctr 0x11 0 3) s) := if_pos h

theorem flueLos_ignored {c : Nat} {s : State} (h : circState s c ≠ 3) : flueLos c s = s := if_neg h

end Sys2Proof.Machine

namespace Sys2Proof.Proofs

open Sys2Proof.Machine

/-- Settles O41: each clause is the lemma that says what its row does with a circuit in that state. -/
theorem flueRows : Obligations.FlueRows := by
  unfold Obligations.FlueRows
  refine ⟨fun c m s ready due => ⟨fun _ _ open_ => next_congr (readyRetune_of_open ready due open_),
      fun _ closed => next_congr (readyRetune_of_closed ready due closed)⟩,
    fun c m s other => next_congr (readyRetune_ignored other),
    fun c s => ⟨fun live once due ready => next_congr (retuneNotice_sent live once due ready),
      fun other => next_congr (retuneNotice_ignored other)⟩,
    fun c m s live due => ⟨_, rfl, ?retuned⟩,
    fun c m s other => next_congr (liveRetune_ignored other),
    fun c side s => ⟨fun live => next_congr (flueLos_of_live live), fun other => next_congr (flueLos_ignored other)⟩⟩
  case retuned =>
    cases a : m.lightA && !m.lockA <;> cases b : m.lightB && !m.lockB
    case false.false =>
      obtain ⟨il, v, circ⟩ := liveRetune_of_locked m live due a b
      rw [circ]
      exact ⟨rfl, fun _ _ => ⟨rfl, rfl⟩, fun fails => by simp at fails⟩
    all_goals
      obtain ⟨il, v, circ⟩ := liveRetune_of_unlocked m live due (by simp [a, b])
      rw [circ, a, b]
      exact ⟨rfl, fun _ _ => by simp_all, fun _ => ⟨rfl, rfl, rfl, rfl⟩⟩

end Sys2Proof.Proofs
end

section
/-! SUPPORT. The time commands (R302, R304, R307, R308, R310, R322): each refusal, and what a command that passes its checks does. -/

namespace Sys2Proof.Machine

/-! ### After the fetch of an entry -/

@[simp] theorem fetched_thePtp (i : Instr) (s : State) (p : Nat) : thePtp (fetched i s) p = thePtp s p := by
  simp only [thePtp, fetched_time]
@[simp] theorem fetched_stepFits (i : Instr) (s : State) (d : Rat) : stepFits (fetched i s) d = stepFits s d := by
  simp only [stepFits, fetched_time]
@[simp] theorem fetched_timeUnset (i : Instr) (s : State) : timeUnset (fetched i s) = timeUnset s := by
  simp only [timeUnset, fetched_time]

/-! ### TIME_CONFIG (R322) -/

/-- A word of TIME_CONFIG is in its range. -/
def TimeWordOk (args : List Word) (w : Nat) : Prop :=
  match w with
  | 1 => 100 ≤ argN args 1 ∧ argN args 1 ≤ 1000000000
  | 2 => 1 ≤ argN args 2 ∧ argN args 2 ≤ 200
  | 3 => argN args 3 ≤ 15
  | 4 => argN args 4 ≤ 15
  | 5 => 10 ≤ argN args 5 ∧ argN args 5 ≤ 60000
  | 6 => argN args 6 ≤ 255
  | 10 => 1 ≤ argN args 10 ∧ argN args 10 ≤ 500
  | _ => True

/-- The settings that TIME_CONFIG gives. -/
def configTime (args : List Word) (s : State) : State :=
  s.modTime fun t =>
    { t with stepNs := argN args 1, slewPpm := argN args 2, pshift := argN args 3, ishift := argN args 4, holdoverMs := argN args 5,
             domain := argN args 6, clockId := BitVec.ofNat 64 (arg64 args 7), ppsDelay := (arg args 9).toInt, ppsWidthMs := argN args 10 }

/-- A check of a word stops TIME_CONFIG exactly where the word is out of range. -/
theorem timeWord_bad_iff (args : List Word) :
    ((argN args 1 < 100 ∨ 1000000000 < argN args 1) ↔ ¬TimeWordOk args 1) ∧ ((argN args 2 < 1 ∨ 200 < argN args 2) ↔ ¬TimeWordOk args 2) ∧
    (15 < argN args 3 ↔ ¬TimeWordOk args 3) ∧ (15 < argN args 4 ↔ ¬TimeWordOk args 4) ∧
    ((argN args 5 < 10 ∨ 60000 < argN args 5) ↔ ¬TimeWordOk args 5) ∧ (255 < argN args 6 ↔ ¬TimeWordOk args 6) ∧
    ((argN args 10 < 1 ∨ 500 < argN args 10) ↔ ¬TimeWordOk args 10) := by
  simp only [TimeWordOk]
  omega

section
variable {args : List Word} {s : State}

theorem timeConfig_of_good (good : ∀ w, TimeWordOk args w) : timeConfig args s = cmdOk (configTime args s) := by
  obtain ⟨w1, w2, w3, w4, w5, w6, w10⟩ := timeWord_bad_iff args
  simp only [timeConfig, w1, w2, w3, w4, w5, w6, w10, good, not_true_eq_false, if_false]
  rfl

theorem timeConfig_of_bad {w : Nat} (bad : ¬TimeWordOk args w) (before : ∀ v, v < w → TimeWordOk args v) :
    timeConfig args s = cmdRefuse St.badArgument w s := by
  obtain ⟨w1, w2, w3, w4, w5, w6, w10⟩ := timeWord_bad_iff args
  have checked : w = 1 ∨ w = 2 ∨ w = 3 ∨ w = 4 ∨ w = 5 ∨ w = 6 ∨ w = 10 := by
    by_contra other
    simp only [not_or] at other
    exact bad (by unfold TimeWordOk; split <;> simp_all)
  rcases checked with rfl | rfl | rfl | rfl | rfl | rfl | rfl <;>
    simp only [timeConfig, w1, w2, w3, w4, w5, w6, w10, bad, before, Nat.reduceLT, not_true_eq_false, not_false_eq_true, if_true, if_false]

end

/-! ### TIME_PORT_CONFIG (R302) -/

/-- The two words of TIME_PORT_CONFIG are out of range. -/
def PortTimeBad (v : Nat) : Prop :=
  nfld v 63 62 = 3 ∨ signExt 5 (nfld v 60 56) < -10 ∨ 0 < signExt 5 (nfld v 60 56) ∨ signExt 5 (nfld v 55 51) < -10 ∨
    0 < signExt 5 (nfld v 55 51) ∨ 4 < nfld v 50 48

theorem timePortConfig_of_bad {args : List Word} {s : State} (h : PortTimeBad (arg64 args 1)) :
    timePortConfig args s = cmdRefuse St.badArgument 2 s := if_pos h

theorem timePortConfig_of_good {args : List Word} {s : State} (h : ¬PortTimeBad (arg64 args 1)) : timePortConfig args s =
    cmdOk (modPtp (nfld (arg64 args 1) 9 0) (fun x =>
      { x with role := nfld (arg64 args 1) 63 62, mech := nfld (arg64 args 1) 61 61, logSync := signExt 5 (nfld (arg64 args 1) 60 56),
               logDelay := signExt 5 (nfld (arg64 args 1) 55 51), logAnnounce := nfld (arg64 args 1) 50 48,
               asym := signExt 22 (nfld (arg64 args 1) 41 20) }) s) := if_neg h

/-! ### TIME_SOURCE (R304) -/

theorem toUnits_tells (q : Rat) (s : State) : Tells s (toUnits q s).2 := by
  unfold toUnits
  split <;> rfl

/-- The mean delay of the port that a source names, where it is known. -/
def sourceDelay (args : List Word) (s : State) : Int × State :=
  if argN args 1 = 1 ∧ (thePtp s (argN args 2)).haveDelay = true then toUnits (thePtp s (argN args 2)).meanDelay s else (0, s)

/-- The source is set and its runs begin again. -/
def setSource (args : List Word) (s : State) : State :=
  (sourceDelay args s).2.modTime fun t =>
    { t with srcKind := argN args 1, srcPort := if argN args 1 = 1 then argN args 2 else 0, lastAt := none, goodRun := 0, badRun := 0,
             holdFrom := t.now, pathDelay := (sourceDelay args s).1 }

theorem setSource_state (args : List Word) (s : State) : (setSource args s).time.state = s.time.state := by
  have told : Tells s (sourceDelay args s).2 := by
    unfold sourceDelay
    split
    · exact toUnits_tells _ s
    · exact .refl s
  exact told.timeState

section
variable {args : List Word} {s : State}

theorem timeSource_of_badKind (h : 2 < argN args 1) : timeSource args s = cmdRefuse St.badArgument 1 s := if_pos h

theorem timeSource_of_badPort (kind : argN args 1 = 1) (h : 1024 ≤ argN args 2 ∨ (thePtp s (argN args 2)).role ≠ 2) :
    timeSource args s = cmdRefuse St.badArgument 2 s := (if_neg (by omega)).trans (if_pos ⟨kind, h⟩)

variable (kind : argN args 1 ≤ 2) (port : argN args 1 = 1 → argN args 2 < 1024 ∧ (thePtp s (argN args 2)).role = 2)
include kind port

theorem timeSource_of_good : timeSource args s = cmdOk
    (if argN args 1 = 0 ∧ (s.time.state = 1 ∨ s.time.state = 2) then setTimeState 3 (setSource args s) else setSource args s) := by
  have named : ¬(argN args 1 = 1 ∧ (1024 ≤ argN args 2 ∨ (thePtp s (argN args 2)).role ≠ 2)) := by
    rintro ⟨one, high | other⟩
    · exact absurd (port one).1 (Nat.not_lt.mpr high)
    · exact other (port one).2
  rw [← setSource_state args s]
  exact (if_neg (Nat.not_lt.mpr kind)).trans (if_neg named)

theorem timeSource_of_kept (h : argN args 1 ≠ 0 ∨ (s.time.state ≠ 1 ∧ s.time.state ≠ 2)) :
    timeSource args s = cmdOk (setSource args s) := by
  rw [timeSource_of_good kind port, if_neg]
  rintro ⟨zero, runs⟩
  rcases h with other | ⟨not1, not2⟩
  · exact other zero
  · exact runs.elim not1 not2

theorem timeSource_of_none (none : argN args 1 = 0) (runs : s.time.state = 1 ∨ s.time.state = 2) :
    timeSource args s = cmdOk (setTimeState 3 (setSource args s)) := by
  rw [timeSource_of_good kind port, if_pos ⟨none, runs⟩]

end

/-! ### TIME_SET (R308) -/

/-- The instant that TIME_SET names. -/
def setInstant (args : List Word) : Nat := timeOf (arg args 1) (arg args 2) (arg args 3)

section
variable (c : CmdRef) {args : List Word} {s : State}

theorem timeSet_of_badTime (h : timeOk (arg args 3) = false) : timeSet c args s = cmdRefuse St.badArgument 3 s :=
  if_pos (by simp [h])

variable (ok : timeOk (arg args 3) = true)
include ok

theorem timeSet_at_once (h : argN args 4 = 0) :
    timeSet c args s = cmdOk (relock (stepTime ((setInstant args : Rat) - (s.time.now : Nat) - s.time.sub) s)) := by
  simp only [timeSet, ok, h]
  rfl

theorem timeSet_at_edge (h : argN args 4 = 1) : timeSet c args s =
    ((addDetached c .none s).modTime fun t => { t with ppsSet := t.ppsSet ++ [⟨setInstant args, t.now, c⟩] }, none) := by
  simp only [timeSet, ok, h]
  rfl

theorem timeSet_of_badMode (h : 2 ≤ argN args 4) : timeSet c args s = cmdRefuse St.badArgument 4 s := by
  simp only [timeSet, ok, Bool.not_true, Bool.false_eq_true, if_false]
  split
  next zero => omega
  next one => omega
  next => rfl

end

/-! ### TIME_STEP_ACCEPT and TIME_STEP_DISMISS (R307) -/

/-- The step that is accepted: −PENDING, or the Δ given. -/
def acceptedStep (args : List Word) (s : State) : Int := if argN args 1 = 1 then argI64 args 2 else -s.time.pending

section
variable {args : List Word} {s : State}

theorem timeStepAccept_of_badForm (h : 1 < argN args 1) : timeStepAccept args s = cmdRefuse St.badArgument 1 s := if_pos h

variable (form : argN args 1 ≤ 1)
include form

theorem timeStepAccept_of_noStep (h : s.time.state ≠ 4) : timeStepAccept args s = cmdRefuse St.noStepPending 0 s :=
  (if_neg (Nat.not_lt.mpr form)).trans (if_pos h)

variable (refused : s.time.state = 4)
include refused

theorem timeStepAccept_of_noFit (h : stepFits s (acceptedStep args s) = false) :
    timeStepAccept args s = cmdRefuse St.badArgument (if argN args 1 = 1 then 2 else 0) s :=
  (if_neg (Nat.not_lt.mpr form)).trans ((if_neg (not_not.mpr refused)).trans (if_pos (congrArg (! ·) h)))

theorem timeStepAccept_of_fit (h : stepFits s (acceptedStep args s) = true) :
    timeStepAccept args s = cmdOk (relock (stepTime (acceptedStep args s) s)) := by
  have fits : ¬(!stepFits s (acceptedStep args s)) = true := by simp [h]
  exact (if_neg (Nat.not_lt.mpr form)).trans ((if_neg (not_not.mpr refused)).trans (if_neg fits))

end

theorem timeStepDismiss_of_noStep {s : State} (h : s.time.state ≠ 4) : timeStepDismiss s = cmdRefuse St.noStepPending 0 s := if_pos h

theorem timeStepDismiss_of_step {s : State} (h : s.time.state = 4) :
    timeStepDismiss s = cmdOk (relock (s.modTime fun t => { t with lastAt := none })) := if_neg (not_not.mpr h)

/-! ### CAPTURE_CONFIG (R310) -/

theorem captureConfig_of_badEdges {args : List Word} {s : State} (h : 255 < argN args 3) :
    captureConfig args s = cmdRefuse St.badArgument 3 s := if_pos h

theorem captureConfig_of_good {args : List Word} {s : State} (h : argN args 3 ≤ 255) : captureConfig args s =
    cmdOk (s.modTime fun t => { t with captureMask := BitVec.ofNat 64 (arg64 args 1), edges := BitVec.ofNat 8 (argN args 3) }) :=
  if_neg (Nat.not_lt.mpr h)

end Sys2Proof.Machine

namespace Sys2Proof.Proofs

open Sys2Proof.Machine

/-- Settles O42: each clause is the lemma that says what its command does with the operands that the clause describes. -/
theorem timeCommands : Obligations.TimeCommands := by
  unfold Obligations.TimeCommands
  refine ⟨?config, ?port, ?source, ?set, ?accept, ?dismiss, ?capture⟩
  case config =>
    intro h args s i a ok acc
    have run := exec_timeConfig h args s
    have same : TimeWordOk args = ok := rfl
    rw [← same]
    exact ⟨fun good => run_ok rfl acc run (timeConfig_of_good good),
      fun w bad before => run_refused rfl acc run (timeConfig_of_bad bad before)⟩
  case port =>
    intro h args s i v ls ld acc
    have run := exec_timePortConfig h args s
    refine ⟨fun role sl su dl du log => run_ok rfl acc run (timePortConfig_of_good ?_),
      fun bad => run_refused rfl acc run (timePortConfig_of_bad bad)⟩
    rintro (bad | bad | bad | bad | bad | bad)
    · exact role bad
    · exact absurd sl (not_le.mpr bad)
    · exact absurd su (not_le.mpr bad)
    · exact absurd dl (not_le.mpr bad)
    · exact absurd du (not_le.mpr bad)
    · exact absurd log (not_le.mpr bad)
  case source =>
    intro h args s i kind d t acc
    have run := exec_timeSource h args s
    have set : setSource args (fetched i s) = t := by
      simp only [setSource, sourceDelay, fetched_thePtp]
      rfl
    rw [← set, ← fetched_time i, ← fetched_thePtp i]
    exact ⟨fun low port => ⟨fun kept => run_ok rfl acc run (timeSource_of_kept low port kept),
        fun none runs => run_ok rfl acc run (timeSource_of_none low port none runs)⟩,
      fun bad => run_refused rfl acc run (timeSource_of_badKind bad),
      fun one bad => run_refused rfl acc run (timeSource_of_badPort one bad)⟩
  case set =>
    intro h args s i v acc
    have run := exec_timeSet h args s
    rw [← fetched_time i]
    exact ⟨fun bad => run_refused rfl acc run (timeSet_of_badTime _ bad),
      fun ok => ⟨fun now => run_ok rfl acc run (timeSet_at_once _ ok now), fun edge => run_detached rfl acc run (timeSet_at_edge _ ok edge),
        fun bad => run_refused rfl acc run (timeSet_of_badMode _ ok bad)⟩⟩
  case accept =>
    intro h args s i d acc
    have run := exec_timeStepAccept h args s
    have step : acceptedStep args (fetched i s) = d := by rw [acceptedStep, fetched_time]
    rw [← step, ← fetched_time i, ← fetched_stepFits i]
    exact ⟨fun form refused fits => run_ok rfl acc run (timeStepAccept_of_fit form refused fits),
      fun bad => run_refused rfl acc run (timeStepAccept_of_badForm bad),
      fun form none => run_refused rfl acc run (timeStepAccept_of_noStep form none),
      fun form refused out => run_refused rfl acc run (timeStepAccept_of_noFit form refused out)⟩
  case dismiss =>
    intro h args s i acc
    have run := exec_timeStepDismiss h args s
    rw [← fetched_time i]
    exact ⟨fun step => run_ok rfl acc run (timeStepDismiss_of_step step), fun none => run_refused rfl acc run (timeStepDismiss_of_noStep none)⟩
  case capture =>
    intro h args s i acc
    have run := exec_captureConfig h args s
    exact ⟨fun good => run_ok rfl acc run (captureConfig_of_good good), fun bad => run_refused rfl acc run (captureConfig_of_badEdges bad)⟩

end Sys2Proof.Proofs
end

section
/-! SUPPORT. Steps of device time and the servo (R297, R304, R305, R307): what a step makes of device time, and what an offset does in
each time state. -/

namespace Sys2Proof.Machine

/-! ### What stays of the time state -/

theorem Tells.time {s t : State} (h : Tells s t) : t.time = { s.time with store := t.time.store, lostSrc := t.time.lostSrc } :=
  congrArg State.time h

/-- The time of the second state is that of the first but for the time state and the capture store. -/
def Restated (s t : State) : Prop :=
  t.time = { s.time with state := t.time.state, store := t.time.store, lostSrc := t.time.lostSrc }

namespace Restated

theorem refl (s : State) : Restated s s := rfl

theorem trans {s t u : State} (h : Restated s t) (k : Restated t u) : Restated s u := by
  unfold Restated at h k ⊢
  exact k.trans (by rw [h])

theorem ite {s t u : State} {c : Prop} [Decidable c] (h : Restated s t) (k : Restated s u) : Restated s (if c then t else u) := by
  split
  · exact h
  · exact k

end Restated

theorem Tells.restated {s t : State} (h : Tells s t) : Restated s t := by
  have same := h.timeState
  unfold Restated
  rw [same]
  exact h.time

/-! ### Time states (R304) -/

theorem setTimeState_restated (x : Nat) (s : State) : Restated s (setTimeState x s) := by
  have set : Restated s (s.modTime fun t => { t with state := x }) := rfl
  exact .ite (.refl s) (set.trans (capture_tells ..).restated)

@[simp] theorem setTimeState_state (x : Nat) (s : State) : (setTimeState x s).time.state = x := by
  unfold setTimeState
  split
  next same => exact same
  next => exact (capture_tells ..).timeState

/-- After a step or a dismissal a source locks again, and no step is refused (R304, R307). -/
theorem relock_of_source {s : State} (h : s.time.srcKind ≠ 0) : (relock s).time.state = 1 ∧ (relock s).time.stepRefused = false := by
  refine ⟨(setTimeState_state ..).trans (if_neg h), ?_⟩
  have kept := setTimeState_restated (if s.time.srcKind = 0 then 3 else 1)
    (s.modTime fun t => { t with goodRun := 0, badRun := 0, stepRefused := false, holdFrom := t.now })
  exact congrArg TimeSt.stepRefused kept

/-! ### A step (R297, R305, R309) -/

/-- By how many units of 1/256 ns a step moves the whole part of device time. -/
def jumpOf (d : Rat) (s : State) : Int := ((s.time.now : Rat) + s.time.sub + d).floor - s.time.now

/-- A step up to the launches that it skips: intervals and device time have moved. -/
def jumped (d : Rat) (s : State) : State :=
  let t := (s.time.now : Rat) + s.time.sub + d
  let jump : Int := t.floor - s.time.now
  let s := moveRest jump (moveColl jump (moveCore jump s))
  let s := s.modTime fun x =>
    { x with now := t.floor.toNat, sub := t - t.floor, stepped := t.ceil.toNat, lastAt := none, stepCount := sat 65535 (x.stepCount + 1) }
  let s := s.modOptics fun o => { o with lastSlice := [] }
  let mag := (if d < 0 then -d else d).floor.toNat / 256000
  let s := s.modCount fun c => { c with tally := { c.tally with lastPer := none } }
  tallyFlag 2 (capture 2 (bit (decide (d < 0)) * 2 ^ 23 + sat (2 ^ 23 - 1) mag) (bumpTime 3 s))

theorem stepTime_eq (d : Rat) (s : State) : stepTime d s =
    if 0 < jumpOf d s then kindleSkipped s.time.now (jumped d s).time.now (jumped d s) else jumped d s := rfl

theorem kindleSkipped_of_none (lo hi : Nat) {s : State} (h : s.kindle = []) : kindleSkipped lo hi s = s := by
  rw [kindleSkipped, h, List.filter_nil, List.foldl_nil]

/-- A step that is not forward, or with no entry in the Kindling table, skips no launch. -/
theorem stepTime_of_noLaunch {d : Rat} {s : State} (h : (d ≤ 0 ∧ s.time.sub < 1) ∨ s.kindle = []) : stepTime d s = jumped d s := by
  rw [stepTime_eq]
  rcases h with ⟨back, sub⟩ | none
  · refine if_neg (not_lt.mpr (sub_nonpos.mpr ?_))
    have below : (s.time.now : Rat) + s.time.sub + d < ((s.time.now + 1 : Int) : Rat) := by
      push_cast
      linarith
    have : ((s.time.now : Rat) + s.time.sub + d).floor < (s.time.now : Int) + 1 := Int.floor_lt.mpr below
    omega
  · have noEntry : (jumped d s).kindle = [] := (capture_tells ..).kindle.trans none
    rw [kindleSkipped_of_none _ _ noEntry, ite_self]

/-- A step makes device time whole and part again, counts itself, and leaves the rate (R297, R305). -/
theorem jumped_time (d : Rat) (s : State) :
    (jumped d s).time.now = ((s.time.now : Rat) + s.time.sub + d).floor.toNat ∧
    (jumped d s).time.sub = (s.time.now : Rat) + s.time.sub + d - ((s.time.now : Rat) + s.time.sub + d).floor ∧
    (jumped d s).time.stepCount = sat 65535 (s.time.stepCount + 1) ∧ (jumped d s).time.rate = s.time.rate := by
  unfold jumped
  extract_lets t jump moved set swept mag cleared
  have told : Tells cleared (tallyFlag 2 (capture 2 (bit (decide (d < 0)) * 2 ^ 23 + sat (2 ^ 23 - 1) mag) (bumpTime 3 cleared))) :=
    (bump_tells _ _).trans ((capture_tells _ _ _).trans rfl)
  rw [told.time]
  exact ⟨rfl, rfl, rfl, rfl⟩

theorem jumped_exact {d : Rat} {s : State} (h : 0 ≤ (s.time.now : Rat) + s.time.sub + d) :
    ((jumped d s).time.now : Rat) + (jumped d s).time.sub = (s.time.now : Rat) + s.time.sub + d := by
  obtain ⟨now, sub, -, -⟩ := jumped_time d s
  have whole : ((((s.time.now : Rat) + s.time.sub + d).floor.toNat : Nat) : Rat) = (((s.time.now : Rat) + s.time.sub + d).floor : Rat) := by
    exact_mod_cast Int.toNat_of_nonneg (Int.floor_nonneg.mpr h)
  rw [now, sub, whole]
  ring

/-! ### Offsets (R304, R305, R307) -/

theorem toUnits_int (z : Int) (s : State) : toUnits (z : Rat) s = (z, s) := if_pos rfl

theorem absR_int (z : Int) : absR (z : Rat) = (z.natAbs : Rat) := by
  have whole : ((z.natAbs : Nat) : Rat) = ((|z| : Int) : Rat) := by rw [← Int.natCast_natAbs, Int.cast_natCast]
  unfold absR
  rw [whole]
  split
  next neg => rw [abs_of_neg (by exact_mod_cast neg), Int.cast_neg]
  next pos => rw [abs_of_nonneg (by exact_mod_cast not_lt.mp pos)]

theorem clampR_bounds {b : Rat} (hb : 0 ≤ b) (q : Rat) : -b ≤ clampR b q ∧ clampR b q ≤ b := by
  unfold clampR
  split
  · exact ⟨le_refl _, by linarith⟩
  · split
    · exact ⟨by linarith, le_refl _⟩
    · exact ⟨by linarith, by linarith⟩

/-- What an accepted offset makes of the time state: a rate within the slew limit, one more offset (R305). -/
theorem acceptOffset_time (th : Rat) (s : State) :
    (-(s.time.slewPpm : Rat)) / 1000000 ≤ (acceptOffset th s).time.rate ∧ (acceptOffset th s).time.rate ≤ (s.time.slewPpm : Rat) / 1000000 ∧
    (acceptOffset th s).time.now = s.time.now ∧ (acceptOffset th s).time.offsets = sat (2 ^ 32 - 1) (s.time.offsets + 1) := by
  unfold acceptOffset
  extract_lets x slew q integ rate good set counted locking
  have kept : Restated set counted := rfl
  have toLocking : Restated counted locking := .ite (setTimeState_restated ..) (.refl _)
  have ends : Restated set (if locking.time.state = 1 ∧ 16 ≤ locking.time.goodRun then setTimeState 2 locking
      else if locking.time.state = 2 ∧ 4 ≤ locking.time.badRun then setTimeState 1 locking else locking) :=
    kept.trans (toLocking.trans (.ite (setTimeState_restated ..) (.ite (setTimeState_restated ..) (.refl _))))
  have slewPos : 0 ≤ slew := div_nonneg (Nat.cast_nonneg _) (by norm_num)
  obtain ⟨low, high⟩ := clampR_bounds slewPos (integ - q / (2 ^ x.pshift : Nat))
  rw [ends, neg_div]
  exact ⟨low, high, rfl, rfl⟩

/-- An offset is shown as the last one. -/
def showOffset (u : Int) (s : State) : State := s.modTime fun t => { t with lastOffset := clampI (-2147483648) 2147483647 u }

/-- An offset is kept as the step that is refused. -/
def keepPending (u : Int) (s : State) : State :=
  s.modTime fun t => { t with pending := u, refusedCount := sat 65535 (t.refusedCount + 1) }

/-- A step is refused: STEP_REFUSED, counted and captured. -/
def refuseStep (u : Int) (s : State) : State :=
  capture 3 (sat (2 ^ 23 - 1) (u.natAbs / 256000))
    (bumpTime 2 (setTimeState 4 ((keepPending u s).modTime fun t => { t with stepRefused := true })))

theorem onOffset_of_ignored {th : Rat} {s : State} (unset : s.time.state = 0) (pps : s.time.srcKind ≠ 1) : onOffset th s = s :=
  if_pos ⟨unset, pps⟩

/-- An offset of whole units that is not ignored, by the time state. -/
theorem onOffset_int (th : Int) {s : State} (h : s.time.state ≠ 0 ∨ s.time.srcKind = 1) : onOffset (th : Rat) s =
    if s.time.state = 0 then
      if stepFits s (-(th : Rat)) = true then
        relock (stepTime (-(th : Rat)) (bumpTime 4 ((showOffset th s).modTime fun t => { t with offsets := sat (2 ^ 32 - 1) (t.offsets + 1) })))
      else bumpTime 2 (showOffset th s)
    else if s.time.state = 4 then keepPending th (showOffset th s)
    else if ((s.time.stepNs * 256 : Nat) : Rat) < absR th then refuseStep th (showOffset th s)
    else acceptOffset th (showOffset th s) := by
  have heard : ¬(s.time.state = 0 ∧ s.time.srcKind ≠ 1) := fun ⟨unset, pps⟩ => h.elim (· unset) pps
  unfold onOffset
  rw [if_neg heard, toUnits_int]
  rfl

section
variable (th : Int) {s : State}

theorem onOffset_of_first (unset : s.time.state = 0) (port : s.time.srcKind = 1) (fits : stepFits s (-(th : Rat)) = true) :
    onOffset (th : Rat) s = relock (stepTime (-(th : Rat))
      (bumpTime 4 ((showOffset th s).modTime fun t => { t with offsets := sat (2 ^ 32 - 1) (t.offsets + 1) }))) := by
  rw [onOffset_int th (.inr port), if_pos unset, if_pos fits]

theorem onOffset_of_noFit (unset : s.time.state = 0) (port : s.time.srcKind = 1) (fits : stepFits s (-(th : Rat)) = false) :
    onOffset (th : Rat) s = bumpTime 2 (showOffset th s) := by
  rw [onOffset_int th (.inr port), if_pos unset, if_neg (by simp [fits])]

theorem onOffset_of_refused (h : s.time.state = 4) : onOffset (th : Rat) s = keepPending th (showOffset th s) := by
  rw [onOffset_int th (.inl (by omega)), if_neg (by omega), if_pos h]

variable (runs : s.time.state = 1 ∨ s.time.state = 2 ∨ s.time.state = 3)
include runs

theorem onOffset_of_large (h : s.time.stepNs * 256 < th.natAbs) : onOffset (th : Rat) s = refuseStep th (showOffset th s) := by
  rw [onOffset_int th (.inl (by omega)), if_neg (by omega), if_neg (by omega), absR_int, if_pos (by exact_mod_cast h)]

theorem onOffset_of_small (h : th.natAbs ≤ s.time.stepNs * 256) : onOffset (th : Rat) s = acceptOffset th (showOffset th s) := by
  rw [onOffset_int th (.inl (by omega)), if_neg (by omega), if_neg (by omega), absR_int, if_neg (by exact_mod_cast not_lt.mpr h)]

end

theorem refuseStep_time (u : Int) (s : State) : (refuseStep u s).time.state = 4 ∧ (refuseStep u s).time.pending = u ∧
    (refuseStep u s).time.stepRefused = true ∧ (refuseStep u s).time.now = s.time.now ∧ (refuseStep u s).time.rate = s.time.rate := by
  have told : Tells (setTimeState 4 ((keepPending u s).modTime fun t => { t with stepRefused := true })) (refuseStep u s) :=
    (bump_tells _ _).trans (capture_tells _ _ _)
  have kept := (setTimeState_restated 4 ((keepPending u s).modTime fun t => { t with stepRefused := true })).trans told.restated
  refine ⟨told.timeState.trans (setTimeState_state ..), ?_⟩
  rw [kept]
  exact ⟨rfl, rfl, rfl, rfl⟩

/-! ### HOLDOVER_TIMEOUT (R304) -/

theorem holdoverTimeout_holds {s : State} (runs : s.time.state = 1 ∨ s.time.state = 2)
    (late : s.time.holdFrom + usU (1000 * s.time.holdoverMs) ≤ s.time.now) :
    holdoverTimeout s = setTimeState 3 (s.modTime fun t => { t with goodRun := 0, badRun := 0 }) := if_pos ⟨runs, late⟩

theorem holdoverTimeout_ignored {s : State} (h : (s.time.state ≠ 1 ∧ s.time.state ≠ 2) ∨
    s.time.now < s.time.holdFrom + usU (1000 * s.time.holdoverMs)) : holdoverTimeout s = s := by
  refine if_neg fun ⟨runs, late⟩ => ?_
  rcases h with ⟨not1, not2⟩ | early
  · exact runs.elim not1 not2
  · exact absurd late (not_le.mpr early)

end Sys2Proof.Machine
end

section
/-! SUPPORT. The pins and PTP (R299 to R303, R308, R310, R419): the edges of PPS and of the capture inputs, the messages that a port
queues and sends, and the TIME packets that a lane takes. -/

namespace Sys2Proof.Machine

/-! ### Edges (R419) -/

/-- An edge of a pin is noted with its instant. -/
def noteEdge (pin : Nat) (s : State) : State := s.modTime fun t => { t with pinAt := tput t.pinAt pin t.hearthPs }

theorem edgeSeen_apart {pin gap : Nat} {s : State} (h : edgeSoon s pin gap = false) :
    edgeSeen pin gap s = (true, noteEdge pin s) := by
  simp only [edgeSeen, h]
  rfl

/-- An edge that follows another too soon is seen or missed. -/
theorem edgeSeen_soon {pin gap : Nat} {s : State} (h : edgeSoon s pin gap = true) :
    ∃ seen, edgeSeen pin gap s = (seen, (noteEdge pin s).tookFree) := by
  simp only [edgeSeen, h]
  exact ⟨_, rfl⟩

/-! ### PPS in (R303, R308) -/

theorem timeOn_zero (s : State) : timeOn s 0 = s.power.on0.getLsbD 6 := rfl

section
variable {s : State}

theorem ppsInEdge_of_off (h : s.power.on0.getLsbD 6 = false) : ppsInEdge s = s := if_pos (congrArg (! ·) h)

variable (on : s.power.on0.getLsbD 6 = true)
include on

theorem ppsInEdge_of_on : ppsInEdge s =
    if (edgeSeen 8 500000000000 s).1 = true then ppsStamped (edgeSeen 8 500000000000 s).2 else (edgeSeen 8 500000000000 s).2 :=
  if_neg (by rw [timeOn_zero, on]; decide)

theorem ppsInEdge_of_apart (h : edgeSoon s 8 500000000000 = false) : ppsInEdge s = ppsStamped (noteEdge 8 s) := by
  rw [ppsInEdge_of_on on, edgeSeen_apart h, if_pos rfl]

theorem ppsInEdge_of_soon (h : edgeSoon s 8 500000000000 = true) :
    ppsInEdge s = (noteEdge 8 s).tookFree ∨ ppsInEdge s = ppsStamped (noteEdge 8 s).tookFree := by
  obtain ⟨seen, eq⟩ := edgeSeen_soon h
  rw [ppsInEdge_of_on on, eq]
  cases seen
  · exact .inl (if_neg (by simp))
  · exact .inr (if_pos rfl)

end

/-- The stamp of a pin, by how far it lies from the instant: at most 2 ns (log entry 48). -/
theorem pinStamp_eq (t : Nat) (s : State) : ∃ f < 1025, pinStamp t s = (t - 512 + f, s.tookFree) :=
  ⟨freeBelow s 1025, Nat.mod_lt _ (by decide), rfl⟩

/-- The stamp of an edge of PPS in, less the delay of its cable. -/
def ppsStamp (s : State) : Nat := (((pinStamp s.time.now s).1 : Int) - s.time.ppsDelay).toNat

theorem ppsStamp_eq (s : State) : ∃ e : Int, -512 ≤ e ∧ e ≤ 512 ∧
    (512 ≤ s.time.now → ppsStamp s = ((s.time.now : Int) + e - s.time.ppsDelay).toNat) := by
  obtain ⟨f, bound, eq⟩ := pinStamp_eq s.time.now s
  refine ⟨(f : Int) - 512, by omega, by omega, fun late => ?_⟩
  rw [ppsStamp, eq]
  congr 1
  push_cast [late]
  omega

theorem captureAt_ppsSet (source detail stamp : Nat) (s : State) :
    (captureAt source detail stamp s).time.ppsSet = s.time.ppsSet := by rw [(captureAt_tells ..).time]

theorem captureAt_srcKind (source detail stamp : Nat) (s : State) :
    (captureAt source detail stamp s).time.srcKind = s.time.srcKind := by rw [(captureAt_tells ..).time]

/-- The offset of an edge of PPS with a stamp: its distance from the nearest whole second. -/
def ppsOffset (t : Nat) : Rat :=
  if t % secU 1 < secU 1 / 2 then ((t % secU 1 : Nat) : Rat) else ((t % secU 1 : Nat) : Rat) - (secU 1 : Nat)

/-- A TIME_SET has waited 2 s for its edge. -/
def outWaited (t : Nat) (x : PpsSet) : Bool := decide (x.since + secU 2 ≤ t)

theorem outWaited_iff (t : Nat) (x : PpsSet) : outWaited t x = true ↔ x.since + secU 2 ≤ t := decide_eq_true_iff

/-- The TIME_SETs that have waited in vain for an edge end, and the others are served in turn by g. -/
def serveBy (late : PpsSet → Bool) (close : PpsSet → State → State) (next : PpsSet → Nat) (g : Nat → PpsSet → State → State)
    (t : Nat) (xs : List PpsSet) (s : State) : State :=
  ((xs.filter fun x => !late x).foldl (fun (r : Nat × State) x => (next x, g r.1 x r.2))
    (t, (xs.filter late).foldl (fun s x => close x s) s)).2

theorem serveBy_one (late : PpsSet → Bool) (close : PpsSet → State → State) (next : PpsSet → Nat) (g : Nat → PpsSet → State → State)
    (t : Nat) (x : PpsSet) (s : State) : serveBy late close next g t [x] s = if late x = true then close x s else g t x s := by
  cases h : late x <;> simp [serveBy, h]

/-- What an edge with a stamp does for the TIME_SETs that waited for one: those that have waited 2 s end EXPIRED, the others take it. -/
def serveSets (t : Nat) (xs : List PpsSet) (s : State) : State :=
  serveBy (outWaited t) (fun x => endWith x.cmd St.expired 0) (fun x => secU (secOf x.value)) setAtEdge t xs
    (s.modTime fun x => { x with ppsSet := [] })

section
variable {t : Nat} {x : PpsSet} {s : State}

theorem serveSets_late (h : x.since + secU 2 ≤ t) :
    serveSets t [x] s = endWith x.cmd St.expired 0 (s.modTime fun y => { y with ppsSet := [] }) :=
  (serveBy_one ..).trans (if_pos ((outWaited_iff t x).mpr h))

theorem serveSets_served (h : t < x.since + secU 2) :
    serveSets t [x] s = setAtEdge t x (s.modTime fun y => { y with ppsSet := [] }) :=
  (serveBy_one ..).trans (if_neg (mt (outWaited_iff t x).mp (Nat.not_le.mpr h)))

end

/-- What takes an edge with a stamp: the TIME_SETs that wait for one, else a PPS source. -/
def edgeServed (t : Nat) (s : State) : State :=
  match s.time.ppsSet with
  | [] => if s.time.srcKind = 2 then onOffset (ppsOffset t) s else s
  | xs => serveSets t xs s

theorem pinStamp_snd (t : Nat) (s : State) : (pinStamp t s).2 = s.tookFree := rfl

theorem tookFree_time (s : State) : s.tookFree.time = s.time := rfl

theorem ppsStamped_eq (s : State) : ppsStamped s = edgeServed (ppsStamp s) (captureAt 0 0 (ppsStamp s) s.tookFree) := by
  simp only [ppsStamped, pinStamp_snd, tookFree_time, edgeServed, serveSets, serveBy, ppsOffset, outWaited, ← ppsStamp.eq_def]
  cases (captureAt 0 0 (ppsStamp s) s.tookFree).time.ppsSet <;> rfl

section
variable {s : State}

theorem ppsStamped_of_noSet (h : s.time.ppsSet = []) : ppsStamped s =
    if s.time.srcKind = 2 then onOffset (ppsOffset (ppsStamp s)) (captureAt 0 0 (ppsStamp s) s.tookFree)
    else captureAt 0 0 (ppsStamp s) s.tookFree := by
  have none : (captureAt 0 0 (ppsStamp s) s.tookFree).time.ppsSet = [] := (captureAt_ppsSet ..).trans h
  have kind : (captureAt 0 0 (ppsStamp s) s.tookFree).time.srcKind = s.time.srcKind := captureAt_srcKind ..
  rw [ppsStamped_eq]
  simp only [edgeServed, none, kind]

theorem ppsStamped_of_set {x : PpsSet} (h : s.time.ppsSet = [x]) :
    ppsStamped s = serveSets (ppsStamp s) [x] (captureAt 0 0 (ppsStamp s) s.tookFree) := by
  have one : (captureAt 0 0 (ppsStamp s) s.tookFree).time.ppsSet = [x] := (captureAt_ppsSet ..).trans h
  rw [ppsStamped_eq]
  simp only [edgeServed, one]

end

/-! ### PPS out (R303) -/

/-- A whole second of device time that its edge has not yet shown. -/
def PpsRises (s : State) : Prop :=
  timeUnset s = false ∧ s.power.on0.getLsbD 6 = true ∧ reached s (secU (secOf s.time.now)) = true ∧
    (s.time.ppsOut = true → s.time.ppsRise < secU (secOf s.time.now))

theorem secU_secOf_le (t : Nat) : secU (secOf t) ≤ t := Nat.div_mul_le_self ..

/-- The whole second that device time lies in is reached by running, within a cycle (R309). -/
theorem reached_second_iff (s : State) : reached s (secU (secOf s.time.now)) = true ↔
    s.time.stepped ≤ secU (secOf s.time.now) ∧ s.time.now < secU (secOf s.time.now) + 1639 := by
  have within : (decide (s.time.now < secU (secOf s.time.now) + cycleMax) = true) = (s.time.now < secU (secOf s.time.now) + 1639) :=
    decide_eq_true_eq
  rw [reached, Bool.and_eq_true, Bool.and_eq_true, decide_eq_true_eq, decide_eq_true_eq, within, and_iff_left (secU_secOf_le _)]

theorem ppsRises_iff (s : State) : ¬PpsRises s ↔ (timeUnset s || !timeOn s 0 || !reached s (secU (secOf s.time.now)) ||
    (s.time.ppsOut && decide (secU (secOf s.time.now) ≤ s.time.ppsRise))) = true := by
  simp only [PpsRises, timeOn_zero, Bool.or_eq_true, Bool.and_eq_true, Bool.not_eq_true', decide_eq_true_eq, ← Bool.not_eq_true]
  rw [← Nat.not_lt]
  tauto

theorem ppsOutEdge_ignored {s : State} (h : ¬PpsRises s) : ppsOutEdge s = s := if_pos ((ppsRises_iff s).mp h)

theorem ppsOutEdge_rises {s : State} (h : PpsRises s) : ∃ t, secU (secOf s.time.now) ≤ t + 512 ∧
    t ≤ Nat.max (secU (secOf s.time.now)) 512 + 512 ∧ ppsOutEdge s = emit (.ppsOut true) (captureAt 1 0 t
      (s.tookFree.modTime fun x => { x with ppsOut := true, ppsRise := x.now })) := by
  have bound : freeBelow s 1025 < 1025 := Nat.mod_lt _ (by decide)
  refine ⟨secU (secOf s.time.now) - 512 + freeBelow s 1025, by omega, ?_, ?_⟩
  · have : secU (secOf s.time.now) ≤ Nat.max (secU (secOf s.time.now)) 512 := Nat.le_max_left ..
    have : 512 ≤ Nat.max (secU (secOf s.time.now)) 512 := Nat.le_max_right ..
    omega
  · refine (if_neg (mt (ppsRises_iff s).mpr (not_not.mpr h))).trans ?_
    rfl

theorem ppsOutFall_falls {s : State} (out : s.time.ppsOut = true) (late : s.time.ppsRise + usU (1000 * s.time.ppsWidthMs) ≤ s.time.now) :
    ppsOutFall s = emit (.ppsOut false) (s.modTime fun x => { x with ppsOut := false }) := if_pos (by simp [out, late])

theorem ppsOutFall_ignored {s : State} (h : s.time.ppsOut = false ∨ s.time.now < s.time.ppsRise + usU (1000 * s.time.ppsWidthMs)) :
    ppsOutFall s = s := by
  refine if_neg ?_
  rcases h with low | early
  · simp [low]
  · simp [Nat.not_le.mpr early]

/-! ### Capture inputs (R310) -/

section
variable {n : Fin 8} {rising : Bool} {s : State}

theorem timeOn_input (n : Fin 8) (s : State) : timeOn s (n.val / 4) = (if n.val < 4 then s.power.on0 else s.power.on1).getLsbD 6 := by
  unfold timeOn
  by_cases low : n.val < 4
  · rw [if_pos (by omega), if_pos low]
  · rw [if_neg (by omega), if_neg low]

theorem capInEdge_ignored (h : s.time.edges.getLsbD n = rising ∨ ¬timeOn s (n.val / 4) = true) : capInEdge n rising s = s :=
  if_pos (h.imp_right fun off => by simp [off])

variable (edge : s.time.edges.getLsbD n ≠ rising) (on : timeOn s (n.val / 4) = true)
include edge on

theorem capInEdge_of_on : capInEdge n rising s =
    if (edgeSeen n 100000 s).1 = true then
      captureAt (32 + n) 0 (pinStamp (edgeSeen n 100000 s).2.time.now (edgeSeen n 100000 s).2).1 (edgeSeen n 100000 s).2.tookFree
    else (edgeSeen n 100000 s).2 := if_neg (not_or.mpr ⟨edge, by simp [on]⟩)

theorem capInEdge_of_apart (h : edgeSoon s n 100000 = false) :
    ∃ t, capInEdge n rising s = captureAt (32 + n) 0 t (noteEdge n s).tookFree := by
  rw [capInEdge_of_on edge on, edgeSeen_apart h]
  exact ⟨_, if_pos rfl⟩

theorem capInEdge_of_soon (h : edgeSoon s n 100000 = true) : capInEdge n rising s = (noteEdge n s).tookFree ∨
    ∃ t, capInEdge n rising s = captureAt (32 + n) 0 t (noteEdge n s).tookFree.tookFree := by
  obtain ⟨seen, eq⟩ := edgeSeen_soon h
  rw [capInEdge_of_on edge on, eq]
  cases seen
  · exact .inl (if_neg (by simp))
  · exact .inr ⟨_, if_pos rfl⟩

end

/-! ### TIME_SET_PPS_EXPIRED (R308) -/

theorem ppsExpired_of_none {s : State} (h : s.time.ppsSet = []) : ppsExpired s = s := by
  simp only [ppsExpired, h]

theorem ppsExpired_of_first {s : State} {x : PpsSet} {rest : List PpsSet} (h : s.time.ppsSet = x :: rest) : ppsExpired s =
    if x.since + secU 2 ≤ s.time.now then endWith x.cmd St.expired 0 (s.modTime fun t => { t with ppsSet := rest }) else s := by
  simp only [ppsExpired, h]

/-! ### Messages that a port sends (R301, R302) -/

section
variable {p : Nat} {s : State}

/-- A port that is a master, with a lane and with device time. -/
def IsMaster (s : State) (p : Nat) : Prop := (timeLane s p).isSome = true ∧ (thePtp s p).role = 1 ∧ timeUnset s = false

theorem isMaster_iff (s : State) (p : Nat) :
    IsMaster s p ↔ (timeLane s p).isSome = true ∧ (thePtp s p).role = 1 ∧ (!timeUnset s) = true := by
  rw [IsMaster, Bool.not_eq_true']

theorem syncSend_ignored (h : ¬IsMaster s p) : syncSend p s = s := if_neg (mt (isMaster_iff s p).mpr h)
theorem announceSend_ignored (h : ¬IsMaster s p) : announceSend p s = s := if_neg (mt (isMaster_iff s p).mpr h)

theorem syncSend_sends (h : IsMaster s p) : syncSend p s =
    let (o, f) := freeBytes 10 s
    let u := modPtp p (fun x => { x with syncSeq := (x.syncSeq + 1) % 65536 }) f
    sendTime p (ptpMsg u p 0 (thePtp s p).syncSeq 0 true (thePtp s p).logSync 0 o) .syncFollow u := if_pos ((isMaster_iff s p).mp h)

theorem announceSend_sends (h : IsMaster s p) : announceSend p s =
    let (o, f) := freeBytes 30 s
    let u := modPtp p (fun x => { x with announceSeq := (x.announceSeq + 1) % 65536 }) f
    sendTime p (ptpMsg u p 11 (thePtp s p).announceSeq 5 false (thePtp s p).logAnnounce 0 o) .none u := if_pos ((isMaster_iff s p).mp h)

end

/-! ### A queued message leaves (R256, R301) -/

section
variable {n p l : Nat} {s : State} {x : TimeOut} {rest : List TimeOut} (queue : tget s.link.timeQ [] p = x :: rest)
  (lane : timeLane s p = some l)
include queue lane

theorem timeGo_of_sending (h : (laneLink s l).tx.isSome = true) : timeGo (n + 1) p s = s := by
  simp only [timeGo, queue, lane, h, if_true]

theorem timeGo_of_idle (h : (laneLink s l).tx = none) : ∃ t, s.time.now ≤ t + 204 ∧ t ≤ Nat.max s.time.now 204 + 204 ∧
    timeGo (n + 1) p s = timeGo n p (stamped p x t (putTime p l x.msg
      (s.modLink fun k => { k with timeQ := tset k.timeQ [] p rest }).tookFree)) := by
  have bound : freeBelow (s.modLink fun k => { k with timeQ := tset k.timeQ [] p rest }) 409 < 409 := Nat.mod_lt _ (by decide)
  have low : s.time.now ≤ Nat.max s.time.now 204 := Nat.le_max_left ..
  have high : 204 ≤ Nat.max s.time.now 204 := Nat.le_max_right ..
  refine ⟨s.time.now - 204 + freeBelow (s.modLink fun k => { k with timeQ := tset k.timeQ [] p rest }) 409, by omega, by omega, ?_⟩
  simp only [timeGo, queue, lane, h, Option.isSome_none, Bool.false_eq_true, if_false]
  rfl

end

/-! ### TIME packets that a lane takes (R50, R53, R300) -/

/-- A TIME packet is 40 bytes and its payload (R31, R86). -/
theorem pktBytes_of_time {h : Header} (time : isTime h = true) : h.pktBytes = 40 + 16 * h.len := by
  have kind : h.kind = Kind.time := by
    simp only [isTime, Bool.and_eq_true, beq_iff_eq] at time
    exact time.2
  have notRead : h.isRead = false := by
    rw [Header.isRead, kind]
    rfl
  rw [Header.pktBytes, Header.payloadLen, notRead, if_neg Bool.false_ne_true]

section
variable {l p : Nat} {k : Packet} {s : State}

theorem timePacketRx_of_noPort (h : portOfLane s l = none) : timePacketRx l k s = s := by
  simp only [timePacketRx, h]

theorem timePacketRx_ignored (port : portOfLane s l = some p)
    (h : takesPackets s l p = false ∨ isTime k.hdr = false ∨ 12 < k.hdr.len) : timePacketRx l k s = s := by
  simp only [timePacketRx, port]
  refine if_neg ?_
  rcases h with no | other | long
  · simp [no]
  · simp [other]
  · simp [Nat.not_le.mpr long]

/-- A TIME packet that a lane takes is counted with its bytes. -/
def countTime (p : Nat) (k : Packet) (s : State) : State :=
  bumpBy (ctr 4 (barnOf p) (p % 64)) (40 + 16 * k.hdr.len) (bump (ctr 3 (barnOf p) (p % 64))
    (bumpBy (ctr 1 (barnOf p) 1) (40 + 16 * k.hdr.len) (bumpIn (barnOf p) 0 s)))

variable (port : portOfLane s l = some p) (takes : takesPackets s l p = true) (time : isTime k.hdr = true) (fits : k.hdr.len ≤ 12)
include port takes time fits

theorem timePacketRx_of_taken : timePacketRx l k s =
    if (!crcOk k) = true then termCrcFail p k (countTime p k s)
    else if timeDrops (countTime p k s) p k = true then bumpTime 1 (countTime p k s)
    else ptpReceive p (k.payload.take (ptpNum k.payload 2 2)) (stampNow (bumpTime 6 (countTime p k s))).1
      (bumpTime 6 (countTime p k s)).tookFree := by
  simp only [timePacketRx, port, takes, time, fits, pktBytes_of_time time]
  rfl

theorem timePacketRx_of_badCrc (crc : crcOk k = false) : timePacketRx l k s = termCrcFail p k (countTime p k s) := by
  rw [timePacketRx_of_taken port takes time fits, if_pos (by simp [crc])]

variable (crc : crcOk k = true)
include crc

theorem timePacketRx_of_dropped (h : timeDrops (countTime p k s) p k = true) : timePacketRx l k s = bumpTime 1 (countTime p k s) := by
  rw [timePacketRx_of_taken port takes time fits, if_neg (by simp [crc]), if_pos h]

theorem timePacketRx_received (h : timeDrops (countTime p k s) p k = false) : ∃ t, timePacketRx l k s =
    ptpReceive p (k.payload.take (ptpNum k.payload 2 2)) t (bumpTime 6 (countTime p k s)).tookFree := by
  rw [timePacketRx_of_taken port takes time fits, if_neg (by simp [crc]), if_neg (by simp [h])]
  exact ⟨_, rfl⟩

end

/-! ### A Sync (R301) -/

theorem ptpReceive_of_twoStepSync {p : Nat} {m : List Byte} {t : Nat} {s : State} (slave : (thePtp s p).role = 2)
    (sync : ptpType m = 0) (two : ptpTwoStep m = true) : ptpReceive p m t s = modPtp p (fun x =>
      { x with awaitSeq := some (ptpSeq m), rxStamp := (t : Rat), rxCorr := ptpCorr m }) s := by
  simp only [ptpReceive, sync, slave, two]
  rfl

theorem isSource_modPtp (p q : Nat) (f : PortTime → PortTime) (s : State) (role : ∀ x, (f x).role = x.role) :
    isSource (modPtp p f s) q = isSource s q := by
  have same : (thePtp (modPtp p f s) q).role = (thePtp s q).role := by
    show (tget (tmod s.time.ports {} p f) {} q).role = (tget s.time.ports {} q).role
    rw [tget_tmod]
    split
    next here => rw [role, here]
    next => rfl
  simp only [isSource, same]
  rfl

theorem syncOffset_of_source {p : Nat} {s : State} (fresh : (thePtp s p).fresh = true) (delay : (thePtp s p).haveDelay = true)
    (source : isSource s p = true) : syncOffset p s =
      onOffset ((thePtp s p).t2 - (thePtp s p).t1 - (thePtp s p).meanDelay - (thePtp s p).asym)
        (modPtp p (fun x => { x with fresh := false }) s) := by
  have still : isSource (modPtp p (fun x => { x with fresh := false }) s) p = true := by
    rw [isSource_modPtp p p (fun x => { x with fresh := false }) s fun _ => rfl, source]
  simp only [syncOffset, fresh, delay, still, Bool.and_self, if_true]

end Sys2Proof.Machine

namespace Sys2Proof.Proofs

open Sys2Proof.Machine

/-- Settles O43: a step and an offset by the lemmas about them, each row by the lemma that says what it does in that state. -/
theorem timeRows : Obligations.TimeRows := by
  unfold Obligations.TimeRows
  refine ⟨?step, ?accepted, fun th s => onOffset_of_ignored, ?first, fun s => relock_of_source, ?offset, ?holdover, ?ppsIn, ?ppsOffset, ?ppsSet,
    ?ppsOut, ?capIn, fun s none => next_congr (ppsExpired_of_none none), ?expired, ?ptp, ?sent, ?noTime, ?time,
    fun p m t s => ptpReceive_of_twoStepSync, fun p s => syncOffset_of_source⟩
  case step =>
    intro d s x pos skips
    obtain ⟨-, -, count, rate⟩ := jumped_time d s
    rw [stepTime_of_noLaunch skips]
    exact ⟨jumped_exact pos, count.trans (sat_eq_min ..), rate⟩
  case accepted =>
    intro th s _ t
    obtain ⟨low, high, now, offsets⟩ := acceptOffset_time th s
    exact ⟨low, high, now, offsets.trans (sat_eq_min ..)⟩
  case first =>
    intro th s unset port u
    refine ⟨fun fits => ?_, onOffset_of_noFit th unset port⟩
    rw [onOffset_of_first th unset port fits]
    simp only [sat_eq_min]
    rfl
  case offset =>
    intro th s m
    refine ⟨fun held => ?_, fun runs large => ?_, onOffset_of_small th⟩
    · rw [onOffset_of_refused th held, keepPending]
      simp only [sat_eq_min]
      rfl
    · rw [onOffset_of_large th runs large]
      exact refuseStep_time th (showOffset th s)
  case holdover =>
    intro s
    exact ⟨fun runs late => next_congr (holdoverTimeout_holds runs late), fun other => next_congr (holdoverTimeout_ignored other)⟩
  case ppsIn =>
    intro s d
    exact ⟨fun off => next_congr (ppsInEdge_of_off off), fun on apart => next_congr (ppsInEdge_of_apart on apart),
      fun on soon => (ppsInEdge_of_soon on soon).imp next_congr next_congr⟩
  case ppsOffset =>
    intro s none
    obtain ⟨e, low, high, stamp⟩ := ppsStamp_eq s
    refine ⟨e, low, high, fun late => ?_⟩
    rw [ppsStamped_of_noSet none, stamp late]
    exact ⟨fun other => if_neg other, fun pps => if_pos pps⟩
  case ppsSet =>
    intro s x one
    obtain ⟨e, low, high, stamp⟩ := ppsStamp_eq s
    refine ⟨e, low, high, fun late => ?_⟩
    rw [ppsStamped_of_set one, stamp late]
    exact ⟨serveSets_late, serveSets_served⟩
  case ppsOut =>
    intro s m rises
    refine ⟨reached_second_iff s, fun up => ?_, fun other => next_congr (ppsOutEdge_ignored other),
      fun out late => next_congr (ppsOutFall_falls out late), fun other => next_congr (ppsOutFall_ignored other)⟩
    obtain ⟨t, low, high, eq⟩ := ppsOutEdge_rises up
    exact ⟨t, low, high, next_congr eq⟩
  case capIn =>
    intro n rising s d on
    have powered : timeOn s (n.val / 4) = true ↔ on := by rw [timeOn_input]
    refine ⟨fun other => next_congr (capInEdge_ignored (other.imp_right (mt powered.mp))), fun edge is apart => ?_, fun edge is soon => ?_⟩
    · exact (capInEdge_of_apart edge (powered.mpr is) apart).imp fun _ => next_congr
    · exact (capInEdge_of_soon edge (powered.mpr is) soon).imp next_congr fun seen => seen.imp fun _ => next_congr
  case expired =>
    intro s x rest first
    have eq := ppsExpired_of_first first
    exact ⟨fun late => next_congr (eq.trans (if_pos late)), fun early => next_congr (eq.trans (if_neg (Nat.not_le.mpr early)))⟩
  case ptp =>
    intro p s x master asks
    exact ⟨fun is => ⟨next_congr (syncSend_sends is), next_congr (announceSend_sends is)⟩,
      fun not_ => ⟨next_congr (syncSend_ignored not_), next_congr (announceSend_ignored not_)⟩,
      fun does => next_congr (if_pos does), fun not_ => next_congr (if_neg not_)⟩
  case sent =>
    intro n p s x rest l queue lane
    exact ⟨timeGo_of_sending queue lane, timeGo_of_idle queue lane⟩
  case noTime =>
    intro l k s
    exact ⟨fun none => next_congr (timePacketRx_of_noPort none), fun p port other => next_congr (timePacketRx_ignored port other)⟩
  case time =>
    intro l k s p port takes time fits n u
    exact ⟨fun crc => next_congr (timePacketRx_of_badCrc port takes time fits crc),
      fun crc drop => next_congr (timePacketRx_of_dropped port takes time fits crc drop),
      fun crc keep => (timePacketRx_received port takes time fits crc keep).imp fun _ => next_congr⟩

end Sys2Proof.Proofs
end

section
/-! SUPPORT. The tag area, the user calibration records and the counters by COUNTER_ID (R393, R395, R398, R399, R409). -/

namespace Sys2Proof.Machine

theorem length_argWords (args : List Word) (i n : Nat) : (argWords args i n).length = n := by simp [argWords]

theorem length_wordsLe (l : List Word) : (wordsLe l).length = 4 * l.length := by
  induction l with
  | nil => rfl
  | cons w r ih => rw [wordsLe, List.length_append, length_leBytes, ih, List.length_cons]; omega

/-! ### TAG_WRITE (R381, R393) -/

section
variable {args : List Word} {s : State}

theorem tagWrite_of_badOffset (h : argN args 1 % 4 ≠ 0 ∨ 512 ≤ argN args 1) : tagWrite args s = cmdRefuse St.badArgument 1 s := by
  simp only [tagWrite, tagRangeBad, h, if_true]

variable (aligned : argN args 1 % 4 = 0) (within : argN args 1 < 512)
include aligned within

theorem tagWrite_of_badLength (h : argN args 2 % 4 ≠ 0 ∨ argN args 2 < 4 ∨ 512 - argN args 1 < argN args 2) :
    tagWrite args s = cmdRefuse St.badArgument 2 s := by
  have offset : ¬(argN args 1 % 4 ≠ 0 ∨ 512 ≤ argN args 1) := by omega
  simp only [tagWrite, tagRangeBad, offset, h, if_false, if_true]

variable (whole : argN args 2 % 4 = 0) (some_ : 4 ≤ argN args 2) (fits : argN args 2 ≤ 512 - argN args 1)
include whole some_ fits

theorem tagWrite_of_range : tagWrite args s =
    if s.sec.life = 0 ∨ s.sec.life = 3 then authRefuse 1 s
    else cmdOk (s.modSec fun c => { c with tag := memWrite c.tag (argN args 1) (wordsLe (argWords args 3 (argN args 2 / 4))) }) := by
  have offset : ¬(argN args 1 % 4 ≠ 0 ∨ 512 ≤ argN args 1) := by omega
  have length : ¬(argN args 2 % 4 ≠ 0 ∨ argN args 2 < 4 ∨ 512 - argN args 1 < argN args 2) := by omega
  simp only [tagWrite, tagRangeBad, offset, length, if_false]

end

/-- The bytes that a TAG_WRITE of whole words leaves in the tag area. -/
theorem tget_tagWrite (args : List Word) (m : List Host.Cell) (whole : argN args 2 % 4 = 0) (k : Nat) :
    tget (memWrite m (argN args 1) (wordsLe (argWords args 3 (argN args 2 / 4)))) 0 k =
      if argN args 1 ≤ k ∧ k < argN args 1 + argN args 2 then (wordsLe (argWords args 3 (argN args 2 / 4))).getD (k - argN args 1) 0
      else tget m 0 k := by
  rw [tget_memWrite_any, length_wordsLe, length_argWords, Nat.mul_div_cancel' (Nat.dvd_of_mod_eq_zero whole)]

/-! ### CAL_USER_WRITE (R395) -/

section
variable {args : List Word} {s : State}

theorem calUserWrite_of_badKind (h : argN args 1 < 2 ∨ 4 < argN args 1) : calUserWrite args s = cmdRefuse St.badArgument 1 s := if_pos h

variable (low : 2 ≤ argN args 1) (high : argN args 1 ≤ 4)
include low high

theorem calUserWrite_of_kind : calUserWrite args s =
    if calCount (argN args 1) ≤ argN args 2 then cmdRefuse St.badArgument 2 s
    else if (arg args 3).toInt < -calBound (argN args 1) ∨ calBound (argN args 1) < (arg args 3).toInt then cmdRefuse St.badArgument 3 s
    else cmdOk (calSet (argN args 1) (argN args 2) (arg args 3).toInt s) := if_neg (by omega)

theorem calCount_eq : calCount (argN args 1) = if argN args 1 = 4 then 80 else 1024 := by
  generalize argN args 1 = kind at *
  interval_cases kind <;> rfl

theorem calBound_eq : calBound (argN args 1) = if argN args 1 = 2 then 20 else if argN args 1 = 3 then 30 else 100 := by
  generalize argN args 1 = kind at *
  interval_cases kind <;> rfl

end

theorem calKey_inj {a b i j : Nat} (hi : i < 1024) (hj : j < 1024) : calKey a i = calKey b j ↔ a = b ∧ i = j := by
  simp only [calKey]
  omega

/-- A user calibration record after another has been written. -/
theorem calGet_calSet {kind k kd j : Nat} (v : Int) (s : State) (hk : k < 1024) (hj : j < 1024) :
    calGet (calSet kind k v s) kd j = if kd = kind ∧ j = k then v else calGet s kd j := by
  simp only [calGet, calSet, State.modSec, tget_tset_any, calKey_inj hk hj]
  by_cases same : kind = kd ∧ k = j
  · obtain ⟨rfl, rfl⟩ := same
    simp
  · simp [same, show ¬(kd = kind ∧ j = k) from fun h => same ⟨h.1.symm, h.2.symm⟩]

/-! ### COUNTER_READ (R398, R399, R409) -/

theorem blocks_keys {a b : Nat × Nat × Nat} (ha : a ∈ blocks) (hb : b ∈ blocks) (same : a.1 = b.1) : a = b := by
  have keys : ∀ a ∈ blocks, ∀ b ∈ blocks, a.1 = b.1 → a = b := by decide
  exact keys a ha b hb same

/-- A number names the block of its kind, where that has a block of the INSTANCE. -/
theorem blockOf_eq_some {id : Nat} {b : Nat × Nat × Nat} :
    blockOf id = some b ↔ b ∈ blocks ∧ b.1 = id / 2 ^ 24 ∧ id / 2 ^ 16 % 256 < b.2.1 := by
  constructor
  · intro found
    have is := List.find?_some found
    simp only [Bool.and_eq_true, beq_iff_eq, decide_eq_true_eq] at is
    exact ⟨List.mem_of_find?_eq_some found, is⟩
  · rintro ⟨mem, kind, inst⟩
    cases found : blockOf id with
    | none => exact absurd (List.find?_eq_none.mp found b mem) (by rw [kind, beq_self_eq_true, decide_eq_true inst]; decide)
    | some a =>
      have is := List.find?_some found
      simp only [Bool.and_eq_true, beq_iff_eq, decide_eq_true_eq] at is
      rw [blocks_keys (List.mem_of_find?_eq_some found) mem (is.1.trans kind.symm)]

theorem idOk_iff (id : Nat) :
    idOk id = true ↔ ∃ b ∈ blocks, b.1 = id / 2 ^ 24 ∧ id / 2 ^ 16 % 256 < b.2.1 ∧ id % 64 < b.2.2 := by
  have found : idOk id = true ↔ ∃ b, blockOf id = some b ∧ id % 64 < b.2.2 := by
    unfold idOk
    cases blockOf id <;> simp
  simp only [found, blockOf_eq_some, and_assoc]

theorem rangeOk_iff (id n : Nat) : rangeOk id n = true ↔
    ∃ b ∈ blocks, b.1 = id / 2 ^ 24 ∧ id / 2 ^ 16 % 256 < b.2.1 ∧ 1 ≤ n ∧ n ≤ 64 ∧ id % 64 + n ≤ b.2.2 := by
  have found : rangeOk id n = true ↔ ∃ b, blockOf id = some b ∧ 1 ≤ n ∧ n ≤ 64 ∧ id % 64 + n ≤ b.2.2 := by
    unfold rangeOk
    cases blockOf id <;> simp
  simp only [found, blockOf_eq_some, and_assoc]

/-- Range r of a COUNTER_READ stays within its block. -/
def inBlock (args : List Word) (r : Nat) : Prop := rangeOk (argN args (2 + 2 * r)) (argN args (3 + 2 * r)) = true

/-- The bytes that range r of a COUNTER_READ copies. -/
def rangeBytes (args : List Word) (s : State) (r : Nat) : List Byte :=
  (List.range (argN args (3 + 2 * r))).flatMap fun k => leBytes 8 (counter s (ctr (argN args (2 + 2 * r) / 2 ^ 24)
    (argN args (2 + 2 * r) / 2 ^ 16 % 256) (argN args (2 + 2 * r) % 64 + k))).toNat

theorem rangeBytes_fetched (args : List Word) (i : Instr) (s : State) : rangeBytes args (fetched i s) = rangeBytes args s := by
  funext r
  simp only [rangeBytes, counter, fetched_count]

section
variable {args : List Word} {s : State}

theorem counterRead_of_badCount (h : argN args 1 < 1 ∨ 510 < argN args 1) : counterRead args s = cmdRefuse St.badArgument 1 s := if_pos h

variable (low : 1 ≤ argN args 1) (high : argN args 1 ≤ 510)
include low high

theorem counterRead_of_ranges (h : ∀ r, r < argN args 1 → inBlock args r) : counterRead args s =
    cmdOk (hostWrite (arg64 args (2 + 2 * argN args 1)) ((List.range (argN args 1)).flatMap (rangeBytes args s)) s) := by
  have none : ((List.range (argN args 1)).find? fun r => !rangeOk (argN args (2 + 2 * r)) (argN args (3 + 2 * r))) = none :=
    List.find?_range_eq_none.mpr fun r hr => by simpa [inBlock] using h r hr
  have count : ¬(argN args 1 < 1 ∨ 510 < argN args 1) := by omega
  simp only [counterRead, count, if_false, none]
  rfl

theorem counterRead_of_badRange {r : Nat} (hr : r < argN args 1) (bad : ¬inBlock args r) (before : ∀ q, q < r → inBlock args q) :
    counterRead args s =
      cmdRefuse St.badArgument (if idOk (argN args (2 + 2 * r)) = true then 3 + 2 * r else 2 + 2 * r) s := by
  have first : ((List.range (argN args 1)).find? fun r => !rangeOk (argN args (2 + 2 * r)) (argN args (3 + 2 * r))) = some r :=
    List.find?_range_eq_some.mpr ⟨by simpa [inBlock] using bad, by simpa using hr, fun q hq => by simpa [inBlock] using before q hq⟩
  have count : ¬(argN args 1 < 1 ∨ 510 < argN args 1) := by omega
  simp only [counterRead, count, if_false, first]

end

end Sys2Proof.Machine

namespace Sys2Proof.Proofs

open Sys2Proof.Machine

/-- Settles O51: the ranges in the order of the checks, then what a byte or a record reads as after the write. -/
theorem tagAreaAndCalibration : Obligations.TagAreaAndCalibration := by
  unfold Obligations.TagAreaAndCalibration
  refine ⟨?tag, ?cal⟩
  case tag =>
    intro h args s i off n acc
    have run := exec_tagWrite h args s
    refine ⟨fun bad => run_refused rfl acc run (tagWrite_of_badOffset bad),
      fun aligned within bad => run_refused rfl acc run (tagWrite_of_badLength aligned within bad), fun aligned within whole some_ fits => ?_⟩
    have eq := tagWrite_of_range (s := fetched i s) aligned within whole some_ fits
    rw [fetched_sec] at eq
    refine ⟨fun closed => run_refused rfl acc run (eq.trans (if_pos closed)), fun made kept => ⟨_, ?_, tget_tagWrite args s.sec.tag whole⟩⟩
    refine (run_ok rfl acc run (eq.trans (if_neg (not_or.mpr ⟨made, kept⟩)))).trans ?_
    rw [State.modSec, fetched_sec]
  case cal =>
    intro h args s i kind k v count bound acc
    have run := exec_calUserWrite h args s
    refine ⟨fun bad => run_refused rfl acc run (calUserWrite_of_badKind bad), fun low high => ?_, fun low high => ?_, fun low high => ?_⟩
    all_goals
      have eq := calUserWrite_of_kind (s := fetched i s) low high
      rw [calCount_eq low high, calBound_eq low high] at eq
    · exact fun bad => run_refused rfl acc run (eq.trans (if_pos bad))
    · exact fun within bad => run_refused rfl acc run (eq.trans ((if_neg (Nat.not_le.mpr within)).trans (if_pos bad)))
    · intro within least most
      have record : k < 1024 := within.trans_le (by simp only [count]; split <;> omega)
      have written := eq.trans ((if_neg (Nat.not_le.mpr within)).trans (if_neg (by omega)))
      refine ⟨_, (run_ok rfl acc run written).trans ?_, fun kd j _ hj => calGet_calSet v s record hj⟩
      rw [calSet, State.modSec, fetched_sec]

/-- Settles O60: a range stays in a block where the block of its kind has the INSTANCE and the counters. -/
theorem countersByName : Obligations.CountersByName := by
  unfold Obligations.CountersByName
  refine ⟨?ids, ?read⟩
  case ids =>
    intro kind inst idx hkind hinst hidx
    simp only [ctr]
    omega
  case read =>
    intro h args s i n kind inst idx len inBlk acc
    have run := exec_counterRead h args s
    have within (r : Nat) : inBlock args r ↔ inBlk r := rangeOk_iff ..
    refine ⟨fun bad => run_refused rfl acc run (counterRead_of_badCount bad), fun low high all => ?_, fun r low high hr bad before => ?_⟩
    · refine (run_ok rfl acc run (counterRead_of_ranges low high fun r hr => (within r).mpr (all r hr))).trans ?_
      simp only [i, rangeBytes_fetched]
      rfl
    · refine (run_refused rfl acc run (counterRead_of_badRange low high hr (mt (within r).mp bad) fun q hq =>
        (within q).mpr (before q hq))).trans ?_
      simp only [idOk_iff]
      rfl

end Sys2Proof.Proofs
end

section
/-! SUPPORT. Completion entries (R346, R347, R354): where one is put, what it holds, and how it is announced. -/

namespace Sys2Proof.Machine

/-- t differs from s in the Hearth and in what the device gives out alone. -/
def HearthOnly (s t : State) : Prop := t = { s with hearth := t.hearth, out := t.out }

theorem HearthOnly.refl (s : State) : HearthOnly s s := rfl

theorem HearthOnly.trans {s t u : State} (st : HearthOnly s t) (tu : HearthOnly t u) : HearthOnly s u := by
  rw [HearthOnly, tu, st]

theorem HearthOnly.modHearth (f : Hearth → Hearth) (s : State) : HearthOnly s (s.modHearth f) := rfl

/-! ### An interrupt cause (R346) -/

/-- What raising a cause keeps: memories and rings. -/
structure Raised (s t : State) : Prop where
  only : HearthOnly s t
  rings : t.hearth.rings = s.hearth.rings
  hostMem : t.hearth.hostMem = s.hearth.hostMem
  localMem : t.hearth.localMem = s.hearth.localMem

theorem sendMsix_raised (vec : Nat) (s : State) :
    Raised s (sendMsix vec s) ∧ (sendMsix vec s).hearth.intStatus = s.hearth.intStatus := by
  unfold sendMsix
  split
  · exact ⟨⟨rfl, rfl, rfl, rfl⟩, rfl⟩
  · exact ⟨⟨rfl, rfl, rfl, rfl⟩, rfl⟩

theorem raiseInt_raised (b vec : Nat) (s : State) : Raised s (raiseInt b vec s) := by
  unfold raiseInt
  split
  next => exact ⟨rfl, rfl, rfl, rfl⟩
  next =>
    split
    · exact ⟨rfl, rfl, rfl, rfl⟩
    · obtain ⟨⟨only, rings, host, loc⟩, -⟩ := sendMsix_raised vec (s.modHearth fun h => { h with intStatus := h.intStatus ||| (1#7 <<< b) })
      exact ⟨(HearthOnly.modHearth _ s).trans only, rings, host, loc⟩

theorem raiseInt_sets {b : Nat} (hb : b < 7) (vec : Nat) (s : State) : (raiseInt b vec s).hearth.intStatus.getLsbD b = true := by
  have set : (s.hearth.intStatus ||| (1#7 <<< b)).getLsbD b = true := by simp [hb]
  unfold raiseInt
  split
  next already => exact already
  next =>
    split
    · exact set
    · rw [(sendMsix_raised ..).2]
      exact set

/-! ### Writing an entry (R354) -/

/-- The eight words of the completion entry of a command. -/
def completionWords (c : CmdRef) (r : Reply) (s : State) : List Word :=
  [pack [(16, c.tag), (8, r.status), (7, bit ((theRing s c.ring).cplTail / 256 % 2 == 0)), (6, bit (deadlinePassed c s))],
    pack [(16, c.opcode), (0, c.count % 65536)], r.detail] ++ padTo 0 5 r.result

/-- The address of the next completion entry of a ring. -/
def completionAt (g : Ring) : Nat := g.cplBase.toNat + 32 * (g.cplTail % 256)

/-- The bytes of a completion are put into the memory of the ring. -/
def putEntry (g : Ring) (a : Nat) (entry : List Byte) (s : State) : State :=
  if g.isLocal then localWrite a entry s else hostWrite a entry s

/-- The end of the work of the urgent ring is noted. -/
def noteUrgent (r : Nat) (s : State) : State := if r = 0 then s.modHearth fun h => { h with urgentPrev := s.time.hearthPs } else s

theorem putEntry_only (g : Ring) (a : Nat) (entry : List Byte) (s : State) :
    HearthOnly s (putEntry g a entry s) ∧ (putEntry g a entry s).hearth.rings = s.hearth.rings := by
  unfold putEntry
  split
  · exact ⟨rfl, rfl⟩
  · exact ⟨rfl, rfl⟩

theorem noteUrgent_raised (r : Nat) (s : State) : Raised s (noteUrgent r s) := by
  unfold noteUrgent
  split
  · exact ⟨rfl, rfl, rfl, rfl⟩
  · exact ⟨rfl, rfl, rfl, rfl⟩

section
variable {c : CmdRef} {r : Reply} {s : State} (live : r.status ≠ St.expired)
include live

theorem writeCompletion_of_off (off : (theRing s c.ring).en = false) : writeCompletion c r s = s := by
  simp only [writeCompletion, off, live, if_false, Bool.false_eq_true]

theorem writeCompletion_of_on (on : (theRing s c.ring).en = true) : writeCompletion c r s =
    raiseInt c.ring (if (theRing s c.ring).perVec then c.vector else (theRing s c.ring).vector)
      (modRing c.ring (fun g => { g with cplTail := (g.cplTail + 1) % 65536 }) (noteUrgent c.ring
        (putEntry (theRing s c.ring) (completionAt (theRing s c.ring)) (wordsLe (completionWords c r s)) s))) := by
  simp only [writeCompletion, on, live, if_false, if_true]
  rfl

end

theorem length_completionWords (c : CmdRef) {r : Reply} (s : State) (h : r.result.length ≤ 5) : (completionWords c r s).length = 8 := by
  simp only [completionWords, padTo, List.take_of_length_le h, List.length_append, List.length_replicate, List.length_cons, List.length_nil]
  omega

theorem theRing_modRing (r q : Nat) (f : Ring → Ring) (s : State) :
    theRing (modRing r f s) q = if r = q then f (theRing s q) else theRing s q := by
  rw [theRing, modRing, State.modHearth, tget_tmod]
  by_cases same : r = q
  · rw [if_pos same, if_pos same, same]; rfl
  · rw [if_neg same, if_neg same]; rfl

/-- The ring registers, by what they are in the state that a completion is announced in. -/
theorem theRing_of_rings {s t : State} (h : t.hearth.rings = s.hearth.rings) (q : Nat) : theRing t q = theRing s q := by
  rw [theRing, h, theRing]

/-- What a completion leaves in the rings, in the memories and elsewhere. -/
structure Completed (c : CmdRef) (a : Nat) (entry : List Byte) (s t : State) : Prop where
  tail : (theRing t c.ring).cplTail = ((theRing s c.ring).cplTail + 1) % 65536
  other : ∀ q, q ≠ c.ring → theRing t q = theRing s q
  host : (theRing s c.ring).isLocal = false →
    t.hearth.hostMem = memWrite s.hearth.hostMem a entry ∧ t.hearth.localMem = s.hearth.localMem
  local_ : (theRing s c.ring).isLocal = true →
    t.hearth.localMem = memWrite s.hearth.localMem (a % 65536) entry ∧ t.hearth.hostMem = s.hearth.hostMem
  only : HearthOnly s t

theorem writeCompletion_completed {c : CmdRef} {r : Reply} {s : State} (live : r.status ≠ St.expired)
    (on : (theRing s c.ring).en = true) :
    Completed c (completionAt (theRing s c.ring)) (wordsLe (completionWords c r s)) s (writeCompletion c r s) := by
  rw [writeCompletion_of_on live on]
  generalize hg : theRing s c.ring = g
  generalize wordsLe (completionWords c r s) = entry
  generalize completionAt g = a
  obtain ⟨putOnly, putRings⟩ := putEntry_only g a entry s
  obtain ⟨noteOnly, noteRings, noteHost, noteLocal⟩ := noteUrgent_raised c.ring (putEntry g a entry s)
  obtain ⟨only, rings, host, loc⟩ := raiseInt_raised c.ring (if g.perVec then c.vector else g.vector)
    (modRing c.ring (fun g => { g with cplTail := (g.cplTail + 1) % 65536 }) (noteUrgent c.ring (putEntry g a entry s)))
  have ring (q : Nat) : theRing (noteUrgent c.ring (putEntry g a entry s)) q = theRing s q :=
    theRing_of_rings (noteRings.trans putRings) q
  refine ⟨?_, fun q hq => ?_, fun h => ?_, fun h => ?_, ((putOnly.trans noteOnly).trans (HearthOnly.modHearth _ _)).trans only⟩
  · rw [theRing_of_rings rings, theRing_modRing, if_pos rfl, ring]
  · rw [theRing_of_rings rings, theRing_modRing, if_neg hq.symm, ring]
  · have put : putEntry g a entry s = hostWrite a entry s := if_neg (by rw [← hg, h]; decide)
    exact ⟨(host.trans noteHost).trans (by rw [put]; rfl), (loc.trans noteLocal).trans (by rw [put]; rfl)⟩
  · have put : putEntry g a entry s = localWrite a entry s := if_pos (by rw [← hg, h])
    exact ⟨(loc.trans noteLocal).trans (by rw [put]; rfl), (host.trans noteHost).trans (by rw [put]; rfl)⟩

end Sys2Proof.Machine

namespace Sys2Proof.Proofs

open Sys2Proof.Machine

/-- Settles O6: the entry is put, then the tail moves, then the cause is raised. -/
theorem completionEntries : Obligations.CompletionEntries := by
  unfold Obligations.CompletionEntries
  refine ⟨?_, fun c r s off live => writeCompletion_of_off live off⟩
  intro c r s ring on live short g t a entry
  have words : entry = wordsLe (completionWords c r s) := by
    rw [completionWords, padTo, List.take_of_length_le short, ← List.append_assoc]
  have cause : t.hearth.intStatus.getLsbD c.ring = true := by
    simp only [t]
    rw [writeCompletion_of_on live on]
    exact raiseInt_sets (by omega) ..
  obtain ⟨tail, other, host, loc, only⟩ := writeCompletion_completed live on
  refine ⟨?_, tail, cause, other, ?_, ?_, only⟩
  · rw [words, length_wordsLe, length_completionWords c s short]
  · rw [words]; exact host
  · rw [words]; exact loc

end Sys2Proof.Proofs
end

section
/-! SUPPORT. How the Hearth takes an entry up (R350, R352, R353, R355 to R357): the words of an entry as fields, the command of an
opcode, the checks at the start in their order, and the checks of the block. -/

namespace Sys2Proof.Machine

/-! ### The words of an entry (R352) -/

theorem toNat_extract (w : Word) (lo n : Nat) : (w.extractLsb' lo n).toNat = w.toNat / 2 ^ lo % 2 ^ n := by
  rw [BitVec.extractLsb'_toNat, Nat.shiftRight_eq_div_pow]

theorem fld_zero (w : Word) (hi : Nat) : fld w hi 0 = w.toNat % 2 ^ (hi + 1) := by rw [fld, pow_zero, Nat.div_one, Nat.sub_zero]

theorem entryHdr_reservedSet (r : Fin 4) (m : List Word) : (entryHdr r m).reservedSet = true ↔
    (m.getD 0 0).toNat % 2 ^ 5 ≠ 0 ∨ (m.getD 1 0).toNat % 2 ^ 10 ≠ 0 := by
  simp only [entryHdr, fld_zero, Bool.or_eq_true, bne_iff_ne]

theorem entryHdr_indirect_none {r : Fin 4} {m : List Word} (h : (m.getD 0 0).toNat / 2 ^ 5 % 2 = 0) :
    (entryHdr r m).indirect = none := if_neg (by simp only [bitAt, h]; decide)

theorem entryHdr_indirect_some {r : Fin 4} {m : List Word} (h : (m.getD 0 0).toNat / 2 ^ 5 % 2 = 1) :
    (entryHdr r m).indirect = some { argLen := m.getD 5 0, argPtr := BitVec.ofNat 64 ((m.getD 6 0).toNat + 2 ^ 32 * (m.getD 7 0).toNat),
                                     restSet := (m.drop 8).any fun w => w != 0 } := if_pos (by simp only [bitAt, h]; decide)

theorem entryArgs_direct {h : CmdHdr} (direct : h.indirect = none) (s : State) (r : Nat) (m : List Word) :
    entryArgs s r h m = (m.drop 5).take 11 := by simp only [entryArgs, direct]

/-! ### The command of an opcode (R374) -/

/-- A command that an opcode spells is the entry of that opcode. -/
theorem mailCmd_of_commandOf {s : State} {op : Nat} {h : CmdHdr} {args : List Word} {i : Instr} (e : commandOf s op h args = some i) :
    ∃ m, mailCmd i = some m ∧ m.spec.op = op ∧ m.hdr = h ∧ m.args = args := by
  unfold commandOf at e
  split at e
  all_goals cases e
  all_goals exact ⟨_, rfl, rfl, rfl, rfl⟩

/-- The opcode of every entry spells a command. -/
theorem commandOf_of_mailCmd (s : State) {i : Instr} {m : MailCmd} (hm : mailCmd i = some m) :
    ∃ j, commandOf s m.spec.op m.hdr m.args = some j := by
  cases i <;> cases hm <;> exact ⟨_, rfl⟩

/-! ### Fetching, and what ends an entry before its work (R355, R357) -/

theorem theRing_fetchEntry (r : Nat) (s : State) : theRing (fetchEntry r s) r =
    { theRing s r with cmdHead := ((theRing s r).cmdHead + 1) % 65536, doorbells := (theRing (fetchEntry r s) r).doorbells } := by
  have ring : theRing (fetchEntry r s) r = theRing (modRing r (fun g => { g with
      cmdHead := ((theRing s r).cmdHead + 1) % 65536
      doorbells := g.doorbells.filter fun d => d.1 != ((theRing s r).cmdHead + 1) % 65536 }) s) r := by
    unfold fetchEntry
    split
    · rfl
    · rfl
  rw [ring, theRing_modRing, if_pos rfl]

section
variable {i : Instr} {m : MailCmd} {s : State} (cmd : mailCmd i = some m) (block : m.hdr.argsOk m.args = true)
include cmd

theorem fetched_of_mailCmd : fetched i s = fetchEntry m.hdr.ring s := by simp only [fetched, cmd]

theorem refOf_of_mailCmd : refOf i s = cmdRefOf m.spec m.hdr s := by simp only [refOf, cmd]

include block

/-- An entry runs in the mailbox. -/
theorem exec_mailbox : ∃ body, exec i s = .next (mailbox m.spec (fun _ => m.len) body m.hdr m.args s) := by
  obtain ⟨body, eq⟩ := exec_mail cmd s
  exact ⟨body, eq.trans (if_pos block)⟩

theorem exec_of_notServed (off : serves s m.hdr.ring = false) : exec i s = .next s := by
  obtain ⟨body, eq⟩ := exec_mailbox (s := s) cmd block
  rw [eq, mailbox, if_neg (by rw [off]; decide)]

variable (on : serves s m.hdr.ring = true)
include on

theorem exec_of_startCheck {st d : Nat} (bad : startCheck m.spec m.hdr (refOf i s) (fetched i s) = some (st, d)) :
    exec i s = .next (refusedEnd i s st d) := by
  obtain ⟨body, eq⟩ := exec_mailbox (s := s) cmd block
  rw [refusedEnd]
  rw [fetched_of_mailCmd cmd, refOf_of_mailCmd cmd] at *
  simp only [eq, mailbox, on, bad, if_true]

theorem exec_of_blockCheck {st d : Nat} (good : startCheck m.spec m.hdr (refOf i s) (fetched i s) = none)
    (bad : blockCheck m.hdr m.args m.len = some (st, d)) : exec i s = .next (refusedEnd i s st d) := by
  obtain ⟨body, eq⟩ := exec_mailbox (s := s) cmd block
  rw [refusedEnd]
  rw [fetched_of_mailCmd cmd, refOf_of_mailCmd cmd] at *
  simp only [eq, mailbox, on, good, bad, if_true]

end

/-! ### The checks at the start in their order (R357) -/

/-- The fields of an entry are such that R352 allows them. -/
def FieldsOk (h : CmdHdr) : Prop :=
  h.reservedSet = false ∧ deadlineFieldOk h = true ∧ (∀ x, h.indirect = some x →
    4 ≤ x.argLen.toNat ∧ x.argLen.toNat ≤ 4096 ∧ x.argLen.toNat % 4 = 0 ∧ x.argPtr.toNat % 4 = 0)

/-- The test of the fields as the check at the start makes it. -/
def fieldsBad (h : CmdHdr) : Bool :=
  h.reservedSet || !deadlineFieldOk h ||
    (match h.indirect with
     | none => false
     | some i => decide (i.argLen.toNat < 4 ∨ 4096 < i.argLen.toNat ∨ i.argLen.toNat % 4 ≠ 0 ∨ i.argPtr.toNat % 4 ≠ 0))

theorem fieldsBad_iff (h : CmdHdr) : fieldsBad h = true ↔ ¬FieldsOk h := by
  unfold fieldsBad FieldsOk
  cases h.indirect with
  | none =>
    simp only [Bool.or_false, Bool.or_eq_true, Bool.not_eq_true', reduceCtorEq, false_implies, implies_true, and_true]
    cases h.reservedSet <;> cases deadlineFieldOk h <;> simp
  | some i =>
    simp only [Bool.or_eq_true, Bool.not_eq_true', decide_eq_true_eq, Option.some.injEq, forall_eq']
    cases h.reservedSet <;> cases deadlineFieldOk h <;> simp
    omega

section
variable {sp : CmdSpec} {h : CmdHdr} {c : CmdRef} {s : State}

theorem startCheck_eq : startCheck sp h c s =
    if activeVer s (theRing s h.ring) ≠ some h.ifVer.toNat then some (St.versionMismatch, h.ifVer.toNat)
    else if sp.ring ≠ 4 ∧ sp.ring ≠ h.ring.val then some (St.wrongRing, sp.ring)
    else if fieldsBad h = true then some (St.badArgument, 0)
    else if h.dlMode = 1 ∧ timeUnset s then some (St.timeUnset, 0)
    else if deadlinePassed c s then some (St.expired, 0)
    else if sp.halves && (!halfPowered s 0 || !halfPowered s 1) then
      some (St.halfUnpowered, bit (!halfPowered s 0) + 2 * bit (!halfPowered s 1))
    else if sp.halves && (!s.power.ready0 || !s.power.ready1) then
      some (St.busy, bit (!s.power.ready0) + 2 * bit (!s.power.ready1))
    else none := rfl

theorem startCheck_of_otherVersion (ver : ¬activeVer s (theRing s h.ring) = some h.ifVer.toNat) :
    startCheck sp h c s = some (St.versionMismatch, h.ifVer.toNat) := if_pos ver

variable (ver : activeVer s (theRing s h.ring) = some h.ifVer.toNat)
include ver

theorem startCheck_of_otherRing (other : ¬(sp.ring = 4 ∨ sp.ring = h.ring.val)) : startCheck sp h c s = some (St.wrongRing, sp.ring) := by
  rw [startCheck_eq, if_neg (not_not.mpr ver), if_pos (not_or.mp other)]

variable (ring : sp.ring = 4 ∨ sp.ring = h.ring.val)
include ring

theorem startCheck_of_ring : startCheck sp h c s =
    if fieldsBad h = true then some (St.badArgument, 0)
    else if h.dlMode = 1 ∧ timeUnset s then some (St.timeUnset, 0)
    else if deadlinePassed c s then some (St.expired, 0)
    else if sp.halves && (!halfPowered s 0 || !halfPowered s 1) then
      some (St.halfUnpowered, bit (!halfPowered s 0) + 2 * bit (!halfPowered s 1))
    else if sp.halves && (!s.power.ready0 || !s.power.ready1) then
      some (St.busy, bit (!s.power.ready0) + 2 * bit (!s.power.ready1))
    else none := by
  rw [startCheck_eq, if_neg (not_not.mpr ver), if_neg (by tauto)]

theorem startCheck_of_badFields (bad : ¬FieldsOk h) : startCheck sp h c s = some (St.badArgument, 0) := by
  rw [startCheck_of_ring ver ring, if_pos ((fieldsBad_iff h).mpr bad)]

variable (fields : FieldsOk h)
include fields

theorem startCheck_of_unset (timed : h.dlMode = 1 ∧ timeUnset s = true) : startCheck sp h c s = some (St.timeUnset, 0) := by
  rw [startCheck_of_ring ver ring, if_neg (by rw [fieldsBad_iff]; exact not_not.mpr fields), if_pos timed]

variable (timed : ¬(h.dlMode = 1 ∧ timeUnset s = true))
include timed

theorem startCheck_of_passed (passed : deadlinePassed c s = true) : startCheck sp h c s = some (St.expired, 0) := by
  rw [startCheck_of_ring ver ring, if_neg (by rw [fieldsBad_iff]; exact not_not.mpr fields), if_neg timed, if_pos passed]

variable (early : deadlinePassed c s = false)
include early

theorem startCheck_of_early : startCheck sp h c s =
    if sp.halves && (!halfPowered s 0 || !halfPowered s 1) then
      some (St.halfUnpowered, bit (!halfPowered s 0) + 2 * bit (!halfPowered s 1))
    else if sp.halves && (!s.power.ready0 || !s.power.ready1) then
      some (St.busy, bit (!s.power.ready0) + 2 * bit (!s.power.ready1))
    else none := by
  rw [startCheck_of_ring ver ring, if_neg (by rw [fieldsBad_iff]; exact not_not.mpr fields), if_neg timed,
    if_neg (by rw [early]; decide)]

end

/-- The word that tells which of the two halves lack something. -/
theorem bits_of_halves (a b : Bool) : bit (!a) + 2 * bit (!b) = (if a then 0 else 1) + (if b then 0 else 2) := by
  cases a <;> cases b <;> rfl

/-! ### The checks of the block (R353) -/

section
variable {h : CmdHdr} {args : List Word} {n : Nat}

theorem blockCheck_indirect {x : Indirect} (ind : h.indirect = some x) :
    blockCheck h args n = if args.length = n ∧ x.restSet = false then none else some (St.badArgument, 0) := by
  simp only [blockCheck, ind]
  by_cases len : args.length = n <;> cases x.restSet <;> simp [len]

variable (direct : h.indirect = none)
include direct

theorem blockCheck_of_long (long : 11 < n) : blockCheck h args n = some (St.badArgument, 0) := by
  simp only [blockCheck, direct, long, if_true]

variable (short : n ≤ 11)
include short

theorem blockCheck_direct : blockCheck h args n = (firstExtra args n).map fun d => (St.badArgument, d) := by
  simp only [blockCheck, direct, Nat.not_lt.mpr short, if_false]

theorem blockCheck_of_padded (zero : ∀ k, n < k → k ≤ args.length → arg args k = 0) : blockCheck h args n = none := by
  have none : ((List.range (args.length - n)).find? fun k => arg args (n + k + 1) != 0) = none :=
    List.find?_range_eq_none.mpr fun k hk => by simp [zero (n + k + 1) (by omega) (by omega)]
  rw [blockCheck_direct direct short, firstExtra, none]
  rfl

theorem blockCheck_of_extra {k : Nat} (after : n < k) (within : k ≤ args.length) (set : arg args k ≠ 0)
    (before : ∀ j, n < j → j < k → arg args j = 0) : blockCheck h args n = some (St.badArgument, k) := by
  have at_ : n + (k - n - 1) + 1 = k := by omega
  have first : ((List.range (args.length - n)).find? fun k => arg args (n + k + 1) != 0) = some (k - n - 1) := by
    refine List.find?_range_eq_some.mpr ⟨?_, List.mem_range.mpr (by omega), fun j hj => ?_⟩
    · rw [at_]; simpa using set
    · simp [before (n + j + 1) (by omega) (by omega)]
  rw [blockCheck_direct direct short, firstExtra, first]
  simp only [Option.map_some, at_]

end

end Sys2Proof.Machine

namespace Sys2Proof.Proofs

open Sys2Proof.Machine

/-- Settles O5: the fields of an entry, the command of its opcode, and the checks in their order. -/
theorem entryChecks : Obligations.EntryChecks := by
  unfold Obligations.EntryChecks
  refine ⟨?words, ?fields, fun s op h args i => mailCmd_of_commandOf, fun s i m => commandOf_of_mailCmd s, ?taken, ?start, ?block⟩
  case words =>
    intro s r far
    simp only [entryWords, areaRead, far]
    rfl
  case fields =>
    intro r m0 m1 m2 m3 m4 rest m h
    have low : m0.toNat < 2 ^ 32 := m0.isLt
    have high : m1.toNat < 2 ^ 32 := m1.isLt
    refine ⟨?_, rfl, toNat_extract m0 8 8, ?_, ?_, toNat_extract m1 10 6, rfl, rfl, rfl, entryHdr_reservedSet r m, fun dir => ?_, fun ind => ?_⟩
    · show m0.toNat / 2 ^ 16 % 2 ^ 16 = _
      omega
    · exact toNat_extract m0 6 2
    · exact (toNat_extract m1 16 16).trans (by omega)
    · have none := entryHdr_indirect_none (r := r) (m := m) dir
      refine ⟨none, fun s len => ?_⟩
      rw [entryArgs_direct none]
      exact List.take_of_length_le len.le
    · rintro len p q more rfl
      exact entryHdr_indirect_some (r := r) (m := m) ind
  case taken =>
    intro i m s cmd block
    refine ⟨exec_of_notServed cmd block, fun on => ⟨?_, fun st d => exec_of_startCheck cmd block on,
      fun good st d => exec_of_blockCheck cmd block on good⟩⟩
    rw [fetched_of_mailCmd cmd]
    exact theRing_fetchEntry _ _
  case start =>
    intro sp h c s ver ring fields timed
    refine ⟨startCheck_of_otherVersion, startCheck_of_otherRing, startCheck_of_badFields, startCheck_of_unset, startCheck_of_passed,
      fun isVer isRing are un early => ?_⟩
    rw [startCheck_of_early isVer isRing are un early, bits_of_halves, bits_of_halves]
    refine ⟨fun none => ?_, fun both off => ?_, fun both on0 on1 off => ?_, fun both on0 on1 up0 up1 => ?_⟩
    · simp [none]
    · rw [if_pos]
      · rfl
      · simpa [both] using off
    · rw [if_neg, if_pos]
      · rfl
      · simpa [both] using off
      · simp [on0, on1]
    · rw [if_neg, if_neg]
      · simp [up0, up1]
      · simp [on0, on1]
  case block =>
    intro h args n
    exact ⟨blockCheck_of_long, blockCheck_of_padded, fun k direct short => blockCheck_of_extra direct short, fun x => blockCheck_indirect⟩

end Sys2Proof.Proofs
end

section
/-! SUPPORT. The commands on partitions, ports, allowances and seeds (R323 to R326, R329 to R331, R340), and retirement (R328). -/

namespace Sys2Proof.Machine

/-! ### Partition records (R323, R324) -/

/-- A partition record is written, and its parity mended. -/
def putPart (p : Nat) (q : Part) (s : State) : State := clearParity .partition (· == p) (modPart p (fun _ => q) s)

theorem thePart_putPart (p : Nat) (x : Part) (s : State) (q : Nat) : thePart (putPart p x s) q = if q = p then x else thePart s q := by
  have read : thePart (putPart p x s) q = if p = q then x else thePart s q := tget_tmod s.jobs.parts {} p q fun _ => x
  rw [read]
  exact if_congr eq_comm rfl rfl

theorem putPart_fetched (p : Nat) (x : Part) (i : Instr) (s : State) : putPart p x (fetched i s) =
    { fetched i s with jobs := { s.jobs with parts := (putPart p x (fetched i s)).jobs.parts }
                       routing := { s.routing with parity := (putPart p x (fetched i s)).routing.parity } } := by
  rw [← fetched_jobs i s, ← fetched_routing i s]
  rfl

section
variable {args : List Word} {s : State}

theorem partCreate_of_bad {d : Nat} (h : partBad (argWords args 1 4) = some d) : partCreate args s = cmdRefuse St.badArgument d s := by
  simp only [partCreate, h]

theorem partQuota_of_bad {d : Nat} (h : partBad (argWords args 1 4) = some d) : partQuota args s = cmdRefuse St.badArgument d s := by
  simp only [partQuota, h]

variable (good : partBad (argWords args 1 4) = none)
include good

theorem partCreate_of_active (h : (thePart s (fld (arg args 1) 11 0)).state = 1) : partCreate args s = cmdRefuse St.busy 0 s := by
  simp only [partCreate, good, h, if_true]

theorem partCreate_of_retiring (h : (thePart s (fld (arg args 1) 11 0)).state = 2) :
    partCreate args s = cmdRefuse St.partitionRetiring 0 s := by
  simp only [partCreate, good, h]
  rfl

theorem partCreate_of_free (h : (thePart s (fld (arg args 1) 11 0)).state = 0) :
    partCreate args s = cmdOk (putPart (fld (arg args 1) 11 0) (partOf (argWords args 1 4) 1) s) := by
  simp only [partCreate, good, h]
  rfl

theorem partQuota_of_free (h : (thePart s (fld (arg args 1) 11 0)).state = 0) : partQuota args s = cmdRefuse St.quotaExceeded 0 s := by
  simp only [partQuota, good, h, if_true]

theorem partQuota_of_retiring (h : (thePart s (fld (arg args 1) 11 0)).state = 2) :
    partQuota args s = cmdRefuse St.partitionRetiring 0 s := by
  simp only [partQuota, good, h]
  rfl

variable (active : (thePart s (fld (arg args 1) 11 0)).state = 1)
include active

theorem partQuota_of_active : partQuota args s =
    if ((List.range 4).any fun r => decide (limitOf (partOf (argWords args 1 4) 1) r < chargeOf s (fld (arg args 1) 11 0) r)) = true then
      cmdRefuse St.busy 0 s
    else cmdOk (putPart (fld (arg args 1) 11 0) (partOf (argWords args 1 4) 1) s) := by
  simp only [partQuota, good, active]
  rfl

theorem partQuota_of_over (h : ∃ r, r < 4 ∧ limitOf (partOf (argWords args 1 4) 1) r < chargeOf s (fld (arg args 1) 11 0) r) :
    partQuota args s = cmdRefuse St.busy 0 s := by
  rw [partQuota_of_active good active, if_pos]
  simpa using h

theorem partQuota_of_within (h : ∀ r, r < 4 → chargeOf s (fld (arg args 1) 11 0) r ≤ limitOf (partOf (argWords args 1 4) 1) r) :
    partQuota args s = cmdOk (putPart (fld (arg args 1) 11 0) (partOf (argWords args 1 4) 1) s) := by
  rw [partQuota_of_active good active, if_neg]
  simpa using h

end

/-! ### PART_PORT_SET and PART_ALLOW_WRITE (R325, R326) -/

section
variable {args : List Word} {s : State}

theorem partPortSet_of_badPort (h : 1024 ≤ argN args 1 ∨ portBase s (argN args 1) = false) :
    partPortSet args s = cmdRefuse St.badArgument 1 s := by
  have none : portBase s (argN args 1) = false := by
    rcases h with high | none
    · rw [portBase, decide_eq_false (Nat.not_lt.mpr high), Bool.false_and]
    · exact none
  simp only [partPortSet, none, Bool.not_false, if_true]

variable (base : portBase s (argN args 1) = true)
include base

theorem partPortSet_of_badMode (h : fld (arg args 2) 31 30 = 3 ∨ (fld (arg args 2) 31 30 = 1 ∧ fld (arg args 2) 11 0 = 0) ∨
    (fld (arg args 2) 31 30 ≠ 1 ∧ fld (arg args 2) 11 0 ≠ 0)) : partPortSet args s = cmdRefuse St.badArgument 2 s := by
  simp only [partPortSet, base, Bool.not_true, Bool.false_eq_true, if_false]
  exact if_pos h

variable (good : ¬(fld (arg args 2) 31 30 = 3 ∨ (fld (arg args 2) 31 30 = 1 ∧ fld (arg args 2) 11 0 = 0) ∨
    (fld (arg args 2) 31 30 ≠ 1 ∧ fld (arg args 2) 11 0 ≠ 0)))
include good

theorem partPortSet_of_mode : partPortSet args s =
    if fld (arg args 2) 31 30 = 1 ∧ (thePart s (fld (arg args 2) 11 0)).state = 2 then cmdRefuse St.partitionRetiring 0 s
    else cmdOk (s.modJobs fun j => { j with portPart := tset j.portPart {} (argN args 1) ⟨fld (arg args 2) 31 30, fld (arg args 2) 11 0⟩ }) := by
  simp only [partPortSet, base, Bool.not_true, Bool.false_eq_true, if_false]
  exact if_neg good

end

section
variable {args : List Word} {s : State}

theorem partAllowWrite_of_badEntry (h : 256 ≤ argN args 1) : partAllowWrite args s = cmdRefuse St.badArgument 1 s := if_pos h

variable (within : argN args 1 < 256)
include within

theorem partAllowWrite_of_badPair (valid : bitAt (arg args 2) 31 = true)
    (h : fld (arg args 2) 23 12 = 0 ∨ fld (arg args 2) 11 0 = 0 ∨ fld (arg args 2) 23 12 = fld (arg args 2) 11 0) :
    partAllowWrite args s = cmdRefuse St.badArgument 2 s :=
  (if_neg (Nat.not_le.mpr within)).trans (if_pos ⟨valid, h⟩)

theorem partAllowWrite_of_retiring (valid : bitAt (arg args 2) 31 = true)
    (pair : ¬(fld (arg args 2) 23 12 = 0 ∨ fld (arg args 2) 11 0 = 0 ∨ fld (arg args 2) 23 12 = fld (arg args 2) 11 0))
    (h : (thePart s (fld (arg args 2) 23 12)).state = 2 ∨ (thePart s (fld (arg args 2) 11 0)).state = 2) :
    partAllowWrite args s = cmdRefuse St.partitionRetiring 0 s :=
  (if_neg (Nat.not_le.mpr within)).trans ((if_neg fun bad => pair bad.2).trans (if_pos ⟨valid, h⟩))

theorem partAllowWrite_writes
    (pair : bitAt (arg args 2) 31 = true →
      ¬(fld (arg args 2) 23 12 = 0 ∨ fld (arg args 2) 11 0 = 0 ∨ fld (arg args 2) 23 12 = fld (arg args 2) 11 0))
    (stay : bitAt (arg args 2) 31 = true →
      ¬((thePart s (fld (arg args 2) 23 12)).state = 2 ∨ (thePart s (fld (arg args 2) 11 0)).state = 2)) :
    partAllowWrite args s = cmdOk (clearParity .allow (· == argN args 1) (s.modJobs fun j =>
      { j with allow := tset j.allow {} (argN args 1) ⟨bitAt (arg args 2) 31, fld (arg args 2) 23 12, fld (arg args 2) 11 0⟩ })) :=
  (if_neg (Nat.not_le.mpr within)).trans ((if_neg fun bad => pair bad.1 bad.2).trans (if_neg fun bad => stay bad.1 bad.2))

end

/-! ### SEED_DEFINE and SEED_FREE (R331) -/

@[simp] theorem fetched_seedNamed (i : Instr) (s : State) (id : Nat) : seedNamed (fetched i s) id = seedNamed s id := by
  simp only [seedNamed, fetched_jobs]
@[simp] theorem fetched_seedOk (i : Instr) (s : State) (x : Seed) : seedOk (fetched i s) x = seedOk s x := by
  simp only [seedOk, fetched_seedNamed]

/-- The record that a SEED_DEFINE reads. -/
def definedSeed (args : List Word) (s : State) : Seed := seedOf (wordsOf (hostRead s (arg64 args 2) 32))

section
variable {args : List Word} {s : State}

theorem seedDefine_of_badEntry (h : 64 ≤ argN args 1) : seedDefine args s = cmdRefuse St.badArgument 1 s := if_pos h

variable (within : argN args 1 < 64)
include within

theorem seedDefine_of_used (h : (theSeed s (argN args 1)).state ≠ 0) : seedDefine args s = cmdRefuse St.busy 0 s :=
  (if_neg (Nat.not_le.mpr within)).trans (if_pos h)

variable (free : (theSeed s (argN args 1)).state = 0)
include free

theorem seedDefine_of_badRecord (h : seedOk s (definedSeed args s) = false) : seedDefine args s = cmdRefuse St.badArgument 2 s :=
  (if_neg (Nat.not_le.mpr within)).trans ((if_neg (not_not.mpr free)).trans (if_pos (congrArg (! ·) h)))

variable (good : seedOk s (definedSeed args s) = true)
include good

theorem seedDefine_of_good : seedDefine args s =
    if (thePart s (definedSeed args s).partition).state = 2 then cmdRefuse St.partitionRetiring 0 s
    else if !(tget s.routing.trees {} (definedSeed args s).treeId).valid ∨
        (tget s.routing.trees {} (definedSeed args s).treeId).partition ≠ (definedSeed args s).partition then cmdRefuse St.badArgument 2 s
    else if (windowFor s (definedSeed args s).partition (definedSeed args s).offset (definedSeed args s).length true false).isNone then
      cmdRefuse St.refusedPermission 0 s
    else cmdOk (modSeed (argN args 1) (fun _ => definedSeed args s) s) :=
  (if_neg (Nat.not_le.mpr within)).trans ((if_neg (not_not.mpr free)).trans (if_neg (by
    rw [definedSeed] at good
    rw [good]
    decide)))

end

section
variable {args : List Word} {s : State}

theorem seedFree_of_badEntry (h : 64 ≤ argN args 1) : seedFree args s = cmdRefuse St.badArgument 1 s := if_pos h

theorem seedFree_of_sent (within : argN args 1 < 64) (h : (theSeed s (argN args 1)).state = 2) : seedFree args s = cmdRefuse St.busy 0 s :=
  (if_neg (Nat.not_le.mpr within)).trans (if_pos h)

theorem seedFree_frees (within : argN args 1 < 64) (h : (theSeed s (argN args 1)).state ≠ 2) :
    seedFree args s = cmdOk (modSeed (argN args 1) (fun _ => {}) s) := (if_neg (Nat.not_le.mpr within)).trans (if_neg h)

end

/-! ### PART_RETIRE (R328) -/

section
variable {c : CmdRef} {args : List Word} {s : State}

theorem partRetire_of_badNumber (h : argN args 1 = 0 ∨ 4095 < argN args 1) : partRetire c args s = cmdRefuse St.badArgument 1 s := if_pos h

variable (positive : 0 < argN args 1) (within : argN args 1 ≤ 4095)
include positive within

theorem partRetire_of_free (h : (thePart s (argN args 1)).state = 0) : partRetire c args s = cmdRefuse St.quotaExceeded 0 s :=
  (if_neg (by omega)).trans (if_pos h)

theorem partRetire_of_retiring (h : (thePart s (argN args 1)).state = 2) : partRetire c args s = cmdRefuse St.partitionRetiring 0 s :=
  (if_neg (by omega)).trans ((if_neg (by omega)).trans (if_pos h))

variable (active : (thePart s (argN args 1)).state = 1)
include active

theorem partRetire_of_active {u v : State} (hu : retireStop (argN args 1) s = u) (hv : retireContexts (argN args 1) u = v)
    {pids : List Nat} (hp : List.range' u.core.nextPid (v.core.nextPid - u.core.nextPid) = pids) : partRetire c args s =
      if pidsLeft v pids = true then ((addDetached c .none v).modJobs fun j => { j with
        retiring := j.retiring ++ [{ partition := argN args 1, pids := pids, cmd := some c, ranges := [] }] }, none)
      else cmdOk (retireStep4 { partition := argN args 1, pids := [], cmd := none, ranges := [] } (v.modJobs fun j => { j with
        retiring := j.retiring ++ [{ partition := argN args 1, pids := [], cmd := none, ranges := [] }] })) := by
  subst hu hv hp
  exact (if_neg (by omega)).trans ((if_neg (by omega)).trans (if_neg (by omega)))

end

/-- The state in which a retirement's command completes: the tables have gone, and the scrub is noted. -/
def tablesGone (r : Retire) (s : State) : State :=
  (retireTables r.partition s).modJobs fun j => { j with retiring := j.retiring.map fun x =>
    if x.partition = r.partition then { r with cmd := none, ranges := scrubRanges r.partition s } else x }

section
variable (r : Retire) (s : State)

theorem tablesGone_windows : ∀ e ∈ (tablesGone r s).mem.windows, e.2.valid = true → e.2.partition ≠ r.partition := by
  intro e he valid is
  have kept := (List.mem_filter.mp he).2
  simp [valid, is] at kept

theorem tablesGone_trees : ∀ e ∈ (tablesGone r s).routing.trees, e.2.valid = true → e.2.partition ≠ r.partition := by
  intro e he valid is
  have kept := (List.mem_filter.mp he).2
  simp [valid, is] at kept

theorem tablesGone_allow :
    ∀ e ∈ (tablesGone r s).jobs.allow, e.2.valid = true → e.2.guest ≠ r.partition ∧ e.2.host ≠ r.partition := by
  intro e he valid
  have kept := (List.mem_filter.mp he).2
  simpa [valid] using kept

theorem tablesGone_seeds : ∀ e ∈ (tablesGone r s).jobs.seeds, e.2.partition ≠ r.partition := by
  intro e he
  have kept := (List.mem_filter.mp he).2
  simpa using kept

end

end Sys2Proof.Machine

namespace Sys2Proof.Proofs

open Sys2Proof.Machine

/-- Settles O45: each command by its checks in their order; a record is written by `putPart`, and step 4 leaves `tablesGone`. -/
theorem partitionsAndSeeds : Obligations.PartitionsAndSeeds := by
  unfold Obligations.PartitionsAndSeeds
  refine ⟨?create, ?quota, ?port, ?allow, ?scrub, ?define, ?free, ?retire, ?step4⟩
  case create =>
    intro h args s i w p acc
    have run := exec_partCreate h args s
    rw [← fetched_thePart i]
    refine ⟨fun d bad => run_refused rfl acc run (partCreate_of_bad bad), fun good active => run_refused rfl acc run (partCreate_of_active good active),
      fun good retires => run_refused rfl acc run (partCreate_of_retiring good retires), fun good free =>
        ⟨putPart p (partOf w 1) (fetched i s), run_ok rfl acc run (partCreate_of_free good free), fun q => ?_, putPart_fetched ..⟩⟩
    rw [thePart_putPart, fetched_thePart]
  case quota =>
    intro h args s i w p acc
    have run := exec_partQuota h args s
    have charges (r : Nat) : chargeOf s p r = chargeOf (fetched i s) p r := (fetched_chargeOf ..).symm
    simp only [charges]
    rw [← fetched_thePart i]
    refine ⟨fun d bad => run_refused rfl acc run (partQuota_of_bad bad), fun good free => run_refused rfl acc run (partQuota_of_free good free),
      fun good retires => run_refused rfl acc run (partQuota_of_retiring good retires),
      fun good active over_ => run_refused rfl acc run (partQuota_of_over good active over_), fun good active fits =>
        ⟨putPart p (partOf w 1) (fetched i s), run_ok rfl acc run (partQuota_of_within good active fits), fun q => ?_, putPart_fetched ..⟩⟩
    rw [thePart_putPart, fetched_thePart]
  case port =>
    intro h args s i p m q acc
    have run := exec_partPortSet h args s
    rw [← fetched_thePart i, ← fetched_portBase i]
    refine ⟨fun bad => run_refused rfl acc run (partPortSet_of_badPort bad), fun _ base bad => run_refused rfl acc run (partPortSet_of_badMode base bad),
      fun _ base one some_ retires => ?_, fun _ base few pairs stays => ?_⟩
    · have mode := partPortSet_of_mode (s := fetched i s) base (by omega)
      exact run_refused rfl acc run (mode.trans (if_pos ⟨one, retires⟩))
    · have mode := partPortSet_of_mode (s := fetched i s) base (by omega)
      exact run_ok rfl acc run (mode.trans (if_neg fun bad => stays bad.1 bad.2))
  case allow =>
    intro h args s i v g o acc
    have run := exec_partAllowWrite h args s
    rw [← fetched_thePart i s g, ← fetched_thePart i s o]
    refine ⟨fun bad => run_refused rfl acc run (partAllowWrite_of_badEntry bad), fun within =>
      ⟨fun valid bad => run_refused rfl acc run (partAllowWrite_of_badPair within valid bad), fun valid hg ho other retires =>
        run_refused rfl acc run (partAllowWrite_of_retiring within valid (by tauto) retires), fun good =>
        run_ok rfl acc run (partAllowWrite_writes within (fun valid => ?_) fun valid => ?_)⟩⟩
    all_goals
      rcases good with invalid | ⟨hg, ho, other, stayG, stayO⟩
      · exact absurd valid (by rw [show bitAt (arg args 2) 31 = false from invalid]; decide)
      · tauto
  case scrub =>
    intro h args s i acc
    have run := exec_partScrubConfig h args s
    exact ⟨fun low high => run_ok rfl acc run (if_neg (by omega)), fun bad => run_refused rfl acc run (if_pos bad)⟩
  case define =>
    intro h args s i x t acc
    have run := exec_seedDefine h args s
    rw [← fetched_thePart i, ← fetched_theSeed i, ← fetched_seedOk i, ← fetched_windowFor i]
    have tree : t = tget (fetched i s).routing.trees {} x.treeId := by rw [fetched_routing]
    rw [tree]
    refine ⟨fun bad => run_refused rfl acc run (seedDefine_of_badEntry bad), fun within =>
      ⟨fun used => run_refused rfl acc run (seedDefine_of_used within used), fun free =>
        ⟨fun bad => run_refused rfl acc run (seedDefine_of_badRecord within free bad), fun good retires => ?_, fun good stays => ?_⟩⟩⟩
    · exact run_refused rfl acc run ((seedDefine_of_good within free good).trans (if_pos retires))
    have eq := (seedDefine_of_good within free good).trans (if_neg stays)
    refine ⟨fun bad => run_refused rfl acc run (eq.trans (if_pos (bad.imp_left fun none => congrArg (! ·) none))), fun valid own => ?_⟩
    have eq := eq.trans (if_neg (not_or.mpr ⟨ne_true_of_eq_false (congrArg (! ·) valid), not_not.mpr own⟩))
    refine ⟨fun none => run_refused rfl acc run (eq.trans (if_pos (by rw [Option.isNone_iff_eq_none]; exact none))), fun some_ => ?_⟩
    exact run_ok rfl acc run (eq.trans (if_neg (by rw [Option.isNone_iff_eq_none]; exact some_)))
  case free =>
    intro h args s i acc
    have run := exec_seedFree h args s
    rw [← fetched_theSeed i]
    exact ⟨fun bad => run_refused rfl acc run (seedFree_of_badEntry bad), fun within =>
      ⟨fun sent => run_refused rfl acc run (seedFree_of_sent within sent), fun other => run_ok rfl acc run (seedFree_frees within other)⟩⟩
  case retire =>
    intro h args s i p acc
    have run := exec_partRetire h args s
    rw [← fetched_thePart i]
    refine ⟨fun bad => run_refused rfl acc run (partRetire_of_badNumber bad),
      fun pos within free => run_refused rfl acc run (partRetire_of_free pos within free),
      fun pos within retires => run_refused rfl acc run (partRetire_of_retiring pos within retires), fun pos within active => ?_⟩
    intro u v pids
    have eq := partRetire_of_active (c := refOf i s) (s := fetched i s) (u := u) (v := v) (pids := pids) pos within active rfl rfl rfl
    generalize pids = ids at *
    generalize v = after at *
    exact ⟨fun left => run_detached rfl acc run (eq.trans (if_pos left)),
      fun gone => run_ok rfl acc run (eq.trans (if_neg (Bool.eq_false_iff.mp gone)))⟩
  case step4 =>
    intro r s r'
    refine ⟨tablesGone r s, ?_, rfl, tablesGone_windows r s, tablesGone_trees r s, tablesGone_allow r s, tablesGone_seeds r s⟩
    unfold retireStep4
    cases r.cmd <;> rfl

end Sys2Proof.Proofs
end

section
/-! SUPPORT. The life cycle and the blocks that move it (R381, R382, R384 to R386). -/

namespace Sys2Proof.Machine

/-! ### The checks of a block in their order (R384) -/

section
variable {c : Sec} {typeOk slotOk enr : Bool} {a : AuthBlock}

theorem authCheck_of_type (h : typeOk = false) : authCheck c typeOk slotOk enr a = some 1 := if_pos (congrArg (! ·) h)

variable (type : typeOk = true)
include type

theorem authCheck_of_uid (h : a.uid ≠ c.uid.toNat) : authCheck c typeOk slotOk enr a = some 2 :=
  (if_neg (by simp [type])).trans (if_pos h)

variable (uid : a.uid = c.uid.toNat)
include uid

theorem authCheck_of_seq (h : a.seq ≠ c.authSeq) : authCheck c typeOk slotOk enr a = some 3 :=
  (if_neg (by simp [type])).trans ((if_neg (not_not.mpr uid)).trans (if_pos h))

variable (seq : a.seq = c.authSeq)
include seq

theorem authCheck_of_current : authCheck c typeOk slotOk enr a =
    if (!enr && !(slotOk && signerOk c a)) = true then some 4 else if (!ecdsaOk a.key a.signed a.sig) = true then some 5 else none :=
  (if_neg (by simp [type])).trans ((if_neg (not_not.mpr uid)).trans (if_neg (not_not.mpr seq)))

theorem authCheck_of_signer (other : enr = false) (h : slotOk = false ∨ signerOk c a = false) : authCheck c typeOk slotOk enr a = some 4 := by
  refine (authCheck_of_current type uid seq).trans (if_pos ?_)
  rcases h with no | no
  · simp [other, no]
  · simp [other, no]

theorem authCheck_of_signed (h : enr = true ∨ (slotOk = true ∧ signerOk c a = true)) :
    authCheck c typeOk slotOk enr a = if ecdsaOk a.key a.signed a.sig = true then none else some 5 := by
  have signer : ¬(!enr && !(slotOk && signerOk c a)) = true := by
    rcases h with enrols | ⟨slot, signs⟩
    · simp [enrols]
    · simp [slot, signs]
  rw [authCheck_of_current type uid seq, if_neg signer]
  cases ecdsaOk a.key a.signed a.sig <;> rfl

end

/-! ### LIFECYCLE_ADVANCE (R382) -/

/-- What a command that has taken its block leaves of the security state, by what it changes there. -/
theorem authTaken_modSec (f : Sec → Sec) (s : State) : authTaken (s.modSec f) =
    { s with sec := { f s.sec with authSeq := ((f s.sec).authSeq + 1) % 2 ^ 32 } } := rfl

/-- The same where the views are closed. -/
theorem authTaken_closeViews (f : Sec → Sec) (s : State) : authTaken (closeViews (s.modSec f)) =
    { s with sec := { f s.sec with debugUntil := none, authSeq := ((f s.sec).authSeq + 1) % 2 ^ 32 } } := rfl

theorem toProvision_eq (s : State) : toProvision s = { s with
    sec := { s.sec with life := 1, identity := some (drawKey s), debugUntil := none, authSeq := (s.sec.authSeq + 1) % 2 ^ 32 }
    free := s.free + 1 } := rfl

section
variable {a : AuthBlock} {s : State}

theorem lifeAdvance_of_late (h : 2 ≤ s.sec.life) : lifeAdvance a s = authRefuse 1 s := by
  have type : (decide (s.sec.life ≤ 1) && a.param == s.sec.life + 1) = false := by
    rw [decide_eq_false (by omega), Bool.false_and]
  simp only [lifeAdvance, authCheck_of_type type]

/-- The checks of an ADVANCE block. -/
def advanceCheck (a : AuthBlock) (c : Sec) : Option Nat :=
  authCheck c (a.param == c.life + 1) (if c.life = 0 then a.slot == 0 else a.slot != 0) false a

variable (early : s.sec.life ≤ 1)
include early

theorem lifeAdvance_of_early : lifeAdvance a s = (advanceCheck a s.sec).elim
    (if s.sec.life = 0 then (if s.sec.factoryDone then cmdOk (toProvision s) else authRefuse 6 s)
     else if s.sec.owners = [] then authRefuse 6 s
     else cmdOk (authTaken (closeViews (s.modSec fun c => { c with life := 2 })))) fun d => authRefuse d s := by
  rw [lifeAdvance, decide_eq_true early, Bool.true_and, advanceCheck]
  cases authCheck s.sec (a.param == s.sec.life + 1) _ false a <;> rfl

theorem lifeAdvance_of_bad {d : Nat} (h : advanceCheck a s.sec = some d) : lifeAdvance a s = authRefuse d s := by
  rw [lifeAdvance_of_early early, h, Option.elim_some]

variable (good : advanceCheck a s.sec = none)
include good

theorem lifeAdvance_of_good : lifeAdvance a s =
    if s.sec.life = 0 then (if s.sec.factoryDone then cmdOk (toProvision s) else authRefuse 6 s)
    else if s.sec.owners = [] then authRefuse 6 s
    else cmdOk (authTaken (closeViews (s.modSec fun c => { c with life := 2 }))) := by
  rw [lifeAdvance_of_early early, good, Option.elim_none]

end

section
variable {a : AuthBlock} {s : State}

theorem enrol_of_bad {d : Nat} (h : authCheck s.sec (s.sec.life == 1) true true a = some d) : enrol a s = authRefuse d s := by
  simp only [enrol, h]

theorem enrol_of_good (good : authCheck s.sec (s.sec.life == 1) true true a = none) : enrol a s =
    if 4 ≤ s.sec.owners.length then authRefuse 6 s
    else cmdOk (authTaken (s.modSec fun c =>
      { c with owners := c.owners ++ [sha256 a.key], cosign := c.cosign || a.param % 2 == 1 })) := by
  simp only [enrol, good]

end

section
variable {args : List Word} {s : State}

theorem lifecycleAdvance_of_otherType (advance : (authAt args 1).type ≠ 1) (enrols : (authAt args 1).type ≠ 2) :
    lifecycleAdvance args s = authRefuse 1 s := (if_neg advance).trans (if_neg enrols)

theorem lifecycleAdvance_of_advance (h : (authAt args 1).type = 1) : lifecycleAdvance args s = lifeAdvance (authAt args 1) s := if_pos h

theorem lifecycleAdvance_of_enrol (h : (authAt args 1).type = 2) : lifecycleAdvance args s = enrol (authAt args 1) s :=
  (if_neg (by omega)).trans (if_pos h)

/-! ### RETURN_AUTHORISE and DEBUG_UNLOCK (R385, R386) -/

/-- The checks of the vendor's block, and of an owner's. -/
def returnVendor (args : List Word) (s : State) : Option Nat :=
  authCheck s.sec (s.sec.life == 2 && (authAt args 1).type == 3) ((authAt args 1).slot == 0) false (authAt args 1)
def returnOwner (args : List Word) (s : State) : Option Nat :=
  authCheck s.sec (s.sec.life == 2 && (authAt args 41).type == 4) ((authAt args 41).slot != 0) false (authAt args 41)

theorem returnAuthorise_of_badVendor {d : Nat} (h : returnVendor args s = some d) : returnAuthorise args s = authRefuse d s := by
  simp only [returnVendor] at h
  simp only [returnAuthorise, h]

variable (vendor : returnVendor args s = none)
include vendor

theorem returnAuthorise_of_badOwner {d : Nat} (h : returnOwner args s = some d) : returnAuthorise args s = authRefuse d s := by
  simp only [returnVendor, returnOwner] at vendor h
  simp only [returnAuthorise, vendor, h]

theorem returnAuthorise_of_good (owner : returnOwner args s = none) : returnAuthorise args s =
    if (s.jobs.parts.any fun e => e.2.state != 0) = true then cmdRefuse St.busy 0 s
    else cmdOk (authTaken (closeViews (s.modSec fun c =>
      { c with life := 3, identity := none, owners := [], cosign := false, tag := [] }))) := by
  simp only [returnVendor, returnOwner] at vendor owner
  simp only [returnAuthorise, vendor, owner]

end

section
variable {args : List Word} {s : State}

/-- The checks of a DEBUG_UNLOCK. -/
def unlockCheck (args : List Word) (s : State) : Option Nat :=
  authCheck s.sec ((s.sec.life == 1 || s.sec.life == 2) && (authAt args 1).type == 5 &&
    decide (1 ≤ (authAt args 1).param ∧ (authAt args 1).param ≤ 1440)) true false (authAt args 1)

theorem debugUnlock_of_bad {d : Nat} (h : unlockCheck args s = some d) : debugUnlock args s = authRefuse d s := by
  simp only [unlockCheck] at h
  simp only [debugUnlock, h]

theorem debugUnlock_of_good (h : unlockCheck args s = none) : debugUnlock args s =
    cmdOk (authTaken (s.modSec fun c =>
      { c with debugUntil := some (s.time.hearthPs + (authAt args 1).param * 60000000000000) })) := by
  simp only [unlockCheck] at h
  simp only [debugUnlock, h]

end

/-! ### The views (R386) -/

section
variable {s : State}

theorem viewsExpire_of_closed (h : s.sec.debugUntil = none) : viewsExpire s = s := by simp only [viewsExpire, h]

theorem viewsExpire_of_open {t : Nat} (h : s.sec.debugUntil = some t) :
    viewsExpire s = if t ≤ s.time.hearthPs then closeViews s else s := by simp only [viewsExpire, h]

theorem debugAccess_of_kept (made : s.sec.life ≠ 0) (kept : s.sec.life ≠ 3) :
    debugAccess s = if s.sec.debugUntil = none then .closed else .views := by
  refine (if_neg (not_or.mpr ⟨made, kept⟩)).trans ?_
  cases s.sec.debugUntil <;> rfl

end

end Sys2Proof.Machine

namespace Sys2Proof.Proofs

open Sys2Proof.Machine

/-- Settles O50: the checks of a block in their order, then each command by the block it carries. -/
theorem lifeCycle : Obligations.LifeCycle := by
  unfold Obligations.LifeCycle
  refine ⟨fun c typeOk slotOk enr a => ⟨authCheck_of_type, authCheck_of_uid, authCheck_of_seq, authCheck_of_signer, authCheck_of_signed⟩,
    ?advance, ?return_, ?unlock, ?expire, fun s => ⟨fun all => if_pos all, debugAccess_of_kept⟩⟩
  case advance =>
    intro h args s i a c seq acc
    have run := exec_lifecycleAdvance h args s
    have sec : (fetched i s).sec = c := fetched_sec i s
    refine ⟨fun advance enrols => run_refused rfl acc run (lifecycleAdvance_of_otherType advance enrols),
      fun advance late => run_refused rfl acc run ((lifecycleAdvance_of_advance advance).trans (lifeAdvance_of_late (sec ▸ late))), ?_, ?_, ?_, ?_, ?_⟩
    · intro advance zero good
      have checks : advanceCheck a (fetched i s).sec = none := by rw [sec, advanceCheck, zero]; exact good
      have eq := (lifecycleAdvance_of_advance advance).trans ((lifeAdvance_of_good (by rw [sec]; omega) checks).trans (if_pos (by rw [sec, zero])))
      rw [sec] at eq
      refine ⟨fun bare => run_refused rfl acc run (eq.trans (if_neg (by rw [bare]; decide))), fun done => ?_⟩
      obtain ⟨low, high⟩ := drawKey_range (fetched i s)
      refine ⟨drawKey (fetched i s), (fetched i s).free + 1, low, high, (run_ok rfl acc run (eq.trans (if_pos done))).trans ?_⟩
      rw [toProvision_eq, sec]
    · intro advance one good
      have checks : advanceCheck a (fetched i s).sec = none := by rw [sec, advanceCheck, one]; exact good
      have eq := (lifecycleAdvance_of_advance advance).trans ((lifeAdvance_of_good (by rw [sec]; omega) checks).trans (if_neg (by rw [sec, one]; decide)))
      rw [sec] at eq
      refine ⟨fun none => run_refused rfl acc run (eq.trans (if_pos none)), fun some_ => (run_ok rfl acc run (eq.trans (if_neg some_))).trans ?_⟩
      rw [authTaken_closeViews, sec]
    · intro enrols good
      have eq := (lifecycleAdvance_of_enrol (s := fetched i s) enrols).trans (enrol_of_good (by rw [sec]; exact good))
      rw [sec] at eq
      refine ⟨fun full => run_refused rfl acc run (eq.trans (if_pos full)), fun room => (run_ok rfl acc run (eq.trans (if_neg (Nat.not_le.mpr room)))).trans ?_⟩
      rw [authTaken_modSec, sec]
    · exact fun d advance early bad => run_refused rfl acc run ((lifecycleAdvance_of_advance advance).trans
        (lifeAdvance_of_bad (by rw [sec]; exact early) (by rw [sec]; exact bad)))
    · exact fun d enrols bad => run_refused rfl acc run ((lifecycleAdvance_of_enrol enrols).trans (enrol_of_bad (by rw [sec]; exact bad)))
  case return_ =>
    intro h args s i v o cv co acc
    have run := exec_returnAuthorise h args s
    have isV : returnVendor args (fetched i s) = cv := by rw [returnVendor, fetched_sec]
    have isO : returnOwner args (fetched i s) = co := by rw [returnOwner, fetched_sec]
    refine ⟨fun d bad => run_refused rfl acc run (returnAuthorise_of_badVendor (isV.trans bad)),
      fun d good bad => run_refused rfl acc run (returnAuthorise_of_badOwner (isV.trans good) (isO.trans bad)), fun goodV goodO used => ?_, fun goodV goodO free => ?_⟩
    all_goals
      have eq := returnAuthorise_of_good (isV.trans goodV) (isO.trans goodO)
      rw [fetched_jobs] at eq
    · exact run_refused rfl acc run (eq.trans (if_pos (by simpa using used)))
    · refine (run_ok rfl acc run (eq.trans (if_neg (by simpa using free)))).trans ?_
      rw [authTaken_closeViews, fetched_sec]
  case unlock =>
    intro h args s i a c acc
    have run := exec_debugUnlock h args s
    have is : unlockCheck args (fetched i s) = c := by rw [unlockCheck, fetched_sec]
    refine ⟨fun d bad => run_refused rfl acc run (debugUnlock_of_bad (is.trans bad)), fun good => ?_⟩
    have eq := debugUnlock_of_good (is.trans good)
    rw [fetched_time] at eq
    refine (run_ok rfl acc run eq).trans ?_
    rw [authTaken_modSec, fetched_sec]
  case expire =>
    intro s
    exact ⟨fun closed => next_congr (viewsExpire_of_closed closed), fun t open_ early => next_congr ((viewsExpire_of_open open_).trans (if_neg (Nat.not_le.mpr early))),
      fun t open_ late => next_congr ((viewsExpire_of_open open_).trans (if_pos late))⟩

end Sys2Proof.Proofs
end

section
/-! SUPPORT. What telling the host leaves of the Hearth's registers: events, interrupts, captures, fault reports and changes of status
touch the event ring, the cause bits and the pending messages alone. -/

namespace Sys2Proof.Machine

/-- The Hearth of the second state is that of the first but for what telling the host about something changes. -/
def Announces (s t : State) : Prop :=
  t.hearth = { s.hearth with ev := t.hearth.ev, intStatus := t.hearth.intStatus, pba := t.hearth.pba }

namespace Announces

theorem refl (s : State) : Announces s s := rfl

/-- A state with the same Hearth. -/
theorem same {s t : State} (h : t.hearth = s.hearth) : Announces s t := by
  unfold Announces
  rw [h]

theorem trans {s t u : State} (h : Announces s t) (k : Announces t u) : Announces s u := by
  unfold Announces at h k ⊢
  exact k.trans (by rw [h])

theorem ite {s t u : State} {c : Prop} [Decidable c] (h : Announces s t) (k : Announces s u) : Announces s (if c then t else u) := by
  split
  · exact h
  · exact k

end Announces

section
variable {s t : State} (h : Announces s t)
include h

theorem Announces.fwVersion : t.hearth.fwVersion = s.hearth.fwVersion := by rw [h]
theorem Announces.ifActive : t.hearth.ifActive = s.hearth.ifActive := by rw [h]
theorem Announces.ifValid : t.hearth.ifValid = s.hearth.ifValid := by rw [h]
theorem Announces.selftest : t.hearth.selftest = s.hearth.selftest := by rw [h]
theorem Announces.resetCause : t.hearth.resetCause = s.hearth.resetCause := by rw [h]
theorem Announces.rings : t.hearth.rings = s.hearth.rings := by rw [h]
theorem Announces.hostMem : t.hearth.hostMem = s.hearth.hostMem := by rw [h]
theorem Announces.localMem : t.hearth.localMem = s.hearth.localMem := by rw [h]
theorem Announces.detached : t.hearth.detached = s.hearth.detached := by rw [h]
theorem Announces.owed : t.hearth.owed = s.hearth.owed := by rw [h]
theorem Announces.pendingReset : t.hearth.pendingReset = s.hearth.pendingReset := by rw [h]
theorem Announces.ready : t.hearth.ready = s.hearth.ready := by rw [h]
theorem Announces.inReset : t.hearth.inReset = s.hearth.inReset := by rw [h]
theorem Announces.resetWhy : t.hearth.resetWhy = s.hearth.resetWhy := by rw [h]
theorem Announces.switching : t.hearth.switching = s.hearth.switching := by rw [h]
theorem Announces.bootSlot : t.hearth.bootSlot = s.hearth.bootSlot := by rw [h]
theorem Announces.committed : t.hearth.committed = s.hearth.committed := by rw [h]
theorem Announces.commitPending : t.hearth.commitPending = s.hearth.commitPending := by rw [h]
theorem Announces.slots : t.hearth.slots = s.hearth.slots := by rw [h]
theorem Announces.msix : t.hearth.msix = s.hearth.msix := by rw [h]
theorem Announces.intMask : t.hearth.intMask = s.hearth.intMask := by rw [h]

/-- A change of the Hearth that is made in the state before and in the state after. -/
theorem Announces.modSwitching (x : Bool) :
    Announces (s.modHearth fun h => { h with switching := x }) (t.modHearth fun h => { h with switching := x }) := by
  unfold Announces at h ⊢
  show { t.hearth with switching := x } = _
  rw [h]
  rfl

end

theorem sendMsix_announces (vec : Nat) (s : State) : Announces s (sendMsix vec s) := .ite rfl rfl

theorem raiseInt_announces (b vec : Nat) (s : State) : Announces s (raiseInt b vec s) := by
  have set : Announces s (s.modHearth fun h => { h with intStatus := h.intStatus ||| (1#7 <<< b) }) := rfl
  exact .ite (.refl s) (.ite set (set.trans (sendMsix_announces ..)))

theorem noteStatus_announces (old new : State) : Announces new (noteStatus old new) := .ite (.refl new) (raiseInt_announces 5 0 new)

theorem post_announces (type : Nat) (body : List Word) (slot : Option (List Byte)) (s : State) : Announces s (post type body slot s) :=
  .ite rfl rfl

theorem captureAt_announces (source detail stamp : Nat) (s : State) : Announces s (captureAt source detail stamp s) :=
  .ite (.ite rfl rfl) (.refl s)

theorem capture_announces (source detail : Nat) (s : State) : Announces s (capture source detail s) :=
  Announces.trans (.same rfl) (captureAt_announces source detail (s.time.now + freeBelow s 5121) s.tookFree)

theorem modSec_announces (f : Sec → Sec) (s : State) : Announces s (s.modSec f) := .same rfl

theorem sendFault_announces (r : FaultRep) (count : Nat) (s : State) : Announces s (sendFault r count s) := by
  unfold sendFault
  exact (modSec_announces _ s).trans ((post_announces ..).trans (capture_announces ..))

theorem report_announces (r : FaultRep) (s : State) : Announces s (report r s) := by
  unfold report
  split
  next f _ =>
    refine .ite (modSec_announces _ s) (.trans ?_ ((modSec_announces _ _).trans (sendFault_announces r 1 _)))
    exact .ite (.refl s) (sendFault_announces ..)
  next => exact (modSec_announces _ s).trans (sendFault_announces r 1 _)

theorem hearthStart_announces (cause : Nat) (s : State) : Announces s (hearthStart cause s) := post_announces ..

/-- Raising a cause, and a change of status, leave everything but the Hearth and the outputs as it was. -/
theorem noteStatus_only (old new : State) : HearthOnly new (noteStatus old new) := by
  unfold noteStatus
  split
  · exact .refl new
  · exact (raiseInt_raised 5 0 new).only

end Sys2Proof.Machine
end

section
/-! SUPPORT. Firmware (R367 to R370, R388 to R390, R421): loading, activating and committing an image, the boot of a slot, and an image
installed in recovery. -/

namespace Sys2Proof.Machine

/-! ### FW_LOAD and its end (R367) -/

@[simp] theorem fetched_loading (i : Instr) (s : State) : loading (fetched i s) = loading s := by simp only [loading, fetched_hearth_detached]

section
variable {c : CmdRef} {args : List Word} {s : State}

theorem fwLoad_of_long (h : 4194304 < argN args 3) : fwLoad c args s = cmdRefuse St.badArgument 3 s := if_pos h

theorem fwLoad_of_loading (short : argN args 3 ≤ 4194304) (h : loading s = true) : fwLoad c args s = cmdRefuse St.busy 0 s :=
  (if_neg (Nat.not_lt.mpr short)).trans (if_pos h)

theorem fwLoad_detaches (short : argN args 3 ≤ 4194304) (h : loading s = false) :
    fwLoad c args s = (addDetached c (.fwLoad (arg64 args 1) (argN args 3)) s, none) :=
  (if_neg (Nat.not_lt.mpr short)).trans (if_neg (by rw [h]; decide))

end

/-- The copy that a detached command makes. -/
def copyOf (d : Detached) : Option (CmdRef × Nat × Nat) := match d.work with
  | .fwLoad a n => some (d.cmd, a, n)
  | _ => none

theorem copyOf_of_work {d : Detached} {a n : Nat} (h : d.work = .fwLoad a n) : copyOf d = some (d.cmd, a, n) := by simp only [copyOf, h]

theorem copyOf_of_other {d : Detached} (h : ∀ a n, d.work ≠ .fwLoad a n) : copyOf d = none := by
  unfold copyOf
  split
  next a n is => exact absurd is (h a n)
  next => rfl

theorem fwLoadDone_eq (s : State) : fwLoadDone s =
    (s.hearth.detached.findSome? copyOf).elim s fun x => loadEnds x.1 (hostRead s x.2.1 x.2.2) s := by
  unfold fwLoadDone
  change (match s.hearth.detached.findSome? copyOf with | some (c, a, n) => _ | none => _) = _
  cases s.hearth.detached.findSome? copyOf <;> rfl

theorem fwLoadDone_of_none {s : State} (h : loading s = false) : fwLoadDone s = s := by
  have none : s.hearth.detached.findSome? copyOf = none := by
    rw [List.findSome?_eq_none_iff]
    intro d hd
    refine copyOf_of_other fun a n is => ?_
    have := List.any_eq_false.mp h d hd
    simp [is] at this
  rw [fwLoadDone_eq, none, Option.elim_none]

theorem fwLoadDone_of_first {s : State} {pre post : List Detached} {d : Detached} {a n : Nat}
    (queue : s.hearth.detached = pre ++ d :: post) (others : ∀ e ∈ pre, ∀ b m, e.work ≠ .fwLoad b m) (work : d.work = .fwLoad a n) :
    fwLoadDone s = loadEnds d.cmd (hostRead s a n) s := by
  have none : pre.findSome? copyOf = none := by
    rw [List.findSome?_eq_none_iff]
    exact fun e he => copyOf_of_other (others e he)
  have first : s.hearth.detached.findSome? copyOf = some (d.cmd, a, n) := by
    rw [queue, List.findSome?_append, none, List.findSome?_cons, copyOf_of_work work]
    rfl
  rw [fwLoadDone_eq, first, Option.elim_some]

section
variable {c : CmdRef} {img : List Byte} {s : State}

theorem loadEnds_of_bad {d : Nat} (h : imageCheck s.sec img = some d) : loadEnds c img s = endWith c St.imageInvalid d s := by
  simp only [loadEnds, h]

variable (good : imageCheck s.sec img = none)
include good

theorem loadEnds_of_old (h : (fwSlotOf img).secVer < s.sec.fusedVer) :
    loadEnds c img s = endWith c St.rollbackRefused s.sec.fusedVer s := by
  simp only [loadEnds, good, h, if_true]

variable (new : s.sec.fusedVer ≤ (fwSlotOf img).secVer)
include new

theorem loadEnds_of_lacks {v : Nat} (h : lacksVer s (fwSlotOf img) = some v) : loadEnds c img s = endWith c St.versionMismatch v s := by
  simp only [loadEnds, good, Nat.not_lt.mpr new, if_false, h]

theorem loadEnds_of_good (h : lacksVer s (fwSlotOf img) = none) :
    loadEnds c img s = endWith c St.ok 0 (setSlot (1 - s.hearth.bootSlot) (fwSlotOf img) s) := by
  simp only [loadEnds, good, Nat.not_lt.mpr new, if_false, h]

end

/-! ### FW_ACTIVATE (R368, R369) -/

theorem fwSlot_of_slots {s t : State} (h : t.hearth.slots = s.hearth.slots) (i : Nat) : fwSlot t i = fwSlot s i := by
  rw [fwSlot, h, fwSlot]

/-- The state between the stop and the resumption of the rings. -/
def stopped (s : State) : State := setSwitching true (closeViews s)

theorem setSwitching_hearth (x : Bool) (s : State) :
    Announces (s.modHearth fun h => { h with switching := x }) (setSwitching x s) := noteStatus_announces ..

theorem stopped_hearth (s : State) : Announces (s.modHearth fun h => { h with switching := true }) (stopped s) :=
  setSwitching_hearth true (closeViews s)

theorem stopped_sec (s : State) : (stopped s).sec = { s.sec with debugUntil := none } := by
  rw [stopped, setSwitching, noteStatus_only]
  rfl

theorem stopped_slots (s : State) : (stopped s).hearth.slots = s.hearth.slots := by rw [stopped_hearth]; rfl

/-- Whether an image passes at boot does not depend on the views. -/
theorem slotPasses_stopped (s : State) (j : Nat) : slotPasses (stopped s) j = slotPasses s j := by
  rw [slotPasses, fwSlot_of_slots (stopped_slots s), stopped_sec]
  rfl

/-- The state in which the new firmware has taken over, before it says so. -/
def takenOver (j : Nat) (s : State) : State :=
  setSwitching false (noteStatus s ((startSlot j s).modHearth fun h => { h with commitPending := true }))

/-- The state in which the old firmware goes on. -/
def reverted (s : State) : State := report (faultAt 0x0E01 1 3 0 0) (hearthStart 4 (setSwitching false s))

theorem takenOver_hearth (j : Nat) (s : State) :
    Announces (s.modHearth fun h => { h with fwVersion := (fwSlot s j).version, ifMin := (fwSlot s j).ifMin, ifMax := (fwSlot s j).ifMax
                                             bootSlot := j, ready := true, commitPending := true, switching := false }) (takenOver j s) := by
  have started := (noteStatus_announces s ((startSlot j s).modHearth fun h => { h with commitPending := true })).modSwitching false
  exact (Announces.same (by simp only [State.modHearth, startSlot])).trans (started.trans (setSwitching_hearth false _))

theorem reverted_hearth (s : State) : Announces (s.modHearth fun h => { h with switching := false }) (reverted s) :=
  (setSwitching_hearth false s).trans ((hearthStart_announces 4 _).trans (report_announces ..))

theorem stopped_committed (s : State) : (stopped s).hearth.committed = s.hearth.committed := (stopped_hearth s).committed

/-- What the Hearth's registers hold where the firmware of a slot has taken over. -/
theorem registers_of_taken {j : Nat} {s t : State} (h : Announces (s.modHearth fun h => { h with
      fwVersion := (fwSlot s j).version, ifMin := (fwSlot s j).ifMin, ifMax := (fwSlot s j).ifMax, bootSlot := j, ready := true
      commitPending := true, switching := false }) t) :
    t.hearth.bootSlot = j ∧ t.hearth.fwVersion = (fwSlot s j).version ∧ t.hearth.commitPending = true ∧
      t.hearth.committed = s.hearth.committed ∧ t.hearth.switching = false :=
  ⟨h.bootSlot, h.fwVersion, h.commitPending, h.committed, h.switching⟩

/-- The same after it has said that it runs. -/
theorem started_hearth (j : Nat) (s : State) :
    (hearthStart 3 (takenOver j (stopped s))).hearth.bootSlot = j ∧
      (hearthStart 3 (takenOver j (stopped s))).hearth.fwVersion = (fwSlot s j).version ∧
      (hearthStart 3 (takenOver j (stopped s))).hearth.commitPending = true ∧
      (hearthStart 3 (takenOver j (stopped s))).hearth.committed = s.hearth.committed ∧
      (hearthStart 3 (takenOver j (stopped s))).hearth.switching = false := by
  have registers := registers_of_taken ((takenOver_hearth j (stopped s)).trans (hearthStart_announces 3 _))
  rwa [stopped_committed, fwSlot_of_slots (stopped_slots s)] at registers

/-- A change of one register of the Hearth that telling the host keeps leaves the others. -/
theorem registers_of_switching {x : Bool} {s t : State} (h : Announces (s.modHearth fun h => { h with switching := x }) t) :
    t.hearth.bootSlot = s.hearth.bootSlot ∧ t.hearth.fwVersion = s.hearth.fwVersion ∧ t.hearth.commitPending = s.hearth.commitPending :=
  ⟨h.bootSlot, h.fwVersion, h.commitPending⟩

theorem reverted_kept (s : State) : (reverted (stopped s)).hearth.bootSlot = s.hearth.bootSlot ∧
    (reverted (stopped s)).hearth.fwVersion = s.hearth.fwVersion ∧
    (reverted (stopped s)).hearth.commitPending = s.hearth.commitPending := by
  obtain ⟨slot, version, pending⟩ := registers_of_switching (reverted_hearth (stopped s))
  obtain ⟨slot', version', pending'⟩ := registers_of_switching (stopped_hearth s)
  exact ⟨slot.trans slot', version.trans version', pending.trans pending'⟩

section
variable {starts : Bool} {s : State}

theorem fwActivate_of_detached (h : ∃ d ∈ s.hearth.detached, holdsRing d.cmd.opcode = false) :
    fwActivate starts s = cmdRefuse St.busy 0 s := by
  refine if_pos ?_
  simpa using h

variable (idle : ∀ d ∈ s.hearth.detached, holdsRing d.cmd.opcode = true)
include idle

theorem fwActivate_of_noImage (h : (fwSlot s (1 - s.hearth.bootSlot)).state ≠ 1) : fwActivate starts s = cmdRefuse St.imageInvalid 0 s :=
  (if_neg (by simpa using idle)).trans (if_pos h)

variable (verified : (fwSlot s (1 - s.hearth.bootSlot)).state = 1)
include verified

theorem fwActivate_of_verified : fwActivate starts s =
    if (starts && slotPasses s (1 - s.hearth.bootSlot)) = true then
      cmdOkWith [(takenOver (1 - s.hearth.bootSlot) (stopped s)).hearth.fwVersion]
        (hearthStart 3 (takenOver (1 - s.hearth.bootSlot) (stopped s)))
    else (reverted (stopped s), some { status := St.fwReverted, detail := 0, result := [] }) := by
  rw [← slotPasses_stopped, fwActivate, if_neg (by simpa using idle), if_neg (not_not.mpr verified)]
  dsimp only
  rw [stopped, takenOver, reverted]

theorem fwActivate_starts (pass : slotPasses s (1 - s.hearth.bootSlot) = true) (begins : starts = true) : fwActivate starts s =
    cmdOkWith [(fwSlot s (1 - s.hearth.bootSlot)).version] (hearthStart 3 (takenOver (1 - s.hearth.bootSlot) (stopped s))) := by
  have version : (takenOver (1 - s.hearth.bootSlot) (stopped s)).hearth.fwVersion = (fwSlot s (1 - s.hearth.bootSlot)).version := by
    obtain ⟨-, took, -⟩ := registers_of_taken (takenOver_hearth (1 - s.hearth.bootSlot) (stopped s))
    rw [took, fwSlot_of_slots (stopped_slots s)]
  rw [fwActivate_of_verified idle verified, pass, begins, Bool.and_self, if_pos rfl, version]

theorem fwActivate_reverts (bad : slotPasses s (1 - s.hearth.bootSlot) = false ∨ starts = false) :
    fwActivate starts s = (reverted (stopped s), some { status := St.fwReverted, detail := 0, result := [] }) := by
  have stays : (starts && slotPasses s (1 - s.hearth.bootSlot)) = false := by
    rcases bad with fails | halts
    · rw [fails, Bool.and_false]
    · rw [halts, Bool.false_and]
  rw [fwActivate_of_verified idle verified, stays, if_neg Bool.false_ne_true]

end

/-! ### FW_COMMIT (R370, R389) -/

section
variable {s : State}

theorem fwCommit_of_none (h : s.hearth.commitPending = false) : fwCommit s = cmdRefuse St.badArgument 0 s := if_pos (congrArg (! ·) h)

/-- The state in which the running image is the committed one. -/
def committedState (s : State) : State :=
  noteStatus s ((s.modHearth fun h => { h with committed := h.bootSlot, commitPending := false }).modSec fun c =>
    { c with fuseA := blown (sat 64 (fwSlot s s.hearth.bootSlot).secVer) c.fuseA
             fuseB := blown (sat 64 (fwSlot s s.hearth.bootSlot).secVer) c.fuseB })

theorem fwCommit_commits (h : s.hearth.commitPending = true) : fwCommit s = cmdOk (committedState s) := if_neg (by rw [h]; decide)

theorem committedState_hearth (s : State) :
    Announces (s.modHearth fun h => { h with committed := h.bootSlot, commitPending := false }) (committedState s) :=
  noteStatus_announces ..

theorem committedState_sec (s : State) : (committedState s).sec =
    { s.sec with fuseA := blown (sat 64 (fwSlot s s.hearth.bootSlot).secVer) s.sec.fuseA
                 fuseB := blown (sat 64 (fwSlot s s.hearth.bootSlot).secVer) s.sec.fuseB } := by
  rw [committedState, noteStatus_only]
  rfl

/-- A fuse after an advance to a security version (R389). -/
theorem blown_getLsbD {k : Nat} (hk : k < 64) (v : Nat) (x : BitVec 64) :
    (blown (sat 64 v) x).getLsbD k = (x.getLsbD k || decide (k < v)) := by
  have below : decide (k < sat 64 v) = decide (k < v) := by
    rw [sat_eq_min]
    have least : k < min 64 v ↔ k < v := by omega
    exact decide_eq_decide.mpr least
  rw [blown, BitVec.getLsbD_or, BitVec.getLsbD_ofNat, Nat.testBit_two_pow_sub_one, below, decide_eq_true hk, Bool.true_and]

theorem committedState_fusedVer (s : State) : s.sec.fusedVer ≤ (committedState s).sec.fusedVer := by
  rw [committedState_sec]
  refine fusedVer_mono (fun i set => ?_) fun i set => ?_
  · simp [blown, set]
  · simp [blown, set]

end

/-! ### The boot (R370, R389, R390) -/

section
variable {s : State}

theorem boot_of_lost (h : idsLost s = true) : boot s = bootFails 10 s := if_pos h

variable (known : idsLost s = false)
include known

theorem boot_of_committed (h : slotPasses s s.hearth.committed = true) : boot s =
    (startSlot s.hearth.committed (markSlot s.hearth.committed true s)).modHearth fun h => { h with commitPending := false } :=
  (if_neg (by rw [known]; decide)).trans (if_pos h)

variable (fails : slotPasses s s.hearth.committed = false)
include fails

theorem boot_of_other (h : slotPasses s (1 - s.hearth.committed) = true) : boot s = report (faultAt 0x0E01 1 3 0 0)
    ((startSlot (1 - s.hearth.committed) (markSlot (1 - s.hearth.committed) true (markSlot s.hearth.committed false s))).modHearth
      fun h => { h with commitPending := true }) :=
  (if_neg (by rw [known]; decide)).trans ((if_neg (by rw [fails]; decide)).trans (if_pos h))

theorem boot_of_neither (h : slotPasses s (1 - s.hearth.committed) = false) : boot s =
    (bootFails 9 (markSlot (1 - s.hearth.committed) false (markSlot s.hearth.committed false s))).modPower fun p => { p with recovery := true } :=
  (if_neg (by rw [known]; decide)).trans ((if_neg (by rw [fails]; decide)).trans (if_neg (by rw [h]; decide)))

end

/-! ### Recovery (R421) -/

section
variable {v : Word} {s : State}

theorem rcvStart_starts (recovery : s.power.recovery = true) (other : s.power.rcvState ≠ 1) (start : bitAt v 0 = true) :
    rcvStart v s = s.modPower fun p => { p with rcvState := 1, rcvDetail := 0, rcvUse := p.rcvLen } :=
  if_pos (by simp [recovery, other, start])

theorem rcvStart_ignored (h : s.power.recovery = false ∨ s.power.rcvState = 1 ∨ bitAt v 0 = false) : rcvStart v s = s := by
  refine if_neg ?_
  rcases h with not_ | verifying | clear
  · simp [not_]
  · simp [verifying]
  · simp [clear]

theorem rcvDone_ignored (h : s.power.recovery = false ∨ s.power.rcvState ≠ 1) : rcvDone s = s := by
  refine if_neg ?_
  rcases h with not_ | other
  · simp [not_]
  · simp [other]

/-- An image is refused in recovery. -/
def rcvRefused (d : Nat) (s : State) : State := s.modPower fun p => { p with rcvState := 3, rcvDetail := d }

/-- An image is installed into both slots. -/
def rcvInstalled (img : List Byte) (s : State) : State :=
  noteStatus s (((setSlot 1 (fwSlotOf img) (setSlot 0 (fwSlotOf img) s)).modHearth fun h =>
    { h with committed := 0, commitPending := false }).modPower fun p => { p with rcvState := 2 })

theorem rcvInstalled_hearth (img : List Byte) (s : State) :
    Announces ((setSlot 1 (fwSlotOf img) (setSlot 0 (fwSlotOf img) s)).modHearth fun h =>
      { h with committed := 0, commitPending := false }) (rcvInstalled img s) := noteStatus_announces ..

theorem rcvInstalled_power (img : List Byte) (s : State) : (rcvInstalled img s).power = { s.power with rcvState := 2 } := by
  rw [rcvInstalled, noteStatus_only]
  rfl

theorem fwSlot_setSlot (i j : Nat) (x : FwSlot) (s : State) : fwSlot (setSlot i x s) j = if i = j then x else fwSlot s j :=
  tget_tset_any s.hearth.slots {} i j x

theorem rcvInstalled_slots (img : List Byte) (s : State) {i : Nat} (h : i < 2) : fwSlot (rcvInstalled img s) i = fwSlotOf img := by
  have kept : fwSlot (rcvInstalled img s) i = fwSlot (setSlot 1 (fwSlotOf img) (setSlot 0 (fwSlotOf img) s)) i :=
    fwSlot_of_slots (by rw [rcvInstalled_hearth]; rfl) i
  rw [kept, fwSlot_setSlot, fwSlot_setSlot]
  by_cases one : 1 = i
  · rw [if_pos one]
  · rw [if_neg one, if_pos (by omega)]

variable (recovery : s.power.recovery = true) (verifying : s.power.rcvState = 1)
include recovery verifying

/-- The check of an image in recovery. -/
def rcvCheck (s : State) : Option Nat :=
  if s.power.rcvUse < 516 ∨ 4194304 < s.power.rcvUse then some 1 else bootCheck s.sec (memRead s.power.rcvBuf 0 s.power.rcvUse)

theorem rcvDone_of_bad {d : Nat} (h : rcvCheck s = some d) : rcvDone s = rcvRefused d s := by
  rw [rcvDone, if_pos (by simp [recovery, verifying])]
  dsimp only
  rw [rcvCheck] at h
  rw [h, rcvRefused]

theorem rcvDone_of_good (h : rcvCheck s = none) : rcvDone s = rcvInstalled (memRead s.power.rcvBuf 0 s.power.rcvUse) s := by
  rw [rcvDone, if_pos (by simp [recovery, verifying])]
  dsimp only
  rw [rcvCheck] at h
  rw [h, rcvInstalled]

end

end Sys2Proof.Machine

namespace Sys2Proof.Proofs

open Sys2Proof.Machine

/-- Settles O49: each command and row by its checks, and what the states they lead to hold by what telling the host leaves. -/
theorem firmware : Obligations.Firmware := by
  unfold Obligations.Firmware
  refine ⟨?load, ?done, fun s idle => next_congr (fwLoadDone_of_none idle), ?activate, ?commit, ?boot, ?start, ?verify,
    fun s other => next_congr (rcvDone_ignored other)⟩
  case load =>
    intro h args s i acc
    have run := exec_fwLoad h args s
    rw [← fetched_loading i]
    exact ⟨fun long => run_refused rfl acc run (fwLoad_of_long long), fun short busy => run_refused rfl acc run (fwLoad_of_loading short busy),
      fun short idle => run_detached rfl acc run (fwLoad_detaches short idle)⟩
  case done =>
    intro s pre d post a n queue others work img x j
    have eq := fwLoadDone_of_first queue others work
    exact ⟨fun w bad => next_congr (eq.trans (loadEnds_of_bad bad)), fun good old => next_congr (eq.trans (loadEnds_of_old good old)),
      fun good new has => ⟨rfl, next_congr (eq.trans (loadEnds_of_good good new has))⟩,
      fun v good new lacks => next_congr (eq.trans (loadEnds_of_lacks good new lacks))⟩
  case activate =>
    intro h args starts s i j acc
    have run := exec_fwActivate h args starts s
    have slot : j = 1 - (fetched i s).hearth.bootSlot := by rw [fetched_hearth_bootSlot]
    have passes : slotPasses s j = slotPasses (fetched i s) j := by rw [slotPasses, ← fetched_fwSlot i, ← fetched_sec i, slotPasses]
    rw [passes, ← fetched_fwSlot i, ← fetched_hearth_detached i, ← fetched_hearth_committed i, ← fetched_hearth_bootSlot i,
      ← fetched_hearth_fwVersion i, ← fetched_hearth_commitPending i, slot]
    exact ⟨fun busy => run_refused rfl acc run (fwActivate_of_detached busy), fun idle =>
      ⟨fun none => run_refused rfl acc run (fwActivate_of_noImage idle none), fun verified pass begins =>
        ⟨_, run_ok rfl acc run (fwActivate_starts idle verified pass begins), started_hearth _ _⟩, fun verified bad =>
        ⟨_, run_replied rfl acc run (fwActivate_reverts idle verified bad), reverted_kept _⟩⟩⟩
  case commit =>
    intro h args s i acc
    have run := exec_fwCommit h args s
    rw [← fetched_hearth_commitPending i]
    refine ⟨fun none => run_refused rfl acc run (fwCommit_of_none none), fun pending =>
      ⟨committedState (fetched i s), run_ok rfl acc run (fwCommit_commits pending), ?_, ?_, ?_, fun k hk => ?_⟩⟩
    · rw [committedState_hearth]
      exact fetched_hearth_bootSlot i s
    · rw [committedState_hearth]; rfl
    · rw [← fetched_sec i s]
      exact committedState_fusedVer _
    · rw [committedState_sec]
      simp only [fetched_sec, fetched_fwSlot, fetched_hearth_bootSlot, blown_getLsbD hk, and_self]
  case boot =>
    intro s i
    refine ⟨boot_of_lost, boot_of_committed, boot_of_other, fun known fails both => ?_⟩
    rw [boot_of_neither known fails both]
    exact ⟨rfl, rfl, rfl⟩
  case start =>
    intro v s
    exact ⟨fun recovery other start => next_congr (rcvStart_starts recovery other start), fun other => next_congr (rcvStart_ignored other)⟩
  case verify =>
    intro s recovery verifying n img
    refine ⟨fun d low high bad => next_congr (rcvDone_of_bad recovery verifying ((if_neg (by omega)).trans bad)),
      fun bad => next_congr (rcvDone_of_bad recovery verifying (if_pos bad)), fun low high good =>
        ⟨rcvInstalled img s, next_congr (rcvDone_of_good recovery verifying ((if_neg (by omega)).trans good)), rcvInstalled_slots img s (by decide),
          rcvInstalled_slots img s (by decide), ?_, ?_, rcvInstalled_power img s⟩⟩
    · rw [rcvInstalled_hearth]; rfl
    · rw [rcvInstalled_hearth]; rfl

end Sys2Proof.Proofs
end

section
/-! SUPPORT. The event ring's writing, the resets of the interface and of the Hearth, and the device settings (R311, R337, R362, R365,
R366, R371, R372, R378). -/

namespace Sys2Proof.Machine

/-! ### A change of status -/

/-- Raising a cause changes the cause bits and the pending messages alone. -/
def Signals (s t : State) : Prop := t.hearth = { s.hearth with intStatus := t.hearth.intStatus, pba := t.hearth.pba }

theorem Signals.ite {s t u : State} {c : Prop} [Decidable c] (h : Signals s t) (k : Signals s u) : Signals s (if c then t else u) := by
  split
  · exact h
  · exact k

theorem Signals.trans {s t u : State} (h : Signals s t) (k : Signals t u) : Signals s u := by
  unfold Signals at h k ⊢
  exact k.trans (by rw [h])

theorem sendMsix_signals (vec : Nat) (s : State) : Signals s (sendMsix vec s) := .ite rfl rfl

theorem raiseInt_signals (b vec : Nat) (s : State) : Signals s (raiseInt b vec s) := by
  have set : Signals s (s.modHearth fun h => { h with intStatus := h.intStatus ||| (1#7 <<< b) }) := rfl
  exact .ite rfl (.ite set (set.trans (sendMsix_signals ..)))

theorem noteStatus_signals (old new : State) : Signals new (noteStatus old new) := .ite rfl (raiseInt_signals 5 0 new)

section
variable {s t : State} (h : Signals s t)
include h

theorem Signals.ev : t.hearth.ev = s.hearth.ev := by rw [h]
theorem Signals.inReset : t.hearth.inReset = s.hearth.inReset := by rw [h]
theorem Signals.ready : t.hearth.ready = s.hearth.ready := by rw [h]
theorem Signals.localMem : t.hearth.localMem = s.hearth.localMem := by rw [h]
theorem Signals.detached : t.hearth.detached = s.hearth.detached := by rw [h]

end

section
variable {s t : State} (h : HearthOnly s t)
include h

theorem HearthOnly.routing : t.routing = s.routing := by rw [h]
theorem HearthOnly.core : t.core = s.core := by rw [h]
theorem HearthOnly.coll : t.coll = s.coll := by rw [h]
theorem HearthOnly.thresh : t.thresh = s.thresh := by rw [h]
theorem HearthOnly.mem : t.mem = s.mem := by rw [h]
theorem HearthOnly.time : t.time = s.time := by rw [h]
theorem HearthOnly.sec : t.sec = s.sec := by rw [h]
theorem HearthOnly.power : t.power = s.power := by rw [h]

end

/-! ### EVENT_WRITE (R311, R362) -/

section
variable {s : State}

theorem eventWrite_of_idle (h : evServed s = false) : eventWrite s = s := if_neg (by rw [h]; decide)

theorem putOldest_of_none (h : s.hearth.ev.queue = []) : putOldest s = s := by simp only [putOldest, h]

theorem putOldest_of_first {x : Event} {r : List Event} (h : s.hearth.ev.queue = x :: r) :
    putOldest s = putQueued x (modEv (fun e => { e with queue := r }) s) := by simp only [putOldest, h]

theorem putCapture_of_record {i : Nat} {c : CaptureRec} (h : s.time.store[i]? = some c) :
    putCapture i s = putEvent (captureEvent c) (s.modTime fun t => { t with store := t.store.eraseIdx i }) := by
  simp only [putCapture, h]

variable (served : evServed s = true)
include served

theorem eventWrite_of_noCapture (h : nextCapture s.time.store = none) : eventWrite s = putOldest s := by
  simp only [eventWrite, served, h, if_true]

theorem eventWrite_of_capture {i : Nat} (h : nextCapture s.time.store = some i) (none : s.hearth.ev.queue = []) :
    eventWrite s = putCapture i s := by
  simp only [eventWrite, served, h, none, if_true]

theorem eventWrite_of_both {i : Nat} {x : Event} {r : List Event} (h : nextCapture s.time.store = some i)
    (queue : s.hearth.ev.queue = x :: r) : eventWrite s = putCapture i s.tookFree ∨ eventWrite s = putOldest s.tookFree := by
  have either : eventWrite s = if freeBelow s 2 = 0 then putCapture i s.tookFree else putOldest s.tookFree := by
    simp only [eventWrite, served, h, queue, if_true]
  rw [either]
  split
  · exact .inl rfl
  · exact .inr rfl

end

/-! ### Lost events, and a PCIe reset (R337, R365) -/

/-- What the loss of the waiting events keeps, and that none waits after it. -/
theorem dropEvents_hearth (counted : Bool) (s : State) :
    (dropEvents counted s).hearth = { s.hearth with ev := (dropEvents counted s).hearth.ev } ∧ (dropEvents counted s).hearth.ev.queue = [] ∧
      dropEvents counted s = { s with hearth := (dropEvents counted s).hearth, count := (dropEvents counted s).count } := by
  unfold dropEvents
  by_cases none : s.hearth.ev.queue.length = 0
  · simp only [none, if_true]
    cases counted
    · exact ⟨rfl, List.eq_nil_of_length_eq_zero none, rfl⟩
    · exact ⟨rfl, List.eq_nil_of_length_eq_zero none, rfl⟩
  · simp only [none, if_false]
    cases counted
    · exact ⟨rfl, rfl, rfl⟩
    · exact ⟨rfl, rfl, rfl⟩

/-- The rings that are not LOCAL are disabled. -/
def ringsOff (off : Nat → Bool) (s : State) : State :=
  (List.range 4).foldl (fun t r => if off r then modRing r (fun g => { g with en := false }) t else t) s

/-- A ring after some of a list of rings are disabled. -/
theorem theRing_disabled (off : Nat → Bool) (l : List Nat) (s : State) (q : Nat) :
    theRing (l.foldl (fun t r => if off r then modRing r (fun g => { g with en := false }) t else t) s) q =
      if q ∈ l ∧ off q = true then { theRing s q with en := false } else theRing s q := by
  induction l generalizing s with
  | nil => simp
  | cons r l ih =>
    rw [List.foldl_cons, ih]
    cases hr : off r
    · have same : (q ∈ r :: l ∧ off q = true) ↔ q ∈ l ∧ off q = true := by
        rw [List.mem_cons]
        constructor
        · rintro ⟨rfl | mem, on⟩
          · rw [hr] at on; cases on
          · exact ⟨mem, on⟩
        · exact fun ⟨mem, on⟩ => ⟨.inr mem, on⟩
      simp only [same, Bool.false_eq_true, if_false]
    · simp only [if_true, theRing_modRing]
      by_cases here : r = q
      · subst here
        simp [hr]
      · have other : q ≠ r := fun h => here h.symm
        simp [here, other]

/-- Disabling rings leaves all but the rings. -/
theorem ringsOff_hearth (off : Nat → Bool) (s : State) :
    ringsOff off s = { s with hearth := { s.hearth with rings := (ringsOff off s).hearth.rings } } := by
  have step (l : List Nat) : ∀ t, (l.foldl (fun t r => if off r then modRing r (fun g => { g with en := false }) t else t) t) =
      { t with hearth := { t.hearth with rings :=
        (l.foldl (fun t r => if off r then modRing r (fun g => { g with en := false }) t else t) t).hearth.rings } } := by
    induction l with
    | nil => exact fun t => rfl
    | cons r l ih =>
      intro t
      rw [List.foldl_cons]
      refine (ih _).trans ?_
      split
      · rfl
      · rfl
  exact step (List.range 4) s

/-- The events, the commands and the rings of the host are gone. -/
def hostGone (s : State) : State :=
  ringsOff (fun r => !(theRing s r).isLocal) (dropEvents true (muteRings (fun r => !(theRing s r).isLocal) s))

theorem pcieReset_eq (s : State) : pcieReset s = (modEv (fun e => { e with en := false }) (hostGone s)).modHearth fun h =>
    { h with ifActive := 0, ifValid := false, intStatus := 0, intMask := 0x7F, msix := [], pba := 0, latch := [0, 0, 0]
             latchUnset := false } := rfl

/-- What losing the host leaves: no event waits, its rings are off, a LOCAL ring and the device go on. -/
theorem hostGone_kept (s : State) : (hostGone s).hearth.ev.queue = [] ∧ (hostGone s).mem = s.mem ∧ (hostGone s).coll = s.coll ∧
    (hostGone s).routing = s.routing := by
  obtain ⟨-, none, only⟩ := dropEvents_hearth true (muteRings (fun r => !(theRing s r).isLocal) s)
  rw [hostGone, ringsOff_hearth]
  refine ⟨none, ?_, ?_, ?_⟩
  all_goals
    dsimp only
    rw [only]
    rfl

theorem hostGone_ring (s : State) {r : Nat} (hr : r < 4) :
    theRing (hostGone s) r = if (theRing s r).isLocal = false then { theRing s r with en := false } else theRing s r := by
  obtain ⟨kept, -⟩ := dropEvents_hearth true (muteRings (fun r => !(theRing s r).isLocal) s)
  have ring : theRing (dropEvents true (muteRings (fun r => !(theRing s r).isLocal) s)) r = theRing s r := by
    rw [theRing, kept]
    rfl
  rw [hostGone, ringsOff, theRing_disabled, ring]
  simp [hr]

/-! ### A Hearth reset (R333, R366) -/

/-- The Hearth has begun its reset: what waited in it is gone. -/
def hearthDown (cause : Nat) (s : State) : State :=
  ((((dropEvents false (closeViews s)).modTime fun x =>
    { x with store := [], lostSrc := (x.store.map (fun c => c.source) ++ x.lostSrc).dedup }).modSec fun c =>
    { c with volLog := [], folds := [] }).modHearth fun h =>
    { h with ready := false, inReset := true, resetWhy := if cause = 8 then 2 else 1, localMem := []
             owed := h.owed ++ (h.detached.filter fun d => !d.muted).map (fun d => d.cmd) ++ h.pendingReset.toList
             detached := (h.detached.filter fun d => !hearthOwn d).map fun d => { d with muted := true }, pendingReset := none })

theorem hearthReset_eq (cause : Nat) (s : State) :
    hearthReset cause s = noteStatus s (setResetCause 3 cause false false (hearthDown cause s)) := rfl

/-- What a Hearth reset leaves: of the Hearth what its beginning leaves, and everything in hardware. -/
theorem hearthDown_kept (cause : Nat) (s : State) :
    (hearthDown cause s).hearth.ev.queue = [] ∧ (hearthDown cause s).time.store = [] ∧ (hearthDown cause s).sec.folds = [] ∧
      (hearthDown cause s).sec.debugUntil = none ∧ (∀ d ∈ (hearthDown cause s).hearth.detached, d.muted = true) ∧
      (hearthDown cause s).mem = s.mem ∧ (hearthDown cause s).coll = s.coll ∧ (hearthDown cause s).routing = s.routing ∧
      (hearthDown cause s).core = s.core ∧ (hearthDown cause s).thresh = s.thresh := by
  obtain ⟨-, none, only⟩ := dropEvents_hearth false (closeViews s)
  unfold hearthDown
  generalize dropEvents false (closeViews s) = u at *
  refine ⟨none, rfl, rfl, ?_, ?_, ?_, ?_, ?_, ?_, ?_⟩
  · show u.sec.debugUntil = _
    rw [only]
    rfl
  · intro d hd
    obtain ⟨e, -, rfl⟩ := List.mem_map.mp hd
    rfl
  · show u.mem = _
    rw [only]
    rfl
  · show u.coll = _
    rw [only]
    rfl
  · show u.routing = _
    rw [only]
    rfl
  · show u.core = _
    rw [only]
    rfl
  · show u.thresh = _
    rw [only]
    rfl

theorem hearthReset_leaves (cause : Nat) (s : State) : let t := hearthReset cause s
    t.hearth.inReset = true ∧ t.hearth.ready = false ∧ t.hearth.ev.queue = [] ∧ t.time.store = [] ∧ t.sec.folds = [] ∧
      t.sec.debugUntil = none ∧ t.hearth.localMem = [] ∧ (∀ d ∈ t.hearth.detached, d.muted = true) ∧
      t.mem = s.mem ∧ t.coll = s.coll ∧ t.routing = s.routing ∧ t.core = s.core ∧ t.thresh = s.thresh := by
  obtain ⟨queue, store, folds, views, muted, mem, coll, routing, core, thresh⟩ := hearthDown_kept cause s
  have only := noteStatus_only s (setResetCause 3 cause false false (hearthDown cause s))
  have signals := noteStatus_signals s (setResetCause 3 cause false false (hearthDown cause s))
  intro t
  rw [show t = noteStatus s (setResetCause 3 cause false false (hearthDown cause s)) from hearthReset_eq cause s]
  rw [signals.inReset, signals.ready, signals.ev, only.time, only.sec, signals.localMem, signals.detached, only.mem, only.coll, only.routing,
    only.core, only.thresh]
  exact ⟨rfl, rfl, queue, store, folds, views, rfl, muted, mem, coll, routing, core, thresh⟩

/-! ### The watchdog and the return (R334, R366) -/

section
variable {core : Nat} {ue : Bool} {s : State}

theorem watchdog_of_down (h : s.hearth.ready = false ∨ s.hearth.inReset = true) : watchdog core ue s = s := by
  refine if_neg ?_
  rcases h with halted | reset
  · simp [halted]
  · simp [reset]

theorem watchdog_of_up (ready : s.hearth.ready = true) (runs : s.hearth.inReset = false) :
    watchdog core ue s = hearthReset 8 (watchdogReport core (if ue then sramHalts core s else s)) := if_pos (by simp [ready, runs])

theorem hearthReturn_of_up (h : s.hearth.inReset = false) : hearthReturn s = s := if_neg (by rw [h]; decide)

theorem hearthReturn_of_reset (h : s.hearth.inReset = true) {t : State} (ht : boot (s.modHearth fun h => { h with inReset := false }) = t) :
    hearthReturn s = noteStatus s (if t.hearth.ready = true then hearthStart s.hearth.resetWhy (answerOwed t) else t) := by
  simp only [hearthReturn, h, if_true, ht]
  split
  · rfl
  · rfl

end

/-! ### The end of a folding window (R378) -/

section
variable {loc : Nat × Nat × Nat × Nat} {s : State}

theorem foldEnd_of_none (h : (s.sec.folds.find? fun f => f.rep.loc == loc) = none) : foldEnd loc s = s := by simp only [foldEnd, h]

theorem foldEnd_of_fold {f : Fold} (h : (s.sec.folds.find? fun f => f.rep.loc == loc) = some f) : foldEnd loc s =
    if f.since + usU 100000 ≤ s.time.now then
      (if f.count = 0 then s.modSec fun c => { c with folds := c.folds.filter fun g => g.rep.loc != loc }
       else sendFault f.rep f.count (s.modSec fun c => { c with folds := c.folds.filter fun g => g.rep.loc != loc }))
    else s := by
  simp only [foldEnd, h]

end

/-! ### Settings (R371, R372) -/

section
variable {args : List Word} {s : State}

theorem endpointIdSet_of_badId (h : argN args 1 / 4096 ≠ 255) : endpointIdSet args s = cmdRefuse St.badArgument 1 s := if_pos h

variable (form : argN args 1 / 4096 = 255)
include form

theorem endpointIdSet_of_used (h : (∃ e ∈ s.coll, ctxUsed e.2 = true) ∨ ∃ e ∈ s.jobs.seeds, e.2.state = 2) :
    endpointIdSet args s = cmdRefuse St.busy 0 s := by
  refine (if_neg (not_not.mpr form)).trans (if_pos ?_)
  rw [Bool.or_eq_true, List.any_eq_true, List.any_eq_true]
  simpa only [beq_iff_eq] using h

theorem endpointIdSet_sets (contexts : ∀ e ∈ s.coll, ctxUsed e.2 = false) (seeds : ∀ e ∈ s.jobs.seeds, e.2.state ≠ 2) :
    endpointIdSet args s = cmdOkWith [w32 (s.hearth.endpointId.getD 0)] (s.modHearth fun h => { h with endpointId := some (argN args 1) }) := by
  refine (if_neg (not_not.mpr form)).trans (if_neg ?_)
  rw [Bool.or_eq_true, List.any_eq_true, List.any_eq_true]
  rintro (⟨e, mem, used⟩ | ⟨e, mem, sent⟩)
  · rw [contexts e mem] at used; cases used
  · exact seeds e mem (by simpa using sent)

end

end Sys2Proof.Machine

namespace Sys2Proof.Proofs

open Sys2Proof.Machine

/-- Settles O48: each row by the state it comes in, a reset by what its beginning leaves, the settings by their checks. -/
theorem hearthEventsAndResets : Obligations.HearthEventsAndResets := by
  unfold Obligations.HearthEventsAndResets
  refine ⟨fun s idle => next_congr (eventWrite_of_idle idle), fun s served none empty =>
    next_congr ((eventWrite_of_noCapture served none).trans (putOldest_of_none empty)), fun s x r served none queue =>
    next_congr ((eventWrite_of_noCapture served none).trans (putOldest_of_first queue)), fun s i c served first record empty =>
    next_congr ((eventWrite_of_capture served first empty).trans (putCapture_of_record record)), ?both, ?pcie, ?reset, ?watchdog, ?down,
    ?return_, ?fold, ?nop, ?config, ?id⟩
  case both =>
    intro s i c x r served first record queue
    exact (eventWrite_of_both served first queue).imp (fun eq => next_congr (eq.trans (putCapture_of_record record)))
      fun eq => next_congr (eq.trans (putOldest_of_first queue))
  case pcie =>
    intro k s
    obtain ⟨empty, mem, coll, routing⟩ := hostGone_kept s
    refine ⟨_, next_congr (pcieReset_eq s), rfl, rfl, rfl, rfl, rfl, rfl, empty, fun r hr far => ?_, fun r hr near => ?_, mem, coll, routing⟩
    · have ring := hostGone_ring s hr
      rw [if_pos far] at ring
      exact congrArg Ring.en ring
    · have ring := hostGone_ring s hr
      rw [if_neg (by rw [near]; decide)] at ring
      exact ring
  case reset =>
    intro h args s i acc
    exact run_detached rfl acc (exec_hearthReset h args s) rfl
  case watchdog =>
    intro core ue s
    refine ⟨fun ready runs => ⟨freeBelow _ 256, freeBelow _ 4, Nat.mod_lt _ (by decide), Nat.mod_lt _ (by decide),
      next_congr (watchdog_of_up ready runs)⟩, fun down => next_congr (watchdog_of_down down)⟩
  case down =>
    intro cause s
    exact hearthReset_leaves cause s
  case return_ =>
    intro s
    exact ⟨fun up => next_congr (hearthReturn_of_up up), fun down => next_congr (hearthReturn_of_reset down rfl)⟩
  case fold =>
    intro code half block item s loc
    refine ⟨fun none => next_congr (foldEnd_of_none none), fun f found => ?_⟩
    intro t
    have eq := foldEnd_of_fold found
    exact ⟨fun early => next_congr (eq.trans (if_neg (Nat.not_le.mpr early))), fun late => next_congr (eq.trans (if_pos late))⟩
  case nop =>
    intro h args s i acc
    exact run_ok rfl acc (exec_mbxNop h args s) rfl
  case config =>
    intro h args s i acc
    have run := exec_deviceConfig h args s
    exact ⟨fun low high => run_ok rfl acc run (deviceConfig_of_range _ low high), fun bad => run_refused rfl acc run (deviceConfig_of_outside _ bad)⟩
  case id =>
    intro h args s i acc
    have run := exec_endpointIdSet h args s
    rw [← fetched_coll i, ← fetched_jobs i, ← fetched_hearth_endpointId i]
    exact ⟨fun bad => run_refused rfl acc run (endpointIdSet_of_badId bad), fun form used => run_refused rfl acc run (endpointIdSet_of_used form used),
      fun form contexts seeds => run_ok rfl acc run (endpointIdSet_sets form contexts seeds)⟩

end Sys2Proof.Proofs
end

section
/-! SUPPORT. Accesses to the Hearth's registers (R343 to R351, R361, R364, R420): the rows of single registers, the words of BAR0 that
each of them is, the accesses that BAR0 takes, and the bytes of the auxiliary interface. -/

namespace Sys2Proof.Machine

/-! ### Doorbells (R351) -/

section
variable {r : Nat} {v : Word} {s : State}

theorem doorbell_of_off (off : (theRing s r).en = false) : doorbell r v s = s := if_pos (congrArg (! ·) off)

variable (on : (theRing s r).en = true)
include on

theorem doorbell_of_on : doorbell r v s =
    if (v.toNat % 65536 + 65536 - (theRing s r).cmdTail) % 65536 = 0 ∨ 32768 ≤ (v.toNat % 65536 + 65536 - (theRing s r).cmdTail) % 65536 then
      bump (ctr 0x14 0 3) (modRing r (fun g => { g with dbError := true }) s)
    else if 256 - inFlight (theRing s r) < (v.toNat % 65536 + 65536 - (theRing s r).cmdTail) % 65536 then
      raiseInt 6 0 (bump (ctr 0x14 0 2) (modRing r (fun g => { g with full := true }) s))
    else modRing r (fun g => { g with cmdTail := v.toNat % 65536, doorbells := g.doorbells ++ [(v.toNat % 65536, s.time.hearthPs)] }) s :=
  if_neg (by rw [on]; decide)

end

/-! ### The control word of a ring (R347) -/

/-- The fields of a ring's control word that a write always takes. -/
def ctrlFields (r : Nat) (v : Word) (en : Bool) (g : Ring) : Ring :=
  { g with perVec := bitAt v 30, vector := fld v 5 0, isLocal := if !en && (r == 0 || r == 3) then bitAt v 29 else g.isLocal }

/-- The ring after a write of its control word. -/
def ctrlRing (r : Nat) (v : Word) (valid : Bool) (active : Nat) (g : Ring) : Ring :=
  let g' := ctrlFields r v g.en g
  if bitAt v 31 && !g.en then
    if valid then { g' with en := true, cmdTail := 0, cmdHead := 0, cplTail := 0, cplHead := 0, doorbells := [], ver := active } else g'
  else if !bitAt v 31 && g.en then { g' with en := false } else g'

section
variable {r : Nat} {v : Word} {valid : Bool} {active : Nat} {g : Ring}

/-- EN is set: the ring comes on where the interface is in force. -/
theorem ctrlRing_comes (set : bitAt v 31 = true) (off : g.en = false) : ctrlRing r v valid active g =
    if valid then { ctrlFields r v g.en g with
      en := true, cmdTail := 0, cmdHead := 0, cplTail := 0, cplHead := 0, doorbells := [], ver := active } else ctrlFields r v g.en g :=
  if_pos (by rw [set, off]; rfl)

/-- EN stays set. -/
theorem ctrlRing_stays (set : bitAt v 31 = true) (on : g.en = true) : ctrlRing r v valid active g = ctrlFields r v g.en g :=
  (if_neg (by rw [on, Bool.not_true, Bool.and_false]; exact Bool.false_ne_true)).trans
    (if_neg (by rw [set]; exact Bool.false_ne_true))

/-- EN is cleared. -/
theorem ctrlRing_goes (clear : bitAt v 31 = false) : ctrlRing r v valid active g = { ctrlFields r v g.en g with en := false } := by
  refine (if_neg (by rw [clear]; exact Bool.false_ne_true)).trans ?_
  cases en : g.en
  case false =>
    refine (if_neg (by rw [Bool.and_false]; exact Bool.false_ne_true)).trans ?_
    rw [← en]
    rfl
  case true => exact if_pos (by rw [clear]; rfl)

theorem ctrlRing_en_of_clear (clear : bitAt v 31 = false) : (ctrlRing r v valid active g).en = false := by rw [ctrlRing_goes clear]

/-- What a write of the control word leaves, by the bit EN as it is and as it is written. -/
theorem ctrlRing_cases {P : Ring → Prop} (fields : P (ctrlFields r v g.en g))
    (comes : g.en = false → P { ctrlFields r v g.en g with
      en := true, cmdTail := 0, cmdHead := 0, cplTail := 0, cplHead := 0, doorbells := [], ver := active })
    (goes : P { ctrlFields r v g.en g with en := false }) : P (ctrlRing r v valid active g) := by
  cases set : bitAt v 31
  case false => rwa [ctrlRing_goes set]
  case true =>
    cases on : g.en
    case true => rwa [ctrlRing_stays set on]
    case false =>
      rw [ctrlRing_comes set on]
      split
      · exact comes on
      · exact fields

theorem ctrlRing_perVec : (ctrlRing r v valid active g).perVec = bitAt v 30 :=
  ctrlRing_cases (P := fun x => x.perVec = bitAt v 30) rfl (fun _ => rfl) rfl

theorem ctrlRing_vector : (ctrlRing r v valid active g).vector = fld v 5 0 :=
  ctrlRing_cases (P := fun x => x.vector = fld v 5 0) rfl (fun _ => rfl) rfl

/-- LOCAL moves only while the ring is off, and only on the Urgent and Diagnostic rings. -/
theorem ctrlRing_isLocal (h : g.en = true ∨ r ≠ 0 ∧ r ≠ 3) : (ctrlRing r v valid active g).isLocal = g.isLocal := by
  have kept : (ctrlFields r v g.en g).isLocal = g.isLocal := by
    refine if_neg ?_
    rcases h with on | ⟨first, last⟩
    · simp [on]
    · simp [first, last]
  exact ctrlRing_cases (P := fun x => x.isLocal = g.isLocal) kept (fun _ => kept) kept

end

theorem theRing_muteRings (hit : Nat → Bool) (s : State) (q : Nat) : theRing (muteRings hit s) q = theRing s q := rfl

/-- A write of a ring's control word is seen in that ring alone. -/
theorem theRing_ringCtrl (r : Nat) (v : Word) (s : State) (q : Nat) : theRing (ringCtrl r v s) q =
    if r = q then ctrlRing r v s.hearth.ifValid s.hearth.ifActive (theRing s r) else theRing s q := by
  have fields : theRing (modRing r (ctrlFields r v (theRing s r).en) s) q =
      if r = q then ctrlFields r v (theRing s r).en (theRing s q) else theRing s q := theRing_modRing ..
  have eq : ringCtrl r v s = if bitAt v 31 && !(theRing s r).en then ringOn r (modRing r (ctrlFields r v (theRing s r).en) s)
      else if !bitAt v 31 && (theRing s r).en then ringOff r (modRing r (ctrlFields r v (theRing s r).en) s)
      else modRing r (ctrlFields r v (theRing s r).en) s := rfl
  rw [eq, ctrlRing]
  by_cases on : (bitAt v 31 && !(theRing s r).en) = true
  · simp only [on, if_true, ringOn]
    rw [show (modRing r (ctrlFields r v (theRing s r).en) s).hearth.ifValid = s.hearth.ifValid from rfl,
      show (modRing r (ctrlFields r v (theRing s r).en) s).hearth.ifActive = s.hearth.ifActive from rfl]
    cases s.hearth.ifValid
    · simp only [Bool.false_eq_true, if_false, fields]
      by_cases here : r = q
      · subst here; rfl
      · rw [if_neg here, if_neg here]
    · simp only [if_true, theRing_modRing, fields]
      by_cases here : r = q
      · subst here; simp
      · rw [if_neg here, if_neg here, if_neg here]
  · rw [if_neg on, if_neg on]
    by_cases off : (!bitAt v 31 && (theRing s r).en) = true
    · rw [if_pos off, if_pos off, ringOff, theRing_muteRings, theRing_modRing, fields]
      by_cases here : r = q
      · subst here; simp
      · rw [if_neg here, if_neg here, if_neg here]
    · rw [if_neg off, if_neg off, fields]
      by_cases here : r = q
      · subst here; rfl
      · rw [if_neg here, if_neg here]

/-- A ring that goes off mutes what has detached from it. -/
theorem ringCtrl_muted {r : Nat} {v : Word} {s : State} (off : bitAt v 31 = false) (on : (theRing s r).en = true) :
    ∀ d ∈ (ringCtrl r v s).hearth.detached, d.cmd.ring = r → d.muted = true := by
  have eq : ringCtrl r v s = ringOff r (modRing r (ctrlFields r v (theRing s r).en) s) := by
    refine (if_neg ?_).trans (if_pos ?_)
    · rw [off]
      exact Bool.false_ne_true
    · rw [off, on]
      rfl
  rw [eq]
  intro d hd here
  obtain ⟨e, -, rfl⟩ := List.mem_map.mp hd
  split at here
  next hit => rw [if_pos hit]
  next miss => exact absurd (beq_iff_eq.mpr here) miss

/-! ### The control word of the event ring (R361) -/

/-- The event ring after a write of EV_CTRL. -/
def evCtrlRing (v : Word) (s : State) : EventRing := (evCtrl v s).hearth.ev

/-- What a write of EV_CTRL leaves: the fields, and with EN set anew the counts of a ring that begins. -/
theorem evCtrlRing_cases (v : Word) (s : State) : ∃ size,
    (bitAt v 31 = true ∧ s.hearth.ev.en = false ∧ evCtrlRing v s = { s.hearth.ev with
      vector := fld v 5 0, sizeLog2 := size, en := true, evTail := 0, evHead := 0, held := [], nextSlot := 0 }) ∨
    (¬(bitAt v 31 = true ∧ s.hearth.ev.en = false) ∧
      evCtrlRing v s = { s.hearth.ev with vector := fld v 5 0, sizeLog2 := size, en := bitAt v 31 }) := by
  refine ⟨if !s.hearth.ev.en && decide (8 ≤ fld v 12 8 ∧ fld v 12 8 ≤ 16) then fld v 12 8 else s.hearth.ev.sizeLog2, ?_⟩
  by_cases starts : (bitAt v 31 && !s.hearth.ev.en) = true
  · obtain ⟨set, off⟩ := Bool.and_eq_true_iff.mp starts
    exact .inl ⟨set, Bool.not_eq_true' .. ▸ off, if_pos starts⟩
  · exact .inr ⟨fun ⟨set, off⟩ => starts (by rw [set, off]; rfl), if_neg starts⟩

section
variable {v : Word} {s : State}

theorem evCtrlRing_vector : (evCtrlRing v s).vector = fld v 5 0 := by
  obtain ⟨size, ⟨-, -, h⟩ | ⟨-, h⟩⟩ := evCtrlRing_cases v s <;> rw [h]

theorem evCtrlRing_en : (evCtrlRing v s).en = bitAt v 31 := by
  obtain ⟨size, ⟨set, -, h⟩ | ⟨-, h⟩⟩ := evCtrlRing_cases v s
  · rw [h, set]
  · rw [h]

theorem evCtrlRing_queue : (evCtrlRing v s).queue = s.hearth.ev.queue := by
  obtain ⟨size, ⟨-, -, h⟩ | ⟨-, h⟩⟩ := evCtrlRing_cases v s <;> rw [h]

theorem evCtrlRing_starts (set : bitAt v 31 = true) (off : s.hearth.ev.en = false) :
    (evCtrlRing v s).evTail = 0 ∧ (evCtrlRing v s).evHead = 0 := by
  obtain ⟨size, ⟨-, -, h⟩ | ⟨none, -⟩⟩ := evCtrlRing_cases v s
  · rw [h]
    exact ⟨rfl, rfl⟩
  · exact absurd ⟨set, off⟩ none

end

/-! ### IF_REQUEST and TIME_LATCH_CTRL (R345, R349) -/

theorem modHearth_congr {f g : Hearth → Hearth} {s : State} (h : f s.hearth = g s.hearth) : s.modHearth f = s.modHearth g := by
  rw [State.modHearth, h, State.modHearth]

section
variable {v : Word} {s : State}

theorem ifRequest_of_on (h : anyEn s = true) : ifRequest v s = s.modHearth fun h => { h with reqIgnored := true } := if_pos h

theorem ifRequest_of_off (h : anyEn s = false) : ifRequest v s = s.modHearth fun h => { h with
    ifRequest := w32 (v.toNat % 65536), reqIgnored := false
    ifValid := decide (max (fld v 7 0) s.hearth.ifMin ≤ min (fld v 15 8) s.hearth.ifMax)
    ifActive := if max (fld v 7 0) s.hearth.ifMin ≤ min (fld v 15 8) s.hearth.ifMax then min (fld v 15 8) s.hearth.ifMax else h.ifActive } := by
  refine (if_neg (by rw [h]; decide)).trans (modHearth_congr ?_)
  have common : commonVer s.hearth v = if max (fld v 7 0) s.hearth.ifMin ≤ min (fld v 15 8) s.hearth.ifMax then
      some (min (fld v 15 8) s.hearth.ifMax) else none := rfl
  rw [common]
  by_cases fits : max (fld v 7 0) s.hearth.ifMin ≤ min (fld v 15 8) s.hearth.ifMax
  · simp only [fits, if_true, Option.isSome_some, Option.getD_some, decide_true]
  · simp only [fits, if_false, Option.isSome_none, Option.getD_none, decide_false]

theorem latchTime_ignored (h : bitAt v 0 = false) : latchTime v s = s := if_neg (by rw [h]; decide)

theorem latchTime_latches (h : bitAt v 0 = true) : ∃ d, d ≤ 5120 ∧ latchTime v s = s.tookFree.modHearth fun h =>
    { h with latch := timeWords (s.time.now + d), latchUnset := s.time.state == 0 } :=
  ⟨freeBelow s 5121, Nat.lt_succ_iff.mp (Nat.mod_lt _ (by decide)), if_pos h⟩

end

/-! ### Accesses to BAR0 (R343) -/

theorem inMsix_le {n : Nat} (h : inMsix n = true) : n ≤ 0x9000 := by
  simp only [inMsix, Bool.or_eq_true, decide_eq_true_eq, beq_iff_eq] at h
  omega

section
variable {off : BitVec 16} {v high : Word} {s : State}

theorem registerAccess_write32 (h : off.toNat % 4 = 0) : registerAccess (.write32 off) v s = barWrite off.toNat v s := if_pos h
theorem registerAccess_write32_bad (h : off.toNat % 4 ≠ 0) : registerAccess (.write32 off) v s = emit .unsupported s := if_neg h
theorem registerAccess_read32 (h : off.toNat % 4 = 0) :
    registerAccess (.read32 off) v s = emit (.readData (leBytes 4 (barWord s off.toNat).toNat)) (barSeen off.toNat s) := if_pos h
theorem registerAccess_read32_bad (h : off.toNat % 4 ≠ 0) : registerAccess (.read32 off) v s = emit .unsupported s := if_neg h
theorem registerAccess_read64 (h : off.toNat % 8 = 0 ∧ inMsix off.toNat = true) : registerAccess (.read64 off) v s =
    emit (.readData (leBytes 4 (barRead s off.toNat).toNat ++ leBytes 4 (barRead s (off.toNat + 4)).toNat)) s := if_pos h
theorem registerAccess_read64_bad (h : ¬(off.toNat % 8 = 0 ∧ inMsix off.toNat = true)) :
    registerAccess (.read64 off) v s = emit .unsupported s := if_neg h
theorem registerAccess_write64_bad (h : ¬(off.toNat % 8 = 0 ∧ inMsix off.toNat = true)) :
    registerAccess (.write64 off high) v s = emit .unsupported s := if_neg h

/-- A write of 64 bits is the writes of its two words. -/
theorem registerAccess_write64 (aligned : off.toNat % 8 = 0) (msix : inMsix off.toNat = true) : registerAccess (.write64 off high) v s =
    registerAccess (.write32 (off + 4)) high (registerAccess (.write32 off) v s) := by
  have low := inMsix_le msix
  have next : (off + 4).toNat = off.toNat + 4 := by
    rw [BitVec.toNat_add]
    exact Nat.mod_eq_of_lt (show off.toNat + 4 < 65536 by omega)
  rw [registerAccess_write32 (by omega), registerAccess_write32 (by omega), next]
  exact if_pos ⟨aligned, msix⟩

end

/-- The block of a ring's registers in BAR0. -/
theorem barWrite_ring {n : Nat} (low : 0x0100 ≤ n) (high : n < 0x0200) (v : Word) (s : State) :
    barWrite n v s = ringWrite ((n - 0x0100) / 0x40) (n % 0x40) v s := by
  rw [barWrite, if_neg (by omega), if_neg (by omega), if_neg (by omega), if_neg (by omega), if_pos ⟨low, high⟩]

/-- The block of the event ring's registers in BAR0. -/
theorem barWrite_ev {n : Nat} (low : 0x0200 ≤ n) (high : n < 0x0220) (v : Word) (s : State) :
    barWrite n v s = evWrite (n - 0x0200) v s := by
  rw [barWrite, if_neg (by omega), if_neg (by omega), if_neg (by omega), if_neg (by omega), if_neg (by omega), if_pos ⟨low, high⟩]

/-- The word of LOST in BAR0. -/
theorem barWord_lost (s : State) : barWord s 0x021C = evLostWord s := by
  simp [barWord, barRead, evRead]

/-- The words of BAR0 whose read leaves the state as it was. -/
theorem barWord_of_plain {n : Nat} {s : State} (load : n ≠ 0x0024) (lost : n ≠ 0x021C) : barWord s n = barRead s n ∧ barSeen n s = s :=
  ⟨if_neg load, (if_neg load).trans (if_neg lost)⟩

/-! ### The auxiliary interface (R348, R420, R421) -/

section
variable {a : Nat} {b b0 b1 b2 b3 : Byte} {s : State}

theorem auxWrite_nil (a : Nat) (word : List Byte) (s : State) : auxWrite a word [] s = s := by rw [auxWrite]

/-- A byte of a word of BAR0 that is not its last is only kept. -/
theorem auxWrite_kept {word rest : List Byte} (bar : a < 0x400) (short : (if a % 4 = 0 then [b] else if word = [] then [] else word ++ [b]).length ≠ 4) :
    auxWrite a word (b :: rest) s =
      auxWrite ((a + 1) % 2 ^ 24) (if a % 4 = 0 then [b] else if word = [] then [] else word ++ [b]) rest s := by
  rw [auxWrite, if_pos bar]
  exact if_neg short

/-- Its fourth byte applies it. -/
theorem auxWrite_applied {word : List Byte} (bar : a < 0x400) (other : a % 4 ≠ 0) (three : word.length = 3) :
    auxWrite a word [b] s = barWrite (a - 3) (w32 (ofLe (word ++ [b]))) s := by
  have some_ : word ≠ [] := fun none => by rw [none] at three; cases three
  rw [auxWrite, if_pos bar]
  simp only [other, some_, if_false]
  rw [if_pos (by rw [List.length_append, three]; rfl), auxWrite_nil]

theorem auxWrite_three (aligned : a % 4 = 0) (bar : a < 0x400) (rest : List Byte) :
    auxWrite a [] (b0 :: b1 :: b2 :: rest) s = auxWrite (a + 3) [b0, b1, b2] rest s := by
  have one : (a + 1) % 2 ^ 24 = a + 1 := by omega
  have two : (a + 1 + 1) % 2 ^ 24 = a + 2 := by omega
  have three : (a + 2 + 1) % 2 ^ 24 = a + 3 := by omega
  have first : (a + 1) % 4 ≠ 0 := by omega
  have second : (a + 2) % 4 ≠ 0 := by omega
  rw [auxWrite_kept bar (by simp [aligned]), one, if_pos aligned]
  rw [auxWrite_kept (by omega) (by simp [first]), two, if_neg first, if_neg (List.cons_ne_nil _ _)]
  rw [auxWrite_kept (by omega) (by simp [second]), three, if_neg second, if_neg (by simp)]
  rfl

theorem auxWrite_word (aligned : a % 4 = 0) (bar : a < 0x400) :
    auxWrite a [] [b0, b1, b2, b3] s = barWrite a (w32 (ofLe [b0, b1, b2, b3])) s := by
  rw [auxWrite_three aligned bar, auxWrite_applied (by omega) (by omega) rfl]
  rfl

theorem auxWrite_unaligned (other : a % 4 ≠ 0) (bar : a < 0x400) : auxWrite a [] [b] s = s := by
  rw [auxWrite_kept bar (by simp [other]), auxWrite_nil]

theorem auxWrite_outside (h : 0x400 ≤ a) : auxWrite a [] [b] s = auxByte a b s := by
  rw [auxWrite, if_neg (Nat.not_lt.mpr h), auxWrite_nil]

theorem auxRead_outside (h : 0x400 ≤ a) (n : Nat) (got : List Byte) :
    auxRead a (n + 1) none got s = auxRead ((a + 1) % 2 ^ 24) n none (got ++ [auxSeen s a]) s := by
  rw [auxRead, if_neg (Nat.not_lt.mpr h)]

theorem auxRead_one (h : 0x400 ≤ a) : auxRead a 1 none [] s = emit (.readData [auxSeen s a]) s := by
  rw [auxRead_outside h, auxRead]
  rfl

theorem auxByte_local (low : 0x010000 ≤ a) (high : a < 0x020000) : auxByte a b s = localWrite (a - 0x010000) [b] s := if_pos ⟨low, high⟩
theorem auxSeen_local (low : 0x010000 ≤ a) (high : a < 0x020000) :
    auxSeen s a = (memRead s.hearth.localMem (a - 0x010000) 1).getD 0 0 := if_pos ⟨low, high⟩

theorem auxByte_of_noRecovery (above : 0x020000 ≤ a) (h : s.power.recovery = false) : auxByte a b s = s :=
  (if_neg (by omega)).trans (if_pos (by rw [h]; decide))
theorem auxSeen_of_noRecovery (above : 0x020000 ≤ a) (h : s.power.recovery = false) : auxSeen s a = 0 :=
  (if_neg (by omega)).trans (if_pos (by rw [h]; decide))

variable (recovery : s.power.recovery = true)
include recovery

theorem auxByte_control (here : a = 0x020000) : auxByte a b s = rcvStart (w32 b.toNat) s :=
  (if_neg (by omega)).trans ((if_neg (by rw [recovery]; decide)).trans (if_pos here))

theorem auxSeen_control (above : 0x020000 ≤ a) (high : a < 0x020004) : auxSeen s a = (leBytes 4 (rcvCtrlWord s).toNat).getD (a % 4) 0 :=
  (if_neg (by omega)).trans ((if_neg (by rw [recovery]; decide)).trans (if_pos ⟨above, high⟩))

theorem auxByte_buffer (low : 0x400000 ≤ a) (high : a < 0x800000) (other : s.power.rcvState ≠ 1) :
    auxByte a b s = s.modPower fun p => { p with rcvBuf := memWrite p.rcvBuf (a - 0x400000) [b] } :=
  (if_neg (by omega)).trans ((if_neg (by rw [recovery]; decide)).trans ((if_neg (by omega)).trans ((if_neg (by omega)).trans
    (if_pos ⟨low, high, other⟩))))

end

section
variable {a : Nat} {b : Byte} {s : State}

theorem auxByte_beyond (h : 0x800000 ≤ a) : auxByte a b s = s := by
  cases recovery : s.power.recovery
  case false => exact auxByte_of_noRecovery (by omega) recovery
  case true =>
    exact (if_neg (by omega)).trans ((if_neg (by rw [recovery]; decide)).trans ((if_neg (by omega)).trans ((if_neg (by omega)).trans
      (if_neg fun inside => by omega))))

theorem auxSeen_beyond (h : 0x800000 ≤ a) : auxSeen s a = 0 := by
  cases recovery : s.power.recovery
  case false => exact auxSeen_of_noRecovery (by omega) recovery
  case true =>
    exact (if_neg (by omega)).trans ((if_neg (by rw [recovery]; decide)).trans ((if_neg (by omega)).trans ((if_neg (by omega)).trans
      (if_neg (by omega)))))

end

theorem leBytes_four (w : Nat) : leBytes 4 w =
    [(leBytes 4 w).getD 0 0, (leBytes 4 w).getD 1 0, (leBytes 4 w).getD 2 0, (leBytes 4 w).getD 3 0] := rfl

/-- A read of RCV_CTRL. -/
theorem auxRead_control {s : State} (recovery : s.power.recovery = true) :
    auxRead 0x020000 4 none [] s = emit (.readData (leBytes 4 (rcvCtrlWord s).toNat)) s := by
  have seen (k : Nat) (hk : k < 4) : auxSeen s (0x020000 + k) = (leBytes 4 (rcvCtrlWord s).toNat).getD k 0 := by
    rw [auxSeen_control recovery (by omega) (by omega), show (0x020000 + k) % 4 = k by omega]
  rw [auxRead_outside (by omega), auxRead_outside (by omega), auxRead_outside (by omega), auxRead_outside (by omega), auxRead,
    leBytes_four, ← seen 0 (by omega), ← seen 1 (by omega), ← seen 2 (by omega), ← seen 3 (by omega)]
  rfl

end Sys2Proof.Machine

namespace Sys2Proof.Proofs

open Sys2Proof.Machine

/-- Settles O47: the rows of single registers by their conditions, a word of BAR0 by the register it is, the rest by the access. -/
theorem hearthRegisters : Obligations.HearthRegisters := by
  unfold Obligations.HearthRegisters
  refine ⟨?doorbell, fun r v s => rfl, ?ctrl, ?event, fun v s => ⟨evHead v s, rfl, rfl, rfl⟩, fun s => rfl, ?load, ?request, ?latch, ?words,
    ?bar, ?aux⟩
  case doorbell =>
    intro r v s g t ahead
    refine ⟨fun off => next_congr (doorbell_of_off off), fun on bad => next_congr ((doorbell_of_on on).trans (if_pos bad)), ?_, ?_⟩
    · intro on pos small full
      have good : ¬(ahead = 0 ∨ 32768 ≤ ahead) := by omega
      exact next_congr ((doorbell_of_on on).trans ((if_neg good).trans (if_pos full)))
    · intro on pos small fits
      have good : ¬(ahead = 0 ∨ 32768 ≤ ahead) := by omega
      exact next_congr ((doorbell_of_on on).trans ((if_neg good).trans (if_neg (Nat.not_lt.mpr fits))))
  case ctrl =>
    intro r v s
    have ring := theRing_ringCtrl r v s r
    rw [if_pos rfl] at ring
    refine ⟨ringCtrl r v s, rfl, rfl, ?_⟩
    rw [ring]
    refine ⟨ctrlRing_perVec .., ctrlRing_vector .., fun set off valid => ?_, fun set off none_ => ?_,
      fun clear => ⟨ctrlRing_en_of_clear clear, ringCtrl_muted clear⟩, fun set on => ?_, fun h => ?_, fun q other => ?_⟩
    · rw [ctrlRing_comes set off, if_pos valid]
      exact ⟨rfl, rfl, rfl, rfl, rfl, rfl⟩
    · rw [ctrlRing_comes set off, if_neg (by rw [none_]; exact Bool.false_ne_true)]
      exact off
    · rw [ctrlRing_stays set on]
      exact ⟨on, rfl⟩
    · refine ctrlRing_isLocal (h.imp id fun h => ?_)
      rcases h with rfl | rfl <;> exact ⟨by decide, by decide⟩
    · rw [theRing_ringCtrl, if_neg fun same => other same.symm]
  case event =>
    intro v s
    refine ⟨evCtrl v s, rfl, evCtrlRing_vector .., evCtrlRing_en .., evCtrlRing_starts, evCtrlRing_queue ..⟩
  case load =>
    intro s
    exact ⟨freeBelow s 101, freeBelow s.tookFree 101, Nat.lt_succ_iff.mp (Nat.mod_lt _ (by decide)),
      Nat.lt_succ_iff.mp (Nat.mod_lt _ (by decide)), rfl⟩
  case request =>
    intro v s
    exact ⟨fun on => next_congr (ifRequest_of_on on), fun off => next_congr (ifRequest_of_off off)⟩
  case latch =>
    intro v s
    exact ⟨fun none => next_congr (latchTime_ignored none), fun does => (latchTime_latches does).imp fun d h => h.imp_right next_congr⟩
  case words =>
    intro v s
    have write (off : BitVec 16) (h : off.toNat % 4 = 0) {t : State} (does : barWrite off.toNat v s = t) :
        exec (.registerWrite (.write32 off) v) s = .next t := next_congr ((registerAccess_write32 h).trans does)
    refine ⟨write 0x000C (by decide) rfl, write 0x0028 (by decide) rfl, write 0x0210 (by decide) ?_, write 0x0218 (by decide) ?_,
      write 0x0114 (by decide) ?_, write 0x0150 (by decide) ?_, write 0x01A0 (by decide) ?_, next_congr ?_, next_congr ?_,
      write 0x0040 (by decide) rfl, write 0x0044 (by decide) rfl⟩
    · exact barWrite_ev (n := 0x0210) (by decide) (by decide) v s
    · exact barWrite_ev (n := 0x0218) (by decide) (by decide) v s
    · exact barWrite_ring (n := 0x0114) (by decide) (by decide) v s
    · exact barWrite_ring (n := 0x0150) (by decide) (by decide) v s
    · exact barWrite_ring (n := 0x01A0) (by decide) (by decide) v s
    · refine (registerAccess_read32 (off := 0x021C) (by decide)).trans ?_
      rw [show (0x021C : BitVec 16).toNat = 0x021C from rfl, barWord_lost]
      rfl
    · exact registerAccess_read32 (off := 0x0024) (by decide)
  case bar =>
    intro off v high s n word
    refine ⟨fun aligned load lost => next_congr ?_, fun other => ⟨next_congr (registerAccess_write32_bad other),
      next_congr (registerAccess_read32_bad other)⟩, fun aligned msix => ⟨registerAccess (.write32 off) v s, rfl,
      next_congr (registerAccess_write64 aligned msix), next_congr (registerAccess_read64 ⟨aligned, msix⟩)⟩, fun h => ?_, rfl, rfl⟩
    · obtain ⟨read, seen⟩ := barWord_of_plain (s := s) load lost
      rw [registerAccess_read32 aligned, read, seen]
    · have bad : ¬(n % 8 = 0 ∧ inMsix n = true) := fun ⟨aligned, msix⟩ => h.elim (· aligned) fun off => by simp [off] at msix
      exact ⟨next_congr (registerAccess_write64_bad bad), next_congr (registerAccess_read64_bad bad)⟩
  case aux =>
    intro a v b0 b1 b2 b3 s
    refine ⟨fun aligned bar => ⟨next_congr ?_, next_congr ?_⟩, fun other bar => next_congr (auxWrite_unaligned other bar),
      fun low high => ⟨next_congr ?_, next_congr ?_⟩, fun low high recovery idle => next_congr ?_,
      fun here recovery => ⟨next_congr ?_, next_congr ?_⟩, fun above none_ => ⟨next_congr ?_, next_congr ?_⟩⟩
    · have same : (a.setWidth 16).toNat = a.toNat := by
        rw [BitVec.toNat_setWidth]
        exact Nat.mod_eq_of_lt (by omega)
      rw [registerAccess_write32 (by omega), same]
      exact auxWrite_word aligned bar
    · exact (auxWrite_three aligned bar []).trans (auxWrite_nil ..)
    · exact (auxWrite_outside (by omega)).trans (auxByte_local low high)
    · exact (auxRead_one (by omega)).trans (by rw [auxSeen_local low high])
    · exact (auxWrite_outside (by omega)).trans (auxByte_buffer recovery low high idle)
    · exact (auxWrite_outside (by omega)).trans (auxByte_control recovery here)
    · rw [show registerAccess (.auxRead a 4) v s = auxRead a.toNat 4 none [] s from rfl, here]
      exact auxRead_control recovery
    · exact (auxWrite_outside (by omega)).trans (none_.elim (auxByte_of_noRecovery above) fun high => auxByte_beyond high)
    · exact (auxRead_one (by omega)).trans (by rw [none_.elim (auxSeen_of_noRecovery above) fun high => auxSeen_beyond high])

end Sys2Proof.Proofs
end

section
/-! SUPPORT. Rails, cold resets, the power-up of the halves and the output pins (R333, R375, R385, R412 to R416, R426): what each
leaves of the power controller, the stores and the Hearth. -/

namespace Sys2Proof.Machine

/-! ### The optics of a half that comes up leave the power controller alone (R242) -/

@[simp] theorem drainLost_power (l : Nat) (s : State) : (drainLost l s).power = s.power := by simp [drainLost]
@[simp] theorem takeAbrupt_power (l : Nat) (s : State) : (takeAbrupt l s).power = s.power := by simp [takeAbrupt]

@[simp] theorem bankLane_power (l cause : Nat) (s : State) : (bankLane l cause s).power = s.power := by
  unfold bankLane
  dsimp only
  split
  · exact drainLost_power l s
  · split <;> simp

@[simp] theorem loseRecord_power (kind index : Nat) (s : State) : (loseRecord kind index s).power = s.power := calSet_power ..
@[simp] theorem calStore_power (half item : Nat) (s : State) : (calStore half item s).power = s.power := report_power ..
@[simp] theorem failLaser_power (i : Nat) (s : State) : (failLaser i s).power = s.power := by simp [failLaser]

@[simp] theorem lightLaser_power (i : Nat) (s : State) : (lightLaser i s).power = s.power := by
  unfold lightLaser
  split
  · simp
  · split
    · simp
    · split <;> simp

@[simp] theorem lightHalf_power (h : Nat) (s : State) : (lightHalf h s).power = s.power := by
  rw [lightHalf, foldl_power fun s i => ?_]
  · rw [foldl_power fun s i => lightLaser_power i s]
  · dsimp only
    split
    · rfl
    · exact foldl_power (fun _ _ => modLaneOpt_power ..) _ _

@[simp] theorem measureLaser_power (i : Nat) (reading : Int) (s : State) : (measureLaser i reading s).power = s.power := by
  unfold measureLaser
  dsimp only
  split
  · split
    · split <;> simp
    · simp
  · rfl

@[simp] theorem remapLaser_power (i : Nat) (reading : Int) (s : State) : (remapLaser i reading s).power = s.power := by
  unfold remapLaser
  extract_lets retired
  have kept : retired.power = s.power := by
    simp only [retired]
    split <;> simp
  split
  · split <;> simp [kept]
  · exact kept

@[simp] theorem factoryLost_power (h : Nat) (u : OpticsUp) (s : State) : (factoryLost h u s).power = s.power := by
  simp [factoryLost]

@[simp] theorem powerUpOptics_power (h : Nat) (u : OpticsUp) (s : State) : (powerUpOptics h u s).power = s.power := by
  simp [powerUpOptics]

/-! ### The release of the half domains (R414, R418) -/

theorem oneRef_power (s : State) : (oneRef s).power = s.power := by simp [oneRef]

/-- The registers of one half as its release leaves them. -/
def released (on : Byte) (ready : Bool) : Byte × Bool := if on = 0 then (on, ready) else (0xFF, true)

theorem releaseHalf0_power (u : OpticsUp) (s : State) : ∃ a, (releaseHalf u 0 s).power = { s.power with
    on0 := (released s.power.on0 s.power.ready0).1, ready0 := (released s.power.on0 s.power.ready0).2, readyAt0 := a } := by
  by_cases off : s.power.on0 = 0
  · exact ⟨s.power.readyAt0, by rw [releaseHalf, if_neg (by simp [halfPowered, off]), released, if_pos off]⟩
  · refine ⟨(powerUpOptics 0 u s).time.hearthPs, ?_⟩
    rw [releaseHalf, if_pos (by simpa [halfPowered] using off), setReady_power, setHalfPower_power, powerUpOptics_power, released, if_neg off]
    rfl

theorem releaseHalf1_power (u : OpticsUp) (s : State) : ∃ a, (releaseHalf u 1 s).power = { s.power with
    on1 := (released s.power.on1 s.power.ready1).1, ready1 := (released s.power.on1 s.power.ready1).2, readyAt1 := a } := by
  by_cases off : s.power.on1 = 0
  · exact ⟨s.power.readyAt1, by rw [releaseHalf, if_neg (by simp [halfPowered, off]), released, if_pos off]⟩
  · refine ⟨(powerUpOptics 1 u s).time.hearthPs, ?_⟩
    rw [releaseHalf, if_pos (by simpa [halfPowered] using off), setReady_power, setHalfPower_power, powerUpOptics_power, released, if_neg off]
    rfl

/-- The registers of the halves as the release of the device leaves them. -/
theorem releaseDevice_power_of_good {u : OpticsUp} {s : State} (good0 : masterBad u 0 s = false) (good1 : masterBad u 1 s = false) :
    ∃ a b, (releaseDevice u s).power = { s.power with
      resetHeld := false, inReset := false,
      on0 := (released s.power.on0 s.power.ready0).1, ready0 := (released s.power.on0 s.power.ready0).2, readyAt0 := a,
      on1 := (released s.power.on1 s.power.ready1).1, ready1 := (released s.power.on1 s.power.ready1).2, readyAt1 := b } := by
  obtain ⟨a, first⟩ := releaseHalf0_power u (oneRef (s.modPower fun p => { p with resetHeld := false, inReset := false }))
  obtain ⟨b, second⟩ := releaseHalf1_power u (releaseHalf u 0 (oneRef (s.modPower fun p => { p with resetHeld := false, inReset := false })))
  refine ⟨a, b, ?_⟩
  rw [releaseDevice_of_good good0 good1, noteStatus_power, second, first, oneRef_power]
  rfl

/-- R415 keeps a half unpowered. -/
def keptOff (s : State) (h : Nat) : Bool := staysOff s h || convHeld s h

theorem keptOff_iff0 (s : State) : keptOff s 0 = true ↔ s.power.stayOff0 = true ∨ convHeld s 0 = true := by
  rw [keptOff, Bool.or_eq_true]
  rfl
theorem keptOff_iff1 (s : State) : keptOff s 1 = true ↔ s.power.stayOff1 = true ∨ convHeld s 1 = true := by
  rw [keptOff, Bool.or_eq_true]
  rfl

/-- The halves have power and are still in reset. -/
def heldUp (s : State) : State := noteStatus s (((List.range 2).foldl (fun t h =>
  if staysOff t h || convHeld t h then t else setHalfPower h 0xFF t) s).modPower fun p => { p with inReset := true })

theorem heldUp_power (s : State) : (heldUp s).power = { s.power with
    on0 := if keptOff s 0 = true then s.power.on0 else 0xFF, on1 := if keptOff s 1 = true then s.power.on1 else 0xFF, inReset := true } := by
  have first (t : State) (x : Byte) : keptOff (setHalfPower 0 x t) 1 = keptOff t 1 := rfl
  change (noteStatus s ((if keptOff (if keptOff s 0 then s else setHalfPower 0 0xFF s) 1 then (if keptOff s 0 then s else setHalfPower 0 0xFF s)
    else setHalfPower 1 0xFF (if keptOff s 0 then s else setHalfPower 0 0xFF s)).modPower fun p => { p with inReset := true })).power = _
  rw [noteStatus_power, State.modPower_power]
  cases off0 : keptOff s 0
  case true =>
    simp only [if_true]
    cases off1 : keptOff s 1
    case true => simp only [if_true]
    case false =>
      simp only [Bool.false_eq_true, if_false]
      rfl
  case false =>
    simp only [Bool.false_eq_true, if_false, first]
    cases off1 : keptOff s 1 <;> (simp only [if_true, Bool.false_eq_true, if_false]; rfl)

theorem heldUp_refs (s : State) : (heldUp s).time.refOk0 = s.time.refOk0 ∧ (heldUp s).time.refOk1 = s.time.refOk1 := by
  have time : (heldUp s).time = s.time := by
    have each (t : State) (h : Nat) : (if staysOff t h || convHeld t h then t else setHalfPower h 0xFF t).time = t.time := by
      split <;> rfl
    rw [heldUp, noteStatus_only]
    change (List.foldl _ s [0, 1]).time = s.time
    simp only [List.foldl_cons, List.foldl_nil, each]
  rw [time]
  exact ⟨rfl, rfl⟩

theorem powerHalves_eq (u : OpticsUp) (s : State) : powerHalves u s =
    if (heldUp s).time.refOk0 || (heldUp s).time.refOk1 then releaseDevice u (heldUp s) else heldUp s := rfl

section
variable {u : OpticsUp} {s : State}

theorem powerHalves_of_refs (refs : s.time.refOk0 = true ∨ s.time.refOk1 = true) : powerHalves u s = releaseDevice u (heldUp s) := by
  obtain ⟨first, second⟩ := heldUp_refs s
  rw [powerHalves_eq, first, second]
  exact if_pos (Bool.or_eq_true_iff.mpr refs)

theorem powerHalves_of_noRef (none0 : s.time.refOk0 = false) (none1 : s.time.refOk1 = false) : powerHalves u s = heldUp s := by
  obtain ⟨first, second⟩ := heldUp_refs s
  rw [powerHalves_eq, first, second, none0, none1]
  exact if_neg Bool.false_ne_true

end

/-- The release of the device leaves the registers of a half as they are, or as its release makes them. -/
def HalvesAfter (before after : Power) : Prop :=
  (after.on0 = before.on0 ∧ after.ready0 = before.ready0 ∨
    after.on0 = (released before.on0 before.ready0).1 ∧ after.ready0 = (released before.on0 before.ready0).2) ∧
  (after.on1 = before.on1 ∧ after.ready1 = before.ready1 ∨
    after.on1 = (released before.on1 before.ready1).1 ∧ after.ready1 = (released before.on1 before.ready1).2)

theorem releaseDevice_halves (u : OpticsUp) (t : State) : HalvesAfter t.power (releaseDevice u t).power := by
  by_cases bad : masterBad u 0 t = true ∨ masterBad u 1 t = true
  · rw [releaseDevice_power_of_bad bad]
    exact ⟨.inl ⟨rfl, rfl⟩, .inl ⟨rfl, rfl⟩⟩
  · rw [not_or, Bool.not_eq_true, Bool.not_eq_true] at bad
    obtain ⟨good0, good1⟩ := bad
    obtain ⟨a, b, after⟩ := releaseDevice_power_of_good good0 good1
    rw [after]
    exact ⟨.inr ⟨rfl, rfl⟩, .inr ⟨rfl, rfl⟩⟩

section
variable {u : OpticsUp} {s : State}

theorem powerHalves_halves (u : OpticsUp) (s : State) : HalvesAfter (heldUp s).power (powerHalves u s).power := by
  rw [powerHalves_eq]
  split
  · exact releaseDevice_halves u (heldUp s)
  · exact ⟨.inl ⟨rfl, rfl⟩, .inl ⟨rfl, rfl⟩⟩

theorem heldUp_on0_of_up (up : keptOff s 0 = false) : (heldUp s).power.on0 = 0xFF := by
  rw [heldUp_power]
  exact if_neg (by rw [up]; exact Bool.false_ne_true)

theorem heldUp_on1_of_up (up : keptOff s 1 = false) : (heldUp s).power.on1 = 0xFF := by
  rw [heldUp_power]
  exact if_neg (by rw [up]; exact Bool.false_ne_true)

theorem heldUp_on0_of_kept (kept : keptOff s 0 = true) : (heldUp s).power.on0 = s.power.on0 := by
  rw [heldUp_power]
  exact if_pos kept

theorem heldUp_on1_of_kept (kept : keptOff s 1 = true) : (heldUp s).power.on1 = s.power.on1 := by
  rw [heldUp_power]
  exact if_pos kept

theorem heldUp_ready0 : (heldUp s).power.ready0 = s.power.ready0 := by rw [heldUp_power]
theorem heldUp_ready1 : (heldUp s).power.ready1 = s.power.ready1 := by rw [heldUp_power]

/-- A half that nothing keeps off has power. -/
theorem powerHalves_on0 (u : OpticsUp) (up : keptOff s 0 = false) : (powerHalves u s).power.on0 = 0xFF := by
  rcases (powerHalves_halves u s).1 with ⟨on, -⟩ | ⟨on, -⟩ <;> rw [on, heldUp_on0_of_up up]
  exact congrArg Prod.fst (if_neg (by decide))

theorem powerHalves_on1 (u : OpticsUp) (up : keptOff s 1 = false) : (powerHalves u s).power.on1 = 0xFF := by
  rcases (powerHalves_halves u s).2 with ⟨on, -⟩ | ⟨on, -⟩ <;> rw [on, heldUp_on1_of_up up]
  exact congrArg Prod.fst (if_neg (by decide))

/-- A half that is kept off stays as it was. -/
theorem powerHalves_kept0 (u : OpticsUp) (kept : keptOff s 0 = true) (off : s.power.on0 = 0) :
    (powerHalves u s).power.on0 = 0 ∧ (powerHalves u s).power.ready0 = s.power.ready0 := by
  rcases (powerHalves_halves u s).1 with ⟨on, ready⟩ | ⟨on, ready⟩ <;> rw [on, ready, heldUp_on0_of_kept kept, heldUp_ready0, off]
  · exact ⟨rfl, rfl⟩
  · exact ⟨rfl, rfl⟩

theorem powerHalves_kept1 (u : OpticsUp) (kept : keptOff s 1 = true) (off : s.power.on1 = 0) :
    (powerHalves u s).power.on1 = 0 ∧ (powerHalves u s).power.ready1 = s.power.ready1 := by
  rcases (powerHalves_halves u s).2 with ⟨on, ready⟩ | ⟨on, ready⟩ <;> rw [on, ready, heldUp_on1_of_kept kept, heldUp_ready1, off]
  · exact ⟨rfl, rfl⟩
  · exact ⟨rfl, rfl⟩

/-- With a reference and both masters in tolerance the halves are ready. -/
theorem powerHalves_ready (refs : s.time.refOk0 = true ∨ s.time.refOk1 = true) (good0 : u.ref0Ok = true) (good1 : u.ref1Ok = true)
    (up0 : keptOff s 0 = false) (up1 : keptOff s 1 = false) : (powerHalves u s).power.ready0 = true ∧
    (powerHalves u s).power.ready1 = true ∧ (powerHalves u s).power.inReset = false := by
  have fine0 : masterBad u 0 (heldUp s) = false := by simp [masterBad, good0]
  have fine1 : masterBad u 1 (heldUp s) = false := by simp [masterBad, good1]
  obtain ⟨a, b, after⟩ := releaseDevice_power_of_good fine0 fine1
  rw [powerHalves_of_refs refs, after, heldUp_on0_of_up up0, heldUp_on1_of_up up1]
  exact ⟨rfl, rfl, rfl⟩

theorem powerHalves_held (none0 : s.time.refOk0 = false) (none1 : s.time.refOk1 = false) :
    (powerHalves u s).power.ready0 = s.power.ready0 ∧ (powerHalves u s).power.ready1 = s.power.ready1 ∧
    (powerHalves u s).power.inReset = true := by
  rw [powerHalves_of_noRef none0 none1, heldUp_power]
  exact ⟨rfl, rfl, rfl⟩

/-- The halves may be powered, and none is. -/
def MayPowerOn (s : State) : Prop := s.power.aux = true ∧ idsLost s = false ∧ s.power.recovery = false ∧ s.power.qualified = true ∧
  s.power.trip = false ∧ s.power.on0 = 0 ∧ s.power.on1 = 0

theorem mayPowerOn_iff (s : State) : (mayPower s && s.power.on0 == 0 && s.power.on1 == 0) = true ↔ MayPowerOn s := by
  simp only [mayPower, MayPowerOn, Bool.and_eq_true, Bool.not_eq_true', beq_iff_eq, and_assoc]

theorem halfPowerOn_of_may (may : MayPowerOn s) : halfPowerOn u s = powerHalves u s := if_pos ((mayPowerOn_iff s).mpr may)
theorem halfPowerOn_of_not (no : ¬MayPowerOn s) : halfPowerOn u s = s := if_neg fun yes => no ((mayPowerOn_iff s).mp yes)

end

/-! ### What a start of firmware leaves as it was (R385, R390, R414) -/

/-- The stores are as they were but for the logs of fault reports. -/
def Logged (c d : Sec) : Prop := ∃ v p f, d = { c with volLog := v, persLog := p, folds := f }

theorem Logged.refl (c : Sec) : Logged c c := ⟨c.volLog, c.persLog, c.folds, rfl⟩

theorem Logged.trans {c d e : Sec} (h : Logged c d) (k : Logged d e) : Logged c e := by
  obtain ⟨v, p, f, rfl⟩ := h
  obtain ⟨v', p', f', rfl⟩ := k
  exact ⟨v', p', f', rfl⟩

/-- The second state is the first but for recovery, the logs, what a boot marks in the Hearth and the telling of it. -/
structure Booted (s t : State) : Prop where
  told : ∃ x, Tells (s.modPower fun p => { p with recovery := x }) t
  logs : Logged s.sec t.sec
  image : ∀ i, (fwSlot t i).image = (fwSlot s i).image
  committed : t.hearth.committed = s.hearth.committed
  rings : t.hearth.rings = s.hearth.rings

namespace Booted

theorem trans {s t u : State} (h : Booted s t) (k : Booted t u) : Booted s u := by
  obtain ⟨x, told⟩ := h.told
  obtain ⟨y, told'⟩ := k.told
  exact ⟨⟨y, (told.modPower fun p => { p with recovery := y }).trans told'⟩, h.logs.trans k.logs,
    fun i => (k.image i).trans (h.image i), k.committed.trans h.committed, k.rings.trans h.rings⟩

/-- What only tells, logs and announces. -/
theorem of_announces {s t : State} (told : Tells s t) (logs : Logged s.sec t.sec) (h : Announces s t) : Booted s t :=
  ⟨⟨s.power.recovery, told⟩, logs, fun i => congrArg FwSlot.image (fwSlot_of_slots h.slots i), h.committed, h.rings⟩

end Booted

theorem Logged.of_same {c d : Sec} (h : d = c) : Logged c d := h ▸ .refl c

theorem post_sec (type : Nat) (body : List Word) (slot : Option (List Byte)) (s : State) : (post type body slot s).sec = s.sec := by
  unfold post
  split <;> rfl

theorem capture_sec (source detail : Nat) (s : State) : (capture source detail s).sec = s.sec := by
  unfold capture captureAt
  split
  · split <;> rfl
  · rfl

theorem sendFault_logs (r : FaultRep) (count : Nat) (s : State) : Logged s.sec (sendFault r count s).sec := by
  unfold sendFault
  extract_lets e t
  rw [capture_sec, post_sec]
  exact ⟨_, _, _, rfl⟩

theorem report_logs (r : FaultRep) (s : State) : Logged s.sec (report r s).sec := by
  unfold report
  split
  · split
    · exact ⟨_, _, _, rfl⟩
    · extract_lets t
      have sent : Logged s.sec t.sec := by
        simp only [t]
        split
        · exact .refl _
        · exact sendFault_logs ..
      exact sent.trans (Logged.trans (d := (t.modSec _).sec) ⟨_, _, _, rfl⟩ (sendFault_logs ..))
  · exact Logged.trans (d := (s.modSec _).sec) ⟨_, _, _, rfl⟩ (sendFault_logs ..)

theorem report_booted (r : FaultRep) (s : State) : Booted s (report r s) :=
  .of_announces (report_tells r s) (report_logs r s) (report_announces r s)

theorem noteStatus_booted (old new : State) : Booted new (noteStatus old new) :=
  .of_announces (noteStatus_tells old new) (.of_same (noteStatus_only old new).sec) (noteStatus_announces old new)

theorem hearthStart_booted (cause : Nat) (s : State) : Booted s (hearthStart cause s) :=
  .of_announces (hearthStart_tells cause s) (.of_same (post_sec ..)) (hearthStart_announces cause s)

theorem bootFails_booted (detail : Nat) (s : State) : Booted s (bootFails detail s) :=
  ⟨⟨s.power.recovery, rfl⟩, .refl _, fun _ => rfl, rfl, rfl⟩

theorem setRecovery_booted (x : Bool) (s : State) : Booted s (s.modPower fun p => { p with recovery := x }) :=
  ⟨⟨x, rfl⟩, .refl _, fun _ => rfl, rfl, rfl⟩

theorem markSlot_booted (i : Nat) (passes : Bool) (s : State) : Booted s (markSlot i passes s) := by
  unfold markSlot
  dsimp only
  split
  · exact .of_announces (.refl s) (.refl _) (.refl s)
  · refine ⟨⟨s.power.recovery, rfl⟩, .refl _, fun j => ?_, rfl, rfl⟩
    rw [fwSlot_setSlot]
    split
    next here => rw [here]
    next => rfl

theorem startSlot_booted (i : Nat) (s : State) : Booted s (startSlot i s) := ⟨⟨s.power.recovery, rfl⟩, .refl _, fun _ => rfl, rfl, rfl⟩

theorem setPending_booted (x : Bool) (s : State) : Booted s (s.modHearth fun h => { h with commitPending := x }) :=
  ⟨⟨s.power.recovery, rfl⟩, .refl _, fun _ => rfl, rfl, rfl⟩

theorem boot_booted (s : State) : Booted s (boot s) := by
  unfold boot
  dsimp only
  split
  · exact bootFails_booted 10 s
  · split
    · exact (markSlot_booted ..).trans ((startSlot_booted ..).trans (setPending_booted ..))
    · split
      · exact (markSlot_booted ..).trans ((markSlot_booted ..).trans ((startSlot_booted ..).trans
          ((setPending_booted ..).trans (report_booted ..))))
      · exact (markSlot_booted ..).trans ((markSlot_booted ..).trans ((bootFails_booted ..).trans (setRecovery_booted ..)))

/-! ### The cold reset (R333, R413, R416) -/

/-- What a cold reset has cleared as the boot ROM starts. -/
def coldCleared (cause : Nat) (s : State) : State := finishErase (setResetCause 0 cause false false (coldClear true s))

theorem coldReset_eq (cause : Nat) (low : Bool) (s : State) : coldReset cause low s =
    if idsLost (coldCleared cause s) then noteStatus (coldCleared cause s) (bootFails 10 (coldCleared cause s))
    else if low then (coldCleared cause s).modPower fun p => { p with recovery := true }
    else if (noteStatus (coldCleared cause s) (boot (coldCleared cause s))).hearth.ready then
      hearthStart 0 (noteStatus (coldCleared cause s) (boot (coldCleared cause s)))
    else noteStatus (coldCleared cause s) (boot (coldCleared cause s)) := rfl

theorem coldReset_booted (cause : Nat) (low : Bool) (s : State) : Booted (coldCleared cause s) (coldReset cause low s) := by
  rw [coldReset_eq]
  have started := (boot_booted (coldCleared cause s)).trans (noteStatus_booted (coldCleared cause s) _)
  split
  · exact (bootFails_booted ..).trans (noteStatus_booted ..)
  · split
    · exact setRecovery_booted ..
    · split
      · exact started.trans (hearthStart_booted ..)
      · exact started

/-- What a cold reset clears, but for time, Hearth, stores and power, which it gives values of their own. -/
theorem coldClear_domains (aux : Bool) (s : State) : ∃ t, (t = domainsReset (circuitsDark s) ∨
    t = emit (.thermTrip false) (domainsReset (circuitsDark s))) ∧ coldClear aux s = { t with
      time := { TimeSt.reset with refOk0 := s.time.refOk0, refOk1 := s.time.refOk1 },
      hearth := coldHearth s.hearth, sec := coldSec s.sec,
      power := { Power.reset with
        aux := aux, qualified := s.power.qualified, on0 := 0, on1 := 0, ready0 := false, ready1 := false, inReset := true } } := by
  unfold coldClear
  extract_lets t t'
  refine ⟨t', ?_, rfl⟩
  simp only [t']
  split
  · exact .inr rfl
  · exact .inl rfl

theorem coldClear_coll (aux : Bool) (s : State) : (coldClear aux s).coll = [] := by
  obtain ⟨t, rfl | rfl, h⟩ := coldClear_domains aux s <;> rw [h] <;> rfl
theorem coldClear_routing (aux : Bool) (s : State) : (coldClear aux s).routing = State.reset.routing := by
  obtain ⟨t, rfl | rfl, h⟩ := coldClear_domains aux s <;> rw [h] <;> rfl
theorem coldClear_jobs (aux : Bool) (s : State) : (coldClear aux s).jobs = State.reset.jobs := by
  obtain ⟨t, rfl | rfl, h⟩ := coldClear_domains aux s <;> rw [h] <;> rfl
theorem coldClear_ports (aux : Bool) (s : State) : (coldClear aux s).link.ports = [] := by
  obtain ⟨t, rfl | rfl, h⟩ := coldClear_domains aux s <;> rw [h] <;> rfl
theorem coldClear_hearth (aux : Bool) (s : State) : (coldClear aux s).hearth = coldHearth s.hearth := rfl
theorem coldClear_sec (aux : Bool) (s : State) : (coldClear aux s).sec = coldSec s.sec := rfl
theorem coldClear_power (aux : Bool) (s : State) : (coldClear aux s).power = { Power.reset with
    aux := aux, qualified := s.power.qualified, on0 := 0, on1 := 0, ready0 := false, ready1 := false, inReset := true } := rfl

/-- The stores with the keys erased where the part is in RETURN. -/
def erasedSec (c : Sec) : Sec := if c.life = 3 then { c with identity := none, owners := [], cosign := false, tag := [] } else c

/-- The erasure of the keys is an affair of the stores alone. -/
theorem finishErase_eq (s : State) : finishErase s = s.modSec fun _ => erasedSec s.sec := by
  unfold finishErase erasedSec
  split <;> rfl

section
variable (cause : Nat) (s : State)

theorem coldCleared_coll : (coldCleared cause s).coll = [] := by rw [coldCleared, finishErase_eq]; exact coldClear_coll true s
theorem coldCleared_routing : (coldCleared cause s).routing = State.reset.routing := by
  rw [coldCleared, finishErase_eq]
  exact coldClear_routing true s
theorem coldCleared_jobs : (coldCleared cause s).jobs = State.reset.jobs := by
  rw [coldCleared, finishErase_eq]
  exact coldClear_jobs true s
theorem coldCleared_ports : (coldCleared cause s).link.ports = [] := by
  rw [coldCleared, finishErase_eq]
  exact coldClear_ports true s
theorem coldCleared_time : (coldCleared cause s).time.state = 0 := by rw [coldCleared, finishErase_eq]; rfl
theorem coldCleared_power : (coldCleared cause s).power = { Power.reset with
    aux := true, qualified := s.power.qualified, on0 := 0, on1 := 0, ready0 := false, ready1 := false, inReset := true } := by
  rw [coldCleared, finishErase_eq]
  rfl
theorem coldCleared_sec : (coldCleared cause s).sec = erasedSec (coldSec s.sec) := by rw [coldCleared, finishErase_eq]; rfl
theorem coldCleared_hearth : (coldCleared cause s).hearth =
    { coldHearth s.hearth with resetCause := (coldCleared cause s).hearth.resetCause } := by
  rw [coldCleared, finishErase_eq]
  rfl

end

end Sys2Proof.Machine
end

section
/-! SUPPORT. The outcome of a cold reset by what the boot ROM finds, the device reset that leaves the halves off, and the output pins
(R333, R385, R390, R412 to R414, R426). -/

namespace Sys2Proof.Machine

/-! ### What a cold reset leaves (R333, R385) -/

section
variable {c : Sec}

/-- Whether an image is judged good does not depend on what a cold reset clears of the stores. -/
theorem imageCheck_erased (c : Sec) (img : List Byte) : imageCheck (erasedSec (coldSec c)) img = imageCheck c img := by
  have owner : ownerCheck (erasedSec (coldSec c)) img = ownerCheck c img := by
    unfold erasedSec
    split
    next here => exact (if_pos here).trans (if_pos here).symm
    next => rfl
  have digest : (erasedSec (coldSec c)).vendorDigest = c.vendorDigest := by
    unfold erasedSec
    split <;> rfl
  unfold imageCheck
  rw [owner, digest]

theorem fusedVer_erased (c : Sec) : (erasedSec (coldSec c)).fusedVer = c.fusedVer := by
  unfold erasedSec
  split <;> rfl

theorem bootCheck_erased (c : Sec) (img : List Byte) : bootCheck (erasedSec (coldSec c)) img = bootCheck c img := by
  rw [bootCheck, imageCheck_erased, fusedVer_erased, bootCheck]

theorem erasedSec_of_return (h : c.life = 3) : erasedSec c = { c with identity := none, owners := [], cosign := false, tag := [] } :=
  if_pos h

theorem erasedSec_of_other (h : c.life ≠ 3) : erasedSec c = c := if_neg h

/-- What the erasure leaves in every life cycle. -/
theorem erasedSec_kept (c : Sec) : (erasedSec c).life = c.life ∧ (erasedSec c).fuseA = c.fuseA ∧ (erasedSec c).fuseB = c.fuseB ∧
    (erasedSec c).authSeq = c.authSeq ∧ (erasedSec c).userCal = c.userCal ∧ (erasedSec c).debugUntil = c.debugUntil ∧
    (erasedSec c).copiesBad = c.copiesBad := by
  unfold erasedSec
  split <;> exact ⟨rfl, rfl, rfl, rfl, rfl, rfl, rfl⟩

end

section
variable (cause : Nat) (s : State)

theorem coldCleared_slots : (coldCleared cause s).hearth.slots = s.hearth.slots := by rw [coldCleared_hearth]; rfl
theorem coldCleared_committed : (coldCleared cause s).hearth.committed = s.hearth.committed := by rw [coldCleared_hearth]; rfl
theorem coldCleared_rings : (coldCleared cause s).hearth.rings = [] := by rw [coldCleared_hearth]; rfl
theorem coldCleared_ready : (coldCleared cause s).hearth.ready = false := by rw [coldCleared_hearth]; rfl

theorem coldCleared_idsLost : idsLost (coldCleared cause s) = idsLost s := by
  obtain ⟨-, -, -, -, -, -, copies⟩ := erasedSec_kept (coldSec s.sec)
  rw [idsLost, coldCleared_sec, copies]
  rfl

theorem coldCleared_slotPasses (i : Nat) : slotPasses (coldCleared cause s) i = slotPasses s i := by
  rw [slotPasses, fwSlot_of_slots (coldCleared_slots cause s), coldCleared_sec, bootCheck_erased, fusedVer_erased, slotPasses]

end

section
variable {cause : Nat} {low : Bool} {s : State}

theorem coldReset_of_lost (lost : idsLost s = true) :
    coldReset cause low s = noteStatus (coldCleared cause s) (bootFails 10 (coldCleared cause s)) := by
  rw [coldReset_eq]
  exact if_pos ((coldCleared_idsLost cause s).trans lost)

theorem coldReset_recovers (known : idsLost s = false) :
    coldReset cause true s = (coldCleared cause s).modPower fun p => { p with recovery := true } := by
  rw [coldReset_eq, coldCleared_idsLost, known]
  exact (if_neg Bool.false_ne_true).trans (if_pos rfl)

theorem markSlot_power (i : Nat) (good : Bool) (t : State) : (markSlot i good t).power = t.power := by
  unfold markSlot
  dsimp only
  split <;> rfl

/-- The boot of the committed firmware. -/
theorem boot_starts {t : State} (known : idsLost t = false) (passes : slotPasses t t.hearth.committed = true) :
    (boot t).power = t.power ∧ (boot t).hearth.ready = true ∧ (boot t).hearth.bootSlot = t.hearth.committed := by
  rw [boot_of_committed known passes]
  exact ⟨markSlot_power .., rfl, rfl⟩

/-- What follows the boot of a firmware. -/
theorem hearthStart_noteStatus_boot {t : State} : ((hearthStart 0 (noteStatus t (boot t))).power = (boot t).power ∧
    (hearthStart 0 (noteStatus t (boot t))).hearth.ready = (boot t).hearth.ready) ∧
    (hearthStart 0 (noteStatus t (boot t))).hearth.bootSlot = (boot t).hearth.bootSlot := by
  have told := (noteStatus_announces t (boot t)).trans (hearthStart_announces 0 (noteStatus t (boot t)))
  exact ⟨⟨((noteStatus_tells t (boot t)).trans (hearthStart_tells ..)).power, told.ready⟩, told.bootSlot⟩

/-- A start of the committed firmware. -/
theorem coldReset_starts (known : idsLost s = false) (passes : slotPasses s s.hearth.committed = true) :
    (coldReset cause false s).power = (coldCleared cause s).power ∧ (coldReset cause false s).hearth.ready = true ∧
      (coldReset cause false s).hearth.bootSlot = s.hearth.committed := by
  obtain ⟨power, ready, slot⟩ := boot_starts ((coldCleared_idsLost cause s).trans known)
    ((coldCleared_slotPasses cause s _).trans (by rw [coldCleared_committed, passes]))
  have whole : coldReset cause false s = hearthStart 0 (noteStatus (coldCleared cause s) (boot (coldCleared cause s))) := by
    rw [coldReset_eq, coldCleared_idsLost, known]
    exact (if_neg Bool.false_ne_true).trans ((if_neg Bool.false_ne_true).trans
      (if_pos ((noteStatus_announces (coldCleared cause s) _).ready.trans ready)))
  obtain ⟨⟨power', ready'⟩, slot'⟩ := hearthStart_noteStatus_boot (t := coldCleared cause s)
  rw [whole, power', ready', slot', power, ready, slot, coldCleared_committed]
  exact ⟨rfl, rfl, rfl⟩

/-- The registers of the power controller after a cold reset. -/
theorem coldReset_power (cause : Nat) (low : Bool) (s : State) : ∃ x, (coldReset cause low s).power = { Power.reset with
    aux := true, qualified := s.power.qualified, on0 := 0, on1 := 0, ready0 := false, ready1 := false, inReset := true, recovery := x } := by
  obtain ⟨x, told⟩ := (coldReset_booted cause low s).told
  refine ⟨x, ?_⟩
  rw [told.power, State.modPower_power, coldCleared_power]

/-- The stores after a cold reset. -/
theorem coldReset_sec (cause : Nat) (low : Bool) (s : State) : ∃ v p f, (coldReset cause low s).sec =
    { erasedSec (coldSec s.sec) with volLog := v, persLog := p, folds := f } := by
  have logs := (coldReset_booted cause low s).logs
  rwa [coldCleared_sec] at logs

end

/-! ### A start of the AUX domain (R375, R390) -/

theorem findStores_eq (low : Bool) (bad : BitVec 4) (slots : BitVec 4) (s : State) : findStores ⟨low, bad, slots⟩ s =
    if slots.getLsbD 2 && slots.getLsbD 3 then
      loseSlot 1 (if slots.getLsbD 0 && slots.getLsbD 1 then loseSlot 0 (s.modSec fun c => { c with copiesBad := bad })
        else s.modSec fun c => { c with copiesBad := bad })
    else if slots.getLsbD 0 && slots.getLsbD 1 then loseSlot 0 (s.modSec fun c => { c with copiesBad := bad })
      else s.modSec fun c => { c with copiesBad := bad } := rfl

/-- A slot after a loss of another, or of its own copies. -/
theorem fwSlot_loseSlot_if (lost : Bool) (j : Nat) (s : State) (i : Nat) : fwSlot (if lost then loseSlot j s else s) i =
    if j = i ∧ lost = true then { fwSlot s i with state := 2, image := [] } else fwSlot s i := by
  cases lost
  case false => simp
  case true =>
    simp only [if_true, loseSlot, fwSlot_setSlot, and_true]
    split
    next here => rw [here]
    next => rfl

section
variable {low : Bool} {bad slots : BitVec 4} {s : State}

/-- The start finds the copies of the stores, and leaves what is neither store nor slot. -/
theorem findStores_found : (findStores ⟨low, bad, slots⟩ s).sec = { s.sec with copiesBad := bad } ∧
    (findStores ⟨low, bad, slots⟩ s).power = s.power ∧ (findStores ⟨low, bad, slots⟩ s).mem = s.mem := by
  rw [findStores_eq]
  split <;> split <;> exact ⟨rfl, rfl, rfl⟩

theorem findStores_fwSlot {i : Nat} (hi : i < 2) : fwSlot (findStores ⟨low, bad, slots⟩ s) i =
    if slots.getLsbD (2 * i) = true ∧ slots.getLsbD (2 * i + 1) = true then { fwSlot s i with state := 2, image := [] }
    else fwSlot s i := by
  have found (t : State) : fwSlot (s.modSec fun c => { c with copiesBad := bad }) i = fwSlot s i := rfl
  rw [findStores_eq, fwSlot_loseSlot_if, fwSlot_loseSlot_if, found s]
  obtain rfl | rfl : i = 0 ∨ i = 1 := by omega
  · simp only [Nat.one_ne_zero, false_and, if_false, true_and, Bool.and_eq_true]
  · simp only [Nat.zero_ne_one, false_and, if_false, true_and, Bool.and_eq_true]

end

/-! ### A device reset that leaves the half domains off (R333, R412) -/

theorem noteStatus_or (old new : State) : noteStatus old new = new ∨ noteStatus old new = raiseInt 5 0 new := by
  unfold noteStatus
  split
  · exact .inl rfl
  · exact .inr rfl

theorem fld_resetLevel {level cause : Nat} (hl : level < 16) (hc : cause < 16) (h0 h1 : Bool) (s : State) :
    fld (setResetCause level cause h0 h1 s).hearth.resetCause 31 28 = level := by
  have b0 := bit_le h0
  have b1 := bit_le h1
  have at_ : (if s.time.state = 0 then 0 else secOf s.time.now % 65536) < 65536 := by
    split
    · decide
    · exact Nat.mod_lt _ (by decide)
  simp only [setResetCause, State.modHearth_hearth, fld, pack, packN, BitVec.toNat_ofNat]
  omega

theorem deviceReset_resetLevel {level cause : Nat} (hl : level < 16) (hc : cause < 16) (s : State) :
    fld (deviceReset level cause s).hearth.resetCause 31 28 = level := by
  rw [deviceReset_eq, noteStatus_resetCause, hearthStart_resetCause, domainsReset_resetCause, fld_resetLevel hl hc]

theorem resetAndOff_resetLevel {cause : Nat} (hc : cause < 16) (s : State) :
    fld (resetAndOff cause s).hearth.resetCause 31 28 = 1 := by
  rw [resetAndOff, noteStatus_resetCause, domainsOff_hearth, deviceReset_resetLevel (by decide) hc]

/-- The half domains at their reset values and off. -/
theorem resetAndOff_tells (cause : Nat) (s : State) :
    ∃ d, Tells (domainsOff (domainsReset d)) (resetAndOff cause s) := by
  have reset := (deviceReset_tells 1 cause s).modPower fun p => { p with on0 := 0, on1 := 0 }
  exact ⟨_, reset.trans (noteStatus_tells s (domainsOff (deviceReset 1 cause s)))⟩

/-- A reading of the input that is lost lies outside its range. -/
theorem lostMv_outside (s : State) : lostMv s < 30500 ∨ 42000 < lostMv s := by
  unfold lostMv
  dsimp only
  split
  · exact .inl ‹_›
  · exact .inr (by omega)

/-! ### The output pins (R426) -/

section
variable {rst : Bool} {s : State}

/-- AUX is off, or in its reset. -/
theorem pinCond_of_held (held : s.power.aux = false ∨ rst = true) (h : Nat) :
    pinCond rst s h = .off ∨ pinCond rst s h = .auxReset := by
  unfold pinCond
  cases aux : s.power.aux
  · exact .inl rfl
  · obtain rfl := held.resolve_left (by rw [aux]; decide)
    exact .inr rfl

theorem auxRuns_of_held (held : s.power.aux = false ∨ rst = true) : auxRuns rst s = false := by
  rcases held with h | h <;> simp [auxRuns, h]

theorem auxOnly_iff : auxOnly s = true ↔ s.power.qualified = false ∨ s.power.on0 = 0 ∧ s.power.on1 = 0 := by
  simp [auxOnly, halfPowered]

variable (aux : s.power.aux = true)
include aux

theorem auxRuns_of_on : auxRuns false s = true := by simp [auxRuns, aux]

/-- The halves have no power, or are in a device reset. -/
theorem pinCond_of_down (down : s.power.qualified = false ∨ (s.power.on0 = 0 ∧ s.power.on1 = 0) ∨ s.power.inReset = true) (h : Nat) :
    pinCond false s h = .auxOnly ∨ pinCond false s h = .deviceReset := by
  by_cases only : auxOnly s = true
  · exact .inl (by simp [pinCond, aux, only])
  · have reset : s.power.inReset = true := by
      rw [auxOnly_iff] at only
      tauto
    exact .inr (by simp [pinCond, aux, only, reset])

/-- The halves are powered, and in no device reset. -/
theorem pinCond_of_up (qualified : s.power.qualified = true) (on : s.power.on0 ≠ 0 ∨ s.power.on1 ≠ 0) (out : s.power.inReset = false)
    (h : Nat) : pinCond false s h = if halfReady s h then .running else .halfReset := by
  have only : auxOnly s = false := by
    rw [← Bool.not_eq_true, auxOnly_iff]
    rintro (not_ | ⟨off0, off1⟩)
    · rw [qualified] at not_
      cases not_
    · exact on.elim (· off0) (· off1)
  cases ready : halfReady s h <;> simp [pinCond, aux, only, out, ready]

end

end Sys2Proof.Machine

namespace Sys2Proof.Proofs

open Sys2Proof.Machine

/-- Settles O53: the rows by their guards, a cold reset by what the boot ROM finds, the pins by the condition of R426. -/
theorem railsAndColdReset : Obligations.RailsAndColdReset := by
  unfold Obligations.RailsAndColdReset
  refine ⟨?off, ?lost, fun s => ?qualified, ?margin, ?low, ?start, ?pulse, ?cold, ?power, ?pins⟩
  case off =>
    intro cause s hc t u
    have down := resetAndOff_down cause s
    obtain ⟨d, told⟩ := resetAndOff_tells cause s
    refine ⟨noteStatus_or _ _, down.on0, down.on1, down.ready0, down.ready1, by rw [told.power]; rfl, told.coll, told.flue, told.kindle,
      told.routing, told.optics, told.timeState, resetAndOff_resetLevel hc s, resetAndOff_resetCause hc s⟩
  case lost =>
    intro s
    refine ⟨fun not_ => next_congr (if_neg (by rw [not_]; decide)), fun on => ⟨lostMv s, _, lostMv_outside s, rfl, ?_⟩⟩
    have lost : exec .vin36Lost s = .next (noteStatus s ((resetAndOff 4 (report (powerFault 0x1102 3 3 0 (lostMv s)) s.tookFree)).modPower
      fun p => { p with qualified := false })) := next_congr (if_pos on)
    rw [lost]
    exact (noteStatus_or _ _).imp next_congr next_congr
  case qualified => exact (noteStatus_or _ _).imp next_congr next_congr
  case margin =>
    intro mv s inMargin
    refine ⟨fun aux inside => next_congr (if_pos ⟨aux, inside⟩), fun no => next_congr (if_neg fun ⟨aux, inside⟩ => ?_)⟩
    exact no.elim (fun off => by rw [off] at aux; cases aux) (· inside)
  case low =>
    exact fun s => ⟨coldClear false s, rfl, by rw [coldClear_power], by rw [coldClear_power], by rw [coldClear_power],
      by rw [coldClear_power], by rw [coldClear_power], by rw [coldClear_hearth]; rfl, coldClear_sec .., coldClear_coll ..,
      coldClear_routing ..⟩
  case start =>
    intro low bad slots s
    obtain ⟨sec, power, mem⟩ := findStores_found (low := low) (bad := bad) (slots := slots) (s := s)
    exact ⟨findStores ⟨low, bad, slots⟩ s, rfl, sec, power, mem, fun i hi => findStores_fwSlot hi⟩
  case pulse =>
    intro n low s
    refine ⟨fun no => next_congr (if_pos ?_), fun aux long => next_congr ((if_neg ?_).trans (if_pos long)), fun aux least short => ?_⟩
    · rcases no with off | brief <;> simp [*]
    · simp only [aux, Bool.not_true, Bool.false_or, decide_eq_true_eq]
      omega
    · have between : coldPulse n low s = if freeBelow s 2 = 0 then s.tookFree else coldReset 1 low s.tookFree :=
        (if_neg (by simp only [aux, Bool.not_true, Bool.false_or, decide_eq_true_eq]; omega)).trans (if_neg (by omega))
      rw [show exec (.coldReset n low) s = .next (coldPulse n low s) from rfl, between]
      split
      · exact .inl rfl
      · exact .inr rfl
  case cold =>
    intro cause low s t
    obtain ⟨x, told⟩ := (coldReset_booted cause low s).told
    obtain ⟨y, power⟩ := coldReset_power cause low s
    obtain ⟨v, p, f, sec⟩ := coldReset_sec cause low s
    obtain ⟨life, fuseA, fuseB, authSeq, userCal, debug, -⟩ := erasedSec_kept (coldSec s.sec)
    have booted := coldReset_booted cause low s
    refine ⟨by rw [power], by rw [power], by rw [power], by rw [power], by rw [power], by rw [power], by rw [power]; rfl, by rw [power]; rfl,
      by rw [power]; rfl, by rw [power], told.coll.trans (coldCleared_coll ..), told.jobs.trans (coldCleared_jobs ..),
      told.routing.trans (coldCleared_routing ..), (congrArg Link.ports told.link).trans (coldCleared_ports ..),
      told.timeState.trans (coldCleared_time ..), (congrArg Sec.life sec).trans life, fun other => ?_, fun return_ => ?_,
      (congrArg Sec.fuseA sec).trans fuseA, (congrArg Sec.fuseB sec).trans fuseB, (congrArg Sec.authSeq sec).trans authSeq,
      (congrArg Sec.userCal sec).trans userCal, (congrArg Sec.debugUntil sec).trans debug, fun i => (booted.image i).trans ?_,
      booted.committed.trans (coldCleared_committed ..), booted.rings.trans (coldCleared_rings ..), fun lost => ?_, fun known pin => ?_,
      fun known pin passes => ?_⟩
    · rw [sec, erasedSec_of_other (c := coldSec s.sec) other]
      exact ⟨rfl, rfl, rfl, rfl⟩
    · rw [sec, erasedSec_of_return (c := coldSec s.sec) return_]
      exact ⟨rfl, rfl, rfl, rfl⟩
    · exact congrArg FwSlot.image (fwSlot_of_slots (coldCleared_slots ..) i)
    · have noted := noteStatus_announces (coldCleared cause s) (bootFails 10 (coldCleared cause s))
      rw [show t = _ from coldReset_of_lost lost, noted.ready, noted.selftest]
      exact ⟨rfl, rfl⟩
    · subst pin
      rw [show t = _ from coldReset_recovers known]
      exact ⟨rfl, coldCleared_ready ..⟩
    · subst pin
      obtain ⟨same, ready, slot⟩ := coldReset_starts (cause := cause) known passes
      exact ⟨by rw [show t.power = _ from same, coldCleared_power]; rfl, ready, slot⟩
  case power =>
    intro u s may
    refine ⟨fun no => next_congr (halfPowerOn_of_not no), fun yes => next_congr (halfPowerOn_of_may yes), ?_⟩
    have up0 (no : ¬(s.power.stayOff0 = true ∨ convHeld s 0 = true)) : keptOff s 0 = false := by rwa [← Bool.not_eq_true, keptOff_iff0]
    have up1 (no : ¬(s.power.stayOff1 = true ∨ convHeld s 1 = true)) : keptOff s 1 = false := by rwa [← Bool.not_eq_true, keptOff_iff1]
    dsimp only
    exact ⟨fun no => powerHalves_on0 u (up0 no), fun no => powerHalves_on1 u (up1 no),
      fun kept => powerHalves_kept0 u ((keptOff_iff0 s).mpr kept), fun kept => powerHalves_kept1 u ((keptOff_iff1 s).mpr kept),
      fun refs good0 good1 no0 no1 => powerHalves_ready refs good0 good1 (up0 no0) (up1 no1), powerHalves_held⟩
  case pins =>
    intro rst s
    refine ⟨fun held => ?_, fun aux rstOff => ?_⟩
    · have off := auxRuns_of_held held
      refine ⟨by rw [devOkPin, off]; rfl, by rw [tripPinLow, off]; rfl, by rw [alertPinLow, off]; rfl, ?_, fun h => ⟨?_, fun l => ?_⟩⟩
      · rcases pinCond_of_held held 0 with c | c <;> rw [ppsOutPin, c]
      · rcases pinCond_of_held held h with c | c <;> rw [memPinsDriven, c] <;> rfl
      · rcases pinCond_of_held held (halfOf l) with c | c <;> rw [fibreMayBeLit, c]
    · subst rstOff
      have on := auxRuns_of_on aux
      refine ⟨by rw [devOkPin, on]; rfl, by rw [tripPinLow, on]; rfl, by rw [alertPinLow, on]; rfl, by rw [pcieTx, aux]; rfl,
        fun down => ⟨?_, fun h => ?_⟩, fun qualified powered out => ?_⟩
      · rcases pinCond_of_down aux down 0 with c | c <;> rw [ppsOutPin, c]
      · rcases pinCond_of_down aux down h with c | c <;> rw [memPinsDriven, c] <;> rfl
      · have cond := pinCond_of_up aux qualified powered out
        have mem (h : Nat) : memPinsDriven false s h = halfReady s h := by
          rw [memPinsDriven, cond]
          cases halfReady s h <;> rfl
        refine ⟨?_, mem, fun c ready => if_pos ((mem c).trans ready)⟩
        rw [ppsOutPin, cond]
        cases halfReady s 0 <;> rfl

end Sys2Proof.Proofs
end

section
/-! SUPPORT. The Tally and sampled tracing (R329, R402 to R405, R408, R409): ring targets, the two configurations, the three outcomes of
a trigger of the Tally, the sizes of a dump record and the writing of a trace record. -/

namespace Sys2Proof.Machine

/-! ### Ring targets (R329, R405) -/

section
variable {args : List Word} {i n : Nat} {s : State}

theorem ringTarget_host (h : argN args i = 0) : ringTarget s args i n =
    if arg64 args (i + 1) % 4096 = 0 then .ok (.host (arg64 args (i + 1))) else .error (0x01, i + 1) := by
  unfold ringTarget
  rw [h]
  rfl

theorem ringTarget_granary (h : argN args i = 1) : ringTarget s args i n =
    if 4095 < argN args (i + 1) ∨ argN args (i + 1) = 0 then .error (0x01, i + 1)
    else if arg64 args (i + 2) % 4096 ≠ 0 then .error (0x01, i + 2)
    else if (thePart s (argN args (i + 1))).state = 2 then .error (0x0D, 0)
    else if (windowFor s (argN args (i + 1)) (arg64 args (i + 2)) n false true).isSome then
      .ok (.granary (argN args (i + 1)) (arg64 args (i + 2))) else .error (0x0B, 0) := by
  unfold ringTarget
  rw [h]
  rfl

theorem ringTarget_other (h : 1 < argN args i) : ringTarget s args i n = .error (0x01, i) := by
  unfold ringTarget
  split
  · omega
  · omega
  · rfl

end

/-! ### The configurations (R402, R408, R409) -/

/-- The Tally that a configuration leaves. -/
def configuredTally (args : List Word) (target : RingTarget) (t : Tally) : Tally :=
  { t with enabled := argN args 1 == 1, periodUs := argN args 2, kindMask := arg args 3, policeMask := BitVec.ofNat 8 (argN args 4),
           target := target, slots := argN args (6 + targetLen args 5),
           seq := if !t.enabled || t.target != target || t.kindMask != arg args 3 then 0 else t.seq, last := none }

/-- The tracer that a configuration leaves. -/
def configuredTrace (args : List Word) (target : RingTarget) (t : Trace) : Trace :=
  { enabled := argN args 1 == 1, logN := argN args 2, classMask := BitVec.ofNat 8 (argN args 3),
    barnMask := BitVec.ofNat 16 (argN args 4), seed := arg args 5, target := target, slots := argN args (7 + targetLen args 6),
    recent := t.recent, seq := if t.enabled && t.target == target then t.seq else 0 }

section
variable {args : List Word} {s : State}

theorem tallyConfig_eq (args : List Word) (s : State) : tallyConfig args s =
    if 1 < argN args 1 then cmdRefuse St.badArgument 1 s
    else if argN args 2 < 10 ∨ 10000000 < argN args 2 then cmdRefuse St.badArgument 2 s
    else if (arg args 3) &&& 0xFFE00001#32 ≠ 0 then cmdRefuse St.badArgument 3 s
    else if 255 < argN args 4 then cmdRefuse St.badArgument 4 s
    else if argN args (6 + targetLen args 5) < 2 ∨ 65536 < argN args (6 + targetLen args 5) then
      cmdRefuse St.badArgument (6 + targetLen args 5) s
    else match ringTarget s args 5 (argN args (6 + targetLen args 5) * slotLen (arg args 3)) with
      | .error (st, d) => cmdRefuse st d s
      | .ok target => cmdOk (s.modCount fun c => { c with tally := configuredTally args target c.tally }) := rfl

theorem traceConfig_eq (args : List Word) (s : State) : traceConfig args s =
    if 1 < argN args 1 then cmdRefuse St.badArgument 1 s
    else if argN args 2 < 8 ∨ 24 < argN args 2 then cmdRefuse St.badArgument 2 s
    else if 255 < argN args 3 then cmdRefuse St.badArgument 3 s
    else if 65535 < argN args 4 then cmdRefuse St.badArgument 4 s
    else if argN args (7 + targetLen args 6) < 1024 ∨ 16777216 < argN args (7 + targetLen args 6) then
      cmdRefuse St.badArgument (7 + targetLen args 6) s
    else match ringTarget s args 6 (argN args (7 + targetLen args 6) * 64) with
      | .error (st, d) => cmdRefuse st d s
      | .ok target => cmdOk (s.modCount fun c => { c with trace := configuredTrace args target c.trace }) := rfl

theorem configuredTally_seq (args : List Word) (target : RingTarget) (t : Tally) : configuredTally args target t =
    { t with enabled := argN args 1 == 1, periodUs := argN args 2, kindMask := arg args 3, policeMask := BitVec.ofNat 8 (argN args 4),
             target := target, slots := argN args (6 + targetLen args 5),
             seq := if t.enabled = true ∧ t.target = target ∧ t.kindMask = arg args 3 then t.seq else 0, last := none } := by
  have seq : (if !t.enabled || t.target != target || t.kindMask != arg args 3 then 0 else t.seq) =
      if t.enabled = true ∧ t.target = target ∧ t.kindMask = arg args 3 then t.seq else 0 := by
    by_cases same : t.enabled = true ∧ t.target = target ∧ t.kindMask = arg args 3
    · rw [if_pos same, if_neg (by simp [same])]
    · rw [if_neg same, if_pos]
      simp only [Bool.or_eq_true, Bool.not_eq_true', bne_iff_ne, ne_eq, ← Bool.not_eq_true]
      tauto
  rw [configuredTally, seq]

theorem configuredTrace_seq (args : List Word) (target : RingTarget) (t : Trace) : configuredTrace args target t =
    { enabled := argN args 1 == 1, logN := argN args 2, classMask := BitVec.ofNat 8 (argN args 3),
      barnMask := BitVec.ofNat 16 (argN args 4), seed := arg args 5, target := target, slots := argN args (7 + targetLen args 6),
      recent := t.recent, seq := if t.enabled = true ∧ t.target = target then t.seq else 0 } := by
  simp only [configuredTrace, Bool.and_eq_true, beq_iff_eq]

end

/-! ### Rings (R405) -/

section
variable (t : RingTarget) (off : Nat) (bytes : List Byte) (s : State)

theorem ringPut_count : (ringPut t off bytes s).count = s.count := by cases t <;> rfl
theorem ringPut_time : (ringPut t off bytes s).time = s.time := by cases t <;> rfl

end

/-! ### Latches (R402 to R405) -/

/-- The latch that starts in a state. -/
def newLatch (start : Nat) (trigger : BitVec 3) (tag tagFrom : Nat) (s : State) : Latch :=
  { start := start, windowNs := 1 + freeBelow s 200, trigger := trigger, tag := tag, tagFrom := tagFrom, seq := s.count.tally.seq,
    written := s.count.tally.enabled, flags := s.count.tally.flags.toNat + 8 * bit (timeUnset s), lost := s.count.tally.lost,
    body := if s.count.tally.enabled then dumpBody s.count.tally.kindMask s else [], capStamp := start + freeBelow s.tookFree 5121 }

/-- The state in which a latch that starts has been captured. -/
def latchCaptured (start : Nat) (trigger : BitVec 3) (tag tagFrom : Nat) (s : State) : State :=
  captureAt 22 tag (newLatch start trigger tag tagFrom s).capStamp s.tookFree.tookFree

theorem captureAt_tally (source detail stamp : Nat) (s : State) : (captureAt source detail stamp s).count.tally = s.count.tally := by
  unfold captureAt
  split
  · split <;> rfl
  · rfl

theorem captureAt_trace (source detail stamp : Nat) (s : State) : (captureAt source detail stamp s).count.trace = s.count.trace := by
  unfold captureAt
  split
  · split <;> rfl
  · rfl

section
variable (start : Nat) (trigger : BitVec 3) (tag tagFrom : Nat) (w : List Nat) (s : State)

theorem latchCaptured_tally : (latchCaptured start trigger tag tagFrom s).count.tally = s.count.tally := captureAt_tally ..
theorem latchCaptured_trace : (latchCaptured start trigger tag tagFrom s).count.trace = s.count.trace := captureAt_trace ..
theorem latchCaptured_mem : (latchCaptured start trigger tag tagFrom s).mem = s.mem := (captureAt_tells ..).mem
theorem latchCaptured_hostMem : (latchCaptured start trigger tag tagFrom s).hearth.hostMem = s.hearth.hostMem :=
  (captureAt_announces ..).hostMem

theorem latchNew_eq : latchNew start trigger tag tagFrom w s =
    if s.count.tally.enabled then
      bump (ctr 0x14 0 8) (modTally (fun t =>
        { t with seq := (t.seq + 1) % 2 ^ 32, lost := 0, flags := 0, last := some (newLatch start trigger tag tagFrom s),
                 waiting := w ++ [start + nsU (newLatch start trigger tag tagFrom s).windowNs] })
        (putDump (newLatch start trigger tag tagFrom s) (latchCaptured start trigger tag tagFrom s)))
    else
      bump (ctr 0x14 0 9) (modTally (fun t =>
        { t with last := some (newLatch start trigger tag tagFrom s), waiting := w, lost := sat (2 ^ 32 - 1) (t.lost + 1) })
        (latchCaptured start trigger tag tagFrom s)) := rfl

theorem bump_tally (id : Nat) (s : State) : (bump id s).count.tally = s.count.tally := rfl
theorem modTally_tally (f : Tally → Tally) (s : State) : (modTally f s).count.tally = f s.count.tally := rfl
theorem bump_trace (id : Nat) (s : State) : (bump id s).count.trace = s.count.trace := rfl
theorem modTally_trace (f : Tally → Tally) (s : State) : (modTally f s).count.trace = s.count.trace := rfl
theorem putDump_count (l : Latch) (s : State) : (putDump l s).count = s.count := ringPut_count ..

theorem latchNew_last : (latchNew start trigger tag tagFrom w s).count.tally.last = some (newLatch start trigger tag tagFrom s) := by
  rw [latchNew_eq]
  split <;> rfl

theorem latchNew_trace : (latchNew start trigger tag tagFrom w s).count.trace = s.count.trace := by
  rw [latchNew_eq]
  split
  · rw [bump_trace, modTally_trace, putDump_count, latchCaptured_trace]
  · rw [bump_trace, modTally_trace, latchCaptured_trace]

variable {start trigger tag tagFrom w s}

/-- A latch of an enabled Tally takes its number and clears what it has shown. -/
theorem latchNew_of_on (on : s.count.tally.enabled = true) :
    (latchNew start trigger tag tagFrom w s).count.tally.seq = (s.count.tally.seq + 1) % 2 ^ 32 ∧
    (latchNew start trigger tag tagFrom w s).count.tally.lost = 0 ∧ (latchNew start trigger tag tagFrom w s).count.tally.flags = 0 := by
  rw [latchNew_eq, if_pos on, bump_tally, modTally_tally, putDump_count, latchCaptured_tally]
  exact ⟨rfl, rfl, rfl⟩

/-- A latch of a disabled Tally is counted as lost. -/
theorem latchNew_of_off (off : s.count.tally.enabled = false) :
    (latchNew start trigger tag tagFrom w s).count.tally.seq = s.count.tally.seq ∧
    (latchNew start trigger tag tagFrom w s).count.tally.lost = sat (2 ^ 32 - 1) (s.count.tally.lost + 1) ∧
    (latchNew start trigger tag tagFrom w s).mem = s.mem ∧
    (latchNew start trigger tag tagFrom w s).hearth.hostMem = s.hearth.hostMem := by
  have lost := latchNew_eq start trigger tag tagFrom w s
  rw [if_neg (by rw [off]; exact Bool.false_ne_true)] at lost
  rw [lost]
  refine ⟨?_, ?_, latchCaptured_mem .., latchCaptured_hostMem ..⟩
  · rw [bump_tally, modTally_tally, latchCaptured_tally]
  · rw [bump_tally, modTally_tally, latchCaptured_tally]

end

section
variable {start : Nat} {trigger : BitVec 3} {tag tagFrom : Nat} {s : State}

theorem waitingSets_le (s : State) : (waitingSets s).length ≤ s.count.tally.waiting.length := by
  unfold waitingSets
  dsimp only
  rw [List.length_map]
  refine (List.length_filter_le ..).trans ?_
  rw [List.length_zipIdx]
  exact List.length_filter_le ..

theorem latchAt_merges {l : Latch} (h : merges s = some l) : latchAt start trigger tag tagFrom s = mergeInto l trigger tag tagFrom s := by
  simp only [latchAt, h]

theorem latchAt_begins (h : merges s = none) : latchAt start trigger tag tagFrom s =
    if 2 ≤ (waitingSets s).length then latchLost (waitingSets s) (s.tookMany 2)
    else latchNew start trigger tag tagFrom (waitingSets s) (s.tookMany 2) := by
  simp only [latchAt, h]

theorem merges_of_open {l : Latch} (last : s.count.tally.last = some l) (began : l.start ≤ s.time.now)
    (still : s.time.now < l.start + nsU l.windowNs) : merges s = some l := by
  simp [merges, last, Option.filter, began, still]

theorem merges_of_closed (closed : ∀ l, s.count.tally.last = some l → l.start ≤ s.time.now → l.start + nsU l.windowNs ≤ s.time.now) :
    merges s = none := by
  unfold merges
  cases last : s.count.tally.last with
  | none => rfl
  | some l =>
    refine if_neg ?_
    simp only [Bool.and_eq_true, decide_eq_true_eq]
    have := closed l last
    omega

/-- The latch that a trigger within its window has changed. -/
def mergedLatch (l : Latch) (trigger : BitVec 3) (tag tagFrom : Nat) : Latch :=
  { l with trigger := l.trigger ||| trigger, tag := if decide (tagFrom < l.tagFrom) then tag else l.tag,
           tagFrom := if decide (tagFrom < l.tagFrom) then tagFrom else l.tagFrom }

theorem mergeInto_eq (l : Latch) (trigger : BitVec 3) (tag tagFrom : Nat) (s : State) : mergeInto l trigger tag tagFrom s =
    if l.written then
      putDump (mergedLatch l trigger tag tagFrom) (retag (mergedLatch l trigger tag tagFrom)
        (modTally (fun t => { t with last := some (mergedLatch l trigger tag tagFrom) }) s))
    else retag (mergedLatch l trigger tag tagFrom) (modTally (fun t => { t with last := some (mergedLatch l trigger tag tagFrom) }) s) := rfl

theorem mergeInto_count (l : Latch) (trigger : BitVec 3) (tag tagFrom : Nat) (s : State) : (mergeInto l trigger tag tagFrom s).count =
    { s.count with tally := { s.count.tally with last := some (mergedLatch l trigger tag tagFrom) } } := by
  rw [mergeInto_eq]
  split
  · exact putDump_count ..
  · rfl

theorem mergeInto_time (l : Latch) (trigger : BitVec 3) (tag tagFrom : Nat) (s : State) : (mergeInto l trigger tag tagFrom s).time =
    (retag (mergedLatch l trigger tag tagFrom) s).time := by
  rw [mergeInto_eq]
  split
  · exact ringPut_time ..
  · rfl

end

theorem dumpBody_tookMany (mask : Word) (n : Nat) (s : State) : dumpBody mask (s.tookMany n) = dumpBody mask s := by
  simp only [dumpBody, blockBody, counter, State.tookMany]

/-- A latch has begun at the present instant. -/
def LatchBegun (trigger : BitVec 3) (tag : Nat) (s u : State) : Prop :=
  ∃ l, u.count.tally.last = some l ∧ l.start = s.time.now ∧ 1 ≤ l.windowNs ∧ l.windowNs ≤ 200 ∧ l.trigger = trigger ∧
    l.tag = tag ∧ l.seq = s.count.tally.seq ∧ l.written = s.count.tally.enabled ∧ l.lost = s.count.tally.lost ∧
    u.count.trace = s.count.trace ∧
    (s.count.tally.enabled = true → l.body = dumpBody s.count.tally.kindMask s ∧
      u.count.tally.seq = (s.count.tally.seq + 1) % 2 ^ 32 ∧ u.count.tally.lost = 0 ∧ u.count.tally.flags = 0) ∧
    (s.count.tally.enabled = false → u.count.tally.seq = s.count.tally.seq ∧
      u.count.tally.lost = sat (2 ^ 32 - 1) (s.count.tally.lost + 1) ∧ u.mem = s.mem ∧ u.hearth.hostMem = s.hearth.hostMem)

theorem newLatch_windowNs (start : Nat) (trigger : BitVec 3) (tag tagFrom : Nat) (s : State) :
    1 ≤ (newLatch start trigger tag tagFrom s).windowNs ∧ (newLatch start trigger tag tagFrom s).windowNs ≤ 200 := by
  have window : freeBelow s 200 < 200 := Nat.mod_lt _ (by decide)
  have eq : (newLatch start trigger tag tagFrom s).windowNs = 1 + freeBelow s 200 := rfl
  omega

theorem latchNew_begun (trigger : BitVec 3) (tag tagFrom : Nat) (w : List Nat) (s : State) :
    LatchBegun trigger tag s (latchNew s.time.now trigger tag tagFrom w (s.tookMany 2)) := by
  have tally : (s.tookMany 2).count = s.count := rfl
  obtain ⟨least, most⟩ := newLatch_windowNs s.time.now trigger tag tagFrom (s.tookMany 2)
  refine ⟨newLatch s.time.now trigger tag tagFrom (s.tookMany 2), latchNew_last .., rfl, least, most, rfl, rfl, rfl, rfl, rfl,
    latchNew_trace .., fun on => ?_, fun off => ?_⟩
  · have body : (newLatch s.time.now trigger tag tagFrom (s.tookMany 2)).body = dumpBody s.count.tally.kindMask (s.tookMany 2) :=
      if_pos on
    have after := latchNew_of_on (start := s.time.now) (trigger := trigger) (tag := tag) (tagFrom := tagFrom) (w := w) (s := s.tookMany 2) on
    rw [tally] at after
    exact ⟨body.trans (dumpBody_tookMany ..), after⟩
  · have after := latchNew_of_off (start := s.time.now) (trigger := trigger) (tag := tag) (tagFrom := tagFrom) (w := w) (s := s.tookMany 2) off
    rwa [tally] at after

/-- A trigger that no open window takes begins a latch where fewer than two sets may wait, and may be lost otherwise. -/
theorem latch_begins (trigger : BitVec 3) (tag tagFrom : Nat) {s : State} (closed : merges s = none) :
    (s.count.tally.waiting.length < 2 → LatchBegun trigger tag s (latch trigger tag tagFrom s)) ∧
    (LatchBegun trigger tag s (latch trigger tag tagFrom s) ∨
      latch trigger tag tagFrom s = latchLost (waitingSets s) (s.tookMany 2)) := by
  rw [latch, latchAt_begins closed]
  refine ⟨fun few => ?_, ?_⟩
  · have sets := waitingSets_le s
    rw [if_neg (by omega)]
    exact latchNew_begun ..
  · split
    · exact .inr rfl
    · exact .inl (latchNew_begun ..)

section
variable {args : List Word} {s : State}

theorem tallyLatch_served {l : Latch} (h : (latch 2 (argN args 1 % 65536) 256 s).count.tally.last = some l) : tallyLatch args s =
    cmdOkWith (w32 l.seq :: timeWords l.start) (latch 2 (argN args 1 % 65536) 256 s) := by
  simp only [tallyLatch, h]

theorem tallyLatch_lost (h : (latch 2 (argN args 1 % 65536) 256 s).count.tally.last = none) : tallyLatch args s =
    cmdOkWith ((List.range 4).map fun i => w32 (Config.freeValue ((latch 2 (argN args 1 % 65536) 256 s).free + i)))
      ((latch 2 (argN args 1 % 65536) 256 s).tookMany 4) := by
  simp only [tallyLatch, h]

end

/-- What a lost trigger leaves. -/
theorem latchLost_leaves (w : List Nat) (s : State) : (latchLost w s).count.tally.last = none ∧
    (latchLost w s).count.tally.seq = s.count.tally.seq ∧
    (latchLost w s).count.tally.lost = sat (2 ^ 32 - 1) (s.count.tally.lost + 1) ∧
    (latchLost w s).time = s.time ∧ (latchLost w s).mem = s.mem ∧ (latchLost w s).hearth.hostMem = s.hearth.hostMem :=
  ⟨rfl, rfl, rfl, rfl, rfl, rfl⟩

/-! ### Periodic latches (R402) -/

/-- A periodic latch is due. -/
def PeriodDue (s : State) (m : Nat) : Prop :=
  timeUnset s = false ∧ s.time.stepped ≤ m ∧ s.time.now - m < 1639 ∧ s.count.tally.lastPer ≠ some m

/-- The last multiple of PERIOD_US. -/
def lastPeriod (s : State) : Nat := s.time.now / (s.count.tally.periodUs * 256000) * (s.count.tally.periodUs * 256000)

theorem reached_lastPeriod (s : State) : reached s (lastPeriod s) = true ↔
    s.time.stepped ≤ lastPeriod s ∧ s.time.now - lastPeriod s < 1639 := by
  have below : lastPeriod s ≤ s.time.now := Nat.div_mul_le_self ..
  have unfolded : reached s (lastPeriod s) = true ↔
      (s.time.stepped ≤ lastPeriod s ∧ lastPeriod s ≤ s.time.now) ∧ s.time.now < lastPeriod s + 1639 := by
    simp only [reached, Bool.and_eq_true, decide_eq_true_eq]
    rfl
  rw [unfolded]
  generalize lastPeriod s = m at below
  omega

theorem periodDue_eq (s : State) : periodDue s =
    if timeUnset s = true ∨ reached s (lastPeriod s) = false ∨ s.count.tally.lastPer = some (lastPeriod s) then none
    else some (lastPeriod s) := rfl

theorem periodicLatch_of_due {s : State} (due : PeriodDue s (lastPeriod s)) : periodicLatch s =
    latchAt (lastPeriod s) 1 0 257 (s.modCount fun c => { c with tally := { c.tally with lastPer := some (lastPeriod s) } }) := by
  obtain ⟨set, stepped, within, fresh⟩ := due
  have now : periodDue s = some (lastPeriod s) := by
    rw [periodDue_eq, if_neg]
    rw [set, (reached_lastPeriod s).mpr ⟨stepped, within⟩]
    simp [fresh]
  simp only [periodicLatch, now]

theorem periodicLatch_of_not {s : State} (no : ¬PeriodDue s (lastPeriod s)) : periodicLatch s = s := by
  have none : periodDue s = none := by
    rw [periodDue_eq, if_pos]
    by_contra due
    rw [not_or, not_or, Bool.not_eq_true, Bool.not_eq_false, reached_lastPeriod] at due
    obtain ⟨set, ⟨stepped, within⟩, fresh⟩ := due
    exact no ⟨set, stepped, within, fresh⟩
  simp only [periodicLatch, none]

/-! ### Dump records (R404, R405) -/

theorem length_flatMap_const {α β : Type} {f : α → List β} {n : Nat} {l : List α} (h : ∀ a ∈ l, (f a).length = n) :
    (l.flatMap f).length = l.length * n := by
  rw [List.length_flatMap, List.map_congr_left h, List.map_const', List.sum_replicate, smul_eq_mul]

theorem length_blockBody (s : State) (b : Nat × Nat × Nat) : (blockBody s b).length = 8 * (b.2.1 * b.2.2) := by
  have each (i : Nat) : ((List.range b.2.2).flatMap fun k => leBytes 8 (counter s (ctr b.1 i k)).toNat).length = b.2.2 * 8 := by
    rw [length_flatMap_const fun _ _ => length_leBytes .., List.length_range]
  rw [blockBody, length_flatMap_const fun i _ => each i, List.length_range]
  ring

theorem length_dumpBody (mask : Word) (s : State) : (dumpBody mask s).length = 8 * bodyCount mask := by
  unfold dumpBody bodyCount
  induction chosenBlocks mask with
  | nil => rfl
  | cons b l ih => rw [List.flatMap_cons, List.length_append, ih, length_blockBody, List.map_cons, List.sum_cons, Nat.mul_add]

theorem length_dumpRecord (l : Latch) (mask : Word) : (dumpRecord l mask).length = 64 + l.body.length + 8 := by
  simp only [dumpRecord, List.length_append, length_leBytes, length_wordsLe, List.length_cons, List.length_nil, List.length_replicate,
    timeWords]

/-! ### Trace records (R407, R408) -/

section
variable {b : Nat} {words : List Word} {s : State}

theorem putTrace_of_off (off : s.count.trace.enabled = false) : putTrace b words s = s := if_pos (by rw [off]; rfl)

/-- The bytes of a trace record. -/
def traceBytes (words : List Word) (s : State) : List Byte :=
  wordsLe (words ++ [w32 s.count.trace.seq, 0]) ++ leBytes 4 (crc32 (wordsLe (words ++ [w32 s.count.trace.seq, 0])))

theorem putTrace_of_on (on : s.count.trace.enabled = true) : putTrace b words s =
    if recordsFull s b then bump (ctr 0x14 0 12) s.tookFree
    else bump (ctr 0x14 0 10) ((ringPut s.count.trace.target (s.count.trace.seq % s.count.trace.slots * 64) (traceBytes words s)
      s.tookFree).modCount fun c =>
        { c with trace := { c.trace with seq := (s.count.trace.seq + 1) % 2 ^ 32, recent := pendingRecords s ++ [(b, s.time.now)] } }) :=
  if_neg (by rw [on]; exact Bool.false_ne_true)

/-- With fewer than 256 records of the barn that may be pending, none is discarded. -/
theorem recordsFull_of_few (few : (s.count.trace.recent.filter fun e => e.1 == b).length < 256) : recordsFull s b = false := by
  have least : ((pendingRecords s).filter fun x => x.1 == b).length ≤ (s.count.trace.recent.filter fun e => e.1 == b).length :=
    (List.filter_sublist.filter _).length_le
  rw [recordsFull, decide_eq_false (by omega), Bool.false_and]

end

end Sys2Proof.Machine
namespace Sys2Proof.Proofs

open Sys2Proof.Machine

/-- Settles O52: the configurations by their checks in order, a trigger by whether a window is open and sets are free. -/
theorem tallyAndTracing : Obligations.TallyAndTracing := by
  unfold Obligations.TallyAndTracing
  refine ⟨?tally, ?target, ?trace, ?latch, ?periodic, ?begins, ?merges, ?records, ?traced⟩
  case tally =>
    intro h args s i n ok acc
    have run := exec_tallyConfig h args s
    have eq := tallyConfig_eq args (fetched i s)
    refine ⟨fun bad => run_refused rfl acc run (eq.trans (if_pos bad)),
      fun en bad => run_refused rfl acc run (eq.trans ((if_neg (Nat.not_lt.mpr en)).trans (if_pos bad))), fun en least most => ?_, ?_, ?_⟩
    · have period : ¬(argN args 2 < 10 ∨ 10000000 < argN args 2) := by omega
      rw [if_neg (Nat.not_lt.mpr en), if_neg period] at eq
      exact ⟨fun bad => run_refused rfl acc run (eq.trans (if_pos bad)),
        fun kinds bad => run_refused rfl acc run (eq.trans ((if_neg (not_not.mpr kinds)).trans (if_pos bad))),
        fun kinds police bad => run_refused rfl acc run (eq.trans ((if_neg (not_not.mpr kinds)).trans
          ((if_neg (Nat.not_lt.mpr police)).trans (if_pos bad))))⟩
    all_goals
      have taken (good : ok) : tallyConfig args (fetched i s) = match ringTarget (fetched i s) args 5 (n * slotLen (arg args 3)) with
          | .error (st, d) => cmdRefuse st d (fetched i s)
          | .ok target => cmdOk ((fetched i s).modCount fun c => { c with tally := configuredTally args target c.tally }) := by
        obtain ⟨en, least, most, kinds, police, few, many⟩ := good
        rw [eq, if_neg (by omega), if_neg (by omega), if_neg (not_not.mpr kinds), if_neg (by omega), if_neg (by omega)]
    · intro target good found t same
      rw [found] at taken
      refine (run_ok rfl acc run (taken good)).trans ?_
      simp only [State.modCount, fetched_count, configuredTally_seq]
      rfl
    · intro st d good found
      rw [found] at taken
      exact run_refused rfl acc run (taken good)
  case target =>
    intro s args k n a
    refine ⟨ringTarget_host, fun one bad => (ringTarget_granary one).trans (if_pos bad.symm), fun one low high bad => ?_,
      fun one low high page retiring => ?_, fun one low high page kept => ?_, ringTarget_other⟩
    all_goals rw [ringTarget_granary one, if_neg (by omega)]
    · exact if_pos bad
    · rw [if_neg (not_not.mpr page)]
      exact if_pos retiring
    · rw [if_neg (not_not.mpr page)]
      exact if_neg kept
  case trace =>
    intro h args s i n ok acc
    have run := exec_traceConfig h args s
    have eq := traceConfig_eq args (fetched i s)
    refine ⟨fun bad => run_refused rfl acc run (eq.trans (if_pos bad)),
      fun en bad => run_refused rfl acc run (eq.trans ((if_neg (Nat.not_lt.mpr en)).trans (if_pos bad))), fun en least most => ?_, ?_, ?_⟩
    · have rate : ¬(argN args 2 < 8 ∨ 24 < argN args 2) := by omega
      rw [if_neg (Nat.not_lt.mpr en), if_neg rate] at eq
      exact ⟨fun bad => run_refused rfl acc run (eq.trans (if_pos bad)),
        fun classes bad => run_refused rfl acc run (eq.trans ((if_neg (Nat.not_lt.mpr classes)).trans (if_pos bad))),
        fun classes barns bad => run_refused rfl acc run (eq.trans ((if_neg (Nat.not_lt.mpr classes)).trans
          ((if_neg (Nat.not_lt.mpr barns)).trans (if_pos bad))))⟩
    all_goals
      have taken (good : ok) : traceConfig args (fetched i s) = match ringTarget (fetched i s) args 6 (n * 64) with
          | .error (st, d) => cmdRefuse st d (fetched i s)
          | .ok target => cmdOk ((fetched i s).modCount fun c => { c with trace := configuredTrace args target c.trace }) := by
        obtain ⟨en, least, most, classes, barns, few, many⟩ := good
        rw [eq, if_neg (by omega), if_neg (by omega), if_neg (by omega), if_neg (by omega), if_neg (by omega)]
    · intro target good found t
      rw [found] at taken
      refine (run_ok rfl acc run (taken good)).trans ?_
      simp only [State.modCount, fetched_count, configuredTrace_seq]
      rfl
    · intro st d good found
      rw [found] at taken
      exact run_refused rfl acc run (taken good)
  case latch =>
    intro h args s i t acc
    have run := exec_tallyLatch h args s
    refine ⟨fun l served => run_ok rfl acc run (tallyLatch_served served),
      fun lost => ⟨(List.range 4).map fun k => w32 (Config.freeValue (t.free + k)), t.free + 4, rfl, run_ok rfl acc run (tallyLatch_lost lost)⟩⟩
  case periodic => exact fun s => ⟨fun due => next_congr (periodicLatch_of_due due), fun no => next_congr (periodicLatch_of_not no)⟩
  case begins =>
    intro trig tag rank s closed t u begun
    obtain ⟨free, both⟩ := latch_begins trig tag rank (merges_of_closed closed)
    exact ⟨free, both.imp id fun lost => (show u = _ from lost) ▸ latchLost_leaves (waitingSets s) (s.tookMany 2)⟩
  case merges =>
    intro trig tag rank s l last began still u first l'
    have eq : u = mergeInto l trig tag rank s := latchAt_merges (merges_of_open last began still)
    rw [eq, mergeInto_count, mergeInto_time]
    exact ⟨rfl, rfl, rfl, rfl⟩
  case records =>
    refine ⟨by decide, length_dumpBody, length_dumpRecord, fun mask => ?_, fun l s a host => ?_, fun l s p o granary => ?_⟩
    · simp only [slotLen, recordLen]
      omega
    · simp only [putDump, host, ringPut]
    · simp only [putDump, granary, ringPut]
  case traced =>
    intro b words s t x y u written
    refine ⟨putTrace_of_off, fun on => ?_⟩
    have eq : u = _ := putTrace_of_on on
    have writes (room : recordsFull s b = false) : written := by
      rw [if_neg (by rw [room]; exact Bool.false_ne_true)] at eq
      refine ⟨by rw [eq]; rfl, fun a host => ?_, fun p o granary => ?_⟩
      · rw [eq, show s.count.trace.target = _ from host]
        rfl
      · rw [eq, show s.count.trace.target = _ from granary]
        rfl
    refine ⟨fun few => writes (recordsFull_of_few few), ?_⟩
    cases full : recordsFull s b
    case true => exact .inr (eq.trans (if_pos full))
    case false => exact .inl (writes full)

end Sys2Proof.Proofs
end

section
/-! SUPPORT. What leaves the Kindling table as it was (R315): every operation that an action of an entry is made of. One part for each
file of the model. -/

namespace Sys2Proof.Machine

theorem Sends.kindle {s t : State} (h : Sends s t) : t.kindle = s.kindle := by rw [h]

/-- A fold of operations that leave the Kindling table alone leaves it alone. -/
@[simp] theorem foldl_kindle {α : Type} {f : State → α → State} (h : ∀ s a, (f s a).kindle = s.kindle) (l : List α) (s : State) :
    (l.foldl f s).kindle = s.kindle := by
  induction l generalizing s with
  | nil => rfl
  | cons a l ih => rw [List.foldl_cons, ih, h]
@[simp] theorem ite_kindle (c : Prop) [Decidable c] (s t : State) :
    (if c then s else t).kindle = if c then s.kindle else t.kindle := apply_ite ..
@[simp] theorem ite_snd_kindle {α : Type} (c : Prop) [Decidable c] (p q : α × State) :
    (if c then p else q).2.kindle = if c then p.2.kindle else q.2.kindle := apply_ite (fun p : α × State => p.2.kindle) ..

/-- The state beside a value, of a pair that an equation names. -/
theorem kindle_snd {α : Type} {s t : State} {p : α × State} {a : α} (e : p = (a, t)) (h : p.2.kindle = s.kindle) :
    t.kindle = s.kindle := by
  rw [e] at h
  exact h

/-! ### Ops -/

@[simp] theorem modBarn_kindle (b : Nat) (f : Barn → Barn) (s : State) : (modBarn b f s).kindle = s.kindle := (modBarn_sends ..).kindle
@[simp] theorem modLaneOpt_kindle (l : Nat) (f : LaneOpt → LaneOpt) (s : State) : (modLaneOpt l f s).kindle = s.kindle :=
  rfl
@[simp] theorem modLaneLink_kindle (l : Nat) (f : LaneLink → LaneLink) (s : State) :
    (modLaneLink l f s).kindle = s.kindle := rfl
@[simp] theorem modPort_kindle (p : Nat) (f : Port → Port) (s : State) : (modPort p f s).kindle = s.kindle := rfl
@[simp] theorem tookFree_kindle (s : State) : (State.tookFree s).kindle = s.kindle := rfl
@[simp] theorem emit_kindle (o : Output) (s : State) : (emit o s).kindle = s.kindle := (emit_tells ..).kindle
@[simp] theorem bumpBy_kindle (id n : Nat) (s : State) : (bumpBy id n s).kindle = s.kindle := (bumpBy_sends ..).kindle
@[simp] theorem bump_kindle (id : Nat) (s : State) : (bump id s).kindle = s.kindle := (bump_tells ..).kindle
@[simp] theorem hostWrite_kindle (a : Nat) (bytes : List Byte) (s : State) : (hostWrite a bytes s).kindle = s.kindle := rfl
@[simp] theorem captureAt_kindle (source detail stamp : Nat) (s : State) :
    (captureAt source detail stamp s).kindle = s.kindle := (captureAt_tells ..).kindle
@[simp] theorem capture_kindle (source detail : Nat) (s : State) : (capture source detail s).kindle = s.kindle := (capture_tells ..).kindle
@[simp] theorem report_kindle (r : FaultRep) (s : State) : (report r s).kindle = s.kindle := (report_tells ..).kindle

/-! ### Routing -/

@[simp] theorem bumpEg_kindle (barn index : Nat) (s : State) : (bumpEg barn index s).kindle = s.kindle := rfl

/-! ### Flits -/

@[simp] theorem putRaw_kindle (l : Nat) (f : List Byte) (s : State) : (putRaw l f s).kindle = s.kindle := rfl
@[simp] theorem putMarker_kindle (l : Nat) (s : State) : (putMarker l s).kindle = s.kindle := by
  unfold putMarker
  split <;> simp
@[simp] theorem markerDue_kindle (l : Nat) (s : State) : (markerDue l s).kindle = s.kindle := by simp [markerDue]
@[simp] theorem modLastRetry_kindle (l : Nat) (f : RetryPkt → RetryPkt) (s : State) :
    (modLastRetry l f s).kindle = s.kindle := rfl
@[simp] theorem openEntry_kindle (l port : Nat) (info : Option PktInfo) (kind : RetryKind) (s : State) :
    (openEntry l port info kind s).kindle = s.kindle := rfl
@[simp] theorem putSeq_kindle (l ftype : Nat) (fw1 : Word) (payload : List Byte) (s : State) :
    (putSeq l ftype fw1 payload s).kindle = s.kindle := by
  simp [putSeq]
@[simp] theorem abortTx_kindle (l : Nat) (s : State) : (abortTx l s).kindle = s.kindle := by
  unfold abortTx
  split
  · rfl
  · simp
@[simp] theorem flushCtl_kindle (l : Nat) (s : State) : (flushCtl l s).kindle = s.kindle := by
  unfold flushCtl
  split
  · rfl
  · dsimp only
    split
    · rfl
    · rw [putSeq_kindle, openEntry_kindle, foldl_kindle fun _ _ => emit_kindle .., modLaneLink_kindle]
@[simp] theorem queueControl_kindle (l msg kind mtag arg : Nat) (s : State) :
    (queueControl l msg kind mtag arg s).kindle = s.kindle := by
  simp [queueControl]
@[simp] theorem sendControl_kindle (l msg kind mtag arg : Nat) (s : State) :
    (sendControl l msg kind mtag arg s).kindle = s.kindle := by
  simp [sendControl]
@[simp] theorem flushPort_kindle (p : Nat) (s : State) : (flushPort p s).kindle = s.kindle := by simp [flushPort]
@[simp] theorem reportFibre_kindle (l : Nat) (s : State) : (reportFibre l s).kindle = s.kindle :=
  foldl_kindle (fun _ _ => emit_kindle ..) _ _

/-! ### MemOps -/

@[simp] theorem daWrite_kindle (da : Nat) (bytes : List Byte) (s : State) : (daWrite da bytes s).kindle = s.kindle := (daWrite_sends ..).kindle
@[simp] theorem cacheRange_kindle (access da n : Nat) (write : Bool) (s : State) :
    (cacheRange access da n write s).kindle = s.kindle := by
  simp [cacheRange]

/-! ### Tracing -/

@[simp] theorem ringPut_kindle (t : RingTarget) (off : Nat) (bytes : List Byte) (s : State) :
    (ringPut t off bytes s).kindle = s.kindle := by
  unfold ringPut
  split <;> simp
@[simp] theorem putTrace_kindle (b : Nat) (words : List Word) (s : State) : (putTrace b words s).kindle = s.kindle := by
  simp [putTrace]
@[simp] theorem traceCell_kindle (i : PktInfo) (e : TraceEnd) (t : Tag) (s : State) :
    (traceCell i e t s).kindle = s.kindle := by
  simp [traceCell]
@[simp] theorem traceInfo_kindle (i : PktInfo) (e : TraceEnd) (s : State) : (traceInfo i e s).kindle = s.kindle := by
  simp [traceInfo]
@[simp] theorem traceStored_kindle (x : Stored) (e : TraceEnd) (s : State) : (traceStored x e s).kindle = s.kindle := by
  simp [traceStored]

/-! ### Forward -/

@[simp] theorem giveCredit_kindle (p c : Nat) (s : State) : (giveCredit p c s).kindle = s.kindle := (giveCredit_sends ..).kindle
@[simp] theorem updateWithheld_kindle (b : Nat) (s : State) : (updateWithheld b s).kindle = s.kindle := (updateWithheld_sends ..).kindle
@[simp] theorem returnCredit_kindle (port : Option Nat) (c n : Nat) (s : State) :
    (returnCredit port c n s).kindle = s.kindle := by
  unfold returnCredit
  split <;> simp
@[simp] theorem originate_kindle (b : Nat) (h : Header) (payload : List Byte) (result : Option ResultRef) (s : State) :
    (originate b h payload result s).kindle = s.kindle := (originate_sends ..).kindle
@[simp] theorem updateHolds_kindle (b : Nat) (s : State) : (updateHolds b s).kindle = s.kindle := by simp [updateHolds]
@[simp] theorem modStored_kindle (b pid : Nat) (f : Stored → Stored) (s : State) :
    (modStored b pid f s).kindle = s.kindle := rfl
@[simp] theorem freeStored_kindle (b pid : Nat) (s : State) : (freeStored b pid s).kindle = s.kindle := by
  unfold freeStored
  split <;> simp
@[simp] theorem killStored_kindle (b pid : Nat) (s : State) : (killStored b pid s).kindle = s.kindle := by
  unfold killStored
  split
  · simp
  · split <;> simp
@[simp] theorem dropRef_kindle (b pid port : Nat) (s : State) : (dropRef b pid port s).kindle = s.kindle := by
  unfold dropRef
  dsimp only
  split
  · rfl
  · simp
@[simp] theorem unassign_kindle (pid : Nat) (s : State) : (unassign pid s).kindle = s.kindle := rfl
@[simp] theorem purgeBarn_kindle (pid b : Nat) (s : State) : (purgeBarn pid b s).kindle = s.kindle := by
  unfold purgeBarn
  dsimp only
  split <;> simp
@[simp] theorem traceDiscard_kindle (pid : Nat) (s : State) : (traceDiscard pid s).kindle = s.kindle := by
  unfold traceDiscard
  dsimp only
  rw [foldl_kindle fun s e => ?ended, foldl_kindle fun s e => ?stored]
  case stored => split <;> simp
  case ended => split <;> simp
@[simp] theorem discardPkt_kindle (pid : Nat) (s : State) : (discardPkt pid s).kindle = s.kindle := by simp [discardPkt]

/-! ### Mailbox -/

@[simp] theorem endDetached_kindle (c : CmdRef) (r : Reply) (s : State) : (endDetached c r s).kindle = s.kindle := (endDetached_tells ..).kindle
@[simp] theorem endWith_kindle (c : CmdRef) (status detail : Nat) (s : State) :
    (endWith c status detail s).kindle = s.kindle := (endWith_tells ..).kindle

/-! ### CtxBase -/

@[simp] theorem modCtx_kindle (c : Nat) (f : Ctx → Ctx) (s : State) : (modCtx c f s).kindle = s.kindle := (modCtx_sends ..).kindle
@[simp] theorem areaWrite_kindle (a : PoolArea) (k : Nat) (bytes : List Byte) (s : State) :
    (areaWrite a k bytes s).kindle = s.kindle := foldl_kindle (fun _ _ => daWrite_kindle ..) _ _
@[simp] theorem storeRet_kindle (c g : Nat) (s : State) : (storeRet c g s).kindle = s.kindle := by
  unfold storeRet
  dsimp only
  split <;> simp

/-! ### SwitchCore -/

@[simp] theorem dropQueued_kindle (p : Nat) (s : State) : (dropQueued p s).kindle = s.kindle := by
  unfold dropQueued
  refine foldl_kindle (fun s c => foldl_kindle (fun s pid => ?_) _ _) _ _
  split
  · simp
  · rfl

/-! ### Collectives -/

@[simp] theorem modUnit_kindle (u : Nat) (f : Unit → Unit) (s : State) : (modUnit u f s).kindle = s.kindle := rfl
@[simp] theorem bumpUnit_kindle (u i : Nat) (s : State) : (bumpUnit u i s).kindle = s.kindle := rfl
@[simp] theorem modOpen_kindle (c g : Nat) (f : OpenIdx → OpenIdx) (s : State) : (modOpen c g f s).kindle = s.kindle := rfl
@[simp] theorem bumpColl_kindle (i : Nat) (s : State) (x : Ctx) (n : Nat) : (bumpColl i s x n).kindle = s.kindle := rfl
@[simp] theorem send_kindle (b : Nat) (h : Header) (payload : List Byte) (result : Option ResultRef) (s : State) :
    (send b h payload result s).kindle = s.kindle := (send_sends ..).kindle
@[simp] theorem sendNotice_kindle (c : Nat) (x : Ctx) (code reason sheaf : Nat) (detail : Word) (epoch : Nat)
    (payload : List Byte) (s : State) :
    (sendNotice c x code reason sheaf detail epoch payload s).kindle = s.kindle := (sendNotice_sends ..).kindle
@[simp] theorem completeIndex_kindle (c g : Nat) (s : State) : (completeIndex c g s).kindle = s.kindle := by
  simp [completeIndex]
@[simp] theorem abortCore_kindle (c reason : Nat) (o : Offence) (s : State) :
    (abortCore c reason o s).kindle = s.kindle := (abortCore_sends ..).kindle
@[simp] theorem abortPlain_kindle (c reason : Nat) (s : State) : (abortPlain c reason s).kindle = s.kindle := (abortPlain_sends ..).kindle
@[simp] theorem recallNamed_kindle (c reason n e log count : Nat) (gs : List Nat) (s : State) :
    (recallNamed c reason n e log count gs s).kindle = s.kindle := by
  simp [recallNamed]
@[simp] theorem recallRun_kindle (c reason : Nat) (u : Run) (s : State) : (recallRun c reason u s).kindle = s.kindle := by
  simp [recallRun]
@[simp] theorem recallUnit_kindle (c u : Nat) (s : State) : (recallUnit c u s).kindle = s.kindle := by simp [recallUnit]
@[simp] theorem fenceUnit_kindle (u cause : Nat) (s : State) : (fenceUnit u cause s).kindle = s.kindle := by
  unfold fenceUnit
  split
  · rfl
  · dsimp only
    rw [foldl_kindle fun _ _ => recallUnit_kindle ..]
    split
    · rw [foldl_kindle fun _ _ => abortPlain_kindle .., report_kindle, capture_kindle, modUnit_kindle]
    · rw [foldl_kindle fun _ _ => abortPlain_kindle .., foldl_kindle fun _ _ => abortPlain_kindle .., report_kindle, capture_kindle,
        modUnit_kindle]
@[simp] theorem settleFences_kindle (n : Nat) (s : State) : (settleFences n s).kindle = s.kindle := by
  induction n generalizing s with
  | zero => rfl
  | succ n ih =>
    rw [settleFences]
    split
    · rw [ih, fenceUnit_kindle]
    · rfl
@[simp] theorem abortCtx_kindle (c reason : Nat) (o : Offence) (s : State) : (abortCtx c reason o s).kindle = s.kindle := by
  rw [abortCtx, settleFences_kindle, abortCore_kindle]
@[simp] theorem modRet_kindle (c g : Nat) (f : Retained → Retained) (s : State) : (modRet c g f s).kindle = s.kindle := by
  simp [modRet]
@[simp] theorem resultLeaves_kindle (r : ResultRef) (s : State) : (resultLeaves r s).kindle = s.kindle := by
  unfold resultLeaves
  dsimp only
  split
  · simp
  · rfl
theorem foldl_send_kindle {α : Type} (b : Nat) (h : State → α → Header) (payload : List Byte) (result : Option ResultRef)
    (l : List α) (s : State) : (l.foldl (fun s a => send b (h s a) payload result s) s).kindle = s.kindle :=
  foldl_kindle (fun _ _ => send_kindle ..) l s
@[simp] theorem sendResult_kindle (c g : Nat) (payload : List Byte) (tally : Word) (s : State) :
    (sendResult c g payload tally s).kindle = s.kindle := by
  unfold sendResult
  extract_lets x k ref b before opened sent
  have open_ : opened.kindle = s.kindle := modOpen_kindle ..
  have left : sent.kindle = s.kindle := by
    simp only [sent]
    split
    · rw [foldl_send_kindle b (fun s m => resultHeader s c x (some m) k payload.length tally), open_]
    · rw [send_kindle, open_]
  split
  · rw [resultLeaves_kindle, left]
  · exact left
@[simp] theorem accumulate_kindle (u : Nat) (x : Ctx) (o : OpenIdx) (g : Nat) (s : State) :
    (accumulate u x o g s).kindle = s.kindle := by
  simp [accumulate]
@[simp] theorem sendPartial_kindle (c g : Nat) (payload : List Byte) (s : State) :
    (sendPartial c g payload s).kindle = s.kindle := by
  simp [sendPartial]
@[simp] theorem proceed_kindle (c g : Nat) (s : State) : (proceed c g s).kindle = s.kindle := by
  unfold proceed
  dsimp only
  split
  · rfl
  · split
    · rfl
    · simp only [ite_kindle, modOpen_kindle, bumpColl_kindle, sendResult_kindle, sendPartial_kindle, accumulate_kindle, storeRet_kindle,
        modCtx_kindle, ite_self]

/-! ### Sched -/

@[simp] theorem capturePort_kindle (kind port : Nat) (s : State) : (capturePort kind port s).kindle = s.kindle := by
  simp [capturePort]
@[simp] theorem latBegin_kindle (port cause : Nat) (s : State) : (latBegin port cause s).kindle = s.kindle := by
  simp [latBegin]
@[simp] theorem latEnd_kindle (port cause : Nat) (s : State) : (latEnd port cause s).kindle = s.kindle := by simp [latEnd]

/-! ### Ingress -/

@[simp] theorem dropRx_kindle (lane : Nat) (s : State) : (dropRx lane s).kindle = s.kindle := by simp [dropRx]
@[simp] theorem dropAllRx_kindle (lane : Nat) (s : State) : (dropAllRx lane s).kindle = s.kindle := by simp [dropAllRx]

/-! ### LaneBase -/

@[simp] theorem setLane_kindle (l : Nat) (x : LaneState) (s : State) : (setLane l x s).kindle = s.kindle := by
  simp [setLane]
@[simp] theorem bumpLink_kindle (l i : Nat) (s : State) : (bumpLink l i s).kindle = s.kindle := rfl
@[simp] theorem askWithdraw_kindle (l : Nat) (kind : WdKind) (s : State) : (askWithdraw l kind s).kindle = s.kindle := by
  simp [askWithdraw]
@[simp] theorem dropSlice_kindle (l outcome : Nat) (s : State) : (dropSlice l outcome s).kindle = s.kindle := by
  unfold dropSlice
  split <;> simp
@[simp] theorem endCmd_kindle (c : Option CmdRef) (s : State) : (endCmd c s).kindle = s.kindle := by
  unfold endCmd
  split <;> simp
@[simp] theorem endCmds_kindle (cs : List CmdRef) (status detail : Nat) (s : State) :
    (endCmds cs status detail s).kindle = s.kindle := by
  simp [endCmds]
@[simp] theorem endLaneCmds_kindle (l : Nat) (s : State) : (endLaneCmds l s).kindle = s.kindle := by simp [endLaneCmds]
@[simp] theorem modLaser_kindle (i : Nat) (f : Laser → Laser) (s : State) : (modLaser i f s).kindle = s.kindle := rfl
@[simp] theorem setLaser_kindle (i st : Nat) (s : State) : (setLaser i st s).kindle = s.kindle := by simp [setLaser]
@[simp] theorem calSet_kindle (kind index : Nat) (v : Int) (s : State) : (calSet kind index v s).kindle = s.kindle := rfl

/-! ### Circuits -/

@[simp] theorem modCirc_kindle (c : Nat) (f : Circuit → Circuit) (s : State) : (modCirc c f s).kindle = s.kindle := rfl
@[simp] theorem circTo_kindle (c st : Nat) (s : State) : (circTo c st s).kindle = s.kindle := by simp [circTo]
@[simp] theorem bumpFlue_kindle (i : Nat) (s : State) : (bumpFlue i s).kindle = s.kindle := rfl
@[simp] theorem giveBack_kindle (l : Nat) (taken : Bool) (s : State) : (giveBack l taken s).kindle = s.kindle := by
  simp [giveBack]
@[simp] theorem freeCirc_kindle (c : Nat) (s : State) : (freeCirc c s).kindle = s.kindle := by simp [freeCirc]
@[simp] theorem tenths_kindle (m : Int) (s : State) : (tenths m s).2.kindle = s.kindle := (tenths_tells ..).kindle
@[simp] theorem recordMeas_kindle (c : Nat) (ils : List Nat) (ms : List Int) (s : State) :
    (recordMeas c ils ms s).kindle = s.kindle := by
  cases ms with
  | nil => rfl
  | cons m rest => simp [recordMeas]
@[simp] theorem tuningFails_kindle (c : Nat) (m : FlueMeas) (s : State) : (tuningFails c m s).2.kindle = s.kindle := by
  simp [tuningFails]
@[simp] theorem switchOver_kindle (c : Nat) (s : State) : (switchOver c s).kindle = s.kindle := by simp [switchOver]
@[simp] theorem setupRefused_kindle (c : Nat) (r : Reply) (s : State) : (setupRefused c r s).kindle = s.kindle := by
  unfold setupRefused
  split <;> simp
@[simp] theorem finishSetup_kindle (c : Nat) (s : State) : (finishSetup c s).kindle = s.kindle := by
  unfold finishSetup
  dsimp only
  split
  · split
    · split
      next fails => rw [setupRefused_kindle, kindle_snd fails (tuningFails_kindle ..)]
      next passes => simp [kindle_snd passes (tuningFails_kindle ..)]
    · rfl
  · rfl
@[simp] theorem drained_kindle (l : Nat) (s : State) : (drained l s).kindle = s.kindle := by
  unfold drained
  dsimp only
  split <;> simp

/-! ### Lanes -/

@[simp] theorem movePath_kindle (old spare : Nat) (s : State) : (movePath old spare s).kindle = s.kindle := by
  rw [movePath, foldl_kindle fun _ _ => modLaneOpt_kindle ..]
  simp
@[simp] theorem checkSlice_kindle (x : Slice) (s : State) : (checkSlice x s).kindle = s.kindle := by simp [checkSlice]
@[simp] theorem wakeSlices_kindle (s : State) : (wakeSlices s).kindle = s.kindle := by simp [wakeSlices]
@[simp] theorem endSlice_kindle (l outcome : Nat) (s : State) : (endSlice l outcome s).kindle = s.kindle := by
  simp [endSlice]
@[simp] theorem skipSlice_kindle (l : Nat) (s : State) : (skipSlice l s).kindle = s.kindle := by simp [skipSlice]
@[simp] theorem relight_kindle (l : Nat) (s : State) : (relight l s).kindle = s.kindle := by simp [relight]
@[simp] theorem startPath_kindle (w : Swap) (s : State) : (startPath w s).kindle = s.kindle := by simp [startPath]
@[simp] theorem settleSwaps_kindle (s : State) : (settleSwaps s).kindle = s.kindle := by simp [settleSwaps]
@[simp] theorem leaveSwap_kindle (l : Nat) (s : State) : (leaveSwap l s).kindle = s.kindle := by simp [leaveSwap]
@[simp] theorem laneDown_kindle (l : Nat) (s : State) : (laneDown l s).kindle = s.kindle := by simp [laneDown]
@[simp] theorem unlinked_kindle (p : Nat) (s : State) : (unlinked p s).kindle = s.kindle := by simp [unlinked]
@[simp] theorem linkDown_kindle (p : Nat) (s : State) : (linkDown p s).kindle = s.kindle := by simp [linkDown]
@[simp] theorem untx_kindle (l : Nat) (s : State) : (untx l s).kindle = s.kindle := by
  unfold untx
  split
  · rfl
  · dsimp only
    split <;> rfl
@[simp] theorem requeueCtl_kindle (l : Nat) (rs : List RetryPkt) (s : State) : (requeueCtl l rs s).kindle = s.kindle :=
  foldl_kindle (fun _ _ => modLaneLink_kindle ..) _ _
@[simp] theorem askRehome_kindle (l : Nat) (s : State) : (askRehome l s).kindle = s.kindle := by simp [askRehome]
@[simp] theorem noteEmpty_kindle (p : Nat) (began : Bool) (s : State) : (noteEmpty p began s).kindle = s.kindle := by
  simp [noteEmpty]
@[simp] theorem leaveAbrupt_kindle (l : Nat) (served : Bool) (s : State) : (leaveAbrupt l served s).kindle = s.kindle := by
  unfold leaveAbrupt
  split
  · simp
  · split <;> simp

/-! ### Flue -/


/-! ### Kindling -/

@[simp] theorem flip_kindle (t : Nat) (s : State) : (flip t s).kindle = s.kindle := by simp [flip]

@[simp] theorem actCommit_kindle (s : State) : (actCommit s).2.kindle = s.kindle := by simp [actCommit]

@[simp] theorem dropDrain_kindle (l : Nat) (s : State) : (dropDrain l s).kindle = s.kindle := by simp [dropDrain]

@[simp] theorem cutSetup_kindle (c : Nat) (r : Reply) (s : State) : (cutSetup c r s).kindle = s.kindle := by simp [cutSetup]

@[simp] theorem closeCirc_kindle (c : Nat) (s : State) : (closeCirc c s).kindle = s.kindle := by
  have noticed (kind at_ : Nat) (t : State) : (flueNotice c kind at_ t).kindle = t.kindle := (flueNotice_sends ..).kindle
  simp [closeCirc, noticed]

@[simp] theorem connectCirc_kindle (c : Nat) (s : State) : (connectCirc c s).2.kindle = s.kindle := by
  unfold connectCirc
  split
  · simp
  · split <;> simp
  · rfl

@[simp] theorem actFlue_kindle (argw : Word) (s : State) : (actFlue argw s).2.kindle = s.kindle := by
  unfold actFlue
  dsimp only
  split
  · split <;> simp
  · have kept := connectCirc_kindle (fld argw 6 0) s
    split
    all_goals
      next found =>
        rw [found] at kept
        exact kept

@[simp] theorem sendReleased_kindle (c : Nat) (s : State) : (sendReleased c s).kindle = s.kindle := by
  unfold sendReleased
  refine foldl_kindle (fun s g => ?_) _ _
  dsimp only
  split <;> simp

@[simp] theorem actRelease_kindle (argw : Word) (s : State) : (actRelease argw s).2.kindle = s.kindle := by
  unfold actRelease
  dsimp only
  split <;> simp

@[simp] theorem modSeed_kindle (i : Nat) (f : Seed → Seed) (s : State) : (modSeed i f s).kindle = s.kindle := rfl

/-- One packet of an output. -/
def sendPiece (b : Nat) (d : List Word) (s : State) (p : Nat × List Byte) : State :=
  originate b (ownHeader s Kind.write (runTc d) true (runPartition d) 0 (p.2.length / 16) (runTree d)
    (w32 ((runRemote d + p.1) % 2 ^ 64 / 2 ^ 32)) (w32 ((runRemote d + p.1) % 2 ^ 64)) 0 0) p.2 none s

theorem sendOutput_eq (b : Nat) (d : List Word) (off : Nat) (bytes : List Byte) (s : State) : sendOutput b d off bytes s =
    (pieces (bytes.length / 4096 + 2) off bytes).foldl (sendPiece b d) s := by
  unfold sendOutput sendPiece
  rfl

theorem sendPieces_kindle (b : Nat) (d : List Word) (l : List (Nat × List Byte)) (s : State) :
    (l.foldl (sendPiece b d) s).kindle = s.kindle := by
  induction l generalizing s with
  | nil => rfl
  | cons p l ih =>
    rw [List.foldl_cons, ih]
    exact originate_kindle ..

@[simp] theorem sendOutput_kindle (b : Nat) (d : List Word) (off : Nat) (bytes : List Byte) (s : State) :
    (sendOutput b d off bytes s).kindle = s.kindle := by
  rw [sendOutput_eq]
  exact sendPieces_kindle ..

@[simp] theorem sendHeld_kindle (h : Harvest) (s : State) : (sendHeld h s).kindle = s.kindle := by
  unfold sendHeld
  exact foldl_kindle (fun _ _ => (sendOutput_kindle ..).trans (cacheRange_kindle ..)) _ _

@[simp] theorem actMcRelease_kindle (p : Nat) (argw : Word) (s : State) : (actMcRelease p argw s).2.kindle = s.kindle := by
  unfold actMcRelease
  dsimp only
  split
  · split
    · split <;> simp
    · rfl
  · split
    · split <;> simp
    · rfl

@[simp] theorem putDump_kindle (l : Latch) (s : State) : (putDump l s).kindle = s.kindle := ringPut_kindle ..

@[simp] theorem mergeInto_kindle (l : Latch) (trigger : BitVec 3) (tag tagFrom : Nat) (s : State) :
    (mergeInto l trigger tag tagFrom s).kindle = s.kindle := by
  have retagged (l' : Latch) : (retag l' (modTally (fun t => { t with last := some l' }) s)).kindle = s.kindle := by
    simp [retag, modTally]
  rw [mergeInto_eq]
  split
  · rw [putDump_kindle, retagged]
  · exact retagged _

@[simp] theorem latchNew_kindle (start : Nat) (trigger : BitVec 3) (tag tagFrom : Nat) (w : List Nat) (s : State) :
    (latchNew start trigger tag tagFrom w s).kindle = s.kindle := by
  have captured : (latchCaptured start trigger tag tagFrom s).kindle = s.kindle := captureAt_kindle ..
  have counted (id : Nat) (f : Tally → Tally) (t : State) : (bump id (modTally f t)).kindle = t.kindle := by simp [modTally]
  rw [latchNew_eq]
  split
  · rw [counted, putDump_kindle, captured]
  · rw [counted, captured]

@[simp] theorem latch_kindle (trigger : BitVec 3) (tag tagFrom : Nat) (s : State) : (latch trigger tag tagFrom s).kindle = s.kindle := by
  unfold latch latchAt
  split
  · exact mergeInto_kindle ..
  · dsimp only
    split
    · simp [latchLost, modTally, State.tookMany]
    · rw [latchNew_kindle]
      rfl

@[simp] theorem actTimed_kindle (i : Nat) (k : KEntry) (t n : Nat) (late : Bool) (s : State) :
    (actTimed i k t n late s).2.kindle = s.kindle := by
  unfold actTimed
  dsimp only
  split <;> simp

/-- No action changes the Kindling table. -/
theorem act_kindle (i : Nat) (k : KEntry) (t n : Nat) (late : Bool) (s : State) : (act i k t n late s).2.kindle = s.kindle := by
  unfold act
  split
  · exact actCommit_kindle s
  · exact actFlue_kindle ..
  · exact actRelease_kindle ..
  · exact actMcRelease_kindle ..
  · rfl
  · exact latch_kindle ..
  · exact actTimed_kindle ..

end Sys2Proof.Machine
end

section
/-! SUPPORT. The Kindling table (R312 to R320, R332): arming and disarming an entry, when it is due, what its execution leaves, and the
packets of a seed. -/

namespace Sys2Proof.Machine

@[simp] theorem fetched_theK (i : Instr) (s : State) (e : Nat) : theK (fetched i s) e = theK s e := by simp only [theK, fetched_kindle]
@[simp] theorem fetched_kPermits (i : Instr) (s : State) (k : KEntry) : kPermits (fetched i s) k = kPermits s k := by
  simp only [kPermits, fetched_theCtx, fetched_seedNamed, fetched_thresh, fetched_routing]
@[simp] theorem fetched_quotaRefusal (i : Instr) (s : State) (p res n : Nat) : quotaRefusal (fetched i s) p res n = quotaRefusal s p res n := by
  simp only [quotaRefusal, fetched_thePart, fetched_chargeOf]
@[simp] theorem fetched_nonActiveNow (i : Instr) (s : State) : nonActiveNow (fetched i s) = nonActiveNow s := by
  simp only [nonActiveNow, fetched_routing, fetched_time]

theorem theK_modK (e q : Nat) (f : KEntry → KEntry) (s : State) : theK (modK e f s) q = if e = q then f (theK s e) else theK s q :=
  tget_tmod s.kindle {} e q f

/-! ### KINDLE_ARM (R314, R329) -/

/-- The entry that a KINDLE_ARM gives. -/
def armedEntry (args : List Word) : KEntry :=
  { image := kImage args, armed := true, next := kLaunch { image := kImage args, armed := true } }

/-- The last checks of a KINDLE_ARM, and the arming. -/
def armLast (args : List Word) (s : State) : Res :=
  if kAction (armedEntry args) = 1 ∧ nonActiveNow s ≠ .sealedV then cmdRefuse St.tableNotSealed 0 s
  else if kAction (armedEntry args) = 1 ∧ commitArmed s then cmdRefuse St.busy 0 s
  else if (armedEntry args).next < s.time.now ∧ kRefuseLate (armedEntry args) then cmdRefuse St.lateRefused 0 s
  else
    let t := clearParity .kindling (· == argN args 1) (modK (argN args 1) (fun _ => armedEntry args) s)
    cmdOk (if (armedEntry args).next < s.time.now then kindleExec (argN args 1) true t else t)

section
variable {args : List Word} {s : State}

theorem kindleArm_of_badEntry (h : 256 ≤ argN args 1) : kindleArm args s = cmdRefuse St.badArgument 1 s := if_pos h

variable (within : argN args 1 < 256)
include within

theorem kindleArm_of_armed (h : (theK s (argN args 1)).armed = true) : kindleArm args s = cmdRefuse St.busy 0 s :=
  (if_neg (Nat.not_le.mpr within)).trans (if_pos h)

variable (free : (theK s (argN args 1)).armed = false)
include free

theorem kindleArm_of_unset (h : timeUnset s = true) : kindleArm args s = cmdRefuse St.timeUnset 0 s := by
  simp only [kindleArm, Nat.not_le.mpr within, free, h, if_false, if_true, Bool.false_eq_true]

variable (set : timeUnset s = false)
include set

theorem kindleArm_of_badWord {w : Nat} (h : kBadWord (armedEntry args) = some w) : kindleArm args s = cmdRefuse St.badArgument w s := by
  simp only [armedEntry] at h
  simp only [kindleArm, Nat.not_le.mpr within, free, set, h, if_false, Bool.false_eq_true]

variable (good : kBadWord (armedEntry args) = none)
include good

theorem kindleArm_of_goodWords : kindleArm args s =
    if (thePart s (kPartition (armedEntry args))).state = 2 then cmdRefuse St.partitionRetiring 0 s
    else if !kPermits s (armedEntry args) then cmdRefuse St.refusedPermission 0 s
    else (quotaRefusal s (kPartition (armedEntry args)) 2 1).elim (armLast args s) fun q => cmdRefuse q.1 q.2 s := by
  simp only [armedEntry] at good
  simp only [kindleArm, armLast, armedEntry, Nat.not_le.mpr within, free, set, good, if_false, Bool.false_eq_true]
  cases quotaRefusal s _ 2 1 <;> rfl

theorem kindleArm_of_retiring (h : (thePart s (kPartition (armedEntry args))).state = 2) :
    kindleArm args s = cmdRefuse St.partitionRetiring 0 s := by
  rw [kindleArm_of_goodWords within free set good, if_pos h]

variable (stays : (thePart s (kPartition (armedEntry args))).state ≠ 2)
include stays

theorem kindleArm_of_forbidden (h : kPermits s (armedEntry args) = false) : kindleArm args s = cmdRefuse St.refusedPermission 0 s := by
  rw [kindleArm_of_goodWords within free set good, if_neg stays, if_pos (by simp [h])]

variable (permits : kPermits s (armedEntry args) = true)
include permits

theorem kindleArm_of_spent {q : Nat × Nat} (h : quotaRefusal s (kPartition (armedEntry args)) 2 1 = some q) :
    kindleArm args s = cmdRefuse q.1 q.2 s := by
  rw [kindleArm_of_goodWords within free set good, if_neg stays, if_neg (by simp [permits]), h, Option.elim_some]

variable (quota : quotaRefusal s (kPartition (armedEntry args)) 2 1 = none)
include quota

theorem kindleArm_of_quota : kindleArm args s = armLast args s := by
  rw [kindleArm_of_goodWords within free set good, if_neg stays, if_neg (by simp [permits]), quota, Option.elim_none]

theorem kindleArm_of_notSealed (commit : kAction (armedEntry args) = 1) (h : nonActiveNow s ≠ .sealedV) :
    kindleArm args s = cmdRefuse St.tableNotSealed 0 s := by
  rw [kindleArm_of_quota within free set good stays permits quota, armLast, if_pos ⟨commit, h⟩]

theorem kindleArm_of_secondCommit (commit : kAction (armedEntry args) = 1) (sealed_ : nonActiveNow s = .sealedV)
    (h : commitArmed s = true) : kindleArm args s = cmdRefuse St.busy 0 s := by
  rw [kindleArm_of_quota within free set good stays permits quota, armLast, if_neg (by simp [sealed_]), if_pos ⟨commit, h⟩]

variable (commits : kAction (armedEntry args) = 1 → nonActiveNow s = .sealedV ∧ commitArmed s = false)
include commits

theorem kindleArm_arms : kindleArm args s =
    if (armedEntry args).next < s.time.now ∧ kRefuseLate (armedEntry args) then cmdRefuse St.lateRefused 0 s
    else
      let t := clearParity .kindling (· == argN args 1) (modK (argN args 1) (fun _ => armedEntry args) s)
      cmdOk (if (armedEntry args).next < s.time.now then kindleExec (argN args 1) true t else t) := by
  rw [kindleArm_of_quota within free set good stays permits quota, armLast, if_neg fun h => h.2 (commits h.1).1,
    if_neg fun h => absurd h.2 (by rw [(commits h.1).2]; decide)]

theorem kindleArm_of_early (h : s.time.now ≤ (armedEntry args).next) : kindleArm args s =
    cmdOk (clearParity .kindling (· == argN args 1) (modK (argN args 1) (fun _ => armedEntry args) s)) := by
  rw [kindleArm_arms within free set good stays permits quota commits, if_neg fun late => Nat.not_lt.mpr h late.1]
  exact congrArg cmdOk (if_neg (Nat.not_lt.mpr h))

theorem kindleArm_of_lateRefused (h : (armedEntry args).next < s.time.now) (refuse : kRefuseLate (armedEntry args) = true) :
    kindleArm args s = cmdRefuse St.lateRefused 0 s := by
  rw [kindleArm_arms within free set good stays permits quota commits, if_pos ⟨h, refuse⟩]

theorem kindleArm_of_late (h : (armedEntry args).next < s.time.now) (takes : kRefuseLate (armedEntry args) = false) :
    kindleArm args s = cmdOk (kindleExec (argN args 1) true
      (clearParity .kindling (· == argN args 1) (modK (argN args 1) (fun _ => armedEntry args) s))) := by
  rw [kindleArm_arms within free set good stays permits quota commits, if_neg (by simp [takes])]
  exact congrArg cmdOk (if_pos h)

end

/-! ### KINDLE_DISARM (R319) -/

section
variable {args : List Word} {s : State}

theorem kindleDisarm_of_badEntry (h : 256 ≤ argN args 1) : kindleDisarm args s = cmdRefuse St.badArgument 1 s := if_pos h

theorem kindleDisarm_of_entry (h : argN args 1 < 256) : kindleDisarm args s =
    cmdOkWith [w32 (bit (theK s (argN args 1)).performed), w32 (sat (2 ^ 32 - 1) (theK s (argN args 1)).count)]
      (if (theK s (argN args 1)).armed then modK (argN args 1) (fun k => { k with armed := false }) s else s) :=
  if_neg (Nat.not_le.mpr h)

end

theorem w32_bit (b : Bool) : w32 (bit b) = if b then 1 else 0 := by cases b <;> rfl

/-! ### When an entry is due (R316) -/

theorem kindleDue_iff (s : State) (e : Nat) : kindleDue s e = true ↔ kLive s e = true ∧ (theK s e).next ≤ s.time.now ∧
    ∀ x ∈ s.kindle, x.1 < e → kLive s x.1 = true → s.time.now < x.2.next := by
  simp only [kindleDue, Bool.and_eq_true, decide_eq_true_eq, Bool.not_eq_true', List.any_eq_false, and_assoc, not_and, Nat.not_le]

section
variable {e a : Nat} {seed : Bool} {s : State}

theorem kindleAt_due (due : kindleDue s e = true) (action : kAction (theK s e) = a) (same : a = 4 → bitAt (kArg (theK s e)) 31 = seed) :
    kindleAt e a seed s = kindleExec e (decide ((theK s e).next + nsU 20 < s.time.now)) s := by
  refine if_pos ?_
  simp only [due, action, Bool.true_and, beq_self_eq_true, Bool.or_eq_true, bne_iff_ne, beq_iff_eq]
  exact or_iff_not_imp_left.mpr fun h => same (not_not.mp h)

theorem kindleAt_ignored (h : kindleDue s e = false ∨ kAction (theK s e) ≠ a) : kindleAt e a seed s = s := by
  refine if_neg ?_
  rcases h with idle | other
  · simp [idle]
  · simp [other]

theorem kindleAt_otherRelease (h : bitAt (kArg (theK s e)) 31 ≠ seed) : kindleAt e 4 seed s = s :=
  if_neg (by simp [h])

/-- The two rows of a multicast release share it by what its entry names. -/
theorem kindleAt_release (due : kindleDue s e = true) (action : kAction (theK s e) = 4) (seed : Bool) : kindleAt e 4 seed s =
    if bitAt (kArg (theK s e)) 31 = seed then kindleExec e (decide ((theK s e).next + nsU 20 < s.time.now)) s else s := by
  split
  next same => exact kindleAt_due due action fun _ => same
  next other => exact kindleAt_otherRelease other

end

/-! ### Execution (R316 to R318) -/

section
variable {k : KEntry} {s : State}

theorem launchTaken_of_last (h : launchesBefore k s.time.now ≤ k.launches) : launchTaken k s = (launchesBefore k s.time.now, s) := if_pos h

theorem launchTaken_of_several (h : k.launches < launchesBefore k s.time.now) :
    launchTaken k s = (k.launches + freeBelow s (launchesBefore k s.time.now + 1 - k.launches), s.tookFree) := if_neg (Nat.not_le.mpr h)

end

/-- An entry after an execution at an instant that has come to an outcome code. -/
def executed (more : Bool) (next code now m : Nat) (k : KEntry) : KEntry :=
  { k with armed := more, next := next, outcome := code, count := k.count + 1,
           performed := k.performed || code == 1 || code == 2, lastExec := now, launches := m }

/-- What the execution of an entry counts, captures and posts. -/
def tellExec (e : Nat) (late : Bool) (code t : Nat) (s : State) : State :=
  let s := bumpTime 7 s
  let s := if late then bumpTime 8 s else s
  let s := if code = 3 ∨ code = 4 then bumpTime 9 s else s
  postOutcome e code t (capture 6 (e * 256 + code) s)

theorem theK_bumpTime (e n : Nat) (s : State) : theK (bumpTime n s) e = theK s e := rfl

/-- An execution is told after its entry has been counted. -/
theorem tellExec_theK (e : Nat) (late : Bool) (code t : Nat) (s : State) :
    ∃ v, tellExec e late code t s = postOutcome e code t (capture 6 (e * 256 + code) v) ∧ theK v e = theK s e := by
  refine ⟨_, rfl, ?_⟩
  have still (c : Prop) [Decidable c] (n : Nat) (u : State) : theK (if c then bumpTime n u else u) e = theK u e := by
    split
    · rfl
    · rfl
  rw [still, still, theK_bumpTime]

/-- The outcome code of an action that has been tried. -/
def outcomeCode (late : Bool) : Acted → Nat
  | .done => if late then 2 else 1
  | .refused => 3
  | .delayed => 5

/-- Whether an executed entry has a next launch. -/
def hasNext (k : KEntry) (m : Nat) : Bool := decide (kPeriod k ≠ 0) && (kRepeat k == 0 || decide (m + 1 < kRepeat k))

/-- Launch n of an entry, from 0. -/
def launchAt (k : KEntry) (n : Nat) : Nat := kLaunch k + n * nsU (kPeriod k)

theorem launchTaken_kindle (k : KEntry) (s : State) : (launchTaken k s).2.kindle = s.kindle := by
  unfold launchTaken
  dsimp only
  split
  · rfl
  · rfl


/-- A change of an entry that is the same for the entry as it stands. -/
theorem modK_congr {e : Nat} {f g : KEntry → KEntry} {s : State} (h : f (theK s e) = g (theK s e)) : modK e f s = modK e g s :=
  congrArg (fun k => s.modKindle fun t => tset t {} e k) h

/-- What an entry's execution leaves, by what its action has come to. -/
def execLeaves (e : Nat) (late : Bool) (k : KEntry) (m n code : Nat) (s : State) : State :=
  tellExec e late code (launchAt k n) (modK e
    (executed (hasNext k m) (if hasNext k m then launchAt k (m + 1) else launchAt k n) code s.time.now (m + 1)) s)

section
variable {e n : Nat} {late : Bool} {s u : State} (taken : launchTaken (theK s e) s = (n, u))
include taken

theorem kindle_of_taken : u.kindle = s.kindle := by
  have kept := launchTaken_kindle (theK s e) s
  rwa [taken] at kept

theorem kindleExec_refused (refuse : (late && kRefuseLate (theK s e)) = true) :
    kindleExec e late s = execLeaves e late (theK s e) (launchesBefore (theK s e) s.time.now) n 4 u := by
  have own : theK u e = theK s e := by rw [theK, kindle_of_taken taken, theK]
  simp only [kindleExec, taken, refuse, if_true]
  refine congrArg (tellExec e late 4 (launchAt (theK s e) n)) (modK_congr ?_)
  rw [own]
  rfl

theorem kindleExec_acts (tries : (late && kRefuseLate (theK s e)) = false) {a : Acted} {v : State}
    (acts : act e (theK s e) (launchAt (theK s e) n) (n + 1) late u = (a, v)) :
    kindleExec e late s = execLeaves e late (theK s e) (launchesBefore (theK s e) s.time.now) n (outcomeCode late a) v := by
  have own : theK v e = theK s e := by
    have kept := act_kindle e (theK s e) (launchAt (theK s e) n) (n + 1) late u
    rw [acts] at kept
    rw [theK, kept, kindle_of_taken taken, theK]
  have step (code : Nat) : execLeaves e late (theK s e) (launchesBefore (theK s e) s.time.now) n code v =
      tellExec e late code (launchAt (theK s e) n) (modK e (fun k => executed (hasNext (theK s e) (launchesBefore (theK s e) s.time.now))
        (if hasNext (theK s e) (launchesBefore (theK s e) s.time.now) then launchAt k (launchesBefore (theK s e) s.time.now + 1)
          else launchAt (theK s e) n) code v.time.now (launchesBefore (theK s e) s.time.now + 1) k) v) := by
    refine congrArg (tellExec e late code (launchAt (theK s e) n)) (modK_congr ?_)
    rw [own]
  rw [step]
  simp only [kindleExec, taken, tries, ← launchAt.eq_def, ← hasNext.eq_def, Bool.false_eq_true, if_false, acts]
  cases a <;> rfl

end

/-! ### The packets of a seed (R332) -/

theorem seedPacket_ignored {i : Nat} {ue : Bool} {s : State} (h : (theSeed s i).state ≠ 2 ∨ (theSeed s i).length ≤ (theSeed s i).sent ∨
    barnUp s (granHome ((theSeed s i).offset + (theSeed s i).sent)) = false) : seedPacket i ue s = s := by
  refine if_neg ?_
  rcases h with idle | whole | down
  · exact fun runs => idle runs.1
  · exact fun runs => Nat.not_lt.mpr whole runs.2.1
  · exact fun runs => absurd runs.2.2 (by rw [down]; decide)

theorem seedPacket_sent {i : Nat} {ue : Bool} {s : State} (sending : (theSeed s i).state = 2)
    (left : (theSeed s i).sent < (theSeed s i).length)
    (up : barnUp s (granHome ((theSeed s i).offset + (theSeed s i).sent)) = true) : seedPacket i ue s =
      let x := theSeed s i
      let n := Nat.min 4096 (x.length - x.sent)
      let o := x.offset + x.sent
      let t := if ue then memUE o x.partition none s else originate (granHome o) (seedHeader s x n) (daRead s o n) none s
      settleSeeds (modSeed i (fun x => { x with
        sent := x.sent + n, lastPid := if t.core.nextPid = s.core.nextPid then x.lastPid else some s.core.nextPid }) t) :=
  if_pos ⟨sending, left, up⟩

/-! ### What the simple actions come to (R315) -/

section
variable {e t n : Nat} {k : KEntry} {late : Bool} {s : State}

theorem act_of_commit (action : kAction k = 1) : act e k t n late s = actCommit s := by simp only [act, action]
theorem act_of_bank (action : kAction k = 5) :
    act e k t n late s = (.done, s.modSched fun d => { d with bankPend := some (fld (kArg k) 1 0) }) := by simp only [act, action]
theorem act_of_dump (action : kAction k = 6) : act e k t n late s = (.done, latch 4 (fld (kArg k) 15 0) e s) := by
  simp only [act, action]

end

end Sys2Proof.Machine

namespace Sys2Proof.Proofs

open Sys2Proof.Machine

/-- Settles O44: the checks of the arming in their order, the rows by when their entry is due, and an execution by what its action
comes to, which leaves the table as it is. -/
theorem kindling : Obligations.Kindling := by
  unfold Obligations.Kindling
  refine ⟨?arm, ?disarm, kindleDue_iff, ?rows, ?release, ?taken, ?exec, ?acts, ?seed⟩
  case arm =>
    intro h args s i e k0 k t acc
    have run := exec_kindleArm h args s
    rw [← fetched_theK i, ← fetched_timeUnset i, ← fetched_thePart i, ← fetched_kPermits i, ← fetched_quotaRefusal i, ← fetched_nonActiveNow i,
      ← fetched_commitArmed i, ← fetched_time i]
    refine ⟨fun bad => run_refused rfl acc run (kindleArm_of_badEntry bad), fun within armed => run_refused rfl acc run (kindleArm_of_armed within armed),
      fun within free unset => run_refused rfl acc run (kindleArm_of_unset within free unset), fun within free set => ⟨fun w bad =>
        run_refused rfl acc run (kindleArm_of_badWord within free set bad), fun good retires => run_refused rfl acc run (kindleArm_of_retiring within free set good retires),
        fun good stays forbidden => run_refused rfl acc run (kindleArm_of_forbidden within free set good stays forbidden),
        fun good stays permits => ⟨fun q spent => run_refused rfl acc run (kindleArm_of_spent within free set good stays permits spent),
          fun quota => ⟨fun commit open_ => run_refused rfl acc run (kindleArm_of_notSealed within free set good stays permits quota commit open_),
            fun commit sealed_ second => run_refused rfl acc run (kindleArm_of_secondCommit within free set good stays permits quota commit sealed_ second),
            fun commits => ⟨fun early => run_ok rfl acc run (kindleArm_of_early within free set good stays permits quota commits early),
              fun late refuse => run_refused rfl acc run (kindleArm_of_lateRefused within free set good stays permits quota commits late refuse),
              fun late takes => run_ok rfl acc run (kindleArm_of_late within free set good stays permits quota commits late takes)⟩⟩⟩⟩⟩
  case disarm =>
    intro h args s i e acc
    have run := exec_kindleDisarm h args s
    rw [← fetched_theK i]
    refine ⟨fun bad => run_refused rfl acc run (kindleDisarm_of_badEntry bad), fun within => ?_⟩
    have eq := kindleDisarm_of_entry (s := fetched i s) within
    rw [w32_bit, sat_eq_min] at eq
    exact run_ok rfl acc run eq
  case rows =>
    intro e s row is
    obtain rfl | rfl | rfl | rfl | rfl | rfl := is
    all_goals exact ⟨fun due action => next_congr (kindleAt_due due action fun four => absurd four (by decide)), fun other => next_congr (kindleAt_ignored other)⟩
  case release =>
    intro e s late seed
    refine ⟨fun due action => ⟨next_congr ((kindleAt_release due action false).trans ?_), next_congr (kindleAt_release due action true)⟩,
      fun other => ⟨next_congr (kindleAt_ignored other), next_congr (kindleAt_ignored other)⟩⟩
    show _ = if bitAt (kArg (theK s e)) 31 = true then _ else _
    cases bitAt (kArg (theK s e)) 31 <;> rfl
  case taken =>
    intro k s m
    refine ⟨launchTaken_of_last, fun several => ?_⟩
    have below : freeBelow s (m + 1 - k.launches) < m + 1 - k.launches := Nat.mod_lt _ (by omega)
    rw [launchTaken_of_several several]
    exact ⟨Nat.le_add_right _ _, by show k.launches + freeBelow s (m + 1 - k.launches) ≤ m; omega, rfl⟩
  case exec =>
    intro e late s k m
    cases taken : launchTaken k s with
    | mk n r =>
    intro a u code came
    have leaves : kindleExec e late s = execLeaves e late k m n code u := by
      by_cases refuse : (late && kRefuseLate k) = true
      · rw [if_pos refuse] at came
        obtain ⟨-, rfl, rfl⟩ := came
        exact kindleExec_refused taken refuse
      · rw [if_neg refuse] at came
        obtain ⟨acts, done, refused, delayed⟩ := came
        have is : code = outcomeCode late a := by
          cases a
          · exact done rfl
          · exact refused rfl
          · exact delayed rfl
        rw [is]
        exact kindleExec_acts taken (Bool.eq_false_iff.mpr refuse) acts
    obtain ⟨v, told, own⟩ := tellExec_theK e late code (launchAt k n) (modK e
      (executed (hasNext k m) (if hasNext k m then launchAt k (m + 1) else launchAt k n) code u.time.now (m + 1)) u)
    refine ⟨v, leaves.trans told, own.trans ?_⟩
    rw [theK_modK, if_pos rfl]
    rfl
  case acts =>
    intro e k t n late s
    refine ⟨fun action sealed_ => (act_of_commit action).trans (if_pos sealed_), fun action other => (act_of_commit action).trans (if_neg other),
      act_of_bank, act_of_dump⟩
  case seed =>
    intro d ue s x
    exact ⟨fun other => next_congr (seedPacket_ignored other), fun sending left up => next_congr (seedPacket_sent sending left up)⟩

end Sys2Proof.Proofs
end
